-- ==== Sys2Proof/Word.lean ====
section
/-! DEFINITION. The word and byte types of the LM9 model. -/
namespace Sys2Proof

/-- One byte of a register, payload or data line (R2 fixes little-endian order; byte 0 holds bits [7:0]). -/
abbrev Byte := BitVec 8

/-- A run of bytes, byte 0 first. -/
abbrev Bytes := List Byte

/-- A 64-bit register or record word. -/
abbrev Word := BitVec 64

end Sys2Proof
end

