-- ==== Sys2Proof/Syntax.lean ====
section
/-! DEFINITION. The commands of the LM9: one constructor for each row of spec/opcode_table.json, with the
operands that the row's rule names. `t` is the module's wall time in ns at which a time-driven step happens.
Identifiers of objects are plain numbers; `WellFormed` says which are in range. -/
namespace Sys2Proof

/-- What a mailbox doorbell carries besides the command's own fields (R356, R357): the issuing mailbox
(0 to 15 an LD, 16 the FM-owned LD), the TARGET byte, what the input holds that R7 forbids as one number (reserved
bytes and bits that are not zero, and a reserved encoding of an enumerated field that the command's own operands
cannot hold), and the length of the input payload in bytes. -/
structure MbHdr where
  src : Nat
  target : Nat
  resv : Nat
  len : Nat
  deriving DecidableEq, Repr

/-- The header and data of one input part (Table 15.1, R360). -/
structure Part where
  offset : Nat
  total : Nat
  final : Bool
  data : Bytes
  deriving DecidableEq, Repr

/-- An output request (Table 15.1, R361): OFFSET or FIRST, and MAXLEN or MAXREC. -/
structure OutReq where
  first : Nat
  maxn : Nat
  deriving DecidableEq, Repr

/-- One range named by a dynamic capacity command: DPA and length in bytes. -/
structure DcRange where
  base : Nat
  len : Nat
  deriving DecidableEq, Repr

/-- One extent of an Initiate Dynamic Capacity Add (Table 2.8, step 1). For the Enable Shared Access policy
`shared` is set and `srcLd`, `srcBase` name the owner's range. -/
structure DcAdd where
  region : Nat
  base : Nat
  len : Nat
  tag : Nat
  shared : Bool
  srcLd : Nat
  srcBase : Nat
  deriving DecidableEq, Repr

/-- MetaValue of an HDM-DB request (Table 14.5). -/
inductive MetaVal where
  | any
  | shared
  | invalid
  deriving DecidableEq, Repr

/-- The fields of a go line (Table 7.3) apart from OPCODE. `resv` gathers its reserved bits and IMM. -/
structure GoLine where
  nowheel : Bool
  early : Bool
  turnlo : Nat
  layer : Nat
  wheel : Nat
  seq : Nat
  plines : Nat
  handle : Nat
  obj : Nat
  resv : Nat
  deriving DecidableEq, Repr

/-- A write to line 0 of a slot position: the LD, the DPA of the position, the go line, whether all 64 bytes are
enabled (R170) and whether the data carries poison (R346). -/
structure GoWrite where
  ld : Nat
  dpa : Nat
  line : GoLine
  full : Bool
  poison : Bool
  deriving DecidableEq, Repr

/-- A unit of Table 1.8 that can fail without stopping the module. -/
inductive FailUnit where
  | stone (n : Nat)
  | stack (n : Nat)
  | ringHop (n : Nat)
  | hubLeat (die : Nat)
  | stoneDie (die : Nat)
  | lane (port lane : Nat)
  | engine (port : Nat)
  | flashDie (n : Nat)
  | package (k : Nat)
  deriving DecidableEq, Repr

/-- A kind of part with thermal thresholds (Table 17.8, HLT_THERM.PART). -/
inductive Part17 where
  | hub
  | stoneDie
  | stack
  | engine
  | flash
  deriving DecidableEq, Repr

/-- One marker symbol of a lane: the lane number, the alignment count and a width message, if it carries one (R309). -/
structure Marker where
  lane : Nat
  align : Nat
  mask : Option (BitVec 8)
  deriving DecidableEq, Repr

/-- A codeword that a lane receives: its marker, the 256 data symbols that the sender encoded, and the 271 symbols received (R309). -/
structure LaneWord where
  marker : Marker
  data : List (BitVec 10)
  got : List (BitVec 10)
  deriving DecidableEq, Repr

/-- Which row of Table 14.6 a link or request error sets is fixed by the command; a flit CRC failure says which codewords the flit
came in, each with its lane, whether the flit is beyond correction, whether this was the fourth replay of the flit, and whether a
threshold of 16 within 1 ms has been reached (R310, R347). -/
structure FlitErr where
  words : List (Nat × LaneWord)
  uncorrectable : Bool
  rollover : Bool
  crcThreshold : Bool
  retryThreshold : Bool
  deriving DecidableEq, Repr

/-- How a replayed piece compares with the first run (Table 12.2): whether the input digests differ, whether the
outputs are bit-identical, whether the replay passes its own check, and, for a third run, which earlier run
it equals (0 the first, 1 the second, 2 neither, 3 no third run). -/
structure ReplayRes where
  digestDiffers : Bool
  identical : Bool
  passes : Bool
  third : Nat
  deriving DecidableEq, Repr

/-- The outcome of a flash page read (R247): how many shifted-level retries, whether the page was rebuilt from
parity, and whether it could not be rebuilt. -/
inductive PageOutcome where
  | clean
  | retried
  | rebuilt
  | lost
  deriving DecidableEq, Repr

/-- The outcome of a self-test slice (R409, R410). -/
inductive SliceOutcome where
  | pass
  | margin
  | fail
  deriving DecidableEq, Repr

/-- Why a register of BAR2 is accessed: page (0 to 15 an LD page, 16 the FM page, 32 + n the BAR0 of function n, 64 + n its configuration space), offset, size in bytes, value. -/
structure RegAccess where
  page : Nat
  offset : Nat
  size : Nat
  value : Word
  deriving DecidableEq, Repr

/-- The header of a received peer packet (Table 13.5); `resv` gathers its reserved bits. -/
structure PeerHdr where
  port : Nat
  ptype : Nat
  early : Bool
  last : Bool
  window : Nat
  gen : Nat
  lines : Nat
  srcNode : Nat
  srcLd : Nat
  status : Nat
  tag : Nat
  fwdid : Nat
  dest : Nat
  resv : Nat
  deriving DecidableEq, Repr

/-- A confirm, retract or extend message (Table 12.3) apart from KIND. -/
structure Settle where
  cause : Nat
  node : Nat
  ld : Nat
  wheel : Nat
  nowheel : Bool
  layer : Nat
  turn : Nat
  seq : Nat
  gbuf : Nat
  opcode : Nat
  fwdid : Nat
  dest : Nat
  lines : Nat
  deriving DecidableEq, Repr

/-- The fields of one HDM decoder as software sets them before a commit (R336). `three` selects 3 × 2^w ways. -/
structure HdmSetup where
  base : Nat
  hpaSize : Nat
  ways : Nat
  gran : Nat
  target : Nat
  skip : Nat
  bi : Bool
  deriving DecidableEq, Repr

/-- One peer window descriptor as Set Peer Window carries it (Table 13.7, Table 15.4). -/
structure PeerWin where
  dir : Nat
  ld : Nat
  node : Nat
  enable : Bool
  base : Nat
  len : Nat
  deriving DecidableEq, Repr

/-- One constructor for each row of spec/opcode_table.json, in the table's order. -/
inductive Instr where
  /-- CXL_MEM_READ (R15): A CXL.mem read is decoded through HDM, extent, sack map and merge buffer and is served from the newest copy, or held as a demand read, or answered with poison. -/
  | cxlMemRead (port ldid hpa tag : Nat) (mv : MetaVal) (upset : Nat)
  /-- CXL_MEM_WRITE (R15): A CXL.mem write is decoded, checked and merged into its merge-buffer block entry, and a durable write completes once its mirror records are held. -/
  | cxlMemWrite (port ldid hpa tag : Nat) (data : Bytes) (enables : BitVec 64) (poison : Bool)
  /-- SACK_ALLOC_JOURNALLED (R40): The journalled allocation entry moves the sack from ALLOCATING to CLEAN or DEEP and releases the requests held on it. -/
  | sackAllocJournalled (t sack : Nat)
  /-- SACK_ENTRY_REBUILD (R41): A corrupt or uncorrectable sack map entry is rebuilt from the journal, or the sack is poisoned, and the held request proceeds. -/
  | sackEntryRebuild (t sack : Nat) (journalOk : Bool)
  /-- MERGE_IDLE_FLUSH (R83): A partial merge-buffer entry that has had no write for 64 µs passes to the encoder by read-modify-write. -/
  | mergeIdleFlush (t blk : Nat)
  /-- ENCODER_WRITE_DONE (R241): An encoded block lands in T1 or T2, its DIRTY bit and side record are set, and its merge-buffer entry is freed. -/
  | encoderWriteDone (t blk : Nat)
  /-- MIRROR_RECORD_FREED (R89): A freed mirror record lets a durable write held for want of a record proceed. -/
  | mirrorRecordFreed (t blk : Nat)
  /-- GOVERNOR_STEP (R19): When the averaged input power exceeds the limit the governor takes its next step, lowering a clock, point or deep rate. -/
  | governorStep (t avg : Nat)
  /-- GOVERNOR_RETREAT (R418): After average power has stayed 20 W below the limit for 50 ms the governor undoes one step. -/
  | governorRetreat (t avg : Nat)
  /-- THERMAL_STEP (R416): While a sensor is at or above its step threshold the LM9 takes one thermal step each millisecond and posts a THERMAL event. -/
  | thermalStep (t : Nat) (part : Part17) (unit : Nat) (temp : Int)
  /-- THERMAL_RETREAT (R416): After a part's sensors have stayed below the retreat threshold for 100 ms one of its thermal steps is undone. -/
  | thermalRetreat (t : Nat) (part : Part17) (unit : Nat) (temp : Int)
  /-- THERMAL_TRIP (R417): A sensor at its trip threshold asserts THERMTRIP_N, runs the flush from VIN48 and switches off every rail but the always-on domain. -/
  | thermalTrip (t : Nat) (part : Part17) (unit : Nat) (temp : Int)
  /-- UNIT_FAILURE (R21): A failed unit other than the hub leaves the LM9 running at reduced rate or capacity, raises UNIT_FAILED and scales guarantees. -/
  | unitFailure (t : Nat) (u : FailUnit)
  /-- STONE_FAILURE (R25): A stone failing during a gate operation causes its pieces to be run again on another stone with nothing partial released. -/
  | stoneFailure (t stone : Nat)
  /-- STACK_LOSS (R102): A lost stack turns its sacks DEEP, rebuilds dirty durable blocks from mirrors, poisons volatile dirty blocks and halts transfers on it. -/
  | stackLoss (t stack : Nat)
  /-- REMIRROR (R23): After a stack or die loss, every mirror record whose second copy was lost is copied to a surviving stack of another die. -/
  | remirror (t blk : Nat)
  /-- RESERVED_REGION_REBUILD (R24): The lost share of the sack map, stream table and codec tables is rebuilt on the surviving stacks from deep copies. -/
  | reservedRegionRebuild (t stack : Nat)
  /-- HUB_DIE_FAILURE (R22): A hub die failure stops the module and asserts FAULT_N. -/
  | hubDieFailure (t : Nat)
  /-- INITIATE_DC_ADD (R36): The FM offers a group of extents for one LD, which are admitted and reserved as PENDING, or the whole group is refused. -/
  | initiateDcAdd (h : MbHdr) (host : Nat) (policy : Nat) (exts : List DcAdd)
  /-- ADD_DC_RESPONSE (R339): The host answers the oldest offered group, making named extents ACTIVE and deleting the rest of that group. -/
  | addDcResponse (h : MbHdr) (exts : List DcRange)
  /-- INITIATE_DC_RELEASE (R433): The FM asks for release or forced removal of extents, which act by their state as release, withdrawal or deletion. -/
  | initiateDcRelease (h : MbHdr) (host : Nat) (forced : Bool) (exts : List DcRange)
  /-- RELEASE_DC (R45): The host's Release Dynamic Capacity puts the extent into RELEASING and withdraws its aliases. -/
  | releaseDc (h : MbHdr) (exts : List DcRange)
  /-- EXTENT_DISCARD (R46): When the TRACKER of an extent and its aliases reaches zero the extent is discarded, its media freed and its reservation returned. -/
  | extentDiscard (t eid : Nat)
  /-- WHEEL_BEACON (R54): An 8-byte write to WHL_BEACON applies a position to the wheel as Table 3.3 states. -/
  | wheelBeacon (ld wheel size : Nat) (aligned : Bool) (value : Word)
  /-- WHEEL_IDLE_TIMEOUT (R67): A wheel with no advance for its idle time becomes IDLE and returns the share held for unissued entries. -/
  | wheelIdleTimeout (t ld wheel : Nat)
  /-- WHEEL_REST_TIMEOUT (R67): A wheel with no advance for its rest time becomes RESTING and drops its use counts. -/
  | wheelRestTimeout (t ld wheel : Nat)
  /-- OPEN_WHEEL (R51): Opens the lowest free wheel index with its layer count, leads, classes, timers and watch ranges, autoloading a stored schedule if asked. -/
  | openWheel (h : MbHdr) (n dlead pclass cclass flags sig idle rest : Nat) (watch : List (Nat × Nat))
  /-- CLOSE_WHEEL (R69): Cancels the wheel's unissued entries, drops its holds and staged schedule and makes it CLOSED. -/
  | closeWheel (h : MbHdr) (index : Nat)
  /-- IMPORT_SCHEDULE (R63): Accepts a schedule image in parts and stages it after checking it whole. -/
  | importSchedule (h : MbHdr) (p : Part) (index : Nat)
  /-- EXPORT_SCHEDULE (R363): Returns the active schedule image in parts. -/
  | exportSchedule (h : MbHdr) (o : OutReq) (index : Nat)
  /-- SAVE_SCHEDULE (R64): Writes the wheel's active schedule to the stored schedule area keyed by LD and signature. -/
  | saveSchedule (h : MbHdr) (index : Nat)
  /-- DELETE_SAVED_SCHEDULE (R64): Deletes the owner's stored schedule with the given signature. -/
  | deleteSavedSchedule (h : MbHdr) (sig : Nat)
  /-- GET_WHEEL_STATUS (R363): Returns the wheel line contents, watch ranges, timers, signature and flags. -/
  | getWheelStatus (h : MbHdr) (index : Nat)
  /-- SET_WHEEL_TIMERS (R67): Sets the wheel's idle and rest times. -/
  | setWheelTimers (h : MbHdr) (index idle rest : Nat)
  /-- REPHASE_WHEEL (R59): Re-phases the wheel at its current position without counting a late slot. -/
  | rephaseWheel (h : MbHdr) (index : Nat)
  /-- PROMOTION_COMPLETE (R79): The last block of a promotion is installed and the sack becomes CLEAN or DIRTY in T1. -/
  | promotionComplete (t sack : Nat)
  /-- VICTIM_SCAN (R75): When a stack's free frames fall below 1/64 victims are chosen in order until free frames reach 1/32. -/
  | victimScan (t stack : Nat)
  /-- DEMOTION_DRAINED (R79): When reads of a DEMOTING copy have drained its frames are returned and the sack becomes DEEP with REFT set. -/
  | demotionDrained (t sack : Nat)
  /-- WRITEBACK_COMPLETE (R84): The captured dirty blocks are programmed to T2, mirror records are freed and the sack moves on by EVICT and DIRTY. -/
  | writebackComplete (t sack : Nat)
  /-- DURABLE_DIRTY_TIMEOUT (R84): A durable block dirty for 1 s of wall time triggers write-back of its sack. -/
  | durableDirtyTimeout (t blk : Nat)
  /-- DEMAND_READ_TIMEOUT (R92): A demand read held for 1 ms is served read-through from T2 at once, outside its class share. -/
  | demandReadTimeout (t rid : Nat)
  /-- CHANNEL_HALT (R101): A migration channel meeting a halt cause stops, records status and serves or poisons each affected block. -/
  | channelHalt (t channel cause : Nat) (blocks : List Nat)
  /-- BOLTER_BUILD_START (R118): The bolter starts a codebook build for an EMPTY set when 64 MiB is staged or a rebuild is asked. -/
  | bolterBuildStart (t set : Nat)
  /-- STAGE_IDLE_TIMEOUT (R118): One second after the last staged write to a span with staged blocks, the set's build is triggered. -/
  | stageIdleTimeout (t set : Nat)
  /-- BOLTER_BUILD_COMPLETE (R119): A finished codebook is written to the alternate generation, becomes current and the set becomes RECODING. -/
  | bolterBuildComplete (t set : Nat)
  /-- RECODE_SWEEP (R120): The recode sweep rewrites staged and old-generation blocks of the span through the encoder in a gap. -/
  | recodeSweep (t set : Nat)
  /-- RECODE_GAP_TIMEOUT (R120): If no gap has occurred for 100 ms while blocks await recode the sweep runs regardless within its class. -/
  | recodeGapTimeout (t set : Nat)
  /-- GENERATION_RELEASE (R121): When no block names the old generation and the in-flight count is zero the set becomes READY and staging reservations return. -/
  | generationRelease (t set : Nat)
  /-- CODEC_CACHE_FILL (R110): A read held for a missing codec cache entry is served once the entry has been read in. -/
  | codecCacheFill (t blk : Nat)
  /-- ALLOCATE_TABLE_SET (R111): Allocates the lowest free table set for the issuing party with SRC, RATE and COLS. -/
  | allocateTableSet (h : MbHdr) (src rate cols : Nat)
  /-- FREE_TABLE_SET (R123): Frees a table set and zeroes both generation slots. -/
  | freeTableSet (h : MbHdr) (set : Nat)
  /-- GET_TABLE_SET_STATUS (R363): Returns the table set's state, format, generation, recode backlog and in-flight count. -/
  | getTableSetStatus (h : MbHdr) (set : Nat)
  /-- REBUILD_TABLE_SET (R118): Queues a bolter build for the named set from the named extent. -/
  | rebuildTableSet (h : MbHdr) (set base : Nat)
  /-- IMPORT_CODEBOOK (R119): Loads a 32 KiB codebook image into the alternate generation and makes it current. -/
  | importCodebook (h : MbHdr) (set : Nat) (image : Bytes)
  /-- EXPORT_CODEBOOK (R363): Returns the current generation of a table set. -/
  | exportCodebook (h : MbHdr) (set : Nat)
  /-- PIECE_START (R156): A stone starts its highest-priority queued piece after loading the dressing and clearing if the party changed. -/
  | pieceStart (t stone : Nat)
  /-- PIECE_END (R154): A piece ends, its outputs go to combining and the result checker, and an early forward starts if bound. -/
  | pieceEnd (t stone : Nat)
  /-- STONE_READ_REQUEST (R141): A stone issues a tagged split-phase read of 1 to 16 lines, reserving hopper slots. -/
  | stoneReadRequest (t stone tag dpa count : Nat)
  /-- HOPPER_LINE_DELIVER (R142): The input decoder delivers a requested line into its hopper slot with a status. -/
  | hopperLineDeliver (t stone tag line : Nat) (upset : Nat)
  /-- STONE_TAKE (R145): A stone takes a tag once all its lines are delivered, receiving the slots in DPA order. -/
  | stoneTake (t stone tag : Nat)
  /-- CHECKPOINT_WATCHDOG (R157): A piece that issues 2 × CKPT_US × 3,600 cycles without a checkpoint is aborted and run again elsewhere. -/
  | checkpointWatchdog (t stone : Nat)
  /-- ACCUMULATOR_LIMIT (R137): An accumulator reaching 2⁴⁷ products aborts the piece with poisoned results. -/
  | accumulatorLimit (t stone : Nat)
  /-- CODE_FETCH_TRAP (R151): An uncorrectable code fetch traps the stone, aborts the piece and reloads the library copy. -/
  | codeFetchTrap (t stone : Nat)
  /-- PREEMPT_CHECKPOINT (R158): A piece marked for pre-emption reaches its checkpoint, saves state and resumes on another stone. -/
  | preemptCheckpoint (t stone : Nat)
  /-- STONE_CLEAR_COMPLETE (R160): A stone's clear of SRAM, accumulators, buckets, registers and tags completes after 4,160 cycles. -/
  | stoneClearComplete (t stone : Nat)
  /-- DRESSING_UNLOAD_DRAINED (R150): An unloaded dressing leaves the library once its last pieces have ended, freeing the handle. -/
  | dressingUnloadDrained (t handle : Nat)
  /-- LOAD_DRESSING (R148): Takes a dressing container in parts, checks it and loads it, returning a handle or a refusal reason. -/
  | loadDressing (h : MbHdr) (p : Part)
  /-- UNLOAD_DRESSING (R150): Stops a handle accepting operations and unloads it once idle. -/
  | unloadDressing (h : MbHdr) (handle : Nat)
  /-- GET_DRESSING_INFO (R363): Returns the dressing header, handle state and pieces running. -/
  | getDressingInfo (h : MbHdr) (handle : Nat)
  /-- REGISTER_DRESSING_KEY (R149): Adds a party dressing key, up to four per party. -/
  | registerDressingKey (h : MbHdr) (exponent : Nat) (modulus : Bytes)
  /-- REMOVE_DRESSING_KEY (R149): Removes a party dressing key, leaving resident dressings loaded. -/
  | removeDressingKey (h : MbHdr) (keyid : Bytes)
  /-- GET_STONE_STATUS (R163): Returns stone states to the FM or state counts to an LD. -/
  | getStoneStatus (h : MbHdr)
  /-- SET_STONE_OFFLINE (R164): Drains a stone, pre-empts its piece and completes when it is OFFLINE. -/
  | setStoneOffline (h : MbHdr) (stone : Nat)
  /-- SET_STONE_ONLINE (R164): Returns an OFFLINE stone to ONLINE. -/
  | setStoneOnline (h : MbHdr) (stone : Nat)
  /-- GATE_PARAM_WRITE (R168): A write to a PARAM line of an armed slot is stored at once, or marked poisoned if it carries poison. -/
  | gateParamWrite (ld dpa : Nat) (data : Bytes) (enables : BitVec 64) (poison : Bool)
  /-- GATE_RESULT_READ (R176): A read of a RESULT line returns zero, data or poison by slot state, or is held as a deferred read. -/
  | gateResultRead (ld dpa tag : Nat)
  /-- GATE_HOLD_EXPIRE (R177): A deferred result read that has waited for the slot's hold time returns poison and sets HOLDEXP. -/
  | gateHoldExpire (t rid : Nat)
  /-- GATE_NOP (R182): A NOP go line applies its position and makes the slot READY with no work. -/
  | gateNop (g : GoWrite)
  /-- GATE_OPCODE_RESERVED (R182): A go line with a reserved opcode fails the slot with code 1. -/
  | gateOpcodeReserved (g : GoWrite) (opcode : Nat)
  /-- APPEND_ATTEND (R187): Appends the new position's key and value and runs attention over the sequence's positions. -/
  | appendAttend (g : GoWrite)
  /-- PREFIX_ATTACH (R189): Looks up a prefix key in the party's granary and attaches the bin to an empty sequence, or reports a miss. -/
  | prefixAttach (g : GoWrite)
  /-- CHUNK_PREFILL (R190): Copies COUNT source records into the sequence through the encoders and optionally attends over them. -/
  | chunkPrefill (g : GoWrite)
  /-- PREFILL_WRITES_DONE (R190): Once a chunk prefill's record writes have completed its attention pieces are dispatched. -/
  | prefillWritesDone (t ld buf : Nat)
  /-- PREFIX_PUBLISH (R201): Copies a sequence's prefix into a granary bin, evicting bins if room must be made. -/
  | prefixPublish (g : GoWrite)
  /-- PUBLISH_COMMIT (R201): When every record of a publish has been written the directory entry is committed and the slot becomes READY. -/
  | publishCommit (t ld buf : Nat)
  /-- SEQ_TRUNCATE (R191): Sets a sequence's LEN and PLEN lower, detaching it from its bin if PLEN becomes zero. -/
  | seqTruncate (g : GoWrite)
  /-- GRAPH_SEARCH (R194): Walks the index graph for each query and returns the K best filtered results. -/
  | graphSearch (g : GoWrite)
  /-- DISTANCE_BATCH (R196): Computes the distance from one query to each listed candidate. -/
  | distanceBatch (g : GoWrite)
  /-- SET_INTERSECT (R197): Returns the keys present in every list within the key range. -/
  | setIntersect (g : GoWrite)
  /-- SET_UNION (R197): Returns the keys present in any list within the key range. -/
  | setUnion (g : GoWrite)
  /-- SET_DIFFERENCE (R197): Returns the keys of list 0 present in no other list within the key range. -/
  | setDifference (g : GoWrite)
  /-- TENANT (R198): Passes the parameters to a tenant dressing and runs the given number of pieces. -/
  | tenant (g : GoWrite)
  /-- ARM_GATE_SLOTS (R166): Binds gate positions to slot buffers, zeroes them and puts the slots in IDLE with a hold time. -/
  | armGateSlots (h : MbHdr) (dpa count hold : Nat)
  /-- DISARM_GATE_SLOTS (R206): Makes slots UNARMED, cancelling their operations if FORCE is set. -/
  | disarmGateSlots (h : MbHdr) (dpa count : Nat) (force : Bool)
  /-- GET_SLOT_STATUS (R206): Returns a slot's status line and hold time. -/
  | getSlotStatus (h : MbHdr) (dpa : Nat)
  /-- OPEN_SEQUENCE (R183): Opens a KV sequence over a range of a lossy extent with its geometry. -/
  | openSequence (h : MbHdr) (sbase layers hkv g d maxpos : Nat)
  /-- CLOSE_SEQUENCE (R191): Detaches a sequence from its bin and frees its identifier. -/
  | closeSequence (h : MbHdr) (seq : Nat)
  /-- GET_SEQUENCE_STATUS (R206): Returns a sequence's geometry, LEN, PLEN and bin. -/
  | getSequenceStatus (h : MbHdr) (seq : Nat)
  /-- DEFINE_INDEX (R192): Defines a vector search index over vectors and adjacency lists of the LD. -/
  | defineIndex (h : MbHdr) (vbase abase nv entry dim vfmt deg metric : Nat)
  /-- DELETE_INDEX (R206): Deletes an index not named by any operation. -/
  | deleteIndex (h : MbHdr) (index : Nat)
  /-- ADD_GRANARY_EXTENT (R199): Gives the granary an ACTIVE lossy extent of the LD for bin storage. -/
  | addGranaryExtent (h : MbHdr) (base : Nat)
  /-- REMOVE_GRANARY_EXTENT (R206): Removes a granary extent and deletes its bins if none is attached. -/
  | removeGranaryExtent (h : MbHdr) (base : Nat)
  /-- DELETE_BIN (R202): Removes a bin from lookups and frees its storage when ATTACH reaches zero. -/
  | deleteBin (h : MbHdr) (key : Bytes) (sig : Nat)
  /-- SET_BIN_ATTRIBUTES (R205): Sets a bin's PIN and NEAR attributes, taking or dropping its holds. -/
  | setBinAttributes (h : MbHdr) (key : Bytes) (sig attr : Nat)
  /-- LIST_BINS (R204): Returns the directory entries visible to the LD. -/
  | listBins (h : MbHdr) (o : OutReq)
  /-- GET_GRANARY_STATUS (R206): Returns bin counts and bytes used and free in each granary extent. -/
  | getGranaryStatus (h : MbHdr)
  /-- RESULT_CHECK_COMPLETE (R175): The result checker resolves an operation's checks, making the slot READY or FAILED and releasing held reads. -/
  | resultCheckComplete (t ld buf : Nat) (failed : List Nat)
  /-- REPLAY_COMPLETE (R289): A replayed piece ends and is resolved against the first run by Table 12.2. -/
  | replayComplete (t ld buf piece : Nat) (r : ReplayRes)
  /-- SUSPECT_TIMEOUT (R299): A SUSPECT unit with 24 hours without an observation returns to CLEAR. -/
  | suspectTimeout (t utype unit : Nat)
  /-- FORWARD_EXTEND_TIMER (R292): Every 500 µs until settled, the sender sends an EXTEND for an early forward. -/
  | forwardExtendTimer (t fwdid : Nat)
  /-- STREAM_CACHE_FILL (R210): A stream cache miss is filled by a near-tier read and the held request proceeds. -/
  | streamCacheFill (t entry : Nat) (corrupt : Bool)
  /-- GUARANTEE_RECOMPUTE (R222): When derated capacity falls, effective guarantee rates are recomputed lowest class first and shortfall events raised. -/
  | guaranteeRecompute (t resource : Nat)
  /-- CAPACITY_RISE_TIMEOUT (R222): A rise in capacity that has lasted 10 ms restores guarantees highest class first. -/
  | capacityRiseTimeout (t resource : Nat)
  /-- CAPTURE_WINDOW_END (R225): At the end of a capture window each running maximum latency is latched and restarted. -/
  | captureWindowEnd (t : Nat)
  /-- SET_CLASS (R214): Sets one weir class's SHARE, CACHE and QUEUE shares. -/
  | setClass (h : MbHdr) (cls share cache queue : Nat)
  /-- RESERVE_GUARANTEE (R221): Reserves or replaces a guarantee for an LD on a resource, admitted against 80 % of derated capacity. -/
  | reserveGuarantee (h : MbHdr) (resource cls rate latbound : Nat)
  /-- RELEASE_GUARANTEE (R221): Frees an LD's guarantee on a resource and recomputes effective rates. -/
  | releaseGuarantee (h : MbHdr) (resource : Nat)
  /-- GET_WEIR_STATUS (R363): Returns guarantees, shares and capacities as visible to the issuer. -/
  | getWeirStatus (h : MbHdr)
  /-- SET_CAPTURE_WINDOW (R225): Sets the maximum-latency capture window mode, wheel and span. -/
  | setCaptureWindow (h : MbHdr) (mode wheel span : Nat)
  /-- GET_MAX_LATENCY (R225): Returns a latched maximum latency with its LD, timestamp and position. -/
  | getMaxLatency (h : MbHdr) (cls resource : Nat)
  /-- REFRESH_DUE (R232): A rank's all-bank refresh falls due at its interval and is issued or postponed by at most one interval. -/
  | refreshDue (t stack channel rank : Nat) (queued : Bool)
  /-- SELF_REFRESH_IDLE (R234): A stack idle for its idle time enters self-refresh. -/
  | selfRefreshIdle (t stack : Nat)
  /-- FREQ_CHANGE_STACK_DONE (R236): A stack's change finishes its spot check and issues its held requests, or returns to its previous point. -/
  | freqChangeStackDone (t stack : Nat) (spotOk : Bool)
  /-- RETRAIN_DUE (R240): A timing set is queued for retraining on a temperature move, 10 s elapsed or staleness. -/
  | retrainDue (t stack point : Nat) (temp : Int)
  /-- RETRAIN_SLOT (R240): A retraining slot of up to 2 µs runs on one channel after its refresh. -/
  | retrainSlot (t stack channel : Nat) (ok : Bool)
  /-- GARBAGE_COLLECT (R250): When free block sets of a group fall below 2 %, the set with fewest valid slots is moved and erased. -/
  | garbageCollect (t group : Nat)
  /-- WEAR_LEVEL_MOVE (R250): When P/E counts in a group differ by more than 300 the least-worn valid set is moved. -/
  | wearLevelMove (t group : Nat)
  /-- DEEP_PAGE_READ (R247): A flash page read completes, with LDPC retry or parity rebuild, or halts its channel. -/
  | deepPageRead (t slot : Nat) (outcome : PageOutcome)
  /-- SLOT_PROGRAM_DONE (R249): A slot image program completes and the slot map entry moves to the new location. -/
  | slotProgramDone (t slot group : Nat)
  /-- READ_REFRESH (R253): A block past its read count, correction margin or age has its valid slots moved. -/
  | readRefresh (t die block : Nat) (margin : Bool)
  /-- PATROL_READ (R253): The patrol reads every valid page once in 14 days, running without gaps if 24 hours behind. -/
  | patrolRead (t die block : Nat)
  /-- FLASH_BLOCK_FAILURE (R254): A failed flash block is retired and its slots moved, or a failed program repeated elsewhere. -/
  | flashBlockFailure (t die block : Nat)
  /-- FLASH_DIE_FAILURE (R254): A failed flash die is served by parity and rebuilt into its group's other dies. -/
  | flashDieFailure (t die : Nat)
  /-- DIE_REBUILD_COMPLETE (R254): The rebuild of a failed die's data completes. -/
  | dieRebuildComplete (t die : Nat)
  /-- JOURNAL_PAGE_PROGRAMMED (R257): A journal page is programmed, committing its records when the bank is not HEALTHY. -/
  | journalPageProgrammed (t : Nat)
  /-- CHECKPOINT_IMAGE_DONE (R258): A sack map checkpoint image completes and is marked in the journal. -/
  | checkpointImageDone (t : Nat)
  /-- HOLDUP_TEST_DUE (R261): A hold-up bank test starts at power-up, every PERIOD hours, or every 10 minutes while WEAK. -/
  | holdupTestDue (t : Nat)
  /-- HOLDUP_TEST_COMPLETE (R260): A bank test ends and sets the bank state by the measured energy with hysteresis, raising an event on change. -/
  | holdupTestComplete (t energy : Nat)
  /-- POWER_LOSS (R263): VIN48 below 40 V for 2 µs or PWRGD deasserted declares power loss and runs the flush on the hold-up bank. -/
  | powerLoss (t : Nat)
  /-- GPF_PHASE1 (R265): Global persistent flush phase 1 completes at once. -/
  | gpfPhase1 (t port : Nat)
  /-- GPF_PHASE2 (R265): Phase 2 programs the journal buffer and saves every valid mirror record into a flush area. -/
  | gpfPhase2 (t port : Nat)
  /-- SET_ENDURANCE_BUDGET (R251): Sets the sustained endurance budget B and recomputes derated rates. -/
  | setEnduranceBudget (h : MbHdr) (b : Nat)
  /-- TEST_HOLDUP_BANK (R261): Runs a hold-up bank test and reports the energy. -/
  | testHoldupBank (h : MbHdr)
  /-- SET_HOLDUP_TEST_PERIOD (R261): Sets the hold-up test period. -/
  | setHoldupTestPeriod (h : MbHdr) (period : Nat)
  /-- NEAR_SCRUB (R269): The near scrubber reads lines with their check lines and writes back corrected data. -/
  | nearScrub (t blk word : Nat) (upset : Nat) (last : Bool)
  /-- NEAR_SCRUB_BEHIND (R269): A near scrubber one hour behind its period runs without waiting for gaps. -/
  | nearScrubBehind (t : Nat)
  /-- SRAM_SCRUB (R270): The SRAM scrubber reads every word once per period in idle bank cycles and corrects. -/
  | sramScrub (t unit loc : Nat) (upset : Nat)
  /-- ARM_FLIP_MASK_NEAR (R278): Arms a mask to corrupt one word of a block when its payload next lands in T1. -/
  | armFlipMaskNear (h : MbHdr) (dpa word mask : Nat)
  /-- ARM_FLIP_MASK_STONE (R279): Writes a masked pattern word into an OFFLINE stone, reads it back and reports the syndrome. -/
  | armFlipMaskStone (h : MbHdr) (stone bank word mask : Nat)
  /-- FLIP_MASK_EXPIRE (R278): A flip mask not applied within 10 s becomes EXPIRED. -/
  | flipMaskExpire (t ld : Nat)
  /-- DISARM_FLIP_MASK (R278): Cancels the LD's armed flip mask. -/
  | disarmFlipMask (h : MbHdr)
  /-- SET_SCRUB_PERIOD (R269): Sets the near and SRAM scrub periods. -/
  | setScrubPeriod (h : MbHdr) (near sram : Nat)
  /-- SET_NEIGHBOUR_REFRESH (R233): Sets the exponent E of the targeted refresh probability. -/
  | setNeighbourRefresh (h : MbHdr) (e : Nat)
  /-- GET_CORRECTABLE_ERROR_TABLE (R272): Returns the correctable-error table entries. -/
  | getCorrectableErrorTable (h : MbHdr) (o : OutReq)
  /-- GET_UNCORRECTABLE_ERROR_LOG (R277): Returns uncorrectable-error log records visible to the issuer. -/
  | getUncorrectableErrorLog (h : MbHdr) (o : OutReq)
  /-- RETIRE_ROW (R280): Retires a near-tier row, demoting sacks on its frames and relocating reserved shares. -/
  | retireRow (h : MbHdr) (loc : Nat)
  /-- RETIRE_BANK (R281): Retires every frame holding a line of one bank. -/
  | retireBank (h : MbHdr) (loc : Nat)
  /-- RETIRE_STACK (R281): Retires a stack by declaring it failed. -/
  | retireStack (h : MbHdr) (loc : Nat)
  /-- RETIRE_SACK (R282): Moves every media copy of a sack and retires its old locations. -/
  | retireSack (h : MbHdr) (sack : Nat)
  /-- GET_RETIREMENT_LIST (R283): Returns the retirement list. -/
  | getRetirementList (h : MbHdr) (o : OutReq)
  /-- CLEAR_CORRECTABLE_ERROR_TABLE (R272): Frees every correctable-error table entry. -/
  | clearCorrectableErrorTable (h : MbHdr)
  /-- DIGEST_START (R295): A due digest starts at its layer in a gap, or after one hour due without a gap. -/
  | digestStart (t ld range : Nat)
  /-- DIGEST_COMPLETE (R297): A range digest completes and is judged MATCH, MISMATCH or REBASED, with peer exchange if bound. -/
  | digestComplete (t ld range : Nat) (disagree : List Nat) (turn : Nat)
  /-- LEDGER_COMMIT (R301): A ledger record is programmed into the boot flash, releasing the action that waited on it. -/
  | ledgerCommit (t : Nat)
  /-- LEDGER_COALESCE_END (R302): At the end of a second with more than 100 records of one kind and unit a COALESCED record is written. -/
  | ledgerCoalesceEnd (t kind utype unit : Nat)
  /-- GET_LEDGER (R301): Returns ledger records from a given SEQNO. -/
  | getLedger (h : MbHdr) (seqno maxrec : Nat)
  /-- GET_RESULT_ERROR_LOG (R303): Returns result error log records visible to the issuer. -/
  | getResultErrorLog (h : MbHdr) (o : OutReq)
  /-- SET_CHECK_POLICY (R290): Sets the sampled-replay rates and EARLYEN. -/
  | setCheckPolicy (h : MbHdr) (s0 s1 s2 earlyen : Nat)
  /-- GET_UNIT_HEALTH (R299): Returns the observation state and times of every stone and checker. -/
  | getUnitHealth (h : MbHdr)
  /-- INSTALL_TEST_CONTENT (R305): Takes a test content package in parts, checks it and makes it current. -/
  | installTestContent (h : MbHdr) (p : Part)
  /-- REQUEST_CALIBRATION (R412): Queues retraining of a stack's active set and completes when done. -/
  | requestCalibration (h : MbHdr) (kind unit : Nat)
  /-- REQUEST_TEST_SLICE (R407): Runs a slice on a unit at once, without deferral. -/
  | requestTestSlice (h : MbHdr) (utype unit slice : Nat)
  /-- STAGE_PARTITION_REQUEST (R379): Takes a signed partition request in parts, checks it and stages it for the next miller restart. -/
  | stagePartitionRequest (h : MbHdr) (p : Part)
  /-- UNLOCK_DEBUG (R387): Checks a signed unlock request and opens debug after zeroising every key and committing DEBUG_OPEN. -/
  | unlockDebug (h : MbHdr) (p : Part)
  /-- GET_TEST_CONTENT (R304): Returns the current package header and item entries. -/
  | getTestContent (h : MbHdr)
  /-- CLEAR_UNIT_RECORD (R300): Clears a FAILED unit's observation history so it may return. -/
  | clearUnitRecord (h : MbHdr) (utype unit : Nat)
  /-- APPEND_LEDGER_NOTE (R301): Writes a NOTE ledger record and completes after its commit. -/
  | appendLedgerNote (h : MbHdr) (note : Bytes)
  /-- DEFINE_DIGEST_RANGE (R295): Defines a digest range with its period, wheel position and key. -/
  | defineDigestRange (h : MbHdr) (base len key period wheel layer : Nat)
  /-- DELETE_DIGEST_RANGE (R295): Deletes a digest range, abandoning a digest in progress. -/
  | deleteDigestRange (h : MbHdr) (range : Nat)
  /-- GET_DIGEST (R297): Returns a range's reference, latest digest, outcome and CHANGED. -/
  | getDigest (h : MbHdr) (range : Nat)
  /-- SET_DIGEST_REFERENCE (R297): Sets a range's reference and clears CHANGED. -/
  | setDigestReference (h : MbHdr) (range : Nat) (reference : BitVec 256)
  /-- RUN_DIGEST (R295): Makes a digest range due at once. -/
  | runDigest (h : MbHdr) (range : Nat)
  /-- SET_DIGEST_PEER (R298): Binds or unbinds a digest range to a peer window. -/
  | setDigestPeer (h : MbHdr) (range port window : Nat) (bind : Bool)
  /-- PORT_TRAINING_ADVANCE (R312): A port completes the work of its training state and moves to the next. -/
  | portTrainingAdvance (t port : Nat) (light : Bool) (failed : List Nat) (skew : List Nat) (partner node : Nat) (flit256 : Bool)
  /-- PORT_TRAINING_TIMEOUT (R312): A training state that passes its time limit returns the port to DETECT. -/
  | portTrainingTimeout (t port : Nat)
  /-- CONFIG_MISMATCH_RETRY (R313): A port refusing its partner in CONFIG retries every 100 ms. -/
  | configMismatchRetry (t port partner node : Nat) (flit256 : Bool)
  /-- LANE_FAILURE (R316): A failed lane narrows the port through RECONFIG, or takes an x1 port down. -/
  | laneFailure (t port lane : Nat)
  /-- LASER_AGEING (R319): A laser bias reaching 130 % of initial raises a LASER_AGEING event once. -/
  | laserAgeing (t port lane wavelength bias : Nat)
  /-- LASER_FAILURE (R319): A laser at 150 % bias or low launch power for 10 ms fails its lane. -/
  | laserFailure (t port lane bias : Nat) (lowPower : Bool)
  /-- PORT_L0P (R318): A host port negotiates L0p to a narrower width and enters PARTIAL. -/
  | portL0p (t port width : Nat)
  /-- PORT_L1_ENTRY (R318): A host port enters STANDBY on L1 entry. -/
  | portL1Entry (t port : Nat)
  /-- PORT_L2_ENTRY (R318): A port goes DARK on L2 entry. -/
  | portL2Entry (t port : Nat)
  /-- PEER_STANDBY_TIMEOUT (R318): A peer port idle for its standby time enters STANDBY. -/
  | peerStandbyTimeout (t port : Nat)
  /-- PORT_EXIT_TO_ACTIVE (R318): A request or queued traffic brings a port out of a low-power state to ACTIVE. -/
  | portExitToActive (t port : Nat)
  /-- PWR (R325): A received peer write packet is checked against the inbound window and answered with a PACK status. -/
  | pwr (p : PeerHdr) (data : Bytes)
  /-- PACK (R326): A received PACK settles its packet, or causes a resend, retranslation or forward failure by status. -/
  | pack (p : PeerHdr)
  /-- PSETTLE_CONFIRM (R294): A received CONFIRM deletes the provisional entry of its forward. -/
  | psettleConfirm (p : PeerHdr) (m : Settle)
  /-- PSETTLE_RETRACT (R294): A received RETRACT poisons the recorded blocks, fails dependent operations and posts a retraction event. -/
  | psettleRetract (p : PeerHdr) (m : Settle)
  /-- PSETTLE_EXTEND (R294): A received EXTEND restarts the provisional entry's timer. -/
  | psettleExtend (p : PeerHdr) (m : Settle)
  /-- PSETTLE_KIND_ZERO (R322): A PSETTLE with KIND 0b00 is dropped and counted. -/
  | psettleKindZero (p : PeerHdr) (m : Settle)
  /-- PDIGEST (R298): A received peer digest is compared with the local range of the same KEY, raising a peer mismatch if they differ. -/
  | pdigest (p : PeerHdr) (key : Nat) (digest : BitVec 256) (turn : Nat) (changed : Bool)
  /-- PNODE (R322): A received node identity message gives the partner's node identifier. -/
  | pnode (p : PeerHdr) (node : Nat)
  /-- PEER_BAD_MESSAGE (R322): A peer packet with a reserved type, field or line count is dropped and counted. -/
  | peerBadMessage (p : PeerHdr)
  /-- PROVISIONAL_TIMEOUT (R294): A provisional entry with no CONFIRM, RETRACT or EXTEND for 1 ms is retracted with cause TIMEOUT. -/
  | provisionalTimeout (t node fwdid : Nat)
  /-- PWR_PENDING_RESEND (R326): A packet answered PENDING is sent again every 1 µs. -/
  | pwrPendingResend (t port tag : Nat)
  /-- FORWARD_TIMEOUT (R326): A packet not answered OK within 1 ms fails its forward and raises FORWARD_FAILED. -/
  | forwardTimeout (t fwdid : Nat)
  /-- PEER_GRACE_END (R324): The grace interval of an inbound window commit ends and the previous copy is discarded. -/
  | peerGraceEnd (t port window : Nat)
  /-- SET_NODE_IDENTIFIER (R320): Sets the module's node identifier, taking effect at the next peer training. -/
  | setNodeIdentifier (h : MbHdr) (node : Nat)
  /-- SET_PEER_WINDOW (R324): Writes the shadow copy of a peer window descriptor. -/
  | setPeerWindow (h : MbHdr) (port window : Nat) (w : PeerWin)
  /-- COMMIT_PEER_WINDOW (R324): Makes the shadow descriptor active and advances GEN at a packet boundary. -/
  | commitPeerWindow (h : MbHdr) (port window : Nat)
  /-- GET_PEER_WINDOW (R324): Returns the active and shadow copies, GEN and grace state. -/
  | getPeerWindow (h : MbHdr) (port window : Nat)
  /-- BIND_SLOT_FORWARD (R328): Binds an armed slot to an outbound window at an offset. -/
  | bindSlotForward (h : MbHdr) (dpa port window offset : Nat)
  /-- UNBIND_SLOT_FORWARD (R328): Removes a slot's forward binding. -/
  | unbindSlotForward (h : MbHdr) (dpa : Nat)
  /-- SET_PEER_PORT (R324): Sets a peer port's enable, standby time and grace interval. -/
  | setPeerPort (h : MbHdr) (port enable standby grace : Nat)
  /-- RETRAIN_PORT (R317): Starts a full retrain of a port and completes when it is ACTIVE or back in DETECT. -/
  | retrainPort (h : MbHdr) (port : Nat)
  /-- GET_PORT_TELEMETRY (R319): Returns laser bias, heater and launch power, and eye margins of a port. -/
  | getPortTelemetry (h : MbHdr) (port : Nat)
  /-- RETRAIN_LINK (R333): A write of the Retrain Link control starts a full Verilaze retrain of the port. -/
  | retrainLink (ld : Nat)
  /-- HDM_DECODER_COMMIT (R337): Commits an HDM decoder or sets Error Not Committed. -/
  | hdmDecoderCommit (ld k : Nat) (d : HdmSetup)
  /-- BIRSP (R341): A received BIRsp, with any write-back, lets a held HDM-DB request proceed. -/
  | birsp (ld blk line : Nat) (writeback : Option Bytes)
  /-- BISNP_TIMEOUT (R343): A BISnp unanswered for 4 ms treats the snooped LD as crashed for that line. -/
  | bisnpTimeout (t ld blk line : Nat)
  /-- CXL_RSVD_ENCODING (R329): A CXL.cache message or reserved encoding is dropped and logged as Rsvd_Encoding_Violation. -/
  | cxlRsvdEncoding (port : Nat) (flit : Bytes)
  /-- BAD_LD_ID (R330): A request with a foreign or disabled LD-ID is dropped and counted. -/
  | badLdId (port ldid kind tag : Nat)
  /-- CXL_IO_POISONED_WRITE (R346): A CXL.io write carrying poison is dropped and logged as Poisoned TLP Received. -/
  | cxlIoPoisonedWrite (ld : Nat) (header : Bytes)
  /-- HOT_RESET (R349): A hot reset of a host port resets its four LDs as Table 14.7 states. -/
  | hotReset (t port : Nat)
  /-- LINK_DOWN (R349): Link-down of a host port acts on its LDs as a hot reset and retrains from DETECT. -/
  | linkDown (t port : Nat)
  /-- LD_ID_HOT_RESET (R349): A write of the MLD LD-ID Hot Reset Vector hot-resets one LD without retraining. -/
  | ldIdHotReset (t : Nat) (vector : BitVec 16)
  /-- CXL_RESET (R349): A CXL reset of one LD, optionally with Mem Clear, acts as Table 14.7 states. -/
  | cxlReset (t ld : Nat) (memClear : Bool)
  /-- FLR (R351): A function-level reset stops and aborts the LD's work, drains its reads and resets the function. -/
  | flr (t ld : Nat)
  /-- BUS_MASTER_DISABLE (R350): Clearing Bus Master Enable stops new device reads and discards completions of issued ones. -/
  | busMasterDisable (ld : Nat)
  /-- DMA_COMPLETION (R351): A completion of a device read of host memory arrives and is used or discarded. -/
  | dmaCompletion (t ld tag : Nat) (data : Bytes)
  /-- DMA_COMPLETION_TIMEOUT (R351): A device read without completion within the timeout is logged and its command ends with Internal Error. -/
  | dmaCompletionTimeout (t ld tag : Nat)
  /-- IDE_INTEGRITY_FAIL (R352): A flit failing its IDE check logs CXL_IDE_Rx_Error and takes the port down. -/
  | ideIntegrityFail (t port : Nat)
  /-- CDAT_TABLE_ACCESS (R353): A DOE 0 request returns the LD's CDAT. -/
  | cdatTableAccess (ld : Nat)
  /-- SPDM_GET_MEASUREMENTS (R385): Returns the measurement blocks, signed with the identity key if asked. -/
  | spdmGetMeasurements (ld index : Nat) (signed : Bool)
  /-- SPDM_KEY_EXCHANGE (R384): Establishes a secured SPDM session, up to two per LD. -/
  | spdmKeyExchange (ld : Nat)
  /-- IDE_KEY_PROGRAM (R352): IDE_KM in a secured session programs the port's IDE keys. -/
  | ideKeyProgram (ld session : Nat) (activate : Bool)
  /-- ABORT_BACKGROUND_OPERATION (R359): Aborts a running background command where the LM9 honours it. -/
  | abortBackgroundOperation (h : MbHdr)
  /-- BACKGROUND_COMMAND_COMPLETE (R359): A background command ends, its status and VSES are set and MSI-X vector 0 is signalled. -/
  | backgroundCommandComplete (t src : Nat)
  /-- PART_IMAGE_TIMEOUT (R360): An open input image with no part for 10 s is discarded. -/
  | partImageTimeout (t src opcode : Nat)
  /-- SNAPSHOT_TIMEOUT (R361): An output snapshot with no request for 10 s is dropped. -/
  | snapshotTimeout (t src opcode : Nat)
  /-- UNSUPPORTED_COMMAND (R364): An unimplemented or unlisted command fails with Unsupported. -/
  | unsupportedCommand (h : MbHdr) (opcode : Nat)
  /-- GET_MODULE_STATUS (R363): Returns module and LD state, firmware version and serial number. -/
  | getModuleStatus (h : MbHdr)
  /-- GET_UNIT_MAP (R363): Returns the map of failed stones, stacks, checkers, flash dies and lanes. -/
  | getUnitMap (h : MbHdr)
  /-- GET_PARTITION_MAP (R363): Returns the partition map, or the LD's own fields. -/
  | getPartitionMap (h : MbHdr) (o : OutReq)
  /-- GET_STAGED_REQUEST_STATUS (R381): Returns the state, reason and serial of the staged partition request. -/
  | getStagedRequestStatus (h : MbHdr)
  /-- DISCARD_STAGED_REQUEST (R379): Removes the staged partition request. -/
  | discardStagedRequest (h : MbHdr)
  /-- KEY_LD (R43): Generates the LD's AES-256-XTS key. -/
  | keyLd (h : MbHdr)
  /-- ZEROISE_LD_KEY (R43): Zeroises the LD's key if it owns no extent, aborting a Save Schedule in progress. -/
  | zeroiseLdKey (h : MbHdr)
  /-- GET_REGION_PROFILE (R363): Returns a region's profile word and extent count. -/
  | getRegionProfile (h : MbHdr) (region : Nat)
  /-- SET_REGION_PROFILE (R34): Sets the profile of an empty region and raises a REGION_CONFIG event. -/
  | setRegionProfile (h : MbHdr) (region : Nat) (profile : Word)
  /-- GET_EXTENT_DESCRIPTORS (R363): Returns the LD's extent descriptors. -/
  | getExtentDescriptors (h : MbHdr) (o : OutReq)
  /-- IDENTIFY_MEMORY_DEVICE (R364): Returns the LD's capacity and limits. -/
  | identifyMemoryDevice (h : MbHdr)
  /-- GET_SUPPORTED_LOGS (R364): Reports the Command Effects Log as the only log. -/
  | getSupportedLogs (h : MbHdr)
  /-- GET_LOG (R364): Returns the Command Effects Log. -/
  | getLog (h : MbHdr) (isCel : Bool) (offset length : Nat)
  /-- GET_EVENT_RECORDS (R366): Returns records from an event log. -/
  | getEventRecords (h : MbHdr) (log : Nat)
  /-- CLEAR_EVENT_RECORDS (R366): Clears named records or all records of a log, clearing overflow when the log empties. -/
  | clearEventRecords (h : MbHdr) (log : Nat) (all : Bool) (handles : List Nat)
  /-- GET_EVENT_INTERRUPT_POLICY (R364): Returns the event interrupt policy. -/
  | getEventInterruptPolicy (h : MbHdr)
  /-- SET_EVENT_INTERRUPT_POLICY (R364): Sets each log's interrupt mode to none or MSI-X. -/
  | setEventInterruptPolicy (h : MbHdr) (modes : List Nat)
  /-- GET_FW_INFO (R375): Returns the firmware slots, running and next slot, and versions. -/
  | getFwInfo (h : MbHdr)
  /-- TRANSFER_FW (R375): Writes and checks a firmware image into the slot not running. -/
  | transferFw (h : MbHdr) (slot : Nat) (p : Part)
  /-- ACTIVATE_FW (R375): Sets TRIAL to a slot for the next power-up or fundamental reset. -/
  | activateFw (h : MbHdr) (online : Bool) (slot : Nat)
  /-- GET_TIMESTAMP (R354): Returns the counter plus the LD's offset. -/
  | getTimestamp (h : MbHdr)
  /-- SET_TIMESTAMP (R354): Sets the issuing LD's timestamp offset. -/
  | setTimestamp (h : MbHdr) (value : Nat)
  /-- GET_HEALTH_INFO (R365): Returns health status, media status, life used, temperature and counts. -/
  | getHealthInfo (h : MbHdr)
  /-- GET_POISON_LIST (R364): Returns poisoned blocks in a range of the LD's DPA. -/
  | getPoisonList (h : MbHdr) (dpa lines : Nat)
  /-- INJECT_POISON (R364): Poisons the block that holds the DPA. -/
  | injectPoison (h : MbHdr) (dpa : Nat)
  /-- CLEAR_POISON (R364): Writes the given line and zeroes the rest of the block as one whole-block write. -/
  | clearPoison (h : MbHdr) (dpa : Nat) (data : Bytes)
  /-- GET_DC_CONFIGURATION (R339): Returns the LD's dynamic capacity regions and flags. -/
  | getDcConfiguration (h : MbHdr) (first count : Nat)
  /-- GET_DC_EXTENT_LIST (R339): Returns the LD's dynamic capacity extents. -/
  | getDcExtentList (h : MbHdr) (count start : Nat)
  /-- GET_DCD_INFO (R364): Returns DCD information to the FM. -/
  | getDcdInfo (h : MbHdr)
  /-- GET_HOST_DC_REGION_CONFIG (R364): Returns an LD's region configuration to the FM. -/
  | getHostDcRegionConfig (h : MbHdr) (host first count : Nat)
  /-- GET_DC_REGION_EXTENT_LISTS (R364): Returns region extent lists to the FM. -/
  | getDcRegionExtentLists (h : MbHdr) (host count start : Nat)
  /-- GET_LD_INFO (R364): Reports 16 LDs. -/
  | getLdInfo (h : MbHdr)
  /-- GET_LD_ALLOCATIONS (R364): Reports each LD's DPA_SIZE. -/
  | getLdAllocations (h : MbHdr) (start limit : Nat)
  /-- FM_QOS_CONTROL (R355): Sets or reads the FM QoS controls, capping what is sent to an LD. -/
  | fmQosControl (h : MbHdr) (set : Option (List Nat))
  /-- MILLER_BOOT (R372): A miller restart runs the boot stages: verify, unwrap keys, train, mount, apply partition, present LDs. -/
  | millerBoot (t cause : Nat) (trained : List Bool)
  /-- MILLER_WATCHDOG (R372): The miller watchdog expires 1 s after last service and restarts the miller. -/
  | millerWatchdog (t : Nat)
  /-- MILLER_FETCH_FAULT (R372): An uncorrectable miller fetch restarts the miller from ROM. -/
  | millerFetchFault (t : Nat)
  /-- FIRMWARE_TRIAL_COMMIT (R375): A trial image that has mounted and run 10 minutes without restart is committed and fuses blown to its SVN. -/
  | firmwareTrialCommit (t : Nat)
  /-- GET_DEBUG_CHALLENGE (R386): Generates a new debug nonce. -/
  | getDebugChallenge (h : MbHdr)
  /-- DEBUG_NONCE_EXPIRE (R386): A debug nonce becomes invalid after 10 minutes. -/
  | debugNonceExpire (t : Nat)
  /-- GET_DEBUG_STATE (R388): Returns whether debug is open and the DEBUG_OPEN record. -/
  | getDebugState (h : MbHdr)
  /-- SET_POWER_LIMIT (R18): Sets the sustained power limit from 450 to 850 W. -/
  | setPowerLimit (h : MbHdr) (limit : Nat)
  /-- GET_POWER_STATUS (R19): Returns averaged power, limit, governor step, clock and point. -/
  | getPowerStatus (h : MbHdr)
  /-- SET_SELF_REFRESH_IDLE (R234): Sets the stack self-refresh idle time. -/
  | setSelfRefreshIdle (h : MbHdr) (idle : Nat)
  /-- GET_THERMAL_STATUS (R415): Returns die, engine, flash and stack temperatures. -/
  | getThermalStatus (h : MbHdr)
  /-- VAUX33_POWER_ON (R403): VAUX33 in range starts the always-on domain, oscillators and crystal XA. -/
  | vaux33PowerOn (t : Nat)
  /-- FAST_OSC_QUALIFIED (R403): The slow oscillator qualifies the fast one and XDLY is sampled. -/
  | fastOscQualified (t xdly : Nat)
  /-- CRYSTAL_QUALIFIED (R392): A crystal passes its 100 µs window, releasing the brake or starting XB. -/
  | crystalQualified (t crystal : Nat)
  /-- CRYSTAL_QUAL_TIMEOUT (R392): A crystal not qualified within 4 × D is declared failed, starting XB if XA failed. -/
  | crystalQualTimeout (t crystal : Nat)
  /-- CRYSTAL_TRIP (R393): A crystal monitor trip switches to the other qualified crystal or enters the brake state. -/
  | crystalTrip (t crystal : Nat)
  /-- FAST_OSC_FAIL (R397): The fast oscillator out of range for two slow cycles brakes the module until VAUX33 is removed. -/
  | fastOscFail (t : Nat)
  /-- PWRGD_ASSERT (R403): PWRGD asserting may set P and start the main power-up sequence. -/
  | pwrgdAssert (t : Nat)
  /-- PWRGD_DEASSERT (R427): PWRGD deasserting before rails are enabled returns to step 5, or later declares power loss. -/
  | pwrgdDeassert (t : Nat)
  /-- PERST_ASSERT (R348): PERST_N asserted runs the flush from VIN48 and resets the module, or restarts qualification while braked. -/
  | perstAssert (t held : Nat)
  /-- PERST_DEASSERT (R404): PERST_N deasserted continues power-up from step 6 of Table 17.4. -/
  | perstDeassert (t : Nat)
  /-- VIN48_OVERVOLTAGE (R421): VIN48 above 57 V for 2 µs disconnects the input and declares power loss. -/
  | vin48Overvoltage (t : Nat)
  /-- VAUX33_LOSS (R422): VAUX33 below 3.0 V for 2 µs with rails enabled declares power loss. -/
  | vaux33Loss (t : Nat)
  /-- PLL_LOCK_LOSS (R401): A domain PLL losing lock stops its domain until relock, failing lanes or braking by domain. -/
  | pllLockLoss (t domain unit : Nat)
  /-- PLL_RELOCK (R401): A PLL relocks and its domain restarts, leaving the brake state if a core PLL caused it. -/
  | pllRelock (t domain unit : Nat)
  /-- CLOCK_GATE_REQUEST (R402): A block idle for its idle time is asked to close its clock gate by handshake. -/
  | clockGateRequest (t kind unit : Nat)
  /-- GATE_HANDSHAKE_TIMEOUT (R402): A gating request without idle report within 4,096 hub cycles is dropped and counted. -/
  | gateHandshakeTimeout (t kind unit : Nat)
  /-- CLOCK_GATE_WAKE (R402): A transfer to a gated block wakes it. -/
  | clockGateWake (t kind unit : Nat)
  /-- SLICE_DUE (R406): A slice's interval passes on a unit and it waits for a gap before the unit is marked. -/
  | sliceDue (t slice unit : Nat)
  /-- SLICE_GAP_TIMEOUT (R406): A due slice with no gap within 10 minutes proceeds without one. -/
  | sliceGapTimeout (t slice unit : Nat)
  /-- SLICE_DEFERRAL_EXPIRE (R406): A slice due for the deferral limit pre-empts the running piece at its next checkpoint. -/
  | sliceDeferralExpire (t slice unit : Nat)
  /-- SLICE_COMPLETE (R410): A slice ends with pass, MARGIN or failure, clearing the unit and recording the result. -/
  | sliceComplete (t slice unit : Nat) (outcome : SliceOutcome)
  /-- GET_TEST_SCHEDULE (R406): Returns the schedule state of each unit and slice. -/
  | getTestSchedule (h : MbHdr) (o : OutReq)
  /-- SET_TEST_INTERVAL (R405): Sets a slice's interval. -/
  | setTestInterval (h : MbHdr) (slice interval : Nat)
  /-- SET_DEFERRAL_LIMIT (R406): Sets the slice deferral limit. -/
  | setDeferralLimit (h : MbHdr) (limit : Nat)
  /-- GET_AGEING_TELEMETRY (R413): Returns path monitor, lane and flash wear readings. -/
  | getAgeingTelemetry (h : MbHdr) (o : OutReq)
  /-- GET_TENTERING_PLAN (R414): Returns the tentering plan in force. -/
  | getTenteringPlan (h : MbHdr)
  /-- PATH_MONITOR_SAMPLE (R413): Path monitors are sampled every 10 minutes. -/
  | pathMonitorSample (t : Nat) (readings : List Nat) (hub : List Nat)
  /-- TENTERING_RUN (R414): Tentering re-plans voltages, ceiling, endurance budget and laser targets after mount and every 24 hours. -/
  | tenteringRun (t : Nat) (waf30 : Nat) (margins : List Nat)
  /-- REGISTER_WRITE (R4): A write to a BAR2 register without a row of its own acts by its access type, such as RW1C clearing or RW setting. -/
  | registerWrite (r : RegAccess)
  /-- STONE_STEP_CHANGE_COMPLETE (R400): A stone clock step change ends after its PLL lock and voltage slew, clearing CHANGING, allowing slices again and starting any queued latest target. -/
  | stoneStepChangeComplete (t : Nat)
  /-- HOLDUP_BANK_FAILED (R260): The hold-up bank is found unable to charge, enters FAILED, raises a HOLDUP event and turns durable extents write-through. -/
  | holdupBankFailed (t : Nat)
  /-- REFRESH_WINDOW_HOT (R232): A stack's die temperature crossing 85 °C switches its refresh window between 32 ms and 16 ms and sets or clears NT_STACK HOT. -/
  | refreshWindowHot (t stack : Nat) (temp : Int)
  /-- BURST_CREDIT_REFILL (R252): The endurance credit rises at B while powered and, on rising above zero, lifts the hold of charged programming to rate B. -/
  | burstCreditRefill (t : Nat)
  /-- VIN48_INPUT_RECONNECT (R421): After an overvoltage disconnect, the input stage reconnects VIN48 at its next rise from below 40.0 V. -/
  | vin48InputReconnect (t : Nat)
  /-- FLIT_CRC_FAILURE (R310): A received flit whose CRC fails, for example after an uncorrectable codeword, is replayed by the link layer and logged as Receiver Error or Physical_Layer_Error with its thresholds. -/
  | flitCrcFailure (port : Nat) (e : FlitErr) (header : Bytes)
  /-- SPDM_END_SESSION (R383): A secured SPDM session ends, by END_SESSION or by heartbeat expiry, and its session keys end. -/
  | spdmEndSession (ld session : Nat)
  /-- BUS_MASTER_ENABLE (R350): Setting Bus Master Enable again allows the LD's device reads and sends the MSI-X messages recorded in the pending bits. -/
  | busMasterEnable (ld : Nat)
  /-- D3HOT_ENTRY (R332): A Power Management write moves the LD between D0 and D3hot, stopping or restoring CXL.io requests while CXL.mem stays served. -/
  | d3hotEntry (ld : Nat) (toD3 : Bool)
  deriving DecidableEq, Repr

end Sys2Proof
end

