-- ==== Sys2Proof/Decode.lean ====
section
/-! DEFINITION. The commands that a word of the opcode table spells. The table of the LM9 gives its rows no bits (the field list of every
row is empty): a command is the write, message, pin edge or timer that its rule names, so no word spells one. -/
namespace Sys2Proof

/-- No row of the table gives bits, so every word is refused. DEDUCED, log entry 6. -/
def decodeTableWord (_nbits _w : Nat) : Option Instr := none

end Sys2Proof
end

