-- ==== Sys2Proof/Config.lean ====
section
/-! DEFINITION. What an implementation of the LM9 fixes and the values the spec leaves open. Every constant here has
no value that a proof can see: a statement that holds, holds for all of them. -/
namespace Sys2Proof.Config

/-- The module's serial number (R432: the manual fixes no value). -/
opaque serial : Nat
/-- FWVER of the image of the factory (R431, R432: the manual fixes no value). -/
opaque factoryFwver : Nat
/-- SVN of the factory image (R431). -/
opaque factorySvn : Nat
/-- Mask i of the bank hash that an image makes boot code write (R231); the image format gives no place for it. -/
opaque bankMask : Bytes → Nat → BitVec 21
/-- SHA-256, named by R295, R374, R385 and others as an external standard whose text is not in the spec. -/
opaque sha256 : Bytes → BitVec 256
/-- AES-256 on one block, named by R43 as an external standard whose text is not in the spec: key and block. -/
opaque aes256 : BitVec 256 → BitVec 128 → BitVec 128
/-- The 15 check symbols of RS(271,256) over GF(2^10) for 256 data symbols (R309: neither the field's polynomial nor the generator is
given). -/
opaque rsParity : List (BitVec 10) → List (BitVec 10)
/-- RSA-3072 PSS verification of an envelope (Table 6.8): key identifier, message, signature. The standard's text
is not in the spec. -/
opaque rsaVerify : Bytes → Bytes → Bytes → Bool
/-- KEYID of a public key: the SHA-256 digest of the key (Table 6.8, R149), from its exponent and modulus. -/
opaque keyId : Nat → Bytes → Bytes
/-- Key identifiers of the Umaygon dressing keys built into a firmware image (R149, Table 16.7). -/
opaque umaygonDressingKey : Bytes → Bytes → Bool
/-- Key identifiers of the Umaygon firmware keys whose digests the miller ROM holds (R373). -/
opaque umaygonFirmwareKey : Bytes → Bool
/-- Key identifiers of the Umaygon test content keys (R304). -/
opaque umaygonTestKey : Bytes → Bytes → Bool
/-- Key identifiers of the Umaygon debug keys (R386). -/
opaque umaygonDebugKey : Bytes → Bytes → Bool
/-- A draw from the hub's random bit generator (R383), by a counter. -/
opaque randomBits : Nat → BitVec 256
/-- The random draw of R233 on a row activation at exponent E, by a counter: 0 none, 1 the adjacent rows, 2 the rows two away. -/
opaque rowDraw (e : Nat) : Nat → Nat
/-- The row `d` places above or below a row of a stack, by the row map that training reads (R233, R239). -/
opaque rowBeside (stack row d : Nat) (above : Bool) : Nat
/-- The random draw of R290 at dispatch, by a counter. -/
opaque sampleDraw : Nat → Nat
/-- exp(x) on fp32 (R188: within 1 ulp of the exact value; the spec states no more). -/
opaque expF32 : BitVec 32 → BitVec 32
/-- What a tenant dressing writes as result area of one piece, from its container, the piece index, the parameter lines and the data of
the lines that the piece took (R133, R198; the microword encoding belongs to Miwin and is not in the spec). -/
opaque tenantResult : Bytes → Nat → Bytes → List Bytes → List Bytes
/-- The highest format code of Table 6.3 that a tenant piece presents to the datapath (R130), from the same. -/
opaque tenantFormat : Bytes → Nat → Bytes → List Bytes → Nat
/-- The check pairs that a tenant piece writes to the checker (Table 12.1), from the same: two exact accumulator contents each under
CHECK 1; an fp32 value, an exact reference, the sum of the magnitudes of its terms and their number under CHECK 2. -/
opaque tenantExact : Bytes → Nat → Bytes → List Bytes → List (BitVec 640 × BitVec 640)
opaque tenantTol : Bytes → Nat → Bytes → List Bytes → List (BitVec 32 × BitVec 640 × BitVec 640 × Nat)
/-- What a piece leaves in its stone's exact accumulators: 640 bits and the three flags of each (R134, R135); and in its bucket file
(R140), by a counter. -/
opaque stoneAccs : Nat → List (BitVec 643)
opaque stoneBuckets : Nat → List (BitVec 640)
/-- The outputs of an attention over no position (R188 states none), by operation and word. -/
opaque emptyAttend : Nat → Nat → Nat
/-- The AUX value a tenant dressing sets (Table 7.6), from its container, the parameter lines and the result areas. -/
opaque tenantAux : Bytes → Bytes → List Nat → BitVec 64
/-- A value the spec leaves open, fresh for each value of the counter `State.freeCtr`. -/
opaque freeValue : Nat → Nat
/-- Patterns and expected responses are built into the firmware (R405): the 64-bit pattern word of R279. -/
opaque patternWord : BitVec 64
/-- The stock answer of an SPDM exchange, by a counter (R384: keys and nonces of a session). -/
opaque sessionKey : Nat → BitVec 256
/-- The keys of a link's IDE streams, by a counter and their place (R352: the host sets them in a secured session). -/
opaque ideKey : Nat → Nat → BitVec 256
/-- The entries of a stack controller's request queue beyond the first (Table 8.4: the manual fixes no depth). -/
opaque stackQueue : Nat
/-- The percentage complete that a running background command shows, by opcode and time in ns (R359: the manual fixes no value). -/
opaque progress : Nat → Nat → Nat
/-- The key store key, which the hub derives from the device secret at step 3 of each boot (Table 16.7). -/
opaque keyStoreKey : BitVec 256
/-- SHA-256 digest of the miller ROM (Table 16.8, block 1). -/
opaque romDigest : BitVec 256
/-- SHA-256 digest of the header and body of the factory image (Table 16.8, block 2). -/
opaque factoryDigest : BitVec 256
/-- RSASSA-3072 PSS signature with the identity key (R384, R385). -/
opaque identitySign : Bytes → Bytes
/-- The number of dressings built into the firmware and the container header of each (R150: handles 0 to 31). -/
opaque builtinCount : Nat
opaque builtinHeader : Nat → Bytes
/-- A laser's bias current at first power-up, in 0.01 mA, by 32 × port + 4 × bank + wavelength (R319). -/
opaque initialBias : Nat → Nat
/-- Command effects of the Command Effects Log, by opcode (CXL 3.1 defines their bits; the spec gives no value). -/
opaque effects : Nat → Nat
/-- The code of an abort request that cannot be honoured (R359 leaves it to CXL 3.1): Busy, else Invalid Input. -/
opaque abortBusy : Bool
end Sys2Proof.Config
end

