-- ==== Sys2Proof/Machine/Table.lean ====
section
/-! DEFINITION. A sparse table: what an unlisted key reads as, and the listed entries in one canonical form (keys
strictly rising, no entry equal to what an unlisted key reads as). Every indexed piece of state is one. -/
namespace Sys2Proof.Machine

/-- A table from numbers to values. `dflt` is what an unlisted key reads as. -/
structure Tbl (α : Type) where
  dflt : α
  cells : List (Nat × α) := []
  deriving DecidableEq, Repr

/-- The value listed for `k`, or `d`. -/
def cellGet {α : Type} (d : α) (k : Nat) : List (Nat × α) → α
  | [] => d
  | (j, v) :: rest => if j = k then v else cellGet d k rest

/-- Remove the entry for `k`. -/
def cellDel {α : Type} (k : Nat) : List (Nat × α) → List (Nat × α)
  | [] => []
  | (j, v) :: rest => if j = k then rest else (j, v) :: cellDel k rest

/-- Put the entry `(k, v)` at its place. -/
def cellPut {α : Type} (k : Nat) (v : α) : List (Nat × α) → List (Nat × α)
  | [] => [(k, v)]
  | (j, w) :: rest =>
    if k < j then (k, v) :: (j, w) :: rest
    else if j = k then (k, v) :: rest
    else (j, w) :: cellPut k v rest

/-- Keys strictly rising, all above `lo`, and no value equal to `d`. -/
def cellsWf {α : Type} [DecidableEq α] (d : α) : Option Nat → List (Nat × α) → Bool
  | _, [] => true
  | lo, (k, v) :: rest =>
    (match lo with | none => true | some l => decide (l < k)) && decide (v ≠ d) && cellsWf d (some k) rest

/-- DEDUCED, log entry 8. -/
def Tbl.get {α : Type} (t : Tbl α) (k : Nat) : α := cellGet t.dflt k t.cells

/-- Write `v` at `k`; writing the value an unlisted key reads as removes the entry. -/
def Tbl.set {α : Type} [DecidableEq α] (t : Tbl α) (k : Nat) (v : α) : Tbl α :=
  { t with cells := if v = t.dflt then cellDel k t.cells else cellPut k v t.cells }

/-- Change the value at `k`. -/
def Tbl.upd {α : Type} [DecidableEq α] (t : Tbl α) (k : Nat) (f : α → α) : Tbl α := t.set k (f (t.get k))

/-- The listed keys, rising. -/
def Tbl.keys {α : Type} (t : Tbl α) : List Nat := t.cells.map Prod.fst

/-- The canonical form. -/
def Tbl.wf {α : Type} [DecidableEq α] (t : Tbl α) : Bool := cellsWf t.dflt none t.cells

/-- Change the value at each key of a list. -/
def Tbl.updAll {α : Type} [DecidableEq α] (t : Tbl α) (ks : List Nat) (f : Nat → α → α) : Tbl α :=
  ks.foldl (fun u k => u.upd k (f k)) t

end Sys2Proof.Machine
end

