-- ==== Sys2Proof/Machine/State.lean ====
section
/-! DEFINITION. The state of the LM9 as plain data: one sub-structure for each chapter of the spec, the queue of
waiting commands, what the module has sent, and the machine right after reset. -/
namespace Sys2Proof.Machine

/-- A field of a payload or record: byte offset, length in bytes, value (R2: little-endian). -/
structure Fld where
  off : Nat
  size : Nat
  val : Nat
  deriving DecidableEq, Repr

/-- The return codes of Table 15.3. -/
inductive Rc where
  | success
  | bgStarted
  | invalidInput
  | unsupported
  | internalError
  | retryRequired
  | busy
  | resourcesExhausted
  | invalidExtentList
  | invalidHandle
  | invalidPhysicalAddress
  | aborted
  | busMasterDisabled
  deriving DecidableEq, Repr

/-- One thing the module sends to the outside: an answer, a completion, a snoop, a message, an interrupt. `load` is the DevLoad value of
an S2M response (R355). -/
inductive Out where
  /-- data of a CXL.mem read or gate result read -/
  | memData (ld tag : Nat) (data : Bytes) (load : Nat := 0)
  /-- poison as the answer to a read -/
  | memPoison (ld tag : Nat) (load : Nat := 0)
  /-- all-ones data with no poison, or an unserved request (R330, R338) -/
  | memError (ld tag : Nat)
  /-- completion of a CXL.mem write -/
  | memDone (ld tag : Nat) (load : Nat := 0)
  /-- end of the immediate part of a mailbox command -/
  | mailbox (src opcode : Nat) (code : Rc) (fields : List Fld) (blob : Bytes)
  /-- end of a background command: return code and VSES (R359) -/
  | background (src opcode : Nat) (code : Rc) (vses : Nat)
  /-- an MSI-X message (R333) -/
  | msix (ld vector : Nat)
  /-- a back-invalidate snoop of a line -/
  | biSnp (ld blk line : Nat) (inv : Bool)
  /-- a peer message sent on a port, with its fields and data (Table 13.5) -/
  | peer (port ptype : Nat) (fields : List Fld) (data : Bytes)
  /-- a CXL.io answer or message: completion status, error message, DOE or PME content -/
  | cxlIo (ld kind : Nat) (fields : List Fld) (blob : Bytes)
  deriving DecidableEq, Repr

/-! ### Chapter 02: extents, sacks, isolation -/

/-- The per-LD fields of the partition map (Table 2.1). -/
structure PartLd where
  enabled : Bool := false
  group : Nat := 0
  dpaSize : Nat := 0
  sliceBase : Nat := 0
  quota : Nat := 0
  regions : List (Nat × Nat) := []
  deriving DecidableEq, Repr

/-- The states of Table 2.4. -/
inductive ExtState where
  | pending
  | active
  | releasing
  | withdrawing
  | discarding
  deriving DecidableEq, Repr

/-- An extent descriptor (Table 2.3) with its offered group (Table 2.8) and its codec area (R103). An alias names
its owner's descriptor. `leftOp` is the number of the next gate operation when the extent left ACTIVE: operations
numbered below it were accepted before (R45). -/
structure Extent where
  eid : Nat
  ld : Nat
  base : Nat
  len : Nat
  tag : Nat := 0
  owner : Nat
  ownerBase : Nat
  profile : Word
  region : Nat := 0
  state : ExtState := .pending
  group : Nat := 0
  resvPayload : Nat := 0
  resvSide : Nat := 0
  resvSpill : Nat := 0
  resvStage : Nat := 0
  codec : Nat := 0
  isAlias : Bool := false
  leftOp : Nat := 0
  deriving DecidableEq, Repr

/-- EXT_DROP of one LD, with the memory of R33 for its event. -/
structure DropRegs where
  wrDrop : Nat := 0
  rdPoison : Nat := 0
  seen : Bool := false
  last : Nat := 0
  deriving DecidableEq, Repr

/-- `keys` are the AES-256-XTS key slots of the LDs, 512 bits each (R43, Table 16.7). -/
structure ExtSt where
  parts : Tbl PartLd := { dflt := {} }
  mapOk : Bool := false
  mapSerial : Nat := 0
  profiles : Tbl (Option Word) := { dflt := none }
  keys : Tbl (Option (BitVec 512)) := { dflt := none }
  exts : List Extent := []
  nextEid : Nat := 0
  nextGroup : Tbl Nat := { dflt := 1 }
  drops : Tbl DropRegs := { dflt := {} }
  deriving DecidableEq, Repr

/-! ### Chapters 02, 04, 05: sacks, block images, transfers -/

/-- TIER of a sack map entry (Table 2.6). -/
inductive Tier where
  | none
  | t2
  | t1
  deriving DecidableEq, Repr

/-- MST of a sack map entry (Table 4.2). -/
inductive Mst where
  | unmapped
  | allocating
  | deep
  | promoting
  | specPromoting
  | clean
  | dirty
  | writeback
  | demoting
  | specClean
  deriving DecidableEq, Repr

/-- A sack map entry (Table 2.6) and, while frames are held, the near frame descriptor of its run (Table 4.1).
`slot` is the deep slot, in LOC or in DSLOT by the tier; `captured` is the captured set of a write-back (R84). USE
counts are the holds of `StoreSt.holds`. `size` is the SIZE field. `arrived` are the blocks that the transfer in flight has
installed (R92), `waits` says that an allocation waits for frames (R39, R75). `unwritten` are the blocks not written since POISON was
set; `since` is when the T1 copy was made. -/
structure Sack where
  tier : Tier := .none
  mst : Mst := .unmapped
  ldtag : Nat := 0
  poison : Bool := false
  durable : Bool := false
  lossy : Bool := false
  spill : Bool := false
  reft : Bool := false
  size : Nat := 0
  slot : Nat := 0
  stack : Nat := 0
  frame : Nat := 0
  near : Bool := false
  ref : Bool := false
  evict : Bool := false
  spec : Bool := false
  swheel : Nat := 0
  cclass : Nat := 0
  dirty : BitVec 128 := 0
  captured : BitVec 128 := 0
  arrived : BitVec 128 := 0
  waits : Bool := false
  since : Nat := 0
  unwritten : BitVec 128 := 0
  deriving DecidableEq, Repr

/-- A side record (Table 5.3). `resv` are its reserved bits (R107). -/
structure SideRec where
  kind : Nat := 0
  gen : Nat := 0
  prec : Bool := false
  raw : Bool := false
  gran : Nat := 0
  spoff : Nat := 0
  resv : Nat := 0
  deriving DecidableEq, Repr

/-- The stored image of one block in one tier: its side record and its stored bytes (payload, exact copy or
encoding). `order` is the time order of its write (R118, R126). -/
structure StoredBlk where
  side : SideRec := {}
  bytes : Bytes := []
  order : Nat := 0
  deriving DecidableEq, Repr

/-- Who keeps a hold on a sack (Table 4.4). -/
inductive Holder where
  | wheel (w : Nat)
  | op (ld buf : Nat)
  | bin (id : Nat)
  deriving DecidableEq, Repr

structure Hold where
  sack : Nat
  ld : Nat
  who : Holder
  deriving DecidableEq, Repr

/-- What a transfer of a migration channel does (R100). -/
inductive XferKind where
  | promote
  | spec
  | writeback
  | victimWriteback
  deriving DecidableEq, Repr

/-- What a stream entry holds besides its object (Table 8.1): the weir class charged, the payload bytes moved, and the CXL timestamps of
its taking and of the last request charged to it. -/
structure StreamMeta where
  cls : Nat := 0
  bytes : Nat := 0
  opened : Nat := 0
  lastuse : Nat := 0
  deriving DecidableEq, Repr

/-- A sack transfer: its channel, or none while it is not issued. `demand` says that a demand caused it, `ld` whose request or wheel
did, `die` is the die of R74, `wants` are the wheels whose entries it serves, each with the entry's DIE, `cls` its weir class;
`retry`, `endur`, `weir` and `busy` remember what made it wait (Table 3.5). `inG` says that it was in guarantee at the DEEPRD weir when
it was queued (R220), and `strm` is its MIGRATION stream entry (Table 8.1). -/
structure Xfer where
  sack : Nat
  kind : XferKind
  chan : Option Nat
  eid : Nat
  demand : Bool
  start : Nat
  ld : Nat := 0
  die : Option Nat := none
  wants : List (Nat × Option Nat) := []
  cls : Nat := 0
  retry : Bool := false
  endur : Bool := false
  weir : Bool := false
  busy : Bool := false
  inG : Bool := false
  strm : StreamMeta := {}
  deriving DecidableEq, Repr

/-- What waits for a held read: a host, a stone, or a partial merge-buffer entry that is being completed (R83). -/
inductive ReadFor where
  | cxl (tag : Nat)
  | stone (stone tag line : Nat)
  | merge
  deriving DecidableEq, Repr

/-- Why a read is held. `order`: an earlier request of its LD to its line has not completed (R15); `corrupt`: its sack map entry is
corrupt (R41). -/
inductive HeldWhy where
  | corrupt
  | demand
  | order
  | codecCache
  | rebuild
  | tierMove
  | writeBack
  deriving DecidableEq, Repr

/-- A held read (R40, R92, R110). `muted` says that a reset discards its answer (Table 14.7), `die` is the die of R74 rule 2, `cls` the weir
class charged. -/
structure HeldRead where
  rid : Nat
  ld : Nat
  dpa : Nat
  eid : Nat
  sack : Nat
  blk : Nat
  line : Nat
  who : ReadFor
  why : HeldWhy
  cause : Option Nat
  start : Nat
  muted : Bool := false
  die : Option Nat := none
  cls : Nat := 0
  deriving DecidableEq, Repr

/-- Why a write is held (R15, R24, R39, R41, R89, R117, R245). -/
inductive WriteWhy where
  | rebuild
  | corrupt
  | order
  | allocating
  | stageFull
  | mergeFull
  | mirrorFull
  | writeThrough
  | completing
  deriving DecidableEq, Repr

/-- A write accepted and not complete. `merged` says that its bytes are in the merge buffer, `muted` that a reset discards
its answer (Table 14.7), `cls` is the weir class charged (R216). -/
structure HeldWrite where
  wid : Nat
  ld : Nat
  dpa : Nat
  eid : Nat
  sack : Nat
  blk : Nat
  line : Nat
  data : Bytes
  enables : BitVec 64
  poison : Bool
  tag : Nat
  why : WriteWhy
  merged : Bool
  order : Nat := 0
  muted : Bool := false
  cls : Nat := 0
  start : Nat := 0
  deriving DecidableEq, Repr

/-- A merge-buffer entry (R241). `passed` says that it has gone to the encoder; `opener` is the LD charged, `cls` the weir class (R216). -/
structure MergeEnt where
  blk : Nat
  opener : Nat
  eid : Nat
  data : Bytes
  valid : BitVec 512
  lastWrite : Nat
  order : Nat := 0
  passed : Bool := false
  rmw : Bool := false
  cls : Nat := 0
  deriving DecidableEq, Repr

/-- A durable mirror record (Table 4.6, R88): its number, its lines, its image, and the stacks of copies A and B. -/
structure Mirror where
  rno : Nat := 0
  blk : Nat
  lines : BitVec 8
  data : Bytes
  stackA : Option Nat
  stackB : Option Nat
  since : Nat
  deriving DecidableEq, Repr

/-- A staged T0 copy (R73). -/
structure T0Copy where
  sack : Nat
  die : Nat
  wheel : Nat
  since : Nat
  dropped : BitVec 128 := 0
  deriving DecidableEq, Repr

/-- MRC_ and BLT_ registers of one LD page. -/
structure MrcLd where
  stallCount : Tbl Nat := { dflt := 0 }
  stallTime : Tbl Nat := { dflt := 0 }
  evictNoop : Nat := 0
  refetch : Nat := 0
  specIssued : Nat := 0
  specConfirmed : Nat := 0
  undone : Nat := 0
  skipped : Nat := 0
  allow : Nat := 1024
  escapes : Nat := 0
  precision : Nat := 0
  precSeen : Bool := false
  precLast : Nat := 0
  overflow : Nat := 0
  compact : Nat := 0
  convert : Nat := 0
  held : Nat := 0
  sideMiss : Nat := 0
  deriving DecidableEq, Repr

/-- A pattern of errors in one stored codeword of a block's T1 payload (R266, R278): block, word, 72-bit pattern. -/
structure ErrPat where
  blk : Nat
  word : Nat
  mask : Nat
  deriving DecidableEq, Repr

/-- The state names of a table set (Table 5.5). -/
inductive SetState where
  | free
  | empty
  | building
  | ready
  | recoding
  deriving DecidableEq, Repr

/-- A codec table set (R111): party, format, its two generations as columns of entry bit patterns. `genOps` are the gate operations
over the span that were at work when the current generation became current, by their order (R121). -/
structure TableSet where
  state : SetState := .free
  party : Nat := 0
  src : Nat := 0
  rate : Nat := 0
  cols : Nat := 0
  cur : Nat := 0
  gen0 : List (List Nat) := []
  gen1 : List (List Nat) := []
  genOps : List Nat := []
  lastStaged : Nat := 0
  recodeStart : Nat := 0
  deriving DecidableEq, Repr

/-- A bolter build waiting or running (R118): the set and, for C043h of a READY set, the named extent; `sample` is what a running one
has sampled. -/
structure Build where
  set : Nat
  ext : Option Nat
  running : Bool
  start : Nat
  sample : List Bytes := []
  deriving DecidableEq, Repr

/-- `cacheMissing` are the codec cache entries replaced and not read in again, `cacheUsed_` those used since the clock scan passed
them and `cacheHand` is its position, all by the key of `cacheKey` (R110). `corrupt` are the sacks whose map entry has been found
corrupt (R41). -/
structure StoreSt where
  sacks : Tbl Sack := { dflt := {} }
  t1 : Tbl StoredBlk := { dflt := {} }
  t2 : Tbl StoredBlk := { dflt := {} }
  written : Nat := 0
  holds : List Hold := []
  xfers : List Xfer := []
  heldReads : List HeldRead := []
  heldWrites : List HeldWrite := []
  nextRid : Nat := 0
  merges : List MergeEnt := []
  mirrors : List Mirror := []
  dirtySince : Tbl Nat := { dflt := 0 }
  t0 : List T0Copy := []
  errs : List ErrPat := []
  mrc : Tbl MrcLd := { dflt := {} }
  fullWait : Nat := 0
  chalt : Nat := 0
  chaltValid : Bool := false
  chcnt : Nat := 0
  offDie : Nat := 0
  noFrame : Nat := 0
  sets : Tbl TableSet := { dflt := {} }
  builds : List Build := []
  lastGap : Nat := 0
  cacheMissing : List Nat := []
  cacheUsed_ : List Nat := []
  cacheHand : Nat := 0
  cacheReplaced : Nat := 0
  corrupt : List Nat := []
  mergePoisonDrop : Nat := 0
  mergeEarly : Nat := 0
  mergeRmw : Nat := 0
  deriving DecidableEq, Repr

/-! ### Chapter 03: the sweep -/

/-- A schedule entry (Table 3.4) with what the fantail and R61, R95 remember of it. `relNeed` is one above the
highest need index released; `waiting` the sacks of the current release not yet complete, of which those in no issued transfer are
unissued; `doneAt` the time and index of completion; `spec` a speculative release; `strm` its PREFETCH stream entry (Table 8.1). -/
structure SEntry where
  layer : Nat
  lead : Nat
  action : Nat
  die : Nat
  anydie : Bool
  sack : Nat
  count : Nat
  hist : Nat := 1
  relNeed : Nat := 0
  need : Nat := 0
  live : Bool := false
  spec : Bool := false
  waiting : List Nat := []
  doneAt : Option (Nat × Nat) := none
  readNow : Bool := false
  lateRun : Nat := 0
  earlyRun : Nat := 0
  unread : Nat := 0
  strm : StreamMeta := {}
  learned : Bool := false
  deriving DecidableEq, Repr

/-- The state codes of Table 3.1. -/
inductive WheelState where
  | closed
  | survey
  | running
  | idle
  | resting
  deriving DecidableEq, Repr

/-- One recorded read: layer, sack of the LD's DPA, die or none (R62). -/
structure RecRead where
  layer : Nat
  sack : Nat
  die : Option Nat
  deriving DecidableEq, Repr

structure Wheel where
  state : WheelState := .closed
  n : Nat := 0
  sig : Nat := 0
  dlead : Nat := 0
  pclass : Nat := 0
  cclass : Nat := 0
  notune : Bool := false
  nolearn : Bool := false
  spec : Bool := false
  autoload : Bool := false
  idleMs : Nat := 0
  restS : Nat := 0
  watch : List (Nat × Nat) := []
  placed : Bool := false
  turn : Nat := 0
  layer : Nat := 0
  k : Nat := 0
  debt : Nat := 0
  late : Nat := 0
  rephase : Nat := 0
  backstep : Nat := 0
  badpos : Nat := 0
  skip : Nat := 0
  sched : List SEntry := []
  staged : Option (List SEntry) := none
  old : List SEntry := []
  wasSurvey : Bool := false
  surveyTurn : Nat := 0
  record : List RecRead := []
  trunc : Bool := false
  lastAdvance : Nat := 0
  slotStart : Nat := 0
  slots : List Nat := []
  deriving DecidableEq, Repr

/-- A stored schedule (R64). -/
structure Stored where
  ld : Nat
  sig : Nat
  layers : Nat
  sched : List SEntry
  deriving DecidableEq, Repr

/-- `entered` holds, for each wheel, the slots that its last accepted position entered or crossed (R70, R434). -/
structure SweepSt where
  wheels : Tbl Wheel := { dflt := {} }
  stored : List Stored := []
  entered : List (Nat × Nat × Nat) := []
  deriving DecidableEq, Repr

/-! ### Chapter 09: near tier -/

/-- The states of NT_STACK. -/
inductive StackState where
  | active
  | selfref
  | changing
  | slot
  | failed
  deriving DecidableEq, Repr

/-- One stack: its point, refresh window, retraining, neighbour refresh and self-refresh. A change goes to `goal` and ends
at `changeAt` at the earliest; `prev` is the point to go back to, `retryPoint` a point owed after retraining (R238). `hand` is the frame at which
the clock scan for victims stands (R75), `sets` the shadow timing set of each point: the number of a free value that stands for the
trained delays and reference voltages (R235). `shares` is the share frame table: a retired frame of a reserved share, and the frame that
replaces it (R280). -/
structure Stack where
  state : StackState := .active
  point : Nat := 0
  hot : Bool := false
  stale : BitVec 4 := 0
  nrhold : Nat := 0
  srentry : Nat := 0
  lastUse : Nat := 0
  checkAtExit : Bool := false
  changeAt : Nat := 0
  goal : Option Nat := none
  prev : Nat := 0
  retryPoint : Option Nat := none
  trainTemp : Tbl Int := { dflt := 40 }
  trainAt : Tbl Nat := { dflt := 0 }
  retrainPoint : Option Nat := none
  slotsDone : Tbl Nat := { dflt := 0 }
  lastSlot : Tbl Nat := { dflt := 0 }
  trainFails : Nat := 0
  refreshAt : Tbl Nat := { dflt := 0 }
  refreshLate : Tbl Bool := { dflt := false }
  targeted : List (Nat × Nat) := []
  retiredFrames : List Nat := []
  retiredBank : Option Nat := none
  hand : Nat := 0
  sets : Tbl Nat := { dflt := 0 }
  shares : List (Nat × Nat) := []
  deriving DecidableEq, Repr

structure NearSt where
  bankhash : List (BitVec 21) := [0x4020, 0x8040, 0x10080, 0x20100, 0x40200, 0x80400, 0x100800, 0x1000, 0x2000]
  stks : Tbl Stack := { dflt := {} }
  point : Nat := 0
  target : Option Nat := none
  queued : Option Nat := none
  group : Nat := 0
  changes : Nat := 0
  sridle : Nat := 20
  nre : Nat := 10
  nref : Nat := 0
  rebuilding : List Nat := []
  rebuildAt : Nat := 0
  deriving DecidableEq, Repr

/-! ### Chapter 10: deep tier -/

/-- A slot map entry (Table 10.3). -/
structure SlotLoc where
  group : Nat := 0
  plane : Nat := 0
  block : Nat := 0
  page : Nat := 0
  pkg : Nat := 0
  half : Nat := 0
  valid : Bool := false
  deriving DecidableEq, Repr

/-- A flash block: program/erase count, reads since it was programmed, when it was programmed in powered time, whether it is erased or
retired, and when the patrol last read it (R253). -/
structure FlashBlk where
  pe : Nat := 0
  reads : Nat := 0
  since : Nat := 0
  free : Bool := true
  retired : Bool := false
  patrolled : Nat := 0
  deriving DecidableEq, Repr

/-- DT_HOLDUP.STATE (R260). -/
inductive Bank where
  | charging
  | healthy
  | testing
  | weak
  | failed
  deriving DecidableEq, Repr

/-- A flush area: its records, the durable blocks that were dirty, whether its header is good, and whether it has been merged
(R258, R263, R264). -/
structure FlushArea where
  recs : List Mirror := []
  dirty : List Nat := []
  headerOk : Bool := true
  merged : Bool := true
  seq : Nat := 0
  deriving DecidableEq, Repr

/-- A die's rebuild (R254): the slots of its group whose stripes still hold a page on it, and how many there were. -/
structure Rebuild where
  die : Nat
  slots : List Nat
  total : Nat
  deriving DecidableEq, Repr

/-- The open block set of a group (R249, R250): its block number and the next place in it. -/
structure OpenSet where
  block : Nat
  pos : Nat
  deriving DecidableEq, Repr

/-- `nextProg` is when the next charged program may begin while programming is held to rate B (R252). -/
structure DeepSt where
  slots : Tbl SlotLoc := { dflt := {} }
  mapCache : List Nat := []
  blocks : Tbl FlashBlk := { dflt := {} }
  dieFailed : Tbl Bool := { dflt := false }
  dieFails : List (Nat × Nat) := []
  rebuilds : List Rebuild := []
  openSets : Tbl (Option OpenSet) := { dflt := none }
  spare : Nat := 8192
  lowSpare : Bool := false
  budget : Nat := 10
  credit : Int := 4398046511104
  creditAt : Nat := 0
  programming : List Nat := []
  journalSeq : Nat := 0
  journalOpen : Nat := 0
  journalSince : Nat := 0
  checkpoint : Nat := 0
  areas : List FlushArea := [{}, {}]
  charged : Nat := 0
  reloc : Nat := 0
  mergeReads : Nat := 0
  retry : Nat := 0
  parity : Nat := 0
  uncorr : Nat := 0
  bank : Bank := .charging
  before : Bank := .charging
  energy : Nat := 0
  period : Nat := 24
  testAt : Nat := 0
  lastTest : Nat := 0
  mountMs : Nat := 0
  loss : Bool := false
  partialRestore : Bool := false
  records : Nat := 0
  dirtyShutdowns : Nat := 0
  wearUsed : Nat := 0
  nextProg : Nat := 0
  deriving DecidableEq, Repr

/-! ### Chapter 11: stored-data integrity -/

/-- A correctable-error table entry (Table 11.3). `rewritten` holds the bit corrected and written back (R273). -/
structure CeEnt where
  unit : Nat
  loc : Nat
  count : Nat
  bit : Nat
  hard : Bool
  thresh : Bool
  retired : Bool
  first : Nat
  last : Nat
  rewritten : Bool
  deriving DecidableEq, Repr

/-- An uncorrectable-error log record (R277). -/
structure UeRec where
  unit : Nat
  loc : Nat
  access : Nat
  outcome : Nat
  ld : Nat
  dpa : Nat
  time : Nat
  deriving DecidableEq, Repr

/-- INT_FLIP.STATE. -/
inductive FlipState where
  | idle
  | armed
  | applied
  | corrected
  | uncorrectable
  | expired
  | cancelled
  deriving DecidableEq, Repr

structure Flip where
  state : FlipState := .idle
  syndrome : Nat := 0
  blk : Nat := 0
  word : Nat := 0
  mask : Nat := 0
  at_ : Nat := 0
  deriving DecidableEq, Repr

/-- A retirement list entry (R283): kind 0 ROW, 1 BANK, 2 STACK, 3 SACK, and its location. -/
structure Retire where
  kind : Nat
  loc : Nat
  deriving DecidableEq, Repr

structure IntegLd where
  lost : Nat := 0
  reads : Nat := 0
  flip : Flip := {}
  second : Nat := 0
  inSecond : Nat := 0
  deriving DecidableEq, Repr

structure IntegSt where
  lds : Tbl IntegLd := { dflt := {} }
  ce : List CeEnt := []
  ceCount : Nat := 0
  ceLost : Nat := 0
  ue : List UeRec := []
  repaired : Nat := 0
  lost : Nat := 0
  nearPer : Nat := 24
  sramPer : Nat := 10
  behind : Bool := false
  passes : Nat := 0
  passStart : Nat := 0
  sramStart : Nat := 0
  retires : List Retire := []
  deriving DecidableEq, Repr

/-! ### Chapter 15: mailboxes and events -/

/-- An event record: VKIND of Table 15.7, or 1001 General Media, 1002 DRAM, 1003 Memory Module, 1004 Dynamic
Capacity for the standard records of R369. -/
structure Event where
  handle : Nat
  kind : Nat
  ld : Nat
  count : Nat
  turn : Nat
  layer : Nat
  wheel : Nat
  nopos : Bool
  ovf : Bool
  more : Bool
  time : Nat
  detail : List Fld
  deriving DecidableEq, Repr

/-- One event log with its overflow fields (R366). -/
structure EvLog where
  recs : List Event := []
  ovf : Bool := false
  ovCount : Nat := 0
  ovFirst : Nat := 0
  ovLast : Nat := 0
  deriving DecidableEq, Repr

/-- A background command of a mailbox (R359): its opcode, the command itself, when it began. -/
structure Job where
  opcode : Nat
  cmd : Instr
  start : Nat
  started : Bool
  aborted : Bool
  deriving DecidableEq, Repr

/-- An open input image (R360). -/
structure Image where
  src : Nat
  opcode : Nat
  total : Nat
  parts : List (Nat × Bytes)
  last : Nat
  deriving DecidableEq, Repr

/-- An output snapshot (R361): an image of bytes, or a list of records. -/
structure Snap where
  src : Nat
  opcode : Nat
  bytes : Bytes
  recs : List (List Fld)
  last : Nat
  deriving DecidableEq, Repr

/-- What the Background Command Status register of a mailbox holds after a command ended. -/
structure BgStatus where
  opcode : Nat := 0
  code : Rc := .success
  vses : Nat := 0
  deriving DecidableEq, Repr

/-- The primary mailbox registers of a function (R334): the opcode and return code of its last command, and the words of its
Command register and payload that software has written. -/
structure MbRegs where
  opcode : Nat := 0
  code : Rc := .success
  words : Tbl Nat := { dflt := 0 }
  deriving DecidableEq, Repr

structure MboxSt where
  jobs : List (Nat × Job) := []
  status : Tbl BgStatus := { dflt := {} }
  images : List Image := []
  snaps : List Snap := []
  logs : Tbl EvLog := { dflt := {} }
  nextHandle : Nat := 1
  policy : Tbl Nat := { dflt := 0 }
  cmdFail : Tbl Nat := { dflt := 0 }
  injected : List Nat := []
  external : List Nat := []
  retracted : List Nat := []
  regs : Tbl MbRegs := { dflt := {} }
  deriving DecidableEq, Repr

/-! ### Chapter 12: the ledger -/

/-- A ledger record (Table 12.6) without its CRC, which follows from the other fields. -/
structure LedgerRec where
  seqno : Nat := 0
  time : Nat := 0
  kind : Nat
  utype : Nat := 0
  unit : Nat := 0
  op : Nat := 0
  ld : Nat := 31
  wheel : Nat := 0
  nopos : Bool := true
  turn : Nat := 0
  layer : Nat := 0
  temp : Int := 0
  volt : Nat := 0
  cstep : Nat := 0
  npoint : Nat := 0
  detail : Nat := 0
  deriving DecidableEq, Repr

/-- A post to one event log: mailbox, log (0 informational, 1 warning, 2 failure, 3 fatal, 4 dynamic capacity). -/
structure Post where
  mbox : Nat
  log : Nat
  ev : Event
  deriving DecidableEq, Repr

/-- A ledger record not yet programmed, with what is released only after its commit (R301): posts, outputs, and the end of
a background command (mailbox, code, VSES). -/
structure LedgerWait where
  record : LedgerRec
  posts : List Post
  outs : List Out
  job : Option (Nat × Rc × Nat) := none
  start : Nat
  deriving DecidableEq, Repr

/-- How many records of one KIND and UNIT were written since a second began, and how many were not (R302). -/
structure Coalesce where
  kind : Nat
  utype : Nat
  unit : Nat
  start : Nat
  count : Nat
  lost : Nat
  deriving DecidableEq, Repr

/-- A digest range (R295): its blocks, period, position, reference and what the last digest found. `done` says that a
digest has completed, `haltSack` names the sack at which the last one halted (R296). -/
structure Range where
  id : Nat
  ld : Nat
  base : Nat
  len : Nat
  firstBlk : Nat
  key : Nat
  period : Nat
  wheel : Option Nat
  layer : Nat
  reference : Option (BitVec 256) := none
  latest : BitVec 256 := 0
  outcome : Nat := 0
  changed : Bool := false
  time : Nat := 0
  turn : Nat := 0
  lastDone : Nat := 0
  due : Bool := false
  dueAt : Nat := 0
  running : Bool := false
  done : Bool := false
  haltSack : Nat := 0
  peer : Option (Nat × Nat) := none
  deriving DecidableEq, Repr

/-- The unit states of Table 12.5. -/
inductive UnitState where
  | clear
  | observing
  | suspect
  | failed
  deriving DecidableEq, Repr

/-- What is known of a stone, checker or hub unit (R299, R300): the times of its observations and of its entries into
FAILED, newest first, and the slices of its UTYPE passed while it is FAILED (R411). `since` is when it took its state. -/
structure UnitRec where
  state : UnitState := .clear
  obs : List Nat := []
  fails : List Nat := []
  passed : List Nat := []
  since : Nat := 0
  deriving DecidableEq, Repr

/-- RI_ registers of one LD page. -/
structure RiLd where
  fails : Nat := 0
  mismatch : Nat := 0
  replays : Nat := 0
  inputChg : Nat := 0
  sent : Nat := 0
  retracted : Nat := 0
  fallback : Nat := 0
  provisional : Nat := 0
  rretracted : Nat := 0
  timeout : Nat := 0
  runs : Nat := 0
  dmismatch : Nat := 0
  deriving DecidableEq, Repr

/-- An entry of the provisional table (R294), with what its packets said of the forward: the sender's LD, the first
receiver DPA and the lines written. -/
structure Prov where
  node : Nat
  fwdid : Nat
  ld : Nat
  blocks : List Nat
  since : Nat
  srcLd : Nat := 0
  dest : Nat := 0
  lines : Nat := 0
  deriving DecidableEq, Repr

structure ResultSt where
  ledger : List LedgerRec := []
  nextSeq : Nat := 1
  waits : List LedgerWait := []
  coal : List Coalesce := []
  coalesced : Nat := 0
  errLog : List LedgerRec := []
  ranges : List Range := []
  lds : Tbl RiLd := { dflt := {} }
  units : Tbl UnitRec := { dflt := {} }
  obsCount : Nat := 0
  sample0 : Nat := 12
  sample1 : Nat := 8
  sample2 : Nat := 12
  earlyEn : Bool := true
  pkgSeq : Nat := 0
  pkg : Bytes := []
  provs : List Prov := []
  cascade : Nat := 0
  deriving DecidableEq, Repr

/-! ### Chapter 08: streams and weirs -/

/-- The shares of one weir class (Table 8.4). -/
structure WClass where
  share : Nat := 32
  cache : Nat := 32
  queue : Nat := 32
  deriving DecidableEq, Repr

/-- A guarantee of one LD on one resource with its token bucket (R219, R220). Tokens are in units × ns. -/
structure Guar where
  resv : Nat := 0
  eff : Nat := 0
  cls : Nat := 0
  lat : Nat := 0
  valid : Bool := false
  tokens : Int := 0
  filled : Nat := 0
  deriving DecidableEq, Repr

/-- A maximum latency with where it occurred (R225). -/
structure LatMax where
  ns : Nat := 0
  ld : Nat := 31
  time : Nat := 0
  turn : Nat := 0
  layer : Nat := 0
  wheel : Nat := 0
  nopos : Bool := true
  deriving DecidableEq, Repr

structure MissRegs where
  misses : Nat := 0
  rmask : Nat := 0
  seen : Bool := false
  last : Nat := 0
  deriving DecidableEq, Repr

/-- `cscale` is in units scaled by `capScale`; `rise` is since when a higher capacity has lasted. `deepest` is WR_SHORTFALL.DEEPEST of
a resource, and `served` what a class has been served on a resource, by 8 × class + resource: the 10 µs period, and the amount in
it (Table 8.4). `lastLd` is the LD that a class was last served for on a resource (R217). -/
structure WeirSt where
  classes : Tbl WClass := { dflt := {} }
  guars : Tbl Guar := { dflt := {} }
  cscale : Tbl (Option Nat) := { dflt := none }
  rise : Tbl (Option (Nat × Nat)) := { dflt := none }
  miss : Tbl MissRegs := { dflt := {} }
  latRun : Tbl LatMax := { dflt := {} }
  latLast : Tbl LatMax := { dflt := {} }
  mode : Nat := 0
  wheel : Nat := 0
  span : Nat := 1000
  windowStart : Nat := 0
  streams : Tbl StreamMeta := { dflt := {} }
  streamMiss : Nat := 0
  deepest : Tbl Nat := { dflt := 0 }
  served : Tbl (Nat × Nat) := { dflt := (0, 0) }
  lastLd : Tbl Nat := { dflt := 15 }
  deriving DecidableEq, Repr

/-! ### Chapter 06: the stone fabric -/

/-- The states of Table 6.14. -/
inductive StoneState where
  | online
  | clearing
  | draining
  | test
  | offline
  | failed
  deriving DecidableEq, Repr

/-- A piece: the gate buffer of its operation, its index, its run (0 first, 1 replay, 2 third run), and what R155 and
R156 place and order it by; `input` is its first input sack, with the extent it was named in. `notDies` and `notStones` are what a replay must avoid (R288). `saved` says that it
resumes from a checkpoint (R158), `inG` that it was in guarantee at the FABRIC weir when it was accepted (R220), `sram` that it runs again after an uncorrectable word of a stone's SRAM (R275). -/
structure Piece where
  buf : Nat
  idx : Nat
  run : Nat := 0
  ld : Nat
  handle : Nat
  cls : Nat
  wclass : Nat
  order : Nat
  ahead : Bool := false
  saved : Bool := false
  input : Option (Nat × Nat) := none
  notDies : List Nat := []
  notStones : List Nat := []
  poison : Bool := false
  iso : Bool := false
  sram : Bool := false
  inG : Bool := false
  deriving DecidableEq, Repr

/-- A hopper slot (R142): the line of its request, its status of Table 6.5, the generation and the table set of its extent, and what
it holds: the line's indices as packed, its 64 source bytes, or nothing. -/
structure HopLine where
  line : Nat
  status : Nat
  gen : Nat := 0
  tset : Nat := 0
  data : Bytes := []
  deriving DecidableEq, Repr

/-- What a result checker holds of the pieces that run on its die: copies of the lines delivered to them, by slot buffer and piece, and the
accumulator contents read out (R284). -/
structure Checker where
  lines : List (Nat × Nat × HopLine) := []
  accs : List (BitVec 643) := []
  deriving DecidableEq, Repr

/-- An outstanding split-phase read and the lines delivered. -/
structure ReadTag where
  tag : Nat
  dpa : Nat
  count : Nat
  lines : List HopLine
  deriving DecidableEq, Repr

/-- One stone. `broken` says that it is FAILED, also while it is cleared and tested for its return (R411). `clean` says that nothing has
run since it was last cleared. `party` and `handle` are those of its last piece, `loaded` is the dressing in its code window. `contents`
stands for what its data banks and vector registers hold: none when every one is zero (R160), else the number of a free value that
the last piece left (no instruction outside the piece and no command reads it, R129); `accs`, `buckets` and `scratch` are its exact
accumulators, its bucket file and its scratch allotment. `started`, `lastCkpt`, `clearAt` and `cleared` are counts of tenths of stone
cycles; `stall` are those spent waiting for a take since the last checkpoint, `taking` the tag and the count at which the wait began
(R157). `loading` are the cycles of the code load that the running piece began with (R156), `took` are the slots that the last take
returned and `inputs` the data of every line the piece took (R145). -/
structure Stone where
  state : StoneState := .online
  queue : List Piece := []
  running : Option Piece := none
  started : Nat := 0
  lastCkpt : Nat := 0
  loading : Nat := 0
  stall : Nat := 0
  taking : Option (Nat × Nat) := none
  party : Option Nat := none
  handle : Option Nat := none
  loaded : Option Nat := none
  clean : Bool := false
  contents : Option Nat := none
  accs : List (BitVec 643) := []
  buckets : List (BitVec 640) := []
  scratch : Option Nat := none
  clearAt : Nat := 0
  cleared : Nat := 0
  toOffline : Bool := false
  preempt : Bool := false
  slices : List Nat := []
  broken : Bool := false
  tags : List ReadTag := []
  took : List HopLine := []
  inputs : List Bytes := []
  deriving DecidableEq, Repr

/-- An entry of a die's checkpoint area (R128, R158): whose state it is, its size in KiB, and the number of a free value that stands for
the state saved. -/
structure Ckpt where
  die : Nat
  buf : Nat
  idx : Nat
  run : Nat
  kib : Nat
  token : Nat
  deriving DecidableEq, Repr

/-- A resident tenant dressing (R150): its party and container, and whether its handle still accepts operations. -/
structure Dressing where
  party : Nat
  container : Bytes
  stopped : Bool := false
  disabled : Bool := false
  deriving DecidableEq, Repr

/-- A dressing key of a party (R149). -/
structure DressKey where
  party : Nat
  keyId : Bytes
  deriving DecidableEq, Repr

structure StnLd where
  reason : Nat := 0
  refused : Nat := 0
  cycles : Nat := 0
  preempt : Nat := 0
  fault : Nat := 0
  poisoned : Nat := 0
  deriving DecidableEq, Repr

/-- STN_WDOG. -/
structure Wdog where
  stone : Nat := 0
  handle : Nat := 0
  limit : Bool := false
  valid : Bool := false
  count : Nat := 0
  deriving DecidableEq, Repr

/-- `builtinOff` are the built-in handles that three watchdog faults have disabled; `faults` the handle and time of
each watchdog fault (R157); `ckpts` are the entries of the dies' checkpoint areas (R128, R158), `checkers` the result checkers of the
dies (R284). -/
structure StoneSt where
  stones : Tbl Stone := { dflt := {} }
  waiting : List Piece := []
  nextOrder : Nat := 0
  lib : List (Nat × Dressing) := []
  builtinOff : List Nat := []
  faults : List (Nat × Nat) := []
  keys : List DressKey := []
  lds : Tbl StnLd := { dflt := {} }
  offDie : Nat := 0
  clears : Nat := 0
  wdog : Wdog := {}
  ckpts : List Ckpt := []
  checkers : Tbl Checker := { dflt := {} }
  deriving DecidableEq, Repr

/-! ### Chapter 07: gates and the granary -/

/-- The states of Table 7.2. -/
inductive SlotState where
  | unarmed
  | idle
  | queued
  | running
  | checking
  | ready
  | failed
  | cancelled
  deriving DecidableEq, Repr

/-- What one run of a piece produced: output words by its class, and what it met (`prov` the provisional entries read,
R294). `pairsOk` says that the check pairs it wrote compare well (Table 12.1). -/
structure PieceOut where
  words : List Nat := []
  poison : Bool := false
  iso : Bool := false
  prec : Bool := false
  bad : Option Nat := none
  abort : Nat := 0
  count : Nat := 0
  prov : List (Nat × Nat) := []
  pairsOk : Bool := true
  deriving DecidableEq, Repr

/-- How far a piece of an operation has come. -/
inductive PieceStage where
  | first
  | ended
  | replaying
  | third
  | resolved
  | failed
  deriving DecidableEq, Repr

/-- A piece of an operation as the result checker sees it: its output, the stones of its runs in order, and whether
its first check failed. -/
structure PieceRec where
  idx : Nat
  stage : PieceStage := .first
  out : PieceOut := {}
  out2 : PieceOut := {}
  stones : List Nat := []
  checkers : List Nat := []
  digest : Nat := 0
  digest2 : Nat := 0
  checkFailed : Bool := false
  sampled : Bool := false
  deriving DecidableEq, Repr

/-- The operation of a slot between acceptance and its end. `params` are the parameter lines copied (R171), `hub` the
blocks that hub work has still to write, `bin` the bin being published, `inputs` the provisional entries read (R294). -/
structure GateOp where
  opcode : Nat
  cls : Nat
  handle : Nat
  obj : Nat
  wclass : Nat
  params : Bytes
  accepted : Nat
  order : Nat
  wheel : Option Nat
  early : Bool
  aux : Nat := 0
  begun : Bool := false
  pieces : List PieceRec := []
  hub : List Nat := []
  bin : Option Nat := none
  inputs : List (Nat × Nat) := []
  retracted : Bool := false
  fwdid : Option Nat := none
  deriving DecidableEq, Repr

/-- A slot buffer of the gate buffer: its binding, its lines and its status (Tables 7.1 and 7.4). `bad` are the RESULT lines
that hold an uncorrectable word (R276). -/
structure Slot where
  state : SlotState := .unarmed
  eid : Nat := 0
  dpa : Nat := 0
  hold : Nat := 4000
  go : Bytes := []
  error : Nat := 0
  seq : Nat := 0
  opcode : Nat := 0
  rlines : Nat := 0
  layer : Nat := 0
  turn : Nat := 0
  wheel : Nat := 0
  posok : Bool := false
  latency : Nat := 0
  pieces : Nat := 0
  replayed : Bool := false
  prec : Bool := false
  trunc : Bool := false
  miss : Bool := false
  holdexp : Bool := false
  exists_ : Bool := false
  aux : Nat := 0
  time : Nat := 0
  result : Bytes := []
  bad : List Nat := []
  op : Option GateOp := none
  deriving DecidableEq, Repr

/-- A deferred result read (R176). -/
structure ResRead where
  rid : Nat
  ld : Nat
  buf : Nat
  line : Nat
  tag : Nat
  start : Nat
  deriving DecidableEq, Repr

/-- An open sequence (R183). `binGone` says that the bin of its prefix has ended (R202). -/
structure KvSeq where
  ld : Nat
  id : Nat
  eid : Nat
  sbase : Nat
  layers : Nat
  hkv : Nat
  g : Nat
  d : Nat
  maxpos : Nat
  len : Nat := 0
  plen : Nat := 0
  bin : Option Nat := none
  binGone : Bool := false
  dead : Bool := false
  deriving DecidableEq, Repr

/-- A vector search index (R192). -/
structure VecIndex where
  ld : Nat
  id : Nat
  vbase : Nat
  abase : Nat
  nv : Nat
  entry : Nat
  dim : Nat
  vfmt : Nat
  deg : Nat
  metric : Nat
  deriving DecidableEq, Repr

/-- A granary bin (Table 7.10). `owner` is the LD of its granary extent and `pub` its OWNERLD, the LD that published it. `hidden` says that it was deleted while attached (R202); `committed` that it is in
the directory; `near` its NEAR attribute. -/
structure Bin where
  id : Nat
  key : Bytes
  sig : Nat
  plen : Nat
  geom : Nat
  base : Nat
  eid : Nat
  owner : Nat
  pub : Nat
  attach : Nat := 0
  pin : Bool := false
  near : Nat := 0
  last : Nat := 0
  bytes : Nat := 0
  hidden : Bool := false
  committed : Bool := false
  deriving DecidableEq, Repr

structure GateLd where
  accepted : Nat := 0
  failed : Nat := 0
  badgo : Nat := 0
  busygo : Nat := 0
  unarmed : Nat := 0
  reswr : Nat := 0
  held : Nat := 0
  expired : Nat := 0
  full : Nat := 0
  hits : Nat := 0
  misses : Nat := 0
  evicted : Nat := 0
  gfull : Nat := 0
  deriving DecidableEq, Repr

/-- `lines` are the PARAM lines of a buffer, by 1,024 × buffer + line: none is a poisoned line (R346). -/
structure GateSt where
  slots : Tbl Slot := { dflt := {} }
  lines : Tbl (Option Bytes) := { dflt := some [] }
  reads : List ResRead := []
  nextRead : Nat := 0
  nextOp : Nat := 0
  seqs : List KvSeq := []
  indexes : List VecIndex := []
  granary : List Nat := []
  bins : List Bin := []
  lds : Tbl GateLd := { dflt := {} }
  evicted : Nat := 0
  deriving DecidableEq, Repr

/-! ### Chapter 13: light ports and peer links -/

/-- A lane: error counts and its laser bank (R319). `aged` are the wavelengths whose ageing event was raised. -/
structure Lane where
  corr : Nat := 0
  uncorr : Nat := 0
  failed : Bool := false
  laser : Bool := false
  bias : List Nat := [100, 100, 100, 100]
  aged : List Nat := []
  margin : Nat := 0
  launchUp : Nat := 0
  deriving DecidableEq, Repr

/-- The training states of Table 13.3. -/
inductive Training where
  | dark
  | detect
  | light
  | equalise
  | lock
  | config
  | active
  | reconfig
  deriving DecidableEq, Repr

/-- The power states of Table 13.4. -/
inductive LinkPower where
  | active
  | partial_
  | standby
  | dark
  deriving DecidableEq, Repr

structure Port where
  state : Training := .dark
  power : LinkPower := .dark
  since : Nat := 0
  group : List Nat := []
  lastWidth : Nat := 0
  partner : Nat := 0
  partnerNode : Nat := 0
  ownNode : Nat := 0
  mismatch : Bool := false
  retrain : Nat := 0
  narrow : Nat := 0
  enabled : Bool := true
  standby : Nat := 0
  grace : Nat := 100
  lastUse : Nat := 0
  deriving DecidableEq, Repr

/-- A peer window descriptor (Table 13.7). -/
structure WinDesc where
  dir : Nat := 0
  ld : Nat := 0
  node : Nat := 0
  enable : Bool := false
  base : Nat := 0
  len : Nat := 0
  deriving DecidableEq, Repr

/-- A window: active and shadow copies, GEN, and the previous copy while its grace lasts (R324). -/
structure Window where
  act : WinDesc := {}
  shadow : WinDesc := {}
  gen : Nat := 0
  prev : Option WinDesc := none
  graceEnd : Nat := 0
  deriving DecidableEq, Repr

/-- A binding of a slot to an outbound window (R328). -/
structure Bind where
  buf : Nat
  port : Nat
  window : Nat
  offset : Nat
  deriving DecidableEq, Repr

/-- An outbound packet that awaits its PACK (R323, R326). `hold` says that it waits for the sender's next commit, and
`again` that it was answered PENDING and is sent again every 1 µs. `out` says that it has been transmitted (R323), `dest` to
which receiver DPA. -/
structure Packet where
  port : Nat
  tag : Nat
  window : Nat
  gen : Nat
  off : Nat
  data : Bytes
  fwdid : Nat
  last : Bool
  early : Bool
  digest : Bool := false
  first : Nat
  sentAt : Nat := 0
  hold : Bool := false
  again : Bool := false
  out : Bool := true
  ok : Bool := false
  dest : Nat := 0
  deriving DecidableEq, Repr

/-- A forward of a slot's result (R291, R292): what its settling message names, and how far it has come. `unsent` is a
settling message (KIND, CAUSE) that waits for the last packet to be sent (R323). -/
structure Fwd where
  fwdid : Nat
  ld : Nat
  buf : Nat
  port : Nat
  window : Nat
  offset : Nat
  early : Bool
  data : Bytes
  wheel : Nat
  nowheel : Bool
  layer : Nat
  turn : Nat
  seq : Nat
  opcode : Nat
  dest : Nat := 0
  started : Nat
  extended : Nat
  left : Nat
  settled : Bool := false
  resend : Bool := false
  failed : Bool := false
  unsent : Option (Nat × Nat) := none
  deriving DecidableEq, Repr

structure FwdLd where
  sent : Nat := 0
  failed : Nat := 0
  stale : Nat := 0
  deriving DecidableEq, Repr

structure PortSt where
  ports : Tbl Port := { dflt := {} }
  lanes : Tbl Lane := { dflt := {} }
  node : Nat := 0
  windows : Tbl Window := { dflt := {} }
  binds : List Bind := []
  packets : List Packet := []
  nextTag : Nat := 0
  fwds : List Fwd := []
  nextFwd : Nat := 1
  lds : Tbl FwdLd := { dflt := {} }
  badmsg : Nat := 0
  stale : Nat := 0
  pending : Nat := 0
  prevgen : Nat := 0
  deriving DecidableEq, Repr

/-! ### Chapter 14: the CXL endpoint -/

/-- An HDM decoder (R336). -/
structure Hdm where
  base : Nat := 0
  size : Nat := 0
  ways : Nat := 1
  gran : Nat := 256
  target : Nat := 0
  skip : Nat := 0
  bi : Bool := false
  committed : Bool := false
  error : Bool := false
  deriving DecidableEq, Repr

/-- The state of one line in a snoop filter entry: the LDs that hold it in S, or the one that holds it in E. -/
structure LineHold where
  shared : List Nat := []
  excl : Option Nat := none
  deriving DecidableEq, Repr

/-- A snoop filter entry of one owner block (R340). -/
structure SnoopEnt where
  blk : Nat
  lines : Tbl LineHold := { dflt := {} }
  lastUse : Nat := 0
  deriving DecidableEq, Repr

/-- A BISnp without its BIRsp (R341, R343): the LD snooped, its block and line, and its kind (0 Inv, 1 Data, 2 Cur). -/
structure Snp where
  ld : Nat
  blk : Nat
  line : Nat
  kind : Nat
  start : Nat
  deriving DecidableEq, Repr

/-- An HDM-DB request held for snoops (R341). `evicted` is the filter entry whose snoops it also waits for (R342). -/
structure HeldBi where
  ld : Nat
  eid : Nat
  evicted : Option Nat := none
  dpa : Nat
  blk : Nat
  line : Nat
  tag : Nat
  write : Bool
  mv : MetaVal
  data : Bytes
  enables : BitVec 64
  poison : Bool
  upset : Nat
  muted : Bool := false
  deriving DecidableEq, Repr

/-- A device read of host memory (R349): its tag, the mailbox that needs it, and when it was issued. -/
structure Dma where
  ld : Nat
  tag : Nat
  start : Nat
  drop : Bool := false
  deriving DecidableEq, Repr

/-- AER and CXL RAS state of one LD (Table 14.6). `aerFirst` is the First Error Pointer, `rasFirst` the error that holds the RAS log: its bit,
plus 32 for a correctable one. -/
structure ErrRegs where
  aerUnc : Nat := 0
  aerUncMask : Nat := 0x400000
  aerUncSev : Nat := 0x460010
  aerCor : Nat := 0
  aerCorMask : Nat := 0xC000
  aerHeader : Bytes := []
  aerFirst : Nat := 0
  aerHeld : Bool := false
  rasUnc : Nat := 0
  rasUncMask : Nat := 0
  rasUncSev : Nat := 0x1CA80
  rasCor : Nat := 0
  rasCorMask : Nat := 0
  rasHeader : Bytes := []
  rasHeld : Bool := false
  rasFirst : Nat := 0
  deriving DecidableEq, Repr

/-- The registers of a function that software places: its BARs, the Message Control word of the MSI-X capability, Range 1 Base of the CXL
Device DVSEC (Table 14.3), and the words of its
MSI-X table, Vector Control with its mask bit inverted (R333, R334). -/
structure BarRegs where
  bar0 : Nat := 0
  bar2 : Nat := 0
  control : Nat := 0
  range1 : Nat := 0
  table : Tbl Nat := { dflt := 0 }
  deriving DecidableEq, Repr

/-- Endpoint state of one LD. `cto` is the Completion Timeout Value of its PCI Express capability (R333). -/
structure CxeLd where
  nodec : Nat := 0
  snoops : Nat := 0
  biTimeout : Nat := 0
  lostBlk : Nat := 0
  dmaTimeout : Nat := 0
  dmaDiscard : Nat := 0
  dmaLate : Nat := 0
  lastReset : Nat := 0
  flrs : Nat := 0
  hots : Nat := 0
  cxls : Nat := 0
  errs : ErrRegs := {}
  d3 : Bool := false
  biEnable : Bool := false
  flrUntil : Nat := 0
  cto : Nat := 0
  bars : BarRegs := {}
  deriving DecidableEq, Repr

/-- Link IDE of a port: 0 off, 1 keys programmed, 2 secure, 3 insecure since the last failure; `keys` are the keys in use, one for each
direction of the CXL.io stream and of CXL.cachemem IDE, `fresh` those programmed and not yet active (R352). -/
structure CxePort where
  badLdid : Nat := 0
  ideFail : Nat := 0
  ide : Nat := 0
  keys : List (BitVec 256) := []
  fresh : List (BitVec 256) := []
  deriving DecidableEq, Repr

/-- An SPDM session (R384). -/
structure Session where
  ld : Nat
  id : Nat
  key : BitVec 256
  deriving DecidableEq, Repr

structure CxeSt where
  tsZero : Nat := 0
  tsOff : Tbl Int := { dflt := 0 }
  bme : Tbl Bool := { dflt := false }
  msix : Tbl Nat := { dflt := 0 }
  hdm : Tbl Hdm := { dflt := {} }
  lds : Tbl CxeLd := { dflt := {} }
  ports : Tbl CxePort := { dflt := {} }
  snoop : List SnoopEnt := []
  evict : Nat := 0
  snps : List Snp := []
  heldBi : List HeldBi := []
  dmas : List Dma := []
  cdatSeq : Tbl Nat := { dflt := 0 }
  sessions : List Session := []
  qos : List Nat := []
  deriving DecidableEq, Repr

/-! ### Chapter 16: boot, security, debug -/

/-- A firmware slot: the image it holds. An empty slot holds no bytes. -/
structure FwSlot where
  image : Bytes := []
  factory : Bool := false
  fwver : Nat := 0
  svn : Nat := 0
  good : Bool := false
  deriving DecidableEq, Repr

/-- The debug nonce (R386). -/
structure Nonce where
  value : BitVec 256
  since : Nat
  deriving DecidableEq, Repr

/-- Boot records, key store and debug state. Slots: 0 A, 1 B. `bootAt` is when the miller last restarted and
`mountedAt` when the mount of the running image ended (R375); `debugKeys` the LD keys made while debug was open;
`openSeq` says that Table 16.10 runs, up to the commit of its record, `openReq` its SCOPE, and `heldReqs` are the CXL.mem
requests that wait for its end: LD, DPA, tag, write. `wiped` says that the key store was erased and the record not yet
committed when power went (R389). `stageSerial` is the serial of the request that STAGE speaks of. -/
structure BootSt where
  slotA : FwSlot := {}
  slotB : FwSlot := {}
  active : Nat := 0
  trialSet : Option Nat := none
  running : Nat := 0
  trial : Bool := false
  fusemin : Nat := 0
  fallback : Bool := false
  recovery : Bool := false
  cause : Nat := 0
  restarts : Nat := 0
  bootMs : Nat := 0
  bootAt : Nat := 0
  mountedAt : Nat := 0
  serviced : Nat := 0
  stagedReq : Option Bytes := none
  stageState : Nat := 0
  stageSerial : Nat := 0
  reason : Nat := 0
  authKey : Option Bytes := none
  fmport : Nat := 0
  serial : Nat := 0
  nonce : Option Nonce := none
  debugOpen : Bool := false
  scope : Nat := 0
  refused : Nat := 0
  openSeq : Nat := 0
  openReq : Nat := 0
  heldReqs : List (Nat × Nat × Nat × Bool) := []
  debugKeys : List Nat := []
  moduleKey : Option (BitVec 512) := none
  storeKey : Option (BitVec 256) := none
  wiped : Bool := false
  deriving DecidableEq, Repr

/-! ### Chapter 17: clocks, resets, health, power -/

/-- A crystal's state. -/
inductive Crystal where
  | stopped
  | starting
  | qualified
  | failed
  deriving DecidableEq, Repr

/-- The clocks, the reset inputs and the stone clock. `lossAt` are the lock losses of stone dies (die, time), `stopped` the
domains of stone dies without lock (domain, die), `inBrake` says that the module braked and has not left the brake, `lostCore` that a core PLL did it, `fastDead` that only the
removal of VAUX33 ends the brake, `lostSource` is the crystal that a CLOCK_FALLBACK still to be posted names. `asked` are the
blocks asked to close (kind, unit, when) and `gated` those gated. `step` is the stone clock as a CSTEP code, `target` the step of
a change in progress, complete at `changeAt`, and `next` the latest step asked for meanwhile.
`cycBase` are the tenths of stone cycles counted when the step took its value, at `cycAt` (R132). -/
structure ClockSt where
  cycBase : Nat := 0
  cycAt : Nat := 0
  xdly : Nat := 0
  xa : Crystal := .stopped
  xb : Crystal := .stopped
  xaStart : Nat := 0
  xbStart : Nat := 0
  source : Nat := 0
  brakes : Nat := 0
  lockLoss : Nat := 0
  lossAt : List (Nat × Nat) := []
  lostCore : Bool := false
  inBrake : Bool := false
  stopped : List (Nat × Nat) := []
  fastDead : Bool := false
  lostSource : Option Nat := none
  vaux : Bool := false
  pwrgd : Bool := false
  perst : Bool := true
  vin48 : Bool := true
  rails : Bool := false
  p : Nat := 0
  fault : Bool := true
  thermtrip : Bool := false
  rstCause : Nat := 0
  perstCount : Nat := 0
  trips : Nat := 0
  poweredSince : Nat := 0
  poweredTotal : Nat := 0
  gateMiss : Nat := 0
  asked : List (Nat × Nat × Nat) := []
  gated : List (Nat × Nat) := []
  step : Nat := 0
  target : Option Nat := none
  next : Option Nat := none
  changeAt : Nat := 0
  changes : Nat := 0
  deriving DecidableEq, Repr

/-- A slice on a unit (R405, R406): when it last completed, when it became due, and its mark. -/
structure SliceRec where
  lastDone : Nat := 0
  due : Option Nat := none
  marked : Bool := false
  running : Bool := false
  startAt : Nat := 0
  requested : Bool := false
  deriving DecidableEq, Repr

/-- One thermal step taken (R416): the part and unit that was hot, and what it lowered: 1 stone clock, 2 near-tier
point, 3 deep programming, 4 deep reads. -/
structure ThermStep where
  part : Part17
  unit : Nat
  kind : Nat
  deriving DecidableEq, Repr

/-- A sensor: its reading in whole °C, when it last was at or above its retreat threshold, and when a step of its part was last
undone (R416). -/
structure Sensor where
  temp : Int := 40
  lastHot : Nat := 0
  lastUndo : Nat := 0
  deriving DecidableEq, Repr

structure HealthSt where
  slices : Tbl SliceRec := { dflt := {} }
  intervals : List Nat := [240, 240, 60, 240, 60, 480, 480]
  deferral : Nat := 30
  passed : Nat := 0
  failed : Nat := 0
  margin : Nat := 0
  preempt : Nat := 0
  sensors : Tbl Sensor := { dflt := {} }
  steps : List ThermStep := []
  lastTherm : Nat := 0
  stepCount : Nat := 0
  volts : Tbl Nat := { dflt := 700 }
  hubVolt : Nat := 700
  hubcap : Bool := false
  ceil : Nat := 0
  blower : Bool := false
  raises : Nat := 0
  plans : Nat := 0
  planAt : Nat := 0
  slack : List Nat := []
  hubSlack : List Nat := []
  sampleAt : Nat := 0
  hops : List Nat := []
  engines : List Nat := []
  deadDies : List Nat := []
  deriving DecidableEq, Repr

/-- The governor (R18, R19, R418): `taken` are the kinds of its steps in force, newest first. -/
structure PowerSt where
  limit : Nat := 850
  avg : Nat := 0
  taken : List Nat := []
  lastStep : Nat := 0
  lastUndo : Nat := 0
  steps : Nat := 0
  deriving DecidableEq, Repr

/-- What the module as a whole is doing (Table 17.4, R396, R376, Table 1.8). -/
inductive Phase where
  | off
  | osc
  | qualifying
  | braked
  | waitingP
  | inReset
  | starting
  | booting
  | running
  | recovery
  | flushing
  | tripped
  | hubFailed
  deriving DecidableEq, Repr

/-- The whole machine. `now` is the module's wall time in ns, `freeCtr` the number of free values drawn (the
model's own field), `sent` what the module has sent, newest first, and `pending` the queue of waiting commands. -/
structure State where
  now : Nat := 0
  phase : Phase := .off
  millerReady : Bool := false
  freeCtr : Nat := 0
  ext : ExtSt := {}
  store : StoreSt := {}
  sweep : SweepSt := {}
  weir : WeirSt := {}
  near : NearSt := {}
  deep : DeepSt := {}
  integ : IntegSt := {}
  mbox : MboxSt := {}
  result : ResultSt := {}
  stone : StoneSt := {}
  gate : GateSt := {}
  port : PortSt := {}
  cxe : CxeSt := {}
  boot : BootSt := {}
  clock : ClockSt := {}
  health : HealthSt := {}
  power : PowerSt := {}
  sent : List Out := []
  pending : List Instr := []
  deriving DecidableEq, Repr

/-- Why a step stops with a fault. No command of the LM9 does: every row of the table has an effect in every
state, so the type has no constructor (safe: nothing stops). -/
inductive Fault where
  deriving DecidableEq, Repr

/-- Why a command is refused. -/
inductive Refusal where
  /-- Raised by a dispatch arm that has no meaning yet (safe: the machine stops by name). -/
  | notModelled (mnemonic : String)
  deriving DecidableEq, Repr

/-- The image of the factory, in both firmware slots (R431). -/
def factorySlot : FwSlot := { factory := true, fwver := Config.factoryFwver, svn := Config.factorySvn, good := true }

/-- The module as it leaves the factory and before power is applied (R5, R431): the registers at their reset
values, the same image in both slots and FUSEMIN at its SVN, no partition map, every LD disabled, one FIRMWARE record in
the ledger, B at 1.0 GB/s, the credit at 4 TiB and the hold-up bank discharged. DESIGN CHOICE, log entries 2, 3. -/
def State.reset : State :=
  { boot := { slotA := factorySlot, slotB := factorySlot, fusemin := Config.factorySvn, serial := Config.serial },
    result := { ledger := [{ kind := 15, detail := Config.factoryFwver }] } }

end Sys2Proof.Machine
end

