-- ==== Sys2Proof/Machine/Flags.lean ====
section
/-! DEFINITION. Counter, flag and check computations: saturating counters, RW1C clearing, and the SECDED code. -/
namespace Sys2Proof.Machine

/-- A counter of `w` bits after `k` more counts: it saturates (R8). -/
def bump (w n k : Nat) : Nat := min (n + k) (2 ^ w - 1)

/-- An RW1C field after a write of `v`: every 1 clears its bit (R4). -/
def rw1c (w cur v : Nat) : Nat := (BitVec.ofNat w cur &&& ~~~ BitVec.ofNat w v).toNat

/-- Bits [hi:lo] of a number. -/
def bitsOf (v hi lo : Nat) : Nat := (v >>> lo) % 2 ^ (hi + 1 - lo)

/-- Bit `i` of a number. -/
def bitOf (v i : Nat) : Bool := v.testBit i

def b2n (b : Bool) : Nat := if b then 1 else 0

/-- Number of ones in the low `w` bits. -/
def popc : Nat → Nat → Nat
  | 0, _ => 0
  | w + 1, v => v % 2 + popc w (v / 2)

/-- The columns of the data bits (Table 11.1). -/
def hColumns : List Nat :=
  [0x07, 0x0B, 0x0D, 0x0E, 0x13, 0x15, 0x16, 0x19, 0x1A, 0x1C, 0x23, 0x25, 0x26, 0x29, 0x2A, 0x2C] ++
  [0x31, 0x32, 0x34, 0x38, 0x43, 0x45, 0x46, 0x49, 0x4A, 0x4C, 0x51, 0x52, 0x54, 0x58, 0x61, 0x62] ++
  [0x64, 0x68, 0x70, 0x83, 0x85, 0x86, 0x89, 0x8A, 0x8C, 0x91, 0x92, 0x94, 0x98, 0xA1, 0xA2, 0xA4] ++
  [0xA8, 0xB0, 0xC1, 0xC2, 0xC4, 0xC8, 0xD0, 0xE0, 0x1F, 0x2F, 0x37, 0x3B, 0x3D, 0x3E, 0x4F, 0x57]

/-- XOR of the columns whose bit of `v` is set. -/
def columnsXor : List Nat → Nat → Nat
  | [], _ => 0
  | c :: cs, v => Nat.xor (if v % 2 = 1 then c else 0) (columnsXor cs (v / 2))

/-- The check byte of a 64-bit word (R266). -/
def checkByte (v : Nat) : Nat := columnsXor hColumns v

/-- The syndrome of a 72-bit error pattern: the code is linear, so the data itself does not matter (R266). -/
def syndromeOf (pattern : Nat) : Nat := Nat.xor (pattern / 2 ^ 64 % 256) (checkByte (pattern % 2 ^ 64))

/-- The outcomes of Table 11.2. -/
inductive Ecc where
  | good
  | corrected (bit : Nat)
  | uncorrectable
  deriving DecidableEq, Repr

/-- The decoder's outcome for a syndrome (Table 11.2). -/
def eccOutcome (syn : Nat) : Ecc :=
  if syn = 0 then .good
  else if popc 8 syn = 1 then .corrected (64 + syn.log2)
  else
    match hColumns.findIdx? (· == syn) with
    | some i => .corrected i
    | none => .uncorrectable

/-- A 64-bit codeword's data after decoding with an error pattern: what a reader receives. -/
def eccData (v pattern : Nat) : Option Nat :=
  match eccOutcome (syndromeOf pattern) with
  | .good => some (Nat.xor v (pattern % 2 ^ 64))
  | .corrected b => some (Nat.xor (Nat.xor v (pattern % 2 ^ 64)) (if b < 64 then 2 ^ b else 0))
  | .uncorrectable => none

/-- One byte step of CRC-32 over the reflected polynomial 0xEDB88320 (IEEE 802.3, Table 3.6). -/
def crcBits : Nat → Nat → Nat
  | 0, c => c
  | k + 1, c => crcBits k (if c % 2 = 1 then Nat.xor (c / 2) 0xEDB88320 else c / 2)

/-- One byte step of CRC-64 over the ECMA-182 polynomial, highest bit first (R287). -/
def crc64Bits : Nat → Nat → Nat
  | 0, c => c
  | k + 1, c => crc64Bits k (if 2 ^ 63 ≤ c then Nat.xor (2 * c % 2 ^ 64) 0x42F0E1EBA9EA3693 else 2 * c)

/-- CRC-64 of a run of bytes. -/
def crc64 (bs : Bytes) : Nat := bs.foldl (fun c b => crc64Bits 8 (Nat.xor c (b.toNat * 2 ^ 56))) 0

/-- CRC-32 of a run of bytes. -/
def crc32 (bs : Bytes) : Nat :=
  Nat.xor (bs.foldl (fun c b => crcBits 8 (Nat.xor c b.toNat)) 0xFFFFFFFF) 0xFFFFFFFF

end Sys2Proof.Machine
end

