-- ==== Sys2Proof/Machine/Operands.lean ====
section
/-! DEFINITION. Every operand form: byte order, payload fields, region profile words, DPA splitting, beacon words,
schedule entries, sack map entries and side records as the spec lays them out. -/
namespace Sys2Proof.Machine

/-! ### Bytes (R2) -/

/-- The number in bytes `off` to `off + size - 1`, little-endian; bytes beyond the end read as zero. -/
def leNat : Bytes → Nat
  | [] => 0
  | b :: bs => b.toNat + 256 * leNat bs

def leAt (bs : Bytes) (off size : Nat) : Nat := leNat ((bs.drop off).take size)

/-- The `n` low bytes of a number, byte 0 first. -/
def leBytes : Nat → Nat → Bytes
  | 0, _ => []
  | n + 1, v => BitVec.ofNat 8 v :: leBytes n (v / 256)

/-- Cut or pad with zero bytes to `n` bytes. -/
def fit (n : Nat) (bs : Bytes) : Bytes := bs.take n ++ List.replicate (n - bs.length) 0

/-- Overwrite bytes from `off`. -/
def patch (bs : Bytes) (off : Nat) (new : Bytes) : Bytes := bs.take off ++ new ++ bs.drop (off + new.length)

/-- Take `new` where the mask bit is 1 and `old` elsewhere, from bit `i`. -/
def maskBytes {w : Nat} (m : BitVec w) : Nat → Bytes → Bytes → Bytes
  | _, [], _ => []
  | i, o :: os, ns => (if m.getLsbD i then ns.headD 0 else o) :: maskBytes m (i + 1) os (ns.drop 1)

/-- A run of bytes from a list of fields, zero elsewhere. -/
def layout (n : Nat) (fs : List Fld) : Bytes :=
  fs.foldl (fun bs f => patch bs f.off (leBytes f.size f.val)) (List.replicate n 0)

/-- The words of `n` bytes each. -/
def wordsOf (n : Nat) : Nat → Bytes → List Nat
  | 0, _ => []
  | k + 1, bs => leNat (bs.take n) :: wordsOf n k (bs.drop n)

def zeros (n : Nat) : Bytes := List.replicate n 0

/-! ### Capacity units -/

def MiB : Nat := 1048576
def GiB : Nat := 1073741824
/-- The extent granule, 256 MiB. -/
def granule : Nat := 268435456
/-- Module-wide numbers of objects. -/
def numLd : Nat := 16
def fmSrc : Nat := 16
def stacksTotal : Nat := 12
def us : Nat := 1000
def ms : Nat := 1000000
def sec : Nat := 1000000000

/-! ### Region profile word (Table 2.2) -/

def Prof.cls (p : Word) : Nat := bitsOf p.toNat 1 0
def Prof.rate (p : Word) : Nat := bitsOf p.toNat 3 2
def Prof.src (p : Word) : Nat := bitsOf p.toNat 7 4
def Prof.slot (p : Word) : Nat := bitsOf p.toNat 9 8
def Prof.durable (p : Word) : Bool := p.getLsbD 10
def Prof.shared (p : Word) : Bool := p.getLsbD 11
def Prof.wclass (p : Word) : Nat := bitsOf p.toNat 14 12
def Prof.affinity (p : Word) : Nat := bitsOf p.toNat 18 16
def Prof.tset (p : Word) : Nat := bitsOf p.toNat 43 32
def Prof.bound (p : Word) : Nat := bitsOf p.toNat 59 44
def Prof.lossy (p : Word) : Bool := Prof.cls p == 1
def Prof.gate (p : Word) : Bool := Prof.cls p == 2

/-- Reserved bits of the profile word: [15], [31:19], [63:60]. -/
def Prof.reserved (p : Word) : Nat := bitsOf p.toNat 15 15 + bitsOf p.toNat 31 19 + bitsOf p.toNat 63 60

/-- Payload bytes of a block at a rate code: 256, 192, 128, 64. -/
def rateBytes (r : Nat) : Nat := match r with | 0 => 256 | 1 => 192 | 2 => 128 | _ => 64

/-- Slot bytes of a slot code: 128, 256, 384, 512. -/
def slotBytes (c : Nat) : Nat := 128 * (c + 1)

/-- Bytes of a block's payload or slot. -/
def Prof.unit (p : Word) : Nat := if Prof.lossy p then rateBytes (Prof.rate p) else slotBytes (Prof.slot p)

/-- The rates that Table 5.2 allows for a source format. -/
def rateAllowed (src rate : Nat) : Bool :=
  match src with
  | 0 | 1 => rate ≤ 3
  | 2 => rate == 2 || rate == 3
  | 3 | 4 | 5 => rate ≤ 2
  | 6 | 7 => rate == 0
  | _ => false

/-- Element width in bits and values per block (Table 5.2); MX sources count elements only. -/
def srcBits (src : Nat) : Nat := match src with | 0 | 1 => 16 | 2 => 32 | _ => 8
def srcCount (src : Nat) : Nat := match src with | 0 | 1 => 256 | 2 => 128 | 6 | 7 => 480 | _ => 512
/-- Index width: the element width divided by the rate's ratio. -/
def idxBits (src rate : Nat) : Nat :=
  match rate with
  | 0 => srcBits src / 2
  | 1 => srcBits src * 3 / 8
  | 2 => srcBits src / 4
  | _ => srcBits src / 8

/-- The components of a reservation of `len` bytes (Table 2.5): payload, side, spill, stage. -/
def reservation (p : Word) (len : Nat) (hasGen : Bool) : Nat × Nat × Nat × Nat :=
  if Prof.gate p then (0, 0, 0, 0)
  else if Prof.lossy p then
    (len / 512 * rateBytes (Prof.rate p), len / 64, len / 32, if hasGen then 0 else min len (64 * MiB))
  else (len / 512 * slotBytes (Prof.slot p), len / 64, len / 512 * (512 - slotBytes (Prof.slot p)), 0)

/-- SIZE of a sack map entry in 8 KiB units, minus one (Table 2.6). -/
def Prof.sizeCode (p : Word) : Nat := Prof.unit p * 128 / 8192 - 1

/-- The SIZE encodings of Table 2.6. -/
def sizeLegal (c : Nat) : Bool := c == 0 || c == 1 || c == 2 || c == 3 || c == 5 || c == 7

/-! ### Beacon word (WHL_BEACON) -/

def Beacon.layer (v : Word) : Nat := bitsOf v.toNat 9 0
def Beacon.resv (v : Word) : Nat := bitsOf v.toNat 15 10
def Beacon.turn (v : Word) : Nat := bitsOf v.toNat 63 16

/-! ### Schedule entries (Table 3.4) -/

/-- The 16-byte record as a number. -/
def entryNat (e : SEntry) : Nat :=
  e.layer + e.lead * 2 ^ 10 + e.action * 2 ^ 16 + e.die * 2 ^ 19 + b2n e.anydie * 2 ^ 21
    + e.sack * 2 ^ 64 + (e.count - 1) * 2 ^ 96

/-- The entry of a record, or none where it breaks Table 3.4. -/
def entryOf (v n dpaSize : Nat) : Option SEntry :=
  let e : SEntry := { layer := bitsOf v 9 0, lead := bitsOf v 14 10, action := bitsOf v 18 16, die := bitsOf v 20 19,
                      anydie := bitOf v 21, sack := bitsOf v 93 64, count := bitsOf v 111 96 + 1 }
  if bitsOf v 15 15 = 0 ∧ bitsOf v 63 22 = 0 ∧ bitsOf v 95 94 = 0 ∧ bitsOf v 127 112 = 0 ∧ e.layer < n ∧ e.lead ≤ 16
      ∧ e.action ≤ 3 ∧ (e.anydie = true → e.die = 0) ∧ e.sack + e.count ≤ dpaSize * 4096 then some e else none

/-- Ascending LAYER order (R57). -/
def layersRise : List SEntry → Bool
  | a :: b :: rest => a.layer ≤ b.layer && layersRise (b :: rest)
  | _ => true

/-- The entries of an image's records. -/
def entriesOf (n dpaSize : Nat) : Nat → Bytes → Option (List SEntry)
  | 0, _ => some []
  | k + 1, bs =>
    match entryOf (leNat (bs.take 16)) n dpaSize, entriesOf n dpaSize k (bs.drop 16) with
    | some e, some es => some (e :: es)
    | _, _ => none

/-- A schedule image checked as R63 states, without the limit of R56. -/
def parseSchedule (img : Bytes) (sig n dpaSize : Nat) : Option (List SEntry) :=
  let cnt := leAt img 4 4
  if leAt img 0 4 = 1 ∧ leAt img 8 8 = sig ∧ leAt img 16 2 = n ∧ leAt img 24 40 = 0
      ∧ img.length = 64 + 16 * cnt ∧ leAt img 20 4 = crc32 (img.drop 64) then
    match entriesOf n dpaSize cnt (img.drop 64) with
    | some es => if layersRise es then some es else none
    | none => none
  else none

/-- A schedule image (Table 3.6). -/
def scheduleImage (sig n dlead : Nat) (es : List SEntry) : Bytes :=
  let body := es.flatMap fun e => leBytes 16 (entryNat e)
  layout 64 [⟨0, 4, 1⟩, ⟨4, 4, es.length⟩, ⟨8, 8, sig⟩, ⟨16, 2, n⟩, ⟨18, 2, dlead⟩, ⟨20, 4, crc32 body⟩] ++ body

/-! ### Sack map entries (Table 2.6, Table 4.2) -/

def Mst.code : Mst → Nat
  | .unmapped => 0 | .allocating => 1 | .deep => 2 | .promoting => 3 | .specPromoting => 4
  | .clean => 5 | .dirty => 6 | .writeback => 7 | .demoting => 8 | .specClean => 9

def mstOf (c : Nat) : Option Mst :=
  match c with
  | 0 => some .unmapped | 1 => some .allocating | 2 => some .deep | 3 => some .promoting | 4 => some .specPromoting
  | 5 => some .clean | 6 => some .dirty | 7 => some .writeback | 8 => some .demoting | 9 => some .specClean
  | _ => none

/-- The tier that Table 4.2 gives a state. -/
def Mst.tier : Mst → Tier
  | .unmapped | .allocating => .none
  | .deep | .promoting | .specPromoting => .t2
  | .clean | .dirty | .writeback | .demoting | .specClean => .t1

def Tier.code : Tier → Nat
  | .none => 0 | .t2 => 1 | .t1 => 2

/-- LOC by tier (Table 2.6). -/
def Sack.loc (s : Sack) : Nat :=
  match s.tier with
  | .none => 0
  | .t2 => s.slot
  | .t1 => s.stack + s.frame * 16

/-- The 64-bit entry. -/
def Sack.word (s : Sack) : Nat :=
  s.tier.code + s.mst.code * 2 ^ 2 + s.ldtag * 2 ^ 6 + b2n s.poison * 2 ^ 10 + b2n s.durable * 2 ^ 11
    + b2n s.lossy * 2 ^ 12 + b2n s.spill * 2 ^ 13 + b2n s.reft * 2 ^ 14 + s.size * 2 ^ 16 + s.loc * 2 ^ 24

/-- A 64-bit entry read as the extent manager reads it: none where it is corrupt (R41, R78). -/
def sackOfWord (v : Nat) : Option Sack :=
  match mstOf (bitsOf v 5 2) with
  | none => none
  | some m =>
    if m.tier.code = bitsOf v 1 0 ∧ sizeLegal (bitsOf v 19 16) = true
        ∧ (m.tier = .t1 → bitsOf v 27 24 < 12) then
      some { tier := m.tier, mst := m, ldtag := bitsOf v 9 6, poison := bitOf v 10, durable := bitOf v 11,
             lossy := bitOf v 12, spill := bitOf v 13, reft := bitOf v 14, size := bitsOf v 19 16,
             slot := if m.tier = .t2 then bitsOf v 56 24 else 0,
             stack := if m.tier = .t1 then bitsOf v 27 24 else 0,
             frame := if m.tier = .t1 then bitsOf v 50 28 else 0 }
    else none

/-! ### Side records (Table 5.3) -/

def SideRec.word (r : SideRec) : Nat :=
  r.kind + r.gen * 2 ^ 3 + b2n r.prec * 2 ^ 4 + b2n r.raw * 2 ^ 5 + r.gran * 2 ^ 8 + r.spoff * 2 ^ 24
    + r.resv % 4 * 2 ^ 6 + r.resv / 4 * 2 ^ 12

/-- A record read back: none where it is uncorrectable (R107). -/
def sideOfWord (v : Nat) : Option SideRec :=
  if bitsOf v 2 0 = 7 ∨ bitsOf v 7 6 ≠ 0 ∨ bitsOf v 23 12 ≠ 0 then none
  else some { kind := bitsOf v 2 0, gen := bitsOf v 3 3, prec := bitOf v 4, raw := bitOf v 5, gran := bitsOf v 11 8,
              spoff := bitsOf v 63 24 }

/-- Names of KIND. -/
def kZero : Nat := 0
def kCoded : Nat := 1
def kStaged : Nat := 2
def kEscape : Nat := 3
def kWhole : Nat := 4
def kSplit : Nat := 5
def kPoison : Nat := 6

/-! ### Addresses in a stack (R228 to R231) -/

def parity21 (v : Nat) : Nat := popc 21 v % 2

/-- The hashed slot index s′ of slot index `s` and bank line `n`. -/
def hashedSlot (masks : List (BitVec 21)) (s n : Nat) : Nat :=
  (masks.zipIdx.foldl (fun a m => Nat.xor a (parity21 (Nat.land n m.1.toNat) * 2 ^ m.2)) s)

/-- Where a data line lies: channel, rank, bank, bank group, row, column. -/
structure LineAt where
  channel : Nat
  rank : Nat
  bank : Nat
  group : Nat
  row : Nat
  col : Nat
  deriving DecidableEq, Repr

def lineAt (masks : List (BitVec 21)) (l : Nat) : LineAt :=
  let n := l / 512
  let h := hashedSlot masks (l % 512) n
  let p := 9 * (n / 8) + n % 8
  { channel := h % 8, rank := h / 8 % 2, bank := h / 16 % 4, group := h / 64 % 8, row := p / 32, col := p % 32 }

/-- The raw position of the check line of bank line `n` (R229). -/
def checkPos (n : Nat) : Nat := 9 * (n / 8) + 8

/-- LOC of a near-tier word (Table 11.4). -/
def nearLoc (stack : Nat) (a : LineAt) : Nat :=
  stack + a.channel * 2 ^ 4 + a.rank * 2 ^ 7 + a.bank * 2 ^ 8 + a.group * 2 ^ 10 + a.row * 2 ^ 13 + a.col * 2 ^ 29

/-! ### Ports and LDs (R29) -/

def ldPort (ld : Nat) : Nat := ld / 4
def portLds (port : Nat) : List Nat := if port < 4 then [4 * port, 4 * port + 1, 4 * port + 2, 4 * port + 3] else []
def allLds : List Nat := List.range 16
def stackDie (s : Nat) : Nat := s / 3
def dieStacks (d : Nat) : List Nat := [3 * d, 3 * d + 1, 3 * d + 2]

end Sys2Proof.Machine
end

