-- ==== Sys2Proof/Machine/Coding.lean ====
section
/-! DEFINITION. Thousk coding (chapter 05) as pure functions: source formats as exact numbers, nearest-entry coding,
error bounds, lossless modes, and the bolter's codebook build. Exact values are integers scaled by 2^149. -/
namespace Sys2Proof.Machine

/-- A decoded element: a finite exact value with its sign bit, an infinity by sign, or a NaN. -/
inductive Num where
  | fin (v : Int) (neg : Bool)
  | inf (neg : Bool)
  | nan
  deriving DecidableEq, Repr

/-- Exponent bits, mantissa bits and bias of a floating source format. -/
def fpShape (src : Nat) : Nat × Nat × Nat :=
  match src with
  | 0 => (8, 7, 127)
  | 1 => (5, 10, 15)
  | 2 => (8, 23, 127)
  | 4 => (5, 2, 15)
  | _ => (4, 3, 7)

def isInt8 (src : Nat) : Bool := src == 5 || src == 7

/-- The power of two that scales one unit of int8. Table 5.2 gives MXINT8 as "8 + scale" only: its elements are taken as int8 × 2⁻⁶,
as the OCP formats have them. PRESUMED, log entry 109. -/
def int8Scale (src : Nat) : Nat := if src = 7 then 143 else 149

/-- A two's complement byte. -/
def sbyte (b : Nat) : Int := if b < 128 then b else (b : Int) - 256

/-- The exact value of an element's bits (Table 5.2). E4M3 has no infinity and one NaN pattern. -/
def decodeElem (src bits : Nat) : Num :=
  if isInt8 src then .fin (sbyte bits * 2 ^ int8Scale src) (decide (128 ≤ bits))
  else
    let (eb, mb, bias) := fpShape src
    let m := bits % 2 ^ mb
    let e := bits / 2 ^ mb % 2 ^ eb
    let neg := decide (bits / 2 ^ (mb + eb) % 2 = 1)
    let e43 := src = 3 ∨ src = 6
    if (e43 ∧ e = 15 ∧ m = 7) ∨ (¬ e43 ∧ e = 2 ^ eb - 1 ∧ m ≠ 0) then .nan
    else if ¬ e43 ∧ e = 2 ^ eb - 1 then .inf neg
    else
      let mag : Nat := if e = 0 then m * 2 ^ (150 - bias - mb) else (2 ^ mb + m) * 2 ^ (149 + e - bias - mb)
      .fin (if neg then - (mag : Int) else mag) neg

def Num.val : Num → Int
  | .fin v _ => v
  | _ => 0

def Num.isFin : Num → Bool
  | .fin _ _ => true
  | _ => false

/-- The element nearest to num / den, ties to even (R118). `neg` is the sign of a non-zero mean. -/
def roundElem (src : Nat) (num : Int) (den : Nat) : Nat :=
  if isInt8 src then
    let unit := den * 2 ^ int8Scale src
    let a := num.natAbs
    let q := a / unit
    let r := a % unit
    let q' := if 2 * r > unit ∨ (2 * r = unit ∧ q % 2 = 1) then q + 1 else q
    if num < 0 then (256 - min q' 128) % 256 else min q' 127
  else if num = 0 then 0
  else
    let (eb, mb, bias) := fpShape src
    let a := num.natAbs
    let minU := 150 - bias - mb
    let l := (a / den).log2
    let u := max (l - mb) minU
    let unit := den * 2 ^ u
    let q := a / unit
    let r := a % unit
    let q' := if 2 * r > unit ∨ (2 * r = unit ∧ q % 2 = 1) then q + 1 else q
    let mag := if q' < 2 ^ mb then q' else (u - minU) * 2 ^ mb + q'
    (if num < 0 then 2 ^ (mb + eb) else 0) + mag

/-- The elements of a block, in order (R105). -/
def elemsOf (src : Nat) (data : Bytes) : List Nat := wordsOf (srcBits src / 8) (srcCount src) data

/-- The index of the entry nearest to `x`: the lower index on a tie (R112). -/
def nearestIdx (x : Int) : Nat → List Int → Nat → Nat → Nat
  | _, [], best, _ => best
  | i, e :: es, best, dist =>
    let d := (x - e).natAbs
    if d < dist then nearestIdx x (i + 1) es i d else nearestIdx x (i + 1) es best dist

def codeIdx (src : Nat) (col : List Nat) (x : Int) : Nat :=
  match col.map fun e => (decodeElem src e).val with
  | [] => 0
  | e :: es => nearestIdx x 1 es 0 (x - e).natAbs

/-- The index of an element, with the rule of R115 for a NaN or an infinity. -/
def codeElem (src : Nat) (col : List Nat) (bits : Nat) : Nat :=
  match decodeElem src bits with
  | .fin v _ => codeIdx src col v
  | .inf false => col.length - 1
  | _ => 0

def columnOf (cb : List (List Nat)) (v : Nat) : List Nat := cb.getD (v % max cb.length 1) []

/-- The element indices of a block. -/
def blockIdx (src : Nat) (cb : List (List Nat)) (data : Bytes) : List Nat :=
  (elemsOf src data).zipIdx.map fun p => codeElem src (columnOf cb p.2) p.1

/-- A little-endian bit string of `b`-bit values. -/
def packBits (b : Nat) : List Nat → Nat
  | [] => 0
  | v :: vs => v % 2 ^ b + 2 ^ b * packBits b vs

def unpackBits (b : Nat) : Nat → Nat → List Nat
  | 0, _ => []
  | n + 1, v => v % 2 ^ b :: unpackBits b n (v / 2 ^ b)

def isMx (src : Nat) : Bool := src == 6 || src == 7

/-- The payload of a lossy block (R105, R106). -/
def lossyPayload (src rate : Nat) (cb : List (List Nat)) (data : Bytes) : Bytes :=
  let idx := packBits (idxBits src rate) (blockIdx src cb data)
  if isMx src then leBytes 240 idx ++ (data.drop 480).take 15 ++ [0]
  else leBytes (rateBytes rate) idx

/-- The 512 bytes of a lossy payload (R105, R106). -/
def lossyDecode (src rate : Nat) (cb : List (List Nat)) (payload : Bytes) : Bytes :=
  let n := if isMx src then 240 else rateBytes rate
  let idx := unpackBits (idxBits src rate) (srcCount src) (leNat (payload.take n))
  let body := idx.zipIdx.flatMap fun p => leBytes (srcBits src / 8) ((columnOf cb p.2).getD p.1 0)
  if isMx src then body ++ (payload.drop 240).take 15 ++ zeros 17 else body

/-- |x − y| against the bound (Table 5.6, R113): `p` is the block peak. -/
def withinBound (bound : Nat) (p x y : Int) : Bool :=
  let m := bitsOf bound 7 0
  let e := bitsOf bound 13 8
  let d := (x - y).natAbs
  match bitsOf bound 15 14 with
  | 0 => true
  | 1 => d * 2 ^ 40 ≤ (256 + m) * 2 ^ e * 2 ^ 149
  | _ => d * 2 ^ 40 ≤ (256 + m) * 2 ^ e * p.natAbs

def peakOf (xs : List Int) : Int := xs.foldl (fun a x => max a x.natAbs) 0

/-- The check of R113 on a block coded with a codebook. -/
def boundOk (src bound : Nat) (cb : List (List Nat)) (data : Bytes) : Bool :=
  let es := elemsOf src data
  let nums := es.map (decodeElem src)
  let xs := nums.map Num.val
  let ys := (blockIdx src cb data).zipIdx.map fun p => (decodeElem src ((columnOf cb p.2).getD p.1 0)).val
  nums.all Num.isFin
    && (!isMx src || (((data.drop 480).take 15).all (· != 0xFF) && (data.drop 495).all (· == 0)))
    && (xs.zip ys).all fun q => withinBound bound (peakOf xs) q.1 q.2

/-! ### Lossless coding (Table 5.7) -/

/-- Bits needed to hold a number. -/
def width (v : Nat) : Nat := if v = 0 then 0 else v.log2 + 1

def nonZeroMask : List Nat → Nat
  | [] => 0
  | w :: ws => (if w = 0 then 0 else 1) + 2 * nonZeroMask ws

/-- Mode 0: zero-word elimination. -/
def encodeZero (data : Bytes) : Bytes :=
  let ws := wordsOf 8 64 data
  0 :: leBytes 8 (nonZeroMask ws) ++ (ws.filter (· ≠ 0)).flatMap (leBytes 8)

def deltas (modulus : Nat) : List Nat → List Nat
  | a :: b :: rest => (b + modulus - a) % modulus :: deltas modulus (b :: rest)
  | _ => []

/-- Modes 1 and 2: delta coding over words of `n` bytes, `count` of them. -/
def encodeDelta (mode n count : Nat) (data : Bytes) : Option Bytes :=
  let ws := wordsOf n count data
  let ds := deltas (2 ^ (8 * n)) ws
  let w := ds.foldl (fun a d => max a (width d)) 0
  if mode = 2 ∧ 63 < w then none
  else some (BitVec.ofNat 8 (mode + 4 * w) :: leBytes n (ws.headD 0)
    ++ leBytes (((count - 1) * w + 7) / 8) (packBits w ds))

/-- The shorter of two encodings, the first on a tie. -/
def shorter (a : Bytes) (b : Option Bytes) : Bytes :=
  match b with
  | some b => if b.length < a.length then b else a
  | none => a

/-- The encoding of a block and whether it is raw. -/
def losslessEncode (data : Bytes) : Bytes × Bool :=
  let e := shorter (shorter (encodeZero data) (encodeDelta 1 4 128 data)) (encodeDelta 2 8 64 data)
  if 512 ≤ e.length then (data, true) else (e, false)

def spreadWords : Nat → Nat → Bytes → Bytes
  | 0, _, _ => []
  | n + 1, m, bs => if m % 2 = 1 then fit 8 bs ++ spreadWords n (m / 2) (bs.drop 8) else zeros 8 ++ spreadWords n (m / 2) bs

def undelta (modulus : Nat) : Nat → List Nat → List Nat
  | a, [] => [a]
  | a, d :: ds => a :: undelta modulus ((a + d) % modulus) ds

/-- The 512 bytes of an encoding; none where its header makes the block uncorrectable (R124). -/
def losslessDecode (raw : Bool) (enc : Bytes) : Option Bytes :=
  if raw then some (fit 512 enc)
  else
    let h := (enc.headD 0).toNat
    let w := h / 4
    match h % 4 with
    | 0 => if w ≠ 0 then none else some (spreadWords 64 (leAt enc 1 8) (enc.drop 9))
    | 1 =>
      if 32 < w then none
      else some ((undelta (2 ^ 32) (leAt enc 1 4)
        (unpackBits w 127 (leNat ((enc.drop 5).take ((127 * w + 7) / 8))))).flatMap (leBytes 4))
    | 2 => some ((undelta (2 ^ 64) (leAt enc 1 8)
        (unpackBits w 63 (leNat ((enc.drop 9).take ((63 * w + 7) / 8))))).flatMap (leBytes 8))
    | _ => none

/-! ### The bolter (R118) -/

/-- Ascending by exact value, −0 before +0. -/
def elemLe (src a b : Nat) : Bool :=
  match decodeElem src a, decodeElem src b with
  | .fin x nx, .fin y ny => x < y || (x == y && (nx || !ny))
  | _, _ => true

def insertElem (src x : Nat) : List Nat → List Nat
  | [] => [x]
  | y :: ys => if elemLe src x y then x :: y :: ys else y :: insertElem src x ys

def sortElems (src : Nat) (xs : List Nat) : List Nat := xs.foldr (insertElem src) []

def sortedElems (src : Nat) : List Nat → Bool
  | a :: b :: rest => elemLe src a b && sortedElems src (b :: rest)
  | _ => true

/-- One pass: assign every value to its nearest entry, then move each entry to its mean. -/
def bolterPass (src : Nat) (xs col : List Nat) : List Nat :=
  let tagged := xs.map fun x => ((decodeElem src x).val, codeElem src col x)
  sortElems src (col.zipIdx.map fun p =>
    let m := (tagged.filter fun q => q.2 == p.2).map Prod.fst
    if m.isEmpty then p.1 else roundElem src (m.foldl (· + ·) 0) m.length)

def iter {α : Type} (f : α → α) : Nat → α → α
  | 0, a => a
  | n + 1, a => iter f n (f a)

/-- One column's codebook from its sample values. -/
def bolterColumn (src k : Nat) (vals : List Nat) : List Nat :=
  let x0 := vals.filter fun v => (decodeElem src v).isFin
  let x := sortElems src (if x0.isEmpty then [0] else x0)
  let n := x.length
  iter (bolterPass src x) 8 ((List.range k).map fun i => x.getD ((2 * i + 1) * n / (2 * k)) 0)

/-- The codebook of a sample of blocks. -/
def bolterBuild (src rate cols : Nat) (sample : List Bytes) : List (List Nat) :=
  let es := sample.flatMap fun b => (elemsOf src b).zipIdx
  (List.range cols).map fun c =>
    bolterColumn src (2 ^ idxBits src rate) ((es.filter fun p => p.2 % cols == c).map Prod.fst)

/-- The 32 KiB image of a codebook (R111). -/
def codebookImage (src : Nat) (cb : List (List Nat)) : Bytes :=
  fit 32768 ((cb.flatMap id).flatMap (leBytes (srcBits src / 8)))

def chunk {α : Type} (n : Nat) : Nat → List α → List (List α)
  | 0, _ => []
  | k + 1, xs => xs.take n :: chunk n k (xs.drop n)

/-- A codebook read from an image, or none where Table 5.8 refuses it. -/
def codebookOf (src rate cols : Nat) (img : Bytes) : Option (List (List Nat)) :=
  let k := 2 ^ idxBits src rate
  let w := srcBits src / 8
  let cb := chunk k cols (wordsOf w (cols * k) img)
  if img.length = 32768 ∧ (img.drop (cols * k * w)).all (· == 0)
      ∧ cb.all (fun c => c.all (fun e => (decodeElem src e).isFin) && sortedElems src c) then some cb else none

end Sys2Proof.Machine
end

