-- ==== Sys2Proof/Machine/Ops.lean ====
section
/-! DEFINITION. The shared operations: time, answers, interrupts, events, the ledger, free values, table updates, and
the checks that every mailbox command passes through (R356 to R359). -/
namespace Sys2Proof.Machine

/-! ### Time, answers and free values -/

/-- A time-driven row happens at module time `t`: the clock never runs back. DESIGN CHOICE, log entry 4. -/
def State.at_ (s : State) (t : Nat) : State := { s with now := max s.now t }

/-- Send something to the outside. -/
def State.send (s : State) (o : Out) : State := { s with sent := o :: s.sent }

def State.sendAll (s : State) (os : List Out) : State := os.foldl State.send s

/-- Draw a value that the spec leaves open: the free constant applied to the counter. DESIGN CHOICE, log entry 5. -/
def State.free (s : State) : Nat × State := (Config.freeValue s.freeCtr, { s with freeCtr := s.freeCtr + 1 })

/-- The timestamp counter plus an LD's offset (R354). DEDUCED, log entry 93. -/
def State.timeOf (s : State) (m : Nat) : Nat := (((s.now - s.cxe.tsZero : Nat) : Int) + s.cxe.tsOff.get m).toNat

/-- Is the LD presented (Table 2.1)? The FM-owned LD always is. -/
def State.ldOn (s : State) (ld : Nat) : Bool := ld == 16 || (s.ext.parts.get ld).enabled

def State.enabledLds (s : State) : List Nat := allLds.filter s.ldOn

/-- CXL.mem and the engines are served. -/
def State.up (s : State) : Bool := s.phase == .running

/-! ### Interrupts (R333, R350) -/

/-- Signal an MSI-X vector, or record it in the pending bits while Bus Master Enable is 0. -/
def State.signal (s : State) (m v : Nat) : State :=
  if s.cxe.bme.get m then s.send (.msix m v)
  else { s with cxe := { s.cxe with msix := s.cxe.msix.upd m fun p => Nat.lor p (2 ^ v) } }

/-! ### Events (R366, R367) -/

/-- Logs: 0 informational, 1 warning, 2 failure, 3 fatal, 4 dynamic capacity. -/
def logSize (log : Nat) : Nat := match log with | 3 => 32 | 4 => 256 | _ => 128

/-- A vendor or standard event with no position. -/
def Event.of (kind ld count : Nat) (detail : List Fld) : Event :=
  { handle := 0, kind := kind, ld := ld, count := count, turn := 0, layer := 0, wheel := 0, nopos := true,
    ovf := false, more := false, time := 0, detail := detail }

/-- Post a record to one log: dropped with its loss recorded where the log is full (R366). -/
def State.post (s : State) (m log : Nat) (e : Event) : State :=
  let key := m * 8 + log
  let lg := s.mbox.logs.get key
  let t := s.timeOf m
  if lg.recs.length < logSize log then
    let s := { s with mbox := { s.mbox with
      logs := s.mbox.logs.set key { lg with recs := lg.recs ++ [{ e with handle := (s.mbox.nextHandle - 1) % 65535 + 1, time := t }] },
      nextHandle := s.mbox.nextHandle + 1 } }
    if s.mbox.policy.get key = 1 then s.signal m (log + 1) else s
  else
    let lost : EvLog := { lg with ovf := true, ovCount := lg.ovCount + 1, ovFirst := if lg.ovf then lg.ovFirst else t, ovLast := t }
    { s with mbox := { s.mbox with logs := s.mbox.logs.set key lost } }

def State.postAll (s : State) (ps : List Post) : State := ps.foldl (fun s p => s.post p.mbox p.log p.ev) s

/-- Post one event to the FM-owned LD and to every enabled LD. -/
def State.postEvery (s : State) (log : Nat) (e : Event) : State :=
  (fmSrc :: s.enabledLds).foldl (fun s m => s.post m log e) s

/-! ### The ledger (R301, R302) -/

/-- A ledger record of a kind with its unit. DEDUCED, log entry 32. -/
def LedgerRec.of (kind utype unit ld detail : Nat) : LedgerRec :=
  { kind := kind, utype := utype, unit := unit, ld := ld, detail := detail }

def coalKinds (k : Nat) : Bool := (1 ≤ k && k ≤ 3) || k == 10 || k == 12

/-- Key of a sensor (R415): its part and unit. -/
def partCode : Part17 → Nat
  | .hub => 0 | .stoneDie => 1 | .stack => 2 | .engine => 3 | .flash => 4

def sensorKey (p : Part17) (unit : Nat) : Nat := 64 * partCode p + unit

/-- The sensor nearest to a unit (Table 12.6, TEMP). -/
def unitSensor (utype unit : Nat) : Nat :=
  match utype with
  | 1 => sensorKey .stoneDie (unit / 48)
  | 2 => sensorKey .stoneDie unit
  | 3 => sensorKey .stack unit
  | 4 => sensorKey .flash (unit / 16)
  | 5 => sensorKey .engine (unit / 8)
  | _ => sensorKey .hub 0

/-- TEMP in 0.125 °C, VOLT in mV, CSTEP and NPOINT of a record (Table 12.6). -/
def State.stamp (s : State) (r : LedgerRec) : LedgerRec :=
  { r with
    time := s.timeOf fmSrc
    temp := 8 * (s.health.sensors.get (unitSensor r.utype r.unit)).temp
    volt := match r.utype with
      | 1 => s.health.volts.get (8 * (r.unit / 48) + s.clock.step)
      | 2 => s.health.volts.get (8 * r.unit + s.clock.step)
      | _ => s.health.hubVolt
    cstep := s.clock.step
    npoint := s.near.point }

/-- Write a ledger record: it waits for its commit, and what it accompanies is released then (R301). The records
after the hundredth of one KIND and UNIT in one second are only counted (R302). -/
def State.ledger (s : State) (r : LedgerRec) (posts : List Post := []) (outs : List Out := [])
    (job : Option (Nat × Rc × Nat) := none) : State :=
  let hit := s.result.coal.find? fun c => c.kind = r.kind ∧ c.utype = r.utype ∧ c.unit = r.unit
  let c : Coalesce := match hit with
    | some c => if s.now < c.start + sec then c else { c with start := s.now, count := 0 }
    | none => { kind := r.kind, utype := r.utype, unit := r.unit, start := s.now, count := 0, lost := 0 }
  let rest := s.result.coal.filter fun c => ¬ (c.kind = r.kind ∧ c.utype = r.utype ∧ c.unit = r.unit)
  if coalKinds r.kind ∧ 100 ≤ c.count then
    ({ s with result := { s.result with coal := { c with lost := c.lost + 1 } :: rest } }.postAll posts).sendAll outs
  else
    { s with result := { s.result with
      coal := if coalKinds r.kind then { c with count := c.count + 1 } :: rest else s.result.coal,
      nextSeq := s.result.nextSeq + 1,
      waits := s.result.waits ++ [{ record := { s.stamp r with seqno := s.result.nextSeq },
                                    posts := posts, outs := outs, job := job, start := s.now }] } }

/-! ### Parties (R30) -/

/-- The party of an LD: its share group as 16 + GROUP, or the LD itself. -/
def State.party (s : State) (ld : Nat) : Nat :=
  let g := (s.ext.parts.get ld).group
  if g = 0 then ld else 16 + g

def State.partyLds (s : State) (p : Nat) : List Nat := allLds.filter fun ld => s.party ld == p

/-! ### Units -/

def State.stackOk (s : State) (k : Nat) : Bool := (s.near.stks.get k).state ≠ .failed
def State.healthyStacks (s : State) : List Nat := (List.range 12).filter s.stackOk

/-! ### Mailbox commands (R356 to R359) -/

/-- What TARGET a command of the FM-owned LD carries (R356): the module, an enabled LD, any LD, the module or an enabled LD, the
module or any LD. -/
inductive FmTarget where
  | no
  | module
  | ld
  | anyLd
  | either
  | any
  deriving DecidableEq, Repr

/-- What the tables say of a command: its opcode, who may issue it, whether it runs in the background, whether it is
a vendor command with a prefix, the input lengths it accepts, and whether it needs an entry of a store (R357.4). -/
structure Cmd where
  opcode : Nat
  ld : Bool
  fm : FmTarget
  bg : Bool := false
  vendor : Bool := true
  len : List Nat := [8]
  lenFrom : Option Nat := none
  store : Bool := false

/-- Success of a command's own part: the new state, the output fields and the output data. -/
structure MbOk where
  s : State
  fields : List Fld := []
  blob : Bytes := []

/-- A command's own rules (R357, step 5). -/
abbrev MbBody := State → Except Rc MbOk

/-- The LD that a command acts for. -/
def whoOf (h : MbHdr) : Nat := if h.src < 16 then h.src else h.target

def State.job (s : State) (src : Nat) : Option Job := (s.mbox.jobs.find? fun j => j.1 = src).map Prod.snd

/-- A new AES-256-XTS key from the hub's random bit generator (R43, R383): two draws of 256 bits. -/
def State.newKey (s : State) : BitVec 512 × State :=
  (Config.randomBits s.freeCtr ++ Config.randomBits (s.freeCtr + 1), { s with freeCtr := s.freeCtr + 2 })

/-- The check of step 1: does the mailbox exist for a command, and do the tables let it issue this one? In ROM
recovery the FM-owned LD has only the firmware commands (R376). PRESUMED, log entry 87. -/
def State.permits (s : State) (h : MbHdr) (c : Cmd) : Bool :=
  if h.src < 16 then c.ld && s.ldOn h.src && s.phase == .running
  else c.fm != .no && (s.phase == .running || c.opcode == 0x0200 || c.opcode == 0x0201 || c.opcode == 0x0202)

/-- The input lengths that CXL 3.1 defines for a standard command; those with a list admit any number of entries here,
and their meanings compare the number given (R7). PRESUMED, log entry 15. -/
def stdLenOk (opcode len : Nat) : Bool :=
  match opcode with
  | 0x0100 => len == 1
  | 0x0101 => decide (6 ≤ len) && len % 2 == 0
  | 0x0103 => len == 4 || len == 5
  | 0x0201 => decide (128 ≤ len)
  | 0x0202 | 0x4800 | 0x5401 | 0x5408 => len == 2
  | 0x0301 | 0x4301 | 0x4801 => len == 8
  | 0x0401 => len == 24
  | 0x4300 => len == 16
  | 0x4302 => len == 72
  | 0x4802 | 0x4803 => decide (8 ≤ len) && (len - 8) % 24 == 0
  | 0x5409 => decide (2 ≤ len)
  | 0x5601 => len == 4
  | 0x5603 => len == 12
  | 0x5604 | 0x5605 => decide (32 ≤ len) && (len - 32) % 40 == 0
  | _ => len == 0

/-- The check of step 3 (R356, R7). DEDUCED, log entry 66. -/
def State.targetOk (s : State) (h : MbHdr) (c : Cmd) : Bool :=
  (!c.vendor ||
    (if h.src < 16 then h.target == h.src
     else match c.fm with
      | .no => false
      | .module => h.target == 0xFF
      | .ld => h.target < 16 && s.ldOn h.target
      | .anyLd => h.target < 16
      | .either => h.target == 0xFF || (h.target < 16 && s.ldOn h.target)
      | .any => h.target == 0xFF || h.target < 16))
  && h.resv == 0
  && (if c.vendor then c.len.contains h.len || (match c.lenFrom with | some n => n ≤ h.len && h.len ≤ 65536 | none => false)
      else stdLenOk c.opcode h.len)

/-- Count a failed vendor command of an LD (MLR_LDSTAT.CMDFAIL). -/
def State.countFail (s : State) (src : Nat) (vendor : Bool) (code : Rc) : State :=
  if src < 16 ∧ vendor ∧ code ≠ .success ∧ code ≠ .bgStarted then
    { s with mbox := { s.mbox with cmdFail := s.mbox.cmdFail.upd src fun n => bump 16 n 1 } }
  else s

/-- The mailbox registers of a function show its last command. -/
def State.noteCmd (s : State) (src opcode : Nat) (code : Rc) : State :=
  { s with mbox := { s.mbox with regs := s.mbox.regs.upd src fun r => { r with opcode := opcode, code := code } } }

/-- Answer a command. -/
def State.answer (s : State) (h : MbHdr) (c : Cmd) (code : Rc) (fields : List Fld) (blob : Bytes) : State :=
  ((s.countFail h.src c.vendor code).noteCmd h.src c.opcode code).send (.mailbox h.src c.opcode code fields blob)

/-- The checks of R357 in their order: the code of the first that fails. While debug is being opened the mailboxes of LDs 0 to
15 are Busy (Table 16.10, step 1). -/
def State.mbCheck (s : State) (h : MbHdr) (c : Cmd) : Option Rc :=
  if ¬ s.permits h c then some .unsupported
  else if (h.src < 16 ∧ s.boot.openSeq ≠ 0) ∨ (c.bg ∧ (s.job h.src).isSome) then some .busy
  else if ¬ s.targetOk h c then some .invalidInput
  else if c.store ∧ s.near.rebuilding ≠ [] then some .retryRequired
  else none

/-- Do mailboxes take doorbells (R358)? -/
def State.mbReady (s : State) : Bool := s.millerReady && (s.phase == .running || s.phase == .recovery)

/-- Can a doorbell be rung and taken: in D3hot the function serves no CXL.io request (Table 14.2).-/
def State.rings (s : State) (src : Nat) : Bool := s.mbReady && !(s.cxe.lds.get src).d3

/-- An immediate command. A doorbell rung while the mailbox does not report ready starts no command (R358). -/
def State.mbRun (s : State) (h : MbHdr) (c : Cmd) (body : MbBody) : State :=
  if ¬ s.rings h.src then s
  else match s.mbCheck h c with
    | some code => s.answer h c code [] []
    | none =>
      match body s with
      | .ok r => r.s.answer h c .success r.fields r.blob
      | .error code => s.answer h c code [] []

/-- A background command: the immediate part checks, then the job runs until it completes (R359). -/
def State.mbBg (s : State) (h : MbHdr) (c : Cmd) (cmd : Instr) (body : State → Except Rc State) : State :=
  if ¬ s.rings h.src then s
  else match s.mbCheck h { c with bg := true } with
    | some code => s.answer h c code [] []
    | none =>
      match body s with
      | .ok s' =>
        ({ s' with mbox := { s'.mbox with jobs := (h.src,
            { opcode := c.opcode, cmd := cmd, start := s.now, started := false, aborted := false }) :: s'.mbox.jobs } }
          ).answer h c .bgStarted [] []
      | .error code => s.answer h c code [] []

/-- End the background command of a mailbox: its status, its VSES and MSI-X vector 0 (R359). -/
def State.endJob (s : State) (src : Nat) (code : Rc) (vses : Nat) : State :=
  match s.job src with
  | none => s
  | some j =>
    let s := { s with mbox := { s.mbox with
      jobs := s.mbox.jobs.filter fun p => p.1 ≠ src
      status := s.mbox.status.set src { opcode := j.opcode, code := code, vses := vses } } }
    ((s.countFail src true code).send (.background src j.opcode code vses)).signal src 0

/-! ### Transfers in parts (R360, R361) -/

/-- Write the bytes of a part over those already received. -/
def imageBytes (total : Nat) (parts : List (Nat × Bytes)) : Bytes :=
  parts.foldl (fun bs p => patch bs p.1 p.2) (zeros total)

/-- Does some part hold every byte from 0 to `n`? Intervals are taken from the lowest uncovered byte. -/
def coveredFrom : Nat → Nat → List (Nat × Bytes) → Nat
  | 0, lo, _ => lo
  | fuel + 1, lo, parts =>
    match parts.find? fun p => p.1 ≤ lo ∧ lo < p.1 + p.2.length with
    | some p => coveredFrom fuel (p.1 + p.2.length) parts
    | none => lo

/-- The end of one input part. -/
inductive PartOutcome where
  | refused
  | held (s : State)
  | whole (s : State) (image : Bytes)

/-- Take one input part (R360). -/
def State.takePart (s : State) (src opcode : Nat) (p : Part) : PartOutcome :=
  let open_ := s.mbox.images.find? fun i => i.src = src ∧ i.opcode = opcode ∧ i.total = p.total ∧ s.now < i.last + 10 * sec
  let others := s.mbox.images.filter fun i => ¬ (i.src = src ∧ i.opcode = opcode)
  if p.total < p.offset + p.data.length ∨ 65504 < p.data.length then .refused
  else
    let parts := (match open_ with | some i => i.parts | none => []) ++ [(p.offset, p.data)]
    if p.final then
      let s' := { s with mbox := { s.mbox with images := others } }
      if coveredFrom (parts.length + 1) 0 parts ≥ p.total then .whole s' (imageBytes p.total parts)
      else .whole s' []
    else
      .held { s with mbox := { s.mbox with
        images := { src := src, opcode := opcode, total := p.total, parts := parts, last := s.now } :: others } }

/-- Bytes of an input part before its data: Table 15.1's header, or that of Transfer FW. PRESUMED, log entry 15. -/
def Cmd.partHead (c : Cmd) : Nat := if c.vendor then 32 else 128

/-- An immediate command with input in parts. `check` runs on the whole image. -/
def State.mbParts (s : State) (h : MbHdr) (c : Cmd) (p : Part) (check : Bytes → MbBody) : State :=
  if ¬ s.rings h.src then s
  else match s.mbCheck h { c with len := [], lenFrom := some 32 } with
    | some code => s.answer h c code [] []
    | none =>
      if h.len ≠ c.partHead + p.data.length then s.answer h c .invalidInput [] []
      else match s.takePart h.src c.opcode p with
      | .refused => s.answer h c .invalidInput [] []
      | .held s' => s'.answer h c .success [] []
      | .whole s' img =>
        if img.length = p.total then
          match check img s' with
          | .ok r => r.s.answer h c .success r.fields r.blob
          | .error code => s'.answer h c code [] []
        else s'.answer h c .invalidInput [] []

/-- A command with input in parts whose final part runs in the background (R357): the image stays with the job. -/
def State.mbPartsBg (s : State) (h : MbHdr) (c : Cmd) (p : Part) (cmd : Bytes → Instr)
    (check : Bytes → State → Except Rc State) : State :=
  if ¬ s.rings h.src then s
  else match s.mbCheck h { c with bg := p.final, len := [], lenFrom := some 32 } with
    | some code => s.answer h c code [] []
    | none =>
      if h.len ≠ c.partHead + p.data.length then s.answer h c .invalidInput [] []
      else match s.takePart h.src c.opcode p with
      | .refused => s.answer h c .invalidInput [] []
      | .held s' => s'.answer h c .success [] []
      | .whole s' img =>
        if img.length = p.total then
          match check img s' with
          | .ok s'' =>
            ({ s'' with mbox := { s''.mbox with jobs := (h.src,
                { opcode := c.opcode, cmd := cmd img, start := s.now, started := false, aborted := false })
                :: s''.mbox.jobs } }).answer h c .bgStarted [] []
          | .error code => s'.answer h c code [] []
        else s'.answer h c .invalidInput [] []

/-- Serve an output request from its snapshot, taking a new one at 0 (R361). `recLen` 0 says an image of bytes. -/
def State.mbSnap (s : State) (h : MbHdr) (c : Cmd) (o : OutReq) (recLen : Nat)
    (take : State → Except Rc (Bytes × List (List Fld))) : State :=
  s.mbRun h c fun s =>
    let old := s.mbox.snaps.find? fun n => n.src = h.src ∧ n.opcode = c.opcode
    let fresh : Except Rc (Bytes × List (List Fld)) :=
      if o.first = 0 then take s
      else match old with
        | some n => if s.now < n.last + 10 * sec then .ok (n.bytes, n.recs) else .error .invalidInput
        | none => .error .invalidInput
    match fresh with
    | .error e => .error e
    | .ok (bytes, recs) =>
      let snap : Snap := { src := h.src, opcode := c.opcode, bytes := bytes, recs := recs, last := s.now }
      let rest := s.mbox.snaps.filter fun n => ¬ (n.src = h.src ∧ n.opcode = c.opcode)
      let s := { s with mbox := { s.mbox with snaps := snap :: rest } }
      if recLen = 0 then
        let n := if o.maxn = 0 then 65520 else min o.maxn 65520
        .ok { s := s, fields := [⟨0, 4, o.first⟩, ⟨4, 4, bytes.length⟩], blob := (bytes.drop o.first).take n }
      else
        let n := if o.maxn = 0 then 65520 / recLen else min o.maxn (65520 / recLen)
        let out := (recs.drop o.first).take n
        .ok { s := s, fields := [⟨0, 4, o.first⟩, ⟨4, 4, recs.length⟩, ⟨8, 4, out.length⟩],
              blob := out.flatMap (layout recLen) }

/-- A firmware slot: 0 A, 1 B. -/
def State.slotOf (s : State) (i : Nat) : FwSlot := if i = 0 then s.boot.slotA else s.boot.slotB

end Sys2Proof.Machine
end

