-- ==== Sys2Proof/Machine/Weir.lean ====
section
/-! DEFINITION. The weirs as shared operations (R215 to R225): derated capacities, guarantees and their scaling, token
buckets, misses and maximum latencies. -/
namespace Sys2Proof.Machine

/-- Capacities and cscale are exact in units of 1 ÷ 49,152 of Table 8.5's units. -/
def capScale : Nat := 49152

def State.modWeir (s : State) (f : WeirSt → WeirSt) : State := { s with weir := f s.weir }

/-! ### Derated capacity (Table 8.7) -/

/-- Stone clock of a CSTEP code in tenths of a GHz. -/
def stepFreq (c : Nat) : Nat := match c with | 0 => 36 | 1 => 30 | 2 => 24 | 3 => 18 | _ => 12

/-- Tenths of stone cycles that the stone clock has made since the module's reset, at every step that it has had (R132). -/
def State.cyc (s : State) : Nat := s.clock.cycBase + (s.now - s.clock.cycAt) * stepFreq s.clock.step

/-- Whole stone cycles since a count was `from_`. -/
def State.cycSince (s : State) (from_ : Nat) : Nat := (s.cyc - from_) / 10

/-- Pin rate of a frequency point in Gbit/s (Table 9.3). -/
def pinRate (p : Nat) : Nat := match p with | 0 => 48 | 1 => 36 | 2 => 24 | _ => 12

/-- Halvings of deep programming and of deep reads in force: the deeper of the governor's and the thermal ones (R20). -/
def State.progHalvings (s : State) : Nat :=
  max (s.power.taken.filter fun k => k = 2).length (s.health.steps.filter fun x => x.kind = 3).length

def State.readHalvings (s : State) : Nat :=
  max (s.power.taken.filter fun k => k = 4).length (s.health.steps.filter fun x => x.kind = 4).length

/-- Dies of flash channel `c` (die 16k + j is on channel 4k + j mod 4). -/
def channelDies (c : Nat) : List Nat := [0, 4, 8, 12].map fun j => 16 * (c / 4) + j + c % 4

def State.healthyChannels (s : State) : Nat :=
  ((List.range 64).filter fun c => (channelDies c).any fun d => !s.deep.dieFailed.get d).length

/-- The slowest point in use, a change to a slower one counting from its start (R236, R238). -/
def State.slowPoint (s : State) : Nat :=
  (s.healthyStacks.map fun k => (s.near.stks.get k).point).foldl max (s.near.target.getD 0)

/-- The derated capacity of a resource, scaled. -/
def State.capacity (s : State) (r : Nat) : Nat :=
  match r with
  | 0 => 40960 * s.healthyStacks.length * pinRate s.slowPoint * capScale / 576
  | 1 => 64 * s.healthyChannels * capScale / 2 ^ s.readHalvings
  | 2 => min (15 * s.healthyChannels * capScale / 2 ^ s.progHalvings) (s.deep.budget * capScale)
  | 3 => ((List.range 192).filter fun k =>
      let st := s.stone.stones.get k
      st.state != .offline && !st.broken).length * stepFreq s.clock.step * capScale
  | _ => 500 * (s.port.ports.get (r - 4)).group.length * capScale

/-- cscale of R222: the capacity in force, or a lower one until a rise has lasted 10 ms. -/
def State.cscale (s : State) (r : Nat) : Nat := (s.weir.cscale.get r).getD (s.capacity r)

/-- ⌊0.8 × c⌋ in whole units. -/
def roomOf (c : Nat) : Nat := 4 * c / (5 * capScale)

/-! ### Guarantees (R219 to R223). Key of a guarantee: 8 × LD + resource. -/

def State.guar (s : State) (ld r : Nat) : Guar := s.weir.guars.get (8 * ld + r)
def State.setGuar (s : State) (ld r : Nat) (g : Guar) : State := s.modWeir fun w => { w with guars := w.guars.set (8 * ld + r) g }

/-- A bucket's depth: 100 µs at the effective rate. -/
def Guar.depth (g : Guar) : Int := g.eff * 100000

/-- Fill a bucket to a moment. -/
def Guar.fill (g : Guar) (now : Nat) : Guar :=
  { g with tokens := min (g.tokens + g.eff * (now - g.filled)) g.depth, filled := now }

/-- The guarantees of a class on a resource. -/
def State.classGuars (s : State) (r c : Nat) : List Nat :=
  (List.range 16).filter fun ld => (s.guar ld r).valid && (s.guar ld r).cls == c

/-- The effective rate of every LD's guarantee (R222): classes 0 to 6 in order out of `room`. -/
def State.scaled (s : State) (r : Nat) : Nat → Nat → Nat → List (Nat × Nat)
  | 0, _, _ => []
  | n + 1, c, room =>
    let gs := s.classGuars r c
    let want := (gs.map fun ld => (s.guar ld r).resv).foldl (· + ·) 0
    let effs := gs.map fun ld => (ld, if want ≤ room then (s.guar ld r).resv else (s.guar ld r).resv * room / want)
    effs ++ s.scaled r n (c + 1) (room - (effs.map Prod.snd).foldl (· + ·) 0)

/-- Is some effective rate below its reserved rate (R223)? -/
def State.short (s : State) (r : Nat) : Bool :=
  (List.range 16).any fun ld => (s.guar ld r).valid && (s.guar ld r).eff < (s.guar ld r).resv

def State.resvTotal (s : State) (r : Nat) : Nat :=
  ((List.range 16).map fun ld => if (s.guar ld r).valid then (s.guar ld r).resv else 0).foldl (· + ·) 0
def State.effTotal (s : State) (r : Nat) : Nat :=
  ((List.range 16).map fun ld => if (s.guar ld r).valid then (s.guar ld r).eff else 0).foldl (· + ·) 0

/-- A shortfall event (R223, Table 15.7). DEDUCED, log entry 39. -/
def shortEvent (ld r cap resv eff : Nat) : Event :=
  Event.of 7 ld 1 [⟨64, 1, r⟩, ⟨66, 2, cap⟩, ⟨68, 2, resv⟩, ⟨70, 2, eff⟩]

/-- The lowest class whose guarantees are scaled, 7 where none is. -/
def State.scaledFrom (s : State) (r : Nat) : Nat :=
  ((List.range 7).find? fun c => (s.classGuars r c).any fun ld => (s.guar ld r).eff < (s.guar ld r).resv).getD 7

/-- Recompute the effective rates of a resource from cscale, with the events of a change while scaling is or was (`was`)
active (R222, R223). DEDUCED, log entry 39. -/
def State.recompute (s : State) (r : Nat) (was : Bool) : State :=
  let effs := s.scaled r 7 0 (roomOf (s.cscale r))
  let changed := effs.filter fun p => (s.guar p.1 r).eff ≠ p.2
  let s := changed.foldl (fun s p =>
    let g := (s.guar p.1 r).fill s.now
    let g : Guar := { g with eff := p.2 }
    s.setGuar p.1 r { g with tokens := min g.tokens g.depth }) s
  let s := s.modWeir fun w => { w with deepest := w.deepest.set r (s.scaledFrom r) }
  if changed ≠ [] ∧ (was ∨ s.short r) then
    let cap := s.cscale r / capScale
    let s := changed.foldl (fun s p => s.post p.1 1 (shortEvent p.1 r cap (s.guar p.1 r).resv p.2)) s
    s.post fmSrc 1 (shortEvent 31 r cap (s.resvTotal r) (s.effTotal r))
  else s

/-- Note a rise in a resource's capacity above cscale, for R222's 10 ms. DEDUCED, log entry 39. -/
def State.noteCap (s : State) (r : Nat) : State :=
  let c := s.capacity r
  let rise := if c ≤ s.cscale r then none else match s.weir.rise.get r with
    | some (c0, t0) => some (min c c0, t0)
    | none => some (c, s.now)
  s.modWeir fun w => { w with rise := w.rise.set r rise }

/-- After anything that may change a capacity. DEDUCED, log entry 39. -/
def State.caps (s : State) : State := (List.range 8).foldl State.noteCap s

/-! ### Serving a request (R217, R220, R224, R225) -/

/-- What a class has been served on a resource in the current 10 µs period. -/
def State.servedNow (s : State) (cls r : Nat) : Nat :=
  let p := s.weir.served.get (8 * cls + r)
  if p.1 = s.now / 10000 then p.2 else 0

/-- Has a class unused share on a resource (Table 8.4)? A unit of Table 8.5 is 1,000 bytes or cycles in 10 µs. -/
def State.unused (s : State) (cls r : Nat) : Bool :=
  s.servedNow cls r * 256 * capScale < (s.weir.classes.get cls).share * s.capacity r * 1000

/-- Note an amount served. -/
def State.noteServed (s : State) (cls r amount : Nat) : State :=
  s.modWeir fun w => { w with served := w.served.set (8 * cls + r) (s.now / 10000, s.servedNow cls r + amount) }

/-- A miss of a guarantee (R224). DESIGN CHOICE, log entry 18. -/
def State.missed (s : State) (ld r cls lat : Nat) : State :=
  let m := s.weir.miss.get ld
  let due := !m.seen || m.last + ms ≤ s.now
  let m' : MissRegs := { misses := bump 32 m.misses 1, rmask := Nat.lor m.rmask (2 ^ r), seen := true, last := if due then s.now else m.last }
  let s := s.modWeir fun w => { w with miss := w.miss.set ld m' }
  if due then
    let e := Event.of 8 ld 1 [⟨64, 1, r⟩, ⟨65, 1, cls⟩, ⟨68, 4, lat⟩]
    (s.post ld 1 e).post fmSrc 1 e
  else s

/-- Is a request of an LD in a class in guarantee as it arrives at a weir (R220)? -/
def State.inGuar (s : State) (ld r cls : Nat) : Bool :=
  let g := (s.guar ld r).fill s.now
  g.valid && g.cls == cls && decide (0 < g.tokens)

/-- The order in which a weir takes requests (R217): those in guarantee, then those of classes with unused share, then the others, each
in ascending class order. -/
def State.weirBand (s : State) (inG : Bool) (cls r : Nat) : Nat := (if inG then 0 else if s.unused cls r then 8 else 16) + cls

/-- How far an LD's turn in a class of a resource is off (R217): the LD served last comes last. -/
def State.turnsOff (s : State) (cls r ld : Nat) : Nat := (ld + 15 - s.weir.lastLd.get (8 * cls + r)) % 16

/-- An LD has had its turn in a class of a resource. -/
def State.tookTurn (s : State) (cls r ld : Nat) : State :=
  s.modWeir fun w => { w with lastLd := w.lastLd.set (8 * cls + r) ld }

/-- Serve a request of an LD in a class at a weir, which was in guarantee or not as it arrived: its charge (bytes, or stone cycles) is
taken from the LD's bucket where it was, and its latency is kept. `wheel` is the wheel its stream names. DESIGN CHOICE, log
entry 18. -/
def State.serveAs (s : State) (was : Bool) (ld r cls amount lat : Nat) (wheel : Option Nat) : State :=
  let g := (s.guar ld r).fill s.now
  let inG := was && g.valid && g.cls == cls
  let left := g.tokens - 10 * (amount : Int)
  let g' : Guar := { g with tokens := if inG then (if r = 3 then max left (-g.depth) else left) else g.tokens }
  let s := (if g.valid then s.setGuar ld r g' else s).noteServed cls r amount
  let k := 8 * cls + r
  let lat' := min lat (2 ^ 32 - 1)
  let s := if (s.weir.latRun.get k).ns < lat' then
      let x := match wheel with | some w => s.sweep.wheels.get w | none => {}
      let l : LatMax := { ns := lat', ld := ld, time := s.timeOf ld, turn := x.turn, layer := x.layer, wheel := wheel.getD 0 % 16,
                          nopos := wheel.isNone || !x.placed }
      s.modWeir fun w => { w with latRun := w.latRun.set k l }
    else s
  if inG ∧ g.lat * 1000 < lat then s.missed ld r cls lat else s

/-- Serve a request at once as it arrives at a weir. -/
def State.serve (s : State) (ld r cls amount lat : Nat) (wheel : Option Nat) : State :=
  s.serveAs (s.inGuar ld r cls) ld r cls amount lat wheel

/-- The window's end: every running maximum is latched and restarts from zero. -/
def State.latchWindow (s : State) : State :=
  s.modWeir fun w => { w with latLast := w.latRun, latRun := { dflt := {} }, windowStart := s.now }

end Sys2Proof.Machine
end

