-- ==== Sys2Proof/Machine/Vitals.lean ====
section
/-! DEFINITION. The figures of Get Health Info (R365) and the Memory Module records that follow their changes (R369). -/
namespace Sys2Proof.Machine

/-- Has some unit of Table 1.8 failed? DEDUCED, log entry 48. -/
def State.unitDown (s : State) : Bool :=
  ((List.range 192).any fun k => (s.stone.stones.get k).broken)
    || ((List.range 12).any fun k => (s.near.stks.get k).state == .failed)
    || s.health.hops != [] || s.health.engines != []
    || ((List.range 48).any fun k => (s.port.lanes.get k).failed)
    || ((List.range 256).any fun k => s.deep.dieFailed.get k)
    || s.deep.bank == .weak || s.deep.bank == .failed || s.clock.xa == .failed

/-- Health Status: bit 0 Maintenance Needed, bit 1 Performance Degraded, bit 2 Hardware Replacement Needed. DEDUCED, log entry 48. -/
def State.healthStatus (s : State) : Nat :=
  b2n s.unitDown + 2 * b2n ((List.range 8).any s.short) + 4 * b2n (s.deep.spare < 1024 || s.deep.bank == .failed)

/-- Media Status: 1 Not Ready during a mount, else 0 Normal. -/
def State.mediaStatus (s : State) : Nat := b2n (s.phase == .booting)

def State.lifeUsed (s : State) : Nat := s.deep.wearUsed / 10

/-- The hottest die in °C, over every sensor. DEDUCED, log entry 48. -/
def State.hottest (s : State) : Int :=
  (s.health.sensors.cells.map fun c => c.2.temp).foldl max s.health.sensors.dflt.temp

/-- What R365 reports alike to every mailbox. -/
def State.vitals (s : State) : List Nat :=
  [s.healthStatus, s.mediaStatus, s.lifeUsed, (BitVec.ofInt 16 s.hottest).toNat, s.deep.dirtyShutdowns]

/-- The 18 bytes of Get Health Info from byte `o`. -/
def State.healthFields (s : State) (src o : Nat) : List Fld :=
  [⟨o, 1, s.healthStatus⟩, ⟨o + 1, 1, s.mediaStatus⟩, ⟨o + 2, 1, 0⟩, ⟨o + 3, 1, s.lifeUsed⟩,
   ⟨o + 4, 2, (BitVec.ofInt 16 s.hottest).toNat⟩, ⟨o + 6, 4, s.deep.dirtyShutdowns⟩,
   ⟨o + 10, 4, if src < 16 then 0 else s.integ.ceCount⟩, ⟨o + 14, 4, 0⟩]

/-- A Memory Module record to one mailbox; `kind` is its device event type. DEDUCED, log entry 48. -/
def State.moduleEvent (s : State) (m kind : Nat) : State :=
  s.post m 0 (Event.of 1003 31 1 (⟨48, 1, kind⟩ :: s.healthFields m 49))

/-- Post Memory Module records where a field of R365 differs from what it was in `s0` (R369). DEDUCED, log entry 48. -/
def State.noteVitals (s s0 : State) : State :=
  if s.vitals = s0.vitals then s
  else
    let kind := if s.lifeUsed ≠ s0.lifeUsed then 2 else if s.hottest ≠ s0.hottest then 3
      else if s.mediaStatus ≠ s0.mediaStatus then 1 else 0
    (fmSrc :: s.enabledLds).foldl (fun s m => s.moduleEvent m kind) s

end Sys2Proof.Machine
end

