-- ==== Sys2Proof/Machine/Store.lean ====
section
/-! DEFINITION. Stored blocks: resolving a DPA to its extent, sack and block (R38), the newest copy of a block (R71),
decoding it, and what the encoder stores for 512 bytes (R103 to R126). -/
namespace Sys2Proof.Machine

/-! ### Extents and sacks (R38) -/

/-- The extent of an LD that covers a DPA, in any state. -/
def State.extAt (s : State) (ld dpa : Nat) : Option Extent :=
  s.ext.exts.find? fun e => e.ld = ld ∧ e.base ≤ dpa ∧ dpa < e.base + e.len

def State.extById (s : State) (eid : Nat) : Option Extent := s.ext.exts.find? fun e => e.eid = eid

def State.modExt (s : State) (eid : Nat) (f : Extent → Extent) : State :=
  { s with ext := { s.ext with exts := s.ext.exts.map fun e => if e.eid = eid then f e else e } }

/-- Sack map index of a DPA in an extent. -/
def State.sackOf (s : State) (e : Extent) (dpa : Nat) : Nat :=
  (s.ext.parts.get e.owner).sliceBase + (e.ownerBase + (dpa - e.base)) / 65536

/-- Block key: 128 × sack map index + block. -/
def State.blkOf (s : State) (e : Extent) (dpa : Nat) : Nat := s.sackOf e dpa * 128 + (dpa - e.base) / 512 % 128

def lineOf (dpa : Nat) : Nat := dpa / 64 % 8

def State.firstSack (s : State) (e : Extent) : Nat := s.sackOf e e.base
def Extent.sacks (e : Extent) : Nat := e.len / 65536

/-- The owner's extent that holds a sack. -/
def State.extOfSack (s : State) (sack : Nat) : Option Extent :=
  s.ext.exts.find? fun e => !e.isAlias && s.firstSack e ≤ sack && sack < s.firstSack e + e.sacks

/-- The DPA of a block in the space of the LD that maps the extent. -/
def State.dpaOf (s : State) (e : Extent) (blk : Nat) : Nat :=
  e.base + (blk / 128 - s.firstSack e) * 65536 + blk % 128 * 512

def State.sack (s : State) (k : Nat) : Sack := s.store.sacks.get k

def State.setSack (s : State) (k : Nat) (v : Sack) : State :=
  { s with store := { s.store with sacks := s.store.sacks.set k v } }

def State.modSack (s : State) (k : Nat) (f : Sack → Sack) : State := s.setSack k (f (s.sack k))

def State.modMrc (s : State) (ld : Nat) (f : MrcLd → MrcLd) : State :=
  { s with store := { s.store with mrc := s.store.mrc.upd ld f } }

/-- May an LD reach a sack through an extent (R42)? -/
def State.mayReach (s : State) (ld : Nat) (e : Extent) (k : Sack) : Bool :=
  k.ldtag == ld || (Prof.shared e.profile && e.ld == ld && s.party k.ldtag == s.party ld && s.party ld ≥ 16)

/-- The isolation event of R42, to the requester and to the FM. -/
def State.isolation (s : State) (ld dpa sack : Nat) : State :=
  let owner := (s.sack sack).ldtag
  (s.post ld 2 (Event.of 3 ld 1 [⟨64, 1, ld⟩, ⟨72, 8, dpa⟩])).post fmSrc 2
    (Event.of 3 ld 1 [⟨64, 1, ld⟩, ⟨65, 1, owner⟩, ⟨80, 4, sack⟩])

/-! ### Dropped and poisoned accesses (R33, Table 2.4) -/

/-- Count a drop in EXT_DROP; outside any served or leaving extent it may post a DPA_DROP event (R33). -/
def State.drop (s : State) (ld dpa : Nat) (write event : Bool) : State :=
  let d := s.ext.drops.get ld
  let d' : DropRegs := { d with wrDrop := if write then bump 32 d.wrDrop 1 else d.wrDrop,
                                rdPoison := if write then d.rdPoison else bump 32 d.rdPoison 1 }
  let due := event && (!d.seen || d.last + ms ≤ s.now)
  let d' := if due then { d' with seen := true, last := s.now } else d'
  let s := { s with ext := { s.ext with drops := s.ext.drops.set ld d' } }
  if due then s.post ld 1 (Event.of 1 ld 1 [⟨64, 8, dpa⟩, ⟨72, 1, b2n write⟩]) else s

/-- How a request to a DPA is treated by the state of its extent (Table 2.4). -/
inductive Access where
  | served (e : Extent)
  | leaving
  | nowhere
  deriving DecidableEq, Repr

def State.access (s : State) (ld dpa : Nat) : Access :=
  match s.extAt ld dpa with
  | none => .nowhere
  | some e =>
    match e.state with
    | .active => .served e
    | .releasing | .withdrawing => .leaving
    | .pending | .discarding => .nowhere

/-! ### The newest copy (R71) -/

/-- Does the T1 copy hold the newest payload of a block? DEDUCED, log entry 12. -/
def Sack.inT1 (k : Sack) (b : Nat) : Bool := k.near && (k.dirty.getLsbD b || k.captured.getLsbD b)

/-- The newest stored image below the merge buffer. DEDUCED, log entry 8. -/
def State.curBlk (s : State) (blk : Nat) : StoredBlk :=
  if (s.sack (blk / 128)).inT1 (blk % 128) then s.store.t1.get blk else s.store.t2.get blk

/-- Change the newest stored image where it lies. DEDUCED, log entry 8. -/
def State.setCur (s : State) (blk : Nat) (v : StoredBlk) : State :=
  if (s.sack (blk / 128)).inT1 (blk % 128) then { s with store := { s.store with t1 := s.store.t1.set blk v } }
  else { s with store := { s.store with t2 := s.store.t2.set blk v } }

def poisonBlk : StoredBlk := { side := { kind := kPoison } }

/-- Mark a block poisoned in its side record, in whichever copies exist. DEDUCED, log entry 56. -/
def State.poisonBlock (s : State) (blk : Nat) : State :=
  { s with store := { s.store with t1 := s.store.t1.set blk poisonBlk, t2 := s.store.t2.set blk poisonBlk } }

def State.isPoison (s : State) (blk : Nat) : Bool :=
  (s.sack (blk / 128)).poison || (s.curBlk blk).side.kind == kPoison

/-- The blocks of a range of sacks that have a stored image. -/
def State.blksIn (s : State) (first count : Nat) : List Nat :=
  let inR := fun k => first * 128 ≤ k && k < (first + count) * 128
  let a := s.store.t1.keys.filter inR
  a ++ (s.store.t2.keys.filter inR).filter fun k => !a.contains k

def State.blksOfExt (s : State) (e : Extent) : List Nat := s.blksIn (s.firstSack e) e.sacks

/-! ### Decoding -/

def TableSet.book (t : TableSet) (gen : Nat) : List (List Nat) := if gen = 0 then t.gen0 else t.gen1

def State.tset (s : State) (p : Word) : TableSet := s.store.sets.get (Prof.tset p)

/-- The 512 bytes of a stored image; none where it reads as poison (R105 to R108, R124). -/
def State.decode (s : State) (p : Word) (b : StoredBlk) : Option Bytes :=
  if b.side.resv ≠ 0 then none
  else match b.side.kind with
  | 0 => some (zeros 512)
  | 1 => if Prof.lossy p then some (lossyDecode (Prof.src p) (Prof.rate p) ((s.tset p).book b.side.gen) b.bytes)
         else losslessDecode b.side.raw b.bytes
  | 2 | 3 => some (fit 512 b.bytes)
  | 4 | 5 => losslessDecode b.side.raw b.bytes
  | _ => none

/-- The newest data of a block below the merge buffer, with no timing: none where it reads as poison. -/
def State.blkData (s : State) (e : Extent) (blk : Nat) : Option Bytes :=
  if (s.sack (blk / 128)).mst = .unmapped then some (zeros 512)
  else if s.isPoison blk then none
  else s.decode e.profile (s.curBlk blk)

/-! ### The merge buffer (R241, R242) -/

def State.mergesOf (s : State) (blk : Nat) : List MergeEnt := s.store.merges.filter fun m => m.blk = blk

/-- A block's 512 bytes with merge-buffer bytes laid over what is below, oldest entry first. -/
def overMerge (ms : List MergeEnt) (below : Bytes) : Bytes := ms.foldl (fun d m => maskBytes m.valid 0 d m.data) below

/-- The valid bytes of a block over all its entries. -/
def mergedValid (ms : List MergeEnt) : BitVec 512 := ms.foldl (fun v m => v ||| m.valid) 0

/-- The byte mask of one line. -/
def lineMask (line : Nat) : BitVec 512 := BitVec.ofNat 512 ((2 ^ 64 - 1) * 2 ^ (64 * line))

/-- The newest data of a block, merge buffer included: none where it reads as poison. -/
def State.newest (s : State) (e : Extent) (blk : Nat) : Option Bytes :=
  let ms := s.mergesOf blk
  if mergedValid ms = BitVec.allOnes 512 then some (overMerge ms (zeros 512))
  else (s.blkData e blk).map (overMerge ms)

/-! ### Reservation use (Table 2.3) -/

/-- Spillway bytes that a block holds: an exact copy is 512 bytes, a spill run its granules. -/
def spillUse (r : SideRec) : Nat :=
  if r.kind = kEscape then 512 else if r.kind = kWhole ∨ r.kind = kSplit then 64 * r.gran else 0

def State.usedSpill (s : State) (e : Extent) : Nat :=
  if e.isAlias then 0 else ((s.blksOfExt e).map fun b => spillUse (s.curBlk b).side).foldl (· + ·) 0

/-- Allocated sacks of an extent. -/
def State.mappedSacks (s : State) (e : Extent) : List Nat :=
  s.store.sacks.keys.filter fun k => s.firstSack e ≤ k && k < s.firstSack e + e.sacks && (s.sack k).tier != .none

def State.usedPayload (s : State) (e : Extent) : Nat :=
  if e.isAlias then 0 else ((s.mappedSacks e).map fun k => ((s.sack k).size + 1) * 8192).foldl (· + ·) 0

/-! ### Spill pools (R126) -/

/-- The pool runs of a sack but one block's: block, offset, granules. -/
def State.poolRuns (s : State) (sack skip : Nat) : List (Nat × Nat × Nat) :=
  ((s.blksIn sack 1).filter fun b => b ≠ skip).filterMap fun b =>
    let r := (s.curBlk b).side
    if r.kind = kWhole ∨ r.kind = kSplit then some (b, r.spoff, r.gran) else none

def insertRun (r : Nat × Nat × Nat) : List (Nat × Nat × Nat) → List (Nat × Nat × Nat)
  | [] => [r]
  | q :: qs => if r.2.1 ≤ q.2.1 then r :: q :: qs else q :: insertRun r qs

/-- Lowest gap of `need` units in runs sorted by offset, below `limit`. DESIGN CHOICE, log entry 10. -/
def firstGap (need limit : Nat) : Nat → List (Nat × Nat) → Option Nat
  | at_, [] => if at_ + need ≤ limit then some at_ else none
  | at_, (off, len) :: rest => if at_ + need ≤ off then some at_ else firstGap need limit (max at_ (off + len)) rest

/-- Move every run towards offset 0 in order of offset (step 1 of R126). -/
def State.compactPool (s : State) : Nat → List (Nat × Nat × Nat) → State
  | _, [] => s
  | at_, (b, off, g) :: rest =>
    let v := s.curBlk b
    let s := if off = at_ then s else s.setCur b { v with side := { v.side with spoff := at_ } }
    s.compactPool (at_ + g) rest

def runsTotal (rs : List (Nat × Nat × Nat)) : Nat := (rs.map fun r => r.2.2).foldl (· + ·) 0

/-- The WHOLE block of a sack written longest ago. -/
def State.oldestWhole (s : State) (rs : List (Nat × Nat × Nat)) : Option Nat :=
  (rs.filter fun r => (s.curBlk r.1).side.kind == kWhole).foldl (fun a r =>
    match a with
    | none => some r.1
    | some b => if (s.curBlk r.1).order < (s.curBlk b).order then some r.1 else a) none

def granules (n : Nat) : Nat := (n + 63) / 64

/-- The endurance credit at this moment: B in 0.1 GB/s adds B bytes in every 10 ns, up to 4 TiB (R251). -/
def State.creditNow (s : State) : Int := min (s.deep.credit + (s.deep.budget * ((s.now - s.deep.creditAt) / 10) : Nat)) 4398046511104

/-- Bring the credit up to this moment. -/
def State.refill (s : State) : State :=
  { s with deep := { s.deep with credit := s.creditNow, creditAt := s.now - (s.now - s.deep.creditAt) % 10 } }

/-- Charge slot images to the endurance credit (R251). -/
def State.chargeSlots (s : State) (n : Nat) : State :=
  let s := s.refill
  { s with deep := { s.deep with credit := s.deep.credit - (n * 8192 : Nat), charged := s.deep.charged + n * 8192 } }

/-- Charge the programs of `n` bytes of a store of Table 10.2, in class 7 (R251). DEDUCED, log entry 52. -/
def State.chargeStore (s : State) (n : Nat) : State :=
  let k := (n + 8191) / 8192
  (s.chargeSlots k).noteServed 7 2 (k * 8192)

/-- Charge one slot image and begin its program (R251). -/
def State.programImage (s : State) (slot : Nat) : State :=
  let s := s.chargeStore 8192
  { s with deep := { s.deep with
    programming := if s.deep.programming.contains slot then s.deep.programming else s.deep.programming ++ [slot] } }

/-- Put a block's image where its sack keeps it: its frame position, with DIRTY set, or T2 (R77, R84). -/
def State.storeImage (s : State) (blk : Nat) (v : StoredBlk) : State :=
  let k := s.sack (blk / 128)
  if k.near then
    let since := if k.durable && !k.dirty.getLsbD (blk % 128) then s.store.dirtySince.set blk s.now else s.store.dirtySince
    ({ s with store := { s.store with t1 := s.store.t1.set blk v, dirtySince := since } }).setSack (blk / 128) { k with
      dirty := k.dirty ||| BitVec.ofNat 128 (2 ^ (blk % 128)), mst := if k.mst = Mst.clean then .dirty else k.mst }
  else { s with store := { s.store with t2 := s.store.t2.set blk v } }

/-- Convert WHOLE blocks to SPLIT, oldest first, until `need` granules are free (step 2 of R126). The first S bytes go to the block's
slot, and what is left stays at the run's place until the compaction. DESIGN CHOICE, log entry 99. -/
def State.convertPool (s : State) (ld sack skip slot pool need : Nat) : Nat → State
  | 0 => s
  | fuel + 1 =>
    let rs := s.poolRuns sack skip
    if need ≤ pool - runsTotal rs then s
    else match s.oldestWhole rs with
      | none => s
      | some b =>
        let v := s.curBlk b
        let s := s.storeImage b { v with side := { v.side with kind := kSplit, gran := granules (v.bytes.length - slot) } }
        let s := if (s.sack sack).near then s else s.programImage ((s.sack sack).slot + b % 128 * slot / 8192)
        (s.modMrc ld fun m => { m with convert := bump 16 m.convert 1 }).convertPool ld sack skip slot pool need fuel

/-- Compact a sack's pool and take a run of `need` granules behind the others, if so many are free. -/
def State.poolPack (s : State) (ld sack skip pool need : Nat) : Option (Nat × State) :=
  let rs := (s.poolRuns sack skip).foldr insertRun []
  if runsTotal rs + need ≤ pool then
    some (runsTotal rs, (s.compactPool 0 rs).modMrc ld fun m => { m with compact := bump 16 m.compact 1 })
  else none

/-- Take a run of `need` granules in a sack's pool, compacting where no gap fits. -/
def State.poolTake (s : State) (ld sack skip pool need : Nat) : Option (Nat × State) :=
  let rs := (s.poolRuns sack skip).foldr insertRun []
  match firstGap need pool 0 (rs.map fun r => r.2) with
  | some off => some (off, s)
  | none => s.poolPack ld sack skip pool need

/-- What a lossless block longer than its slot becomes (R126). -/
def State.overflow (s : State) (e : Extent) (blk : Nat) (enc : Bytes) (raw : Bool) (order : Nat) : StoredBlk × State :=
  let sack := blk / 128
  let slot := Prof.unit e.profile
  let pool := 2 * (512 - slot)
  let need := granules enc.length
  let s := s.modMrc e.owner fun m => { m with overflow := bump 32 m.overflow 1 }
  let whole := fun (r : Nat × State) =>
    (({ side := { kind := kWhole, raw := raw, gran := need, spoff := r.1 }, bytes := enc, order := order } : StoredBlk), r.2)
  match s.poolTake e.owner sack blk pool need with
  | some r => whole r
  | none =>
    let s := s.convertPool e.owner sack blk slot pool need 128
    match s.poolPack e.owner sack blk pool need with
    | some r => whole r
    | none =>
      let need' := granules (enc.length - slot)
      match s.poolTake e.owner sack blk pool need' with
      | some (off, s) => ({ side := { kind := kSplit, raw := raw, gran := need', spoff := off }, bytes := enc, order := order }, s)
      | none => ({ side := { kind := kSplit, raw := raw, gran := need', spoff := 0 }, bytes := enc, order := order }, s)

/-! ### The encoder (R108, R112 to R117, R125) -/

/-- Units of the escape share or staging part in use by other blocks of an extent. -/
def State.unitsUsed (s : State) (e : Extent) (kind skip : Nat) : List Nat :=
  (((s.blksOfExt e).filter fun b => b ≠ skip).filter fun b => (s.curBlk b).side.kind == kind).map
    fun b => (s.curBlk b).side.spoff

/-- The lowest number below `n` that is not in the list. DESIGN CHOICE, log entry 10. -/
def lowestFree (used : List Nat) (n : Nat) : Option Nat := firstGap 1 n 0
  (((used.map fun u => (0, u, 1)).foldr insertRun []).map fun r => r.2)

/-- Does the set named by a profile have a current generation? -/
def TableSet.hasGen (t : TableSet) : Bool := t.state == .ready || t.state == .recoding

/-- The precision event of R115: the first after BLT_ESC.PRECISION was cleared, then at most one a millisecond. -/
def State.precisionEvent (s : State) (ld dpa : Nat) : State :=
  let m := s.store.mrc.get ld
  let due := !m.precSeen || m.precLast + ms ≤ s.now
  let s := s.modMrc ld fun m =>
    { m with precision := bump 32 m.precision 1, precSeen := true, precLast := if due then s.now else m.precLast }
  if due then s.post ld 1 (Event.of 6 ld 1 [⟨64, 8, dpa⟩]) else s

/-- The owner's extent of a block that is reached through an extent. -/
def State.homeExt (s : State) (e : Extent) (blk : Nat) : Extent := (s.extOfSack (blk / 128)).getD e

/-- What the encoder stores for a block's 512 bytes; none where no staging unit is free (R117). -/
def State.encode (s : State) (e : Extent) (blk : Nat) (data : Bytes) (order : Nat) : Option (StoredBlk × State) :=
  let e := s.homeExt e blk
  let p := e.profile
  if data.all (· == 0) then some ({ order := order }, s)
  else if Prof.lossy p then
    let t := s.tset p
    if t.hasGen then
      let cb := t.book t.cur
      let payload := lossyPayload (Prof.src p) (Prof.rate p) cb data
      let coded : Bool → StoredBlk := fun prec =>
        { side := { kind := kCoded, gen := t.cur, prec := prec }, bytes := payload, order := order }
      if boundOk (Prof.src p) (Prof.bound p) cb data then some (coded false, s)
      else match lowestFree (s.unitsUsed e kEscape blk) (e.resvSpill / 512) with
        | some u =>
          some ({ side := { kind := kEscape, spoff := u }, bytes := data, order := order },
                s.modMrc e.owner fun m => { m with escapes := bump 32 m.escapes 1 })
        | none => some (coded true, s.precisionEvent e.owner (s.dpaOf e blk))
    else match lowestFree (s.unitsUsed e kStaged blk) (e.resvStage / 512) with
      | some u =>
        let st : TableSet := { t with lastStaged := s.now }
        some ({ side := { kind := kStaged, spoff := u }, bytes := data, order := order },
              { s with store := { s.store with sets := s.store.sets.set (Prof.tset p) st } })
      | none => none
  else
    let (enc, raw) := losslessEncode data
    if enc.length ≤ Prof.unit p then
      some ({ side := { kind := kCoded, raw := raw }, bytes := fit (Prof.unit p) enc, order := order }, s)
    else some (s.overflow e blk enc raw order)

/-- Recompute SPILL of a sack: some block has a spillway redirect. A STAGED block counts as none. DESIGN CHOICE, log entry 99. -/
def State.fixSpill (s : State) (sack : Nat) : State :=
  s.modSack sack fun k => { k with spill := (s.blksIn sack 1).any fun b =>
    let r := (s.curBlk b).side
    r.kind == kEscape || r.kind == kWhole || r.kind == kSplit }

/-! ### Live figures of the codec -/

/-- The plain-map mark of a side array unit of a near sack (R109): records of 64 blocks from `64 u`. -/
def State.plainMark (s : State) (e : Extent) (sack u : Nat) : Nat :=
  let rs := (List.range 64).map fun i => (s.curBlk (sack * 128 + 64 * u + i)).side
  if rs.all fun r => r.kind == kZero then 1
  else if Prof.lossy e.profile then
    if rs.all fun r => r.kind == kCoded && r.gen == 0 && !r.prec then 2
    else if rs.all fun r => r.kind == kCoded && r.gen == 1 && !r.prec then 3 else 0
  else if rs.all fun r => r.kind == kCoded && !r.raw then 2
  else if rs.all fun r => r.kind == kCoded && r.raw then 3 else 0

/-! ### The codec cache (R110) -/

/-- Keys of the codec cache entries of a block: its side array unit, and the spillway copy of the block. A sack has 130 keys. -/
def cacheUnit (blk : Nat) : Nat := 65 * (blk / 64)
def cacheCopy (blk : Nat) : Nat := 65 * (blk / 64) + 1 + blk % 64

/-- Granules of a block's spillway copy. -/
def copyGranules (r : SideRec) : Nat :=
  if r.kind = kStaged ∨ r.kind = kEscape then 8 else if r.kind = kWhole ∨ r.kind = kSplit then r.gran else 0

/-- The entries that a near sack has in the codec cache when none is missing: key and granules; 8 for a non-plain unit. -/
def State.cacheEnts (s : State) (sack : Nat) : List (Nat × Nat) :=
  match s.extOfSack sack with
  | none => []
  | some e =>
    (((List.range 2).filter fun u => s.plainMark e sack u == 0).map fun u => (cacheUnit (128 * sack + 64 * u), 8))
      ++ ((s.blksIn sack 1).map fun b => (cacheCopy b, copyGranules (s.curBlk b).side)).filter fun x => x.2 != 0

/-- Granules of the codec cache that a near sack takes. -/
def State.cacheOf (s : State) (sack : Nat) : Nat :=
  (((s.cacheEnts sack).filter fun x => !s.store.cacheMissing.contains x.1).map Prod.snd).foldl (· + ·) 0

def State.nearSacks (s : State) : List Nat := s.store.sacks.keys.filter fun k => (s.sack k).tier == .t1

def State.cacheUsed (s : State) : Nat := (s.nearSacks.map s.cacheOf).foldl (· + ·) 0

/-- Does a held read or a running gate operation need an entry? -/
def State.cacheNeeded (s : State) (key : Nat) : Bool :=
  (s.store.heldReads.any fun r => r.blk / 64 == key / 65)
    || s.store.holds.any fun h => h.sack == key / 130 && (match h.who with | .op _ _ => true | _ => false)

/-- Mark the entries that a read of a block uses. -/
def State.cacheUse (s : State) (blk : Nat) : State :=
  { s with store := { s.store with
    cacheUsed_ := cacheUnit blk :: cacheCopy blk :: s.store.cacheUsed_.filter fun x => x ≠ cacheUnit blk ∧ x ≠ cacheCopy blk } }

/-- Has an entry changed since it was brought in: has one of its blocks been written? -/
def State.cacheChanged (s : State) (key : Nat) : Bool :=
  let k := s.sack (key / 130)
  if key % 65 = 0 then (List.range 64).any fun i => k.inT1 (key / 65 % 2 * 64 + i)
  else k.inT1 (key / 65 % 2 * 64 + key % 65 - 1)

/-- The deep slot of the codec area that holds an entry (Table 5.1). -/
def State.areaSlot (s : State) (e : Extent) (key : Nat) : Nat :=
  let sack := key / 130 - s.firstSack e
  let side := e.len / 64
  let off := if key % 65 = 0 then 8 * (128 * sack + key / 65 % 2 * 64)
    else
      let r := (s.curBlk (128 * (key / 130) + key / 65 % 2 * 64 + key % 65 - 1)).side
      if r.kind = kEscape then side + 512 * r.spoff
      else if r.kind = kStaged then side + e.len / 32 + 512 * r.spoff
      else side + sack * 128 * (512 - Prof.unit e.profile) + 64 * r.spoff
  e.codec + off / 8192

/-- Write a changed entry to the codec area before its granules are used again. -/
def State.cacheSave (s : State) (key : Nat) : State :=
  match s.extOfSack (key / 130) with
  | none => s
  | some e => if s.cacheChanged key then s.programImage (s.areaSlot e key) else s

/-- The entry that the clock scan stands at: the first at or after its position that may be replaced, else the first of all. -/
def State.cachePick (s : State) : Option Nat :=
  let keys := ((s.nearSacks.flatMap fun k => (s.cacheEnts k).map Prod.fst).filter fun x =>
    !s.store.cacheMissing.contains x && !s.cacheNeeded x)
  match keys.filter fun x => s.store.cacheHand ≤ x with
  | [] => keys.min?
  | later => later.min?

/-- Replace codec cache entries while the cache is over its size, by a clock scan that passes over an entry used since it came by
(R110). DESIGN CHOICE, log entry 98. -/
def State.cacheTrim (s : State) : Nat → State
  | 0 => s
  | fuel + 1 =>
    if s.cacheUsed ≤ 11534336 then s
    else match s.cachePick with
      | none => s
      | some x =>
        if s.store.cacheUsed_.contains x then
          ({ s with store := { s.store with cacheUsed_ := s.store.cacheUsed_.filter (· ≠ x), cacheHand := x + 1 } }).cacheTrim fuel
        else
          let s := s.cacheSave x
          ({ s with store := { s.store with cacheMissing := x :: s.store.cacheMissing, cacheHand := x + 1,
                                            cacheReplaced := bump 32 s.store.cacheReplaced 1 } }).cacheTrim fuel

end Sys2Proof.Machine
end

