-- ==== Sys2Proof/Machine/Errors.lean ====
section
/-! DEFINITION. Correctable and uncorrectable errors: the tables, logs, events and losses of R272 to R277. -/
namespace Sys2Proof.Machine

def State.modInteg (s : State) (f : IntegSt → IntegSt) : State := { s with integ := f s.integ }

def State.modIntegLd (s : State) (ld : Nat) (f : IntegLd → IntegLd) : State :=
  s.modInteg fun i => { i with lds := i.lds.upd ld f }

/-! ### Correctable errors (R272, R273) -/

/-- The location that an entry is kept under: for the near tier the row, without the column. DEDUCED, log entry 13. -/
def ceKey (unit loc : Nat) : Nat := if unit = 0 then loc % 2 ^ 29 else loc

/-- The entry that R272 replaces in a full table: lowest COUNT, then oldest LAST, without HARD. -/
def ceVictim (es : List CeEnt) : Option CeEnt :=
  (es.filter fun e => !e.hard).foldl (fun a e =>
    match a with
    | none => some e
    | some b => if e.count < b.count ∨ (e.count = b.count ∧ e.last < b.last) then some e else a) none

/-- An entry's fields as Table 11.3 lays them out. -/
def CeEnt.fields (e : CeEnt) : List Fld :=
  [⟨0, 8, e.loc⟩, ⟨8, 4, e.count⟩, ⟨12, 1, e.bit⟩, ⟨13, 1, b2n e.hard + 2 * b2n e.thresh + 4 * b2n e.retired⟩,
   ⟨14, 1, e.unit⟩, ⟨16, 8, e.first⟩, ⟨24, 8, e.last⟩]

def shiftFlds (n : Nat) (fs : List Fld) : List Fld := fs.map fun f => { f with off := f.off + n }

/-- The fields of a DRAM record (R369) for a near-tier location of Table 11.4, at the places of the CXL record. -/
def dramFlds (loc : Nat) (uncorrectable : Bool) : List Fld :=
  [⟨56, 1, b2n uncorrectable⟩, ⟨59, 2, 0x7B⟩, ⟨61, 1, bitsOf loc 6 4⟩, ⟨62, 1, bitsOf loc 7 7⟩, ⟨66, 1, bitsOf loc 12 10⟩,
   ⟨67, 1, bitsOf loc 9 8⟩, ⟨68, 3, bitsOf loc 28 13⟩, ⟨71, 2, bitsOf loc 33 29⟩, ⟨105, 1, bitsOf loc 3 0⟩]

/-- The report of an entry that becomes HARD or THRESH: a DRAM record or CE_REPORT to the FM (R273, R369). -/
def State.ceReport (s : State) (e : CeEnt) : State :=
  s.post fmSrc 1 (if e.unit = 0 then Event.of 1002 31 1 (dramFlds e.loc false) else Event.of 18 31 1 (shiftFlds 64 e.fields))

/-- Record one correction. `fix` says that the location is written back corrected at once. -/
def State.correct (s : State) (unit loc bit : Nat) (fix : Bool) : State :=
  let t := s.timeOf fmSrc
  let key := ceKey unit loc
  let s := (s.modInteg fun i => { i with ceCount := bump 32 i.ceCount 1 }).moduleEvent fmSrc 0
  match s.integ.ce.find? fun e => e.unit = unit ∧ ceKey unit e.loc = key with
  | some e =>
    let hard := e.hard || (e.rewritten && e.bit == bit)
    let thresh := e.thresh || (decide (8 ≤ e.count + 1) && decide (t ≤ e.first + 24 * 3600 * sec))
    let e' := { e with loc := loc, count := bump 32 e.count 1, bit := bit, hard := hard, thresh := thresh, last := t, rewritten := fix }
    let s := s.modInteg fun i => { i with ce := i.ce.map fun x => if x = e then e' else x }
    if !(e.hard || e.thresh) && (hard || thresh) && !e.retired then s.ceReport e' else s
  | none =>
    let e : CeEnt := { unit := unit, loc := loc, count := 1, bit := bit, hard := false, thresh := false, retired := false,
                       first := t, last := t, rewritten := fix }
    if s.integ.ce.length < 4096 then s.modInteg fun i => { i with ce := i.ce ++ [e] }
    else match ceVictim s.integ.ce with
      | some v => s.modInteg fun i => { i with ce := (i.ce.filter (· ≠ v)) ++ [e] }
      | none => s.modInteg fun i => { i with ceLost := bump 16 i.ceLost 1 }

/-- A location is written with corrected or new data (R273). -/
def State.rewrite (s : State) (unit loc : Nat) : State :=
  s.modInteg fun i => { i with ce := i.ce.map fun e => if e.unit = unit ∧ ceKey unit e.loc = ceKey unit loc then { e with rewritten := true } else e }

/-! ### Uncorrectable errors (R274 to R277) -/

def UeRec.fields (r : UeRec) : List Fld :=
  [⟨0, 1, r.unit⟩, ⟨1, 1, r.access⟩, ⟨2, 1, r.outcome⟩, ⟨3, 1, r.ld⟩, ⟨8, 8, r.loc⟩, ⟨16, 8, r.dpa⟩, ⟨24, 8, r.time⟩]

/-- The events of a loss: to the owning LD (at most 64 in a second, R277) and to the FM. DEDUCED, log entry 33. -/
def State.lossPosts (s : State) (r : UeRec) : List Post × State :=
  let fm : Post := ⟨fmSrc, 2, if r.unit = 0 then Event.of 1002 r.ld 1 (dramFlds r.loc true ++ [⟨48, 8, r.dpa⟩]) else Event.of 19 r.ld 1 (shiftFlds 64 r.fields)⟩
  if 16 ≤ r.ld then ([fm], s)
  else
    let l := s.integ.lds.get r.ld
    let fresh := l.second + sec ≤ s.now
    let late : List Post := if fresh ∧ 64 < l.inSecond then [⟨r.ld, 1, Event.of 21 r.ld (l.inSecond - 64) []⟩] else []
    let n := if fresh then 1 else l.inSecond + 1
    let own : List Post := if n ≤ 64 then [⟨r.ld, 2, Event.of 1001 r.ld 1 [⟨48, 8, r.dpa⟩, ⟨56, 1, 1⟩]⟩] else []
    (late ++ own ++ [fm], s.modIntegLd r.ld fun l => { l with second := if fresh then s.now else l.second, inSecond := n })

/-- Log an uncorrectable error and its ledger record; a loss posts its events with the record (R277, R301). -/
def State.ueLog (s : State) (unit loc access outcome ld dpa : Nat) : State :=
  let r : UeRec := { unit := unit, loc := loc, access := access, outcome := outcome, ld := ld, dpa := dpa, time := s.timeOf fmSrc }
  let s := s.modInteg fun i => { i with ue := (i.ue ++ [r]).drop (i.ue.length + 1 - 1024) }
  let (posts, s) := if outcome = 1 then s.lossPosts r else ([], s)
  s.ledger (LedgerRec.of 10 (match unit with | 0 => 3 | 1 => 1 | _ => 6) (match unit with | 0 => loc % 16 | 1 => loc % 256 | _ => 0) ld (leNat (layout 16 (r.fields.take 4)))) posts

/-- A repair from another copy (INT_UE.REPAIRED). -/
def State.repaired (s : State) (unit loc access ld dpa : Nat) : State :=
  (s.modInteg fun i => { i with repaired := bump 32 i.repaired 1 }).ueLog unit loc access 0 ld dpa

/-- The loss of a block: poisoned in its side record, counted for the module and its LD (R274). -/
def State.lose (s : State) (e : Extent) (blk unit loc access : Nat) : State :=
  let s := s.poisonBlock blk
  let s := s.modInteg fun i => { i with lost := bump 32 i.lost 1 }
  let s := s.modIntegLd e.owner fun l => { l with lost := bump 32 l.lost 1 }
  s.ueLog unit loc access 1 e.owner (s.dpaOf e blk)

/-! ### Error patterns in the near tier (R266, R278) -/

/-- The pattern stored in a word of a block's T1 payload. -/
def State.errOf (s : State) (blk word : Nat) : Nat :=
  match s.store.errs.find? fun p => p.blk = blk ∧ p.word = word with
  | some p => p.mask
  | none => 0

def State.setErr (s : State) (blk word mask : Nat) : State :=
  let rest := s.store.errs.filter fun p => ¬ (p.blk = blk ∧ p.word = word)
  { s with store := { s.store with errs := if mask = 0 then rest else { blk := blk, word := word, mask := mask } :: rest } }

def State.clearErrs (s : State) (blk : Nat) : State :=
  { s with store := { s.store with errs := s.store.errs.filter fun p => p.blk ≠ blk } }

/-- Where word `w` of a block's T1 payload lies (R228, R231, Table 11.4). DEDUCED, log entry 13. -/
def State.wordLoc (s : State) (blk w : Nat) : Nat :=
  let k := s.sack (blk / 128)
  let unit := match s.extOfSack (blk / 128) with | some e => Prof.unit e.profile | none => 512
  let byte := blk % 128 * unit + 8 * w
  nearLoc k.stack (lineAt s.near.bankhash (128 * k.frame + byte / 64))

end Sys2Proof.Machine
end

