-- ==== Sys2Proof/Machine/Mill.lean ====
section
/-! DEFINITION. The millrace: placement, holds, migration channels, the sack state machine, and the service of reads
(chapters 04 and 11), as shared operations. -/
namespace Sys2Proof.Machine

def State.modStore (s : State) (f : StoreSt → StoreSt) : State := { s with store := f s.store }

def State.modStack (s : State) (k : Nat) (f : Stack → Stack) : State :=
  { s with near := { s.near with stks := s.near.stks.upd k f } }

/-! ### Frames (R72, R74, R75, R280, R281) -/

/-- Cache frames of one healthy stack: C of R72 over the healthy stacks. -/
def State.framesPerStack (s : State) : Nat :=
  let h := s.healthyStacks.length
  if h = 0 then 0
  else (61083746304 * h - (49 * GiB + 64 * MiB) - 256 * MiB) * 128 / 129 / 8192 / h

/-- Does a frame hold a line of a stack's retired bank (R281)? The bank is its place in the hashed slot index. -/
def State.frameInBank (s : State) (stack f : Nat) : Bool :=
  match (s.near.stks.get stack).retiredBank with
  | none => false
  | some b => hashedSlot s.near.bankhash (128 * f % 512) (128 * f / 512) / 128 == b / 128

def State.frameRetired (s : State) (stack f : Nat) : Bool :=
  (s.near.stks.get stack).retiredFrames.contains f || s.frameInBank stack f

/-- Runs of frames in use on a stack: first frame and length, rising. -/
def State.frameRuns (s : State) (stack : Nat) : List (Nat × Nat) :=
  (((s.store.sacks.cells.filter fun c => c.2.near && c.2.stack == stack).map fun c =>
    (c.1, c.2.frame, c.2.size + 1)).foldr insertRun []).map fun r => r.2

/-- The lowest run of free, unretired frames. -/
def State.gapFrom (s : State) (stack need limit : Nat) (runs : List (Nat × Nat)) : Nat → Nat → Option Nat
  | 0, _ => none
  | fuel + 1, lo =>
    match firstGap need limit lo (runs.filter fun r => lo < r.1 + r.2) with
    | none => none
    | some f =>
      match (List.range need).find? fun i => s.frameRetired stack (f + i) with
      | none => some f
      | some i => s.gapFrom stack need limit runs fuel (f + i + 1)

/-- DESIGN CHOICE, log entry 10. -/
def State.freeRun (s : State) (stack need : Nat) : Option Nat :=
  if s.stackOk stack then s.gapFrom stack need s.framesPerStack (s.frameRuns stack) 4096 0 else none

def State.retiredCount (s : State) (stack : Nat) : Nat :=
  let k := s.near.stks.get stack
  k.retiredFrames.length + (if k.retiredBank.isSome then 1864128 else 0)

def State.freeFrames (s : State) (stack : Nat) : Nat :=
  s.framesPerStack - ((s.frameRuns stack).map Prod.snd).foldl (· + ·) 0 - s.retiredCount stack

/-- The stacks of a die in the order that R74 tries them: the named one, then the others by free frames. -/
def State.dieOrder (s : State) (d sack : Nat) : List Nat :=
  let p := 3 * d + sack % 3
  let rest := (dieStacks d).filter fun k => k ≠ p
  p :: (match rest with
    | [a, b] => if s.freeFrames a < s.freeFrames b then [b, a] else [a, b]
    | r => r)

/-- The stacks that R74 tries for a sack, in order. -/
def State.placeOrder (s : State) (die : Option Nat) (affinity sack : Nat) : List Nat :=
  match (match die with | some d => some d | none => if affinity < 4 then some affinity else none) with
  | some d => ((List.range 4).flatMap fun i => s.dieOrder ((d + i) % 4) sack).filter s.stackOk
  | none =>
    let h := s.healthyStacks
    if h.isEmpty then [] else h.drop (sack % h.length) ++ h.take (sack % h.length)

/-- Stack and frame for a new T1 copy, and whether it lies off the chosen die (R74). -/
def State.place (s : State) (die : Option Nat) (affinity sack need : Nat) : Option (Nat × Nat × Bool) :=
  let chosen := match die with | some d => some d | none => if affinity < 4 then some affinity else none
  ((s.placeOrder die affinity sack).findSome? fun k => (s.freeRun k need).map fun f => (k, f)).map fun r =>
    (r.1, r.2, match chosen with | some d => stackDie r.1 != d | none => false)

/-! ### Holds (R80, Table 4.4) -/

/-- DEDUCED, log entry 9. -/
def State.useCount (s : State) (sack ld : Nat) : Nat := (s.store.holds.filter fun h => h.sack = sack ∧ h.ld = ld).length
def State.held (s : State) (sack : Nat) : Bool := s.store.holds.any fun h => h.sack == sack
def State.inXfer (s : State) (sack : Nat) : Bool := s.store.xfers.any fun x => x.sack == sack

/-- Can a sack be a victim (R75)? -/
def State.canVictim (s : State) (sack : Nat) : Bool :=
  let m := (s.sack sack).mst
  (m == .clean || m == .dirty || m == .specClean) && !s.held sack && !s.inXfer sack

/-- Is there any victim on a healthy stack (R76)? -/
def State.anyVictim (s : State) : Bool :=
  s.store.sacks.keys.any fun k => s.canVictim k && s.stackOk (s.sack k).stack

/-- Count an eviction that became a no-op (R81). -/
def State.evictNoop (s : State) (ld : Nat) : State := s.modMrc ld fun m => { m with evictNoop := bump 32 m.evictNoop 1 }

/-- Confirm a speculative copy (R97): SPEC cleared, the issuing wheel takes its hold. -/
def State.confirm (s : State) (sack : Nat) : State :=
  let k := s.sack sack
  if k.spec then
    let w := k.swheel
    let s := s.setSack sack { k with
      spec := false
      swheel := 0
      mst := match k.mst with | .specClean => .clean | .specPromoting => .promoting | m => m }
    let s := s.modStore fun st => { st with
      xfers := st.xfers.map fun x => if x.sack = sack ∧ x.kind = .spec then { x with kind := .promote } else x
      holds := if st.holds.any fun h => h.sack == sack && h.who == .wheel w then st.holds
               else { sack := sack, ld := w / 16, who := .wheel w } :: st.holds }
    s.modMrc (w / 16) fun m => { m with specConfirmed := bump 32 m.specConfirmed 1 }
  else s

/-- What a read, a write or a hold does to a sack near or on its way (Table 4.3). -/
def State.touch (s : State) (sack ld : Nat) : State :=
  let s := s.confirm sack
  let k := s.sack sack
  match k.mst with
  | .demoting => (s.setSack sack { k with mst := .clean }).evictNoop ld
  | .writeback => if k.evict then (s.setSack sack { k with evict := false }).evictNoop ld else s
  | _ => s

/-- Take a hold: one at most for each wheel, operation or bin (R80). -/
def State.addHold (s : State) (sack ld : Nat) (who : Holder) : State :=
  if s.store.holds.any fun h => h.sack == sack && h.who == who then s
  else (s.touch sack ld).modStore fun st => { st with holds := { sack := sack, ld := ld, who := who } :: st.holds }

def State.dropHolds (s : State) (p : Hold → Bool) : State :=
  s.modStore fun st => { st with holds := st.holds.filter fun h => !p h }

/-! ### Migration channels (R100) -/

/-- A stream entry as it is taken for an LD (Table 8.1). -/
def State.newStream (s : State) (ld cls : Nat) : StreamMeta := { cls := cls, opened := s.timeOf ld, lastuse := s.timeOf ld }

/-- Charge a request that moves bytes to a stream entry (Table 8.1). -/
def StreamMeta.use (m : StreamMeta) (cls n time : Nat) : StreamMeta := { m with cls := cls, bytes := bump 40 m.bytes n, lastuse := time }

/-- The weir that a transfer arrives at first: DEEPRD for a promotion, DEEPPG for a write-back. -/
def XferKind.weir (k : XferKind) : Nat := if k == .promote || k == .spec then 1 else 2
def Xfer.weirOf (x : Xfer) : Nat := x.kind.weir

/-- A transfer as it is queued, with its MIGRATION stream entry (R208). -/
def State.newXfer (s : State) (sack : Nat) (kind : XferKind) (eid ld cls : Nat) : Xfer :=
  { sack := sack, kind := kind, chan := none, eid := eid, demand := false, start := s.now, ld := ld, cls := cls,
    inG := s.inGuar ld kind.weir cls, strm := s.newStream ld cls }

def Xfer.range (x : Xfer) : Nat × Nat := if x.kind == .victimWriteback || x.demand then (0, 32) else (32, 96)

/-- Does a transfer hold a MIGRATION stream entry: of 393,216, the last 32,768 are kept for demand promotions (Table 8.3)? -/
def State.migrEntry (s : State) (x : Xfer) : Bool :=
  decide (s.store.xfers.findIdx (fun y => y.sack == x.sack) < (if x.demand then 393216 else 360448))

/-- A free channel for a transfer that holds a stream entry: 0 to 31 demand and victim write-backs, 32 to 127 the rest, 16
speculative. -/
def State.freeChan (s : State) (x : Xfer) : Option Nat :=
  let specs := (s.store.xfers.filter fun y => y.kind == .spec && y.chan.isSome).length
  if (x.kind = .spec ∧ 16 ≤ specs) ∨ s.migrEntry x = false then none
  else (((List.range x.range.2).map (· + x.range.1)).find? fun c => !(s.store.xfers.any fun y => y.chan == some c))

def State.xferOf (s : State) (sack : Nat) : Option Xfer := s.store.xfers.find? fun x => x.sack = sack

/-- Has a sack a transfer that is issued? -/
def State.issuedXfer (s : State) (sack : Nat) : Bool := s.store.xfers.any fun x => x.sack == sack && x.chan.isSome

/-- Put a transfer on the list, in the place of its sack's transfer if it has one. -/
def State.putXfer (s : State) (x : Xfer) : State :=
  s.modStore fun st => { st with
    xfers := if st.xfers.any fun y => y.sack == x.sack then st.xfers.map fun y => if y.sack = x.sack then x else y
             else st.xfers ++ [x] }

/-- Did a transfer of a class that waits for a channel wait because the class had used its share (Table 3.5)? -/
def State.waitsOn (s : State) (x : Xfer) : Xfer :=
  { x with busy := true, weir := x.weir || !s.unused x.cls x.weirOf }

/-- Start a write-back: on a channel if one is free, else waiting for one. -/
def State.addXfer (s : State) (x : Xfer) : State :=
  match s.freeChan x with
  | some c => s.putXfer { x with chan := some c }
  | none => s.putXfer (s.waitsOn x)

/-- Take a sack's transfer off the list. -/
def State.dropXfer (s : State) (sack : Nat) : State :=
  s.modStore fun st => { st with xfers := st.xfers.filter fun x => x.sack ≠ sack }

/-- A transfer without the wheels that a choice picks; none where nothing else asks for it. -/
def Xfer.without (x : Xfer) (p : Nat × Option Nat → Bool) : Option Xfer :=
  let left := x.wants.filter fun w => !p w
  if left.isEmpty && !x.wants.isEmpty && !x.demand then none else some { x with wants := left }

/-- Take wheels off the transfers that are not issued; one that nothing else asks for is cancelled (R45, R59, R67, R69). -/
def State.cancelWants (s : State) (p : Xfer → Nat × Option Nat → Bool) : State :=
  s.modStore fun st => { st with xfers := st.xfers.filterMap fun x =>
    if x.chan.isNone && x.kind == .promote && (st.sacks.get x.sack).mst == .deep then x.without (p x) else some x }

/-! ### Promotion (Table 4.3, R74, R81, R87, R96) -/

inductive Promo where
  | started
  | waits
  | noVictim
  deriving DecidableEq, Repr

/-- Is charged deep programming held to rate B (R252)? -/
def State.throttled (s : State) : Bool := decide (s.creditNow ≤ 0) || s.deep.lowSpare

/-- Load a slot map page into the hub's cache of 4,096 pages ahead of a transfer (R248). -/
def State.mapPage (s : State) (slot : Nat) : State :=
  let p := slot / 2048
  { s with deep := { s.deep with mapCache := (p :: s.deep.mapCache.filter (· ≠ p)).take 4096 } }

/-- A DEEP sack takes its frames and becomes PROMOTING, or SPEC_PROMOTING for a wheel (Table 4.3). -/
def State.startPromo (s : State) (x : Xfer) (specW : Option Nat) (at_ : Nat × Nat × Bool) : State :=
  let k := s.sack x.sack
  let s := if k.reft then s.modMrc x.ld fun m => { m with refetch := bump 32 m.refetch 1 } else s
  let s := s.setSack x.sack { k with
    mst := if specW.isSome then .specPromoting else .promoting, reft := false, near := true, stack := at_.1, frame := at_.2.1,
    ref := false, evict := false, spec := specW.isSome, swheel := specW.getD 0, cclass := x.cls, dirty := 0, captured := 0,
    arrived := 0, since := s.now }
  let s := s.modStore fun st => { st with offDie := if at_.2.2 then bump 32 st.offDie 1 else st.offDie }
  (s.mapPage k.slot).putXfer x

/-- The transfer that a request for a DEEP sack asks for, joined with the one that waits for the same sack. -/
def State.askXfer (s : State) (sack ld : Nat) (e : Extent) (die : Option Nat) (demand : Bool) (specW : Option Nat) (cls : Nat)
    (wants : List (Nat × Option Nat)) : Xfer :=
  match s.xferOf sack with
  | some y =>
    let first := demand && !y.demand
    let joined : Xfer := { y with
      demand := y.demand || demand
      ld := if first then ld else y.ld
      cls := if first then cls else y.cls
      die := y.die.or die }
    { joined with wants := y.wants ++ wants.filter fun w => !y.wants.contains w }
  | none =>
    { s.newXfer sack (if specW.isSome then .spec else .promote) e.eid ld cls with demand := demand, die := die, wants := wants }

/-- What is left of a transfer that finds no victim on any stack: a demand goes on without it, wheels and bins wait (R75, R76). -/
def State.refused (s : State) (x : Xfer) (demand : Bool) : State :=
  if ¬ demand then s.putXfer x
  else if x.wants.isEmpty then s.dropXfer x.sack else s.putXfer { x with demand := false }

/-- Ask for the promotion of a DEEP sack for an LD's request or for wheels. It starts where frames and a channel are free; else it
waits, but for a demand with no victim on any stack (R75, R76). A speculative transfer holds its frames while it waits for a
channel. DEDUCED, log entry 110. -/
def State.promoteFor (s : State) (sack ld : Nat) (e : Extent) (die : Option Nat) (demand : Bool) (specW : Option Nat)
    (cls : Nat) (wants : List (Nat × Option Nat)) : Promo × State :=
  let x := s.askXfer sack ld e die demand specW cls wants
  match s.place x.die (Prof.affinity e.profile) sack ((s.sack sack).size + 1) with
  | none =>
    if s.anyVictim then (.waits, s.putXfer { x with endur := x.endur || s.throttled })
    else (.noVictim, s.refused x demand)
  | some r =>
    match s.freeChan x with
    | some c => (.started, s.startPromo { x with chan := some c } specW r)
    | none => if specW.isSome then (.started, s.startPromo (s.waitsOn x) specW r) else (.waits, s.putXfer (s.waitsOn x))

/-- Ask for a promotion for a request. -/
def State.promote (s : State) (sack ld : Nat) (e : Extent) (die : Option Nat) (demand : Bool) (cls : Nat) : Promo × State :=
  s.promoteFor sack ld e die demand none cls []

/-! ### Transfers that wait -/

/-- The order in which waiting transfers are served (R217): by class, and within a class the LDs in turn. -/
def State.xferRank (s : State) (x : Xfer) : Nat := s.weirBand x.inG x.cls x.weirOf * 16 + s.turnsOff x.cls x.weirOf x.ld

/-- The transfer that comes next, the oldest among equals. -/
def State.nextXfer (s : State) (xs : List Xfer) : Option Xfer :=
  xs.foldl (fun a x => match a with | none => some x | some b => if s.xferRank x < s.xferRank b then some x else a) none

/-- Try to issue one waiting transfer. -/
def State.issueOne (s : State) (x : Xfer) : State :=
  match s.xferOf x.sack with
  | none => s
  | some x =>
    if x.chan.isSome then s
    else if (s.sack x.sack).mst = .deep then
      match s.extOfSack x.sack with
      | none => s
      | some e =>
        match s.place x.die (Prof.affinity e.profile) x.sack ((s.sack x.sack).size + 1), s.freeChan x with
        | some r, some c => (s.startPromo { x with chan := some c } none r).tookTurn x.cls 1 x.ld
        | _, _ => s
    else match s.freeChan x with
      | some c => (s.putXfer { x with chan := some c }).tookTurn x.cls x.weirOf x.ld
      | none => s

/-- Try some waiting transfers, one after another in their order. -/
def State.issueAll (s : State) (xs : List Xfer) : Nat → State
  | 0 => s
  | n + 1 =>
    match s.nextXfer xs with
    | none => s
    | some x => (s.issueOne x).issueAll (xs.filter fun y => y.sack ≠ x.sack) n

/-- Issue the waiting transfers for which frames and channels are free. -/
def State.pumpXfers (s : State) : State :=
  let xs := s.store.xfers.filter fun x => x.chan.isNone
  s.issueAll xs xs.length

/-- End a sack's transfer and hand its channel on. -/
def State.endXfer (s : State) (sack : Nat) : State := (s.dropXfer sack).pumpXfers

/-- Count a demand read served read-through or a block written through (R76, R77). -/
def State.countNoFrame (s : State) : State := s.modStore fun st => { st with noFrame := bump 32 st.noFrame 1 }

/-- Release the frames of a sack: it becomes DEEP. -/
def State.toDeep (s : State) (sack : Nat) (reft : Bool) : State :=
  let s := s.modSack sack fun k => { k with
    tier := .t2, mst := .deep, near := false, stack := 0, frame := 0, ref := false,
    evict := false, spec := false, swheel := 0, cclass := 0, dirty := 0, captured := 0, arrived := 0, reft := k.reft || reft }
  s.modStore fun st => { st with
    t0 := st.t0.filter fun c => c.sack ≠ sack
    cacheMissing := st.cacheMissing.filter fun u => u / 130 ≠ sack
    cacheUsed_ := st.cacheUsed_.filter fun u => u / 130 ≠ sack
    errs := st.errs.filter fun p => p.blk / 128 ≠ sack }

/-! ### Stacks: self-refresh and row activations (R232 to R237) -/

/-- A request ends a stack's self-refresh, with the spot check of R237 where one is owed (R234). -/
def State.wakeStack (s : State) (stack : Nat) : State :=
  s.modStack stack fun k =>
    if k.state = .selfref then
      { k with state := if k.checkAtExit then .changing else .active, changeAt := s.now + 1300, lastUse := s.now }
    else { k with lastUse := s.now }

/-- A row is activated in a bank: the draw for targeted refresh (R233). -/
def State.activate (s : State) (stack bank row : Nat) : State :=
  let k := s.near.stks.get stack
  let d := Config.rowDraw s.near.nre s.freeCtr
  let s := { s with freeCtr := s.freeCtr + 1 }
  if d = 0 then s
  else if 4 ≤ (k.targeted.filter fun t => t.1 = bank).length then s.modStack stack fun k => { k with nrhold := bump 16 k.nrhold 1 }
  else s.modStack stack fun k => { k with
    targeted := k.targeted ++ [(bank, Config.rowBeside stack row d false), (bank, Config.rowBeside stack row d true)] }

/-- The bank of a line, as its place in the hashed slot index. -/
def LineAt.bankKey (a : LineAt) : Nat := a.channel + 8 * a.rank + 16 * a.bank + 64 * a.group

/-- One data line is read or written with its check line, which may lie in the next row (R229, R230). DEDUCED, log entry 50. -/
def State.useLine (s : State) (stack l : Nat) : State :=
  let a := lineAt s.near.bankhash l
  let s := s.activate stack a.bankKey a.row
  if checkPos (l / 512) / 32 = a.row then s else s.activate stack a.bankKey (checkPos (l / 512) / 32)

/-- `n` data lines of a stack from line `l` are read or written. -/
def State.useLines (s : State) (stack l n : Nat) : State :=
  (List.range n).foldl (fun s i => s.useLine stack (l + i)) (s.wakeStack stack)

/-- The data lines of a block's position in its frame are read or written. -/
def State.useBlk (s : State) (e : Extent) (blk bytes : Nat) : State :=
  let k := s.sack (blk / 128)
  s.useLines k.stack (128 * k.frame + blk % 128 * Prof.unit e.profile / 64) ((bytes + 63) / 64)

/-- Must a request to a stack wait: it is changing its point, or owes a spot check as it wakes, or its die is stopped (R236, R237,
R401)? -/
def State.stackBusy (s : State) (stack : Nat) : Bool :=
  let k := s.near.stks.get stack
  k.state == .changing || (k.state == .selfref && k.checkAtExit) || s.clock.stopped.any fun x => x.2 == stackDie stack

/-! ### The sweep's view of a read (R51, R61, R62, R95) -/

def State.wheel (s : State) (w : Nat) : Wheel := s.sweep.wheels.get w

def State.setWheel (s : State) (w : Nat) (v : Wheel) : State :=
  { s with sweep := { s.sweep with wheels := s.sweep.wheels.set w v } }

def State.modWheel (s : State) (w : Nat) (f : Wheel → Wheel) : State := s.setWheel w (f (s.wheel w))

/-- The open wheel of an LD whose watch range holds a DPA (R51). -/
def State.wheelFor (s : State) (ld dpa : Nat) : Option Nat :=
  ((List.range 16).map (· + 16 * ld)).find? fun w =>
    (s.wheel w).state != .closed && (s.wheel w).watch.any fun r => r.1 ≤ dpa / granule && dpa / granule < r.1 + r.2

def SEntry.names (en : SEntry) (sack : Nat) : Bool := en.sack ≤ sack && sack < en.sack + en.count

def insertNat (x : Nat) : List Nat → List Nat
  | [] => [x]
  | y :: ys => if x ≤ y then x :: y :: ys else y :: insertNat x ys

def sortNat (xs : List Nat) : List Nat := xs.foldr insertNat []

/-- Consecutive sacks of one layer and die as entries with the default lead (R62). -/
def runsOf (layer : Nat) (die : Option Nat) : List Nat → List SEntry
  | [] => []
  | a :: rest =>
    match runsOf layer die rest with
    | e :: es =>
      if e.sack = a + 1 ∧ e.count < 65536 then { e with sack := a, count := e.count + 1 } :: es
      else { e with sack := a, count := 1 } :: e :: es
    | [] => [{ layer := layer, lead := 0, action := 0, die := die.getD 0, anydie := die.isNone, sack := a, count := 1 }]

/-- The entries that a recording gives for one layer. -/
def recordEntries (rs : List RecRead) (layer : Nat) : List SEntry :=
  let here := rs.filter fun r => r.layer = layer
  [none, some 0, some 1, some 2, some 3].flatMap fun d =>
    runsOf layer d (sortNat ((here.filter fun r => r.die = d).map RecRead.sack))

/-- The number of entries that a wheel's recording has reached (R62): in a survey, those already added count. -/
def Wheel.recorded (x : Wheel) : Nat :=
  (if x.wasSurvey then x.sched.length else 0) + ((List.range x.n).flatMap (recordEntries x.record)).length

/-- A read attributed to a wheel: it marks the entries of the layer, and is recorded by a survey or by learning. -/
def State.noteRead (s : State) (w sack : Nat) (die : Option Nat) : State :=
  s.modWheel w fun x =>
    if ¬ x.placed then x
    else
      let sched := x.sched.map fun en =>
        if en.layer = x.layer ∧ en.names sack then { en with readNow := true } else en
      let named := x.sched.any fun en => en.layer == x.layer && en.names sack
      let rec' : RecRead := { layer := x.layer, sack := sack, die := die }
      let survey := x.state == .survey || ((x.state == .idle || x.state == .resting) && x.wasSurvey)
      let want := (survey && x.turn == x.surveyTurn) || (!survey && !x.nolearn && !named)
      let seen := x.record.any fun r => r.layer == x.layer && r.sack == sack
      let x := { x with sched := sched }
      if want && !seen then
        if x.recorded < 65536 then { x with record := x.record ++ [rec'] } else { x with trunc := true }
      else x

/-- Is the cause of a held read a survey stall (Table 3.5, row 1)? -/
def State.surveyStall (s : State) (w : Option Nat) (sack : Nat) : Bool :=
  match w with
  | none => true
  | some w =>
    let x := s.wheel w
    x.state == .survey || x.wasSurvey || !(x.sched.any fun en => en.layer == x.layer && en.names sack)

/-- The stall cause of a served held read (Table 3.5). -/
def causeOf (survey : Bool) (x : Option Xfer) : Nat :=
  if survey then 5
  else match x with
    | none => 0
    | some x => if x.retry then 4 else if x.endur then 2 else if x.weir then 3 else if x.busy then 1 else 0

/-! ### Reading a block -/

/-- What a read of a block finds. `through` is data read through from T2, with no T1 copy (R76). -/
inductive Look where
  | data (d : Bytes)
  | through (d : Bytes)
  | poison
  | isolated
  | held (why : HeldWhy)
  deriving DecidableEq, Repr

/-- Note the outcome of the first read of a flip-mask word (R278). -/
def State.flipRead (s : State) (ld blk word syn : Nat) (out : Ecc) : State :=
  s.modIntegLd ld fun l =>
    if l.flip.state = .applied ∧ l.flip.blk = blk ∧ l.flip.word = word then
      { l with flip := { l.flip with syndrome := syn, state := if out = .uncorrectable then .uncorrectable else .corrected } }
    else l

/-- The byte mask of the lines that a record holds. -/
def linesMask (lines : BitVec 8) : BitVec 512 :=
  (List.range 8).foldl (fun a l => if lines.getLsbD l then a ||| lineMask l else a) 0

/-- The data of a block's T2 payload: none where it reads as poison. -/
def State.t2Data (s : State) (e : Extent) (blk : Nat) : Option Bytes :=
  let k := s.sack (blk / 128)
  if k.poison && k.unwritten.getLsbD (blk % 128) then none else s.decode e.profile (s.store.t2.get blk)

/-- A block rebuilt from its mirror record: the record's lines over the T2 payload; none where a line that the record lacks reads as
poison (R90). -/
def State.mirrorData (s : State) (e : Extent) (m : Mirror) : Option Bytes :=
  (if m.lines = BitVec.allOnes 8 then some (zeros 512) else s.t2Data e m.blk).map fun below =>
    maskBytes (linesMask m.lines) 0 below m.data

/-- Rebuild a dirty durable block in its T1 copy from its mirror record (R90). -/
def State.rebuildMirror (s : State) (e : Extent) (m : Mirror) (loc access : Nat) : State :=
  match s.mirrorData e m with
  | none => s.lose e m.blk 0 loc access
  | some d =>
    match s.encode e m.blk d s.store.written with
    | some (v, s) => ((s.setCur m.blk v).fixSpill (m.blk / 128)).repaired 0 loc access e.owner (s.dpaOf e m.blk)
    | none => s

/-- A block whose newest copy below the merge buffer cannot be used: rebuilt from its mirror record, or lost; nothing is lost where the
merge buffer holds the whole block (R274). -/
def State.resolveBad (s : State) (e : Extent) (blk loc access : Nat) : State :=
  match s.store.mirrors.find? fun m => m.blk = blk with
  | some m => s.rebuildMirror e m loc access
  | none =>
    if mergedValid (s.mergesOf blk) = BitVec.allOnes 512 then s.ueLog 0 loc access 0 e.owner (s.dpaOf e blk)
    else s.lose e blk 0 loc access

/-- An uncorrectable word of a T1 payload (R274): read again from T2 where clean, else as `resolveBad` says. -/
def State.resolveUe (s : State) (e : Extent) (blk word access : Nat) : State :=
  let loc := s.wordLoc blk word
  let s := s.clearErrs blk
  if ¬ (s.sack (blk / 128)).inT1 (blk % 128) then s.repaired 0 loc access e.owner (s.dpaOf e blk) else s.resolveBad e blk loc access

/-- A stored image that does not decode, by a reserved side record or header, is an uncorrectable block (R107, R124). -/
def State.checkImage (s : State) (e : Extent) (blk access : Nat) : State :=
  if s.isPoison blk ∨ (s.decode e.profile (s.curBlk blk)).isSome then s else s.resolveBad e blk (s.wordLoc blk 0) access

/-- Check the words of a block's T1 payload against the error patterns in it (R267, R272, R274). -/
def State.checkWords (s : State) (e : Extent) (blk access : Nat) (fix : Bool) : List (Nat × Nat) → State
  | [] => s
  | (w, p) :: rest =>
    let syn := syndromeOf p
    let out := eccOutcome syn
    let s := if p = 0 then s else s.flipRead e.owner blk w syn out
    match out with
    | .good => s.checkWords e blk access fix rest
    | .corrected b =>
      let s := s.correct 0 (s.wordLoc blk w) b fix
      (if fix then s.setErr blk w 0 else s).checkWords e blk access fix rest
    | .uncorrectable => s.resolveUe e blk w access

/-- The patterns met when a block is read with a fresh error in its first word. -/
def State.patterns (s : State) (blk upset : Nat) : List (Nat × Nat) :=
  let stored := (s.store.errs.filter fun p => p.blk = blk ∧ p.word ≠ 0).map fun p => (p.word, p.mask)
  (0, Nat.xor (s.errOf blk 0) upset) :: stored

/-- Does a codec cache entry have to be read in first (R110)? -/
def State.cacheMiss (s : State) (e : Extent) (blk : Nat) : Bool :=
  (s.store.cacheMissing.contains (cacheUnit blk) && s.plainMark e (blk / 128) (blk / 64 % 2) == 0)
    || (s.store.cacheMissing.contains (cacheCopy blk) && copyGranules (s.curBlk blk).side != 0)

/-- Read a block from its T1 copy. -/
def State.readNear (s : State) (e : Extent) (blk upset access cls : Nat) : Look × State :=
  let k := s.sack (blk / 128)
  if s.stackBusy k.stack then (.held .tierMove, s.wakeStack k.stack)
  else if s.cacheMiss e blk then (.held .codecCache, s)
  else
    let n := (s.curBlk blk).bytes.length
    let s := ((s.useBlk e blk n).modSack (blk / 128) fun k => { k with ref := true }).cacheUse blk
    let s := s.serve e.ld 0 cls n 0 none
    let s := (s.checkWords e blk access false (s.patterns blk upset)).checkImage e blk access
    match s.blkData e blk with
    | some d => (.data d, s)
    | none => (.poison, s)

/-- Serve a block read-through from T2, its payload charged to the LD's class at the DEEPRD weir (R76, Table 8.5); `since` is when the
read was accepted. -/
def State.readThrough (s : State) (ld cls since : Nat) (e : Extent) (blk : Nat) : Look × State :=
  let s := (s.checkImage e blk 5).serve ld 1 cls (s.store.t2.get blk).bytes.length (s.now - since) none
  match s.blkData e blk with
  | some d => (.through d, s.countNoFrame)
  | none => (.poison, s)

/-! ### Sack map entries that cannot be used (R24, R41, R78) -/

/-- Is a sack's entry corrupt (R41, R78)? -/
def State.entryBad (s : State) (sack : Nat) : Bool := s.store.corrupt.contains sack || (sackOfWord (s.sack sack).word).isNone

/-- Note a corrupt entry, for its rebuild. -/
def State.markCorrupt (s : State) (sack : Nat) : State :=
  s.modStore fun st => { st with corrupt := if st.corrupt.contains sack then st.corrupt else sack :: st.corrupt }

/-- Is the share of the reserved regions that holds a sack's entry still to be rebuilt (R24)? -/
def State.entryAway (s : State) (sack : Nat) : Bool := s.near.rebuilding.contains (sack % 12)

/-- Is a block in T1, or need nothing be brought in to read it? -/
def State.blkNear (s : State) (blk : Nat) : Bool :=
  let k := s.sack (blk / 128)
  match k.mst with
  | .unmapped | .allocating | .deep => false
  | .promoting | .specPromoting => k.inT1 (blk % 128) || k.arrived.getLsbD (blk % 128)
  | _ => true

/-- Read a block for an LD as the sack's state says (R24, R40, R41, R42, R92, R94, Table 4.3). `die` is the die that R74 takes
for a gate operation's read, `cls` the weir class that the read is charged to (R174). -/
def State.look (s : State) (ld : Nat) (e : Extent) (dpa upset access : Nat) (die : Option Nat) (cls : Nat) : Look × State :=
  let sack := s.sackOf e dpa
  let blk := s.blkOf e dpa
  let k := s.sack sack
  if s.entryAway sack then (.held .rebuild, s)
  else if s.entryBad sack then (.held .corrupt, s.markCorrupt sack)
  else if k.mst = .unmapped then (if k.poison then .poison else .data (zeros 512), s)
  else if k.mst = .allocating then (.held .tierMove, s)
  else if ¬ s.mayReach ld e k then (.isolated, s.isolation ld dpa sack)
  else
    let s := s.touch sack ld
    if s.isPoison blk then (.poison, s)
    else match (s.sack sack).mst with
    | .deep =>
      match s.promote sack ld e die true cls with
      | (.noVictim, s) => s.readThrough ld cls s.now e blk
      | (_, s) => (.held .demand, s)
    | _ => if s.blkNear blk then s.readNear e blk upset access cls else (.held .demand, s)

/-- Must a request numbered `rid` wait for an earlier one: one of its own LD to its line that has still to complete (R15), or a write
of any LD to the line that has still to be applied (R40, R341)? -/
def State.earlier (s : State) (ld dpa blk rid : Nat) : Bool :=
  (s.store.heldReads.any fun r => r.ld == ld && r.dpa / 64 == dpa / 64 && decide (r.rid < rid) && (match r.who with | .cxl _ => true | _ => false))
    || s.store.heldWrites.any fun w => decide (w.wid < rid)
        && ((w.ld == ld && w.dpa / 64 == dpa / 64) || (w.blk == blk && w.line == lineOf dpa && !w.merged))

/-- A read that finds its codec cache entry missing is counted (BLT_SIDE.MISS). -/
def State.countMiss (s : State) (e : Extent) (why : HeldWhy) : State :=
  if why = .codecCache then s.modMrc e.owner fun m => { m with sideMiss := bump 32 m.sideMiss 1 } else s

/-- Hold a read (R92). -/
def State.holdRead (s : State) (ld dpa : Nat) (e : Extent) (who : ReadFor) (why : HeldWhy) (survey : Bool) (die : Option Nat)
    (cls : Nat) : State :=
  (s.countMiss e why).modStore fun st => { st with
    nextRid := st.nextRid + 1
    heldReads := st.heldReads ++ [{
      rid := st.nextRid, ld := ld, dpa := dpa, eid := e.eid, sack := s.sackOf e dpa, blk := s.blkOf e dpa, line := lineOf dpa, who := who, why := why, cause := if survey then some 5 else none, start := s.now, die := die, cls := cls }] }

/-- Charge one demand read of an LD, held for some µs, to its cause (R60, R93). DESIGN CHOICE, log entry 18. -/
def State.chargeStall (s : State) (ld sack : Nat) (survey : Bool) (time : Nat) : State :=
  let c := causeOf survey (s.xferOf sack)
  s.modMrc ld fun m => { m with stallCount := m.stallCount.upd c fun n => bump 32 n 1
                                stallTime := m.stallTime.upd c fun n => bump 32 n time }

/-- Charge a served held read to MRC_STALL where it was a demand read (R93). DESIGN CHOICE, log entry 18. -/
def State.charge (s : State) (r : HeldRead) : State :=
  if r.why = .demand ∨ r.why = .codecCache then s.chargeStall r.ld r.sack (r.cause == some 5) ((s.now - r.start) / 1000) else s

/-- The 64 bytes of a line. -/
def lineBytes (d : Bytes) (line : Nat) : Bytes := (d.drop (64 * line)).take 64

/-- Count a CXL.mem read answered with poison for an uncorrectable block (INT_POISON.READS). -/
def State.poisonRead (s : State) (ld : Nat) : State := s.modIntegLd ld fun l => { l with reads := bump 32 l.reads 1 }

/-- Requests of a class that wait for the near tier, reads and writes, and whether one has been held for more than 10 µs (R355). -/
def State.heldOf (s : State) (cls : Nat) : Nat :=
  (s.store.heldReads.filter fun r => r.cls == cls).length + (s.store.heldWrites.filter fun w => w.cls == cls).length

def State.heldLong (s : State) (cls : Nat) : Bool :=
  (s.store.heldReads.any fun r => r.cls == cls && decide (r.start + 10 * us < s.now))
    || s.store.heldWrites.any fun w => w.cls == cls && decide (w.start + 10 * us < s.now)

/-- The DevLoad value of a class (R355): 3 with a request held for more than 10 µs, else 0 below half of its QUEUE share of the queues of
the twelve stacks, 1 up to the share, 2 above it. DESIGN CHOICE, log entry 104. -/
def State.devLoad (s : State) (cls : Nat) : Nat :=
  let n := s.heldOf cls
  let q := (s.weir.classes.get cls).queue
  let share := q * 12 * (Config.stackQueue + 1)
  if s.heldLong cls then 3
  else if n = 0 ∧ 0 < q then 0
  else if 2 * 256 * n < share then 0
  else if 256 * n ≤ share then 1
  else 2

/-- The DevLoad value of a response about a DPA that is not served: that of its extent's class, 0 where it has none. -/
def State.loadAt (s : State) (ld dpa : Nat) : Nat :=
  match s.extAt ld dpa with | some e => s.devLoad (Prof.wclass e.profile) | none => 0

/-- Complete a write of a class. -/
def State.sendDone (s : State) (ld tag cls : Nat) : State := s.send (.memDone ld tag (s.devLoad cls))

/-- Send a line of data on the LD's host port (resource 4 + port of Table 8.5). DESIGN CHOICE, log entry 18. -/
def State.sendLine (s : State) (ld tag cls : Nat) (d : Bytes) : State :=
  (s.serve ld (4 + ldPort ld) cls 64 0 none).send (.memData ld tag d (s.devLoad cls))

/-- Answer a read with poison: the line is sent all the same. DESIGN CHOICE, log entry 18. -/
def State.sendPoison (s : State) (ld tag cls : Nat) : State :=
  (s.serve ld (4 + ldPort ld) cls 64 0 none).send (.memPoison ld tag (s.devLoad cls))

/-- Complete the passed entries of a block with the data below them, oldest first (R83). -/
def fillMerges (blk : Nat) : Bytes → List MergeEnt → List MergeEnt
  | _, [] => []
  | d, m :: ms =>
    if m.blk = blk ∧ m.passed = true then
      let d' := maskBytes m.valid 0 d m.data
      { m with data := d', valid := BitVec.allOnes 512 } :: fillMerges blk d' ms
    else m :: fillMerges blk d ms

/-- Answer a held read with what was found. -/
def State.answerRead (s : State) (r : HeldRead) (d : Option Bytes) : State :=
  let s := s.charge r
  let s := s.modStore fun st => { st with heldReads := st.heldReads.filter fun x => x.rid ≠ r.rid }
  match r.who, d with
  | .cxl tag, some d =>
    if r.muted then s else
    s.sendLine r.ld tag r.cls (lineBytes (overMerge (s.mergesOf r.blk) d) r.line)
  | .cxl tag, none => if r.muted then s else (s.poisonRead r.ld).sendPoison r.ld tag r.cls
  | .merge, some d => s.modStore fun st => { st with merges := fillMerges r.blk d st.merges }
  | .merge, none => s
  | .stone _ _ _, _ => s

/-- Try one held read again, as accepted, once the earlier requests of its LD to its line have completed (R15). -/
def State.retryRead (s : State) (r : HeldRead) : State :=
  if s.earlier r.ld r.dpa r.blk r.rid then s
  else match s.extById r.eid with
  | none => s.answerRead r none
  | some e =>
    match s.look r.ld e r.dpa 0 5 r.die r.cls with
    | (.data d, s) => s.answerRead r (some d)
    | (.through d, s) => s.answerRead { r with why := .demand } (some d)
    | (.poison, s) => s.answerRead r none
    | (.isolated, s) => s.answerRead r none
    | (.held why, s) =>
      (if why = r.why then s else s.countMiss e why).modStore fun st => { st with
        heldReads := st.heldReads.map fun x => if x.rid = r.rid then { x with why := why } else x }

/-- A CXL.mem read of a stored line, its extent being served (R15, Table 1.3). -/
def State.readLine (s : State) (ld dpa tag : Nat) (e : Extent) (upset : Nat) : State :=
  let w := s.wheelFor ld dpa
  let s := match w with | some w => s.noteRead w (dpa / 65536) none | none => s
  let blk := s.blkOf e dpa
  let line := lineOf dpa
  let ms := s.mergesOf blk
  let survey := s.surveyStall w (dpa / 65536)
  let cls := Prof.wclass e.profile
  if s.earlier ld dpa blk s.store.nextRid then s.holdRead ld dpa e (.cxl tag) .order survey none cls
  else if mergedValid ms &&& lineMask line = lineMask line ∧ s.mayReach ld e (s.sack (blk / 128)) then
    (s.confirm (blk / 128)).sendLine ld tag cls (lineBytes (overMerge ms (zeros 512)) line)
  else
    match s.look ld e dpa upset 5 none cls with
    | (.data d, s) => s.sendLine ld tag cls (lineBytes (overMerge ms d) line)
    | (.through d, s) => (s.chargeStall ld (blk / 128) survey 0).sendLine ld tag cls (lineBytes (overMerge ms d) line)
    | (.poison, s) => (s.poisonRead ld).sendPoison ld tag cls
    | (.isolated, s) => s.sendPoison ld tag cls
    | (.held why, s) => s.holdRead ld dpa e (.cxl tag) why survey none cls

/-- Read the missing lines of a block's partial entries that have passed to the encoder: a demand read where the sack is not near
(R83). -/
def State.rmwRead (s : State) (m : MergeEnt) (owner : Extent) : State :=
  let e := (s.extById m.eid).getD owner
  let ld := if (s.extById m.eid).isSome then m.opener else owner.owner
  let dpa := s.dpaOf e m.blk
  let survey := s.surveyStall (s.wheelFor ld dpa) (dpa / 65536)
  if s.store.heldReads.any fun r => r.blk == m.blk && r.who == .merge then s
  else match s.look ld e dpa 0 5 none m.cls with
    | (.data d, s) => s.modStore fun st => { st with merges := fillMerges m.blk d st.merges }
    | (.through d, s) => (s.chargeStall ld (m.blk / 128) survey 0).modStore fun st => { st with merges := fillMerges m.blk d st.merges }
    | (.held why, s) => s.holdRead ld dpa e .merge why survey none m.cls
    | _ => s

end Sys2Proof.Machine
end

