-- ==== Sys2Proof/Machine/Points.lean ====
section
/-! DEFINITION. Near-tier frequency changes as a shared operation (R235 to R238): the module's target, the three groups,
and what one stack does. -/
namespace Sys2Proof.Machine

def State.modNear (s : State) (f : NearSt → NearSt) : State := { s with near := f s.near }

def groupStacks (k : Nat) : List Nat := [k, 3 + k, 6 + k, 9 + k]

/-! ### Retraining slots (R240) -/

/-- The refresh interval of a stack in ns. -/
def Stack.interval (x : Stack) : Nat := if x.hot then 1953 else 3906

/-- How long a retraining slot holds its channel, in ns (R240). -/
def slotNs : Nat := 2000

/-- Is a retraining slot in progress on a channel? -/
def Stack.inSlot (x : Stack) (now c : Nat) : Bool := x.lastSlot.get c != 0 && decide (now < x.lastSlot.get c + slotNs)

/-- Is a slot in progress on some channel? -/
def Stack.slotNow (x : Stack) (now : Nat) : Bool := (List.range 8).any (x.inSlot now)

/-- Is a slot due on a channel: not all 48 done, and 64 refresh intervals since its last (R240)? -/
def Stack.slotDue (x : Stack) (now c : Nat) : Bool :=
  x.retrainPoint.isSome && decide (x.slotsDone.get c < 48) && decide (x.lastSlot.get c + 64 * x.interval ≤ now)

/-- When the slot in progress on a stack ends, or now (R237). -/
def Stack.slotsEnd (x : Stack) (now : Nat) : Nat :=
  (((List.range 8).filter (x.inSlot now)).map fun c => x.lastSlot.get c + slotNs).foldl max now

/-- A stack takes its turn of a change to point `p` (Table 9.4): in self-refresh it only switches, and is checked at its
next exit (R237). -/
def State.turnStack (s : State) (p k : Nat) : State :=
  let x := s.near.stks.get k
  if x.state = .failed ∨ x.point = p then s
  else if x.state = .selfref then s.modStack k fun x => { x with prev := x.point, point := p, checkAtExit := true, retryPoint := none }
  else s.modStack k fun x =>
    { x with state := .changing, prev := x.point, goal := some p, retryPoint := none, changeAt := x.slotsEnd s.now + 1700 }

/-- Is a stack of a group still in its change? -/
def State.groupBusy (s : State) (k : Nat) : Bool := (groupStacks k).any fun x => (s.near.stks.get x).state == .changing

/-- Carry a change on: the next group begins when the one before it has finished; the last ends it, and a queued target
starts (R236, R237). -/
def State.pumpPoint (s : State) : Nat → State
  | 0 => s
  | fuel + 1 =>
    match s.near.target with
    | some p =>
      if s.groupBusy s.near.group then s
      else if s.near.group < 2 then
        let s := s.modNear fun n => { n with group := n.group + 1 }
        ((groupStacks s.near.group).foldl (fun s k => s.turnStack p k) s).pumpPoint fuel
      else (s.modNear fun n => { n with point := p, target := none, changes := bump 32 n.changes 1 }).caps.pumpPoint fuel
    | none =>
      match s.near.queued with
      | some q =>
        if q = s.near.point then s.modNear fun n => { n with queued := none }
        else
          let s := (s.modNear fun n => { n with target := some q, queued := none, group := 0 }).caps
          ((groupStacks 0).foldl (fun s k => s.turnStack q k) s).pumpPoint fuel
      | none => s

def State.pumpNear (s : State) : State := s.pumpPoint 8

/-- Ask for a point: only the latest target of those asked for during a change is kept (R237). -/
def State.askPoint (s : State) (p : Nat) : State := (s.modNear fun n => { n with queued := some p }).pumpNear

/-- The point the module is at or on its way to. -/
def State.pointGoal (s : State) : Nat :=
  match s.near.queued with
  | some q => q
  | none => s.near.target.getD s.near.point

end Sys2Proof.Machine
end

