-- ==== Sys2Proof/Machine/Writes.lean ====
section
/-! DEFINITION. The write path: allocation (R39), the merge buffer (R241 to R245), the durable mirror (R88 to R91), the
encoder (R83), write-back and the victim scan (R75, R84), as shared operations. -/
namespace Sys2Proof.Machine

/-! ### The durable mirror -/

/-- Is the hold-up bank's mode write-back (R261)? -/
def State.bankGood (s : State) : Bool := s.deep.bank == .healthy || (s.deep.bank == .testing && s.deep.before == .healthy)

def State.healthyDies (s : State) : List Nat := (List.range 4).filter fun d => (dieStacks d).any s.stackOk

/-- Do durable extents run write-through (R23, R91, R256, R260)? -/
def State.wt (s : State) : Bool :=
  !s.bankGood || s.deep.lowSpare || s.healthyDies.length < 2
    || s.store.mirrors.any fun m => m.stackA.isNone || m.stackB.isNone

/-- The stack of a die that takes a record: 3 × die + (r mod 3), or the next healthy one of the die, but for one. -/
def State.mirrorStack (s : State) (die r : Nat) (avoid : Option Nat) : Option Nat :=
  (([r % 3, (r + 1) % 3, (r + 2) % 3]).map (· + 3 * die)).find? fun k => s.stackOk k && some k != avoid

/-- The stacks of copies A and B for a sack whose T1 copy is (or would be) on stack `k` (R88). -/
def State.mirrorPlace (s : State) (k r : Nat) : Option Nat × Option Nat :=
  let d := stackDie k
  let ok := fun x => s.healthyDies.contains x
  let others := [(d + 1) % 4, (d + 2) % 4, (d + 3) % 4].filter ok
  let a := others.head?
  let b := ([(d + 3) % 4, (d + 1) % 4, (d + 2) % 4].filter fun x => ok x && some x != a).head?
  match a, b with
  | some a, some b => (s.mirrorStack a r none, s.mirrorStack b r none)
  | some a, none =>
    (s.mirrorStack a r none, match s.mirrorStack d r (some k) with | some x => some x | none => s.mirrorStack d r none)
  | none, _ => (none, none)

/-- The stack that holds, or would hold, a sack's T1 copy. -/
def State.homeStack (s : State) (e : Extent) (sack : Nat) : Nat :=
  if (s.sack sack).near then (s.sack sack).stack
  else (s.placeOrder none (Prof.affinity e.profile) sack).headD 0

/-- Hold a completed line in a mirror record, in place or in a new one; none where the budget is full (R88, R89). -/
def State.mirrorLine (s : State) (e : Extent) (blk line : Nat) (data : Bytes) : Option State :=
  match s.store.mirrors.find? fun m => m.blk = blk with
  | some m =>
    let m' : Mirror := { m with lines := m.lines ||| BitVec.ofNat 8 (2 ^ line), data := patch m.data (64 * line) data }
    some (s.modStore fun st => { st with mirrors := st.mirrors.map fun x => if x.blk = blk then m' else x })
  | none =>
    if s.store.mirrors.length < 16777216 then
      let r := (lowestFree (s.store.mirrors.map Mirror.rno) 16777216).getD 0
      let (a, b) := s.mirrorPlace (s.homeStack e (blk / 128)) r
      some (s.modStore fun st => { st with mirrors := st.mirrors ++ [{
        rno := r, blk := blk, lines := BitVec.ofNat 8 (2 ^ line), data := patch (zeros 512) (64 * line) data,
        stackA := a, stackB := b, since := s.now }] })
    else none

/-- Free the records that R89 frees: block not DIRTY and not in write-back, no merge entry. -/
def State.freeMirror (s : State) (blk : Nat) : State :=
  if (s.sack (blk / 128)).inT1 (blk % 128) ∨ s.mergesOf blk ≠ [] then s
  else s.modStore fun st => { st with mirrors := st.mirrors.filter fun m => m.blk ≠ blk }

/-! ### The merge buffer -/

def State.openEnt (s : State) (blk : Nat) : Option MergeEnt := s.store.merges.find? fun m => m.blk = blk ∧ m.passed = false

def State.openedBy (s : State) (ld : Nat) : Nat := (s.store.merges.filter fun m => m.opener = ld).length

/-- May an LD open a new entry (R245)? -/
def State.mergeRoom (s : State) (ld : Nat) : Bool := s.openedBy ld < 8192 && s.store.merges.length < 32768

/-- The oldest partial entry of a block that has passed to the encoder. -/
def State.partialEnt (s : State) (blk : Nat) : Option MergeEnt :=
  s.store.merges.find? fun m => m.blk = blk ∧ m.passed = true ∧ m.valid ≠ BitVec.allOnes 512

/-- Read what a block's passed entries lack (R83). -/
def State.readMissing (s : State) (blk : Nat) : State :=
  match s.partialEnt blk, s.extOfSack (blk / 128) with
  | some m, some e => s.rmwRead m e
  | _, _ => s

/-- Pass an open entry to the encoder; the missing lines of a partial one are read (R83). -/
def State.passEnt (s : State) (blk : Nat) (rmw : Bool) : State :=
  let s := s.modStore fun st => { st with merges := st.merges.map fun m =>
    if m.blk = blk ∧ m.passed = false then { m with passed := true, rmw := rmw } else m }
  if rmw then s.readMissing blk else s

/-- A block's open entry passes at once, for a reader that must not see the merge buffer (R243). -/
def State.passBlk (s : State) (blk : Nat) : State :=
  match s.openEnt blk with
  | some m => s.passEnt blk (m.valid != BitVec.allOnes 512)
  | none => s

def oldestOpen (ms : List MergeEnt) : Option MergeEnt :=
  (ms.filter fun m => !m.passed).foldl (fun a m =>
    match a with
    | none => some m
    | some b => if m.lastWrite < b.lastWrite then some m else a) none

/-- Pass entries, oldest write first, while fewer than `goal` entries are free or on their way out. -/
def State.passUntil (s : State) (goal : Nat) : Nat → State
  | 0 => s
  | fuel + 1 =>
    let held := (s.store.merges.filter fun m => !m.passed).length
    if goal ≤ 32768 - held then s
    else match oldestOpen s.store.merges with
      | none => s
      | some m =>
        ((s.passEnt m.blk (m.valid != BitVec.allOnes 512)).modStore fun st =>
          { st with mergeEarly := bump 16 st.mergeEarly 1 }).passUntil goal fuel

/-- The early passes of R245. -/
def State.mergePressure (s : State) : State :=
  if 32768 - s.store.merges.length < 2048 then s.passUntil 4096 32768 else s

/-- The valid-byte mask of a line write. -/
def writeMask (line : Nat) (enables : BitVec 64) : BitVec 512 := (enables.setWidth 512) <<< (64 * line)

/-- Merge a line's bytes into its block's open entry, or into a new one. A whole block passes at once (R241). -/
def State.merge (s : State) (ld cls : Nat) (e : Extent) (blk line : Nat) (data : Bytes) (enables : BitVec 64) : State :=
  let mask := writeMask line enables
  let placed := patch (zeros 512) (64 * line) (fit 64 data)
  let order := s.store.written + 1
  let s : State := match s.openEnt blk with
    | some _ => s.modStore fun st => { st with
        written := order
        merges := st.merges.map fun m => if m.blk = blk ∧ m.passed = false then
          { m with data := maskBytes mask 0 m.data placed, valid := m.valid ||| mask, lastWrite := s.now, order := order } else m }
    | none => s.modStore fun st => { st with
        written := order
        merges := st.merges ++ [{ blk := blk, opener := ld, eid := e.eid, data := maskBytes mask 0 (zeros 512) placed,
                                  valid := mask, lastWrite := s.now, order := order, cls := cls }] }
  let s := if (s.openEnt blk).any fun m => m.valid == BitVec.allOnes 512 then s.passEnt blk false else s
  s.mergePressure

/-- Merge a whole block of 512 bytes. -/
def State.mergeWhole (s : State) (ld : Nat) (e : Extent) (blk : Nat) (data : Bytes) : State :=
  let order := s.store.written + 1
  let s := s.modStore fun st => { st with
    written := order
    merges := (st.merges.filter fun m => ¬ (m.blk = blk ∧ m.passed = false)) ++ [{
      blk := blk, opener := ld, eid := e.eid, data := fit 512 data, valid := BitVec.allOnes 512, lastWrite := s.now,
      order := order, passed := true, cls := Prof.wclass e.profile }] }
  s.mergePressure

/-- A block rebuilt from its mirror record goes through the encoder (R90): below every entry that the block has, which are newer. -/
def State.mergeBelow (s : State) (e : Extent) (blk : Nat) (data : Bytes) (order : Nat) : State :=
  let m : MergeEnt := {
    blk := blk, opener := e.owner, eid := e.eid, data := fit 512 data, valid := BitVec.allOnes 512, lastWrite := s.now
    order := order, passed := true, cls := Prof.wclass e.profile }
  s.modStore fun st => { st with merges := m :: st.merges }

/-! ### Allocation (R39) -/

def State.slotRuns (s : State) : List (Nat × Nat) :=
  let sacks := (s.store.sacks.cells.filter fun c => c.2.mst != .unmapped).map fun c => (c.1, c.2.slot, c.2.size + 1)
  let areas := (s.ext.exts.filter fun e => !e.isAlias && !Prof.gate e.profile).map fun e =>
    (e.eid, e.codec, (e.resvSide + e.resvSpill + e.resvStage) / 8192)
  (((sacks ++ areas).filter fun r => r.2.2 ≠ 0).foldr insertRun []).map fun r => r.2

/-- The lowest free run of deep slots. DESIGN CHOICE, log entry 10. -/
def State.freeSlots (s : State) (need : Nat) : Nat := (firstGap need 6979321856 0 s.slotRuns).getD 0

/-- Give an allocating sack its frames where R74 finds a run; where none is free and no victim exists it takes the T2 form, else it
waits while victims are freed (R39, R75, R77). -/
def State.allocFrames (s : State) (sack : Nat) (affinity : Nat) (die : Option Nat) : State :=
  let k := s.sack sack
  match s.place die affinity sack (k.size + 1) with
  | some (stack, frame, off) =>
    (s.setSack sack { k with near := true, stack := stack, frame := frame, waits := false }).modStore fun st =>
      { st with offDie := if off then bump 32 st.offDie 1 else st.offDie }
  | none => s.setSack sack { k with waits := s.anyVictim }

/-- Begin the allocation of a sack: a deep slot run, near frames (`die` is the die of R74 rule 2 for a gate operation, R185), side
records ZERO. -/
def State.allocate (s : State) (e : Extent) (sack : Nat) (die : Option Nat := none) : State :=
  let p := e.profile
  let old := s.sack sack
  (s.setSack sack { mst := .allocating, ldtag := e.owner, durable := Prof.durable p, lossy := Prof.lossy p, size := Prof.sizeCode p,
                    slot := s.freeSlots (Prof.sizeCode p + 1), cclass := Prof.wclass p, poison := old.poison, unwritten := old.unwritten,
                    since := s.now }).allocFrames sack (Prof.affinity p) die

/-- Allocations that wait for frames are tried again. -/
def State.retryAllocs (s : State) : State :=
  (s.store.sacks.keys.filter fun k => (s.sack k).mst == .allocating && (s.sack k).waits).foldl (fun s k =>
    match s.extOfSack k with
    | some e => s.allocFrames k (Prof.affinity e.profile) none
    | none => s) s

/-! ### Accepting a write -/

/-- Forget a held write. -/
def State.dropWrite (s : State) (wid : Nat) : State :=
  s.modStore fun st => { st with heldWrites := st.heldWrites.filter fun w => w.wid ≠ wid }

/-- Drop the T0 copies of a written block (R13, R73). -/
def State.dropT0 (s : State) (blk : Nat) : State :=
  s.modStore fun st => { st with t0 := st.t0.map fun c =>
    if c.sack = blk / 128 then { c with dropped := c.dropped ||| BitVec.ofNat 128 (2 ^ (blk % 128)) } else c }

/-- Would a staged block find no free unit of its owner's extent (R117)? -/
def State.stageFull (s : State) (e : Extent) (blk : Nat) : Bool :=
  let e := s.homeExt e blk
  Prof.lossy e.profile && !(s.tset e.profile).hasGen && e.resvStage != 0
    && (s.curBlk blk).side.kind != kStaged && (s.mergesOf blk).isEmpty
    && e.resvStage / 512 ≤ (s.unitsUsed e kStaged blk).length
      + (s.store.merges.filter fun m => (s.homeExt e m.blk).eid == e.eid && (s.curBlk m.blk).side.kind != kStaged).length

/-- Answer a completed write, unless a reset has discarded the answer (Table 14.7). -/
def State.doneWrite (s : State) (w : HeldWrite) : State := if w.muted then s else s.sendDone w.ld w.tag w.cls

/-- Discard a write's bytes over a poisoned block, with the count and the event of R244. -/
def State.unmerge (s : State) (w : HeldWrite) (e : Extent) : State :=
  (s.modStore fun st => { st with
    mergePoisonDrop := bump 16 st.mergePoisonDrop 1
    merges := (st.merges.map fun m => if m.blk = w.blk ∧ m.passed = false then
      { m with valid := m.valid &&& ~~~ writeMask w.line w.enables } else m).filter fun m => m.valid != 0 }).ueLog
    3 0 5 1 e.owner (s.dpaOf e w.blk)

/-- Put a write back among the held ones, its bytes in the merge buffer. -/
def State.parkMerged (s : State) (w : HeldWrite) (why : WriteWhy) : State :=
  (s.dropWrite w.wid).modStore fun st => { st with heldWrites := st.heldWrites ++ [{ w with why := why, merged := true }] }

/-- Hold a durable write's line in a mirror record and complete it, or hold it until one is free (R88, R89). -/
def State.mirrorWrite (s : State) (w : HeldWrite) (e : Extent) (d : Bytes) : State :=
  match (s.dropWrite w.wid).mirrorLine e w.blk w.line (lineBytes d w.line) with
  | some s => s.doneWrite w
  | none =>
    if w.why = .mirrorFull then s.parkMerged w .mirrorFull
    else (s.parkMerged w .mirrorFull).modStore fun st => { st with fullWait := bump 32 st.fullWait 1 }

/-- Finish a write whose bytes are in the merge buffer: a volatile write completes, a durable one once its line is in
a mirror record or, under write-through, once its block is programmed (R87, R88, R91). -/
def State.finishWrite (s : State) (w : HeldWrite) (e : Extent) : State :=
  if ¬ Prof.durable e.profile then (s.dropWrite w.wid).doneWrite w
  else if s.wt then
    if w.order ≤ (s.store.t2.get w.blk).order then (s.dropWrite w.wid).doneWrite w else s.parkMerged w .writeThrough
  else
    let ms := s.mergesOf w.blk
    if mergedValid ms &&& lineMask w.line = lineMask w.line then s.mirrorWrite w e (overMerge ms (zeros 512))
    else match s.newest e w.blk with
      | none => ((s.dropWrite w.wid).unmerge w e).doneWrite w
      | some d =>
        if s.blkNear w.blk then s.mirrorWrite w e d
        else if (s.sack w.sack).mst = .deep then
          match s.promote w.sack w.ld e none true w.cls with
          | (.noVictim, s) => s.mirrorWrite w e d
          | (_, s) => s.parkMerged w .completing
        else s.parkMerged w .completing

/-- What a write does to its sack when it is accepted: DEEP sacks are promoted, victims stay (R81, R87, R97). -/
def State.writeTouch (s : State) (ld cls : Nat) (e : Extent) (sack : Nat) : State :=
  let s := s.touch sack ld
  if (s.sack sack).mst = .deep then (s.promote sack ld e none true cls).2 else s

/-- A write with the poison indication poisons its whole block (R346). -/
def State.poisonWrite (s : State) (w : HeldWrite) : State :=
  let s := (s.dropWrite w.wid).dropT0 w.blk
  let s := s.modStore fun st => { st with merges := st.merges.filter fun m => m.blk ≠ w.blk
                                          mirrors := st.mirrors.filter fun m => m.blk ≠ w.blk }
  let s := s.poisonBlock w.blk
  let s := { s with mbox := { s.mbox with external := if s.mbox.external.contains w.blk then s.mbox.external else w.blk :: s.mbox.external } }
  s.doneWrite w

/-- Take a write as far as it can go: allocation, the merge buffer, then completion. -/
def State.tryWrite (s : State) (w : HeldWrite) (e : Extent) : State :=
  if w.merged then s.finishWrite w e
  else
    let park := fun (s : State) (why : WriteWhy) => s.modStore fun st => { st with
      heldWrites := if st.heldWrites.any fun x => x.wid == w.wid
        then st.heldWrites.map fun x => if x.wid = w.wid then { x with why := why } else x
        else st.heldWrites ++ [{ w with why := why }] }
    let k := s.sack w.sack
    if s.earlier w.ld w.dpa w.blk w.wid then park s .order
    else if s.entryAway w.sack then park s .rebuild
    else if s.entryBad w.sack then park (s.markCorrupt w.sack) .corrupt
    else match k.mst with
    | .unmapped => park (s.allocate e w.sack) .allocating
    | .allocating => park s .allocating
    | _ =>
      if ¬ s.mayReach w.ld e k then ((s.isolation w.ld w.dpa w.sack).dropWrite w.wid).doneWrite w
      else if w.poison then s.poisonWrite w
      else if s.stageFull e w.blk then
        if w.why = .stageFull then park s .stageFull
        else (park s .stageFull).modMrc e.owner fun m => { m with held := bump 32 m.held 1 }
      else if (s.openEnt w.blk).isNone ∧ ¬ s.mergeRoom w.ld then park s.mergePressure .mergeFull
      else
        let s := s.writeTouch w.ld w.cls e w.sack
        let s := (s.merge w.ld w.cls e w.blk w.line w.data w.enables).dropT0 w.blk
        s.finishWrite { w with order := s.store.written } e

/-- A CXL.mem write of a stored line, its extent being served (R15, Table 1.3). -/
def State.writeLine (s : State) (ld dpa tag : Nat) (e : Extent) (data : Bytes) (enables : BitVec 64) (poison : Bool)
    (muted : Bool := false) (cls : Nat := Prof.wclass e.profile) : State :=
  let w : HeldWrite := { wid := s.store.nextRid, ld := ld, dpa := dpa, eid := e.eid, sack := s.sackOf e dpa, blk := s.blkOf e dpa,
                         line := lineOf dpa, data := data, enables := enables, poison := poison, tag := tag,
                         why := .completing, merged := false, muted := muted, cls := cls, start := s.now }
  (s.modStore fun st => { st with nextRid := st.nextRid + 1 }).tryWrite w e

/-- Try one held write again. -/
def State.retryWrite (s : State) (w : HeldWrite) : State :=
  match s.extById w.eid with
  | some e => s.tryWrite w e
  | none => (s.dropWrite w.wid).doneWrite w

/-- Try again a request that was held for an earlier one. -/
def State.wakeOne (s : State) (rid : Nat) : State :=
  match s.store.heldReads.find? fun r => r.rid == rid && r.why == .order with
  | some r => s.retryRead r
  | none =>
    match s.store.heldWrites.find? fun w => w.wid == rid && w.why == .order with
    | some w => s.retryWrite w
    | none => s

/-- Requests held for an earlier one of their LD to their line go on, in order of acceptance, once it has completed (R15). -/
def State.wakeOrder (s : State) : State :=
  (sortNat (((s.store.heldReads.filter fun r => r.why == .order).map HeldRead.rid)
    ++ (s.store.heldWrites.filter fun w => w.why == .order).map HeldWrite.wid)).foldl State.wakeOne s

/-- Try the held reads that a predicate picks, in order of acceptance. -/
def State.retryReads (s : State) (p : HeldRead → Bool) : State := ((s.store.heldReads.filter p).foldl State.retryRead s).wakeOrder

/-- Try held writes again in order of acceptance. -/
def State.retryWrites (s : State) (p : HeldWrite → Bool) : State := ((s.store.heldWrites.filter p).foldl State.retryWrite s).wakeOrder

/-- The durable mode may have changed: the writes that wait under the one go on under the other (R91, R260). -/
def State.modeChanged (s : State) : State := s.retryWrites fun w => w.why == .writeThrough || w.why == .mirrorFull

/-- Try again the held request of a number. -/
def State.retryRid (s : State) (rid : Nat) : State :=
  match s.store.heldReads.find? fun r => r.rid = rid with
  | some r => s.retryRead r
  | none =>
    match s.store.heldWrites.find? fun w => w.wid = rid with
    | some w => s.retryWrite w
    | none => s

/-- Try held reads and writes again, all in one order of acceptance (R40, R79). -/
def State.retryHeld (s : State) (p : HeldRead → Bool) (q : HeldWrite → Bool) : State :=
  ((sortNat (((s.store.heldReads.filter p).map HeldRead.rid) ++ (s.store.heldWrites.filter q).map HeldWrite.wid)).foldl
    State.retryRid s).wakeOrder

/-! ### The deep tier's charges (R249, R251) -/

/-- Slots of a sack's run that hold units of a set of blocks. -/
def slotsTouched (unit : Nat) (blocks : BitVec 128) : List Nat :=
  ((List.range 128).filter fun b => blocks.getLsbD b).foldl (fun a b =>
    let x := b * unit / 8192
    if a.contains x then a else a ++ [x]) []

/-- Is some unit of a slot not among the programmed blocks (R249)? -/
def slotPartial (unit slot : Nat) (blocks : BitVec 128) : Bool :=
  (List.range 128).any fun b => b * unit / 8192 == slot && !blocks.getLsbD b

/-- May charged programming go on: not held to rate B, or due under it (R252)? -/
def State.mayProgram (s : State) : Bool := !s.throttled || decide (s.deep.nextProg ≤ s.now)

/-- Program slots of a sack's run that hold a set of blocks: charged to the budget and to a class at the DEEPPG weir, merge reads
counted (R249, R251). -/
def State.programSlots (s : State) (sack : Nat) (blocks : BitVec 128) (unit ld cls : Nat) : State :=
  let slots := slotsTouched unit blocks
  let next := if s.throttled then max s.deep.nextProg s.now + slots.length * 81920 / max 1 s.deep.budget else s.deep.nextProg
  let s := (s.chargeSlots slots.length).serve ld 2 cls (slots.length * 8192) 0 none
  let k := s.sack sack
  { s with deep := { s.deep with
    nextProg := next
    mergeReads := s.deep.mergeReads + (slots.filter fun x => slotPartial unit x blocks).length
    programming := s.deep.programming ++ (slots.map (· + k.slot)).filter fun x => !s.deep.programming.contains x } }

/-- Program a sack's captured blocks to its deep slots (R249). -/
def State.programBlocks (s : State) (sack : Nat) (blocks : BitVec 128) (unit : Nat) : State :=
  let bs := (List.range 128).filter fun b => blocks.getLsbD b
  let s := s.modStore fun st => { st with t2 := bs.foldl (fun t b => t.set (sack * 128 + b) (st.t1.get (sack * 128 + b))) st.t2 }
  let k := s.sack sack
  let n := (bs.map fun b => (s.store.t1.get (sack * 128 + b)).bytes.length).foldl (· + ·) 0
  (s.serve k.ldtag 0 k.cclass n 0 none).programSlots sack blocks unit k.ldtag k.cclass

/-! ### The encoder (R83, R241, R244) -/

/-- Arm to apply: the owner's flip-mask meets this block's payload (R278). -/
def State.applyFlip (s : State) (ld blk kind : Nat) : State :=
  let f := (s.integ.lds.get ld).flip
  if f.state = .armed ∧ f.blk = blk ∧ kind = kCoded then
    (s.modIntegLd ld fun l => { l with flip := { l.flip with state := .applied } }).setErr blk f.word f.mask
  else s

/-- The writes held under write-through whose bytes are in a block's programmed image complete (R91). -/
def State.wtDone (s : State) (blk : Nat) : State :=
  (s.store.heldWrites.filter fun w => w.blk = blk ∧ w.why = .writeThrough ∧ w.order ≤ (s.store.t2.get blk).order).foldl (fun s w =>
    (s.dropWrite w.wid).doneWrite w) s

/-- Codec cache entries of a written block: its copy is new, and a unit that is or was plain is built from its mark (R109). -/
def State.cacheWritten (s : State) (blk : Nat) (plain : Bool) : State :=
  s.modStore fun st => { st with cacheMissing := st.cacheMissing.filter fun x => x ≠ cacheCopy blk ∧ ¬ (plain = true ∧ x = cacheUnit blk) }

/-- The lines of a block's position are written: corrections at their rows are of data written anew (R273). -/
def State.rewriteBlk (s : State) (e : Extent) (blk bytes : Nat) : State :=
  let k := s.sack (blk / 128)
  (List.range ((bytes + 63) / 64)).foldl (fun s i =>
    s.rewrite 0 (nearLoc k.stack (lineAt s.near.bankhash (128 * k.frame + blk % 128 * Prof.unit e.profile / 64 + i)))) s

/-- Put an encoded block where its sack keeps it: its frame position, with DIRTY set, or its deep slot (R77, R84). Its payload is charged
to an LD's class at the weir of either (Table 8.6). -/
def State.land (s : State) (e : Extent) (ld cls blk : Nat) (v : StoredBlk) : State :=
  let sack := blk / 128
  let b := blk % 128
  let bit : BitVec 128 := BitVec.ofNat 128 (2 ^ b)
  let was := s.plainMark e sack (b / 64) != 0
  let s := (s.clearErrs blk).storeImage blk v
  let s := s.modSack sack fun k =>
    { k with poison := k.poison && k.unwritten &&& ~~~ bit != 0, unwritten := k.unwritten &&& ~~~ bit }
  let s := if (s.sack sack).near then ((s.useBlk e blk v.bytes.length).rewriteBlk e blk v.bytes.length).serve ld 0 cls v.bytes.length 0 none
    else ((s.programSlots sack bit (Prof.unit e.profile) ld cls).countNoFrame).wtDone blk
  let s := ((s.fixSpill sack).cacheWritten blk (was || s.plainMark e sack (b / 64) != 0)).applyFlip e.owner blk v.side.kind
  let s := { s with mbox := { s.mbox with
    injected := s.mbox.injected.filter (· ≠ blk), external := s.mbox.external.filter (· ≠ blk), retracted := s.mbox.retracted.filter (· ≠ blk) } }
  s.cacheTrim 4096

/-- What an encoded block finds at its sack: frames, or T2 where no victim exists on any stack; none where it has to wait for frames
or for the endurance budget (R77, R87, R252). -/
def State.landing (s : State) (e : Extent) (m : MergeEnt) : Option State :=
  match (s.sack (m.blk / 128)).mst with
  | .unmapped | .allocating => none
  | .deep =>
    match s.promote (m.blk / 128) m.opener e none true m.cls with
    | (.noVictim, s) => if s.mayProgram then some s else none
    | (.started, s) => some s
    | (.waits, _) => none
  | _ =>
    let k := s.sack (m.blk / 128)
    if k.near ∧ s.stackBusy k.stack then none else some (s.touch (m.blk / 128) m.opener)

/-- Encode one passed entry of a block and land it. Answers none where the entry must wait (R83, R117). -/
def State.encodeEnt (s : State) (e : Extent) (m : MergeEnt) : Option State :=
  if m.valid ≠ BitVec.allOnes 512 ∧ ¬ s.blkNear m.blk ∧ ¬ s.isPoison m.blk then none
  else
    let s := if m.valid ≠ BitVec.allOnes 512 then s.modSack (m.blk / 128) fun k => { k with ref := k.near } else s
    match (if m.valid = BitVec.allOnes 512 then some m.data else (s.blkData e m.blk).map fun d => maskBytes m.valid 0 d m.data) with
    | none =>
      let s := s.modStore fun st => { st with merges := st.merges.filter (· ≠ m), mergePoisonDrop := bump 16 st.mergePoisonDrop 1 }
      some (s.ueLog 3 0 5 1 e.owner (s.dpaOf e m.blk))
    | some d =>
      match s.landing e m with
      | none => none
      | some s =>
        match (s.modStore fun st => { st with merges := st.merges.filter (· ≠ m) }).encode e m.blk d m.order with
        | none => none
        | some (v, s) => some (((s.land e m.opener m.cls m.blk v).freeMirror m.blk).dropT0 m.blk)

/-! ### Victims, write-back and demotion (R75, R84, R85) -/

/-- The captured set of a write-back: DIRTY captured and cleared (Table 4.3). DEDUCED, log entry 12. -/
def State.startWriteback (s : State) (sack : Nat) (evict : Bool) (eid : Nat) : State :=
  let k := s.sack sack
  let s := s.setSack sack { k with mst := .writeback, captured := k.captured ||| k.dirty, dirty := 0, evict := evict }
  s.addXfer { s.newXfer sack (if evict then .victimWriteback else .writeback) eid k.ldtag k.cclass with endur := s.throttled }

/-- Undo a speculative copy (R98): back to DEEP, nothing written. -/
def State.undoSpec (s : State) (sack : Nat) : State :=
  let k := s.sack sack
  if k.spec then
    let s := (s.toDeep sack false).endXfer sack
    s.modMrc (k.swheel / 16) fun m => { m with undone := bump 32 m.undone 1 }
  else s

/-- One victim: what Table 4.3 does to it. -/
def State.evictSack (s : State) (sack : Nat) : State :=
  let eid := match s.extOfSack sack with | some e => e.eid | none => 0
  match (s.sack sack).mst with
  | .specClean => s.undoSpec sack
  | .clean =>
    (s.modSack sack fun k => { k with mst := .demoting }).modStore fun st => { st with t0 := st.t0.filter fun c => c.sack ≠ sack }
  | .dirty => s.startWriteback sack true eid
  | _ => s

/-- Near-tier frames that a class holds. -/
def State.classFrames (s : State) (c : Nat) : Nat :=
  (s.nearSacks.filter fun k => (s.sack k).cclass == c).foldl (fun a k => a + (s.sack k).size + 1) 0

def insertSince (s : State) (x : Nat) : List Nat → List Nat
  | [] => [x]
  | y :: ys => if (s.sack x).since ≤ (s.sack y).since then x :: y :: ys else y :: insertSince s x ys

/-- Is a class above its share of the sack cache (Table 8.4)? DEDUCED, log entry 89. -/
def State.overShare (s : State) (c : Nat) : Bool :=
  (s.weir.classes.get c).cache * (s.framesPerStack * s.healthyStacks.length) < 256 * s.classFrames c

/-- The copy, of some on one stack, with the lowest frame at or above a place. -/
def State.frameFrom (s : State) (lo : Nat) (ks : List Nat) : Option Nat :=
  (ks.filter fun k => lo ≤ (s.sack k).frame).foldl (fun a k =>
    match a with
    | none => some k
    | some b => if (s.sack k).frame < (s.sack b).frame then some k else a) none

/-- The copy that a clock scan over frames comes to next. -/
def State.clockNext (s : State) (stack : Nat) (ks : List Nat) : Option Nat :=
  (s.frameFrom (s.near.stks.get stack).hand ks).or (s.frameFrom 0 ks)

/-- What the victim scan of a stack comes to next, in the order of R75, and whether a set REF passes it over: SPEC_CLEAN oldest first,
copies of classes above their capacity share, CLEAN and then DIRTY by the clock scan. DEDUCED, log entry 89. -/
def State.scanNext (s : State) (stack : Nat) : Option (Nat × Bool) :=
  let c := s.store.sacks.keys.filter fun k => (s.sack k).near && (s.sack k).stack == stack && s.canVictim k
  let of := fun (m : Mst) => c.filter fun k => (s.sack k).mst == m
  let high := fun (m : Mst) => (of m).filter fun k => s.overShare (s.sack k).cclass
  match ((of .specClean).foldr (insertSince s) []).head?.or ((s.frameFrom 0 (high .clean)).or (s.frameFrom 0 (high .dirty))) with
  | some k => some (k, false)
  | none => ((s.clockNext stack (of .clean)).or (s.clockNext stack (of .dirty))).map fun k => (k, (s.sack k).ref)

/-- Frames on their way to being free. -/
def State.leavingFrames (s : State) (stack : Nat) : Nat :=
  (s.store.sacks.keys.filter fun k => (s.sack k).near && (s.sack k).stack == stack
      && ((s.sack k).mst == .demoting || ((s.sack k).mst == .writeback && (s.sack k).evict))).foldl
    (fun a k => a + (s.sack k).size + 1) 0

/-- One step of the victim scan: a copy is chosen, or passed over with its REF cleared; the scan stands behind it. -/
def State.scanStep (s : State) (stack : Nat) (r : Nat × Bool) : State :=
  let f := (s.sack r.1).frame
  let s := if r.2 then s.modSack r.1 fun k => { k with ref := false } else s.evictSack r.1
  s.modStack stack fun x => { x with hand := f + 1 }

/-- Frames of a stack that are free or on their way to being free. -/
def State.comingFrames (s : State) (stack : Nat) : Nat := s.freeFrames stack + s.leavingFrames stack

/-- Choose victims until a goal of free frames is met (R75). -/
def State.evictUntil (s : State) (stack goal : Nat) : Nat → State
  | 0 => s
  | fuel + 1 =>
    if goal ≤ s.comingFrames stack then s
    else match s.scanNext stack with
      | none => s
      | some r => (s.scanStep stack r).evictUntil stack goal fuel

/-- Does a transfer or an allocation wait for a run of frames, with none on the way (R75)? -/
def State.wantsRun (s : State) (stack : Nat) : Bool :=
  s.leavingFrames stack == 0 && ((s.store.xfers.any fun x => (s.sack x.sack).mst == .deep)
    || s.store.sacks.keys.any fun k => (s.sack k).mst == .allocating && (s.sack k).waits)

/-- What the victim scan of a stack aims for: 1/32 of its frames, and one copy more where a transfer waits for a run (R75). DEDUCED, log
entry 89. -/
def State.scanGoal (s : State) (stack : Nat) : Nat :=
  max ((s.framesPerStack + 31) / 32) (if s.wantsRun stack then s.comingFrames stack + 1 else 0)

/-- Sacks whose durable mirror records are oldest, while more than the low trigger are in use (Table 4.5). -/
def State.mirrorPressure (s : State) : State :=
  if s.store.mirrors.length ≤ 8388608 then s
  else ((s.store.mirrors.take (s.store.mirrors.length - 6291456 + 1)).map fun m => m.blk / 128).foldl (fun s k =>
    if (s.sack k).mst = .dirty then
      s.startWriteback k false (match s.extOfSack k with | some e => e.eid | none => 0)
    else s) s

/-- A near copy is installed: CLEAN, or DIRTY if a block was written on the way (Table 4.3). -/
def State.install (s : State) (sack : Nat) : State :=
  s.modSack sack fun k => { k with
    tier := .t1
    mst := if k.mst = .specPromoting then .specClean else if k.dirty = 0 then .clean else .dirty
    arrived := 0
    since := s.now }

end Sys2Proof.Machine
end

