-- ==== Sys2Proof/Machine/Fantail.lean ====
section
/-! DEFINITION. The fantail: applying positions, entering slots, releasing entries, re-phasing, resuming, survey and
learning (R52 to R69), as shared operations. -/
namespace Sys2Proof.Machine

/-! ### Entries -/

/-- The largest debt that does not re-phase a wheel (R58). -/
def debtMax : Nat := 16

def Wheel.lead (x : Wheel) (e : SEntry) : Nat := if e.lead = 0 then x.dlead else e.lead

/-- The effective lead of an entry (R57). -/
def Wheel.effLead (x : Wheel) (e : SEntry) : Nat := min (min (x.lead e + x.debt) 32) x.n

/-- The lowest need index of an entry above `k`. -/
def Wheel.nextNeed (x : Wheel) (e : SEntry) (k : Nat) : Nat :=
  let base := k / x.n * x.n + e.layer
  if k < base then base else base + x.n

/-- The lowest need index at or above `k`. -/
def Wheel.needFrom (x : Wheel) (e : SEntry) (k : Nat) : Nat := if k % x.n = e.layer then k else x.nextNeed e k

def SEntry.isFetch (e : SEntry) : Bool := e.action == 0 || e.action == 1
def SEntry.cold (e : SEntry) : Bool := e.hist % 2 == 0

/-- Lowest set bit of HIST, 8 for none (R96). -/
def lowBit (h : Nat) : Nat := ((List.range 8).find? fun i => h.testBit i).getD 8

/-- Schedule entries held by all open wheels (R56). -/
def State.schedTotal (s : State) : Nat :=
  (s.sweep.wheels.cells.map fun c =>
    c.2.sched.length + (match c.2.staged with | some l => l.length | none => 0)).foldl (· + ·) 0

/-- The sack map index of an LD's DPA sack, where it lies in an ACTIVE extent. -/
def State.activeSack (s : State) (ld dpaSack : Nat) : Option (Extent × Nat) :=
  match s.extAt ld (dpaSack * 65536) with
  | some e => if e.state = .active ∧ ¬ Prof.gate e.profile then some (e, s.sackOf e (dpaSack * 65536)) else none
  | none => none

/-- The sack map indices that an entry names now. -/
def State.entrySacks (s : State) (ld : Nat) (e : SEntry) : List Nat :=
  (List.range e.count).filterMap fun i => (s.activeSack ld (e.sack + i)).map Prod.snd

def State.modEntry (s : State) (w i : Nat) (f : SEntry → SEntry) : State :=
  s.modWheel w fun x => { x with sched := x.sched.zipIdx.map fun p => if p.2 = i then f p.1 else p.1 }

/-! ### Issuing one release (R57, R58, R73, R96) -/

/-- The staging part of a die (R73, R128): 40 MiB. -/
def stagingBytes : Nat := 40 * MiB

/-- What a staged copy takes: the payload and the 128 side records of 8 bytes (R73). -/
def State.t0Bytes (s : State) (sack : Nat) : Nat := ((s.sack sack).size + 1) * 8192 + 1024

def State.t0Used (s : State) (die : Nat) : Nat :=
  ((s.store.t0.filter fun c => c.die = die).map fun c => s.t0Bytes c.sack).foldl (· + ·) 0

/-- Drop the least recently staged copies of a die until `need` bytes fit; a copy held by an operation stays. -/
def State.t0Room (s : State) (die need : Nat) : Nat → State
  | 0 => s
  | fuel + 1 =>
    if s.t0Used die + need ≤ stagingBytes then s
    else match s.store.t0.find? fun c => c.die = die ∧ ¬ (s.store.holds.any fun h => h.sack == c.sack &&
        (match h.who with | .op _ _ => true | _ => false)) with
      | none => s
      | some c => (s.modStore fun st => { st with t0 := st.t0.filter (· ≠ c) }).t0Room die need fuel

/-- Stage a near sack into the T0 of a die that has not failed (R22, R73). -/
def State.stageT0 (s : State) (sack die w : Nat) : State :=
  if s.health.deadDies.contains die then s
  else
  let need := s.t0Bytes sack
  let s := s.modStore fun st => { st with t0 := st.t0.filter fun c => ¬ (c.sack = sack ∧ c.die = die) }
  let s := s.t0Room die need 8192
  if s.t0Used die + need ≤ stagingBytes then
    s.modStore fun st => { st with t0 := st.t0 ++ [{ sack := sack, die := die, wheel := w, since := s.now }] }
  else s

/-- The die that an entry names (R74, rule 1). -/
def SEntry.dieOf (e : SEntry) : Option Nat := if e.anydie then none else some e.die

/-- A wheel's entry is served by the transfer of a sack that is on its way. -/
def State.joinXfer (s : State) (sack : Nat) (want : Nat × Option Nat) : State :=
  s.modStore fun st => { st with xfers := st.xfers.map fun x =>
    if x.sack = sack then { x with wants := if x.wants.contains want then x.wants else x.wants ++ [want] } else x }

/-- What the release of a confirmed fetch entry does with one sack: a hold, and a promotion where it is DEEP. Answers
whether the sack has still to arrive. -/
def State.fetchSack (s : State) (w : Nat) (x : Extent) (sack : Nat) (e : SEntry) (cls : Nat) : Bool × State :=
  let ld := w / 16
  let s := s.addHold sack ld (.wheel w)
  match (s.sack sack).mst with
  | .deep => (true, (s.promoteFor sack ld x e.dieOf false none cls [(w, e.dieOf)]).2)
  | .promoting | .specPromoting => (true, s.joinXfer sack (w, e.dieOf))
  | .unmapped | .allocating => (false, s)
  | _ => (false, if e.action = 1 then s.stageT0 sack e.die w else s)

/-- Release every sack of a confirmed entry. -/
def State.fetchAll (s : State) (w : Nat) (e : SEntry) (cls : Nat) : List (Extent × Nat) → List Nat → State × List Nat
  | [], wait => (s, wait)
  | (x, k) :: rest, wait =>
    let (wt, s) := s.fetchSack w x k e cls
    s.fetchAll w e cls rest (if wt then wait ++ [k] else wait)

/-- Frames, in bytes, of an LD's unconfirmed speculative copies. -/
def State.specBytes (s : State) (ld : Nat) : Nat :=
  ((s.store.sacks.cells.filter fun c => c.2.spec && c.2.swheel / 16 == ld).map fun c => (c.2.size + 1) * 8192).foldl (· + ·) 0

/-- An entry's payload in the allowance test: that of its DEEP sacks, which are what it would bring in. DESIGN CHOICE, log entry 100. -/
def State.entryBytes (s : State) (ld : Nat) (e : SEntry) : Nat :=
  (((s.entrySacks ld e).filter fun k => (s.sack k).mst == .deep).map fun k => ((s.sack k).size + 1) * 8192).foldl (· + ·) 0

/-- Would a speculative copy leave its stack above the low watermark (R75, R96)? -/
def State.specRoom (s : State) (x : Extent) (sack : Nat) (die : Option Nat) : Bool :=
  match s.place die (Prof.affinity x.profile) sack ((s.sack sack).size + 1) with
  | some (k, _, _) => s.framesPerStack ≤ 64 * (s.freeFrames k - ((s.sack sack).size + 1))
  | none => false

/-- Issue one sack speculatively, where a free run allows it (R96). Answers whether it has still to arrive. -/
def State.specSack (s : State) (w : Nat) (x : Extent) (sack : Nat) (e : SEntry) : Option (Bool × State) :=
  let ld := w / 16
  match (s.sack sack).mst with
  | .deep =>
    if s.specRoom x sack e.dieOf then
      match s.promoteFor sack ld x e.dieOf false (some w) (s.wheel w).pclass [(w, e.dieOf)] with
      | (.started, s) => some (true, s.modMrc ld fun m => { m with specIssued := bump 32 m.specIssued 1 })
      | _ => none
    else none
  | .unmapped | .allocating => some (false, s)
  | _ =>
    let s := if e.action = 1 ∧ (s.sack sack).tier = .t1 then s.stageT0 sack e.die w else s
    some (false, s.modMrc ld fun m => { m with specIssued := bump 32 m.specIssued 1, specConfirmed := bump 32 m.specConfirmed 1 })

/-- Issue every sack of a cold entry, or none. -/
def State.specAll (s : State) (w : Nat) (e : SEntry) : List (Extent × Nat) → List Nat → Option (State × List Nat)
  | [], wait => some (s, wait)
  | (x, k) :: rest, wait =>
    match s.specSack w x k e with
    | some (wt, s) => s.specAll w e rest (if wt then wait ++ [k] else wait)
    | none => none

/-- The extents and sacks that an entry names and that lie in ACTIVE extents. -/
def State.activeSacks (s : State) (ld : Nat) (e : SEntry) : List (Extent × Nat) :=
  (List.range e.count).filterMap fun i => s.activeSack ld (e.sack + i)

/-- Count the sacks of a release that lie outside ACTIVE extents (R57). -/
def State.countSkips (s : State) (w : Nat) (e : SEntry) : State :=
  let n := e.count - (s.activeSacks (w / 16) e).length
  if n = 0 then s else s.modWheel w fun x => { x with skip := bump 32 x.skip n }

/-- Release a cold entry: within the allowance, the class's unused share of what it uses and the free runs it is issued whole, else
its sacks are counted as skipped (R96, R99). Answers the sacks still to arrive. -/
def State.releaseCold (s : State) (w : Nat) (e : SEntry) : State × List Nat :=
  let ld := w / 16
  let sacks := s.activeSacks ld e
  let cls := (s.wheel w).pclass
  let ok := decide (s.specBytes ld + s.entryBytes ld e ≤ (s.store.mrc.get ld).allow * MiB) && s.unused cls 0 && s.unused cls 1
  match (if ok then s.specAll w e sacks [] else none) with
  | some (s, wait) => (s.countSkips w e, wait)
  | none => (s.modMrc ld fun m => { m with skipped := bump 32 m.skipped sacks.length }, [])

/-- Mark an entry released for need index `n` and do what its action says. -/
def State.release (s : State) (w i n cls : Nat) (spec : Bool) : State :=
  match (s.wheel w).sched[i]? with
  | none => s
  | some e =>
    let k := (s.wheel w).k
    let sacks := s.activeSacks (w / 16) e
    if e.isFetch then
      if spec then
        let (s, wait) := s.releaseCold w e
        s.modEntry w i fun e =>
          { e with relNeed := n + 1, need := n, live := true, spec := true, waiting := wait, doneAt := some (s.now, k) }
      else
        let (s, wait) := (s.countSkips w e).fetchAll w e cls sacks []
        s.modEntry w i fun e =>
          { e with relNeed := n + 1, need := n, live := true, spec := false, waiting := wait,
                   doneAt := if wait.isEmpty then some (s.now, k) else none }
    else
      let s := if e.action = 3 then
          sacks.foldl (fun s x => if (s.sack x.2).near then s.addHold x.2 (w / 16) (.wheel w) else s) (s.countSkips w e)
        else s
      s.modEntry w i fun e => { e with relNeed := n + 1, need := n, live := true, waiting := [], doneAt := some (s.now, k) }

/-- Insert by the lowest set bit of HIST, keeping schedule order within a tie (R96). -/
def insertCold (x : Nat × Nat × Nat) : List (Nat × Nat × Nat) → List (Nat × Nat × Nat)
  | [] => [x]
  | y :: ys => if x.2.2 < y.2.2 then x :: y :: ys else y :: insertCold x ys

/-- The entries due: index and need index, confirmed ones in schedule order, then cold ones in the order of R96. -/
def Wheel.due (x : Wheel) (pick : SEntry → Option Nat) : List (Nat × Nat) × List (Nat × Nat) :=
  let ds := x.sched.zipIdx.filterMap fun p => (pick p.1).map fun n => (p.2, n, p.1)
  let isCold := fun (e : SEntry) => x.spec && e.isFetch && e.cold
  let hot := (ds.filter fun d => !isCold d.2.2).map fun d => (d.1, d.2.1)
  let cold := (ds.filter fun d => isCold d.2.2).map fun d => (d.1, d.2.1, if d.2.2.hist % 256 = 0 then 8 else lowBit d.2.2.hist)
  (hot, ((cold.foldl (fun acc c => insertCold c acc) []).map fun c => (c.1, c.2.1)))

/-- Release the entries that a choice picks, at a class. DEDUCED, log entry 45. -/
def State.releaseDue (s : State) (w cls : Nat) (pick : SEntry → Option Nat) : State :=
  let (hot, cold) := (s.wheel w).due pick
  let s := hot.foldl (fun s d => s.release w d.1 d.2 cls false) s
  cold.foldl (fun s d => s.release w d.1 d.2 cls true) s

/-- The entries whose release index is `k` or less and that are not released (R58, step 4). -/
def Wheel.pickSlot (x : Wheel) (k : Nat) (e : SEntry) : Option Nat :=
  let n := x.nextNeed e k
  if n - x.effLead e ≤ k ∧ e.relNeed ≤ n then some n else none

def Wheel.cls (x : Wheel) : Nat := if 0 < x.debt then x.cclass else x.pclass

/-! ### Leaving layers (Table 4.4, R80, R95, R98) -/

/-- Was an entry released for its need index in `lo` to `hi`? -/
def Wheel.leftNeed (x : Wheel) (e : SEntry) (lo hi : Nat) : Bool := x.needFrom e lo ≤ hi && x.needFrom e lo < e.relNeed

/-- Is an entry released for a later layer of the turn of `hi`? -/
def Wheel.laterHold (x : Wheel) (e : SEntry) (hi : Nat) : Bool :=
  let n := x.nextNeed e hi
  n < e.relNeed && n / x.n == hi / x.n

/-- An entry at its layer's boundary: its history moves up one place and takes in whether the layer was read (R95). -/
def SEntry.shifted (e : SEntry) : SEntry :=
  let unread := if e.readNow then 0 else e.unread + 1
  { e with hist := (e.hist * 2) % 256 + b2n e.readNow, readNow := false, unread := unread }

/-- The position leaves slots `lo` to `hi`: the histories of the entries needed there shift (R95). -/
def State.shiftHist (s : State) (w lo hi : Nat) : State :=
  s.modWheel w fun x =>
    { x with sched := x.sched.map fun e => if x.needFrom e lo ≤ hi then e.shifted else e }

/-- The position has left slots `lo` to `hi`: holds drop and unconfirmed copies are undone; `rel` says that release-after entries
act (R58, step 5). Learned entries unread for eight turns and old entries that have completed go (R61, R63). -/
def State.leave (s : State) (w lo hi : Nat) (rel : Bool) : State :=
  let x := s.wheel w
  let ld := w / 16
  let ents := x.sched ++ x.old
  let left := ents.filter fun e => (e.isFetch || e.action == 3) && x.leftNeed e lo hi
  let after := ents.filter fun e => rel && e.action == 2 && x.needFrom e lo ≤ hi
  let later := ents.filter fun e => (e.isFetch || e.action == 3) && x.laterHold e hi
  let keep := later.flatMap (s.entrySacks ld)
  let drop := (left.flatMap (s.entrySacks ld)).filter fun k => !keep.contains k
  let gone := drop ++ after.flatMap (s.entrySacks ld)
  let s := s.dropHolds fun h => h.who == .wheel w && gone.contains h.sack
  let s := (left.flatMap (s.entrySacks ld)).foldl (fun s k =>
    if (s.sack k).spec ∧ (s.sack k).swheel = w then s.undoSpec k else s) s
  s.modWheel w fun x =>
    { x with sched := x.sched.filter fun e => !(e.learned && 8 ≤ e.unread)
             old := x.old.filter fun e => hi + 1 < e.relNeed || !e.waiting.isEmpty }

/-! ### Re-phase (R59) -/

/-- Undo every unconfirmed speculative copy of a wheel (R98). -/
def State.undoWheel (s : State) (w : Nat) : State :=
  (s.store.sacks.keys.filter fun k => (s.sack k).spec && (s.sack k).swheel == w).foldl State.undoSpec s

/-- Cancel what a wheel has asked for and not issued, but for the sacks that a choice keeps (R59, R67, R69). -/
def State.cancelWheel (s : State) (w : Nat) (keep : Nat → Bool) : State :=
  s.cancelWants fun x y => y.1 == w && !keep x.sack

/-- Re-phase a wheel at index `k`: debt 0, entries up to `k` done without issuing them, those within their lead released,
but for a stopped wheel, which releases nothing (Table 3.1). -/
def State.rephaseAt (s : State) (w k : Nat) : State :=
  let x := s.wheel w
  let later := ((x.sched ++ x.old).filter fun e => k < e.need).flatMap SEntry.waiting
  let s := s.cancelWheel w later.contains
  let issued := s.issuedXfer
  let s := s.modWheel w fun x =>
    { x with debt := 0, rephase := bump 16 x.rephase 1,
             sched := x.sched.map fun e =>
               { e with relNeed := max e.relNeed (x.nextNeed e k + 1 - x.n), waiting := if k < e.need then e.waiting else e.waiting.filter issued } }
  let x := s.wheel w
  let s := s.undoWheel w
  let s := if x.state = .idle ∨ x.state = .resting then s else s.releaseDue w x.cclass fun e =>
    let n := x.nextNeed e k
    if n ≤ k + x.lead e ∧ e.relNeed ≤ n then some n else none
  s.post (w / 16) 0 { Event.of 4 (w / 16) 1 [] with
    turn := k / x.n + 1, layer := k % x.n, wheel := w % 16, nopos := false }

/-! ### Slot entry (R58, R61) -/

/-- Mean slot length over the last 64 slots, in hub cycles. -/
def Wheel.avg (x : Wheel) : Nat := if x.slots.isEmpty then 0 else min (x.slots.foldl (· + ·) 0 / x.slots.length) (2 ^ 32 - 1)

/-- ns to hub cycles at 1.8 GHz. -/
def hubCycles (ns : Nat) : Nat := ns * 9 / 5

/-- Has an entry completed for need index `k`? -/
def SEntry.complete (e : SEntry) (k : Nat) : Bool := k < e.relNeed && (e.need != k || e.spec || e.waiting.isEmpty)

/-- Tuning of one entry at its deadline (R61). -/
def Wheel.tune (x : Wheel) (now k : Nat) (e : SEntry) : SEntry :=
  let lead := x.lead e
  let tight := match e.doneAt with
    | none => true
    | some (t, _) => !(e.complete k) || 8 * hubCycles (now - t) < x.avg
  let early := match e.doneAt with
    | none => false
    | some (_, ka) => e.complete k && ka + (lead - 1) < k
  let lateRun := if tight then e.lateRun + 1 else 0
  let earlyRun := if early then e.earlyRun + 1 else 0
  if 2 ≤ lateRun ∧ lead < 16 then { e with lead := lead + 1, lateRun := 0, earlyRun := 0 }
  else if 8 ≤ earlyRun ∧ 1 < lead then { e with lead := lead - 1, lateRun := 0, earlyRun := 0 }
  else { e with lateRun := lateRun, earlyRun := earlyRun }

/-- Record the length of the slot that ends (WHL_SLOT) and set the position to index `k`. -/
def State.moveTo (s : State) (w k : Nat) : State :=
  s.modWheel w fun x =>
    let len := min (hubCycles (s.now - x.slotStart)) (2 ^ 32 - 1)
    { x with k := k, turn := k / x.n + 1, layer := k % x.n, slotStart := s.now
             slots := (x.slots ++ [len]).drop (x.slots.length + 1 - 64) }

def insertLayer (e : SEntry) : List SEntry → List SEntry
  | [] => [e]
  | y :: ys => if e.layer < y.layer then e :: y :: ys else y :: insertLayer e ys

/-- Add entries in LAYER order, as many as the limits of R56 leave room for; TRUNC says that some did not fit. DESIGN CHOICE, log
entry 107. -/
def State.addEntries (s : State) (w : Nat) (es : List SEntry) : State :=
  let room := min (65536 - (s.wheel w).sched.length) (262144 - s.schedTotal)
  let m := s.newStream (w / 16) (s.wheel w).pclass
  s.modWheel w fun x => { x with
    sched := ((es.take room).map fun e => { e with strm := m }).foldl (fun l e => insertLayer e l) x.sched
    trunc := x.trunc || decide (room < es.length) }

/-- Survey recordings of the layer just left become active (R62). -/
def State.surveyLayer (s : State) (w layer : Nat) : State :=
  let es := recordEntries (s.wheel w).record layer
  (s.addEntries w es).modWheel w fun x => { x with record := x.record.filter fun r => r.layer ≠ layer }

/-- The survey turn ends: RUNNING with a debt of zero (R62). -/
def State.surveyEnd (s : State) (w : Nat) (discard : Bool) : State :=
  let s := if discard then s
    else (List.range (s.wheel w).n).foldl (fun s l => s.surveyLayer w l) s
  s.modWheel w fun x => { x with record := [], wasSurvey := false, debt := 0,
                                 state := if x.state = .survey then .running else x.state }

/-- Entering layer 0 of a turn (R434): a staged schedule becomes active (R63), learned entries are added
(R61), a capture window of mode 1 ends (R225). DEDUCED, log entry 45. -/
def State.layerZero (s : State) (w : Nat) : State :=
  let s := if s.weir.mode = 1 ∧ s.weir.wheel = w then s.latchWindow else s
  let s := if (s.wheel w).staged.isSome ∧ (s.wheel w).wasSurvey then s.surveyEnd w true else s
  let s := s.modWheel w fun x =>
    match x.staged with
    | some es => { x with old := x.old ++ x.sched.filter SEntry.live, sched := es, staged := none }
    | none => x
  let x := s.wheel w
  if x.wasSurvey then s
  else
    let es := ((List.range x.n).flatMap (recordEntries x.record)).map fun e => { e with learned := true }
    (s.addEntries w es).modWheel w fun x => { x with record := [] }

/-- Note a wheel's entry into layer 0 for the capture window of mode 1, and its position for tasks bound to it (R70,
R225, R434). The rules of chapters 08, 11 and 12 read these marks. -/
def State.markSlot (s : State) (w lo hi : Nat) : State :=
  { s with sweep := { s.sweep with entered := (s.sweep.entered.filter fun m => m.1 ≠ w) ++ [(w, lo, hi)] } }

/-- Enter the slot of index `k` (R58, R62). DEDUCED, log entry 45. -/
def State.enterSlot (s : State) (w k : Nat) : State :=
  let x0 := s.wheel w
  let newTurn := x0.turn < k / x0.n + 1
  let s := (s.moveTo w k).shiftHist w (k - 1) (k - 1)
  let s := if x0.wasSurvey && x0.surveyTurn < (s.wheel w).turn then
      s.surveyEnd w ((s.wheel w).layer = 0 ∧ x0.staged.isSome) else s
  if (s.wheel w).wasSurvey then
    let s := s.surveyLayer w x0.layer
    let x := s.wheel w
    (s.releaseDue w x.cls (x.pickSlot k)).leave w (k - 1) (k - 1) true
  else
    let x := s.wheel w
    let late := x.sched.any fun e => e.isFetch && e.layer == x.layer && !e.complete k
    let s := s.modWheel w fun x => { x with
      sched := if x.notune then x.sched else x.sched.map fun e => if e.isFetch && e.layer == x.layer then x.tune s.now k e else e
      debt := if late then x.debt + 1 else x.debt - 1
      late := if late then bump 32 x.late 1 else x.late }
    let s := if newTurn then s.layerZero w else s
    if debtMax < (s.wheel w).debt then (s.rephaseAt w k).leave w (k - 1) (k - 1) false
    else (s.releaseDue w (s.wheel w).cls ((s.wheel w).pickSlot k)).leave w (k - 1) (k - 1) true

/-- Enter slots one by one, lowest first. -/
def State.enterSlots (s : State) (w : Nat) : Nat → Nat → State
  | 0, _ => s
  | n + 1, k => (s.enterSlot w k).enterSlots w n (k + 1)

/-! ### Applying a position (Table 3.3) -/

/-- The first accepted position since the wheel was opened (R65). -/
def State.firstPos (s : State) (w k : Nat) : State :=
  let s := s.modWheel w fun x => { x with
    placed := true, k := k, turn := k / x.n + 1, layer := k % x.n, slotStart := s.now, slots := []
    surveyTurn := k / x.n + 1
    state := if x.wasSurvey then .survey else .running }
  let s := s.layerZero w
  let x := s.wheel w
  if x.state = .running then
    s.releaseDue w x.pclass fun e =>
      let n := x.needFrom e k
      if n / x.n = k / x.n ∧ n - x.effLead e ≤ k then some n else none
  else s

/-- The entries that a resumption releases (R67): those due under the new debt, and of the ones released before the wheel stopped
those whose holds it dropped or that still wait. -/
def Wheel.pickResume (x : Wheel) (rested : Bool) (k : Nat) (e : SEntry) : Option Nat :=
  let n := x.nextNeed e k
  if n - x.effLead e ≤ k ∧ (e.relNeed ≤ n ∨ rested ∨ e.waiting ≠ []) then some n else none

/-- The first advance of an IDLE or RESTING wheel (R67). -/
def State.resume (s : State) (w k : Nat) : State :=
  let x0 := s.wheel w
  let s := (s.moveTo w k).shiftHist w x0.k (k - 1)
  let s := if x0.turn < (s.wheel w).turn then s.layerZero w else s
  let s := if (s.wheel w).wasSurvey && x0.surveyTurn < (s.wheel w).turn then s.surveyEnd w false else s
  let s := s.modWheel w fun x => { x with state := if x.wasSurvey then .survey else .running, debt := x.debt + 1 }
  let s := if (s.wheel w).wasSurvey then s.surveyLayer w x0.layer else s
  if debtMax < (s.wheel w).debt then (s.rephaseAt w k).leave w x0.k (k - 1) true
  else (s.releaseDue w (s.wheel w).cclass ((s.wheel w).pickResume (x0.state == .resting) k)).leave w x0.k (k - 1) true

/-- A jump of more than N layers (Table 3.3). -/
def State.jump (s : State) (w k : Nat) : State :=
  let x0 := s.wheel w
  let s := (s.moveTo w k).shiftHist w x0.k (k - 1)
  let s := if x0.turn < (s.wheel w).turn then s.layerZero w else s
  let s := if (s.wheel w).wasSurvey && x0.surveyTurn < (s.wheel w).turn then s.surveyEnd w false else s
  (s.rephaseAt w k).leave w x0.k (k - 1) true

def State.badPos (s : State) (w : Nat) : State := s.modWheel w fun x => { x with badpos := bump 32 x.badpos 1 }

/-- An accepted position at index `k`. -/
def State.accept (s : State) (w k : Nat) : State :=
  let x := s.wheel w
  let s' :=
    if ¬ x.placed then (s.firstPos w k).markSlot w k k
    else if x.state = .idle ∨ x.state = .resting then (s.resume w k).markSlot w (x.k + 1) k
    else if x.k + x.n < k then (s.jump w k).markSlot w (x.k + 1) k
    else (s.enterSlots w (k - x.k) (x.k + 1)).markSlot w (x.k + 1) k
  s'.modWheel w fun x => { x with lastAdvance := s.now }

/-- Apply a position to a wheel in the order of Table 3.3; answers whether it was accepted. -/
def State.position (s : State) (w turn layer : Nat) (resv : Bool) : Bool × State :=
  let x := s.wheel w
  let k := (turn - 1) * x.n + layer
  if x.state = .closed then (false, s)
  else if turn = 0 ∨ x.n ≤ layer ∨ resv ∨ 2 ^ 48 ≤ turn then (false, s.badPos w)
  else if ¬ x.placed then (true, s.accept w k)
  else if k < x.k then (false, s.modWheel w fun x => { x with backstep := bump 16 x.backstep 1 })
  else if k = x.k then (true, s)
  else (true, s.accept w k)

/-- The turn that a go line's low bits stand for (R53): the value from T − 127 to T + 128 with those low bits. -/
def goTurn (t lo : Nat) : Int := (t : Int) + (((lo : Int) - t + 127) % 256) - 127

/-- A position carried by a go line (R53). -/
def State.goPosition (s : State) (w turnlo layer : Nat) : Bool × State :=
  let x := s.wheel w
  if x.state = .closed then (false, s)
  else
    let t := goTurn x.turn turnlo
    if t < 1 then (false, s.badPos w) else s.position w t.toNat layer false

/-! ### Arrivals and gaps -/

/-- A release's view of a sack that has arrived at time `now`, the wheel standing at index `k`. -/
def SEntry.arrive (e : SEntry) (sack now k : Nat) : SEntry :=
  if e.waiting.contains sack then
    let wait := e.waiting.filter (· ≠ sack)
    { e with
      waiting := wait
      doneAt := if wait.isEmpty && !e.spec then some (now, k) else e.doneAt }
  else e

/-- A sack has arrived near: entries that wait for it go on, and fetch-and-stage copies are made (R63, R73). -/
def State.arrived (s : State) (sack : Nat) : State :=
  s.sweep.wheels.keys.foldl (fun s w =>
    let hit := ((s.wheel w).sched ++ (s.wheel w).old).filter fun e => e.waiting.contains sack
    let s := hit.foldl (fun s e => if e.action = 1 then s.stageT0 sack e.die w else s) s
    if hit.isEmpty then s
    else s.modWheel w fun x => { x with
      sched := x.sched.map fun e => e.arrive sack s.now x.k
      old := x.old.map fun e => e.arrive sack s.now x.k }) s

/-- Frames came free: what waited for them is tried again (R75, R76). -/
def State.framesFreed (s : State) : State :=
  ((s.pumpXfers.retryAllocs).retryReads fun r => r.why == .demand).retryWrites fun w => w.why == .completing

/-- Does an issued transfer of a fetch entry with DIE = d keep the die out of a gap (R70)? -/
def State.fetchBusy (s : State) (d : Nat) : Bool :=
  s.store.xfers.any fun x => x.chan.isSome && x.wants.any fun w => w.2 == some d

/-- Drop everything a wheel holds near, and what it has asked for and not issued (R67, R68, R69). -/
def State.dropWheel (s : State) (w : Nat) : State :=
  ((s.dropHolds fun h => h.who == .wheel w).undoWheel w).cancelWheel w fun _ => false

/-- Put a wheel to RESTING (R67, R68). -/
def State.restWheel (s : State) (w : Nat) : State :=
  if (s.wheel w).state = .closed then s
  else
    let s := s.dropWheel w
    let s := s.modStore fun st => { st with t0 := st.t0.filter fun c => c.wheel ≠ w }
    s.modWheel w fun x => { x with state := .resting }

end Sys2Proof.Machine
end

