-- ==== Sys2Proof/Machine/Tier.lean ====
section
/-! DEFINITION. The data path and tier events: allocation, the merge buffer, promotion, victims, write-back, channel
halts, stack loss and re-mirroring (chapters 01, 02, 04). Each row happens at time `t` and only where its rule's
condition holds; otherwise it changes nothing. -/
namespace Sys2Proof.Machine

abbrev Res := Host.Outcome State Fault Refusal

/-- A block's data has changed: digest ranges that hold it note it (R297). DEDUCED, log entry 56. -/
def State.blockWritten (s : State) (blk : Nat) : State :=
  { s with result := { s.result with ranges := s.result.ranges.map fun r =>
    if r.firstBlk ≤ blk ∧ blk < r.firstBlk + r.len / 512 then { r with changed := true } else r } }

/-- A journal record set (R257): committed in the buffer while the bank is HEALTHY, else waiting for its page. -/
def State.journal (s : State) (n : Nat) : State :=
  { s with deep := { s.deep with
    journalSeq := s.deep.journalSeq + n
    journalOpen := s.deep.journalOpen + n
    journalSince := s.deep.journalSince + 32 * n } }

/-! ### Allocation and the sack map (R39 to R41) -/

/-- SACK_ALLOC_JOURNALLED: the allocation entry is journalled and the sack becomes CLEAN or DEEP (Table 4.3). -/
def execSackAllocJournalled (t sack : Nat) (s : State) : Res :=
  let s := s.at_ t
  let k := s.sack sack
  if s.up ∧ k.mst = .allocating ∧ k.waits = false then
    let s := (s.setSack sack { k with tier := if k.near then .t1 else .t2, mst := if k.near then (if k.dirty = 0 then .clean else .dirty) else .deep, since := s.now }).journal 1
    .next (s.retryHeld (fun r => r.sack == sack) fun w => w.sack == sack)
  else .next s

/-- A transfer that was stopped with its sack on the way goes on. -/
def State.resumeXfer (s : State) (sack : Nat) (e : Extent) : State :=
  if ((s.sack sack).mst = .promoting ∨ (s.sack sack).mst = .specPromoting) ∧ s.inXfer sack = false then
    s.addXfer (s.newXfer sack (if (s.sack sack).spec then .spec else .promote) e.eid e.owner (s.sack sack).cclass)
  else s

/-- The entry that the journal gives for a sack: the fields that its state and its extent fix. A copy on a stack that does not exist
is none. -/
def State.restoreEntry (s : State) (sack : Nat) (e : Extent) : State :=
  let k := s.sack sack
  let s := s.setSack sack { k with
    tier := k.mst.tier
    ldtag := if k.mst = .unmapped then k.ldtag else e.owner
    size := if k.mst = .unmapped then k.size else Prof.sizeCode e.profile }
  if 12 ≤ k.stack ∧ k.near = true then s.toDeep sack false else s

/-- A sack whose entry the journal cannot give: poisoned, with the events of a loss that name it (R41). -/
def State.entryLost (s : State) (sack : Nat) (e : Extent) : State :=
  let s := s.modSack sack fun k => { k with poison := true, unwritten := BitVec.allOnes 128 }
  let s := s.modInteg fun i => { i with lost := bump 32 i.lost 1 }
  let s := s.modIntegLd e.owner fun l => { l with lost := bump 32 l.lost 1 }
  s.ueLog 0 0 2 1 e.owner (s.dpaOf e (sack * 128))

/-- SACK_ENTRY_REBUILD: an entry that is corrupt, or that this event finds uncorrectable, is rebuilt from the journal, or its sack is
poisoned; the requests held for it proceed (R24, R41, R78). DEDUCED, log entry 31. -/
def execSackEntryRebuild (t sack : Nat) (journalOk : Bool) (s : State) : Res :=
  let s := s.at_ t
  match s.extOfSack sack with
  | none => .next s
  | some e =>
    if ¬ s.up then .next s
    else
      let s := (s.restoreEntry sack e).modStore fun st => { st with corrupt := st.corrupt.filter (· ≠ sack) }
      let s := if journalOk then s.repaired 0 0 2 e.owner (s.dpaOf e (sack * 128)) else s.entryLost sack e
      .next ((s.resumeXfer sack e).retryHeld (fun r => r.sack == sack) fun w => w.sack == sack)

/-! ### The merge buffer and the encoder -/

/-- MERGE_IDLE_FLUSH: a partial entry with no write for 64 µs passes by read-modify-write (R83, R241). DESIGN CHOICE, log entry 4. -/
def execMergeIdleFlush (t blk : Nat) (s : State) : Res :=
  let s := s.at_ t
  match s.openEnt blk with
  | some m =>
    if s.up ∧ m.lastWrite + 64 * us ≤ s.now then
      .next ((s.passEnt blk true).modStore fun st => { st with mergeRmw := bump 16 st.mergeRmw 1 })
    else .next s
  | none => .next s

/-- The staged blocks of an extent. -/
def State.stagedIn (s : State) (e : Extent) : List Nat := (s.blksOfExt e).filter fun b => (s.curBlk b).side.kind == kStaged

/-- An extent whose set is being recoded or has been gives its staging part back when it has no STAGED block left (R37, R121). -/
def State.returnStageOf (s : State) (e : Extent) : State :=
  if e.resvStage ≠ 0 ∧ (s.tset e.profile).hasGen ∧ (s.stagedIn e).isEmpty then s.modExt e.eid fun e => { e with resvStage := 0 } else s

/-- What waits for a place or a block after an encoded block has landed. -/
def State.afterEncode (s : State) (blk : Nat) : State :=
  let s := match s.extOfSack (blk / 128) with | some e => if Prof.lossy e.profile then s.returnStageOf e else s | none => s
  let s := ((s.blockWritten blk).mirrorPressure).retryReads fun r => r.blk == blk
  s.retryWrites fun w => w.why == .mergeFull || (w.blk == blk && w.why == .completing)

/-- An entry that cannot land yet asks for what it waits for: the lines it lacks, or the promotion of its sack (R83, R87). -/
def State.encodeWait (s : State) (e : Extent) (m : MergeEnt) : State :=
  if m.valid ≠ BitVec.allOnes 512 then s.rmwRead m e
  else if (s.sack (m.blk / 128)).mst = .deep then (s.promote (m.blk / 128) m.opener e none true m.cls).2
  else if (s.sack (m.blk / 128)).near then s.wakeStack (s.sack (m.blk / 128)).stack else s

/-- ENCODER_WRITE_DONE: an encoded block lands in T1 or T2 and its merge-buffer entry is freed (R83, R241). -/
def execEncoderWriteDone (t blk : Nat) (s : State) : Res :=
  let s := s.at_ t
  match s.store.merges.find? fun m => m.blk = blk ∧ m.passed = true with
  | some m =>
    if ¬ s.up then .next s
    else match s.extOfSack (blk / 128) with
      | some e =>
        match s.encodeEnt e m with
        | some s' => .next (s'.afterEncode blk)
        | none => .next (s.encodeWait e m)
      | none => .next (s.modStore fun st => { st with merges := st.merges.filter (· ≠ m) })
  | none => .next s

/-- MIRROR_RECORD_FREED: a free record lets a durable write that waits for one proceed (R89). -/
def execMirrorRecordFreed (t blk : Nat) (s : State) : Res :=
  let s := (s.at_ t).freeMirror blk
  if s.up ∧ s.store.mirrors.length < 16777216 then .next (s.retryWrites fun w => w.why == .mirrorFull)
  else .next s

/-! ### Promotion, victims, demotion, write-back -/

/-- PROMOTION_COMPLETE: the last block of a promotion is installed (Table 4.3). -/
def execPromotionComplete (t sack : Nat) (s : State) : Res :=
  let s := s.at_ t
  let k := s.sack sack
  match s.xferOf sack with
  | some x =>
    if s.up ∧ x.chan.isSome ∧ (k.mst = .promoting ∨ k.mst = .specPromoting) then
      let s := s.install sack
      let s := s.modStore fun st => { st with cacheMissing := st.cacheMissing.filter fun u => u / 130 ≠ sack }
      let s := s.retryReads fun r => r.sack == sack
      let s := ((s.endXfer sack).arrived sack).cacheTrim 4096
      .next (s.retryWrites fun w => w.sack == sack && w.why == .completing)
    else .next s
  | none => .next s

/-- VICTIM_SCAN: below 1/64 of free frames, or while a transfer waits for a run, victims are chosen until free frames reach 1/32
(R75). DEDUCED, log entry 89. -/
def execVictimScan (t stack : Nat) (s : State) : Res :=
  let s := s.at_ t
  if s.up ∧ s.stackOk stack ∧ (64 * s.freeFrames stack < s.framesPerStack ∨ s.wantsRun stack = true) then
    .next (s.evictUntil stack (s.scanGoal stack) (2 * s.store.sacks.keys.length + 2)).framesFreed
  else .next s

/-- DEMOTION_DRAINED: the reads of a DEMOTING copy have drained and its frames are returned (Table 4.3, R81). -/
def execDemotionDrained (t sack : Nat) (s : State) : Res :=
  let s := s.at_ t
  if s.up ∧ (s.sack sack).mst = .demoting then .next ((s.toDeep sack true).journal 1).framesFreed
  else .next s

/-- The write-back of a sack has programmed its captured blocks (Table 4.3). DEDUCED, log entry 12. -/
def State.writebackDone (s : State) (sack : Nat) : State :=
  let k := s.sack sack
  let unit := match s.extOfSack sack with | some e => Prof.unit e.profile | none => 512
  let captured := k.captured
  let s := s.programBlocks sack captured unit
  let s := s.modSack sack fun k => { k with
    captured := 0
    mst := if k.evict ∧ k.dirty = 0 then .demoting else if k.dirty = 0 then .clean else .dirty
    evict := false }
  let bs := (List.range 128).filter fun b => captured.getLsbD b
  let s := bs.foldl (fun s b => (s.freeMirror (sack * 128 + b)).wtDone (sack * 128 + b)) s
  s.endXfer sack

/-- Is a write-back outside the endurance budget: a durable sack while mirror records pass the trigger of Table 4.5 (R252)? -/
def State.wbExempt (s : State) (sack : Nat) : Bool := (s.sack sack).durable && decide (8388608 < s.store.mirrors.length)

/-- WRITEBACK_COMPLETE: the captured blocks are programmed to T2, where the endurance budget admits it, and the sack moves on (R84,
R86, R89, R252). -/
def execWritebackComplete (t sack : Nat) (s : State) : Res :=
  let s := s.at_ t
  match s.xferOf sack with
  | some x =>
    if s.up ∧ (s.sack sack).mst = .writeback ∧ x.chan.isSome then
      if s.mayProgram ∨ s.wbExempt sack then .next ((s.writebackDone sack).framesFreed.retryWrites fun w => w.why == .mirrorFull)
      else .next (s.putXfer { x with endur := true })
    else .next s
  | none => .next s

/-- DURABLE_DIRTY_TIMEOUT: a durable block dirty for 1 s triggers write-back of its sack (Table 4.5). Under
write-through a dirty durable block is written back without that wait (R91). -/
def execDurableDirtyTimeout (t blk : Nat) (s : State) : Res :=
  let s := s.at_ t
  let k := s.sack (blk / 128)
  let due := s.store.dirtySince.get blk + sec ≤ s.now ∨ s.wt = true
  if s.up ∧ k.durable ∧ k.mst = .dirty ∧ k.dirty.getLsbD (blk % 128) ∧ due then
    .next (s.startWriteback (blk / 128) false (match s.extOfSack (blk / 128) with | some e => e.eid | none => 0))
  else .next s

/-- DEMAND_READ_TIMEOUT: a demand read held for 1 ms is served read-through at once (R92). -/
def execDemandReadTimeout (t rid : Nat) (s : State) : Res :=
  let s := s.at_ t
  match s.store.heldReads.find? fun r => r.rid = rid with
  | some r =>
    if s.up ∧ r.why = .demand ∧ r.start + ms ≤ s.now then
      match s.extById r.eid with
      | some e =>
        let (l, s) := s.readThrough r.ld r.cls r.start e r.blk
        .next (s.answerRead r (match l with | .through d => some d | _ => none)).wakeOrder
      | none => .next s
    else .next s
  | none => .next s

/-! ### Channel halts (R101, Table 4.7) -/

/-- Record a halt in MRC_CHALT and MRC_CHCNT. -/
def State.recordHalt (s : State) (chan cause sack blk : Nat) : State :=
  s.modStore fun st => { st with
    chalt := chan + cause * 2 ^ 7 + sack * 2 ^ 16 + (blk % 128) * 2 ^ 48
    chaltValid := true
    chcnt := bump 32 st.chcnt 1 }

/-- A block without another copy than a whole mirror record or a whole merge-buffer entry (R101). -/
def State.haltLost (s : State) (e : Extent) (blk : Nat) : State :=
  match s.store.mirrors.find? fun m => m.blk = blk ∧ m.lines = BitVec.allOnes 8 with
  | some m => s.rebuildMirror e m 0 2
  | none =>
    if mergedValid (s.mergesOf blk) = BitVec.allOnes 512 then s.ueLog 0 0 2 0 e.owner (s.dpaOf e blk) else s.lose e blk 0 0 2

/-- A block that a halted transfer could not read: from another copy where one exists, else poisoned (R101, Table 4.7). The other copy
of a side record is the near one of a block written on the way, and the one in the codec area of a clean block of a near sack.
DEDUCED, log entry 56. -/
def State.haltBlock (s : State) (e : Extent) (cause : Nat) (blk : Nat) : State :=
  let k := s.sack (blk / 128)
  let inT1 := k.inT1 (blk % 128)
  if cause = 1 then s.resolveUe e blk 0 2
  else if k.tier = .t1 then
    if cause = 0 ∨ inT1 = false then s.repaired 0 0 2 e.owner (s.dpaOf e blk) else s.resolveBad e blk 0 2
  else if inT1 then s.repaired 0 0 2 e.owner (s.dpaOf e blk)
  else s.haltLost e blk

/-- The 64 blocks that one side array unit describes. -/
def unitBlocks (blk : Nat) : List Nat := (List.range 64).map (· + blk / 64 * 64)

/-- A write-back stops: its captured blocks are DIRTY again. -/
def State.stopWriteback (s : State) (sack : Nat) : State :=
  s.modSack sack fun k =>
    { k with dirty := k.dirty ||| k.captured, captured := 0, evict := false,
             mst := if k.dirty ||| k.captured = 0 then .clean else .dirty }

/-- A sack's transfer halts with status for cause 0, 1, 2 or 4 (R101). A promotion keeps its frames and is issued again, but for cause 4,
which leaves it stopped until the entry has been rebuilt. DESIGN CHOICE, log entry 97. -/
def State.haltXfer (s : State) (x : Xfer) (e : Extent) (channel cause : Nat) (bs : List Nat) : State :=
  let s := s.recordHalt channel cause x.sack (bs.headD 0)
  let s := if cause = 4 then (s.isolation e.owner (s.dpaOf e (x.sack * 128)) x.sack).markCorrupt x.sack
    else bs.foldl (fun s b => s.haltBlock e cause b) s
  let s := s.dropXfer x.sack
  let s := match (s.sack x.sack).mst with
    | .writeback => s.stopWriteback x.sack
    | _ => if cause = 4 then s else s.addXfer { x with chan := none, retry := true }
  s.pumpXfers.retryReads fun r => r.sack == x.sack

/-! ### Lost stacks (R23, R24, R90, R102) -/

/-- UNIT_FAILED to the FM and every enabled LD (Table 15.7). UTYPE as Table 12.6. -/
def State.unitFailed (s : State) (utype unit : Nat) : State :=
  s.postEvery 2 (Event.of 5 31 1 [⟨64, 1, utype⟩, ⟨66, 2, unit⟩])

/-- The block at which a stopped transfer stood: the lowest that it had still to move. -/
def Sack.stoppedAt (k : Sack) : Nat :=
  ((List.range 128).find? fun b => if k.mst = Mst.writeback then k.captured.getLsbD b else !k.arrived.getLsbD b).getD 0

/-- The halt of a transfer whose stack is lost, where it was on a channel (R26, R101). -/
def State.haltLostStack (s : State) (sack : Nat) : State :=
  match (s.xferOf sack).bind Xfer.chan with
  | some c => s.recordHalt c 3 sack (s.sack sack).stoppedAt
  | none => s

/-- A dirty block whose T1 copy is lost: rebuilt through the encoder from its mirror record, else poisoned; nothing is lost where the
merge buffer holds the whole block (R90, R102). `order` is that of the lost copy. -/
def State.loseDirty (s : State) (e : Extent) (blk order : Nat) : State :=
  match s.store.mirrors.find? fun m => m.blk = blk with
  | some m =>
    match s.mirrorData e m with
    | some d => s.mergeBelow e blk d order
    | none => s.lose e blk 0 0 2
  | none => if mergedValid (s.mergesOf blk) = BitVec.allOnes 512 then s else s.lose e blk 0 0 2

/-- What the loss of a stack does to one sack on it (R102). DEDUCED, log entry 56. -/
def State.loseCopy (s : State) (sack : Nat) : State :=
  let k := s.sack sack
  match s.extOfSack sack with
  | none => (s.toDeep sack false).dropXfer sack
  | some e =>
    let lost := ((List.range 128).filter fun b => k.inT1 b).map fun b => (sack * 128 + b, (s.store.t1.get (sack * 128 + b)).order)
    let rebuilt := lost.any fun p => s.store.mirrors.any fun m => m.blk == p.1
    let x := s.xferOf sack
    let s := s.haltLostStack sack
    match k.mst with
    | .allocating => (s.setSack sack { k with near := false, stack := 0, frame := 0 }).allocFrames sack (Prof.affinity e.profile) none
    | .specPromoting => s.undoSpec sack
    | _ =>
      let s := lost.foldl (fun s p => s.loseDirty e p.1 p.2) ((s.toDeep sack false).dropXfer sack)
      match k.mst, x with
      | .promoting, some x => (s.promoteFor sack x.ld e x.die x.demand none x.cls x.wants).2
      | _, _ => if rebuilt then (s.promoteFor sack e.owner e none false none k.cclass []).2 else s

/-- A stack fails: its copies go, its mirror copies are lost, its share of the reserved regions is to be rebuilt. DEDUCED, log entry 56. -/
def State.stackFails (s : State) (stack : Nat) : State :=
  if ¬ s.stackOk stack then s
  else
    let here := s.store.sacks.keys.filter fun k => (s.sack k).near && (s.sack k).stack == stack
    let s := s.modStack stack fun k => { k with state := .failed, goal := none, checkAtExit := false, retrainPoint := none, retryPoint := none }
    let s := s.modStore fun st => { st with mirrors := st.mirrors.map fun m => { m with
      stackA := if m.stackA = some stack then none else m.stackA
      stackB := if m.stackB = some stack then none else m.stackB } }
    let s := here.foldl State.loseCopy s
    let s := (s.store.mirrors.filter fun m => m.stackA.isNone && m.stackB.isNone).foldl (fun s m =>
      let k := m.blk / 128
      let s := s.modStore fun st => { st with mirrors := st.mirrors.filter fun x => x.blk ≠ m.blk }
      if (s.sack k).mst = .dirty then s.startWriteback k false (match s.extOfSack k with | some e => e.eid | none => 0) else s) s
    let s := { s with near := { s.near with rebuilding := stack :: s.near.rebuilding, rebuildAt := s.now } }
    ((s.unitFailed 3 stack).framesFreed.modeChanged.retryReads fun r => r.why == .tierMove).pumpNear.caps

/-- STACK_LOSS: a stack is lost (R102, Table 1.8). -/
def execStackLoss (t stack : Nat) (s : State) : Res :=
  let s := s.at_ t
  if s.up ∧ stack < 12 then .next ((s.stackFails stack).noteVitals s) else .next s

/-- CHANNEL_HALT: a migration channel meets a condition of Table 4.7 and stops; its affected blocks are served from
another copy or poisoned. Cause 3 is a lost stack (R102) and cause 4 a mismatched LDTAG. -/
def execChannelHalt (t channel cause : Nat) (blocks : List Nat) (s : State) : Res :=
  let s := s.at_ t
  match s.store.xfers.find? fun x => x.chan = some channel with
  | some x =>
    match s.extOfSack x.sack with
    | some e =>
      if ¬ s.up ∨ 4 < cause then .next s
      else if cause = 3 then .next ((s.stackFails (s.sack x.sack).stack).noteVitals s)
      else
        let bs := (if cause = 2 then blocks.flatMap unitBlocks else blocks).filter fun b => b / 128 == x.sack
        .next (s.haltXfer x e channel cause bs)
    | none => .next s
  | none => .next s

/-- Where a record that has lost a copy is copied to: a stack of another die than the copy that is left, of the home die only where no
other has one, and there the home stack only where it is the last (R23, R88). -/
def State.remirrorPlace (s : State) (e : Extent) (m : Mirror) : Option Nat :=
  let home := s.homeStack e (m.blk / 128)
  let taken := match m.stackA.or m.stackB with | some k => stackDie k | none => 4
  let others := ([1, 2, 3].map fun i => (stackDie home + i) % 4).filter fun d => d ≠ taken && s.healthyDies.contains d
  ((others.findSome? fun d => s.mirrorStack d m.rno none).or
    (if stackDie home = taken then none else (s.mirrorStack (stackDie home) m.rno (some home)).or (s.mirrorStack (stackDie home) m.rno none)))

/-- REMIRROR: a record that lost a copy is copied to a surviving stack of another die (R23). -/
def execRemirror (t blk : Nat) (s : State) : Res :=
  let s := s.at_ t
  match s.store.mirrors.find? fun m => m.blk = blk with
  | some m =>
    match s.extOfSack (blk / 128) with
    | some e =>
      if s.up ∧ (m.stackA.isNone ∨ m.stackB.isNone) then
        let dst := s.remirrorPlace e m
        let m' : Mirror := if m.stackA.isNone then { m with stackA := dst } else { m with stackB := dst }
        let s := s.modStore fun st => { st with mirrors := st.mirrors.map fun x => if x.blk = blk then m' else x }
        .next (if s.wt then s else s.modeChanged)
      else .next s
    | none => .next s
  | none => .next s

/-- RESERVED_REGION_REBUILD: the lost share of a failed stack is rebuilt; requests held for it proceed (R24). -/
def execReservedRegionRebuild (t stack : Nat) (s : State) : Res :=
  let s := s.at_ t
  if s.up ∧ s.near.rebuilding.contains stack then
    let s := { s with near := { s.near with rebuilding := s.near.rebuilding.filter (· ≠ stack) } }
    .next (s.retryHeld (fun r => r.why == .rebuild) fun w => w.why == .rebuild)
  else .next s

/-- The hub die has failed: the module stops and FAULT_N asserts (R22, R424). -/
def State.hubFails (s : State) : State :=
  { s with phase := .hubFailed, millerReady := false, clock := { s.clock with fault := true } }

/-- HUB_DIE_FAILURE: the module stops and FAULT_N asserts (R22, R424). -/
def execHubDieFailure (t : Nat) (s : State) : Res :=
  .next (s.at_ t).hubFails

/-- CODEC_CACHE_FILL: a side array unit or copy is read in and the reads held for it are served (R110). -/
def execCodecCacheFill (t blk : Nat) (s : State) : Res :=
  let s := s.at_ t
  if s.up then
    let s := s.modStore fun st => { st with cacheMissing := st.cacheMissing.filter fun u => u ≠ cacheUnit blk ∧ u ≠ cacheCopy blk }
    .next (s.retryReads fun r => r.why == .codecCache && r.blk / 64 == blk / 64)
  else .next s

end Sys2Proof.Machine
end

