-- ==== Sys2Proof/Machine/Aer.lean ====
section
/-! DEFINITION. AER and CXL RAS logging (R347, Table 14.6): status bits, masks, severities, header logs, messages. -/
namespace Sys2Proof.Machine

def State.modCxe (s : State) (f : CxeSt → CxeSt) : State := { s with cxe := f s.cxe }

def State.modCxeLd (s : State) (ld : Nat) (f : CxeLd → CxeLd) : State :=
  s.modCxe fun c => { c with lds := c.lds.upd ld f }

/-- Set a bit of a status word. -/
def setBit (v i : Nat) : Nat := Nat.lor v (2 ^ i)

/-- Kinds of CXL.io messages that the module sends: 1 ERR_COR, 2 ERR_NONFATAL, 3 ERR_FATAL. -/
def errMsg (fatal : Bool) : Nat := if fatal then 3 else 2

/-- Log a correctable AER bit. -/
def State.aerCor (s : State) (ld bit : Nat) : State :=
  let e := (s.cxe.lds.get ld).errs
  let s := s.modCxeLd ld fun l => { l with errs := { l.errs with aerCor := setBit l.errs.aerCor bit } }
  if bitOf e.aerCorMask bit then s else s.send (.cxlIo ld 1 [] [])

/-- Log an uncorrectable AER bit: the first unmasked one holds the header log (R347). -/
def State.aerUnc (s : State) (ld bit : Nat) (header : Bytes) : State :=
  let e := (s.cxe.lds.get ld).errs
  let s := s.modCxeLd ld fun l => { l with errs := { l.errs with aerUnc := setBit l.errs.aerUnc bit } }
  if bitOf e.aerUncMask bit then s
  else
    let s := if e.aerHeld then s.aerCor ld 15
      else s.modCxeLd ld fun l => { l with errs := { l.errs with aerHeld := true, aerFirst := bit, aerHeader := fit 16 header } }
    s.send (.cxlIo ld (errMsg (bitOf e.aerUncSev bit)) [] [])

/-- Log a correctable CXL RAS bit; an unmasked one takes a free header log. -/
def State.rasCor (s : State) (ld bit : Nat) (flit : Bytes) : State :=
  let e := (s.cxe.lds.get ld).errs
  let s := s.modCxeLd ld fun l => { l with errs := { l.errs with rasCor := setBit l.errs.rasCor bit } }
  if bitOf e.rasCorMask bit then s
  else
    let s := if e.rasHeld then s.aerCor ld 15
      else s.modCxeLd ld fun l => { l with errs := { l.errs with rasHeld := true, rasFirst := 32 + bit, rasHeader := fit 64 flit } }
    s.send (.cxlIo ld 1 [] [])

/-- Log an uncorrectable CXL RAS bit. -/
def State.rasUnc (s : State) (ld bit : Nat) (flit : Bytes) : State :=
  let e := (s.cxe.lds.get ld).errs
  let s := s.modCxeLd ld fun l => { l with errs := { l.errs with rasUnc := setBit l.errs.rasUnc bit } }
  if bitOf e.rasUncMask bit then s
  else
    let s := if e.rasHeld then s.aerCor ld 15
      else s.modCxeLd ld fun l => { l with errs := { l.errs with rasHeld := true, rasFirst := bit, rasHeader := fit 64 flit } }
    s.send (.cxlIo ld (errMsg (bitOf e.rasUncSev bit)) [] [])

/-- A link error is logged in every enabled LD of its port (R347). -/
def State.onPort (s : State) (port : Nat) (f : State → Nat → State) : State :=
  ((portLds port).filter s.ldOn).foldl f s

end Sys2Proof.Machine
end

