-- ==== Sys2Proof/Machine/Arith.lean ====
section
/-! DEFINITION. The arithmetic of a stone (chapter 06): operand formats as exact numbers, exact accumulators (R134 to
R137), rounding on read-out (R136), and the fp32 path (R138). Exact values are integers scaled by 2^149, products by
2^298. -/
namespace Sys2Proof.Machine

/-! ### Operand formats (Table 6.3) -/

/-- A format code of Table 6.3, fp32 to int8, as a source format of Table 5.2. -/
def fmtSrc (code : Nat) : Nat := match code with | 0 => 2 | 1 => 0 | 2 => 1 | 3 => 3 | 4 => 4 | _ => 5

/-- A small float without special values: exponent and mantissa bits and bias, scaled by 2^149 (codes 7, 10 to 12). -/
def tinyFloat (eb mb bias bits : Nat) : Num :=
  let m := bits % 2 ^ mb
  let e := bits / 2 ^ mb % 2 ^ eb
  let neg := decide (bits / 2 ^ (mb + eb) % 2 = 1)
  let mag : Nat := if e = 0 then m * 2 ^ (150 - bias - mb) else (2 ^ mb + m) * 2 ^ (149 + e - bias - mb)
  .fin (if neg then - (mag : Int) else mag) neg

/-- The element of a format code: for codes 8 to 13 before its scale. MXINT8 elements are int8 × 2^-6. -/
def fmtElem (code bits : Nat) : Num :=
  match code with
  | 6 => let v : Int := if bits % 16 < 8 then (bits % 16 : Nat) else ((bits % 16 : Nat) : Int) - 16
         .fin (v * 2 ^ 149) (decide (v < 0))
  | 7 | 12 => tinyFloat 2 1 1 bits
  | 8 => decodeElem 3 bits
  | 9 => decodeElem 4 bits
  | 10 => tinyFloat 3 2 3 bits
  | 11 => tinyFloat 2 3 1 bits
  | 13 => decodeElem 7 bits
  | c => decodeElem (fmtSrc c) bits

/-- An MX value: its element times 2 to the scale's exponent, never rounded; a scale of 0xFF is a NaN (R130, R135). Its value is scaled
by 2^276, so that every product is a whole number. -/
def mxValue (code scale bits : Nat) : Num :=
  if scale = 255 then .nan
  else match fmtElem code bits with
    | .fin v n => .fin (v * 2 ^ scale) n
    | x => x

/-- May a format code be presented to the datapath (R130)? -/
def fmtOk (code : Nat) : Bool := code < 15

/-! ### Exact accumulators -/

/-- What an exact accumulator holds: a 640-bit two's complement number whose least significant bit weighs 2^-288 (R134), and the sticky
flags of R135. -/
structure Acc where
  sum : BitVec 640 := 0
  nan : Bool := false
  pinf : Bool := false
  ninf : Bool := false
  deriving DecidableEq, Repr

def Num.isZero : Num → Bool
  | .fin v _ => v == 0
  | _ => false

def Num.negative : Num → Bool
  | .fin _ n => n
  | .inf n => n
  | .nan => false

/-- An exact product, an integer scaled by 2^298, in units of the least significant bit: every product of exact-path formats is a
whole number of them (R134). -/
def accUnits (p : Int) : BitVec 640 := BitVec.ofInt 640 (p / 2 ^ 10)

/-- Add one product (R134, R135). A product of two infinities, which R135 does not name, sets PINF or NINF by its sign. DESIGN CHOICE,
log entry 101. -/
def Acc.mac (a : Acc) (x y : Num) : Acc :=
  match x, y with
  | .fin u _, .fin v _ => { a with sum := a.sum + accUnits (u * v) }
  | .nan, _ => { a with nan := true }
  | _, .nan => { a with nan := true }
  | x, y =>
    if x.isZero || y.isZero then { a with nan := true }
    else if x.negative != y.negative then { a with ninf := true }
    else { a with pinf := true }

/-- One, as a factor. -/
def numOne : Num := .fin (2 ^ 149) false

/-- Add one value. -/
def Acc.add (a : Acc) (x : Num) : Acc := a.mac x numOne

/-- Σ xᵢ × yᵢ (R139: the same whatever the order or the codebook path). -/
def dotAcc (xs ys : List Num) : Acc := (xs.zip ys).foldl (fun a p => a.mac p.1 p.2) {}

/-- a + k × b of two accumulators, for a small integer k. -/
def Acc.plus (a : Acc) (k : Int) (b : Acc) : Acc :=
  { sum := a.sum + BitVec.ofInt 640 k * b.sum, nan := a.nan || b.nan,
    pinf := a.pinf || (if k < 0 then b.ninf else b.pinf), ninf := a.ninf || (if k < 0 then b.pinf else b.ninf) }

/-! ### Rounding (R136) -/

/-- ⌊log₂ (a / d)⌋ for positive a and d. -/
def logRatio (a d : Nat) : Int :=
  let l : Int := (a.log2 : Int) - (d.log2 : Int)
  let ge := if l < 0 then decide (d ≤ a * 2 ^ l.natAbs) else decide (d * 2 ^ l.natAbs ≤ a)
  if ge then l else l - 1

/-- n / d rounded to the nearest whole number, ties to even. -/
def roundDiv (n d : Nat) : Nat :=
  let q := n / d
  let r := n % d
  if 2 * r > d ∨ (2 * r = d ∧ q % 2 = 1) then q + 1 else q

/-- The magnitude bits of a / d in a format of `eb` exponent and `mb` mantissa bits: subnormals are kept; none where
it exceeds the largest finite value `top`. -/
def roundMag (eb mb : Nat) (top : Nat) (a d : Nat) : Option Nat :=
  if a = 0 then some 0
  else
    let bias : Int := 2 ^ (eb - 1) - 1
    let emin : Int := 1 - bias - mb
    let e := max (logRatio a d - mb) emin
    let q := if e < 0 then roundDiv (a * 2 ^ e.natAbs) d else roundDiv a (d * 2 ^ e.natAbs)
    let mag := if q < 2 ^ mb then q else ((e - emin).toNat) * 2 ^ mb + q
    if top < mag then none else some mag

/-- An output format (R136). -/
inductive OutFmt where
  | fp32
  | bf16
  | fp16
  | e4m3
  | e5m2
  | int8
  | int32
  deriving DecidableEq, Repr

def OutFmt.shape : OutFmt → Nat × Nat
  | .fp32 => (8, 23) | .bf16 => (8, 7) | .fp16 => (5, 10) | .e4m3 => (4, 3) | .e5m2 => (5, 2) | _ => (0, 0)

def OutFmt.bytes : OutFmt → Nat
  | .fp32 | .int32 => 4
  | .bf16 | .fp16 => 2
  | _ => 1

/-- The canonical NaNs of R135; an integer output is 0. -/
def OutFmt.nan : OutFmt → Nat
  | .fp32 => 0x7FC00000 | .bf16 => 0x7FC0 | .fp16 => 0x7E00 | .e4m3 => 0x7F | .e5m2 => 0x7E | _ => 0

/-- The bits of the largest finite magnitude. -/
def OutFmt.top : OutFmt → Nat
  | .fp32 => 0x7F7FFFFF | .bf16 => 0x7F7F | .fp16 => 0x7BFF | .e4m3 => 0x7E | .e5m2 => 0x7B | _ => 0

def signBit (f : OutFmt) : Nat := 2 ^ (f.shape.1 + f.shape.2)

/-- Bits of an infinity, or what stands for one (R136). -/
def OutFmt.inf (f : OutFmt) (neg : Bool) : Nat :=
  match f with
  | .e4m3 => 0x7F
  | .int8 => if neg then 0x80 else 0x7F
  | .int32 => if neg then 0x80000000 else 0x7FFFFFFF
  | f => (f.top + 1) + (if neg then signBit f else 0)

/-- n / d rounded once to a format (R136): an exact zero is +0, overflow as R136 states. -/
def roundOut (f : OutFmt) (n : Int) (d : Nat) : Nat :=
  match f with
  | .int8 | .int32 =>
    let w := if f = .int8 then 8 else 32
    let q := roundDiv n.natAbs d
    if n < 0 then (2 ^ w - min q (2 ^ (w - 1))) % 2 ^ w else min q (2 ^ (w - 1) - 1)
  | f =>
    if n = 0 then 0
    else
      let s := if n < 0 then signBit f else 0
      match roundMag f.shape.1 f.shape.2 f.top n.natAbs d with
      | some m => m + s
      | none => if f = .e4m3 then f.top + s else f.inf (decide (n < 0))

/-- Read an accumulator out (R135, R136). -/
def Acc.read (a : Acc) (f : OutFmt) : Nat :=
  if a.nan ∨ (a.pinf ∧ a.ninf) then f.nan
  else if a.pinf then f.inf false
  else if a.ninf then f.inf true
  else roundOut f a.sum.toInt (2 ^ 288)

/-! ### The fp32 path (R138) -/

/-- The exact value of an fp32 pattern. -/
def f32 (b : Nat) : Num := decodeElem 2 b
def f32nan : Nat := 0x7FC00000
def f32inf (neg : Bool) : Nat := if neg then 0xFF800000 else 0x7F800000

/-- n / d rounded to fp32, with the sign of a zero given. -/
def roundF32 (n : Int) (d : Nat) (negZero : Bool) : Nat :=
  if n = 0 then (if negZero then 0x80000000 else 0) else roundOut .fp32 n d

/-- x × y + z, rounded once. -/
def fma (x y z : Nat) : Nat :=
  match f32 x, f32 y, f32 z with
  | .nan, _, _ => f32nan
  | _, .nan, _ => f32nan
  | _, _, .nan => f32nan
  | .fin a na, .fin b nb, .fin c nc =>
    roundF32 (a * b + c * 2 ^ 149) (2 ^ 298) (decide (a * b = 0) && (na != nb) && nc)
  | .fin _ _, .fin _ _, .inf n => f32inf n
  | p, q, r =>
    if p.isZero || q.isZero then f32nan
    else
      let n := p.negative != q.negative
      match r with
      | .inf m => if m = n then f32inf n else f32nan
      | _ => f32inf n

/-- x × y. -/
def fmul (x y : Nat) : Nat :=
  match f32 x, f32 y with
  | .fin a na, .fin b nb => roundF32 (a * b) (2 ^ 298) (na != nb)
  | _, _ => fma x y 0

def fneg (x : Nat) : Nat := if x < 0x80000000 then x + 0x80000000 else x - 0x80000000

/-- x + y. -/
def fadd (x y : Nat) : Nat :=
  match f32 x, f32 y with
  | .fin a na, .fin b nb => roundF32 (a + b) (2 ^ 149) (na && nb)
  | _, _ => fma x 0x3F800000 y

def fsub (x y : Nat) : Nat := fadd x (fneg y)

/-- x ÷ y, rounded once to a format. -/
def fdivTo (f : OutFmt) (x y : Nat) : Nat :=
  match f32 x, f32 y with
  | .nan, _ => f.nan
  | _, .nan => f.nan
  | .fin a na, .fin b nb =>
    if b = 0 then (if a = 0 then f.nan else f.inf (na != nb))
    else if a = 0 then (if na != nb then signBit f else 0)
    else
      let n : Int := if b < 0 then -a else a
      match roundMag f.shape.1 f.shape.2 f.top n.natAbs b.natAbs with
      | some m => m + (if n < 0 then signBit f else 0)
      | none => f.inf (decide (n < 0))
  | .inf _, .inf _ => f.nan
  | .inf na, y => f.inf (na != y.negative)
  | x, .inf nb => if x.negative != nb then signBit f else 0

/-! ### The checker's tolerance (R286) -/

/-- The exact value of a finite fp32 pattern, scaled by 2^149. -/
def finOf (b : Nat) : Option Int := match f32 b with | .fin v _ => some v | _ => none

/-- An exact term of the fp32 path: the product of two patterns, scaled by 2^298. -/
def termOf (t : Nat × Nat) : Option Int :=
  match finOf t.1, finOf t.2 with
  | some a, some b => some (a * b)
  | _, _ => none

/-- All of some exact values, or none. -/
def allFin : List (Option Int) → Option (List Int)
  | [] => some []
  | x :: xs => match x, allFin xs with
    | some v, some vs => some (v :: vs)
    | _, _ => none

def sumInt (xs : List Int) : Int := xs.foldl (· + ·) 0

/-- The exact sum of the magnitudes of terms. -/
def sumAbs (xs : List Int) : Nat := (xs.map Int.natAbs).foldl (· + ·) 0

/-- |r − T| ≤ (n + 1) × 2^-24 × A + 2^-149 (R286), for r, T and A scaled by 2^298. -/
def withinTol (r : Int) (n : Nat) (total : Int) (mags : Nat) : Bool := decide ((r - total).natAbs * 2 ^ 24 ≤ (n + 1) * mags + 2 ^ 173)

/-- What the checker's own evaluation of a sum gives, in fp32: NaN and infinities as R135 states. -/
def evalTerms (ts : List (Nat × Nat)) : Nat :=
  match allFin (ts.map termOf) with
  | some xs => roundF32 (sumInt xs) (2 ^ 298) false
  | none => (ts.foldl (fun a t => a.mac (f32 t.1) (f32 t.2)) ({} : Acc)).read .fp32

/-- Does a value formed on the fp32 path from `n` terms pass its tolerance check (R286)? `rs` are the values of which it is the sum; a NaN or
an infinity passes only where the checker's own evaluation gives the same. -/
def tolOk (rs : List Nat) (n : Nat) (ts : List (Nat × Nat)) : Bool :=
  match allFin (rs.map finOf), allFin (ts.map termOf) with
  | some vs, some xs => withinTol (sumInt vs * 2 ^ 149) n (sumInt xs) (sumAbs xs)
  | _, _ => evalTerms (rs.map fun r => (r, 0x3F800000)) == evalTerms ts

/-- Is x below y? NaNs compare as neither. -/
def flt (x y : Nat) : Bool :=
  match f32 x, f32 y with
  | .nan, _ => false
  | _, .nan => false
  | .fin a _, .fin b _ => decide (a < b)
  | .inf na, .inf nb => na && !nb
  | .inf na, _ => na
  | _, .inf nb => !nb

/-- The larger of two scores. -/
def fmax (x y : Nat) : Nat := if flt x y then y else x

/-- exp in fp32 (R188). -/
def fexp (x : Nat) : Nat := (Config.expF32 (BitVec.ofNat 32 x)).toNat

/-- An fp32 value rounded to bf16, and a bf16 pattern as fp32. -/
def toBf16 (x : Nat) : Nat :=
  match f32 x with
  | .nan => 0x7FC0
  | .inf n => OutFmt.bf16.inf n
  | .fin v n => if v = 0 then (if n then 0x8000 else 0) else roundOut .bf16 v (2 ^ 149)

end Sys2Proof.Machine
end

