-- ==== Sys2Proof/Machine/Fabric.lean ====
section
/-! DEFINITION. The stone fabric as shared operations (chapter 06): the stone clock, dressings, placement of pieces
(R155), the choice of the next piece (R156), clearing (R160), and the failure of a stone (R25). -/
namespace Sys2Proof.Machine

def State.modStone (s : State) (k : Nat) (f : Stone → Stone) : State :=
  { s with stone := { s.stone with stones := s.stone.stones.upd k f } }

def State.stoneAt (s : State) (k : Nat) : Stone := s.stone.stones.get k

def State.modStnLd (s : State) (ld : Nat) (f : StnLd → StnLd) : State :=
  { s with stone := { s.stone with lds := s.stone.lds.upd ld f } }

def State.modChecker (s : State) (d : Nat) (f : Checker → Checker) : State :=
  { s with stone := { s.stone with checkers := s.stone.checkers.upd d f } }

def State.checkerAt (s : State) (d : Nat) : Checker := s.stone.checkers.get d

/-- Put a line into a list in ascending order of its address. -/
def insertLine (x : HopLine) : List HopLine → List HopLine
  | [] => [x]
  | y :: ys => if x.line ≤ y.line then x :: y :: ys else y :: insertLine x ys

/-- The lines that the checkers hold of a piece, in ascending DPA order. -/
def State.copies (s : State) (p : Piece) : List HopLine :=
  ([0, 1, 2, 3].flatMap fun d => ((s.checkerAt d).lines.filter fun x => x.1 == p.buf && x.2.1 == p.idx).map fun x => x.2.2).foldr insertLine []

/-- The input digest of a piece: over every line it received, in ascending DPA order, the status byte and the slot's contents (R287). -/
def State.inputDigest (s : State) (p : Piece) : Nat :=
  crc64 ((s.copies p).flatMap fun l => BitVec.ofNat 8 l.status :: l.data)

/-- The checkers drop the copies of a piece: its figures are formed, or it starts again. -/
def State.dropCopies (s : State) (p : Piece) : State :=
  { s with stone := { s.stone with checkers := s.stone.checkers.updAll [0, 1, 2, 3] fun _ c =>
    { c with lines := c.lines.filter fun x => x.1 != p.buf || x.2.1 != p.idx } } }

/-- The checkers keep nothing of an operation that has ended. -/
def State.dropChecks (s : State) (b : Nat) : State :=
  { s with stone := { s.stone with checkers := s.stone.checkers.updAll [0, 1, 2, 3] fun _ c => { c with lines := c.lines.filter fun x => x.1 ≠ b } } }

def stoneDie (k : Nat) : Nat := k / 48
def allStones : List Nat := List.range 192
def dieStones (d : Nat) : List Nat := (List.range 48).map (· + 48 * d)

/-! ### Stone cycles (STN_USE) -/

def State.chargeCycles (s : State) (ld n : Nat) : State := s.modStnLd ld fun l => { l with cycles := bump 64 l.cycles n }

/-! ### Dressings (R146 to R152) -/

/-- The container header of a resident dressing: built-in handles 0 to 31, tenant handles from 32 (R150). -/
def State.dressing (s : State) (h : Nat) : Option Dressing := (s.stone.lib.find? fun d => d.1 = h).map Prod.snd

def State.header (s : State) (h : Nat) : Option Bytes :=
  if h < 32 then (if h < Config.builtinCount then some (fit 256 (Config.builtinHeader h)) else none)
  else (s.dressing h).map fun d => d.container.take 256

def hdrCode (b : Bytes) : Nat := leAt b 12 4 + leAt b 16 4
def hdrClasses (b : Bytes) : Nat := leAt b 20 4
def hdrScratch (b : Bytes) : Nat := if leAt b 4 2 = 3 then 0 else leAt b 44 4
def hdrCkptUs (b : Bytes) : Nat := leAt b 48 4
def hdrCkptKib (b : Bytes) : Nat := leAt b 52 4
def hdrStonesMax (b : Bytes) : Nat := leAt b 56 2
def hdrCheck (b : Bytes) : Nat := leAt b 58 1
def hdrTags (b : Bytes) : Nat := leAt b 40 2
def hdrHopper (b : Bytes) : Nat := leAt b 36 4

def State.hdr (s : State) (h : Nat) : Bytes := (s.header h).getD []

/-- The built-in dressing that serves a class: the lowest handle whose CLASSES names it. DESIGN CHOICE, log entry 25. -/
def State.builtinFor (s : State) (cls : Nat) : Nat :=
  ((List.range 32).find? fun h => bitOf (hdrClasses (s.hdr h)) cls).getD 0

def State.disabled (s : State) (h : Nat) : Bool :=
  s.stone.builtinOff.contains h || (match s.dressing h with | some d => d.disabled | none => false)

/-! ### Placement (R155) -/

/-- Is a domain of a stone die stopped for want of lock (R401)? -/
def State.dieStopped (s : State) (d : Nat) : Bool := s.clock.stopped.any fun x => x.2 == d

/-- Entries that a class holds in a stone's queue. -/
def Stone.held (st : Stone) (cls : Nat) : Nat := (st.queue.filter fun p => p.wclass = cls).length

/-- Does a class hold its QUEUE share of a queue of eight entries (Table 8.4)? -/
def State.fullShare (s : State) (st : Stone) (cls : Nat) : Bool := (s.weir.classes.get cls).queue * 8 ≤ st.held cls * 256

/-- Is a class refused a free entry of a stone's queue: it holds its share, and another that holds less than its own waits (R218)? -/
def State.shareFull (s : State) (st : Stone) (cls : Nat) : Bool :=
  s.fullShare st cls && s.stone.waiting.any fun p => p.wclass != cls && !s.fullShare st p.wclass

/-- Stones that a piece may go to. -/
def State.eligible (s : State) (p : Piece) (k : Nat) : Bool :=
  (s.stoneAt k).state == .online && (s.stoneAt k).queue.length < 8 && !p.notStones.contains k && !s.dieStopped (stoneDie k)
    && !s.shareFull (s.stoneAt k) p.wclass

def State.dieQueued (s : State) (d : Nat) : Nat := ((dieStones d).map fun k => (s.stoneAt k).queue.length).foldl (· + ·) 0

/-- The die with the fewest queued pieces, the lowest on a tie. -/
def State.lightDie (s : State) : Nat :=
  [1, 2, 3].foldl (fun a d => if s.dieQueued d < s.dieQueued a then d else a) 0

/-- The die that R155 rule 2 gives for a piece's first input sack. -/
def State.inputDie (s : State) (e : Extent) (sack : Nat) : Option Nat :=
  match s.store.t0.find? fun c => c.sack = sack with
  | some c => some c.die
  | none =>
    if (s.sack sack).near then some (stackDie (s.sack sack).stack)
    else if Prof.affinity e.profile < 4 then some (Prof.affinity e.profile) else none

/-- Rule 3 of R155: how well a stone suits a piece, lower is better. -/
def State.suit (s : State) (p : Piece) (k : Nat) : Nat :=
  let st := s.stoneAt k
  let pref := if st.party = some (s.party p.ld) then (if st.handle = some p.handle then 0 else 1) else 2
  (pref * 16 + st.queue.length) * 256 + k

/-- DEDUCED, log entry 92. -/
def State.bestStone (s : State) (p : Piece) (ks : List Nat) : Option Nat :=
  (ks.filter (s.eligible p)).foldl (fun a k =>
    match a with
    | none => some k
    | some b => if s.suit p k < s.suit p b then some k else some b) none

/-- Place a piece on a stone's queue, or let it wait where no stone is eligible (R155). DEDUCED, log entry 92. -/
def State.placePiece (s : State) (p : Piece) : State :=
  let d := ((p.input.bind fun x => (s.extById x.1).bind fun e => s.inputDie e x.2).getD s.lightDie)
  let ring := [d, (d + 1) % 4, (d + 2) % 4, (d + 3) % 4]
  let far := ring.filter fun x => !p.notDies.contains x
  let pick := match far.findSome? fun x => s.bestStone p (dieStones x) with
    | some k => some k
    | none => ring.findSome? fun x => s.bestStone p (dieStones x)
  match pick with
  | none => { s with stone := { s.stone with waiting := s.stone.waiting ++ [p] } }
  | some k =>
    let s := s.modStone k fun st => { st with queue := st.queue ++ [p] }
    if stoneDie k ≠ d then { s with stone := { s.stone with offDie := bump 32 s.stone.offDie 1 } } else s

/-- Try to place a piece that waits. -/
def State.placeAgain (s : State) (p : Piece) : State :=
  { s with stone := { s.stone with waiting := s.stone.waiting.erase p } }.placePiece p

/-- Try to place the pieces that wait, oldest first. -/
def State.placeWaiting (s : State) : State := s.stone.waiting.foldl State.placeAgain s

/-- Take every piece that a predicate picks off every queue and out of the wait. -/
def State.dropPieces (s : State) (p : Piece → Bool) : State :=
  let s := { s with stone := { s.stone with waiting := s.stone.waiting.filter fun x => !p x } }
  (s.stone.stones.keys).foldl (fun s k => s.modStone k fun st => { st with queue := st.queue.filter fun x => !p x }) s

/-- The checkpoint-area entries of an operation's pieces go with it. -/
def State.dropCkpts (s : State) (b : Nat) : State :=
  { s with stone := { s.stone with ckpts := s.stone.ckpts.filter fun c => c.buf ≠ b } }

/-! ### Choosing and stopping pieces (R156, R158, R160) -/

/-- The rank of a piece on the stones (R217). -/
def State.pieceRank (s : State) (p : Piece) : Nat := s.weirBand p.inG p.wclass 3

/-- Is `a` before `b`: class, then a piece that runs ahead of its class, then the order of acceptance? -/
def State.pieceBefore (s : State) (a b : Piece) : Bool :=
  s.pieceRank a < s.pieceRank b
    || (s.pieceRank a == s.pieceRank b && ((a.ahead && !b.ahead) || (a.ahead == b.ahead && a.order < b.order)))

/-- The queued piece of highest priority (R156, R217). DEDUCED, log entry 92. -/
def State.nextPiece (s : State) (ps : List Piece) : Option Piece :=
  ps.foldl (fun a p => match a with | none => some p | some b => if s.pieceBefore p b then some p else some b) none

/-- A stone with nothing left in it (R160): banks, code window, accumulators and their flags, buckets, registers and tags. -/
def Stone.zeroed (st : Stone) : Stone :=
  { st with
    running := none
    preempt := false
    loaded := none
    contents := none
    accs := []
    buckets := []
    scratch := none
    tags := []
    took := []
    inputs := []
    taking := none
    clean := true }

/-- Count a clear. -/
def State.countClear (s : State) : State := { s with stone := { s.stone with clears := bump 32 s.stone.clears 1 } }

/-- Begin clearing a stone. DEDUCED, log entry 90. -/
def State.beginClear (s : State) (k : Nat) : State :=
  (s.modStone k fun st => { st with state := .clearing, clearAt := s.cyc, tags := [], taking := none }).countClear

/-- A stone's piece is over: a draining stone is cleared next (R158, R161, R164). DEDUCED, log entry 90. -/
def State.stoneIdle (s : State) (k : Nat) : State :=
  let s := s.modStone k fun st => { st with running := none, preempt := false, tags := [], taking := none }
  if (s.stoneAt k).state = .draining then s.beginClear k else s.placeWaiting

/-- The queued pieces of a marked stone move to other stones (R159). -/
def State.moveQueue (s : State) (k : Nat) : State :=
  let q := (s.stoneAt k).queue
  q.foldl State.placePiece (s.modStone k fun st => { st with queue := [] })

/-- Mark a stone DRAINING: its queue moves to other stones, and an idle stone is cleared at once (R159, R164). -/
def State.drainStone (s : State) (k : Nat) : State :=
  let st := s.stoneAt k
  if st.state = .online then
    let s := s.modStone k fun st => { st with state := .draining, queue := [] }
    let s := st.queue.foldl State.placePiece s
    if st.running.isNone then s.beginClear k else s
  else s

/-- What a stone becomes once it is cleared: a test slice first, then FAILED, OFFLINE or ONLINE. -/
def Stone.afterClear (st : Stone) : StoneState :=
  if st.slices ≠ [] then .test else if st.broken then .failed else if st.toOffline then .offline else .online

/-- The pieces of a stone that is lost are run again from their start elsewhere (R25, R154). -/
def State.rerun (s : State) (k : Nat) : State :=
  let st := s.stoneAt k
  let again := (match st.running with | some p => [{ p with poison := false, iso := false }] | none => []) ++ st.queue
  let s := s.modStone k fun st => { st with queue := [], running := none, tags := [], taking := none, preempt := false }
  let s := match st.running with
    | some p => { s with gate := { s.gate with slots := s.gate.slots.upd p.buf fun x =>
        if x.op.isSome then { x with replayed := true } else x } }
    | none => s
  again.foldl (fun s p => s.placePiece { p with notStones := k :: p.notStones }) s

/-- A stone enters FAILED: a unit failure (R21, Table 1.8). -/
def State.stoneFails (s : State) (k : Nat) : State :=
  if (s.stoneAt k).broken then s.modStone k fun st => { st with state := .failed, slices := [] }
  else
    let s := s.modStone k fun st => { st with state := .failed, broken := true, toOffline := false, slices := [], handle := none, loaded := none, clean := false }
    (s.rerun k).unitFailed 1 k

end Sys2Proof.Machine
end

