-- ==== Sys2Proof/Machine/Work.lean ====
section
/-! DEFINITION. What the pieces of a gate operation compute (R183 to R198): attention, graph search, distances, set
operations. A piece reads its inputs as they are when it ends. -/
namespace Sys2Proof.Machine

/-! ### Reading for a piece (R143, R144) -/

/-- What a piece's reads met. -/
structure Met where
  poison : Bool := false
  iso : Bool := false
  prec : Bool := false
  prov : List (Nat × Nat) := []
  deriving DecidableEq, Repr

def Met.join (a b : Met) : Met :=
  { poison := a.poison || b.poison, iso := a.iso || b.iso, prec := a.prec || b.prec,
    prov := a.prov ++ b.prov.filter fun x => !a.prov.contains x }

/-- What several reads met. -/
def metAll (ms : List Met) : Met := ms.foldl Met.join {}

/-- The provisional entries that record a block (R294). -/
def State.provsOf (s : State) (blk : Nat) : List (Nat × Nat) :=
  (s.result.provs.filter fun p => p.blocks.contains blk).map fun p => (p.node, p.fwdid)

/-- What a block reads as once its encoded form has been written. -/
def State.asStored (s : State) (e : Extent) (blk : Nat) (d : Bytes) : Bytes × Bool :=
  match s.encode e blk d 0 with
  | some (v, _) => ((s.decode e.profile v).getD d, v.side.prec)
  | none => (d, false)

/-- A block's data and PREC bit once its merge-buffer entries have passed to the encoder, oldest first: stones and digest
engines never see merge-buffer contents (R243). No data where it reads as poison. -/
def State.encoded (s : State) (e : Extent) (blk : Nat) : Option Bytes × Bool :=
  (s.mergesOf blk).foldl (fun a m =>
    match (if m.valid = BitVec.allOnes 512 then some m.data else a.1.map fun d => maskBytes m.valid 0 d m.data) with
    | some d => (some (s.asStored e blk d).1, (s.asStored e blk d).2)
    | none => a) (s.blkData e blk, (s.curBlk blk).side.prec)

/-- One block as a piece of an LD sees it: checked as R42 and R33 state, from the newest copy below the merge buffer. An operation that names
a leaving extent was accepted before it left (code 8, R171), so its reads are served (R45). -/
def State.fetchBlk (s : State) (ld dpa : Nat) : Bytes × Met :=
  match (s.extAt ld dpa).filter fun e => e.state != .pending && e.state != .discarding with
  | some e =>
    let blk := s.blkOf e dpa
    let k := s.sack (blk / 128)
    if Prof.gate e.profile then (zeros 512, { poison := true })
    else if k.mst = .unmapped then (zeros 512, {})
    else if ¬ s.mayReach ld e k then (zeros 512, { poison := true, iso := true })
    else match s.encoded e blk with
      | (some d, prec) => (d, { prec := prec, prov := s.provsOf blk })
      | (none, _) => (zeros 512, { poison := true, prov := s.provsOf blk })
  | none => (zeros 512, { poison := true })

/-- Blocks from `dpa` (a multiple of 512), `n` of them. -/
def State.fetchBlks (s : State) (ld dpa : Nat) : Nat → Bytes × Met
  | 0 => ([], {})
  | n + 1 =>
    let a := s.fetchBlk ld dpa
    let b := s.fetchBlks ld (dpa + 512) n
    (a.1 ++ b.1, a.2.join b.2)

/-- One block as the hub reads it for a copy, through the read path: the newest copy with the merge buffer included, its sack touched and
asked for where it is DEEP (R42, R190, R201, R242). DEDUCED, log entry 27. -/
def State.hubBlk (s : State) (ld dpa cls : Nat) (die : Option Nat) : Bytes × Met × State :=
  match (s.extAt ld dpa).filter fun e => e.state != .pending && e.state != .discarding with
  | none => (zeros 512, { poison := true }, s)
  | some e =>
    let blk := s.blkOf e dpa
    let k := s.sack (blk / 128)
    if Prof.gate e.profile ∨ (k.mst = .unmapped ∧ k.poison = true) then (zeros 512, { poison := true }, s)
    else if k.mst = .unmapped then (zeros 512, {}, s)
    else if ¬ s.mayReach ld e k then (zeros 512, { poison := true, iso := true }, s.isolation ld dpa (blk / 128))
    else
      let prov := s.provsOf blk
      let got := s.newest e blk
      let prec := (s.curBlk blk).side.prec
      let s := s.touch (blk / 128) ld
      let s := if (s.sack (blk / 128)).mst = .deep then (s.promote (blk / 128) ld e die true cls).2
        else (s.modSack (blk / 128) fun k => { k with ref := k.near }).cacheUse blk
      let s := s.serve ld 0 cls 512 0 none
      match got with
      | some d => (d, { prec := prec, prov := prov }, s)
      | none => (zeros 512, { poison := true, prov := prov }, s)

/-- Blocks from `dpa` (a multiple of 512), `n` of them, as the hub reads them. -/
def State.hubBlks (s : State) (ld dpa cls : Nat) (die : Option Nat) : Nat → Bytes × Met × State
  | 0 => ([], {}, s)
  | n + 1 =>
    let (d, m, s) := s.hubBlk ld dpa cls die
    let (d', m', s) := s.hubBlks ld (dpa + 512) cls die n
    (d ++ d', m.join m', s)

/-- `n` bytes from `dpa`. -/
def State.fetch (s : State) (ld dpa n : Nat) : Bytes × Met :=
  if n = 0 then ([], {})
  else
    let first := dpa / 512 * 512
    let r := s.fetchBlks ld first ((dpa + n - 1) / 512 - dpa / 512 + 1)
    ((r.1.drop (dpa - first)).take n, r.2)

/-- Elements of a source format from bytes. -/
def numsOf (src : Nat) (bs : Bytes) : List Num :=
  (wordsOf (srcBits src / 8) (bs.length / (srcBits src / 8)) bs).map (decodeElem src)

/-! ### Sequences (R183 to R185) -/

def State.seqOf (s : State) (ld id : Nat) : Option KvSeq := s.gate.seqs.find? fun q => q.ld = ld ∧ q.id = id

def State.modSeq (s : State) (ld id : Nat) (f : KvSeq → KvSeq) : State :=
  { s with gate := { s.gate with seqs := s.gate.seqs.map fun q => if q.ld = ld ∧ q.id = id then f q else q } }

def State.binOf (s : State) (id : Nat) : Option Bin := s.gate.bins.find? fun b => b.id = id

def State.modBin (s : State) (id : Nat) (f : Bin → Bin) : State :=
  { s with gate := { s.gate with bins := s.gate.bins.map fun b => if b.id = id then f b else b } }

/-- SRC of a sequence's extent and its element width e. -/
def State.seqSrc (s : State) (q : KvSeq) : Nat := match s.extById q.eid with | some e => Prof.src e.profile | none => 0
def State.seqE (s : State) (q : KvSeq) : Nat := srcBits (s.seqSrc q) / 8

/-- PSZ = 2 × HKV × D × e. -/
def State.psz (s : State) (q : KvSeq) : Nat := 2 * q.hkv * q.d * s.seqE q

/-- Positions rounded up to whole chunks (R199). -/
def chunkUp (n : Nat) : Nat := (n + 2047) / 2048 * 2048

/-- The extent through which an LD reaches a bin (R42, R204): the bin's own, or an alias of the LD over it. -/
def State.binView (s : State) (ld : Nat) (b : Bin) : Option Extent :=
  if b.owner = ld then s.extById b.eid
  else s.ext.exts.find? fun e => e.ld = ld ∧ e.isAlias = true ∧ e.owner = b.owner ∧ e.ownerBase ≤ b.base
    ∧ b.base + b.bytes ≤ e.ownerBase + e.len

/-- The DPA at which an LD reads a bin's storage. -/
def State.binDpa (s : State) (ld : Nat) (b : Bin) : Option Nat :=
  (s.binView ld b).map fun e => if e.isAlias then e.base + (b.base - e.ownerBase) else b.base

/-- Where the record of a position in a layer lies, as a DPA of the sequence's LD: none where it lies in a bin that has ended or that
the LD no longer reaches, which reads as poison (R184, R189, R202, R204). -/
def State.recAt (s : State) (q : KvSeq) (layer pos : Nat) : Option Nat :=
  let own := q.sbase + (layer * q.maxpos + pos) * s.psz q
  if pos < q.plen then
    match q.bin.bind s.binOf with
    | some b => (s.binDpa q.ld b).map fun base => base + (layer * chunkUp b.plen + pos) * s.psz q
    | none => if q.binGone then none else some own
  else some own

/-- Read as a piece from a place that may be gone. -/
def State.fetchAt (s : State) (ld : Nat) (place : Option Nat) (off n : Nat) : Bytes × Met :=
  match place with
  | some dpa => s.fetch ld (dpa + off) n
  | none => (zeros n, { poison := true })

/-- The die of R185 for a chunk of a sequence. -/
def seqDie (c id : Nat) : Nat := (c + id) % 4

/-! ### Attention (R186, R188) -/

/-- What an attention operation attends: layer, first and last position, scale, output format, the query bytes, and
the record of the last position where it comes from the parameter lines. -/
structure Attn where
  layer : Nat
  lo : Nat
  hi : Nat
  scale : Nat
  fp32 : Bool
  query : Bytes
  own : Option Bytes
  deriving DecidableEq, Repr

/-- Header fields of APPEND_ATTEND (Table 7.7). -/
def apPos (p : Bytes) : Nat := leAt p 0 4
def apMaskLo (p : Bytes) : Nat := leAt p 4 4
def apLayer (p : Bytes) : Nat := leAt p 8 2 % 1024
def apNoAppend (p : Bytes) : Bool := bitOf (leAt p 10 1) 0
def apNoAttend (p : Bytes) : Bool := bitOf (leAt p 10 1) 1
def apFp32 (p : Bytes) : Bool := bitOf (leAt p 10 1) 2
def apScale (p : Bytes) : Nat := leAt p 12 4

/-- Header fields of CHUNK_PREFILL (R190). -/
def cpCount (p : Bytes) : Nat := leAt p 4 4
def cpAttend (p : Bytes) : Bool := bitOf (leAt p 10 1) 0
def cpSrc (p : Bytes) : Nat := leAt p 16 8

/-- The attention of an operation on a sequence, if it has one. -/
def State.attnOf (s : State) (q : KvSeq) (opcode : Nat) (p : Bytes) : Option Attn :=
  let ql := q.g * q.hkv * q.d * s.seqE q
  if opcode = 0x0100 then
    if apNoAttend p then none
    else if apNoAppend p then
      some { layer := apLayer p, lo := apMaskLo p, hi := apPos p - 1, scale := apScale p, fp32 := apFp32 p,
             query := (p.drop 64).take ql, own := none }
    else some { layer := apLayer p, lo := apMaskLo p, hi := apPos p, scale := apScale p, fp32 := apFp32 p,
                query := (p.drop 64).take ql, own := some ((p.drop (64 + ql)).take (s.psz q)) }
  else if opcode = 0x0102 ∧ cpAttend p = true then
    some { layer := apLayer p, lo := 0, hi := apPos p + cpCount p - 1, scale := apScale p, fp32 := apFp32 p,
           query := (p.drop 64).take ql, own := none }
  else none

/-- Chunks from that of the first position to that of the last. -/
def Attn.chunks (a : Attn) : Nat := a.hi / 2048 - a.lo / 2048 + 1

/-- The key and value elements of a head at one position. -/
def State.kv (s : State) (q : KvSeq) (a : Attn) (h pos : Nat) : (List Num × List Num) × Met :=
  let w := q.d * s.seqE q
  let src := s.seqSrc q
  let cut := fun (r : Bytes) (at_ : Nat) => numsOf src ((r.drop at_).take w)
  match (if pos = a.hi then a.own else none) with
  | some r => ((cut r (h * w), cut r ((q.hkv + h) * w)), {})
  | none =>
    let place := s.recAt q a.layer pos
    let k := s.fetchAt q.ld place (h * w) w
    let v := s.fetchAt q.ld place ((q.hkv + h) * w) w
    ((numsOf src k.1, numsOf src v.1), k.2.join v.2)

/-- One query head over the positions of a piece: m, l and the o of each dimension, as fp32 patterns (R188 steps 1
and 2). DEDUCED, log entry 23. -/
def headPart (d scale : Nat) (query : List Num) (kvs : List (List Num × List Num)) : List Nat :=
  let scores := kvs.map fun kv => fmul ((dotAcc query kv.1).read .fp32) scale
  let m := (scores.drop 1).foldl fmax (scores.headD 0)
  let ps := scores.map fun x => decodeElem 0 (toBf16 (fexp (fsub x m)))
  let l := (ps.foldl Acc.add {}).read .fp32
  let os := (List.range d).map fun i => (dotAcc ps (kvs.map fun kv => kv.2.getD i (.fin 0 false))).read .fp32
  m :: l :: os

/-- A piece of an attention: KV head `i / chunks` over chunk `i % chunks`. DEDUCED, log entry 23. -/
def State.attnPiece (s : State) (q : KvSeq) (a : Attn) (i : Nat) : PieceOut :=
  let h := i / a.chunks
  let c := a.lo / 2048 + i % a.chunks
  let from_ := max a.lo (2048 * c)
  let n := min a.hi (2048 * c + 2047) + 1 - from_
  let got := (List.range n).map fun j => s.kv q a h (from_ + j)
  let met := metAll (got.map Prod.snd)
  let kvs := got.map Prod.fst
  let w := q.d * s.seqE q
  let words := (List.range q.g).flatMap fun g =>
    headPart q.d a.scale (numsOf (s.seqSrc q) ((a.query.drop ((h * q.g + g) * w)).take w)) kvs
  { words := words, poison := met.poison, iso := met.iso, prec := met.prec, prov := met.prov }

/-- The weights w of a head's partial results (R188 step 3). -/
def headWeights (parts : List (List Nat)) : List Nat :=
  let m := (parts.drop 1).foldl (fun a p => fmax a (p.headD 0)) ((parts.headD []).headD 0)
  parts.map fun p => fexp (fsub (p.headD 0) m)

/-- The combining of word `i` of a head's partial results: Σ w × word, in ascending piece order on the fp32 path. -/
def headSum (parts : List (List Nat)) (i : Nat) : Nat :=
  ((headWeights parts).zip parts).foldl (fun a q => fma q.1 (q.2.getD i 0) a) 0

/-- The terms of that sum. -/
def headTerms (parts : List (List Nat)) (i : Nat) : List (Nat × Nat) :=
  ((headWeights parts).zip parts).map fun q => (q.1, q.2.getD i 0)

/-- Combine the partial results of one query head in ascending piece order (R188 step 3). DEDUCED, log entry 23. -/
def combineHead (d : Nat) (fp32 : Bool) (parts : List (List Nat)) : List Nat :=
  (List.range d).map fun i => fdivTo (if fp32 then .fp32 else .bf16) (headSum parts (2 + i)) (headSum parts 1)

/-- The checker's comparison of a head's combining step (Table 12.1): L against Σ w × l, and the sum over dimensions of O against
Σ w × (sum over dimensions of o), with the number of pieces as n (R286). DEDUCED, log entry 108. -/
def combineOk (d : Nat) (parts : List (List Nat)) : Bool :=
  tolOk [headSum parts 1] parts.length (headTerms parts 1)
    && tolOk ((List.range d).map fun i => headSum parts (2 + i)) parts.length ((List.range d).flatMap fun i => headTerms parts (2 + i))

/-- The partial results of query head `j`: m, l and o of each of its pieces. -/
def headParts (q : KvSeq) (a : Attn) (outs : List PieceOut) (j : Nat) : List (List Nat) :=
  ((outs.drop (j / q.g * a.chunks)).take a.chunks).map fun o => (o.words.drop (j % q.g * (q.d + 2))).take (q.d + 2)

/-- The result bytes of an attention from its pieces' outputs in piece order. DEDUCED, log entry 23. DESIGN CHOICE, log entry 24. -/
def attnResult (q : KvSeq) (a : Attn) (outs : List PieceOut) : Bytes :=
  (List.range (q.hkv * q.g)).flatMap fun j =>
    (combineHead q.d a.fp32 (headParts q a outs j)).flatMap (leBytes (if a.fp32 then 4 else 2))

/-! ### Search (R192 to R196) -/

def State.indexOf (s : State) (ld id : Nat) : Option VecIndex := s.gate.indexes.find? fun x => x.ld = ld ∧ x.id = id

def VecIndex.vecBytes (x : VecIndex) : Nat := x.dim * (srcBits (fmtSrc x.vfmt) / 8)

/-- The distance of a query to stored elements (R192): one exact sum, read out once. -/
def distOf (metric : Nat) (q x : List Num) : Nat :=
  if metric = 0 then (dotAcc q x).read .fp32
  else (((dotAcc q q).plus (-2) (dotAcc q x)).plus 1 (dotAcc x x)).read .fp32

def State.dist (s : State) (ld : Nat) (x : VecIndex) (q : List Num) (v : Nat) : Nat × Met :=
  let r := s.fetch ld (x.vbase + v * x.vecBytes) x.vecBytes
  (distOf x.metric q (numsOf (fmtSrc x.vfmt) r.1), r.2)

/-- A vector on a list: its distance and identifier. `closer` ranks: by distance, then by the lower identifier. -/
def closer (metric : Nat) (a b : Nat × Nat) : Bool :=
  let ahead := if metric = 0 then flt b.1 a.1 else flt a.1 b.1
  let behind := if metric = 0 then flt a.1 b.1 else flt b.1 a.1
  ahead || (!behind && a.2 < b.2)

def insertRank (metric : Nat) (x : Nat × Nat) : List (Nat × Nat) → List (Nat × Nat)
  | [] => [x]
  | y :: ys => if closer metric x y then x :: y :: ys else y :: insertRank metric x ys

/-- The walk's state: the EF best seen with a mark for the expanded, the identifiers visited, the K best that pass the
filters, evaluations, and what the reads met. -/
structure Walk where
  cand : List (Nat × Nat) := []
  expanded : List Nat := []
  visited : List Nat := []
  best : List (Nat × Nat) := []
  evals : Nat := 0
  met : Met := {}
  deriving DecidableEq, Repr

/-- The header of GRAPH_SEARCH (R193). -/
structure SearchHdr where
  nq : Nat
  qpp : Nat
  k : Nat
  ef : Nat
  nfilt : Nat
  byRef : Bool
  qdpa : Nat
  filters : List Nat
  deriving DecidableEq, Repr

def searchHdr (p : Bytes) : SearchHdr :=
  let n := leAt p 8 1
  { nq := leAt p 0 2, qpp := leAt p 2 2, k := leAt p 4 2, ef := leAt p 6 2, nfilt := n, byRef := leAt p 9 1 == 1,
    qdpa := leAt p 16 8, filters := (List.range n).map fun i => leAt p (64 + 16 * i) 8 }

/-- Do all the bitmaps allow a vector (R195)? -/
def State.allowed (s : State) (ld v : Nat) : List Nat → Bool × Met
  | [] => (true, {})
  | f :: fs =>
    let r := s.fetch ld (f + v / 8) 1
    let rest := s.allowed ld v fs
    (bitOf (leNat r.1) (v % 8) && rest.1, r.2.join rest.2)

/-- Put an evaluated vector on the candidate list, and on the result list where it ranks there and passes (R195). -/
def State.consider (s : State) (ld : Nat) (x : VecIndex) (h : SearchHdr) (w : Walk) (v : Nat) (d : Nat × Met) : Walk :=
  let en := (d.1, v)
  let w := { w with cand := (insertRank x.metric en w.cand).take h.ef, visited := v :: w.visited, met := w.met.join d.2 }
  let ranked := (insertRank x.metric en w.best).take h.k
  if ranked.contains en then
    let ok := s.allowed ld v h.filters
    { w with best := if ok.1 then ranked else w.best, met := w.met.join ok.2 }
  else w

/-- DEDUCED, log entry 22. -/
def State.expandOne (s : State) (ld : Nat) (x : VecIndex) (h : SearchHdr) (q : List Num) (w : Walk) (v : Nat) : Walk :=
  if w.visited.contains v ∨ x.nv ≤ v then w
  else { s.consider ld x h w v (s.dist ld x q v) with evals := w.evals + 1 }

/-- The walk of R194, one hop for each unit of fuel. DEDUCED, log entry 22. -/
def State.walk (s : State) (ld : Nat) (x : VecIndex) (h : SearchHdr) (q : List Num) : Nat → Walk → Walk
  | 0, w => w
  | fuel + 1, w =>
    match w.cand.find? fun c => !w.expanded.contains c.2 with
    | none => w
    | some c =>
      let r := s.fetch ld (x.abase + c.2 * x.deg * 4) (x.deg * 4)
      let ids := (wordsOf 4 x.deg r.1).takeWhile (· ≠ 0xFFFFFFFF)
      let w := { w with expanded := c.2 :: w.expanded, met := w.met.join r.2 }
      s.walk ld x h q fuel (ids.foldl (s.expandOne ld x h q) w)

/-- Queries inline from line 10, or at QDPA. DEDUCED, log entry 22. -/
def State.query (s : State) (ld : Nat) (x : VecIndex) (h : SearchHdr) (p : Bytes) (i : Nat) : List Num × Met :=
  let r := if h.byRef then s.fetch ld (h.qdpa + i * x.vecBytes) x.vecBytes
    else ((p.drop (128 + i * x.vecBytes)).take x.vecBytes, {})
  (numsOf (fmtSrc x.vfmt) r.1, r.2)

/-- One batch of queries, each walked wholly within the piece. DEDUCED, log entry 22. -/
def State.searchPiece (s : State) (ld : Nat) (x : VecIndex) (p : Bytes) (i : Nat) : PieceOut :=
  let h := searchHdr p
  let walks := ((List.range h.qpp).map (· + i * h.qpp)).filter (· < h.nq) |>.map fun j =>
    let q := s.query ld x h p j
    s.walk ld x h q.1 (x.nv + 1) (s.consider ld x h { met := q.2 } x.entry (s.dist ld x q.1 x.entry))
  let met := metAll (walks.map Walk.met)
  { words := walks.flatMap fun w =>
      let got := w.best.flatMap fun b => [b.2, b.1]
      got ++ (List.replicate (h.k - w.best.length) [0xFFFFFFFF, 0x7F800000]).flatMap id
    poison := met.poison, iso := met.iso, prec := met.prec, prov := met.prov
    count := (walks.map Walk.evals).foldl (· + ·) 0 }

/-- DISTANCE_BATCH (R196): 4,096 candidates for each piece. -/
def State.batchPiece (s : State) (ld : Nat) (x : VecIndex) (p : Bytes) (i : Nat) : PieceOut :=
  let nc := leAt p 0 4
  let n := min 4096 (nc - 4096 * i)
  let q := numsOf (fmtSrc x.vfmt) ((p.drop 64).take x.vecBytes)
  let ids := if leAt p 4 1 = 1 then s.fetch ld (leAt p 8 8 + 4 * 4096 * i) (4 * n)
    else ((p.drop (64 + x.vecBytes + 4 * 4096 * i)).take (4 * n), {})
  let ds := (wordsOf 4 n ids.1).map fun v => if x.nv ≤ v then ((0x7FC00000 : Nat), ({} : Met)) else s.dist ld x q v
  let met := metAll (ids.2 :: ds.map Prod.snd)
  { words := ds.map Prod.fst, poison := met.poison, iso := met.iso, prec := met.prec, prov := met.prov }

/-! ### Set operations (R197) -/

/-- A list descriptor (Table 7.8). -/
structure KeyList where
  base : Nat
  bitmap : Bool
  count : Nat
  keyBase : Nat
  deriving DecidableEq, Repr

def keyListOf (v : Nat) : KeyList :=
  { base := bitsOf v 47 0, bitmap := bitOf v 48, count := bitsOf v 95 64, keyBase := bitsOf v 127 96 }

def keyLists (p : Bytes) : List KeyList :=
  (List.range (leAt p 0 1)).map fun i => keyListOf (leNat ((p.drop (64 + 16 * i)).take 16))

def ascending : List Nat → Bool
  | a :: b :: rest => a < b && ascending (b :: rest)
  | _ => true

/-- The keys of a list within a range, and whether a sorted list is strictly ascending there. -/
def State.keysIn (s : State) (ld : Nat) (l : KeyList) (lo hi : Nat) : List Nat × Bool × Met :=
  if l.bitmap then
    let first := max lo l.keyBase
    let n := min (hi + 1) (l.keyBase + l.count) - first
    if n = 0 then ([], true, {})
    else
      let off := first - l.keyBase
      let r := s.fetch ld (l.base + off / 8) ((off + n - 1) / 8 - off / 8 + 1)
      let v := leNat r.1
      (((List.range n).filter fun i => v.testBit (off % 8 + i)).map (· + first), true, r.2)
  else
    let r := s.fetch ld l.base (4 * l.count)
    let ks := (wordsOf 4 l.count r.1).filter fun k => lo ≤ k && k ≤ hi
    (ks, ascending ks, r.2)

/-- Merge two ascending lists without repeats. -/
def mergeKeys : Nat → List Nat → List Nat → List Nat
  | 0, _, _ => []
  | _, [], bs => bs
  | _, as, [] => as
  | fuel + 1, a :: as, b :: bs =>
    if a < b then a :: mergeKeys fuel as (b :: bs)
    else if b < a then b :: mergeKeys fuel (a :: as) bs
    else a :: mergeKeys fuel as bs

/-- The keys that a set operation returns from its lists' keys. -/
def setKeys (opcode : Nat) (ls : List (List Nat)) : List Nat :=
  let first := ls.headD []
  let rest := ls.drop 1
  if opcode = 0x0300 then first.filter fun k => rest.all fun l => l.contains k
  else if opcode = 0x0302 then first.filter fun k => !rest.any fun l => l.contains k
  else rest.foldl (fun a l => mergeKeys (a.length + l.length + 1) a l) first

/-- The key range of piece `i`: the 2^24-key ranges from that of KEYLO (Table 6.9). -/
def pieceRange (p : Bytes) (i : Nat) : Nat × Nat :=
  let lo := leAt p 4 4
  let hi := leAt p 8 4
  let r := lo / 2 ^ 24 + i
  (max lo (r * 2 ^ 24), min hi (r * 2 ^ 24 + 2 ^ 24 - 1))

def State.setPiece (s : State) (ld opcode : Nat) (p : Bytes) (i : Nat) : PieceOut :=
  let (lo, hi) := pieceRange p i
  let got := (keyLists p).map fun l => s.keysIn ld l lo hi
  let met := metAll (got.map fun g => g.2.2)
  let ks := setKeys opcode (got.map Prod.fst)
  { words := ks, poison := met.poison, iso := met.iso, prec := met.prec, prov := met.prov, bad := got.findIdx? (fun g => !g.2.1), count := ks.length }

/-! ### One piece, and the whole result (Table 6.9, R153) -/

/-- The container of a dressing. -/
def State.containerOf (s : State) (h : Nat) : Bytes := match s.dressing h with | some d => d.container | none => s.hdr h

/-- A value that a tenant declares under CHECK 2, scaled by 2^149, or a NaN or an infinity, which its exact reference never is (Table 12.1). -/
def tolPairOk (x : BitVec 32 × BitVec 640 × BitVec 640 × Nat) : Bool :=
  match finOf x.1.toNat with
  | some v => withinTol (v * 2 ^ 149) x.2.2.2 (x.2.1.toInt * 2 ^ 10) (x.2.2.1.toNat * 2 ^ 10)
  | none => false

/-- The check pairs of a tenant piece, at most 64 (Table 12.1): exact contents under CHECK 1, a value with its reference under CHECK 2.
DESIGN CHOICE, log entry 102. -/
def pairsOk (check : Nat) (container : Bytes) (i : Nat) (params : Bytes) (inputs : List Bytes) : Bool :=
  match check with
  | 1 => ((Config.tenantExact container i params inputs).take 64).all fun x => x.1 == x.2
  | 2 => ((Config.tenantTol container i params inputs).take 64).all tolPairOk
  | _ => true

/-- What piece `i` of an operation produces; `inputs` are the data of the lines that it took. A tenant piece that presents a reserved
format is aborted and its result lines read as poison (R130). DESIGN CHOICE, log entry 21. -/
def State.evalPiece (s : State) (ld : Nat) (op : GateOp) (i : Nat) (inputs : List Bytes) : PieceOut :=
  match op.cls with
  | 0 =>
    match s.seqOf ld op.obj with
    | some q =>
      match s.attnOf q op.opcode op.params with
      | some a => s.attnPiece q a i
      | none => {}
    | none => { poison := true }
  | 1 => match s.indexOf ld op.obj with | some x => s.searchPiece ld x op.params i | none => { poison := true }
  | 2 => match s.indexOf ld op.obj with | some x => s.batchPiece ld x op.params i | none => { poison := true }
  | 3 => s.setPiece ld op.opcode op.params i
  | _ =>
    let c := s.containerOf op.handle
    if fmtOk (Config.tenantFormat c i op.params inputs) then
      { words := ((Config.tenantResult c i op.params inputs).flatMap id).map BitVec.toNat
        pairsOk := pairsOk (hdrCheck (s.hdr op.handle)) c i op.params inputs }
    else { poison := true }

/-- How many pieces an operation is split into (Table 7.6). -/
def State.pieceCount (s : State) (ld : Nat) (op : GateOp) : Nat :=
  let p := op.params
  match op.cls with
  | 0 =>
    match s.seqOf ld op.obj with
    | some q => (match s.attnOf q op.opcode p with | some a => if a.hi < a.lo then 0 else q.hkv * a.chunks | none => 0)
    | none => 0
  | 1 => (leAt p 0 2 + leAt p 2 2 - 1) / max (leAt p 2 2) 1
  | 2 => (leAt p 0 4 + 4095) / 4096
  | 3 => leAt p 8 4 / 2 ^ 24 - leAt p 4 4 / 2 ^ 24 + 1
  | 4 => leAt p 0 2
  | _ => 0

/-- The combined result of an operation: its bytes, AUX, and whether it was cut (Table 6.9). -/
def State.assemble (s : State) (ld : Nat) (op : GateOp) (outs : List PieceOut) : Bytes × Nat × Bool :=
  let total := (outs.map PieceOut.count).foldl (· + ·) 0
  let words := outs.flatMap PieceOut.words
  match op.cls with
  | 0 =>
    match s.seqOf ld op.obj with
    | some q =>
      match s.attnOf q op.opcode op.params with
      | some a =>
        if a.hi < a.lo then
          let w := if a.fp32 then 4 else 2
          ((List.range (q.hkv * q.g * q.d)).flatMap fun i => leBytes w (Config.emptyAttend op.order i), op.aux, false)
        else (attnResult q a outs, op.aux, false)
      | none => ([], op.aux, false)
    | none => ([], op.aux, false)
  | 1 => (words.flatMap (leBytes 4), total, false)
  | 2 => (words.flatMap (leBytes 4), 0, false)
  | 3 =>
    if leAt op.params 1 1 = 1 then ([], total, false)
    else ((words.take 8192).flatMap (leBytes 4), total, decide (8192 < total))
  | _ => ((words.map (BitVec.ofNat 8)).take 32768, (Config.tenantAux (s.containerOf op.handle) op.params words).toNat, false)

end Sys2Proof.Machine
end

