-- ==== Sys2Proof/Machine/Tracker.lean ====
section
/-! DEFINITION. TRACKER and the end of an extent's leaving (Table 2.3, Table 2.4, R46), with the gate slots it counts. -/
namespace Sys2Proof.Machine

def State.modGate (s : State) (f : GateSt → GateSt) : State := { s with gate := f s.gate }
def State.slot (s : State) (b : Nat) : Slot := s.gate.slots.get b
def State.setSlot (s : State) (b : Nat) (v : Slot) : State := s.modGate fun g => { g with slots := g.slots.set b v }
def State.modSlot (s : State) (b : Nat) (f : Slot → Slot) : State := s.setSlot b (f (s.slot b))

/-- The LD of a gate buffer (R166: 128 buffers for each LD). -/
def bufLd (b : Nat) : Nat := b / 128
def ldBufs (ld : Nat) : List Nat := (List.range 128).map (· + 128 * ld)

def SlotState.busy (x : SlotState) : Bool := x == .queued || x == .running || x == .checking

/-! ### TRACKER (Table 2.3) -/

/-- The extents of an LD that a range of its DPA touches. -/
def State.extsIn (s : State) (ld dpa n : Nat) : List Nat :=
  (s.ext.exts.filter fun e => e.ld = ld ∧ e.base < dpa + n ∧ dpa < e.base + e.len).map Extent.eid

/-- A range of an LD's DPA: where it starts and its bytes. -/
abbrev DpaRange := Nat × Nat

/-- The records of `n` positions of a layer from `lo` on, in a sequence's bin and in its own storage. -/
def State.seqPlaces (s : State) (q : KvSeq) (layer lo n : Nat) : List DpaRange :=
  let mid := max lo (min (lo + n) q.plen)
  [(lo, mid - lo), (mid, lo + n - mid)].filterMap fun r =>
    if r.2 = 0 then none else (s.recAt q layer r.1).map fun dpa => (dpa, r.2 * s.psz q)

/-- What an operation on a sequence reads and writes. -/
def State.seqRanges (s : State) (q : KvSeq) (o : GateOp) : List DpaRange :=
  let p := o.params
  let attended := match s.attnOf q o.opcode p with
    | some a => s.seqPlaces q a.layer a.lo (a.hi + 1 - a.lo)
    | none => []
  let written :=
    match o.opcode with
    | 0x0100 => if apNoAppend p then [] else s.seqPlaces q (apLayer p) (apPos p) 1
    | 0x0102 => (cpSrc p, cpCount p * s.psz q) :: s.seqPlaces q (apLayer p) (apPos p) (cpCount p)
    | 0x0103 => (List.range q.layers).flatMap fun l => s.seqPlaces q l 0 (leAt p 40 4)
    | _ => []
  attended ++ written

/-- What an operation of the other classes reads. -/
def State.namedRanges (s : State) (ld : Nat) (o : GateOp) : List DpaRange :=
  let p := o.params
  let index := match s.indexOf ld o.obj with
    | some x => [(x.vbase, x.nv * x.vecBytes), (x.abase, x.nv * x.deg * 4)]
    | none => []
  let size := match s.indexOf ld o.obj with | some x => x.vecBytes | none => 0
  let nv := match s.indexOf ld o.obj with | some x => x.nv | none => 0
  match o.cls with
  | 1 =>
    let h := searchHdr p
    index ++ (if h.byRef then [(h.qdpa, h.nq * size)] else []) ++ h.filters.map fun f => (f, nv / 8 + 1)
  | 2 => index ++ (if leAt p 4 1 = 1 then [(leAt p 8 8, 4 * leAt p 0 4)] else [])
  | 3 => (keyLists p).map fun l => (l.base, if l.bitmap then (l.count + 7) / 8 else 4 * l.count)
  | _ => []

/-- The bin that a publish writes to. -/
def State.binRange (s : State) (ld : Nat) (o : GateOp) : List DpaRange :=
  match o.bin.bind s.binOf with
  | some n => ((s.binDpa ld n).map fun base => (base, n.bytes)).toList
  | none => []

/-- The ranges of its LD's DPA that an operation reads or writes. -/
def State.opRanges (s : State) (ld : Nat) (o : GateOp) : List DpaRange :=
  (match o.cls, s.seqOf ld o.obj with
    | 0, some q => s.seqRanges q o
    | 0, none => []
    | _, _ => s.namedRanges ld o) ++ s.binRange ld o

/-- The extents that an accepted operation reads or appends to, and the gate extent of its slot (R181). -/
def State.opExtents (s : State) (b : Nat) (o : GateOp) : List Nat :=
  let ld := bufLd b
  let bin := match o.bin with | some id => (s.binOf id).map Bin.eid |>.toList | none => []
  let seq := match o.cls, s.seqOf ld o.obj with
    | 0, some q => q.eid :: ((q.bin.bind s.binOf).map Bin.eid).toList
    | _, _ => []
  (s.slot b).eid :: (s.opRanges ld o).flatMap (fun r => s.extsIn ld r.1 r.2) ++ seq ++ bin

/-- Does a range of an LD's DPA touch a sack? -/
def State.rangeHits (s : State) (ld : Nat) (r : DpaRange) (sack : Nat) : Bool :=
  s.ext.exts.any fun e => e.ld == ld && e.base < r.1 + r.2 && r.1 < e.base + e.len
    && s.sackOf e (max r.1 e.base) ≤ sack && sack ≤ s.sackOf e (min (r.1 + r.2) (e.base + e.len) - 1)

/-- The allocated sacks that an operation names. -/
def State.opSacks (s : State) (ld : Nat) (o : GateOp) : List Nat :=
  let rs := s.opRanges ld o
  s.store.sacks.keys.filter fun k => (s.sack k).mst != .unmapped && rs.any fun r => s.rangeHits ld r k

/-- An operation that is dispatched holds its sacks for its LD (Table 4.4, R80). DEDUCED, log entry 9. -/
def State.holdOp (s : State) (b : Nat) (o : GateOp) : State :=
  (s.opSacks (bufLd b) o).foldl (fun s k => s.addHold k (bufLd b) (.op (bufLd b) b)) s

/-- The extents named by outstanding reads of stones that work for an operation. -/
def State.tagExtents (s : State) : List Nat :=
  allStones.flatMap fun k => match (s.stoneAt k).running with
    | some p => (s.stoneAt k).tags.flatMap fun x => s.extsIn p.ld x.dpa (64 * x.count)
    | none => []

/-- Operations in flight that hold an extent. DEDUCED, log entry 9. -/
def State.tracker (s : State) (e : Extent) : Nat :=
  let reads := (s.store.heldReads.filter fun r => r.eid = e.eid).length
  let writes := (s.store.heldWrites.filter fun w => w.eid = e.eid).length
  let bi := (s.cxe.heldBi.filter fun r => r.eid = e.eid).length
  let ops := ((s.gate.slots.cells.filter fun c => c.2.state.busy).filter fun c =>
    match c.2.op with | some o => (s.opExtents c.1 o).contains e.eid | none => false).length
  let moves := (s.store.xfers.filter fun x => x.chan.isSome && x.eid == e.eid).length
  let snoops := (s.cxe.snps.filter fun x => x.ld = e.ld ∧ s.firstSack e ≤ x.blk / 128 ∧ x.blk / 128 < s.firstSack e + e.sacks).length
  reads + writes + bi + ops + moves + snoops + (s.tagExtents.filter fun x => x = e.eid).length

/-- The aliases of an owner's extent. -/
def State.aliasesOf (s : State) (e : Extent) : List Extent :=
  if e.isAlias then []
  else s.ext.exts.filter fun a => a.isAlias && a.owner == e.ld && e.base ≤ a.ownerBase && a.ownerBase < e.base + e.len

/-- An extent whose TRACKER, and that of every alias of it, are zero. -/
def State.quiet (s : State) (e : Extent) : Bool := s.tracker e == 0 && (s.aliasesOf e).all fun a => s.tracker a == 0

/-- Every leaving extent that nothing holds any more is DISCARDING (Table 2.4, R46): taken wherever a state of an extent is looked at.
DEDUCED, log entry 40. -/
def State.settleLeaving (s : State) : State :=
  { s with ext := { s.ext with exts := s.ext.exts.map fun e =>
    if (e.state = .releasing ∨ e.state = .withdrawing) ∧ s.quiet e then { e with state := .discarding } else e } }

end Sys2Proof.Machine
end

