-- ==== Sys2Proof/Machine/Gates.lean ====
section
/-! DEFINITION. Gate slots and go lines (chapter 07): the slot's lines, acceptance (R170 to R173), the start of an
operation, its end, deferred reads (R176 to R178) and cancellation (R180). -/
namespace Sys2Proof.Machine

def State.modOp (s : State) (b : Nat) (f : GateOp → GateOp) : State :=
  s.modSlot b fun x => { x with op := x.op.map f }
def State.modGateLd (s : State) (ld : Nat) (f : GateLd → GateLd) : State :=
  s.modGate fun g => { g with lds := g.lds.upd ld f }

/-- The armed buffer of the slot position that a DPA lies in. -/
def State.bufAt (s : State) (ld dpa : Nat) : Option Nat :=
  (ldBufs ld).find? fun b => (s.slot b).state != .unarmed && (s.slot b).dpa == dpa / 65536 * 65536

def SlotState.code : SlotState → Nat
  | .unarmed => 0 | .idle => 1 | .queued => 2 | .running => 3 | .checking => 4 | .ready => 5 | .failed => 6 | .cancelled => 7

/-! ### Lines -/

/-- The go line as Table 7.3 lays it out. The reserved number packs, from bit 0: byte 2 [7:2], bytes 4–5 [15:14],
bytes 12–15 and bytes 24–63. -/
def goBytes (opcode : Nat) (g : GoLine) : Bytes :=
  layout 64 [⟨0, 2, opcode⟩, ⟨2, 1, b2n g.nowheel + 2 * b2n g.early + 4 * (g.resv % 64)⟩, ⟨3, 1, g.turnlo⟩,
    ⟨4, 2, g.layer % 1024 + 1024 * (g.wheel % 16) + 16384 * (g.resv / 64 % 4)⟩, ⟨6, 2, g.seq⟩, ⟨8, 2, g.plines⟩,
    ⟨10, 2, g.handle⟩, ⟨12, 4, g.resv / 256 % 2 ^ 32⟩, ⟨16, 8, g.obj⟩, ⟨24, 40, g.resv / 2 ^ 40⟩]

/-- The status line (Table 7.4). -/
def Slot.status (x : Slot) : Bytes :=
  layout 64 [⟨0, 1, x.state.code⟩, ⟨1, 1, x.error⟩, ⟨2, 2, x.seq⟩, ⟨4, 2, x.opcode⟩, ⟨6, 2, x.rlines⟩,
    ⟨8, 8, x.layer + x.turn * 2 ^ 10 + x.wheel * 2 ^ 58 + b2n x.posok * 2 ^ 62⟩, ⟨16, 4, x.latency⟩, ⟨20, 2, x.pieces⟩,
    ⟨22, 2, b2n x.replayed + 2 * b2n x.prec + 4 * b2n x.trunc + 8 * b2n x.miss + 16 * b2n x.holdexp + 32 * b2n x.exists_⟩,
    ⟨24, 8, x.aux⟩, ⟨32, 8, x.time⟩]

/-- A PARAM line of a buffer: its bytes, or none where it is poisoned (Table 7.1, R346). -/
def State.param (s : State) (b line : Nat) : Option Bytes := (s.gate.lines.get (1024 * b + line)).map (fit 64)

def State.setParam (s : State) (b line : Nat) (v : Option Bytes) : State :=
  let v' := match v with
    | some d => if d.all (· == 0) then some [] else some d
    | none => none
  s.modGate fun g => { g with lines := g.lines.set (1024 * b + line) v' }

/-- Zero a buffer (R166). -/
def State.clearLines (s : State) (b : Nat) : State :=
  s.modGate fun g => { g with lines := { g.lines with cells := g.lines.cells.filter fun c => c.1 / 1024 != b } }

/-- A RESULT line: lines at or beyond RLINES read as zero (R176). -/
def Slot.resultLine (x : Slot) (i : Nat) : Bytes :=
  if i < x.rlines then fit 64 ((x.result.drop (64 * i)).take 64) else zeros 64

/-- The weir class of a slot: that of its gate region's profile (R174). -/
def State.slotClass (s : State) (b : Nat) : Nat :=
  match s.extById (s.slot b).eid with | some e => Prof.wclass e.profile | none => 0

/-- Answer a read of a RESULT line of a slot whose operation has ended (R176). -/
def State.sendResult (s : State) (ld b line tag : Nat) : State :=
  let x := s.slot b
  if x.state = .ready ∧ ¬ x.bad.contains line then s.sendLine ld tag (s.slotClass b) (x.resultLine line) else s.sendPoison ld tag (s.slotClass b)

/-! ### Deferred reads (R176, R177) -/

def State.answerResult (s : State) (r : ResRead) : State :=
  (s.modGate fun g => { g with reads := g.reads.filter fun y => y.rid ≠ r.rid }).sendResult r.ld r.buf r.line r.tag

/-- Every held read of a slot completes at once with what the slot's new state gives. -/
def State.releaseReads (s : State) (b : Nat) : State :=
  (s.gate.reads.filter fun r => r.buf = b).foldl State.answerResult s

/-! ### The end of an operation -/

/-- LATENCY in hub cycles. -/
def State.latencyOf (s : State) (from_ : Nat) : Nat := min (hubCycles (s.now - from_)) (2 ^ 32 - 1)

/-- The use counts that an operation holds (Table 4.4) end with it. -/
def State.dropOpHolds (s : State) (b : Nat) : State := s.dropHolds fun h => h.who == .op (bufLd b) b

/-- Is the operation on the same sequence as another (R173)? -/
def GateOp.onSeq (o : GateOp) (id : Nat) : Bool := o.cls == 0 && o.obj == id

/-- Buffers of an LD with an unfinished operation on a sequence, and the order of each. -/
def State.seqOps (s : State) (ld id : Nat) : List (Nat × Nat) :=
  (ldBufs ld).filterMap fun b =>
    match (s.slot b).op with
    | some o => if (s.slot b).state.busy ∧ o.onSeq id then some (b, o.order) else none
    | none => none

/-- The slot of an operation becomes READY or FAILED. -/
def State.settleSlot (s : State) (b : Nat) (st : SlotState) (code aux : Nat) (result : Bytes) (trunc : Bool) : State :=
  let x := s.slot b
  let t := s.timeOf (bufLd b)
  let acc := match x.op with | some o => o.accepted | none => s.now
  let s := s.setSlot b { x with
    state := st
    error := code
    aux := aux
    result := result
    bad := []
    rlines := (result.length + 63) / 64
    trunc := trunc
    latency := s.latencyOf acc
    time := t
    op := none }
  let s := if st = .ready then s else s.modGateLd (bufLd b) fun l => { l with failed := bump 32 l.failed 1 }
  ((((s.dropPieces fun p => p.buf == b).dropCkpts b).dropChecks b).dropOpHolds b).releaseReads b

/-! ### The start of an operation (R171 step 7, R173) -/

/-- The first input of an operation's piece, as a DPA (R155 rule 2). -/
def State.firstInput (s : State) (ld : Nat) (o : GateOp) (i : Nat) : Option (Nat × Nat) :=
  match o.cls with
  | 0 =>
    match s.seqOf ld o.obj with
    | some q => (s.attnOf q o.opcode o.params).bind fun a =>
        (s.recAt q a.layer (max a.lo (2048 * (a.lo / 2048 + i % a.chunks)))).map fun dpa => (ld, dpa)
    | none => none
  | 1 => (s.indexOf ld o.obj).map fun x => (ld, x.vbase + x.entry * x.vecBytes)
  | 2 => (s.indexOf ld o.obj).map fun x =>
      (ld, if leAt o.params 4 1 = 1 then leAt o.params 8 8 else x.vbase + leAt o.params (64 + x.vecBytes) 4 * x.vecBytes)
  | 3 => ((keyLists o.params).head?).map fun l => (ld, l.base)
  | _ => none

/-- The first input sack of a piece, with the extent that it was named in (R155). -/
def State.pieceInput (s : State) (ld : Nat) (o : GateOp) (i : Nat) : Option (Nat × Nat) :=
  match s.firstInput ld o i with
  | none => none
  | some (l, dpa) => (s.extAt l dpa).map fun e => (e.eid, s.sackOf e dpa)

/-- The sampled replay draw of R290 for a class, at dispatch. -/
def State.sampleOf (s : State) (cls : Nat) : Nat :=
  match cls with | 0 => s.result.sample0 | 1 => s.result.sample1 | 2 => s.result.sample2 | _ => 0

def State.drawn (s : State) (cls : Nat) : Bool :=
  let k := s.sampleOf cls
  k != 0 && Config.sampleDraw s.freeCtr % 2 ^ k == 0

/-- A first-run piece of an operation. -/
def State.newPiece (s : State) (b i : Nat) (o : GateOp) : Piece :=
  { buf := b, idx := i, ld := bufLd b, handle := o.handle, cls := o.cls, wclass := o.wclass, order := s.stone.nextOrder,
    input := s.pieceInput (bufLd b) o i, inG := s.inGuar (bufLd b) 3 o.wclass }

/-- Dispatch one piece. -/
def State.dispatch (s : State) (b : Nat) (o : GateOp) (i : Nat) : State :=
  let p := s.newPiece b i o
  let rec_ : PieceRec := { idx := i, sampled := s.drawn o.cls }
  let s := { s with freeCtr := s.freeCtr + 1, stone := { s.stone with nextOrder := s.stone.nextOrder + 1 } }
  (s.modOp b fun o => { o with pieces := o.pieces ++ [rec_] }).placePiece p

/-- Dispatch an operation's pieces. -/
def State.dispatchAll (s : State) (b : Nat) (o : GateOp) : State :=
  let n := s.pieceCount (bufLd b) o
  let s := (s.holdOp b o).modSlot b fun x => { x with pieces := n % 65536 }
  (List.range n).foldl (fun s i => s.dispatch b o i) s

/-! ### Records written through the encoders (R187, R190, R201) -/

/-- A sack that the hub is to write takes its frames on the die of R74: an unmapped one is allocated, a DEEP one asked for (R39, R87,
R185). -/
def State.hubSack (s : State) (ld : Nat) (e : Extent) (sack : Nat) (die : Option Nat) (cls : Nat) : State :=
  if s.entryAway sack ∨ s.entryBad sack then s
  else match (s.sack sack).mst with
    | .unmapped => s.allocate e sack die
    | .deep => (s.promote sack ld e die true cls).2
    | _ => s

/-- Write a whole block from the hub: its lines are writes like an LD's own, held where those would be (R24, R39, R88, R89), charged to
the gate region's class (R174). -/
def State.innerWrite (s : State) (ld : Nat) (e : Extent) (blk : Nat) (data : Bytes) (die : Option Nat) (cls : Nat) : State :=
  let sack := blk / 128
  let dpa := s.dpaOf e blk
  if (s.sack sack).mst ≠ .unmapped ∧ ¬ s.mayReach ld e (s.sack sack) then s.isolation ld dpa sack
  else (List.range 8).foldl (fun s l => s.writeLine ld (dpa + 64 * l) 0 e (lineBytes data l) (BitVec.allOnes 64) false true cls)
    (s.hubSack ld e sack die cls)

/-- Write whole blocks from a DPA (a multiple of 512). Answers the blocks written. -/
def State.innerBytes (s : State) (ld dpa : Nat) (die : Option Nat) (cls : Nat) : Nat → Bytes → List Nat × State
  | 0, _ => ([], s)
  | n + 1, bs =>
    match s.extAt ld dpa with
    | none => ([], s)
    | some e =>
      let blk := s.blkOf e dpa
      let s := s.innerWrite ld e blk (fit 512 bs) die cls
      let r := s.innerBytes ld (dpa + 512) die cls n (bs.drop 512)
      (blk :: r.1, r.2)

/-- Have all the writes of some blocks been done and left the merge buffer, durable where their extent is (R88, R201)? -/
def State.landed (s : State) (bs : List Nat) : Bool :=
  bs.all fun b => !(s.store.heldWrites.any fun w => w.blk == b) && !(s.store.merges.any fun m => m.blk == b)
    && (!(s.sack (b / 128)).durable || !(s.sack (b / 128)).dirty.getLsbD (b % 128) || s.store.mirrors.any fun m => m.blk == b)

/-! ### Acceptance (R170 to R172) -/

/-- How a write to line 0 of a position is taken. -/
inductive GoTaken where
  | dropped (s : State)
  | accepted (b : Nat) (s : State)

/-- Mem_Poison_Received is counted for every write that carries poison (R346). -/
def State.poisonSeen (s : State) (ld : Nat) (poison : Bool) : State := if poison then s.rasCor ld 5 [] else s

/-- Take a write to a go line: dropped as R33, R167, R170, R172 and R346 state, or accepted: the position is applied,
the previous results go, and the parameters are copied (R171 steps 1 to 3). DEDUCED, log entry 29. -/
def State.takeGo (s : State) (g : GoWrite) (opcode : Nat) : GoTaken :=
  let s := (s.poisonSeen g.ld g.poison).settleLeaving
  if ¬ s.up then .dropped s
  else match s.access g.ld g.dpa with
    | .nowhere => .dropped (s.drop g.ld g.dpa true true)
    | .leaving => .dropped (s.drop g.ld g.dpa true false)
    | .served e =>
      if ¬ Prof.gate e.profile then .dropped (s.writeLine g.ld g.dpa 0 e (goBytes opcode g.line) (BitVec.allOnes 64) g.poison)
      else match s.bufAt g.ld g.dpa with
        | none => .dropped (s.modGateLd g.ld fun l => { l with unarmed := bump 16 l.unarmed 1 })
        | some b =>
          if ¬ g.full ∨ g.poison then .dropped (s.modGateLd g.ld fun l => { l with badgo := bump 16 l.badgo 1 })
          else if (s.slot b).state.busy ∨ (s.slot b).state = .cancelled then
            .dropped (s.modGateLd g.ld fun l => { l with busygo := bump 16 l.busygo 1 })
          else
            let s := s.modGateLd g.ld fun l => { l with accepted := bump 32 l.accepted 1 }
            let w := 16 * g.ld + g.line.wheel
            let turn := goTurn (s.wheel w).turn g.line.turnlo
            let r := if g.line.nowheel then (false, s) else s.goPosition w g.line.turnlo g.line.layer
            let s := r.2
            let x := s.slot b
            let turn' := if g.line.nowheel then 0 else if r.1 then (s.wheel w).turn else turn.toNat % 2 ^ 48
            let layer' := if g.line.nowheel then 0 else g.line.layer
            let wheel' := if g.line.nowheel then 0 else g.line.wheel
            let x' : Slot := { state := .queued, eid := x.eid, dpa := x.dpa, hold := x.hold }
            .accepted b (s.setSlot b { x' with
              go := goBytes opcode g.line
              seq := g.line.seq
              opcode := opcode
              layer := layer'
              turn := turn'
              wheel := wheel'
              posok := r.1 })

/-- A copy of parameter lines 8 to 7 + PLINES; none where one of them is poisoned. -/
def State.copyParams (s : State) (b n : Nat) : Option Bytes :=
  (List.range n).foldl (fun a i => match a, s.param b (8 + i) with | some x, some y => some (x ++ y) | _, _ => none) (some [])

/-- A failed check at acceptance: FAILED with its code (R171 step 4). -/
def State.failGo (s : State) (b code aux : Nat) : State := s.settleSlot b .failed code aux [] false

/-- Is the slot bound for forwarding, so that EARLY is honoured (R291)? -/
def State.earlyOk (s : State) (b : Nat) : Bool := s.result.earlyEn && s.port.binds.any fun x => x.buf == b

/-- Have all four checkers failed (R300)? -/
def State.noChecker (s : State) : Bool := (List.range 4).all fun d => (s.result.units.get (2 * 256 + d)).state == .failed

/-- What an operation's own check answers: an error code with AUX, or the new LEN or other AUX to report. -/
abbrev GoCheck := State → Bytes → Except (Nat × Nat) Nat

/-- Checks of the go line that every opcode shares: reserved fields, PLINES, EARLY, HANDLE, OBJ. DEDUCED, log entry 26. -/
def State.goShape (s : State) (b : Nat) (g : GoWrite) (objFree tenant : Bool) : Bool :=
  g.line.resv == 0 && g.line.plines ≤ 504 && (!g.line.early || s.earlyOk b) && (tenant || g.line.handle == 0)
    && (objFree || g.line.obj == 0)

/-- Accept an operation of classes 0 to 4: the checks of R171 step 4, then `begin_` with the operation QUEUED. -/
def State.runGo (s : State) (g : GoWrite) (opcode cls handle : Nat) (hasObj : Bool) (check : GoCheck)
    (begin_ : State → Nat → GateOp → State) : State :=
  match s.takeGo g opcode with
  | .dropped s => s
  | .accepted b s =>
    if ¬ s.goShape b g hasObj (cls == 4) then s.failGo b 2 0
    else if s.noChecker then s.failGo b 10 0
    else match s.copyParams b g.line.plines with
      | none => s.failGo b 6 0
      | some p =>
        match check s p with
        | .error (code, aux) => s.failGo b code aux
        | .ok aux =>
          if s.disabled handle then s.failGo b 5 0
          else
          let e := s.extById (s.slot b).eid
          let wc := match e with | some e => Prof.wclass e.profile | none => 0
          let wh := if g.line.nowheel then none else some (16 * g.ld + g.line.wheel)
          let o : GateOp := {
            opcode := opcode
            cls := cls
            handle := handle
            obj := g.line.obj
            wclass := wc
            params := p
            accepted := s.now
            order := s.gate.nextOp
            wheel := wh
            early := g.line.early
            aux := aux }
          let s := s.modGate fun gt => { gt with nextOp := gt.nextOp + 1 }
          begin_ (s.modSlot b fun x => { x with op := some o }) b o

/-- The handle of an operation that runs no dressing. -/
def noHandle : Nat := 65536

/-- Is an extent of an LD at a DPA range ACTIVE? Answers the code of Table 7.5 where it is not. -/
def State.rangeCode (s : State) (ld dpa n : Nat) : Nat :=
  match s.extAt ld dpa with
  | none => 2
  | some e =>
    if e.base + e.len < dpa + n ∨ Prof.gate e.profile then 2
    else match e.state with
      | .active => 0
      | .pending => 2
      | _ => 8

/-- The same for a range that may lie over several extents, one after the other. -/
def State.rangesCode (s : State) (ld dpa n : Nat) : Nat → Nat
  | 0 => 2
  | fuel + 1 =>
    match s.extAt ld dpa with
    | none => 2
    | some e =>
      if Prof.gate e.profile then 2
      else match e.state with
        | .active => if dpa + n ≤ e.base + e.len then 0 else s.rangesCode ld (e.base + e.len) (dpa + n - (e.base + e.len)) fuel
        | .pending => 2
        | _ => 8

/-! ### Cancellation (R180) -/

/-- Stop an operation's pieces: queued ones are removed, running ones stopped and their stones cleared. -/
def State.stopPieces (s : State) (b : Nat) : State :=
  let s := ((s.dropPieces fun p => p.buf == b).dropCkpts b).dropChecks b
  allStones.foldl (fun s k =>
    match (s.stoneAt k).running with
    | some p => if p.buf = b then (s.modStone k fun st => { st with running := none, preempt := false, taking := none }).beginClear k else s
    | none => s) s

/-- Cancel a slot: code 9, its held reads answered with poison. -/
def State.cancelSlot (s : State) (b : Nat) : State :=
  let x := s.slot b
  if x.state = .unarmed ∨ x.state = .cancelled then s
  else
    let s := if x.state.busy then (s.stopPieces b).modGateLd (bufLd b) fun l => { l with failed := bump 32 l.failed 1 } else s
    let s := s.modSlot b fun x => { x with state := .cancelled, error := 9, result := [], rlines := 0, op := none }
    (s.dropOpHolds b).releaseReads b

end Sys2Proof.Machine
end

