-- ==== Sys2Proof/Machine/Bins.lean ====
section
/-! DEFINITION. Discarding sacks (R46), the granary's bins (R199 to R205) and the stream table (R207 to R212), as
shared operations. -/
namespace Sys2Proof.Machine

/-! ### Discarding sacks (R46) -/

/-- Discard sacks: every entry to TIER none, images, merge-buffer and mirror entries dropped, frames and slots back in
their pools; held writes end and each entry change is journalled. -/
def State.discardSacks (s : State) (first count : Nat) : State :=
  let inR := fun k => first ≤ k && k < first + count
  let inB := fun b => inR (b / 128)
  let gone := s.store.sacks.keys.filter inR
  let runs := gone.map fun k => ((s.sack k).slot, (s.sack k).size + 1)
  let freed := fun x => runs.any fun r => r.1 ≤ x && x < r.1 + r.2
  let s := s.modStore fun st => { st with
    sacks := { st.sacks with cells := st.sacks.cells.filter fun c => !inR c.1 }
    t1 := { st.t1 with cells := st.t1.cells.filter fun c => !inB c.1 }
    t2 := { st.t2 with cells := st.t2.cells.filter fun c => !inB c.1 }
    merges := st.merges.filter fun m => !inB m.blk
    mirrors := st.mirrors.filter fun m => !inB m.blk
    dirtySince := { st.dirtySince with cells := st.dirtySince.cells.filter fun c => !inB c.1 }
    holds := st.holds.filter fun h => !inR h.sack
    t0 := st.t0.filter fun c => !inR c.sack
    errs := st.errs.filter fun p => !inB p.blk
    cacheMissing := st.cacheMissing.filter fun u => !inR (u / 130)
    cacheUsed_ := st.cacheUsed_.filter fun u => !inR (u / 130)
    corrupt := st.corrupt.filter fun k => !inR k
    xfers := st.xfers.filter fun x => !inR x.sack }
  let s := { s with deep := { s.deep with
    slots := { s.deep.slots with cells := s.deep.slots.cells.filter fun c => !freed c.1 }
    programming := s.deep.programming.filter fun x => !freed x } }
  let s := { s with mbox := { s.mbox with injected := s.mbox.injected.filter fun b => !inB b,
                                          external := s.mbox.external.filter fun b => !inB b,
                                          retracted := s.mbox.retracted.filter fun b => !inB b } }
  (s.journal gone.length).pumpXfers.framesFreed

/-! ### The stream table (R207 to R210) -/

/-- Entry numbers, by the fixed parts of Table 8.3: KV from 0 (16,384 for each LD), PREFETCH from 262,144, WALK from
524,288 (64 for each gate buffer), MIGRATION from 655,360. DEDUCED, log entry 30. -/
def kvStream (ld seq : Nat) : Nat := 16384 * ld + seq
/-- DEDUCED, log entry 30. -/
def walkStream (buf query : Nat) : Nat := 524288 + 64 * buf + query
/-- DEDUCED, log entry 30. -/
def fetchStream (i : Nat) : Nat := 262144 + i
/-- DEDUCED, log entry 30. -/
def migrStream (i : Nat) : Nat := 655360 + i

def State.modStream (s : State) (k : Nat) (f : StreamMeta → StreamMeta) : State :=
  { s with weir := { s.weir with streams := s.weir.streams.upd k f } }

def State.openStream (s : State) (ld k cls : Nat) : State := s.modStream k fun _ => s.newStream ld cls

def State.freeStream (s : State) (k : Nat) : State := s.modStream k fun _ => {}

/-- Charge a request to a stream. DEDUCED, log entry 30. -/
def State.useStream (s : State) (ld k cls n : Nat) : State := s.modStream k fun m => m.use cls n (s.timeOf ld)

/-! ### Bins -/

/-- Bytes of a bin: LAYERS × MAXPOS′ × PSZ (R199). -/
def binBytes (layers plen psz : Nat) : Nat := layers * chunkUp plen * psz

/-- GEOM of Table 7.10. -/
def State.geomOf (s : State) (q : KvSeq) : Nat :=
  let dcode := if q.d = 64 then 0 else if q.d = 128 then 1 else 2
  let p := match s.extById q.eid with | some e => e.profile | none => 0
  (q.layers - 1) + (q.hkv - 1) * 2 ^ 10 + (q.g - 1) * 2 ^ 16 + dcode * 2 ^ 20 + Prof.src p * 2 ^ 22 + Prof.rate p * 2 ^ 26
    + Prof.tset p * 2 ^ 28

/-- Does an LD see a bin (R204): its extent is the LD's own, or the LD holds an ACTIVE alias of it in its share group. -/
def State.sees (s : State) (ld : Nat) (b : Bin) : Bool :=
  !b.hidden && b.committed && (b.owner == ld && (s.extById b.eid).isSome
    || s.ext.exts.any fun e => e.ld == ld && e.isAlias && e.state == .active && e.owner == b.owner
        && (match s.extById b.eid with | some o => e.ownerBase ≤ b.base && b.base + b.bytes ≤ e.ownerBase + e.len && o.ld == b.owner | none => false)
        && s.party ld == s.party b.owner && 16 ≤ s.party ld)

def State.visibleBins (s : State) (ld : Nat) : List Bin := s.gate.bins.filter (s.sees ld)

def State.lookup (s : State) (ld : Nat) (key : Bytes) (sig : Nat) : Option Bin :=
  (s.visibleBins ld).find? fun b => b.key = key ∧ b.sig = sig

/-- The sacks of a bin's storage. -/
def State.binSacks (s : State) (b : Bin) : Nat × Nat :=
  match s.extById b.eid with
  | some e => (s.sackOf e b.base, b.bytes / 65536)
  | none => (0, 0)

/-- The number by which the transfers that a bin waits for name it, beside the wheels' (R205). -/
def binWant (id : Nat) : Nat := 256 + id

/-- A bin's holds end, and the promotions that wait for it alone. -/
def State.dropBinHolds (s : State) (id : Nat) : State :=
  (s.dropHolds fun h => h.who == .bin id).cancelWants fun _ w => w.1 == binWant id

/-- One sack of a bin that has to be near: its hold under OWNERLD, and its promotion at the granary extent's WCLASS (R205). -/
def State.keepNear (s : State) (b : Bin) (e : Extent) (k : Nat) : State :=
  if (s.sack k).mst = .unmapped then s
  else
    let s := s.addHold k b.pub (.bin b.id)
    if (s.sack k).mst = .deep then
      (s.promoteFor k b.pub e none false none (Prof.wclass e.profile) [(binWant b.id, none)]).2
    else s

/-- Take or drop a bin's holds as NEAR and ATTACH say (R205); taking them promotes its sacks. -/
def State.fixNear (s : State) (id : Nat) : State :=
  match s.binOf id with
  | none => s.dropBinHolds id
  | some b =>
    let want := b.committed && (b.near == 2 || (b.near == 1 && 0 < b.attach))
    let has := s.store.holds.any fun h => h.who == .bin id
    if want = has then s
    else if ¬ want then s.dropBinHolds id
    else match s.extById b.eid with
      | none => s
      | some e =>
        let (first, n) := s.binSacks b
        ((List.range n).map (· + first)).foldl (fun s k => s.keepNear b e k) s

/-- A sequence whose bin, if it is the one named, has ended. -/
def KvSeq.unbin (q : KvSeq) (id : Nat) : KvSeq := if q.bin == some id then { q with bin := none, binGone := q.plen != 0 } else q

/-- The sequences attached to a bin that ends read their prefix as poison (R202). -/
def State.loseBin (s : State) (id : Nat) : State := s.modGate fun g => { g with seqs := g.seqs.map fun q => q.unbin id }

/-- A bin ends: its storage is discarded, its directory entry goes, and the change is journalled. -/
def State.freeBin (s : State) (id : Nat) : State :=
  match s.binOf id with
  | none => s
  | some b =>
    let (first, n) := s.binSacks b
    let s := s.modGate fun g => { g with bins := g.bins.filter fun x => x.id ≠ id }
    let s := (s.dropBinHolds id).loseBin id
    ((if n = 0 then s else s.discardSacks first n).journal 1)

/-- One attachment to a bin begins: ATTACH and LAST, a directory change (R202). -/
def State.attachBin (s : State) (ld id : Nat) : State :=
  ((s.modBin id fun b => { b with attach := b.attach + 1, last := s.timeOf ld }).fixNear id).journal 1

/-- One attachment ends: a deleted bin is freed when its last one has. -/
def State.releaseBin (s : State) (id : Nat) : State :=
  let s := ((s.modBin id fun b => { b with attach := b.attach - 1 }).fixNear id).journal 1
  match s.binOf id with
  | some b => if b.hidden ∧ b.attach = 0 then s.freeBin id else s
  | none => s

/-- Cut a sequence's prefix to `n` positions: it detaches from its bin at zero (R191). -/
def State.cutPrefix (s : State) (ld id n : Nat) : State :=
  match s.seqOf ld id with
  | none => s
  | some q =>
    let p := min q.plen n
    let s := s.modSeq ld id fun q => { q with plen := p, bin := if p = 0 then none else q.bin, binGone := q.binGone && p != 0 }
    match q.bin with
    | some b => if p = 0 then s.releaseBin b else s
    | none => s

/-- Runs of 8 MiB granules that bins use in a granary extent, rising: first granule and count. -/
def State.binRuns (s : State) (e : Extent) : List (Nat × Nat) :=
  (((s.gate.bins.filter fun b => b.eid = e.eid).map fun b =>
    (b.id, (b.base - e.base) / (8 * MiB), (b.bytes + 8 * MiB - 1) / (8 * MiB))).foldr insertRun []).map fun r => r.2

/-- First fit of `n` bytes in a granary extent (R199): the DPA of the run. -/
def State.binFit (s : State) (e : Extent) (n : Nat) : Option Nat :=
  (firstGap ((n + 8 * MiB - 1) / (8 * MiB)) (e.len / (8 * MiB)) 0 (s.binRuns e)).map fun g => e.base + g * 8 * MiB

/-- Granary extents of a party (R199), ACTIVE ones. -/
def State.granaryExts (s : State) (party : Nat) : List Extent :=
  s.gate.granary.filterMap fun id =>
    match s.extById id with
    | some e => if s.party e.ld = party ∧ e.state = .active then some e else none
    | none => none

def State.partyBins (s : State) (party : Nat) : List Bin := s.gate.bins.filter fun b => s.party b.owner == party

def insertLast (b : Bin) : List Bin → List Bin
  | [] => [b]
  | c :: cs => if b.last ≤ c.last then b :: c :: cs else c :: insertLast b cs

/-- Bins of a party that may be evicted, oldest LAST first (R203). DEDUCED, log entry 28. -/
def State.evictable (s : State) (party : Nat) : List Nat :=
  (((s.partyBins party).filter fun b => b.attach == 0 && !b.pin && b.committed).foldr insertLast []).map Bin.id

/-- Is there room for a bin: a directory entry of the party's allotment, and a run? -/
def State.binRoom (s : State) (party : Nat) (exts : List Extent) (n : Nat) : Option (Extent × Nat) :=
  if 16384 * (s.partyLds party).length ≤ (s.partyBins party).length then none
  else exts.findSome? fun e => (s.binFit e n).map fun b => (e, b)

/-- Find room for a bin, evicting bins until a run fits; none, with nothing evicted, where no eviction makes room. -/
def State.makeRoom (s : State) (party : Nat) (exts : List Extent) (n : Nat) : List Nat → Option (Extent × Nat × State)
  | [] => (s.binRoom party exts n).map fun r => (r.1, r.2, s)
  | v :: vs =>
    match s.binRoom party exts n with
    | some r => some (r.1, r.2, s)
    | none =>
      let s := s.freeBin v
      let s := s.modGate fun g => { g with evicted := bump 32 g.evicted 1 }
      let s := (s.partyLds party).foldl (fun s ld => s.modGateLd ld fun l => { l with evicted := bump 32 l.evicted 1 }) s
      s.makeRoom party exts n vs

/-- A publish that ends without its commit leaves no bin. -/
def State.dropPublish (s : State) (o : GateOp) : State :=
  match o.bin with
  | some id =>
    match s.binOf id with
    | some b => if b.committed then s else s.freeBin id
    | none => s
  | none => s

end Sys2Proof.Machine
end

