-- ==== Sys2Proof/Machine/Forward.lean ====
section
/-! DEFINITION. Forwarding of results on peer ports (R291 to R293, R321, R323, R326 to R328) and gate ledger records, as
shared operations. -/
namespace Sys2Proof.Machine

def State.modPorts (s : State) (f : PortSt → PortSt) : State := { s with port := f s.port }

def State.portAt (s : State) (p : Nat) : Port := s.port.ports.get p
def State.modPort (s : State) (p : Nat) (f : Port → Port) : State := s.modPorts fun q => { q with ports := q.ports.upd p f }
def State.window (s : State) (port w : Nat) : Window := s.port.windows.get (64 * port + w)
def State.setWindow (s : State) (port w : Nat) (v : Window) : State :=
  s.modPorts fun q => { q with windows := q.windows.set (64 * port + w) v }
def State.modFwdLd (s : State) (ld : Nat) (f : FwdLd → FwdLd) : State :=
  s.modPorts fun q => { q with lds := q.lds.upd ld f }
def State.modRiLd (s : State) (ld : Nat) (f : RiLd → RiLd) : State :=
  { s with result := { s.result with lds := s.result.lds.upd ld f } }

/-- A ledger record that carries the opcode and position of a slot's operation (Table 12.6). -/
def State.slotRecord (s : State) (b kind utype unit detail : Nat) (outs : List Out := []) : State :=
  let x := s.slot b
  s.ledger { LedgerRec.of kind utype unit (bufLd b) detail with
    op := x.opcode, wheel := x.wheel, nopos := !x.posok, turn := x.turn, layer := x.layer } [] outs

/-- Does a peer port carry traffic? -/
def State.carries (s : State) (p : Nat) : Bool := (s.portAt p).state == .active && (s.portAt p).power != .dark

/-- The peer packet header (Table 13.5). -/
def peerHdr (ptype : Nat) (early last : Bool) (window gen lines node ld status tag fwdid dest : Nat) : List Fld :=
  [⟨0, 1, ptype + 16 * b2n early + 32 * b2n last⟩, ⟨1, 1, window⟩, ⟨2, 1, gen⟩, ⟨3, 1, lines⟩, ⟨4, 2, node⟩, ⟨6, 1, ld⟩,
   ⟨7, 1, status⟩, ⟨8, 4, tag⟩, ⟨12, 4, fwdid⟩, ⟨16, 8, dest⟩]

/-- Queued traffic brings a peer port out of STANDBY (R318). -/
def State.usePeer (s : State) (port : Nat) : State :=
  s.modPort port fun p => { p with power := if p.power = .standby then .active else p.power, lastUse := s.now }

/-- Send on a peer port. -/
def State.sendPeer (s : State) (port ptype : Nat) (flds : List Fld) (data : Bytes) : State :=
  (s.usePeer port).send (.peer port ptype flds data)

/-! ### Packets -/

/-- Transmit a packet through its window's current descriptor. DESIGN CHOICE, log entry 34. -/
def State.transmit (s : State) (k : Packet) : State :=
  let w := s.window k.port k.window
  s.sendPeer k.port (if k.digest then 4 else 1)
    (peerHdr (if k.digest then 4 else 1) k.early k.last k.window k.gen (k.data.length / 64) (s.portAt k.port).ownNode w.act.ld 0 k.tag k.fwdid k.dest)
    k.data

def State.modPacket (s : State) (port tag : Nat) (f : Packet → Packet) : State :=
  s.modPorts fun q => { q with packets := q.packets.map fun k => if k.port = port ∧ k.tag = tag then f k else k }

/-- Packets of a port that await a PACK. -/
def State.awaiting (s : State) (port : Nat) : Nat := (s.port.packets.filter fun k => k.port == port && k.out && !k.ok).length

/-- Transmit the packets of a port that have not been sent, in order, while fewer than 256 await a PACK (R323). -/
def State.pumpPackets (s : State) (port : Nat) : State :=
  (s.port.packets.filter fun k => k.port == port && !k.out).foldl (fun s k =>
    if s.carries port ∧ (s.window port k.window).act.enable = true ∧ s.awaiting port < 256 then
      let w := s.window port k.window
      let k' : Packet := { k with gen := w.gen, out := true, first := s.now, sentAt := s.now, dest := w.act.base + k.off }
      (s.modPacket port k.tag fun _ => k').transmit k'
    else s) s

/-! ### Settling messages (Table 12.3) -/

/-- The message of a forward. -/
def Fwd.message (f : Fwd) (node kind cause : Nat) : Bytes :=
  layout 64 [⟨0, 1, kind⟩, ⟨1, 1, cause⟩, ⟨2, 2, node⟩, ⟨4, 1, f.ld + 16 * f.wheel⟩, ⟨5, 1, b2n f.nowheel⟩, ⟨6, 2, f.layer⟩,
    ⟨8, 6, f.turn⟩, ⟨14, 2, f.seq⟩, ⟨16, 2, f.buf⟩, ⟨18, 2, f.opcode⟩, ⟨20, 4, f.fwdid⟩, ⟨24, 8, f.dest⟩,
    ⟨32, 2, (f.data.length + 63) / 64⟩]

def State.fwd (s : State) (id : Nat) : Option Fwd := s.port.fwds.find? fun f => f.fwdid = id

def State.modFwd (s : State) (id : Nat) (f : Fwd → Fwd) : State :=
  s.modPorts fun q => { q with fwds := q.fwds.map fun x => if x.fwdid = id then f x else x }

/-- DETAIL of a retraction record: NODE, FWDID, CAUSE. -/
def retractDetail (node fwdid cause : Nat) : Nat := node + fwdid * 2 ^ 16 + cause * 2 ^ 48

/-- Put a settling message on its port, or record that it could not be sent (R292). KIND 1 CONFIRM, 2 RETRACT,
3 EXTEND. A RETRACT leaves with the commit of its RETRACT_SENT record (R301). -/
def State.putSettle (s : State) (f : Fwd) (kind cause : Nat) : State :=
  let node := (s.window f.port f.window).act.node
  if s.carries f.port then
    let own := (s.portAt f.port).ownNode
    let flds := peerHdr 3 false false f.window 0 1 own f.ld 0 0 f.fwdid 0
    let msg := f.message own kind cause
    if kind = 2 then
      ((s.usePeer f.port).modRiLd f.ld fun r => { r with retracted := bump 16 r.retracted 1 }).slotRecord f.buf 5 0 0
        (retractDetail node f.fwdid cause) [.peer f.port 3 flds msg]
    else s.sendPeer f.port 3 flds msg
  else if kind = 3 then s
  else s.slotRecord f.buf 7 0 0 (node + f.fwdid * 2 ^ 16 + (if kind = 1 then 2 ^ 127 else 0))

/-- A forward that is settled and whose packets have all ended is forgotten. -/
def State.sweepFwds (s : State) : State :=
  s.modPorts fun q => { q with fwds := q.fwds.filter fun f =>
    !(f.settled && f.unsent.isNone && (f.failed || !(q.packets.any fun k => k.fwdid == f.fwdid && !k.digest)) && !f.resend) }

/-- Settle a forward once: at once, or when its last packet has been sent (R323). -/
def State.settleFwd (s : State) (id kind cause : Nat) : State :=
  match s.fwd id with
  | none => s
  | some f =>
    if f.settled then s
    else if s.port.packets.any fun k => k.fwdid == id && !k.digest && !k.out then
      s.modFwd id fun f => { f with settled := true, unsent := some (kind, cause) }
    else ((s.modFwd id fun f => { f with settled := true }).putSettle f kind cause).sweepFwds

/-- Send the settling messages whose packets have all gone out. -/
def State.flushSettles (s : State) : State :=
  (s.port.fwds.foldl (fun s f =>
    match f.unsent with
    | some (k, c) =>
      if s.port.packets.any fun p => p.fwdid == f.fwdid && !p.digest && !p.out then s
      else (s.modFwd f.fwdid fun x => { x with unsent := none }).putSettle f k c
    | none => s) s).sweepFwds

/-- DESIGN CHOICE, log entry 34. -/
def State.pump (s : State) (port : Nat) : State := (s.pumpPackets port).flushSettles

/-! ### Forwards (R291, R328) -/

/-- The packets of a forward: 16 lines each, the last marked (R323). -/
def State.addPackets (s : State) (f : Fwd) : Nat → Nat → Bytes → State
  | 0, _, _ => s
  | n + 1, i, bs =>
    let k : Packet := {
      port := f.port
      tag := s.port.nextTag
      window := f.window
      gen := (s.window f.port f.window).gen
      off := f.offset + 1024 * i
      data := bs.take 1024
      fwdid := f.fwdid
      last := decide (bs.length ≤ 1024)
      early := f.early
      first := s.now
      out := false }
    let s := s.modPorts fun q => { q with packets := q.packets ++ [k], nextTag := (q.nextTag + 1) % 2 ^ 32 }
    if bs.length ≤ 1024 then s else s.addPackets f n (i + 1) (bs.drop 1024)

/-- Start a forward of a slot's result lines through its binding. Answers the FWDID taken, if there is a binding and a
line to send. -/
def State.startForward (s : State) (b : Nat) (early : Bool) (result : Bytes) : Option Nat × State :=
  match s.port.binds.find? fun x => x.buf = b with
  | none => (none, s)
  | some x =>
    if result = [] then (none, s)
    else
      let sl := s.slot b
      let id := s.port.nextFwd
      let n := (result.length + 63) / 64
      let f : Fwd := {
        fwdid := id
        ld := bufLd b
        buf := b
        port := x.port
        window := x.window
        offset := x.offset
        early := early
        data := fit (64 * n) result
        wheel := sl.wheel
        nowheel := bitOf (leAt sl.go 2 1) 0
        layer := sl.layer
        turn := sl.turn
        seq := sl.seq
        opcode := sl.opcode
        dest := (s.window x.port x.window).act.base + x.offset
        started := s.now
        extended := s.now
        left := n }
      let s := s.modPorts fun q => { q with fwds := q.fwds ++ [f], nextFwd := (q.nextFwd + 1) % 2 ^ 32 }
      let s := s.addPackets f 32 0 f.data
      let s := if early then s.modRiLd (bufLd b) fun r => { r with sent := bump 32 r.sent 1 } else s
      let s := s.pump x.port
      (some id, if early then s else s.settleFwd id 1 0)

/-- A forward fails (R326): counted, its event posted, its packets withdrawn. DESIGN CHOICE, log entry 34. -/
def State.failForward (s : State) (id status : Nat) : State :=
  match s.fwd id with
  | none => s
  | some f =>
    if f.failed then s
    else
      let s := s.modPorts fun q => { q with packets := q.packets.filter fun k => k.digest || k.fwdid != id }
      let s := s.modFwd id fun x => { x with failed := true }
      let s := s.modFwdLd f.ld fun l => { l with failed := bump 16 l.failed 1 }
      let s := s.post f.ld 1 (Event.of 13 f.ld 1 [⟨64, 8, (s.slot f.buf).dpa⟩, ⟨72, 1, f.port⟩, ⟨73, 1, f.window⟩, ⟨74, 1, status⟩])
      s.flushSettles

/-- Bindings of a slot end (R328). -/
def State.unbind (s : State) (p : Bind → Bool) : State :=
  s.modPorts fun q => { q with binds := q.binds.filter fun x => !p x }

/-! ### The end of an operation -/

/-- What the end of a slot's operation does to its forward: an unsettled early forward is confirmed or retracted; a
result released without one is sent checked (R291, R292). -/
def State.forwardEnd (s : State) (b : Nat) (o : GateOp) (st : SlotState) (code : Nat) (result : Bytes) : State :=
  match o.fwdid with
  | some id =>
    if st = .ready then
      match s.fwd id with
      | some f =>
        if f.resend then
          let s := s.modFwd id fun f => { f with resend := false }
          let s := s.modRiLd (bufLd b) fun r => { r with fallback := bump 16 r.fallback 1 }
          ((s.settleFwd id 1 0).startForward b false result).2
        else s.settleFwd id 1 0
      | none => s
    else s.settleFwd id 2 (match code with | 11 => 2 | 9 => 3 | _ => 1)
  | none => if st = .ready then (s.startForward b false result).2 else s

/-- End an operation in READY or FAILED, its forward settled, its walks' streams freed. -/
def State.finish0 (s : State) (b : Nat) (st : SlotState) (code aux : Nat) (result : Bytes) (trunc : Bool) : State :=
  match (s.slot b).op with
  | none => s.settleSlot b st code aux result trunc
  | some o =>
    let s := if st = .ready then s else s.dropPublish o
    let s := if o.cls = 1 then (List.range 64).foldl (fun s q => s.freeStream (walkStream b q)) s else s
    let s := s.settleSlot b st code aux result trunc
    s.forwardEnd b o st code result

end Sys2Proof.Machine
end

