-- ==== Sys2Proof/Machine/Prefix.lean ====
section
/-! DEFINITION. Operations on sequences (R183 to R191, R201): appends and attention, prefixes, chunk prefills, publishes
and truncation; their order on one sequence (R173); and the gate operations without an object. -/
namespace Sys2Proof.Machine

/-! ### The turn of an operation (R173) -/

/-- One copy of a record by the hub: where it is read, by which LD, or no place where it reads as poison; where it is written, by which
LD; the die of R185; and its bytes. -/
structure HubCopy where
  ld : Nat
  src : Option Nat
  wld : Nat
  dst : Nat
  die : Option Nat
  n : Nat
  deriving DecidableEq, Repr

/-- One copy through the read path and the encoders, charged to the gate region's class: the blocks written and what the reads met.
DEDUCED, log entry 27. -/
def State.copyOne (s : State) (c : HubCopy) (cls : Nat) : List Nat × Met × State :=
  match c.src with
  | none => ([], { poison := true }, s)
  | some src =>
    let (d, m, s) := s.hubBlks c.ld src cls c.die (c.n / 512)
    let w := s.innerBytes c.wld c.dst c.die cls (c.n / 512) d
    (w.1, m, w.2)

/-- A list of copies, one after the other. DEDUCED, log entry 27. -/
def State.copyAll (s : State) (cls : Nat) : List HubCopy → List Nat × Met × State
  | [] => ([], {}, s)
  | c :: rest =>
    let (bs, m, s) := s.copyOne c cls
    let (bs', m', s) := s.copyAll cls rest
    (bs ++ bs', m.join m', s)

/-- The hub work of a chunk prefill: COUNT source records into the sequence (R190). DEDUCED, log entry 27. -/
def State.prefillCopies (s : State) (q : KvSeq) (p : Bytes) : List HubCopy :=
  (List.range (cpCount p)).map fun i =>
    let pos := apPos p + i
    { ld := q.ld, src := some (cpSrc p + i * s.psz q), wld := q.ld, dst := q.sbase + (apLayer p * q.maxpos + pos) * s.psz q,
      die := some (seqDie (pos / 2048) q.id), n := s.psz q }

/-- The hub work of a publish: positions 0 to PLEN − 1 of every layer into the bin (R201). DEDUCED, log entry 27. -/
def State.publishCopies (s : State) (q : KvSeq) (b : Bin) : List HubCopy :=
  (List.range q.layers).flatMap fun l => (List.range b.plen).map fun pos =>
    { ld := q.ld, src := s.recAt q l pos, wld := b.owner, dst := b.base + (l * chunkUp b.plen + pos) * s.psz q, die := none, n := s.psz q }

/-- The code of what reads met: 7 before 6 (R179). DEDUCED, log entry 27. -/
def Met.code (m : Met) : Nat := if m.iso then 7 else if m.poison then 6 else 0

/-- Have all the provisional entries that an operation read been confirmed (R294)? -/
def State.inputsOk (s : State) (o : GateOp) : Bool :=
  o.inputs.all fun i => !(s.result.provs.any fun p => p.node == i.1 && p.fwdid == i.2)

/-- Hub work begins: the slot is RUNNING until its writes have landed. -/
def hubWork (b : Nat) (r : List Nat × Met × State) : State :=
  let s := r.2.2
  if r.2.1.code ≠ 0 then s.finish0 b .failed r.2.1.code 0 [] false
  else
    let s := s.modSlot b fun x => { x with state := .running, prec := x.prec || r.2.1.prec }
    s.modOp b fun o => { o with hub := r.1, inputs := o.inputs ++ r.2.1.prov.filter fun x => !o.inputs.contains x }

/-- Start an operation's pieces; one without pieces has ended. -/
def State.startPieces (s : State) (b : Nat) (o : GateOp) : State :=
  if s.pieceCount (bufLd b) o = 0 then
    let r := s.assemble (bufLd b) o []
    s.finish0 b .ready 0 r.2.1 r.1 r.2.2
  else s.dispatchAll b o

/-- A hit of PREFIX_ATTACH: the bin becomes the prefix (R189). DEDUCED, log entries 20, 28. -/
def State.attachOp (s : State) (b : Nat) (q : KvSeq) (n : Bin) : State :=
  if n.geom ≠ s.geomOf q then s.finish0 b .failed 2 8 [] false
  else if q.maxpos < n.plen then s.finish0 b .failed 12 0 [] false
  else if (s.binView q.ld n).any fun e => e.state == .active then
    ((s.attachBin q.ld n.id).modSeq q.ld q.id fun q =>
      { q with len := n.plen, plen := n.plen, bin := if n.plen = 0 then none else some n.id, binGone := false }).finish0 b .ready 0 n.plen [] false
  else s.finish0 b .failed 8 0 [] false

/-- PREFIX_ATTACH at its turn: the lookup, counted as a hit or a miss (R189). DEDUCED, log entries 20, 28. -/
def State.attachTurn (s : State) (b : Nat) (o : GateOp) (q : KvSeq) : State :=
  if q.len ≠ 0 then s.finish0 b .failed 2 8 [] false
  else match s.lookup q.ld (o.params.take 32) (leAt o.params 32 8) with
    | none =>
      ((s.modGateLd q.ld fun l => { l with misses := bump 32 l.misses 1 }).modSlot b fun x => { x with miss := true }).finish0 b .ready 0 0 [] false
    | some n => (s.modGateLd q.ld fun l => { l with hits := bump 32 l.hits 1 }).attachOp b q n

/-- The granary extents of a party that take a sequence's records: those of its SRC, RATE and table set (R201). -/
def State.publishExts (s : State) (q : KvSeq) : List Extent :=
  (s.granaryExts (s.party q.ld)).filter fun e =>
    bitsOf (s.geomOf q) 39 22 = Prof.src e.profile + Prof.rate e.profile * 16 + Prof.tset e.profile * 64

/-- The lowest free bin identifier. -/
def State.freshBin (s : State) : Nat := (lowestFree (s.gate.bins.map Bin.id) 262144).getD 262144

/-- PREFIX_PUBLISH at its turn: the key present already, or a bin made and its records copied (R201, R203). DEDUCED, log entries 20, 28. -/
def State.publishTurn (s : State) (b : Nat) (o : GateOp) (q : KvSeq) : State :=
  let n := leAt o.params 40 4
  let key := o.params.take 32
  let sig := leAt o.params 32 8
  if q.len < n then s.finish0 b .failed 2 8 [] false
  else match s.lookup q.ld key sig with
    | some x => (s.modSlot b fun x => { x with exists_ := true }).finish0 b .ready 0 x.id [] false
    | none =>
      let party := s.party q.ld
      let exts := s.publishExts q
      if exts.isEmpty then s.finish0 b .failed 2 8 [] false
      else
        let bytes := binBytes q.layers n (s.psz q)
        match s.makeRoom party exts bytes (s.evictable party) with
        | none => (s.modGateLd q.ld fun l => { l with gfull := bump 32 l.gfull 1 }).finish0 b .failed 12 0 [] false
        | some (e, base, s) =>
          let bin : Bin := {
            id := s.freshBin
            key := key
            sig := sig
            plen := n
            geom := s.geomOf q
            base := base
            eid := e.eid
            owner := e.ld
            pub := q.ld
            bytes := bytes
            last := s.timeOf q.ld }
          let s := s.modGate fun gt => { gt with bins := gt.bins ++ [bin] }
          let s := (s.modOp b fun o => { o with bin := some bin.id }).holdOp b { o with bin := some bin.id }
          hubWork b (s.copyAll o.wclass (s.publishCopies q bin))

/-- An operation whose turn has come. DEDUCED, log entry 20. -/
def State.startOp (s : State) (b : Nat) : State :=
  match (s.slot b).op with
  | none => s
  | some o =>
    let ld := bufLd b
    let s := s.modOp b fun o => { o with begun := true }
    let o := { o with begun := true }
    match s.seqOf ld o.obj with
    | none => if o.cls = 0 then s.finish0 b .failed 3 0 [] false else s.startPieces b o
    | some q =>
      match o.opcode with
      | 0x0100 => (if apNoAppend o.params then s else s.cutPrefix ld o.obj (apPos o.params)).startPieces b o
      | 0x0101 => s.attachTurn b o q
      | 0x0102 =>
        let s := (s.cutPrefix ld o.obj (apPos o.params)).modSeq ld o.obj fun q => { q with len := min q.len (apPos o.params) }
        let s := s.holdOp b o
        hubWork b (s.copyAll o.wclass (s.prefillCopies q o.params))
      | 0x0103 => s.publishTurn b o q
      | 0x0104 =>
        let n := min q.len (leAt o.params 0 4)
        ((s.cutPrefix ld o.obj n).modSeq ld o.obj fun q => { q with len := n }).finish0 b .ready 0 o.aux [] false
      | _ => s.startPieces b o

/-- The oldest unfinished operation on a sequence. -/
def oldestOp (xs : List (Nat × Nat)) : Option Nat :=
  (xs.foldl (fun a x => match a with | none => some x | some y => if x.2 < y.2 then some x else a) none).map Prod.fst

/-- Start operations on a sequence in order until one is at work. -/
def State.startSeqOps (s : State) (ld id : Nat) : Nat → State
  | 0 => s
  | fuel + 1 =>
    match oldestOp (s.seqOps ld id) with
    | none => s
    | some b =>
      match (s.slot b).op with
      | some o => if o.begun then s else (s.startOp b).startSeqOps ld id fuel
      | none => s

/-- An operation on a sequence has ended: the next one's turn. -/
def State.advance (s : State) (b : Nat) (o : Option GateOp) : State :=
  match o with
  | some o => if o.cls = 0 then s.startSeqOps (bufLd b) o.obj 129 else s
  | none => s

/-- End an operation, and go on with its sequence. -/
def State.finish (s : State) (b : Nat) (st : SlotState) (code aux : Nat) (result : Bytes) (trunc : Bool) : State :=
  (s.finish0 b st code aux result trunc).advance b (s.slot b).op

/-- Cancel a slot's operation without its sequence going on. -/
def State.cancelOp (s : State) (b : Nat) : State :=
  match (s.slot b).op with
  | none => s.cancelSlot b
  | some o =>
    let s := s.dropPublish o
    let s := if o.cls = 1 then (List.range 64).foldl (fun s q => s.freeStream (walkStream b q)) s else s
    (s.cancelSlot b).forwardEnd b o .cancelled 9 []

/-- Cancel a slot (R180): its publish is dropped, its early forward retracted with cause CANCEL, its sequence goes on. -/
def State.cancelGate (s : State) (b : Nat) : State := (s.cancelOp b).advance b (s.slot b).op

/-! ### Checks of a sequence's operation -/

/-- Is the storage that an operation on a sequence uses ACTIVE: the sequence's extent and, for an attention, its bin's as its LD
reaches it (R202, Table 7.5)? -/
def State.seqLive (s : State) (q : KvSeq) (attends : Bool) : Bool :=
  (match s.extById q.eid with | some e => e.state == .active | none => false)
    && (!attends || (!q.binGone && (match q.bin.bind s.binOf with
      | some n => (s.extById n.eid).any (fun e => e.state == .active) && (s.binView q.ld n).any fun e => e.state == .active
      | none => q.bin.isNone)))

/-- The sequence that OBJ names (code 3), with its storage ACTIVE (code 8). DEDUCED, log entry 28. -/
def State.seqCheck (s : State) (ld obj : Nat) (attends : Bool) : Except (Nat × Nat) KvSeq :=
  match s.seqOf ld obj with
  | none => .error (3, 0)
  | some q => if q.dead then .error (3, 0) else if s.seqLive q attends then .ok q else .error (8, 0)

/-- An error of parameter line 8, or of the go line. DEDUCED, log entry 26. -/
def hdrBad : Except (Nat × Nat) Nat := .error (2, 8)
/-- DEDUCED, log entry 26. -/
def goBad : Except (Nat × Nat) Nat := .error (2, 0)

def State.queryBytes (s : State) (q : KvSeq) : Nat := q.g * q.hkv * q.d * s.seqE q

/-- Does an attention's result fit in 32 KiB (R186)? -/
def attnFits (q : KvSeq) (fp32 : Bool) : Bool := q.g * q.hkv * q.d * (if fp32 then 4 else 2) ≤ 32768

/-- APPEND_ATTEND's checks (Table 7.7, R186): the new LEN. DEDUCED, log entry 20. -/
def apCheck (ld obj plines : Nat) : GoCheck := fun s p =>
  match s.seqCheck ld obj (!apNoAttend p) with
  | .error e => .error e
  | .ok q =>
    let ql := s.queryBytes q
    let need := 1 + (ql + (if apNoAppend p then 0 else s.psz q)) / 64
    let flags := leAt p 10 1
    if plines = 0 ∨ plines ≠ need then goBad
    else if leAt p 8 2 / 1024 ≠ 0 ∨ flags / 8 ≠ 0 ∨ leAt p 11 1 ≠ 0 ∨ leAt p 16 48 ≠ 0 then hdrBad
    else if q.maxpos ≤ apPos p then .error (12, 0)
    else if q.layers ≤ apLayer p ∨ q.len < apPos p ∨ apPos p < apMaskLo p ∨ (apNoAppend p ∧ apNoAttend p)
        ∨ (apNoAppend p ∧ apPos p = 0) then hdrBad
    else if ¬ apNoAttend p ∧ ¬ attnFits q (apFp32 p) then hdrBad
    else if apNoAppend p then .ok q.len
    else if apLayer p + 1 = q.layers then .ok (apPos p + 1)
    else .ok (min q.len (apPos p))

/-- What an APPEND_ATTEND does at acceptance: LEN, and its record through the encoders (R187). DEDUCED, log entry 20. -/
def State.appendRecord (s : State) (ld : Nat) (o : GateOp) : State :=
  match s.seqOf ld o.obj with
  | none => s
  | some q =>
    if apNoAppend o.params then s
    else
      let pos := apPos o.params
      let rec_ := (o.params.drop (64 + s.queryBytes q)).take (s.psz q)
      let dpa := q.sbase + (apLayer o.params * q.maxpos + pos) * s.psz q
      let s := (s.innerBytes ld dpa (some (seqDie (pos / 2048) q.id)) o.wclass (s.psz q / 512) rec_).2
      (s.modSeq ld o.obj fun q => { q with len := o.aux }).useStream ld (kvStream ld o.obj) o.wclass (s.psz q)

/-- Queue an operation on its sequence. DEDUCED, log entry 20. -/
def State.queueSeq (s : State) (b : Nat) (o : GateOp) : State :=
  let s := s.useStream (bufLd b) (kvStream (bufLd b) o.obj) o.wclass 0
  s.startSeqOps (bufLd b) o.obj 129

/-- APPEND_ATTEND (R186 to R188). -/
def execAppendAttend (g : GoWrite) (s : State) : Res :=
  .next (s.runGo g 0x0100 0 (s.builtinFor 0) true (apCheck g.ld g.line.obj g.line.plines) fun s b o =>
    (s.appendRecord g.ld o).queueSeq b o)

/-- CHUNK_PREFILL's checks (R190). DEDUCED, log entry 20. -/
def cpCheck (ld obj plines : Nat) : GoCheck := fun s p =>
  match s.seqCheck ld obj (cpAttend p) with
  | .error e => .error e
  | .ok q =>
    let flags := leAt p 10 1
    let need := 1 + (if cpAttend p then s.queryBytes q / 64 else 0)
    let src := s.rangeCode ld (cpSrc p) (cpCount p * s.psz q)
    if plines = 0 ∨ plines ≠ need then goBad
    else if leAt p 8 2 / 1024 ≠ 0 ∨ flags / 8 ≠ 0 ∨ bitOf flags 1 ∨ leAt p 11 1 ≠ 0 ∨ leAt p 24 40 ≠ 0 then hdrBad
    else if cpCount p = 0 ∨ 2048 < cpCount p ∨ q.layers ≤ apLayer p ∨ q.len < apPos p then hdrBad
    else if q.maxpos < apPos p + cpCount p then .error (12, 0)
    else if cpAttend p ∧ ¬ attnFits q (apFp32 p) then hdrBad
    else if src ≠ 0 then .error (src, if src = 2 then 8 else 0)
    else .ok 0

/-- CHUNK_PREFILL (R190). -/
def execChunkPrefill (g : GoWrite) (s : State) : Res :=
  .next (s.runGo g 0x0102 0 (s.builtinFor 0) true (cpCheck g.ld g.line.obj g.line.plines) fun s b o => s.queueSeq b o)

/-- LEN once a prefill's records are written: POS + COUNT after the last layer (R190). -/
def prefillLen (q : KvSeq) (p : Bytes) : Nat := if apLayer p + 1 = q.layers then apPos p + cpCount p else q.len

/-- A prefill's records are written: LEN, which the operation reports. -/
def State.prefillDone (s : State) (b ld obj : Nat) (p : Bytes) : State :=
  match s.seqOf ld obj with
  | none => s
  | some q =>
    (s.modSeq ld obj fun q => { q with len := prefillLen q p }).modOp b fun o => { o with aux := prefillLen q p }

/-- PREFILL_WRITES_DONE: the records have landed; the attention's pieces go out, or the slot is READY (R190). -/
def execPrefillWritesDone (t ld buf : Nat) (s : State) : Res :=
  let s := s.at_ t
  let b := 128 * ld + buf
  match (s.slot b).op with
  | none => .next s
  | some o =>
    if s.up ∧ buf < 128 ∧ o.opcode = 0x0102 ∧ o.begun ∧ (s.slot b).state = .running ∧ o.pieces = [] ∧ s.landed o.hub ∧ s.inputsOk o then
      let aux := match s.seqOf ld o.obj with | some q => prefillLen q o.params | none => 0
      let s := s.prefillDone b ld o.obj o.params
      if s.pieceCount ld o = 0 then .next (s.finish b .ready 0 aux [] false)
      else .next (s.dispatchAll b { o with aux := aux })
    else .next s

/-- PREFIX_ATTACH's checks at acceptance (R189). DEDUCED, log entries 20, 28. -/
def paCheck (ld obj plines : Nat) : GoCheck := fun s _ =>
  match s.seqCheck ld obj false with
  | .error e => .error e
  | .ok q => if plines ≠ 1 then goBad else if q.len ≠ 0 then hdrBad else .ok 0

/-- PREFIX_ATTACH (R189). -/
def execPrefixAttach (g : GoWrite) (s : State) : Res :=
  .next (s.runGo g 0x0101 0 noHandle true (paCheck g.ld g.line.obj g.line.plines) fun s b o => s.queueSeq b o)

/-- PREFIX_PUBLISH's checks at acceptance (R201). DEDUCED, log entries 20, 28. -/
def ppCheck (ld obj plines : Nat) : GoCheck := fun s p =>
  match s.seqCheck ld obj false with
  | .error e => .error e
  | .ok q => if plines ≠ 1 then goBad else if leAt p 40 4 = 0 ∨ q.len < leAt p 40 4 then hdrBad else .ok 0

/-- PREFIX_PUBLISH (R201, R203). -/
def execPrefixPublish (g : GoWrite) (s : State) : Res :=
  .next (s.runGo g 0x0103 0 noHandle true (ppCheck g.ld g.line.obj g.line.plines) fun s b o => s.queueSeq b o)

/-- PUBLISH_COMMIT: every record has been written; the directory entry is committed (R201). -/
def execPublishCommit (t ld buf : Nat) (s : State) : Res :=
  let s := s.at_ t
  let b := 128 * ld + buf
  match (s.slot b).op with
  | none => .next s
  | some o =>
    match o.bin with
    | none => .next s
    | some id =>
      if s.up ∧ buf < 128 ∧ o.opcode = 0x0103 ∧ o.begun ∧ (s.slot b).state = .running ∧ s.landed o.hub ∧ s.inputsOk o then
        let s := (s.modBin id fun n => { n with committed := true, last := s.timeOf ld }).journal 1
        .next (s.finish b .ready 0 id [] false)
      else .next s

/-- SEQ_TRUNCATE's checks (R191): NEWLEN. It uses no storage, so code 8 is none of its answers. DEDUCED, log entries 20, 28. -/
def stCheck (ld obj plines : Nat) : GoCheck := fun s p =>
  match s.seqOf ld obj with
  | none => .error (3, 0)
  | some q =>
    if q.dead then .error (3, 0)
    else if plines ≠ 1 then goBad
    else if q.len < leAt p 0 4 then hdrBad
    else .ok (leAt p 0 4)

/-- SEQ_TRUNCATE (R191). -/
def execSeqTruncate (g : GoWrite) (s : State) : Res :=
  .next (s.runGo g 0x0104 0 noHandle true (stCheck g.ld g.line.obj g.line.plines) fun s b o => s.queueSeq b o)

/-- GATE_NOP: READY at acceptance with no work (R182). OBJ is zero (Table 7.6). -/
def execGateNop (g : GoWrite) (s : State) : Res :=
  .next (match s.takeGo g 0x0000 with
    | .dropped s => s
    | .accepted b s =>
      if ¬ s.goShape b g false false then s.failGo b 2 0
      else match s.copyParams b g.line.plines with
        | none => s.failGo b 6 0
        | some _ => s.settleSlot b .ready 0 0 [] false)

/-- GATE_OPCODE_RESERVED: FAILED with code 1 (R182). -/
def execGateOpcodeReserved (g : GoWrite) (opcode : Nat) (s : State) : Res :=
  .next (match s.takeGo g opcode with
    | .dropped s => s
    | .accepted b s => s.failGo b 1 0)

end Sys2Proof.Machine
end

