-- ==== Sys2Proof/Machine/Search.lean ====
section
/-! DEFINITION. Gate operations on indexes and lists, and tenant operations (R192 to R198). -/
namespace Sys2Proof.Machine

/-- An index that OBJ names with both its ranges ACTIVE (codes 3 and 8). -/
def State.indexCheck (s : State) (ld obj : Nat) : Except (Nat × Nat) VecIndex :=
  match s.indexOf ld obj with
  | none => .error (3, 0)
  | some x =>
    let n := s.ext.exts.length
    if s.rangesCode ld x.vbase (x.nv * x.vecBytes) n ≠ 0 ∨ s.rangesCode ld x.abase (x.nv * x.deg * 4) n ≠ 0 then .error (8, 0)
    else .ok x

/-- Is a range in an ACTIVE lossless extent of the LD (R195)? -/
def State.losslessCode (s : State) (ld dpa n : Nat) : Nat :=
  match s.extAt ld dpa with
  | some e => if Prof.cls e.profile = 0 then s.rangeCode ld dpa n else 2
  | none => 2

/-- The first non-zero code of a list of checks, with its parameter line. -/
def firstCode : List (Nat × Nat) → Option (Nat × Nat)
  | [] => none
  | (c, l) :: rest => if c = 0 then firstCode rest else some (c, if c = 2 then l else 0)

/-- GRAPH_SEARCH's checks (R193, R195). DEDUCED, log entry 26. -/
def gsCheck (ld obj plines : Nat) : GoCheck := fun s p =>
  match s.indexCheck ld obj with
  | .error e => .error e
  | .ok x =>
    let h := searchHdr p
    let inline_ := leAt p 9 1 == 0
    if plines ≠ 2 + (if inline_ then h.nq * x.vecBytes / 64 else 0) then goBad
    else if leAt p 10 6 ≠ 0 ∨ leAt p 24 40 ≠ 0 ∨ 1 < leAt p 9 1 ∨ h.nq = 0 ∨ 64 < h.nq ∨ h.qpp = 0 ∨ 64 < h.qpp ∨ h.k = 0
        ∨ 64 < h.k ∨ h.ef < h.k ∨ 1024 < h.ef ∨ 4 < h.nfilt ∨ 32768 < h.nq * h.k * 8 then hdrBad
    else if (List.range h.nfilt).any fun i => leAt p (64 + 16 * i + 8) 8 != 0 then .error (2, 9)
    else
      let byRef := if inline_ then 0 else s.rangeCode ld h.qdpa (h.nq * x.vecBytes)
      match firstCode ((byRef, 8) :: h.filters.map fun f => (s.losslessCode ld f ((x.nv + 7) / 8), 9)) with
      | some e => .error e
      | none => .ok 0

/-- GRAPH_SEARCH (R193 to R195): one WALK stream for each query (Table 8.3). -/
def execGraphSearch (g : GoWrite) (s : State) : Res :=
  .next (s.runGo g 0x0200 1 (s.builtinFor 1) true (gsCheck g.ld g.line.obj g.line.plines) fun s b o =>
    let s := (List.range (leAt o.params 0 2)).foldl (fun s q => s.openStream g.ld (walkStream b q) o.wclass) s
    s.startPieces b o)

/-- DISTANCE_BATCH's checks (R196). DEDUCED, log entry 26. -/
def dbCheck (ld obj plines : Nat) : GoCheck := fun s p =>
  match s.indexCheck ld obj with
  | .error e => .error e
  | .ok x =>
    let nc := leAt p 0 4
    let byRef := leAt p 4 1 == 1
    if nc = 0 ∨ 8192 < nc ∨ 1 < leAt p 4 1 ∨ leAt p 5 3 ≠ 0 ∨ leAt p 16 48 ≠ 0 ∨ (¬ byRef ∧ leAt p 8 8 ≠ 0) then hdrBad
    else if plines ≠ 1 + x.vecBytes / 64 + (if byRef then 0 else (nc + 15) / 16) then goBad
    else
      let c := if byRef then s.rangeCode ld (leAt p 8 8) (4 * nc) else 0
      if c ≠ 0 then .error (c, if c = 2 then 8 else 0) else .ok 0

/-- DISTANCE_BATCH (R196). -/
def execDistanceBatch (g : GoWrite) (s : State) : Res :=
  .next (s.runGo g 0x0201 2 (s.builtinFor 2) true (dbCheck g.ld g.line.obj g.line.plines) fun s b o => s.startPieces b o)

/-- A list descriptor's own check (Table 7.8). -/
def State.listCode (s : State) (ld v : Nat) : Nat :=
  let l := keyListOf v
  if bitsOf v 63 49 ≠ 0 ∨ l.base % 64 ≠ 0 ∨ (if l.bitmap then l.keyBase % 512 ≠ 0 else l.keyBase ≠ 0) then 2
  else s.rangeCode ld l.base (if l.bitmap then (l.count + 7) / 8 else 4 * l.count)

/-- The checks of a set operation (R197). DEDUCED, log entry 26. -/
def soCheck (ld plines : Nat) : GoCheck := fun s p =>
  let nl := leAt p 0 1
  if plines = 0 ∨ plines ≠ 1 + (nl + 3) / 4 then goBad
  else if nl < 2 ∨ 8 < nl ∨ 1 < leAt p 1 1 ∨ leAt p 2 2 ≠ 0 ∨ leAt p 12 52 ≠ 0 ∨ leAt p 8 4 < leAt p 4 4 then hdrBad
  else match firstCode ((List.range nl).map fun i => (s.listCode ld (leAt p (64 + 16 * i) 16), 9 + i / 4)) with
    | some e => .error e
    | none => .ok 0

/-- A set operation of class 3. -/
def State.setOp (s : State) (g : GoWrite) (opcode : Nat) : State :=
  s.runGo g opcode 3 (s.builtinFor 3) false (soCheck g.ld g.line.plines) fun s b o => s.startPieces b o

/-- SET_INTERSECT (R197). -/
def execSetIntersect (g : GoWrite) (s : State) : Res := .next (s.setOp g 0x0300)

/-- SET_UNION (R197). -/
def execSetUnion (g : GoWrite) (s : State) : Res := .next (s.setOp g 0x0301)

/-- SET_DIFFERENCE (R197). -/
def execSetDifference (g : GoWrite) (s : State) : Res := .next (s.setOp g 0x0302)

/-- TENANT's checks: the handle (codes 4 and 5) and the count of pieces (R198). -/
def teCheck (ld handle plines : Nat) : GoCheck := fun s p =>
  let mine := handle < 32 || (match s.dressing handle with | some d => d.party == s.party ld && !d.stopped | none => false)
  if (s.header handle).isNone ∨ ¬ mine ∨ ¬ bitOf (hdrClasses (s.hdr handle)) 4 then .error (4, 0)
  else if s.disabled handle then .error (5, 0)
  else if plines = 0 then goBad
  else if leAt p 0 2 = 0 ∨ hdrStonesMax (s.hdr handle) < leAt p 0 2 then hdrBad
  else .ok 0

/-- TENANT (R198). -/
def execTenant (g : GoWrite) (s : State) : Res :=
  .next (s.runGo g 0x0400 4 g.line.handle false (teCheck g.ld g.line.handle g.line.plines) fun s b o => s.startPieces b o)

end Sys2Proof.Machine
end

