-- ==== Sys2Proof/Machine/Slots.lean ====
section
/-! DEFINITION. Access to the lines of gate slots, and the commands that arm slots, open sequences and define indexes
(R165 to R168, R176 to R178, R183, R191, R192, R206). -/
namespace Sys2Proof.Machine

/-! ### Lines of a slot -/

/-- A write to lines 1 to 1,023 of an armed slot (R168): PARAM lines take it, every other line drops it. A poisoned
line stays poisoned until all its bytes are written. DEDUCED, log entry 29. -/
def State.slotWrite (s : State) (ld b line : Nat) (data : Bytes) (enables : BitVec 64) (poison : Bool) : State :=
  if 8 ≤ line ∧ line ≤ 511 then
    if poison then s.setParam b line none
    else match s.param b line with
      | some old => s.setParam b line (some (maskBytes enables 0 old (fit 64 data)))
      | none => if enables = BitVec.allOnes 64 then s.setParam b line (some (fit 64 data)) else s
  else s.modGateLd ld fun l => { l with reswr := bump 16 l.reswr 1 }

/-- GATE_PARAM_WRITE: a write to a line of a slot other than its go line (R167, R168). DEDUCED, log entry 29. -/
def execGateParamWrite (ld dpa : Nat) (data : Bytes) (enables : BitVec 64) (poison : Bool) (s : State) : Res :=
  let s := (s.poisonSeen ld poison).settleLeaving
  if ¬ s.up then .next s
  else match s.access ld dpa with
    | .nowhere => .next (s.drop ld dpa true true)
    | .leaving => .next (s.drop ld dpa true false)
    | .served e =>
      if ¬ Prof.gate e.profile then .next (s.writeLine ld dpa 0 e data enables poison)
      else match s.bufAt ld dpa with
        | none => .next (s.modGateLd ld fun l => { l with unarmed := bump 16 l.unarmed 1 })
        | some b =>
          let line := dpa / 64 % 1024
          if line = 0 then .next (s.modGateLd ld fun l => { l with badgo := bump 16 l.badgo 1 })
          else .next (s.slotWrite ld b line data enables poison)

/-- A read of a line of an armed slot (Table 7.1, R176, R178). -/
def State.slotRead (s : State) (ld b line tag : Nat) : State :=
  let x := s.slot b
  let c := s.slotClass b
  if line = 0 then s.sendLine ld tag c (fit 64 (if x.state = .idle then [] else x.go))
  else if line = 1 then s.sendLine ld tag c x.status
  else if line < 8 then s.sendLine ld tag c (zeros 64)
  else if line < 512 then
    match s.param b line with
    | some d => s.sendLine ld tag c d
    | none => s.sendPoison ld tag c
  else match x.state with
    | .idle => s.sendLine ld tag c (zeros 64)
    | .queued | .running | .checking =>
      if 1024 ≤ (s.gate.reads.filter fun r => r.ld = ld).length then
        (s.modGateLd ld fun l => { l with full := bump 16 l.full 1 }).sendPoison ld tag c
      else
        let r : ResRead := { rid := s.gate.nextRead, ld := ld, buf := b, line := line - 512, tag := tag, start := s.now }
        (s.modGateLd ld fun l => { l with held := bump 32 l.held 1 }).modGate fun g =>
          { g with reads := g.reads ++ [r], nextRead := g.nextRead + 1 }
    | _ => s.sendResult ld b (line - 512) tag

/-- A read of a DPA in a gate extent that is served (R167). -/
def State.gateRead (s : State) (ld dpa tag : Nat) : State :=
  match s.bufAt ld dpa with
  | none => (s.modGateLd ld fun l => { l with unarmed := bump 16 l.unarmed 1 }).send (.memPoison ld tag (s.loadAt ld dpa))
  | some b => s.slotRead ld b (dpa / 64 % 1024) tag

/-- GATE_RESULT_READ: a read of a line of a gate slot (R176). -/
def execGateResultRead (ld dpa tag : Nat) (s : State) : Res :=
  let s := s.settleLeaving
  if ¬ s.up then .next s
  else match s.access ld dpa with
    | .nowhere => .next ((s.drop ld dpa false true).send (.memPoison ld tag (s.loadAt ld dpa)))
    | .leaving => .next ((s.drop ld dpa false false).send (.memPoison ld tag (s.loadAt ld dpa)))
    | .served e => if Prof.gate e.profile then .next (s.gateRead ld dpa tag) else .next (s.readLine ld dpa tag e 0)

/-- GATE_HOLD_EXPIRE: a held read that has waited for the hold time returns poison (R177). -/
def execGateHoldExpire (t rid : Nat) (s : State) : Res :=
  let s := s.at_ t
  match s.gate.reads.find? fun r => r.rid = rid with
  | none => .next s
  | some r =>
    if r.start + (s.slot r.buf).hold * us ≤ s.now then
      let s := s.modGate fun g => { g with reads := g.reads.filter fun x => x.rid ≠ rid }
      let s := s.modGateLd r.ld fun l => { l with expired := bump 16 l.expired 1 }
      .next ((s.modSlot r.buf fun x => { x with holdexp := true }).sendPoison r.ld r.tag (s.slotClass r.buf))
    else .next s

/-! ### Slots (R166, R206) -/

def slotPositions (dpa count : Nat) : List Nat := (List.range count).map fun i => dpa + 65536 * i

/-- Arm one position: a CANCELLED slot keeps its buffer, another takes the lowest free one. -/
def State.armOne (s : State) (ld dpa eid hold : Nat) : State :=
  let b := match s.bufAt ld dpa with
    | some b => b
    | none => ((ldBufs ld).find? fun b => (s.slot b).state == .unarmed).getD (128 * ld)
  ((s.clearLines b).unbind fun x => x.buf == b).setSlot b { state := .idle, eid := eid, dpa := dpa, hold := hold }

/-- A slot becomes UNARMED: its buffer returns to the LD's allotment. -/
def State.unarm (s : State) (b : Nat) : State := ((s.clearLines b).unbind fun x => x.buf == b).setSlot b {}

/-- ARM_GATE_SLOTS (C060h, R166, R177). -/
def execArmGateSlots (h : MbHdr) (dpa count hold : Nat) (s : State) : Res :=
  .next (s.mbRun h { opcode := 0xC060, ld := true, fm := .no, len := [24] } fun s =>
    let hold' := if hold = 0 then 4000 else hold
    let ps := slotPositions dpa count
    match s.extAt h.src dpa with
    | none => .error .invalidInput
    | some e =>
      let taken := fun p => match s.bufAt h.src p with | some b => (s.slot b).state != .cancelled | none => false
      if e.state ≠ .active ∨ ¬ Prof.gate e.profile ∨ dpa % 65536 ≠ 0 ∨ count = 0 ∨ 128 < count
          ∨ e.base + e.len < dpa + 65536 * count ∨ hold' < 10 ∨ 16000 < hold' ∨ ps.any taken then .error .invalidInput
      else
        let fresh := (ps.filter fun p => (s.bufAt h.src p).isNone).length
        let armed := ((ldBufs h.src).filter fun b => (s.slot b).state != .unarmed).length
        if 128 < armed + fresh then .error .resourcesExhausted
        else .ok { s := ps.foldl (fun s p => s.armOne h.src p e.eid hold') s })

/-- DISARM_GATE_SLOTS (C061h, R206). -/
def execDisarmGateSlots (h : MbHdr) (dpa count : Nat) (force : Bool) (s : State) : Res :=
  .next (s.mbRun h { opcode := 0xC061, ld := true, fm := .no, len := [25] } fun s =>
    let bs := (slotPositions dpa count).map (s.bufAt h.src)
    if dpa % 65536 ≠ 0 ∨ count = 0 ∨ 128 < count ∨ bs.any Option.isNone then .error .invalidInput
    else
      let bs := bs.filterMap id
      if ¬ force ∧ bs.any (fun b => (s.slot b).state.busy) then .error .busy
      else .ok { s := bs.foldl (fun s b => (if (s.slot b).state.busy then s.cancelGate b else s).unarm b) s })

/-- GET_SLOT_STATUS (C062h): the status line and the hold time; the FM receives no results. -/
def execGetSlotStatus (h : MbHdr) (dpa : Nat) (s : State) : Res :=
  .next (s.mbRun h { opcode := 0xC062, ld := true, fm := .ld, len := [16] } fun s =>
    match s.bufAt (whoOf h) dpa with
    | some b =>
      if dpa % 65536 = 0 then .ok { s := s, blob := (s.slot b).status ++ leBytes 4 (s.slot b).hold } else .error .invalidInput
    | none => .error .invalidInput)

/-! ### Sequences (R183, R191) -/

/-- OPEN_SEQUENCE (C063h, R183): the lowest free identifier, LEN 0, no prefix. -/
def execOpenSequence (h : MbHdr) (sbase layers hkv g d maxpos : Nat) (s : State) : Res :=
  .next (s.mbRun h { opcode := 0xC063, ld := true, fm := .no, len := [28], store := true } fun s =>
    match s.extAt h.src sbase with
    | none => .error .invalidInput
    | some e =>
      let src := Prof.src e.profile
      let psz := 2 * hkv * d * (srcBits src / 8)
      if e.state ≠ .active ∨ ¬ Prof.lossy e.profile ∨ ¬ (src = 0 ∨ src = 1 ∨ src = 3 ∨ src = 4) ∨ sbase % 65536 ≠ 0
          ∨ layers = 0 ∨ 1024 < layers ∨ hkv = 0 ∨ 64 < hkv ∨ g = 0 ∨ 16 < g ∨ ¬ (d = 64 ∨ d = 128 ∨ d = 256)
          ∨ maxpos % 2048 ≠ 0 ∨ maxpos < 2048 ∨ 1048576 < maxpos ∨ psz % 512 ≠ 0
          ∨ e.base + e.len < sbase + layers * maxpos * psz then .error .invalidInput
      else
        let mine := (s.gate.seqs.filter fun q => q.ld = h.src).map KvSeq.id
        match lowestFree mine 16384 with
        | none => .error .resourcesExhausted
        | some id =>
          let q : KvSeq := {
            ld := h.src
            id := id
            eid := e.eid
            sbase := sbase
            layers := layers
            hkv := hkv
            g := g
            d := d
            maxpos := maxpos }
          let s := (s.modGate fun x => { x with seqs := x.seqs ++ [q] }).openStream h.src (kvStream h.src id) (Prof.wclass e.profile)
          .ok { s := s, fields := [⟨0, 2, id⟩] })

/-- CLOSE_SEQUENCE (C064h, R191). -/
def execCloseSequence (h : MbHdr) (seq : Nat) (s : State) : Res :=
  .next (s.mbRun h { opcode := 0xC064, ld := true, fm := .no, len := [10], store := true } fun s =>
    match s.seqOf h.src seq with
    | none => .error .invalidInput
    | some q =>
      if s.seqOps h.src seq ≠ [] then .error .busy
      else
        let s := match q.bin with | some b => s.releaseBin b | none => s
        .ok { s := (s.modGate fun x => { x with seqs := x.seqs.filter fun y => ¬ (y.ld = h.src ∧ y.id = seq) }).freeStream
                (kvStream h.src seq) })

/-- GET_SEQUENCE_STATUS (C065h). -/
def execGetSequenceStatus (h : MbHdr) (seq : Nat) (s : State) : Res :=
  .next (s.mbRun h { opcode := 0xC065, ld := true, fm := .no, len := [10], store := true } fun s =>
    match s.seqOf h.src seq with
    | none => .error .invalidInput
    | some q =>
      .ok { s := s, fields := [⟨0, 8, q.sbase⟩, ⟨8, 2, q.layers⟩, ⟨10, 1, q.hkv⟩, ⟨11, 1, q.g⟩, ⟨12, 2, q.d⟩, ⟨16, 4, q.maxpos⟩,
              ⟨20, 4, q.len⟩, ⟨24, 4, q.plen⟩, ⟨28, 4, q.bin.getD 0xFFFFFFFF⟩] })

/-! ### Indexes (R192) -/

/-- DEFINE_INDEX (C066h, R192). -/
def execDefineIndex (h : MbHdr) (vbase abase nv entry dim vfmt deg metric : Nat) (s : State) : Res :=
  .next (s.mbRun h { opcode := 0xC066, ld := true, fm := .no, len := [37] } fun s =>
    let mine := (s.gate.indexes.filter fun x => x.ld = h.src).map VecIndex.id
    let x : VecIndex := {
      ld := h.src
      id := (lowestFree mine 64).getD 64
      vbase := vbase
      abase := abase
      nv := nv
      entry := entry
      dim := dim
      vfmt := vfmt
      deg := deg
      metric := metric }
    let n := s.ext.exts.length
    if vfmt = 0 ∨ 5 < vfmt ∨ dim < 32 ∨ 4096 < dim ∨ x.vecBytes % 64 ≠ 0 ∨ nv = 0 ∨ 2 ^ 32 - 2 < nv
        ∨ ¬ (deg = 16 ∨ deg = 32 ∨ deg = 48 ∨ deg = 64) ∨ nv ≤ entry ∨ 1 < metric
        ∨ s.rangesCode h.src vbase (nv * x.vecBytes) n ≠ 0 ∨ s.rangesCode h.src abase (nv * deg * 4) n ≠ 0 then
      .error .invalidInput
    else if x.id = 64 then .error .resourcesExhausted
    else .ok { s := s.modGate fun g => { g with indexes := g.indexes ++ [x] }, fields := [⟨0, 1, x.id⟩] })

/-- DELETE_INDEX (C067h): Busy while an operation names the index. -/
def execDeleteIndex (h : MbHdr) (index : Nat) (s : State) : Res :=
  .next (s.mbRun h { opcode := 0xC067, ld := true, fm := .no, len := [9] } fun s =>
    match s.indexOf h.src index with
    | none => .error .invalidInput
    | some _ =>
      let named := (ldBufs h.src).any fun b => (s.slot b).state.busy
        && (match (s.slot b).op with | some o => (o.cls == 1 || o.cls == 2) && o.obj == index | none => false)
      if named then .error .busy
      else .ok { s := s.modGate fun g => { g with indexes := g.indexes.filter fun x => ¬ (x.ld = h.src ∧ x.id = index) } })

end Sys2Proof.Machine
end

