-- ==== Sys2Proof/Machine/Granary.lean ====
section
/-! DEFINITION. The granary's commands (R199 to R206). -/
namespace Sys2Proof.Machine

/-- A directory entry (Table 7.10). -/
def Bin.fields (b : Bin) : List Fld :=
  [⟨0, 32, leNat b.key⟩, ⟨32, 8, b.sig⟩, ⟨40, 4, b.id⟩, ⟨44, 4, b.plen⟩, ⟨48, 8, b.geom⟩, ⟨56, 8, b.base⟩, ⟨64, 4, b.attach⟩,
   ⟨68, 1, b2n b.pin + 2 * b.near⟩, ⟨69, 1, b.pub⟩, ⟨72, 8, b.last⟩]

/-- The granary extent of an LD at a base. -/
def State.granaryAt (s : State) (ld base : Nat) : Option Extent :=
  match s.extAt ld base with
  | some e => if e.base = base ∧ s.gate.granary.contains e.eid then some e else none
  | none => none

/-- ADD_GRANARY_EXTENT (C070h, R199). -/
def execAddGranaryExtent (h : MbHdr) (base : Nat) (s : State) : Res :=
  .next (s.mbRun h { opcode := 0xC070, ld := true, fm := .no, len := [16] } fun s =>
    match s.extAt h.src base with
    | none => .error .invalidInput
    | some e =>
      if e.base ≠ base ∨ e.isAlias ∨ e.state ≠ .active ∨ ¬ Prof.lossy e.profile ∨ s.gate.granary.contains e.eid then
        .error .invalidInput
      else
        let mine := s.gate.granary.filter fun id => match s.extById id with | some x => s.party x.ld == s.party h.src | none => false
        if 8 ≤ mine.length then .error .resourcesExhausted
        else .ok { s := (s.modGate fun g => { g with granary := g.granary ++ [e.eid] }).journal 1 })

/-- Delete the bins of a granary extent and take it from the granary. -/
def State.dropGranary (s : State) (eid : Nat) : State :=
  let s := ((s.gate.bins.filter fun b => b.eid = eid).map Bin.id).foldl State.freeBin s
  (s.modGate fun g => { g with granary := g.granary.filter (· ≠ eid) }).journal 1

/-- REMOVE_GRANARY_EXTENT (C071h): Busy if a bin is attached; its bins go when the command completes. -/
def execRemoveGranaryExtent (h : MbHdr) (base : Nat) (s : State) : Res :=
  .next (s.mbBg h { opcode := 0xC071, ld := true, fm := .no, len := [16] } (.removeGranaryExtent h base) fun s =>
    match s.granaryAt h.src base with
    | none => .error .invalidInput
    | some e => if s.gate.bins.any fun b => b.eid == e.eid && 0 < b.attach then .error .busy else .ok s)

/-- DELETE_BIN (C072h, R202): an attached bin vanishes from lookups and is freed when ATTACH reaches zero. -/
def execDeleteBin (h : MbHdr) (key : Bytes) (sig : Nat) (s : State) : Res :=
  .next (s.mbRun h { opcode := 0xC072, ld := true, fm := .no, len := [48] } fun s =>
    match s.lookup h.src (fit 32 key) sig with
    | none => .error .invalidInput
    | some b =>
      if b.attach = 0 then .ok { s := s.freeBin b.id }
      else .ok { s := (s.modBin b.id fun x => { x with hidden := true }).journal 1 })

/-- SET_BIN_ATTRIBUTES (C073h, R205): PIN and NEAR; NEAR 3 and reserved bits are refused. -/
def execSetBinAttributes (h : MbHdr) (key : Bytes) (sig attr : Nat) (s : State) : Res :=
  .next (s.mbRun h { opcode := 0xC073, ld := true, fm := .no, len := [49] } fun s =>
    match s.lookup h.src (fit 32 key) sig with
    | none => .error .invalidInput
    | some b =>
      if 8 ≤ attr ∨ attr / 2 % 4 = 3 then .error .invalidInput
      else .ok { s := ((s.modBin b.id fun x => { x with pin := bitOf attr 0, near := attr / 2 % 4 }).fixNear b.id).journal 1 })

/-- LIST_BINS (C074h, R204). -/
def execListBins (h : MbHdr) (o : OutReq) (s : State) : Res :=
  .next (s.mbSnap h { opcode := 0xC074, ld := true, fm := .no, len := [16] } o 80 fun s =>
    .ok ([], (s.visibleBins h.src).map Bin.fields))

/-- Bytes that bins use in a granary extent. -/
def State.granaryUsed (s : State) (e : Extent) : Nat := ((s.binRuns e).map fun r => r.2 * 8 * MiB).foldl (· + ·) 0

/-- GET_GRANARY_STATUS (C075h): bins, and bytes used and free in each extent; the FM receives totals only. -/
def execGetGranaryStatus (h : MbHdr) (s : State) : Res :=
  .next (s.mbRun h { opcode := 0xC075, ld := true, fm := .module } fun s =>
    if h.src < 16 then
      let es := s.gate.granary.filterMap fun id => match s.extById id with
        | some e => if s.party e.ld = s.party h.src then some e else none
        | none => none
      let recs := es.zipIdx.flatMap fun p =>
        [⟨4 + 24 * p.2, 8, p.1.base⟩, ⟨12 + 24 * p.2, 8, s.granaryUsed p.1⟩, ⟨20 + 24 * p.2, 8, p.1.len - s.granaryUsed p.1⟩]
      .ok { s := s, fields := (⟨0, 4, (s.visibleBins h.src).length⟩ : Fld) :: recs }
    else
      let es := s.gate.granary.filterMap s.extById
      let used := (es.map s.granaryUsed).foldl (· + ·) 0
      let all := (es.map Extent.len).foldl (· + ·) 0
      .ok { s := s, fields := [⟨0, 4, (s.gate.bins.filter fun b => b.committed && !b.hidden).length⟩, ⟨12, 8, used⟩, ⟨20, 8, all - used⟩] })

end Sys2Proof.Machine
end

