-- ==== Sys2Proof/Machine/Checks.lean ====
section
/-! DEFINITION. The result checker (chapter 12): what the end of a piece does, checks, replays (R288, R289), the release
of results (R175, R291, R294), and the observation of units (R299, R300). -/
namespace Sys2Proof.Machine

def State.modResult (s : State) (f : ResultSt → ResultSt) : State := { s with result := f s.result }

/-! ### Units under observation (R299, R300) -/

def unitKey (utype unit : Nat) : Nat := utype * 256 + unit

def State.unitRec (s : State) (utype unit : Nat) : UnitRec := s.result.units.get (unitKey utype unit)

def State.setUnit (s : State) (utype unit : Nat) (f : UnitRec → UnitRec) : State :=
  s.modResult fun r => { r with units := r.units.upd (unitKey utype unit) f }

def UnitState.code : UnitState → Nat
  | .clear => 0 | .observing => 1 | .suspect => 2 | .failed => 3

def day : Nat := 24 * 3600 * sec

/-- Has a unit entered FAILED twice within 30 days (R300)? -/
def UnitRec.held (r : UnitRec) : Bool :=
  match r.fails with
  | a :: b :: _ => a < b + 30 * day
  | _ => false

/-- A unit changes state, with its UNIT_STATE record; a stone that fails is a unit failure. -/
def State.unitTo (s : State) (utype unit : Nat) (st : UnitState) : State :=
  let old := (s.unitRec utype unit).state
  if old = st then s
  else
    let s := s.setUnit utype unit fun r => { r with state := st, fails := if st = .failed then s.now :: r.fails else r.fails, passed := [], since := s.now }
    let s := s.ledger (LedgerRec.of 4 utype unit 31 (old.code + 256 * st.code))
    if st = .failed ∧ utype = 1 then s.stoneFails unit else s

/-! ### Test slices (R406 to R408): marking a unit -/

def sliceKey (slice unit : Nat) : Nat := 256 * slice + unit

def sliceUtype (slice : Nat) : Nat := if slice < 3 then 1 else if slice < 5 then 2 else 6

def State.sliceRec (s : State) (slice unit : Nat) : SliceRec := s.health.slices.get (sliceKey slice unit)

def State.modSlice (s : State) (slice unit : Nat) (f : SliceRec → SliceRec) : State :=
  { s with health := { s.health with slices := s.health.slices.upd (sliceKey slice unit) f } }

/-- Is a checker or hub instance in a slice (R408)? Checkers have slices 3 and 4, hub instances 5 and 6. -/
def State.inSlice (s : State) (utype unit : Nat) : Bool :=
  [3, 4, 5, 6].any fun sl => sliceUtype sl == utype && (s.sliceRec sl unit).running

/-- Does a checker or hub instance serve: it is neither FAILED nor in a slice (R408, Table 12.5)? -/
def State.serves (s : State) (utype unit : Nat) : Bool := (s.unitRec utype unit).state != .failed && !s.inSlice utype unit

/-- The checker that a die's results go to: its own, or the next one over the ring that serves (R408, Table 12.5). -/
def State.checkerOf (s : State) (d : Nat) : Nat := ([d, (d + 1) % 4, (d + 2) % 4, (d + 3) % 4].find? (s.serves 2)).getD d

/-- The hub instances of a kind, 0 for encoders and 4 for decoders, that carry its load (R408, R410). -/
def State.hubServing (s : State) (kind : Nat) : List Nat := ((List.range 4).map (· + kind)).filter (s.serves 6)

/-- A unit that is no stone is cleared for its slice: a checker zeroes its input copies and accumulators (R408). The block buffers of a hub
instance hold nothing between two commands. -/
def State.clearUnit (s : State) (utype unit : Nat) : State := if utype = 2 then s.modChecker unit fun _ => {} else s

/-- Mark a unit for a slice: a stone drains (R159), pre-empted at once where `now` is set (R407); a checker or hub
instance begins its slice. -/
def State.markSlice (s : State) (slice unit : Nat) (now : Bool) : State :=
  let begun := sliceUtype slice != 1
  let go := begun && s.clock.target.isNone
  let s := s.modSlice slice unit fun r => { r with
    due := match r.due with | some d => some d | none => some s.now
    marked := true
    running := r.running || go
    startAt := s.now
    requested := r.requested || now }
  if begun then (if go then s.clearUnit (sliceUtype slice) unit else s)
  else
    let s := s.modStone unit fun st => { st with
      slices := sortNat (slice :: st.slices.filter (· ≠ slice))
      preempt := st.preempt || (now && st.running.isSome) }
    match (s.stoneAt unit).state with
    | .online => s.drainStone unit
    | .offline => (s.modStone unit fun st => { st with toOffline := true }).beginClear unit
    | .failed => s.beginClear unit
    | .clearing => s.moveQueue unit
    | _ => s

/-- One observation of a unit (Table 12.5). `cause` is a row of Table 12.2, 16 for a digest, 17 for a slice. DEDUCED, log entry 36. -/
def State.observe (s : State) (utype unit cause : Nat) : State :=
  let r := s.unitRec utype unit
  let recent := (s.now :: r.obs).filter fun t => s.now < t + 30 * day
  let st : UnitState := match r.state with
    | .clear => if 3 ≤ recent.length then .failed else .observing
    | .observing => .observing
    | .suspect | .failed => .failed
  let s := s.setUnit utype unit fun r => { r with obs := s.now :: r.obs }
  let s := s.modResult fun x => { x with obsCount := bump 32 x.obsCount 1 }
  let s := s.ledger (LedgerRec.of 3 utype unit 31 (cause + 256 * st.code))
  let s := s.unitTo utype unit st
  if r.state = .clear ∧ st = .observing then
    (if utype = 1 then s.markSlice 2 unit true else if utype = 2 then s.markSlice 4 unit true else s.markSlice (if unit < 4 then 5 else 6) unit true)
  else s

/-- SUSPECT_TIMEOUT: 24 hours without an observation (Table 12.5). DEDUCED, log entry 77. DESIGN CHOICE, log entry 4. -/
def execSuspectTimeout (t utype unit : Nat) (s : State) : Res :=
  let s := s.at_ t
  let r := s.unitRec utype unit
  if s.up ∧ r.state = .suspect ∧ max r.since (r.obs.headD 0) + day ≤ s.now then .next (s.unitTo utype unit .clear) else .next s

/-! ### The end of a piece -/

def State.modPiece (s : State) (b idx : Nat) (f : PieceRec → PieceRec) : State :=
  s.modOp b fun o => { o with pieces := o.pieces.map fun p => if p.idx = idx then f p else p }

/-- The error that the pieces of an operation met: code 7 before 6, 13 and 2 (R179, R197). DEDUCED, log entry 26. -/
def GateOp.errorOf (o : GateOp) : Nat × Nat :=
  let outs := o.pieces.map PieceRec.out
  if outs.any PieceOut.iso then (7, 0)
  else if outs.any PieceOut.poison then (6, 0)
  else if outs.any fun x => x.abort == 13 then (13, 0)
  else match outs.findSome? PieceOut.bad with
    | some i => (2, i)
    | none => (0, 0)

/-- The last piece has ended: the slot is CHECKING, and an early forward goes out (R291). -/
def State.lastEnded (s : State) (b : Nat) : State :=
  let s := s.modSlot b fun x => { x with state := .checking }
  match (s.slot b).op with
  | none => s
  | some o =>
    if o.early ∧ o.errorOf.1 = 0 then
      let r := s.assemble (bufLd b) o (o.pieces.map PieceRec.out)
      let f := s.startForward b true r.1
      f.2.modOp b fun o => { o with fwdid := f.1 }
    else s

/-- A piece's run ends: its outputs go to combining and the checker (R154, R284). -/
def State.pieceEnded (s : State) (p : Piece) (stone : Nat) (out : PieceOut) : State :=
  let s := s.modOp p.buf fun o => { o with inputs := o.inputs ++ out.prov.filter fun x => !o.inputs.contains x }
  let s := s.modSlot p.buf fun x => { x with prec := x.prec || out.prec }
  let s := if out.poison then s.modStnLd p.ld fun l => { l with poisoned := bump 16 l.poisoned 1 } else s
  let c := s.checkerOf (stoneDie stone)
  let s := s.modChecker c fun x => { x with accs := (s.stoneAt stone).accs }
  let g := s.inputDigest p
  let s := s.dropCopies p
  if p.run = 0 then
    let s := s.modPiece p.buf p.idx fun r => { r with stage := .ended, out := out, stones := [stone], checkers := [c], digest := g }
    match (s.slot p.buf).op with
    | some o => if (s.slot p.buf).state = .running ∧ o.pieces.all (fun r => r.stage != .first) then s.lastEnded p.buf else s
    | none => s
  else s.modPiece p.buf p.idx fun r => { r with out2 := out, stones := r.stones ++ [stone], checkers := r.checkers ++ [c], digest2 := g }

/-! ### Release -/

/-- Release an operation whose checks and replays are resolved and whose provisional inputs are confirmed. -/
def State.tryRelease (s : State) (b : Nat) : State :=
  match (s.slot b).op with
  | none => s
  | some o =>
    if (s.slot b).state = .checking ∧ o.pieces ≠ [] ∧ o.pieces.all (fun p => p.stage == .resolved) ∧ s.inputsOk o then
      let r := s.assemble (bufLd b) o (o.pieces.map PieceRec.out)
      s.finish b .ready 0 r.2.1 r.1 r.2.2
    else s

/-- Does a piece's class or declaration have it checked by replay (Table 12.1, R288)? -/
def State.replayed (s : State) (o : GateOp) : Bool := o.cls == 3 || (o.cls == 4 && hdrCheck (s.hdr o.handle) == 0)

/-- Does a piece's class or declaration have a check (Table 12.1)? -/
def State.checked (s : State) (o : GateOp) : Bool :=
  o.cls ≤ 2 || (o.cls == 4 && (hdrCheck (s.hdr o.handle) == 1 || hdrCheck (s.hdr o.handle) == 2))

/-- Was a first run on a SUSPECT stone drawn for replay, 1 in 16 (Table 12.5)? -/
def State.suspectDraw (s : State) (p : PieceRec) : Bool :=
  (p.stones.any fun k => (s.unitRec 1 k).state == .suspect) && Config.sampleDraw (s.freeCtr + p.idx) % 16 == 0

/-- Run a piece again, on another stone, and on another die while one is eligible (R288). -/
def State.runAgain (s : State) (b : Nat) (o : GateOp) (r : PieceRec) (run : Nat) : State :=
  let p : Piece := { s.newPiece b r.idx o with run := run, ahead := true, notStones := r.stones, notDies := r.stones.map stoneDie }
  let s := { s with stone := { s.stone with nextOrder := s.stone.nextOrder + 1 } }
  let s := s.modRiLd (bufLd b) fun l => { l with replays := bump 32 l.replays 1 }
  let s := s.modSlot b fun x => { x with replayed := true }
  (s.modPiece b r.idx fun x => { x with stage := if run = 1 then .replaying else .third }).placePiece p

/-- The first check failure or mismatch of an operation retracts its early forward (R292). -/
def State.retractCheck (s : State) (b : Nat) : State :=
  match (s.slot b).op with
  | some o =>
    match o.fwdid with
    | some id => (s.settleFwd id 2 1).modOp b fun o => { o with fwdid := none }
    | none => s
  | none => s

/-- One check failure: CHECK_FAIL with the gate buffer, the piece and the row of Table 12.1. -/
def State.checkFail (s : State) (b : Nat) (o : GateOp) (r : PieceRec) : State :=
  let s := s.slotRecord b 1 1 (r.stones.headD 0) (b + r.idx * 2 ^ 16 + o.cls * 2 ^ 48)
  let s := s.modRiLd (bufLd b) fun l => { l with fails := bump 32 l.fails 1 }
  (s.modPiece b r.idx fun x => { x with checkFailed := true }).retractCheck b

/-- The query heads of a piece of class 0. -/
def pieceHeads (q : KvSeq) (a : Attn) (i : Nat) : List Nat := (List.range q.g).map (· + i / a.chunks * q.g)

/-- Do the figures that the checker forms itself compare well for a piece: the combining of its heads in class 0, and a tenant's pairs
(R286, Table 12.1)? -/
def State.figuresOk (s : State) (ld : Nat) (o : GateOp) (p : PieceRec) : Bool :=
  match o.cls, s.seqOf ld o.obj with
  | 0, some q =>
    (match s.attnOf q o.opcode o.params with
    | some a => (pieceHeads q a p.idx).all fun j => combineOk q.d (headParts q a (o.pieces.map PieceRec.out) j)
    | none => true)
  | 4, _ => p.out.pairsOk
  | _, _ => true

/-- RESULT_CHECK_COMPLETE: the checks of an operation's pieces end; `failed` are the pieces whose check failed by a fault of the
machine, beside those whose figures do not compare (R175, R286, R288). -/
def execResultCheckComplete (t ld buf : Nat) (failed : List Nat) (s : State) : Res :=
  let s := s.at_ t
  let b := 128 * ld + buf
  match (s.slot b).op with
  | none => .next s
  | some o =>
    if s.up ∧ buf < 128 ∧ (s.slot b).state = .checking ∧ o.pieces.all fun p => p.stage == .ended then
      let e := o.errorOf
      if e.1 ≠ 0 then .next (s.finish b .failed e.1 e.2 [] false)
      else
        let bad := fun (p : PieceRec) => s.checked o && (failed.contains p.idx || !s.figuresOk ld o p)
        let again := fun (p : PieceRec) => bad p || s.replayed o || p.sampled || s.suspectDraw p
        let s1 := (o.pieces.filter bad).foldl (fun s p => s.checkFail b o p) s
        let s2 := { s1 with freeCtr := s1.freeCtr + o.pieces.length }
        let s3 := o.pieces.foldl (fun s p => if again p then s.runAgain b o p 1 else s.modPiece b p.idx fun x => { x with stage := .resolved }) s2
        .next (s3.tryRelease b)
    else .next s

/-! ### Replays (Table 12.2) -/

/-- A replay that differs: counted, recorded with the stones of the runs and the row, an early forward retracted. -/
def State.mismatch (s : State) (b : Nat) (r : PieceRec) (row : Nat) : State :=
  let s := s.modRiLd (bufLd b) fun l => { l with mismatch := bump 32 l.mismatch 1 }
  let d := r.stones.zipIdx.foldl (fun a k => a + k.1 * 2 ^ (8 * k.2)) 0
  (s.slotRecord b 2 1 (r.stones.headD 0) (d + row * 2 ^ 24)).retractCheck b

/-- Resolve a piece: `second` releases the replay's or third run's output. -/
def State.resolve (s : State) (b idx : Nat) (second : Bool) : State :=
  (s.modPiece b idx fun x => { x with stage := .resolved, out := if second then x.out2 else x.out }).tryRelease b

/-- Nothing of a piece can be released: code 10 (R175). DEDUCED, log entry 37. -/
def State.unresolved (s : State) (b : Nat) : State := s.finish b .failed 10 0 [] false

def State.observeStones (s : State) (ks : List Nat) (row : Nat) : State := ks.foldl (fun s k => s.observe 1 k row) s

/-- Did two runs of a piece see different data: the input digests formed from the lines delivered differ, or those of the lines that
the command stands for do (R287)? DEDUCED, log entry 37. -/
def PieceRec.changed (p : PieceRec) (r : ReplayRes) : Bool := r.digestDiffers || p.digest != p.digest2

/-- Runs whose input digests differ are not compared: the first that passed its check is released, and counted in INPUTCHG (R287). -/
def State.inputChanged (s : State) (b : Nat) (p : PieceRec) (r : ReplayRes) : State :=
  let s := s.modRiLd (bufLd b) fun l => { l with inputChg := bump 32 l.inputChg 1 }
  if ¬ p.checkFailed then s.resolve b p.idx false
  else if r.passes then s.resolve b p.idx true
  else s.unresolved b

/-- The outcome of a second run. DEDUCED, log entry 37. -/
def State.replayOutcome (s : State) (b : Nat) (o : GateOp) (p : PieceRec) (r : ReplayRes) : State :=
  if p.changed r then s.inputChanged b p r
  else if p.checkFailed then
    if ¬ r.identical ∧ r.passes then ((s.mismatch b p 2).observeStones (p.stones.take 1) 2).resolve b p.idx true
    else if r.identical ∧ r.passes then
      let c0 := p.checkers.headD 0
      let s := if p.checkers.getD 1 c0 ≠ c0 then s.observe 2 c0 3 else s
      s.resolve b p.idx true
    else if r.identical then s.unresolved b
    else (s.mismatch b p 5).runAgain b o p 2
  else if r.identical then s.resolve b p.idx false
  else (s.mismatch b p 7).runAgain b o p 2

/-- The outcome of a third run. DEDUCED, log entry 37. -/
def State.thirdOutcome (s : State) (b : Nat) (p : PieceRec) (r : ReplayRes) : State :=
  if p.changed r then s.inputChanged b p r
  else if p.checkFailed then
    if r.passes then (s.observeStones (p.stones.take 2) 5).resolve b p.idx true
    else if r.third = 2 then (s.observeStones p.stones 8).unresolved b
    else s.unresolved b
  else if r.third = 0 then (s.observeStones [p.stones.getD 1 0] 7).resolve b p.idx false
  else if r.third = 1 then (s.observeStones (p.stones.take 1) 7).resolve b p.idx true
  else (s.observeStones p.stones 8).unresolved b

/-- REPLAY_COMPLETE: a replayed piece has ended and is resolved by Table 12.2. -/
def execReplayComplete (t ld buf piece : Nat) (r : ReplayRes) (s : State) : Res :=
  let s := s.at_ t
  let b := 128 * ld + buf
  match (s.slot b).op with
  | none => .next s
  | some o =>
    match o.pieces.find? fun p => p.idx = piece with
    | none => .next s
    | some p =>
      if ¬ s.up ∨ 128 ≤ buf then .next s
      else if p.stage = .replaying ∧ p.stones.length = 2 then .next (s.replayOutcome b o p r)
      else if p.stage = .third ∧ p.stones.length = 3 then .next (s.thirdOutcome b p r)
      else .next s

end Sys2Proof.Machine
end

