-- ==== Sys2Proof/Machine/Stones.lean ====
section
/-! DEFINITION. Stones and dressings (chapter 06): pieces, split-phase reads, checkpoints, clearing, the dressing
library and its commands. -/
namespace Sys2Proof.Machine

/-! ### Pieces (R156 to R160) -/

/-- SCRATCH_KIB of the pieces running on a die. -/
def State.scratchUsed (s : State) (d : Nat) : Nat :=
  ((dieStones d).filterMap fun k => (s.stoneAt k).running.map fun p => hdrScratch (s.hdr p.handle)).foldl (· + ·) 0

def State.runningOf (s : State) (b : Nat) : Nat :=
  (allStones.filter fun k => match (s.stoneAt k).running with | some p => p.buf == b | none => false).length

/-- May a piece start (Table 6.13): scratch of the die, and STONES_MAX of its dressing. -/
def State.mayStart (s : State) (k : Nat) (p : Piece) : Bool :=
  s.scratchUsed (stoneDie k) + hdrScratch (s.hdr p.handle) ≤ 4096
    && decide (s.runningOf p.buf < max 1 (hdrStonesMax (s.hdr p.handle)))

/-- The checkpoint-area entry from which a piece resumes (R158). -/
def State.ckptOf (s : State) (p : Piece) : Option Ckpt :=
  if p.saved then s.stone.ckpts.find? fun c => c.buf = p.buf ∧ c.idx = p.idx ∧ c.run = p.run else none

/-- The stone takes a piece up: its dressing is loaded, its scratch allotment zeroed, and a saved state restored, whose area entry is
zeroed (R156, R158, R160). -/
def State.takePiece (s : State) (stone : Nat) (p : Piece) (load : Nat) : State :=
  let back := s.ckptOf p
  let cost := load + (if back.isSome then 1024 else 0)
  let s := (if back.isSome then s else s.dropCopies p).chargeCycles p.ld cost
  let s := s.modStone stone fun x => { x with
    queue := x.queue.filter (· ≠ p)
    running := some { p with saved := false }
    started := s.cyc
    lastCkpt := s.cyc
    loading := load
    stall := 0
    taking := none
    party := some (s.party p.ld)
    handle := some p.handle
    loaded := some p.handle
    clean := false
    contents := some ((back.map Ckpt.token).getD s.freeCtr)
    accs := Config.stoneAccs s.freeCtr
    buckets := Config.stoneBuckets s.freeCtr
    scratch := none
    took := []
    inputs := [] }
  { s with
    freeCtr := s.freeCtr + 1
    stone := { s.stone with ckpts := s.stone.ckpts.filter fun c => some c ≠ back } }

/-- PIECE_START: clear for another party, load the dressing, start the queued piece of highest priority (R156). DEDUCED, log entry 90. -/
def execPieceStart (t stone : Nat) (s : State) : Res :=
  let s := s.at_ t
  let st := s.stoneAt stone
  if ¬ s.up ∨ 192 ≤ stone ∨ st.state ≠ .online ∨ st.running.isSome ∨ s.dieStopped (stoneDie stone) then .next s
  else match s.nextPiece st.queue with
    | none => .next s
    | some p =>
      if ¬ st.clean ∧ st.party ≠ some (s.party p.ld) then .next ((s.chargeCycles p.ld 4160).beginClear stone)
      else if ¬ s.mayStart stone p then .next s
      else
        let load := if st.loaded = some p.handle then 0 else hdrCode (s.hdr p.handle) / 64
        let s := s.takePiece stone p load
        let op := (s.slot p.buf).op
        let s := s.serveAs p.inG p.ld 3 p.wclass load (match op with | some o => s.now - o.accepted | none => 0)
          (match op with | some o => o.wheel | none => none)
        let s := s.modSlot p.buf fun x => { x with state := if x.state = .queued then .running else x.state }
        .next s.placeWaiting

/-- Charge a stone's running time to its piece's LD. DESIGN CHOICE, log entry 18. -/
def State.chargeRun (s : State) (k : Nat) (p : Piece) : State :=
  let n := s.cycSince (s.stoneAt k).started
  (s.chargeCycles p.ld n).serveAs p.inG p.ld 3 p.wclass n 0 none

/-- PIECE_END: the piece's outputs, from its inputs as they are now (R154). DESIGN CHOICE, log entry 21. -/
def execPieceEnd (t stone : Nat) (s : State) : Res :=
  let s := s.at_ t
  match (s.stoneAt stone).running with
  | none => .next s
  | some p =>
    if ¬ s.up then .next s
    else match (s.slot p.buf).op with
      | none => .next ((s.chargeRun stone p).stoneIdle stone)
      | some o =>
        let out := s.evalPiece p.ld o p.idx (s.stoneAt stone).inputs
        let out' : PieceOut := { out with poison := out.poison || p.poison, iso := out.iso || p.iso }
        .next (((s.chargeRun stone p).stoneIdle stone).pieceEnded p stone out')

/-! ### Split-phase reads (R141 to R145) -/

def State.tagOf (s : State) (k tag : Nat) : Option ReadTag := (s.stoneAt k).tags.find? fun x => x.tag = tag

/-- Hopper slots in use. -/
def Stone.slotsUsed (st : Stone) : Nat := (st.tags.map ReadTag.count).foldl (· + ·) 0

/-- The wheel that a piece's reads are attributed to: the go line's, else the one whose watch range holds the DPA (R51). -/
def State.pieceWheel (s : State) (p : Piece) (dpa : Nat) : Option Nat :=
  match (s.slot p.buf).op with
  | some o => o.wheel.or (s.wheelFor p.ld dpa)
  | none => s.wheelFor p.ld dpa

/-- The access of a piece's line: an operation accepted before its extent left ACTIVE is served (R33, R45). -/
def State.pieceAccess (s : State) (p : Piece) (dpa : Nat) : Access :=
  match s.access p.ld dpa, s.extAt p.ld dpa, (s.slot p.buf).op with
  | .leaving, some e, some o => if o.order < e.leftOp then .served e else .leaving
  | a, _, _ => a

/-- Does a request cross an extent's boundary, or name a line outside the LD's DPA_SIZE (R141)? -/
def State.crosses (s : State) (p : Piece) (at_ count : Nat) : Bool :=
  decide ((s.ext.parts.get p.ld).dpaSize * granule < at_ + 64 * count)
    || (List.range count).any fun i => (s.extAt p.ld (at_ + 64 * i)).map Extent.eid != (s.extAt p.ld at_).map Extent.eid

/-- A line of a request that crosses: one that fails the extent-state check is counted in EXT_DROP (R141, R143). -/
def State.crossLine (s : State) (p : Piece) (dpa : Nat) : State :=
  match s.pieceAccess p dpa with
  | .nowhere => s.drop p.ld dpa false true
  | .leaving => s.drop p.ld dpa false false
  | .served _ => s

/-- A piece's first input sack, where none is known yet: the first sack it reads (R155). -/
def State.noteInput (s : State) (p : Piece) (dpa : Nat) : Piece :=
  { p with input := p.input.or ((s.extAt p.ld dpa).map fun e => (e.eid, s.sackOf e dpa)) }

/-- Put a delivered line in its slot; the checker that serves the die receives a copy, which carries the line's number in the LD's
address space (R284, R287). -/
def State.putLine (s : State) (k tag : Nat) (l : HopLine) : State :=
  let at_ := match s.tagOf k tag with | some r => r.dpa / 64 | none => 0
  let s := match (s.stoneAt k).running with
    | some p => s.modChecker (s.checkerOf (stoneDie k)) fun c => { c with lines := c.lines ++ [(p.buf, p.idx, { l with line := at_ + l.line })] }
    | none => s
  s.modStone k fun st => { st with tags := st.tags.map fun x => if x.tag = tag then { x with lines := x.lines ++ [l] } else x }

/-- A line delivered as POISON. -/
def State.putPoison (s : State) (k tag line : Nat) : State := s.putLine k tag { line := line, status := 3 }

/-- STONE_READ_REQUEST: issue a tagged read, or wait (R141). -/
def execStoneReadRequest (t stone tag dpa count : Nat) (s : State) : Res :=
  let s := s.at_ t
  let st := s.stoneAt stone
  match st.running with
  | none => .next s
  | some p =>
    let at_ := dpa / 64 * 64
    if ¬ s.up ∨ 512 ≤ tag ∨ count = 0 ∨ 16 < count ∨ (s.tagOf stone tag).isSome ∨ 4096 < st.slotsUsed + count then .next s
    else
      let bad := s.crosses p at_ count
      let s := s.settleLeaving
      let s := if bad then (List.range count).foldl (fun s i => s.crossLine p (at_ + 64 * i)) s else s
      let s := match s.pieceWheel p at_ with
        | some w => s.noteRead w (at_ / 65536) (some (stoneDie stone))
        | none => s
      let s := s.modStone stone fun x => { x with
        running := some (s.noteInput p at_)
        tags := x.tags ++ [{ tag := tag, dpa := at_, count := count, lines := [] }] }
      .next (if bad then (List.range count).foldl (fun s i => s.putPoison stone tag i) s else s)

/-- The status of a line served with data (Table 6.5). -/
def State.lineStatus (s : State) (e : Extent) (blk : Nat) : Nat :=
  let r := (s.curBlk blk).side
  if (s.sack (blk / 128)).mst = .unmapped ∨ r.kind = kZero then 2
  else if Prof.lossy e.profile ∧ r.kind = kCoded then 0 else 1

/-- The indices of one line of a coded block, as packed (R105): an eighth of its payload. -/
def indexSlice (v : StoredBlk) (line : Nat) : Bytes :=
  let w := v.bytes.length / 8
  (v.bytes.drop (w * line)).take w

/-- A line served with data, as the input decoder delivers it (R142, Table 6.5). -/
def State.hopLine (s : State) (e : Extent) (blk dpa line : Nat) (d : Bytes) : HopLine :=
  let status := s.lineStatus e blk
  { line := line, status := status, gen := (s.curBlk blk).side.gen, tset := if Prof.lossy e.profile then Prof.tset e.profile else 0,
    data := match status with | 0 => indexSlice (s.curBlk blk) (lineOf dpa) | 1 => lineBytes d (lineOf dpa) | _ => [] }

/-- Charge a line read by a piece to its operation's stream: that of its sequence, or of the first query that the piece walks (R207,
R208). DEDUCED, log entry 30. -/
def State.chargeOp (s : State) (k : Nat) : State :=
  match (s.stoneAt k).running with
  | none => s
  | some p =>
    match (s.slot p.buf).op with
    | none => s
    | some o =>
      if o.cls = 0 then s.useStream p.ld (kvStream p.ld o.obj) p.wclass 64
      else if o.cls = 1 then s.useStream p.ld (walkStream p.buf (p.idx * leAt o.params 2 2)) p.wclass 64
      else s

/-- Deliver a line served with data. -/
def State.deliver (s : State) (k tag line : Nat) (e : Extent) (dpa : Nat) (d : Bytes) : State :=
  (s.chargeOp k).putLine k tag (s.hopLine e (s.blkOf e dpa) dpa line d)

/-- The staged T0 copy that serves a block on a die (R144). -/
def State.t0Serves (s : State) (sack blk d : Nat) : Bool :=
  s.store.t0.any fun c => c.sack == sack && c.die == d && !c.dropped.getLsbD (blk % 128)

/-- The die that R74 rule 2 takes for a piece's read: that of the chunk for a sequence's operation (R185), else the die that the
dispatcher chose. -/
def State.pieceReadDie (s : State) (p : Piece) (stone : Nat) : Nat :=
  match (s.slot p.buf).op with
  | none => stoneDie stone
  | some o =>
    match o.cls, s.seqOf p.ld o.obj with
    | 0, some q =>
      (match s.attnOf q o.opcode o.params with
      | some a => seqDie (a.lo / 2048 + p.idx % a.chunks) q.id
      | none => stoneDie stone)
    | _, _ => stoneDie stone

/-- A line of a piece's request in an extent that serves it: isolation, the merge buffer, T0, then the sack (R142 to R144, R243). -/
def State.hopperServe (s : State) (p : Piece) (stone tag line upset : Nat) (e : Extent) (dpa : Nat) : State :=
  let blk := s.blkOf e dpa
  let k := s.sack (blk / 128)
  let wheel := s.pieceWheel p dpa
  let survey := s.surveyStall wheel (dpa / 65536)
  if Prof.gate e.profile then s.putPoison stone tag line
  else if k.mst ≠ .unmapped ∧ ¬ s.mayReach p.ld e k then
    let s := if p.iso then s else s.isolation p.ld dpa (blk / 128)
    (s.modStone stone fun st => { st with running := some { p with iso := true } }).putPoison stone tag line
  else if s.mergesOf blk ≠ [] then s.passBlk blk
  else match (if s.t0Serves (blk / 128) blk (stoneDie stone) ∧ ¬ s.isPoison blk then s.blkData e blk else none) with
    | some d => s.deliver stone tag line e dpa d
    | none =>
      let die := some (s.pieceReadDie p stone)
      match s.look p.ld e dpa upset 6 die p.wclass with
      | (.data d, s) => s.deliver stone tag line e dpa d
      | (.through d, s) => (s.chargeStall p.ld (blk / 128) survey 0).deliver stone tag line e dpa d
      | (.poison, s) => s.putPoison stone tag line
      | (.isolated, s) => s.putPoison stone tag line
      | (.held why, s) =>
        if s.store.heldReads.any fun x => x.who == .stone stone tag line then s
        else s.holdRead p.ld dpa e (.stone stone tag line) why survey die p.wclass

/-- HOPPER_LINE_DELIVER: one line of a request, checked and served from its newest copy (R142 to R144). A block with a
merge-buffer entry has it passed, and the line waits for the encoded block (R243). DEDUCED, log entry 35. -/
def execHopperLineDeliver (t stone tag line upset : Nat) (s : State) : Res :=
  let s := s.at_ t
  match (s.stoneAt stone).running, s.tagOf stone tag with
  | some p, some r =>
    if ¬ s.up ∨ r.count ≤ line ∨ r.lines.any (fun x => x.line == line) then .next s
    else
      let dpa := r.dpa + 64 * line
      let s := s.settleLeaving
      match s.pieceAccess p dpa with
      | .nowhere => .next ((s.drop p.ld dpa false true).putPoison stone tag line)
      | .leaving => .next ((s.drop p.ld dpa false false).putPoison stone tag line)
      | .served e => .next (s.hopperServe p stone tag line upset e dpa)
  | _, _ => .next s

/-- The wait for a take ends: its cycles are no issuing cycles (R157). -/
def Stone.endStall (st : Stone) (cyc : Nat) : Stone :=
  { st with
    stall := st.stall + (match st.taking with | some x => cyc - x.2 | none => 0)
    taking := none }

/-- STONE_TAKE: a take of a tag returns its slots in DPA order once all its lines have been delivered; before that the stone waits
(R145, R157). -/
def execStoneTake (t stone tag : Nat) (s : State) : Res :=
  let s := s.at_ t
  match (s.stoneAt stone).running, s.tagOf stone tag with
  | some p, some r =>
    if ¬ s.up then .next s
    else if r.lines.length = r.count then
      let slots := r.lines.foldr insertLine []
      let bad := slots.any fun x => x.status == 3
      let c := s.cyc
      .next (s.modStone stone fun st => { st.endStall c with
        tags := st.tags.filter fun x => x.tag ≠ tag
        took := slots
        inputs := st.inputs ++ slots.map HopLine.data
        running := some { p with poison := p.poison || bad } })
    else if (s.stoneAt stone).taking.isSome then .next s
    else
      let c := s.cyc
      .next (s.modStone stone fun st => { st with taking := some (tag, c) })
  | _, _ => .next s

/-! ### Aborts (R137, R151, R157) -/

/-- Record a fault in STN_WDOG and STN_PIECE.FAULT. DEDUCED, log entry 36. -/
def State.recordFault (s : State) (k : Nat) (p : Piece) (limit : Bool) : State :=
  let s := s.modStnLd p.ld fun l => { l with fault := bump 16 l.fault 1 }
  { s with stone := { s.stone with wdog :=
    { stone := k, handle := p.handle, limit := limit, valid := true, count := bump 32 s.stone.wdog.count 1 } } }

/-- Three watchdog faults of a dressing within one second disable it (R157). -/
def State.countWatchdog (s : State) (handle : Nat) : State :=
  let fs := (handle, s.now) :: s.stone.faults
  let near := (fs.filter fun f => f.1 = handle ∧ s.now < f.2 + sec).length
  let s := { s with stone := { s.stone with faults := fs.take 1024 } }
  if near < 3 then s
  else if handle < 32 then { s with stone := { s.stone with builtinOff := handle :: s.stone.builtinOff.filter (· ≠ handle) } }
  else { s with stone := { s.stone with lib := s.stone.lib.map fun d => if d.1 = handle then (d.1, { d.2 with disabled := true }) else d } }

/-- The cycles that a stone has issued since the last checkpoint, those of a wait for a take left out (R157). DEDUCED, log entry 36. -/
def State.issued (s : State) (st : Stone) : Nat := (s.cyc - st.lastCkpt - (st.endStall s.cyc).stall) / 10

/-- CHECKPOINT_WATCHDOG: the piece is aborted and run again from its start on another stone (R157). DEDUCED, log entry 36. -/
def execCheckpointWatchdog (t stone : Nat) (s : State) : Res :=
  let s := s.at_ t
  let st := s.stoneAt stone
  match st.running with
  | none => .next s
  | some p =>
    if s.up ∧ 2 * hdrCkptUs (s.hdr p.handle) * 3600 ≤ s.issued st then
      let s := (((s.chargeRun stone p).recordFault stone p false).countWatchdog p.handle).stoneIdle stone
      let s := s.modSlot p.buf fun x => { x with replayed := true }
      .next (s.placePiece { p with poison := false, iso := false, saved := false, notStones := stone :: p.notStones })
    else .next s

/-- A piece is aborted with its results poisoned. DEDUCED, log entry 36. -/
def State.abortPiece (s : State) (k : Nat) (p : Piece) (out : PieceOut) : State :=
  ((s.chargeRun k p).stoneIdle k).pieceEnded p k out

/-- The most products that a stone can have added to an accumulator since it was last cleared: 1,024 in each cycle (R131, R137). -/
def State.productBound (s : State) (st : Stone) : Nat := 1024 * s.cycSince st.cleared

/-- ACCUMULATOR_LIMIT: 2^47 products; the piece is aborted, counted as a watchdog fault, and its operation fails with code 13 (R137).
DEDUCED, log entry 36. -/
def execAccumulatorLimit (t stone : Nat) (s : State) : Res :=
  let s := s.at_ t
  match (s.stoneAt stone).running with
  | none => .next s
  | some p =>
    if s.up ∧ 2 ^ 47 ≤ s.productBound (s.stoneAt stone) then
      .next (((s.recordFault stone p true).countWatchdog p.handle).abortPiece stone p { abort := 13 })
    else .next s

/-- The unit that a trap names: shared SRAM of the die while the piece's code load runs, else the stone (Table 11.4). DEDUCED, log
entry 36. -/
def State.trapUnit (s : State) (stone : Nat) : Nat × Nat :=
  if s.cycSince (s.stoneAt stone).started < (s.stoneAt stone).loading then (2, stoneDie stone) else (1, stone)

/-- CODE_FETCH_TRAP: an uncorrectable word of the code window, or of the library copy that a code load reads; the piece is aborted, and
the copy reloaded from another die or the firmware image within the command (R151, R275). -/
def execCodeFetchTrap (t stone : Nat) (s : State) : Res :=
  let s := s.at_ t
  match (s.stoneAt stone).running with
  | none => .next s
  | some p =>
    if s.up then
      .next (((s.abortPiece stone p { poison := true }).modStone stone fun st => { st with loaded := none }).ueLog
        (s.trapUnit stone).1 (s.trapUnit stone).2 0 2 p.ld 0)
    else .next s

/-! ### Pre-emption and clearing (R158, R160) -/

/-- KiB in use in a die's checkpoint area (R128). -/
def State.ckptUsed (s : State) (d : Nat) : Nat := ((s.stone.ckpts.filter fun c => c.die = d).map Ckpt.kib).foldl (· + ·) 0

/-- Save a piece's state to its die's checkpoint area, if it declares any and 4 MiB hold it (R128, R158). Answers whether it did. -/
def State.saveCkpt (s : State) (stone : Nat) (p : Piece) : Bool × State :=
  let kib := hdrCkptKib (s.hdr p.handle)
  let d := stoneDie stone
  if kib = 0 ∨ 4096 < s.ckptUsed d + kib then (false, s)
  else
    let c : Ckpt := { die := d, buf := p.buf, idx := p.idx, run := p.run, kib := kib, token := s.freeCtr }
    (true, { s with freeCtr := s.freeCtr + 1, stone := { s.stone with ckpts := s.stone.ckpts ++ [c] } })

/-- PREEMPT_CHECKPOINT: a marked piece saves its state and is placed again, ahead of its class; outstanding slots are discarded without
a take (R158, Table 6.12). DEDUCED, log entry 36. -/
def execPreemptCheckpoint (t stone : Nat) (s : State) : Res :=
  let s := s.at_ t
  let st := s.stoneAt stone
  match st.running with
  | none => .next s
  | some p =>
    if s.up ∧ st.preempt then
      let s := s.modStnLd p.ld fun l => { l with preempt := bump 32 l.preempt 1 }
      let s := if st.slices = [] then s else { s with health := { s.health with preempt := bump 16 s.health.preempt 1 } }
      let s := (s.chargeRun stone p).stoneIdle stone
      let (saved, s) := s.saveCkpt stone p
      .next (s.placePiece { p with ahead := true, saved := saved, poison := p.poison && saved })
    else .next s

/-- STONE_CLEAR_COMPLETE: after 4,160 cycles the stone is clear (R160) and goes to its slice, FAILED, OFFLINE or ONLINE. No
slice begins during a change of the stone clock (R400). -/
def execStoneClearComplete (t stone : Nat) (s : State) : Res :=
  let s := s.at_ t
  let st := s.stoneAt stone
  if st.state = .clearing ∧ 4160 ≤ s.cycSince st.clearAt ∧ (st.slices = [] ∨ s.clock.target = none) then
    let next := st.afterClear
    let s := s.modStone stone fun x => { x.zeroed with
      state := next, cleared := s.cyc, toOffline := x.toOffline && next == .test }
    let s := match next, st.slices with
      | .test, sl :: _ => s.modSlice sl stone fun r => { r with running := true, startAt := s.now }
      | _, _ => s
    .next s.placeWaiting.caps
  else .next s

/-- STONE_FAILURE: the stone's pieces are run again elsewhere with nothing partial released (R25). -/
def execStoneFailure (t stone : Nat) (s : State) : Res :=
  let s := s.at_ t
  if s.up ∧ stone < 192 then .next ((s.stoneFails stone).caps.noteVitals s) else .next s

/-! ### Dressings (R146 to R151) -/

/-- Pieces queued, running or waiting of a handle. -/
def State.piecesOf (s : State) (h : Nat) : Nat :=
  (allStones.map fun k => ((s.stoneAt k).queue.filter fun p => p.handle = h).length
      + (match (s.stoneAt k).running with | some p => b2n (p.handle == h) | none => 0)).foldl (· + ·) 0
    + (s.stone.waiting.filter fun p => p.handle = h).length

/-- DRESSING_UNLOAD_DRAINED: an unloaded dressing leaves the library (R150). -/
def execDressingUnloadDrained (t handle : Nat) (s : State) : Res :=
  let s := s.at_ t
  match s.dressing handle with
  | some d =>
    if d.stopped ∧ s.piecesOf handle = 0 then
      .next { s with stone := { s.stone with lib := s.stone.lib.filter fun x => x.1 ≠ handle } }
    else .next s
  | none => .next s

/-- The number of resident dressings, built-in ones included, and the library bytes in use. -/
def State.libCount (s : State) : Nat := min Config.builtinCount 32 + s.stone.lib.length
def State.libBytes (s : State) : Nat :=
  (((List.range (min Config.builtinCount 32)).map fun h => hdrCode (s.hdr h))
    ++ s.stone.lib.map fun d => hdrCode d.2.container).foldl (· + ·) 0

/-- The reason that Table 6.10 gives for refusing a container, 0 where it is accepted. -/
def State.loadReason (s : State) (party : Nat) (c : Bytes) : Nat :=
  let code := leAt c 12 4
  let const := leAt c 16 4
  let cver := leAt c 4 2
  let n := 256 + code + const
  let env := c.drop n
  let kind := leAt env 0 4
  let keyid := (env.drop 8).take 32
  if leAt c 0 4 ≠ 0x4D570A1D ∨ leAt c 8 4 ≠ 256 ∨ c.length ≠ n + 512 then 1
  else if cver ≠ 3 ∧ cver ≠ 4 then 2
  else if leAt c 6 2 ≠ 7 ∧ leAt c 6 2 ≠ 8 then 3
  else if leAt c 20 4 / 256 ≠ 0 ∨ leAt c 59 1 / 2 ≠ 0 ∨ leAt c 60 4 ≠ 0 ∨ leAt c 96 160 ≠ 0 ∨ (cver = 3 ∧ leAt c 44 4 ≠ 0)
      ∨ leAt env 4 4 ≠ 0 ∨ leAt env 40 24 ≠ 0 ∨ leAt env 448 64 ≠ 0 ∨ 4 ≤ leAt c 58 1 then 4
  else if code < 64 ∨ 262080 < code ∨ 262080 < const ∨ code % 64 ≠ 0 ∨ const % 64 ≠ 0 ∨ 262144 < code + const
      ∨ 3584 < leAt c 32 4 ∨ 4096 < hdrHopper c ∨ 512 < hdrTags c ∨ 64 < leAt c 42 2 ∨ 1024 < hdrScratch c ∨ 64 < hdrCkptKib c
      ∨ hdrStonesMax c = 0 ∨ 192 < hdrStonesMax c then 5
  else if hdrCkptUs c = 0 ∨ 1000 < hdrCkptUs c then 6
  else if hdrClasses c / 2 ^ 4 ≠ 1 ∧ hdrClasses c ≠ 0 ∨ hdrClasses c % 16 ≠ 0 then 7
  else if (kind = 0 ∧ ¬ Config.umaygonDressingKey (s.slotOf s.boot.running).image keyid) ∨ (kind = 1 ∧ ¬ (s.stone.keys.any fun k => k.party == party && k.keyId == keyid))
      ∨ 1 < kind then 8
  else if ¬ Config.rsaVerify keyid (c.take n) ((env.drop 64).take 384) then 9
  else if 1024 ≤ s.libCount ∨ 992 ≤ s.stone.lib.length then 10
  else if 16 * MiB < s.libBytes + code + const then 11
  else 0

/-- The end of a load: the handle taken, or the reason recorded (R148, R150). -/
def State.loadDone (s : State) (ld : Nat) (c : Bytes) : Except Rc Nat × State :=
  let r := s.loadReason (s.party ld) c
  if r ≠ 0 then
    (.error (if 10 ≤ r then .resourcesExhausted else .invalidInput),
     s.modStnLd ld fun l => { l with reason := r, refused := bump 32 l.refused 1 })
  else
    let h := 32 + (lowestFree ((s.stone.lib.map Prod.fst).map fun x => x - 32) 992).getD 0
    (.ok h, { s with stone := { s.stone with lib := s.stone.lib ++ [(h, { party := s.party ld, container := c })] } })

/-- LOAD_DRESSING (C050h): a container in parts; its checks run when the background load completes. -/
def execLoadDressing (h : MbHdr) (p : Part) (s : State) : Res :=
  .next (s.mbPartsBg h { opcode := 0xC050, ld := true, fm := .no } p
    (fun img => .loadDressing h { p with data := img }) fun _ s => .ok s)

/-- UNLOAD_DRESSING (C051h): the handle stops accepting operations (R150). -/
def execUnloadDressing (h : MbHdr) (handle : Nat) (s : State) : Res :=
  .next (s.mbRun h { opcode := 0xC051, ld := true, fm := .no, len := [10] } fun s =>
    match s.dressing handle with
    | some d =>
      if d.party ≠ s.party h.src then .error .invalidInput
      else
        let lib := if s.piecesOf handle = 0 then s.stone.lib.filter fun x => x.1 ≠ handle
          else s.stone.lib.map fun x => if x.1 = handle then (x.1, { x.2 with stopped := true }) else x
        .ok { s := { s with stone := { s.stone with lib := lib } } }
    | none => .error .invalidInput)

/-- GET_DRESSING_INFO (C052h): header, STATE and pieces running. DEDUCED, log entry 38. -/
def execGetDressingInfo (h : MbHdr) (handle : Nat) (s : State) : Res :=
  .next (s.mbRun h { opcode := 0xC052, ld := true, fm := .either, len := [10] } fun s =>
    let running := (allStones.filter fun k => match (s.stoneAt k).running with | some p => p.handle == handle | none => false).length
    let answer := fun (st : Nat) =>
      (.ok { s := s, blob := s.hdr handle ++ layout 4 [⟨0, 1, st⟩, ⟨2, 2, running⟩] } : Except Rc MbOk)
    match s.dressing handle with
    | some d =>
      if h.src < 16 ∧ d.party ≠ s.party h.src then .error .invalidInput
      else answer (if d.disabled then 3 else if d.stopped then 2 else 1)
    | none =>
      if h.src < 16 ∨ 1024 ≤ handle then .error .invalidInput
      else if handle < min Config.builtinCount 32 then answer (if s.disabled handle then 3 else 1)
      else .ok { s := s, blob := zeros 256 ++ layout 4 [] })

/-- REGISTER_DRESSING_KEY (C053h, R149): at most four keys of a party. -/
def execRegisterDressingKey (h : MbHdr) (exponent : Nat) (modulus : Bytes) (s : State) : Res :=
  .next (s.mbRun h { opcode := 0xC053, ld := true, fm := .no, len := [400] } fun s =>
    let p := s.party h.src
    let id := fit 32 (Config.keyId exponent modulus)
    if exponent % 2 = 0 ∨ exponent < 65537 ∨ modulus.length ≠ 384 then .error .invalidInput
    else if s.stone.keys.any fun k => k.party == p && k.keyId == id then .ok { s := s, blob := id }
    else if 4 ≤ (s.stone.keys.filter fun k => k.party = p).length then .error .resourcesExhausted
    else .ok { s := { s with stone := { s.stone with keys := s.stone.keys ++ [{ party := p, keyId := id }] } }, blob := id })

/-- REMOVE_DRESSING_KEY (C054h). -/
def execRemoveDressingKey (h : MbHdr) (keyid : Bytes) (s : State) : Res :=
  .next (s.mbRun h { opcode := 0xC054, ld := true, fm := .no, len := [40] } fun s =>
    let k : DressKey := { party := s.party h.src, keyId := fit 32 keyid }
    if s.stone.keys.contains k then .ok { s := { s with stone := { s.stone with keys := s.stone.keys.filter (· ≠ k) } } }
    else .error .invalidInput)

/-! ### Stone commands (R163, R164) -/

def StoneState.code : StoneState → Nat
  | .online => 0 | .clearing => 1 | .draining => 2 | .test => 3 | .offline => 4 | .failed => 5

def State.stonesIn (s : State) (c : Nat) : Nat := (allStones.filter fun k => (s.stoneAt k).state.code == c).length

/-- GET_STONE_STATUS (C055h): states to the FM, counts to an LD. -/
def execGetStoneStatus (h : MbHdr) (s : State) : Res :=
  .next (s.mbRun h { opcode := 0xC055, ld := true, fm := .module } fun s =>
    .ok { s := s, blob := if h.src < 16 then (List.range 8).map fun c => BitVec.ofNat 8 (s.stonesIn c)
            else allStones.map fun k => BitVec.ofNat 8 (s.stoneAt k).state.code })

/-- A stone in service is marked for OFFLINE: an ONLINE one drains with its piece pre-empted; one already draining, being cleared or in
a test slice goes OFFLINE when that is over (R164). -/
def State.offlineStone (s : State) (stone : Nat) : State :=
  (s.modStone stone fun st => { st with toOffline := st.state != .offline, preempt := st.preempt || st.running.isSome }).drainStone stone

/-- SET_STONE_OFFLINE (C056h, R164): DRAINING, its piece pre-empted; it completes when the stone is OFFLINE. DEDUCED, log entry 38. -/
def execSetStoneOffline (h : MbHdr) (stone : Nat) (s : State) : Res :=
  .next (s.mbBg h { opcode := 0xC056, ld := false, fm := .module, len := [9] } (.setStoneOffline h stone) fun s =>
    if 192 ≤ stone ∨ (s.stoneAt stone).broken then .error .invalidInput else .ok (s.offlineStone stone))

/-- SET_STONE_ONLINE (C057h, R164). DEDUCED, log entry 38. -/
def execSetStoneOnline (h : MbHdr) (stone : Nat) (s : State) : Res :=
  .next (s.mbRun h { opcode := 0xC057, ld := false, fm := .module, len := [9] } fun s =>
    if 192 ≤ stone ∨ (s.stoneAt stone).state ≠ .offline then .error .invalidInput
    else .ok { s := (s.modStone stone fun st => { st with state := .online, toOffline := false }).placeWaiting.caps })

end Sys2Proof.Machine
end

