-- ==== Sys2Proof/Machine/Weirs.lean ====
section
/-! DEFINITION. The commands and events of streams and weirs (R207 to R227). -/
namespace Sys2Proof.Machine

/-! ### Streams -/

/-- The entries of all open wheels' schedules, in order: wheel, whether staged, index (Table 8.2). -/
def State.fetchStreams (s : State) : List (Nat × Bool × Nat) :=
  (List.range 256).flatMap fun w =>
    let x := s.wheel w
    if x.state = .closed then []
    else ((List.range x.sched.length).map fun i => (w, false, i))
      ++ ((List.range (match x.staged with | some es => es.length | none => 0)).map fun i => (w, true, i))

/-! The 64 bytes of an entry (Tables 8.1 and 8.2). -/

/-- An entry of a kind: `head` is the first word above KIND, LDTAG and CLASS, `st` the 16 bytes of STATE. -/
def streamBytes (kind ld : Nat) (m : StreamMeta) (head obj : Nat) (st : List Fld) : Bytes :=
  layout 64 ([⟨0, 8, kind + ld * 2 ^ 3 + m.cls * 2 ^ 7 + head * 2 ^ 10⟩, ⟨8, 8, obj⟩, ⟨32, 5, m.bytes⟩, ⟨40, 8, m.opened⟩,
    ⟨48, 8, m.lastuse⟩] ++ st)

def State.kvEntry (s : State) (k : Nat) : Bytes :=
  match s.seqOf (k / 16384) (k % 16384) with
  | none => zeros 64
  | some q => streamBytes 1 q.ld (s.weir.streams.get k) 0 q.id
      [⟨16, 4, q.len⟩, ⟨20, 4, q.plen⟩, ⟨24, 4, q.bin.getD 0 + b2n q.bin.isSome * 2 ^ 31⟩]

def State.fetchEntry (s : State) (i : Nat) : Bytes :=
  match (s.fetchStreams.drop i).head? with
  | none => zeros 64
  | some (w, staged, j) =>
    match (if staged then ((s.wheel w).staged.getD []) else (s.wheel w).sched)[j]? with
    | none => zeros 64
    | some en => streamBytes 2 (w / 16) en.strm (en.hist + w * 2 ^ 8) (j + b2n staged * 2 ^ 16) [⟨16, 16, entryNat en⟩]

/-- A walk is carried out whole as its piece ends, so that its counts stay zero until then. DEDUCED, log entry 30. -/
def State.walkEntry (s : State) (i : Nat) : Bytes :=
  match (s.slot (i / 64)).op with
  | none => zeros 64
  | some o =>
    if o.cls = 1 ∧ i % 64 < leAt o.params 0 2 ∧ (s.slot (i / 64)).state.busy then
      streamBytes 3 (bufLd (i / 64)) (s.weir.streams.get (524288 + i)) 0 (i / 64 + i % 64 * 2 ^ 11) [⟨24, 1, o.obj⟩]
    else zeros 64

/-- DIR of a transfer: 0 promotion, 1 write-back. -/
def State.migrEntryOf (s : State) (i : Nat) : Bytes :=
  match (s.store.xfers.drop i).head? with
  | none => zeros 64
  | some x =>
    let done := (List.range 128).filter fun b => (s.sack x.sack).arrived.getLsbD b
    streamBytes 4 x.ld x.strm ((match x.wants.head? with | some w => w.1 | none => 0) * 2 ^ 8 + b2n (x.kind == .spec) * 2 ^ 16) x.sack
      [⟨16, 1, x.chan.getD 0 + b2n x.chan.isSome * 2 ^ 7⟩, ⟨17, 1, x.kind.weir - 1⟩, ⟨18, 1, done.length⟩]

/-- Entry `k` of the stream table, zero in every byte where it is FREE (R207). DEDUCED, log entry 30. -/
def State.streamEntry (s : State) (k : Nat) : Bytes :=
  if k < 262144 then s.kvEntry k
  else if k < 524288 then s.fetchEntry (k - 262144)
  else if k < 655360 then s.walkEntry (k - 524288)
  else s.migrEntryOf (k - 655360)

def dropNth {α : Type} (i : Nat) (xs : List α) : List α := xs.take i ++ xs.drop (i + 1)

/-- STM_CACHE.MISS rises by one. -/
def State.streamMiss (s : State) : State := s.modWeir fun w => { w with streamMiss := bump 32 w.streamMiss 1 }

/-- An uncorrectable stream entry is freed (R212). DEDUCED, log entry 31. -/
def State.streamLost (s : State) (k : Nat) : State :=
  if k < 262144 then
    let ld := k / 16384
    let id := k % 16384
    if (s.seqOf ld id).isSome then ((s.modSeq ld id fun q => { q with dead := true }).freeStream k).ueLog 3 2 5 1 ld 0 else s
  else if k < 524288 then
    match s.fetchStreams.drop (k - 262144) with
    | [] => s
    | (w, staged, i) :: _ =>
      let s := s.modWheel w fun x =>
        if staged then { x with staged := x.staged.map (dropNth i) } else { x with sched := dropNth i x.sched }
      s.ueLog 3 2 5 1 (w / 16) 0
  else if k < 655360 then
    let b := (k - 524288) / 64
    match (s.slot b).op with
    | some o => if o.cls = 1 then ((s.stopPieces b).finish b .failed 6 0 [] false).ueLog 3 2 5 1 (bufLd b) 0 else s
    | none => s
  else match s.store.xfers.drop (k - 655360) with
    | [] => s
    | x :: _ =>
      match s.extOfSack x.sack with
      | some e => (s.haltXfer x e (x.chan.getD 0) 3 []).ueLog 3 2 2 3 e.owner 0
      | none => s

/-- STREAM_CACHE_FILL: a miss is filled from the near tier; a corrupt entry is freed (R210, R212). DEDUCED, log entry 31. -/
def execStreamCacheFill (t entry : Nat) (corrupt : Bool) (s : State) : Res :=
  let s := s.at_ t
  if ¬ s.up then .next s
  else if corrupt then .next (s.streamMiss.streamLost entry)
  else .next s.streamMiss

/-! ### Capacity -/

/-- Take a fall of a resource's capacity at once, or note a rise (R222). -/
def State.recap (s : State) (resource : Nat) : State :=
  let c := s.capacity resource
  if c ≤ s.cscale resource then
    (s.modWeir fun w => { w with cscale := w.cscale.set resource (some c), rise := w.rise.set resource none }).recompute resource (s.short resource)
  else s.noteCap resource

/-- GUARANTEE_RECOMPUTE: a fall of a resource's capacity takes effect at once (R222). -/
def execGuaranteeRecompute (t resource : Nat) (s : State) : Res :=
  let s := s.at_ t
  if ¬ s.up ∨ 8 ≤ resource then .next s else .next ((s.recap resource).noteVitals s)

/-- CAPACITY_RISE_TIMEOUT: a rise that has lasted 10 ms restores guarantees (R222). -/
def execCapacityRiseTimeout (t resource : Nat) (s : State) : Res :=
  let s := s.at_ t
  match s.weir.rise.get resource with
  | some (c, since) =>
    if s.up ∧ resource < 8 ∧ since + 10 * ms ≤ s.now then
      let c' := min c (s.capacity resource)
      let s' := s.modWeir fun w => { w with cscale := w.cscale.set resource (some c'), rise := w.rise.set resource none }
      .next (((s'.recompute resource (s.short resource)).noteCap resource).noteVitals s)
    else .next s
  | none => .next s

/-! ### Registers -/

def State.clsWord (s : State) (c : Nat) : Nat :=
  let k := s.weir.classes.get c
  k.share + k.cache * 2 ^ 8 + k.queue * 2 ^ 16 + (s.classFrames c * 8192 / MiB) * 2 ^ 32

def Guar.word (g : Guar) : Nat :=
  if g.valid then g.resv + g.eff * 2 ^ 16 + g.cls * 2 ^ 32 + 2 ^ 35 + g.lat * 2 ^ 36 else 0

/-- WR_SHORTFALL.DEEPEST: 0 after reset, as its Reset column gives, and what the last recomputation found from then on. DEDUCED,
log entry 96. -/
def State.deepest (s : State) (r : Nat) : Nat := s.weir.deepest.get r

def State.shortWord (s : State) (r : Nat) : Nat :=
  s.resvTotal r + s.effTotal r * 2 ^ 16 + (s.cscale r / capScale) * 2 ^ 32 + s.deepest r * 2 ^ 48 + b2n (s.short r) * 2 ^ 51

def State.latWord (s : State) (i : Nat) : Nat := (s.weir.latLast.get i).ns + (s.weir.latRun.get i).ns * 2 ^ 32

/-! ### Commands (Table 8.10) -/

/-- A share summed over the classes with one of them replaced. -/
def State.shareSum (s : State) (cls v : Nat) (f : WClass → Nat) : Nat :=
  ((List.range 8).map fun c => if c = cls then v else f (s.weir.classes.get c)).foldl (· + ·) 0

/-- SET_CLASS (C080h, R214). -/
def execSetClass (h : MbHdr) (cls share cache queue : Nat) (s : State) : Res :=
  .next (s.mbRun h { opcode := 0xC080, ld := false, fm := .module, len := [12] } fun s =>
    if 8 ≤ cls ∨ 256 < s.shareSum cls share WClass.share ∨ 256 < s.shareSum cls cache WClass.cache
        ∨ 256 < s.shareSum cls queue WClass.queue ∨ (cls = 7 ∧ share = 0) then .error .invalidInput
    else .ok { s := s.modWeir fun w => { w with classes := w.classes.set cls { share := share, cache := cache, queue := queue } } })

/-- RESERVE_GUARANTEE (C081h, R219, R221). -/
def execReserveGuarantee (h : MbHdr) (resource cls rate latbound : Nat) (s : State) : Res :=
  .next (s.mbRun h { opcode := 0xC081, ld := false, fm := .ld, len := [16] } fun s =>
    let ld := h.target
    if 8 ≤ resource ∨ 7 ≤ cls ∨ rate = 0 ∨ latbound = 0 ∨ 4095 < latbound ∨ (4 ≤ resource ∧ ldPort ld ≠ resource - 4) then
      .error .invalidInput
    else
      let old := s.guar ld resource
      let had := if old.valid then old.resv else 0
      let total := s.resvTotal resource - had + rate
      if had < rate ∧ (s.short resource ∨ roomOf (s.capacity resource) < total) then .error .resourcesExhausted
      else
        let g : Guar := { resv := rate, eff := old.eff, cls := cls, lat := latbound, valid := true, tokens := (old.fill s.now).tokens, filled := s.now }
        .ok { s := ((s.setGuar ld resource g).recompute resource (s.short resource)).noteVitals s })

/-- RELEASE_GUARANTEE (C082h, R221). -/
def execReleaseGuarantee (h : MbHdr) (resource : Nat) (s : State) : Res :=
  .next (s.mbRun h { opcode := 0xC082, ld := false, fm := .ld, len := [10] } fun s =>
    if 8 ≤ resource ∨ ¬ (s.guar h.target resource).valid then .error .invalidInput
    else .ok { s := ((s.setGuar h.target resource {}).recompute resource (s.short resource)).noteVitals s })

/-- GET_WEIR_STATUS (C083h): every share, shortfall and guarantee to the FM; its own guarantees and the capacities to an
LD. -/
def execGetWeirStatus (h : MbHdr) (s : State) : Res :=
  .next (s.mbRun h { opcode := 0xC083, ld := true, fm := .module } fun s =>
    if h.src < 16 then
      .ok { s := s, blob := ((List.range 8).flatMap fun r => leBytes 8 (s.guar h.src r).word)
              ++ (List.range 8).flatMap fun r => leBytes 2 (s.capacity r / capScale) }
    else
      let gs := (List.range 16).flatMap fun ld => ((List.range 8).filter fun r => (s.guar ld r).valid).flatMap fun r =>
        layout 16 [⟨0, 8, (s.guar ld r).word⟩, ⟨8, 1, ld⟩, ⟨9, 1, r⟩]
      .ok { s := s, blob := ((List.range 8).flatMap fun c => leBytes 8 (s.clsWord c))
              ++ ((List.range 8).flatMap fun r => leBytes 8 (s.shortWord r)) ++ gs })

/-- SET_CAPTURE_WINDOW (C084h, R225). -/
def execSetCaptureWindow (h : MbHdr) (mode wheel span : Nat) (s : State) : Res :=
  .next (s.mbRun h { opcode := 0xC084, ld := false, fm := .module, len := [16] } fun s =>
    if 1 < mode ∨ span = 0 ∨ 10000 < span ∨ (mode = 1 ∧ (256 ≤ wheel ∨ (s.wheel wheel).state = .closed)) then .error .invalidInput
    else .ok { s := s.modWeir fun w => { w with mode := mode, wheel := wheel % 256, span := span, windowStart := s.now } })

/-- GET_MAX_LATENCY (C085h, R225). -/
def execGetMaxLatency (h : MbHdr) (cls resource : Nat) (s : State) : Res :=
  .next (s.mbRun h { opcode := 0xC085, ld := false, fm := .module, len := [10] } fun s =>
    if 8 ≤ cls ∨ 8 ≤ resource then .error .invalidInput
    else
      let i := 8 * cls + resource
      let l := s.weir.latLast.get i
      .ok { s := s, fields := [⟨0, 8, s.latWord i⟩, ⟨8, 1, l.ld⟩, ⟨16, 8, l.time⟩, ⟨24, 6, l.turn⟩,
              ⟨30, 2, l.layer + l.wheel * 2 ^ 10 + b2n l.nopos * 2 ^ 14⟩] })

/-- CAPTURE_WINDOW_END (R225): the end of the span of mode 0, which mode 1 falls back to while its wheel is CLOSED. In
mode 1 the window ends at its wheel's entry into layer 0 itself. -/
def execCaptureWindowEnd (t : Nat) (s : State) : Res :=
  let s := s.at_ t
  let span := if s.weir.mode = 0 then s.weir.span else 1000
  if s.up ∧ (s.weir.mode = 0 ∨ (s.wheel s.weir.wheel).state = .closed) ∧ s.weir.windowStart + span * ms ≤ s.now then .next s.latchWindow
  else .next s

end Sys2Proof.Machine
end

