-- ==== Sys2Proof/Machine/Snoop.lean ====
section
/-! DEFINITION. The snoop filter and back-invalidation (R340 to R345), as shared operations. -/
namespace Sys2Proof.Machine

/-- Filter entries (R340). -/
def snoopMax : Nat := 2097152

/-! ### Lines and their holders -/

def State.lineHold (s : State) (blk line : Nat) : LineHold :=
  match s.cxe.snoop.find? fun e => e.blk = blk with
  | some e => e.lines.get line
  | none => {}

/-- Set a line's state; the entry used last stands at the end, and an entry with every line in I is free. -/
def State.setLine (s : State) (blk line : Nat) (h : LineHold) : State :=
  let e := (s.cxe.snoop.find? fun e => e.blk = blk).getD { blk := blk }
  let e' : SnoopEnt := { e with lines := e.lines.set line h, lastUse := s.now }
  let rest := s.cxe.snoop.filter fun x => x.blk ≠ blk
  s.modCxe fun c => { c with snoop := if e'.lines.cells.isEmpty then rest else rest ++ [e'] }

/-- The LDs that hold a line. -/
def LineHold.lds (h : LineHold) : List Nat := h.shared ++ h.excl.toList

def LineHold.without (h : LineHold) (ld : Nat) : LineHold :=
  { shared := h.shared.filter (· ≠ ld), excl := if h.excl = some ld then none else h.excl }

/-- What a request is granted (Table 14.5); the E holder's own request leaves the line as it asks. -/
def LineHold.grant (h : LineHold) (ld : Nat) (write : Bool) (mv : MetaVal) : LineHold :=
  if write then h.without ld
  else match mv with
    | .any => { shared := [], excl := some ld }
    | .shared => if h.excl = some ld then { shared := [ld], excl := none }
      else if h.shared.contains ld then h else { h with shared := h.shared ++ [ld] }
    | .invalid => if h.excl = some ld then h.without ld else h

/-- The snoops that a request needs (Table 14.5): LD and kind, 0 Inv, 1 Data, 2 Cur. -/
def LineHold.snoops (h : LineHold) (ld : Nat) (write : Bool) (mv : MetaVal) : List (Nat × Nat) :=
  let others := h.lds.filter (· ≠ ld)
  let excl := h.excl.toList.filter (· ≠ ld)
  if write then others.map fun x => (x, 0)
  else match mv with
    | .any => others.map fun x => (x, 0)
    | .shared => excl.map fun x => (x, 1)
    | .invalid => excl.map fun x => (x, 2)

/-- What an answered snoop leaves of its holder. -/
def LineHold.answered (h : LineHold) (ld kind : Nat) : LineHold :=
  match kind with
  | 0 => h.without ld
  | 1 => if h.excl = some ld then { shared := h.shared ++ [ld], excl := none } else h
  | _ => h

/-! ### Sending snoops -/

/-- Send a BISnp to a holder of a line (CXE_BI.SNOOPS). -/
def State.sendSnoop (s : State) (ld blk line kind : Nat) : State :=
  let s := s.modCxeLd ld fun l => { l with snoops := bump 32 l.snoops 1 }
  (s.modCxe fun c => { c with snps := c.snps ++ [{ ld := ld, blk := blk, line := line, kind := kind, start := s.now }] }).send
    (.biSnp ld blk line (kind == 0))

/-- BISnpInv to every holder of every line of an entry. -/
def State.snoopEntry (s : State) (e : SnoopEnt) : State :=
  e.lines.cells.foldl (fun s c => c.2.lds.foldl (fun s ld => s.sendSnoop ld e.blk c.1 0) s) s

/-- Free the least recently used entry that is not being freed already, where the filter is full and a block needs one (R342). Answers
the entry freed. DEDUCED, log entry 42. -/
def State.snoopRoom (s : State) (blk : Nat) : Option Nat × State :=
  if s.cxe.snoop.length < snoopMax ∨ s.cxe.snoop.any fun e => e.blk == blk then (none, s)
  else match s.cxe.snoop.find? fun e => !(s.cxe.snps.any fun x => x.blk == e.blk) with
    | none => (none, s)
    | some e => (some e.blk, (s.snoopEntry e).modCxe fun c => { c with evict := bump 32 c.evict 1 })

/-- An uncorrectable filter entry: every LD that maps the block through a BI decoder is taken to hold its lines in E,
and is snooped (R342). -/
def State.snoopLost (s : State) (blk : Nat) : State :=
  let lds := (List.range 16).filter fun ld => (s.ext.exts.any fun e => e.ld == ld && s.firstSack e ≤ blk / 128
      && blk / 128 < s.firstSack e + e.sacks) && (List.range 8).any fun k => (s.cxe.hdm.get (8 * ld + k)).committed && (s.cxe.hdm.get (8 * ld + k)).bi
  lds.foldl (fun s ld => (List.range 8).foldl (fun s l => s.sendSnoop ld blk l 0) s) s

/-! ### Holders lost (R344) -/

/-- The extent of an LD that maps a sack. -/
def State.extFor (s : State) (ld sack : Nat) : Option Extent :=
  s.ext.exts.find? fun e => e.ld = ld ∧ s.firstSack e ≤ sack ∧ sack < s.firstSack e + e.sacks

/-- Runs of consecutive numbers in a sorted list: first and length. -/
def runList : List Nat → List (Nat × Nat)
  | [] => []
  | a :: rest =>
    match runList rest with
    | (b, n) :: rs => if b = a + 1 then (a, n + 1) :: rs else (a, 1) :: (b, n) :: rs
    | [] => [(a, 1)]

/-- Records of a HOLDER_LOST set: eight ranges each, the first of them carrying the totals (R368). PRESUMED, log entry 41. -/
def lostRecords (ld total : Nat) (ovf : Bool) (first : Nat) : Nat → List (Nat × Nat) → List Event
  | 0, _ => []
  | n + 1, rs =>
    let here := rs.take 8
    let rest := rs.drop 8
    let flds := here.zipIdx.map fun p => (⟨64 + 8 * p.2, 8, p.1.1 + (p.1.2 - 1) * 2 ^ 40⟩ : Fld)
    let lead := n = 7
    let e : Event := { Event.of 17 ld (if lead then total else 0) (flds ++ if lead then [] else [⟨22, 2, first⟩]) with
      ovf := lead && ovf, more := !rest.isEmpty }
    e :: (if rest.isEmpty then [] else lostRecords ld total ovf first n rest)

/-- Post the set of a holder's lost blocks to one mailbox, in the DPA of LD `view`. -/
def State.postLost (s : State) (m view ld : Nat) (blks : List Nat) : State :=
  let dpas := blks.filterMap fun b => (s.extFor view (b / 128)).map fun e => s.dpaOf e b / 512
  if dpas.isEmpty then s
  else
    let rs := runList (sortNat dpas)
    (lostRecords ld rs.length (64 < rs.length) ((s.mbox.nextHandle - 1) % 65535 + 1) 8 (rs.take 64)).foldl (fun s e => s.post m 2 e) s

/-- Poison a block whose data an LD may have changed and lost (R344). -/
def State.poisonLost (s : State) (blk : Nat) : State :=
  let s := (s.poisonBlock blk).modStore fun st => { st with
    merges := st.merges.filter fun m => m.blk ≠ blk
    mirrors := st.mirrors.filter fun m => m.blk ≠ blk }
  { s with mbox := { s.mbox with external := blk :: s.mbox.external.filter (· ≠ blk) } }

/-- An LD is lost as the holder of some lines (block and line): those in E poison their blocks, those in S are
dropped, and the events of R344 are posted. PRESUMED, log entry 41. -/
def State.holderLost (s : State) (ld : Nat) (lines : List (Nat × Nat)) : State :=
  let excl := lines.filter fun x => (s.lineHold x.1 x.2).excl == some ld
  let blks := (excl.map Prod.fst).eraseDups
  let s := lines.foldl (fun s x => s.setLine x.1 x.2 ((s.lineHold x.1 x.2).without ld)) s
  let s := blks.foldl State.poisonLost s
  if blks.isEmpty then s
  else
    let s := s.modCxeLd ld fun l => { l with lostBlk := bump 16 l.lostBlk blks.length }
    let others := if s.party ld < 16 then [] else (s.partyLds (s.party ld)).filter fun x => x ≠ ld && s.ldOn x
    let s := (ld :: others).foldl (fun s m => s.postLost m m ld blks) s
    s.postLost fmSrc ld ld blks

/-- Every line that an LD holds. -/
def State.linesOf (s : State) (ld : Nat) : List (Nat × Nat) :=
  s.cxe.snoop.flatMap fun e => (e.lines.cells.filter fun c => c.2.lds.contains ld).map fun c => (e.blk, c.1)

/-! ### Requests (R341) -/

/-- Serve an HDM-DB request whose snoops are done. -/
def State.serveBi (s : State) (r : HeldBi) : State :=
  match s.extById r.eid with
  | none => if r.muted then s else if r.write then s.send (.memDone r.ld r.tag) else s.send (.memPoison r.ld r.tag)
  | some e =>
    if r.muted then (if r.write then s.writeLine r.ld r.dpa r.tag e r.data r.enables r.poison true else s) else
    let h := (s.lineHold r.blk r.line).grant r.ld r.write r.mv
    let s := s.setLine r.blk r.line h
    if r.write then s.writeLine r.ld r.dpa r.tag e r.data r.enables r.poison else s.readLine r.ld r.dpa r.tag e r.upset

/-- Does a request wait for snoops or for an earlier request to its line? -/
def State.biBlocked (s : State) (r : HeldBi) (before : List HeldBi) : Bool :=
  (s.cxe.snps.any fun x => (x.blk == r.blk && x.line == r.line) || r.evicted == some x.blk)
    || before.any fun x => x.blk == r.blk && x.line == r.line

/-- Try held requests in order of acceptance. -/
def State.pumpBi (s : State) : List HeldBi → List HeldBi → State
  | [], kept => s.modCxe fun c => { c with heldBi := kept }
  | r :: rest, kept =>
    if s.biBlocked r kept then s.pumpBi rest (kept ++ [r])
    else
      let need := (s.lineHold r.blk r.line).snoops r.ld r.write r.mv
      if need.isEmpty then (s.serveBi r).pumpBi rest kept
      else (need.foldl (fun s x => s.sendSnoop x.1 r.blk r.line x.2) s).pumpBi rest (kept ++ [r])

/-- Accept an HDM-DB request: it makes room in the filter, snoops, and is served or held (R341, R342). -/
def State.acceptBi (s : State) (r : HeldBi) : State :=
  let keeps := !r.write && r.mv != .invalid
  let (ev, s) := if keeps then s.snoopRoom r.blk else (none, s)
  s.pumpBi (s.cxe.heldBi ++ [{ r with evicted := ev }]) []

/-- A snoop is over: the holder keeps what its kind leaves it, and held requests are tried. DEDUCED, log entry 42. -/
def State.snoopDone (s : State) (x : Snp) : State :=
  let s := s.modCxe fun c => { c with snps := c.snps.filter fun y => ¬ (y.ld = x.ld ∧ y.blk = x.blk ∧ y.line = x.line) }
  s.setLine x.blk x.line ((s.lineHold x.blk x.line).answered x.ld x.kind)

/-- BIRSP (R341): the answer to a snoop, with the data that the holder writes back. DEDUCED, log entry 42. -/
def execBirsp (ld blk line : Nat) (writeback : Option Bytes) (s : State) : Res :=
  match s.cxe.snps.find? fun x => x.ld = ld ∧ x.blk = blk ∧ x.line = line with
  | none => .next s
  | some x =>
    let s := match writeback, s.extFor ld (blk / 128) with
      | some d, some e => s.writeLine ld (s.dpaOf e blk + 64 * line) 0 e (fit 64 d) (BitVec.allOnes 64) false true
      | _, _ => s
    let s := s.snoopDone x
    .next (s.pumpBi s.cxe.heldBi [])

/-- BISNP_TIMEOUT (R343): a snoop unanswered for 4 ms takes its LD for crashed on that line. -/
def execBisnpTimeout (t ld blk line : Nat) (s : State) : Res :=
  let s := s.at_ t
  match s.cxe.snps.find? fun x => x.ld = ld ∧ x.blk = blk ∧ x.line = line with
  | none => .next s
  | some x =>
    if x.start + 4 * ms ≤ s.now then
      let s := s.modCxeLd ld fun l => { l with biTimeout := bump 16 l.biTimeout 1 }
      let s := (s.holderLost ld [(blk, line)]).snoopDone x
      .next (s.pumpBi s.cxe.heldBi [])
    else .next s

end Sys2Proof.Machine
end

