-- ==== Sys2Proof/Machine/Extents.lean ====
section
/-! DEFINITION. Adding, releasing, withdrawing and discarding extents (R30 to R37, R45, R46, R339, R433). -/
namespace Sys2Proof.Machine

/-! ### Reservations -/

def Extent.resv (e : Extent) : Nat := e.resvPayload + e.resvSide + e.resvSpill + e.resvStage

/-- EXT_RESERVED of an LD. -/
def State.reserved (s : State) (ld : Nat) : Nat :=
  ((s.ext.exts.filter fun e => e.owner = ld ∧ ¬ e.isAlias).map Extent.resv).foldl (· + ·) 0

def State.regionProfile (s : State) (ld region : Nat) : Option Word := s.ext.profiles.get (8 * ld + region)

/-! ### Initiate Dynamic Capacity Add (Table 2.8, R36) -/

/-- Does a range satisfy R32 in a region and overlap no extent of the LD? -/
def State.rangeFits (s : State) (ld region base len : Nat) : Bool :=
  (match (s.ext.parts.get ld).regions[region]? with
    | some (rb, rl) => decide (rb * granule ≤ base ∧ base + len ≤ (rb + rl) * granule)
    | none => false)
  && base % granule == 0 && len % granule == 0 && 0 < len
  && !(s.ext.exts.any fun e => e.ld == ld && e.base < base + len && base < e.base + e.len)

/-- The owner's extent that an alias names. -/
def State.ownerExt (s : State) (a : DcAdd) : Option Extent :=
  s.ext.exts.find? fun e => e.ld = a.srcLd ∧ ¬ e.isAlias ∧ e.base ≤ a.srcBase ∧ a.srcBase + a.len ≤ e.base + e.len

/-- Put a new PENDING extent into the table. -/
def State.addExtent (s : State) (e : Extent) : State :=
  { s with ext := { s.ext with exts := s.ext.exts ++ [{ e with eid := s.ext.nextEid }], nextEid := s.ext.nextEid + 1 } }

/-- Admit one extent of a group, or answer why not: the conditions are tried in the order of R36, and the profile of R34 after the range.
DESIGN CHOICE, log entry 105. -/
def State.admitExt (s : State) (ld : Nat) (shared : Bool) (a : DcAdd) (group : Nat) : Except Rc State :=
  if 16 ≤ ld ∨ ¬ s.ldOn ld ∨ (s.ext.keys.get ld).isNone then .error .invalidInput
  else if ¬ s.rangeFits ld a.region a.base a.len then .error .invalidExtentList
  else match s.regionProfile ld a.region with
    | none => .error .invalidInput
    | some p =>
      let full := 8192 ≤ (s.ext.exts.filter fun e => e.ld = ld).length ∨ 131072 ≤ s.ext.exts.length
      if shared then
        match s.ownerExt a with
        | some o =>
          if Prof.gate p ∨ Prof.gate o.profile then .error .invalidInput
          else if o.state ≠ .active ∨ ¬ Prof.shared o.profile ∨ s.party ld ≠ s.party a.srcLd ∨ s.party ld < 16 ∨ ld = a.srcLd then
            .error .invalidInput
          else if full then .error .resourcesExhausted
          else .ok (s.addExtent { eid := 0, ld := ld, base := a.base, len := a.len, tag := o.tag, owner := a.srcLd, ownerBase := a.srcBase,
                                  profile := o.profile, region := a.region, group := group, isAlias := true })
        | none => .error .invalidInput
      else
        let gen := Prof.lossy p && (s.tset p).hasGen
        let (pay, side, spill, stage) := reservation p a.len gen
        if (s.ext.parts.get ld).quota * GiB < s.reserved ld + (pay + side + spill + stage) ∨ full then .error .resourcesExhausted
        else .ok (s.addExtent { eid := 0, ld := ld, base := a.base, len := a.len, tag := a.tag, owner := ld, ownerBase := a.base, profile := p,
                                region := a.region, group := group, resvPayload := pay, resvSide := side, resvSpill := spill,
                                resvStage := stage, codec := s.freeSlots ((side + spill + stage) / 8192) })

/-- Admit a group whole. -/
def State.admitAll (s : State) (ld : Nat) (shared : Bool) (group : Nat) : List DcAdd → Except Rc State
  | [] => .ok s
  | a :: rest =>
    match s.admitExt ld shared a group with
    | .ok s => s.admitAll ld shared group rest
    | .error c => .error c

/-- A Dynamic Capacity Event Record: its type (0 Add, 1 Release), its extent, and whether another follows. PRESUMED, log entry 41. -/
def dcEvent (ld kind : Nat) (e : Extent) (more : Bool) : Event :=
  Event.of 1004 ld 1 [⟨48, 1, kind⟩, ⟨53, 1, b2n more⟩, ⟨56, 8, e.base⟩, ⟨64, 8, e.len⟩, ⟨72, 16, e.tag⟩]

/-- Post a record for each extent to its host. PRESUMED, log entry 41. -/
def State.postDc (s : State) (ld kind : Nat) : List Extent → State
  | [] => s
  | e :: rest => (s.post ld 4 (dcEvent ld kind e (!rest.isEmpty))).postDc ld kind rest

/-- INITIATE_DC_ADD (R36, Table 2.8). The policies are those of CXL 3.1: 2 Prescriptive, 3 Enable Shared Access. PRESUMED, log entry 15. -/
def execInitiateDcAdd (h : MbHdr) (host policy : Nat) (exts : List DcAdd) (s : State) : Res :=
  .next (s.mbRun h { opcode := 0x5604, ld := false, fm := .module, vendor := false } fun s =>
    if policy ≠ 2 ∧ policy ≠ 3 then .error .unsupported
    else if h.len ≠ 32 + 40 * exts.length then .error .invalidInput
    else
      let g := s.ext.nextGroup.get host
      match s.admitAll host (policy == 3) g exts with
      | .error c => .error c
      | .ok s' =>
        let s' := { s' with ext := { s'.ext with nextGroup := s'.ext.nextGroup.set host (g + 1) } }
        let new := s'.ext.exts.filter fun e => e.ld = host ∧ e.group = g ∧ e.state = .pending
        .ok { s := (s'.journal exts.length).postDc host 0 new })

/-! ### Add Dynamic Capacity Response (R339) -/

/-- The oldest offered group of an LD that still holds a PENDING extent. -/
def State.oldestGroup (s : State) (ld : Nat) : Option Nat :=
  ((s.ext.exts.filter fun e => e.ld = ld ∧ e.state = .pending).map Extent.group).min?

def Extent.isRange (e : Extent) (r : DcRange) : Bool := e.base == r.base && e.len == r.len

/-- ADD_DC_RESPONSE (R339): the named extents of the oldest group become ACTIVE and its others are deleted. DEDUCED, log entry 40. -/
def execAddDcResponse (h : MbHdr) (exts : List DcRange) (s : State) : Res :=
  .next (s.mbRun h { opcode := 0x4802, ld := true, fm := .no, vendor := false } fun s =>
    if 64 < exts.length ∨ h.len ≠ 8 + 24 * exts.length then .error .invalidInput
    else match s.oldestGroup h.src with
      | none => if exts.isEmpty then .ok { s := s } else .error .invalidExtentList
      | some g =>
        let mine := s.ext.exts.filter fun e => e.ld = h.src ∧ e.group = g ∧ e.state = .pending
        if ¬ exts.all (fun r => mine.any fun e => e.isRange r) then .error .invalidExtentList
        else
          let step := fun (e : Extent) =>
            if e.ld = h.src ∧ e.group = g ∧ e.state = .pending then
              (if exts.any e.isRange then some { e with state := .active } else none)
            else some e
          .ok { s := ({ s with ext := { s.ext with exts := s.ext.exts.filterMap step } }).journal mine.length })

/-! ### Leaving ACTIVE (Table 2.9, R45, R98) -/

/-- The part of an entry's release that has been issued. -/
def SEntry.keepIssued (en : SEntry) (gone : Nat → Bool) : SEntry := { en with waiting := en.waiting.filter fun k => !gone k }

/-- Cancel what schedules have asked for of an extent's sacks and not issued, of every wheel for an owner's extent and of its LD's wheels
for an alias, and undo their unconfirmed speculative copies (R45, R98). Demands of requests already accepted stay. -/
def State.cancelPrefetch (s : State) (e : Extent) : State :=
  let inE := fun k => s.firstSack e ≤ k && k < s.firstSack e + e.sacks
  let mine := fun w => !e.isAlias || w / 16 == e.ld
  let s := s.cancelWants fun x y => inE x.sack && mine y.1
  let gone := fun k => inE k && !s.issuedXfer k
  let s := (s.sweep.wheels.keys.filter mine).foldl (fun s w => s.modWheel w fun x =>
    { x with sched := x.sched.map fun en => en.keepIssued gone, old := x.old.map fun en => en.keepIssued gone }) s
  (s.store.sacks.keys.filter fun k => inE k && (s.sack k).spec && mine (s.sack k).swheel).foldl State.undoSpec s

/-- Back-invalidate the lines of an extent that its LD holds (R45). -/
def State.invalidateExt (s : State) (e : Extent) : State :=
  let hit := (s.linesOf e.ld).filter fun x => s.firstSack e ≤ x.1 / 128 && x.1 / 128 < s.firstSack e + e.sacks
  hit.foldl (fun s x => s.sendSnoop e.ld x.1 x.2 0) s

/-- The WITHDRAWN event of R45. -/
def withdrawnEvent (e : Extent) : Event := Event.of 2 e.ld 1 [⟨64, 8, e.base⟩, ⟨72, 8, e.len⟩, ⟨80, 16, e.tag⟩]

/-- One extent enters WITHDRAWING (R45). -/
def State.withdrawOne (s : State) (eid : Nat) : State :=
  match s.extById eid with
  | none => s
  | some e =>
    if e.state = .withdrawing ∨ e.state = .discarding then s
    else
      let left := if e.state = .active then s.gate.nextOp else e.leftOp
      let s := s.modExt eid fun e => { e with state := .withdrawing, leftOp := left }
      ((s.cancelPrefetch e).invalidateExt e).post e.ld 0 (withdrawnEvent e)

/-- Delete an extent's descriptor. -/
def State.dropExt (s : State) (eid : Nat) : State :=
  { s with ext := { s.ext with exts := s.ext.exts.filter fun e => e.eid ≠ eid } }

/-- The aliases of an owner that leaves: ACTIVE ones enter WITHDRAWING and PENDING ones are deleted (R45). -/
def State.withdrawAliases (s : State) (e : Extent) : State :=
  (s.aliasesOf e).foldl (fun s a =>
    match a.state with
    | .active => s.withdrawOne a.eid
    | .pending => s.dropExt a.eid
    | _ => s) s

/-- Forced removal of an extent (R433). -/
def State.forceOut (s : State) (e : Extent) : State :=
  match e.state with
  | .pending => s.dropExt e.eid
  | .withdrawing | .discarding => s
  | _ => (s.withdrawOne e.eid).withdrawAliases e

/-- DEDUCED, log entry 40. -/
def State.namedExt (s : State) (ld : Nat) (r : DcRange) : Option Extent := s.ext.exts.find? fun e => e.ld = ld ∧ e.isRange r

/-- May Initiate Dynamic Capacity Release act on an extent (R433)? -/
def mayLeave (forced : Bool) (e : Extent) : Bool :=
  match e.state with
  | .active => true
  | .discarding => false
  | _ => forced

/-- INITIATE_DC_RELEASE (R433): checked whole, then each extent acts by its state. -/
def execInitiateDcRelease (h : MbHdr) (host : Nat) (forced : Bool) (exts : List DcRange) (s : State) : Res :=
  .next (s.mbRun h { opcode := 0x5605, ld := false, fm := .module, vendor := false } fun s =>
    let s := s.settleLeaving
    let es := exts.filterMap (s.namedExt host)
    if 16 ≤ host ∨ h.len ≠ 32 + 40 * exts.length ∨ es.length ≠ exts.length ∨ ¬ es.all (mayLeave forced) then .error .invalidInput
    else if forced then .ok { s := ((es.foldl State.forceOut s).journal es.length).settleLeaving }
    else .ok { s := s.postDc host 1 es })

/-- RELEASE_DC (Table 2.9): the host gives an extent back. One that is DISCARDING is none of the host's any more: Invalid Input. DESIGN
CHOICE, log entry 106. -/
def execReleaseDc (h : MbHdr) (exts : List DcRange) (s : State) : Res :=
  .next (s.mbRun h { opcode := 0x4803, ld := true, fm := .no, vendor := false } fun s =>
    let s := s.settleLeaving
    let es := exts.filterMap (s.namedExt h.src)
    let ok := fun (e : Extent) => e.state = .active ∨ e.state = .withdrawing
    if 64 < exts.length ∨ h.len ≠ 8 + 24 * exts.length ∨ es.length ≠ exts.length ∨ ¬ es.all (fun e => decide (ok e)) then .error .invalidInput
    else
      let leave := fun (s : State) (e : Extent) =>
        if e.state = .active then
          let s := s.modExt e.eid fun x => { x with state := .releasing, leftOp := s.gate.nextOp }
          (s.cancelPrefetch e).withdrawAliases e
        else s
      .ok { s := ((es.foldl leave s).journal es.length).settleLeaving })

/-! ### Discard (R46) -/

/-- What is bound to an extent ends with it: the slots of a gate extent (R181), the bins of a granary extent (R202). -/
def State.endBound (s : State) (e : Extent) : State :=
  let bufs := (s.gate.slots.cells.filter fun c => c.2.state != .unarmed && c.2.eid == e.eid).map Prod.fst
  let s := bufs.foldl (fun s b => (s.releaseReads b).unarm b) s
  if s.gate.granary.contains e.eid then s.dropGranary e.eid else s

/-- Discard an extent: its media are freed and its descriptor is deleted. -/
def State.discard (s : State) (e : Extent) : State :=
  let s := s.endBound e
  let s := if e.isAlias ∨ Prof.gate e.profile then s else s.discardSacks (s.firstSack e) e.sacks
  let s := s.dropExt e.eid
  s.journal 1

/-- EXTENT_DISCARD (R46): an extent whose TRACKER and those of its aliases are zero is discarded. DEDUCED, log entry 40. -/
def execExtentDiscard (t eid : Nat) (s : State) : Res :=
  let s := s.at_ t
  match s.extById eid with
  | some e =>
    if s.up ∧ (e.state = .discarding ∨ ((e.state = .releasing ∨ e.state = .withdrawing) ∧ s.quiet e)) then
      .next ((((s.aliasesOf e).foldl State.discard s).discard e).retryReads fun r => r.eid == eid)
    else .next s
  | none => .next s

end Sys2Proof.Machine
end

