-- ==== Sys2Proof/Machine/Sweep.lean ====
section
/-! DEFINITION. The commands and timers of wheels and schedules (R50 to R70). -/
namespace Sys2Proof.Machine

/-! ### Wheel lines (chapter 03) -/

def WheelState.code : WheelState → Nat
  | .closed => 0 | .survey => 1 | .running => 2 | .idle => 3 | .resting => 4

def Wheel.posWord (x : Wheel) : Nat :=
  if x.state = .closed then 0 else x.layer + x.state.code * 2 ^ 10 + (if x.placed then x.turn else 0) * 2 ^ 16

def Wheel.debtWord (x : Wheel) : Nat :=
  if x.state = .closed then 0
  else x.debt + b2n x.staged.isSome * 2 ^ 5 + b2n x.trunc * 2 ^ 6 + x.dlead * 2 ^ 16 + x.sched.length * 2 ^ 32

def Wheel.cntWord (x : Wheel) : Nat := x.late + x.rephase * 2 ^ 32 + x.backstep * 2 ^ 48
def Wheel.errWord (x : Wheel) : Nat := x.badpos + x.skip * 2 ^ 32
def Wheel.slotWord (x : Wheel) : Nat :=
  if x.state = .closed then 0 else x.avg + (x.slots.getLast?.getD 0) * 2 ^ 32

/-- WHL_POS to WHL_SLOT of a wheel. -/
def Wheel.words (x : Wheel) : List Nat := [x.posWord, x.debtWord, x.cntWord, x.errWord, x.slotWord]

def Wheel.flagsByte (x : Wheel) : Nat := b2n x.notune + 2 * b2n x.nolearn + 4 * b2n x.spec + 8 * b2n x.autoload

/-! ### Positions and timers -/

/-- A write to WHL_BEACON (R52): one that is not one aligned 8-byte write is ignored and counted; one that BAR2 does not take
at all is also an Unsupported Request (R335). DEDUCED, log entry 43. -/
def State.writeBeacon (s : State) (ld wheel size : Nat) (aligned : Bool) (value : Word) : State :=
  let w := 16 * ld + wheel
  if size = 8 ∧ aligned then (s.position w (Beacon.turn value) (Beacon.layer value) (Beacon.resv value != 0)).2
  else
    let s := s.badPos w
    if size = 4 ∧ aligned then s else s.aerUnc ld 20 []

/-- WHEEL_BEACON (R52, R54). -/
def execWheelBeacon (ld wheel size : Nat) (aligned : Bool) (value : Word) (s : State) : Res :=
  if ¬ s.up ∨ 16 ≤ ld ∨ 16 ≤ wheel ∨ (s.cxe.lds.get ld).d3 then .next s
  else .next (s.writeBeacon ld wheel size aligned value)

/-- WHEEL_IDLE_TIMEOUT (R67). DESIGN CHOICE, log entry 4. -/
def execWheelIdleTimeout (t ld wheel : Nat) (s : State) : Res :=
  let s := s.at_ t
  let w := 16 * ld + wheel
  let x := s.wheel w
  if s.up ∧ wheel < 16 ∧ (x.state = .running ∨ x.state = .survey) ∧ x.lastAdvance + x.idleMs * ms ≤ s.now then
    .next (((s.undoWheel w).cancelWheel w fun _ => false).modWheel w fun x => { x with state := .idle })
  else .next s

/-- WHEEL_REST_TIMEOUT (R67). -/
def execWheelRestTimeout (t ld wheel : Nat) (s : State) : Res :=
  let s := s.at_ t
  let w := 16 * ld + wheel
  let x := s.wheel w
  if s.up ∧ wheel < 16 ∧ x.state ≠ .closed ∧ x.state ≠ .resting ∧ x.lastAdvance + x.restS * sec ≤ s.now then .next (s.restWheel w)
  else .next s

/-! ### Opening and closing -/

/-- Transfers that a wheel has issued and that have not completed. -/
def State.wheelInFlight (s : State) (w : Nat) : Bool :=
  s.store.xfers.any fun x => x.chan.isSome && x.wants.any fun y => y.1 == w

/-- The lowest index of an LD that can be opened (R69). -/
def State.freeWheel (s : State) (ld : Nat) : Option Nat :=
  (List.range 16).find? fun i => (s.wheel (16 * ld + i)).state == .closed && !s.wheelInFlight (16 * ld + i)

/-- Do two ranges of granules overlap? -/
def rangesMeet (a b : Nat × Nat) : Bool := 0 < a.2 && 0 < b.2 && a.1 < b.1 + b.2 && b.1 < a.1 + a.2

/-- Do timers satisfy R67? -/
def timersOk (idle rest : Nat) : Bool := 1 ≤ idle && idle ≤ 10000 && 1 ≤ rest && rest ≤ 3600 && idle < 1000 * rest

/-- A schedule entry as it is loaded or stored, nothing released. -/
def SEntry.fresh (e : SEntry) : SEntry :=
  { layer := e.layer, lead := e.lead, action := e.action, die := e.die, anydie := e.anydie, sack := e.sack, count := e.count }

/-- What AUTOLOAD finds: the LOAD code and the schedule (R65). -/
def State.autoload (s : State) (ld sig n : Nat) (asked : Bool) : Nat × Option (List SEntry) :=
  if ¬ asked then (0, none)
  else match s.sweep.stored.find? fun x => x.ld = ld ∧ x.sig = sig with
    | none => (2, none)
    | some x =>
      let fits := fun (e : SEntry) => e.layer < n ∧ e.sack + e.count ≤ (s.ext.parts.get ld).dpaSize * 4096
      if x.layers ≠ n ∨ ¬ x.sched.all (fun e => decide (fits e)) then (3, none)
      else if 262144 < s.schedTotal + x.sched.length then (4, none)
      else (1, some x.sched)

/-- OPEN_WHEEL (C030h, R51, R65, R67). -/
def execOpenWheel (h : MbHdr) (n dlead pclass cclass flags sig idle rest : Nat) (watch : List (Nat × Nat)) (s : State) : Res :=
  .next (s.mbRun h { opcode := 0xC030, ld := true, fm := .no, len := [96] } fun s =>
    let ld := h.src
    let idle' := if idle = 0 then 100 else idle
    let rest' := if rest = 0 then 10 else rest
    let used := watch.filter fun r => r.2 ≠ 0
    let others := (List.range 16).flatMap fun i => if (s.wheel (16 * ld + i)).state = .closed then [] else (s.wheel (16 * ld + i)).watch
    if n = 0 ∨ 1024 < n ∨ dlead = 0 ∨ 16 < dlead ∨ 8 ≤ pclass ∨ 8 ≤ cclass ∨ 16 ≤ flags ∨ ¬ timersOk idle' rest'
        ∨ used.any (fun r => (s.ext.parts.get ld).dpaSize < r.1 + r.2) ∨ used.any (fun r => others.any (rangesMeet r)) then
      .error .invalidInput
    else match s.freeWheel ld with
      | none => .error .resourcesExhausted
      | some i =>
        let (load, es) := s.autoload ld sig n (bitOf flags 3)
        let old := s.wheel (16 * ld + i)
        let x : Wheel := {
          state := if es.isSome then .running else .survey
          n := n
          sig := sig
          dlead := dlead
          pclass := pclass
          cclass := cclass
          notune := bitOf flags 0
          nolearn := bitOf flags 1
          spec := bitOf flags 2
          autoload := bitOf flags 3
          idleMs := idle'
          restS := rest'
          watch := used
          late := old.late
          rephase := old.rephase
          backstep := old.backstep
          badpos := old.badpos
          skip := old.skip
          sched := (es.getD []).map fun e => { e with strm := s.newStream ld pclass }
          wasSurvey := es.isNone
          lastAdvance := s.now
          slotStart := s.now }
        .ok { s := s.setWheel (16 * ld + i) x, fields := [⟨0, 1, i⟩, ⟨1, 1, x.state.code⟩, ⟨2, 1, load⟩] })

/-- A wheel as it stands CLOSED: only its counters remain. -/
def Wheel.closedOf (x : Wheel) : Wheel :=
  { late := x.late, rephase := x.rephase, backstep := x.backstep, badpos := x.badpos, skip := x.skip }

/-- Close a wheel (R69). DEDUCED, log entry 44. -/
def State.closeWheel (s : State) (w : Nat) : State :=
  let s := s.dropWheel w
  let s := s.modStore fun st => { st with t0 := st.t0.filter fun c => c.wheel ≠ w }
  let s := s.modWheel w Wheel.closedOf
  { s with sweep := { s.sweep with entered := s.sweep.entered.filter fun m => m.1 ≠ w } }

/-- The open wheel that a command names. -/
def State.openIdx (s : State) (h : MbHdr) (index : Nat) : Except Rc Nat :=
  if 16 ≤ index ∨ (s.wheel (16 * whoOf h + index)).state = .closed then .error .invalidInput else .ok (16 * whoOf h + index)

/-- CLOSE_WHEEL (C031h, R69). -/
def execCloseWheel (h : MbHdr) (index : Nat) (s : State) : Res :=
  .next (s.mbRun h { opcode := 0xC031, ld := true, fm := .ld, len := [9] } fun s =>
    match s.openIdx h index with
    | .error c => .error c
    | .ok w => .ok { s := s.closeWheel w })

/-! ### Schedules -/

/-- IMPORT_SCHEDULE (C032h, R63): the checked image becomes the staged schedule. DEDUCED, log entry 44. -/
def execImportSchedule (h : MbHdr) (p : Part) (index : Nat) (s : State) : Res :=
  .next (s.mbParts h { opcode := 0xC032, ld := true, fm := .no } p fun img s =>
    match s.openIdx h index with
    | .error c => .error c
    | .ok w =>
      let x := s.wheel w
      match parseSchedule img x.sig x.n (s.ext.parts.get h.src).dpaSize with
      | none => .error .invalidInput
      | some es =>
        let had := match x.staged with | some l => l.length | none => 0
        if 65536 < es.length ∨ 262144 < s.schedTotal - had + es.length then .error .resourcesExhausted
        else
          let m := s.newStream h.src x.pclass
          .ok { s := s.modWheel w fun x => { x with staged := some (es.map fun e => { e with strm := m }) } })

/-- EXPORT_SCHEDULE (C033h): the active schedule's image. -/
def execExportSchedule (h : MbHdr) (o : OutReq) (index : Nat) (s : State) : Res :=
  .next (s.mbSnap h { opcode := 0xC033, ld := true, fm := .no, len := [32] } o 0 fun s =>
    match s.openIdx h index with
    | .error c => .error c
    | .ok w => .ok (scheduleImage (s.wheel w).sig (s.wheel w).n (s.wheel w).dlead (s.wheel w).sched, []))

/-- Is there a place for a schedule of an LD under a signature (R64)? -/
def State.storeRoom (s : State) (ld sig : Nat) : Bool :=
  (s.sweep.stored.any fun x => x.ld == ld && x.sig == sig) || (s.sweep.stored.filter fun x => x.ld = ld).length < 16

/-- Write a wheel's active schedule to the stored schedule area. DEDUCED, log entry 44. -/
def State.saveSchedule (s : State) (w : Nat) : State :=
  let x := s.wheel w
  let ld := w / 16
  let rest := s.sweep.stored.filter fun y => ¬ (y.ld = ld ∧ y.sig = x.sig)
  let s := s.chargeStore (64 + 16 * x.sched.length)
  { s with sweep := { s.sweep with stored := rest ++ [{ ld := ld, sig := x.sig, layers := x.n, sched := x.sched.map SEntry.fresh }] } }

/-- SAVE_SCHEDULE (C034h, R64): the schedule is stored when the command completes. DEDUCED, log entry 44. -/
def execSaveSchedule (h : MbHdr) (index : Nat) (s : State) : Res :=
  .next (s.mbBg h { opcode := 0xC034, ld := true, fm := .no, len := [9] } (.saveSchedule h index) fun s =>
    match s.openIdx h index with
    | .error c => .error c
    | .ok w => if s.storeRoom h.src (s.wheel w).sig then .ok s else .error .resourcesExhausted)

/-- DELETE_SAVED_SCHEDULE (C035h). -/
def execDeleteSavedSchedule (h : MbHdr) (sig : Nat) (s : State) : Res :=
  .next (s.mbRun h { opcode := 0xC035, ld := true, fm := .no, len := [24] } fun s =>
    if s.sweep.stored.any fun x => x.ld == h.src && x.sig == sig then
      .ok { s := { s with sweep := { s.sweep with stored := s.sweep.stored.filter fun x => ¬ (x.ld = h.src ∧ x.sig = sig) } } }
    else .error .invalidInput)

/-- GET_WHEEL_STATUS (C036h). -/
def execGetWheelStatus (h : MbHdr) (index : Nat) (s : State) : Res :=
  .next (s.mbRun h { opcode := 0xC036, ld := true, fm := .ld, len := [9] } fun s =>
    if 16 ≤ index then .error .invalidInput
    else
      let x := s.wheel (16 * whoOf h + index)
      let line := x.words.zipIdx.map fun p => (⟨8 * p.2, 8, p.1⟩ : Fld)
      let ranges := x.watch.zipIdx.map fun p => (⟨40 + 8 * p.2, 8, p.1.1 + p.1.2 * 2 ^ 32⟩ : Fld)
      let rest : List Fld := if x.state = .closed then []
        else [⟨104, 4, x.idleMs⟩, ⟨108, 4, x.restS⟩, ⟨112, 8, x.sig⟩, ⟨120, 1, x.flagsByte⟩]
      .ok { s := s, fields := line ++ ranges ++ rest })

/-- SET_WHEEL_TIMERS (C037h, R67). -/
def execSetWheelTimers (h : MbHdr) (index idle rest : Nat) (s : State) : Res :=
  .next (s.mbRun h { opcode := 0xC037, ld := true, fm := .no, len := [20] } fun s =>
    match s.openIdx h index with
    | .error c => .error c
    | .ok w => if timersOk idle rest then .ok { s := s.modWheel w fun x => { x with idleMs := idle, restS := rest } } else .error .invalidInput)

/-- REPHASE_WHEEL (C038h, R59): at the current position, with no late slot. A wheel with no position yet has nothing
to re-phase. DEDUCED, log entry 44. -/
def execRephaseWheel (h : MbHdr) (index : Nat) (s : State) : Res :=
  .next (s.mbRun h { opcode := 0xC038, ld := true, fm := .no, len := [9] } fun s =>
    match s.openIdx h index with
    | .error c => .error c
    | .ok w => if (s.wheel w).placed then .ok { s := s.rephaseAt w (s.wheel w).k } else .ok { s := s })

end Sys2Proof.Machine
end

