-- ==== Sys2Proof/Machine/Bolter.lean ====
section
/-! DEFINITION. The bolter, the recode sweep and table sets (R111, R118 to R123, Table 5.8). -/
namespace Sys2Proof.Machine

def State.setAt (s : State) (k : Nat) : TableSet := s.store.sets.get k

def State.modSet (s : State) (k : Nat) (f : TableSet → TableSet) : State :=
  s.modStore fun st => { st with sets := st.sets.upd k f }

/-! ### The span and gaps -/

/-- The extents of a set's span: one that is withdrawn or discarded has left it (R123). -/
def State.spanOf (s : State) (k : Nat) : List Extent :=
  s.ext.exts.filter fun e => !e.isAlias && Prof.lossy e.profile && Prof.tset e.profile == k && e.state != .withdrawing && e.state != .discarding

def insertBase (s : State) (e : Extent) : List Extent → List Extent
  | [] => [e]
  | x :: xs => if s.firstSack e ≤ s.firstSack x then e :: x :: xs else x :: insertBase s e xs

/-- The blocks of an extent that wait for the recode sweep, in DPA order (R120). -/
def State.pendingIn (s : State) (t : TableSet) (e : Extent) : List Nat :=
  sortNat ((s.blksOfExt e).filter fun b =>
    let r := (s.curBlk b).side
    r.kind == kStaged || (r.kind == kCoded && r.gen != t.cur))

/-- Blocks awaiting recode of a set: none unless it is RECODING. -/
def State.recodeBlocks (s : State) (k : Nat) : List (Extent × Nat) :=
  let t := s.setAt k
  if t.state = .recoding then ((s.spanOf k).foldr (insertBase s) []).flatMap fun e => (s.pendingIn t e).map fun b => (e, b) else []

/-- The staged blocks of a span, each with its extent. -/
def State.stagedOf (s : State) (k : Nat) : List (Extent × Nat) := (s.spanOf k).flatMap fun e => (s.stagedIn e).map fun b => (e, b)

/-- Does the fantail report a gap on a stone die (R70)? DEDUCED, log entry 46. -/
def State.gapOn (s : State) (d : Nat) : Bool :=
  !s.fetchBusy d && (dieStones d).all fun k => (s.stoneAt k).running.isNone

/-- DEDUCED, log entry 46. -/
def State.anyGap (s : State) : Bool := (List.range 4).any s.gapOn

/-! ### Builds (R118, R119) -/

/-- Is a rebuild of a READY set queued or running (R123)? -/
def State.rebuilding (s : State) (k : Nat) : Bool := s.store.builds.any fun b => b.set == k

def insertOrder (s : State) (x : Extent × Nat) : List (Extent × Nat) → List (Extent × Nat)
  | [] => [x]
  | y :: ys => if (s.curBlk x.2).order ≤ (s.curBlk y.2).order then x :: y :: ys else y :: insertOrder s x ys

/-- The sample of a build: staged blocks in the order of their writes, or the named extent in DPA order, up to 64 MiB. -/
def State.sample (s : State) (b : Build) : List Bytes :=
  let blks := match b.ext with
    | none => (s.stagedOf b.set).foldr (insertOrder s) []
    | some eid =>
      match s.extById eid with
      | some e => ((sortNat (s.blksOfExt e)).filter fun x => (s.curBlk x).side.kind != kZero && x < 128 * s.firstSack e + 131072).map fun x => (e, x)
      | none => []
  (blks.take 131072).filterMap fun x => s.blkData x.1 x.2

/-- Let the bolter run the oldest queued build when it is idle: it samples the set first (R118). -/
def State.bolterNext (s : State) : State :=
  match s.store.builds with
  | b :: rest => if b.running then s else s.modStore fun st => { st with builds := { b with running := true, start := s.now, sample := s.sample b } :: rest }
  | [] => s

/-- Queue a build of a set. -/
def State.queueBuild (s : State) (k : Nat) (ext : Option Nat) : State :=
  let s := s.modSet k fun t => { t with state := if t.state = .empty then .building else t.state }
  (s.modStore fun st => { st with builds := st.builds ++ [{ set := k, ext := ext, running := false, start := s.now }] }).bolterNext

/-- The gate operations at work over a set's span, by their order (R121). -/
def State.spanOps (s : State) (k : Nat) : List Nat :=
  let span := (s.spanOf k).map Extent.eid
  (s.gate.slots.cells.filter fun c => c.2.state.busy).filterMap fun c =>
    (c.2.op.filter fun o => o.begun && (s.opExtents c.1 o).any span.contains).map GateOp.order

/-- Make a codebook the current generation of a set, which becomes RECODING (R119). -/
def State.newGeneration (s : State) (k : Nat) (cb : List (List Nat)) : State :=
  let ops := s.spanOps k
  let s := (s.chargeStore 32768).modSet k fun t =>
    let g := if t.hasGen then 1 - t.cur else 0
    { t with
      state := .recoding
      cur := g
      gen0 := if g = 0 then cb else t.gen0
      gen1 := if g = 0 then t.gen1 else cb
      genOps := ops
      recodeStart := s.now }
  s.retryWrites fun w => w.why == .stageFull

/-- BOLTER_BUILD_START (R118): 64 MiB of a span are staged, or a queued build's turn has come. -/
def execBolterBuildStart (t set : Nat) (s : State) : Res :=
  let s := s.at_ t
  if ¬ s.up then .next s
  else if (s.setAt set).state = .empty ∧ 131072 ≤ (s.stagedOf set).length then .next (s.queueBuild set none)
  else .next s.bolterNext

/-- STAGE_IDLE_TIMEOUT (R118): 1 s after the last staged write to a span with staged blocks. -/
def execStageIdleTimeout (t set : Nat) (s : State) : Res :=
  let s := s.at_ t
  let x := s.setAt set
  if s.up ∧ x.state = .empty ∧ x.lastStaged + sec ≤ s.now ∧ s.stagedOf set ≠ [] then .next (s.queueBuild set none) else .next s

/-- BOLTER_BUILD_COMPLETE (R118, R119): the codebook of the running build becomes current. A C043h command ends with it. -/
def execBolterBuildComplete (t set : Nat) (s : State) : Res :=
  let s := s.at_ t
  match s.store.builds with
  | b :: rest =>
    if s.up ∧ b.set = set ∧ b.running then
      let x := s.setAt set
      let cb := bolterBuild x.src x.rate x.cols b.sample
      let s := s.modStore fun st => { st with builds := rest }
      .next (s.newGeneration set cb).bolterNext
    else .next s
  | [] => .next s

/-! ### The recode sweep (R120 to R122) -/

/-- A decoded block as the sweep hands it to the encoder: whole, of the internal class. -/
def State.recodeEnt (s : State) (e : Extent) (blk : Nat) (d : Bytes) : MergeEnt :=
  { blk := blk, opener := e.owner, eid := e.eid, data := d, valid := BitVec.allOnes 512, lastWrite := s.now, cls := 7
    order := s.store.written, passed := true }

/-- Recode one block: it is read, coded with the current generation and written as any other write. The entry of a
block with a newer write in the merge buffer passes, and the block is left to that write (R122, R243). -/
def State.recodeBlk (s : State) (e : Extent) (blk : Nat) : State :=
  if s.mergesOf blk ≠ [] then s.passBlk blk
  else match s.blkData e blk with
    | none => s
    | some d =>
      let s := (s.modStore fun st => { st with written := st.written + 1 }).writeTouch e.owner 7 e (blk / 128)
      match s.encodeEnt e (s.recodeEnt e blk d) with
      | some s => s.afterEncode blk
      | none => s

/-- Staging parts with no STAGED block left are returned (R37, R121). -/
def State.returnStage (s : State) (k : Nat) : State := (s.spanOf k).foldl State.returnStageOf s

/-- DEDUCED, log entry 46. -/
def State.recodeAll (s : State) (k : Nat) : State :=
  ((s.recodeBlocks k).foldl (fun s x => s.recodeBlk x.1 x.2) s).returnStage k

/-- RECODE_SWEEP (R120): in a gap, the blocks of a span that wait are recoded. -/
def execRecodeSweep (t set : Nat) (s : State) : Res :=
  let s := s.at_ t
  if s.up ∧ s.anyGap ∧ (s.setAt set).state = .recoding then
    .next ((s.modStore fun st => { st with lastGap := s.now }).recodeAll set)
  else .next s

/-- RECODE_GAP_TIMEOUT (R120): with no gap for 100 ms the sweep runs regardless. DEDUCED, log entry 46. -/
def execRecodeGapTimeout (t set : Nat) (s : State) : Res :=
  let s := s.at_ t
  let since := max s.store.lastGap (s.setAt set).recodeStart
  if s.up ∧ (s.setAt set).state = .recoding ∧ since + 100 * ms ≤ s.now then .next (s.recodeAll set) else .next s

/-- Operations dispatched before the current generation that may still decode with the old one (R121). -/
def State.inFlight (s : State) (k : Nat) : Nat :=
  if (s.setAt k).state ≠ .recoding then 0 else ((s.spanOps k).filter fun n => (s.setAt k).genOps.contains n).length

/-- GENERATION_RELEASE (R121): no block names the old generation or waits to be recoded, and nothing in flight may use it. -/
def execGenerationRelease (t set : Nat) (s : State) : Res :=
  let s := s.at_ t
  if s.up ∧ (s.setAt set).state = .recoding ∧ s.recodeBlocks set = [] ∧ s.inFlight set = 0 then
    .next ((s.modSet set fun x => { x with state := .ready, genOps := [] }).returnStage set)
  else .next s

/-! ### Commands (Table 5.8) -/

def SetState.code : SetState → Nat
  | .free => 0 | .empty => 1 | .building => 2 | .ready => 3 | .recoding => 4

/-- Is a set visible to the issuer of a command? -/
def State.seesSet (s : State) (h : MbHdr) (k : Nat) : Bool :=
  k < 4096 && (s.setAt k).state != .free && (h.src == fmSrc || (s.setAt k).party == s.party h.src)

/-- ALLOCATE_TABLE_SET (C040h, R104, R111). -/
def execAllocateTableSet (h : MbHdr) (src rate cols : Nat) (s : State) : Res :=
  .next (s.mbRun h { opcode := 0xC040, ld := true, fm := .no, len := [11] } fun s =>
    if ¬ rateAllowed src rate ∨ ¬ [1, 2, 4, 8, 16, 32].contains cols then .error .invalidInput
    else match (List.range 4096).find? fun k => (s.setAt k).state == .free with
      | none => .error .resourcesExhausted
      | some k => .ok { s := s.modSet k fun _ => { state := .empty, party := s.party h.src, src := src, rate := rate, cols := cols },
                        fields := [⟨0, 2, k⟩] })

/-- Does any region profile name a set? -/
def State.profileNames (s : State) (k : Nat) : Bool :=
  s.ext.profiles.cells.any fun c => match c.2 with | some p => Prof.lossy p && Prof.tset p == k | none => false

/-- FREE_TABLE_SET (C041h, R123). -/
def execFreeTableSet (h : MbHdr) (set : Nat) (s : State) : Res :=
  .next (s.mbRun h { opcode := 0xC041, ld := true, fm := .no, len := [10] } fun s =>
    if ¬ s.seesSet h set then .error .invalidInput
    else if s.profileNames set ∨ (s.setAt set).state = .building ∨ (s.setAt set).state = .recoding ∨ s.rebuilding set then .error .busy
    else .ok { s := s.modSet set fun _ => {} })

/-- GET_TABLE_SET_STATUS (C042h). DEDUCED, log entry 47. -/
def execGetTableSetStatus (h : MbHdr) (set : Nat) (s : State) : Res :=
  .next (s.mbRun h { opcode := 0xC042, ld := true, fm := .either, len := [10] } fun s =>
    if ¬ (s.seesSet h set ∨ (h.src = fmSrc ∧ set < 4096)) then .error .invalidInput
    else
      let t := s.setAt set
      .ok { s := s, fields := [⟨0, 1, t.state.code⟩, ⟨1, 1, t.src⟩, ⟨2, 1, t.rate⟩, ⟨3, 1, t.cols⟩, ⟨4, 1, t.cur⟩,
              ⟨8, 8, (s.recodeBlocks set).length⟩, ⟨16, 4, s.inFlight set⟩] })

/-- REBUILD_TABLE_SET (C043h, R118, R123): it completes with the build. DEDUCED, log entry 47. -/
def execRebuildTableSet (h : MbHdr) (set base : Nat) (s : State) : Res :=
  .next (s.mbBg h { opcode := 0xC043, ld := true, fm := .no, len := [24] } (.rebuildTableSet h set base) fun s =>
    if ¬ s.seesSet h set then .error .invalidInput
    else if (s.setAt set).state = .building ∨ (s.setAt set).state = .recoding ∨ s.rebuilding set then .error .busy
    else match (s.spanOf set).find? fun e => e.ld = h.src ∧ e.base = base with
      | none => .error .invalidInput
      | some e => .ok (s.queueBuild set (if (s.setAt set).state = .empty then none else some e.eid)))

/-- IMPORT_CODEBOOK (C044h, R119, R123). -/
def execImportCodebook (h : MbHdr) (set : Nat) (image : Bytes) (s : State) : Res :=
  .next (s.mbRun h { opcode := 0xC044, ld := true, fm := .no, len := [32800] } fun s =>
    let t := s.setAt set
    if ¬ s.seesSet h set then .error .invalidInput
    else if t.state = .building ∨ t.state = .recoding ∨ s.rebuilding set then .error .busy
    else match codebookOf t.src t.rate t.cols image with
      | none => .error .invalidInput
      | some cb => .ok { s := s.newGeneration set cb })

/-- EXPORT_CODEBOOK (C045h). -/
def execExportCodebook (h : MbHdr) (set : Nat) (s : State) : Res :=
  .next (s.mbRun h { opcode := 0xC045, ld := true, fm := .no, len := [10] } fun s =>
    let t := s.setAt set
    if ¬ s.seesSet h set ∨ ¬ t.hasGen then .error .invalidInput
    else .ok { s := s, fields := [⟨0, 1, t.cur⟩], blob := codebookImage t.src (t.book t.cur) })

end Sys2Proof.Machine
end

