-- ==== Sys2Proof/Machine/Near.lean ====
section
/-! DEFINITION. The near tier's own events and commands: refresh, self-refresh, frequency changes, retraining
(chapter 09). -/
namespace Sys2Proof.Machine

def State.stackAt (s : State) (k : Nat) : Stack := s.near.stks.get k

/-- The thresholds of Table 17.8: warning, step, retreat, trip. -/
def warnAt : Part17 → Int | .engine => 75 | .flash => 65 | _ => 100
def stepAt : Part17 → Int | .engine => 80 | .flash => 70 | _ => 105
def retreatAt : Part17 → Int | .engine => 77 | .flash => 67 | _ => 102
def tripAt : Part17 → Int | .engine => 90 | .flash => 80 | _ => 115

/-- Set a sensor's reading. `lastHot` is the last moment at which it may have been at or above its retreat threshold (R416). -/
def State.setTemp (s : State) (p : Part17) (unit : Nat) (temp : Int) : State :=
  let put := fun (x : Sensor) => { x with
    temp := temp, lastHot := if retreatAt p ≤ temp ∨ retreatAt p ≤ x.temp then s.now else x.lastHot }
  { s with health := { s.health with sensors := s.health.sensors.upd (sensorKey p unit) put } }

/-! ### Refresh (R232, R233) -/

/-- The banks of one channel and rank, as their places in the hashed slot index. -/
def onRank (channel rank bank : Nat) : Bool := bank % 8 == channel && bank / 8 % 2 == rank

/-- REFRESH_DUE: a rank's refresh falls due; it is issued, with the rank's targeted refreshes, or postponed once while
requests are queued (R232, R233). DEDUCED, log entry 50. -/
def execRefreshDue (t stack channel rank : Nat) (queued : Bool) (s : State) : Res :=
  let s := s.at_ t
  let x := s.stackAt stack
  let key := 2 * channel + rank
  let due := x.refreshAt.get key + x.interval
  if ¬ s.up ∨ 12 ≤ stack ∨ 8 ≤ channel ∨ 2 ≤ rank ∨ x.state ≠ .active ∨ s.now < due then .next s
  else if queued ∧ ¬ x.refreshLate.get key then
    .next (s.modStack stack fun x => { x with refreshLate := x.refreshLate.set key true })
  else if queued ∧ s.now < due + x.interval then .next s
  else
    let mine := x.targeted.filter fun b => onRank channel rank b.1
    let s := s.modNear fun n => { n with nref := bump 64 n.nref mine.length }
    .next (s.modStack stack fun x => { x with
      refreshAt := x.refreshAt.set key (if x.refreshLate.get key then due else s.now)
      refreshLate := x.refreshLate.set key false
      targeted := x.targeted.filter fun b => !onRank channel rank b.1 })

/-- REFRESH_WINDOW_HOT: the die temperature of a stack crosses 85 °C and its window changes (R232). -/
def execRefreshWindowHot (t stack : Nat) (temp : Int) (s : State) : Res :=
  let s := s.at_ t
  if s.up ∧ stack < 12 then
    let s' := s.setTemp .stack stack temp
    .next ((s'.modStack stack fun x => { x with hot := decide (85 ≤ temp) }).noteVitals s)
  else .next s

/-! ### Self-refresh (R234) -/

/-- Is a stack idle as R234 says, but for its idle time? -/
def State.stackIdle (s : State) (x : Stack) : Bool :=
  x.state == .active && x.targeted.isEmpty && s.near.target.isNone && !x.slotNow s.now && !(List.range 8).any (x.slotDue s.now)

/-- SELF_REFRESH_IDLE: a stack idle for its idle time enters self-refresh. -/
def execSelfRefreshIdle (t stack : Nat) (s : State) : Res :=
  let s := s.at_ t
  let x := s.stackAt stack
  if s.up ∧ stack < 12 ∧ s.near.sridle ≠ 0 ∧ s.stackIdle x ∧ x.lastUse + s.near.sridle * us ≤ s.now then
    .next (s.modStack stack fun x => { x with state := .selfref, srentry := bump 32 x.srentry 1 })
  else .next s

/-- SET_SELF_REFRESH_IDLE (C0E2h). -/
def execSetSelfRefreshIdle (h : MbHdr) (idle : Nat) (s : State) : Res :=
  .next (s.mbRun h { opcode := 0xC0E2, ld := false, fm := .module, len := [12] } fun s =>
    if idle = 1 ∨ 1000 < idle then .error .invalidInput else .ok { s := s.modNear fun n => { n with sridle := idle } })

/-- SET_NEIGHBOUR_REFRESH (C091h, R233). -/
def execSetNeighbourRefresh (h : MbHdr) (e : Nat) (s : State) : Res :=
  .next (s.mbRun h { opcode := 0xC091, ld := false, fm := .module, len := [9] } fun s =>
    if e < 6 ∨ 14 < e then .error .invalidInput else .ok { s := s.modNear fun n => { n with nre := e } })

/-! ### Frequency changes (R236 to R238) -/

/-- Queue a set for retraining: its STALE bit, and its turn if no other set of the stack is being retrained. DEDUCED, log entry 49. -/
def Stack.queueTrain (x : Stack) (p : Nat) : Stack :=
  { x with stale := x.stale ||| BitVec.ofNat 4 (2 ^ p), retrainPoint := some (x.retrainPoint.getD p) }

/-- FREQ_CHANGE_STACK_DONE: the spot check of a stack's change, after which its targeted refreshes are issued. A failure takes the stack back to its previous point and
marks the new set stale; a failure there too loses the stack (R236 to R238). DEDUCED, log entry 49. -/
def execFreqChangeStackDone (t stack : Nat) (spotOk : Bool) (s : State) : Res :=
  let s := s.at_ t
  let x := s.stackAt stack
  if ¬ s.up ∨ 12 ≤ stack ∨ x.state ≠ .changing ∨ s.now < x.changeAt then .next s
  else
    let dst := x.goal.getD x.point
    if spotOk then
      let s' := (s.modNear fun n => { n with nref := bump 64 n.nref x.targeted.length }).modStack stack fun x => { x with
        state := .active, point := dst, goal := none, checkAtExit := false, targeted := [], lastUse := s.now }
      .next (s'.pumpNear.caps.retryReads fun r => r.why == .tierMove && (s.sack r.sack).stack == stack)
    else if x.retryPoint.isSome ∧ dst = x.prev then .next (((s.stackFails stack).caps).noteVitals s)
    else
      let s' := s.modStack stack fun x =>
        { x.queueTrain dst with checkAtExit := false, retryPoint := some dst, goal := some x.prev, changeAt := s.now + 1700 }
      .next s'.caps

/-! ### Retraining (R240) -/

/-- Start the change of one stack alone to the point it was owed (R238). -/
def State.changeAlone (s : State) (stack : Nat) : State :=
  let x := s.stackAt stack
  match x.retryPoint with
  | some p =>
    if x.stale.getLsbD p ∨ s.near.target.isSome ∨ x.state = .changing ∨ x.state = .failed then s
    else s.turnStack p stack
  | none => s

/-- RETRAIN_DUE: a set is queued by a temperature move, by 10 s since its last retraining, or because it is stale. -/
def execRetrainDue (t stack point : Nat) (temp : Int) (s : State) : Res :=
  let s := s.at_ t
  let x := s.stackAt stack
  if ¬ s.up ∨ 12 ≤ stack ∨ 4 ≤ point ∨ x.state = .failed then .next s
  else
    let s' := (s.setTemp .stack stack temp).noteVitals s
    let move := (temp - x.trainTemp.get point).natAbs
    let due := if point = x.point then decide (8 ≤ move) || decide (x.trainAt.get point + 10 * sec ≤ s.now)
      else decide (15 ≤ move) || x.stale.getLsbD point
    if due then .next (s'.modStack stack fun x => x.queueTrain point) else .next s'

/-- The next queued set of a stack. DEDUCED, log entry 49. -/
def Stack.nextTrain (x : Stack) : Option Nat := (List.range 4).find? fun p => x.stale.getLsbD p

/-- May a slot not begin on a channel: it is not due, another channel of the stack is in one, the stack is changing or FAILED, or a
change is in progress (R237, R240)? -/
def State.slotHeld (s : State) (x : Stack) (c : Nat) : Bool :=
  !x.slotDue s.now c || x.slotNow s.now || x.state == .failed || x.state == .changing || s.near.target.isSome

/-- A slot ends self-refresh and postpones the next refresh of its channel's two ranks (R240). -/
def State.beginSlot (s : State) (stack channel : Nat) : State :=
  (s.wakeStack stack).modStack stack fun x => { x with
    refreshLate := (x.refreshLate.set (2 * channel) true).set (2 * channel + 1) true }

/-- RETRAIN_SLOT: a slot on one channel of the set in hand; after 48 slots on every channel the new values replace the
old ones. A failed retraining starts over, and the third loses a stack that could not change (R238, R240). DEDUCED, log entry 49. -/
def execRetrainSlot (t stack channel : Nat) (ok : Bool) (s : State) : Res :=
  let s := s.at_ t
  let x := s.stackAt stack
  match x.retrainPoint with
  | none => .next s
  | some p =>
    if ¬ s.up ∨ 12 ≤ stack ∨ 8 ≤ channel ∨ s.slotHeld x channel = true then .next s
    else if ¬ ok then
      let s := s.beginSlot stack channel
      let fails := if x.retryPoint = some p then x.trainFails + 1 else x.trainFails
      if x.retryPoint = some p ∧ 3 ≤ fails then .next (((s.stackFails stack).caps).noteVitals s)
      else .next (s.modStack stack fun x => { x with trainFails := fails, slotsDone := { dflt := 0 } })
    else
      let done := x.slotsDone.set channel (x.slotsDone.get channel + 1)
      let s := (s.beginSlot stack channel).modStack stack fun x => { x with slotsDone := done, lastSlot := x.lastSlot.set channel s.now }
      if (List.range 8).all fun c => decide (48 ≤ done.get c) then
        let temp := (s.health.sensors.get (sensorKey .stack stack)).temp
        let s := s.modStack stack fun x =>
          let x := { x with
            stale := x.stale &&& ~~~ BitVec.ofNat 4 (2 ^ p)
            trainTemp := x.trainTemp.set p temp
            trainAt := x.trainAt.set p s.now
            sets := x.sets.set p s.freeCtr
            slotsDone := { dflt := 0 }
            trainFails := 0 }
          { x with retrainPoint := x.nextTrain }
        .next ({ s with freeCtr := s.freeCtr + 1 }.changeAlone stack)
      else .next s

/-! ### Registers -/

def StackState.code : StackState → Nat
  | .active => 0 | .selfref => 1 | .changing => 2 | .slot => 3 | .failed => 4

def State.freqWord (s : State) : Nat :=
  let mixed := s.healthyStacks.any fun k => (s.stackAt k).point != s.near.point
  s.near.point + 4 * b2n s.near.target.isSome + 8 * b2n mixed + s.near.changes * 2 ^ 32

/-- NT_STACK: STATE reads 3 while a retraining slot is in progress. -/
def Stack.word (x : Stack) (now : Nat) : Nat :=
  (if x.state = .active ∧ x.slotNow now then 3 else x.state.code) + x.point * 8 + 32 * b2n x.hot + x.stale.toNat * 64 + x.nrhold * 2 ^ 16 + x.srentry * 2 ^ 32

def State.ntConfig (s : State) : Nat := s.near.sridle + s.near.nre * 2 ^ 10

/-- DEDUCED, log entry 9. -/
def State.mergeWord (s : State) : Nat :=
  s.store.merges.length + s.store.mergePoisonDrop * 2 ^ 16 + s.store.mergeEarly * 2 ^ 32 + s.store.mergeRmw * 2 ^ 48

end Sys2Proof.Machine
end

