-- ==== Sys2Proof/Machine/Deep.lean ====
section
/-! DEFINITION. The deep tier: flash places, page reads, garbage collection, wear, die failures, the journal, the
hold-up bank, the flush of mirror records (chapter 10). -/
namespace Sys2Proof.Machine

def State.modDeep (s : State) (f : DeepSt → DeepSt) : State := { s with deep := f s.deep }

def dayNs : Nat := 86400 * sec
def hourNs : Nat := 3600 * sec

/-- Powered time of the module. -/
def State.powered (s : State) : Nat := s.clock.poweredTotal + (s.now - s.clock.poweredSince)

/-! ### Flash places (R246, R249). Die j of package k is die 16k + j, of parity group j. A block of a die is
4,096 × plane + block; its key is 16,384 × die + that. -/

def blkKey (die block : Nat) : Nat := 16384 * die + block
def SlotLoc.die (l : SlotLoc) : Nat := 16 * l.pkg + l.group
def SlotLoc.key (l : SlotLoc) : Nat := blkKey l.die (4096 * l.plane + l.block)

/-- The dies of a parity group: die g of every package. -/
def groupDies (g : Nat) : List Nat := (List.range 16).map fun k => 16 * k + g

/-- The blocks of block set `b` of a group. -/
def setBlocks (g b : Nat) : List Nat := (groupDies g).flatMap fun d => (List.range 4).map fun p => blkKey d (4096 * p + b)

/-- Place `pos` of a block set: 128 slots to a stripe, one of its sixteen packages holding parity. DESIGN CHOICE, log entry 19. -/
def placeAt (g b pos : Nat) : SlotLoc :=
  { group := g, plane := pos / 2 % 4, block := b, page := pos / 128, pkg := pos / 8 % 16, half := pos % 2, valid := true }

/-- The package whose die holds the parity page of a stripe: page index mod 16, or where that die has failed the next that has not
(R246, R254). DESIGN CHOICE, log entry 19. -/
def State.parityPkg (s : State) (g page : Nat) : Nat :=
  ((((List.range 16).map fun i => (page + i) % 16).find? fun k => !s.deep.dieFailed.get (16 * k + g))).getD (page % 16)

/-- May a place take data: not on the stripe's parity die, a failed die or a retired block. -/
def State.placeOk (s : State) (l : SlotLoc) : Bool :=
  l.pkg != s.parityPkg l.group l.page && !s.deep.dieFailed.get l.die && !(s.deep.blocks.get l.key).retired

/-- The first usable place of an open set from `pos` on. DESIGN CHOICE, log entry 19. -/
def State.scanPlace (s : State) (g b : Nat) : Nat → Nat → Option Nat
  | 0, _ => none
  | fuel + 1, pos => if 131072 ≤ pos then none else if s.placeOk (placeAt g b pos) then some pos else s.scanPlace g b fuel (pos + 1)

/-- The block sets of a group that are not free. -/
def State.usedSets (s : State) (g : Nat) : List Nat :=
  (s.deep.blocks.cells.filter fun c => c.1 / 16384 % 16 == g && !c.2.free).foldl (fun a c =>
    let b := c.1 % 4096
    if a.contains b then a else a ++ [b]) []

def State.freeSets (s : State) (g : Nat) : Nat := 4096 - (s.usedSets g).length

def State.setPe (s : State) (g b : Nat) : Nat := ((setBlocks g b).map fun k => (s.deep.blocks.get k).pe).foldl max 0

/-- The least-worn free set of a group, the lowest on a tie (R250): a set never written has no wear. DESIGN CHOICE, log entry 19. -/
def State.freshSet (s : State) (g : Nat) : Option Nat :=
  let used := s.usedSets g
  let worn := (s.deep.blocks.cells.filter fun c => c.1 / 16384 % 16 == g && c.2.pe != 0).map fun c => c.1 % 4096
  match lowestFree (used ++ worn) 4096 with
  | some b => some b
  | none => (worn.filter fun b => !used.contains b).foldl (fun a b =>
      match a with
      | none => some b
      | some c => if s.setPe g b < s.setPe g c ∨ (s.setPe g b = s.setPe g c ∧ b < c) then some b else a) none

/-- Open a block set: its blocks are no longer free. -/
def State.openSet (s : State) (g b : Nat) : State :=
  let t := s.powered
  s.modDeep fun d => { d with
    openSets := d.openSets.set g (some { block := b, pos := 0 })
    blocks := d.blocks.updAll (setBlocks g b) fun _ x => { x with free := false, reads := 0, since := t } }

/-- The next place of a group, opening a new set where the open one is full. -/
def State.takePlace (s : State) (g : Nat) : Nat → Option (SlotLoc × State)
  | 0 => none
  | fuel + 1 =>
    let next := match s.deep.openSets.get g with
      | some o => (s.scanPlace g o.block 256 o.pos).map fun p => (o.block, p)
      | none => none
    match next with
    | some (b, p) => some (placeAt g b p, s.modDeep fun d => { d with openSets := d.openSets.set g (some { block := b, pos := p + 1 }) })
    | none =>
      match s.freshSet g with
      | some b => (s.openSet g b).takePlace g fuel
      | none => none

/-- A slot image has been programmed at a new location: the entry moves there, journalled (R249, R257). -/
def State.placeSlot (s : State) (slot : Nat) (l : SlotLoc) : State :=
  (s.modDeep fun d => { d with
    slots := d.slots.set slot l
    rebuilds := d.rebuilds.map fun r => { r with slots := r.slots.filter (· ≠ slot) } }).journal 1

/-- Move a valid slot to a new place of its group. -/
def State.moveSlot (s : State) (slot : Nat) : State :=
  let l := s.deep.slots.get slot
  if l.valid then match s.takePlace l.group 2 with
    | some (l', s) => s.placeSlot slot l'
    | none => s
  else s

/-- Relocation counted in DT_PROG.RELOC (R250, R253). -/
def State.relocate (s : State) (slots : List Nat) : State :=
  slots.foldl State.moveSlot (s.modDeep fun d => { d with reloc := d.reloc + 8192 * slots.length })

/-- The valid slots whose place satisfies `p`. -/
def State.slotsAt (s : State) (p : SlotLoc → Bool) : List Nat :=
  (s.deep.slots.cells.filter fun c => c.2.valid && p c.2).map Prod.fst

/-! ### Pages and parity (R246, R247) -/

/-- The image of a slot: the payload units that lie in it (R249). -/
def State.slotImage (s : State) (slot : Nat) : Bytes :=
  match s.store.sacks.keys.find? fun k => (s.sack k).mst != .unmapped && (s.sack k).slot ≤ slot && slot ≤ (s.sack k).slot + (s.sack k).size with
  | none => zeros 8192
  | some k =>
    let unit := match s.extOfSack k with | some e => Prof.unit e.profile | none => 512
    fit 8192 (((List.range 128).filter fun b => b * unit / 8192 == slot - (s.sack k).slot).flatMap fun b =>
      fit unit (s.store.t2.get (128 * k + b)).bytes)

/-- What a half of a data page holds: the image of the slot whose place it is. -/
def State.halfPage (s : State) (l : SlotLoc) : Bytes :=
  match s.slotsAt fun x => x == l with
  | slot :: _ => s.slotImage slot
  | [] => zeros 8192

/-- The data page of a package in a stripe: 4 planes of 16 KiB. -/
def State.dataPage (s : State) (g b page pkg : Nat) : Bytes :=
  (List.range 8).flatMap fun i =>
    s.halfPage { group := g, plane := i / 2, block := b, page := page, pkg := pkg, half := i % 2, valid := true }

/-- The parity page of a stripe: the XOR of its data pages (R246). -/
def State.parityPage (s : State) (g b page : Nat) : Bytes :=
  (((List.range 16).filter (· != s.parityPkg g page)).map (s.dataPage g b page)).foldl (fun a x => List.zipWith (· ^^^ ·) a x) (zeros 65536)

/-! ### Wear (DT_WEAR) -/

def State.avgPe (s : State) : Nat :=
  let live := 4194304 - (s.deep.blocks.cells.filter fun c => c.2.retired).length
  ((s.deep.blocks.cells.filter fun c => !c.2.retired).map fun c => c.2.pe).foldl (· + ·) 0 / live

def State.maxPe (s : State) : Nat := (s.deep.blocks.cells.map fun c => c.2.pe).foldl max 0

/-- Erase a block set: its blocks are free again, with one more cycle. -/
def State.eraseSet (s : State) (g b : Nat) : State :=
  let s := s.modDeep fun d => { d with
    openSets := if (d.openSets.get g).any fun o => o.block == b then d.openSets.set g none else d.openSets
    blocks := d.blocks.updAll (setBlocks g b) fun _ x => { x with free := true, pe := x.pe + 1, reads := 0 } }
  s.modDeep fun d => { d with wearUsed := min 1000 (s.avgPe / 3) }

/-- Move the valid slots out of a set and erase it. -/
def State.moveSet (s : State) (g b : Nat) : State :=
  let s := s.modDeep fun d => { d with openSets := if (d.openSets.get g).any fun o => o.block == b then d.openSets.set g none else d.openSets }
  let s := s.relocate (s.slotsAt fun l => l.group == g && l.block == b)
  if (s.slotsAt fun l => l.group == g && l.block == b).isEmpty then s.eraseSet g b else s

def State.setValid (s : State) (g b : Nat) : Nat := (s.slotsAt fun l => l.group == g && l.block == b).length

/-- The used set, but for the open one, that is least by a measure. -/
def State.leastSet (s : State) (g : Nat) (f : Nat → Nat) (among : List Nat) : Option Nat :=
  (among.filter fun b => !((s.deep.openSets.get g).any fun o => o.block == b)).foldl (fun a b =>
    match a with | none => some b | some c => if f b < f c then some b else a) none

/-- GARBAGE_COLLECT: below 2 % of free block sets the set with the fewest valid slots is moved and erased (R250). -/
def execGarbageCollect (t group : Nat) (s : State) : Res :=
  let s := s.at_ t
  if s.up ∧ group < 16 ∧ 100 * s.freeSets group < 2 * 4096 then
    match s.leastSet group (s.setValid group) (s.usedSets group) with
    | some b => .next ((s.moveSet group b).noteVitals s)
    | none => .next s
  else .next s

/-- WEAR_LEVEL_MOVE: with more than 300 cycles between blocks of a group the least-worn valid set is moved (R250). -/
def execWearLevelMove (t group : Nat) (s : State) : Res :=
  let s := s.at_ t
  let most := ((s.deep.blocks.cells.filter fun c => c.1 / 16384 % 16 == group).map fun c => c.2.pe).foldl max 0
  let valid := (s.usedSets group).filter fun b => s.setValid group b != 0
  if s.up ∧ group < 16 then
    match s.leastSet group (s.setPe group) valid with
    | some b => if s.setPe group b + 300 < most then .next ((s.moveSet group b).noteVitals s) else .next s
    | none => .next s
  else .next s

/-! ### Reads, programs, refresh and patrol -/

/-- The sack that owns a deep slot. -/
def State.sackOfSlot (s : State) (slot : Nat) : Option Nat :=
  s.store.sacks.keys.find? fun k => (s.sack k).mst != .unmapped && (s.sack k).slot ≤ slot && slot ≤ (s.sack k).slot + (s.sack k).size

/-- The blocks of a sack whose T2 payload lies in one of its slots: those whose KIND keeps a payload there (Table 4.7, R278). -/
def State.slotBlocks (s : State) (sack slot : Nat) (unit : Nat) : List Nat :=
  (((List.range 128).filter fun b => b * unit / 8192 == slot - (s.sack sack).slot).map fun b => 128 * sack + b).filter fun b =>
    let kind := (s.store.t2.get b).side.kind
    kind == kCoded || kind == kSplit

/-- A slot that cannot be read: a halt with cause 0 of its transfer, or the same for its blocks where none runs (R101). DEDUCED, log entry 51. -/
def State.slotLost (s : State) (slot : Nat) : State :=
  match s.sackOfSlot slot with
  | none => s
  | some k =>
    match s.extOfSack k with
    | none => s
    | some e =>
      let bs := s.slotBlocks k slot (Prof.unit e.profile)
      match s.store.xfers.find? fun x => x.sack = k ∧ x.chan.isSome with
      | some x => s.haltXfer x e (x.chan.getD 0) 0 bs
      | none => (bs.foldl (fun s b => s.haltBlock e 0 b) s).retryReads fun r => r.sack == k

/-- The blocks whose units lie in a slot of a sack, as numbers in it. -/
def State.unitsIn (s : State) (sack slot : Nat) : List Nat :=
  let unit := match s.extOfSack sack with | some e => Prof.unit e.profile | none => 512
  (List.range 128).filter fun b => b * unit / 8192 == slot - (s.sack sack).slot

/-- The slot that a sack's transfer carries next: that of the first block still to arrive, held reads' blocks first in the order of
their acceptance, then the rest (R92). -/
def State.nextSlot (s : State) (sack : Nat) : Option Nat :=
  let k := s.sack sack
  let unit := match s.extOfSack sack with | some e => Prof.unit e.profile | none => 512
  let wanted := (s.store.heldReads.filter fun r => r.sack = sack).map fun r => r.blk % 128
  ((wanted ++ List.range 128).find? fun b => !k.arrived.getLsbD b).map fun b => k.slot + b * unit / 8192

/-- An entry's stream is charged with what is read of a sack that it waits for. -/
def SEntry.charged (sack cls n time : Nat) (en : SEntry) : SEntry :=
  if en.waiting.contains sack then { en with strm := en.strm.use cls n time } else en

/-- Bytes that a sack's transfer has read: charged to its class at the DEEPRD weir and, written to their frames, at the NEAR weir, and to
the streams of the transfer and of the wheels' entries that wait for the sack (Tables 8.1, 8.5, 8.6). -/
def State.chargePage (s : State) (sack n : Nat) : State :=
  match s.xferOf sack with
  | none => s
  | some x =>
    let time := s.timeOf x.ld
    let s := s.serveAs x.inG x.ld 1 x.cls n (s.now - x.start) (x.wants.head?.map Prod.fst)
    let s := (s.serve x.ld 0 x.cls n 0 none).putXfer { x with strm := x.strm.use x.cls n time }
    x.wants.foldl (fun s w => s.modWheel w.1 fun v => { v with sched := v.sched.map (SEntry.charged sack x.cls n time) }) s

/-- A page read has ended for a sack on its way: where its slot is the next that the transfer carries, its blocks have arrived and what
was held for them is served (R92). DEDUCED, log entry 51. -/
def State.pageArrived (s : State) (sack slot : Nat) : State :=
  let k := s.sack sack
  if ¬ (k.mst = .promoting ∨ k.mst = .specPromoting) ∨ s.issuedXfer sack = false ∨ s.nextSlot sack ≠ some slot then s
  else
    let bs := s.unitsIn sack slot
    let bits := bs.foldl (fun a b => a ||| BitVec.ofNat 128 (2 ^ b)) (0 : BitVec 128)
    let s := s.chargePage sack ((bs.map fun b => (s.store.t2.get (sack * 128 + b)).bytes.length).foldl (· + ·) 0)
    let s := s.modSack sack fun k => { k with arrived := k.arrived ||| bits }
    s.retryHeld (fun r => r.sack == sack && bits.getLsbD (r.blk % 128)) fun w =>
      w.sack == sack && bits.getLsbD (w.blk % 128) && w.why == .completing

/-- The transfer of a sack repeated a page read or went through a parity rebuild (Table 3.5). -/
def State.markRetry (s : State) (sack : Nat) : State :=
  s.modStore fun st => { st with xfers := st.xfers.map fun x => if x.sack = sack ∧ x.chan.isSome then { x with retry := true } else x }

/-- A page has been read: its transfer goes on. -/
def State.pageRead (s : State) (slot : Nat) (retried : Bool) : State :=
  match s.sackOfSlot slot with
  | none => s
  | some k => (if retried then s.markRetry k else s).pageArrived k slot

/-- DEEP_PAGE_READ: a flash page read of a slot ends; a page of a failed die comes from parity, and one that cannot be
rebuilt is lost to its channel (R247, R254). -/
def execDeepPageRead (t slot : Nat) (outcome : PageOutcome) (s : State) : Res :=
  let s := s.at_ t
  let l := s.deep.slots.get slot
  if ¬ s.up ∨ ¬ l.valid then .next s
  else
    let s := (s.mapPage slot).modDeep fun d => { d with blocks := d.blocks.upd l.key fun b => { b with reads := b.reads + 1 } }
    let dead := s.deep.dieFailed.get l.die
    match outcome with
    | .clean => .next ((if dead then s.modDeep fun d => { d with parity := bump 16 d.parity 1 } else s).pageRead slot dead)
    | .retried => .next ((if dead then s.modDeep fun d => { d with parity := bump 16 d.parity 1 }
        else s.modDeep fun d => { d with retry := bump 32 d.retry 1 }).pageRead slot true)
    | .rebuilt => .next ((s.modDeep fun d => { d with
        retry := if dead then d.retry else bump 32 d.retry 1, parity := bump 16 d.parity 1 }).pageRead slot true)
    | .lost => .next ((s.modDeep fun d =>
        { d with retry := if dead then d.retry else bump 32 d.retry 1, uncorr := bump 16 d.uncorr 1 }).slotLost slot)

/-- SLOT_PROGRAM_DONE: a slot image program completes in a group's open stripe and the entry moves there (R249). DESIGN CHOICE, log entry 19. -/
def execSlotProgramDone (t slot group : Nat) (s : State) : Res :=
  let s := s.at_ t
  if s.up ∧ group < 16 ∧ s.deep.programming.contains slot then
    match s.takePlace group 2 with
    | some (l, s) => .next ((s.placeSlot slot l).modDeep fun d => { d with programming := d.programming.filter (· ≠ slot) })
    | none => .next s
  else .next s

def State.inBlock (s : State) (die block : Nat) : List Nat := s.slotsAt fun l => l.key == blkKey die block

/-- READ_REFRESH: a block past its reads, its correction margin or its age has its valid slots moved (R253). -/
def execReadRefresh (t die block : Nat) (margin : Bool) (s : State) : Res :=
  let s := s.at_ t
  let b := s.deep.blocks.get (blkKey die block)
  if s.up ∧ ¬ b.free ∧ (margin ∨ 200000 ≤ b.reads ∨ b.since + 180 * dayNs ≤ s.powered) then
    .next (s.relocate (s.inBlock die block))
  else .next s

/-- PATROL_READ: the patrol reads the valid pages of a block at a gap, or regardless once 24 hours behind (R253). -/
def execPatrolRead (t die block : Nat) (s : State) : Res :=
  let s := s.at_ t
  if s.up ∧ die < 256 ∧ block < 16384 ∧ (s.anyGap ∨ (s.deep.blocks.get (blkKey die block)).patrolled + 15 * dayNs ≤ s.now) then
    let n := (s.inBlock die block).length
    .next (s.modDeep fun d => { d with blocks := d.blocks.upd (blkKey die block) fun b => { b with reads := b.reads + n, patrolled := s.now } })
  else .next s

/-! ### Failures (R254 to R256) -/

/-- Over-provisioning in MiB: 8 TiB less 256 GiB for each failed die and 16 MiB for each retired block of another. DEDUCED, log entry 51. -/
def State.spareMib (s : State) : Nat :=
  8388608 - 262144 * ((List.range 256).filter fun d => s.deep.dieFailed.get d).length
    - 16 * (s.deep.blocks.cells.filter fun c => c.2.retired && !s.deep.dieFailed.get (c.1 / 16384)).length

/-- Take the over-provisioning left, with the low-spare event where it falls below 1 TiB (R256). -/
def State.noteSpare (s : State) : State :=
  let g := s.spareMib / 1024
  let low := decide (s.spareMib < 1048576)
  let before := s.deep.lowSpare
  let s := s.modDeep fun d => { d with spare := g, lowSpare := low }
  if low && !before then (s.post fmSrc 2 (Event.of 9 31 1 [⟨64, 2, g⟩])).modeChanged else s

/-- The slots whose stripes hold a page on a die: every valid slot of its group. -/
def State.groupSlots (s : State) (g : Nat) : List Nat := s.slotsAt fun l => l.group == g

/-- A flash die fails: served by parity and rebuilt; with a rebuild of its group not ended, the stripes that still hold
a page on the first failed die have lost two pages (R254, R255). DEDUCED, log entry 51. -/
def State.dieFails (s : State) (die : Nat) : State :=
  if 256 ≤ die ∨ s.deep.dieFailed.get die then s
  else
    let g := die % 16
    let lost := (s.deep.rebuilds.filter fun r => r.die % 16 == g).flatMap Rebuild.slots
    let slots := (s.groupSlots g).filter fun x => !lost.contains x
    let s := s.modDeep fun d => { d with
      dieFailed := d.dieFailed.set die true
      rebuilds := (d.rebuilds.map fun r => if r.die % 16 = g then { r with slots := [] } else r)
        ++ [{ die := die, slots := slots, total := slots.length }] }
    let s := lost.foldl State.slotLost s
    (((s.unitFailed 4 die).noteSpare).journal 1).caps

/-- FLASH_BLOCK_FAILURE: a failed block is retired and its slots moved; the eighth of a die in 24 hours fails the die. -/
def execFlashBlockFailure (t die block : Nat) (s : State) : Res :=
  let s := s.at_ t
  if ¬ s.up ∨ 256 ≤ die ∨ 16384 ≤ block ∨ s.deep.dieFailed.get die ∨ (s.deep.blocks.get (blkKey die block)).retired then .next s
  else
    let fails := (die, s.now) :: s.deep.dieFails.filter fun f => s.now < f.2 + dayNs
    let s' := s.modDeep fun d => { d with
      dieFails := fails
      blocks := d.blocks.upd (blkKey die block) fun b => { b with retired := true, free := false } }
    let s' := (s'.inBlock die block).foldl State.moveSlot s'
    let s' := if 8 ≤ (fails.filter fun f => f.1 == die).length then s'.dieFails die else s'.noteSpare
    .next (s'.noteVitals s)

/-- FLASH_DIE_FAILURE (R254, Table 1.8). -/
def execFlashDieFailure (t die : Nat) (s : State) : Res :=
  let s := s.at_ t
  if s.up then .next ((s.dieFails die).noteVitals s) else .next s

/-- DIE_REBUILD_COMPLETE: the data of a failed die has been rebuilt into its group's other dies (R254). DEDUCED, log entry 51. -/
def execDieRebuildComplete (t die : Nat) (s : State) : Res :=
  let s := s.at_ t
  match s.deep.rebuilds.find? fun r => r.die = die with
  | some r =>
    if s.up then
      let s := r.slots.foldl State.moveSlot s
      .next (((s.modDeep fun d => { d with rebuilds := d.rebuilds.filter fun x => x.die ≠ die }).journal 1).caps)
    else .next s
  | none => .next s

/-! ### The journal (R257, R258) -/

/-- JOURNAL_PAGE_PROGRAMMED: the records in the buffer are programmed. -/
def execJournalPageProgrammed (t : Nat) (s : State) : Res :=
  let s := s.at_ t
  if s.up then .next (s.modDeep fun d => { d with journalOpen := 0 }) else .next s

/-- CHECKPOINT_IMAGE_DONE: a checkpoint image completes and is marked in the journal. -/
def execCheckpointImageDone (t : Nat) (s : State) : Res :=
  let s := s.at_ t
  if s.up then .next ((s.modDeep fun d => { d with checkpoint := d.checkpoint + 1, journalSince := 0 }).journal 1) else .next s

/-! ### The hold-up bank (R260, R261) -/

def Bank.code : Bank → Nat
  | .charging => 0 | .healthy => 1 | .testing => 2 | .weak => 3 | .failed => 4

/-- Change the bank's state, with its event (R261). DEDUCED, log entry 52. -/
def State.setBank (s : State) (b : Bank) : State :=
  if s.deep.bank = b then s
  else
    let old := s.deep.bank
    (s.modDeep fun d => { d with bank := b }).post fmSrc 1
      (Event.of 10 31 1 [⟨64, 1, old.code⟩, ⟨65, 1, b.code⟩, ⟨66, 1, s.deep.energy⟩])

/-- Begin a test. -/
def State.startTest (s : State) : State :=
  (s.modDeep fun d => { d with before := d.bank, testAt := s.now }).setBank .testing

/-- HOLDUP_TEST_DUE: at power-up after charging, every PERIOD hours, or every 10 minutes while WEAK (R261). -/
def execHoldupTestDue (t : Nat) (s : State) : Res :=
  let s := s.at_ t
  let due := match s.deep.bank with
    | .charging => true
    | .healthy => decide (s.deep.lastTest + s.deep.period * hourNs ≤ s.now)
    | .weak => decide (s.deep.lastTest + 600 * sec ≤ s.now)
    | _ => false
  if s.up ∧ due = true then .next (s.startTest.noteVitals s) else .next s

/-- HOLDUP_TEST_COMPLETE: the bank's state by the energy, with hysteresis (R260). -/
def execHoldupTestComplete (t energy : Nat) (s : State) : Res :=
  let s := s.at_ t
  if s.up ∧ s.deep.bank = .testing ∧ s.deep.testAt + 2500 * ms ≤ s.now then
    let good := 40 ≤ energy ∨ (36 ≤ energy ∧ s.deep.before = .healthy)
    let s' := (s.modDeep fun d => { d with energy := min energy 255, lastTest := s.now }).setBank (if good then .healthy else .weak)
    .next (s'.modeChanged.noteVitals s)
  else .next s

/-- HOLDUP_BANK_FAILED: the bank cannot charge (R260). -/
def execHoldupBankFailed (t : Nat) (s : State) : Res :=
  let s := s.at_ t
  if s.up then .next ((s.setBank .failed).modeChanged.noteVitals s) else .next s

/-- TEST_HOLDUP_BANK (C0E5h): Busy while a test or the power-up charge runs. DEDUCED, log entry 52. -/
def execTestHoldupBank (h : MbHdr) (s : State) : Res :=
  .next (s.mbBg h { opcode := 0xC0E5, ld := false, fm := .module } (.testHoldupBank h) fun s =>
    if s.deep.bank = .testing ∨ s.deep.bank = .charging then .error .busy else .ok (s.startTest.noteVitals s))

/-- SET_HOLDUP_TEST_PERIOD (C0E6h). -/
def execSetHoldupTestPeriod (h : MbHdr) (period : Nat) (s : State) : Res :=
  .next (s.mbRun h { opcode := 0xC0E6, ld := false, fm := .module, len := [9] } fun s =>
    if period = 0 ∨ 168 < period then .error .invalidInput else .ok { s := s.modDeep fun d => { d with period := period } })

/-! ### The endurance budget (R251, R252) -/

/-- BURST_CREDIT_REFILL: the credit rises at B, and above zero the hold is lifted (R251, R252). -/
def execBurstCreditRefill (t : Nat) (s : State) : Res :=
  let s := s.at_ t
  if s.up then
    let s := s.refill
    .next (if s.throttled then s else s.modStore fun st => { st with xfers := st.xfers.map fun x =>
      if x.kind = .writeback ∨ x.kind = .victimWriteback then { x with endur := false } else x })
  else .next s

/-- SET_ENDURANCE_BUDGET (C0E4h): B, kept in the journal; the rates of R222 are recomputed. -/
def execSetEnduranceBudget (h : MbHdr) (b : Nat) (s : State) : Res :=
  .next (s.mbRun h { opcode := 0xC0E4, ld := false, fm := .module, len := [9] } fun s =>
    if b < 2 ∨ 30 < b then .error .invalidInput
    else .ok { s := (((s.refill.modDeep fun d => { d with budget := b }).journal 1).recap 2).noteVitals s })

/-! ### Flush (Table 10.5, R265) -/

/-- Save every mirror record into the flush area not last written, and mark its header (steps 6 and 7). DEDUCED, log entry 52. -/
def State.flush (s : State) : State :=
  let seqOf := fun i => (s.deep.areas.getD i {}).seq
  let i := if seqOf 0 < seqOf 1 then 0 else if seqOf 1 < seqOf 0 then 1 else 0
  let a : FlushArea := { recs := s.store.mirrors, headerOk := true, merged := false, seq := max (seqOf 0) (seqOf 1) + 1 }
  s.modDeep fun d => { d with journalOpen := 0, areas := if i = 0 then [a, d.areas.getD 1 {}] else [d.areas.getD 0 {}, a] }

/-- GPF_PHASE1: completes at once, the LM9 holding no host cache lines (R265). -/
def execGpfPhase1 (t port : Nat) (s : State) : Res :=
  let s := s.at_ t
  if s.up ∧ port < 4 then .next (s.send (.cxlIo (4 * port) 10 [⟨0, 1, 1⟩] [])) else .next s

/-- GPF_PHASE2: the journal buffer is programmed and every valid mirror record saved (R265). -/
def execGpfPhase2 (t port : Nat) (s : State) : Res :=
  let s := s.at_ t
  if s.up ∧ port < 4 then
    let s := if s.wt then s.modDeep fun d => { d with journalOpen := 0 } else s.flush
    .next (s.send (.cxlIo (4 * port) 10 [⟨0, 1, 2⟩] []))
  else .next s

/-! ### Registers -/

def State.endurWord (s : State) : Nat :=
  s.deep.budget + 32 * b2n (decide (s.creditNow ≤ 0)) + (BitVec.ofInt 32 (s.creditNow / 1048576)).toNat * 2 ^ 32
def State.progWord (s : State) : Nat :=
  min (s.deep.charged / GiB) (2 ^ 32 - 1) + min (s.deep.reloc / GiB) 65535 * 2 ^ 32 + min (s.deep.mergeReads / 1000) 65535 * 2 ^ 48
/-- DEDUCED, log entry 51. -/
def State.wearWord (s : State) : Nat := min s.avgPe 65535 + min s.maxPe 65535 * 2 ^ 16 + s.deep.wearUsed * 2 ^ 32
def State.rebuildPct (s : State) : Nat :=
  let total := (s.deep.rebuilds.map Rebuild.total).foldl (· + ·) 0
  let left := (s.deep.rebuilds.map fun r => r.slots.length).foldl (· + ·) 0
  if total = 0 then 100 * b2n ((List.range 256).any fun d => s.deep.dieFailed.get d) else 100 * (total - left) / total
def State.diesWord (s : State) : Nat :=
  ((List.range 256).filter fun d => s.deep.dieFailed.get d).length + 2 ^ 9 * b2n (s.deep.rebuilds != [])
    + s.rebuildPct * 2 ^ 16 + s.deep.spare * 2 ^ 32
def State.rderrWord (s : State) : Nat := s.deep.retry + s.deep.parity * 2 ^ 32 + s.deep.uncorr * 2 ^ 48
def State.holdupWord (s : State) : Nat :=
  s.deep.bank.code + s.deep.energy * 16 + s.deep.period * 2 ^ 16 + min ((s.now - s.deep.lastTest) / (60 * sec)) 65535 * 2 ^ 32
def State.mountWord (s : State) : Nat :=
  min s.deep.mountMs 65535 + 2 ^ 16 * b2n s.deep.loss + 2 ^ 17 * b2n s.deep.partialRestore + min s.deep.records (2 ^ 32 - 1) * 2 ^ 32

end Sys2Proof.Machine
end

