-- ==== Sys2Proof/Machine/Integrity.lean ====
section
/-! DEFINITION. Stored-data integrity: scrubbing, flip-masks, the error tables and retirement (chapter 11). -/
namespace Sys2Proof.Machine

/-! ### Scrubbing (R269 to R271) -/

/-- NEAR_SCRUB: the scrubber reads a word of a block's T1 copy at a gap, or without one while BEHIND; a correctable word
is written back, an uncorrectable one resolved. `upset` is a fresh error pattern, `last` ends the pass. -/
def execNearScrub (t blk word upset : Nat) (last : Bool) (s : State) : Res :=
  let s := s.at_ t
  let k := s.sack (blk / 128)
  if ¬ s.up ∨ ¬ (s.integ.behind = true ∨ s.anyGap = true) then .next s
  else
    let s := if last then s.modInteg fun i => { i with passes := bump 32 i.passes 1, passStart := s.now, behind := false } else s
    match s.extOfSack (blk / 128) with
    | some e =>
      let l := 128 * k.frame + (blk % 128 * Prof.unit e.profile + 8 * word) / 64
      if k.near ∧ s.stackBusy k.stack = false ∧ word < Prof.unit e.profile / 8 then
        let (f, s) := (s.useLines k.stack l 1).free
        .next (s.checkWords e blk (f % 256) true [(word, Nat.xor (s.errOf blk word) upset)])
      else .next s
    | none => .next s

/-- NEAR_SCRUB_BEHIND: one hour behind its period, the scrubber runs without waiting for gaps. -/
def execNearScrubBehind (t : Nat) (s : State) : Res :=
  let s := s.at_ t
  if s.up ∧ s.integ.passStart + (s.integ.nearPer + 1) * hourNs ≤ s.now then .next (s.modInteg fun i => { i with behind := true })
  else .next s

/-- A block whose durable lines come back from its mirror record, over the newest copy below the merge buffer (Table 11.6): none where
a line that the record lacks reads as poison. -/
def State.mirrorOver (s : State) (e : Extent) (r : Mirror) : Option Bytes :=
  (if r.lines = BitVec.allOnes 8 then some (zeros 512) else s.blkData e r.blk).map fun below => maskBytes (linesMask r.lines) 0 below r.data

/-- Put recovered data in the place of a merge-buffer entry. -/
def State.mergeReplace (s : State) (m : MergeEnt) (d : Bytes) : State :=
  s.modStore fun st => { st with merges := st.merges.map fun x =>
    if x = m then { m with data := fit 512 d, valid := BitVec.allOnes 512, passed := true } else x }

/-- An uncorrectable word of a merge-buffer entry: durable lines come back from their mirror record, a block with
volatile lines is poisoned and the entry discarded (Table 11.6). -/
def State.mergeEntLost (s : State) (m : MergeEnt) (loc access : Nat) : State :=
  let gone := s.modStore fun st => { st with merges := st.merges.filter (· ≠ m) }
  match s.extOfSack (m.blk / 128) with
  | none => gone
  | some e =>
    match (if Prof.durable e.profile then s.store.mirrors.find? fun r => r.blk = m.blk else none) with
    | some r =>
      match s.mirrorOver e r with
      | some d => (s.mergeReplace m d).repaired 3 loc access e.owner (s.dpaOf e m.blk)
      | none => gone.lose e m.blk 3 loc access
    | none => gone.lose e m.blk 3 loc access

/-- An uncorrectable word of a gate buffer line: a PARAM line reads as poison and fails the operation that copies it, a
RESULT line returns poison at its read (Table 11.6). DEDUCED, log entry 55. -/
def State.gateLineLost (s : State) (b line : Nat) : State :=
  if line < 8 then s
  else if line < 512 then s.setParam b line none
  else s.modSlot b fun x => { x with bad := if x.bad.contains (line - 512) then x.bad else (line - 512) :: x.bad }

/-- An uncorrectable word of a stone's SRAM: its piece runs again from its start on another stone, and a second time
fails the operation with code 6 (R275). -/
def State.stoneSramLost (s : State) (stone : Nat) : State :=
  match (s.stoneAt stone).running with
  | none => s
  | some p =>
    if p.sram then (s.stopPieces p.buf).finish p.buf .failed 6 0 [] false
    else ((s.modStone stone fun st => { st with running := none, tags := [], taking := none, preempt := false }).beginClear stone).placePiece
      { p with sram := true, saved := false, poison := false, iso := false, notStones := stone :: p.notStones }

/-- The staged copy that holds a byte of a die's staging part, the copies lying there one after another. DESIGN CHOICE, log entry 53. -/
def State.t0Holds (s : State) : List T0Copy → Nat → Option T0Copy
  | [], _ => none
  | c :: cs, at_ => if at_ < s.t0Bytes c.sack then some c else s.t0Holds cs (at_ - s.t0Bytes c.sack)

/-- The stone of a die whose piece holds a KiB of the scratch part. DESIGN CHOICE, log entry 53. -/
def State.scratchHolds (s : State) : List Nat → Nat → Option Nat
  | [], _ => none
  | k :: ks, at_ =>
    let n := match (s.stoneAt k).running with | some p => hdrScratch (s.hdr p.handle) | none => 0
    if at_ < n then some k else s.scratchHolds ks (at_ - n)

/-- The entry that holds a KiB of a checkpoint area. DESIGN CHOICE, log entry 53. -/
def ckptHolds : List Ckpt → Nat → Option Ckpt
  | [], _ => none
  | c :: cs, at_ => if at_ < c.kib then some c else ckptHolds cs (at_ - c.kib)

/-- A piece whose saved state is lost runs again from its start (R275). -/
def Piece.unsaved (c : Ckpt) (p : Piece) : Piece :=
  if p.buf = c.buf ∧ p.idx = c.idx ∧ p.run = c.run then { p with sram := true, saved := false } else p

/-- A saved state is lost: its piece runs again from its start, and a second time its operation fails with code 6 (R275). -/
def State.ckptLost (s : State) (c : Ckpt) : State :=
  let again := fun (p : Piece) => p.buf == c.buf && p.idx == c.idx && p.run == c.run && p.sram
  let twice := s.stone.waiting.any again || allStones.any fun k => (s.stoneAt k).queue.any again
  let s := { s with stone := { s.stone with
    ckpts := s.stone.ckpts.filter (· ≠ c)
    waiting := s.stone.waiting.map (Piece.unsaved c)
    stones := s.stone.stones.updAll s.stone.stones.keys fun _ st => { st with queue := st.queue.map (Piece.unsaved c) } } }
  if twice then (s.stopPieces c.buf).finish c.buf .failed 6 0 [] false else s

/-- An uncorrectable word of a die's shared SRAM, by the part of Table 6.2 that it lies in: a staged copy is dropped, the library copy
is reloaded, the piece of a scratch allotment or of a saved state runs again (R151, R275). DEDUCED, log entry 13. -/
def State.sharedLost (s : State) (die loc : Nat) : State :=
  let kib := loc / 4096 % 8388608 / 128
  if kib < 40960 then
    let here := s.store.t0.filter fun c => c.die = die
    (match s.t0Holds here (loc / 4096 % 8388608 * 8) with
    | some c => s.modStore fun st => { st with t0 := st.t0.filter (· ≠ c) }
    | none => s).ueLog 2 loc 8 0 31 0
  else if kib < 57344 then s.repaired 2 loc 9 31 0
  else if kib < 61440 then
    (match s.scratchHolds (dieStones die) (kib - 57344) with | some k => s.stoneSramLost k | none => s).ueLog 2 loc 7 0 31 0
  else
    (match ckptHolds (s.stone.ckpts.filter fun c => c.die = die) (kib - 61440) with | some c => s.ckptLost c | none => s).ueLog 2 loc 7 0 31 0

/-- What an uncorrectable SRAM word costs, by structure (Tables 11.4 to 11.6). The words of the hub's structures are
numbered in the order of their entries. DEDUCED, log entry 13. DESIGN CHOICE, log entry 53. -/
def State.sramLost (s : State) (unit loc access : Nat) : State :=
  let low := loc % 256
  let word := loc / 4096 % 8388608
  match unit with
  | 1 => (s.stoneSramLost low).ueLog 1 loc 7 0 31 0
  | 2 => s.sharedLost low loc
  | _ =>
    match low with
    | 0 => match s.store.merges.drop (word / 64) with
      | m :: _ => s.mergeEntLost m loc access
      | [] => s
    | 1 => (s.gateLineLost (word / 8192) (word / 8 % 1024)).ueLog 3 loc access 0 31 0
    | 2 =>
      if word / 8 < 1048576 then s.streamLost (word / 8)
      else match s.cxe.snoop.drop (word / 8 - 1048576) with
        | f :: _ => (s.snoopLost f.blk).ueLog 3 loc access 0 31 0
        | [] => s
    | _ => s.repaired 3 loc access 31 0

/-- SRAM_SCRUB: a word of SRAM is read; a correctable one is written back corrected (R270). DESIGN CHOICE, log entry 53. -/
def execSramScrub (t unit loc upset : Nat) (s : State) : Res :=
  let s := s.at_ t
  if ¬ s.up ∨ unit = 0 ∨ 3 < unit then .next s
  else match eccOutcome (syndromeOf upset) with
    | .good => .next s
    | .corrected b => .next (s.correct unit loc b true)
    | .uncorrectable =>
      let (f, s) := s.free
      .next (s.sramLost unit loc (f % 256))

/-- SET_SCRUB_PERIOD (C090h). -/
def execSetScrubPeriod (h : MbHdr) (near sram : Nat) (s : State) : Res :=
  .next (s.mbRun h { opcode := 0xC090, ld := false, fm := .module, len := [16] } fun s =>
    if near = 0 ∨ 168 < near ∨ sram = 0 ∨ 60 < sram then .error .invalidInput
    else .ok { s := s.modInteg fun i => { i with nearPer := near, sramPer := sram } })

/-! ### Flip-masks (R278, R279) -/

/-- ARM_FLIP_MASK (C092h), target NEAR. DEDUCED, log entry 54. -/
def execArmFlipMaskNear (h : MbHdr) (dpa word mask : Nat) (s : State) : Res :=
  .next (s.mbRun h { opcode := 0xC092, ld := true, fm := .no, len := [41] } fun s =>
    let ld := h.src
    match s.extAt ld dpa with
    | some e =>
      if e.state ≠ .active ∨ e.isAlias ∨ Prof.gate e.profile ∨ dpa % 512 ≠ 0 ∨ Prof.unit e.profile / 8 ≤ word
          ∨ mask = 0 ∨ 2 ^ 72 ≤ mask ∨ 4 < popc 72 mask then .error .invalidInput
      else if (s.integ.lds.get ld).flip.state = .armed then .error .busy
      else
        let f : Flip := { state := .armed, blk := s.blkOf e dpa, word := word, mask := mask, at_ := s.now }
        .ok { s := s.modIntegLd ld fun l => { l with flip := f } }
    | none => .error .invalidInput)

/-- ARM_FLIP_MASK (C092h), target STONE: the stone must be OFFLINE; it completes with the syndrome. DEDUCED, log entry 54. -/
def execArmFlipMaskStone (h : MbHdr) (stone bank word mask : Nat) (s : State) : Res :=
  .next (s.mbBg h { opcode := 0xC092, ld := false, fm := .module, len := [41] } (.armFlipMaskStone h stone bank word mask) fun s =>
    if 192 ≤ stone ∨ (s.stoneAt stone).state ≠ .offline ∨ 16 ≤ bank ∨ 32768 ≤ word ∨ 2 ^ 72 ≤ mask then .error .invalidInput
    else .ok s)

/-- VSES of a STONE flip-mask: the syndrome, and 0 none, 1 corrected, 2 uncorrectable. -/
def flipVses (mask : Nat) : Nat :=
  let syn := syndromeOf mask
  syn + 256 * (match eccOutcome syn with | .good => 0 | .corrected _ => 1 | .uncorrectable => 2)

/-- FLIP_MASK_EXPIRE: a mask not applied within 10 s. -/
def execFlipMaskExpire (t ld : Nat) (s : State) : Res :=
  let s := s.at_ t
  let f := (s.integ.lds.get ld).flip
  if s.up ∧ f.state = .armed ∧ f.at_ + 10 * sec ≤ s.now then
    .next (s.modIntegLd ld fun l => { l with flip := { l.flip with state := .expired } })
  else .next s

/-- DISARM_FLIP_MASK (C093h). -/
def execDisarmFlipMask (h : MbHdr) (s : State) : Res :=
  .next (s.mbRun h { opcode := 0xC093, ld := true, fm := .no } fun s =>
    if (s.integ.lds.get h.src).flip.state ≠ .armed then .error .invalidInput
    else .ok { s := s.modIntegLd h.src fun l => { l with flip := { l.flip with state := .cancelled } } })

/-! ### Tables -/

/-- GET_CORRECTABLE_ERROR_TABLE (C094h). -/
def execGetCorrectableErrorTable (h : MbHdr) (o : OutReq) (s : State) : Res :=
  .next (s.mbSnap h { opcode := 0xC094, ld := false, fm := .module, len := [16] } o 32 fun s => .ok ([], s.integ.ce.map CeEnt.fields))

/-- GET_UNCORRECTABLE_ERROR_LOG (C095h): an LD receives its own blocks' records, without LOC. -/
def execGetUncorrectableErrorLog (h : MbHdr) (o : OutReq) (s : State) : Res :=
  .next (s.mbSnap h { opcode := 0xC095, ld := true, fm := .module, len := [16] } o 32 fun s =>
    .ok ([], if h.src < 16 then (s.integ.ue.filter fun r => r.ld == h.src).map fun r => ({ r with loc := 0 } : UeRec).fields
      else s.integ.ue.map UeRec.fields))

/-- GET_RETIREMENT_LIST (C097h). -/
def execGetRetirementList (h : MbHdr) (o : OutReq) (s : State) : Res :=
  .next (s.mbSnap h { opcode := 0xC097, ld := false, fm := .module, len := [16] } o 16 fun s =>
    .ok ([], s.integ.retires.map fun r => [⟨0, 1, r.kind⟩, ⟨8, 8, r.loc⟩]))

/-- CLEAR_CORRECTABLE_ERROR_TABLE (C098h). -/
def execClearCorrectableErrorTable (h : MbHdr) (s : State) : Res :=
  .next (s.mbRun h { opcode := 0xC098, ld := false, fm := .module } fun s => .ok { s := s.modInteg fun i => { i with ce := [] } })

/-! ### Retirement (R280 to R283) -/

def locStack (loc : Nat) : Nat := loc % 16
/-- The bank of a location, as its place in the hashed slot index. -/
def locBank (loc : Nat) : Nat := loc / 16 % 512
def locRow (loc : Nat) : Nat := loc / 8192 % 65536

/-- Bank lines with their data position or their group's check line in a row (R229, R280). -/
def rowLines (row : Nat) : List Nat :=
  let lo := 32 * row
  let inRow := fun p => lo ≤ p && p < lo + 32
  (((List.range 6).map fun i => lo / 9 + i).flatMap fun q => if q = 0 then [] else
    (List.range 8).filterMap fun w => if inRow (9 * (q - 1) + w) || inRow (9 * (q - 1) + 8) then some (8 * (q - 1) + w) else none).filter
      fun n => n < 1864128

/-- The frames that lose a line with a row. -/
def State.rowFrames (s : State) (loc : Nat) : List Nat :=
  (rowLines (locRow loc)).foldl (fun a n =>
    let f := (512 * n + hashedSlot s.near.bankhash (locBank loc) n) / 128
    if a.contains f then a else a ++ [f]) []

/-- Frames of the cache area that a retirement takes: a frame of a reserved share is replaced by a free one. DEDUCED, log entry 55. -/
def State.retireFrames (s : State) (stack : Nat) (fs : List Nat) : State :=
  fs.foldl (fun s f =>
    let x := s.stackAt stack
    if x.retiredFrames.contains f then s
    else
      let take := if f < s.framesPerStack then some f else s.freeRun stack 1
      match take with
      | some g => s.modStack stack fun x => { x with
          retiredFrames := g :: x.retiredFrames, shares := if g = f then x.shares else (f, g) :: x.shares }
      | none => s) s

/-- Is a location in a retired row, bank or stack? -/
def State.locRetired (s : State) (loc : Nat) : Bool :=
  s.integ.retires.any fun r =>
    match r.kind with
    | 0 => ceKey 0 r.loc == ceKey 0 loc
    | 1 => r.loc % 8192 == loc % 8192
    | 2 => r.loc % 16 == loc % 16
    | _ => false

/-- The sacks with a T1 copy on retired frames of a stack. -/
def State.onRetired (s : State) (stack : Nat) : List Nat :=
  s.nearSacks.filter fun k => (s.sack k).stack == stack && (List.range ((s.sack k).size + 1)).any fun i =>
    s.frameRetired stack ((s.sack k).frame + i)

/-- Demote the sacks on retired frames, dirty ones written back first. -/
def State.clearRetired (s : State) (stack : Nat) : State := (s.onRetired stack).foldl State.evictSack s

/-- The checks of a retirement: Invalid Input where already retired or on a failed stack, Resources Exhausted where a
bound is met. -/
def State.retireCheck (s : State) (kind loc : Nat) : Option Rc :=
  let stack := locStack loc
  if kind < 3 ∧ (12 ≤ stack ∨ ¬ s.stackOk stack) then some .invalidInput
  else if kind = 0 ∧ (rowLines (locRow loc)).isEmpty then some .invalidInput
  else if kind = 0 ∧ s.locRetired loc then some .invalidInput
  else if kind = 1 ∧ s.integ.retires.any fun r => r.kind = 1 ∧ r.loc % 8192 = loc % 8192 then some .invalidInput
  else if kind = 3 ∧ (536870912 * 8 ≤ loc ∨ s.integ.retires.any fun r => r.kind = 3 ∧ r.loc = loc) then some .invalidInput
  else if 4096 ≤ s.integ.retires.length then some .resourcesExhausted
  else if kind = 1 ∧ (s.stackAt stack).retiredBank.isSome then some .resourcesExhausted
  else if kind = 0 ∧ 65536 < (s.stackAt stack).retiredFrames.length + (s.rowFrames loc).length then some .resourcesExhausted
  else none

/-- The start of a retirement: frames are taken out of use and their sacks demoted. DEDUCED, log entry 55. -/
def State.startRetire (s : State) (kind loc : Nat) : State :=
  match kind with
  | 0 => (s.retireFrames (locStack loc) (s.rowFrames loc)).clearRetired (locStack loc)
  | 1 => (s.modStack (locStack loc) fun x => { x with retiredBank := some (locBank loc) }).clearRetired (locStack loc)
  | _ => s

/-- Move every media copy of a sack and retire the old places (R282). -/
def State.moveSack (s : State) (sack : Nat) : State :=
  let k := s.sack sack
  let slots := ((List.range (k.size + 1)).map (· + k.slot)).filter fun x => (s.deep.slots.get x).valid
  let olds := slots.map fun x => (s.deep.slots.get x).key
  let s := s.modDeep fun d => { d with blocks := d.blocks.updAll olds fun _ b => { b with retired := true, free := false } }
  let s := ((s.slotsAt fun l => olds.contains l.key).foldl State.moveSlot s).noteSpare
  if ¬ k.near then s
  else
    let old := (List.range (k.size + 1)).map (· + k.frame)
    let s := s.modStack k.stack fun x => { x with retiredFrames := old ++ x.retiredFrames }
    match s.freeRun k.stack (k.size + 1) with
    | some f => s.setSack sack { k with frame := f }
    | none => s.evictSack sack

/-- The end of a retirement, once no sack is left on the frames: the list, the ledger record and the RETIRED marks of
the correctable-error table (R283). None while frames are still in use. DEDUCED, log entry 55. -/
def State.finishRetire (s : State) (src kind loc : Nat) : Option State :=
  let busy := if kind < 2 then (s.onRetired (locStack loc)) else []
  if busy ≠ [] then none
  else
    let s := match kind with
      | 2 => ((s.stackFails (locStack loc)).caps)
      | 3 => s.moveSack loc
      | _ => s
    let s := s.modInteg fun i => { i with retires := i.retires ++ [{ kind := kind, loc := loc }] }
    let s := s.modInteg fun i => { i with ce := i.ce.map fun e => if e.unit = 0 ∧ s.locRetired e.loc then { e with retired := true } else e }
    some (s.ledger (LedgerRec.of 11 (if kind < 3 then 3 else 0) (if kind < 3 then locStack loc else 0) 31 (kind + loc * 2 ^ 64)) [] [] (some (src, .success, 0)))

def State.retireCmd (s : State) (h : MbHdr) (kind loc : Nat) (cmd : Instr) : State :=
  s.mbBg h { opcode := 0xC096, ld := false, fm := .module, len := [24] } cmd fun s =>
    match s.retireCheck kind loc with
    | some code => .error code
    | none => .ok (s.startRetire kind loc)

/-- RETIRE (C096h), ROW. -/
def execRetireRow (h : MbHdr) (loc : Nat) (s : State) : Res := .next (s.retireCmd h 0 loc (.retireRow h loc))
/-- RETIRE (C096h), BANK. -/
def execRetireBank (h : MbHdr) (loc : Nat) (s : State) : Res := .next (s.retireCmd h 1 loc (.retireBank h loc))
/-- RETIRE (C096h), STACK. -/
def execRetireStack (h : MbHdr) (loc : Nat) (s : State) : Res := .next (s.retireCmd h 2 loc (.retireStack h loc))
/-- RETIRE (C096h), SACK. -/
def execRetireSack (h : MbHdr) (sack : Nat) (s : State) : Res := .next (s.retireCmd h 3 sack (.retireSack h sack))

/-! ### Registers -/

def FlipState.code : FlipState → Nat
  | .idle => 0 | .armed => 1 | .applied => 2 | .corrected => 3 | .uncorrectable => 4 | .expired => 5 | .cancelled => 6

def IntegLd.poisonWord (l : IntegLd) : Nat := l.lost + l.reads * 2 ^ 32
def Flip.word64 (f : Flip) : Nat := f.state.code + f.syndrome * 256
def State.ceWord (s : State) : Nat := s.integ.ceCount + s.integ.ce.length * 2 ^ 32 + s.integ.ceLost * 2 ^ 48
def State.ueWord (s : State) : Nat := s.integ.repaired + s.integ.lost * 2 ^ 32
def State.scrubWord (s : State) : Nat :=
  s.integ.nearPer + s.integ.sramPer * 256 + 2 ^ 14 * b2n s.integ.behind + s.integ.passes * 2 ^ 32
def State.retireWord (s : State) : Nat :=
  let frames := ((List.range 12).map s.retiredCount).foldl (· + ·) 0
  let banks := ((List.range 12).map fun k => if (s.stackAt k).retiredBank.isSome then 2 ^ k else 0).foldl (· + ·) 0
  s.integ.retires.length + frames * 2 ^ 16 + banks * 2 ^ 40

end Sys2Proof.Machine
end

