-- ==== Sys2Proof/Machine/Unlock.lean ====
section
/-! DEFINITION. Opening debug (R386 to R389, Table 16.10). Steps 1 to 5 happen together, up to the ledger record; step 6
follows the record's commit. -/
namespace Sys2Proof.Machine

def State.modBoot (s : State) (f : BootSt → BootSt) : State := { s with boot := f s.boot }

/-- End the background commands that a predicate picks with Aborted. -/
def State.abortJobs (s : State) (p : Instr → Bool) : State :=
  (s.mbox.jobs.filter fun j => p j.2.cmd).foldl (fun s j => s.endJob j.1 .aborted 0) s

def isSave : Instr → Bool
  | .saveSchedule _ _ => true
  | _ => false

def isRunDigest : Instr → Bool
  | .runDigest _ _ => true
  | _ => false

/-- An LD's key ends (R64): its stored schedules are deleted and a Save Schedule in progress ends with Aborted. DEDUCED, log entry 44. -/
def State.endKey (s : State) (ld : Nat) : State :=
  let s := { s with sweep := { s.sweep with stored := s.sweep.stored.filter fun x => x.ld ≠ ld } }
  match s.job ld with
  | some j => if isSave j.cmd then s.endJob ld .aborted 0 else s
  | none => s

/-- Answer an HDM-DB request at once. -/
def State.answerBi (s : State) (r : HeldBi) : State :=
  if r.muted then s
  else if r.write then s.send (.memDone r.ld r.tag (s.loadAt r.ld r.dpa))
  else match s.extById r.eid with
    | some e =>
      match s.newest e r.blk with
      | some d => s.sendLine r.ld r.tag (Prof.wclass e.profile) (lineBytes d r.line)
      | none => (s.poisonRead r.ld).sendPoison r.ld r.tag (Prof.wclass e.profile)
    | none => s.send (.memPoison r.ld r.tag)

/-- Complete one held request. -/
def State.completeOne (s : State) (rid : Nat) : State :=
  match s.store.heldReads.find? fun r => r.rid == rid with
  | some r => s.answerRead r (match s.extById r.eid with | some e => s.newest e r.blk | none => none)
  | none =>
    match s.store.heldWrites.find? fun w => w.wid == rid with
    | some w =>
      match s.extById w.eid with
      | some e =>
        if w.poison then s.poisonWrite w
        else ((if w.merged then s else s.merge w.ld w.cls e w.blk w.line w.data w.enables).dropWrite w.wid).doneWrite w
      | none => (s.dropWrite w.wid).doneWrite w
    | none => s

/-- Complete every accepted CXL.mem request, in order of acceptance (Table 16.10, step 2, R15). -/
def State.completeAll (s : State) : State :=
  let s := (sortNat (s.store.heldReads.map HeldRead.rid ++ s.store.heldWrites.map HeldWrite.wid)).foldl State.completeOne s
  let s := s.cxe.heldBi.foldl State.answerBi s
  { s with cxe := { s.cxe with heldBi := [], snps := [] } }

/-- Zero the buffers that hold tenant data and clear every stone (Table 16.10, step 2). -/
def State.zeroBuffers (s : State) : State :=
  let armed := (s.gate.slots.cells.filter fun c => c.2.state != .unarmed).map Prod.fst
  let s := armed.foldl (fun s b => (s.releaseReads b).unarm b) s
  let s := s.modStore fun st => { st with merges := [], t0 := [] }
  let clear := fun (_ : Nat) (st : Stone) => { st.zeroed with queue := [], party := none, handle := none, cleared := s.cyc }
  { s with stone := { s.stone with waiting := [], ckpts := [], stones := s.stone.stones.updAll allStones clear } }

/-- Steps 1 to 5 of Table 16.10: requests held, operations cancelled, buffers zeroed, keys zeroised, the record written. DEDUCED, log entry 70. -/
def State.startDebug (s : State) (src scope reqid : Nat) : State :=
  let armed := (s.gate.slots.cells.filter fun c => c.2.state != .unarmed).map Prod.fst
  let s := armed.foldl State.cancelOp s
  let s := s.completeAll.zeroBuffers
  let s := s.abortJobs isSave
  let s := { s with ext := { s.ext with keys := { dflt := none } }, sweep := { s.sweep with stored := [] } }
  let (key, s) := s.newKey
  let s := s.modBoot fun b => { b with debugKeys := [], moduleKey := some key, wiped := true, openSeq := 1, openReq := scope }
  let ev := Event.of 26 31 1 [⟨72, 8, s.result.nextSeq⟩]
  s.ledger (LedgerRec.of 16 0 0 31 (reqid + scope * 2 ^ 64)) ((fmSrc :: s.enabledLds).map fun m => ⟨m, 3, ev⟩) [] (some (src, .success, 0))

/-- Release a CXL.mem request held during the sequence: no extent is left, so it is handled under R33. -/
def State.releaseReq (s : State) (r : Nat × Nat × Nat × Bool) : State :=
  let s := s.drop r.1 r.2.1 r.2.2.2 true
  s.send (if r.2.2.2 then .memDone r.1 r.2.2.1 else .memPoison r.1 r.2.2.1)

/-- Everything of the LDs that a debug unlock ends (step 6). -/
def State.dropTenants (s : State) : State :=
  let s := s.abortJobs isRunDigest
  let s := (s.gate.bins.map Bin.id).foldl State.freeBin s
  let s := s.sweep.wheels.keys.foldl State.closeWheel s
  let s := { s with stone := { s.stone with lib := [], keys := [] }, result := { s.result with ranges := [] } }
  let s := s.modStore fun st => { st with sets := { dflt := {} }, builds := [] }
  let s := s.modGate fun g => { g with seqs := [], indexes := [] }
  let s := s.modWeir fun w => { w with streams := { dflt := {} } }
  let leave := fun (e : Extent) => { e with state := .discarding }
  { s with ext := { s.ext with exts := s.ext.exts.map leave } }

/-- Step 6 of Table 16.10, at the commit of the record. DEDUCED, log entry 70. -/
def State.openDebug (s : State) : State :=
  let held := s.boot.heldReqs
  let s := s.modBoot fun b => { b with
    debugOpen := true, scope := b.openReq, openSeq := 0, openReq := 0, heldReqs := [], wiped := false }
  held.foldl State.releaseReq s.dropTenants

end Sys2Proof.Machine
end

