-- ==== Sys2Proof/Machine/Results.lean ====
section
/-! DEFINITION. The ledger, the result error log, check policy, unit health and test content (R299 to R305). -/
namespace Sys2Proof.Machine

/-! ### The ledger (R301 to R303) -/

/-- Bytes 0 to 55 of a record (Table 12.6). DEDUCED, log entry 32. -/
def LedgerRec.body (r : LedgerRec) : List Fld :=
  [⟨0, 8, r.seqno⟩, ⟨8, 8, r.time⟩, ⟨16, 2, r.kind⟩, ⟨18, 1, r.utype⟩, ⟨20, 2, r.unit⟩, ⟨22, 2, r.op⟩, ⟨24, 1, r.ld⟩,
   ⟨25, 1, r.wheel + 16 * b2n r.nopos⟩, ⟨26, 6, r.turn⟩, ⟨32, 2, r.layer⟩, ⟨34, 2, (BitVec.ofInt 16 r.temp).toNat⟩,
   ⟨36, 2, r.volt⟩, ⟨38, 1, r.cstep + 8 * r.npoint⟩, ⟨40, 16, r.detail⟩]

def LedgerRec.fields (r : LedgerRec) : List Fld := r.body ++ [⟨56, 4, crc32 (layout 56 r.body)⟩]

/-- Put a committed record into the ring of 262,144, and into the result error log where its kind is 1 to 9. DEDUCED, log entry 33. -/
def State.commitRecord (s : State) (r : LedgerRec) : State :=
  s.modResult fun x => { x with
    ledger := (x.ledger ++ [r]).drop (x.ledger.length + 1 - 262144)
    errLog := if 1 ≤ r.kind ∧ r.kind ≤ 9 then (x.errLog ++ [r]).drop (x.errLog.length + 1 - 1024) else x.errLog }

/-- LEDGER_COMMIT: the oldest record not yet programmed is programmed; its event posts, outputs and command completion
are released (R301), and debug opens with the commit of its DEBUG_OPEN record (R387). -/
def execLedgerCommit (t : Nat) (s : State) : Res :=
  let s := s.at_ t
  match s.result.waits with
  | [] => .next s
  | w :: rest =>
    if s.phase = .off ∨ s.phase = .hubFailed then .next s
    else
      let s := ((s.modResult fun x => { x with waits := rest }).commitRecord w.record).postAll w.posts
      let s := s.sendAll w.outs
      let s := if w.record.kind = 16 ∧ s.boot.openSeq ≠ 0 then s.openDebug else s
      match w.job with
      | some (src, code, vses) => .next (s.endJob src code vses)
      | none => .next s

/-- LEDGER_COALESCE_END: at the end of a second one COALESCED record gives the count of the records not written. DEDUCED, log entry 33. -/
def execLedgerCoalesceEnd (t kind utype unit : Nat) (s : State) : Res :=
  let s := s.at_ t
  match s.result.coal.find? fun c => c.kind = kind ∧ c.utype = utype ∧ c.unit = unit with
  | some c =>
    if c.start + sec ≤ s.now then
      let s := s.modResult fun x => { x with coal := x.coal.filter (· ≠ c), coalesced := bump 32 x.coalesced c.lost }
      if c.lost = 0 then .next s
      else .next (s.ledger (LedgerRec.of 17 utype unit 31 (kind + unit * 2 ^ 16 + c.lost * 2 ^ 32)))
    else .next s
  | none => .next s

/-- GET_LEDGER (C0A0h): records from a SEQNO, from the ledger as it stands. -/
def execGetLedger (h : MbHdr) (seqno maxrec : Nat) (s : State) : Res :=
  .next (s.mbRun h { opcode := 0xC0A0, ld := false, fm := .module, len := [20] } fun s =>
    if (s.result.ledger.head?).any fun r => decide (seqno < r.seqno) then .error .invalidInput
    else
      let n := if maxrec = 0 then 1023 else min maxrec 1023
      let rs := (s.result.ledger.filter fun r => seqno ≤ r.seqno).take n
      let next := match rs.getLast? with | some r => r.seqno + 1 | none => seqno
      .ok { s := s, fields := [⟨0, 4, rs.length⟩, ⟨8, 8, next⟩], blob := rs.flatMap fun r => layout 64 r.fields })

/-- GET_RESULT_ERROR_LOG (C0A1h, R303). DEDUCED, log entry 33. -/
def execGetResultErrorLog (h : MbHdr) (o : OutReq) (s : State) : Res :=
  .next (s.mbSnap h { opcode := 0xC0A1, ld := true, fm := .module, len := [16] } o 64 fun s =>
    .ok ([], if h.src < 16 then (s.result.errLog.filter fun r => r.ld == h.src).map fun r =>
        ({ r with unit := 0, temp := 0, volt := 0, detail := 0 } : LedgerRec).fields
      else s.result.errLog.map LedgerRec.fields))

/-- APPEND_LEDGER_NOTE (C0A7h): the NOTE record; Success with its SEQNO after the commit. -/
def execAppendLedgerNote (h : MbHdr) (note : Bytes) (s : State) : Res :=
  let c : Cmd := { opcode := 0xC0A7, ld := false, fm := .module, len := [24] }
  if ¬ s.rings h.src then .next s
  else match s.mbCheck h c with
    | some code => .next (s.answer h c code [] [])
    | none =>
      .next (s.ledger (LedgerRec.of 18 0 0 31 (leNat (fit 16 note))) []
        [.mailbox h.src c.opcode .success [⟨0, 8, s.result.nextSeq⟩] []])

/-! ### Policy and units -/

/-- SET_CHECK_POLICY (C0A2h, Table 12.10). -/
def execSetCheckPolicy (h : MbHdr) (s0 s1 s2 earlyen : Nat) (s : State) : Res :=
  .next (s.mbRun h { opcode := 0xC0A2, ld := false, fm := .module, len := [12] } fun s =>
    if 15 < s0 ∨ 15 < s1 ∨ 15 < s2 ∨ 1 < earlyen then .error .invalidInput
    else .ok { s := s.modResult fun r => { r with sample0 := s0, sample1 := s1, sample2 := s2, earlyEn := earlyen == 1 } })

/-- A moment as a CXL timestamp of a mailbox. -/
def State.stampOf (s : State) (m at_ : Nat) : Nat := (((at_ - s.cxe.tsZero : Nat) : Int) + s.cxe.tsOff.get m).toNat

/-- GET_UNIT_HEALTH (C0A3h): 196 records, stones then checkers. -/
def execGetUnitHealth (h : MbHdr) (s : State) : Res :=
  .next (s.mbRun h { opcode := 0xC0A3, ld := false, fm := .module } fun s =>
    let one := fun (utype unit : Nat) =>
      let r := s.unitRec utype unit
      let at_ := fun (o : Option Nat) => match o with | some x => s.stampOf fmSrc x | none => 0
      layout 24 [⟨0, 1, r.state.code⟩, ⟨8, 8, at_ r.obs.getLast?⟩, ⟨16, 8, at_ r.obs.head?⟩]
    .ok { s := s, blob := (allStones.flatMap fun k => one 1 k) ++ (List.range 4).flatMap fun d => one 2 d })

/-- CLEAR_UNIT_RECORD (C0A6h, R300): a FAILED stone or checker loses its observation history. -/
def execClearUnitRecord (h : MbHdr) (utype unit : Nat) (s : State) : Res :=
  .next (s.mbRun h { opcode := 0xC0A6, ld := false, fm := .module, len := [12] } fun s =>
    if (utype ≠ 1 ∧ utype ≠ 2) ∨ (utype = 1 ∧ 192 ≤ unit) ∨ (utype = 2 ∧ 4 ≤ unit) ∨ (s.unitRec utype unit).state ≠ .failed then
      .error .invalidInput
    else .ok { s := s.setUnit utype unit fun r => { r with obs := [], fails := [] } })

/-! ### Test content (R304, R305) -/

/-- The checks of a signature envelope (Table 6.8) after `n` bytes of an image: SIGKIND 0, reserved bytes zero, a key
that `key` names, and the signature over the bytes before it. -/
def envelopeOk (img : Bytes) (n : Nat) (key : Bytes → Bool) : Bool :=
  let env := img.drop n
  let keyid := (env.drop 8).take 32
  env.length == 512 && leAt env 0 4 == 0 && leAt env 4 4 == 0 && leAt env 40 24 == 0 && leAt env 448 64 == 0 && key keyid
    && Config.rsaVerify keyid (img.take n) ((env.drop 64).take 384)

/-- The container checks of R146 and R147 on the SERVICE dressing at the start of a slice set. -/
def sliceContainerOk (c : Bytes) : Bool :=
  let code := leAt c 12 4
  let const := leAt c 16 4
  let n := 256 + code + const
  leAt c 0 4 == 0x4D570A1D && leAt c 8 4 == 256 && decide (n + 512 ≤ c.length)
    && (leAt c 4 2 == 3 || leAt c 4 2 == 4) && (leAt c 6 2 == 7 || leAt c 6 2 == 8)
    && decide (64 ≤ code) && decide (code ≤ 262080) && decide (const ≤ 262080) && code % 64 == 0 && const % 64 == 0
    && decide (code + const ≤ 262144) && hdrClasses c == 32

/-- An item entry of a package: KIND, OFFSET, LENGTH, reserved bytes. -/
def pkgItem (img : Bytes) (i : Nat) : Nat × Nat × Nat × Nat :=
  let b := (img.drop (64 + 16 * i)).take 16
  (leAt b 0 2, leAt b 4 4, leAt b 8 4, leAt b 2 2 + leAt b 12 4)

/-- The reason that R305 gives for refusing a package, 0 where it is accepted: 1 the header or an entry, 2 overlap or
LENGTH, 3 a slice set, 4 the signature, 5 SEQ. DEDUCED, log entry 88. -/
def State.pkgReason (s : State) (img : Bytes) : Nat :=
  let len := leAt img 12 4
  let n := leAt img 16 2
  let items := (List.range n).map (pkgItem img)
  let ranges := items.map fun x => (x.2.1, x.2.2.1)
  if leAt img 0 4 ≠ 0x54430A9E ∨ leAt img 4 2 ≠ 1 ∨ leAt img 6 2 ≠ 0 ∨ leAt img 8 4 = 0 ∨ 8 * MiB < len ∨ img.length ≠ len + 512
      ∨ n = 0 ∨ 64 < n ∨ leAt img 18 6 ≠ 0 ∨ leAt img 24 8 ≠ 0x394D4C ∨ leAt img 32 32 ≠ 0
      ∨ items.any (fun x => decide (1 < x.1) || x.2.2.2 != 0) then 1
  else if ranges.any (fun r => decide (r.1 < 64 + 16 * n) || decide (len < r.1 + r.2))
      ∨ (List.range n).any (fun i => (List.range i).any fun j =>
          let a := ranges.getD i (0, 0)
          let b := ranges.getD j (0, 0)
          decide (a.1 < b.1 + b.2) && decide (b.1 < a.1 + a.2)) then 2
  else if items.any fun x => x.1 == 0 && !sliceContainerOk ((img.drop x.2.1).take x.2.2.1) then 3
  else if ¬ envelopeOk img len (Config.umaygonTestKey (s.slotOf s.boot.running).image) then 4
  else if leAt img 8 4 ≤ s.result.pkgSeq then 5
  else 0

/-- INSTALL_TEST_CONTENT (C0A4h): a package in parts; its check runs in the background. DEDUCED, log entry 88. -/
def execInstallTestContent (h : MbHdr) (p : Part) (s : State) : Res :=
  .next (s.mbPartsBg h { opcode := 0xC0A4, ld := false, fm := .module } p
    (fun img => .installTestContent h { p with data := img }) fun _ s => .ok s)

/-- The end of the check: the package is current, or nothing changes; a TEST_CONTENT record either way. -/
def State.installPkg (s : State) (src : Nat) (img : Bytes) : State :=
  let r := s.pkgReason img
  let seq := leAt img 8 4
  let s := if r = 0 then s.modResult fun x => { x with pkg := img, pkgSeq := seq } else s
  s.ledger (LedgerRec.of 13 0 0 16 (seq + r * 2 ^ 32)) [] [] (some (src, if r = 0 then .success else .invalidInput, 0))

/-- GET_TEST_CONTENT (C0A5h): header and item entries of the current package. -/
def execGetTestContent (h : MbHdr) (s : State) : Res :=
  .next (s.mbRun h { opcode := 0xC0A5, ld := false, fm := .module } fun s =>
    .ok { s := s, blob := if s.result.pkg.isEmpty then zeros 64 else s.result.pkg.take (64 + 16 * leAt s.result.pkg 16 2) })

/-! ### Registers -/

def RiLd.check (l : RiLd) : Nat := l.fails + l.mismatch * 2 ^ 32
def RiLd.replay (l : RiLd) : Nat := l.replays + l.inputChg * 2 ^ 32
def RiLd.early (l : RiLd) : Nat := l.sent + l.retracted * 2 ^ 32 + l.fallback * 2 ^ 48
def RiLd.recv (l : RiLd) : Nat := l.provisional + l.rretracted * 2 ^ 32 + l.timeout * 2 ^ 48
def State.digestWord (s : State) (ld : Nat) : Nat :=
  (s.result.ranges.filter fun r => r.ld == ld).length + (s.result.lds.get ld).runs * 2 ^ 16 + (s.result.lds.get ld).dmismatch * 2 ^ 48
def State.policyWord (s : State) : Nat :=
  s.result.sample0 + s.result.sample1 * 16 + s.result.sample2 * 256 + 4096 * b2n s.result.earlyEn
def State.unitsWord (s : State) : Nat :=
  let count := fun (st : UnitState) => (allStones.filter fun k => (s.unitRec 1 k).state == st).length
  let bits := fun (st : UnitState) => ((List.range 4).map fun d => if (s.unitRec 2 d).state = st then 2 ^ d else 0).foldl (· + ·) 0
  count .observing + count .suspect * 256 + bits .failed * 2 ^ 16 + bits .suspect * 2 ^ 20 + s.result.obsCount * 2 ^ 32
def State.ledgerWord (s : State) : Nat := s.result.ledger.length + s.result.coalesced * 2 ^ 32
def State.ledSeq (s : State) : Nat := match s.result.ledger.getLast? with | some r => r.seqno | none => 0
def State.pkgWord (s : State) : Nat :=
  s.result.pkgSeq + leAt s.result.pkg 16 2 * 2 ^ 32 + 2 ^ 39 * b2n (s.mbox.jobs.any fun j => j.2.opcode == 0xC0A4)
def State.peerWord (s : State) : Nat := s.result.provs.length + s.result.cascade * 2 ^ 32

end Sys2Proof.Machine
end

