-- ==== Sys2Proof/Machine/Digests.lean ====
section
/-! DEFINITION. Weight digests (R295 to R298). -/
namespace Sys2Proof.Machine

def State.rangeOf (s : State) (ld id : Nat) : Option Range := s.result.ranges.find? fun r => r.ld = ld ∧ r.id = id

def State.modRange (s : State) (ld id : Nat) (f : Range → Range) : State :=
  s.modResult fun x => { x with ranges := x.ranges.map fun r => if r.ld = ld ∧ r.id = id then f r else r }

/-- When the range's next digest is due: its period after the last completed one, or at once (R295, C0B4h). DEDUCED, log entry 57. -/
def Range.dueSince (r : Range) : Nat := if r.due then min r.dueAt (r.lastDone + r.period * hourNs) else r.lastDone + r.period * hourNs

/-- Has the wheel's last accepted position entered or crossed the layer while it sweeps (R70)? -/
def State.crossed (s : State) (w layer : Nat) : Bool :=
  let x := s.wheel w
  x.state != .idle && x.state != .resting && s.sweep.entered.any fun m =>
    m.1 == w && (List.range (min (m.2.2 + 1 - m.2.1) x.n)).any fun i => (m.2.1 + i) % x.n == layer

/-- May a due digest start now (R295)? -/
def State.digestMay (s : State) (r : Range) : Bool :=
  decide (r.dueSince ≤ s.now) && (decide (r.dueSince + hourNs ≤ s.now) ||
    (s.anyGap && match r.wheel with | some w => s.crossed w r.layer | none => true))

/-- The merge-buffer entries of the range's blocks pass (R243). -/
def State.passRange (s : State) (r : Range) : State :=
  (s.store.merges.filter fun m => !m.passed && decide (r.firstBlk ≤ m.blk) && decide (m.blk < r.firstBlk + r.len / 512)).foldl
    (fun s m => s.passEnt m.blk (m.valid != BitVec.allOnes 512)) s

/-- DIGEST_START. -/
def execDigestStart (t ld range : Nat) (s : State) : Res :=
  let s := s.at_ t
  match s.rangeOf ld range with
  | some r =>
    if s.up ∧ r.running = false ∧ s.digestMay r = true then
      .next ((s.modRange ld range fun r => { r with running := true, due := false }).passRange r)
    else .next s
  | none => .next s

/-- The digests of `n` sacks from `dpa`, as far as every read is served, and the sack that stopped them (R296). -/
def State.sackDigests (s : State) (ld dpa : Nat) : Nat → Bytes × Option (Nat × Bool)
  | 0 => ([], none)
  | n + 1 =>
    let r := s.fetch ld dpa 65536
    if r.2.poison then ([], some (dpa, r.2.iso))
    else
      let rest := s.sackDigests ld (dpa + 65536) n
      (leBytes 32 (Config.sha256 r.1).toNat ++ rest.1, rest.2)

/-- The end of a Run Digest of the range, if one waits for it (R359). -/
def State.endRun (s : State) (ld range outcome : Nat) : State :=
  match s.job ld with
  | some j => match j.cmd with
    | .runDigest _ r => if r = range then s.endJob ld .success outcome else s
    | _ => s
  | none => s

/-- A MISMATCH outcome: the record, then the events to the LD and the FM (R297, R301). DETAIL holds the range and as much
of the two digests as its 16 bytes take. -/
def State.digestMismatch (s : State) (r : Range) (reference : BitVec 256) (d : BitVec 256) : State :=
  let ev := Event.of 15 r.ld 1 [⟨64, 1, r.id⟩, ⟨65, 1, 2⟩]
  let s := s.modRiLd r.ld fun l => { l with dmismatch := bump 16 l.dmismatch 1 }
  s.ledger (LedgerRec.of 8 0 0 r.ld ((r.id + reference.toNat % 2 ^ 96 * 2 ^ 8 + d.toNat % 2 ^ 96 * 2 ^ 104) % 2 ^ 128))
    [⟨r.ld, 2, ev⟩, ⟨fmSrc, 2, ev⟩]

/-- The PDIGEST of a bound range after a completed digest (R298, R328): one line through its outbound window. DESIGN CHOICE, log entry 58. -/
def State.sendDigest (s : State) (r : Range) (changed : Bool) : State :=
  match r.peer with
  | none => s
  | some (port, w) =>
    let data := layout 64 [⟨0, 8, r.key⟩, ⟨8, 32, r.latest.toNat⟩, ⟨40, 6, r.turn⟩, ⟨46, 1, b2n changed⟩]
    let k : Packet := {
      port := port
      tag := s.port.nextTag
      window := w
      gen := (s.window port w).gen
      off := 0
      data := data
      fwdid := 0
      last := false
      early := false
      digest := true
      first := s.now
      out := false }
    (s.modPorts fun q => { q with packets := q.packets ++ [k], nextTag := (q.nextTag + 1) % 2 ^ 32 }).pump port

/-- A digest that completed with the value `d` at turn `turn` (R297): the outcome, the new reference, what is sent. DEDUCED, log entry 57. -/
def State.digestDone (s : State) (r : Range) (d : BitVec 256) (turn : Nat) : State :=
  let outcome := match r.reference with
    | none => 1
    | some x => if r.changed then 3 else if x = d then 1 else 2
  let r' : Range := { r with
    latest := d, outcome := outcome, changed := false, time := s.now, turn := turn, lastDone := s.now, running := false, done := true
    reference := if r.reference.isNone || r.changed then some d else r.reference }
  let s := s.modRange r.ld r.id fun _ => r'
  let s := s.modRiLd r.ld fun l => { l with runs := bump 32 l.runs 1 }
  let s := if outcome = 2 then s.digestMismatch r (r.reference.getD 0) d else s
  (s.sendDigest r' false).endRun r.ld r.id outcome

/-- DIGEST_COMPLETE. The stones of `disagree` gave sack digests that differ from the third run, and are observed; the
digests that agree are those of the stored data. DEDUCED, log entry 57. -/
def execDigestComplete (t ld range : Nat) (disagree : List Nat) (turn : Nat) (s : State) : Res :=
  let s := s.at_ t
  match s.rangeOf ld range with
  | some r =>
    if ¬ s.up ∨ r.running = false then .next s
    else
      let s := disagree.foldl (fun s k => s.observe 1 k 16) s
      match s.sackDigests ld r.base (r.len / 65536) with
      | (ds, none) => .next (s.digestDone r (Config.sha256 ds) turn)
      | (_, some (dpa, iso)) =>
        let sack := match s.extAt ld dpa with | some e => s.sackOf e dpa | none => 0
        let s := if iso then s.isolation ld dpa sack else s
        let s := s.modRange ld range fun r => { r with running := false, outcome := 4, haltSack := dpa / 65536 }
        .next (s.endRun ld range 4)
  | none => .next s

/-! ### Commands (Table 12.9) -/

/-- DEFINE_DIGEST_RANGE (C0B0h, R295). DEDUCED, log entry 57. -/
def execDefineDigestRange (h : MbHdr) (base len key period wheel layer : Nat) (s : State) : Res :=
  .next (s.mbRun h { opcode := 0xC0B0, ld := true, fm := .no, len := [38] } fun s =>
    match s.extAt h.src base with
    | none => .error .invalidInput
    | some e =>
      let p := if period = 0 then 24 else period
      if e.state ≠ .active ∨ Prof.gate e.profile ∨ base % 65536 ≠ 0 ∨ len % 65536 ≠ 0 ∨ len = 0 ∨ MiB * MiB < len
          ∨ e.base + e.len < base + len ∨ 720 < p ∨ (16 ≤ wheel ∧ wheel ≠ 0xFF) ∨ 1023 < layer then .error .invalidInput
      else if 64 ≤ (s.result.ranges.filter fun r => r.ld == h.src).length ∨ 256 ≤ s.result.ranges.length then
        .error .resourcesExhausted
      else
        let id := (lowestFree ((s.result.ranges.filter fun r => r.ld == h.src).map Range.id) 64).getD 0
        let r : Range := {
          id := id
          ld := h.src
          base := base
          len := len
          firstBlk := s.blkOf e base
          key := key
          period := p
          wheel := if wheel = 0xFF then none else some (16 * h.src + wheel)
          layer := layer
          lastDone := s.now }
        .ok { s := s.modResult fun x => { x with ranges := x.ranges ++ [r] }, fields := [⟨0, 1, id⟩] })

/-- DELETE_DIGEST_RANGE (C0B1h): a digest in progress is abandoned; a Run Digest that waits for it is Aborted. DEDUCED, log entry 57. -/
def execDeleteDigestRange (h : MbHdr) (range : Nat) (s : State) : Res :=
  .next (s.mbRun h { opcode := 0xC0B1, ld := true, fm := .no, len := [9] } fun s =>
    match s.rangeOf h.src range with
    | none => .error .invalidInput
    | some _ =>
      let waits := match s.job h.src with
        | some j => (match j.cmd with | .runDigest _ r => r == range | _ => false)
        | none => false
      let s := s.modResult fun x => { x with ranges := x.ranges.filter fun r => ¬ (r.ld = h.src ∧ r.id = range) }
      .ok { s := if waits then s.endJob h.src .aborted 0 else s })

/-- GET_DIGEST (C0B2h): the FM receives bytes 0 to 63 as zero. -/
def execGetDigest (h : MbHdr) (range : Nat) (s : State) : Res :=
  .next (s.mbRun h { opcode := 0xC0B2, ld := true, fm := .ld, len := [9] } fun s =>
    match s.rangeOf (whoOf h) range with
    | none => .error .invalidInput
    | some r =>
      let secret : List Fld := if h.src < 16 then [⟨0, 32, (r.reference.getD 0).toNat⟩, ⟨32, 32, r.latest.toNat⟩] else []
      .ok { s := s, fields := secret ++ [⟨64, 1, r.outcome⟩, ⟨65, 1, b2n r.changed⟩,
        ⟨72, 8, if r.done then s.stampOf h.src r.time else 0⟩] })

/-- SET_DIGEST_REFERENCE (C0B3h): it clears CHANGED. -/
def execSetDigestReference (h : MbHdr) (range : Nat) (reference : BitVec 256) (s : State) : Res :=
  .next (s.mbRun h { opcode := 0xC0B3, ld := true, fm := .no, len := [48] } fun s =>
    match s.rangeOf h.src range with
    | none => .error .invalidInput
    | some _ => .ok { s := s.modRange h.src range fun r => { r with reference := some reference, changed := false } })

/-- RUN_DIGEST (C0B4h): the range is due at once; Busy while a digest of it runs. -/
def execRunDigest (h : MbHdr) (range : Nat) (s : State) : Res :=
  .next (s.mbBg h { opcode := 0xC0B4, ld := true, fm := .no, len := [9] } (.runDigest h range) fun s =>
    match s.rangeOf h.src range with
    | none => .error .invalidInput
    | some r =>
      if r.running then .error .busy
      else .ok (s.modRange h.src range fun r => { r with due := true, dueAt := s.now }))

/-- SET_DIGEST_PEER (C0B5h): binds the range to an outbound window of the LD, or unbinds it. -/
def execSetDigestPeer (h : MbHdr) (range port window : Nat) (bind : Bool) (s : State) : Res :=
  .next (s.mbRun h { opcode := 0xC0B5, ld := true, fm := .no, len := [12] } fun s =>
    match s.rangeOf h.src range with
    | none => .error .invalidInput
    | some _ =>
      if ¬ bind then .ok { s := s.modRange h.src range fun r => { r with peer := none } }
      else
        let w := (s.window port window).act
        if (port ≠ 4 ∧ port ≠ 5) ∨ 63 < window ∨ w.dir ≠ 0 ∨ w.ld ≠ h.src then .error .invalidInput
        else .ok { s := s.modRange h.src range fun r => { r with peer := some (port, window) } })

end Sys2Proof.Machine
end

