-- ==== Sys2Proof/Machine/Links.lean ====
section
/-! DEFINITION. Resets of one LD and of a host port as shared operations (R180, R344, R348, R349, Table 14.7). -/
namespace Sys2Proof.Machine

/-! ### Background commands that end early (R359, Table 14.7) -/

/-- A C043h build that has not started is taken back: the set returns to its former state. DEDUCED, log entry 47. -/
def State.undoBuild (s : State) (set : Nat) : State :=
  match s.store.builds.find? fun b => b.set = set ∧ b.running = false with
  | none => s
  | some b =>
    let s := s.modStore fun st => { st with builds := st.builds.filter (· ≠ b) }
    if (s.setAt set).state = .building then s.modSet set fun t => { t with state := .empty } else s

/-- A requested slice that has not started is cancelled; a stone marked for it alone goes back to work once clear. -/
def State.undoSlice (s : State) (slice unit : Nat) : State :=
  if (s.sliceRec slice unit).running then s
  else
    let s := s.modSlice slice unit fun r => { r with due := none, marked := false, requested := false }
    if sliceUtype slice = 1 then s.modStone unit fun st => { st with slices := st.slices.filter (· ≠ slice) } else s

/-- What a background command leaves undone when it ends before its work does. -/
def State.undoJob (s : State) (cmd : Instr) : State :=
  match cmd with
  | .rebuildTableSet _ set _ => s.undoBuild set
  | .runDigest h range => s.modRange h.src range fun r => { r with running := false, due := false }
  | .requestTestSlice _ _ unit slice => s.undoSlice slice unit
  | _ => s

/-- End a background command with Aborted (Table 14.7). DEDUCED, log entry 64. -/
def State.stopJob (s : State) (src : Nat) : State :=
  match s.job src with
  | none => s
  | some j => (s.undoJob j.cmd).endJob src .aborted 0

/-! ### Links -/

/-- Start a full retrain (R312, R317): every lane but those with a failed laser is tried again, from EQUALISE where the
lasers are lit. -/
def State.retrain (s : State) (port : Nat) (fromDetect : Bool) : State :=
  let s := s.modPorts fun q => { q with lanes := q.lanes.updAll ((List.range 8).map (· + 8 * port)) fun _ l => { l with failed := l.laser } }
  let p := s.portAt port
  if p.state = .dark then s
  else
    let lit := p.state != .detect && !fromDetect
    s.modPort port fun p => { p with
      state := if lit then .equalise else .detect
      power := .active
      since := s.now
      group := []
      partner := 0
      partnerNode := 0
      mismatch := false }

/-! ### Requests of an LD that a reset discards -/

/-- Accepted CXL.mem requests complete inside the module, and their responses are discarded (Table 14.7). DEDUCED, log entry 64. -/
def State.muteLd (s : State) (ld : Nat) : State :=
  let s := s.modStore fun st => { st with
    heldReads := st.heldReads.map fun r => if r.ld = ld then { r with muted := true } else r
    heldWrites := st.heldWrites.map fun w => if w.ld = ld then { w with muted := true } else w }
  let s := s.modCxe fun c => { c with heldBi := c.heldBi.map fun r => if r.ld = ld then { r with muted := true } else r }
  s.modGate fun g => { g with reads := g.reads.filter fun r => r.ld ≠ ld }

/-- Every line that the LD holds is lost, and no snoop of it will be answered (R344). -/
def State.holdsGone (s : State) (ld : Nat) : State :=
  let s := s.holderLost ld (s.linesOf ld)
  let s := (s.cxe.snps.filter fun x => x.ld = ld).foldl State.snoopDone s
  s.pumpBi s.cxe.heldBi []

/-! ### Mem Clear (Table 14.7) -/

/-- The contents of one volatile extent are set to zero; it stays ACTIVE. -/
def State.clearExt (s : State) (e : Extent) : State :=
  let first := s.firstSack e
  let gone := fun (k : Nat) => decide (first ≤ k) && decide (k < first + e.sacks)
  let s := ((s.gate.bins.filter fun b => b.eid = e.eid).map Bin.id).foldl State.freeBin s
  let s := (s.store.heldWrites.filter fun w => gone w.sack).foldl (fun s w => (s.dropWrite w.wid).doneWrite w) s
  (s.discardSacks first e.sacks).retryReads fun r => gone r.sack

/-- Mem Clear of an LD: its own volatile extents. -/
def State.memClear (s : State) (ld : Nat) : State :=
  (s.ext.exts.filter fun e => e.ld = ld ∧ e.isAlias = false ∧ ¬ Prof.durable e.profile ∧ ¬ Prof.gate e.profile).foldl State.clearExt s

/-! ### The reset of one LD (R349) -/

/-- Configuration that a reset of a kind puts back (Table 14.7): the non-sticky configuration on all but a CXL reset, the
decoders and DVSEC controls on all but an FLR. The masks and severities of Table 14.6 (RWS) are kept, where Table 0.4 has a CXL reset
initialise such fields: R4 leaves the effect of every reset to Table 14.7. DESIGN CHOICE, log entry 94. -/
def State.resetConfig (s : State) (ld last : Nat) : State :=
  let cxl := last = 4 ∨ last = 5
  let s := if cxl then s
    else (s.modCxe fun c => { c with bme := c.bme.set ld false, msix := c.msix.set ld 0 }).modCxeLd ld fun l =>
      { l with d3 := false, cto := 0, bars := { range1 := l.bars.range1 } }
  if last = 6 then s
  else (s.modCxe fun c => { c with hdm := c.hdm.updAll ((List.range 8).map (· + 8 * ld)) fun _ _ => {} }).modCxeLd ld fun l =>
    { l with biEnable := false, bars := { l.bars with range1 := 0 } }

/-- Count a reset in CXE_RESET. -/
def State.noteReset (s : State) (ld last : Nat) : State :=
  s.modCxeLd ld fun l => { l with
    lastReset := last
    flrs := if last = 6 then bump 16 l.flrs 1 else l.flrs
    hots := if last ≤ 3 then bump 16 l.hots 1 else l.hots
    cxls := if last = 4 ∨ last = 5 then bump 16 l.cxls 1 else l.cxls }

/-- Cancel every operation and armed slot of an LD (R180). DEDUCED, log entry 54. -/
def State.cancelLd (s : State) (ld : Nat) : State :=
  (ldBufs ld).foldl (fun s b => if (s.slot b).state = .unarmed then s else s.cancelOp b) s

/-- A reset of one LD. `last` is CXE_RESET.LAST: 1 hot reset, 2 link-down, 3 LD-ID hot reset, 4 CXL reset, 5 CXL reset with
Mem Clear, 6 FLR. DEDUCED, log entry 64. -/
def State.ldReset (s : State) (ld last : Nat) : State :=
  let s := s.stopJob ld
  let s := { s with mbox := { s.mbox with images := s.mbox.images.filter fun i => i.src ≠ ld } }
  let s := if last = 6 then s else (s.muteLd ld).holdsGone ld
  let s := if last = 6 then s.modCxe fun c => { c with dmas := c.dmas.map fun d => if d.ld = ld then { d with drop := true } else d }
    else s.modCxe fun c => { c with dmas := c.dmas.filter fun d => d.ld ≠ ld }
  let s := s.cancelLd ld
  let s := ((List.range 16).map (· + 16 * ld)).foldl State.restWheel s
  let s := s.modIntegLd ld fun l => { l with flip := if l.flip.state = .armed then { l.flip with state := .cancelled } else l.flip }
  let s := if last = 5 then s.memClear ld else s
  let s := if last ≤ 3 then s.modCxe fun c => { c with sessions := c.sessions.filter fun x => x.ld ≠ ld } else s
  (s.resetConfig ld last).noteReset ld last

/-- A hot reset or link-down of a host port: its four LDs, its IDE keys and its link (R349). DEDUCED, log entry 64. -/
def State.portReset (s : State) (port last : Nat) : State :=
  let s := (portLds port).foldl (fun s ld => s.ldReset ld last) s
  let s := s.modCxe fun c => { c with ports := c.ports.upd port fun p => { p with ide := 0, keys := [], fresh := [] } }
  (s.retrain port (last == 2)).recap (4 + port)

/-- A port goes down: the LDs of a host port see link-down (R27, R316); a peer port drops what it carried. -/
def State.portDown (s : State) (port : Nat) : State :=
  if port < 4 then s.portReset port 2 else s.retrain port true

end Sys2Proof.Machine
end

