-- ==== Sys2Proof/Machine/Ports.lean ====
section
/-! DEFINITION. Light ports (R307 to R319): training, width, lane and laser failures, power states, telemetry. -/
namespace Sys2Proof.Machine

def laneKey (port lane : Nat) : Nat := 8 * port + lane
def State.laneAt (s : State) (port lane : Nat) : Lane := s.port.lanes.get (laneKey port lane)
def State.modLane (s : State) (port lane : Nat) (f : Lane → Lane) : State :=
  s.modPorts fun q => { q with lanes := q.lanes.upd (laneKey port lane) f }

/-- Can a port be lit: its rail is on and the module is neither braked nor in reset nor down. -/
def State.lit (s : State) : Bool :=
  s.clock.rails && s.phase != .off && s.phase != .braked && s.phase != .tripped && s.phase != .inReset && s.phase != .hubFailed

/-- The group of R315: the first wholly healthy group in the order of preference. -/
def pickGroup (ok : Nat → Bool) : List Nat :=
  let groups : List (List Nat) := [[0, 1, 2, 3, 4, 5, 6, 7], [0, 1, 2, 3], [4, 5, 6, 7], [0, 1], [2, 3], [4, 5], [6, 7],
    [0], [1], [2], [3], [4], [5], [6], [7]]
  (groups.find? fun g => g.all ok).getD []

def State.healthyGroup (s : State) (port : Nat) : List Nat := pickGroup fun n => !(s.laneAt port n).failed

/-- The group that a port narrows to when a lane of its group fails: never wider than the one in use (R317); a PARTIAL port keeps to
the lanes that are lit (R318). -/
def State.narrowGroup (s : State) (port : Nat) : List Nat :=
  let g := (s.portAt port).group
  if g.length = 1 then []
  else pickGroup fun n => !(s.laneAt port n).failed && ((s.portAt port).power != .partial_ || g.contains n)

/-- WIDTH as LP_PORT codes it: 0 down, 1 x1, 2 x2, 3 x4, 4 x8. -/
def widthCode (n : Nat) : Nat := match n with | 0 => 0 | 1 => 1 | 2 => 2 | 4 => 3 | _ => 4

/-- Put a group in use: a new width advances the CDAT sequence numbers of the port's LDs (R353), and the port's weir
follows its lanes. DEDUCED, log entry 61. -/
def State.setGroup (s : State) (port : Nat) (g : List Nat) : State :=
  let old := (s.portAt port).lastWidth
  let s := s.modPort port fun p => { p with group := g, lastWidth := g.length }
  if 4 ≤ port then s
  else
    let s := if old = g.length then s
      else s.modCxe fun c => { c with cdatSeq := c.cdatSeq.updAll (portLds port) fun _ n => (n + 1) % 2 ^ 32 }
    s.recap (4 + port)

/-! ### Training (R312 to R314) -/

/-- An attempt ends: back to DETECT, counted, its lanes free to be tried again. DEDUCED, log entry 59. -/
def State.attemptOver (s : State) (port : Nat) : State :=
  let s := s.modPort port fun p => { p with retrain := bump 16 p.retrain 1 }
  if (s.portAt port).state = .active ∨ (s.portAt port).state = .reconfig then s.portDown port
  else s.retrain port true

/-- The work of CONFIG (R313): the partner is accepted, or the port stays with MISMATCH; with no healthy lane the attempt is over. DESIGN CHOICE, log entry 91. -/
def State.configure (s : State) (port partner node : Nat) (flit256 : Bool) : State :=
  let ok := flit256 && (if port < 4 then partner == 1 else partner == 2 && node != 0 && node != s.port.node)
  if s.healthyGroup port = [] then s.attemptOver port
  else if ¬ ok then s.modPort port fun p => { p with mismatch := true, since := s.now }
  else
    let s := s.modPort port fun p => { p with
      state := .active
      power := .active
      partner := partner
      partnerNode := if port < 4 then 0 else node
      ownNode := if port < 4 then 0 else s.port.node
      mismatch := false
      since := s.now
      lastUse := s.now }
    (s.setGroup port (s.healthyGroup port)).pump port

/-- PORT_TRAINING_ADVANCE: a port completes the work of its state. `failed` are lanes that fail EQUALISE or LOCK, `skew`
the lanes' arrival times in ns (R314). DEDUCED, log entry 61. DESIGN CHOICE, log entries 60, 91. -/
def execPortTrainingAdvance (t port : Nat) (light : Bool) (failed skew : List Nat) (partner node : Nat) (flit256 : Bool)
    (s : State) : Res :=
  let s := s.at_ t
  let p := s.portAt port
  if ¬ s.lit ∨ 6 ≤ port ∨ s.health.engines.contains port then .next s
  else
    let dst := fun (s : State) (st : Training) => s.modPort port fun p => { p with state := st, since := s.now }
    let fail := fun (s : State) (ns : List Nat) => ns.foldl (fun s n => s.modLane port n fun l => { l with failed := true }) s
    match p.state with
    | .dark => if 4 ≤ port ∧ p.enabled ∧ s.port.node ≠ 0 then .next (dst (s.modPort port fun p => { p with power := .active }) .detect)
        else .next s
    | .detect => if light then .next (dst s .light) else .next s
    | .light => .next (dst s .equalise)
    | .equalise =>
      let s := fail s (failed.filter (· < 8))
      let s := (List.range 8).foldl (fun s n =>
        let v := s.free
        v.2.modLane port n fun l => { l with margin := v.1 % 256 }) s
      if s.healthyGroup port = [] then .next (s.attemptOver port) else .next (dst s .lock)
    | .lock =>
      let first := ((List.range 8).filterMap fun n => if (s.laneAt port n).failed then none else skew[n]?).foldl min (skew.foldl max 0)
      let s := fail s (failed.filter (· < 8))
      let s := fail s ((List.range 8).filter fun n => decide (first + 128 < skew.getD n first))
      if s.healthyGroup port = [] then .next (s.attemptOver port) else .next (dst s .config)
    | .config => if p.mismatch then .next s else .next (s.configure port partner node flit256)
    | .active => .next s
    | .reconfig => .next ((dst s .active).pump port)

/-- The time limit of a training state in ns (Table 13.3). A port whose partner it refuses stays in CONFIG. -/
def Port.limit (p : Port) : Option Nat :=
  match p.state with
  | .light => some (5 * ms)
  | .equalise => some (8 * ms)
  | .lock => some (50 * us)
  | .config => if p.mismatch then none else some (10 * us)
  | .reconfig => some (12 * us)
  | .dark | .detect | .active => none

/-- PORT_TRAINING_TIMEOUT. DESIGN CHOICE, log entry 4. -/
def execPortTrainingTimeout (t port : Nat) (s : State) : Res :=
  let s := s.at_ t
  match (s.portAt port).limit with
  | some n => if (s.portAt port).since + n ≤ s.now then .next (s.attemptOver port) else .next s
  | none => .next s

/-- CONFIG_MISMATCH_RETRY: every 100 ms (R313). -/
def execConfigMismatchRetry (t port partner node : Nat) (flit256 : Bool) (s : State) : Res :=
  let s := s.at_ t
  let p := s.portAt port
  if p.state = .config ∧ p.mismatch = true ∧ p.since + 100 * ms ≤ s.now then .next (s.configure port partner node flit256) else .next s

/-! ### Lanes and lasers (R316, R317, R319) -/

def widthEvent (port lane width : Nat) : Event := Event.of 12 31 1 [⟨64, 1, port⟩, ⟨65, 1, lane⟩, ⟨66, 1, width⟩]

/-- A lane fails: the port narrows to the next group, or an x1 port goes down (R27, R316). DEDUCED, log entry 59. -/
def State.failLane (s : State) (port lane : Nat) : State :=
  if (s.laneAt port lane).failed then s
  else
    let s0 := s
    let s := (s.modLane port lane fun l => { l with failed := true }).unitFailed 5 (laneKey port lane)
    let p := s.portAt port
    let up := p.state == .active || p.state == .reconfig
    if ¬ up ∨ ¬ p.group.contains lane then s.noteVitals s0
    else
      let g := s.narrowGroup port
      let s := s.modPort port fun p => { p with narrow := bump 16 p.narrow 1 }
      let ev := widthEvent port lane (widthCode g.length)
      let s := (fmSrc :: (portLds port).filter s.ldOn).foldl (fun s m => s.post m 1 ev) s
      let s := if g = [] then s.portDown port
        else (s.modPort port fun p => { p with state := .reconfig, since := s.now }).setGroup port g
      s.noteVitals s0

/-- LANE_FAILURE. DEDUCED, log entry 59. -/
def execLaneFailure (t port lane : Nat) (s : State) : Res :=
  let s := s.at_ t
  if s.lit ∧ port < 6 ∧ lane < 8 then .next (s.failLane port lane) else .next s

/-- LASER_AGEING: the laser's bias in percent; the event is raised once per laser at 130 %. -/
def execLaserAgeing (t port lane wavelength bias : Nat) (s : State) : Res :=
  let s := s.at_ t
  if 6 ≤ port ∨ 8 ≤ lane ∨ 4 ≤ wavelength then .next s
  else
    let old := (s.laneAt port lane).aged
    let s := s.modLane port lane fun l => { l with bias := l.bias.set wavelength bias }
    if bias < 130 ∨ old.contains wavelength then .next s
    else
      let s := s.modLane port lane fun l => { l with aged := wavelength :: l.aged }
      .next (s.post fmSrc 0 (Event.of 11 31 1 [⟨64, 1, port⟩, ⟨65, 1, lane⟩, ⟨66, 1, wavelength⟩, ⟨67, 1, min bias 255⟩]))

/-- LASER_FAILURE: at 150 % of its initial bias, or 10 ms of low launch power, a laser and its lane fail. DEDUCED, log entry 59. -/
def execLaserFailure (t port lane bias : Nat) (lowPower : Bool) (s : State) : Res :=
  let s := s.at_ t
  if 6 ≤ port ∨ 8 ≤ lane ∨ (bias < 150 ∧ lowPower = false) then .next s
  else
    let s := s.modLane port lane fun l =>
      let worst := l.bias.foldl max 0
      { l with laser := true, bias := if worst < bias then l.bias.set (l.bias.idxOf worst) bias else l.bias }
    .next (s.failLane port lane)

/-! ### Power states (R318) -/

/-- PORT_L0P: CXL L0p narrows a host port; its unused lanes go to standby bias. -/
def execPortL0p (t port width : Nat) (s : State) : Res :=
  let s := s.at_ t
  let p := s.portAt port
  if port < 4 ∧ p.state = .active ∧ (p.power = .active ∨ p.power = .partial_) ∧ (width = 1 ∨ width = 2 ∨ width = 4) ∧ width < p.group.length then
    .next ((s.modPort port fun p => { p with power := .partial_ }).setGroup port (p.group.take width))
  else .next s

/-- PORT_L1_ENTRY: a host port enters STANDBY. -/
def execPortL1Entry (t port : Nat) (s : State) : Res :=
  let s := s.at_ t
  let p := s.portAt port
  if port < 4 ∧ p.state = .active ∧ (p.power = .active ∨ p.power = .partial_) then .next (s.modPort port fun p => { p with power := .standby })
  else .next s

/-- PORT_L2_ENTRY: a port goes DARK with its lasers off. -/
def execPortL2Entry (t port : Nat) (s : State) : Res :=
  let s := s.at_ t
  if port < 4 ∧ (s.portAt port).state = .active then
    .next ((s.modPort port fun p => { p with state := .dark, power := .dark, since := s.now, partner := 0, partnerNode := 0 }).setGroup port [])
  else .next s

/-- PEER_STANDBY_TIMEOUT: a peer port idle for its standby time; 0 disables it. -/
def execPeerStandbyTimeout (t port : Nat) (s : State) : Res :=
  let s := s.at_ t
  let p := s.portAt port
  if (port = 4 ∨ port = 5) ∧ p.state = .active ∧ p.power = .active ∧ 0 < p.standby ∧ p.lastUse + p.standby * us ≤ s.now then
    .next (s.modPort port fun p => { p with power := .standby })
  else .next s

/-- PORT_EXIT_TO_ACTIVE: out of PARTIAL or STANDBY with the healthy lanes, out of DARK by training from DETECT. -/
def execPortExitToActive (t port : Nat) (s : State) : Res :=
  let s := s.at_ t
  let p := s.portAt port
  if ¬ s.lit ∨ 6 ≤ port ∨ s.health.engines.contains port then .next s
  else match p.power with
    | .active => .next s
    | .partial_ | .standby =>
      .next (((s.modPort port fun p => { p with power := .active, lastUse := s.now }).setGroup port (s.healthyGroup port)).pump port)
    | .dark =>
      if 4 ≤ port ∧ (p.enabled = false ∨ s.port.node = 0) then .next s
      else .next ((s.modPort port fun p => { p with state := .detect, power := .active, since := s.now }))

/-! ### Commands and the Retrain Link control -/

/-- RETRAIN_LINK: a full retrain of the LD's port (R317, R333). -/
def execRetrainLink (ld : Nat) (s : State) : Res :=
  if s.lit ∧ ld < 16 ∧ s.ldOn ld then .next ((s.retrain (ldPort ld) false).recap (4 + ldPort ld)) else .next s

/-- RETRAIN_PORT (C0F7h): a full retrain of any port, in the background. DEDUCED, log entry 71. -/
def execRetrainPort (h : MbHdr) (port : Nat) (s : State) : Res :=
  .next (s.mbBg h { opcode := 0xC0F7, ld := false, fm := .module, len := [9] } (.retrainPort h port) fun s =>
    if 6 ≤ port then .error .invalidInput
    else
      let s := s.retrain port false
      .ok (if port < 4 then s.recap (4 + port) else s))

/-- SET_PEER_PORT (C0F6h): ENABLE, standby time and grace interval of a peer port. -/
def execSetPeerPort (h : MbHdr) (port enable standby grace : Nat) (s : State) : Res :=
  .next (s.mbRun h { opcode := 0xC0F6, ld := false, fm := .module, len := [20] } fun s =>
    if (port ≠ 4 ∧ port ≠ 5) ∨ 1 < enable ∨ 1000 < standby ∨ grace < 10 ∨ 10000 < grace then .error .invalidInput
    else
      let s := s.modPort port fun p => { p with enabled := enable == 1, standby := standby, grace := grace }
      let p := s.portAt port
      if enable = 0 then
        .ok { s := s.modPort port fun p => { p with state := .dark, power := .dark, since := s.now, group := [], partner := 0, partnerNode := 0, mismatch := false } }
      else if p.state = .dark ∧ s.lit ∧ s.port.node ≠ 0 then
        .ok { s := s.modPort port fun p => { p with state := .detect, power := .active, since := s.now } }
      else .ok { s := s })

/-- The 32 telemetry records of a port (Table 15.4). What the lasers' heaters draw and launch the spec does not fix. DESIGN CHOICE, log entry 60. -/
def State.telemetry (s : State) (port : Nat) : Nat → Nat → Bytes × State
  | 0, _ => ([], s)
  | n + 1, i =>
    let l := s.laneAt port (i / 4)
    let init := Config.initialBias (32 * port + i)
    let heat := s.free
    let power := heat.2.free
    let r := layout 16 [⟨0, 2, init * l.bias.getD (i % 4) 100 / 100⟩, ⟨2, 2, init⟩, ⟨4, 2, heat.1⟩, ⟨6, 2, power.1⟩, ⟨8, 1, l.margin⟩]
    let rest := power.2.telemetry port n (i + 1)
    (r ++ rest.1, rest.2)

/-- GET_PORT_TELEMETRY (C0F8h). -/
def execGetPortTelemetry (h : MbHdr) (port : Nat) (s : State) : Res :=
  .next (s.mbRun h { opcode := 0xC0F8, ld := false, fm := .module, len := [9] } fun s =>
    if 6 ≤ port then .error .invalidInput
    else
      let r := s.telemetry port 32 0
      .ok { s := r.2, blob := r.1 })

/-! ### Registers -/

def Training.code : Training → Nat
  | .dark => 0 | .detect => 1 | .light => 2 | .equalise => 3 | .lock => 4 | .config => 5 | .active => 6 | .reconfig => 7
def LinkPower.code : LinkPower → Nat
  | .active => 0 | .partial_ => 1 | .standby => 2 | .dark => 3

/-- LP_PORT[p]. -/
def State.portWord (s : State) (port : Nat) : Nat :=
  let p := s.portAt port
  let bits := fun (f : Nat → Bool) => ((List.range 8).map fun n => if f n then 2 ^ n else 0).foldl (· + ·) 0
  p.state.code + widthCode p.group.length * 8 + bits p.group.contains * 2 ^ 6 + bits (fun n => (s.laneAt port n).failed) * 2 ^ 14
    + p.partner * 2 ^ 22 + 2 ^ 24 * b2n p.mismatch + p.power.code * 2 ^ 25 + p.retrain * 2 ^ 32 + p.narrow * 2 ^ 48

/-- LP_LANE[i]. -/
def State.laneWord (s : State) (port lane : Nat) : Nat :=
  let l := s.laneAt port lane
  let st := if l.laser then 3 else if l.failed then 2 else if (s.portAt port).group.contains lane then 0 else 1
  l.corr / 1000 + l.uncorr * 2 ^ 24 + min 255 (max 100 (l.bias.foldl max 0)) * 2 ^ 40 + l.margin * 2 ^ 48 + st * 2 ^ 56

end Sys2Proof.Machine
end

