-- ==== Sys2Proof/Machine/Light.lean ====
section
/-! DEFINITION. The codewords of a lane (R309, R310): RS(271,256) over GF(2^10) behind a marker symbol, its wavelengths and its
correction, and the counts of LP_LANE. -/
namespace Sys2Proof.Machine

/-- Symbols of a codeword, of its data, and the errors that its decoder corrects (R309). -/
def wordSyms : Nat := 271
def wordData : Nat := 256
def wordFixes : Nat := 7

/-- A codeword of 256 data symbols: the data and their 15 check symbols. The rule names neither the field's polynomial nor the code's
generator. DESIGN CHOICE, log entry 103. -/
def rsEncode (data : List (BitVec 10)) : List (BitVec 10) := data ++ (Config.rsParity data ++ List.replicate 15 0).take 15

/-- The wavelength on which symbol `i` travels. -/
def symWave (i : Nat) : Nat := i % 4

/-- The places at which a received word differs from the one sent. -/
def wordErrs (w : LaneWord) : List Nat :=
  (List.range wordSyms).filter fun i => (rsEncode w.data).getD i 0 != w.got.getD i 0

/-- The errors on one wavelength. -/
def waveErrs (w : LaneWord) (wave : Nat) : List Nat := (wordErrs w).filter fun i => symWave i == wave

/-- Does the decoder correct a received word? -/
def wordFixed (w : LaneWord) : Bool := (wordErrs w).length ≤ wordFixes

/-- The symbols that are passed on: the word sent where it is corrected, else the received one, unchanged (R310). -/
def wordOut (w : LaneWord) : List (BitVec 10) := if wordFixed w then rsEncode w.data else w.got

/-- Count a codeword that a lane has received in LP_LANE (R310). -/
def State.takeWord (s : State) (port : Nat) (x : Nat × LaneWord) : State :=
  let n := (wordErrs x.2).length
  s.modLane port x.1 fun l =>
    if wordFixed x.2 then { l with corr := min (l.corr + n) (1000 * 2 ^ 24 - 1) } else { l with uncorr := bump 16 l.uncorr 1 }

/-- Count the codewords in which a flit came. -/
def State.takeWords (s : State) (port : Nat) (ws : List (Nat × LaneWord)) : State := ws.foldl (fun s w => s.takeWord port w) s

end Sys2Proof.Machine
end

