-- ==== Sys2Proof/Machine/MemPath.lean ====
section
/-! DEFINITION. CXL.mem requests (R15, R330, R337, R338, R345, R346): LD-IDs, HDM decoding, gate slots, stored lines. -/
namespace Sys2Proof.Machine

/-! ### Requests to a DPA -/

/-- The state that a meaning leaves; no meaning of a gate operation stops. -/
def stateOf (r : Res) (s : State) : State := match r with | .next s' => s' | _ => s

/-- Opcode and go line of 64 bytes (Table 7.3). -/
def goLineOf (bs : Bytes) : Nat × GoLine :=
  (leAt bs 0 2,
   { nowheel := bitOf (leAt bs 2 1) 0
     early := bitOf (leAt bs 2 1) 1
     turnlo := leAt bs 3 1
     layer := leAt bs 4 2 % 1024
     wheel := leAt bs 4 2 / 1024 % 16
     seq := leAt bs 6 2
     plines := leAt bs 8 2
     handle := leAt bs 10 2
     obj := leAt bs 16 8
     resv := leAt bs 2 1 / 4 + leAt bs 4 2 / 16384 * 64 + leAt bs 12 4 * 256 + leAt bs 24 40 * 2 ^ 40 })

/-- The meaning of a go line by its opcode (Table 7.6). -/
def goMeaning (g : GoWrite) (opcode : Nat) (s : State) : Res :=
  match opcode with
  | 0x0000 => execGateNop g s
  | 0x0100 => execAppendAttend g s
  | 0x0101 => execPrefixAttach g s
  | 0x0102 => execChunkPrefill g s
  | 0x0103 => execPrefixPublish g s
  | 0x0104 => execSeqTruncate g s
  | 0x0200 => execGraphSearch g s
  | 0x0201 => execDistanceBatch g s
  | 0x0300 => execSetIntersect g s
  | 0x0301 => execSetUnion g s
  | 0x0302 => execSetDifference g s
  | 0x0400 => execTenant g s
  | _ => execGateOpcodeReserved g opcode s

/-- A write to a DPA of a served gate extent (R166 to R172, R346). DEDUCED, log entry 29. -/
def State.gateWrite (s : State) (ld dpa : Nat) (data : Bytes) (enables : BitVec 64) (poison : Bool) : State :=
  match s.bufAt ld dpa with
  | none => s.modGateLd ld fun l => { l with unarmed := bump 16 l.unarmed 1 }
  | some b =>
    let line := dpa / 64 % 1024
    if line ≠ 0 then s.slotWrite ld b line data enables poison
    else if poison ∨ enables ≠ BitVec.allOnes 64 then s.modGateLd ld fun l => { l with badgo := bump 16 l.badgo 1 }
    else
      let x := goLineOf (fit 64 data)
      stateOf (goMeaning { ld := ld, dpa := dpa, line := x.2, full := true, poison := false } x.1 s) s

/-- A write of one line by an LD. A dropped write completes too; `muted` discards the completion. -/
def State.hostWrite (s : State) (ld dpa tag : Nat) (data : Bytes) (enables : BitVec 64) (poison muted : Bool) : State :=
  let done := fun (s : State) => if muted then s else s.send (.memDone ld tag (s.loadAt ld dpa))
  let s := s.settleLeaving
  match s.access ld dpa with
  | .nowhere => done (s.drop ld dpa true true)
  | .leaving => done (s.drop ld dpa true false)
  | .served e =>
    if Prof.gate e.profile then done (s.gateWrite ld dpa data enables poison)
    else s.writeLine ld dpa tag e data enables poison muted

/-- A read of one line by an LD. -/
def State.hostRead (s : State) (ld dpa tag upset : Nat) : State :=
  let s := s.settleLeaving
  match s.access ld dpa with
  | .nowhere => (s.drop ld dpa false true).send (.memPoison ld tag (s.loadAt ld dpa))
  | .leaving => (s.drop ld dpa false false).send (.memPoison ld tag (s.loadAt ld dpa))
  | .served e => if Prof.gate e.profile then s.gateRead ld dpa tag else s.readLine ld dpa tag e upset

/-! ### HDM decoding (R336 to R338) -/

def State.hdmAt (s : State) (ld k : Nat) : Hdm := s.cxe.hdm.get (8 * ld + k)

/-- The DPA size of a decoder. -/
def Hdm.dpaSize (d : Hdm) : Nat := d.size / max d.ways 1

/-- DBASE(k): the DPA sizes and skips of decoders 0 to k, less the DPA size of decoder k. -/
def State.dbase (s : State) (ld k : Nat) : Nat :=
  ((List.range (k + 1)).map fun i => (s.hdmAt ld i).dpaSize + (s.hdmAt ld i).skip).foldl (· + ·) 0 - (s.hdmAt ld k).dpaSize

/-- The DPA of a request through a decoder (R337), if its interleave position is this LD's. -/
def Hdm.dpa (d : Hdm) (dbase hpa : Nat) : Option Nat :=
  let o := hpa - d.base
  if o / d.gran % d.ways = d.target then some (dbase + o / (d.gran * d.ways) * d.gran + o % d.gran) else none

/-- Decode an HPA: the DPA and whether the decoder's range is HDM-DB (R338). -/
def State.hdmDecode (s : State) (ld hpa : Nat) : Option (Nat × Bool) :=
  match (List.range 8).find? fun k =>
      let d := s.hdmAt ld k
      d.committed && decide (d.base ≤ hpa) && decide (hpa < d.base + d.size) with
  | some k => ((s.hdmAt ld k).dpa (s.dbase ld k) hpa).map fun x => (x, (s.hdmAt ld k).bi)
  | none => none

/-! ### Requests on a port -/

/-- Does a host port carry requests? One in STANDBY holds them for its exit and leaves it (R318). -/
def State.portServes (s : State) (port : Nat) : Bool := s.up && decide (port < 4) && s.carries port

def State.wakePort (s : State) (port : Nat) : State :=
  if (s.portAt port).power = .standby then (s.modPort port fun p => { p with power := .active }).setGroup port (s.healthyGroup port) else s

/-- Is an LD-ID one of the port's, and the LD enabled (R330)? -/
def State.ldidOk (s : State) (port ldid : Nat) : Bool := ldid < 16 && ldPort ldid == port && s.ldOn ldid

def State.badLdid (s : State) (port : Nat) : State :=
  s.modCxe fun c => { c with ports := c.ports.upd port fun p => { p with badLdid := bump 32 p.badLdid 1 } }

def State.noDecoder (s : State) (ld : Nat) : State := s.modCxeLd ld fun l => { l with nodec := bump 32 l.nodec 1 }

/-- An HDM-DB request of a line that is served through its snoop filter (R341). -/
def State.biRequest (s : State) (ld dpa tag : Nat) (e : Extent) (write : Bool) (mv : MetaVal) (data : Bytes)
    (enables : BitVec 64) (poison : Bool) (upset : Nat) : State :=
  s.acceptBi { ld := ld, eid := e.eid, dpa := dpa, blk := s.blkOf e dpa, line := lineOf dpa, tag := tag, write := write, mv := mv,
               data := data, enables := enables, poison := poison, upset := upset }

/-- While debug is being opened the endpoint holds new CXL.mem requests (Table 16.10, step 1). -/
def State.holdReq (s : State) (ld dpa tag : Nat) (write : Bool) : State :=
  s.modBoot fun b => { b with heldReqs := b.heldReqs ++ [(ld, dpa, tag, write)] }

/-- CXL_MEM_READ. `upset` is an error pattern met in the near tier (R267). -/
def execCxlMemRead (port ldid hpa tag : Nat) (mv : MetaVal) (upset : Nat) (s : State) : Res :=
  if ¬ s.portServes port then .next s
  else
    let s := s.wakePort port
    if ¬ s.ldidOk port ldid then .next ((s.badLdid port).send (.memPoison ldid tag))
    else match s.hdmDecode ldid hpa with
      | none => .next ((s.noDecoder ldid).send (.memPoison ldid tag))
      | some (a, bi) =>
        let dpa := a / 64 * 64
        if s.boot.openSeq ≠ 0 then .next (s.holdReq ldid dpa tag false)
        else match bi, s.access ldid dpa with
        | true, .served e =>
          if Prof.gate e.profile then .next (s.gateRead ldid dpa tag)
          else .next (s.biRequest ldid dpa tag e false mv [] 0 false upset)
        | _, _ => .next (s.hostRead ldid dpa tag upset)

/-- CXL_MEM_WRITE. -/
def execCxlMemWrite (port ldid hpa tag : Nat) (data : Bytes) (enables : BitVec 64) (poison : Bool) (s : State) : Res :=
  if ¬ s.portServes port then .next s
  else
    let s := s.wakePort port
    if ¬ s.ldidOk port ldid then .next ((s.badLdid port).send (.memDone ldid tag))
    else
      let s := s.poisonSeen ldid poison
      match s.hdmDecode ldid hpa with
      | none => .next ((s.noDecoder ldid).send (.memDone ldid tag))
      | some (a, bi) =>
        let dpa := a / 64 * 64
        if s.boot.openSeq ≠ 0 then .next (s.holdReq ldid dpa tag true)
        else match bi, s.access ldid dpa with
        | true, .served e =>
          if Prof.gate e.profile then .next (s.hostWrite ldid dpa tag data enables poison false)
          else .next (s.biRequest ldid dpa tag e true .any (fit 64 data) enables poison 0)
        | _, _ => .next (s.hostWrite ldid dpa tag (fit 64 data) enables poison false)

/-- BAD_LD_ID (R330): `kind` 0 a CXL.io request, 1 a CXL.mem read, 2 a CXL.mem write. -/
def execBadLdId (port ldid kind tag : Nat) (s : State) : Res :=
  if ¬ s.up ∨ 4 ≤ port ∨ s.ldidOk port ldid then .next s
  else if kind = 0 ∧ ldid = 0xFFFF ∧ s.boot.fmport = port then .next s
  else
    let s := s.badLdid port
    match kind with
    | 0 => .next (s.send (.cxlIo ldid 4 [] []))
    | 1 => .next (s.send (.memPoison ldid tag))
    | _ => .next (s.send (.memDone ldid tag))

end Sys2Proof.Machine
end

