-- ==== Sys2Proof/Machine/Peers.lean ====
section
/-! DEFINITION. Peer links (R294, R298, R320 to R328): received messages, windows, forwards and their timers, bindings. -/
namespace Sys2Proof.Machine

/-! ### Message form (R322) -/

def State.badMsg (s : State) : State := s.modPorts fun q => { q with badmsg := bump 16 q.badmsg 1 }

/-- The LINES values of a type (Table 13.5); none for a reserved type. -/
def linesOk (ptype lines : Nat) : Bool :=
  match ptype with
  | 1 => decide (1 ≤ lines) && decide (lines ≤ 16)
  | 2 | 5 => lines == 0
  | 3 | 4 => lines == 1
  | _ => false

/-- A packet with a reserved type, a non-zero reserved field or a LINES value outside its row. -/
def peerBad (p : PeerHdr) : Bool := p.resv != 0 || !linesOk p.ptype p.lines || decide (64 ≤ p.window)

/-- A packet of a type on a peer port that carries traffic: it is taken, counted as bad, or never arrives. -/
def State.onPeer (s : State) (p : PeerHdr) (ptype : Nat) (f : State → State) : State :=
  if (p.port ≠ 4 ∧ p.port ≠ 5) ∨ ¬ s.carries p.port then s
  else
    let s := s.modPort p.port fun q => { q with power := if q.power = .standby then .active else q.power, lastUse := s.now }
    if peerBad p ∨ p.ptype ≠ ptype then s.badMsg else f s

/-! ### Inbound checks (Table 13.8) -/

/-- The status of a PWR or PDIGEST, and the descriptor used. DEDUCED, log entry 63. -/
def State.inbound (s : State) (p : PeerHdr) : Nat × WinDesc :=
  let w := s.window p.port p.window
  let d := (p.gen + 256 - w.gen % 256) % 256
  let prev := if s.now < w.graceEnd then w.prev else none
  let used := if d = 255 then prev.getD w.act else w.act
  if w.act.dir ≠ 1 ∨ w.act.enable = false ∨ w.act.node ≠ p.srcNode then (1, used)
  else if d = 1 then (2, used)
  else if (d = 255 ∧ prev.isNone) ∨ (2 ≤ d ∧ d ≤ 254) then (3, used)
  else if p.dest < used.base ∨ used.base + used.len < p.dest + 64 * p.lines then (4, used)
  else
    let served := (List.range p.lines).all fun i =>
      match s.extAt used.ld (p.dest + 64 * i) with
      | some e => e.state == .active && (Prof.gate e.profile || s.mayReach used.ld e (s.sack (s.sackOf e (p.dest + 64 * i))))
      | none => false
    if ¬ served ∨ p.dest % 64 ≠ 0 then (5, used)
    else if p.early ∧ p.ptype = 1 ∧ 4096 ≤ s.result.provs.length
        ∧ ¬ s.result.provs.any (fun x => x.node == p.srcNode && x.fwdid == p.fwdid) then (6, used)
    else (0, used)

/-- What a status counts in LP_PEERERR, and the PACK that carries it. -/
def State.answerPeer (s : State) (p : PeerHdr) (status : Nat) : State :=
  let w := s.window p.port p.window
  let d := (p.gen + 256 - w.gen % 256) % 256
  let s := s.modPorts fun q => { q with
    stale := if status = 3 then bump 16 q.stale 1 else q.stale
    pending := if status = 2 then bump 16 q.pending 1 else q.pending
    prevgen := if status = 0 ∧ d = 255 then bump 16 q.prevgen 1 else q.prevgen }
  s.sendPeer p.port 2 (peerHdr 2 false false p.window w.gen 0 (s.portAt p.port).ownNode w.act.ld status p.tag p.fwdid 0) []

/-- Blocks of an LD that a run of lines touches. -/
def State.blocksAt (s : State) (ld dpa lines : Nat) : List Nat :=
  ((List.range lines).filterMap fun i => (s.extAt ld (dpa + 64 * i)).map fun e => s.blkOf e (dpa + 64 * i)).eraseDups

/-- Record an early forward's blocks in its provisional entry (R294). -/
def State.provisional (s : State) (p : PeerHdr) (ld : Nat) (blks : List Nat) : State :=
  if s.result.provs.any fun x => x.node == p.srcNode && x.fwdid == p.fwdid then
    s.modResult fun r => { r with provs := r.provs.map fun x =>
      if x.node = p.srcNode ∧ x.fwdid = p.fwdid then
        { x with blocks := x.blocks ++ blks.filter (fun b => !x.blocks.contains b), lines := x.lines + p.lines }
      else x }
  else
    let e : Prov := { node := p.srcNode, fwdid := p.fwdid, ld := ld, blocks := blks, since := s.now, srcLd := p.srcLd, dest := p.dest, lines := p.lines }
    (s.modResult fun r => { r with provs := r.provs ++ [e] }).modRiLd ld fun l => { l with provisional := bump 32 l.provisional 1 }

/-- PWR: checked, written as whole-line writes of the inbound LD, answered (R325). -/
def execPwr (p : PeerHdr) (data : Bytes) (s : State) : Res :=
  .next (s.onPeer p 1 fun s =>
    let r := s.inbound p
    if r.1 ≠ 0 then s.answerPeer p r.1
    else
      let blks := s.blocksAt r.2.ld p.dest p.lines
      let s := (List.range p.lines).foldl (fun s i =>
        s.hostWrite r.2.ld (p.dest + 64 * i) 0 (fit 64 ((data.drop (64 * i)).take 64)) (BitVec.allOnes 64) false true) s
      let s := if p.early then s.provisional p r.2.ld blks else s
      s.answerPeer p 0)

/-! ### PACK (R326) -/

/-- Send a packet again through its window's current descriptor. -/
def State.resend (s : State) (k : Packet) : State :=
  let w := s.window k.port k.window
  let k' : Packet := { k with gen := w.gen, dest := w.act.base + k.off, sentAt := s.now, hold := false, again := false }
  (s.modPacket k.port k.tag fun _ => k').transmit k'

/-- A forward whose packets are all answered OK counts in LP_FWD.SENT. -/
def State.packetOk (s : State) (k : Packet) : State :=
  let s := s.modPorts fun q => { q with packets := q.packets.filter fun x => ¬ (x.port = k.port ∧ x.tag = k.tag) }
  if k.digest then s
  else match s.fwd k.fwdid with
    | none => s
    | some f =>
      let left := f.left - k.data.length / 64
      let s := s.modFwd k.fwdid fun x => { x with left := left, dest := if k.off = x.offset then k.dest else x.dest }
      let s := if left = 0 then s.modFwdLd f.ld fun l => { l with sent := bump 32 l.sent 1 } else s
      s.sweepFwds

/-- PROV_FULL: the result is sent again after its check, as a checked forward (R294). -/
def State.provFull (s : State) (id : Nat) : State :=
  match s.fwd id with
  | none => s
  | some f =>
    let s := s.modPorts fun q => { q with packets := q.packets.filter fun k => k.digest || k.fwdid != id }
    if f.settled ∧ f.unsent.isNone then
      let x := s.slot f.buf
      if x.state = .ready ∧ x.seq = f.seq then
        ((s.modRiLd f.ld fun r => { r with fallback := bump 16 r.fallback 1 }).sweepFwds.startForward f.buf false f.data).2
      else s.sweepFwds
    else (s.modFwd id fun f => { f with resend := true }).flushSettles

/-- PACK. -/
def execPack (p : PeerHdr) (s : State) : Res :=
  .next (s.onPeer p 2 fun s =>
    match s.port.packets.find? fun k => k.port = p.port ∧ k.tag = p.tag ∧ k.out = true with
    | none => s.badMsg
    | some k =>
      match p.status with
      | 0 => (s.packetOk k).pump p.port
      | 2 => s.modPacket p.port p.tag fun x => { x with again := true, hold := false }
      | 3 =>
        let s := match (if k.digest then none else s.fwd k.fwdid) with
          | some f => s.modFwdLd f.ld fun l => { l with stale := bump 16 l.stale 1 }
          | none => s
        if (s.window k.port k.window).gen = k.gen then s.modPacket p.port p.tag fun x => { x with hold := true, again := false } else s.resend k
      | 1 | 4 | 5 =>
        if k.digest then (s.packetOk k).pump p.port else (s.failForward k.fwdid p.status).pump p.port
      | 6 => if k.digest then s.badMsg else (s.provFull k.fwdid).pump p.port
      | _ => s.badMsg)

/-! ### Settling messages (R292, R294, R327) -/

def State.provOf (s : State) (node fwdid : Nat) : Option Prov := s.result.provs.find? fun x => x.node = node ∧ x.fwdid = fwdid

/-- Slots whose operation recorded an entry as an input. -/
def State.dependants (s : State) (node fwdid : Nat) : List Nat :=
  (s.gate.slots.cells.filter fun c => match c.2.op with | some o => o.inputs.contains (node, fwdid) | none => false).map Prod.fst

def State.dropProv (s : State) (node fwdid : Nat) : State :=
  s.modResult fun r => { r with provs := r.provs.filter fun x => ¬ (x.node = node ∧ x.fwdid = fwdid) }

/-- The 64 bytes of a retraction event: the fields of Table 12.3. -/
def settleBytes (kind cause node : Nat) (m : Settle) : Bytes :=
  layout 64 [⟨0, 1, kind⟩, ⟨1, 1, cause⟩, ⟨2, 2, node⟩, ⟨4, 1, m.ld + 16 * m.wheel⟩, ⟨5, 1, b2n m.nowheel⟩, ⟨6, 2, m.layer⟩,
    ⟨8, 6, m.turn⟩, ⟨14, 2, m.seq⟩, ⟨16, 2, m.gbuf⟩, ⟨18, 2, m.opcode⟩, ⟨20, 4, m.fwdid⟩, ⟨24, 8, m.dest⟩, ⟨32, 2, m.lines⟩]

/-- Poison the blocks of an entry; merge-buffer entries of them are discarded (R294). -/
def State.retractBlock (s : State) (blk : Nat) : State :=
  let s := s.modStore fun st => { st with merges := st.merges.filter fun m => m.blk ≠ blk
                                          mirrors := st.mirrors.filter fun m => m.blk ≠ blk }
  let s := (s.dropT0 blk).poisonBlock blk
  { s with mbox := { s.mbox with retracted := if s.mbox.retracted.contains blk then s.mbox.retracted else blk :: s.mbox.retracted } }

/-- An operation whose input was retracted fails with code 11; its early forward is retracted with CASCADE (R292). -/
def State.cascade (s : State) (b : Nat) : State :=
  let early := match (s.slot b).op with
    | some o => (match o.fwdid with | some id => (match s.fwd id with | some f => !f.settled | none => false) | none => false)
    | none => false
  let s := if early then s.modResult fun r => { r with cascade := bump 32 r.cascade 1 } else s
  (s.stopPieces b).finish b .failed 11 0 [] false

/-- Retract a provisional entry (R294). CAUSE 4 is TIMEOUT. -/
def State.retract (s : State) (e : Prov) (cause : Nat) (m : Settle) : State :=
  let deps := s.dependants e.node e.fwdid
  let s := e.blocks.foldl State.retractBlock s
  let s := deps.foldl State.cascade s
  let s := (s.dropProv e.node e.fwdid).modRiLd e.ld fun l =>
    if cause = 4 then { l with timeout := bump 16 l.timeout 1 } else { l with rretracted := bump 16 l.rretracted 1 }
  let ev : Event := { Event.of 14 e.ld 1 [⟨64, 64, leNat (settleBytes 2 cause e.node m)⟩] with
    turn := m.turn, layer := m.layer, wheel := m.wheel, nopos := m.nowheel }
  s.ledger (LedgerRec.of 6 0 0 e.ld (retractDetail e.node e.fwdid cause)) [⟨e.ld, 2, ev⟩]

/-- PSETTLE_CONFIRM: the entry is deleted, and operations that waited for it may be released. -/
def execPsettleConfirm (p : PeerHdr) (m : Settle) (s : State) : Res :=
  .next (s.onPeer p 3 fun s =>
    match s.provOf m.node m.fwdid with
    | none => s
    | some _ =>
      let deps := s.dependants m.node m.fwdid
      deps.foldl State.tryRelease (s.dropProv m.node m.fwdid))

/-- PSETTLE_RETRACT. A reserved cause is handled as CHECK. -/
def execPsettleRetract (p : PeerHdr) (m : Settle) (s : State) : Res :=
  .next (s.onPeer p 3 fun s =>
    match s.provOf m.node m.fwdid with
    | none => s
    | some e => s.retract e (if 1 ≤ m.cause ∧ m.cause ≤ 3 then m.cause else 1) m)

/-- PSETTLE_EXTEND: the entry's timer starts again. -/
def execPsettleExtend (p : PeerHdr) (m : Settle) (s : State) : Res :=
  .next (s.onPeer p 3 fun s => s.modResult fun r => { r with provs := r.provs.map fun x =>
    if x.node = m.node ∧ x.fwdid = m.fwdid then { x with since := s.now } else x })

/-- PSETTLE_KIND_ZERO: dropped and counted. -/
def execPsettleKindZero (p : PeerHdr) (_m : Settle) (s : State) : Res := .next (s.onPeer p 3 State.badMsg)

/-- PROVISIONAL_TIMEOUT: 1 ms without news of an entry. -/
def execProvisionalTimeout (t node fwdid : Nat) (s : State) : Res :=
  let s := s.at_ t
  match s.provOf node fwdid with
  | none => .next s
  | some e =>
    if s.up ∧ e.since + ms ≤ s.now then
      .next (s.retract e 4 { cause := 4, node := node, ld := e.srcLd, wheel := 0, nowheel := true, layer := 0, turn := 0, seq := 0,
                             gbuf := 0, opcode := 0, fwdid := fwdid, dest := e.dest, lines := e.lines })
    else .next s

/-- FORWARD_EXTEND_TIMER: an EXTEND every 500 µs from the start of an unsettled early forward. -/
def execForwardExtendTimer (t fwdid : Nat) (s : State) : Res :=
  let s := s.at_ t
  match s.fwd fwdid with
  | some f =>
    if f.early ∧ f.settled = false ∧ f.extended + 500 * us ≤ s.now then
      .next ((s.modFwd fwdid fun x => { x with extended := x.extended + 500 * us }).putSettle f 3 0)
    else .next s
  | none => .next s

/-! ### Digests, node identity, bad messages -/

/-- PDIGEST (R298): checked as a PWR, answered, and compared with the LD's latest completed digest of the same KEY. DEDUCED, log entry 57. -/
def execPdigest (p : PeerHdr) (key : Nat) (digest : BitVec 256) (_turn : Nat) (changed : Bool) (s : State) : Res :=
  .next (s.onPeer p 4 fun s =>
    let r := s.inbound p
    let s := s.answerPeer p r.1
    if r.1 ≠ 0 then s
    else match s.result.ranges.find? fun x => x.ld = r.2.ld ∧ x.key = key ∧ x.done = true with
      | none => s
      | some x =>
        if changed ∨ x.changed ∨ x.latest = digest then s
        else
          let ev := Event.of 16 x.ld 1 [⟨64, 1, x.id⟩, ⟨72, 8, key⟩, ⟨80, 2, p.srcNode⟩]
          let s := s.modRiLd x.ld fun l => { l with dmismatch := bump 16 l.dmismatch 1 }
          s.ledger (LedgerRec.of 9 0 0 x.ld (key % 2 ^ 64 + p.srcNode * 2 ^ 64)) [⟨x.ld, 2, ev⟩, ⟨fmSrc, 2, ev⟩])

/-- PNODE: the partner's node identifier. -/
def execPnode (p : PeerHdr) (node : Nat) (s : State) : Res :=
  .next (s.onPeer p 5 fun s => s.modPort p.port fun q => { q with partnerNode := node })

/-- PEER_BAD_MESSAGE (R322): dropped and counted. -/
def execPeerBadMessage (p : PeerHdr) (s : State) : Res :=
  .next (if (p.port = 4 ∨ p.port = 5) ∧ s.carries p.port ∧ peerBad p then s.badMsg else s)

/-! ### Timers of a sender (R326) -/

/-- PWR_PENDING_RESEND: a packet answered PENDING is sent again, 1 µs after it was last sent. -/
def execPwrPendingResend (t port tag : Nat) (s : State) : Res :=
  let s := s.at_ t
  match s.port.packets.find? fun k => k.port = port ∧ k.tag = tag ∧ k.again = true with
  | some k => if s.carries port ∧ k.sentAt + us ≤ s.now then .next (s.resend k) else .next s
  | none => .next s

/-- FORWARD_TIMEOUT: a packet without OK 1 ms after its first transmission fails its forward. A digest exchange is
dropped. The status reported of a packet that was never answered is left open. DESIGN CHOICE, log entry 34. -/
def execForwardTimeout (t fwdid : Nat) (s : State) : Res :=
  let s := s.at_ t
  match s.port.packets.find? fun k => k.fwdid = fwdid ∧ k.first + ms ≤ s.now with
  | none => .next s
  | some k =>
    if k.digest then .next ((s.packetOk k).pump k.port)
    else
      let v := s.free
      let st := if k.hold then (3, s) else if k.again then (2, s) else (v.1 % 256, v.2)
      .next ((st.2.failForward fwdid st.1).pump k.port)

/-- PEER_GRACE_END: the previous copy of an inbound window is discarded. -/
def execPeerGraceEnd (t port window : Nat) (s : State) : Res :=
  let s := s.at_ t
  let w := s.window port window
  if w.prev.isSome ∧ w.graceEnd ≤ s.now then .next (s.setWindow port window { w with prev := none }) else .next s

/-! ### Commands (Table 13.10) -/

/-- SET_NODE_IDENTIFIER (C0F0h): kept in the boot flash; each live peer partner is told (Table 13.6). DEDUCED, log entry 63. -/
def execSetNodeIdentifier (h : MbHdr) (node : Nat) (s : State) : Res :=
  .next (s.mbRun h { opcode := 0xC0F0, ld := false, fm := .module, len := [10] } fun s =>
    if node = 0 ∨ 65535 < node then .error .invalidInput
    else
      let s := s.modPorts fun q => { q with node := node }
      .ok { s := [4, 5].foldl (fun s port =>
        if s.carries port then s.sendPeer port 5 (peerHdr 5 false false 0 0 0 node 0 0 0 0 0) [] else s) s })

/-- SET_PEER_WINDOW (C0F1h): the shadow copy alone. DEDUCED, log entry 63. -/
def execSetPeerWindow (h : MbHdr) (port window : Nat) (w : PeerWin) (s : State) : Res :=
  .next (s.mbRun h { opcode := 0xC0F1, ld := false, fm := .module, len := [32] } fun s =>
    let old := s.window port window
    if (port ≠ 4 ∧ port ≠ 5) ∨ 63 < window ∨ w.len % 65536 ≠ 0 ∨ w.len = 0 ∨ 64 * MiB * MiB < w.len ∨ 1 < w.dir ∨ 15 < w.ld
        ∨ (old.act.enable = true ∧ w.dir ≠ old.act.dir) then .error .invalidInput
    else
      let d : WinDesc := { dir := w.dir, ld := w.ld, node := w.node, enable := w.enable, base := w.base, len := w.len }
      .ok { s := s.setWindow port window { old with shadow := d } })

/-- COMMIT_PEER_WINDOW (C0F2h): the shadow becomes active and GEN advances. An inbound window keeps its previous copy for
the grace interval; an outbound one sends what waited for the commit (R324, R326, R328). DEDUCED, log entry 63. -/
def execCommitPeerWindow (h : MbHdr) (port window : Nat) (s : State) : Res :=
  .next (s.mbRun h { opcode := 0xC0F2, ld := false, fm := .module, len := [10] } fun s =>
    if (port ≠ 4 ∧ port ≠ 5) ∨ 63 < window then .error .invalidInput
    else
      let w := s.window port window
      let w' : Window := {
        act := w.shadow
        shadow := w.shadow
        gen := (w.gen + 1) % 256
        prev := if w.act.dir = 1 ∧ w.act.enable = true ∧ w.shadow.dir = 1 then some w.act else none
        graceEnd := s.now + (s.portAt port).grace * us }
      let s := s.setWindow port window w'
      let moved := w.shadow.ld != w.act.ld || w.shadow.dir != 0
      let s := if moved then (s.unbind fun x => x.port == port && x.window == window).modResult fun r =>
          { r with ranges := r.ranges.map fun x => if x.peer = some (port, window) then { x with peer := none } else x } else s
      let s := (s.port.packets.filter fun k => k.port == port && k.window == window && k.hold).foldl State.resend s
      .ok { s := s.pump port })

/-- A descriptor as Get Peer Window returns it, from byte `o`. -/
def WinDesc.fields (d : WinDesc) (o port window gen : Nat) : List Fld :=
  [⟨o, 1, port⟩, ⟨o + 1, 1, window⟩, ⟨o + 2, 1, d.dir⟩, ⟨o + 3, 1, d.ld⟩, ⟨o + 4, 2, d.node⟩, ⟨o + 6, 1, b2n d.enable⟩,
   ⟨o + 7, 1, gen⟩, ⟨o + 8, 8, d.base⟩, ⟨o + 16, 8, d.len⟩]

/-- GET_PEER_WINDOW (C0F3h). DEDUCED, log entry 63. -/
def execGetPeerWindow (h : MbHdr) (port window : Nat) (s : State) : Res :=
  .next (s.mbRun h { opcode := 0xC0F3, ld := true, fm := .module, len := [10] } fun s =>
    let w := s.window port window
    if (port ≠ 4 ∧ port ≠ 5) ∨ 63 < window ∨ (h.src < 16 ∧ (w.act.ld ≠ h.src ∨ (w.act.len = 0 ∧ w.act.enable = false))) then
      .error .invalidInput
    else .ok { s := s, fields := w.act.fields 0 port window w.gen ++ w.shadow.fields 32 port window w.gen
      ++ [⟨64, 4, if w.prev.isSome then (w.graceEnd - s.now) / us else 0⟩] })

/-- BIND_SLOT_FORWARD (C0F4h): an armed slot of the LD to an outbound window of the LD; its 512 result lines must lie within
the window (R328). -/
def execBindSlotForward (h : MbHdr) (dpa port window offset : Nat) (s : State) : Res :=
  .next (s.mbRun h { opcode := 0xC0F4, ld := true, fm := .no, len := [32] } fun s =>
    match (if dpa % 65536 = 0 then s.bufAt h.src dpa else none) with
    | none => .error .invalidInput
    | some b =>
      let w := (s.window port window).act
      if (port ≠ 4 ∧ port ≠ 5) ∨ 63 < window ∨ w.dir ≠ 0 ∨ w.ld ≠ h.src ∨ offset % 64 ≠ 0 ∨ w.len < offset + 64 * 512 then
        .error .invalidInput
      else
        let s := s.unbind fun x => x.buf == b
        .ok { s := s.modPorts fun q => { q with binds := q.binds ++ [{ buf := b, port := port, window := window, offset := offset }] } })

/-- UNBIND_SLOT_FORWARD (C0F5h): Busy while an early forward of the slot is unsettled. DEDUCED, log entry 63. -/
def execUnbindSlotForward (h : MbHdr) (dpa : Nat) (s : State) : Res :=
  .next (s.mbRun h { opcode := 0xC0F5, ld := true, fm := .no, len := [16] } fun s =>
    match (if dpa % 65536 = 0 then s.bufAt h.src dpa else none) with
    | none => .error .invalidInput
    | some b =>
      if s.port.fwds.any fun f => f.buf == b && f.early && !f.settled then .error .busy
      else .ok { s := s.unbind fun x => x.buf == b })

/-! ### Registers -/

def FwdLd.word (l : FwdLd) : Nat := l.sent + l.failed * 2 ^ 32 + l.stale * 2 ^ 48
def State.peerErrWord (s : State) : Nat := s.port.badmsg + s.port.stale * 2 ^ 16 + s.port.pending * 2 ^ 32 + s.port.prevgen * 2 ^ 48
def State.nodeWord (s : State) : Nat := s.port.node + (s.portAt 4).partnerNode * 2 ^ 16 + (s.portAt 5).partnerNode * 2 ^ 32

end Sys2Proof.Machine
end

