-- ==== Sys2Proof/Machine/Endpoint.lean ====
section
/-! DEFINITION. The CXL endpoint (chapter 14) apart from CXL.mem requests: decoder commits, resets, link errors, device
reads, IDE, CDAT, SPDM, power management. Kinds of CXL.io output: 1 to 3 error messages, 4 Unsupported Request, 5 CDAT,
6 measurements, 7 session made, 8 SPDM error (field 0: 1 Busy, 2 InvalidRequest), 9 IDE_KM answer, 10 GPF. -/
namespace Sys2Proof.Machine

/-- A request of CXL.io reaches an LD's function: the link carries requests, and the LD is presented and in D0. -/
def State.ioOk (s : State) (ld : Nat) : Bool := (s.phase == .running || s.phase == .booting) && s.ldOn ld && !(s.cxe.lds.get ld).d3

/-! ### HDM decoders (R336, R337) -/

def waysOk (n : Nat) : Bool := [1, 2, 3, 4, 6, 8, 12, 16].contains n
def granOk (n : Nat) : Bool := [256, 512, 1024, 2048, 4096, 8192, 16384].contains n

/-- HDM_DECODER_COMMIT: the decoder is committed, or Error Not Committed is set. -/
def execHdmDecoderCommit (ld k : Nat) (d : HdmSetup) (s : State) : Res :=
  if ¬ s.ioOk ld ∨ 16 ≤ ld ∨ 8 ≤ k then .next s
  else
    let v : Hdm := { base := d.base, size := d.hpaSize, ways := d.ways, gran := d.gran, target := d.target, skip := d.skip, bi := d.bi }
    let put := fun (v : Hdm) => s.modCxe fun c => { c with hdm := c.hdm.set (8 * ld + k) v }
    let s' := put v
    let ok := waysOk d.ways && granOk d.gran
      && d.hpaSize % (granule * d.ways) == 0
      && ((List.range k).all fun i => (s.hdmAt ld i).committed)
      && decide (s'.dbase ld k + v.dpaSize ≤ (s.ext.parts.get ld).dpaSize * granule)
      && (!d.bi || (s.cxe.lds.get ld).biEnable)
    .next (if ok then put { v with committed := true } else put { v with error := true })

/-! ### Resets (R348, R349) -/

/-- HOT_RESET of a host port. -/
def execHotReset (t port : Nat) (s : State) : Res :=
  let s := s.at_ t
  if s.lit ∧ port < 4 then .next (s.portReset port 1) else .next s

/-- LINK_DOWN of a host port. -/
def execLinkDown (t port : Nat) (s : State) : Res :=
  let s := s.at_ t
  if s.lit ∧ port < 4 then .next (s.portReset port 2) else .next s

/-- LD_ID_HOT_RESET: each LD named alone, with no retraining. DEDUCED, log entry 64. -/
def execLdIdHotReset (t : Nat) (vector : BitVec 16) (s : State) : Res :=
  let s := s.at_ t
  if s.ioOk fmSrc then .next ((allLds.filter fun ld => vector.getLsbD ld && s.ldOn ld).foldl (fun s ld => s.ldReset ld 3) s) else .next s

/-- CXL_RESET of one LD, with Mem Clear or without. -/
def execCxlReset (t ld : Nat) (memClear : Bool) (s : State) : Res :=
  let s := s.at_ t
  if s.ioOk ld ∧ ld < 16 then .next (s.ldReset ld (if memClear then 5 else 4)) else .next s

/-- The completion timeout in ns (R333). -/
def CxeLd.timeout (l : CxeLd) : Nat := match l.cto with | 6 => 200 * ms | 9 => 900 * ms | 10 => 3500 * ms | _ => 50 * ms

/-- FLR (R351). That of the FM-owned LD aborts its mailbox command and changes nothing else (R348). -/
def execFlr (t ld : Nat) (s : State) : Res :=
  let s := s.at_ t
  if ¬ s.ldOn ld ∨ ¬ s.lit then .next s
  else if ld = fmSrc then .next (s.stopJob fmSrc)
  else if 16 ≤ ld then .next s
  else .next ((s.ldReset ld 6).modCxeLd ld fun l => { l with flrUntil := s.now + min l.timeout (90 * ms) })

/-! ### Link and request errors (R329, R346, R347, R310) -/

/-- CXL_RSVD_ENCODING: a CXL.cache message or a reserved encoding is dropped and logged. -/
def execCxlRsvdEncoding (port : Nat) (flit : Bytes) (s : State) : Res :=
  if s.lit ∧ port < 4 then .next (s.onPort port fun s ld => s.rasUnc ld 9 flit) else .next s

/-- CXL_IO_POISONED_WRITE: dropped and logged. -/
def execCxlIoPoisonedWrite (ld : Nat) (header : Bytes) (s : State) : Res :=
  if s.ioOk ld then .next (s.aerUnc ld 12 header) else .next s

/-- FLIT_CRC_FAILURE: the flit is replayed by the link layer and logged in each enabled LD of a host port. -/
def execFlitCrcFailure (port : Nat) (e : FlitErr) (header : Bytes) (s : State) : Res :=
  if ¬ s.lit ∨ 6 ≤ port then .next s
  else if 4 ≤ port then .next (s.takeWords port e.words)
  else
    let s := s.takeWords port e.words
    let s := s.onPort port fun s ld => s.aerCor ld 0
    let s := if e.uncorrectable then s.onPort port fun s ld => s.rasCor ld 6 header else s
    let s := if e.rollover then s.onPort port fun s ld => s.aerCor ld 8 else s
    let s := if e.crcThreshold then s.onPort port fun s ld => s.rasCor ld 2 header else s
    .next (if e.retryThreshold then s.onPort port fun s ld => s.rasCor ld 3 header else s)

/-! ### Bus Master Enable and device reads (R350, R351) -/

/-- BUS_MASTER_DISABLE: completions of reads already issued are discarded, and the command that needed them ends. DEDUCED, log entry 65. -/
def execBusMasterDisable (ld : Nat) (s : State) : Res :=
  if ¬ s.ioOk ld then .next s
  else
    let live := s.cxe.dmas.any fun d => d.ld == ld && !d.drop
    let s := s.modCxe fun c => { c with
      bme := c.bme.set ld false
      dmas := c.dmas.map fun d => if d.ld = ld then { d with drop := true } else d }
    .next (if live then s.endJob ld .busMasterDisabled 0 else s)

/-- BUS_MASTER_ENABLE: the interrupts recorded in the pending bits are sent. -/
def execBusMasterEnable (ld : Nat) (s : State) : Res :=
  if ¬ s.ioOk ld then .next s
  else
    let p := s.cxe.msix.get ld
    let s := s.modCxe fun c => { c with bme := c.bme.set ld true, msix := c.msix.set ld 0 }
    .next (((List.range 6).filter fun v => bitOf p v).foldl (fun s v => s.send (.msix ld v)) s)

/-- DMA_COMPLETION: used, discarded, late, or unexpected. DEDUCED, log entry 65. -/
def execDmaCompletion (t ld tag : Nat) (_data : Bytes) (s : State) : Res :=
  let s := s.at_ t
  if ¬ s.up ∨ ¬ s.ldOn ld then .next s
  else match s.cxe.dmas.find? fun d => d.ld = ld ∧ d.tag = tag with
    | none => .next (s.aerUnc ld 16 [])
    | some d =>
      let s := s.modCxe fun c => { c with dmas := c.dmas.filter fun x => ¬ (x.ld = ld ∧ x.tag = tag) }
      let u := (s.cxe.lds.get ld).flrUntil
      if ¬ d.drop then .next s
      else if u ≠ 0 ∧ u < s.now then .next (s.modCxeLd ld fun l => { l with dmaLate := bump 16 l.dmaLate 1 })
      else .next (s.modCxeLd ld fun l => { l with dmaDiscard := bump 16 l.dmaDiscard 1 })

/-- DMA_COMPLETION_TIMEOUT: logged, counted, and its command ends with Internal Error (R351). DEDUCED, log entry 65. -/
def execDmaCompletionTimeout (t ld tag : Nat) (s : State) : Res :=
  let s := s.at_ t
  match s.cxe.dmas.find? fun d => d.ld = ld ∧ d.tag = tag ∧ d.drop = false with
  | none => .next s
  | some d =>
    if d.start + (s.cxe.lds.get ld).timeout ≤ s.now then
      let s := s.modCxe fun c => { c with dmas := c.dmas.filter fun x => ¬ (x.ld = ld ∧ x.tag = tag) }
      let s := s.modCxeLd ld fun l => { l with dmaTimeout := bump 16 l.dmaTimeout 1 }
      .next ((s.aerUnc ld 14 []).endJob ld .internalError 0)
    else .next s

/-! ### IDE (R352) -/

/-- The IDE-managing LD of a port: its lowest-numbered enabled LD. -/
def State.ideLd (s : State) (port : Nat) : Option Nat := (portLds port).find? s.ldOn

/-- IDE_INTEGRITY_FAIL: logged and counted; the port goes down and retrains from DETECT. -/
def execIdeIntegrityFail (t port : Nat) (s : State) : Res :=
  let s := s.at_ t
  if ¬ s.up ∨ 4 ≤ port ∨ (s.cxe.ports.get port).ide ≠ 2 then .next s
  else
    let s := s.onPort port fun s ld => s.rasUnc ld 16 []
    let s := s.modCxe fun c => { c with ports := c.ports.upd port fun p => { p with ideFail := bump 16 p.ideFail 1 } }
    let s := s.portReset port 2
    .next (s.modCxe fun c => { c with ports := c.ports.upd port fun p => { p with ide := 3 } })

/-- Keys are programmed, or those last programmed (else `ks`) become active: a stream that is secure stays so while new keys are
programmed (key refresh). -/
def CxePort.takeKeys (p : CxePort) (ks : List (BitVec 256)) (activate : Bool) : CxePort :=
  if activate then { p with ide := 2, keys := if p.fresh.isEmpty then ks else p.fresh, fresh := [] }
  else { p with ide := if p.ide = 2 then 2 else 1, fresh := ks }

/-- IDE_KEY_PROGRAM: keys set, and made active, in a secured session of the IDE-managing LD. The host's key bits are free values.
DESIGN CHOICE, log entry 16. -/
def execIdeKeyProgram (ld session : Nat) (activate : Bool) (s : State) : Res :=
  if ¬ s.ioOk ld ∨ s.ideLd (ldPort ld) ≠ some ld ∨ ¬ s.cxe.sessions.any (fun x => x.ld == ld && x.id == session) then .next s
  else
    let ks := (List.range 4).map (Config.ideKey s.freeCtr)
    let s := { s with freeCtr := s.freeCtr + 1 }
    let s := s.modCxe fun c => { c with ports := c.ports.upd (ldPort ld) fun p => p.takeKeys ks activate }
    .next (s.send (.cxlIo ld 9 [⟨0, 1, b2n activate⟩] []))

/-! ### CDAT (R353) -/

/-- CDAT_TABLE_ACCESS: the sequence number, the latencies in ns and the bandwidth in GB/s of the DSLBIS entry, and a record
for each region that has a profile: handle, flags (0 non-volatile, 1 shareable), DPA base and length, in granules. DESIGN CHOICE, log entry 16. -/
def execCdatTableAccess (ld : Nat) (s : State) : Res :=
  if ¬ s.ioOk ld ∨ 16 ≤ ld then .next s
  else
    let width := (s.portAt (ldPort ld)).group.length
    let regs := (s.ext.parts.get ld).regions.zipIdx.filterMap fun p => (s.regionProfile ld p.2).map fun w => (p.2, p.1, w)
    let one := fun (r : Nat × (Nat × Nat) × Word) =>
      layout 16 [⟨0, 1, r.1⟩, ⟨1, 1, b2n (Prof.durable r.2.2) + 2 * b2n (Prof.shared r.2.2)⟩, ⟨8, 4, r.2.1.1⟩, ⟨12, 4, r.2.1.2⟩]
    .next (s.send (.cxlIo ld 5 [⟨0, 4, s.cxe.cdatSeq.get ld⟩, ⟨4, 2, 340⟩, ⟨6, 2, 380⟩, ⟨8, 2, 50 * width⟩] (regs.flatMap one)))

/-! ### SPDM (R383 to R385) -/

def State.fwver (s : State) : Nat := (s.slotOf s.boot.running).fwver

/-- Bits 4 to 1 of MLR_LDSTAT: KEYED, MAPOK, FWAUTH, DEBUGCLOSED. -/
def State.isolBits (s : State) (ld : Nat) : Nat :=
  b2n (s.ext.keys.get ld).isSome + 2 * b2n s.ext.mapOk + 4 * b2n (!s.boot.recovery) + 8 * b2n (!s.boot.debugOpen)

/-- ISOLATED: those bits are 1 for every LD of the party. -/
def State.isolated (s : State) (ld : Nat) : Bool := (s.partyLds (s.party ld)).all fun x => s.isolBits x == 15

/-- Bits 12 to 0 of MLR_LDSTAT. -/
def State.ldStat (s : State) (ld : Nat) : Nat :=
  b2n (s.ext.parts.get ld).enabled + 2 * s.isolBits ld + 32 * b2n (s.isolated ld) + 256 * (s.ext.parts.get ld).group

/-- A map entry (Table 16.5). -/
def PartLd.entry (p : PartLd) : Bytes :=
  layout 160 ([⟨0, 1, b2n p.enabled + 2 * p.group⟩, ⟨4, 4, p.dpaSize⟩, ⟨8, 4, p.sliceBase⟩, ⟨12, 4, p.quota⟩]
    ++ p.regions.zipIdx.flatMap fun r => [⟨16 + 4 * r.2, 4, r.1.1⟩, ⟨48 + 4 * r.2, 4, r.1.2⟩])

def State.mapBytes (s : State) : Bytes := allLds.flatMap fun ld => (s.ext.parts.get ld).entry

/-- The header and body digest of a slot's image. -/
def FwSlot.digest (f : FwSlot) : BitVec 256 := if f.factory then Config.factoryDigest else Config.sha256 (f.image.take (128 + leAt f.image 16 4))

def dig (d : BitVec 256) : Bytes := leBytes 32 d.toNat

/-- Byte strings in ascending order. -/
def insertKey (x : Bytes) : List Bytes → List Bytes
  | [] => [x]
  | y :: ys => if leNat x.reverse ≤ leNat y.reverse then x :: y :: ys else y :: insertKey x ys

/-- SEQNO of the last DEBUG_OPEN record, or zero. -/
def State.debugSeq (s : State) : Nat := (s.result.ledger.foldl (fun a r => if r.kind = 16 then r.seqno else a) 0)

/-- A measurement block (Table 16.8). -/
def State.measurement (s : State) (ld index : Nat) : Bytes :=
  let run := s.slotOf s.boot.running
  match index with
  | 1 => dig Config.romDigest
  | 2 => dig run.digest ++ leBytes 4 run.fwver
  | 3 => leBytes 1 run.svn ++ leBytes 1 s.boot.fusemin
  | 4 => dig (Config.sha256 (s.mapBytes ++ leBytes 1 s.boot.fmport)) ++ leBytes 8 s.ext.mapSerial
  | 5 => leBytes 4 s.result.pkgSeq ++ dig (Config.sha256 s.result.pkg)
  | 6 => layout 16 [⟨0, 1, b2n s.boot.debugOpen⟩, ⟨1, 1, s.boot.scope⟩, ⟨8, 8, s.debugSeq⟩]
  | 7 =>
    let ks := ((s.stone.keys.filter fun k => k.party = s.party ld).map DressKey.keyId).foldr insertKey []
    leBytes 2 (s.ldStat ld) ++ dig (Config.sha256 ks.flatten)
  | _ =>
    let ds := ((List.range 1024).filterMap fun h => (s.dressing h).map fun d => (h, d)).filter fun p => p.2.party = s.party ld
    dig (Config.sha256 (ds.flatMap fun p => leBytes 2 p.1 ++ dig (Config.sha256 (p.2.container.take (256 + hdrCode p.2.container)))))

/-- SPDM_GET_MEASUREMENTS: index 0 reports 8; above 8, InvalidRequest. DESIGN CHOICE, log entry 16. -/
def execSpdmGetMeasurements (ld index : Nat) (signed : Bool) (s : State) : Res :=
  if ¬ s.ioOk ld ∨ 16 ≤ ld then .next s
  else if 8 < index then .next (s.send (.cxlIo ld 8 [⟨0, 1, 2⟩] []))
  else if index = 0 then .next (s.send (.cxlIo ld 6 [⟨0, 1, 0⟩, ⟨1, 1, 8⟩] []))
  else
    let m := s.measurement ld index
    .next (s.send (.cxlIo ld 6 [⟨0, 1, index⟩, ⟨1, 1, b2n signed⟩] (m ++ if signed then Config.identitySign m else [])))

/-- SPDM_KEY_EXCHANGE: two sessions an LD; a third fails with Busy. DESIGN CHOICE, log entry 16. -/
def execSpdmKeyExchange (ld : Nat) (s : State) : Res :=
  if ¬ s.ioOk ld ∨ 16 ≤ ld then .next s
  else
    let mine := s.cxe.sessions.filter fun x => x.ld = ld
    if 2 ≤ mine.length then .next (s.send (.cxlIo ld 8 [⟨0, 1, 1⟩] []))
    else
      let id := (lowestFree (mine.map Session.id) 2).getD 0
      let key := Config.sessionKey s.freeCtr
      let s := { s with freeCtr := s.freeCtr + 1 }
      let s := s.modCxe fun c => { c with sessions := c.sessions ++ [{ ld := ld, id := id, key := key }] }
      .next (s.send (.cxlIo ld 7 [⟨0, 2, id⟩] []))

/-- SPDM_END_SESSION: END_SESSION or a heartbeat expiry. -/
def execSpdmEndSession (ld session : Nat) (s : State) : Res :=
  .next (s.modCxe fun c => { c with sessions := c.sessions.filter fun x => ¬ (x.ld = ld ∧ x.id = session) })

/-! ### Power management -/

/-- D3HOT_ENTRY: D3hot stops CXL.io requests and leaves CXL.mem served (Table 14.2). -/
def execD3hotEntry (ld : Nat) (toD3 : Bool) (s : State) : Res :=
  if (s.phase = .running ∨ s.phase = .booting) ∧ s.ldOn ld then .next (s.modCxeLd ld fun l => { l with d3 := toD3 }) else .next s

/-! ### Registers -/

def CxeLd.biWord (l : CxeLd) : Nat := l.snoops + l.biTimeout * 2 ^ 32 + l.lostBlk * 2 ^ 48
def State.dmaWord (s : State) (ld : Nat) : Nat :=
  let l := s.cxe.lds.get ld
  (s.cxe.dmas.filter fun d => d.ld = ld).length + l.dmaTimeout * 2 ^ 16 + l.dmaDiscard * 2 ^ 32 + l.dmaLate * 2 ^ 48
def CxeLd.resetWord (l : CxeLd) : Nat := l.lastReset + l.flrs * 2 ^ 8 + l.hots * 2 ^ 24 + l.cxls * 2 ^ 40
def State.cxePortWord (s : State) (p : Nat) : Nat :=
  let c := s.cxe.ports.get p
  c.badLdid + c.ideFail * 2 ^ 32 + c.ide * 2 ^ 48 + 2 ^ 50 * b2n (s.boot.fmport == p)
def State.snoopWord (s : State) : Nat := s.cxe.snoop.length + s.cxe.evict * 2 ^ 32

end Sys2Proof.Machine
end

