-- ==== Sys2Proof/Machine/Module.lean ====
section
/-! DEFINITION. Vendor commands about the module, the partition map, keys, region profiles and extent descriptors (Table 15.4,
C000h to C022h), and the checks of a partition request (R377 to R381). -/
namespace Sys2Proof.Machine

/-! ### Module status -/

/-- MLR_MODULE.STATE: 0 READY, 1 DEGRADED, 2 MOUNTING. -/
def State.moduleState (s : State) : Nat := if s.phase = .running then b2n s.unitDown else 2

/-- Stones neither OFFLINE nor FAILED. -/
def State.stonesUp (s : State) : Nat :=
  (allStones.filter fun k => (s.stoneAt k).state != .offline && !(s.stoneAt k).broken).length

/-- MLR_MODULE. -/
def State.moduleWord (s : State) : Nat :=
  s.moduleState + 4 * b2n s.boot.stagedReq.isSome + 8 * b2n s.boot.debugOpen + s.healthyStacks.length * 2 ^ 8
    + s.stonesUp * 2 ^ 16 + s.fwver * 2 ^ 32

/-- Byte ISOL of Get Module Status: MLR_LDSTAT [5:1] of an LD, or what the FM sees. -/
def State.isolByte (s : State) (src : Nat) : Nat :=
  if src < 16 then s.ldStat src / 2 % 32
  else
    let on := allLds.filter s.ldOn
    let all := fun (f : Nat → Bool) => b2n (!on.isEmpty && on.all f)
    all (fun ld => (s.ext.keys.get ld).isSome) + 2 * b2n s.ext.mapOk + 4 * b2n (!s.boot.recovery) + 8 * b2n (!s.boot.debugOpen)
      + 16 * all s.isolated

/-- GET_MODULE_STATUS (C000h). -/
def execGetModuleStatus (h : MbHdr) (s : State) : Res :=
  .next (s.mbRun h { opcode := 0xC000, ld := true, fm := .module } fun s =>
    .ok { s := s, fields := [⟨0, 1, s.moduleState⟩, ⟨1, 1, s.isolByte h.src⟩, ⟨4, 4, s.fwver⟩, ⟨8, 8, s.boot.serial⟩] })

/-- A number whose bits below `n` are given by a predicate. -/
def bitMap (n : Nat) (f : Nat → Bool) : Nat := (List.range n).foldl (fun a i => a + b2n (f i) * 2 ^ i) 0

/-- GET_UNIT_MAP (C001h). -/
def execGetUnitMap (h : MbHdr) (s : State) : Res :=
  .next (s.mbRun h { opcode := 0xC001, ld := false, fm := .module } fun s =>
    .ok { s := s, fields := [
      ⟨0, 24, bitMap 192 fun k => (s.stoneAt k).state != .online⟩,
      ⟨24, 2, bitMap 12 fun k => !s.stackOk k⟩,
      ⟨26, 1, bitMap 4 fun k => (s.unitRec 2 k).state == .failed⟩,
      ⟨32, 32, bitMap 256 fun k => s.deep.dieFailed.get k⟩,
      ⟨64, 6, bitMap 48 fun k => (s.port.lanes.get k).failed⟩] })

/-! ### Partition requests (R377 to R381) -/

/-- A map entry read back (Table 16.5). -/
def partOf (e : Bytes) : PartLd :=
  { enabled := bitOf (leAt e 0 1) 0, group := bitsOf (leAt e 0 1) 5 1, dpaSize := leAt e 4 4, sliceBase := leAt e 8 4,
    quota := leAt e 12 4, regions := (List.range 8).map fun r => (leAt e (16 + 4 * r) 4, leAt e (48 + 4 * r) 4) }

/-- Entry `i` of a partition request. -/
def reqEntry (img : Bytes) (i : Nat) : Bytes := (img.drop (640 + 160 * i)).take 160

def reqParts (img : Bytes) : List PartLd := allLds.map fun i => partOf (reqEntry img i)
def reqSerial (img : Bytes) : Nat := leAt img 8 8
def reqNewKey (img : Bytes) : Bool := bitOf (leAt img 6 1) 0
/-- The key block. -/
def reqKey (img : Bytes) : Bytes := (img.drop 128).take 512

/-- Are the reserved bytes of a request zero, and is its key block well formed (Tables 16.4, 16.5, 6.8)? -/
def reqFormOk (img : Bytes) : Bool :=
  let zeroAt := fun (off n : Nat) => leAt img off n == 0
  let exp := leAt img 128 4
  let entryOk := fun (i : Nat) =>
    let e := reqEntry img i
    decide (leAt e 0 1 < 64) && leAt e 1 3 == 0 && leAt e 80 80 == 0
  img.length == 3712 && leAt img 0 4 == 0x50520A16 && leAt img 4 2 == 1 && decide (leAt img 6 1 < 2) && decide (leAt img 7 1 < 4)
    && zeroAt 24 104 && zeroAt 132 12 && zeroAt 528 112
    && (if reqNewKey img then exp % 2 == 1 && decide (65537 ≤ exp) else zeroAt 128 512)
    && allLds.all entryOk && zeroAt 3204 4 && zeroAt 3240 24 && zeroAt 3648 64

/-- Does the signature verify with the authority key, or, while none is installed, with the key that the request carries
(R378)? -/
def State.reqSigned (s : State) (img : Bytes) : Bool :=
  let key := match s.boot.authKey with
    | some k => some k
    | none => if reqNewKey img then some (reqKey img) else none
  match key with
  | none => false
  | some k =>
    let id := (img.drop 3208).take 32
    leAt img 3200 4 == 1 && id == fit 32 (Config.keyId (leAt k 0 4) ((k.drop 16).take 384))
      && Config.rsaVerify id (img.take 3200) ((img.drop 3264).take 384)

/-- Do two of a list of (base, length) ranges overlap? -/
def anyMeet : List (Nat × Nat) → Bool
  | [] => false
  | a :: rest => rest.any (rangesMeet a) || anyMeet rest

def sumOf (xs : List Nat) : Nat := xs.foldl (· + ·) 0

/-- The check of R31 and R30 that a map fails first, 0 where it passes (Table 16.6, reasons 5 to 9). -/
def mapReason (ps : List PartLd) : Nat :=
  let slices := ps.map fun p => (p.sliceBase, p.dpaSize * 4096)
  let groupSize := fun (g : Nat) => (ps.filter fun p => p.group = g).length
  if ps.any (fun p => decide (262144 < p.dpaSize)) ∨ 1048576 < sumOf (ps.map PartLd.dpaSize) then 5
  else if ps.any (fun p => p.sliceBase % 4096 != 0) ∨ slices.any (fun r => decide (2 ^ 32 < r.1 + r.2)) ∨ anyMeet slices then 6
  else if ps.any (fun p => decide (53248 < p.quota)) ∨ 53248 < sumOf (ps.map PartLd.quota) then 7
  else if ps.any fun p => p.regions.any (fun r => decide (p.dpaSize < r.1 + r.2)) || anyMeet p.regions then 8
  else if ps.any fun p => decide (16 < p.group) || (p.group != 0 && groupSize p.group == 1) then 9
  else 0

/-- Does a new entry of an LD that owns or maps an extent conflict with live state (R380)? -/
def State.conflicts (s : State) (ld : Nat) (new : PartLd) : Bool :=
  let old := s.ext.parts.get ld
  let maps := s.ext.exts.filter fun e => e.ld = ld
  let owns := s.ext.exts.filter fun e => e.owner = ld ∧ ¬ e.isAlias
  if maps.isEmpty && owns.isEmpty then false
  else
    let bad := fun (e : Extent) =>
      let o := old.regions.getD e.region (0, 0)
      let n := new.regions.getD e.region (0, 0)
      decide (new.dpaSize * granule < e.base + e.len) || n.1 != o.1 || decide ((n.1 + n.2) * granule < e.base + e.len)
    !new.enabled || new.group != old.group || new.sliceBase != old.sliceBase || maps.any bad || decide (new.quota * GiB < s.reserved ld)

/-- The first failed check of Table 16.6, 0 where the request passes. DEDUCED, log entries 32, 67. -/
def State.partReason (s : State) (img : Bytes) : Nat :=
  if ¬ reqFormOk img then 1
  else if leAt img 16 8 ≠ s.boot.serial then 2
  else if reqSerial img ≤ s.ext.mapSerial then 3
  else if ¬ s.reqSigned img then 4
  else
    let r := mapReason (reqParts img)
    if r ≠ 0 then r
    else if allLds.any fun ld => s.conflicts ld ((reqParts img).getD ld {}) then 10
    else 0

/-- STAGE_PARTITION_REQUEST (C010h): a request in parts; its check runs in the background (R379). -/
def execStagePartitionRequest (h : MbHdr) (p : Part) (s : State) : Res :=
  .next (s.mbPartsBg h { opcode := 0xC010, ld := false, fm := .module } p
    (fun img => .stagePartitionRequest h { p with data := img }) fun _ s => .ok s)

/-- The end of the check: the request is staged, or discarded with the one in force kept (R379). DEDUCED, log entry 67. -/
def State.stageReq (s : State) (img : Bytes) : Rc × State :=
  let r := s.partReason img
  if r = 0 then (.success, s.modBoot fun b => { b with stagedReq := some img, stageState := 1, stageSerial := reqSerial img })
  else
    let kept := s.boot.stagedReq.isSome
    (.invalidInput, s.modBoot fun b => { b with
      reason := r, stageState := if kept then 1 else 2, stageSerial := if kept then b.stageSerial else reqSerial img })

/-- An LD's key is replaced or ends, apart from what R64 ends with it. -/
def State.setKey (s : State) (ld : Nat) (key : Option (BitVec 512)) : State :=
  { s with ext := { s.ext with keys := s.ext.keys.set ld key } }

/-- Apply a request that passed its checks (R381, R382): map, serial, FMPORT and authority key. An LD that it enables comes
with no key. DEDUCED, log entry 67. -/
def State.applyReq (s : State) (img : Bytes) : State :=
  let new := reqParts img
  let fresh := allLds.filter fun ld => (new.getD ld {}).enabled && !s.ldOn ld
  let s := fresh.foldl (fun s ld => (s.setKey ld none).endKey ld) s
  let s := s.modBoot fun b => { b with
    fmport := leAt img 7 1
    authKey := if reqNewKey img then some (reqKey img) else b.authKey }
  let parts := allLds.foldl (fun (t : Tbl PartLd) ld => t.set ld (new.getD ld {})) s.ext.parts
  { s with ext := { s.ext with parts := parts, mapOk := true, mapSerial := reqSerial img } }

/-- Step 7 of Table 16.2: a staged request is checked again, applied or refused, and deleted; a PARTITION record says which
(R381). -/
def State.applyStaged (s : State) : State :=
  match s.boot.stagedReq with
  | none => s
  | some img =>
    let r := s.partReason img
    let s := s.modBoot fun b => { b with stagedReq := none, stageState := if r = 0 then 0 else 2, reason := if r = 0 then b.reason else r }
    let s := if r = 0 then s.applyReq img else s
    s.ledger (LedgerRec.of 14 0 0 31 (r + reqSerial img * 2 ^ 64))

/-- GET_PARTITION_MAP (C011h): the map with FMPORT, or an LD's own entry. DEDUCED, log entry 66. -/
def execGetPartitionMap (h : MbHdr) (o : OutReq) (s : State) : Res :=
  .next (s.mbSnap h { opcode := 0xC011, ld := true, fm := .any, len := [16] } o 0 fun s =>
    .ok (if h.src < 16 then (s.ext.parts.get h.src).entry else s.mapBytes ++ leBytes 1 s.boot.fmport, []))

/-- GET_STAGED_REQUEST_STATUS (C012h). DEDUCED, log entry 67. -/
def execGetStagedRequestStatus (h : MbHdr) (s : State) : Res :=
  .next (s.mbRun h { opcode := 0xC012, ld := false, fm := .module } fun s =>
    .ok { s := s, fields := [⟨0, 1, s.boot.stageState⟩, ⟨4, 4, if s.boot.stageState = 2 then s.boot.reason else 0⟩, ⟨8, 8, s.boot.stageSerial⟩] })

/-- DISCARD_STAGED_REQUEST (C013h). -/
def execDiscardStagedRequest (h : MbHdr) (s : State) : Res :=
  .next (s.mbRun h { opcode := 0xC013, ld := false, fm := .module } fun s =>
    .ok { s := if s.boot.stagedReq.isSome then s.modBoot fun b => { b with stagedReq := none, stageState := 0, stageSerial := 0 } else s })

/-! ### Keys (R43, R64, R388) -/

/-- Does an LD own an extent in any state? -/
def State.ownsAny (s : State) (ld : Nat) : Bool := s.ext.exts.any fun e => e.owner == ld && !e.isAlias

/-- KEY_LD (C014h): the key is generated inside the LM9 (R43, R383). -/
def execKeyLd (h : MbHdr) (s : State) : Res :=
  .next (s.mbRun h { opcode := 0xC014, ld := true, fm := .ld } fun s =>
    let ld := whoOf h
    let had := (s.ext.keys.get ld).isSome
    if had ∧ s.ownsAny ld then .error .busy
    else
      let (key, s) := s.newKey
      let s := (if had then s.endKey ld else s).setKey ld (some key)
      .ok { s := s.modBoot fun b => { b with
        debugKeys := if b.debugOpen then ld :: b.debugKeys.filter (· ≠ ld) else b.debugKeys.filter (· ≠ ld) } })

/-- ZEROISE_LD_KEY (C015h, R43). -/
def execZeroiseLdKey (h : MbHdr) (s : State) : Res :=
  .next (s.mbRun h { opcode := 0xC015, ld := true, fm := .ld } fun s =>
    let ld := whoOf h
    if s.ownsAny ld then .error .busy
    else if (s.ext.keys.get ld).isNone then .ok { s := s }
    else .ok { s := ((s.endKey ld).setKey ld none).modBoot fun b => { b with debugKeys := b.debugKeys.filter (· ≠ ld) } })

/-! ### Region profiles (R34, R104, Table 2.2, Table 5.6) -/

def State.inRegion (s : State) (ld region : Nat) : List Extent := s.ext.exts.filter fun e => e.ld = ld ∧ e.region = region

/-- GET_REGION_PROFILE (C020h). -/
def execGetRegionProfile (h : MbHdr) (region : Nat) (s : State) : Res :=
  .next (s.mbRun h { opcode := 0xC020, ld := true, fm := .anyLd, len := [9] } fun s =>
    if 8 ≤ region then .error .invalidInput
    else
      let p := s.regionProfile (whoOf h) region
      .ok { s := s, fields := [⟨0, 8, (p.getD 0).toNat⟩, ⟨8, 1, b2n p.isSome⟩, ⟨12, 4, (s.inRegion (whoOf h) region).length⟩] })

/-- Is a BOUND field one that Table 5.6 allows? -/
def boundLegal (b : Nat) : Bool := decide (b < 2 ^ 14 → b = 0) && decide (b / 2 ^ 14 ≠ 3)

/-- Is a profile word one that an LD's region may take? DEDUCED, log entry 68. -/
def State.profileOk (s : State) (ld : Nat) (p : Word) : Bool :=
  let lossy := Prof.lossy p
  let t := s.setAt (Prof.tset p)
  Prof.reserved p == 0 && Prof.cls p != 3 && decide (Prof.affinity p ≤ 4)
    && (lossy || (Prof.rate p == 0 && Prof.src p == 0 && Prof.tset p == 0 && Prof.bound p == 0))
    && (Prof.cls p == 0 || Prof.slot p == 0)
    && !(Prof.gate p && Prof.durable p)
    && !(Prof.shared p && (s.ext.parts.get ld).group == 0)
    && (!lossy || (rateAllowed (Prof.src p) (Prof.rate p) && boundLegal (Prof.bound p) && t.state != .free && t.party == s.party ld
          && t.src == Prof.src p && t.rate == Prof.rate p))

/-- SET_REGION_PROFILE (C021h): its event and the CDAT sequence number follow R339. DEDUCED, log entry 68. -/
def execSetRegionProfile (h : MbHdr) (region : Nat) (profile : Word) (s : State) : Res :=
  .next (s.mbRun h { opcode := 0xC021, ld := false, fm := .anyLd, len := [24] } fun s =>
    let ld := h.target
    if 8 ≤ region ∨ ¬ s.profileOk ld profile then .error .invalidInput
    else if s.inRegion ld region ≠ [] then .error .busy
    else
      let s := { s with ext := { s.ext with profiles := s.ext.profiles.set (8 * ld + region) (some profile) } }
      let s := s.modCxe fun c => { c with cdatSeq := c.cdatSeq.upd ld fun n => (n + 1) % 2 ^ 32 }
      .ok { s := s.post ld 0 (Event.of 20 ld 1 [⟨64, 1, region⟩, ⟨72, 8, profile.toNat⟩]) })

/-! ### Extent descriptors (Table 2.3) -/

def ExtState.code : ExtState → Nat
  | .pending => 0 | .active => 1 | .releasing => 2 | .withdrawing => 3 | .discarding => 4

/-- Bytes in use of an extent: allocated payload and spillway. DEDUCED, log entries 9, 68. -/
def State.usedBytes (s : State) (e : Extent) : Nat := if e.isAlias ∨ Prof.gate e.profile then 0 else s.usedPayload e + s.usedSpill e

/-- DEDUCED, log entries 9, 68. -/
def State.descriptor (s : State) (e : Extent) : List Fld :=
  [⟨0, 8, e.base⟩, ⟨8, 8, e.len⟩, ⟨16, 16, e.tag⟩, ⟨32, 1, e.state.code⟩, ⟨33, 1, e.owner⟩, ⟨36, 4, s.tracker e⟩,
   ⟨40, 8, e.resv⟩, ⟨48, 8, s.usedBytes e⟩, ⟨56, 8, e.ownerBase⟩]

/-- GET_EXTENT_DESCRIPTORS (C022h). -/
def execGetExtentDescriptors (h : MbHdr) (o : OutReq) (s : State) : Res :=
  .next (s.mbSnap h { opcode := 0xC022, ld := true, fm := .ld, len := [16] } o 64 fun s =>
    .ok ([], (s.ext.exts.filter fun e => e.ld = whoOf h).map s.descriptor))

end Sys2Proof.Machine
end

