-- ==== Sys2Proof/Machine/Standard.lean ====
section
/-! DEFINITION. The standard commands of Table 15.5 and the commands that no table lists (R364 to R369, R354, R355). Payload
layouts are those of CXL 3.1. -/
namespace Sys2Proof.Machine

/-! ### Which commands a mailbox may issue (Tables 15.4, 15.5) -/

def opRange (lo n : Nat) : List Nat := (List.range n).map (· + lo)

def ldVendor : List Nat :=
  [0xC000, 0xC011, 0xC014, 0xC015, 0xC020, 0xC022] ++ opRange 0xC030 9 ++ opRange 0xC040 6 ++ opRange 0xC050 6
    ++ opRange 0xC060 8 ++ opRange 0xC070 6 ++ [0xC083, 0xC092, 0xC093, 0xC095, 0xC0A1] ++ opRange 0xC0B0 6 ++ opRange 0xC0F3 3

def fmVendor : List Nat :=
  [0xC000, 0xC001] ++ opRange 0xC010 6 ++ opRange 0xC020 3 ++ [0xC031, 0xC036, 0xC042, 0xC052] ++ opRange 0xC055 3
    ++ [0xC062, 0xC075] ++ opRange 0xC080 6 ++ opRange 0xC090 3 ++ opRange 0xC094 5 ++ opRange 0xC0A0 15 ++ [0xC0B2]
    ++ opRange 0xC0D0 3 ++ opRange 0xC0E0 7 ++ opRange 0xC0F0 4 ++ opRange 0xC0F6 3

def bothStd : List Nat := [0x0005] ++ opRange 0x0100 4 ++ [0x0200, 0x0300, 0x0301, 0x0400, 0x0401, 0x4200]
def ldStd : List Nat := bothStd ++ [0x4000] ++ opRange 0x4300 3 ++ opRange 0x4800 4
def fmStd : List Nat := bothStd ++ [0x0201, 0x0202, 0x5400, 0x5401] ++ opRange 0x5403 7 ++ [0x5600, 0x5601, 0x5603, 0x5604, 0x5605]

def commandsOf (src : Nat) : List Nat := if src < 16 then ldStd ++ ldVendor else fmStd ++ fmVendor

/-- The Command Effects Log of a mailbox (R364): opcode and effects. -/
def effectsLog (src : Nat) : Bytes := (commandsOf src).flatMap fun o => leBytes 2 o ++ leBytes 2 (Config.effects o)

/-- UNSUPPORTED_COMMAND: an opcode that the mailbox's tables do not list. -/
def execUnsupportedCommand (h : MbHdr) (opcode : Nat) (s : State) : Res :=
  let c : Cmd := { opcode := opcode, ld := false, fm := .no, vendor := decide (0xC000 ≤ opcode ∧ opcode ≤ 0xC0FF) }
  .next (if s.rings h.src ∧ ¬ (commandsOf h.src).contains opcode then s.answer h c .unsupported [] [] else s)

def stdCmd (opcode : Nat) (ld : Bool) (fm : FmTarget) : Cmd := { opcode := opcode, ld := ld, fm := fm, vendor := false }

/-! ### Identity and logs -/

/-- IDENTIFY_MEMORY_DEVICE: capacity in 256 MiB units and limits. PRESUMED, log entry 15. -/
def execIdentifyMemoryDevice (h : MbHdr) (s : State) : Res :=
  .next (s.mbRun h (stdCmd 0x4000 true .no) fun s =>
    .ok { s := s, fields := [⟨0, 4, s.fwver⟩, ⟨16, 8, (s.ext.parts.get h.src).dpaSize⟩, ⟨24, 8, 0⟩, ⟨32, 8, 0⟩, ⟨40, 8, 0⟩, ⟨48, 2, 128⟩,
      ⟨50, 2, 128⟩, ⟨52, 2, 128⟩, ⟨54, 2, 32⟩, ⟨56, 4, 0⟩, ⟨60, 3, 256⟩, ⟨63, 2, 64⟩, ⟨67, 2, 256⟩] })

/-- The identifier of the Command Effects Log. -/
def celUuid : Nat := 0x173f3b62b196798f784b41bfb5c0a90d

/-- GET_SUPPORTED_LOGS: the Command Effects Log only. -/
def execGetSupportedLogs (h : MbHdr) (s : State) : Res :=
  .next (s.mbRun h (stdCmd 0x0400 true .module) fun s =>
    .ok { s := s, fields := [⟨0, 2, 1⟩, ⟨8, 16, celUuid⟩, ⟨24, 4, (effectsLog h.src).length⟩] })

/-- GET_LOG: bytes of the Command Effects Log. -/
def execGetLog (h : MbHdr) (isCel : Bool) (offset length : Nat) (s : State) : Res :=
  .next (s.mbRun h (stdCmd 0x0401 true .module) fun s =>
    let log := effectsLog h.src
    if ¬ isCel ∨ log.length < offset + length then .error .invalidInput else .ok { s := s, blob := (log.drop offset).take length })

/-! ### Events (R366 to R369) -/

/-- Record identifiers: vendor (R367), General Media, DRAM, Memory Module, Dynamic Capacity. PRESUMED, log entry 15. -/
def eventUuid (kind : Nat) : Nat :=
  match kind with
  | 1001 => 0xa6eb21168b08a9857f4160c2770acdfb
  | 1002 => 0x24965cfb9b4eafb8ab4e069cb3cb1d60
  | 1003 => 0x74b713b1ba7986a5394359dd757492fe
  | 1004 => 0x2a1a108e26952f8c184083f1a7af95ca
  | _ => 0xe7b4812d6a0c539f2e4b417c090a9d1e

/-- The 128 bytes of a record of a log (R367, Table 15.6). PRESUMED, log entry 15. -/
def Event.bytes (e : Event) (log : Nat) : Bytes :=
  let head : List Fld := [⟨0, 16, eventUuid e.kind⟩, ⟨16, 1, 128⟩, ⟨17, 3, log % 4⟩, ⟨20, 2, e.handle⟩, ⟨24, 8, e.time⟩]
  let body : List Fld := if 1000 < e.kind then [] else
    [⟨48, 2, e.kind⟩, ⟨50, 1, e.ld⟩, ⟨51, 1, b2n e.ovf + 2 * b2n e.more⟩, ⟨52, 4, e.count⟩, ⟨56, 6, e.turn⟩,
     ⟨62, 2, e.layer + e.wheel * 2 ^ 10 + b2n e.nopos * 2 ^ 14⟩]
  layout 128 (head ++ body ++ e.detail)

/-- GET_EVENT_RECORDS: every record of a log, with its overflow fields. PRESUMED, log entry 15. -/
def execGetEventRecords (h : MbHdr) (log : Nat) (s : State) : Res :=
  .next (s.mbRun h (stdCmd 0x0100 true .module) fun s =>
    if 4 < log then .error .invalidInput
    else
      let l := s.mbox.logs.get (h.src * 8 + log)
      .ok { s := s, fields := [⟨0, 1, b2n l.ovf⟩, ⟨2, 2, min l.ovCount 65535⟩, ⟨4, 8, l.ovFirst⟩, ⟨12, 8, l.ovLast⟩, ⟨20, 2, l.recs.length⟩],
            blob := l.recs.flatMap fun e => e.bytes log })

/-- A log whose records a predicate keeps; an empty log loses its overflow fields (R366). -/
def EvLog.keep (l : EvLog) (p : Event → Bool) : EvLog :=
  let rs := l.recs.filter p
  if rs.isEmpty then {} else { l with recs := rs }

/-- CLEAR_EVENT_RECORDS: named records, or all. -/
def execClearEventRecords (h : MbHdr) (log : Nat) (all : Bool) (handles : List Nat) (s : State) : Res :=
  .next (s.mbRun h (stdCmd 0x0101 true .module) fun s =>
    let key := h.src * 8 + log
    let l := s.mbox.logs.get key
    if 4 < log ∨ h.len ≠ 6 + 2 * handles.length then .error .invalidInput
    else if ¬ all ∧ handles.any (fun x => !(l.recs.any fun e => e.handle == x)) then .error .invalidHandle
    else
      let kept := l.keep fun e => !all && !handles.contains e.handle
      .ok { s := { s with mbox := { s.mbox with logs := s.mbox.logs.set key kept } } })

/-- GET_EVENT_INTERRUPT_POLICY: for each log its mode and the vector of R333. -/
def execGetEventInterruptPolicy (h : MbHdr) (s : State) : Res :=
  .next (s.mbRun h (stdCmd 0x0102 true .module) fun s =>
    .ok { s := s, fields := (List.range 5).map fun l => ⟨l, 1, s.mbox.policy.get (h.src * 8 + l) + 16 * (l + 1)⟩ })

/-- SET_EVENT_INTERRUPT_POLICY: no interrupts or MSI-X for each log. -/
def execSetEventInterruptPolicy (h : MbHdr) (modes : List Nat) (s : State) : Res :=
  .next (s.mbRun h (stdCmd 0x0103 true .module) fun s =>
    if modes.length ≠ h.len ∨ modes.any (fun m => decide (1 < m)) then .error .invalidInput
    else
      let pol := modes.zipIdx.foldl (fun (t : Tbl Nat) p => t.set (h.src * 8 + p.2) p.1) s.mbox.policy
      .ok { s := { s with mbox := { s.mbox with policy := pol } } })

/-! ### Firmware (R373 to R376) -/

/-- Does an image pass R374? -/
def State.imageOk (s : State) (img : Bytes) : Bool :=
  let len := leAt img 16 4
  leAt img 0 4 == 0x46570A09 && leAt img 4 2 == 1 && leAt img 6 2 == 0 && leAt img 13 3 == 0 && leAt img 56 72 == 0
    && len % 4096 == 0 && decide (len ≤ 16776576) && img.length == 640 + len && decide (img.length ≤ 16 * MiB)
    && (img.drop 24).take 32 == dig (Config.sha256 ((img.drop 128).take len))
    && envelopeOk img (128 + len) Config.umaygonFirmwareKey
    && decide (s.boot.fusemin ≤ leAt img 12 1)

/-- The slot of an image. -/
def slotOfImage (img : Bytes) : FwSlot := { image := img, fwver := leAt img 8 4, svn := leAt img 12 1, good := true }

/-- GET_FW_INFO: slots 1 (A) and 2 (B), the running slot and the next, and each slot's FWVER (R375). -/
def execGetFwInfo (h : MbHdr) (s : State) : Res :=
  .next (s.mbRun h (stdCmd 0x0200 true .module) fun s =>
    let next := s.boot.trialSet.getD s.boot.active
    .ok { s := s, fields := [⟨0, 1, 2⟩, ⟨1, 1, (s.boot.running + 1) + 8 * (next + 1)⟩, ⟨2, 1, 0⟩, ⟨16, 16, s.boot.slotA.fwver⟩,
      ⟨32, 16, s.boot.slotB.fwver⟩] })

/-- TRANSFER_FW: an image in parts into the slot that is not running (R375); in ROM recovery no slot runs (R376). -/
def execTransferFw (h : MbHdr) (slot : Nat) (p : Part) (s : State) : Res :=
  .next (s.mbParts h (stdCmd 0x0201 false .module) p fun img s =>
    if (slot ≠ 1 ∧ slot ≠ 2) ∨ (¬ s.boot.recovery ∧ slot = s.boot.running + 1) ∨ ¬ s.imageOk img then .error .invalidInput
    else .ok { s := s.modBoot fun b =>
      if slot = 1 then { b with slotA := slotOfImage img } else { b with slotB := slotOfImage img } })

/-- ACTIVATE_FW: TRIAL names the slot; online activation is refused (R375). -/
def execActivateFw (h : MbHdr) (online : Bool) (slot : Nat) (s : State) : Res :=
  .next (s.mbRun h (stdCmd 0x0202 false .module) fun s =>
    if online ∨ (slot ≠ 1 ∧ slot ≠ 2) then .error .invalidInput
    else .ok { s := s.modBoot fun b => { b with trialSet := some (slot - 1) } })

/-! ### Time and health (R354, R365) -/

/-- GET_TIMESTAMP: the counter plus the LD's offset. -/
def execGetTimestamp (h : MbHdr) (s : State) : Res :=
  .next (s.mbRun h (stdCmd 0x0300 true .module) fun s => .ok { s := s, fields := [⟨0, 8, s.timeOf h.src⟩] })

/-- SET_TIMESTAMP: the issuing LD's offset. DEDUCED, log entry 93. -/
def execSetTimestamp (h : MbHdr) (value : Nat) (s : State) : Res :=
  .next (s.mbRun h (stdCmd 0x0301 true .module) fun s =>
    .ok { s := s.modCxe fun c => { c with tsOff := c.tsOff.set h.src ((value : Int) - ((s.now - c.tsZero : Nat) : Int)) } })

/-- GET_HEALTH_INFO (R365). PRESUMED, log entry 15. -/
def execGetHealthInfo (h : MbHdr) (s : State) : Res :=
  .next (s.mbRun h (stdCmd 0x4200 true .module) fun s => .ok { s := s, fields := s.healthFields h.src 0 })

/-! ### Poison (R364) -/

/-- A DPA that the poison commands refuse: not aligned to a line, or beyond DPA_SIZE. -/
def State.badDpa (s : State) (ld dpa : Nat) : Bool := dpa % 64 != 0 || decide ((s.ext.parts.get ld).dpaSize * granule ≤ dpa)

/-- Poisoned blocks of an LD's extents, as block DPA and block: its own, and those of ACTIVE aliases. -/
def State.poisoned (s : State) (ld : Nat) : List (Nat × Nat) :=
  (s.ext.exts.filter fun e => e.ld = ld ∧ ¬ Prof.gate e.profile ∧ (¬ e.isAlias ∨ e.state = .active)).flatMap fun e =>
    ((s.mappedSacks e).flatMap fun k => ((List.range 128).map (· + 128 * k)).filter s.isPoison).map fun b => (s.dpaOf e b, b)

def insertDpa (x : Nat × Nat) : List (Nat × Nat) → List (Nat × Nat)
  | [] => [x]
  | y :: ys => if x.1 ≤ y.1 then x :: y :: ys else y :: insertDpa x ys

/-- Source of a poisoned block: 3 Injected, 1 External, 7 Vendor Specific (a retraction), 2 Internal. -/
def State.poisonSource (s : State) (blk : Nat) : Nat :=
  if s.mbox.injected.contains blk then 3
  else if s.mbox.external.contains blk then 1
  else if s.mbox.retracted.contains blk then 7
  else 2

/-- GET_POISON_LIST: up to 256 blocks of a range, rising. DEDUCED, log entry 69. -/
def execGetPoisonList (h : MbHdr) (dpa lines : Nat) (s : State) : Res :=
  .next (s.mbRun h (stdCmd 0x4300 true .no) fun s =>
    if s.badDpa h.src dpa then .error .invalidPhysicalAddress
    else
      let hit := ((s.poisoned h.src).filter fun x => dpa < x.1 + 512 ∧ x.1 < dpa + 64 * lines).foldr insertDpa []
      let out := hit.take 256
      .ok { s := s, fields := [⟨0, 1, b2n (decide (256 < hit.length))⟩, ⟨10, 2, out.length⟩],
            blob := out.flatMap fun x => layout 16 [⟨0, 8, x.1 + s.poisonSource x.2⟩, ⟨8, 4, 8⟩] })

/-- The served extent, owned or reached through an alias, that a poison command names. -/
def State.poisonExt (s : State) (ld dpa : Nat) : Option Extent :=
  if s.badDpa ld dpa then none
  else match s.extAt ld dpa with
    | some e => if e.state = .active ∧ ¬ Prof.gate e.profile then some e else none
    | none => none

/-- Poison a block in its side record; an unmapped sack is allocated for it. DEDUCED, log entry 69. -/
def State.injectBlock (s : State) (e : Extent) (blk : Nat) : State :=
  let sack := blk / 128
  let place := fun (k : Sack) => { k with tier := if k.near then .t1 else .t2, mst := if k.near then .clean else .deep, waits := false }
  let s : State := if (s.sack sack).mst = .unmapped then ((s.allocate e sack none).modSack sack place).journal 1 else s
  let s := s.modStore fun st => { st with
    merges := st.merges.filter fun m => m.blk ≠ blk
    mirrors := st.mirrors.filter fun m => m.blk ≠ blk }
  let s := (s.poisonBlock blk).dropT0 blk
  { s with mbox := { s.mbox with injected := blk :: s.mbox.injected.filter (· ≠ blk) } }

/-- INJECT_POISON: at most 64 of an LD's injected blocks uncleared. DEDUCED, log entry 69. -/
def execInjectPoison (h : MbHdr) (dpa : Nat) (s : State) : Res :=
  .next (s.mbRun h (stdCmd 0x4301 true .no) fun s =>
    match s.poisonExt h.src dpa with
    | none => .error .invalidPhysicalAddress
    | some e =>
      let blk := s.blkOf e dpa
      let mine := s.mbox.injected.filter fun b => (s.extFor h.src (b / 128)).isSome
      if ¬ s.mbox.injected.contains blk ∧ 64 ≤ mine.length then .error .resourcesExhausted
      else .ok { s := s.injectBlock e blk })

/-- CLEAR_POISON: the line given and zeroes, as one whole-block write (R244). -/
def execClearPoison (h : MbHdr) (dpa : Nat) (data : Bytes) (s : State) : Res :=
  .next (s.mbRun h (stdCmd 0x4302 true .no) fun s =>
    match s.poisonExt h.src dpa with
    | none => .error .invalidPhysicalAddress
    | some e => .ok { s := s.innerWrite h.src e (s.blkOf e dpa) (patch (zeros 512) (64 * lineOf dpa) (fit 64 data)) none (Prof.wclass e.profile) })

/-! ### Dynamic capacity (R339) -/

/-- A region's configuration: base, length, block size, DSMAD handle, flags ([0] sanitize, [2] non-volatile, [3] sharable). -/
def State.regionConfig (s : State) (ld r : Nat) : Bytes :=
  let p := (s.regionProfile ld r).getD 0
  let b := (s.ext.parts.get ld).regions.getD r (0, 0)
  layout 40 [⟨0, 8, b.1 * granule⟩, ⟨8, 8, b.2⟩, ⟨16, 8, b.2 * granule⟩, ⟨24, 8, granule⟩, ⟨32, 4, r⟩,
    ⟨36, 1, 1 + 4 * b2n (Prof.durable p) + 8 * b2n (Prof.shared p)⟩]

/-- Extents of an LD's list: those its host has accepted. -/
def State.dcExtents (s : State) (ld : Nat) : List Extent := s.ext.exts.filter fun e => e.ld = ld ∧ e.state = .active

def extentRec (e : Extent) : Bytes := layout 40 [⟨0, 8, e.base⟩, ⟨8, 8, e.len⟩, ⟨16, 16, e.tag⟩]

/-- GET_DC_CONFIGURATION. PRESUMED, log entry 15. -/
def execGetDcConfiguration (h : MbHdr) (first count : Nat) (s : State) : Res :=
  .next (s.mbRun h (stdCmd 0x4800 true .no) fun s =>
    if 8 ≤ first then .error .invalidInput
    else
      let n := min count (8 - first)
      .ok { s := s, fields := [⟨0, 1, 8⟩, ⟨1, 1, n⟩], blob := (List.range n).flatMap fun i => s.regionConfig h.src (first + i) })

/-- GET_DC_EXTENT_LIST. The generation number of the list is a value that the spec does not give. -/
def execGetDcExtentList (h : MbHdr) (count start : Nat) (s : State) : Res :=
  .next (s.mbRun h (stdCmd 0x4801 true .no) fun s =>
    let es := s.dcExtents h.src
    if es.length < start then .error .invalidInput
    else
      let (g, s) := s.free
      let out := (es.drop start).take count
      .ok { s := s, fields := [⟨0, 4, out.length⟩, ⟨4, 4, es.length⟩, ⟨8, 4, g⟩], blob := out.flatMap extentRec })

/-- GET_DCD_INFO: 16 hosts, eight regions each, the two policies of Table 15.5, the total capacity and the block size. -/
def execGetDcdInfo (h : MbHdr) (s : State) : Res :=
  .next (s.mbRun h (stdCmd 0x5600 false .module) fun s =>
    let total := allLds.flatMap fun ld => (s.ext.parts.get ld).regions.map fun r => r.2 * granule
    .ok { s := s, fields := [⟨0, 1, 16⟩, ⟨1, 1, 8⟩, ⟨4, 2, 12⟩, ⟨12, 8, sumOf total⟩, ⟨20, 8, granule⟩] })

/-- GET_HOST_DC_REGION_CONFIG. PRESUMED, log entry 15. -/
def execGetHostDcRegionConfig (h : MbHdr) (host first count : Nat) (s : State) : Res :=
  .next (s.mbRun h (stdCmd 0x5601 false .module) fun s =>
    if 16 ≤ host ∨ ¬ s.ldOn host ∨ 8 ≤ first then .error .invalidInput
    else
      let n := min count (8 - first)
      .ok { s := s, fields := [⟨0, 2, host⟩, ⟨2, 1, 8⟩, ⟨3, 1, n⟩], blob := (List.range n).flatMap fun i => s.regionConfig host (first + i) })

/-- GET_DC_REGION_EXTENT_LISTS. -/
def execGetDcRegionExtentLists (h : MbHdr) (host count start : Nat) (s : State) : Res :=
  .next (s.mbRun h (stdCmd 0x5603 false .module) fun s =>
    let es := s.dcExtents host
    if 16 ≤ host ∨ ¬ s.ldOn host ∨ es.length < start then .error .invalidInput
    else
      let (g, s) := s.free
      let out := (es.drop start).take count
      .ok { s := s, fields := [⟨0, 2, host⟩, ⟨4, 4, start⟩, ⟨8, 4, out.length⟩, ⟨12, 4, es.length⟩, ⟨16, 4, g⟩], blob := out.flatMap extentRec })

/-! ### Logical devices and QoS -/

/-- GET_LD_INFO: 16 LDs. PRESUMED, log entry 15. -/
def execGetLdInfo (h : MbHdr) (s : State) : Res :=
  .next (s.mbRun h (stdCmd 0x5400 false .module) fun s =>
    .ok { s := s, fields := [⟨0, 8, sumOf (allLds.map fun ld => (s.ext.parts.get ld).dpaSize) * granule⟩, ⟨8, 2, 16⟩] })

/-- GET_LD_ALLOCATIONS: DPA_SIZE of each LD, in 256 MiB units. -/
def execGetLdAllocations (h : MbHdr) (start limit : Nat) (s : State) : Res :=
  .next (s.mbRun h (stdCmd 0x5401 false .module) fun s =>
    if 16 ≤ start then .error .invalidInput
    else
      let n := min limit (16 - start)
      .ok { s := s, fields := [⟨0, 1, 16⟩, ⟨1, 1, 0⟩, ⟨2, 1, start⟩, ⟨3, 1, n⟩],
            blob := (List.range n).flatMap fun i => layout 16 [⟨0, 8, (s.ext.parts.get (start + i)).dpaSize⟩] })

/-- FM_QOS_CONTROL: sets or reads the limit of each LD, in 1/256 of its port (R355). DESIGN CHOICE, log entry 17. PRESUMED, log entry 15. -/
def execFmQosControl (h : MbHdr) (set : Option (List Nat)) (s : State) : Res :=
  .next (s.mbRun h (stdCmd (if set.isSome then 0x5409 else 0x5408) false .module) fun s =>
    match set with
    | some l =>
      if 16 < l.length ∨ h.len ≠ 2 + l.length ∨ l.any (fun x => decide (255 < x)) then .error .invalidInput
      else .ok { s := s.modCxe fun c => { c with qos := l } }
    | none => .ok { s := s, blob := s.cxe.qos.map fun x => BitVec.ofNat 8 x })

end Sys2Proof.Machine
end

