-- ==== Sys2Proof/Machine/Debug.lean ====
section
/-! DEFINITION. The debug challenge, unlock and state commands (R386 to R388). -/
namespace Sys2Proof.Machine

/-- The nonce in force: 10 minutes from its making (R386). -/
def State.nonceNow (s : State) : Option Nonce :=
  match s.boot.nonce with
  | some n => if s.now < n.since + 600 * sec then some n else none
  | none => none

/-- GET_DEBUG_CHALLENGE (C0D0h): a new nonce. DEDUCED, log entry 70. -/
def execGetDebugChallenge (h : MbHdr) (s : State) : Res :=
  .next (s.mbRun h { opcode := 0xC0D0, ld := false, fm := .module } fun s =>
    let v := Config.randomBits s.freeCtr
    let s := { s with freeCtr := s.freeCtr + 1 }
    .ok { s := s.modBoot fun b => { b with nonce := some { value := v, since := s.now } },
          fields := [⟨0, 32, v.toNat⟩, ⟨32, 8, s.boot.serial⟩, ⟨40, 4, s.fwver⟩] })

/-- DEBUG_NONCE_EXPIRE: 10 minutes after the nonce was made. -/
def execDebugNonceExpire (t : Nat) (s : State) : Res :=
  let s := s.at_ t
  match s.boot.nonce with
  | some n => if n.since + 600 * sec ≤ s.now then .next (s.modBoot fun b => { b with nonce := none }) else .next s
  | none => .next s

/-- UNLOCK_DEBUG (C0D1h): a signed request in parts, checked in the background; Busy if debug is open. -/
def execUnlockDebug (h : MbHdr) (p : Part) (s : State) : Res :=
  .next (s.mbPartsBg h { opcode := 0xC0D1, ld := false, fm := .module } p
    (fun img => .unlockDebug h { p with data := img }) fun _ s => if s.boot.debugOpen then .error .busy else .ok s)

/-- Does an unlock request pass R386? -/
def State.unlockOk (s : State) (img : Bytes) : Bool :=
  img.length == 640 && leAt img 0 4 == 0x44420A55 && leAt img 4 2 == 1 && leAt img 6 2 == 0 && leAt img 8 8 == s.boot.serial
    && (match s.nonceNow with | some n => leAt img 16 32 == n.value.toNat | none => false)
    && leAt img 48 4 == s.fwver && leAt img 52 4 != 0 && decide (leAt img 52 4 < 16) && leAt img 64 64 == 0
    && envelopeOk img 128 (Config.umaygonDebugKey (s.slotOf s.boot.running).image)

/-- The end of the check: the nonce is used up, and debug begins to open or the request is refused. DEDUCED, log entry 70. -/
def State.judgeUnlock (s : State) (src : Nat) (img : Bytes) : State :=
  let ok := s.unlockOk img
  let s := s.modBoot fun b => { b with nonce := none }
  if ok then s.startDebug src (leAt img 52 4) (leAt img 56 8)
  else (s.modBoot fun b => { b with refused := bump 16 b.refused 1 }).endJob src .invalidInput 0

/-- GET_DEBUG_STATE (C0D2h). -/
def execGetDebugState (h : MbHdr) (s : State) : Res :=
  .next (s.mbRun h { opcode := 0xC0D2, ld := false, fm := .module } fun s =>
    .ok { s := s, fields := [⟨0, 1, b2n s.boot.debugOpen⟩, ⟨8, 8, s.debugSeq⟩] })

/-- MLR_DEBUG. -/
def State.debugWord (s : State) : Nat := b2n s.boot.debugOpen + 2 * s.boot.scope + s.boot.refused * 2 ^ 8

end Sys2Proof.Machine
end

