-- ==== Sys2Proof/Machine/Jobs.lean ====
section
/-! DEFINITION. The ends of background commands, abort requests, and open images and snapshots that time out (R359 to R361). -/
namespace Sys2Proof.Machine

/-- Has a queued or running build of a set ended? -/
def State.buildDone (s : State) (set : Nat) : Bool := !(s.store.builds.any fun b => b.set == set)

/-- Mark a mailbox's command as one that ends with a ledger commit or another event. DEDUCED, log entry 71. -/
def State.markJob (s : State) (src : Nat) : State :=
  { s with mbox := { s.mbox with jobs := s.mbox.jobs.map fun j => if j.1 = src then (src, { j.2 with started := true }) else j } }

/-- The end of a retirement, or another pass over the frames still in use. -/
def State.retireStep (s : State) (src kind loc : Nat) : State :=
  match s.finishRetire src kind loc with
  | some s' => s'.markJob src
  | none => s.clearRetired (locStack loc)

/-- How a background command that can end now ends; the state unchanged where it cannot. Commands that write a ledger record
end at its commit (R358); Run Digest and Request Test Slice end with their digest and slice. -/
def State.completeJob (s : State) (src : Nat) (j : Job) : State :=
  match j.cmd with
  | .stagePartitionRequest _ p => let (c, s) := s.stageReq p.data; s.endJob src c 0
  | .loadDressing _ p =>
    match s.loadDone src p.data with
    | (.ok handle, s) => s.endJob src .success handle
    | (.error c, s) => s.endJob src c 0
  | .saveSchedule _ index =>
    if (s.wheel (16 * src + index)).state = .closed then s.endJob src .invalidInput 0
    else (s.saveSchedule (16 * src + index)).endJob src .success 0
  | .rebuildTableSet _ set _ => if s.buildDone set then s.endJob src .success 0 else s
  | .setStoneOffline _ stone =>
    if (s.stoneAt stone).state = .offline ∨ (s.stoneAt stone).state = .failed then s.endJob src .success 0 else s
  | .removeGranaryExtent _ base =>
    match s.granaryAt src base with
    | none => s.endJob src .success 0
    | some e =>
      if s.gate.bins.any fun b => b.eid == e.eid && decide (0 < b.attach) then s.endJob src .busy 0
      else (s.dropGranary e.eid).endJob src .success 0
  | .armFlipMaskStone _ stone _ _ mask =>
    ((s.modStone stone fun st => { st.zeroed with cleared := s.cyc }).countClear).endJob src .success (flipVses mask)
  | .retireRow _ loc => if j.started then s else s.retireStep src 0 loc
  | .retireBank _ loc => if j.started then s else s.retireStep src 1 loc
  | .retireStack _ loc => if j.started then s else s.retireStep src 2 loc
  | .retireSack _ sack => if j.started then s else s.retireStep src 3 sack
  | .installTestContent _ p => if j.started then s else (s.installPkg src p.data).markJob src
  | .requestCalibration _ _ unit => if (s.stackAt unit).stale = 0 then s.endJob src .success 0 else s
  | .unlockDebug _ p => if j.started then s else (s.markJob src).judgeUnlock src p.data
  | .testHoldupBank _ => if s.deep.bank = .testing then s else s.endJob src .success s.deep.energy
  | .retrainPort _ port =>
    let p := s.portAt port
    if p.state = .active then s.endJob src .success (widthCode p.group.length)
    else if p.state = .detect ∨ p.state = .dark then s.endJob src .success 0
    else s
  | _ => s

/-- BACKGROUND_COMMAND_COMPLETE (R359). -/
def execBackgroundCommandComplete (t src : Nat) (s : State) : Res :=
  let s := s.at_ t
  match s.job src with
  | some j => if s.up ∧ s.millerReady then .next (s.completeJob src j) else .next s
  | none => .next s

/-- May a running command still be aborted: C043h before its build, C0A8h before its slice, C0B4h at any time (R359)? -/
def State.abortable (s : State) (j : Job) : Bool :=
  match j.cmd with
  | .rebuildTableSet _ set _ => s.store.builds.any fun b => b.set == set && !b.running
  | .requestTestSlice _ _ unit slice => !(s.sliceRec slice unit).running
  | .runDigest _ _ => true
  | _ => false

/-- ABORT_BACKGROUND_OPERATION. What a refused request returns CXL 3.1 states, not this spec. DEDUCED, log entry 69. PRESUMED, log entry 15. -/
def execAbortBackgroundOperation (h : MbHdr) (s : State) : Res :=
  .next (s.mbRun h (stdCmd 0x0005 true .module) fun s =>
    let refusal : Except Rc MbOk := .error (if Config.abortBusy then .busy else .invalidInput)
    match s.job h.src with
    | some j => if s.abortable j then .ok { s := s.stopJob h.src } else refusal
    | none => refusal)

/-- PART_IMAGE_TIMEOUT (R360): no part of an open image for 10 s. -/
def execPartImageTimeout (t src opcode : Nat) (s : State) : Res :=
  let s := s.at_ t
  .next { s with mbox := { s.mbox with
    images := s.mbox.images.filter fun i => ¬ (i.src = src ∧ i.opcode = opcode ∧ i.last + 10 * sec ≤ s.now) } }

/-- SNAPSHOT_TIMEOUT (R361): no request of a snapshot for 10 s. -/
def execSnapshotTimeout (t src opcode : Nat) (s : State) : Res :=
  let s := s.at_ t
  .next { s with mbox := { s.mbox with
    snaps := s.mbox.snaps.filter fun i => ¬ (i.src = src ∧ i.opcode = opcode ∧ i.last + 10 * sec ≤ s.now) } }

end Sys2Proof.Machine
end

