-- ==== Sys2Proof/Machine/Pace.lean ====
section
/-! DEFINITION. Changes of the stone clock as a shared operation (R132, R400): what the governor, the thermal steps and
tentering ask for together, and how a change runs. -/
namespace Sys2Proof.Machine

def State.modClock (s : State) (f : ClockSt → ClockSt) : State := { s with clock := f s.clock }
def State.modHealth (s : State) (f : HealthSt → HealthSt) : State := { s with health := f s.health }

/-- How many steps of a kind the governor, and the thermal steps, hold. -/
def State.govCount (s : State) (k : Nat) : Nat := (s.power.taken.filter (· = k)).length
def State.thermCount (s : State) (k : Nat) : Nat := (s.health.steps.filter fun x => x.kind = k).length

/-- The step that the governor, and the thermal steps, ask for (CLK_STONE.GOV, CLK_STONE.THERM). -/
def State.govStep (s : State) : Nat := min 4 (s.health.ceil + s.govCount 1)
def State.thermStep (s : State) : Nat := min 4 (s.health.ceil + s.thermCount 1)

/-- The clock takes the lower of the two frequencies (R20). DEDUCED, log entry 72. -/
def State.stoneGoal (s : State) : Nat := max s.govStep s.thermStep

/-- Is a stone in the scan phase of a slice (R400)? -/
def State.scanning (s : State) : Bool := allStones.any fun k => (s.sliceRec 0 k).running

/-- Start the change that was asked for last: 20 µs for a step down, 100 µs more for the voltage of a step up. It waits for a
scan phase to end. DEDUCED, log entry 72. -/
def State.pumpStone (s : State) : State :=
  match s.clock.target, s.clock.next with
  | none, some g =>
    if g = s.clock.step then s.modClock fun c => { c with next := none }
    else if s.scanning then s
    else
      let wait := if s.clock.step < g then 20 * us else 120 * us
      s.modClock fun c => { c with target := some g, next := none, changeAt := s.now + wait }
  | _, _ => s

/-- Ask for the step that the governor, the thermal steps and the ceiling now give. -/
def State.askStone (s : State) : State := (s.modClock fun c => { c with next := some s.stoneGoal }).pumpStone

/-- The slices of checkers and hub instances that waited for a change begin. -/
def State.beginWaiting (s : State) : State :=
  if s.clock.target.isSome then s
  else
    let t := s.now
    let go := fun (k : Nat) (r : SliceRec) => if 3 * 256 ≤ k ∧ r.marked ∧ ¬ r.running then { r with running := true, startAt := t } else r
    s.modHealth fun h => { h with slices := h.slices.updAll h.slices.keys go }

/-- STONE_STEP_CHANGE_COMPLETE: the dies switch to the spare PLL, and a queued target starts (R400). -/
def execStoneStepChangeComplete (t : Nat) (s : State) : Res :=
  let s := s.at_ t
  match s.clock.target with
  | some g =>
    if s.up ∧ s.clock.changeAt ≤ s.now then
      let s' := s.modClock fun c => { c with cycBase := s.cyc, cycAt := s.now, step := g, target := none, changes := bump 32 c.changes 1 }
      .next (s'.pumpStone.beginWaiting.caps.noteVitals s)
    else .next s
  | none => .next s

/-- The near-tier point that the governor and the thermal steps give. -/
def State.nearGoal (s : State) : Nat := min 3 (max (s.govCount 3) (s.thermCount 2))

/-- Carry out a change of the steps in force. -/
def State.applySteps (s : State) : State :=
  let s := if s.stoneGoal = (s.clock.next.getD (s.clock.target.getD s.clock.step)) then s else s.askStone
  let s := if s.nearGoal = s.pointGoal then s else s.askPoint s.nearGoal
  s.caps

/-- CLK_STONE. -/
def State.stoneWord (s : State) : Nat :=
  s.clock.step + s.health.ceil * 8 + s.govStep * 2 ^ 6 + s.thermStep * 2 ^ 9 + 2 ^ 12 * b2n s.clock.target.isSome
    + s.clock.changes * 2 ^ 32

end Sys2Proof.Machine
end

