-- ==== Sys2Proof/Machine/Power.lean ====
section
/-! DEFINITION. The governor and the thermal steps (R18 to R20, R415, R416, R418) with their commands. -/
namespace Sys2Proof.Machine

def State.modPower (s : State) (f : PowerSt → PowerSt) : State := { s with power := f s.power }

/-! ### The governor -/

/-- The next step of R19: stone clock, deep programming, near-tier point, deep reads, each down to its floor. DEDUCED, log entry 72. -/
def State.nextGov (s : State) : Option Nat :=
  if s.govStep < 4 then some 1
  else if s.deep.budget * 2 ^ (s.govCount 2 + 1) ≤ 15 * s.healthyChannels then some 2
  else if s.govCount 3 < 3 then some 3
  else if s.govCount 4 < 2 then some 4
  else none

/-- GOVERNOR_STEP: the averaged input power exceeds the limit (R19); one step, then at most one every 2 ms (R418). DEDUCED, log entry 72. -/
def execGovernorStep (t avg : Nat) (s : State) : Res :=
  let s := s.at_ t
  if ¬ s.up ∨ avg ≤ s.power.limit then .next s
  else
    let s := s.modPower fun p => { p with avg := avg }
    if s.power.taken ≠ [] ∧ s.now < s.power.lastStep + 2 * ms then .next s
    else match s.nextGov with
      | some k =>
        let s' := s.modPower fun p => { p with taken := k :: p.taken, lastStep := s.now, steps := bump 32 p.steps 1 }
        .next (s'.applySteps.noteVitals s)
      | none => .next s

/-- GOVERNOR_RETREAT: 50 ms at or below the limit less 20 W undo one step, then at most one every 50 ms (R418). DEDUCED, log entry 72. -/
def execGovernorRetreat (t avg : Nat) (s : State) : Res :=
  let s := s.at_ t
  if ¬ s.up ∨ s.power.limit < avg + 20 then .next s
  else
    let s := s.modPower fun p => { p with avg := avg }
    match s.power.taken with
    | [] => .next s
    | _ :: rest =>
      if s.now < s.power.lastStep + 50 * ms ∨ s.now < s.power.lastUndo + 50 * ms then .next s
      else
        let s' := s.modPower fun p => { p with taken := rest, lastUndo := s.now }
        .next (s'.applySteps.noteVitals s)

/-- SET_POWER_LIMIT (C0E0h, R18). -/
def execSetPowerLimit (h : MbHdr) (limit : Nat) (s : State) : Res :=
  .next (s.mbRun h { opcode := 0xC0E0, ld := false, fm := .module, len := [10] } fun s =>
    if limit < 450 ∨ 850 < limit then .error .invalidInput else .ok { s := s.modPower fun p => { p with limit := limit } })

/-- The deepest kind of step applied. -/
def State.deepestStep (s : State) : Nat := s.power.taken.foldl max 0

/-- Free values, one for each of `n` fields of two bytes from `at_`. DESIGN CHOICE, log entry 5. -/
def State.freeFields (s : State) (at_ : Nat) : Nat → List Fld × State
  | 0 => ([], s)
  | n + 1 =>
    let v := s.free
    let r := v.2.freeFields (at_ + 2) n
    (⟨at_, 2, v.1 % 65536⟩ :: r.1, r.2)

/-- GET_POWER_STATUS (C0E1h). The power of each component is a measured value. DESIGN CHOICE, log entry 74. -/
def execGetPowerStatus (h : MbHdr) (s : State) : Res :=
  .next (s.mbRun h { opcode := 0xC0E1, ld := false, fm := .module } fun s =>
    let parts := s.freeFields 8 5
    .ok {
      s := parts.2
      fields := [⟨0, 2, s.power.avg⟩, ⟨2, 2, s.power.limit⟩, ⟨4, 1, s.deepestStep⟩, ⟨5, 1, s.clock.step⟩, ⟨6, 1, s.near.point⟩,
        ⟨7, 1, b2n (s.health.steps != [])⟩] ++ parts.1 })

/-! ### Thermal steps -/

/-- The units of a part. -/
def partUnits : Part17 → Nat
  | .hub => 1 | .stoneDie => 4 | .stack => 12 | .engine => 6 | .flash => 16

/-- What a hot part lowers (R416); none where nothing is left to lower. DEDUCED, log entry 73. -/
def State.thermKind (s : State) (p : Part17) : Option Nat :=
  match p with
  | .stoneDie | .engine => if s.thermStep < 4 then some 1 else none
  | .stack | .hub => if s.thermCount 2 < 3 then some 2 else none
  | .flash => if s.deep.budget * 2 ^ s.thermCount 3 < 15 * s.healthyChannels then some 3 else some 4

/-- A THERMAL event (Table 15.7): unit, temperature in 0.125 °C, step taken. DEDUCED, log entry 73. -/
def thermalEvent (unit : Nat) (temp : Int) (kind : Nat) : Event :=
  Event.of 22 31 1 [⟨64, 1, unit⟩, ⟨66, 2, (BitVec.ofInt 16 (8 * temp)).toNat⟩, ⟨68, 1, kind⟩]

/-- THERMAL_STEP: a sensor is read; crossing the warning threshold posts an event with step 0 (R415), and at its step threshold
one step is taken each millisecond (R416). DEDUCED, log entry 73. -/
def execThermalStep (t : Nat) (part : Part17) (unit : Nat) (temp : Int) (s : State) : Res :=
  let s := s.at_ t
  if s.phase = .off ∨ partUnits part ≤ unit then .next s
  else if ¬ s.up then .next (s.setTemp part unit temp)
  else
    let before := (s.health.sensors.get (sensorKey part unit)).temp
    let s' := s.setTemp part unit temp
    let s' := if before < warnAt part ∧ warnAt part ≤ temp then s'.post fmSrc 1 (thermalEvent unit temp 0) else s'
    if temp < stepAt part ∨ (s.health.lastTherm ≠ 0 ∧ s.now < s.health.lastTherm + ms) then .next (s'.noteVitals s)
    else match s'.thermKind part with
      | some k =>
        let s' := s'.modHealth fun h => { h with
          steps := { part := part, unit := unit, kind := k } :: h.steps
          lastTherm := s.now
          stepCount := bump 16 h.stepCount 1 }
        .next ((s'.post fmSrc 1 (thermalEvent unit temp k)).applySteps.noteVitals s)
      | none => .next (s'.noteVitals s)

/-- Remove the newest step of a part. -/
def dropStep (p : Part17) (unit : Nat) : List ThermStep → List ThermStep
  | [] => []
  | x :: xs => if x.part = p ∧ x.unit = unit then xs else x :: dropStep p unit xs

/-- THERMAL_RETREAT: a part 100 ms below its retreat threshold undoes one of its steps, then one more after each further 100 ms
(R416). DEDUCED, log entry 73. -/
def execThermalRetreat (t : Nat) (part : Part17) (unit : Nat) (temp : Int) (s : State) : Res :=
  let s := s.at_ t
  if ¬ s.up ∨ partUnits part ≤ unit then .next s
  else
    let key := sensorKey part unit
    let s' := s.setTemp part unit temp
    let x := s'.health.sensors.get key
    let mine := s.health.steps.any fun y => y.part == part && y.unit == unit
    if ¬ mine ∨ retreatAt part ≤ temp ∨ s.now < x.lastHot + 100 * ms ∨ s.now < x.lastUndo + 100 * ms then .next (s'.noteVitals s)
    else
      let s' := s'.modHealth fun h => { h with
        steps := dropStep part unit h.steps
        sensors := h.sensors.upd key fun y => { y with lastUndo := s.now } }
      .next (s'.applySteps.noteVitals s)

def State.tempOf (s : State) (p : Part17) (unit : Nat) : Int := (s.health.sensors.get (sensorKey p unit)).temp

/-- The hottest unit of a part. -/
def State.hottestOf (s : State) (p : Part17) : Int := ((List.range (partUnits p)).map (s.tempOf p)).foldl max (s.tempOf p 0)

/-- A temperature as a two's complement number of 0.125 °C. -/
def tempField (t : Int) : Nat := (BitVec.ofInt 16 (8 * t)).toNat

/-- GET_THERMAL_STATUS (C0E3h). -/
def execGetThermalStatus (h : MbHdr) (s : State) : Res :=
  .next (s.mbRun h { opcode := 0xC0E3, ld := false, fm := .module } fun s =>
    let dies := (List.range 4).map fun d => (⟨2 + 2 * d, 2, tempField (s.tempOf .stoneDie d)⟩ : Fld)
    let engines := (List.range 6).map fun p => (⟨10 + 2 * p, 2, tempField (s.tempOf .engine p)⟩ : Fld)
    .ok { s := s, fields := ⟨0, 2, tempField (s.tempOf .hub 0)⟩ :: dies ++ engines
      ++ [⟨22, 2, tempField (s.hottestOf .flash)⟩, ⟨24, 2, tempField (s.hottestOf .stack)⟩] })

/-! ### Registers -/

def allParts : List Part17 := [.hub, .stoneDie, .stack, .engine, .flash]

/-- The part whose hottest sensor is highest relative to its step threshold, the first on a tie. -/
def State.hotPart (s : State) : Part17 :=
  allParts.foldl (fun a p => if s.hottestOf a - stepAt a < s.hottestOf p - stepAt p then p else a) .hub

/-- HLT_THERM. -/
def State.thermWord (s : State) : Nat :=
  (BitVec.ofInt 8 (s.hottestOf s.hotPart - stepAt s.hotPart)).toNat + partCode s.hotPart * 2 ^ 8
    + 2 ^ 11 * b2n (s.health.steps != []) + 2 ^ 12 * b2n (allParts.any fun p => decide (warnAt p ≤ s.hottestOf p))
    + s.health.stepCount * 2 ^ 32

/-- HLT_GOV. -/
def State.govWord (s : State) : Nat := s.power.limit + s.power.avg * 2 ^ 10 + s.deepestStep * 2 ^ 20 + s.power.steps * 2 ^ 32

end Sys2Proof.Machine
end

