-- ==== Sys2Proof/Machine/Health.lean ====
section
/-! DEFINITION. Self-test slices (R405 to R412), path monitors, tentering and their commands (R413, R414). -/
namespace Sys2Proof.Machine

/-! ### Slices -/

/-- The units of a slice, and the slices of a unit's type. -/
def sliceHas (slice unit : Nat) : Bool :=
  (slice < 3 && unit < 192) || (slice == 3 && unit < 4) || (slice == 4 && unit < 4) || (slice == 5 && unit < 4)
    || (slice == 6 && 4 ≤ unit && unit < 8)

def utypeSlices (utype : Nat) : List Nat := match utype with | 1 => [0, 1, 2] | 2 => [3, 4] | _ => []

/-- The slice that judges an OBSERVING unit (Table 12.5). DEDUCED, log entry 77. -/
def judgeSlice (utype unit : Nat) : Nat := match utype with | 1 => 2 | 2 => 4 | _ => if unit < 4 then 5 else 6

/-- Is a unit FAILED? -/
def State.unitFailedNow (s : State) (utype unit : Nat) : Bool :=
  (s.unitRec utype unit).state == .failed || (utype == 1 && (s.stoneAt unit).broken)

/-- A gap on a unit's die (R70); a hub unit takes any. -/
def State.unitGap (s : State) (utype unit : Nat) : Bool :=
  match utype with | 1 => s.gapOn (stoneDie unit) | 2 => s.gapOn unit | _ => s.anyGap

/-- Are fewer than four other stones of the die marked by due slices (R406)? -/
def State.dieRoom (s : State) (unit : Nat) : Bool :=
  let due := fun (k : Nat) => k != unit && (s.stoneAt k).slices.any fun sl => !(s.sliceRec sl k).requested
  ((dieStones (stoneDie unit)).filter due).length < 4

/-- Mark a unit for a due slice if nothing keeps it waiting. DEDUCED, log entry 76. -/
def State.markDue (s : State) (slice unit : Nat) (gap : Bool) : State :=
  let utype := sliceUtype slice
  let off := utype == 1 && (s.stoneAt unit).state == .offline
  if off ∨ (gap ∧ (utype ≠ 1 ∨ s.dieRoom unit)) then s.markSlice slice unit false else s

/-- SLICE_DUE: the interval of a slice has passed in powered time; it waits for a gap (R406). DEDUCED, log entry 76. -/
def execSliceDue (t slice unit : Nat) (s : State) : Res :=
  let s := s.at_ t
  let r := s.sliceRec slice unit
  let every := s.health.intervals.getD slice 0
  let utype := sliceUtype slice
  if ¬ s.up ∨ ¬ sliceHas slice unit ∨ every = 0 ∨ r.marked ∨ s.unitFailedNow utype unit then .next s
  else if r.due.isNone ∧ s.powered < r.lastDone + every * (60 * sec) then .next s
  else
    let s := s.modSlice slice unit fun r => { r with due := some (r.due.getD s.now) }
    .next (s.markDue slice unit (s.unitGap utype unit))

/-- SLICE_GAP_TIMEOUT: no gap for 10 minutes (R406). -/
def execSliceGapTimeout (t slice unit : Nat) (s : State) : Res :=
  let s := s.at_ t
  let r := s.sliceRec slice unit
  match r.due with
  | some d => if s.up ∧ sliceHas slice unit ∧ ¬ r.marked ∧ d + 600 * sec ≤ s.now then .next (s.markDue slice unit true) else .next s
  | none => .next s

/-- SLICE_DEFERRAL_EXPIRE: the running piece is pre-empted at its next checkpoint (R406). -/
def execSliceDeferralExpire (t slice unit : Nat) (s : State) : Res :=
  let s := s.at_ t
  let r := s.sliceRec slice unit
  match r.due with
  | some d =>
    if s.up ∧ slice < 3 ∧ r.marked ∧ (s.stoneAt unit).state = .draining ∧ (s.stoneAt unit).running.isSome
        ∧ d + s.health.deferral * (60 * sec) ≤ s.now then
      .next (s.modStone unit fun st => { st with preempt := true })
    else .next s
  | none => .next s

/-! ### The end of a slice -/

/-- Raise a planned voltage by 5 mV, up to 0.900 V, counting the raise. -/
def State.raiseVolt (s : State) (key : Option Nat) : State :=
  match key with
  | some k => if 900 ≤ s.health.volts.get k then s
      else s.modHealth fun h => { h with volts := h.volts.upd k fun v => min 900 (v + 5), raises := bump 16 h.raises 1 }
  | none => if 900 ≤ s.health.hubVolt then s
      else s.modHealth fun h => { h with hubVolt := min 900 (h.hubVolt + 5), raises := bump 16 h.raises 1 }

/-- The planned voltage of a unit's die at the current step: 8 × die + step, or that of the hub. -/
def State.unitVolt (s : State) (utype unit : Nat) : Option Nat :=
  match utype with | 1 => some (8 * stoneDie unit + s.clock.step) | 2 => some (8 * unit + s.clock.step) | _ => none

/-- A TEST_RESULT record: slice, package SEQ, outcome 0 pass, 1 MARGIN, 2 fail. DEDUCED, log entry 32. -/
def State.testRecord (s : State) (slice unit outcome : Nat) (posts : List Post) : State :=
  s.ledger (LedgerRec.of 12 (sliceUtype slice) unit 31 (slice + s.result.pkgSeq * 2 ^ 8 + outcome * 2 ^ 40)) posts

/-- The counts and records of an outcome (R409, R410). DEDUCED, log entry 76. -/
def State.noteSlice (s : State) (slice unit : Nat) (o : SliceOutcome) : State :=
  let utype := sliceUtype slice
  match o with
  | .pass => s.modHealth fun h => { h with passed := bump 32 h.passed 1 }
  | .margin =>
    let s := (s.modHealth fun h => { h with margin := bump 16 h.margin 1 }).testRecord slice unit 1 []
    s.raiseVolt (s.unitVolt utype unit)
  | .fail =>
    let s := s.modHealth fun h => { h with failed := bump 16 h.failed 1 }
    let ev := Event.of 23 31 1 [⟨64, 1, utype⟩, ⟨66, 2, unit⟩, ⟨68, 1, slice⟩, ⟨72, 4, s.result.pkgSeq⟩]
    (s.testRecord slice unit 2 [⟨fmSrc, 2, ev⟩]).observe utype unit 17

/-- Do all four hub instances of a kind stand FAILED (R410)? DEDUCED, log entry 77. -/
def State.hubLost (s : State) : Bool :=
  [0, 4].any fun b => (List.range 4).all fun i => (s.unitRec 6 (b + i)).state == .failed

/-- A FAILED unit that has passed every slice of its UTYPE returns as SUSPECT, unless R300 holds it (R411). -/
def State.mayReturn (s : State) (utype unit : Nat) : State :=
  let r := s.unitRec utype unit
  let all := (utypeSlices utype).all r.passed.contains
  if utype = 6 ∨ ¬ all ∨ r.held ∨ ¬ s.unitFailedNow utype unit then s
  else
    let s := s.unitTo utype unit .suspect
    if utype = 1 then s.modStone unit fun st => { st with broken := false, toOffline := false } else s

/-- What an outcome does to the unit's state (Table 12.5, R411). `was` is its state before the slice. DEDUCED, log entry 77. -/
def State.judge (s : State) (slice unit : Nat) (was : UnitState) (failed : Bool) (o : SliceOutcome) : State :=
  let utype := sliceUtype slice
  if failed then
    let note := fun (r : UnitRec) => { r with passed := if o = .fail then [] else slice :: r.passed.filter (· ≠ slice) }
    (s.setUnit utype unit note).mayReturn utype unit
  else if was = .observing ∧ slice = judgeSlice utype unit then
    s.unitTo utype unit (if o = .fail then .failed else .suspect)
  else s

/-- Are slices of a unit still marked? DEDUCED, log entry 76. -/
def State.slicesLeft (s : State) (utype unit : Nat) : Bool := (utypeSlices utype).any fun sl => (s.sliceRec sl unit).marked

/-- End the Request Test Slice that waits for a slice: that of a FAILED unit waits for its last slice (R411). DEDUCED, log entry 76. -/
def State.endSliceJobs (s : State) (slice unit : Nat) (failed : Bool) (o : SliceOutcome) : State :=
  let utype := sliceUtype slice
  let mine := s.mbox.jobs.filter fun j => match j.2.cmd with
    | .requestTestSlice _ ut u sl => ut == utype && u == unit && (sl == slice || failed)
    | _ => false
  if failed ∧ s.slicesLeft utype unit then s
  else
    let good := if failed ∧ utype ≠ 6 then !s.unitFailedNow utype unit || (utypeSlices utype).all (s.unitRec utype unit).passed.contains
      else o != .fail
    mine.foldl (fun s j => s.endJob j.1 .success (b2n good)) s

/-- A stone goes on after a slice: it is cleared again, for its next slice or its return (R408). -/
def State.afterSlice (s : State) (slice unit : Nat) : State :=
  let s := s.modStone unit fun st => { st with slices := st.slices.filter (· ≠ slice) }
  if (s.stoneAt unit).state = .test then s.beginClear unit else s

/-- SLICE_COMPLETE, in service or, while the module boots, as a power-up slice (R403, R410, R411). -/
def execSliceComplete (t slice unit : Nat) (o : SliceOutcome) (s : State) : Res :=
  let s := s.at_ t
  let r := s.sliceRec slice unit
  let utype := sliceUtype slice
  let known := slice = 2 ∨ slice = 4
  if ¬ sliceHas slice unit ∨ ¬ (s.phase = .booting ∨ (s.up ∧ r.running)) ∨ (o = .margin ∧ known) then .next s
  else
    let s0 := s
    let was := (s.unitRec utype unit).state
    let failed := s.unitFailedNow utype unit
    let s := s.modSlice slice unit fun r => { r with
      lastDone := s.powered, due := none, marked := false, running := false, requested := false }
    let s := (s.noteSlice slice unit o).judge slice unit was failed o
    if s.phase = .booting then
      let s := if o = .fail ∧ ¬ failed then s.unitTo utype unit .failed else s
      .next (if s.hubLost then s.hubFails
        else if utype = 1 ∧ failed ∧ ¬ (s.stoneAt unit).broken then s.modStone unit fun st => { st with state := .online } else s)
    else
      let s := if utype = 1 then s.afterSlice slice unit else s.clearUnit utype unit
      let s := (s.endSliceJobs slice unit failed o).pumpStone.caps
      .next (if s.hubLost then s.hubFails else s.noteVitals s0)

/-! ### Commands -/

/-- Is a unit being cleared, drained or tested? -/
def State.unitBusy (s : State) (utype unit : Nat) : Bool :=
  if utype = 1 then
    let st := (s.stoneAt unit).state
    st == .clearing || st == .draining || st == .test
  else [3, 4, 5, 6].any fun sl => sliceUtype sl == utype && (s.sliceRec sl unit).marked

/-- REQUEST_TEST_SLICE (C0A8h, R407): at once; a FAILED stone or checker runs every slice of its UTYPE (R411). DEDUCED, log entry 76. -/
def execRequestTestSlice (h : MbHdr) (utype unit slice : Nat) (s : State) : Res :=
  .next (s.mbBg h { opcode := 0xC0A8, ld := false, fm := .module, len := [13] } (.requestTestSlice h utype unit slice) fun s =>
    if ¬ sliceHas slice unit ∨ sliceUtype slice ≠ utype then .error .invalidInput
    else if s.unitBusy utype unit then .error .busy
    else if s.unitFailedNow utype unit ∧ utype ≠ 6 then .ok ((utypeSlices utype).foldl (fun s sl => s.markSlice sl unit true) s)
    else .ok (s.markSlice slice unit true))

/-- Every slice with every unit, in slice order. -/
def allSlices : List (Nat × Nat) :=
  (List.range 7).flatMap fun sl => ((List.range 192).filter (sliceHas sl)).map fun u => (sl, u)

/-- A record of Get Test Schedule: 0 not due, 1 waiting for a gap, 2 marked, 3 running, 4 disabled. -/
def State.sliceFields (s : State) (slice unit : Nat) : List Fld :=
  let r := s.sliceRec slice unit
  let every := s.health.intervals.getD slice 0
  let st := if r.running then 3 else if r.marked then 2 else if every = 0 then 4 else if r.due.isSome then 1 else 0
  let due := match r.due with
    | some d => d
    | none => s.now + (r.lastDone + every * (60 * sec) - s.powered)
  [⟨0, 1, sliceUtype slice⟩, ⟨2, 2, unit⟩, ⟨4, 1, slice⟩, ⟨5, 1, st⟩, ⟨8, 8, if st = 4 then 0 else s.stampOf fmSrc due⟩]

/-- GET_TEST_SCHEDULE (C0A9h). -/
def execGetTestSchedule (h : MbHdr) (o : OutReq) (s : State) : Res :=
  .next (s.mbSnap h { opcode := 0xC0A9, ld := false, fm := .module, len := [16] } o 16 fun s =>
    .ok ([], allSlices.map fun x => s.sliceFields x.1 x.2))

/-- SET_TEST_INTERVAL (C0AAh, R405). -/
def execSetTestInterval (h : MbHdr) (slice interval : Nat) (s : State) : Res :=
  .next (s.mbRun h { opcode := 0xC0AA, ld := false, fm := .module, len := [16] } fun s =>
    if 7 ≤ slice ∨ (interval ≠ 0 ∧ (interval < 10 ∨ 10080 < interval)) then .error .invalidInput
    else .ok { s := s.modHealth fun x => { x with intervals := x.intervals.set slice interval } })

/-- SET_DEFERRAL_LIMIT (C0ABh, R406). -/
def execSetDeferralLimit (h : MbHdr) (limit : Nat) (s : State) : Res :=
  .next (s.mbRun h { opcode := 0xC0AB, ld := false, fm := .module, len := [12] } fun s =>
    if limit = 0 ∨ 120 < limit then .error .invalidInput else .ok { s := s.modHealth fun x => { x with deferral := limit } })

/-- REQUEST_CALIBRATION (C0ACh, R412): the active set of a stack is queued for retraining. -/
def execRequestCalibration (h : MbHdr) (kind unit : Nat) (s : State) : Res :=
  .next (s.mbBg h { opcode := 0xC0AC, ld := false, fm := .module, len := [10] } (.requestCalibration h kind unit) fun s =>
    if kind ≠ 0 ∨ 11 < unit ∨ ¬ s.stackOk unit then .error .invalidInput
    else if (s.stackAt unit).retrainPoint.isSome then .error .busy
    else .ok (s.modStack unit fun x => x.queueTrain x.point))

/-! ### Ageing telemetry and tentering (R413, R414) -/

/-- PATH_MONITOR_SAMPLE: the readings of every stone's slack and of the hub's sixteen monitors, in 0.1 % of a cycle, every 10
minutes. -/
def execPathMonitorSample (t : Nat) (readings : List Nat) (hub : List Nat) (s : State) : Res :=
  let s := s.at_ t
  if s.up ∧ (s.health.sampleAt = 0 ∨ s.health.sampleAt + 600 * sec ≤ s.now) then
    .next (s.modHealth fun h => { h with slack := readings.take 192, hubSlack := hub.take 16, sampleAt := s.now })
  else .next s

/-- The lowest slack of a die's stones that are not FAILED. -/
def State.dieSlack (s : State) (d : Nat) : Nat :=
  ((dieStones d).filter fun k => !(s.stoneAt k).broken).foldl (fun a k => min a (s.health.slack.getD k 1000)) 1000

/-- The stone voltage and ceiling for one die at the current step, where its slack was measured: a raise of 5 mV, or at 0.900 V
the loss of the step and of those above it. DESIGN CHOICE, log entry 74. -/
def State.planDie (s : State) (d : Nat) : State :=
  if 80 ≤ s.dieSlack d then s
  else if s.health.volts.get (8 * d + s.clock.step) < 900 then s.raiseVolt (some (8 * d + s.clock.step))
  else s.modHealth fun h => { h with ceil := max h.ceil (min 4 (s.clock.step + 1)) }

/-- The hub rail by the same rule; at 0.900 V HUBCAP. DESIGN CHOICE, log entry 74. -/
def State.planHub (s : State) : State :=
  if 80 ≤ s.health.hubSlack.foldl min 1000 then s
  else if s.health.hubVolt < 900 then s.raiseVolt none
  else s.modHealth fun h => { h with hubcap := true }

/-- The flash budget of R414, in 0.1 GB/s. `waf` is bytes programmed over bytes charged in 30 days, in hundredths. DESIGN CHOICE, log entry 75. -/
def State.planFlash (s : State) (waf : Nat) : State :=
  let life := 5 * 365 * 86400
  let left := max (life - s.powered / sec) (30 * 86400)
  let bmax10 := (3000 - s.avgPe) * (64 * 2 ^ 40) * 100 / (left * max waf 1) / 100000000
  if max bmax10 2 < s.deep.budget then
    (s.modDeep fun d => { d with budget := max bmax10 2 }).modHealth fun h => { h with blower := true }
  else s

/-- Lanes whose eye margin at their last EQUALISE is below 1.0 dB: the launch power target rises by 0.5 dB, in at most ten raises
from the -1.0 dBm to the +4.0 dBm of Table 13.2. DESIGN CHOICE, log entry 60. -/
def State.planLasers (s : State) (margins : List Nat) : State :=
  (List.range 48).foldl (fun s i =>
    if (margins.getD i (s.port.lanes.get i).margin) < 10 then
      s.modPorts fun q => { q with lanes := q.lanes.upd i fun l => { l with launchUp := min 10 (l.launchUp + 1) } }
    else s) s

/-- TENTERING_RUN: once after each mount, then every 24 hours of powered time. -/
def execTenteringRun (t waf30 : Nat) (margins : List Nat) (s : State) : Res :=
  let s := s.at_ t
  if s.up ∧ (s.health.planAt = 0 ∨ s.health.planAt + 86400 * sec ≤ s.now) then
    let s' := (((List.range 4).foldl State.planDie s).planHub.planFlash waf30).planLasers margins
    let s' := s'.modHealth fun h => { h with plans := bump 16 h.plans 1, planAt := s.now }
    .next (s'.applySteps.noteVitals s)
  else .next s

/-- A record of Get Ageing Telemetry (Table 17.7). -/
def ageRec (utype unit a b c : Nat) : List Fld := [⟨0, 1, utype⟩, ⟨2, 2, unit⟩, ⟨4, 2, a⟩, ⟨6, 2, b⟩, ⟨8, 4, c⟩]

/-- The flash blocks of a die that have been written or retired. -/
def State.dieBlocks (s : State) (d : Nat) : List FlashBlk := (s.deep.blocks.cells.filter fun c => c.1 / 16384 == d).map Prod.snd

/-- Mean and maximum program/erase count of a die's blocks, and its retired blocks. -/
def State.dieWear (s : State) (d : Nat) : Nat × Nat × Nat :=
  let bs := s.dieBlocks d
  let out := (bs.filter fun b => b.retired).length
  (sumOf (bs.map FlashBlk.pe) / (16384 - out), (bs.map FlashBlk.pe).foldl max 0, out)

/-- The records in order: stones, flash dies, lanes, hub monitors. Drifts, projections and slacks not sampled are open values, drawn
from `f`. -/
def State.ageRecs (s : State) (f : Nat → Nat) : List (List Fld) :=
  let stones := allStones.map fun k =>
    ageRec 1 k (s.health.slack.getD k (f k)) (s.health.volts.get (8 * stoneDie k + s.clock.step)) (f (192 + k))
  let dies := (List.range 256).map fun d => ageRec 4 d (min (s.dieWear d).1 65535) (min (s.dieWear d).2.1 65535) (s.dieWear d).2.2
  let lanes := (List.range 48).map fun i =>
    let l := s.port.lanes.get i
    ageRec 5 i (l.bias.foldl max 0) l.margin (f (384 + i))
  let hub := (List.range 16).map fun i => ageRec 6 i (s.health.hubSlack.getD i (f (432 + i))) s.health.hubVolt (f (448 + i))
  stones ++ dies ++ lanes ++ hub

/-- Draw `n` open values at once. DESIGN CHOICE, log entry 5. -/
def State.skipFree (s : State) (n : Nat) : State := { s with freeCtr := s.freeCtr + n }

/-- GET_AGEING_TELEMETRY (C0ADh). DESIGN CHOICE, log entry 74. -/
def execGetAgeingTelemetry (h : MbHdr) (o : OutReq) (s : State) : Res :=
  .next ((s.mbSnap h { opcode := 0xC0AD, ld := false, fm := .module, len := [16] } o 16 fun s =>
    .ok ([], s.ageRecs fun i => Config.freeValue (s.freeCtr + i))).skipFree 464)

/-- GET_TENTERING_PLAN (C0AEh). The projected days of each lane are open values. DESIGN CHOICE, log entry 74. -/
def execGetTenteringPlan (h : MbHdr) (s : State) : Res :=
  .next (s.mbRun h { opcode := 0xC0AE, ld := false, fm := .module } fun s =>
    let volts := (List.range 4).flatMap fun d => (List.range 5).map fun c =>
      (⟨4 + 10 * d + 2 * c, 2, s.health.volts.get (8 * d + c)⟩ : Fld)
    let days := s.freeFields 56 48
    .ok {
      s := days.2
      fields := [⟨0, 1, s.health.ceil⟩, ⟨1, 1, b2n s.health.hubcap + 2 * b2n s.health.blower⟩, ⟨2, 2, s.health.hubVolt⟩] ++ volts
        ++ [⟨44, 1, s.deep.budget⟩, ⟨48, 8, s.stampOf fmSrc s.health.planAt⟩] ++ days.1 })

/-! ### Registers -/

/-- HLT_SLICE, HLT_DEFER and HLT_TENTER. -/
def State.sliceWord (s : State) : Nat := s.health.passed + s.health.failed * 2 ^ 32 + s.health.margin * 2 ^ 48
def State.deferWord (s : State) : Nat :=
  let waiting := (s.health.slices.cells.filter fun c => c.2.due.isSome && !c.2.running).length
  s.health.deferral + s.health.preempt * 2 ^ 16 + waiting * 2 ^ 32
def State.tenterWord (s : State) : Nat :=
  s.health.ceil + 8 * b2n s.health.hubcap + 16 * b2n s.health.blower + s.health.raises * 2 ^ 16 + s.health.plans * 2 ^ 32

end Sys2Proof.Machine
end

