-- ==== Sys2Proof/Machine/Cold.lean ====
section
/-! DEFINITION. What a fundamental reset, a power loss, a thermal trip and a brake leave (Tables 10.5, 10.6 and 14.7, R263,
R348, R398, R417), as shared operations. -/
namespace Sys2Proof.Machine

/-! ### What each part of the state keeps -/

/-- A sack after its near copy is gone; an allocation not journalled never was. -/
def Sack.cold (k : Sack) : Sack :=
  if k.mst = .unmapped ∨ k.mst = .allocating then {}
  else { k with
    tier := .t2, mst := .deep, near := false, stack := 0, frame := 0, ref := false, evict := false, spec := false, swheel := 0,
    cclass := 0, dirty := 0, captured := 0, reft := false, since := 0 }

/-- A table with every listed entry changed. -/
def Tbl.mapAll {α : Type} [DecidableEq α] (t : Tbl α) (f : α → α) : Tbl α := t.updAll t.keys fun _ x => f x

def TableSet.cold (t : TableSet) : TableSet := if t.state = .building then { t with state := .empty } else t

/-- The deep copies, the sack map and the table store outlive the near tier. -/
def StoreSt.cold (s : StoreSt) : StoreSt :=
  { sacks := s.sacks.mapAll Sack.cold, t2 := s.t2, written := s.written, nextRid := s.nextRid, sets := s.sets.mapAll TableSet.cold }

/-- The flash, the journal and the flush areas; the counters of the fundamental reset domain start again. -/
def DeepSt.cold (d : DeepSt) : DeepSt :=
  { d with
    mapCache := [], programming := [], journalOpen := 0, charged := 0, reloc := 0, mergeReads := 0, retry := 0, parity := 0,
    uncorr := 0, bank := if d.bank = .testing then d.before else d.bank }

/-- The marks of poison by their source survive with the side records. -/
def MboxSt.cold (m : MboxSt) : MboxSt := { injected := m.injected, external := m.external, retracted := m.retracted }

/-- The ledger, the unit records and the test content. -/
def ResultSt.cold (r : ResultSt) : ResultSt :=
  { ledger := r.ledger
    nextSeq := match r.ledger.getLast? with | some x => x.seqno + 1 | none => r.nextSeq
    errLog := r.errLog, units := r.units, pkg := r.pkg, pkgSeq := r.pkgSeq, obsCount := r.obsCount, coalesced := r.coalesced }

/-- A stone stays FAILED or OFFLINE; else it is ONLINE and clear. -/
def Stone.cold (st : Stone) : Stone :=
  if st.broken then { state := .failed, broken := true }
  else if st.state = .offline ∨ st.toOffline then { state := .offline, clean := true }
  else {}

def StoneSt.cold (s : StoneSt) : StoneSt := { stones := s.stones.mapAll Stone.cold }

/-- The granary's directory, with ATTACH 0; hidden bins and bins not committed are gone (R202). -/
def GateSt.cold (g : GateSt) : GateSt :=
  { granary := g.granary, nextOp := g.nextOp
    bins := (g.bins.filter fun b => b.committed && !b.hidden).map fun b => { b with attach := 0 } }

def Lane.cold (l : Lane) : Lane :=
  { laser := l.laser, failed := l.laser, bias := l.bias, aged := l.aged, launchUp := l.launchUp }

/-- DESIGN CHOICE, log entry 62. -/
def PortSt.cold (p : PortSt) : PortSt := { node := p.node, lanes := p.lanes.mapAll Lane.cold }

/-- The timestamp counter runs on; every offset is zero (R354). -/
def CxeSt.cold (c : CxeSt) : CxeSt := { tsZero := c.tsZero, cdatSeq := c.cdatSeq }

/-- Debug closes; `wiped` and the keys made under debug wait for the boot (R388, R389). -/
def BootSt.cold (b : BootSt) : BootSt :=
  { b with storeKey := none, nonce := none, debugOpen := false, scope := 0, openSeq := 0, openReq := 0, heldReqs := [] }

def SliceRec.cold (r : SliceRec) : SliceRec := { lastDone := r.lastDone }

/-- Intervals, deferral limit and counters return to their defaults (R405); plans, voltages and readings stay. -/
def HealthSt.cold (h : HealthSt) : HealthSt :=
  { slices := h.slices.mapAll SliceRec.cold, sensors := h.sensors, volts := h.volts, hubVolt := h.hubVolt, hubcap := h.hubcap,
    ceil := h.ceil, blower := h.blower, raises := h.raises, plans := h.plans, slack := h.slack, hubSlack := h.hubSlack,
    sampleAt := h.sampleAt, hops := h.hops, engines := h.engines, deadDies := h.deadDies }

/-- The clocks after a module reset: the stone clock and the gates start again. -/
def ClockSt.cold (c : ClockSt) : ClockSt :=
  { c with gateMiss := 0, asked := [], gated := [], step := 0, target := none, next := none, changes := 0, stopped := [] }

/-- Everything that a module reset takes away. -/
def State.cold (s : State) : State :=
  { s with
    millerReady := false
    ext := { s.ext with drops := { dflt := {} } }
    store := s.store.cold
    sweep := { stored := s.sweep.stored }
    weir := {}
    near := {}
    deep := s.refill.deep.cold
    integ := { retires := s.integ.retires }
    mbox := s.mbox.cold
    result := s.result.cold
    stone := s.stone.cold
    gate := s.gate.cold
    port := s.port.cold
    cxe := s.cxe.cold
    boot := s.boot.cold
    clock := { s.clock.cold with cycBase := 0, cycAt := s.now, poweredTotal := s.powered, poweredSince := s.now }
    health := { s.health.cold with ceil := s.health.ceil }
    power := {} }

/-! ### Power loss and module resets -/

/-- Flash programs already started complete (Table 10.5, step 4); a first program of a slot goes to group slot mod 16. DEDUCED, log entry 80. -/
def State.finishPrograms (s : State) : State :=
  s.deep.programming.foldl (fun s slot =>
    let l := s.deep.slots.get slot
    match s.takePlace (if l.valid then l.group else slot % 16) 2 with
    | some (l', s) => s.placeSlot slot l'
    | none => s) s

/-- Does the module hold anything to flush: has a mount put it in service? -/
def State.mounted (s : State) : Bool := s.phase == .running

/-- Does the main sequence run, with the rails on or on their way? -/
def State.powered48 (s : State) : Bool := s.phase == .booting || s.phase == .running || s.phase == .recovery || s.phase == .inReset

/-- What is volatile goes, if the module had power to hold it. -/
def State.drop48 (s : State) : State := if s.powered48 then s.cold else s

/-- Every LD loses the lines it holds (R344, Table 14.7): a block of which it held a line in E is poisoned, whatever record it has. DEDUCED, log entry 81. -/
def State.loseHolders (s : State) : State :=
  allLds.foldl (fun s ld =>
    let lines := s.linesOf ld
    let blks := (lines.filter fun x => (s.lineHold x.1 x.2).excl == some ld).map Prod.fst
    (s.holderLost ld lines).modStore fun st => { st with mirrors := st.mirrors.filter fun m => !blks.contains m.blk }) s

/-- Steps 2 to 7 of Table 10.5, and the loss of what is volatile. DEDUCED, log entry 80. -/
def State.flushCold (s : State) : State := if s.mounted then s.finishPrograms.loseHolders.flush.cold else s.drop48

/-- The durable blocks whose newest data was only near or in a mirror record. DEDUCED, log entry 80. -/
def State.atRisk (s : State) : List Nat :=
  let near := s.store.sacks.cells.flatMap fun c =>
    if c.2.durable then ((List.range 128).filter fun b => c.2.inT1 b).map (· + 128 * c.1) else []
  near ++ (s.store.mirrors.map Mirror.blk).filter fun b => !near.contains b

/-- A brake after the mount: no flush, and the next mount finds no good header (R398, R264). DEDUCED, log entry 81. -/
def State.brakeCold (s : State) : State :=
  if s.mounted then
    let lost := s.atRisk
    let s := s.loseHolders.flush
    let newest := fun (a : FlushArea) => !s.deep.areas.any fun x => decide (a.seq < x.seq)
    let bad := fun (a : FlushArea) => if newest a then { a with recs := [], dirty := lost, headerOk := false } else a
    (s.modDeep fun d => { d with areas := d.areas.map bad }).cold
  else s.drop48

/-- What starts again at power-up, beyond what every module reset resets (the power-up reset domain). A lane
whose laser had failed is tried again (R317). DEDUCED, log entry 79. -/
def State.powerUpReset (s : State) : State :=
  { s with
    result := { s.result with obsCount := 0, coalesced := 0 }
    clock := { s.clock with brakes := 0, lockLoss := 0, perstCount := 0, trips := 0, rstCause := 0 }
    health := { s.health with raises := 0, plans := 0 }
    boot := { s.boot with restarts := 0, refused := 0, cause := 0, reason := 0 }
    port := { s.port with lanes := s.port.lanes.mapAll fun l => { l with laser := false, failed := false } }
    deep := { s.deep with bank := .charging, energy := 0, period := 24 } }

/-- Power loss (R263): the flush on the bank, and the module without rails. Where a hub die has failed nothing runs. DEDUCED, log entry 79. -/
def State.loseMain (s : State) : State :=
  let s := s.flushCold.powerUpReset.modDeep fun d => { d with loss := true }
  { s with clock := { s.clock with rails := false }, phase := if s.phase = .hubFailed then .hubFailed else .waitingP }

/-- Have the rails of Table 17.4, step 7, been enabled (P + 200 µs)? -/
def State.railsOn (s : State) : Bool := s.powered48 && (s.phase != .booting || decide (s.clock.p + 200 * us ≤ s.now))

/-- VIN48 or PWRGD is lost: a power loss, or before step 7 a return to step 5 (R427). A thermal trip or PERST_N that had already
flushed leaves nothing to repeat. -/
def State.loseInput (s : State) : State :=
  if s.railsOn then s.loseMain
  else if s.phase = .booting then { s with phase := .waitingP, clock := { s.clock with rails := false } }
  else s

/-- POWER_LOSS: VIN48 below 40.0 V for 2 µs, or PWRGD deasserted (R263). DEDUCED, log entry 80. -/
def execPowerLoss (t : Nat) (s : State) : Res := .next (s.at_ t).loseInput

end Sys2Proof.Machine
end

