-- ==== Sys2Proof/Machine/Clocks.lean ====
section
/-! DEFINITION. Clock sources, the brake, PLLs, clock gating, and the inputs that power the module up and down (chapters 17 and
18). Crystals: 0 XA, 1 XB. -/
namespace Sys2Proof.Machine

/-! ### The main sequence (Table 17.4) -/

/-- Step 7: every host port, and every peer port in use, leaves DARK. -/
def State.lightPorts (s : State) : State :=
  let t := s.now
  let go := fun (i : Nat) (p : Port) =>
    if ¬ s.health.engines.contains i ∧ (i < 4 ∨ (p.enabled ∧ s.port.node ≠ 0)) then { p with state := .detect, power := .active, since := t } else p
  s.modPorts fun q => { q with ports := q.ports.updAll (List.range 6) go }

/-- Steps 5 to 7 at P. `zero` says that the timestamp counter starts again (R354). -/
def State.mainSequence (s : State) (zero : Bool) : State :=
  let s := s.modClock fun c => { c with p := s.now, rails := true, fault := false, poweredSince := s.now }
  let s := if zero then s.modCxe fun c => { c with tsZero := s.now } else s
  { s with phase := .booting }.lightPorts

/-- P: step 4 is past, PWRGD is asserted and PERST_N deasserted (R403). -/
def State.tryMain (s : State) : State :=
  if s.phase = .waitingP ∧ s.clock.pwrgd ∧ ¬ s.clock.perst ∧ s.clock.vin48 then s.mainSequence true else s

/-- VAUX33_POWER_ON: step 1. Every other output is held as in the brake state, and FAULT_N is asserted. DEDUCED, log entry 79. -/
def execVaux33PowerOn (t : Nat) (s : State) : Res :=
  let s := s.at_ t
  if s.phase ≠ .off then .next (s.modClock fun c => { c with vaux := true, fault := c.fault || s.phase == .hubFailed })
  else
    let s := s.powerUpReset.modClock fun c => { c with
      vaux := true, fault := true, thermtrip := false, xa := .stopped, xb := .stopped, source := 0, lostCore := false,
      inBrake := false, fastDead := false, lostSource := none, lossAt := [], stopped := [] }
    .next { s with phase := .osc }

/-- FAST_OSC_QUALIFIED: step 2. XDLY is sampled and XA started. -/
def execFastOscQualified (t xdly : Nat) (s : State) : Res :=
  let s := s.at_ t
  if s.phase = .osc then
    .next { s.modClock (fun c => { c with xdly := xdly % 8, xa := .starting, xaStart := s.now }) with phase := .qualifying }
  else .next s

/-! ### Crystals (R391 to R395) -/

/-- The start-up delay D (R391). -/
def State.xDelay (s : State) : Nat := 500 * us * 2 ^ s.clock.xdly

def State.crystal (s : State) (c : Nat) : Crystal := if c = 0 then s.clock.xa else s.clock.xb
def State.crystalStart (s : State) (c : Nat) : Nat := if c = 0 then s.clock.xaStart else s.clock.xbStart
def State.setCrystal (s : State) (c : Nat) (x : Crystal) : State :=
  s.modClock fun k => if c = 0 then { k with xa := x } else { k with xb := x }

/-- XB is started when XA has qualified or failed (R392). -/
def State.startXb (s : State) : State :=
  if s.clock.xb = .stopped then s.modClock fun c => { c with xb := .starting, xbStart := s.now } else s

/-- CLOCK_FALLBACK (Table 15.7): the source lost and the source now used. It waits for the boot where no mailbox is served. DEDUCED, log entry 82. -/
def State.fallback (s : State) (lost : Nat) : State :=
  if s.phase = .running then s.post fmSrc 2 (Event.of 24 31 1 [⟨64, 1, lost⟩, ⟨65, 1, s.clock.source⟩])
  else s.modClock fun c => { c with lostSource := some lost }

/-- The brake is released: step 4, or the exit of R395, which is a module reset. DEDUCED, log entry 82. -/
def State.releaseBrake (s : State) : State :=
  let s := if s.clock.inBrake then
      s.modClock fun c => { c with inBrake := false, brakes := bump 16 c.brakes 1, rstCause := 2 }
    else s
  { s.modClock (fun c => { c with fault := false }) with phase := .waitingP }.tryMain

/-- Enter the brake state (R395, R396, R398). -/
def State.brake (s : State) : State :=
  { s.brakeCold.modClock (fun c => { c with fault := true, inBrake := true, rails := false }) with phase := .braked }

/-- Does a crystal drive the PLLs? -/
def State.sourceLive (s : State) : Bool := s.powered48 || s.phase == .waitingP

/-- CRYSTAL_QUALIFIED: D and a 100 µs window have passed since the start (R392). -/
def execCrystalQualified (t crystal : Nat) (s : State) : Res :=
  let s := s.at_ t
  if 2 ≤ crystal ∨ s.crystal crystal ≠ .starting ∨ s.clock.fastDead ∨ s.now < s.crystalStart crystal + s.xDelay + 100 * us then .next s
  else
    let s' := s.setCrystal crystal .qualified
    let s' := if crystal = 0 then s'.startXb else s'
    if s.phase = .qualifying ∨ s.phase = .braked then
      let s' := s'.modClock fun c => { c with source := crystal }
      .next (if s.clock.lostCore then s' else s'.releaseBrake)
    else .next s'

/-- CRYSTAL_QUAL_TIMEOUT: not qualified within 4 × D after its delay (R392). -/
def execCrystalQualTimeout (t crystal : Nat) (s : State) : Res :=
  let s := s.at_ t
  if 2 ≤ crystal ∨ s.crystal crystal ≠ .starting ∨ s.now < s.crystalStart crystal + 5 * s.xDelay then .next s
  else
    let s' := (s.setCrystal crystal .failed).fallback crystal
    .next ((if crystal = 0 then s'.startXb else s').noteVitals s)

/-- CRYSTAL_TRIP: the monitor of a qualified crystal trips (R393 to R395). -/
def execCrystalTrip (t crystal : Nat) (s : State) : Res :=
  let s := s.at_ t
  if 2 ≤ crystal ∨ s.crystal crystal ≠ .qualified then .next s
  else
    let s' := s.setCrystal crystal .failed
    if s.clock.source ≠ crystal ∨ ¬ s.sourceLive then .next ((s'.fallback crystal).noteVitals s)
    else if s.crystal (1 - crystal) = .qualified then
      .next (((s'.modClock fun c => { c with source := 1 - crystal }).fallback crystal).noteVitals s)
    else .next (s'.brake.modClock fun c => { c with lostSource := some crystal })

/-- FAST_OSC_FAIL: the module brakes until VAUX33 is removed (R397). -/
def execFastOscFail (t : Nat) (s : State) : Res :=
  let s := s.at_ t
  if s.phase = .off ∨ s.phase = .hubFailed then .next s
  else .next (s.brake.modClock fun c => { c with fastDead := true })

/-! ### PWRGD, PERST_N, VIN48, VAUX33 (R403, R404, R420 to R427) -/

/-- PWRGD_ASSERT. -/
def execPwrgdAssert (t : Nat) (s : State) : Res :=
  let s := s.at_ t
  if s.clock.pwrgd then .next s else .next (s.modClock fun c => { c with pwrgd := true }).tryMain

/-- PWRGD_DEASSERT: before step 7 back to step 5, later a power loss (R427). -/
def execPwrgdDeassert (t : Nat) (s : State) : Res :=
  .next ((s.at_ t).modClock fun c => { c with pwrgd := false }).loseInput

/-- Does every sensor read below its warning threshold (R417)? -/
def State.cool (s : State) : Bool := allParts.all fun p => decide (s.hottestOf p < warnAt p)

/-- PERST_ASSERT: a level held for less than 100 µs is no reset (R423). While braked it clears both failed marks and starts
qualification again (R395); after a trip it releases THERMTRIP_N (R417); else the module flushes from VIN48 and resets (R348). DEDUCED, log entries 80, 82. -/
def execPerstAssert (t held : Nat) (s : State) : Res :=
  let s := s.at_ t
  if held < 100 * us then .next s
  else
    let s := s.modClock fun c => { c with perst := true }
    if s.phase = .braked then
      if s.clock.fastDead then .next s
      else .next { s.modClock (fun c => { c with xa := .stopped, xb := .stopped, source := 0, lostCore := false }) with phase := .osc }
    else if s.phase = .tripped then
      if s.cool then .next { s.modClock (fun c => { c with thermtrip := false }) with phase := .inReset } else .next s
    else if s.powered48 then
      let s := s.flushCold.modDeep fun d => { d with loss := false }
      .next { s.modClock (fun c => { c with fault := false, rstCause := 1, perstCount := bump 16 c.perstCount 1 }) with phase := .inReset }
    else .next s

/-- PERST_DEASSERT: power-up continues from step 6 (R404), with a new timestamp count after a trip. DEDUCED, log entry 82. -/
def execPerstDeassert (t : Nat) (s : State) : Res :=
  let s := (s.at_ t).modClock fun c => { c with perst := false }
  if s.phase = .inReset then
    if s.clock.pwrgd ∧ s.clock.vin48 then .next (s.mainSequence (s.clock.rstCause == 3))
    else .next { s with phase := .waitingP }
  else .next s.tryMain

/-- VIN48_OVERVOLTAGE: above 57 V for 2 µs the input disconnects, a power loss (R421). DEDUCED, log entry 82. -/
def execVin48Overvoltage (t : Nat) (s : State) : Res :=
  .next ((s.at_ t).modClock fun c => { c with vin48 := false }).loseInput

/-- VIN48_INPUT_RECONNECT: at the next rise of VIN48 from below 40.0 V (R421). DEDUCED, log entry 82. -/
def execVin48InputReconnect (t : Nat) (s : State) : Res :=
  .next ((s.at_ t).modClock fun c => { c with vin48 := true })

/-- VAUX33_LOSS: a power loss where the rails are on; the module is off until VAUX33 rises again (R422). The two outputs are
released (R424). -/
def execVaux33Loss (t : Nat) (s : State) : Res :=
  let s := s.at_ t
  if s.phase = .hubFailed then .next (s.modClock fun c => { c with vaux := false, fault := false, thermtrip := false })
  else
    let s := if s.railsOn then s.loseMain else s
    let s := s.modClock fun c => { c with
      vaux := false, fault := false, thermtrip := false, rails := false, xa := .stopped, xb := .stopped, lostCore := false,
      inBrake := false, fastDead := false }
    .next { s with phase := .off }

/-- THERMAL_TRIP: a sensor at its trip threshold (R417). The sequence of Table 10.5 runs from VIN48, and the rails go off. DEDUCED, log entry 93. -/
def execThermalTrip (t : Nat) (part : Part17) (unit : Nat) (temp : Int) (s : State) : Res :=
  let s := s.at_ t
  if partUnits part ≤ unit ∨ temp < tripAt part ∨ ¬ s.powered48 then .next s
  else
    let s := (s.setTemp part unit temp).flushCold.modDeep fun d => { d with loss := false, bank := .charging }
    .next { s.modClock (fun c => { c with
      thermtrip := true, rails := false, rstCause := 3, trips := bump 16 c.trips 1 }) with phase := .tripped }

/-! ### PLLs (R401). Domains: 0 hub, 1 miller, 2 deep tier, 3 stones of a die, 4 near tier of a die, 5 an optical engine -/

/-- UNIT_FAILED for a unit that Table 12.6 gives no UTYPE: the code is an open value. DESIGN CHOICE, log entry 85. -/
def State.failedOther (s : State) (unit : Nat) : State :=
  let v := s.free
  v.2.unitFailed (v.1 % 256) unit

/-- A stone die fails (Table 1.8): its 48 stones, its three stacks and its quarter of T0, with an event that names it (R21, R22). -/
def State.dieDown (s : State) (d : Nat) : State :=
  if s.health.deadDies.contains d then s
  else
    let s := s.failedOther d
    let s := s.modHealth fun h => { h with deadDies := h.deadDies ++ [d] }
    let s := s.modStore fun st => { st with t0 := st.t0.filter fun c => c.die ≠ d }
    let s := (dieStones d).foldl State.stoneFails s
    (((dieStacks d).foldl State.stackFails s).modClock fun c => { c with stopped := c.stopped.filter fun x => x.2 ≠ d }).caps

/-- Every lane of a port fails at once: the port goes down (R316, R401). DEDUCED, log entry 78. -/
def State.lanesDown (s : State) (port : Nat) : State :=
  let s := s.modPorts fun q => { q with lanes := q.lanes.updAll ((List.range 8).map (· + 8 * port)) fun _ l => { l with failed := true } }
  let p := s.portAt port
  if p.state = .active ∨ p.state = .reconfig then
    let s := s.modPort port fun p => { p with narrow := bump 16 p.narrow 1 }
    let s := (fmSrc :: (portLds port).filter s.ldOn).foldl (fun s m => s.post m 1 (widthEvent port (p.group.headD 0) 0)) s
    s.portDown port
  else s

/-- The pieces running on a die run again elsewhere (R25, R401). DEDUCED, log entry 78. -/
def State.rerunDie (s : State) (d : Nat) : State :=
  ((dieStones d).filter fun k => (s.stoneAt k).running.isSome).foldl State.rerun s

/-- PLL_LOCK_LOSS. DEDUCED, log entry 78. -/
def execPllLockLoss (t domain unit : Nat) (s : State) : Res :=
  let s := s.at_ t
  if ¬ (s.phase = .booting ∨ s.phase = .running ∨ s.phase = .recovery) ∨ 6 ≤ domain ∨ ((domain = 3 ∨ domain = 4) ∧ 4 ≤ unit)
      ∨ (domain = 5 ∧ 6 ≤ unit) then .next s
  else
    let s0 := s
    let s := s.modClock fun c => { c with lockLoss := bump 16 c.lockLoss 1 }
    if domain < 3 then .next (s.brake.modClock fun c => { c with lostCore := true })
    else if domain = 5 then .next ((s.lanesDown unit).noteVitals s0)
    else
      let recent := (unit, s.now) :: s.clock.lossAt.filter fun x => s.now < x.2 + sec
      let s := s.modClock fun c => { c with lossAt := recent, stopped := (domain, unit) :: c.stopped.filter (· ≠ (domain, unit)) }
      let s := s.rerunDie unit
      .next (if 3 ≤ (recent.filter fun x => x.1 = unit).length then (s.dieDown unit).noteVitals s0 else s)

/-- PLL_RELOCK: the domain restarts; a core PLL's brake ends, if a crystal drives the PLLs. DEDUCED, log entry 78. -/
def execPllRelock (t domain unit : Nat) (s : State) : Res :=
  let s := s.at_ t
  if domain < 3 then
    if s.phase = .braked ∧ s.clock.lostCore then
      let s := s.modClock fun c => { c with lostCore := false }
      .next (if s.crystal s.clock.source = .qualified ∧ ¬ s.clock.fastDead then s.releaseBrake else s)
    else .next s
  else
    let s := s.modClock fun c => { c with stopped := c.stopped.filter (· ≠ (domain, unit)) }
    .next (s.placeWaiting.retryReads fun r => r.why == .tierMove)

/-! ### Clock gating (R402, Table 17.5). Kinds: 0 stone, 1 hub encoder or decoder, 2 migration channel, 3 digest engine, 4 deep-tier
channel controller, 5 optical lane -/

/-- May a block be gated? DESIGN CHOICE, log entry 86. -/
def State.mayGate (s : State) (kind unit : Nat) : Bool :=
  match kind with
  | 0 => unit < 192 && (match (s.stoneAt unit).state with
    | .online => (s.stoneAt unit).queue.isEmpty && (s.stoneAt unit).running.isNone
    | .offline | .failed => true
    | _ => false)
  | 1 => unit < 8
  | 2 => unit < 128
  | 3 | 4 => unit < 64
  | 5 => unit < 48 && !(s.portAt (unit / 8)).group.contains (unit % 8)
  | _ => false

/-- Does the block's port report idle: is no transfer in progress? DESIGN CHOICE, log entry 86. -/
def State.blockIdle (s : State) (kind unit : Nat) : Bool :=
  match kind with
  | 1 => !(s.store.merges.any fun m => m.passed)
  | 2 => !(s.store.xfers.any fun x => x.chan == some unit)
  | 3 => !(s.result.ranges.any fun r => r.running)
  | _ => true

/-- CLOCK_GATE_REQUEST: an idle block reports idle and is gated; one with a transfer in progress is asked. DESIGN CHOICE, log entry 86. -/
def execClockGateRequest (t kind unit : Nat) (s : State) : Res :=
  let s := s.at_ t
  if ¬ s.up ∨ ¬ s.mayGate kind unit ∨ s.clock.gated.contains (kind, unit) then .next s
  else
    let rest := s.clock.asked.filter fun x => ¬ (x.1 = kind ∧ x.2.1 = unit)
    if s.blockIdle kind unit then .next (s.modClock fun c => { c with asked := rest, gated := c.gated ++ [(kind, unit)] })
    else .next (s.modClock fun c => { c with asked := rest ++ [(kind, unit, s.now)] })

/-- GATE_HANDSHAKE_TIMEOUT: no idle report within 4,096 hub cycles, 2,276 ns; the request is dropped and counted. -/
def execGateHandshakeTimeout (t kind unit : Nat) (s : State) : Res :=
  let s := s.at_ t
  if s.clock.asked.any fun x => x.1 == kind && x.2.1 == unit && decide (x.2.2 + 2276 ≤ s.now) then
    .next (s.modClock fun c => { c with
      asked := c.asked.filter (fun x => ¬ (x.1 = kind ∧ x.2.1 = unit)), gateMiss := bump 32 c.gateMiss 1 })
  else .next s

/-- CLOCK_GATE_WAKE. -/
def execClockGateWake (t kind unit : Nat) (s : State) : Res :=
  .next ((s.at_ t).modClock fun c => { c with gated := c.gated.filter (· ≠ (kind, unit)) })

/-! ### Registers -/

/-- CLK_SRC: XA 0 starting, 1 qualified, 2 failed; XB 0 stopped, 1 starting, 2 qualified, 3 failed. -/
def State.clkWord (s : State) : Nat :=
  let xa := match s.clock.xa with | .qualified => 1 | .failed => 2 | _ => 0
  let xb := match s.clock.xb with | .stopped => 0 | .starting => 1 | .qualified => 2 | .failed => 3
  s.clock.source + s.clock.xdly * 4 + xa * 2 ^ 5 + xb * 2 ^ 7 + s.clock.brakes * 2 ^ 16 + s.clock.lockLoss * 2 ^ 32

/-- CLK_GATE_MISS and RST_CAUSE. -/
def State.gateWord (s : State) : Nat := s.clock.gateMiss + (s.clock.gated.filter fun x => s.mayGate x.1 x.2).length * 2 ^ 32
def State.resetWord (s : State) : Nat := s.clock.rstCause + s.clock.perstCount * 2 ^ 16 + s.clock.trips * 2 ^ 32

end Sys2Proof.Machine
end

