-- ==== Sys2Proof/Machine/Mount.lean ====
section
/-! DEFINITION. Firmware selection, the mount and the boot stages (Tables 10.4 and 16.2, R372 to R376, R388, R389), with the
watchdog, the fetch fault and the commit of a trial image. -/
namespace Sys2Proof.Machine

/-! ### Which image boots (R374 to R376) -/

/-- Does the ROM accept the image of a slot (R374)? -/
def State.slotGood (s : State) (i : Nat) : Bool := (s.slotOf i).good && decide (s.boot.fusemin ≤ (s.slotOf i).svn)

/-- A FIRMWARE record and event: the version of an image, and whether it is refused or abandoned. -/
def State.fwRecord (s : State) (slot : Nat) (refused : Bool) : State :=
  let v := (s.slotOf slot).fwver
  s.ledger (LedgerRec.of 15 0 0 31 (v + b2n refused * 2 ^ 32)) [⟨fmSrc, 0, Event.of 25 31 1 [⟨64, 4, v⟩, ⟨68, 1, b2n refused⟩]⟩]

/-- Step 1 and 2 of Table 16.2: the slot that boots, or none. A trial still running is abandoned; one that is set is tried once, at
a full boot. DEDUCED, log entry 83. -/
def State.choose (s : State) (full : Bool) : Option Nat × State :=
  let s := if s.boot.trial then s.fwRecord s.boot.running true else s
  let trial := if full then s.boot.trialSet else none
  let first := trial.getD s.boot.active
  let s := s.modBoot fun b => { b with trial := false, fallback := false, recovery := false,
                                       trialSet := if full then none else b.trialSet }
  if s.slotGood first then (some first, s.modBoot fun b => { b with trial := trial.isSome })
  else
    let s := match trial with | some i => s.fwRecord i true | none => s
    let other := 1 - first
    if s.slotGood other then (some other, s.modBoot fun b => { b with fallback := true }) else (none, s)

/-! ### Keys and debug (R388, R389) -/

/-- Every extent of an LD is to be discarded. -/
def State.condemn (s : State) (p : Extent → Bool) : State :=
  let leave := fun (e : Extent) => if p e then { e with state := .discarding } else e
  { s with ext := { s.ext with exts := s.ext.exts.map leave } }

/-- Keys made while debug was open are zeroised, and the extents of their LDs discarded (R388). -/
def State.endDebugKeys (s : State) : State :=
  let ks := s.boot.debugKeys
  let s := ks.foldl (fun s ld => (s.setKey ld none).endKey ld) s
  (s.condemn fun e => ks.contains e.owner).modBoot fun b => { b with debugKeys := [] }

/-- A key store found erased (R389). -/
def State.endWiped (s : State) : State :=
  if s.boot.wiped then
    let s := allLds.foldl (fun s ld => (s.setKey ld none).endKey ld) s
    let s := (s.condemn fun _ => true).ledger (LedgerRec.of 16 0 0 31 (2 ^ 96))
    s.modBoot fun b => { b with wiped := false }
  else s

/-! ### Training and retirement (steps 4 and 5 of Table 16.2) -/

/-- Every stack is trained at its sensor's temperature; one that fails at any point is FAILED (R239). DESIGN CHOICE, log entry 85. -/
def State.trainAll (s : State) (trained : List Bool) : State :=
  (List.range 12).foldl (fun s k =>
    let temp := s.tempOf .stack k
    let x : Stack := {
      lastUse := s.now, trainTemp := { dflt := temp }, trainAt := { dflt := s.now }, hot := decide (85 ≤ temp)
      sets := { dflt := s.freeCtr } }
    let s := { s with freeCtr := s.freeCtr + 1 }
    if trained.getD k true then s.modStack k fun _ => x
    else (s.modStack k fun _ => { x with state := .failed }).unitFailed 3 k) s

/-- The retirement list is applied (R283). -/
def State.applyRetires (s : State) : State :=
  s.integ.retires.foldl (fun s r =>
    match r.kind with
    | 0 => s.retireFrames (locStack r.loc) (s.rowFrames r.loc)
    | 1 => s.modStack (locStack r.loc) fun x => { x with retiredBank := some (locBank r.loc) }
    | 2 => s.modStack (locStack r.loc) fun x => { x with state := .failed }
    | _ => s) s

/-- Step 3 of Table 16.2: the key store key is derived. -/
def State.deriveKey (s : State) : State := s.modBoot fun b => { b with storeKey := some Config.keyStoreKey }

/-- Step 3 of Table 16.2 in a full boot: boot code writes the BW fields, the bank hash masks from the image that runs (R4, R231). A fault
restart never changes them, since the near tier holds data (R375). DESIGN CHOICE, log entry 95. -/
def State.writeBw (s : State) (slot : Nat) : State :=
  s.modNear fun n => { n with bankhash := (List.range 9).map (Config.bankMask (s.slotOf slot).image) }

/-! ### The mount (Table 10.4) -/

/-- The newest flush area not merged. -/
def State.lastArea (s : State) : Option FlushArea :=
  (s.deep.areas.filter fun a => !a.merged).foldl (fun b a =>
    match b with
    | none => some a
    | some c => if c.seq < a.seq then some a else b) none

/-- A saved record becomes a mirror record again, and its lines over the T2 payload go through the encoder (R88, R90). DEDUCED, log entry 84. -/
def State.restoreRec (s : State) (m : Mirror) : State :=
  match s.extOfSack (m.blk / 128) with
  | none => s
  | some e =>
    match s.mirrorData e m with
    | none => s.lose e m.blk 0 0 2
    | some d =>
      let lines := (List.range 8).filter fun l => m.lines.getLsbD l
      let s := s.mergeWhole e.owner e m.blk d
      lines.foldl (fun s l => (s.mirrorLine e m.blk l (lineBytes m.data l)).getD s) s

/-- Step 4: restore the records; after a bad header, poison the durable blocks that were dirty and have none (R264). DEDUCED, log entry 84. -/
def State.restoreArea (s : State) (a : FlushArea) : State :=
  let s := a.recs.foldl State.restoreRec s
  let lost := if a.headerOk then [] else a.dirty.filter fun b => !(a.recs.any fun m => m.blk == b)
  let s := lost.foldl (fun s b => match s.extOfSack (b / 128) with | some e => s.lose e b 0 0 2 | none => s) s
  s.modDeep fun d => { d with
    records := a.recs.length, partialRestore := !a.headerOk, dirtyShutdowns := bump 32 d.dirtyShutdowns (b2n (!a.headerOk)) }

/-- Step 5: the sacks of volatile extents are emptied, and discards are completed (R47). -/
def State.emptyVolatile (s : State) : State :=
  let s := (s.ext.exts.filter fun e => !e.isAlias && !Prof.gate e.profile && !Prof.durable e.profile).foldl
    (fun s e => s.discardSacks (s.firstSack e) e.sacks) s
  let going := s.ext.exts.filter fun e => e.state = .releasing ∨ e.state = .withdrawing ∨ e.state = .discarding
  going.foldl (fun s e => if s.ext.exts.any (·.eid == e.eid) then ((s.aliasesOf e).foldl State.discard s).discard e else s) s

/-- Step 6: bins in volatile granary extents are dropped (R202); the others that are to be near are asked for (R205). -/
def State.keepBins (s : State) : State :=
  let durable := fun (b : Bin) => match s.extById b.eid with | some e => Prof.durable e.profile | none => false
  let s := s.modGate fun g => { g with bins := g.bins.filter durable }
  (s.gate.bins.map Bin.id).foldl State.fixNear s

/-- The whole mount; the 1 s of a staged set runs from its end. How long it takes is an open value of at most 550 ms. DEDUCED, log entries 81, 84. -/
def State.mount (s : State) : State :=
  let s := s.modDeep fun d => { d with records := 0, partialRestore := false }
  let s := match s.lastArea with | some a => s.restoreArea a | none => s
  let s := s.emptyVolatile.keepBins
  let s := s.modStore fun st => { st with sets := st.sets.mapAll fun t => { t with lastStaged := s.now } }
  let v := s.free
  v.2.modDeep fun d => { d with
    areas := d.areas.map fun a => { a with merged := true, recs := [], dirty := [] }
    blocks := d.blocks.updAll d.blocks.keys fun _ b => { b with patrolled := s.now }
    mountMs := v.1 % 551, journalSince := 0, checkpoint := d.checkpoint + 1, creditAt := s.now, lastTest := s.now }

/-! ### The boot stages -/

/-- Step 8: the mailboxes report ready and Memory_Active is set. -/
def State.ready (s : State) (cause bootAt : Nat) : State :=
  let s := s.modBoot fun b => { b with
    cause := cause, bootAt := bootAt, mountedAt := s.now, serviced := s.now, bootMs := min 65535 ((s.now - bootAt) / ms) }
  let s := { s with phase := .running, millerReady := true }
  match s.clock.lostSource with
  | some lost => (s.fallback lost).modClock fun c => { c with lostSource := none }
  | none => s

/-- ROM recovery (R376). DEDUCED, log entry 83. -/
def State.recover (s : State) (cause bootAt : Nat) : State :=
  let s := s.modBoot fun b => { b with recovery := true, cause := cause, bootAt := bootAt, bootMs := min 65535 ((s.now - bootAt) / ms) }
  { s.modClock (fun c => { c with fault := true }) with phase := .recovery, millerReady := true }

/-- The module key is generated at the first power-up (Table 16.7). -/
def State.firstKey (s : State) : State :=
  if s.boot.moduleKey.isSome then s
  else
    let (key, s) := s.newKey
    s.modBoot fun b => { b with moduleKey := some key }

/-- A boot from power-up or fundamental reset, in full. DEDUCED, log entry 83. -/
def State.fullBoot (s : State) (cause bootAt : Nat) (trained : List Bool) : State :=
  match s.choose true with
  | (none, s) => s.recover cause bootAt
  | (some slot, s) =>
    let s := ((s.modBoot fun b => { b with running := slot }).deriveKey.writeBw slot).firstKey
    let s := (s.endDebugKeys.endWiped.trainAll trained).applyRetires
    let t := s.now
    let s := s.modInteg fun i => { i with passStart := t, sramStart := t }
    let s := s.modWeir fun w => { w with windowStart := t }
    (s.mount.applyStaged.ready cause bootAt).caps

/-- A restart caused by a fault: the steps marked full only are skipped (R372). DEDUCED, log entry 83. -/
def State.faultBoot (s : State) (cause : Nat) : State :=
  let bootAt := s.boot.bootAt
  match s.choose false with
  | (none, s) => s.recover cause bootAt
  | (some slot, s) => (s.modBoot fun b => { b with running := slot }).deriveKey.applyStaged.ready cause bootAt

/-- The cause that MLR_BOOT gives a full boot: 1 after PERST_N, else 0. -/
def State.fullCause (s : State) : Nat := if s.clock.rstCause = 1 then 1 else 0

/-- MILLER_BOOT: from the release of the miller's reset at P + 1 ms, or after a fault restart. DEDUCED, log entry 83. -/
def execMillerBoot (t cause : Nat) (trained : List Bool) (s : State) : Res :=
  let s := s.at_ t
  if s.phase = .booting then
    if cause = s.fullCause ∧ s.clock.p + ms ≤ s.now then .next ((s.fullBoot cause (s.clock.p + ms) trained).noteVitals s) else .next s
  else if s.phase = .running ∧ ¬ s.millerReady ∧ cause = s.boot.cause ∧ 2 ≤ cause then .next (s.faultBoot cause)
  else .next s

/-- The miller restarts for a fault: commands that were running end with Internal Error, open images, snapshots and the debug
nonce are gone, and the mailboxes are not ready (R358, R386, Table 11.5). DEDUCED, log entry 83. -/
def State.millerFault (s : State) (cause : Nat) : State :=
  let s := s.mbox.jobs.foldl (fun s j => s.endJob j.1 .internalError 0) s
  let s := s.modBoot fun b => { b with nonce := none, cause := cause, restarts := bump 16 b.restarts 1, bootAt := s.now }
  { s with millerReady := false, mbox := { s.mbox with images := [], snaps := [] } }

/-- MILLER_WATCHDOG: 1 s after the firmware last serviced it. -/
def execMillerWatchdog (t : Nat) (s : State) : Res :=
  let s := s.at_ t
  if s.up ∧ s.millerReady ∧ s.boot.serviced + sec ≤ s.now then .next (s.millerFault 3) else .next s

/-- MILLER_FETCH_FAULT: an uncorrectable fetch (Table 11.5). -/
def execMillerFetchFault (t : Nat) (s : State) : Res :=
  let s := s.at_ t
  if s.up ∧ s.millerReady then .next ((s.ueLog 2 0 1 2 31 0).millerFault 2) else .next s

/-- FIRMWARE_TRIAL_COMMIT: a trial that has mounted and run for 10 minutes is ACTIVE, and fuses are blown to its SVN (R375). -/
def execFirmwareTrialCommit (t : Nat) (s : State) : Res :=
  let s := s.at_ t
  if s.up ∧ s.millerReady ∧ s.boot.trial ∧ s.boot.mountedAt + 600 * sec ≤ s.now then
    let slot := s.boot.running
    let s := s.modBoot fun b => { b with active := slot, trial := false, fusemin := max b.fusemin (min 64 (s.slotOf slot).svn) }
    .next (s.fwRecord slot false)
  else .next s

/-- MLR_BOOT. -/
def State.bootWord (s : State) : Nat :=
  s.boot.running + 2 * b2n s.boot.trial + 4 * b2n s.boot.recovery + 8 * b2n s.boot.fallback + (s.slotOf s.boot.running).svn * 2 ^ 4
    + s.boot.fusemin * 2 ^ 11 + s.boot.cause * 2 ^ 18 + s.boot.restarts * 2 ^ 32 + s.boot.bootMs * 2 ^ 48

/-- MLR_PSTAT. -/
def State.pstatWord (s : State) : Nat :=
  s.boot.fmport + 4 * b2n s.boot.authKey.isSome + s.boot.stageState * 8 + s.boot.reason * 2 ^ 5

end Sys2Proof.Machine
end

