-- ==== Sys2Proof/Machine/Failures.lean ====
section
/-! DEFINITION. UNIT_FAILURE: what the failure of each unit of Table 1.8 costs (R21 to R27). -/
namespace Sys2Proof.Machine

/-- An optical engine fails: its port goes down and stays DARK. DESIGN CHOICE, log entry 85. -/
def State.engineDown (s : State) (port : Nat) : State :=
  if 6 ≤ port ∨ s.health.engines.contains port then s
  else
    let s := (s.lanesDown port).failedOther port
    let s := s.modHealth fun h => { h with engines := h.engines ++ [port] }
    (s.modPort port fun p => { p with state := .dark, power := .dark, group := [] }).caps

/-- A ring hop fails: traffic takes the other direction or the hub leats. DESIGN CHOICE, log entry 85. -/
def State.hopDown (s : State) (n : Nat) : State :=
  if s.health.hops.contains n then s else (s.failedOther n).modHealth fun h => { h with hops := h.hops ++ [n] }

/-- The failure of one unit. A hub leat costs what its stone die does; a package is one die of each parity group. DESIGN CHOICE, log entry 85. -/
def State.failUnit (s : State) (u : FailUnit) : State :=
  match u with
  | .stone n => if n < 192 then s.stoneFails n else s
  | .stack n => if n < 12 then s.stackFails n else s
  | .ringHop n => if n < 4 then s.hopDown n else s
  | .hubLeat die | .stoneDie die => if die < 4 then s.dieDown die else s
  | .lane port lane => if port < 6 ∧ lane < 8 then s.failLane port lane else s
  | .engine port => s.engineDown port
  | .flashDie n => s.dieFails n
  | .package k => if k < 16 then ((List.range 16).map (· + 16 * k)).foldl State.dieFails s else s

/-- UNIT_FAILURE. -/
def execUnitFailure (t : Nat) (u : FailUnit) (s : State) : Res :=
  let s := s.at_ t
  if s.up then .next ((s.failUnit u).caps.noteVitals s) else .next s

end Sys2Proof.Machine
end

