-- ==== Sys2Proof/Machine/Registers.lean ====
section
/-! DEFINITION. The BAR2 pages (R4, R370, R371, Tables 15.8 and 15.9): what each register reads as, and REGISTER_WRITE. Pages of a
`RegAccess`: 0 to 15 the LD pages, 16 the FM page, 32 + n the BAR0 of function n and 64 + n its configuration space, where the
registers of Table 14.6 and the enables of chapter 14 stand at the places that PCIe and CXL give them (PRESUMED, log entry 14). -/
namespace Sys2Proof.Machine

/-- A word from its fields, each at its lowest bit. -/
def pack (fs : List (Nat × Nat)) : Nat := fs.foldl (fun a f => a + f.2 * 2 ^ f.1) 0

def sumNat (xs : List Nat) : Nat := xs.foldl (· + ·) 0

/-! ### What the registers of an LD page read as -/

def State.mrcOf (s : State) (ld : Nat) : MrcLd := s.store.mrc.get ld

/-- EXT_COUNT: ACTIVE with aliases, LEAVING, PENDING. -/
def State.extCountWord (s : State) (ld : Nat) : Nat :=
  let es := s.ext.exts.filter fun e => e.ld = ld
  let n := fun (p : ExtState → Bool) => (es.filter fun e => p e.state).length
  pack [(0, n (· == .active)), (16, n fun x => x == .releasing || x == .withdrawing || x == .discarding), (32, n (· == .pending))]

/-- EXT_USED: payload and spillway of the extents that the LD owns. -/
def State.usedWord (s : State) (ld : Nat) : Nat := sumNat ((s.ext.exts.filter fun e => e.owner = ld ∧ ¬ e.isAlias).map s.usedBytes)

/-- The sacks of an LD's ownership in T1. -/
def State.nearOf (s : State) (ld : Nat) : List Nat := s.nearSacks.filter fun k => (s.sack k).ldtag == ld

/-- MRC_NEAR. -/
def State.nearWord (s : State) (ld : Nat) : Nat :=
  pack [(0, sumNat ((s.nearOf ld).map fun k => ((s.sack k).size + 1) * 8192) / MiB), (32, s.specBytes ld / MiB)]

/-- MRC_DIRTY. -/
def State.dirtyWord (s : State) (ld : Nat) : Nat :=
  pack [(0, sumNat ((s.store.sacks.keys.filter fun k => (s.sack k).ldtag == ld).map fun k => popc 128 (s.sack k).dirty.toNat)),
    (32, (s.store.mirrors.filter fun m => (s.sack (m.blk / 128)).ldtag == ld).length)]

/-- Unused slot bytes of a CODED lossless block (R125). -/
def State.blkSlack (s : State) (e : Extent) (blk : Nat) : Nat :=
  let b := s.curBlk blk
  if b.side.kind = kCoded then
    match s.decode e.profile b with
    | some d => slotBytes (Prof.slot e.profile) - (losslessEncode d).1.length
    | none => 0
  else 0

/-- BLT_SLACK. -/
def State.slackWord (s : State) (ld : Nat) : Nat :=
  sumNat ((s.ext.exts.filter fun e => e.owner = ld ∧ ¬ e.isAlias ∧ ¬ Prof.gate e.profile ∧ ¬ Prof.lossy e.profile).flatMap fun e =>
    (s.blksOfExt e).map (s.blkSlack e))

/-- BLT_STAGE. -/
def State.stageWord (s : State) (ld : Nat) : Nat :=
  pack [(0, sumNat ((s.ext.exts.filter fun e => e.owner = ld ∧ ¬ e.isAlias).map fun e => (s.stagedIn e).length)), (32, (s.mrcOf ld).held)]

/-- STN_DRESS. -/
def State.dressWord (s : State) (ld : Nat) : Nat :=
  let ds := s.stone.lib.filter fun d => d.2.party = s.party ld
  pack [(0, ds.length), (10, (s.stone.keys.filter fun k => k.party = s.party ld).length),
    (32, sumNat (ds.map fun d => hdrCode d.2.container) / 1024)]

/-- GT_SLOTS and GT_MOD: armed and busy slots among some buffers. -/
def State.armedIn (s : State) (bs : List Nat) : Nat := (bs.filter fun b => (s.slot b).state != .unarmed).length
def State.busyIn (s : State) (bs : List Nat) : Nat := (bs.filter fun b => (s.slot b).state.busy).length
def State.slotsWord (s : State) (ld : Nat) : Nat :=
  pack [(0, s.armedIn (ldBufs ld)), (8, s.busyIn (ldBufs ld)), (16, (s.gate.reads.filter fun r => r.ld = ld).length)]

/-- GRN_BINS. -/
def State.binsWord (s : State) (ld : Nat) : Nat :=
  let bs := s.visibleBins ld
  pack [(0, bs.length), (32, (bs.filter fun b => 0 < b.attach).length)]

/-- The queries that a slot's GRAPH_SEARCH walks (Table 8.3). -/
def State.walksOf (s : State) (b : Nat) : Nat :=
  match (s.slot b).op with
  | some o => if o.cls = 1 then leAt o.params 0 2 else 0
  | none => 0

/-- STM_LD. DEDUCED, log entry 30. -/
def State.streamWord (s : State) (ld : Nat) : Nat :=
  pack [(0, (s.gate.seqs.filter fun q => q.ld = ld).length), (16, (s.fetchStreams.filter fun f => f.1 / 16 = ld).length),
    (35, sumNat ((ldBufs ld).map s.walksOf))]

/-- The wheel lines: WHL_BEACON reads zero. -/
def State.wheelWord (s : State) (w k : Nat) : Nat := if k = 0 then 0 else (s.wheel w).words.getD (k - 1) 0

/-- The word at a multiple of 8 of an LD page (Table 15.8); an offset that no register covers reads zero (R370). -/
def State.ldPageWord (s : State) (ld off : Nat) : Nat :=
  let k := off % 0x400 / 8
  let m := s.mrcOf ld
  let l := s.cxe.lds.get ld
  let st := s.stone.lds.get ld
  let g := s.gate.lds.get ld
  let ri := s.result.lds.get ld
  match off / 0x400, k with
  | 0x0, 0 => l.nodec
  | 0x0, 1 => l.biWord
  | 0x0, 2 => s.dmaWord ld
  | 0x0, 3 => l.resetWord
  | 0x1, 0 => (s.ext.parts.get ld).quota * GiB
  | 0x1, 1 => s.reserved ld
  | 0x1, 2 => s.usedWord ld
  | 0x1, 3 => s.extCountWord ld
  | 0x1, 4 => pack [(0, (s.ext.drops.get ld).wrDrop), (32, (s.ext.drops.get ld).rdPoison)]
  | 0x2, 6 => pack [(0, m.evictNoop), (32, m.refetch)]
  | 0x2, 7 => pack [(0, m.specIssued), (32, m.specConfirmed)]
  | 0x2, 8 => pack [(0, m.undone), (32, m.skipped)]
  | 0x2, 9 => m.allow
  | 0x2, 10 => s.nearWord ld
  | 0x2, 11 => s.dirtyWord ld
  | 0x2, k => if k < 6 then pack [(0, m.stallCount.get k), (32, m.stallTime.get k)] else 0
  | 0x3, 0 => pack [(0, m.escapes), (32, m.precision)]
  | 0x3, 1 => s.slackWord ld
  | 0x3, 2 => pack [(0, m.overflow), (32, m.compact), (48, m.convert)]
  | 0x3, 3 => s.stageWord ld
  | 0x3, 4 => m.sideMiss
  | 0x4, 0 => pack [(0, st.reason), (16, st.refused)]
  | 0x4, 1 => st.cycles
  | 0x4, 2 => pack [(0, st.preempt), (32, st.fault), (48, st.poisoned)]
  | 0x4, 3 => s.dressWord ld
  | 0x5, 0 => pack [(0, g.accepted), (32, g.failed)]
  | 0x5, 1 => pack [(0, g.badgo), (16, g.busygo), (32, g.unarmed), (48, g.reswr)]
  | 0x5, 2 => pack [(0, g.held), (32, g.expired), (48, g.full)]
  | 0x5, 3 => s.slotsWord ld
  | 0x6, 0 => s.binsWord ld
  | 0x6, 1 => pack [(0, g.hits), (32, g.misses)]
  | 0x6, 2 => pack [(0, g.evicted), (32, g.gfull)]
  | 0x7, 0 => s.streamWord ld
  | 0x8, 8 => pack [(0, (s.weir.miss.get ld).misses), (32, (s.weir.miss.get ld).rmask)]
  | 0x8, k => if k < 8 then (s.guar ld k).word else 0
  | 0x9, 0 => (s.integ.lds.get ld).poisonWord
  | 0x9, 1 => (s.integ.lds.get ld).flip.word64
  | 0xA, 0 => ri.check
  | 0xA, 1 => ri.replay
  | 0xA, 2 => ri.early
  | 0xA, 3 => ri.recv
  | 0xA, 4 => s.digestWord ld
  | 0xB, 0 => (s.port.lds.get ld).word
  | 0xC, 0 => s.ldStat ld + s.mbox.cmdFail.get ld * 2 ^ 32
  | 0x10, k => s.wheelWord (16 * ld + k / 8) (k % 8)
  | _, _ => 0

/-! ### What the registers of the FM page read as -/

/-- STN_ONLINE[j]. -/
def State.onlineWord (s : State) (j : Nat) : Nat := bitMap 64 fun i => (s.stoneAt (64 * j + i)).state == .online

/-- STN_COUNT. -/
def State.stoneCountWord (s : State) : Nat :=
  let n := fun (p : StoneState → Bool) => (allStones.filter fun k => p (s.stoneAt k).state).length
  pack [(0, n (· == .online)), (8, n fun x => x == .clearing || x == .draining || x == .test), (16, n (· == .offline)),
    (24, n (· == .failed))]

def Wdog.word (w : Wdog) : Nat := pack [(0, w.stone), (8, w.handle), (18, b2n w.limit), (19, b2n w.valid), (32, w.count)]

def allBufs : List Nat := List.range 2048

/-- STM_USE[k]: entries held and the kind's part (Table 8.3). -/
def State.useWord (s : State) (k : Nat) : Nat :=
  match k with
  | 0 => pack [(0, s.gate.seqs.length), (20, 262144)]
  | 1 => pack [(0, s.fetchStreams.length), (20, 262144)]
  | 2 => pack [(0, sumNat (allBufs.map s.walksOf)), (20, 131072)]
  | _ => pack [(0, min s.store.xfers.length 393216), (20, 393216)]

/-- Entries pinned (R210): walks of running pieces, transfers on a channel, sequences with an operation under way. -/
def State.pinned (s : State) : Nat :=
  let walks := sumNat (allStones.map fun k =>
    match (s.stoneAt k).running with
    | some p => match (s.slot p.buf).op with
      | some o => if o.cls = 1 then min (leAt o.params 2 2) (leAt o.params 0 2 - p.idx * leAt o.params 2 2) else 0
      | none => 0
    | none => 0)
  let seqs := s.gate.seqs.filter fun q => (ldBufs q.ld).any fun b =>
    (s.slot b).state.busy && (match (s.slot b).op with | some o => o.cls == 0 && o.obj == q.id | none => false)
  walks + (s.store.xfers.filter fun x => x.chan.isSome).length + seqs.length

/-- WR_WINDOW. -/
def State.windowWord (s : State) : Nat := pack [(0, s.weir.mode), (2, s.weir.wheel), (16, s.weir.span)]

/-- BLT_RECODE. -/
def State.recodeWord (s : State) : Nat :=
  let rs := (s.store.sets.keys.filter fun k => (s.setAt k).state == .recoding)
  pack [(0, sumNat (rs.map fun k => (s.recodeBlocks k).length)), (40, rs.length)]

/-- The word at a multiple of 8 of the FM page (Table 15.9, R371). -/
def State.fmPageWord (s : State) (off : Nat) : Nat :=
  let k := off % 0x400 / 8
  if 0x8000 ≤ off ∧ off < 0xC000 then s.wheelWord ((off - 0x8000) / 64) (off % 64 / 8)
  else match off / 0x400, k with
  | 0x0, 8 => s.snoopWord
  | 0x0, k => if k < 4 then s.cxePortWord k else 0
  | 0x2, 0 => pack [(0, s.store.mirrors.length), (25, b2n s.wt), (32, s.store.fullWait)]
  | 0x2, 1 => s.store.chalt + 2 ^ 11 * b2n s.store.chaltValid
  | 0x2, 2 => s.store.chcnt
  | 0x2, 3 => pack [(0, s.store.offDie), (32, s.store.noFrame)]
  | 0x3, 0 => s.recodeWord
  | 0x3, 1 => pack [(0, s.cacheUsed), (32, s.store.cacheReplaced)]
  | 0x4, 3 => s.stoneCountWord
  | 0x4, 4 => pack [(0, s.stone.offDie), (32, s.stone.clears)]
  | 0x4, 5 => pack [(0, s.libCount), (32, s.libBytes / 1024)]
  | 0x4, 6 => s.stone.wdog.word
  | 0x4, k => if k < 3 then s.onlineWord k else 0
  | 0x5, 0 => pack [(0, s.armedIn allBufs), (12, s.busyIn allBufs)]
  | 0x6, 0 => pack [(0, s.gate.bins.length), (32, s.gate.evicted)]
  | 0x7, 4 => pack [(0, s.weir.streamMiss), (32, s.pinned)]
  | 0x7, k => if k < 4 then s.useWord k else 0
  | 0x8, k =>
    if k < 8 then s.clsWord k else if k < 16 then s.shortWord (k - 8) else if k < 80 then s.latWord (k - 16)
    else if k = 80 then s.windowWord else 0
  | 0x9, 0 => s.freqWord
  | 0x9, 13 => s.near.nref
  | 0x9, 14 => s.ntConfig
  | 0x9, 15 => s.mergeWord
  | 0x9, k => if k < 13 then (s.stackAt (k - 1)).word s.now else 0
  | 0xA, 0 => s.endurWord
  | 0xA, 1 => s.progWord
  | 0xA, 2 => s.wearWord
  | 0xA, 3 => s.diesWord
  | 0xA, 4 => s.rderrWord
  | 0xA, 5 => s.holdupWord
  | 0xA, 6 => s.mountWord
  | 0xB, 0 => s.ceWord
  | 0xB, 1 => s.ueWord
  | 0xB, 2 => s.scrubWord
  | 0xB, 3 => s.retireWord
  | 0xC, 0 => s.policyWord
  | 0xC, 1 => s.unitsWord
  | 0xC, 2 => s.ledgerWord
  | 0xC, 3 => s.ledSeq
  | 0xC, 4 => s.pkgWord
  | 0xC, 5 => s.peerWord
  | 0xD, k =>
    if k < 6 then s.portWord k
    else if 8 ≤ k ∧ k < 56 then s.laneWord ((k - 8) / 8) ((k - 8) % 8)
    else if k = 56 then s.peerErrWord else if k = 57 then s.nodeWord else 0
  | 0xE, 0 => s.moduleWord
  | 0xE, 1 => s.bootWord
  | 0xE, 2 => s.boot.serial
  | 0xE, 3 => s.pstatWord
  | 0xE, 4 => s.debugWord
  | 0xF, 0 => s.clkWord
  | 0xF, 1 => s.gateWord
  | 0xF, 2 => s.stoneWord
  | 0xF, 3 => s.resetWord
  | 0x10, 0 => s.sliceWord
  | 0x10, 1 => s.deferWord
  | 0x10, 2 => s.thermWord
  | 0x10, 3 => s.tenterWord
  | 0x10, 4 => s.govWord
  | _, _ => 0

/-- The register word at a multiple of 8 of a BAR2 page. -/
def State.regWord (s : State) (page off : Nat) : Nat := if page < 16 then s.ldPageWord page off else s.fmPageWord off

/-! ### What a write does -/

/-- An RW1C field of `w` bits at bit `lo`, with value `cur`, after a write of the word `v`. -/
def w1c (w lo cur v : Nat) : Nat := rw1c w cur (v / 2 ^ lo)

/-- A counter kept as an amount of which the register shows whole multiples of `unit`. -/
def w1cUnits (w lo unit cur v : Nat) : Nat := w1c w lo (min (cur / unit) (2 ^ w - 1)) v * unit + cur % unit

/-- The wheel counters (WHL_CNT and WHL_ERR). -/
def State.clearWheel (s : State) (w k v : Nat) : State :=
  if k = 3 then s.modWheel w fun x =>
    { x with late := w1c 32 0 x.late v, rephase := w1c 16 32 x.rephase v, backstep := w1c 16 48 x.backstep v }
  else if k = 4 then s.modWheel w fun x => { x with badpos := w1c 32 0 x.badpos v, skip := w1c 32 32 x.skip v }
  else s

/-- A write of `v` to the register at a multiple of 8 of an LD page; `low` says that bits 31 to 0 are written. -/
def State.writeLdReg (s : State) (ld off v : Nat) (low : Bool) : State :=
  let k := off % 0x400 / 8
  match off / 0x400, k with
  | 0x0, 0 => s.modCxeLd ld fun l => { l with nodec := w1c 32 0 l.nodec v }
  | 0x0, 1 => s.modCxeLd ld fun l =>
    { l with snoops := w1c 32 0 l.snoops v, biTimeout := w1c 16 32 l.biTimeout v, lostBlk := w1c 16 48 l.lostBlk v }
  | 0x0, 2 => s.modCxeLd ld fun l =>
    { l with dmaTimeout := w1c 16 16 l.dmaTimeout v, dmaDiscard := w1c 16 32 l.dmaDiscard v, dmaLate := w1c 16 48 l.dmaLate v }
  | 0x0, 3 => s.modCxeLd ld fun l => { l with flrs := w1c 16 8 l.flrs v, hots := w1c 16 24 l.hots v, cxls := w1c 16 40 l.cxls v }
  | 0x1, 4 =>
    let f := fun (d : DropRegs) => { d with wrDrop := w1c 32 0 d.wrDrop v, rdPoison := w1c 32 32 d.rdPoison v }
    let again := fun (d : DropRegs) => { d with seen := d.seen && (d.wrDrop != 0 || d.rdPoison != 0) }
    { s with ext := { s.ext with drops := s.ext.drops.upd ld fun d => again (f d) } }
  | 0x2, 6 => s.modMrc ld fun m => { m with evictNoop := w1c 32 0 m.evictNoop v, refetch := w1c 32 32 m.refetch v }
  | 0x2, 7 => s.modMrc ld fun m => { m with specIssued := w1c 32 0 m.specIssued v, specConfirmed := w1c 32 32 m.specConfirmed v }
  | 0x2, 8 => s.modMrc ld fun m => { m with undone := w1c 32 0 m.undone v, skipped := w1c 32 32 m.skipped v }
  | 0x2, 9 => if low then s.modMrc ld fun m => { m with allow := v % 2 ^ 16 } else s
  | 0x2, k => if k < 6 then s.modMrc ld fun m =>
      { m with stallCount := m.stallCount.upd k fun n => w1c 32 0 n v, stallTime := m.stallTime.upd k fun n => w1c 32 32 n v }
    else s
  | 0x3, 0 => s.modMrc ld fun m =>
    { m with escapes := w1c 32 0 m.escapes v, precision := w1c 32 32 m.precision v, precSeen := m.precSeen && w1c 32 32 m.precision v != 0 }
  | 0x3, 2 => s.modMrc ld fun m =>
    { m with overflow := w1c 32 0 m.overflow v, compact := w1c 16 32 m.compact v, convert := w1c 16 48 m.convert v }
  | 0x3, 3 => s.modMrc ld fun m => { m with held := w1c 32 32 m.held v }
  | 0x3, 4 => s.modMrc ld fun m => { m with sideMiss := w1c 32 0 m.sideMiss v }
  | 0x4, 0 => s.modStnLd ld fun x => { x with refused := w1c 32 16 x.refused v }
  | 0x4, 1 => s.modStnLd ld fun x => { x with cycles := w1c 64 0 x.cycles v }
  | 0x4, 2 => s.modStnLd ld fun x =>
    { x with preempt := w1c 32 0 x.preempt v, fault := w1c 16 32 x.fault v, poisoned := w1c 16 48 x.poisoned v }
  | 0x5, 0 => s.modGateLd ld fun g => { g with accepted := w1c 32 0 g.accepted v, failed := w1c 32 32 g.failed v }
  | 0x5, 1 => s.modGateLd ld fun g =>
    { g with badgo := w1c 16 0 g.badgo v, busygo := w1c 16 16 g.busygo v, unarmed := w1c 16 32 g.unarmed v, reswr := w1c 16 48 g.reswr v }
  | 0x5, 2 => s.modGateLd ld fun g =>
    { g with held := w1c 32 0 g.held v, expired := w1c 16 32 g.expired v, full := w1c 16 48 g.full v }
  | 0x6, 1 => s.modGateLd ld fun g => { g with hits := w1c 32 0 g.hits v, misses := w1c 32 32 g.misses v }
  | 0x6, 2 => s.modGateLd ld fun g => { g with evicted := w1c 32 0 g.evicted v, gfull := w1c 32 32 g.gfull v }
  | 0x8, 8 => s.modWeir fun w =>
    { w with miss := w.miss.upd ld fun m =>
        { m with misses := w1c 32 0 m.misses v, rmask := w1c 8 32 m.rmask v, seen := m.seen && w1c 32 0 m.misses v != 0 } }
  | 0x9, 0 => s.modIntegLd ld fun l => { l with lost := w1c 32 0 l.lost v, reads := w1c 32 32 l.reads v }
  | 0xA, 0 => s.modRiLd ld fun r => { r with fails := w1c 32 0 r.fails v, mismatch := w1c 32 32 r.mismatch v }
  | 0xA, 1 => s.modRiLd ld fun r => { r with replays := w1c 32 0 r.replays v, inputChg := w1c 32 32 r.inputChg v }
  | 0xA, 2 => s.modRiLd ld fun r =>
    { r with sent := w1c 32 0 r.sent v, retracted := w1c 16 32 r.retracted v, fallback := w1c 16 48 r.fallback v }
  | 0xA, 3 => s.modRiLd ld fun r =>
    { r with provisional := w1c 32 0 r.provisional v, rretracted := w1c 16 32 r.rretracted v, timeout := w1c 16 48 r.timeout v }
  | 0xA, 4 => s.modRiLd ld fun r => { r with runs := w1c 32 16 r.runs v, dmismatch := w1c 16 48 r.dmismatch v }
  | 0xB, 0 => s.modFwdLd ld fun f =>
    { f with sent := w1c 32 0 f.sent v, failed := w1c 16 32 f.failed v, stale := w1c 16 48 f.stale v }
  | 0xC, 0 => { s with mbox := { s.mbox with cmdFail := s.mbox.cmdFail.upd ld fun n => w1c 16 32 n v } }
  | 0x10, k => s.clearWheel (16 * ld + k / 8) (k % 8) v
  | _, _ => s

/-- A write of `v` to the register at a multiple of 8 of the FM page; the copy of the wheel lines takes none (R371). -/
def State.writeFmReg (s : State) (off v : Nat) : State :=
  let k := off % 0x400 / 8
  match off / 0x400, k with
  | 0x0, 8 => s.modCxe fun c => { c with evict := w1c 32 32 c.evict v }
  | 0x0, k => if k < 4 then s.modCxe fun c =>
      { c with ports := c.ports.upd k fun p => { p with badLdid := w1c 32 0 p.badLdid v, ideFail := w1c 16 32 p.ideFail v } }
    else s
  | 0x2, 0 => s.modStore fun st => { st with fullWait := w1c 32 32 st.fullWait v }
  | 0x2, 1 => s.modStore fun st => { st with chaltValid := w1c 1 11 (b2n st.chaltValid) v == 1 }
  | 0x2, 2 => s.modStore fun st => { st with chcnt := w1c 32 0 st.chcnt v }
  | 0x2, 3 => s.modStore fun st => { st with offDie := w1c 32 0 st.offDie v, noFrame := w1c 32 32 st.noFrame v }
  | 0x3, 1 => s.modStore fun st => { st with cacheReplaced := w1c 32 32 st.cacheReplaced v }
  | 0x4, 4 => { s with stone := { s.stone with offDie := w1c 32 0 s.stone.offDie v, clears := w1c 32 32 s.stone.clears v } }
  | 0x4, 6 =>
    let w := s.stone.wdog
    let w := { w with valid := w1c 1 19 (b2n w.valid) v == 1, count := w1c 32 32 w.count v }
    { s with stone := { s.stone with wdog := w } }
  | 0x6, 0 => s.modGate fun g => { g with evicted := w1c 32 32 g.evicted v }
  | 0x7, 4 => s.modWeir fun w => { w with streamMiss := w1c 32 0 w.streamMiss v }
  | 0x9, 0 => s.modNear fun n => { n with changes := w1c 32 32 n.changes v }
  | 0x9, 13 => s.modNear fun n => { n with nref := w1c 64 0 n.nref v }
  | 0x9, 15 => s.modStore fun st =>
    { st with mergePoisonDrop := w1c 16 16 st.mergePoisonDrop v, mergeEarly := w1c 16 32 st.mergeEarly v, mergeRmw := w1c 16 48 st.mergeRmw v }
  | 0x9, k => if 1 ≤ k ∧ k < 13 then s.modStack (k - 1) fun x => { x with nrhold := w1c 16 16 x.nrhold v, srentry := w1c 32 32 x.srentry v }
    else s
  | 0xA, 1 => s.modDeep fun d =>
    { d with charged := w1cUnits 32 0 GiB d.charged v, reloc := w1cUnits 16 32 GiB d.reloc v, mergeReads := w1cUnits 16 48 1000 d.mergeReads v }
  | 0xA, 4 => s.modDeep fun d =>
    { d with retry := w1c 32 0 d.retry v, parity := w1c 16 32 d.parity v, uncorr := w1c 16 48 d.uncorr v }
  | 0xB, 0 => s.modInteg fun i => { i with ceCount := w1c 32 0 i.ceCount v, ceLost := w1c 16 48 i.ceLost v }
  | 0xB, 1 => s.modInteg fun i => { i with repaired := w1c 32 0 i.repaired v, lost := w1c 32 32 i.lost v }
  | 0xB, 2 => s.modInteg fun i => { i with passes := w1c 32 32 i.passes v }
  | 0xC, 1 => s.modResult fun r => { r with obsCount := w1c 32 32 r.obsCount v }
  | 0xC, 2 => s.modResult fun r => { r with coalesced := w1c 32 32 r.coalesced v }
  | 0xC, 5 => s.modResult fun r => { r with cascade := w1c 32 32 r.cascade v }
  | 0xD, k =>
    if k < 6 then s.modPort k fun p => { p with retrain := w1c 16 32 p.retrain v, narrow := w1c 16 48 p.narrow v }
    else if 8 ≤ k ∧ k < 56 then s.modLane ((k - 8) / 8) ((k - 8) % 8) fun l =>
      { l with corr := w1cUnits 24 0 1000 l.corr v, uncorr := w1c 16 24 l.uncorr v }
    else if k = 56 then s.modPorts fun q =>
      { q with badmsg := w1c 16 0 q.badmsg v, stale := w1c 16 16 q.stale v, pending := w1c 16 32 q.pending v, prevgen := w1c 16 48 q.prevgen v }
    else s
  | 0xE, 1 => s.modBoot fun b => { b with restarts := w1c 16 32 b.restarts v }
  | 0xE, 4 => s.modBoot fun b => { b with refused := w1c 16 8 b.refused v }
  | 0xF, 0 => s.modClock fun c => { c with brakes := w1c 16 16 c.brakes v, lockLoss := w1c 16 32 c.lockLoss v }
  | 0xF, 1 => s.modClock fun c => { c with gateMiss := w1c 32 0 c.gateMiss v }
  | 0xF, 2 => s.modClock fun c => { c with changes := w1c 32 32 c.changes v }
  | 0xF, 3 => s.modClock fun c => { c with perstCount := w1c 16 16 c.perstCount v, trips := w1c 16 32 c.trips v }
  | 0x10, 0 => s.modHealth fun h =>
    { h with passed := w1c 32 0 h.passed v, failed := w1c 16 32 h.failed v, margin := w1c 16 48 h.margin v }
  | 0x10, 1 => s.modHealth fun h => { h with preempt := w1c 16 16 h.preempt v }
  | 0x10, 2 => s.modHealth fun h => { h with stepCount := w1c 16 32 h.stepCount v }
  | 0x10, 3 => s.modHealth fun h => { h with raises := w1c 16 16 h.raises v, plans := w1c 16 32 h.plans v }
  | 0x10, 4 => s.modPower fun p => { p with steps := w1c 32 32 p.steps v }
  | _, _ => s

/-! ### The error registers of a function (Table 14.6) -/

def bitSet (bs : List Nat) : Nat := sumNat (bs.map (2 ^ ·))
def aerUncBits : Nat := bitSet [4, 12, 14, 16, 17, 18, 20, 22]
def aerCorBits : Nat := bitSet [0, 8, 12, 13, 14, 15]
def rasUncBits : Nat := bitSet [7, 9, 11, 14, 15, 16]
def rasCorBits : Nat := bitSet [1, 2, 3, 5, 6]

def State.modErrs (s : State) (ld : Nat) (f : ErrRegs → ErrRegs) : State := s.modCxeLd ld fun l => { l with errs := f l.errs }

/-- Status bits cleared by a write, and the header log freed once the bit that holds it is clear (R347). -/
def ErrRegs.clearAerUnc (e : ErrRegs) (v : Nat) : ErrRegs :=
  let n := rw1c 32 e.aerUnc v
  { e with aerUnc := n, aerHeld := e.aerHeld && bitOf n e.aerFirst }
def ErrRegs.clearRasUnc (e : ErrRegs) (v : Nat) : ErrRegs :=
  let n := rw1c 32 e.rasUnc v
  { e with rasUnc := n, rasHeld := e.rasHeld && (32 ≤ e.rasFirst || bitOf n e.rasFirst) }
def ErrRegs.clearRasCor (e : ErrRegs) (v : Nat) : ErrRegs :=
  let n := rw1c 32 e.rasCor v
  { e with rasCor := n, rasHeld := e.rasHeld && (e.rasFirst < 32 || bitOf n (e.rasFirst - 32)) }

/-- A write to a word of the MSI-X table: only the mask bit of a Vector Control word takes effect. PRESUMED, log entry 14. -/
def State.writeMsix (s : State) (ld i v : Nat) : State :=
  s.modCxeLd ld fun l => { l with bars := { l.bars with table := l.bars.table.set i (if i % 4 = 3 then 1 - v % 2 else v % 2 ^ 32) } }

/-- A write to a word of the mailbox's Command register or payload; a command itself is rung by its own row. PRESUMED, log entry 14. -/
def State.writeMb (s : State) (ld i v : Nat) : State :=
  { s with mbox := { s.mbox with regs := s.mbox.regs.upd ld fun r => { r with words := r.words.set i (v % 2 ^ 32) } } }

/-- A 4-byte write to a function's BAR0: CXL RAS and BI Enable, the MSI-X table, the mailbox. PRESUMED, log entry 14. -/
def State.writeBar0 (s : State) (ld off v : Nat) : State :=
  match off with
  | 0x1100 => s.modErrs ld fun e => e.clearRasUnc v
  | 0x1104 => s.modErrs ld fun e => { e with rasUncMask := Nat.land v rasUncBits }
  | 0x1108 => s.modErrs ld fun e => { e with rasUncSev := Nat.land v rasUncBits }
  | 0x110C => s.modErrs ld fun e => e.clearRasCor v
  | 0x1110 => s.modErrs ld fun e => { e with rasCorMask := Nat.land v rasCorBits }
  | 0x1404 => if ld < 16 then s.modCxeLd ld fun l => { l with biEnable := bitOf v 1 } else s
  | off =>
    if 0x70000 ≤ off ∧ off < 0x70060 then s.writeMsix ld ((off - 0x70000) / 4) v
    else if 0x20008 ≤ off ∧ off < 0x20010 ∨ 0x20020 ≤ off ∧ off < 0x30020 then s.writeMb ld ((off - 0x20000) / 4) v
    else s

def State.modBars (s : State) (ld : Nat) (f : BarRegs → BarRegs) : State := s.modCxeLd ld fun l => { l with bars := f l.bars }

/-- A new half of a 64-bit register. -/
def lowHalf (cur v : Nat) : Nat := cur / 2 ^ 32 * 2 ^ 32 + v % 2 ^ 32
def highHalf (cur v : Nat) : Nat := cur % 2 ^ 32 + v % 2 ^ 32 * 2 ^ 32

/-- A 4-byte write to a function's configuration space: the BARs of 512 KiB and 64 KiB, MSI-X Message Control, Range 1 Base, AER and the
Completion Timeout Value. PRESUMED, log entry 14. -/
def State.writeCfg (s : State) (ld off v : Nat) : State :=
  match off with
  | 0x010 => s.modBars ld fun b => { b with bar0 := lowHalf b.bar0 (v / 2 ^ 19 * 2 ^ 19) }
  | 0x014 => s.modBars ld fun b => { b with bar0 := highHalf b.bar0 v }
  | 0x018 => s.modBars ld fun b => { b with bar2 := lowHalf b.bar2 (v / 2 ^ 16 * 2 ^ 16) }
  | 0x01C => s.modBars ld fun b => { b with bar2 := highHalf b.bar2 v }
  | 0x048 => s.modBars ld fun b => { b with control := v / 2 ^ 30 % 4 }
  | 0x088 => s.modCxeLd ld fun l => { l with cto := v % 16 }
  | 0x180 => s.modBars ld fun b => { b with range1 := highHalf b.range1 v }
  | 0x184 => s.modBars ld fun b => { b with range1 := lowHalf b.range1 (v / 2 ^ 28 * 2 ^ 28) }
  | 0x104 => s.modErrs ld fun e => e.clearAerUnc v
  | 0x108 => s.modErrs ld fun e => { e with aerUncMask := Nat.land v aerUncBits }
  | 0x10C => s.modErrs ld fun e => { e with aerUncSev := Nat.land v aerUncBits }
  | 0x110 => s.modErrs ld fun e => { e with aerCor := rw1c 32 e.aerCor v }
  | 0x114 => s.modErrs ld fun e => { e with aerCorMask := Nat.land v aerCorBits }
  | _ => s

/-- The two halves of an access as 4-byte writes. PRESUMED, log entry 14. -/
def State.halves (s : State) (size off v : Nat) (f : State → Nat → Nat → State) : State :=
  let s := f s off (v % 2 ^ 32)
  if size = 8 then f s (off + 4) (v / 2 ^ 32) else s

/-- The bits of a register that an access of 4 or 8 bytes writes; the others are written as 0. -/
def regBits (r : RegAccess) : Nat := if r.size = 8 then r.value.toNat else r.value.toNat % 2 ^ 32 * 2 ^ (8 * (r.offset % 8))

/-- Naturally aligned, and of 4 or 8 bytes (R335). PRESUMED, log entry 14. -/
def regTaken (r : RegAccess) : Bool := (r.size == 4 && r.offset % 4 == 0) || (r.size == 8 && r.offset % 8 == 0)

/-- The function that an access addresses. -/
def regFn (r : RegAccess) : Nat := if r.page < 32 then r.page else if r.page < 64 then r.page - 32 else r.page - 64

/-- Is the function there to take register accesses? In ROM recovery the FM-owned LD alone is (R376). -/
def State.regOk (s : State) (fn : Nat) : Bool := decide (fn ≤ 16) && (s.ioOk fn || (s.phase == .recovery && fn == 16))

/-- A write lands in the WHL_BEACON word of a wheel line. -/
def regBeacon (r : RegAccess) : Bool :=
  decide (r.page < 16) && decide (0x4000 ≤ r.offset) && decide (r.offset < 0x4400) && decide (r.offset % 64 < 8)

/-- What an access taken by the BAR writes. -/
def State.writeReg (s : State) (r : RegAccess) : State :=
  if r.page < 16 then s.writeLdReg r.page (r.offset / 8 * 8) (regBits r) (r.size == 8 || r.offset % 8 == 0)
  else if r.page = 16 then s.writeFmReg (r.offset / 8 * 8) (regBits r)
  else if r.page < 64 then s.halves r.size r.offset r.value.toNat fun s off v => s.writeBar0 (regFn r) off v
  else s.halves r.size r.offset r.value.toNat fun s off v => s.writeCfg (regFn r) off v

/-- REGISTER_WRITE (R4, R335): the register acts by its access types. A write that is not a naturally aligned 4-byte or 8-byte
access has no effect and is an Unsupported Request; one in WHL_BEACON acts as R52 says. DEDUCED, log entry 43. -/
def execRegisterWrite (r : RegAccess) (s : State) : Res :=
  if ¬ s.regOk (regFn r) then .next s
  else if (regBeacon r) then
    .next (if s.up then s.writeBeacon r.page ((r.offset - 0x4000) / 64) r.size (r.offset % 8 == 0 || (r.size == 4 && (regTaken r))) r.value else s)
  else if ¬ (regTaken r) then .next (s.aerUnc (regFn r) 20 [])
  else .next (s.writeReg r)

end Sys2Proof.Machine
end

