-- ==== Sys2Proof/Machine/Dispatch.lean ====
section
/-! DEFINITION. The dispatch of commands to their meanings: one arm per row of the table. -/
namespace Sys2Proof.Machine

/-- The effect of a command on everything but the queue of waiting commands. DESIGN CHOICE, log entry 7. -/
def exec (i : Instr) (s : State) : Host.Outcome State Fault Refusal :=
  match i with
  | .cxlMemRead port ldid hpa tag mv upset => Sys2Proof.Machine.execCxlMemRead port ldid hpa tag mv upset s
  | .cxlMemWrite port ldid hpa tag data enables poison => Sys2Proof.Machine.execCxlMemWrite port ldid hpa tag data enables poison s
  | .sackAllocJournalled t sack => Sys2Proof.Machine.execSackAllocJournalled t sack s
  | .sackEntryRebuild t sack journalOk => Sys2Proof.Machine.execSackEntryRebuild t sack journalOk s
  | .mergeIdleFlush t blk => Sys2Proof.Machine.execMergeIdleFlush t blk s
  | .encoderWriteDone t blk => Sys2Proof.Machine.execEncoderWriteDone t blk s
  | .mirrorRecordFreed t blk => Sys2Proof.Machine.execMirrorRecordFreed t blk s
  | .governorStep t avg => Sys2Proof.Machine.execGovernorStep t avg s
  | .governorRetreat t avg => Sys2Proof.Machine.execGovernorRetreat t avg s
  | .thermalStep t part unit temp => Sys2Proof.Machine.execThermalStep t part unit temp s
  | .thermalRetreat t part unit temp => Sys2Proof.Machine.execThermalRetreat t part unit temp s
  | .thermalTrip t part unit temp => Sys2Proof.Machine.execThermalTrip t part unit temp s
  | .unitFailure t u => Sys2Proof.Machine.execUnitFailure t u s
  | .stoneFailure t stone => Sys2Proof.Machine.execStoneFailure t stone s
  | .stackLoss t stack => Sys2Proof.Machine.execStackLoss t stack s
  | .remirror t blk => Sys2Proof.Machine.execRemirror t blk s
  | .reservedRegionRebuild t stack => Sys2Proof.Machine.execReservedRegionRebuild t stack s
  | .hubDieFailure t => Sys2Proof.Machine.execHubDieFailure t s
  | .initiateDcAdd h host policy exts => Sys2Proof.Machine.execInitiateDcAdd h host policy exts s
  | .addDcResponse h exts => Sys2Proof.Machine.execAddDcResponse h exts s
  | .initiateDcRelease h host forced exts => Sys2Proof.Machine.execInitiateDcRelease h host forced exts s
  | .releaseDc h exts => Sys2Proof.Machine.execReleaseDc h exts s
  | .extentDiscard t eid => Sys2Proof.Machine.execExtentDiscard t eid s
  | .wheelBeacon ld wheel size aligned value => Sys2Proof.Machine.execWheelBeacon ld wheel size aligned value s
  | .wheelIdleTimeout t ld wheel => Sys2Proof.Machine.execWheelIdleTimeout t ld wheel s
  | .wheelRestTimeout t ld wheel => Sys2Proof.Machine.execWheelRestTimeout t ld wheel s
  | .openWheel h n dlead pclass cclass flags sig idle rest watch => Sys2Proof.Machine.execOpenWheel h n dlead pclass cclass flags sig idle rest watch s
  | .closeWheel h index => Sys2Proof.Machine.execCloseWheel h index s
  | .importSchedule h p index => Sys2Proof.Machine.execImportSchedule h p index s
  | .exportSchedule h o index => Sys2Proof.Machine.execExportSchedule h o index s
  | .saveSchedule h index => Sys2Proof.Machine.execSaveSchedule h index s
  | .deleteSavedSchedule h sig => Sys2Proof.Machine.execDeleteSavedSchedule h sig s
  | .getWheelStatus h index => Sys2Proof.Machine.execGetWheelStatus h index s
  | .setWheelTimers h index idle rest => Sys2Proof.Machine.execSetWheelTimers h index idle rest s
  | .rephaseWheel h index => Sys2Proof.Machine.execRephaseWheel h index s
  | .promotionComplete t sack => Sys2Proof.Machine.execPromotionComplete t sack s
  | .victimScan t stack => Sys2Proof.Machine.execVictimScan t stack s
  | .demotionDrained t sack => Sys2Proof.Machine.execDemotionDrained t sack s
  | .writebackComplete t sack => Sys2Proof.Machine.execWritebackComplete t sack s
  | .durableDirtyTimeout t blk => Sys2Proof.Machine.execDurableDirtyTimeout t blk s
  | .demandReadTimeout t rid => Sys2Proof.Machine.execDemandReadTimeout t rid s
  | .channelHalt t channel cause blocks => Sys2Proof.Machine.execChannelHalt t channel cause blocks s
  | .bolterBuildStart t set => Sys2Proof.Machine.execBolterBuildStart t set s
  | .stageIdleTimeout t set => Sys2Proof.Machine.execStageIdleTimeout t set s
  | .bolterBuildComplete t set => Sys2Proof.Machine.execBolterBuildComplete t set s
  | .recodeSweep t set => Sys2Proof.Machine.execRecodeSweep t set s
  | .recodeGapTimeout t set => Sys2Proof.Machine.execRecodeGapTimeout t set s
  | .generationRelease t set => Sys2Proof.Machine.execGenerationRelease t set s
  | .codecCacheFill t blk => Sys2Proof.Machine.execCodecCacheFill t blk s
  | .allocateTableSet h src rate cols => Sys2Proof.Machine.execAllocateTableSet h src rate cols s
  | .freeTableSet h set => Sys2Proof.Machine.execFreeTableSet h set s
  | .getTableSetStatus h set => Sys2Proof.Machine.execGetTableSetStatus h set s
  | .rebuildTableSet h set base => Sys2Proof.Machine.execRebuildTableSet h set base s
  | .importCodebook h set image => Sys2Proof.Machine.execImportCodebook h set image s
  | .exportCodebook h set => Sys2Proof.Machine.execExportCodebook h set s
  | .pieceStart t stone => Sys2Proof.Machine.execPieceStart t stone s
  | .pieceEnd t stone => Sys2Proof.Machine.execPieceEnd t stone s
  | .stoneReadRequest t stone tag dpa count => Sys2Proof.Machine.execStoneReadRequest t stone tag dpa count s
  | .hopperLineDeliver t stone tag line upset => Sys2Proof.Machine.execHopperLineDeliver t stone tag line upset s
  | .stoneTake t stone tag => Sys2Proof.Machine.execStoneTake t stone tag s
  | .checkpointWatchdog t stone => Sys2Proof.Machine.execCheckpointWatchdog t stone s
  | .accumulatorLimit t stone => Sys2Proof.Machine.execAccumulatorLimit t stone s
  | .codeFetchTrap t stone => Sys2Proof.Machine.execCodeFetchTrap t stone s
  | .preemptCheckpoint t stone => Sys2Proof.Machine.execPreemptCheckpoint t stone s
  | .stoneClearComplete t stone => Sys2Proof.Machine.execStoneClearComplete t stone s
  | .dressingUnloadDrained t handle => Sys2Proof.Machine.execDressingUnloadDrained t handle s
  | .loadDressing h p => Sys2Proof.Machine.execLoadDressing h p s
  | .unloadDressing h handle => Sys2Proof.Machine.execUnloadDressing h handle s
  | .getDressingInfo h handle => Sys2Proof.Machine.execGetDressingInfo h handle s
  | .registerDressingKey h exponent modulus => Sys2Proof.Machine.execRegisterDressingKey h exponent modulus s
  | .removeDressingKey h keyid => Sys2Proof.Machine.execRemoveDressingKey h keyid s
  | .getStoneStatus h => Sys2Proof.Machine.execGetStoneStatus h s
  | .setStoneOffline h stone => Sys2Proof.Machine.execSetStoneOffline h stone s
  | .setStoneOnline h stone => Sys2Proof.Machine.execSetStoneOnline h stone s
  | .gateParamWrite ld dpa data enables poison => Sys2Proof.Machine.execGateParamWrite ld dpa data enables poison s
  | .gateResultRead ld dpa tag => Sys2Proof.Machine.execGateResultRead ld dpa tag s
  | .gateHoldExpire t rid => Sys2Proof.Machine.execGateHoldExpire t rid s
  | .gateNop g => Sys2Proof.Machine.execGateNop g s
  | .gateOpcodeReserved g opcode => Sys2Proof.Machine.execGateOpcodeReserved g opcode s
  | .appendAttend g => Sys2Proof.Machine.execAppendAttend g s
  | .prefixAttach g => Sys2Proof.Machine.execPrefixAttach g s
  | .chunkPrefill g => Sys2Proof.Machine.execChunkPrefill g s
  | .prefillWritesDone t ld buf => Sys2Proof.Machine.execPrefillWritesDone t ld buf s
  | .prefixPublish g => Sys2Proof.Machine.execPrefixPublish g s
  | .publishCommit t ld buf => Sys2Proof.Machine.execPublishCommit t ld buf s
  | .seqTruncate g => Sys2Proof.Machine.execSeqTruncate g s
  | .graphSearch g => Sys2Proof.Machine.execGraphSearch g s
  | .distanceBatch g => Sys2Proof.Machine.execDistanceBatch g s
  | .setIntersect g => Sys2Proof.Machine.execSetIntersect g s
  | .setUnion g => Sys2Proof.Machine.execSetUnion g s
  | .setDifference g => Sys2Proof.Machine.execSetDifference g s
  | .tenant g => Sys2Proof.Machine.execTenant g s
  | .armGateSlots h dpa count hold => Sys2Proof.Machine.execArmGateSlots h dpa count hold s
  | .disarmGateSlots h dpa count force => Sys2Proof.Machine.execDisarmGateSlots h dpa count force s
  | .getSlotStatus h dpa => Sys2Proof.Machine.execGetSlotStatus h dpa s
  | .openSequence h sbase layers hkv g d maxpos => Sys2Proof.Machine.execOpenSequence h sbase layers hkv g d maxpos s
  | .closeSequence h seq => Sys2Proof.Machine.execCloseSequence h seq s
  | .getSequenceStatus h seq => Sys2Proof.Machine.execGetSequenceStatus h seq s
  | .defineIndex h vbase abase nv entry dim vfmt deg metric => Sys2Proof.Machine.execDefineIndex h vbase abase nv entry dim vfmt deg metric s
  | .deleteIndex h index => Sys2Proof.Machine.execDeleteIndex h index s
  | .addGranaryExtent h base => Sys2Proof.Machine.execAddGranaryExtent h base s
  | .removeGranaryExtent h base => Sys2Proof.Machine.execRemoveGranaryExtent h base s
  | .deleteBin h key sig => Sys2Proof.Machine.execDeleteBin h key sig s
  | .setBinAttributes h key sig attr => Sys2Proof.Machine.execSetBinAttributes h key sig attr s
  | .listBins h o => Sys2Proof.Machine.execListBins h o s
  | .getGranaryStatus h => Sys2Proof.Machine.execGetGranaryStatus h s
  | .resultCheckComplete t ld buf failed => Sys2Proof.Machine.execResultCheckComplete t ld buf failed s
  | .replayComplete t ld buf piece r => Sys2Proof.Machine.execReplayComplete t ld buf piece r s
  | .suspectTimeout t utype unit => Sys2Proof.Machine.execSuspectTimeout t utype unit s
  | .forwardExtendTimer t fwdid => Sys2Proof.Machine.execForwardExtendTimer t fwdid s
  | .streamCacheFill t entry corrupt => Sys2Proof.Machine.execStreamCacheFill t entry corrupt s
  | .guaranteeRecompute t resource => Sys2Proof.Machine.execGuaranteeRecompute t resource s
  | .capacityRiseTimeout t resource => Sys2Proof.Machine.execCapacityRiseTimeout t resource s
  | .captureWindowEnd t => Sys2Proof.Machine.execCaptureWindowEnd t s
  | .setClass h cls share cache queue => Sys2Proof.Machine.execSetClass h cls share cache queue s
  | .reserveGuarantee h resource cls rate latbound => Sys2Proof.Machine.execReserveGuarantee h resource cls rate latbound s
  | .releaseGuarantee h resource => Sys2Proof.Machine.execReleaseGuarantee h resource s
  | .getWeirStatus h => Sys2Proof.Machine.execGetWeirStatus h s
  | .setCaptureWindow h mode wheel span => Sys2Proof.Machine.execSetCaptureWindow h mode wheel span s
  | .getMaxLatency h cls resource => Sys2Proof.Machine.execGetMaxLatency h cls resource s
  | .refreshDue t stack channel rank queued => Sys2Proof.Machine.execRefreshDue t stack channel rank queued s
  | .selfRefreshIdle t stack => Sys2Proof.Machine.execSelfRefreshIdle t stack s
  | .freqChangeStackDone t stack spotOk => Sys2Proof.Machine.execFreqChangeStackDone t stack spotOk s
  | .retrainDue t stack point temp => Sys2Proof.Machine.execRetrainDue t stack point temp s
  | .retrainSlot t stack channel ok => Sys2Proof.Machine.execRetrainSlot t stack channel ok s
  | .garbageCollect t group => Sys2Proof.Machine.execGarbageCollect t group s
  | .wearLevelMove t group => Sys2Proof.Machine.execWearLevelMove t group s
  | .deepPageRead t slot outcome => Sys2Proof.Machine.execDeepPageRead t slot outcome s
  | .slotProgramDone t slot group => Sys2Proof.Machine.execSlotProgramDone t slot group s
  | .readRefresh t die block margin => Sys2Proof.Machine.execReadRefresh t die block margin s
  | .patrolRead t die block => Sys2Proof.Machine.execPatrolRead t die block s
  | .flashBlockFailure t die block => Sys2Proof.Machine.execFlashBlockFailure t die block s
  | .flashDieFailure t die => Sys2Proof.Machine.execFlashDieFailure t die s
  | .dieRebuildComplete t die => Sys2Proof.Machine.execDieRebuildComplete t die s
  | .journalPageProgrammed t => Sys2Proof.Machine.execJournalPageProgrammed t s
  | .checkpointImageDone t => Sys2Proof.Machine.execCheckpointImageDone t s
  | .holdupTestDue t => Sys2Proof.Machine.execHoldupTestDue t s
  | .holdupTestComplete t energy => Sys2Proof.Machine.execHoldupTestComplete t energy s
  | .powerLoss t => Sys2Proof.Machine.execPowerLoss t s
  | .gpfPhase1 t port => Sys2Proof.Machine.execGpfPhase1 t port s
  | .gpfPhase2 t port => Sys2Proof.Machine.execGpfPhase2 t port s
  | .setEnduranceBudget h b => Sys2Proof.Machine.execSetEnduranceBudget h b s
  | .testHoldupBank h => Sys2Proof.Machine.execTestHoldupBank h s
  | .setHoldupTestPeriod h period => Sys2Proof.Machine.execSetHoldupTestPeriod h period s
  | .nearScrub t blk word upset last => Sys2Proof.Machine.execNearScrub t blk word upset last s
  | .nearScrubBehind t => Sys2Proof.Machine.execNearScrubBehind t s
  | .sramScrub t unit loc upset => Sys2Proof.Machine.execSramScrub t unit loc upset s
  | .armFlipMaskNear h dpa word mask => Sys2Proof.Machine.execArmFlipMaskNear h dpa word mask s
  | .armFlipMaskStone h stone bank word mask => Sys2Proof.Machine.execArmFlipMaskStone h stone bank word mask s
  | .flipMaskExpire t ld => Sys2Proof.Machine.execFlipMaskExpire t ld s
  | .disarmFlipMask h => Sys2Proof.Machine.execDisarmFlipMask h s
  | .setScrubPeriod h near sram => Sys2Proof.Machine.execSetScrubPeriod h near sram s
  | .setNeighbourRefresh h e => Sys2Proof.Machine.execSetNeighbourRefresh h e s
  | .getCorrectableErrorTable h o => Sys2Proof.Machine.execGetCorrectableErrorTable h o s
  | .getUncorrectableErrorLog h o => Sys2Proof.Machine.execGetUncorrectableErrorLog h o s
  | .retireRow h loc => Sys2Proof.Machine.execRetireRow h loc s
  | .retireBank h loc => Sys2Proof.Machine.execRetireBank h loc s
  | .retireStack h loc => Sys2Proof.Machine.execRetireStack h loc s
  | .retireSack h sack => Sys2Proof.Machine.execRetireSack h sack s
  | .getRetirementList h o => Sys2Proof.Machine.execGetRetirementList h o s
  | .clearCorrectableErrorTable h => Sys2Proof.Machine.execClearCorrectableErrorTable h s
  | .digestStart t ld range => Sys2Proof.Machine.execDigestStart t ld range s
  | .digestComplete t ld range disagree turn => Sys2Proof.Machine.execDigestComplete t ld range disagree turn s
  | .ledgerCommit t => Sys2Proof.Machine.execLedgerCommit t s
  | .ledgerCoalesceEnd t kind utype unit => Sys2Proof.Machine.execLedgerCoalesceEnd t kind utype unit s
  | .getLedger h seqno maxrec => Sys2Proof.Machine.execGetLedger h seqno maxrec s
  | .getResultErrorLog h o => Sys2Proof.Machine.execGetResultErrorLog h o s
  | .setCheckPolicy h s0 s1 s2 earlyen => Sys2Proof.Machine.execSetCheckPolicy h s0 s1 s2 earlyen s
  | .getUnitHealth h => Sys2Proof.Machine.execGetUnitHealth h s
  | .installTestContent h p => Sys2Proof.Machine.execInstallTestContent h p s
  | .requestCalibration h kind unit => Sys2Proof.Machine.execRequestCalibration h kind unit s
  | .requestTestSlice h utype unit slice => Sys2Proof.Machine.execRequestTestSlice h utype unit slice s
  | .stagePartitionRequest h p => Sys2Proof.Machine.execStagePartitionRequest h p s
  | .unlockDebug h p => Sys2Proof.Machine.execUnlockDebug h p s
  | .getTestContent h => Sys2Proof.Machine.execGetTestContent h s
  | .clearUnitRecord h utype unit => Sys2Proof.Machine.execClearUnitRecord h utype unit s
  | .appendLedgerNote h note => Sys2Proof.Machine.execAppendLedgerNote h note s
  | .defineDigestRange h base len key period wheel layer => Sys2Proof.Machine.execDefineDigestRange h base len key period wheel layer s
  | .deleteDigestRange h range => Sys2Proof.Machine.execDeleteDigestRange h range s
  | .getDigest h range => Sys2Proof.Machine.execGetDigest h range s
  | .setDigestReference h range reference => Sys2Proof.Machine.execSetDigestReference h range reference s
  | .runDigest h range => Sys2Proof.Machine.execRunDigest h range s
  | .setDigestPeer h range port window bind => Sys2Proof.Machine.execSetDigestPeer h range port window bind s
  | .portTrainingAdvance t port light failed skew partner node flit256 => Sys2Proof.Machine.execPortTrainingAdvance t port light failed skew partner node flit256 s
  | .portTrainingTimeout t port => Sys2Proof.Machine.execPortTrainingTimeout t port s
  | .configMismatchRetry t port partner node flit256 => Sys2Proof.Machine.execConfigMismatchRetry t port partner node flit256 s
  | .laneFailure t port lane => Sys2Proof.Machine.execLaneFailure t port lane s
  | .laserAgeing t port lane wavelength bias => Sys2Proof.Machine.execLaserAgeing t port lane wavelength bias s
  | .laserFailure t port lane bias lowPower => Sys2Proof.Machine.execLaserFailure t port lane bias lowPower s
  | .portL0p t port width => Sys2Proof.Machine.execPortL0p t port width s
  | .portL1Entry t port => Sys2Proof.Machine.execPortL1Entry t port s
  | .portL2Entry t port => Sys2Proof.Machine.execPortL2Entry t port s
  | .peerStandbyTimeout t port => Sys2Proof.Machine.execPeerStandbyTimeout t port s
  | .portExitToActive t port => Sys2Proof.Machine.execPortExitToActive t port s
  | .pwr p data => Sys2Proof.Machine.execPwr p data s
  | .pack p => Sys2Proof.Machine.execPack p s
  | .psettleConfirm p m => Sys2Proof.Machine.execPsettleConfirm p m s
  | .psettleRetract p m => Sys2Proof.Machine.execPsettleRetract p m s
  | .psettleExtend p m => Sys2Proof.Machine.execPsettleExtend p m s
  | .psettleKindZero p m => Sys2Proof.Machine.execPsettleKindZero p m s
  | .pdigest p key digest turn changed => Sys2Proof.Machine.execPdigest p key digest turn changed s
  | .pnode p node => Sys2Proof.Machine.execPnode p node s
  | .peerBadMessage p => Sys2Proof.Machine.execPeerBadMessage p s
  | .provisionalTimeout t node fwdid => Sys2Proof.Machine.execProvisionalTimeout t node fwdid s
  | .pwrPendingResend t port tag => Sys2Proof.Machine.execPwrPendingResend t port tag s
  | .forwardTimeout t fwdid => Sys2Proof.Machine.execForwardTimeout t fwdid s
  | .peerGraceEnd t port window => Sys2Proof.Machine.execPeerGraceEnd t port window s
  | .setNodeIdentifier h node => Sys2Proof.Machine.execSetNodeIdentifier h node s
  | .setPeerWindow h port window w => Sys2Proof.Machine.execSetPeerWindow h port window w s
  | .commitPeerWindow h port window => Sys2Proof.Machine.execCommitPeerWindow h port window s
  | .getPeerWindow h port window => Sys2Proof.Machine.execGetPeerWindow h port window s
  | .bindSlotForward h dpa port window offset => Sys2Proof.Machine.execBindSlotForward h dpa port window offset s
  | .unbindSlotForward h dpa => Sys2Proof.Machine.execUnbindSlotForward h dpa s
  | .setPeerPort h port enable standby grace => Sys2Proof.Machine.execSetPeerPort h port enable standby grace s
  | .retrainPort h port => Sys2Proof.Machine.execRetrainPort h port s
  | .getPortTelemetry h port => Sys2Proof.Machine.execGetPortTelemetry h port s
  | .retrainLink ld => Sys2Proof.Machine.execRetrainLink ld s
  | .hdmDecoderCommit ld k d => Sys2Proof.Machine.execHdmDecoderCommit ld k d s
  | .birsp ld blk line writeback => Sys2Proof.Machine.execBirsp ld blk line writeback s
  | .bisnpTimeout t ld blk line => Sys2Proof.Machine.execBisnpTimeout t ld blk line s
  | .cxlRsvdEncoding port flit => Sys2Proof.Machine.execCxlRsvdEncoding port flit s
  | .badLdId port ldid kind tag => Sys2Proof.Machine.execBadLdId port ldid kind tag s
  | .cxlIoPoisonedWrite ld header => Sys2Proof.Machine.execCxlIoPoisonedWrite ld header s
  | .hotReset t port => Sys2Proof.Machine.execHotReset t port s
  | .linkDown t port => Sys2Proof.Machine.execLinkDown t port s
  | .ldIdHotReset t vector => Sys2Proof.Machine.execLdIdHotReset t vector s
  | .cxlReset t ld memClear => Sys2Proof.Machine.execCxlReset t ld memClear s
  | .flr t ld => Sys2Proof.Machine.execFlr t ld s
  | .busMasterDisable ld => Sys2Proof.Machine.execBusMasterDisable ld s
  | .dmaCompletion t ld tag data => Sys2Proof.Machine.execDmaCompletion t ld tag data s
  | .dmaCompletionTimeout t ld tag => Sys2Proof.Machine.execDmaCompletionTimeout t ld tag s
  | .ideIntegrityFail t port => Sys2Proof.Machine.execIdeIntegrityFail t port s
  | .cdatTableAccess ld => Sys2Proof.Machine.execCdatTableAccess ld s
  | .spdmGetMeasurements ld index signed => Sys2Proof.Machine.execSpdmGetMeasurements ld index signed s
  | .spdmKeyExchange ld => Sys2Proof.Machine.execSpdmKeyExchange ld s
  | .ideKeyProgram ld session activate => Sys2Proof.Machine.execIdeKeyProgram ld session activate s
  | .abortBackgroundOperation h => Sys2Proof.Machine.execAbortBackgroundOperation h s
  | .backgroundCommandComplete t src => Sys2Proof.Machine.execBackgroundCommandComplete t src s
  | .partImageTimeout t src opcode => Sys2Proof.Machine.execPartImageTimeout t src opcode s
  | .snapshotTimeout t src opcode => Sys2Proof.Machine.execSnapshotTimeout t src opcode s
  | .unsupportedCommand h opcode => Sys2Proof.Machine.execUnsupportedCommand h opcode s
  | .getModuleStatus h => Sys2Proof.Machine.execGetModuleStatus h s
  | .getUnitMap h => Sys2Proof.Machine.execGetUnitMap h s
  | .getPartitionMap h o => Sys2Proof.Machine.execGetPartitionMap h o s
  | .getStagedRequestStatus h => Sys2Proof.Machine.execGetStagedRequestStatus h s
  | .discardStagedRequest h => Sys2Proof.Machine.execDiscardStagedRequest h s
  | .keyLd h => Sys2Proof.Machine.execKeyLd h s
  | .zeroiseLdKey h => Sys2Proof.Machine.execZeroiseLdKey h s
  | .getRegionProfile h region => Sys2Proof.Machine.execGetRegionProfile h region s
  | .setRegionProfile h region profile => Sys2Proof.Machine.execSetRegionProfile h region profile s
  | .getExtentDescriptors h o => Sys2Proof.Machine.execGetExtentDescriptors h o s
  | .identifyMemoryDevice h => Sys2Proof.Machine.execIdentifyMemoryDevice h s
  | .getSupportedLogs h => Sys2Proof.Machine.execGetSupportedLogs h s
  | .getLog h isCel offset length => Sys2Proof.Machine.execGetLog h isCel offset length s
  | .getEventRecords h log => Sys2Proof.Machine.execGetEventRecords h log s
  | .clearEventRecords h log all handles => Sys2Proof.Machine.execClearEventRecords h log all handles s
  | .getEventInterruptPolicy h => Sys2Proof.Machine.execGetEventInterruptPolicy h s
  | .setEventInterruptPolicy h modes => Sys2Proof.Machine.execSetEventInterruptPolicy h modes s
  | .getFwInfo h => Sys2Proof.Machine.execGetFwInfo h s
  | .transferFw h slot p => Sys2Proof.Machine.execTransferFw h slot p s
  | .activateFw h online slot => Sys2Proof.Machine.execActivateFw h online slot s
  | .getTimestamp h => Sys2Proof.Machine.execGetTimestamp h s
  | .setTimestamp h value => Sys2Proof.Machine.execSetTimestamp h value s
  | .getHealthInfo h => Sys2Proof.Machine.execGetHealthInfo h s
  | .getPoisonList h dpa lines => Sys2Proof.Machine.execGetPoisonList h dpa lines s
  | .injectPoison h dpa => Sys2Proof.Machine.execInjectPoison h dpa s
  | .clearPoison h dpa data => Sys2Proof.Machine.execClearPoison h dpa data s
  | .getDcConfiguration h first count => Sys2Proof.Machine.execGetDcConfiguration h first count s
  | .getDcExtentList h count start => Sys2Proof.Machine.execGetDcExtentList h count start s
  | .getDcdInfo h => Sys2Proof.Machine.execGetDcdInfo h s
  | .getHostDcRegionConfig h host first count => Sys2Proof.Machine.execGetHostDcRegionConfig h host first count s
  | .getDcRegionExtentLists h host count start => Sys2Proof.Machine.execGetDcRegionExtentLists h host count start s
  | .getLdInfo h => Sys2Proof.Machine.execGetLdInfo h s
  | .getLdAllocations h start limit => Sys2Proof.Machine.execGetLdAllocations h start limit s
  | .fmQosControl h set => Sys2Proof.Machine.execFmQosControl h set s
  | .millerBoot t cause trained => Sys2Proof.Machine.execMillerBoot t cause trained s
  | .millerWatchdog t => Sys2Proof.Machine.execMillerWatchdog t s
  | .millerFetchFault t => Sys2Proof.Machine.execMillerFetchFault t s
  | .firmwareTrialCommit t => Sys2Proof.Machine.execFirmwareTrialCommit t s
  | .getDebugChallenge h => Sys2Proof.Machine.execGetDebugChallenge h s
  | .debugNonceExpire t => Sys2Proof.Machine.execDebugNonceExpire t s
  | .getDebugState h => Sys2Proof.Machine.execGetDebugState h s
  | .setPowerLimit h limit => Sys2Proof.Machine.execSetPowerLimit h limit s
  | .getPowerStatus h => Sys2Proof.Machine.execGetPowerStatus h s
  | .setSelfRefreshIdle h idle => Sys2Proof.Machine.execSetSelfRefreshIdle h idle s
  | .getThermalStatus h => Sys2Proof.Machine.execGetThermalStatus h s
  | .vaux33PowerOn t => Sys2Proof.Machine.execVaux33PowerOn t s
  | .fastOscQualified t xdly => Sys2Proof.Machine.execFastOscQualified t xdly s
  | .crystalQualified t crystal => Sys2Proof.Machine.execCrystalQualified t crystal s
  | .crystalQualTimeout t crystal => Sys2Proof.Machine.execCrystalQualTimeout t crystal s
  | .crystalTrip t crystal => Sys2Proof.Machine.execCrystalTrip t crystal s
  | .fastOscFail t => Sys2Proof.Machine.execFastOscFail t s
  | .pwrgdAssert t => Sys2Proof.Machine.execPwrgdAssert t s
  | .pwrgdDeassert t => Sys2Proof.Machine.execPwrgdDeassert t s
  | .perstAssert t held => Sys2Proof.Machine.execPerstAssert t held s
  | .perstDeassert t => Sys2Proof.Machine.execPerstDeassert t s
  | .vin48Overvoltage t => Sys2Proof.Machine.execVin48Overvoltage t s
  | .vaux33Loss t => Sys2Proof.Machine.execVaux33Loss t s
  | .pllLockLoss t domain unit => Sys2Proof.Machine.execPllLockLoss t domain unit s
  | .pllRelock t domain unit => Sys2Proof.Machine.execPllRelock t domain unit s
  | .clockGateRequest t kind unit => Sys2Proof.Machine.execClockGateRequest t kind unit s
  | .gateHandshakeTimeout t kind unit => Sys2Proof.Machine.execGateHandshakeTimeout t kind unit s
  | .clockGateWake t kind unit => Sys2Proof.Machine.execClockGateWake t kind unit s
  | .sliceDue t slice unit => Sys2Proof.Machine.execSliceDue t slice unit s
  | .sliceGapTimeout t slice unit => Sys2Proof.Machine.execSliceGapTimeout t slice unit s
  | .sliceDeferralExpire t slice unit => Sys2Proof.Machine.execSliceDeferralExpire t slice unit s
  | .sliceComplete t slice unit outcome => Sys2Proof.Machine.execSliceComplete t slice unit outcome s
  | .getTestSchedule h o => Sys2Proof.Machine.execGetTestSchedule h o s
  | .setTestInterval h slice interval => Sys2Proof.Machine.execSetTestInterval h slice interval s
  | .setDeferralLimit h limit => Sys2Proof.Machine.execSetDeferralLimit h limit s
  | .getAgeingTelemetry h o => Sys2Proof.Machine.execGetAgeingTelemetry h o s
  | .getTenteringPlan h => Sys2Proof.Machine.execGetTenteringPlan h s
  | .pathMonitorSample t readings hub => Sys2Proof.Machine.execPathMonitorSample t readings hub s
  | .tenteringRun t waf30 margins => Sys2Proof.Machine.execTenteringRun t waf30 margins s
  | .registerWrite r => Sys2Proof.Machine.execRegisterWrite r s
  | .stoneStepChangeComplete t => Sys2Proof.Machine.execStoneStepChangeComplete t s
  | .holdupBankFailed t => Sys2Proof.Machine.execHoldupBankFailed t s
  | .refreshWindowHot t stack temp => Sys2Proof.Machine.execRefreshWindowHot t stack temp s
  | .burstCreditRefill t => Sys2Proof.Machine.execBurstCreditRefill t s
  | .vin48InputReconnect t => Sys2Proof.Machine.execVin48InputReconnect t s
  | .flitCrcFailure port e header => Sys2Proof.Machine.execFlitCrcFailure port e header s
  | .spdmEndSession ld session => Sys2Proof.Machine.execSpdmEndSession ld session s
  | .busMasterEnable ld => Sys2Proof.Machine.execBusMasterEnable ld s
  | .d3hotEntry ld toD3 => Sys2Proof.Machine.execD3hotEntry ld toD3 s

end Sys2Proof.Machine
end

