-- ==== Sys2Proof/Safety.lean ====
section
/-! DEFINITION. What the claims call a safe step: what no command of the LM9 may break. -/
namespace Sys2Proof.Machine

/-- The stored data keep their canonical form: the sack map, and the block images of T1 and T2. -/
def State.memWf (s : State) : Bool := s.store.sacks.wf && s.store.t1.wf && s.store.t2.wf

/-- The step from `s` to `t` answers a command with the queue's rest untouched, time does not run back, nothing that was sent is taken
back, no anti-rollback fuse is restored, and the stored data keep their canonical form. -/
structure SafeStep (s t : State) : Prop where
  queue : t.pending = s.pending
  time : s.now ≤ t.now
  sent : s.sent <:+ t.sent
  fuses : s.boot.fusemin ≤ t.boot.fusemin
  drawn : s.freeCtr ≤ t.freeCtr
  mem : s.memWf = true → t.memWf = true

/-- The stored data, the sweep with its wheels and schedules, the gates with their slots and bins, and the extents of `t` are those of `s`. -/
structure DataKept (s t : State) : Prop where
  store : t.store = s.store
  sweep : t.sweep = s.sweep
  gate : t.gate = s.gate
  ext : t.ext = s.ext

/-! ### Groups of commands that the frames name -/

/-- Commands that report: they change nothing of the block but their mailbox (its snapshots, failure count, logs and policy). -/
def onlyAnswers (i : Instr) : Bool :=
  match i with
  | .exportSchedule .. | .getWheelStatus .. | .getTableSetStatus .. | .exportCodebook .. | .getDressingInfo ..
  | .getStoneStatus .. | .getSlotStatus .. | .getSequenceStatus .. | .listBins .. | .getGranaryStatus .. | .getWeirStatus ..
  | .getMaxLatency .. | .getCorrectableErrorTable .. | .getUncorrectableErrorLog .. | .getRetirementList .. | .getLedger ..
  | .getResultErrorLog .. | .getUnitHealth .. | .getTestContent .. | .getDigest .. | .getPeerWindow .. | .getModuleStatus ..
  | .getUnitMap .. | .getPartitionMap .. | .getStagedRequestStatus .. | .getRegionProfile .. | .getExtentDescriptors ..
  | .identifyMemoryDevice .. | .getSupportedLogs .. | .getLog .. | .getEventRecords .. | .clearEventRecords ..
  | .getEventInterruptPolicy .. | .setEventInterruptPolicy .. | .getFwInfo .. | .getTimestamp .. | .getHealthInfo ..
  | .getPoisonList .. | .getDcConfiguration .. | .getDcdInfo .. | .getHostDcRegionConfig .. | .getLdInfo ..
  | .getLdAllocations .. | .getDebugState .. | .getThermalStatus .. | .getTestSchedule .. => true
  | _ => false

/-- Commands that act on anything but the stored data, the wheels and schedules, the gates and the extents. -/
def leavesData (i : Instr) : Bool :=
  match i with
  | .governorStep .. | .governorRetreat .. | .thermalStep .. | .thermalRetreat .. | .hubDieFailure .. | .exportSchedule ..
  | .saveSchedule .. | .getWheelStatus .. | .getTableSetStatus .. | .exportCodebook .. | .stoneTake ..
  | .preemptCheckpoint .. | .stoneClearComplete .. | .dressingUnloadDrained .. | .loadDressing .. | .unloadDressing ..
  | .getDressingInfo .. | .registerDressingKey .. | .removeDressingKey .. | .getStoneStatus .. | .setStoneOffline ..
  | .setStoneOnline .. | .getSlotStatus .. | .getSequenceStatus .. | .removeGranaryExtent .. | .listBins ..
  | .getGranaryStatus .. | .forwardExtendTimer .. | .guaranteeRecompute .. | .capacityRiseTimeout .. | .captureWindowEnd ..
  | .setClass .. | .reserveGuarantee .. | .releaseGuarantee .. | .getWeirStatus .. | .setCaptureWindow ..
  | .getMaxLatency .. | .refreshDue .. | .selfRefreshIdle .. | .retrainDue .. | .garbageCollect .. | .wearLevelMove ..
  | .slotProgramDone .. | .readRefresh .. | .patrolRead .. | .dieRebuildComplete .. | .journalPageProgrammed ..
  | .checkpointImageDone .. | .holdupTestDue .. | .gpfPhase1 .. | .gpfPhase2 .. | .setEnduranceBudget ..
  | .testHoldupBank .. | .setHoldupTestPeriod .. | .nearScrubBehind .. | .armFlipMaskNear .. | .armFlipMaskStone ..
  | .flipMaskExpire .. | .disarmFlipMask .. | .setScrubPeriod .. | .setNeighbourRefresh .. | .getCorrectableErrorTable ..
  | .getUncorrectableErrorLog .. | .getRetirementList .. | .clearCorrectableErrorTable .. | .ledgerCoalesceEnd ..
  | .getLedger .. | .getResultErrorLog .. | .setCheckPolicy .. | .getUnitHealth .. | .installTestContent ..
  | .requestCalibration .. | .requestTestSlice .. | .stagePartitionRequest .. | .unlockDebug .. | .getTestContent ..
  | .clearUnitRecord .. | .appendLedgerNote .. | .defineDigestRange .. | .deleteDigestRange .. | .getDigest ..
  | .setDigestReference .. | .runDigest .. | .setDigestPeer .. | .laserAgeing .. | .portL0p ..
  | .portL1Entry .. | .portL2Entry .. | .peerStandbyTimeout .. | .portExitToActive .. | .pack .. | .psettleExtend ..
  | .psettleKindZero .. | .pdigest .. | .pnode .. | .peerBadMessage .. | .pwrPendingResend .. | .forwardTimeout ..
  | .peerGraceEnd .. | .setNodeIdentifier .. | .setPeerWindow .. | .commitPeerWindow .. | .getPeerWindow ..
  | .bindSlotForward .. | .unbindSlotForward .. | .setPeerPort .. | .retrainPort .. | .getPortTelemetry .. | .retrainLink ..
  | .hdmDecoderCommit .. | .cxlRsvdEncoding .. | .badLdId .. | .cxlIoPoisonedWrite .. | .busMasterDisable ..
  | .dmaCompletion .. | .dmaCompletionTimeout .. | .cdatTableAccess .. | .spdmGetMeasurements .. | .spdmKeyExchange ..
  | .ideKeyProgram .. | .partImageTimeout .. | .snapshotTimeout .. | .unsupportedCommand .. | .getModuleStatus ..
  | .getUnitMap .. | .getPartitionMap .. | .getStagedRequestStatus .. | .discardStagedRequest .. | .getRegionProfile ..
  | .getExtentDescriptors .. | .identifyMemoryDevice .. | .getSupportedLogs .. | .getLog .. | .getEventRecords ..
  | .clearEventRecords .. | .getEventInterruptPolicy .. | .setEventInterruptPolicy .. | .getFwInfo .. | .activateFw ..
  | .getTimestamp .. | .setTimestamp .. | .getHealthInfo .. | .getPoisonList .. | .getDcConfiguration ..
  | .getDcExtentList .. | .getDcdInfo .. | .getHostDcRegionConfig .. | .getDcRegionExtentLists .. | .getLdInfo ..
  | .getLdAllocations .. | .fmQosControl .. | .millerWatchdog .. | .millerFetchFault .. | .getDebugChallenge ..
  | .debugNonceExpire .. | .getDebugState .. | .setPowerLimit .. | .getPowerStatus .. | .setSelfRefreshIdle ..
  | .getThermalStatus .. | .vaux33PowerOn .. | .fastOscQualified .. | .crystalQualified .. | .crystalQualTimeout ..
  | .pwrgdAssert .. | .perstDeassert .. | .clockGateRequest .. | .gateHandshakeTimeout .. | .clockGateWake .. | .sliceDue ..
  | .sliceGapTimeout .. | .sliceDeferralExpire .. | .getTestSchedule .. | .setTestInterval .. | .setDeferralLimit ..
  | .getAgeingTelemetry .. | .getTenteringPlan .. | .pathMonitorSample .. | .tenteringRun .. | .stoneStepChangeComplete ..
  | .refreshWindowHot .. | .vin48InputReconnect .. | .flitCrcFailure .. | .spdmEndSession ..
  | .busMasterEnable .. | .d3hotEntry .. => true
  | _ => false

/-! ### What a command that completes has met, and how it is answered -/

/-- A mailbox takes a command: its doorbell rings and no check of R357, steps 1 to 4, fails. -/
def State.takes (s : State) (h : MbHdr) (c : Cmd) : Prop := s.rings h.src = true ∧ s.mbCheck h c = none

/-- The Success of a command's immediate part, with its output; the function's mailbox registers show the command. -/
def State.replied (s : State) (h : MbHdr) (opcode : Nat) (fields : List Fld) (blob : Bytes) : State :=
  (s.noteCmd h.src opcode .success).send (.mailbox h.src opcode .success fields blob)

/-- Background Command Started: the job waits in its mailbox. -/
def State.begun (s : State) (h : MbHdr) (opcode : Nat) (cmd : Instr) : State :=
  (({ s with mbox := { s.mbox with jobs :=
    (h.src, { opcode := opcode, cmd := cmd, start := s.now, started := false, aborted := false }) :: s.mbox.jobs } } : State).noteCmd
    h.src opcode .bgStarted).send (.mailbox h.src opcode .bgStarted [] [])

/-- The snapshot of an output request from its beginning is kept for the requests that follow (R361). -/
def State.snapped (s : State) (h : MbHdr) (opcode : Nat) (bytes : Bytes) (recs : List (List Fld)) : State :=
  let rest := s.mbox.snaps.filter fun n => ¬ (n.src = h.src ∧ n.opcode = opcode)
  let snap : Snap := { src := h.src, opcode := opcode, bytes := bytes, recs := recs, last := s.now }
  { s with mbox := { s.mbox with snaps := snap :: rest } }

/-- The answer to an output request from the beginning of records of `recLen` bytes: how many there are, and as many as fit. -/
def State.repliedRecs (s : State) (h : MbHdr) (opcode recLen : Nat) (o : OutReq) (recs : List (List Fld)) : State :=
  let out := recs.take (if o.maxn = 0 then 65520 / recLen else min o.maxn (65520 / recLen))
  (s.snapped h opcode [] recs).replied h opcode [⟨0, 4, 0⟩, ⟨4, 4, recs.length⟩, ⟨8, 4, out.length⟩] (out.flatMap (layout recLen))

/-- The same for an image of bytes. -/
def State.repliedBytes (s : State) (h : MbHdr) (opcode : Nat) (o : OutReq) (bytes : Bytes) : State :=
  (s.snapped h opcode bytes []).replied h opcode [⟨0, 4, 0⟩, ⟨4, 4, bytes.length⟩] (bytes.take (if o.maxn = 0 then 65520 else min o.maxn 65520))

/-- A packet of a type arrives whole on a peer port that carries traffic: `u` is the state with the port awake (R36, Table 13.6). -/
def State.heard (s : State) (p : PeerHdr) (ptype : Nat) (u : State) : Prop :=
  (p.port = 4 ∨ p.port = 5) ∧ s.carries p.port = true ∧ peerBad p = false ∧ p.ptype = ptype ∧
    u = s.modPort p.port fun q => { q with power := if q.power = .standby then .active else q.power, lastUse := s.now }

/-- A go line passes every check of R171: its slot is `b`, `o` the operation, `u` the state with the operation in its slot. -/
def GoPasses (s : State) (g : GoWrite) (opcode cls handle : Nat) (hasObj : Bool) (check : GoCheck) (b : Nat) (u : State) (o : GateOp) :
    Prop :=
  ∃ (v : State) (p : Bytes) (aux : Nat), s.takeGo g opcode = .accepted b v ∧ v.goShape b g hasObj (cls == 4) = true ∧
    v.noChecker = false ∧ v.copyParams b g.line.plines = some p ∧ check v p = .ok aux ∧ v.disabled handle = false ∧
    o = { opcode := opcode, cls := cls, handle := handle, obj := g.line.obj,
          wclass := (match v.extById (v.slot b).eid with | some e => Prof.wclass e.profile | none => 0), params := p, accepted := v.now,
          order := v.gate.nextOp, wheel := (if g.line.nowheel then none else some (16 * g.ld + g.line.wheel)), early := g.line.early,
          aux := aux } ∧
    u = (v.modGate fun gt => { gt with nextOp := gt.nextOp + 1 }).modSlot b fun x => { x with op := some o }

/-- A queued operation `o` of buffer `b` is the oldest unfinished one of its sequence `q`, so that its turn comes at once; `w` is the
state with the operation begun (R173). -/
def State.turnCome (u : State) (b : Nat) (o : GateOp) (q : KvSeq) (w : State) : Prop :=
  let v := u.useStream (bufLd b) (kvStream (bufLd b) o.obj) o.wclass 0
  oldestOp (v.seqOps (bufLd b) o.obj) = some b ∧ (v.slot b).op = some o ∧ o.begun = false ∧
    w = (v.modOp b fun o => { o with begun := true }) ∧ w.seqOf (bufLd b) o.obj = some q

end Sys2Proof.Machine
end

