-- ==== Sys2Proof/Certificates/Slice0/Obligations.lean ====
section
/-! DEFINITION. The statements for the provers: what the rules of spec/ say that the commands and the block do. -/

open Sys2Proof Sys2Proof.Machine

/-- The command at the front of the queue is carried out on the state with the queue's rest: this is how every statement about `exec`
reaches a step. With no command waiting the block idles (DESIGN CHOICE, log entry 1: the model's, no rule of the spec). -/
def Obligations.StepRunsFront : Prop :=
  (∀ (c : Instr) (rest : List Instr) (s : State), s.pending = c :: rest → step s = exec c { s with pending := rest }) ∧
  (∀ s : State, s.pending = [] → step s = .next s)

/-- Every step is safe, in every state and for every command: the queue's rest is untouched, time does not run back, nothing sent is
taken back, no anti-rollback fuse is restored (R375), and the stored data keep their canonical form. -/
def Obligations.StepsAreSafe : Prop :=
  ∀ (c : Instr) (rest : List Instr) (s t : State), s.pending = c :: rest → step s = .next t → SafeStep { s with pending := rest } t

/-- INVARIANT: the sack map and the block images of T1 and T2 stay in their one canonical form, whatever is commanded. -/
def Obligations.StoredFormInvariant : Prop := ∀ s t : State, s.memWf = true → step s = .next t → t.memWf = true

/-- What reset leaves, as the spec gives it: a module without power, with no command waiting and nothing sent; no LD enabled and no
extent (R431); every wheel CLOSED (R68); every sack UNMAPPED, every slot position UNARMED and every port DARK (Table 13.3); no guarantee,
32 of each share for every class, the window in mode 0 with a 1,000 ms span (R214, R227); one FIRMWARE record in the ledger (R431); and
the stored data in their canonical form. -/
def Obligations.ResetState : Prop :=
  State.reset.memWf = true ∧ State.reset.pending = [] ∧ State.reset.sent = [] ∧ State.reset.phase = .off ∧
  (∀ ld : Nat, ld < 16 → State.reset.ldOn ld = false) ∧ State.reset.ext.exts = [] ∧
  (∀ w : Nat, (State.reset.wheel w).state = .closed) ∧ (∀ k : Nat, (State.reset.sack k).mst = .unmapped) ∧
  (∀ b : Nat, (State.reset.slot b).state = .unarmed) ∧ (∀ p : Nat, (State.reset.portAt p).state = .dark) ∧
  (∀ ld r : Nat, (State.reset.guar ld r).resv = 0) ∧
  (∀ c : Nat, State.reset.weir.classes.get c = { share := 32, cache := 32, queue := 32 }) ∧
  State.reset.weir.mode = 0 ∧ State.reset.weir.span = 1000 ∧ (State.reset.result.ledger.map fun r => r.kind) = [15]

/-- No command of the LM9 stops the machine: in every state, the step of every queue answers a next state. -/
def Obligations.EveryStepAnswers : Prop := ∀ s : State, ∃ t : State, step s = .next t

/-- R431: the state in which a module leaves the factory, which is the state before its first power-up. -/
def Obligations.FactoryState : Prop :=
  State.reset.boot.slotA = State.reset.boot.slotB ∧ State.reset.boot.active = 0 ∧
  State.reset.boot.fusemin = State.reset.boot.slotA.svn ∧
  State.reset.boot.authKey = none ∧ (∀ ld : Nat, ld < 16 → State.reset.ldOn ld = false) ∧
  State.reset.port.node = 0 ∧
  State.reset.result.pkg = [] ∧ State.reset.result.pkgSeq = 0 ∧
  State.reset.result.ledger.length = 1 ∧ (∀ r ∈ State.reset.result.ledger, r.kind = 15) ∧
  State.reset.deep.credit = 4398046511104 ∧ State.reset.deep.budget = 10 ∧
  State.reset.deep.energy = 0
/-- COMPLETION, CXL.mem requests (R15, R330, R336 to R338, R341): a read and a write of a presented LD through a committed decoder reach
the line, as a host access or, in an HDM-DB range over stored data, through the snoop filter; a request with a bad LD-ID is dropped,
counted and answered. `u` is the state once the port has left STANDBY.
Forms that complete: cxlMemRead, cxlMemWrite, badLdId. -/
def Obligations.MemRequestsComplete : Prop :=
  (∀ (port ldid hpa tag : Nat) (mv : MetaVal) (upset a : Nat) (bi : Bool) (s u : State), s.portServes port = true → s.wakePort port = u →
    u.ldidOk port ldid = true → u.hdmDecode ldid hpa = some (a, bi) → u.boot.openSeq = 0 →
    (bi = false → exec (.cxlMemRead port ldid hpa tag mv upset) s = .next (u.hostRead ldid (a / 64 * 64) tag upset)) ∧
    (∀ e : Extent, bi = true → u.access ldid (a / 64 * 64) = .served e →
      exec (.cxlMemRead port ldid hpa tag mv upset) s =
        .next (if Prof.gate e.profile then u.gateRead ldid (a / 64 * 64) tag
          else u.biRequest ldid (a / 64 * 64) tag e false mv [] 0 false upset))) ∧
  (∀ (port ldid hpa tag : Nat) (data : Bytes) (enables : BitVec 64) (poison : Bool) (a : Nat) (bi : Bool) (s u : State),
    s.portServes port = true → (s.wakePort port).ldidOk port ldid = true → (s.wakePort port).poisonSeen ldid poison = u →
    u.hdmDecode ldid hpa = some (a, bi) → u.boot.openSeq = 0 →
    (bi = false → exec (.cxlMemWrite port ldid hpa tag data enables poison) s =
      .next (u.hostWrite ldid (a / 64 * 64) tag (fit 64 data) enables poison false)) ∧
    (∀ e : Extent, bi = true → u.access ldid (a / 64 * 64) = .served e →
      exec (.cxlMemWrite port ldid hpa tag data enables poison) s =
        .next (if Prof.gate e.profile then u.hostWrite ldid (a / 64 * 64) tag data enables poison false
          else u.biRequest ldid (a / 64 * 64) tag e true .any (fit 64 data) enables poison 0))) ∧
  (∀ (port ldid kind tag : Nat) (s : State), s.up = true → port < 4 → s.ldidOk port ldid = false → (kind = 0 → ldid = 0xFFFF → s.boot.fmport ≠ port) →
    exec (.badLdId port ldid kind tag) s = .next ((s.badLdid port).send
      (if kind = 0 then .cxlIo ldid 4 [] [] else if kind = 1 then .memPoison ldid tag else .memDone ldid tag)))

/-- COMPLETION, the write path (R23, R40, R41, R83, R84, R89, R91, R241): what the encoder, the merge buffer, the mirror and the sack
map's journal do when their turn comes.
Forms that complete: sackAllocJournalled, sackEntryRebuild, mergeIdleFlush, encoderWriteDone, mirrorRecordFreed, durableDirtyTimeout,
remirror. -/
def Obligations.WritePathCompletes : Prop :=
  (∀ (t sack : Nat) (s : State), s.up = true → (s.sack sack).mst = .allocating → (s.sack sack).waits = false →
    exec (.sackAllocJournalled t sack) s =
      .next ((((s.at_ t).setSack sack { s.sack sack with
          tier := if (s.sack sack).near then .t1 else .t2
          mst := if (s.sack sack).near then (if (s.sack sack).dirty = 0 then .clean else .dirty) else .deep
          since := (s.at_ t).now }).journal 1).retryHeld (fun r => r.sack == sack) fun w => w.sack == sack)) ∧
  (∀ (t sack : Nat) (e : Extent) (s u : State), s.up = true → s.extOfSack sack = some e →
    ((s.at_ t).restoreEntry sack e).modStore (fun st => { st with corrupt := st.corrupt.filter (· ≠ sack) }) = u →
    exec (.sackEntryRebuild t sack true) s =
      .next (((u.repaired 0 0 2 e.owner (u.dpaOf e (sack * 128))).resumeXfer sack e).retryHeld (fun r => r.sack == sack)
        fun w => w.sack == sack) ∧
    exec (.sackEntryRebuild t sack false) s =
      .next (((u.entryLost sack e).resumeXfer sack e).retryHeld (fun r => r.sack == sack) fun w => w.sack == sack)) ∧
  (∀ (t blk : Nat) (m : MergeEnt) (s : State), s.up = true → s.openEnt blk = some m → m.lastWrite + 64 * us ≤ max s.now t →
    exec (.mergeIdleFlush t blk) s =
      .next (((s.at_ t).passEnt blk true).modStore fun st => { st with mergeRmw := bump 16 st.mergeRmw 1 })) ∧
  (∀ (t blk : Nat) (m : MergeEnt) (e : Extent) (v : StoredBlk) (s u w : State), s.up = true →
    (s.store.merges.find? fun m => m.blk = blk ∧ m.passed = true) = some m → s.extOfSack (blk / 128) = some e →
    m.valid = BitVec.allOnes 512 → (s.at_ t).landing e m = some u →
    (u.modStore fun st => { st with merges := st.merges.filter (· ≠ m) }).encode e m.blk m.data m.order = some (v, w) →
    exec (.encoderWriteDone t blk) s = .next ((((w.land e m.opener m.cls m.blk v).freeMirror m.blk).dropT0 m.blk).afterEncode blk)) ∧
  (∀ (t blk : Nat) (m : MergeEnt) (e : Extent) (s : State), s.up = true →
    (s.store.merges.find? fun m => m.blk = blk ∧ m.passed = true) = some m → s.extOfSack (blk / 128) = some e →
    m.valid ≠ BitVec.allOnes 512 → (s.at_ t).blkNear m.blk = false → (s.at_ t).isPoison m.blk = false →
    exec (.encoderWriteDone t blk) s = .next ((s.at_ t).encodeWait e m)) ∧
  (∀ (t blk : Nat) (s u : State), u.up = true → (s.at_ t).freeMirror blk = u → u.store.mirrors.length < 16777216 →
    exec (.mirrorRecordFreed t blk) s = .next (u.retryWrites fun w => w.why == .mirrorFull)) ∧
  (∀ (t blk : Nat) (s : State), s.up = true → (s.sack (blk / 128)).durable = true → (s.sack (blk / 128)).mst = .dirty →
    (s.sack (blk / 128)).dirty.getLsbD (blk % 128) = true → s.store.dirtySince.get blk + sec ≤ max s.now t →
    exec (.durableDirtyTimeout t blk) s = .next ((s.at_ t).startWriteback (blk / 128) false
      (match s.extOfSack (blk / 128) with | some e => e.eid | none => 0))) ∧
  (∀ (t blk : Nat) (m : Mirror) (e : Extent) (s u : State), s.up = true → (s.store.mirrors.find? fun m => m.blk = blk) = some m →
    s.extOfSack (blk / 128) = some e → (m.stackA = none ∨ m.stackB = none) →
    (s.at_ t).modStore (fun st => { st with mirrors := st.mirrors.map fun x => if x.blk = blk then
      (if m.stackA = none then { m with stackA := (s.at_ t).remirrorPlace e m } else { m with stackB := (s.at_ t).remirrorPlace e m })
      else x }) = u →
    exec (.remirror t blk) s = .next (if u.wt then u else u.modeChanged))

/-- COMPLETION, transfers between tiers (R75, R79, R84, R92, R101, R102, R110, R252, Table 4.7): promotions, evictions, write-backs,
halts and the timers of held reads.
Forms that complete: promotionComplete, victimScan, demotionDrained, writebackComplete, demandReadTimeout, channelHalt,
codecCacheFill. -/
def Obligations.TierMovesComplete : Prop :=
  (∀ (t sack : Nat) (x : Xfer) (s : State), s.up = true → s.xferOf sack = some x → x.chan.isSome = true →
    ((s.sack sack).mst = .promoting ∨ (s.sack sack).mst = .specPromoting) →
    exec (.promotionComplete t sack) s =
      .next (((((((s.at_ t).install sack).modStore fun st => { st with cacheMissing := st.cacheMissing.filter fun u => u / 130 ≠ sack }).retryReads
        fun r => r.sack == sack).endXfer sack).arrived sack).cacheTrim 4096 |>.retryWrites fun w => w.sack == sack && w.why == .completing)) ∧
  (∀ (t stack : Nat) (s : State), s.up = true → s.stackOk stack = true →
    (64 * s.freeFrames stack < s.framesPerStack ∨ s.wantsRun stack = true) →
    exec (.victimScan t stack) s =
      .next ((s.at_ t).evictUntil stack ((s.at_ t).scanGoal stack) (2 * s.store.sacks.keys.length + 2)).framesFreed) ∧
  (∀ (t sack : Nat) (s : State), s.up = true → (s.sack sack).mst = .demoting →
    exec (.demotionDrained t sack) s = .next (((s.at_ t).toDeep sack true).journal 1).framesFreed) ∧
  (∀ (t sack : Nat) (x : Xfer) (s : State), s.up = true → s.xferOf sack = some x → x.chan.isSome = true →
    (s.sack sack).mst = .writeback → ((s.at_ t).mayProgram = true ∨ (s.at_ t).wbExempt sack = true) →
    exec (.writebackComplete t sack) s =
      .next (((s.at_ t).writebackDone sack).framesFreed.retryWrites fun w => w.why == .mirrorFull)) ∧
  (∀ (t rid : Nat) (r : HeldRead) (e : Extent) (s : State), s.up = true → (s.store.heldReads.find? fun r => r.rid = rid) = some r →
    r.why = .demand → r.start + ms ≤ max s.now t → s.extById r.eid = some e →
    exec (.demandReadTimeout t rid) s = .next (((s.at_ t).readThrough r.ld r.cls r.start e r.blk).2.answerRead r
      (match ((s.at_ t).readThrough r.ld r.cls r.start e r.blk).1 with | .through d => some d | _ => none)).wakeOrder) ∧
  (∀ (t channel cause : Nat) (blocks : List Nat) (x : Xfer) (e : Extent) (s : State), s.up = true → cause ≤ 4 →
    (s.store.xfers.find? fun x => x.chan = some channel) = some x → s.extOfSack x.sack = some e →
    exec (.channelHalt t channel cause blocks) s = .next (if cause = 3 then ((s.at_ t).stackFails (s.sack x.sack).stack).noteVitals (s.at_ t)
      else (s.at_ t).haltXfer x e channel cause
        ((if cause = 2 then blocks.flatMap unitBlocks else blocks).filter fun b => b / 128 == x.sack))) ∧
  (∀ (t blk : Nat) (s : State), s.up = true →
    exec (.codecCacheFill t blk) s =
      .next (((s.at_ t).modStore fun st => { st with cacheMissing := st.cacheMissing.filter fun u => u ≠ cacheUnit blk ∧ u ≠ cacheCopy blk }).retryReads
        fun r => r.why == .codecCache && r.blk / 64 == blk / 64))

/-- COMPLETION, gate slots (R168, R176, R177, R182): a line written to a position, a result read, the end of a hold time, and the two go
lines that start no operation: NOP becomes READY at once, and a reserved opcode FAILED with code 1.
Forms that complete: gateParamWrite, gateResultRead, gateHoldExpire, gateNop, gateOpcodeReserved. -/
def Obligations.GateLinesComplete : Prop :=
  (∀ (ld dpa : Nat) (data : Bytes) (enables : BitVec 64) (e : Extent) (b : Nat) (s u : State), (s.poisonSeen ld false).settleLeaving = u →
    u.up = true → u.access ld dpa = .served e → Prof.gate e.profile = true → u.bufAt ld dpa = some b → dpa / 64 % 1024 ≠ 0 →
    exec (.gateParamWrite ld dpa data enables false) s = .next (u.slotWrite ld b (dpa / 64 % 1024) data enables false)) ∧
  (∀ (ld dpa tag : Nat) (e : Extent) (s u : State), s.settleLeaving = u → u.up = true → u.access ld dpa = .served e →
    Prof.gate e.profile = true → exec (.gateResultRead ld dpa tag) s = .next (u.gateRead ld dpa tag)) ∧
  (∀ (t rid : Nat) (r : ResRead) (s u : State), (s.gate.reads.find? fun r => r.rid = rid) = some r →
    r.start + (s.slot r.buf).hold * us ≤ max s.now t →
    ((s.at_ t).modGate fun g => { g with reads := g.reads.filter fun x => x.rid ≠ rid }).modGateLd r.ld
      (fun l => { l with expired := bump 16 l.expired 1 }) = u →
    exec (.gateHoldExpire t rid) s =
      .next ((u.modSlot r.buf fun x => { x with holdexp := true }).sendPoison r.ld r.tag (u.slotClass r.buf))) ∧
  (∀ (g : GoWrite) (b : Nat) (p : Bytes) (s v : State), s.takeGo g 0 = .accepted b v → v.goShape b g false false = true →
    v.copyParams b g.line.plines = some p → exec (.gateNop g) s = .next (v.settleSlot b .ready 0 0 [] false)) ∧
  (∀ (g : GoWrite) (opcode b : Nat) (s v : State), s.takeGo g opcode = .accepted b v →
    exec (.gateOpcodeReserved g opcode) s = .next (v.failGo b 1 0))

/-- COMPLETION, the operations of the gates (R173, R187, R189 to R191, R194, R196 to R198, R201, R203, Table 7.6): a go line that passes
its checks queues its operation, an append with its record already written; where it is the oldest of its sequence (`turnCome`), it takes
effect at once: the sequence's length, a bin looked up, attached or made, copies begun, a walk's streams, or its pieces.
Forms that complete: appendAttend, chunkPrefill, prefixAttach, prefixPublish, seqTruncate, graphSearch, distanceBatch, setIntersect,
setUnion, setDifference, tenant, prefillWritesDone, publishCommit. -/
def Obligations.GateOpsComplete : Prop :=
  (∀ (g : GoWrite) (b : Nat) (o : GateOp) (s u : State),
    GoPasses s g 0x0100 0 (s.builtinFor 0) true (apCheck g.ld g.line.obj g.line.plines) b u o →
    exec (.appendAttend g) s = .next ((u.appendRecord g.ld o).queueSeq b o) ∧
    (∀ (q : KvSeq) (w : State), (u.appendRecord g.ld o).turnCome b o q w → exec (.appendAttend g) s = .next
      (((if apNoAppend o.params = true then w else w.cutPrefix (bufLd b) o.obj (apPos o.params)).startPieces b { o with begun := true }).startSeqOps
        (bufLd b) o.obj 128))) ∧
  (∀ (g : GoWrite) (b : Nat) (o : GateOp) (s u : State),
    GoPasses s g 0x0102 0 (s.builtinFor 0) true (cpCheck g.ld g.line.obj g.line.plines) b u o →
    exec (.chunkPrefill g) s = .next (u.queueSeq b o) ∧
    (∀ (q : KvSeq) (v w : State), u.turnCome b o q w →
      ((w.cutPrefix (bufLd b) o.obj (apPos o.params)).modSeq (bufLd b) o.obj fun q => { q with len := min q.len (apPos o.params) }).holdOp b
        { o with begun := true } = v →
      exec (.chunkPrefill g) s =
        .next ((hubWork b (v.copyAll o.wclass (v.prefillCopies q o.params))).startSeqOps (bufLd b) o.obj 128))) ∧
  (∀ (g : GoWrite) (b : Nat) (o : GateOp) (s u : State),
    GoPasses s g 0x0101 0 noHandle true (paCheck g.ld g.line.obj g.line.plines) b u o →
    exec (.prefixAttach g) s = .next (u.queueSeq b o) ∧
    (∀ (q : KvSeq) (w : State), u.turnCome b o q w → q.len = 0 → w.lookup q.ld (o.params.take 32) (leAt o.params 32 8) = none →
      exec (.prefixAttach g) s = .next ((((w.modGateLd q.ld fun l => { l with misses := bump 32 l.misses 1 }).modSlot b
        fun x => { x with miss := true }).finish0 b .ready 0 0 [] false).startSeqOps (bufLd b) o.obj 128)) ∧
    (∀ (q : KvSeq) (n : Bin) (v w : State), u.turnCome b o q w → q.len = 0 →
      w.lookup q.ld (o.params.take 32) (leAt o.params 32 8) = some n →
      w.modGateLd q.ld (fun l => { l with hits := bump 32 l.hits 1 }) = v → n.geom = v.geomOf q → n.plen ≤ q.maxpos →
      ((v.binView q.ld n).any fun e => e.state == .active) = true →
      exec (.prefixAttach g) s = .next ((((v.attachBin q.ld n.id).modSeq q.ld q.id fun q =>
        { q with len := n.plen, plen := n.plen, bin := if n.plen = 0 then none else some n.id, binGone := false }).finish0 b
          .ready 0 n.plen [] false).startSeqOps (bufLd b) o.obj 128))) ∧
  (∀ (g : GoWrite) (b : Nat) (o : GateOp) (s u : State),
    GoPasses s g 0x0103 0 noHandle true (ppCheck g.ld g.line.obj g.line.plines) b u o →
    exec (.prefixPublish g) s = .next (u.queueSeq b o) ∧
    (∀ (q : KvSeq) (x : Bin) (w : State), u.turnCome b o q w → leAt o.params 40 4 ≤ q.len →
      w.lookup q.ld (o.params.take 32) (leAt o.params 32 8) = some x →
      exec (.prefixPublish g) s = .next (((w.modSlot b fun x => { x with exists_ := true }).finish0 b .ready 0 x.id [] false).startSeqOps
        (bufLd b) o.obj 128)) ∧
    (∀ (q : KvSeq) (e : Extent) (base : Nat) (n : Bin) (v w y : State), u.turnCome b o q w → leAt o.params 40 4 ≤ q.len →
      w.lookup q.ld (o.params.take 32) (leAt o.params 32 8) = none → (w.publishExts q).isEmpty = false →
      w.makeRoom (w.party q.ld) (w.publishExts q) (binBytes q.layers (leAt o.params 40 4) (w.psz q)) (w.evictable (w.party q.ld)) =
        some (e, base, v) →
      n = {
          id := v.freshBin
          key := o.params.take 32
          sig := leAt o.params 32 8
          plen := leAt o.params 40 4
          geom := v.geomOf q
          base := base
          eid := e.eid
          owner := e.ld
          pub := q.ld
          bytes := binBytes q.layers (leAt o.params 40 4) (w.psz q)
          last := v.timeOf q.ld } →
      (((v.modGate fun gt => { gt with bins := gt.bins ++ [n] }).modOp b fun o => { o with bin := some n.id }).holdOp b
        { o with begun := true, bin := some n.id }) = y →
      exec (.prefixPublish g) s =
        .next ((hubWork b (y.copyAll o.wclass (y.publishCopies q n))).startSeqOps (bufLd b) o.obj 128))) ∧
  (∀ (g : GoWrite) (b : Nat) (o : GateOp) (s u : State),
    GoPasses s g 0x0104 0 noHandle true (stCheck g.ld g.line.obj g.line.plines) b u o →
    exec (.seqTruncate g) s = .next (u.queueSeq b o) ∧
    (∀ (q : KvSeq) (w : State), u.turnCome b o q w → exec (.seqTruncate g) s =
      .next ((((w.cutPrefix (bufLd b) o.obj (min q.len (leAt o.params 0 4))).modSeq (bufLd b) o.obj fun x =>
        { x with len := min q.len (leAt o.params 0 4) }).finish0 b .ready 0 o.aux [] false).startSeqOps (bufLd b) o.obj 128))) ∧
  (∀ (g : GoWrite) (b : Nat) (o : GateOp) (s u : State),
    GoPasses s g 0x0200 1 (s.builtinFor 1) true (gsCheck g.ld g.line.obj g.line.plines) b u o →
    exec (.graphSearch g) s =
      .next (((List.range (leAt o.params 0 2)).foldl (fun s q => s.openStream g.ld (walkStream b q) o.wclass) u).startPieces b o)) ∧
  (∀ (g : GoWrite) (b : Nat) (o : GateOp) (s u : State),
    GoPasses s g 0x0201 2 (s.builtinFor 2) true (dbCheck g.ld g.line.obj g.line.plines) b u o →
    exec (.distanceBatch g) s = .next (u.startPieces b o)) ∧
  (∀ (g : GoWrite) (b : Nat) (o : GateOp) (s u : State), GoPasses s g 0x0300 3 (s.builtinFor 3) false (soCheck g.ld g.line.plines) b u o →
    exec (.setIntersect g) s = .next (u.startPieces b o)) ∧
  (∀ (g : GoWrite) (b : Nat) (o : GateOp) (s u : State), GoPasses s g 0x0301 3 (s.builtinFor 3) false (soCheck g.ld g.line.plines) b u o →
    exec (.setUnion g) s = .next (u.startPieces b o)) ∧
  (∀ (g : GoWrite) (b : Nat) (o : GateOp) (s u : State), GoPasses s g 0x0302 3 (s.builtinFor 3) false (soCheck g.ld g.line.plines) b u o →
    exec (.setDifference g) s = .next (u.startPieces b o)) ∧
  (∀ (g : GoWrite) (b : Nat) (o : GateOp) (s u : State),
    GoPasses s g 0x0400 4 g.line.handle false (teCheck g.ld g.line.handle g.line.plines) b u o →
    exec (.tenant g) s = .next (u.startPieces b o)) ∧
  (∀ (t ld buf : Nat) (o : GateOp) (q : KvSeq) (s u : State), s.up = true → buf < 128 → (s.slot (128 * ld + buf)).op = some o →
    o.opcode = 0x0102 → o.begun = true → (s.slot (128 * ld + buf)).state = .running → o.pieces = [] → (s.at_ t).landed o.hub = true →
    (s.at_ t).inputsOk o = true → s.seqOf ld o.obj = some q →
    (((s.at_ t).modSeq ld o.obj fun x => { x with len := prefillLen x o.params }).modOp (128 * ld + buf) fun x =>
      { x with aux := prefillLen q o.params }) = u →
    exec (.prefillWritesDone t ld buf) s = .next (if u.pieceCount ld o = 0
      then u.finish (128 * ld + buf) .ready 0 (prefillLen q o.params) [] false
      else u.dispatchAll (128 * ld + buf) { o with aux := prefillLen q o.params })) ∧
  (∀ (t ld buf id : Nat) (o : GateOp) (s : State), s.up = true → buf < 128 → (s.slot (128 * ld + buf)).op = some o → o.opcode = 0x0103 →
    o.bin = some id → o.begun = true → (s.slot (128 * ld + buf)).state = .running → (s.at_ t).landed o.hub = true →
    (s.at_ t).inputsOk o = true →
    exec (.publishCommit t ld buf) s = .next ((((s.at_ t).modBin id fun n => { n with committed := true, last := (s.at_ t).timeOf ld }).journal 1).finish
      (128 * ld + buf) .ready 0 id [] false))

/-- COMPLETION, the commands of gates, sequences and indexes (R166, R183, R191, R192, R206, Table 7.11 C060h to C067h): each that passes
its own rules answers Success with what it names.
Forms that complete: armGateSlots, disarmGateSlots, getSlotStatus, openSequence, closeSequence, getSequenceStatus, defineIndex,
deleteIndex. -/
def Obligations.GateCommandsComplete : Prop :=
  (∀ (h : MbHdr) (dpa count hold : Nat) (e : Extent) (s : State), s.takes h { opcode := 0xC060, ld := true, fm := .no, len := [24] } →
    s.extAt h.src dpa = some e → e.state = .active → Prof.gate e.profile = true → dpa % 65536 = 0 → 0 < count → count ≤ 128 →
    dpa + 65536 * count ≤ e.base + e.len → 10 ≤ hold → hold ≤ 16000 →
    (∀ p ∈ slotPositions dpa count, s.bufAt h.src p = none) →
    ((ldBufs h.src).filter fun b => (s.slot b).state != .unarmed).length + (slotPositions dpa count).length ≤ 128 →
    exec (.armGateSlots h dpa count hold) s =
      .next (((slotPositions dpa count).foldl (fun s p => s.armOne h.src p e.eid hold) s).replied h 0xC060 [] [])) ∧
  (∀ (h : MbHdr) (dpa count : Nat) (force : Bool) (bs : List Nat) (s : State),
    s.takes h { opcode := 0xC061, ld := true, fm := .no, len := [25] } → dpa % 65536 = 0 → 0 < count → count ≤ 128 →
    (slotPositions dpa count).map (s.bufAt h.src) = bs.map some → (force = true ∨ ∀ b ∈ bs, (s.slot b).state.busy = false) →
    exec (.disarmGateSlots h dpa count force) s =
      .next ((bs.foldl (fun s b => (if (s.slot b).state.busy then s.cancelGate b else s).unarm b) s).replied h 0xC061 [] [])) ∧
  (∀ (h : MbHdr) (dpa b : Nat) (s : State), s.takes h { opcode := 0xC062, ld := true, fm := .ld, len := [16] } →
    s.bufAt (whoOf h) dpa = some b → dpa % 65536 = 0 →
    exec (.getSlotStatus h dpa) s = .next (s.replied h 0xC062 [] ((s.slot b).status ++ leBytes 4 (s.slot b).hold))) ∧
  (∀ (h : MbHdr) (sbase layers hkv g d maxpos id : Nat) (e : Extent) (s : State),
    s.takes h { opcode := 0xC063, ld := true, fm := .no, len := [28], store := true } → s.extAt h.src sbase = some e → e.state = .active →
    Prof.lossy e.profile = true → (Prof.src e.profile = 0 ∨ Prof.src e.profile = 1 ∨ Prof.src e.profile = 3 ∨ Prof.src e.profile = 4) →
    sbase % 65536 = 0 → 1 ≤ layers → layers ≤ 1024 → 1 ≤ hkv → hkv ≤ 64 → 1 ≤ g → g ≤ 16 → (d = 64 ∨ d = 128 ∨ d = 256) →
    maxpos % 2048 = 0 → 2048 ≤ maxpos → maxpos ≤ 1048576 → 2 * hkv * d * (srcBits (Prof.src e.profile) / 8) % 512 = 0 →
    sbase + layers * maxpos * (2 * hkv * d * (srcBits (Prof.src e.profile) / 8)) ≤ e.base + e.len →
    lowestFree ((s.gate.seqs.filter fun q => q.ld = h.src).map KvSeq.id) 16384 = some id →
    exec (.openSequence h sbase layers hkv g d maxpos) s =
      .next (((s.modGate fun x => { x with seqs := x.seqs ++ [({ ld := h.src, id := id, eid := e.eid, sbase := sbase, layers := layers, hkv := hkv, g := g, d := d, maxpos := maxpos } : KvSeq)] }).openStream h.src (kvStream h.src id) (Prof.wclass e.profile)).replied h 0xC063 [⟨0, 2, id⟩] [])) ∧
  (∀ (h : MbHdr) (seq : Nat) (q : KvSeq) (s : State), s.takes h { opcode := 0xC064, ld := true, fm := .no, len := [10], store := true } →
    s.seqOf h.src seq = some q → s.seqOps h.src seq = [] → q.bin = none →
    exec (.closeSequence h seq) s =
      .next (((s.modGate fun x => { x with seqs := x.seqs.filter fun y => ¬ (y.ld = h.src ∧ y.id = seq) }).freeStream
        (kvStream h.src seq)).replied h 0xC064 [] [])) ∧
  (∀ (h : MbHdr) (seq : Nat) (q : KvSeq) (s : State), s.takes h { opcode := 0xC065, ld := true, fm := .no, len := [10], store := true } →
    s.seqOf h.src seq = some q →
    exec (.getSequenceStatus h seq) s = .next (s.replied h 0xC065 [⟨0, 8, q.sbase⟩, ⟨8, 2, q.layers⟩, ⟨10, 1, q.hkv⟩, ⟨11, 1, q.g⟩, ⟨12, 2, q.d⟩,
      ⟨16, 4, q.maxpos⟩, ⟨20, 4, q.len⟩, ⟨24, 4, q.plen⟩, ⟨28, 4, q.bin.getD 0xFFFFFFFF⟩] [])) ∧
  (∀ (h : MbHdr) (vbase abase nv entry dim vfmt deg metric id : Nat) (x : VecIndex) (s : State),
    x = { ld := h.src, id := id, vbase := vbase, abase := abase, nv := nv, entry := entry, dim := dim, vfmt := vfmt, deg := deg, metric := metric } →
    s.takes h { opcode := 0xC066, ld := true, fm := .no, len := [37] } → 1 ≤ vfmt → vfmt ≤ 5 → 32 ≤ dim → dim ≤ 4096 →
    x.vecBytes % 64 = 0 → 1 ≤ nv → nv ≤ 2 ^ 32 - 2 → (deg = 16 ∨ deg = 32 ∨ deg = 48 ∨ deg = 64) → entry < nv →
    metric ≤ 1 →
    s.rangesCode h.src vbase (nv * x.vecBytes) s.ext.exts.length = 0 →
    s.rangesCode h.src abase (nv * deg * 4) s.ext.exts.length = 0 →
    lowestFree ((s.gate.indexes.filter fun x => x.ld = h.src).map VecIndex.id) 64 = some id → id < 64 →
    exec (.defineIndex h vbase abase nv entry dim vfmt deg metric) s =
      .next ((s.modGate fun g => { g with indexes := g.indexes ++ [x] }).replied h 0xC066 [⟨0, 1, id⟩] [])) ∧
  (∀ (h : MbHdr) (index : Nat) (x : VecIndex) (s : State), s.takes h { opcode := 0xC067, ld := true, fm := .no, len := [9] } →
    s.indexOf h.src index = some x → (∀ b ∈ ldBufs h.src, (s.slot b).state.busy = false) →
    exec (.deleteIndex h index) s =
      .next ((s.modGate fun g => { g with indexes := g.indexes.filter fun x => ¬ (x.ld = h.src ∧ x.id = index) }).replied h 0xC067 [] []))

/-- COMPLETION, the commands of the granary (R199, R202, R204 to R206, Table 7.11 C070h to C075h).
Forms that complete: addGranaryExtent, removeGranaryExtent, deleteBin, setBinAttributes, listBins, getGranaryStatus. -/
def Obligations.GranaryCommandsComplete : Prop :=
  (∀ (h : MbHdr) (base : Nat) (e : Extent) (s : State), s.takes h { opcode := 0xC070, ld := true, fm := .no, len := [16] } →
    s.extAt h.src base = some e → e.base = base → e.isAlias = false → e.state = .active → Prof.lossy e.profile = true →
    s.gate.granary.contains e.eid = false → s.gate.granary.length < 8 →
    exec (.addGranaryExtent h base) s =
      .next (((s.modGate fun g => { g with granary := g.granary ++ [e.eid] }).journal 1).replied h 0xC070 [] [])) ∧
  (∀ (h : MbHdr) (base : Nat) (e : Extent) (s : State), s.takes h { opcode := 0xC071, ld := true, fm := .no, bg := true, len := [16] } →
    s.granaryAt h.src base = some e → (∀ b ∈ s.gate.bins, b.eid = e.eid → b.attach = 0) →
    exec (.removeGranaryExtent h base) s = .next (s.begun h 0xC071 (.removeGranaryExtent h base))) ∧
  (∀ (h : MbHdr) (key : Bytes) (sig : Nat) (b : Bin) (s : State), s.takes h { opcode := 0xC072, ld := true, fm := .no, len := [48] } →
    s.lookup h.src (fit 32 key) sig = some b →
    exec (.deleteBin h key sig) s = .next ((if b.attach = 0 then s.freeBin b.id
      else (s.modBin b.id fun x => { x with hidden := true }).journal 1).replied h 0xC072 [] [])) ∧
  (∀ (h : MbHdr) (key : Bytes) (sig attr : Nat) (b : Bin) (s : State), s.takes h { opcode := 0xC073, ld := true, fm := .no, len := [49] } →
    s.lookup h.src (fit 32 key) sig = some b → attr < 8 → attr / 2 ≠ 3 →
    exec (.setBinAttributes h key sig attr) s =
      .next ((((s.modBin b.id fun x => { x with pin := bitOf attr 0, near := attr / 2 }).fixNear b.id).journal 1).replied h 0xC073 [] [])) ∧
  (∀ (h : MbHdr) (o : OutReq) (s : State), s.takes h { opcode := 0xC074, ld := true, fm := .no, len := [16] } → o.first = 0 →
    exec (.listBins h o) s = .next (s.repliedRecs h 0xC074 80 o ((s.visibleBins h.src).map Bin.fields))) ∧
  (∀ (h : MbHdr) (s : State), s.takes h { opcode := 0xC075, ld := true, fm := .module } → 16 ≤ h.src →
    exec (.getGranaryStatus h) s = .next (s.replied h 0xC075
      [⟨0, 4, (s.gate.bins.filter fun b => b.committed && !b.hidden).length⟩,
       ⟨12, 8, (((s.gate.granary.filterMap s.extById).map s.granaryUsed).foldl (· + ·) 0)⟩,
       ⟨20, 8, ((s.gate.granary.filterMap s.extById).map Extent.len).foldl (· + ·) 0
         - (((s.gate.granary.filterMap s.extById).map s.granaryUsed).foldl (· + ·) 0)⟩] []))


/-- COMPLETION, pieces on the stones (R137, R141, R142, R145, R151, R154, R156 to R158): a piece starts on a stone of its own party or a
clear begins, reads, takes, ends, and is stopped by its watchdog, its accumulators, its code or a pre-emption.
Forms that complete: pieceStart, pieceEnd, stoneReadRequest, hopperLineDeliver, stoneTake, checkpointWatchdog, accumulatorLimit,
codeFetchTrap, preemptCheckpoint. -/
def Obligations.PiecesComplete : Prop :=
  (∀ (t stone : Nat) (p : Piece) (s : State), s.up = true → stone < 192 → (s.stoneAt stone).state = .online → (s.stoneAt stone).running = none →
    (s.at_ t).dieStopped (stoneDie stone) = false → (s.at_ t).nextPiece (s.stoneAt stone).queue = some p →
    ((s.stoneAt stone).clean = false → (s.stoneAt stone).party ≠ some ((s.at_ t).party p.ld) →
      exec (.pieceStart t stone) s = .next (((s.at_ t).chargeCycles p.ld 4160).beginClear stone)) ∧
    (((s.stoneAt stone).clean = true ∨ (s.stoneAt stone).party = some ((s.at_ t).party p.ld)) → (s.at_ t).mayStart stone p = true →
      ∀ (load : Nat) (u : State), load = (if (s.stoneAt stone).loaded = some p.handle then 0 else hdrCode ((s.at_ t).hdr p.handle) / 64) →
      u = (s.at_ t).takePiece stone p load →
      exec (.pieceStart t stone) s = .next (((u.serveAs p.inG p.ld 3 p.wclass load
          (match (u.slot p.buf).op with | some o => u.now - o.accepted | none => 0)
          (match (u.slot p.buf).op with | some o => o.wheel | none => none)).modSlot p.buf
        fun x => { x with state := if x.state = .queued then .running else x.state }).placeWaiting))) ∧
  (∀ (t stone : Nat) (p : Piece) (o : GateOp) (s : State), s.up = true → (s.stoneAt stone).running = some p → (s.slot p.buf).op = some o →
    ∀ out : PieceOut, (s.at_ t).evalPiece p.ld o p.idx (s.stoneAt stone).inputs = out →
    exec (.pieceEnd t stone) s = .next ((((s.at_ t).chargeRun stone p).stoneIdle stone).pieceEnded p stone
      { out with poison := out.poison || p.poison, iso := out.iso || p.iso })) ∧
  (∀ (t stone tag dpa count : Nat) (p : Piece) (s : State), s.up = true → (s.stoneAt stone).running = some p → tag < 512 → 0 < count →
    count ≤ 16 → s.tagOf stone tag = none → (s.stoneAt stone).slotsUsed + count ≤ 4096 →
    ((s.at_ t).crosses p (dpa / 64 * 64) count = false → ∀ u : State,
      u = (match (s.at_ t).settleLeaving.pieceWheel p (dpa / 64 * 64) with
        | some w => (s.at_ t).settleLeaving.noteRead w (dpa / 64 * 64 / 65536) (some (stoneDie stone))
        | none => (s.at_ t).settleLeaving) →
      exec (.stoneReadRequest t stone tag dpa count) s = .next (u.modStone stone fun x => { x with
        running := some (u.noteInput p (dpa / 64 * 64))
        tags := x.tags ++ [{ tag := tag, dpa := dpa / 64 * 64, count := count, lines := [] }] })) ∧
    ((s.at_ t).crosses p (dpa / 64 * 64) count = true → ∀ v u : State,
      v = (List.range count).foldl (fun s i => s.crossLine p (dpa / 64 * 64 + 64 * i)) (s.at_ t).settleLeaving →
      u = (match v.pieceWheel p (dpa / 64 * 64) with
        | some w => v.noteRead w (dpa / 64 * 64 / 65536) (some (stoneDie stone))
        | none => v) →
      exec (.stoneReadRequest t stone tag dpa count) s =
        .next ((List.range count).foldl (fun s i => s.putPoison stone tag i) (u.modStone stone fun x => { x with
          running := some (u.noteInput p (dpa / 64 * 64))
          tags := x.tags ++ [{ tag := tag, dpa := dpa / 64 * 64, count := count, lines := [] }] })))) ∧
  (∀ (t stone tag line upset : Nat) (p : Piece) (r : ReadTag) (e : Extent) (s u : State), s.up = true → (s.stoneAt stone).running = some p →
    s.tagOf stone tag = some r → line < r.count → (∀ x ∈ r.lines, x.line ≠ line) → (s.at_ t).settleLeaving = u →
    u.pieceAccess p (r.dpa + 64 * line) = .served e →
    exec (.hopperLineDeliver t stone tag line upset) s = .next (u.hopperServe p stone tag line upset e (r.dpa + 64 * line))) ∧
  (∀ (t stone tag : Nat) (p : Piece) (r : ReadTag) (s : State), s.up = true → (s.stoneAt stone).running = some p →
    s.tagOf stone tag = some r →
    (r.lines.length = r.count → exec (.stoneTake t stone tag) s = .next ((s.at_ t).modStone stone fun st => { st.endStall (s.at_ t).cyc with
      tags := st.tags.filter fun x => x.tag ≠ tag
      took := r.lines.foldr insertLine []
      inputs := st.inputs ++ (r.lines.foldr insertLine []).map HopLine.data
      running := some { p with poison := p.poison || (r.lines.foldr insertLine []).any fun x => x.status == 3 } })) ∧
    (r.lines.length ≠ r.count → (s.stoneAt stone).taking = none →
      exec (.stoneTake t stone tag) s = .next ((s.at_ t).modStone stone fun st => { st with taking := some (tag, (s.at_ t).cyc) }))) ∧
  (∀ (t stone : Nat) (p : Piece) (s : State), s.up = true → (s.stoneAt stone).running = some p →
    2 * hdrCkptUs ((s.at_ t).hdr p.handle) * 3600 ≤ (s.at_ t).issued (s.stoneAt stone) →
    exec (.checkpointWatchdog t stone) s = .next ((((((((s.at_ t).chargeRun stone p).recordFault stone p false).countWatchdog p.handle).stoneIdle
      stone).modSlot p.buf fun x => { x with replayed := true })).placePiece
        { p with poison := false, iso := false, saved := false, notStones := stone :: p.notStones })) ∧
  (∀ (t stone : Nat) (p : Piece) (s : State), s.up = true → (s.stoneAt stone).running = some p →
    2 ^ 47 ≤ (s.at_ t).productBound (s.stoneAt stone) →
    exec (.accumulatorLimit t stone) s = .next ((((s.at_ t).recordFault stone p true).countWatchdog p.handle).abortPiece stone p { abort := 13 })) ∧
  (∀ (t stone : Nat) (p : Piece) (s : State), s.up = true → (s.stoneAt stone).running = some p →
    exec (.codeFetchTrap t stone) s = .next ((((s.at_ t).abortPiece stone p { poison := true }).modStone stone
      fun st => { st with loaded := none }).ueLog ((s.at_ t).trapUnit stone).1 ((s.at_ t).trapUnit stone).2 0 2 p.ld 0)) ∧
  (∀ (t stone : Nat) (p : Piece) (s : State), s.up = true → (s.stoneAt stone).running = some p → (s.stoneAt stone).preempt = true →
    (s.stoneAt stone).slices = [] → ∀ u : State, u = ((((s.at_ t).modStnLd p.ld fun l => { l with preempt := bump 32 l.preempt 1 }).chargeRun
      stone p).stoneIdle stone) →
    exec (.preemptCheckpoint t stone) s = .next ((u.saveCkpt stone p).2.placePiece { p with
      ahead := true
      saved := (u.saveCkpt stone p).1
      poison := p.poison && (u.saveCkpt stone p).1 }))

/-- COMPLETION, stones and dressings (R25, R148 to R150, R160, R163, R164, R363, C050h to C057h).
Forms that complete: stoneClearComplete, stoneFailure, dressingUnloadDrained, loadDressing, unloadDressing, getDressingInfo,
registerDressingKey, removeDressingKey, getStoneStatus, setStoneOffline, setStoneOnline. -/
def Obligations.StonesComplete : Prop :=
  (∀ (t stone : Nat) (s u : State), (s.stoneAt stone).state = .clearing → 4160 ≤ (s.at_ t).cycSince (s.stoneAt stone).clearAt →
    (s.stoneAt stone).slices = [] → u = (s.at_ t).modStone stone (fun x => { x.zeroed with
      state := (s.stoneAt stone).afterClear
      cleared := (s.at_ t).cyc
      toOffline := x.toOffline && (s.stoneAt stone).afterClear == .test }) →
    exec (.stoneClearComplete t stone) s = .next u.placeWaiting.caps) ∧
  (∀ (t stone : Nat) (s : State), s.up = true → stone < 192 →
    exec (.stoneFailure t stone) s = .next (((s.at_ t).stoneFails stone).caps.noteVitals (s.at_ t))) ∧
  (∀ (t handle : Nat) (d : Dressing) (s : State), (s.at_ t).dressing handle = some d → d.stopped = true → (s.at_ t).piecesOf handle = 0 →
    exec (.dressingUnloadDrained t handle) s =
      .next { s.at_ t with stone := { s.stone with lib := s.stone.lib.filter fun x => x.1 ≠ handle } }) ∧
  (∀ (h : MbHdr) (p : Part) (img : Bytes) (s v : State),
    s.takes h { opcode := 0xC050, ld := true, fm := .no, bg := p.final, len := [], lenFrom := some 32 } →
    h.len = 32 + p.data.length → s.takePart h.src 0xC050 p = .whole v img → img.length = p.total →
    exec (.loadDressing h p) s = .next (v.begun h 0xC050 (.loadDressing h { p with data := img }))) ∧
  (∀ (h : MbHdr) (handle : Nat) (d : Dressing) (lib : List (Nat × Dressing)) (s : State),
    s.takes h { opcode := 0xC051, ld := true, fm := .no, len := [10] } → s.dressing handle = some d → d.party = s.party h.src →
    lib = (if s.piecesOf handle = 0 then s.stone.lib.filter fun x => x.1 ≠ handle
      else s.stone.lib.map fun x => if x.1 = handle then (x.1, { x.2 with stopped := true }) else x) →
    exec (.unloadDressing h handle) s = .next (({ s with stone := { s.stone with lib := lib } } : State).replied h 0xC051 [] [])) ∧
  (∀ (h : MbHdr) (handle : Nat) (d : Dressing) (s : State), s.takes h { opcode := 0xC052, ld := true, fm := .either, len := [10] } →
    s.dressing handle = some d → d.party = s.party h.src →
    exec (.getDressingInfo h handle) s = .next (s.replied h 0xC052 [] (s.hdr handle ++ layout 4
      [⟨0, 1, (if d.disabled then 3 else if d.stopped then 2 else 1)⟩,
       ⟨2, 2, (allStones.filter fun k => match (s.stoneAt k).running with | some p => p.handle == handle | none => false).length⟩]))) ∧
  (∀ (h : MbHdr) (exponent : Nat) (modulus : Bytes) (s : State), s.takes h { opcode := 0xC053, ld := true, fm := .no, len := [400] } →
    exponent % 2 = 1 → 65537 ≤ exponent → modulus.length = 384 → (∀ k ∈ s.stone.keys, k.party ≠ s.party h.src) →
    ∀ k : DressKey, k = { party := s.party h.src, keyId := fit 32 (Config.keyId exponent modulus) } →
    exec (.registerDressingKey h exponent modulus) s =
      .next (({ s with stone := { s.stone with keys := s.stone.keys ++ [k] } } : State).replied h 0xC053 [] k.keyId)) ∧
  (∀ (h : MbHdr) (keyid : Bytes) (k : DressKey) (s : State), s.takes h { opcode := 0xC054, ld := true, fm := .no, len := [40] } →
    k = { party := s.party h.src, keyId := fit 32 keyid } → s.stone.keys.contains k = true →
    exec (.removeDressingKey h keyid) s =
      .next (({ s with stone := { s.stone with keys := s.stone.keys.filter (· ≠ k) } } : State).replied h 0xC054 [] [])) ∧
  (∀ (h : MbHdr) (s : State), s.takes h { opcode := 0xC055, ld := true, fm := .module } →
    exec (.getStoneStatus h) s = .next (s.replied h 0xC055 [] (if h.src < 16 then (List.range 8).map fun c => BitVec.ofNat 8 (s.stonesIn c)
      else allStones.map fun k => BitVec.ofNat 8 (s.stoneAt k).state.code))) ∧
  (∀ (h : MbHdr) (stone : Nat) (s : State), s.takes h { opcode := 0xC056, ld := false, fm := .module, bg := true, len := [9] } → stone < 192 →
    (s.stoneAt stone).broken = false →
    exec (.setStoneOffline h stone) s = .next ((s.offlineStone stone).begun h 0xC056 (.setStoneOffline h stone))) ∧
  (∀ (h : MbHdr) (stone : Nat) (s : State), s.takes h { opcode := 0xC057, ld := false, fm := .module, len := [9] } → stone < 192 →
    (s.stoneAt stone).state = .offline →
    exec (.setStoneOnline h stone) s = .next ((s.modStone stone fun st =>
      { st with state := .online, toOffline := false }).placeWaiting.caps.replied h 0xC057 [] []))

/-- COMPLETION, result checks and observed units (R175, R289, R299).
Forms that complete: suspectTimeout, resultCheckComplete, replayComplete. -/
def Obligations.ChecksComplete : Prop :=
  (∀ (t utype unit : Nat) (s : State), s.up = true → ((s.at_ t).unitRec utype unit).state = .suspect →
    max ((s.at_ t).unitRec utype unit).since (((s.at_ t).unitRec utype unit).obs.headD 0) + day ≤ (s.at_ t).now →
    exec (.suspectTimeout t utype unit) s = .next ((s.at_ t).unitTo utype unit .clear)) ∧
  (∀ (t ld buf : Nat) (failed : List Nat) (o : GateOp) (s : State), s.up = true → buf < 128 → (s.slot (128 * ld + buf)).op = some o →
    (s.slot (128 * ld + buf)).state = .checking → (∀ p ∈ o.pieces, p.stage = .ended) →
    (o.errorOf.1 ≠ 0 → exec (.resultCheckComplete t ld buf failed) s =
      .next ((s.at_ t).finish (128 * ld + buf) .failed o.errorOf.1 o.errorOf.2 [] false)) ∧
    (o.errorOf.1 = 0 → ∀ (bad : PieceRec → Bool) (u v : State),
      bad = (fun p => (s.at_ t).checked o && (failed.contains p.idx || !(s.at_ t).figuresOk ld o p)) →
      u = (o.pieces.filter bad).foldl (fun s p => s.checkFail (128 * ld + buf) o p) (s.at_ t) →
      v = { u with freeCtr := u.freeCtr + o.pieces.length } →
      exec (.resultCheckComplete t ld buf failed) s = .next ((o.pieces.foldl (fun w p =>
        if bad p || (s.at_ t).replayed o || p.sampled || (s.at_ t).suspectDraw p
        then w.runAgain (128 * ld + buf) o p 1
        else w.modPiece (128 * ld + buf) p.idx fun x => { x with stage := .resolved }) v).tryRelease (128 * ld + buf)))) ∧
  (∀ (t ld buf piece : Nat) (r : ReplayRes) (o : GateOp) (p : PieceRec) (s : State), s.up = true → buf < 128 →
    (s.slot (128 * ld + buf)).op = some o → (o.pieces.find? fun p => p.idx = piece) = some p →
    (p.stage = .replaying → p.stones.length = 2 →
      exec (.replayComplete t ld buf piece r) s = .next ((s.at_ t).replayOutcome (128 * ld + buf) o p r)) ∧
    (p.stage = .third → p.stones.length = 3 →
      exec (.replayComplete t ld buf piece r) s = .next ((s.at_ t).thirdOutcome (128 * ld + buf) p r)))

/-- COMPLETION, the weirs (R210, R214, R221, R222, R225, R363, C080h to C085h): a stream-table fill, the recomputation of a resource's
guarantees, the rise of a capacity, the capture window, and the commands.
Forms that complete: streamCacheFill, guaranteeRecompute, capacityRiseTimeout, captureWindowEnd, setClass, reserveGuarantee,
releaseGuarantee, getWeirStatus, setCaptureWindow, getMaxLatency. -/
def Obligations.WeirsComplete : Prop :=
  (∀ (t entry : Nat) (s : State), s.up = true →
    exec (.streamCacheFill t entry false) s = .next (s.at_ t).streamMiss ∧
    exec (.streamCacheFill t entry true) s = .next ((s.at_ t).streamMiss.streamLost entry)) ∧
  (∀ (t resource : Nat) (s : State), s.up = true → resource < 8 →
    exec (.guaranteeRecompute t resource) s = .next (((s.at_ t).recap resource).noteVitals (s.at_ t))) ∧
  (∀ (t resource c since : Nat) (s : State), s.up = true → resource < 8 → s.weir.rise.get resource = some (c, since) →
    since + 10 * ms ≤ (s.at_ t).now → ∀ u : State,
    u = (s.at_ t).modWeir (fun w => { w with
      cscale := w.cscale.set resource (some (min c ((s.at_ t).capacity resource)))
      rise := w.rise.set resource none }) →
    exec (.capacityRiseTimeout t resource) s = .next (((u.recompute resource ((s.at_ t).short resource)).noteCap resource).noteVitals (s.at_ t))) ∧
  (∀ (t : Nat) (s : State), s.up = true → (s.weir.mode = 0 ∧ s.weir.windowStart + s.weir.span * ms ≤ (s.at_ t).now ∨
      s.weir.mode ≠ 0 ∧ (s.wheel s.weir.wheel).state = .closed ∧ s.weir.windowStart + 1000 * ms ≤ (s.at_ t).now) →
    exec (.captureWindowEnd t) s = .next (s.at_ t).latchWindow) ∧
  (∀ (h : MbHdr) (cls share cache queue : Nat) (s : State), s.takes h { opcode := 0xC080, ld := false, fm := .module, len := [12] } →
    cls < 8 → s.shareSum cls share WClass.share ≤ 256 → s.shareSum cls cache WClass.cache ≤ 256 → s.shareSum cls queue WClass.queue ≤ 256 →
    (cls = 7 → share ≠ 0) →
    exec (.setClass h cls share cache queue) s = .next ((s.modWeir fun w => { w with
      classes := w.classes.set cls { share := share, cache := cache, queue := queue } }).replied h 0xC080 [] [])) ∧
  (∀ (h : MbHdr) (resource cls rate latbound : Nat) (s : State),
    s.takes h { opcode := 0xC081, ld := false, fm := .ld, len := [16] } → resource < 8 → cls < 7 → rate ≠ 0 → latbound ≠ 0 → latbound ≤ 4095 →
    (4 ≤ resource → ldPort h.target = resource - 4) → ∀ old : Guar, old = s.guar h.target resource →
    ((if old.valid then old.resv else 0) < rate → s.short resource = false ∧
      s.resvTotal resource - (if old.valid then old.resv else 0) + rate ≤ roomOf (s.capacity resource)) →
    exec (.reserveGuarantee h resource cls rate latbound) s = .next ((((s.setGuar h.target resource
      { resv := rate, eff := old.eff, cls := cls, lat := latbound, valid := true, tokens := (old.fill s.now).tokens, filled := s.now }).recompute
        resource (s.short resource)).noteVitals s).replied h 0xC081 [] [])) ∧
  (∀ (h : MbHdr) (resource : Nat) (s : State), s.takes h { opcode := 0xC082, ld := false, fm := .ld, len := [10] } → resource < 8 →
    (s.guar h.target resource).valid = true →
    exec (.releaseGuarantee h resource) s =
      .next ((((s.setGuar h.target resource {}).recompute resource (s.short resource)).noteVitals s).replied h 0xC082 [] [])) ∧
  (∀ (h : MbHdr) (s : State), s.takes h { opcode := 0xC083, ld := true, fm := .module } →
    (h.src < 16 → exec (.getWeirStatus h) s = .next (s.replied h 0xC083 [] (((List.range 8).flatMap fun r => leBytes 8 (s.guar h.src r).word) ++
      (List.range 8).flatMap fun r => leBytes 2 (s.capacity r / capScale)))) ∧
    (16 ≤ h.src → exec (.getWeirStatus h) s = .next (s.replied h 0xC083 [] (((List.range 8).flatMap fun c => leBytes 8 (s.clsWord c)) ++
      ((List.range 8).flatMap fun r => leBytes 8 (s.shortWord r)) ++
      (List.range 16).flatMap fun ld => ((List.range 8).filter fun r => (s.guar ld r).valid).flatMap fun r =>
        layout 16 [⟨0, 8, (s.guar ld r).word⟩, ⟨8, 1, ld⟩, ⟨9, 1, r⟩])))) ∧
  (∀ (h : MbHdr) (mode wheel span : Nat) (s : State), s.takes h { opcode := 0xC084, ld := false, fm := .module, len := [16] } → mode ≤ 1 →
    span ≠ 0 → span ≤ 10000 → (mode = 1 → wheel < 256 ∧ (s.wheel wheel).state ≠ .closed) →
    exec (.setCaptureWindow h mode wheel span) s = .next ((s.modWeir fun w => { w with
      mode := mode, wheel := wheel % 256, span := span, windowStart := s.now }).replied h 0xC084 [] [])) ∧
  (∀ (h : MbHdr) (cls resource : Nat) (l : LatMax) (s : State), s.takes h { opcode := 0xC085, ld := false, fm := .module, len := [10] } →
    cls < 8 → resource < 8 → l = s.weir.latLast.get (8 * cls + resource) →
    exec (.getMaxLatency h cls resource) s = .next (s.replied h 0xC085 [⟨0, 8, s.latWord (8 * cls + resource)⟩, ⟨8, 1, l.ld⟩, ⟨16, 8, l.time⟩,
      ⟨24, 6, l.turn⟩, ⟨30, 2, l.layer + l.wheel * 2 ^ 10 + b2n l.nopos * 2 ^ 14⟩] []))

/-- COMPLETION, extents and snoops (R36, R45, R46, R339, R341, R343, R433): the Dynamic Capacity commands, the discarding of an extent,
the response to a back-invalidate snoop and its timeout.
Forms that complete: initiateDcAdd, addDcResponse, initiateDcRelease, releaseDc, extentDiscard, birsp, bisnpTimeout. -/
def Obligations.ExtentsComplete : Prop :=
  (∀ (h : MbHdr) (host policy : Nat) (exts : List DcAdd) (s u v : State), s.takes h { opcode := 0x5604, ld := false, fm := .module, vendor := false } →
    h.len = 32 + 40 * exts.length → (policy = 2 ∨ policy = 3) → s.admitAll host (policy == 3) (s.ext.nextGroup.get host) exts = .ok u →
    v = { u with ext := { u.ext with nextGroup := u.ext.nextGroup.set host (s.ext.nextGroup.get host + 1) } } →
    exec (.initiateDcAdd h host policy exts) s = .next (((v.journal exts.length).postDc host 0 (v.ext.exts.filter fun e =>
      e.ld = host ∧ e.group = s.ext.nextGroup.get host ∧ e.state = .pending)).replied h 0x5604 [] [])) ∧
  (∀ (h : MbHdr) (exts : List DcRange) (g : Nat) (s : State) (mine : List Extent) (step : Extent → Option Extent),
    s.takes h { opcode := 0x4802, ld := true, fm := .no, vendor := false } → exts.length ≤ 64 →
    h.len = 8 + 24 * exts.length → s.oldestGroup h.src = some g →
    mine = s.ext.exts.filter (fun e => e.ld = h.src ∧ e.group = g ∧ e.state = .pending) → (∀ r ∈ exts, ∃ e ∈ mine, e.isRange r = true) →
    (∀ e, step e = (if e.ld = h.src ∧ e.group = g ∧ e.state = .pending then
      (if exts.any e.isRange then some { e with state := .active } else none) else some e)) →
    exec (.addDcResponse h exts) s = .next ((({ s with ext := { s.ext with exts := s.ext.exts.filterMap step } } : State).journal
      mine.length).replied h 0x4802 [] [])) ∧
  (∀ (h : MbHdr) (host : Nat) (forced : Bool) (exts : List DcRange) (es : List Extent) (s u : State),
    s.takes h { opcode := 0x5605, ld := false, fm := .module, vendor := false } → host < 16 → h.len = 32 + 40 * exts.length →
    s.settleLeaving = u → exts.map (u.namedExt host) = es.map some → (∀ e ∈ es, mayLeave forced e = true) →
    exec (.initiateDcRelease h host forced exts) s = .next ((if forced then ((es.foldl State.forceOut u).journal es.length).settleLeaving
      else u.postDc host 1 es).replied h 0x5605 [] [])) ∧
  (∀ (h : MbHdr) (exts : List DcRange) (es : List Extent) (s u : State) (leave : State → Extent → State),
    s.takes h { opcode := 0x4803, ld := true, fm := .no, vendor := false } → exts.length ≤ 64 → h.len = 8 + 24 * exts.length →
    s.settleLeaving = u → exts.map (u.namedExt h.src) = es.map some → (∀ e ∈ es, e.state = .active ∨ e.state = .withdrawing) →
    (∀ (v : State) (e : Extent), leave v e = (if e.state = .active then
      ((v.modExt e.eid fun x => { x with state := .releasing, leftOp := v.gate.nextOp }).cancelPrefetch e).withdrawAliases e else v)) →
    exec (.releaseDc h exts) s = .next (((es.foldl leave u).journal es.length).settleLeaving.replied h 0x4803 [] [])) ∧
  (∀ (t eid : Nat) (e : Extent) (s : State), s.up = true → (s.at_ t).extById eid = some e →
    (e.state = .discarding ∨ (e.state = .releasing ∨ e.state = .withdrawing) ∧ (s.at_ t).quiet e = true) →
    exec (.extentDiscard t eid) s =
      .next (((((s.at_ t).aliasesOf e).foldl State.discard (s.at_ t)).discard e).retryReads fun r => r.eid == eid)) ∧
  (∀ (ld blk line : Nat) (x : Snp) (s : State), s.cxe.snps.find? (fun x => x.ld = ld ∧ x.blk = blk ∧ x.line = line) = some x →
    exec (.birsp ld blk line none) s = .next ((s.snoopDone x).pumpBi (s.snoopDone x).cxe.heldBi []) ∧
    ∀ (d : Bytes) (e : Extent) (u : State), s.extFor ld (blk / 128) = some e →
      u = (s.writeLine ld (s.dpaOf e blk + 64 * line) 0 e (fit 64 d) (BitVec.allOnes 64) false true).snoopDone x →
      exec (.birsp ld blk line (some d)) s = .next (u.pumpBi u.cxe.heldBi [])) ∧
  (∀ (t ld blk line : Nat) (x : Snp) (s u : State), s.cxe.snps.find? (fun x => x.ld = ld ∧ x.blk = blk ∧ x.line = line) = some x →
    x.start + 4 * ms ≤ (s.at_ t).now →
    u = (((s.at_ t).modCxeLd ld fun l => { l with biTimeout := bump 16 l.biTimeout 1 }).holderLost ld [(blk, line)]).snoopDone x →
    exec (.bisnpTimeout t ld blk line) s = .next (u.pumpBi u.cxe.heldBi []))

/-- COMPLETION, the wheels (R51, R54, R59, R63, R64, R67, R69, R363, C030h to C038h): a beacon, the two timeouts, and the commands.
Forms that complete: wheelBeacon, wheelIdleTimeout, wheelRestTimeout, openWheel, closeWheel, importSchedule, exportSchedule,
saveSchedule, deleteSavedSchedule, getWheelStatus, setWheelTimers, rephaseWheel. -/
def Obligations.WheelsComplete : Prop :=
  (∀ (ld wheel size : Nat) (aligned : Bool) (value : Word) (s : State), s.up = true → ld < 16 → wheel < 16 → (s.cxe.lds.get ld).d3 = false →
    exec (.wheelBeacon ld wheel size aligned value) s = .next (s.writeBeacon ld wheel size aligned value)) ∧
  (∀ (t ld wheel : Nat) (x : Wheel) (s u : State), u = s.at_ t → u.up = true → wheel < 16 → x = u.wheel (16 * ld + wheel) →
    (x.state = .running ∨ x.state = .survey) → x.lastAdvance + x.idleMs * ms ≤ u.now →
    exec (.wheelIdleTimeout t ld wheel) s =
      .next (((u.undoWheel (16 * ld + wheel)).cancelWheel (16 * ld + wheel) fun _ => false).modWheel (16 * ld + wheel) fun x => { x with state := .idle })) ∧
  (∀ (t ld wheel : Nat) (x : Wheel) (s u : State), u = s.at_ t → u.up = true → wheel < 16 → x = u.wheel (16 * ld + wheel) → x.state ≠ .closed →
    x.state ≠ .resting → x.lastAdvance + x.restS * sec ≤ u.now →
    exec (.wheelRestTimeout t ld wheel) s = .next (u.restWheel (16 * ld + wheel))) ∧
  (∀ (h : MbHdr) (n dlead pclass cclass flags sig idle rest idle' rest' i load : Nat) (watch used others : List (Nat × Nat))
      (es : Option (List SEntry)) (s : State) (x old : Wheel),
    s.takes h { opcode := 0xC030, ld := true, fm := .no, len := [96] } → n ≠ 0 → n ≤ 1024 → dlead ≠ 0 → dlead ≤ 16 → pclass < 8 → cclass < 8 →
    flags < 16 → idle' = (if idle = 0 then 100 else idle) → rest' = (if rest = 0 then 10 else rest) → timersOk idle' rest' = true →
    used = watch.filter (fun r => r.2 ≠ 0) →
    others = (List.range 16).flatMap (fun i => if (s.wheel (16 * h.src + i)).state = .closed then [] else (s.wheel (16 * h.src + i)).watch) →
    (∀ r ∈ used, r.1 + r.2 ≤ (s.ext.parts.get h.src).dpaSize ∧ ∀ q ∈ others, rangesMeet r q = false) → s.freeWheel h.src = some i →
    s.autoload h.src sig n (bitOf flags 3) = (load, es) → old = s.wheel (16 * h.src + i) →
    x.state = (if es.isSome then .running else .survey) → x.sched = ((es.getD []).map fun e => { e with strm := s.newStream h.src pclass }) → x.wasSurvey = es.isNone →
    x = { state := x.state, n := n, sig := sig, dlead := dlead, pclass := pclass, cclass := cclass, notune := bitOf flags 0,
          nolearn := bitOf flags 1, spec := bitOf flags 2, autoload := bitOf flags 3, idleMs := idle', restS := rest', watch := used,
          late := old.late, rephase := old.rephase, backstep := old.backstep, badpos := old.badpos, skip := old.skip, sched := x.sched,
          wasSurvey := x.wasSurvey, lastAdvance := s.now, slotStart := s.now } →
    exec (.openWheel h n dlead pclass cclass flags sig idle rest watch) s =
      .next ((s.setWheel (16 * h.src + i) x).replied h 0xC030 [⟨0, 1, i⟩, ⟨1, 1, x.state.code⟩, ⟨2, 1, load⟩] [])) ∧
  (∀ (h : MbHdr) (index w : Nat) (s : State), s.takes h { opcode := 0xC031, ld := true, fm := .ld, len := [9] } → s.openIdx h index = .ok w →
    exec (.closeWheel h index) s = .next ((s.closeWheel w).replied h 0xC031 [] [])) ∧
  (∀ (h : MbHdr) (p : Part) (index w : Nat) (img : Bytes) (es : List SEntry) (s v : State),
    s.takes h { opcode := 0xC032, ld := true, fm := .no, len := [], lenFrom := some 32 } → h.len = 32 + p.data.length →
    s.takePart h.src 0xC032 p = .whole v img →
    img.length = p.total → v.openIdx h index = .ok w →
    parseSchedule img (v.wheel w).sig (v.wheel w).n (v.ext.parts.get h.src).dpaSize = some es → es.length ≤ 65536 →
    v.schedTotal - (match (v.wheel w).staged with | some l => l.length | none => 0) + es.length ≤ 262144 →
    exec (.importSchedule h p index) s = .next ((v.modWheel w fun x =>
      { x with staged := some (es.map fun e => { e with strm := v.newStream h.src (v.wheel w).pclass }) }).replied h 0xC032 [] [])) ∧
  (∀ (h : MbHdr) (o : OutReq) (index w : Nat) (s : State), s.takes h { opcode := 0xC033, ld := true, fm := .no, len := [32] } → o.first = 0 →
    s.openIdx h index = .ok w →
    exec (.exportSchedule h o index) s =
      .next (s.repliedBytes h 0xC033 o (scheduleImage (s.wheel w).sig (s.wheel w).n (s.wheel w).dlead (s.wheel w).sched))) ∧
  (∀ (h : MbHdr) (index w : Nat) (s : State), s.takes h { opcode := 0xC034, ld := true, fm := .no, len := [9], bg := true } →
    s.openIdx h index = .ok w → s.storeRoom h.src (s.wheel w).sig = true →
    exec (.saveSchedule h index) s = .next (s.begun h 0xC034 (.saveSchedule h index))) ∧
  (∀ (h : MbHdr) (sig : Nat) (s : State), s.takes h { opcode := 0xC035, ld := true, fm := .no, len := [24] } →
    (∃ x ∈ s.sweep.stored, x.ld = h.src ∧ x.sig = sig) →
    exec (.deleteSavedSchedule h sig) s = .next (({ s with sweep := { s.sweep with
      stored := s.sweep.stored.filter fun x => ¬ (x.ld = h.src ∧ x.sig = sig) } } : State).replied h 0xC035 [] [])) ∧
  (∀ (h : MbHdr) (index : Nat) (x : Wheel) (s : State), s.takes h { opcode := 0xC036, ld := true, fm := .ld, len := [9] } → index < 16 →
    x = s.wheel (16 * whoOf h + index) →
    exec (.getWheelStatus h index) s = .next (s.replied h 0xC036 ((x.words.zipIdx.map fun p => (⟨8 * p.2, 8, p.1⟩ : Fld)) ++
      (x.watch.zipIdx.map fun p => (⟨40 + 8 * p.2, 8, p.1.1 + p.1.2 * 2 ^ 32⟩ : Fld)) ++
      (if x.state = .closed then []
        else [⟨104, 4, x.idleMs⟩, ⟨108, 4, x.restS⟩, ⟨112, 8, x.sig⟩, ⟨120, 1, x.flagsByte⟩])) [])) ∧
  (∀ (h : MbHdr) (index idle rest w : Nat) (s : State), s.takes h { opcode := 0xC037, ld := true, fm := .no, len := [20] } →
    s.openIdx h index = .ok w → timersOk idle rest = true →
    exec (.setWheelTimers h index idle rest) s =
      .next ((s.modWheel w fun x => { x with idleMs := idle, restS := rest }).replied h 0xC037 [] [])) ∧
  (∀ (h : MbHdr) (index w : Nat) (s : State), s.takes h { opcode := 0xC038, ld := true, fm := .no, len := [9] } → s.openIdx h index = .ok w →
    (s.wheel w).placed = true →
    exec (.rephaseWheel h index) s = .next ((s.rephaseAt w (s.wheel w).k).replied h 0xC038 [] []))

/-- COMPLETION, the bolter and its table sets (R111, R118 to R121, R123, R363, C040h to C045h).
Forms that complete: bolterBuildStart, stageIdleTimeout, bolterBuildComplete, recodeSweep, recodeGapTimeout, generationRelease,
allocateTableSet, freeTableSet, getTableSetStatus, rebuildTableSet, importCodebook, exportCodebook. -/
def Obligations.BolterComplete : Prop :=
  (∀ (t set : Nat) (s u : State), u = s.at_ t → u.up = true →
    ((u.setAt set).state = .empty → 131072 ≤ (u.stagedOf set).length →
      exec (.bolterBuildStart t set) s = .next (u.queueBuild set none)) ∧
    ((u.setAt set).state ≠ .empty → exec (.bolterBuildStart t set) s = .next u.bolterNext)) ∧
  (∀ (t set : Nat) (s u : State), u = s.at_ t → u.up = true → (u.setAt set).state = .empty → (u.setAt set).lastStaged + sec ≤ u.now →
    u.stagedOf set ≠ [] → exec (.stageIdleTimeout t set) s = .next (u.queueBuild set none)) ∧
  (∀ (t set : Nat) (b : Build) (rest : List Build) (x : TableSet) (s u : State), u = s.at_ t → u.up = true → u.store.builds = b :: rest → b.set = set →
    b.running = true → x = u.setAt set →
    exec (.bolterBuildComplete t set) s = .next (((u.modStore fun st => { st with builds := rest }).newGeneration set
      (bolterBuild x.src x.rate x.cols b.sample)).bolterNext)) ∧
  (∀ (t set : Nat) (s u : State), u = s.at_ t → u.up = true → u.anyGap = true → (u.setAt set).state = .recoding →
    exec (.recodeSweep t set) s = .next ((u.modStore fun st => { st with lastGap := u.now }).recodeAll set)) ∧
  (∀ (t set : Nat) (s u : State), u = s.at_ t → u.up = true → (u.setAt set).state = .recoding →
    max u.store.lastGap (u.setAt set).recodeStart + 100 * ms ≤ u.now →
    exec (.recodeGapTimeout t set) s = .next (u.recodeAll set)) ∧
  (∀ (t set : Nat) (s u : State), u = s.at_ t → u.up = true → (u.setAt set).state = .recoding →
    u.recodeBlocks set = [] → u.inFlight set = 0 →
    exec (.generationRelease t set) s = .next ((u.modSet set fun x => { x with state := .ready, genOps := [] }).returnStage set)) ∧
  (∀ (h : MbHdr) (src rate cols k : Nat) (s : State), s.takes h { opcode := 0xC040, ld := true, fm := .no, len := [11] } →
    rateAllowed src rate = true → cols ∈ [1, 2, 4, 8, 16, 32] → (List.range 4096).find? (fun k => (s.setAt k).state == .free) = some k →
    exec (.allocateTableSet h src rate cols) s = .next ((s.modSet k fun _ =>
      { state := .empty, party := s.party h.src, src := src, rate := rate, cols := cols }).replied h 0xC040 [⟨0, 2, k⟩] [])) ∧
  (∀ (h : MbHdr) (set : Nat) (s : State), s.takes h { opcode := 0xC041, ld := true, fm := .no, len := [10] } → s.seesSet h set = true →
    s.profileNames set = false → (s.setAt set).state ≠ .building → (s.setAt set).state ≠ .recoding → s.rebuilding set = false →
    exec (.freeTableSet h set) s = .next ((s.modSet set fun _ => {}).replied h 0xC041 [] [])) ∧
  (∀ (h : MbHdr) (set : Nat) (x : TableSet) (s : State), s.takes h { opcode := 0xC042, ld := true, fm := .either, len := [10] } →
    (s.seesSet h set = true ∨ h.src = fmSrc ∧ set < 4096) → x = s.setAt set →
    exec (.getTableSetStatus h set) s = .next (s.replied h 0xC042 [⟨0, 1, x.state.code⟩, ⟨1, 1, x.src⟩, ⟨2, 1, x.rate⟩, ⟨3, 1, x.cols⟩,
      ⟨4, 1, x.cur⟩, ⟨8, 8, (s.recodeBlocks set).length⟩, ⟨16, 4, s.inFlight set⟩] [])) ∧
  (∀ (h : MbHdr) (set base : Nat) (e : Extent) (s : State), s.takes h { opcode := 0xC043, ld := true, fm := .no, len := [24], bg := true } →
    s.seesSet h set = true → (s.setAt set).state ≠ .building → (s.setAt set).state ≠ .recoding → s.rebuilding set = false →
    (s.spanOf set).find? (fun e => e.ld = h.src ∧ e.base = base) = some e →
    exec (.rebuildTableSet h set base) s = .next ((s.queueBuild set (if (s.setAt set).state = .empty then none else some e.eid)).begun h 0xC043
      (.rebuildTableSet h set base))) ∧
  (∀ (h : MbHdr) (set : Nat) (image : Bytes) (cb : List (List Nat)) (s : State), s.takes h { opcode := 0xC044, ld := true, fm := .no, len := [32800] } →
    s.seesSet h set = true → (s.setAt set).state ≠ .building → (s.setAt set).state ≠ .recoding → s.rebuilding set = false →
    codebookOf (s.setAt set).src (s.setAt set).rate (s.setAt set).cols image = some cb →
    exec (.importCodebook h set image) s = .next ((s.newGeneration set cb).replied h 0xC044 [] [])) ∧
  (∀ (h : MbHdr) (set : Nat) (x : TableSet) (s : State), s.takes h { opcode := 0xC045, ld := true, fm := .no, len := [10] } →
    s.seesSet h set = true → x = s.setAt set → x.hasGen = true →
    exec (.exportCodebook h set) s = .next (s.replied h 0xC045 [⟨0, 1, x.cur⟩] (codebookImage x.src (x.book x.cur))))

/-- COMPLETION, the near tier (R232 to R234, R236, R240, C091h and C0E2h): refresh, self-refresh, frequency changes and retraining.
Forms that complete: refreshDue, refreshWindowHot, selfRefreshIdle, setSelfRefreshIdle, setNeighbourRefresh, freqChangeStackDone,
retrainDue, retrainSlot. -/
def Obligations.NearComplete : Prop :=
  (∀ (t stack channel rank key due : Nat) (queued : Bool) (x : Stack) (s u : State), u = s.at_ t → u.up = true → stack < 12 → channel < 8 →
    rank < 2 → x = u.stackAt stack → key = 2 * channel + rank → due = x.refreshAt.get key + x.interval → x.state = .active → due ≤ u.now →
    (queued = true → x.refreshLate.get key = false →
      exec (.refreshDue t stack channel rank queued) s =
        .next (u.modStack stack fun x => { x with refreshLate := x.refreshLate.set key true })) ∧
    (queued = false ∨ x.refreshLate.get key = true ∧ due + x.interval ≤ u.now → ∀ v : State,
      v = u.modNear (fun n => { n with nref := bump 64 n.nref (x.targeted.filter fun b => onRank channel rank b.1).length }) →
      exec (.refreshDue t stack channel rank queued) s = .next (v.modStack stack fun y => { y with
        refreshAt := y.refreshAt.set key (if y.refreshLate.get key then due else v.now)
        refreshLate := y.refreshLate.set key false
        targeted := y.targeted.filter fun b => !onRank channel rank b.1 }))) ∧
  (∀ (t stack : Nat) (temp : Int) (s u : State), u = s.at_ t → u.up = true → stack < 12 →
    exec (.refreshWindowHot t stack temp) s =
      .next (((u.setTemp .stack stack temp).modStack stack fun x => { x with hot := decide (85 ≤ temp) }).noteVitals u)) ∧
  (∀ (t stack : Nat) (x : Stack) (s u : State), u = s.at_ t → u.up = true → stack < 12 → x = u.stackAt stack → u.near.sridle ≠ 0 →
    u.stackIdle x = true → x.lastUse + u.near.sridle * us ≤ u.now →
    exec (.selfRefreshIdle t stack) s =
      .next (u.modStack stack fun x => { x with state := .selfref, srentry := bump 32 x.srentry 1 })) ∧
  (∀ (h : MbHdr) (idle : Nat) (s : State), s.takes h { opcode := 0xC0E2, ld := false, fm := .module, len := [12] } → idle ≠ 1 → idle ≤ 1000 →
    exec (.setSelfRefreshIdle h idle) s = .next ((s.modNear fun n => { n with sridle := idle }).replied h 0xC0E2 [] [])) ∧
  (∀ (h : MbHdr) (e : Nat) (s : State), s.takes h { opcode := 0xC091, ld := false, fm := .module, len := [9] } → 6 ≤ e → e ≤ 14 →
    exec (.setNeighbourRefresh h e) s = .next ((s.modNear fun n => { n with nre := e }).replied h 0xC091 [] [])) ∧
  (∀ (t stack dst : Nat) (x : Stack) (s u v : State), u = s.at_ t → u.up = true → stack < 12 → x = u.stackAt stack → x.state = .changing →
    x.changeAt ≤ u.now → dst = x.goal.getD x.point →
    (v = (u.modNear fun n => { n with nref := bump 64 n.nref x.targeted.length }).modStack stack (fun x => { x with
        state := .active, point := dst, goal := none, checkAtExit := false, targeted := [], lastUse := u.now }) →
      exec (.freqChangeStackDone t stack true) s =
        .next (v.pumpNear.caps.retryReads fun r => r.why == .tierMove && (u.sack r.sack).stack == stack)) ∧
    (x.retryPoint.isSome = true → dst = x.prev →
      exec (.freqChangeStackDone t stack false) s = .next ((u.stackFails stack).caps.noteVitals u)) ∧
    (x.retryPoint = none →
      exec (.freqChangeStackDone t stack false) s = .next (u.modStack stack fun x =>
        { x.queueTrain dst with checkAtExit := false, retryPoint := some dst, goal := some x.prev, changeAt := u.now + 1700 }).caps)) ∧
  (∀ (t stack point : Nat) (temp : Int) (x : Stack) (s u v : State), u = s.at_ t → u.up = true → stack < 12 → point < 4 →
    x = u.stackAt stack → x.state ≠ .failed → v = (u.setTemp .stack stack temp).noteVitals u →
    (point = x.point ∧ (8 ≤ (temp - x.trainTemp.get point).natAbs ∨ x.trainAt.get point + 10 * sec ≤ u.now) ∨
      point ≠ x.point ∧ (15 ≤ (temp - x.trainTemp.get point).natAbs ∨ x.stale.getLsbD point = true) →
      exec (.retrainDue t stack point temp) s = .next (v.modStack stack fun x => x.queueTrain point)) ∧
    (point = x.point → (temp - x.trainTemp.get point).natAbs < 8 → u.now < x.trainAt.get point + 10 * sec →
      exec (.retrainDue t stack point temp) s = .next v)) ∧
  (∀ (t stack channel p : Nat) (x : Stack) (s u : State), u = s.at_ t → u.up = true → stack < 12 → channel < 8 → x = u.stackAt stack →
    x.retrainPoint = some p → u.slotHeld x channel = false → ∀ (done : Tbl Nat) (v : State),
    done = x.slotsDone.set channel (x.slotsDone.get channel + 1) →
    v = (u.beginSlot stack channel).modStack stack (fun x => { x with slotsDone := done, lastSlot := x.lastSlot.set channel u.now }) →
    ((∃ c < 8, done.get c < 48) → exec (.retrainSlot t stack channel true) s = .next v) ∧
    ((∀ c < 8, 48 ≤ done.get c) → ∀ w : State, (v.modStack stack fun x => { x with
        stale := x.stale &&& ~~~ BitVec.ofNat 4 (2 ^ p)
        trainTemp := x.trainTemp.set p (v.health.sensors.get (sensorKey .stack stack)).temp
        trainAt := x.trainAt.set p v.now
        sets := x.sets.set p v.freeCtr
        slotsDone := { dflt := 0 }
        trainFails := 0
        retrainPoint := Stack.nextTrain { x with stale := x.stale &&& ~~~ BitVec.ofNat 4 (2 ^ p) } }) = w →
      exec (.retrainSlot t stack channel true) s = .next ({ w with freeCtr := w.freeCtr + 1 }.changeAlone stack)))

/-- COMPLETION, the deep tier (R247, R249 to R254, R257, R258, R260, R261, R265, C0E4h to C0E6h): flash pages, blocks and dies, the
journal, the hold-up bank and global persistent flush.
Forms that complete: garbageCollect, wearLevelMove, deepPageRead, slotProgramDone, readRefresh, patrolRead, flashBlockFailure,
flashDieFailure, dieRebuildComplete, journalPageProgrammed, checkpointImageDone, holdupBankFailed, holdupTestDue, holdupTestComplete,
testHoldupBank, setHoldupTestPeriod, burstCreditRefill, setEnduranceBudget, gpfPhase1, gpfPhase2. -/
def Obligations.DeepComplete : Prop :=
  (∀ (t group b : Nat) (s u : State), u = s.at_ t → u.up = true → group < 16 → 100 * u.freeSets group < 2 * 4096 →
    u.leastSet group (u.setValid group) (u.usedSets group) = some b →
    exec (.garbageCollect t group) s = .next ((u.moveSet group b).noteVitals u)) ∧
  (∀ (t group b : Nat) (s u : State), u = s.at_ t → u.up = true → group < 16 →
    u.leastSet group (u.setPe group) ((u.usedSets group).filter fun b => u.setValid group b != 0) = some b →
    u.setPe group b + 300 < ((u.deep.blocks.cells.filter fun c => c.1 / 16384 % 16 == group).map fun c => c.2.pe).foldl max 0 →
    exec (.wearLevelMove t group) s = .next ((u.moveSet group b).noteVitals u)) ∧
  (∀ (t slot : Nat) (l : SlotLoc) (s u v : State), u = s.at_ t → u.up = true → l = u.deep.slots.get slot → l.valid = true →
    v = (u.mapPage slot).modDeep (fun d => { d with blocks := d.blocks.upd l.key fun b => { b with reads := b.reads + 1 } }) →
    v.deep.dieFailed.get l.die = false →
    exec (.deepPageRead t slot .clean) s = .next (v.pageRead slot false) ∧
    exec (.deepPageRead t slot .retried) s = .next ((v.modDeep fun d => { d with retry := bump 32 d.retry 1 }).pageRead slot true) ∧
    exec (.deepPageRead t slot .rebuilt) s =
      .next ((v.modDeep fun d => { d with retry := bump 32 d.retry 1, parity := bump 16 d.parity 1 }).pageRead slot true) ∧
    exec (.deepPageRead t slot .lost) s =
      .next ((v.modDeep fun d => { d with retry := bump 32 d.retry 1, uncorr := bump 16 d.uncorr 1 }).slotLost slot)) ∧
  (∀ (t slot group : Nat) (l : SlotLoc) (s u v : State), u = s.at_ t → u.up = true → group < 16 → slot ∈ u.deep.programming →
    u.takePlace group 2 = some (l, v) →
    exec (.slotProgramDone t slot group) s =
      .next ((v.placeSlot slot l).modDeep fun d => { d with programming := d.programming.filter (· ≠ slot) })) ∧
  (∀ (t die block : Nat) (margin : Bool) (b : FlashBlk) (s u : State), u = s.at_ t → u.up = true → b = u.deep.blocks.get (blkKey die block) →
    b.free = false → (margin = true ∨ 200000 ≤ b.reads ∨ b.since + 180 * dayNs ≤ u.powered) →
    exec (.readRefresh t die block margin) s = .next (u.relocate (u.inBlock die block))) ∧
  (∀ (t die block n : Nat) (s u : State), u = s.at_ t → u.up = true → die < 256 → block < 16384 →
    (u.anyGap = true ∨ (u.deep.blocks.get (blkKey die block)).patrolled + 15 * dayNs ≤ u.now) → n = (u.inBlock die block).length →
    exec (.patrolRead t die block) s = .next (u.modDeep fun d => { d with
      blocks := d.blocks.upd (blkKey die block) fun b => { b with reads := b.reads + n, patrolled := u.now } })) ∧
  (∀ (t die block : Nat) (fails : List (Nat × Nat)) (s u v : State), u = s.at_ t → u.up = true → die < 256 → block < 16384 →
    u.deep.dieFailed.get die = false → (u.deep.blocks.get (blkKey die block)).retired = false →
    fails = (die, u.now) :: u.deep.dieFails.filter (fun f => u.now < f.2 + dayNs) →
    v = u.modDeep (fun d => { d with
      dieFails := fails
      blocks := d.blocks.upd (blkKey die block) fun b => { b with retired := true, free := false } }) →
    ((fails.filter fun f => f.1 == die).length < 8 → exec (.flashBlockFailure t die block) s =
      .next (((v.inBlock die block).foldl State.moveSlot v).noteSpare.noteVitals u)) ∧
    (8 ≤ (fails.filter fun f => f.1 == die).length → exec (.flashBlockFailure t die block) s =
      .next ((((v.inBlock die block).foldl State.moveSlot v).dieFails die).noteVitals u))) ∧
  (∀ (t die : Nat) (s u : State), u = s.at_ t → u.up = true →
    exec (.flashDieFailure t die) s = .next ((u.dieFails die).noteVitals u)) ∧
  (∀ (t die : Nat) (r : Rebuild) (s u : State), u = s.at_ t → u.up = true → u.deep.rebuilds.find? (fun r => r.die = die) = some r →
    exec (.dieRebuildComplete t die) s = .next ((((r.slots.foldl State.moveSlot u).modDeep fun d =>
      { d with rebuilds := d.rebuilds.filter fun x => x.die ≠ die }).journal 1).caps)) ∧
  (∀ (t : Nat) (s u : State), u = s.at_ t → u.up = true →
    exec (.journalPageProgrammed t) s = .next (u.modDeep fun d => { d with journalOpen := 0 }) ∧
    exec (.checkpointImageDone t) s =
      .next ((u.modDeep fun d => { d with checkpoint := d.checkpoint + 1, journalSince := 0 }).journal 1) ∧
    exec (.holdupBankFailed t) s = .next ((u.setBank .failed).modeChanged.noteVitals u)) ∧
  (∀ (t : Nat) (s u : State), u = s.at_ t → u.up = true → (u.deep.bank = .charging ∨
      u.deep.bank = .healthy ∧ u.deep.lastTest + u.deep.period * hourNs ≤ u.now ∨ u.deep.bank = .weak ∧ u.deep.lastTest + 600 * sec ≤ u.now) →
    exec (.holdupTestDue t) s = .next (u.startTest.noteVitals u)) ∧
  (∀ (t energy : Nat) (s u v : State), u = s.at_ t → u.up = true → u.deep.bank = .testing → u.deep.testAt + 2500 * ms ≤ u.now →
    v = u.modDeep (fun d => { d with energy := min energy 255, lastTest := u.now }) →
    (40 ≤ energy ∨ 36 ≤ energy ∧ u.deep.before = .healthy →
      exec (.holdupTestComplete t energy) s = .next ((v.setBank .healthy).modeChanged.noteVitals u)) ∧
    (energy < 36 ∨ energy < 40 ∧ u.deep.before ≠ .healthy →
      exec (.holdupTestComplete t energy) s = .next ((v.setBank .weak).modeChanged.noteVitals u))) ∧
  (∀ (h : MbHdr) (s : State), s.takes h { opcode := 0xC0E5, ld := false, fm := .module, bg := true } → s.deep.bank ≠ .testing →
    s.deep.bank ≠ .charging →
    exec (.testHoldupBank h) s = .next ((s.startTest.noteVitals s).begun h 0xC0E5 (.testHoldupBank h))) ∧
  (∀ (h : MbHdr) (period : Nat) (s : State), s.takes h { opcode := 0xC0E6, ld := false, fm := .module, len := [9] } → period ≠ 0 →
    period ≤ 168 →
    exec (.setHoldupTestPeriod h period) s = .next ((s.modDeep fun d => { d with period := period }).replied h 0xC0E6 [] [])) ∧
  (∀ (t : Nat) (s u : State), u = s.at_ t → u.up = true →
    (u.refill.throttled = true → exec (.burstCreditRefill t) s = .next u.refill) ∧
    (u.refill.throttled = false → exec (.burstCreditRefill t) s = .next (u.refill.modStore fun st =>
      { st with xfers := st.xfers.map fun x =>
        if x.kind = .writeback ∨ x.kind = .victimWriteback then { x with endur := false } else x }))) ∧
  (∀ (h : MbHdr) (b : Nat) (s : State), s.takes h { opcode := 0xC0E4, ld := false, fm := .module, len := [9] } → 2 ≤ b → b ≤ 30 →
    exec (.setEnduranceBudget h b) s =
      .next (((((s.refill.modDeep fun d => { d with budget := b }).journal 1).recap 2).noteVitals s).replied h 0xC0E4 [] [])) ∧
  (∀ (t port : Nat) (s u : State), u = s.at_ t → u.up = true → port < 4 →
    exec (.gpfPhase1 t port) s = .next (u.send (.cxlIo (4 * port) 10 [⟨0, 1, 1⟩] [])) ∧
    (u.wt = true → exec (.gpfPhase2 t port) s =
      .next ((u.modDeep fun d => { d with journalOpen := 0 }).send (.cxlIo (4 * port) 10 [⟨0, 1, 2⟩] []))) ∧
    (u.wt = false → exec (.gpfPhase2 t port) s = .next (u.flush.send (.cxlIo (4 * port) 10 [⟨0, 1, 2⟩] []))))

/-- COMPLETION, scrubbing, flip-masks and the correctable and uncorrectable logs (R269, R270, R272, R277 to R279, R283, C090h, C092h to
C095h, C097h, C098h).
Forms that complete: nearScrub, nearScrubBehind, sramScrub, setScrubPeriod, armFlipMaskNear, armFlipMaskStone, flipMaskExpire,
disarmFlipMask, getCorrectableErrorTable, getUncorrectableErrorLog, getRetirementList, clearCorrectableErrorTable. -/
def Obligations.IntegrityComplete : Prop :=
  (∀ (t blk word upset : Nat) (k : Sack) (e : Extent) (s u v : State), u = s.at_ t → u.up = true → k = u.sack (blk / 128) →
    (u.integ.behind = true ∨ u.anyGap = true) → u.extOfSack (blk / 128) = some e → k.near = true → u.stackBusy k.stack = false →
    word < Prof.unit e.profile / 8 →
    u.useLines k.stack (128 * k.frame + (blk % 128 * Prof.unit e.profile + 8 * word) / 64) 1 = v →
    exec (.nearScrub t blk word upset false) s =
      .next (v.free.2.checkWords e blk (v.free.1 % 256) true [(word, Nat.xor (v.free.2.errOf blk word) upset)])) ∧
  (∀ (t : Nat) (s u : State), u = s.at_ t → u.up = true → u.integ.passStart + (u.integ.nearPer + 1) * hourNs ≤ u.now →
    exec (.nearScrubBehind t) s = .next (u.modInteg fun i => { i with behind := true })) ∧
  (∀ (t unit loc upset : Nat) (s u : State), u = s.at_ t → u.up = true → unit ≠ 0 → unit ≤ 3 →
    (eccOutcome (syndromeOf upset) = .good → exec (.sramScrub t unit loc upset) s = .next u) ∧
    (∀ b, eccOutcome (syndromeOf upset) = .corrected b → exec (.sramScrub t unit loc upset) s = .next (u.correct unit loc b true)) ∧
    (eccOutcome (syndromeOf upset) = .uncorrectable →
      exec (.sramScrub t unit loc upset) s = .next (u.free.2.sramLost unit loc (u.free.1 % 256)))) ∧
  (∀ (h : MbHdr) (near sram : Nat) (s : State), s.takes h { opcode := 0xC090, ld := false, fm := .module, len := [16] } → near ≠ 0 →
    near ≤ 168 → sram ≠ 0 → sram ≤ 60 →
    exec (.setScrubPeriod h near sram) s = .next ((s.modInteg fun i => { i with nearPer := near, sramPer := sram }).replied h 0xC090 [] [])) ∧
  (∀ (h : MbHdr) (dpa word mask : Nat) (e : Extent) (s : State), s.takes h { opcode := 0xC092, ld := true, fm := .no, len := [41] } →
    s.extAt h.src dpa = some e → e.state = .active → e.isAlias = false → Prof.gate e.profile = false → dpa % 512 = 0 →
    word < Prof.unit e.profile / 8 → mask ≠ 0 → mask < 2 ^ 72 → popc 72 mask ≤ 4 → (s.integ.lds.get h.src).flip.state ≠ .armed →
    exec (.armFlipMaskNear h dpa word mask) s = .next ((s.modIntegLd h.src fun l => { l with flip :=
      { state := .armed, blk := s.blkOf e dpa, word := word, mask := mask, at_ := s.now } }).replied h 0xC092 [] [])) ∧
  (∀ (h : MbHdr) (stone bank word mask : Nat) (s : State),
    s.takes h { opcode := 0xC092, ld := false, fm := .module, len := [41], bg := true } → stone < 192 → (s.stoneAt stone).state = .offline →
    bank < 16 → word < 32768 → mask < 2 ^ 72 →
    exec (.armFlipMaskStone h stone bank word mask) s = .next (s.begun h 0xC092 (.armFlipMaskStone h stone bank word mask))) ∧
  (∀ (t ld : Nat) (s u : State), u = s.at_ t → u.up = true → (u.integ.lds.get ld).flip.state = .armed →
    (u.integ.lds.get ld).flip.at_ + 10 * sec ≤ u.now →
    exec (.flipMaskExpire t ld) s = .next (u.modIntegLd ld fun l => { l with flip := { l.flip with state := .expired } })) ∧
  (∀ (h : MbHdr) (s : State), s.takes h { opcode := 0xC093, ld := true, fm := .no } → (s.integ.lds.get h.src).flip.state = .armed →
    exec (.disarmFlipMask h) s =
      .next ((s.modIntegLd h.src fun l => { l with flip := { l.flip with state := .cancelled } }).replied h 0xC093 [] [])) ∧
  (∀ (h : MbHdr) (o : OutReq) (s : State), s.takes h { opcode := 0xC094, ld := false, fm := .module, len := [16] } → o.first = 0 →
    exec (.getCorrectableErrorTable h o) s = .next (s.repliedRecs h 0xC094 32 o (s.integ.ce.map CeEnt.fields))) ∧
  (∀ (h : MbHdr) (o : OutReq) (s : State), s.takes h { opcode := 0xC095, ld := true, fm := .module, len := [16] } → o.first = 0 →
    exec (.getUncorrectableErrorLog h o) s = .next (s.repliedRecs h 0xC095 32 o (if h.src < 16 then
      (s.integ.ue.filter fun r => r.ld == h.src).map fun r => ({ r with loc := 0 } : UeRec).fields else s.integ.ue.map UeRec.fields))) ∧
  (∀ (h : MbHdr) (o : OutReq) (s : State), s.takes h { opcode := 0xC097, ld := false, fm := .module, len := [16] } → o.first = 0 →
    exec (.getRetirementList h o) s =
      .next (s.repliedRecs h 0xC097 16 o (s.integ.retires.map fun r => [⟨0, 1, r.kind⟩, ⟨8, 8, r.loc⟩]))) ∧
  (∀ (h : MbHdr) (s : State), s.takes h { opcode := 0xC098, ld := false, fm := .module } →
    exec (.clearCorrectableErrorTable h) s = .next ((s.modInteg fun i => { i with ce := [] }).replied h 0xC098 [] []))

/-- COMPLETION, results, the ledger and mailbox jobs (R290, R299 to R305, R359 to R361, C0A0h to C0A7h).
Forms that complete: ledgerCommit, ledgerCoalesceEnd, getLedger, getResultErrorLog, appendLedgerNote, setCheckPolicy, getUnitHealth,
clearUnitRecord, installTestContent, getTestContent, backgroundCommandComplete, abortBackgroundOperation, partImageTimeout,
snapshotTimeout. -/
def Obligations.ResultsComplete : Prop :=
  (∀ (t : Nat) (w : LedgerWait) (rest : List LedgerWait) (s u v : State), u = s.at_ t → u.result.waits = w :: rest → u.phase ≠ .off →
    u.phase ≠ .hubFailed → w.record.kind ≠ 16 →
    v = (((u.modResult fun x => { x with waits := rest }).commitRecord w.record).postAll w.posts).sendAll w.outs →
    (w.job = none → exec (.ledgerCommit t) s = .next v) ∧
    (∀ src code vses, w.job = some (src, code, vses) → exec (.ledgerCommit t) s = .next (v.endJob src code vses))) ∧
  (∀ (t kind utype unit : Nat) (c : Coalesce) (s u v : State), u = s.at_ t →
    u.result.coal.find? (fun c => c.kind = kind ∧ c.utype = utype ∧ c.unit = unit) = some c → c.start + sec ≤ u.now →
    v = u.modResult (fun x => { x with coal := x.coal.filter (· ≠ c), coalesced := bump 32 x.coalesced c.lost }) →
    (c.lost = 0 → exec (.ledgerCoalesceEnd t kind utype unit) s = .next v) ∧
    (c.lost ≠ 0 → exec (.ledgerCoalesceEnd t kind utype unit) s =
      .next (v.ledger (LedgerRec.of 17 utype unit 31 (kind + unit * 2 ^ 16 + c.lost * 2 ^ 32))))) ∧
  (∀ (h : MbHdr) (seqno maxrec : Nat) (rs : List LedgerRec) (s : State),
    s.takes h { opcode := 0xC0A0, ld := false, fm := .module, len := [20] } → (∀ r, s.result.ledger.head? = some r → r.seqno ≤ seqno) →
    rs = (s.result.ledger.filter fun r => seqno ≤ r.seqno).take (if maxrec = 0 then 1023 else min maxrec 1023) →
    exec (.getLedger h seqno maxrec) s = .next (s.replied h 0xC0A0
      [⟨0, 4, rs.length⟩, ⟨8, 8, (match rs.getLast? with | some r => r.seqno + 1 | none => seqno)⟩] (rs.flatMap fun r => layout 64 r.fields))) ∧
  (∀ (h : MbHdr) (o : OutReq) (s : State), s.takes h { opcode := 0xC0A1, ld := true, fm := .module, len := [16] } → o.first = 0 →
    exec (.getResultErrorLog h o) s = .next (s.repliedRecs h 0xC0A1 64 o (if h.src < 16 then
      (s.result.errLog.filter fun r => r.ld == h.src).map fun r =>
        ({ r with unit := 0, temp := 0, volt := 0, detail := 0 } : LedgerRec).fields else s.result.errLog.map LedgerRec.fields))) ∧
  (∀ (h : MbHdr) (note : Bytes) (s : State), s.takes h { opcode := 0xC0A7, ld := false, fm := .module, len := [24] } →
    exec (.appendLedgerNote h note) s = .next (s.ledger (LedgerRec.of 18 0 0 31 (leNat (fit 16 note))) []
      [.mailbox h.src 0xC0A7 .success [⟨0, 8, s.result.nextSeq⟩] []])) ∧
  (∀ (h : MbHdr) (s0 s1 s2 earlyen : Nat) (s : State), s.takes h { opcode := 0xC0A2, ld := false, fm := .module, len := [12] } → s0 ≤ 15 →
    s1 ≤ 15 → s2 ≤ 15 → earlyen ≤ 1 →
    exec (.setCheckPolicy h s0 s1 s2 earlyen) s = .next ((s.modResult fun r =>
      { r with sample0 := s0, sample1 := s1, sample2 := s2, earlyEn := earlyen == 1 }).replied h 0xC0A2 [] [])) ∧
  (∀ (h : MbHdr) (one : Nat → Nat → Bytes) (at_ : Option Nat → Nat) (s : State), s.takes h { opcode := 0xC0A3, ld := false, fm := .module } →
    (∀ o, at_ o = (match o with | some x => s.stampOf fmSrc x | none => 0)) →
    (∀ utype unit, one utype unit = layout 24 [⟨0, 1, (s.unitRec utype unit).state.code⟩, ⟨8, 8, at_ (s.unitRec utype unit).obs.getLast?⟩,
      ⟨16, 8, at_ (s.unitRec utype unit).obs.head?⟩]) →
    exec (.getUnitHealth h) s =
      .next (s.replied h 0xC0A3 [] ((allStones.flatMap fun k => one 1 k) ++ (List.range 4).flatMap fun d => one 2 d))) ∧
  (∀ (h : MbHdr) (utype unit : Nat) (s : State), s.takes h { opcode := 0xC0A6, ld := false, fm := .module, len := [12] } →
    (utype = 1 ∧ unit < 192 ∨ utype = 2 ∧ unit < 4) → (s.unitRec utype unit).state = .failed →
    exec (.clearUnitRecord h utype unit) s =
      .next ((s.setUnit utype unit fun r => { r with obs := [], fails := [] }).replied h 0xC0A6 [] [])) ∧
  (∀ (h : MbHdr) (p : Part) (img : Bytes) (s v : State),
    s.takes h { opcode := 0xC0A4, ld := false, fm := .module, bg := p.final, len := [], lenFrom := some 32 } →
    h.len = 32 + p.data.length → s.takePart h.src 0xC0A4 p = .whole v img → img.length = p.total →
    exec (.installTestContent h p) s = .next (v.begun h 0xC0A4 (.installTestContent h { p with data := img }))) ∧
  (∀ (h : MbHdr) (s : State), s.takes h { opcode := 0xC0A5, ld := false, fm := .module } →
    exec (.getTestContent h) s = .next (s.replied h 0xC0A5 []
      (if s.result.pkg.isEmpty then zeros 64 else s.result.pkg.take (64 + 16 * leAt s.result.pkg 16 2)))) ∧
  (∀ (t src : Nat) (j : Job) (s u : State), u = s.at_ t → u.job src = some j → u.up = true → u.millerReady = true →
    exec (.backgroundCommandComplete t src) s = .next (u.completeJob src j)) ∧
  (∀ (h : MbHdr) (j : Job) (s : State), s.takes h (stdCmd 0x0005 true .module) → s.job h.src = some j → s.abortable j = true →
    exec (.abortBackgroundOperation h) s = .next ((s.stopJob h.src).replied h 0x0005 [] [])) ∧
  (∀ (t src opcode : Nat) (s u : State), u = s.at_ t →
    exec (.partImageTimeout t src opcode) s = .next { u with mbox := { u.mbox with
      images := u.mbox.images.filter fun i => ¬ (i.src = src ∧ i.opcode = opcode ∧ i.last + 10 * sec ≤ u.now) } } ∧
    exec (.snapshotTimeout t src opcode) s = .next { u with mbox := { u.mbox with
      snaps := u.mbox.snaps.filter fun i => ¬ (i.src = src ∧ i.opcode = opcode ∧ i.last + 10 * sec ≤ u.now) } })

/-- COMPLETION, retirement (R280 to R282, C096h): each of the four kinds begins when no check refuses it.
Forms that complete: retireRow, retireBank, retireStack, retireSack. -/
def Obligations.RetiresComplete : Prop :=
  ∀ (h : MbHdr) (loc : Nat) (s : State), s.takes h { opcode := 0xC096, ld := false, fm := .module, len := [24], bg := true } →
    (s.retireCheck 0 loc = none → exec (.retireRow h loc) s = .next ((s.startRetire 0 loc).begun h 0xC096 (.retireRow h loc))) ∧
    (s.retireCheck 1 loc = none → exec (.retireBank h loc) s = .next ((s.startRetire 1 loc).begun h 0xC096 (.retireBank h loc))) ∧
    (s.retireCheck 2 loc = none → exec (.retireStack h loc) s = .next ((s.startRetire 2 loc).begun h 0xC096 (.retireStack h loc))) ∧
    (s.retireCheck 3 loc = none → exec (.retireSack h loc) s = .next ((s.startRetire 3 loc).begun h 0xC096 (.retireSack h loc)))

/-- COMPLETION, digests (R295, R297, R298, C0B0h to C0B5h).
Forms that complete: digestStart, digestComplete, defineDigestRange, deleteDigestRange, getDigest, setDigestReference, runDigest,
setDigestPeer. -/
def Obligations.DigestsComplete : Prop :=
  (∀ (t ld range : Nat) (r : Range) (s u : State), u = s.at_ t → u.rangeOf ld range = some r → u.up = true → r.running = false →
    u.digestMay r = true →
    exec (.digestStart t ld range) s = .next ((u.modRange ld range fun r => { r with running := true, due := false }).passRange r)) ∧
  (∀ (t ld range turn : Nat) (disagree : List Nat) (r : Range) (ds : Bytes) (s u v : State), u = s.at_ t → u.rangeOf ld range = some r →
    u.up = true → r.running = true → v = disagree.foldl (fun s k => s.observe 1 k 16) u →
    v.sackDigests ld r.base (r.len / 65536) = (ds, none) →
    exec (.digestComplete t ld range disagree turn) s = .next (v.digestDone r (Config.sha256 ds) turn)) ∧
  (∀ (h : MbHdr) (base len key period wheel layer id p : Nat) (e : Extent) (s : State),
    s.takes h { opcode := 0xC0B0, ld := true, fm := .no, len := [38] } → s.extAt h.src base = some e → e.state = .active →
    Prof.gate e.profile = false → base % 65536 = 0 → len % 65536 = 0 → len ≠ 0 → len ≤ MiB * MiB → base + len ≤ e.base + e.len →
    p = (if period = 0 then 24 else period) → p ≤ 720 → (wheel < 16 ∨ wheel = 0xFF) → layer ≤ 1023 →
    (s.result.ranges.filter fun r => r.ld == h.src).length < 64 → s.result.ranges.length < 256 →
    id = (lowestFree ((s.result.ranges.filter fun r => r.ld == h.src).map Range.id) 64).getD 0 →
    exec (.defineDigestRange h base len key period wheel layer) s = .next ((s.modResult fun x => { x with ranges := x.ranges ++
      [{ id := id, ld := h.src, base := base, len := len, firstBlk := s.blkOf e base, key := key, period := p,
         wheel := (if wheel = 0xFF then none else some (16 * h.src + wheel)), layer := layer, lastDone := s.now }] }).replied h 0xC0B0
      [⟨0, 1, id⟩] [])) ∧
  (∀ (h : MbHdr) (range : Nat) (r : Range) (s : State), s.takes h { opcode := 0xC0B1, ld := true, fm := .no, len := [9] } →
    s.rangeOf h.src range = some r → s.job h.src = none →
    exec (.deleteDigestRange h range) s = .next ((s.modResult fun x =>
      { x with ranges := x.ranges.filter fun r => ¬ (r.ld = h.src ∧ r.id = range) }).replied h 0xC0B1 [] [])) ∧
  (∀ (h : MbHdr) (range : Nat) (r : Range) (s : State), s.takes h { opcode := 0xC0B2, ld := true, fm := .ld, len := [9] } →
    s.rangeOf (whoOf h) range = some r →
    exec (.getDigest h range) s = .next (s.replied h 0xC0B2
      ((if h.src < 16 then [⟨0, 32, (r.reference.getD 0).toNat⟩, ⟨32, 32, r.latest.toNat⟩] else []) ++
        [⟨64, 1, r.outcome⟩, ⟨65, 1, b2n r.changed⟩, ⟨72, 8, if r.done then s.stampOf h.src r.time else 0⟩]) [])) ∧
  (∀ (h : MbHdr) (range : Nat) (reference : BitVec 256) (r : Range) (s : State),
    s.takes h { opcode := 0xC0B3, ld := true, fm := .no, len := [48] } → s.rangeOf h.src range = some r →
    exec (.setDigestReference h range reference) s =
      .next ((s.modRange h.src range fun r => { r with reference := some reference, changed := false }).replied h 0xC0B3 [] [])) ∧
  (∀ (h : MbHdr) (range : Nat) (r : Range) (s : State), s.takes h { opcode := 0xC0B4, ld := true, fm := .no, len := [9], bg := true } →
    s.rangeOf h.src range = some r → r.running = false →
    exec (.runDigest h range) s =
      .next ((s.modRange h.src range fun r => { r with due := true, dueAt := s.now }).begun h 0xC0B4 (.runDigest h range))) ∧
  (∀ (h : MbHdr) (range port window : Nat) (r : Range) (s : State), s.takes h { opcode := 0xC0B5, ld := true, fm := .no, len := [12] } →
    s.rangeOf h.src range = some r →
    exec (.setDigestPeer h range port window false) s =
      .next ((s.modRange h.src range fun r => { r with peer := none }).replied h 0xC0B5 [] []) ∧
    ((port = 4 ∨ port = 5) → window < 64 → (s.window port window).act.dir = 0 → (s.window port window).act.ld = h.src →
      (s.window port window).act.enable = true → exec (.setDigestPeer h range port window true) s =
        .next ((s.modRange h.src range fun r => { r with peer := some (port, window) }).replied h 0xC0B5 [] [])))

/-- COMPLETION, the six ports (R312, R313, R316 to R319, R324, R333, C0F6h to C0F8h): the training states in order, lanes and lasers, the
power states, and the commands.
Forms that complete: portTrainingAdvance, portTrainingTimeout, configMismatchRetry, laneFailure, laserAgeing, laserFailure, portL0p,
portL1Entry, portL2Entry, peerStandbyTimeout, portExitToActive, retrainLink, retrainPort, setPeerPort, getPortTelemetry. -/
def Obligations.PortsComplete : Prop :=
  (∀ (t port partner node : Nat) (light flit256 : Bool) (failed skew : List Nat) (p : Port) (dst : State → Training → State)
      (fail : State → List Nat → State) (s u : State), u = s.at_ t → u.lit = true → port < 6 → port ∉ u.health.engines → p = u.portAt port →
    (∀ v st, dst v st = v.modPort port fun p => { p with state := st, since := v.now }) →
    (∀ v ns, fail v ns = ns.foldl (fun s n => s.modLane port n fun l => { l with failed := true }) v) →
    (p.state = .dark → 4 ≤ port → p.enabled = true → u.port.node ≠ 0 →
      exec (.portTrainingAdvance t port light failed skew partner node flit256) s =
        .next (dst (u.modPort port fun p => { p with power := .active }) .detect)) ∧
    (p.state = .detect → light = true →
      exec (.portTrainingAdvance t port light failed skew partner node flit256) s = .next (dst u .light)) ∧
    (p.state = .light → exec (.portTrainingAdvance t port light failed skew partner node flit256) s = .next (dst u .equalise)) ∧
    (p.state = .equalise → ∀ v : State, v = (List.range 8).foldl (fun s n => s.free.2.modLane port n fun l =>
        { l with margin := s.free.1 % 256 }) (fail u (failed.filter (· < 8))) →
      exec (.portTrainingAdvance t port light failed skew partner node flit256) s =
        .next (if v.healthyGroup port = [] then v.attemptOver port else dst v .lock)) ∧
    (p.state = .lock → ∀ (first : Nat) (v : State),
      first = ((List.range 8).filterMap fun n => if (u.laneAt port n).failed then none else skew[n]?).foldl min (skew.foldl max 0) →
      v = fail (fail u (failed.filter (· < 8))) ((List.range 8).filter fun n => decide (first + 128 < skew.getD n first)) →
      exec (.portTrainingAdvance t port light failed skew partner node flit256) s =
        .next (if v.healthyGroup port = [] then v.attemptOver port else dst v .config)) ∧
    (p.state = .config → p.mismatch = false →
      exec (.portTrainingAdvance t port light failed skew partner node flit256) s = .next (u.configure port partner node flit256)) ∧
    (p.state = .reconfig →
      exec (.portTrainingAdvance t port light failed skew partner node flit256) s = .next ((dst u .active).pump port))) ∧
  (∀ (t port n : Nat) (s u : State), u = s.at_ t → (u.portAt port).limit = some n → (u.portAt port).since + n ≤ u.now →
    exec (.portTrainingTimeout t port) s = .next (u.attemptOver port)) ∧
  (∀ (t port partner node : Nat) (flit256 : Bool) (p : Port) (s u : State), u = s.at_ t → p = u.portAt port → p.state = .config →
    p.mismatch = true → p.since + 100 * ms ≤ u.now →
    exec (.configMismatchRetry t port partner node flit256) s = .next (u.configure port partner node flit256)) ∧
  (∀ (t port lane : Nat) (s u : State), u = s.at_ t → u.lit = true → port < 6 → lane < 8 →
    exec (.laneFailure t port lane) s = .next (u.failLane port lane)) ∧
  (∀ (t port lane wavelength bias : Nat) (s u v : State), u = s.at_ t → port < 6 → lane < 8 → wavelength < 4 →
    v = u.modLane port lane (fun l => { l with bias := l.bias.set wavelength bias }) →
    ((bias < 130 ∨ wavelength ∈ (u.laneAt port lane).aged) → exec (.laserAgeing t port lane wavelength bias) s = .next v) ∧
    (130 ≤ bias → wavelength ∉ (u.laneAt port lane).aged → exec (.laserAgeing t port lane wavelength bias) s =
      .next ((v.modLane port lane fun l => { l with aged := wavelength :: l.aged }).post fmSrc 0
        (Event.of 11 31 1 [⟨64, 1, port⟩, ⟨65, 1, lane⟩, ⟨66, 1, wavelength⟩, ⟨67, 1, min bias 255⟩])))) ∧
  (∀ (t port lane bias : Nat) (lowPower : Bool) (s u : State), u = s.at_ t → port < 6 → lane < 8 → (150 ≤ bias ∨ lowPower = true) →
    exec (.laserFailure t port lane bias lowPower) s = .next ((u.modLane port lane fun l => { l with
      laser := true
      bias := if l.bias.foldl max 0 < bias then l.bias.set (l.bias.idxOf (l.bias.foldl max 0)) bias else l.bias }).failLane port lane)) ∧
  (∀ (t port width : Nat) (p : Port) (s u : State), u = s.at_ t → port < 4 → p = u.portAt port → p.state = .active →
    (p.power = .active ∨ p.power = .partial_) →
    ((width = 1 ∨ width = 2 ∨ width = 4) → width < p.group.length → exec (.portL0p t port width) s =
      .next ((u.modPort port fun p => { p with power := .partial_ }).setGroup port (p.group.take width))) ∧
    exec (.portL1Entry t port) s = .next (u.modPort port fun p => { p with power := .standby })) ∧
  (∀ (t port : Nat) (s u : State), u = s.at_ t → port < 4 → (u.portAt port).state = .active →
    exec (.portL2Entry t port) s = .next ((u.modPort port fun p =>
      { p with state := .dark, power := .dark, since := u.now, partner := 0, partnerNode := 0 }).setGroup port [])) ∧
  (∀ (t port : Nat) (p : Port) (s u : State), u = s.at_ t → (port = 4 ∨ port = 5) → p = u.portAt port → p.state = .active →
    p.power = .active → 0 < p.standby → p.lastUse + p.standby * us ≤ u.now →
    exec (.peerStandbyTimeout t port) s = .next (u.modPort port fun p => { p with power := .standby })) ∧
  (∀ (t port : Nat) (p : Port) (s u : State), u = s.at_ t → u.lit = true → port < 6 → u.health.engines.contains port = false → p = u.portAt port →
    (p.power = .partial_ ∨ p.power = .standby → exec (.portExitToActive t port) s =
      .next (((u.modPort port fun p => { p with power := .active, lastUse := u.now }).setGroup port (u.healthyGroup port)).pump port)) ∧
    (p.power = .dark → (4 ≤ port → p.enabled = true ∧ u.port.node ≠ 0) → exec (.portExitToActive t port) s =
      .next (u.modPort port fun p => { p with state := .detect, power := .active, since := u.now }))) ∧
  (∀ (ld : Nat) (s : State), s.lit = true → ld < 16 → s.ldOn ld = true →
    exec (.retrainLink ld) s = .next ((s.retrain (ldPort ld) false).recap (4 + ldPort ld))) ∧
  (∀ (h : MbHdr) (port : Nat) (s : State), s.takes h { opcode := 0xC0F7, ld := false, fm := .module, len := [9], bg := true } → port < 6 →
    exec (.retrainPort h port) s = .next ((if port < 4 then (s.retrain port false).recap (4 + port) else s.retrain port false).begun h 0xC0F7
      (.retrainPort h port))) ∧
  (∀ (h : MbHdr) (port enable standby grace : Nat) (s v : State), s.takes h { opcode := 0xC0F6, ld := false, fm := .module, len := [20] } →
    (port = 4 ∨ port = 5) → enable ≤ 1 → standby ≤ 1000 → 10 ≤ grace → grace ≤ 10000 →
    v = s.modPort port (fun p => { p with enabled := enable == 1, standby := standby, grace := grace }) →
    (enable = 0 → exec (.setPeerPort h port enable standby grace) s = .next ((v.modPort port fun p => { p with
      state := .dark, power := .dark, since := v.now, group := [], partner := 0, partnerNode := 0, mismatch := false }).replied h 0xC0F6 [] [])) ∧
    (enable = 1 → (v.portAt port).state = .dark → v.lit = true → v.port.node ≠ 0 → exec (.setPeerPort h port enable standby grace) s =
      .next ((v.modPort port fun p => { p with state := .detect, power := .active, since := v.now }).replied h 0xC0F6 [] [])) ∧
    (enable = 1 → (v.portAt port).state ≠ .dark →
      exec (.setPeerPort h port enable standby grace) s = .next (v.replied h 0xC0F6 [] []))) ∧
  (∀ (h : MbHdr) (port : Nat) (s : State), s.takes h { opcode := 0xC0F8, ld := false, fm := .module, len := [9] } → port < 6 →
    exec (.getPortTelemetry h port) s = .next ((s.telemetry port 32 0).2.replied h 0xC0F8 [] (s.telemetry port 32 0).1))

/-- COMPLETION, the peer protocol (R292, R294, R298, R322, R324 to R326, Table 13.6): the messages of a peer port, the timers of packets,
forwards and provisional lines.
Forms that complete: pwr, pack, psettleConfirm, psettleRetract, psettleExtend, psettleKindZero, provisionalTimeout,
forwardExtendTimer, pdigest, pnode, peerBadMessage, pwrPendingResend, forwardTimeout, peerGraceEnd. -/
def Obligations.PeerMessagesComplete : Prop :=
  (∀ (p : PeerHdr) (data : Bytes) (ld : Nat) (w : WinDesc) (s u v : State), s.heard p 1 u → u.inbound p = (0, w) → ld = w.ld →
    v = (List.range p.lines).foldl (fun s i => s.hostWrite ld (p.dest + 64 * i) 0 (fit 64 ((data.drop (64 * i)).take 64))
      (BitVec.allOnes 64) false true) u →
    exec (.pwr p data) s =
      .next ((if p.early then v.provisional p ld (u.blocksAt ld p.dest p.lines) else v).answerPeer p 0)) ∧
  (∀ (p : PeerHdr) (data : Bytes) (s u : State), s.heard p 1 u → (u.inbound p).1 ≠ 0 →
    exec (.pwr p data) s = .next (u.answerPeer p (u.inbound p).1)) ∧
  (∀ (p : PeerHdr) (k : Packet) (s u : State), s.heard p 2 u →
    u.port.packets.find? (fun k => k.port = p.port ∧ k.tag = p.tag ∧ k.out = true) = some k →
    (p.status = 0 → exec (.pack p) s = .next ((u.packetOk k).pump p.port)) ∧
    (p.status = 2 → exec (.pack p) s = .next (u.modPacket p.port p.tag fun x => { x with again := true, hold := false })) ∧
    ((p.status = 1 ∨ p.status = 4 ∨ p.status = 5) → k.digest = false →
      exec (.pack p) s = .next ((u.failForward k.fwdid p.status).pump p.port)) ∧
    (p.status = 6 → k.digest = false → exec (.pack p) s = .next ((u.provFull k.fwdid).pump p.port))) ∧
  (∀ (p : PeerHdr) (m : Settle) (e : Prov) (s u : State), s.heard p 3 u → u.provOf m.node m.fwdid = some e →
    exec (.psettleConfirm p m) s =
      .next ((u.dependants m.node m.fwdid).foldl State.tryRelease (u.dropProv m.node m.fwdid)) ∧
    (1 ≤ m.cause → m.cause ≤ 3 → exec (.psettleRetract p m) s = .next (u.retract e m.cause m)) ∧
    exec (.psettleExtend p m) s = .next (u.modResult fun r => { r with provs := r.provs.map fun x =>
      if x.node = m.node ∧ x.fwdid = m.fwdid then { x with since := u.now } else x })) ∧
  (∀ (p : PeerHdr) (m : Settle) (s u : State), s.heard p 3 u → exec (.psettleKindZero p m) s = .next u.badMsg) ∧
  (∀ (t node fwdid : Nat) (e : Prov) (s u : State), u = s.at_ t → u.provOf node fwdid = some e → u.up = true → e.since + ms ≤ u.now →
    exec (.provisionalTimeout t node fwdid) s = .next (u.retract e 4
      { cause := 4, node := node, ld := e.srcLd, wheel := 0, nowheel := true, layer := 0, turn := 0, seq := 0, gbuf := 0, opcode := 0,
        fwdid := fwdid, dest := e.dest, lines := e.lines })) ∧
  (∀ (t fwdid : Nat) (f : Fwd) (s u : State), u = s.at_ t → u.fwd fwdid = some f → f.early = true → f.settled = false →
    f.extended + 500 * us ≤ u.now →
    exec (.forwardExtendTimer t fwdid) s =
      .next ((u.modFwd fwdid fun x => { x with extended := x.extended + 500 * us }).putSettle f 3 0)) ∧
  (∀ (p : PeerHdr) (key turn : Nat) (digest : BitVec 256) (changed : Bool) (w : WinDesc) (x : Range) (s u v : State), s.heard p 4 u →
    u.inbound p = (0, w) → v = u.answerPeer p 0 → v.result.ranges.find? (fun x => x.ld = w.ld ∧ x.key = key ∧ x.done = true) = some x →
    (changed = true ∨ x.changed = true ∨ x.latest = digest → exec (.pdigest p key digest turn changed) s = .next v) ∧
    (changed = false → x.changed = false → x.latest ≠ digest → ∀ ev : Event,
      ev = Event.of 16 x.ld 1 [⟨64, 1, x.id⟩, ⟨72, 8, key⟩, ⟨80, 2, p.srcNode⟩] →
      exec (.pdigest p key digest turn changed) s = .next ((v.modRiLd x.ld fun l => { l with dmismatch := bump 16 l.dmismatch 1 }).ledger
        (LedgerRec.of 9 0 0 x.ld (key % 2 ^ 64 + p.srcNode * 2 ^ 64)) [⟨x.ld, 2, ev⟩, ⟨fmSrc, 2, ev⟩]))) ∧
  (∀ (p : PeerHdr) (node : Nat) (s u : State), s.heard p 5 u →
    exec (.pnode p node) s = .next (u.modPort p.port fun q => { q with partnerNode := node })) ∧
  (∀ (p : PeerHdr) (s : State), (p.port = 4 ∨ p.port = 5) → s.carries p.port = true → peerBad p = true →
    exec (.peerBadMessage p) s = .next s.badMsg) ∧
  (∀ (t port tag : Nat) (k : Packet) (s u : State), u = s.at_ t →
    u.port.packets.find? (fun k => k.port = port ∧ k.tag = tag ∧ k.again = true) = some k → u.carries port = true → k.sentAt + us ≤ u.now →
    exec (.pwrPendingResend t port tag) s = .next (u.resend k)) ∧
  (∀ (t fwdid : Nat) (k : Packet) (s u : State), u = s.at_ t →
    u.port.packets.find? (fun k => k.fwdid = fwdid ∧ k.first + ms ≤ u.now) = some k → k.digest = false →
    (k.hold = true → exec (.forwardTimeout t fwdid) s = .next ((u.failForward fwdid 3).pump k.port)) ∧
    (k.hold = false → k.again = true → exec (.forwardTimeout t fwdid) s = .next ((u.failForward fwdid 2).pump k.port)) ∧
    (k.hold = false → k.again = false →
      exec (.forwardTimeout t fwdid) s = .next ((u.free.2.failForward fwdid (u.free.1 % 256)).pump k.port))) ∧
  (∀ (t port window : Nat) (w : Window) (s u : State), u = s.at_ t → w = u.window port window → w.prev.isSome = true → w.graceEnd ≤ u.now →
    exec (.peerGraceEnd t port window) s = .next (u.setWindow port window { w with prev := none }))

/-- COMPLETION, peer windows and bindings (R320, R324, R328, C0F0h to C0F5h).
Forms that complete: setNodeIdentifier, setPeerWindow, commitPeerWindow, getPeerWindow, bindSlotForward, unbindSlotForward. -/
def Obligations.PeerCommandsComplete : Prop :=
  (∀ (h : MbHdr) (node : Nat) (s v : State), s.takes h { opcode := 0xC0F0, ld := false, fm := .module, len := [10] } → node ≠ 0 →
    node ≤ 65535 → v = s.modPorts (fun q => { q with node := node }) →
    exec (.setNodeIdentifier h node) s = .next (([4, 5].foldl (fun s port =>
      if s.carries port then s.sendPeer port 5 (peerHdr 5 false false 0 0 0 node 0 0 0 0 0) [] else s) v).replied h 0xC0F0 [] [])) ∧
  (∀ (h : MbHdr) (port window : Nat) (w : PeerWin) (old : Window) (s : State),
    s.takes h { opcode := 0xC0F1, ld := false, fm := .module, len := [32] } → (port = 4 ∨ port = 5) → window < 64 → w.len % 65536 = 0 →
    w.len ≠ 0 → w.len ≤ 64 * MiB * MiB → w.dir ≤ 1 → w.ld ≤ 15 → old = s.window port window →
    (old.act.enable = true → w.dir = old.act.dir) →
    exec (.setPeerWindow h port window w) s = .next ((s.setWindow port window { old with shadow :=
      { dir := w.dir, ld := w.ld, node := w.node, enable := w.enable, base := w.base, len := w.len } }).replied h 0xC0F1 [] [])) ∧
  (∀ (h : MbHdr) (port window : Nat) (w w' : Window) (s v x y : State),
    s.takes h { opcode := 0xC0F2, ld := false, fm := .module, len := [10] } → (port = 4 ∨ port = 5) → window < 64 →
    w = s.window port window →
    w' = { act := w.shadow, shadow := w.shadow, gen := (w.gen + 1) % 256,
           prev := (if w.act.dir = 1 ∧ w.act.enable = true ∧ w.shadow.dir = 1 then some w.act else none),
           graceEnd := s.now + (s.portAt port).grace * us } →
    v = s.setWindow port window w' →
    x = (if w.shadow.ld != w.act.ld || w.shadow.dir != 0 then (v.unbind fun x => x.port == port && x.window == window).modResult fun r =>
      { r with ranges := r.ranges.map fun x => if x.peer = some (port, window) then { x with peer := none } else x } else v) →
    y = (x.port.packets.filter fun k => k.port == port && k.window == window && k.hold).foldl State.resend x →
    exec (.commitPeerWindow h port window) s = .next ((y.pump port).replied h 0xC0F2 [] [])) ∧
  (∀ (h : MbHdr) (port window : Nat) (w : Window) (s : State), s.takes h { opcode := 0xC0F3, ld := true, fm := .module, len := [10] } →
    (port = 4 ∨ port = 5) → window < 64 → w = s.window port window →
    (h.src < 16 → w.act.ld = h.src ∧ (w.act.len ≠ 0 ∨ w.act.enable = true)) →
    exec (.getPeerWindow h port window) s = .next (s.replied h 0xC0F3 (w.act.fields 0 port window w.gen ++
      w.shadow.fields 32 port window w.gen ++ [⟨64, 4, if w.prev.isSome then (w.graceEnd - s.now) / us else 0⟩]) [])) ∧
  (∀ (h : MbHdr) (dpa port window offset b : Nat) (w : WinDesc) (s : State),
    s.takes h { opcode := 0xC0F4, ld := true, fm := .no, len := [32] } → dpa % 65536 = 0 → s.bufAt h.src dpa = some b →
    (port = 4 ∨ port = 5) → window < 64 → w = (s.window port window).act → w.dir = 0 → w.enable = true → w.ld = h.src → offset % 64 = 0 →
    offset + 64 * 512 ≤ w.len →
    exec (.bindSlotForward h dpa port window offset) s = .next (((s.unbind fun x => x.buf == b).modPorts fun q =>
      { q with binds := q.binds ++ [{ buf := b, port := port, window := window, offset := offset }] }).replied h 0xC0F4 [] [])) ∧
  (∀ (h : MbHdr) (dpa b : Nat) (s : State), s.takes h { opcode := 0xC0F5, ld := true, fm := .no, len := [16] } → dpa % 65536 = 0 →
    s.bufAt h.src dpa = some b → (∀ f ∈ s.port.fwds, f.buf = b → f.early = true → f.settled = true) →
    exec (.unbindSlotForward h dpa) s = .next ((s.unbind fun x => x.buf == b).replied h 0xC0F5 [] []))

/-- COMPLETION, module commands (R34, R43, R363, R379, R381, C000h to C022h).
Forms that complete: getModuleStatus, getUnitMap, stagePartitionRequest, getPartitionMap, getStagedRequestStatus,
discardStagedRequest, keyLd, zeroiseLdKey, getRegionProfile, setRegionProfile, getExtentDescriptors. -/
def Obligations.ModuleComplete : Prop :=
  (∀ (h : MbHdr) (s : State), s.takes h { opcode := 0xC000, ld := true, fm := .module } →
    exec (.getModuleStatus h) s =
      .next (s.replied h 0xC000 [⟨0, 1, s.moduleState⟩, ⟨1, 1, s.isolByte h.src⟩, ⟨4, 4, s.fwver⟩, ⟨8, 8, s.boot.serial⟩] [])) ∧
  (∀ (h : MbHdr) (s : State), s.takes h { opcode := 0xC001, ld := false, fm := .module } →
    exec (.getUnitMap h) s = .next (s.replied h 0xC001 [⟨0, 24, bitMap 192 fun k => (s.stoneAt k).state != .online⟩,
      ⟨24, 2, bitMap 12 fun k => !s.stackOk k⟩, ⟨26, 1, bitMap 4 fun k => (s.unitRec 2 k).state == .failed⟩,
      ⟨32, 32, bitMap 256 fun k => s.deep.dieFailed.get k⟩, ⟨64, 6, bitMap 48 fun k => (s.port.lanes.get k).failed⟩] [])) ∧
  (∀ (h : MbHdr) (p : Part) (img : Bytes) (s v : State),
    s.takes h { opcode := 0xC010, ld := false, fm := .module, bg := p.final, len := [], lenFrom := some 32 } →
    h.len = 32 + p.data.length → s.takePart h.src 0xC010 p = .whole v img → img.length = p.total →
    exec (.stagePartitionRequest h p) s = .next (v.begun h 0xC010 (.stagePartitionRequest h { p with data := img }))) ∧
  (∀ (h : MbHdr) (o : OutReq) (s : State), s.takes h { opcode := 0xC011, ld := true, fm := .any, len := [16] } → o.first = 0 →
    exec (.getPartitionMap h o) s = .next (s.repliedBytes h 0xC011 o
      (if h.src < 16 then (s.ext.parts.get h.src).entry else s.mapBytes ++ leBytes 1 s.boot.fmport))) ∧
  (∀ (h : MbHdr) (s : State), s.takes h { opcode := 0xC012, ld := false, fm := .module } →
    exec (.getStagedRequestStatus h) s = .next (s.replied h 0xC012 [⟨0, 1, s.boot.stageState⟩,
      ⟨4, 4, if s.boot.stageState = 2 then s.boot.reason else 0⟩, ⟨8, 8, s.boot.stageSerial⟩] [])) ∧
  (∀ (h : MbHdr) (s : State), s.takes h { opcode := 0xC013, ld := false, fm := .module } →
    (s.boot.stagedReq.isSome = true → exec (.discardStagedRequest h) s =
      .next ((s.modBoot fun b => { b with stagedReq := none, stageState := 0, stageSerial := 0 }).replied h 0xC013 [] [])) ∧
    (s.boot.stagedReq = none → exec (.discardStagedRequest h) s = .next (s.replied h 0xC013 [] []))) ∧
  (∀ (h : MbHdr) (ld : Nat) (s v : State), s.takes h { opcode := 0xC014, ld := true, fm := .ld } → ld = whoOf h →
    ((s.ext.keys.get ld).isSome = true → s.ownsAny ld = false) →
    v = ((if (s.ext.keys.get ld).isSome then s.newKey.2.endKey ld else s.newKey.2).setKey ld (some s.newKey.1)) →
    exec (.keyLd h) s = .next ((v.modBoot fun b => { b with
      debugKeys := if b.debugOpen then ld :: b.debugKeys.filter (· ≠ ld) else b.debugKeys.filter (· ≠ ld) }).replied h 0xC014 [] [])) ∧
  (∀ (h : MbHdr) (ld : Nat) (s : State), s.takes h { opcode := 0xC015, ld := true, fm := .ld } → ld = whoOf h → s.ownsAny ld = false →
    (s.ext.keys.get ld).isSome = true →
    exec (.zeroiseLdKey h) s = .next ((((s.endKey ld).setKey ld none).modBoot fun b =>
      { b with debugKeys := b.debugKeys.filter (· ≠ ld) }).replied h 0xC015 [] [])) ∧
  (∀ (h : MbHdr) (region : Nat) (p : Option Word) (s : State), s.takes h { opcode := 0xC020, ld := true, fm := .anyLd, len := [9] } →
    region < 8 → p = s.regionProfile (whoOf h) region →
    exec (.getRegionProfile h region) s = .next (s.replied h 0xC020
      [⟨0, 8, (p.getD 0).toNat⟩, ⟨8, 1, b2n p.isSome⟩, ⟨12, 4, (s.inRegion (whoOf h) region).length⟩] [])) ∧
  (∀ (h : MbHdr) (region ld : Nat) (profile : Word) (s v : State), s.takes h { opcode := 0xC021, ld := false, fm := .anyLd, len := [24] } →
    ld = h.target → region < 8 → s.profileOk ld profile = true → s.inRegion ld region = [] →
    v = { s with ext := { s.ext with profiles := s.ext.profiles.set (8 * ld + region) (some profile) } } →
    exec (.setRegionProfile h region profile) s = .next (((v.modCxe fun c =>
      { c with cdatSeq := c.cdatSeq.upd ld fun n => (n + 1) % 2 ^ 32 }).post ld 0
        (Event.of 20 ld 1 [⟨64, 1, region⟩, ⟨72, 8, profile.toNat⟩])).replied h 0xC021 [] [])) ∧
  (∀ (h : MbHdr) (o : OutReq) (s : State), s.takes h { opcode := 0xC022, ld := true, fm := .ld, len := [16] } → o.first = 0 →
    exec (.getExtentDescriptors h o) s =
      .next (s.repliedRecs h 0xC022 64 o ((s.ext.exts.filter fun e => e.ld = whoOf h).map s.descriptor)))

/-- COMPLETION, the CXL endpoint (R310, R329, R332, R337, R346, R349 to R353, R383 to R385): decoders, resets of the four scopes, reported
errors, bus mastering, IDE and SPDM, CDAT.
Forms that complete: hdmDecoderCommit, hotReset, linkDown, ldIdHotReset, cxlReset, flr, cxlRsvdEncoding, cxlIoPoisonedWrite,
flitCrcFailure, busMasterDisable, busMasterEnable, dmaCompletion, dmaCompletionTimeout, ideIntegrityFail, ideKeyProgram,
cdatTableAccess, spdmGetMeasurements, spdmKeyExchange, spdmEndSession, d3hotEntry. -/
def Obligations.EndpointComplete : Prop :=
  (∀ (ld k : Nat) (d : HdmSetup) (v : Hdm) (s u : State), s.ioOk ld = true → ld < 16 → k < 8 →
    v = { base := d.base, size := d.hpaSize, ways := d.ways, gran := d.gran, target := d.target, skip := d.skip, bi := d.bi } →
    u = s.modCxe (fun c => { c with hdm := c.hdm.set (8 * ld + k) v }) →
    (waysOk d.ways = true → granOk d.gran = true → d.hpaSize % (granule * d.ways) = 0 →
      (∀ i < k, (s.hdmAt ld i).committed = true) → u.dbase ld k + v.dpaSize ≤ (s.ext.parts.get ld).dpaSize * granule →
      (d.bi = true → (s.cxe.lds.get ld).biEnable = true) → exec (.hdmDecoderCommit ld k d) s =
        .next (s.modCxe fun c => { c with hdm := c.hdm.set (8 * ld + k) { v with committed := true } })) ∧
    (waysOk d.ways = false ∨ granOk d.gran = false ∨ d.hpaSize % (granule * d.ways) ≠ 0 → exec (.hdmDecoderCommit ld k d) s =
      .next (s.modCxe fun c => { c with hdm := c.hdm.set (8 * ld + k) { v with error := true } }))) ∧
  (∀ (t port : Nat) (s u : State), u = s.at_ t → u.lit = true → port < 4 →
    exec (.hotReset t port) s = .next (u.portReset port 1) ∧ exec (.linkDown t port) s = .next (u.portReset port 2)) ∧
  (∀ (t : Nat) (vector : BitVec 16) (s u : State), u = s.at_ t → u.ioOk fmSrc = true →
    exec (.ldIdHotReset t vector) s =
      .next ((allLds.filter fun ld => vector.getLsbD ld && u.ldOn ld).foldl (fun s ld => s.ldReset ld 3) u)) ∧
  (∀ (t ld : Nat) (memClear : Bool) (s u : State), u = s.at_ t → u.ioOk ld = true → ld < 16 →
    exec (.cxlReset t ld memClear) s = .next (u.ldReset ld (if memClear then 5 else 4))) ∧
  (∀ (t ld : Nat) (s u : State), u = s.at_ t → u.ldOn ld = true → u.lit = true →
    (ld = fmSrc → exec (.flr t ld) s = .next (u.stopJob fmSrc)) ∧
    (ld < 16 → exec (.flr t ld) s =
      .next ((u.ldReset ld 6).modCxeLd ld fun l => { l with flrUntil := u.now + min l.timeout (90 * ms) }))) ∧
  (∀ (port : Nat) (flit : Bytes) (s : State), s.lit = true → port < 4 →
    exec (.cxlRsvdEncoding port flit) s = .next (s.onPort port fun s ld => s.rasUnc ld 9 flit)) ∧
  (∀ (ld : Nat) (header : Bytes) (s : State), s.ioOk ld = true →
    exec (.cxlIoPoisonedWrite ld header) s = .next (s.aerUnc ld 12 header)) ∧
  (∀ (port : Nat) (e : FlitErr) (header : Bytes) (s a b c d : State), s.lit = true → port < 4 →
    a = (s.takeWords port e.words).onPort port (fun s ld => s.aerCor ld 0) → b = (if e.uncorrectable then a.onPort port (fun s ld => s.rasCor ld 6 header) else a) →
    c = (if e.rollover then b.onPort port (fun s ld => s.aerCor ld 8) else b) →
    d = (if e.crcThreshold then c.onPort port (fun s ld => s.rasCor ld 2 header) else c) →
    exec (.flitCrcFailure port e header) s =
      .next (if e.retryThreshold then d.onPort port (fun s ld => s.rasCor ld 3 header) else d)) ∧
  (∀ (ld : Nat) (s v : State), s.ioOk ld = true →
    v = s.modCxe (fun c => { c with
      bme := c.bme.set ld false
      dmas := c.dmas.map fun d => if d.ld = ld then { d with drop := true } else d }) →
    exec (.busMasterDisable ld) s =
      .next (if s.cxe.dmas.any fun d => d.ld == ld && !d.drop then v.endJob ld .busMasterDisabled 0 else v)) ∧
  (∀ (ld : Nat) (s : State), s.ioOk ld = true →
    exec (.busMasterEnable ld) s = .next (((List.range 6).filter fun v => bitOf (s.cxe.msix.get ld) v).foldl (fun s v => s.send (.msix ld v))
      (s.modCxe fun c => { c with bme := c.bme.set ld true, msix := c.msix.set ld 0 }))) ∧
  (∀ (t ld tag : Nat) (data : Bytes) (d : Dma) (s u v : State), u = s.at_ t → u.up = true → u.ldOn ld = true →
    u.cxe.dmas.find? (fun d => d.ld = ld ∧ d.tag = tag) = some d →
    v = u.modCxe (fun c => { c with dmas := c.dmas.filter fun x => ¬ (x.ld = ld ∧ x.tag = tag) }) →
    (d.drop = false → exec (.dmaCompletion t ld tag data) s = .next v) ∧
    (d.drop = true → (v.cxe.lds.get ld).flrUntil ≠ 0 → (v.cxe.lds.get ld).flrUntil < v.now → exec (.dmaCompletion t ld tag data) s =
      .next (v.modCxeLd ld fun l => { l with dmaLate := bump 16 l.dmaLate 1 }))) ∧
  (∀ (t ld tag : Nat) (data : Bytes) (s u : State), u = s.at_ t → u.up = true → u.ldOn ld = true →
    u.cxe.dmas.find? (fun d => d.ld = ld ∧ d.tag = tag) = none → exec (.dmaCompletion t ld tag data) s = .next (u.aerUnc ld 16 [])) ∧
  (∀ (t ld tag : Nat) (d : Dma) (s u : State), u = s.at_ t →
    u.cxe.dmas.find? (fun d => d.ld = ld ∧ d.tag = tag ∧ d.drop = false) = some d → d.start + (u.cxe.lds.get ld).timeout ≤ u.now →
    exec (.dmaCompletionTimeout t ld tag) s = .next (((((u.modCxe fun c =>
      { c with dmas := c.dmas.filter fun x => ¬ (x.ld = ld ∧ x.tag = tag) }).modCxeLd ld fun l =>
        { l with dmaTimeout := bump 16 l.dmaTimeout 1 }).aerUnc ld 14 []).endJob ld .internalError 0))) ∧
  (∀ (t port : Nat) (s u v : State), u = s.at_ t → u.up = true → port < 4 → (u.cxe.ports.get port).ide = 2 →
    v = (u.onPort port fun s ld => s.rasUnc ld 16 []).modCxe (fun c =>
      { c with ports := c.ports.upd port fun p => { p with ideFail := bump 16 p.ideFail 1 } }) →
    exec (.ideIntegrityFail t port) s =
      .next ((v.portReset port 2).modCxe fun c => { c with ports := c.ports.upd port fun p => { p with ide := 3 } })) ∧
  (∀ (ld session : Nat) (activate : Bool) (s : State), s.ioOk ld = true → s.ideLd (ldPort ld) = some ld →
    (∃ x ∈ s.cxe.sessions, x.ld = ld ∧ x.id = session) →
    ∀ (ks : List (BitVec 256)) (u : State),
    ks = (List.range 4).map (Config.ideKey s.freeCtr) → u = { s with freeCtr := s.freeCtr + 1 } →
    exec (.ideKeyProgram ld session activate) s = .next ((u.modCxe fun c =>
      { c with ports := c.ports.upd (ldPort ld) fun p => p.takeKeys ks activate }).send (.cxlIo ld 9 [⟨0, 1, b2n activate⟩] []))) ∧
  (∀ (ld : Nat) (regs : List (Nat × (Nat × Nat) × Word)) (s : State), s.ioOk ld = true → ld < 16 →
    regs = (s.ext.parts.get ld).regions.zipIdx.filterMap (fun p => (s.regionProfile ld p.2).map fun w => (p.2, p.1, w)) →
    exec (.cdatTableAccess ld) s = .next (s.send (.cxlIo ld 5
      [⟨0, 4, s.cxe.cdatSeq.get ld⟩, ⟨4, 2, 340⟩, ⟨6, 2, 380⟩, ⟨8, 2, 50 * (s.portAt (ldPort ld)).group.length⟩]
      (regs.flatMap fun r => layout 16 [⟨0, 1, r.1⟩, ⟨1, 1, b2n (Prof.durable r.2.2) + 2 * b2n (Prof.shared r.2.2)⟩, ⟨8, 4, r.2.1.1⟩,
        ⟨12, 4, r.2.1.2⟩])))) ∧
  (∀ (ld index : Nat) (signed : Bool) (s : State), s.ioOk ld = true → ld < 16 →
    (index = 0 → exec (.spdmGetMeasurements ld index signed) s = .next (s.send (.cxlIo ld 6 [⟨0, 1, 0⟩, ⟨1, 1, 8⟩] []))) ∧
    (1 ≤ index → index ≤ 8 → exec (.spdmGetMeasurements ld index signed) s = .next (s.send (.cxlIo ld 6 [⟨0, 1, index⟩, ⟨1, 1, b2n signed⟩]
      (s.measurement ld index ++ if signed then Config.identitySign (s.measurement ld index) else []))))) ∧
  (∀ (ld id : Nat) (s : State), s.ioOk ld = true → ld < 16 → (s.cxe.sessions.filter fun x => x.ld = ld).length < 2 →
    id = (lowestFree ((s.cxe.sessions.filter fun x => x.ld = ld).map Session.id) 2).getD 0 →
    exec (.spdmKeyExchange ld) s = .next ((({ s with freeCtr := s.freeCtr + 1 } : State).modCxe fun c => { c with sessions := c.sessions ++
      [{ ld := ld, id := id, key := Config.sessionKey s.freeCtr }] }).send (.cxlIo ld 7 [⟨0, 2, id⟩] []))) ∧
  (∀ (ld session : Nat) (s : State), exec (.spdmEndSession ld session) s =
    .next (s.modCxe fun c => { c with sessions := c.sessions.filter fun x => ¬ (x.ld = ld ∧ x.id = session) })) ∧
  (∀ (ld : Nat) (toD3 : Bool) (s : State), (s.phase = .running ∨ s.phase = .booting) → s.ldOn ld = true →
    exec (.d3hotEntry ld toD3) s = .next (s.modCxeLd ld fun l => { l with d3 := toD3 }))

/-- COMPLETION, pace, power and heat (R18, R19, R400, R415, R416, R418, C0E0h, C0E1h, C0E3h): the stone clock, the governor and the
thermal steps.
Forms that complete: stoneStepChangeComplete, governorStep, governorRetreat, setPowerLimit, getPowerStatus, thermalStep,
thermalRetreat, getThermalStatus. -/
def Obligations.PowerComplete : Prop :=
  (∀ (t g : Nat) (s u : State), u = s.at_ t → u.clock.target = some g → u.up = true → u.clock.changeAt ≤ u.now →
    exec (.stoneStepChangeComplete t) s = .next ((u.modClock fun c =>
      { c with cycBase := u.cyc, cycAt := u.now, step := g, target := none, changes := bump 32 c.changes 1 }).pumpStone.beginWaiting.caps.noteVitals u)) ∧
  (∀ (t avg : Nat) (s u v : State), u = s.at_ t → u.up = true → u.power.limit < avg → v = u.modPower (fun p => { p with avg := avg }) →
    (v.power.taken = [] ∨ v.power.lastStep + 2 * ms ≤ v.now) →
    (v.nextGov = none → exec (.governorStep t avg) s = .next v) ∧
    (∀ k, v.nextGov = some k → exec (.governorStep t avg) s = .next ((v.modPower fun p =>
      { p with taken := k :: p.taken, lastStep := v.now, steps := bump 32 p.steps 1 }).applySteps.noteVitals v))) ∧
  (∀ (t avg k : Nat) (rest : List Nat) (s u v : State), u = s.at_ t → u.up = true → avg + 20 ≤ u.power.limit →
    v = u.modPower (fun p => { p with avg := avg }) → v.power.taken = k :: rest → v.power.lastStep + 50 * ms ≤ v.now →
    v.power.lastUndo + 50 * ms ≤ v.now →
    exec (.governorRetreat t avg) s =
      .next ((v.modPower fun p => { p with taken := rest, lastUndo := v.now }).applySteps.noteVitals v)) ∧
  (∀ (h : MbHdr) (limit : Nat) (s : State), s.takes h { opcode := 0xC0E0, ld := false, fm := .module, len := [10] } → 450 ≤ limit →
    limit ≤ 850 → exec (.setPowerLimit h limit) s = .next ((s.modPower fun p => { p with limit := limit }).replied h 0xC0E0 [] [])) ∧
  (∀ (h : MbHdr) (s : State), s.takes h { opcode := 0xC0E1, ld := false, fm := .module } →
    exec (.getPowerStatus h) s = .next ((s.freeFields 8 5).2.replied h 0xC0E1 ([⟨0, 2, s.power.avg⟩, ⟨2, 2, s.power.limit⟩,
      ⟨4, 1, s.deepestStep⟩, ⟨5, 1, s.clock.step⟩, ⟨6, 1, s.near.point⟩, ⟨7, 1, b2n (s.health.steps != [])⟩] ++ (s.freeFields 8 5).1) [])) ∧
  (∀ (t unit k : Nat) (part : Part17) (temp : Int) (s u v w : State), u = s.at_ t → u.up = true → unit < partUnits part →
    v = u.setTemp part unit temp → w = (if (u.health.sensors.get (sensorKey part unit)).temp < warnAt part ∧ warnAt part ≤ temp then
      v.post fmSrc 1 (thermalEvent unit temp 0) else v) → stepAt part ≤ temp →
    (u.health.lastTherm = 0 ∨ u.health.lastTherm + ms ≤ u.now) → w.thermKind part = some k →
    exec (.thermalStep t part unit temp) s = .next (((w.modHealth fun h => { h with
      steps := { part := part, unit := unit, kind := k } :: h.steps
      lastTherm := u.now
      stepCount := bump 16 h.stepCount 1 }).post fmSrc 1 (thermalEvent unit temp k)).applySteps.noteVitals u)) ∧
  (∀ (t unit key : Nat) (part : Part17) (temp : Int) (s u v : State), u = s.at_ t → u.up = true → unit < partUnits part →
    key = sensorKey part unit → v = u.setTemp part unit temp → (∃ y ∈ v.health.steps, y.part = part ∧ y.unit = unit) →
    temp < retreatAt part → (v.health.sensors.get key).lastHot + 100 * ms ≤ u.now → (v.health.sensors.get key).lastUndo + 100 * ms ≤ u.now →
    exec (.thermalRetreat t part unit temp) s = .next ((v.modHealth fun h => { h with
      steps := dropStep part unit h.steps
      sensors := h.sensors.upd key fun y => { y with lastUndo := u.now } }).applySteps.noteVitals u)) ∧
  (∀ (h : MbHdr) (s : State), s.takes h { opcode := 0xC0E3, ld := false, fm := .module } →
    exec (.getThermalStatus h) s = .next (s.replied h 0xC0E3 (⟨0, 2, tempField (s.tempOf .hub 0)⟩ ::
      ((List.range 4).map fun d => (⟨2 + 2 * d, 2, tempField (s.tempOf .stoneDie d)⟩ : Fld)) ++
      ((List.range 6).map fun p => (⟨10 + 2 * p, 2, tempField (s.tempOf .engine p)⟩ : Fld)) ++
      [⟨22, 2, tempField (s.hottestOf .flash)⟩, ⟨24, 2, tempField (s.hottestOf .stack)⟩]) []))

/-- COMPLETION, health (R405 to R407, R410, R412 to R414, C0A8h to C0AEh): slices, calibration, path monitors and tentering.
Forms that complete: sliceDue, sliceGapTimeout, sliceDeferralExpire, sliceComplete, requestTestSlice, getTestSchedule,
setTestInterval, setDeferralLimit, requestCalibration, pathMonitorSample, tenteringRun, getAgeingTelemetry, getTenteringPlan. -/
def Obligations.HealthComplete : Prop :=
  (∀ (t slice unit every : Nat) (r : SliceRec) (s u v : State), u = s.at_ t → r = u.sliceRec slice unit →
    every = u.health.intervals.getD slice 0 → u.up = true → sliceHas slice unit = true → every ≠ 0 → r.marked = false →
    u.unitFailedNow (sliceUtype slice) unit = false → (r.due.isSome = true ∨ r.lastDone + every * (60 * sec) ≤ u.powered) →
    v = u.modSlice slice unit (fun r => { r with due := some (r.due.getD u.now) }) →
    exec (.sliceDue t slice unit) s = .next (v.markDue slice unit (v.unitGap (sliceUtype slice) unit))) ∧
  (∀ (t slice unit d : Nat) (r : SliceRec) (s u : State), u = s.at_ t → r = u.sliceRec slice unit → r.due = some d → u.up = true →
    sliceHas slice unit = true → r.marked = false → d + 600 * sec ≤ u.now →
    exec (.sliceGapTimeout t slice unit) s = .next (u.markDue slice unit true)) ∧
  (∀ (t slice unit d : Nat) (r : SliceRec) (s u : State), u = s.at_ t → r = u.sliceRec slice unit → r.due = some d → u.up = true →
    slice < 3 → r.marked = true → (u.stoneAt unit).state = .draining → (u.stoneAt unit).running.isSome = true →
    d + u.health.deferral * (60 * sec) ≤ u.now →
    exec (.sliceDeferralExpire t slice unit) s = .next (u.modStone unit fun st => { st with preempt := true })) ∧
  (∀ (t slice unit : Nat) (o : SliceOutcome) (failed : Bool) (s u v w x : State), u = s.at_ t → sliceHas slice unit = true → u.up = true →
    u.phase ≠ .booting → (u.sliceRec slice unit).running = true → (o = .margin → slice ≠ 2 ∧ slice ≠ 4) →
    failed = u.unitFailedNow (sliceUtype slice) unit →
    v = u.modSlice slice unit (fun r => { r with
      lastDone := u.powered, due := none, marked := false, running := false, requested := false }) →
    w = (v.noteSlice slice unit o).judge slice unit (u.unitRec (sliceUtype slice) unit).state failed o → w.phase ≠ .booting →
    x = ((if sliceUtype slice = 1 then w.afterSlice slice unit else w.clearUnit (sliceUtype slice) unit).endSliceJobs slice unit failed o).pumpStone.caps →
    exec (.sliceComplete t slice unit o) s = .next (if x.hubLost then x.hubFails else x.noteVitals u)) ∧
  (∀ (h : MbHdr) (utype unit slice : Nat) (s : State), s.takes h { opcode := 0xC0A8, ld := false, fm := .module, len := [13], bg := true } →
    sliceHas slice unit = true → sliceUtype slice = utype → s.unitBusy utype unit = false →
    (s.unitFailedNow utype unit = true → utype ≠ 6 → exec (.requestTestSlice h utype unit slice) s =
      .next (((utypeSlices utype).foldl (fun s sl => s.markSlice sl unit true) s).begun h 0xC0A8 (.requestTestSlice h utype unit slice))) ∧
    (s.unitFailedNow utype unit = false ∨ utype = 6 → exec (.requestTestSlice h utype unit slice) s =
      .next ((s.markSlice slice unit true).begun h 0xC0A8 (.requestTestSlice h utype unit slice)))) ∧
  (∀ (h : MbHdr) (o : OutReq) (s : State), s.takes h { opcode := 0xC0A9, ld := false, fm := .module, len := [16] } → o.first = 0 →
    exec (.getTestSchedule h o) s = .next (s.repliedRecs h 0xC0A9 16 o (allSlices.map fun x => s.sliceFields x.1 x.2))) ∧
  (∀ (h : MbHdr) (slice interval : Nat) (s : State), s.takes h { opcode := 0xC0AA, ld := false, fm := .module, len := [16] } → slice < 7 →
    (interval ≠ 0 → 10 ≤ interval ∧ interval ≤ 10080) →
    exec (.setTestInterval h slice interval) s =
      .next ((s.modHealth fun x => { x with intervals := x.intervals.set slice interval }).replied h 0xC0AA [] [])) ∧
  (∀ (h : MbHdr) (limit : Nat) (s : State), s.takes h { opcode := 0xC0AB, ld := false, fm := .module, len := [12] } → limit ≠ 0 → limit ≤ 120 →
    exec (.setDeferralLimit h limit) s = .next ((s.modHealth fun x => { x with deferral := limit }).replied h 0xC0AB [] [])) ∧
  (∀ (h : MbHdr) (unit : Nat) (s : State), s.takes h { opcode := 0xC0AC, ld := false, fm := .module, len := [10], bg := true } → unit ≤ 11 →
    s.stackOk unit = true → (s.stackAt unit).retrainPoint = none →
    exec (.requestCalibration h 0 unit) s =
      .next ((s.modStack unit fun x => x.queueTrain x.point).begun h 0xC0AC (.requestCalibration h 0 unit))) ∧
  (∀ (t : Nat) (readings hub : List Nat) (s u : State), u = s.at_ t → u.up = true →
    (u.health.sampleAt = 0 ∨ u.health.sampleAt + 600 * sec ≤ u.now) →
    exec (.pathMonitorSample t readings hub) s =
      .next (u.modHealth fun h => { h with slack := readings.take 192, hubSlack := hub.take 16, sampleAt := u.now })) ∧
  (∀ (t waf30 : Nat) (margins : List Nat) (s u v : State), u = s.at_ t → u.up = true →
    (u.health.planAt = 0 ∨ u.health.planAt + 86400 * sec ≤ u.now) →
    v = ((((List.range 4).foldl State.planDie u).planHub.planFlash waf30).planLasers margins).modHealth (fun h =>
      { h with plans := bump 16 h.plans 1, planAt := u.now }) →
    exec (.tenteringRun t waf30 margins) s = .next (v.applySteps.noteVitals u)) ∧
  (∀ (h : MbHdr) (o : OutReq) (s : State), s.takes h { opcode := 0xC0AD, ld := false, fm := .module, len := [16] } → o.first = 0 →
    exec (.getAgeingTelemetry h o) s =
      .next ((s.repliedRecs h 0xC0AD 16 o (s.ageRecs fun i => Config.freeValue (s.freeCtr + i))).skipFree 464)) ∧
  (∀ (h : MbHdr) (s : State), s.takes h { opcode := 0xC0AE, ld := false, fm := .module } →
    exec (.getTenteringPlan h) s = .next ((s.freeFields 56 48).2.replied h 0xC0AE ([⟨0, 1, s.health.ceil⟩,
      ⟨1, 1, b2n s.health.hubcap + 2 * b2n s.health.blower⟩, ⟨2, 2, s.health.hubVolt⟩] ++
      ((List.range 4).flatMap fun d => (List.range 5).map fun c => (⟨4 + 10 * d + 2 * c, 2, s.health.volts.get (8 * d + c)⟩ : Fld)) ++
      [⟨44, 1, s.deep.budget⟩, ⟨48, 8, s.stampOf fmSrc s.health.planAt⟩] ++ (s.freeFields 56 48).1) []))

/-- COMPLETION, the standard commands of every mailbox (R354, R364 to R366, R375, Table 15.5): identification, logs, events, firmware,
time and health.
Forms that complete: unsupportedCommand, identifyMemoryDevice, getSupportedLogs, getLog, getEventRecords, clearEventRecords,
getEventInterruptPolicy, setEventInterruptPolicy, getFwInfo, transferFw, activateFw, getTimestamp, setTimestamp, getHealthInfo. -/
def Obligations.StandardComplete : Prop :=
  (∀ (h : MbHdr) (opcode : Nat) (c : Cmd) (s : State), s.rings h.src = true → opcode ∉ commandsOf h.src →
    c = { opcode := opcode, ld := false, fm := .no, vendor := decide (0xC000 ≤ opcode ∧ opcode ≤ 0xC0FF) } →
    exec (.unsupportedCommand h opcode) s = .next (s.answer h c .unsupported [] [])) ∧
  (∀ (h : MbHdr) (s : State), s.takes h (stdCmd 0x4000 true .no) →
    exec (.identifyMemoryDevice h) s = .next (s.replied h 0x4000 [⟨0, 4, s.fwver⟩, ⟨16, 8, (s.ext.parts.get h.src).dpaSize⟩, ⟨24, 8, 0⟩,
      ⟨32, 8, 0⟩, ⟨40, 8, 0⟩, ⟨48, 2, 128⟩, ⟨50, 2, 128⟩, ⟨52, 2, 128⟩, ⟨54, 2, 32⟩, ⟨56, 4, 0⟩, ⟨60, 3, 256⟩, ⟨63, 2, 64⟩, ⟨67, 2, 256⟩] [])) ∧
  (∀ (h : MbHdr) (s : State), s.takes h (stdCmd 0x0400 true .module) →
    exec (.getSupportedLogs h) s =
      .next (s.replied h 0x0400 [⟨0, 2, 1⟩, ⟨8, 16, celUuid⟩, ⟨24, 4, (effectsLog h.src).length⟩] [])) ∧
  (∀ (h : MbHdr) (offset length : Nat) (s : State), s.takes h (stdCmd 0x0401 true .module) → offset + length ≤ (effectsLog h.src).length →
    exec (.getLog h true offset length) s = .next (s.replied h 0x0401 [] (((effectsLog h.src).drop offset).take length))) ∧
  (∀ (h : MbHdr) (log : Nat) (l : EvLog) (s : State), s.takes h (stdCmd 0x0100 true .module) → log ≤ 4 →
    l = s.mbox.logs.get (h.src * 8 + log) →
    exec (.getEventRecords h log) s = .next (s.replied h 0x0100 [⟨0, 1, b2n l.ovf⟩, ⟨2, 2, min l.ovCount 65535⟩, ⟨4, 8, l.ovFirst⟩,
      ⟨12, 8, l.ovLast⟩, ⟨20, 2, l.recs.length⟩] (l.recs.flatMap fun e => e.bytes log))) ∧
  (∀ (h : MbHdr) (log : Nat) (all : Bool) (handles : List Nat) (l : EvLog) (s : State), s.takes h (stdCmd 0x0101 true .module) → log ≤ 4 →
    h.len = 6 + 2 * handles.length →
    l = s.mbox.logs.get (h.src * 8 + log) → (all = false → ∀ x ∈ handles, ∃ e ∈ l.recs, e.handle = x) → ∀ logs : Tbl EvLog,
    logs = s.mbox.logs.set (h.src * 8 + log) (l.keep fun e => !all && !handles.contains e.handle) →
    exec (.clearEventRecords h log all handles) s =
      .next (({ s with mbox := { s.mbox with logs := logs } } : State).replied h 0x0101 [] [])) ∧
  (∀ (h : MbHdr) (s : State), s.takes h (stdCmd 0x0102 true .module) →
    exec (.getEventInterruptPolicy h) s =
      .next (s.replied h 0x0102 ((List.range 5).map fun l => ⟨l, 1, s.mbox.policy.get (h.src * 8 + l) + 16 * (l + 1)⟩) [])) ∧
  (∀ (h : MbHdr) (modes : List Nat) (s : State), s.takes h (stdCmd 0x0103 true .module) → modes.length = h.len → (∀ m ∈ modes, m ≤ 1) →
    ∀ pol : Tbl Nat, pol = modes.zipIdx.foldl (fun (t : Tbl Nat) p => t.set (h.src * 8 + p.2) p.1) s.mbox.policy →
    exec (.setEventInterruptPolicy h modes) s =
      .next (({ s with mbox := { s.mbox with policy := pol } } : State).replied h 0x0103 [] [])) ∧
  (∀ (h : MbHdr) (s : State), s.takes h (stdCmd 0x0200 true .module) →
    exec (.getFwInfo h) s = .next (s.replied h 0x0200 [⟨0, 1, 2⟩, ⟨1, 1, (s.boot.running + 1) + 8 * (s.boot.trialSet.getD s.boot.active + 1)⟩,
      ⟨2, 1, 0⟩, ⟨16, 16, s.boot.slotA.fwver⟩, ⟨32, 16, s.boot.slotB.fwver⟩] [])) ∧
  (∀ (h : MbHdr) (slot : Nat) (p : Part) (img : Bytes) (c : Cmd) (s v : State), c = stdCmd 0x0201 false .module →
    s.takes h { c with len := [], lenFrom := some 32 } → h.len = 128 + p.data.length → s.takePart h.src 0x0201 p = .whole v img → img.length = p.total →
    (slot = 1 ∨ slot = 2) → (v.boot.recovery = false → slot ≠ v.boot.running + 1) →
    exec (.transferFw h slot p) s = .next (if v.imageOk img then (v.modBoot fun b =>
      if slot = 1 then { b with slotA := slotOfImage img } else { b with slotB := slotOfImage img }).replied h 0x0201 [] []
      else v.answer h c .invalidInput [] [])) ∧
  (∀ (h : MbHdr) (slot : Nat) (s : State), s.takes h (stdCmd 0x0202 false .module) → (slot = 1 ∨ slot = 2) →
    exec (.activateFw h false slot) s = .next ((s.modBoot fun b => { b with trialSet := some (slot - 1) }).replied h 0x0202 [] [])) ∧
  (∀ (h : MbHdr) (s : State), s.takes h (stdCmd 0x0300 true .module) →
    exec (.getTimestamp h) s = .next (s.replied h 0x0300 [⟨0, 8, s.timeOf h.src⟩] [])) ∧
  (∀ (h : MbHdr) (value : Nat) (s : State), s.takes h (stdCmd 0x0301 true .module) →
    exec (.setTimestamp h value) s = .next ((s.modCxe fun c =>
      { c with tsOff := c.tsOff.set h.src ((value : Int) - ((s.now - c.tsZero : Nat) : Int)) }).replied h 0x0301 [] [])) ∧
  (∀ (h : MbHdr) (s : State), s.takes h (stdCmd 0x4200 true .module) →
    exec (.getHealthInfo h) s = .next (s.replied h 0x4200 (s.healthFields h.src 0) []))

/-- COMPLETION, poison, Dynamic Capacity and the FM API (R339, R355, R364, Table 15.5).
Forms that complete: getPoisonList, injectPoison, clearPoison, getDcConfiguration, getDcExtentList, getDcdInfo, getHostDcRegionConfig,
getDcRegionExtentLists, getLdInfo, getLdAllocations, fmQosControl. -/
def Obligations.MediaCommandsComplete : Prop :=
  (∀ (h : MbHdr) (dpa lines : Nat) (hit : List (Nat × Nat)) (s : State), s.takes h (stdCmd 0x4300 true .no) → s.badDpa h.src dpa = false →
    hit = ((s.poisoned h.src).filter fun x => dpa < x.1 + 512 ∧ x.1 < dpa + 64 * lines).foldr insertDpa [] →
    exec (.getPoisonList h dpa lines) s = .next (s.replied h 0x4300 [⟨0, 1, b2n (decide (256 < hit.length))⟩, ⟨10, 2, (hit.take 256).length⟩]
      ((hit.take 256).flatMap fun x => layout 16 [⟨0, 8, x.1 + s.poisonSource x.2⟩, ⟨8, 4, 8⟩]))) ∧
  (∀ (h : MbHdr) (dpa : Nat) (e : Extent) (s : State), s.takes h (stdCmd 0x4301 true .no) → s.poisonExt h.src dpa = some e →
    (s.blkOf e dpa ∈ s.mbox.injected ∨ (s.mbox.injected.filter fun b => (s.extFor h.src (b / 128)).isSome).length < 64) →
    exec (.injectPoison h dpa) s = .next ((s.injectBlock e (s.blkOf e dpa)).replied h 0x4301 [] [])) ∧
  (∀ (h : MbHdr) (dpa : Nat) (data : Bytes) (e : Extent) (s : State), s.takes h (stdCmd 0x4302 true .no) → s.poisonExt h.src dpa = some e →
    exec (.clearPoison h dpa data) s = .next ((s.innerWrite h.src e (s.blkOf e dpa)
      (patch (zeros 512) (64 * lineOf dpa) (fit 64 data)) none (Prof.wclass e.profile)).replied h 0x4302 [] [])) ∧
  (∀ (h : MbHdr) (first count n : Nat) (s : State), s.takes h (stdCmd 0x4800 true .no) → first < 8 → n = min count (8 - first) →
    exec (.getDcConfiguration h first count) s = .next (s.replied h 0x4800 [⟨0, 1, 8⟩, ⟨1, 1, n⟩]
      ((List.range n).flatMap fun i => s.regionConfig h.src (first + i)))) ∧
  (∀ (h : MbHdr) (count start : Nat) (es out : List Extent) (s : State), s.takes h (stdCmd 0x4801 true .no) → es = s.dcExtents h.src →
    start ≤ es.length → out = (es.drop start).take count →
    exec (.getDcExtentList h count start) s = .next (s.free.2.replied h 0x4801 [⟨0, 4, out.length⟩, ⟨4, 4, es.length⟩, ⟨8, 4, s.free.1⟩]
      (out.flatMap extentRec))) ∧
  (∀ (h : MbHdr) (s : State), s.takes h (stdCmd 0x5600 false .module) →
    exec (.getDcdInfo h) s = .next (s.replied h 0x5600 [⟨0, 1, 16⟩, ⟨1, 1, 8⟩, ⟨4, 2, 12⟩,
      ⟨12, 8, sumOf (allLds.flatMap fun ld => (s.ext.parts.get ld).regions.map fun r => r.2 * granule)⟩, ⟨20, 8, granule⟩] [])) ∧
  (∀ (h : MbHdr) (host first count n : Nat) (s : State), s.takes h (stdCmd 0x5601 false .module) → host < 16 → s.ldOn host = true → first < 8 →
    n = min count (8 - first) →
    exec (.getHostDcRegionConfig h host first count) s = .next (s.replied h 0x5601 [⟨0, 2, host⟩, ⟨2, 1, 8⟩, ⟨3, 1, n⟩]
      ((List.range n).flatMap fun i => s.regionConfig host (first + i)))) ∧
  (∀ (h : MbHdr) (host count start : Nat) (es out : List Extent) (s : State), s.takes h (stdCmd 0x5603 false .module) → host < 16 →
    s.ldOn host = true → es = s.dcExtents host → start ≤ es.length → out = (es.drop start).take count →
    exec (.getDcRegionExtentLists h host count start) s = .next (s.free.2.replied h 0x5603 [⟨0, 2, host⟩, ⟨4, 4, start⟩, ⟨8, 4, out.length⟩,
      ⟨12, 4, es.length⟩, ⟨16, 4, s.free.1⟩] (out.flatMap extentRec))) ∧
  (∀ (h : MbHdr) (s : State), s.takes h (stdCmd 0x5400 false .module) →
    exec (.getLdInfo h) s =
      .next (s.replied h 0x5400 [⟨0, 8, sumOf (allLds.map fun ld => (s.ext.parts.get ld).dpaSize) * granule⟩, ⟨8, 2, 16⟩] [])) ∧
  (∀ (h : MbHdr) (start limit n : Nat) (s : State), s.takes h (stdCmd 0x5401 false .module) → start < 16 → n = min limit (16 - start) →
    exec (.getLdAllocations h start limit) s = .next (s.replied h 0x5401 [⟨0, 1, 16⟩, ⟨1, 1, 0⟩, ⟨2, 1, start⟩, ⟨3, 1, n⟩]
      ((List.range n).flatMap fun i => layout 16 [⟨0, 8, (s.ext.parts.get (start + i)).dpaSize⟩]))) ∧
  (∀ (h : MbHdr) (s : State),
    (s.takes h (stdCmd 0x5408 false .module) →
      exec (.fmQosControl h none) s = .next (s.replied h 0x5408 [] (s.cxe.qos.map fun x => BitVec.ofNat 8 x))) ∧
    (∀ l : List Nat, s.takes h (stdCmd 0x5409 false .module) → l.length ≤ 16 → h.len = 2 + l.length → (∀ x ∈ l, x ≤ 255) →
      exec (.fmQosControl h (some l)) s = .next ((s.modCxe fun c => { c with qos := l }).replied h 0x5409 [] [])))

/-- COMPLETION, clocks, power and reset inputs (R263, R348, R392, R393, R397, R401 to R404, R417, R421, R422, R427): supplies, crystals,
PWRGD, PERST, lock loss and clock gating.
Forms that complete: vaux33PowerOn, fastOscQualified, crystalQualified, crystalQualTimeout, crystalTrip, fastOscFail, pwrgdAssert,
pwrgdDeassert, vin48Overvoltage, vin48InputReconnect, powerLoss, perstAssert, perstDeassert, vaux33Loss, thermalTrip, pllLockLoss,
pllRelock, clockGateRequest, gateHandshakeTimeout, clockGateWake. -/
def Obligations.ClocksComplete : Prop :=
  (∀ (t : Nat) (s u v : State), u = s.at_ t → u.phase = .off → v = u.powerUpReset.modClock (fun c => { c with
      vaux := true, fault := true, thermtrip := false, xa := .stopped, xb := .stopped, source := 0, lostCore := false,
      inBrake := false, fastDead := false, lostSource := none, lossAt := [], stopped := [] }) →
    exec (.vaux33PowerOn t) s = .next { v with phase := .osc }) ∧
  (∀ (t xdly : Nat) (s u v : State), u = s.at_ t → u.phase = .osc →
    v = u.modClock (fun c => { c with xdly := xdly % 8, xa := .starting, xaStart := u.now }) →
    exec (.fastOscQualified t xdly) s = .next { v with phase := .qualifying }) ∧
  (∀ (t crystal : Nat) (s u v w : State), u = s.at_ t → crystal < 2 → u.crystal crystal = .starting → u.clock.fastDead = false →
    u.crystalStart crystal + u.xDelay + 100 * us ≤ u.now →
    v = (if crystal = 0 then (u.setCrystal crystal .qualified).startXb else u.setCrystal crystal .qualified) →
    w = v.modClock (fun c => { c with source := crystal }) →
    (u.phase ≠ .qualifying → u.phase ≠ .braked → exec (.crystalQualified t crystal) s = .next v) ∧
    (u.phase = .qualifying ∨ u.phase = .braked → exec (.crystalQualified t crystal) s =
      .next (if u.clock.lostCore then w else w.releaseBrake))) ∧
  (∀ (t crystal : Nat) (s u v : State), u = s.at_ t → crystal < 2 → u.crystal crystal = .starting →
    u.crystalStart crystal + 5 * u.xDelay ≤ u.now → v = (u.setCrystal crystal .failed).fallback crystal →
    exec (.crystalQualTimeout t crystal) s = .next ((if crystal = 0 then v.startXb else v).noteVitals u)) ∧
  (∀ (t crystal : Nat) (s u v : State), u = s.at_ t → crystal < 2 → u.crystal crystal = .qualified → v = u.setCrystal crystal .failed →
    (u.clock.source ≠ crystal ∨ u.sourceLive = false → exec (.crystalTrip t crystal) s = .next ((v.fallback crystal).noteVitals u)) ∧
    (u.clock.source = crystal → u.sourceLive = true → u.crystal (1 - crystal) = .qualified → exec (.crystalTrip t crystal) s =
      .next (((v.modClock fun c => { c with source := 1 - crystal }).fallback crystal).noteVitals u)) ∧
    (u.clock.source = crystal → u.sourceLive = true → u.crystal (1 - crystal) ≠ .qualified → exec (.crystalTrip t crystal) s =
      .next (v.brake.modClock fun c => { c with lostSource := some crystal }))) ∧
  (∀ (t : Nat) (s u : State), u = s.at_ t → u.phase ≠ .off → u.phase ≠ .hubFailed →
    exec (.fastOscFail t) s = .next (u.brake.modClock fun c => { c with fastDead := true })) ∧
  (∀ (t : Nat) (s u : State), u = s.at_ t →
    (u.clock.pwrgd = false → exec (.pwrgdAssert t) s = .next (u.modClock fun c => { c with pwrgd := true }).tryMain) ∧
    exec (.pwrgdDeassert t) s = .next (u.modClock fun c => { c with pwrgd := false }).loseInput ∧
    exec (.vin48Overvoltage t) s = .next (u.modClock fun c => { c with vin48 := false }).loseInput ∧
    exec (.vin48InputReconnect t) s = .next (u.modClock fun c => { c with vin48 := true }) ∧
    exec (.powerLoss t) s = .next u.loseInput) ∧
  (∀ (t held : Nat) (s u v : State), u = s.at_ t → 100 * us ≤ held → v = u.modClock (fun c => { c with perst := true }) →
    v.phase ≠ .braked → v.phase ≠ .tripped → v.powered48 = true → ∀ w : State,
    w = (v.flushCold.modDeep fun d => { d with loss := false }).modClock (fun c =>
      { c with fault := false, rstCause := 1, perstCount := bump 16 c.perstCount 1 }) →
    exec (.perstAssert t held) s = .next { w with phase := .inReset }) ∧
  (∀ (t : Nat) (s u : State), u = (s.at_ t).modClock (fun c => { c with perst := false }) →
    (u.phase = .inReset → u.clock.pwrgd = true → u.clock.vin48 = true →
      exec (.perstDeassert t) s = .next (u.mainSequence (u.clock.rstCause == 3))) ∧
    (u.phase ≠ .inReset → exec (.perstDeassert t) s = .next u.tryMain)) ∧
  (∀ (t : Nat) (s u v : State), u = s.at_ t → u.phase ≠ .hubFailed →
    v = (if u.railsOn then u.loseMain else u).modClock (fun c => { c with
      vaux := false, fault := false, thermtrip := false, rails := false, xa := .stopped, xb := .stopped, lostCore := false,
      inBrake := false, fastDead := false }) →
    exec (.vaux33Loss t) s = .next { v with phase := .off }) ∧
  (∀ (t unit : Nat) (part : Part17) (temp : Int) (s u v : State), u = s.at_ t → unit < partUnits part → tripAt part ≤ temp →
    u.powered48 = true →
    v = ((u.setTemp part unit temp).flushCold.modDeep fun d => { d with loss := false, bank := .charging }).modClock (fun c => { c with
      thermtrip := true, rails := false, rstCause := 3, trips := bump 16 c.trips 1 }) →
    exec (.thermalTrip t part unit temp) s = .next { v with phase := .tripped }) ∧
  (∀ (t domain unit : Nat) (s u v : State), u = s.at_ t → (u.phase = .booting ∨ u.phase = .running ∨ u.phase = .recovery) →
    v = u.modClock (fun c => { c with lockLoss := bump 16 c.lockLoss 1 }) →
    (domain < 3 → exec (.pllLockLoss t domain unit) s = .next (v.brake.modClock fun c => { c with lostCore := true })) ∧
    (domain = 5 → unit < 6 → exec (.pllLockLoss t domain unit) s = .next ((v.lanesDown unit).noteVitals u)) ∧
    ((domain = 3 ∨ domain = 4) → unit < 4 → ∀ (recent : List (Nat × Nat)) (w : State),
      recent = (unit, v.now) :: v.clock.lossAt.filter (fun x => v.now < x.2 + sec) →
      w = (v.modClock fun c => { c with
        lossAt := recent, stopped := (domain, unit) :: c.stopped.filter (· ≠ (domain, unit)) }).rerunDie unit →
      exec (.pllLockLoss t domain unit) s =
        .next (if 3 ≤ (recent.filter fun x => x.1 = unit).length then (w.dieDown unit).noteVitals u else w))) ∧
  (∀ (t domain unit : Nat) (s u v : State), u = s.at_ t →
    (domain < 3 → u.phase = .braked → u.clock.lostCore = true → v = u.modClock (fun c => { c with lostCore := false }) →
      exec (.pllRelock t domain unit) s =
        .next (if v.crystal v.clock.source = .qualified ∧ ¬ v.clock.fastDead then v.releaseBrake else v)) ∧
    (3 ≤ domain → v = u.modClock (fun c => { c with stopped := c.stopped.filter (· ≠ (domain, unit)) }) →
      exec (.pllRelock t domain unit) s = .next (v.placeWaiting.retryReads fun r => r.why == .tierMove))) ∧
  (∀ (t kind unit : Nat) (s u : State), u = s.at_ t → u.up = true → u.mayGate kind unit = true → (kind, unit) ∉ u.clock.gated →
    (u.blockIdle kind unit = true → exec (.clockGateRequest t kind unit) s = .next (u.modClock fun c => { c with
      asked := u.clock.asked.filter fun x => ¬ (x.1 = kind ∧ x.2.1 = unit), gated := c.gated ++ [(kind, unit)] })) ∧
    (u.blockIdle kind unit = false → exec (.clockGateRequest t kind unit) s = .next (u.modClock fun c => { c with
      asked := (u.clock.asked.filter fun x => ¬ (x.1 = kind ∧ x.2.1 = unit)) ++ [(kind, unit, u.now)] }))) ∧
  (∀ (t kind unit since : Nat) (s u : State), u = s.at_ t → (kind, unit, since) ∈ u.clock.asked → since + 2276 ≤ u.now →
    exec (.gateHandshakeTimeout t kind unit) s = .next (u.modClock fun c => { c with
      asked := c.asked.filter fun x => ¬ (x.1 = kind ∧ x.2.1 = unit), gateMiss := bump 32 c.gateMiss 1 })) ∧
  (∀ (t kind unit : Nat) (s : State), exec (.clockGateWake t kind unit) s =
    .next ((s.at_ t).modClock fun c => { c with gated := c.gated.filter (· ≠ (kind, unit)) }))

/-- COMPLETION, boot, failures, debug and the registers (R4, R21, R22, R24, R102, R372, R375, R386 to R388).
Forms that complete: millerBoot, millerFetchFault, millerWatchdog, firmwareTrialCommit, unitFailure, stackLoss, reservedRegionRebuild,
hubDieFailure, getDebugChallenge, debugNonceExpire, unlockDebug, getDebugState, registerWrite. -/
def Obligations.ModuleLifeComplete : Prop :=
  (∀ (t cause : Nat) (trained : List Bool) (s u : State), u = s.at_ t →
    (u.phase = .booting → cause = u.fullCause → u.clock.p + ms ≤ u.now →
      exec (.millerBoot t cause trained) s = .next ((u.fullBoot cause (u.clock.p + ms) trained).noteVitals u)) ∧
    (u.phase = .running → u.millerReady = false → cause = u.boot.cause → 2 ≤ cause →
      exec (.millerBoot t cause trained) s = .next (u.faultBoot cause))) ∧
  (∀ (t : Nat) (s u : State), u = s.at_ t → u.up = true → u.millerReady = true →
    exec (.millerFetchFault t) s = .next ((u.ueLog 2 0 1 2 31 0).millerFault 2) ∧
    (u.boot.serviced + sec ≤ u.now → exec (.millerWatchdog t) s = .next (u.millerFault 3)) ∧
    (u.boot.trial = true → u.boot.mountedAt + 600 * sec ≤ u.now → ∀ slot : Nat, slot = u.boot.running →
      exec (.firmwareTrialCommit t) s = .next ((u.modBoot fun b =>
        { b with active := slot, trial := false, fusemin := max b.fusemin (min 64 (u.slotOf slot).svn) }).fwRecord slot false))) ∧
  (∀ (t : Nat) (f : FailUnit) (s u : State), u = s.at_ t → u.up = true →
    exec (.unitFailure t f) s = .next ((u.failUnit f).caps.noteVitals u)) ∧
  (∀ (t stack : Nat) (s u : State), u = s.at_ t → u.up = true →
    (stack < 12 → exec (.stackLoss t stack) s = .next ((u.stackFails stack).noteVitals u)) ∧
    (stack ∈ u.near.rebuilding → exec (.reservedRegionRebuild t stack) s =
      .next (({ u with near := { u.near with rebuilding := u.near.rebuilding.filter (· ≠ stack) } } : State).retryHeld
        (fun r => r.why == .rebuild) fun w => w.why == .rebuild))) ∧
  (∀ (t : Nat) (s : State), exec (.hubDieFailure t) s = .next
    { s.at_ t with phase := .hubFailed, millerReady := false, clock := { s.clock with fault := true } }) ∧
  (∀ (h : MbHdr) (v : BitVec 256) (s : State), s.takes h { opcode := 0xC0D0, ld := false, fm := .module } → v = Config.randomBits s.freeCtr →
    exec (.getDebugChallenge h) s = .next ((({ s with freeCtr := s.freeCtr + 1 } : State).modBoot fun b =>
      { b with nonce := some { value := v, since := s.now } }).replied h 0xC0D0
        [⟨0, 32, v.toNat⟩, ⟨32, 8, s.boot.serial⟩, ⟨40, 4, ({ s with freeCtr := s.freeCtr + 1 } : State).fwver⟩] [])) ∧
  (∀ (t : Nat) (n : Nonce) (s u : State), u = s.at_ t → u.boot.nonce = some n → n.since + 600 * sec ≤ u.now →
    exec (.debugNonceExpire t) s = .next (u.modBoot fun b => { b with nonce := none })) ∧
  (∀ (h : MbHdr) (p : Part) (img : Bytes) (s v : State),
    s.takes h { opcode := 0xC0D1, ld := false, fm := .module, bg := p.final, len := [], lenFrom := some 32 } →
    h.len = 32 + p.data.length → s.takePart h.src 0xC0D1 p = .whole v img → img.length = p.total → v.boot.debugOpen = false →
    exec (.unlockDebug h p) s = .next (v.begun h 0xC0D1 (.unlockDebug h { p with data := img }))) ∧
  (∀ (h : MbHdr) (s : State), s.takes h { opcode := 0xC0D2, ld := false, fm := .module } →
    exec (.getDebugState h) s = .next (s.replied h 0xC0D2 [⟨0, 1, b2n s.boot.debugOpen⟩, ⟨8, 8, s.debugSeq⟩] [])) ∧
  (∀ (r : RegAccess) (s : State), s.regOk (regFn r) = true →
    (regBeacon r = true → s.up = true → exec (.registerWrite r) s = .next (s.writeBeacon r.page ((r.offset - 0x4000) / 64) r.size
      (r.offset % 8 == 0 || (r.size == 4 && regTaken r)) r.value)) ∧
    (regBeacon r = false → regTaken r = true → exec (.registerWrite r) s = .next (s.writeReg r)))

/-- R8: a counter is unsigned and saturates at its maximum instead of wrapping, and writing all ones to an RW1C counter clears it. -/
def Obligations.CountersSaturate : Prop :=
  (∀ w n k : Nat, bump w n k ≤ 2 ^ w - 1 ∧ (n + k ≤ 2 ^ w - 1 → bump w n k = n + k) ∧ (2 ^ w - 1 < n + k → bump w n k = 2 ^ w - 1)) ∧
  (∀ w n k : Nat, n ≤ 2 ^ w - 1 → n ≤ bump w n k) ∧
  (∀ w cur : Nat, cur < 2 ^ w → rw1c w cur (2 ^ w - 1) = 0)

/-- R266 and R267: the check byte is the XOR of the columns of the data bits that are set; the decoder acts on a syndrome as Table 11.2
states; and for the code itself every single-bit error is corrected and every double-bit error detected. A pattern has the inverted data
bits in bits 0 to 63 and the inverted check bits in bits 64 to 71. -/
def Obligations.CodewordsCorrectSingles : Prop :=
  hColumns.length = 64 ∧ checkByte 0x105 = 0x10 ∧
  (∀ v j : Nat, j < 8 → ((checkByte v).testBit j ↔
    ((List.range 64).filter fun i => v.testBit i && (hColumns.getD i 0).testBit j).length % 2 = 1)) ∧
  eccOutcome 0 = .good ∧
  (∀ j : Nat, j < 8 → eccOutcome (2 ^ j) = .corrected (64 + j)) ∧
  (∀ i : Nat, i < 64 → eccOutcome (hColumns.getD i 0) = .corrected i) ∧
  (∀ syn : Nat, syn < 256 → syn ≠ 0 → popc 8 syn % 2 = 0 → eccOutcome syn = .uncorrectable) ∧
  (∀ syn : Nat, syn < 256 → (popc 8 syn = 5 ∨ popc 8 syn = 7) → syn ∉ hColumns → eccOutcome syn = .uncorrectable) ∧
  (∀ v i : Nat, i < 72 → eccData v (2 ^ i) = some v) ∧
  (∀ v i j : Nat, i < j → j < 72 → eccData v (2 ^ i + 2 ^ j) = none)

/-- R112: an element is coded to the index of the entry of its column nearest to it by the absolute difference of the exact values, the
lower index of two that are equally near; a block's elements are coded in their own columns of the current generation; decoding is the lookup of that index in the column (and, for MX sources, the scale bytes). -/
def Obligations.NearestEntryCoded : Prop :=
  (∀ (src : Nat) (col : List Nat) (x : Int) (i : Nat), col ≠ [] → i = codeIdx src col x →
    i < col.length ∧
    (∀ j : Nat, j < col.length → (x - (decodeElem src (col.getD i 0)).val).natAbs ≤ (x - (decodeElem src (col.getD j 0)).val).natAbs) ∧
    (∀ j : Nat, j < i → (x - (decodeElem src (col.getD i 0)).val).natAbs < (x - (decodeElem src (col.getD j 0)).val).natAbs)) ∧
  (∀ (src i : Nat) (cb : List (List Nat)) (data : Bytes) (v : Int) (z : Bool), i < (elemsOf src data).length →
    decodeElem src ((elemsOf src data).getD i 0) = .fin v z → (blockIdx src cb data).getD i 0 = codeIdx src (columnOf cb i) v) ∧
  (∀ (s : State) (x e : Extent) (blk order : Nat) (data : Bytes) (ts : TableSet) (cb : List (List Nat)), e = s.homeExt x blk →
    Prof.lossy e.profile = true → data.all (· == 0) = false → ts = s.tset e.profile → ts.hasGen = true → cb = ts.book ts.cur →
    boundOk (Prof.src e.profile) (Prof.bound e.profile) cb data = true →
    s.encode x blk data order = some ({ side := { kind := kCoded, gen := ts.cur }
                                        bytes := lossyPayload (Prof.src e.profile) (Prof.rate e.profile) cb data
                                        order := order }, s)) ∧
  (∀ (src rate : Nat) (cb : List (List Nat)) (payload : Bytes), isMx src = false → payload.length = rateBytes rate →
    lossyDecode src rate cb payload = (unpackBits (idxBits src rate) (srcCount src) (leNat payload)).zipIdx.flatMap fun p =>
      leBytes (srcBits src / 8) ((columnOf cb p.2).getD p.1 0)) ∧
  (∀ (src rate : Nat) (cb : List (List Nat)) (payload : Bytes), isMx src = true → payload.length = 256 →
    lossyDecode src rate cb payload = ((unpackBits (idxBits src rate) (srcCount src) (leNat (payload.take 240))).zipIdx.flatMap fun p =>
      leBytes (srcBits src / 8) ((columnOf cb p.2).getD p.1 0)) ++ (payload.drop 240).take 15 ++ zeros 17)

/-- R172: a go line of any opcode that arrives while its slot is QUEUED, RUNNING, CHECKING or CANCELLED is dropped and counted in
GT_ERR.BUSYGO; the operation, the slot and the wheel are as they were. -/
def Obligations.BusySlotsDropGoLines : Prop :=
  ∀ (g : GoWrite) (opcode b : Nat) (i : Instr) (e : Extent) (s u : State),
    i ∈ [Instr.gateNop g, .gateOpcodeReserved g opcode, .appendAttend g, .prefixAttach g, .chunkPrefill g, .prefixPublish g, .seqTruncate g,
      .graphSearch g, .distanceBatch g, .setIntersect g, .setUnion g, .setDifference g, .tenant g] →
    (s.poisonSeen g.ld false).settleLeaving = u → u.up = true → u.access g.ld g.dpa = .served e → Prof.gate e.profile = true →
    u.bufAt g.ld g.dpa = some b → g.full = true → g.poison = false →
    ((u.slot b).state = .queued ∨ (u.slot b).state = .running ∨ (u.slot b).state = .checking ∨ (u.slot b).state = .cancelled) →
    exec i s = .next (u.modGateLd g.ld fun l => { l with busygo := bump 16 l.busygo 1 })

/-- R167: where a slot position is not armed, a read of any of its lines returns poison, a write to any of them is dropped, and both are
counted in GT_ERR.UNARMED; where the gate extent is not ACTIVE, Table 2.4 applies instead. `v` is the port's state on arrival, and `u` the
state once the extents whose last request has ended have left. -/
def Obligations.UnarmedPositionsPoison : Prop :=
  (∀ (port ldid hpa tag upset a : Nat) (mv : MetaVal) (bi : Bool) (e : Extent) (s v u : State), s.portServes port = true →
    s.wakePort port = v → v.ldidOk port ldid = true → v.hdmDecode ldid hpa = some (a, bi) → v.boot.openSeq = 0 →
    u = (if bi then v else v.settleLeaving) → u.access ldid (a / 64 * 64) = .served e →
    Prof.gate e.profile = true → u.bufAt ldid (a / 64 * 64) = none →
    exec (.cxlMemRead port ldid hpa tag mv upset) s =
      .next ((u.modGateLd ldid fun l => { l with unarmed := bump 16 l.unarmed 1 }).send
        (.memPoison ldid tag (u.loadAt ldid (a / 64 * 64))))) ∧
  (∀ (port ldid hpa tag a : Nat) (data : Bytes) (enables : BitVec 64) (bi : Bool) (e : Extent) (s v u w : State), s.portServes port = true →
    s.wakePort port = v → v.ldidOk port ldid = true → v.hdmDecode ldid hpa = some (a, bi) → v.boot.openSeq = 0 →
    v.settleLeaving = u → (u.modGateLd ldid fun l => { l with unarmed := bump 16 l.unarmed 1 }) = w → v.access ldid (a / 64 * 64) = .served e → u.access ldid (a / 64 * 64) = .served e →
    Prof.gate e.profile = true → u.bufAt ldid (a / 64 * 64) = none →
    exec (.cxlMemWrite port ldid hpa tag data enables false) s =
      .next (w.send (.memDone ldid tag (w.loadAt ldid (a / 64 * 64))))) ∧
  (∀ (port ldid hpa tag upset a : Nat) (mv : MetaVal) (bi : Bool) (s v u : State), s.portServes port = true → s.wakePort port = v →
    v.ldidOk port ldid = true → v.hdmDecode ldid hpa = some (a, bi) → v.boot.openSeq = 0 → v.settleLeaving = u →
    (∀ e : Extent, v.access ldid (a / 64 * 64) ≠ .served e) →
    (u.access ldid (a / 64 * 64) = .leaving → exec (.cxlMemRead port ldid hpa tag mv upset) s =
      .next ((u.drop ldid (a / 64 * 64) false false).send (.memPoison ldid tag (u.loadAt ldid (a / 64 * 64))))) ∧
    (u.access ldid (a / 64 * 64) = .nowhere → exec (.cxlMemRead port ldid hpa tag mv upset) s =
      .next ((u.drop ldid (a / 64 * 64) false true).send (.memPoison ldid tag (u.loadAt ldid (a / 64 * 64)))))) ∧
  (∀ (port ldid hpa tag a : Nat) (data : Bytes) (enables : BitVec 64) (bi : Bool) (s v u w : State), s.portServes port = true →
    s.wakePort port = v → v.ldidOk port ldid = true → v.hdmDecode ldid hpa = some (a, bi) → v.boot.openSeq = 0 → v.settleLeaving = u →
    (∀ e : Extent, v.access ldid (a / 64 * 64) ≠ .served e) →
    (u.access ldid (a / 64 * 64) = .leaving → u.drop ldid (a / 64 * 64) true false = w → exec (.cxlMemWrite port ldid hpa tag data enables false) s =
      .next (w.send (.memDone ldid tag (w.loadAt ldid (a / 64 * 64))))) ∧
    (u.access ldid (a / 64 * 64) = .nowhere → u.drop ldid (a / 64 * 64) true true = w → exec (.cxlMemWrite port ldid hpa tag data enables false) s =
      .next (w.send (.memDone ldid tag (w.loadAt ldid (a / 64 * 64))))))

/-- R176 and R178: what a read of a RESULT line of an armed slot answers, by the slot's state, and that a 1,025th held read of an LD is
answered with poison at once. `u` is the state once the extents whose last request has ended have left. -/
def Obligations.ResultReadsByState : Prop :=
  ∀ (ld dpa tag line b : Nat) (e : Extent) (x : Slot) (s u : State), s.settleLeaving = u → u.up = true → u.access ld dpa = .served e →
    Prof.gate e.profile = true → u.bufAt ld dpa = some b → x = u.slot b → line = dpa / 64 % 1024 → 512 ≤ line →
    (x.state = .idle → exec (.gateResultRead ld dpa tag) s = .next (u.sendLine ld tag (u.slotClass b) (zeros 64))) ∧
    (x.state = .ready → (line - 512) ∉ x.bad →
      exec (.gateResultRead ld dpa tag) s = .next (u.sendLine ld tag (u.slotClass b) (x.resultLine (line - 512))) ∧
      (x.rlines ≤ line - 512 → x.resultLine (line - 512) = zeros 64)) ∧
    (x.state = .ready → (line - 512) ∈ x.bad → exec (.gateResultRead ld dpa tag) s = .next (u.sendPoison ld tag (u.slotClass b))) ∧
    (x.state = .failed ∨ x.state = .cancelled →
      exec (.gateResultRead ld dpa tag) s = .next (u.sendPoison ld tag (u.slotClass b))) ∧
    (x.state.busy = true → (u.gate.reads.filter fun r => r.ld = ld).length < 1024 →
      ∃ t : State, exec (.gateResultRead ld dpa tag) s = .next t ∧ t.sent = s.sent ∧ t.gate.reads.length = s.gate.reads.length + 1) ∧
    (x.state.busy = true → 1024 ≤ (u.gate.reads.filter fun r => r.ld = ld).length →
      exec (.gateResultRead ld dpa tag) s =
        .next ((u.modGateLd ld fun l => { l with full := bump 16 l.full 1 }).sendPoison ld tag (u.slotClass b))) ∧
    (∀ (v : State) (cls : Nat) (d : Bytes), (v.sendLine ld tag cls d).sent = .memData ld tag d (v.devLoad cls) :: v.sent ∧
      (v.sendPoison ld tag cls).sent = .memPoison ld tag (v.devLoad cls) :: v.sent)

/-- R322 with Table 13.6: which headers are dropped (a reserved TYPE, a reserved field that is not zero, LINES outside the row), that such
a packet and a PSETTLE whose KIND is 0b00 are dropped and counted in LP_PEERERR.BADMSG, and nothing else happens. -/
def Obligations.BadPeerPacketsCounted : Prop :=
  (∀ p : PeerHdr, peerBad p = false ↔ p.resv = 0 ∧ p.window < 64 ∧
    ((p.ptype = 1 ∧ 1 ≤ p.lines ∧ p.lines ≤ 16) ∨ ((p.ptype = 2 ∨ p.ptype = 5) ∧ p.lines = 0) ∨
      ((p.ptype = 3 ∨ p.ptype = 4) ∧ p.lines = 1))) ∧
  (∀ (p : PeerHdr) (s : State), (p.port = 4 ∨ p.port = 5) → s.carries p.port = true → peerBad p = true →
    exec (.peerBadMessage p) s = .next (s.modPorts fun q => { q with badmsg := bump 16 q.badmsg 1 })) ∧
  (∀ (p : PeerHdr) (m : Settle) (s u : State), s.heard p 3 u →
    exec (.psettleKindZero p m) s = .next (u.modPorts fun q => { q with badmsg := bump 16 q.badmsg 1 }))

/-- R34: a region profile is changed by Set Region Profile while its region holds no extent in any state; at any other time the command
fails with Busy and the profile stays; an add request into a region whose profile has never been set fails with Invalid Input. -/
def Obligations.RegionProfilesChangeWhenEmpty : Prop :=
  (∀ (h : MbHdr) (region ld : Nat) (profile : Word) (s : State), s.takes h { opcode := 0xC021, ld := false, fm := .anyLd, len := [24] } →
    ld = h.target → region < 8 → s.profileOk ld profile = true →
    (s.inRegion ld region = [] → ∃ t : State, exec (.setRegionProfile h region profile) s = .next t ∧
      t.ext.profiles.get (8 * ld + region) = some profile) ∧
    (s.inRegion ld region ≠ [] → exec (.setRegionProfile h region profile) s =
      .next (s.answer h { opcode := 0xC021, ld := false, fm := .anyLd, len := [24] } .busy [] []))) ∧
  (∀ (h : MbHdr) (host policy : Nat) (a : DcAdd) (rest : List DcAdd) (c : Cmd) (s : State), s.takes h c →
    c = { opcode := 0x5604, ld := false, fm := .module, vendor := false } → (policy = 2 ∨ policy = 3) →
    s.rangeFits host a.region a.base a.len = true → s.regionProfile host a.region = none →
    exec (.initiateDcAdd h host policy (a :: rest)) s = .next (s.answer h c .invalidInput [] []))

/-- R94: where the sack has POISON set or the block's side record marks it poisoned, a demand read returns poison at once, no read is held
and no stall is charged. The sack is allocated, its map entry readable, the LD may reach it, and no earlier request of the line waits. -/
def Obligations.PoisonedReadsAtOnce : Prop :=
  ∀ (port ldid hpa tag upset a dpa : Nat) (mv : MetaVal) (e : Extent) (s v u : State), s.portServes port = true → s.wakePort port = v →
    v.ldidOk port ldid = true → v.hdmDecode ldid hpa = some (a, false) → v.boot.openSeq = 0 → dpa = a / 64 * 64 → v.settleLeaving = u →
    u.access ldid dpa = .served e → Prof.gate e.profile = false → u.earlier ldid dpa (u.blkOf e dpa) u.store.nextRid = false →
    u.mergesOf (u.blkOf e dpa) = [] → u.entryAway (u.sackOf e dpa) = false → u.entryBad (u.sackOf e dpa) = false →
    (u.sack (u.sackOf e dpa)).mst ≠ .unmapped → (u.sack (u.sackOf e dpa)).mst ≠ .allocating →
    u.mayReach ldid e (u.sack (u.sackOf e dpa)) = true → u.isPoison (u.blkOf e dpa) = true →
    ∃ t : State, exec (.cxlMemRead port ldid hpa tag mv upset) s = .next t ∧ (∃ load : Nat, t.sent = .memPoison ldid tag load :: u.sent) ∧
      t.store.heldReads = u.store.heldReads ∧ (∀ c ld : Nat, (t.store.mrc.get ld).stallCount.get c = (u.store.mrc.get ld).stallCount.get c)

/-- R315: the group of lanes that a port uses is the first of the preference list that is wholly healthy. -/
def Obligations.WidestHealthyGroup : Prop :=
  ∀ (s : State) (port : Nat) (ok : Nat → Bool), (∀ n, ok n = !(s.laneAt port n).failed) →
    (ok 0 && ok 1 && ok 2 && ok 3 && ok 4 && ok 5 && ok 6 && ok 7 → s.healthyGroup port = [0, 1, 2, 3, 4, 5, 6, 7]) ∧
    ((List.range 8).all ok = false →
      (ok 0 && ok 1 && ok 2 && ok 3 → s.healthyGroup port = [0, 1, 2, 3]) ∧
      ((ok 0 && ok 1 && ok 2 && ok 3) = false → ok 4 && ok 5 && ok 6 && ok 7 → s.healthyGroup port = [4, 5, 6, 7]) ∧
      ((ok 0 && ok 1 && ok 2 && ok 3) = false → (ok 4 && ok 5 && ok 6 && ok 7) = false →
        (∀ p ∈ [0, 2, 4, 6], (ok p && ok (p + 1)) = true → (∀ q ∈ [0, 2, 4, 6], q < p → (ok q && ok (q + 1)) = false) →
          s.healthyGroup port = [p, p + 1]) ∧
        ((∀ q ∈ [0, 2, 4, 6], (ok q && ok (q + 1)) = false) →
          (∀ n, n < 8 → ok n = true → (∀ m, m < n → ok m = false) → s.healthyGroup port = [n]) ∧
          ((∀ n, n < 8 → ok n = false) → s.healthyGroup port = []))))

/-- R52: a naturally aligned 8-byte write of WHL_BEACON states the position LAYER of TURN, and a write of any other size or alignment is
ignored and counted in WHL_ERR.BADPOS (a misaligned one is besides answered with Unsupported Request under R335). -/
def Obligations.BeaconsStatePositions : Prop :=
  ∀ (ld wheel size w : Nat) (aligned : Bool) (value : Word) (s : State), s.up = true → ld < 16 → wheel < 16 → (s.cxe.lds.get ld).d3 = false →
    w = 16 * ld + wheel →
    (size = 8 → aligned = true → exec (.wheelBeacon ld wheel size aligned value) s =
      .next (s.position w (value.toNat / 2 ^ 16) (value.toNat % 1024) (decide (value.toNat / 1024 % 64 ≠ 0))).2) ∧
    (¬ (size = 8 ∧ aligned = true) → ∃ t : State, exec (.wheelBeacon ld wheel size aligned value) s = .next t ∧
      t.wheel w = { s.wheel w with badpos := bump 32 (s.wheel w).badpos 1 } ∧ t.store = s.store)

/-- R357, steps 1 to 4: the order of a mailbox's checks. A command of the wrong mailbox is Unsupported, whatever else is wrong with it;
a second background command Busy; a wrong TARGET or a reserved field or length Invalid Input; a share being rebuilt Retry Required. -/
def Obligations.MailboxChecksInOrder : Prop :=
  ∀ (h : MbHdr) (c : Cmd) (body : MbBody) (s : State), s.rings h.src = true →
    (s.permits h c = false → s.mbRun h c body = s.answer h c .unsupported [] []) ∧
    (s.permits h c = true → s.boot.openSeq = 0 →
      (c.bg = true → (s.job h.src).isSome = true → s.mbRun h c body = s.answer h c .busy [] []) ∧
      (c.bg = false ∨ s.job h.src = none → s.targetOk h c = false → s.mbRun h c body = s.answer h c .invalidInput [] []) ∧
      (c.bg = false ∨ s.job h.src = none → s.targetOk h c = true → c.store = true → s.near.rebuilding ≠ [] →
        s.mbRun h c body = s.answer h c .retryRequired [] []))

/-- Table 3.3, the positions that are ignored: a CLOSED wheel counts nothing, an unstated or reserved position counts BADPOS, an index
below the current one counts BACKSTEP, and an index equal to it has no effect. -/
def Obligations.IgnoredPositions : Prop :=
  ∀ (ld wheel w turn layer k : Nat) (resv : Bool) (value : Word) (x : Wheel) (s : State), s.up = true → ld < 16 → wheel < 16 →
    (s.cxe.lds.get ld).d3 = false → w = 16 * ld + wheel → x = s.wheel w → turn = value.toNat / 2 ^ 16 → layer = value.toNat % 1024 →
    resv = decide (value.toNat / 1024 % 64 ≠ 0) → k = (turn - 1) * x.n + layer →
    (x.state = .closed → exec (.wheelBeacon ld wheel 8 true value) s = .next s) ∧
    (x.state ≠ .closed → (turn = 0 ∨ x.n ≤ layer ∨ resv = true) → exec (.wheelBeacon ld wheel 8 true value) s = .next (s.badPos w)) ∧
    (x.state ≠ .closed → turn ≠ 0 → layer < x.n → resv = false → x.placed = true →
      (k < x.k → exec (.wheelBeacon ld wheel 8 true value) s =
        .next (s.modWheel w fun y => { y with backstep := bump 16 y.backstep 1 })) ∧
      (k = x.k → exec (.wheelBeacon ld wheel 8 true value) s = .next s))
/-- DECODE AND ENCODE AGREE, the lossless codec (Table 5.7): every block of 512 bytes is read back from its encoding byte for byte,
whichever mode the encoder chose, and an encoding is never longer than the block. -/
def Obligations.LosslessBlocksReadBack : Prop :=
  ∀ data : Bytes, data.length = 512 →
    losslessDecode (losslessEncode data).2 (losslessEncode data).1 = some data ∧ (losslessEncode data).1.length ≤ 512

/-- DECODE AND ENCODE AGREE, sack map entries (Table 2.6, Table 4.2): an entry whose fields fit and whose tier is the one of its state is
read back from its word; an MST of 10 to 15 and a tier that disagrees are corrupt (R78). -/
def Obligations.SackEntriesReadBack : Prop :=
  (∀ k : Sack, k.tier = k.mst.tier → k.ldtag < 16 → sizeLegal k.size = true → k.slot < 2 ^ 33 → k.stack < 12 → k.frame < 2 ^ 23 →
    ∃ r : Sack, sackOfWord k.word = some r ∧ r.tier = k.tier ∧ r.mst = k.mst ∧ r.ldtag = k.ldtag ∧ r.poison = k.poison ∧
      r.durable = k.durable ∧ r.lossy = k.lossy ∧ r.spill = k.spill ∧ r.reft = k.reft ∧ r.size = k.size ∧
      (k.tier = .t2 → r.slot = k.slot) ∧ (k.tier = .t1 → r.stack = k.stack ∧ r.frame = k.frame)) ∧
  (∀ v : Nat, (10 ≤ v / 4 % 16 → sackOfWord v = none) ∧ (∀ m : Mst, mstOf (v / 4 % 16) = some m → m.tier.code ≠ v % 4 → sackOfWord v = none))

/-- DECODE AND ENCODE AGREE, side records (Table 5.3): every record whose fields fit is read back from its word; KIND 7 and a reserved bit
that is set are uncorrectable; and the word 0 of a newly allocated sack is ZERO (R107). -/
def Obligations.SideRecordsReadBack : Prop :=
  (∀ r : SideRec, r.kind < 7 → r.gen < 2 → r.gran < 16 → r.spoff < 2 ^ 40 → r.resv = 0 → sideOfWord r.word = some r) ∧
  (∀ v : Nat, v < 2 ^ 64 → (v % 8 = 7 ∨ v / 64 % 4 ≠ 0 ∨ v / 4096 % 4096 ≠ 0 ↔ sideOfWord v = none)) ∧
  sideOfWord 0 = some { kind := kZero }

/-- DECODE AND ENCODE AGREE, go lines (Table 7.3): 64 bytes and the opcode and fields they hold determine each other. -/
def Obligations.GoLinesReadBack : Prop :=
  (∀ bs : Bytes, bs.length = 64 → goBytes (goLineOf bs).1 (goLineOf bs).2 = bs) ∧
  (∀ (opcode : Nat) (g : GoLine), opcode < 2 ^ 16 → g.turnlo < 2 ^ 8 → g.layer < 1024 → g.wheel < 16 → g.seq < 2 ^ 16 → g.plines < 2 ^ 16 →
    g.handle < 2 ^ 16 → g.obj < 2 ^ 64 → g.resv < 2 ^ 360 → goLineOf (goBytes opcode g) = (opcode, g))

/-- DECODE AND ENCODE AGREE, stored schedules (Table 3.4, Table 3.6): a schedule in layer order whose entries obey Table 3.4 is read back
from its image entry for entry. -/
def Obligations.SchedulesReadBack : Prop :=
  ∀ (sig n dlead dpaSize : Nat) (es : List SEntry), sig < 2 ^ 64 → n ≤ 1024 → dlead ≤ 16 → es.length ≤ 65536 → layersRise es = true →
    dpaSize ≤ 2 ^ 18 →
    (∀ e ∈ es, e.layer < n ∧ e.lead ≤ 16 ∧ e.action ≤ 3 ∧ e.die < 4 ∧ (e.anydie = true → e.die = 0) ∧ 1 ≤ e.count ∧ e.count ≤ 65536 ∧
      e.sack + e.count ≤ dpaSize * 4096) →
    ∃ rs : List SEntry, parseSchedule (scheduleImage sig n dlead es) sig n dpaSize = some rs ∧ rs.length = es.length ∧
      ∀ p ∈ rs.zip es, p.1.layer = p.2.layer ∧ p.1.lead = p.2.lead ∧ p.1.action = p.2.action ∧ p.1.die = p.2.die ∧
        p.1.anydie = p.2.anydie ∧ p.1.sack = p.2.sack ∧ p.1.count = p.2.count
/-- FRAME, the commands that report: the block is as it was but for the mailbox that was asked and the answer sent. -/
def Obligations.ReportingFrame : Prop :=
  ∀ (i : Instr) (s t : State), onlyAnswers i = true → exec i s = .next t →
    ∃ (mbox : MboxSt) (sent : List Out), t = { s with mbox := mbox, sent := sent }

/-- FRAME, the commands of ports, peers, clocks, power, health, firmware, weirs and settings, and those of the flash's own upkeep: every
byte stored in every tier, every sack, merge buffer and mirror record, every wheel with its schedule, every gate slot, sequence and bin,
and every extent is as it was. -/
def Obligations.StoredDataFrame : Prop :=
  ∀ (i : Instr) (s t : State), leavesData i = true → exec i s = .next t → DataKept s t

/-- FRAME, a write to a PARAM line: the line written to is line `dpa / 64 % 1024` of the buffer armed at the write's position; every other
line of every buffer, every stored byte and every wheel is as it was, where no position is armed so is every line, and the extents change
only where one whose last request has ended leaves (`u`). -/
def Obligations.ParamWriteFrame : Prop :=
  ∀ (ld dpa : Nat) (data : Bytes) (enables : BitVec 64) (poison : Bool) (e : Extent) (s u t : State),
    (s.poisonSeen ld poison).settleLeaving = u → u.up = true → u.access ld dpa = .served e →
    Prof.gate e.profile = true → dpa / 64 % 1024 ≠ 0 → exec (.gateParamWrite ld dpa data enables poison) s = .next t →
    t.store = s.store ∧ t.sweep = s.sweep ∧ t.ext = u.ext ∧ t.gate.slots = s.gate.slots ∧ t.gate.seqs = s.gate.seqs ∧
    (∀ b line : Nat, line < 1024 → ¬ (s.bufAt ld dpa = some b ∧ line = dpa / 64 % 1024) → t.param b line = s.param b line)

/-- The images of the stored blocks: one that is written is read back, and every other block, every sack map entry and everything else of
the block is as it was. -/
def Obligations.BlockImagesReadBack : Prop :=
  ∀ (s : State) (blk : Nat) (v : StoredBlk), s.memWf = true →
    (s.setCur blk v).curBlk blk = v ∧ (∀ j : Nat, j ≠ blk → (s.setCur blk v).curBlk j = s.curBlk j) ∧
    (∀ k : Nat, (s.setCur blk v).sack k = s.sack k) ∧ (s.setCur blk v).memWf = true ∧
    (∃ store : StoreSt, s.setCur blk v = { s with store := store })

/-- R15: the requests of one LD to one line are performed in the order in which they are accepted. While an earlier read or an unmerged
earlier write of the line waits (`earlier`), a read or a write that is accepted waits behind it: nothing is sent, no sack changes, and it
joins the end of its queue with the reason `order`. -/
def Obligations.SameLineOrder : Prop :=
  (∀ (port ldid hpa tag upset a dpa : Nat) (mv : MetaVal) (e : Extent) (s v u : State), s.portServes port = true → s.wakePort port = v →
    v.ldidOk port ldid = true → v.hdmDecode ldid hpa = some (a, false) → v.boot.openSeq = 0 → dpa = a / 64 * 64 → v.settleLeaving = u →
    u.access ldid dpa = .served e → Prof.gate e.profile = false → u.earlier ldid dpa (u.blkOf e dpa) u.store.nextRid = true →
    ∃ (t : State) (r : HeldRead), exec (.cxlMemRead port ldid hpa tag mv upset) s = .next t ∧ t.sent = u.sent ∧
      t.store.sacks = u.store.sacks ∧ t.store.heldReads = u.store.heldReads ++ [r] ∧ r.ld = ldid ∧ r.dpa = dpa ∧ r.why = .order ∧
      r.who = .cxl tag) ∧
  (∀ (port ldid hpa tag a dpa : Nat) (data : Bytes) (enables : BitVec 64) (e : Extent) (s v u : State), s.portServes port = true →
    s.wakePort port = v → v.ldidOk port ldid = true → v.hdmDecode ldid hpa = some (a, false) → v.boot.openSeq = 0 → dpa = a / 64 * 64 →
    v.settleLeaving = u → u.access ldid dpa = .served e → Prof.gate e.profile = false →
    u.earlier ldid dpa (u.blkOf e dpa) u.store.nextRid = true → (∀ x ∈ u.store.heldWrites, x.wid < u.store.nextRid) →
    ∃ (t : State) (w : HeldWrite), exec (.cxlMemWrite port ldid hpa tag data enables false) s = .next t ∧ t.sent = u.sent ∧
      t.store.sacks = u.store.sacks ∧ t.store.heldWrites = u.store.heldWrites ++ [w] ∧ w.ld = ldid ∧ w.dpa = dpa ∧ w.why = .order ∧
      w.data = fit 64 data ∧ w.enables = enables)
end

