-- ==== Sys2Proof/Laws/State.lean ====
section
/-! SUPPORT. What each update of the state leaves and writes, field by field. -/
namespace Sys2Proof.Machine

/-! ### at_ -/
@[simp] theorem State.at__now (s : State) (t : Nat) : (s.at_ t).now = max s.now t := rfl
@[simp] theorem State.at__phase (s : State) (t : Nat) : (s.at_ t).phase = s.phase := rfl
@[simp] theorem State.at__millerReady (s : State) (t : Nat) : (s.at_ t).millerReady = s.millerReady := rfl
@[simp] theorem State.at__freeCtr (s : State) (t : Nat) : (s.at_ t).freeCtr = s.freeCtr := rfl
@[simp] theorem State.at__ext (s : State) (t : Nat) : (s.at_ t).ext = s.ext := rfl
@[simp] theorem State.at__store (s : State) (t : Nat) : (s.at_ t).store = s.store := rfl
@[simp] theorem State.at__sweep (s : State) (t : Nat) : (s.at_ t).sweep = s.sweep := rfl
@[simp] theorem State.at__weir (s : State) (t : Nat) : (s.at_ t).weir = s.weir := rfl
@[simp] theorem State.at__near (s : State) (t : Nat) : (s.at_ t).near = s.near := rfl
@[simp] theorem State.at__deep (s : State) (t : Nat) : (s.at_ t).deep = s.deep := rfl
@[simp] theorem State.at__integ (s : State) (t : Nat) : (s.at_ t).integ = s.integ := rfl
@[simp] theorem State.at__mbox (s : State) (t : Nat) : (s.at_ t).mbox = s.mbox := rfl
@[simp] theorem State.at__result (s : State) (t : Nat) : (s.at_ t).result = s.result := rfl
@[simp] theorem State.at__stone (s : State) (t : Nat) : (s.at_ t).stone = s.stone := rfl
@[simp] theorem State.at__gate (s : State) (t : Nat) : (s.at_ t).gate = s.gate := rfl
@[simp] theorem State.at__port (s : State) (t : Nat) : (s.at_ t).port = s.port := rfl
@[simp] theorem State.at__cxe (s : State) (t : Nat) : (s.at_ t).cxe = s.cxe := rfl
@[simp] theorem State.at__boot (s : State) (t : Nat) : (s.at_ t).boot = s.boot := rfl
@[simp] theorem State.at__clock (s : State) (t : Nat) : (s.at_ t).clock = s.clock := rfl
@[simp] theorem State.at__health (s : State) (t : Nat) : (s.at_ t).health = s.health := rfl
@[simp] theorem State.at__power (s : State) (t : Nat) : (s.at_ t).power = s.power := rfl
@[simp] theorem State.at__sent (s : State) (t : Nat) : (s.at_ t).sent = s.sent := rfl
@[simp] theorem State.at__pending (s : State) (t : Nat) : (s.at_ t).pending = s.pending := rfl

/-! ### send -/
@[simp] theorem State.send_now (s : State) (o : Out) : (s.send o).now = s.now := rfl
@[simp] theorem State.send_phase (s : State) (o : Out) : (s.send o).phase = s.phase := rfl
@[simp] theorem State.send_millerReady (s : State) (o : Out) : (s.send o).millerReady = s.millerReady := rfl
@[simp] theorem State.send_freeCtr (s : State) (o : Out) : (s.send o).freeCtr = s.freeCtr := rfl
@[simp] theorem State.send_ext (s : State) (o : Out) : (s.send o).ext = s.ext := rfl
@[simp] theorem State.send_store (s : State) (o : Out) : (s.send o).store = s.store := rfl
@[simp] theorem State.send_sweep (s : State) (o : Out) : (s.send o).sweep = s.sweep := rfl
@[simp] theorem State.send_weir (s : State) (o : Out) : (s.send o).weir = s.weir := rfl
@[simp] theorem State.send_near (s : State) (o : Out) : (s.send o).near = s.near := rfl
@[simp] theorem State.send_deep (s : State) (o : Out) : (s.send o).deep = s.deep := rfl
@[simp] theorem State.send_integ (s : State) (o : Out) : (s.send o).integ = s.integ := rfl
@[simp] theorem State.send_mbox (s : State) (o : Out) : (s.send o).mbox = s.mbox := rfl
@[simp] theorem State.send_result (s : State) (o : Out) : (s.send o).result = s.result := rfl
@[simp] theorem State.send_stone (s : State) (o : Out) : (s.send o).stone = s.stone := rfl
@[simp] theorem State.send_gate (s : State) (o : Out) : (s.send o).gate = s.gate := rfl
@[simp] theorem State.send_port (s : State) (o : Out) : (s.send o).port = s.port := rfl
@[simp] theorem State.send_cxe (s : State) (o : Out) : (s.send o).cxe = s.cxe := rfl
@[simp] theorem State.send_boot (s : State) (o : Out) : (s.send o).boot = s.boot := rfl
@[simp] theorem State.send_clock (s : State) (o : Out) : (s.send o).clock = s.clock := rfl
@[simp] theorem State.send_health (s : State) (o : Out) : (s.send o).health = s.health := rfl
@[simp] theorem State.send_power (s : State) (o : Out) : (s.send o).power = s.power := rfl
@[simp] theorem State.send_sent (s : State) (o : Out) : (s.send o).sent = o :: s.sent := rfl
@[simp] theorem State.send_pending (s : State) (o : Out) : (s.send o).pending = s.pending := rfl

/-! ### modStore -/
@[simp] theorem State.modStore_now (s : State) (f : StoreSt → StoreSt) : (s.modStore f).now = s.now := rfl
@[simp] theorem State.modStore_phase (s : State) (f : StoreSt → StoreSt) : (s.modStore f).phase = s.phase := rfl
@[simp] theorem State.modStore_millerReady (s : State) (f : StoreSt → StoreSt) : (s.modStore f).millerReady = s.millerReady := rfl
@[simp] theorem State.modStore_freeCtr (s : State) (f : StoreSt → StoreSt) : (s.modStore f).freeCtr = s.freeCtr := rfl
@[simp] theorem State.modStore_ext (s : State) (f : StoreSt → StoreSt) : (s.modStore f).ext = s.ext := rfl
@[simp] theorem State.modStore_store (s : State) (f : StoreSt → StoreSt) : (s.modStore f).store = f s.store := rfl
@[simp] theorem State.modStore_sweep (s : State) (f : StoreSt → StoreSt) : (s.modStore f).sweep = s.sweep := rfl
@[simp] theorem State.modStore_weir (s : State) (f : StoreSt → StoreSt) : (s.modStore f).weir = s.weir := rfl
@[simp] theorem State.modStore_near (s : State) (f : StoreSt → StoreSt) : (s.modStore f).near = s.near := rfl
@[simp] theorem State.modStore_deep (s : State) (f : StoreSt → StoreSt) : (s.modStore f).deep = s.deep := rfl
@[simp] theorem State.modStore_integ (s : State) (f : StoreSt → StoreSt) : (s.modStore f).integ = s.integ := rfl
@[simp] theorem State.modStore_mbox (s : State) (f : StoreSt → StoreSt) : (s.modStore f).mbox = s.mbox := rfl
@[simp] theorem State.modStore_result (s : State) (f : StoreSt → StoreSt) : (s.modStore f).result = s.result := rfl
@[simp] theorem State.modStore_stone (s : State) (f : StoreSt → StoreSt) : (s.modStore f).stone = s.stone := rfl
@[simp] theorem State.modStore_gate (s : State) (f : StoreSt → StoreSt) : (s.modStore f).gate = s.gate := rfl
@[simp] theorem State.modStore_port (s : State) (f : StoreSt → StoreSt) : (s.modStore f).port = s.port := rfl
@[simp] theorem State.modStore_cxe (s : State) (f : StoreSt → StoreSt) : (s.modStore f).cxe = s.cxe := rfl
@[simp] theorem State.modStore_boot (s : State) (f : StoreSt → StoreSt) : (s.modStore f).boot = s.boot := rfl
@[simp] theorem State.modStore_clock (s : State) (f : StoreSt → StoreSt) : (s.modStore f).clock = s.clock := rfl
@[simp] theorem State.modStore_health (s : State) (f : StoreSt → StoreSt) : (s.modStore f).health = s.health := rfl
@[simp] theorem State.modStore_power (s : State) (f : StoreSt → StoreSt) : (s.modStore f).power = s.power := rfl
@[simp] theorem State.modStore_sent (s : State) (f : StoreSt → StoreSt) : (s.modStore f).sent = s.sent := rfl
@[simp] theorem State.modStore_pending (s : State) (f : StoreSt → StoreSt) : (s.modStore f).pending = s.pending := rfl

/-! ### modWeir -/
@[simp] theorem State.modWeir_now (s : State) (f : WeirSt → WeirSt) : (s.modWeir f).now = s.now := rfl
@[simp] theorem State.modWeir_phase (s : State) (f : WeirSt → WeirSt) : (s.modWeir f).phase = s.phase := rfl
@[simp] theorem State.modWeir_millerReady (s : State) (f : WeirSt → WeirSt) : (s.modWeir f).millerReady = s.millerReady := rfl
@[simp] theorem State.modWeir_freeCtr (s : State) (f : WeirSt → WeirSt) : (s.modWeir f).freeCtr = s.freeCtr := rfl
@[simp] theorem State.modWeir_ext (s : State) (f : WeirSt → WeirSt) : (s.modWeir f).ext = s.ext := rfl
@[simp] theorem State.modWeir_store (s : State) (f : WeirSt → WeirSt) : (s.modWeir f).store = s.store := rfl
@[simp] theorem State.modWeir_sweep (s : State) (f : WeirSt → WeirSt) : (s.modWeir f).sweep = s.sweep := rfl
@[simp] theorem State.modWeir_weir (s : State) (f : WeirSt → WeirSt) : (s.modWeir f).weir = f s.weir := rfl
@[simp] theorem State.modWeir_near (s : State) (f : WeirSt → WeirSt) : (s.modWeir f).near = s.near := rfl
@[simp] theorem State.modWeir_deep (s : State) (f : WeirSt → WeirSt) : (s.modWeir f).deep = s.deep := rfl
@[simp] theorem State.modWeir_integ (s : State) (f : WeirSt → WeirSt) : (s.modWeir f).integ = s.integ := rfl
@[simp] theorem State.modWeir_mbox (s : State) (f : WeirSt → WeirSt) : (s.modWeir f).mbox = s.mbox := rfl
@[simp] theorem State.modWeir_result (s : State) (f : WeirSt → WeirSt) : (s.modWeir f).result = s.result := rfl
@[simp] theorem State.modWeir_stone (s : State) (f : WeirSt → WeirSt) : (s.modWeir f).stone = s.stone := rfl
@[simp] theorem State.modWeir_gate (s : State) (f : WeirSt → WeirSt) : (s.modWeir f).gate = s.gate := rfl
@[simp] theorem State.modWeir_port (s : State) (f : WeirSt → WeirSt) : (s.modWeir f).port = s.port := rfl
@[simp] theorem State.modWeir_cxe (s : State) (f : WeirSt → WeirSt) : (s.modWeir f).cxe = s.cxe := rfl
@[simp] theorem State.modWeir_boot (s : State) (f : WeirSt → WeirSt) : (s.modWeir f).boot = s.boot := rfl
@[simp] theorem State.modWeir_clock (s : State) (f : WeirSt → WeirSt) : (s.modWeir f).clock = s.clock := rfl
@[simp] theorem State.modWeir_health (s : State) (f : WeirSt → WeirSt) : (s.modWeir f).health = s.health := rfl
@[simp] theorem State.modWeir_power (s : State) (f : WeirSt → WeirSt) : (s.modWeir f).power = s.power := rfl
@[simp] theorem State.modWeir_sent (s : State) (f : WeirSt → WeirSt) : (s.modWeir f).sent = s.sent := rfl
@[simp] theorem State.modWeir_pending (s : State) (f : WeirSt → WeirSt) : (s.modWeir f).pending = s.pending := rfl

/-! ### modNear -/
@[simp] theorem State.modNear_now (s : State) (f : NearSt → NearSt) : (s.modNear f).now = s.now := rfl
@[simp] theorem State.modNear_phase (s : State) (f : NearSt → NearSt) : (s.modNear f).phase = s.phase := rfl
@[simp] theorem State.modNear_millerReady (s : State) (f : NearSt → NearSt) : (s.modNear f).millerReady = s.millerReady := rfl
@[simp] theorem State.modNear_freeCtr (s : State) (f : NearSt → NearSt) : (s.modNear f).freeCtr = s.freeCtr := rfl
@[simp] theorem State.modNear_ext (s : State) (f : NearSt → NearSt) : (s.modNear f).ext = s.ext := rfl
@[simp] theorem State.modNear_store (s : State) (f : NearSt → NearSt) : (s.modNear f).store = s.store := rfl
@[simp] theorem State.modNear_sweep (s : State) (f : NearSt → NearSt) : (s.modNear f).sweep = s.sweep := rfl
@[simp] theorem State.modNear_weir (s : State) (f : NearSt → NearSt) : (s.modNear f).weir = s.weir := rfl
@[simp] theorem State.modNear_near (s : State) (f : NearSt → NearSt) : (s.modNear f).near = f s.near := rfl
@[simp] theorem State.modNear_deep (s : State) (f : NearSt → NearSt) : (s.modNear f).deep = s.deep := rfl
@[simp] theorem State.modNear_integ (s : State) (f : NearSt → NearSt) : (s.modNear f).integ = s.integ := rfl
@[simp] theorem State.modNear_mbox (s : State) (f : NearSt → NearSt) : (s.modNear f).mbox = s.mbox := rfl
@[simp] theorem State.modNear_result (s : State) (f : NearSt → NearSt) : (s.modNear f).result = s.result := rfl
@[simp] theorem State.modNear_stone (s : State) (f : NearSt → NearSt) : (s.modNear f).stone = s.stone := rfl
@[simp] theorem State.modNear_gate (s : State) (f : NearSt → NearSt) : (s.modNear f).gate = s.gate := rfl
@[simp] theorem State.modNear_port (s : State) (f : NearSt → NearSt) : (s.modNear f).port = s.port := rfl
@[simp] theorem State.modNear_cxe (s : State) (f : NearSt → NearSt) : (s.modNear f).cxe = s.cxe := rfl
@[simp] theorem State.modNear_boot (s : State) (f : NearSt → NearSt) : (s.modNear f).boot = s.boot := rfl
@[simp] theorem State.modNear_clock (s : State) (f : NearSt → NearSt) : (s.modNear f).clock = s.clock := rfl
@[simp] theorem State.modNear_health (s : State) (f : NearSt → NearSt) : (s.modNear f).health = s.health := rfl
@[simp] theorem State.modNear_power (s : State) (f : NearSt → NearSt) : (s.modNear f).power = s.power := rfl
@[simp] theorem State.modNear_sent (s : State) (f : NearSt → NearSt) : (s.modNear f).sent = s.sent := rfl
@[simp] theorem State.modNear_pending (s : State) (f : NearSt → NearSt) : (s.modNear f).pending = s.pending := rfl

/-! ### modDeep -/
@[simp] theorem State.modDeep_now (s : State) (f : DeepSt → DeepSt) : (s.modDeep f).now = s.now := rfl
@[simp] theorem State.modDeep_phase (s : State) (f : DeepSt → DeepSt) : (s.modDeep f).phase = s.phase := rfl
@[simp] theorem State.modDeep_millerReady (s : State) (f : DeepSt → DeepSt) : (s.modDeep f).millerReady = s.millerReady := rfl
@[simp] theorem State.modDeep_freeCtr (s : State) (f : DeepSt → DeepSt) : (s.modDeep f).freeCtr = s.freeCtr := rfl
@[simp] theorem State.modDeep_ext (s : State) (f : DeepSt → DeepSt) : (s.modDeep f).ext = s.ext := rfl
@[simp] theorem State.modDeep_store (s : State) (f : DeepSt → DeepSt) : (s.modDeep f).store = s.store := rfl
@[simp] theorem State.modDeep_sweep (s : State) (f : DeepSt → DeepSt) : (s.modDeep f).sweep = s.sweep := rfl
@[simp] theorem State.modDeep_weir (s : State) (f : DeepSt → DeepSt) : (s.modDeep f).weir = s.weir := rfl
@[simp] theorem State.modDeep_near (s : State) (f : DeepSt → DeepSt) : (s.modDeep f).near = s.near := rfl
@[simp] theorem State.modDeep_deep (s : State) (f : DeepSt → DeepSt) : (s.modDeep f).deep = f s.deep := rfl
@[simp] theorem State.modDeep_integ (s : State) (f : DeepSt → DeepSt) : (s.modDeep f).integ = s.integ := rfl
@[simp] theorem State.modDeep_mbox (s : State) (f : DeepSt → DeepSt) : (s.modDeep f).mbox = s.mbox := rfl
@[simp] theorem State.modDeep_result (s : State) (f : DeepSt → DeepSt) : (s.modDeep f).result = s.result := rfl
@[simp] theorem State.modDeep_stone (s : State) (f : DeepSt → DeepSt) : (s.modDeep f).stone = s.stone := rfl
@[simp] theorem State.modDeep_gate (s : State) (f : DeepSt → DeepSt) : (s.modDeep f).gate = s.gate := rfl
@[simp] theorem State.modDeep_port (s : State) (f : DeepSt → DeepSt) : (s.modDeep f).port = s.port := rfl
@[simp] theorem State.modDeep_cxe (s : State) (f : DeepSt → DeepSt) : (s.modDeep f).cxe = s.cxe := rfl
@[simp] theorem State.modDeep_boot (s : State) (f : DeepSt → DeepSt) : (s.modDeep f).boot = s.boot := rfl
@[simp] theorem State.modDeep_clock (s : State) (f : DeepSt → DeepSt) : (s.modDeep f).clock = s.clock := rfl
@[simp] theorem State.modDeep_health (s : State) (f : DeepSt → DeepSt) : (s.modDeep f).health = s.health := rfl
@[simp] theorem State.modDeep_power (s : State) (f : DeepSt → DeepSt) : (s.modDeep f).power = s.power := rfl
@[simp] theorem State.modDeep_sent (s : State) (f : DeepSt → DeepSt) : (s.modDeep f).sent = s.sent := rfl
@[simp] theorem State.modDeep_pending (s : State) (f : DeepSt → DeepSt) : (s.modDeep f).pending = s.pending := rfl

/-! ### modInteg -/
@[simp] theorem State.modInteg_now (s : State) (f : IntegSt → IntegSt) : (s.modInteg f).now = s.now := rfl
@[simp] theorem State.modInteg_phase (s : State) (f : IntegSt → IntegSt) : (s.modInteg f).phase = s.phase := rfl
@[simp] theorem State.modInteg_millerReady (s : State) (f : IntegSt → IntegSt) : (s.modInteg f).millerReady = s.millerReady := rfl
@[simp] theorem State.modInteg_freeCtr (s : State) (f : IntegSt → IntegSt) : (s.modInteg f).freeCtr = s.freeCtr := rfl
@[simp] theorem State.modInteg_ext (s : State) (f : IntegSt → IntegSt) : (s.modInteg f).ext = s.ext := rfl
@[simp] theorem State.modInteg_store (s : State) (f : IntegSt → IntegSt) : (s.modInteg f).store = s.store := rfl
@[simp] theorem State.modInteg_sweep (s : State) (f : IntegSt → IntegSt) : (s.modInteg f).sweep = s.sweep := rfl
@[simp] theorem State.modInteg_weir (s : State) (f : IntegSt → IntegSt) : (s.modInteg f).weir = s.weir := rfl
@[simp] theorem State.modInteg_near (s : State) (f : IntegSt → IntegSt) : (s.modInteg f).near = s.near := rfl
@[simp] theorem State.modInteg_deep (s : State) (f : IntegSt → IntegSt) : (s.modInteg f).deep = s.deep := rfl
@[simp] theorem State.modInteg_integ (s : State) (f : IntegSt → IntegSt) : (s.modInteg f).integ = f s.integ := rfl
@[simp] theorem State.modInteg_mbox (s : State) (f : IntegSt → IntegSt) : (s.modInteg f).mbox = s.mbox := rfl
@[simp] theorem State.modInteg_result (s : State) (f : IntegSt → IntegSt) : (s.modInteg f).result = s.result := rfl
@[simp] theorem State.modInteg_stone (s : State) (f : IntegSt → IntegSt) : (s.modInteg f).stone = s.stone := rfl
@[simp] theorem State.modInteg_gate (s : State) (f : IntegSt → IntegSt) : (s.modInteg f).gate = s.gate := rfl
@[simp] theorem State.modInteg_port (s : State) (f : IntegSt → IntegSt) : (s.modInteg f).port = s.port := rfl
@[simp] theorem State.modInteg_cxe (s : State) (f : IntegSt → IntegSt) : (s.modInteg f).cxe = s.cxe := rfl
@[simp] theorem State.modInteg_boot (s : State) (f : IntegSt → IntegSt) : (s.modInteg f).boot = s.boot := rfl
@[simp] theorem State.modInteg_clock (s : State) (f : IntegSt → IntegSt) : (s.modInteg f).clock = s.clock := rfl
@[simp] theorem State.modInteg_health (s : State) (f : IntegSt → IntegSt) : (s.modInteg f).health = s.health := rfl
@[simp] theorem State.modInteg_power (s : State) (f : IntegSt → IntegSt) : (s.modInteg f).power = s.power := rfl
@[simp] theorem State.modInteg_sent (s : State) (f : IntegSt → IntegSt) : (s.modInteg f).sent = s.sent := rfl
@[simp] theorem State.modInteg_pending (s : State) (f : IntegSt → IntegSt) : (s.modInteg f).pending = s.pending := rfl

/-! ### modResult -/
@[simp] theorem State.modResult_now (s : State) (f : ResultSt → ResultSt) : (s.modResult f).now = s.now := rfl
@[simp] theorem State.modResult_phase (s : State) (f : ResultSt → ResultSt) : (s.modResult f).phase = s.phase := rfl
@[simp] theorem State.modResult_millerReady (s : State) (f : ResultSt → ResultSt) : (s.modResult f).millerReady = s.millerReady := rfl
@[simp] theorem State.modResult_freeCtr (s : State) (f : ResultSt → ResultSt) : (s.modResult f).freeCtr = s.freeCtr := rfl
@[simp] theorem State.modResult_ext (s : State) (f : ResultSt → ResultSt) : (s.modResult f).ext = s.ext := rfl
@[simp] theorem State.modResult_store (s : State) (f : ResultSt → ResultSt) : (s.modResult f).store = s.store := rfl
@[simp] theorem State.modResult_sweep (s : State) (f : ResultSt → ResultSt) : (s.modResult f).sweep = s.sweep := rfl
@[simp] theorem State.modResult_weir (s : State) (f : ResultSt → ResultSt) : (s.modResult f).weir = s.weir := rfl
@[simp] theorem State.modResult_near (s : State) (f : ResultSt → ResultSt) : (s.modResult f).near = s.near := rfl
@[simp] theorem State.modResult_deep (s : State) (f : ResultSt → ResultSt) : (s.modResult f).deep = s.deep := rfl
@[simp] theorem State.modResult_integ (s : State) (f : ResultSt → ResultSt) : (s.modResult f).integ = s.integ := rfl
@[simp] theorem State.modResult_mbox (s : State) (f : ResultSt → ResultSt) : (s.modResult f).mbox = s.mbox := rfl
@[simp] theorem State.modResult_result (s : State) (f : ResultSt → ResultSt) : (s.modResult f).result = f s.result := rfl
@[simp] theorem State.modResult_stone (s : State) (f : ResultSt → ResultSt) : (s.modResult f).stone = s.stone := rfl
@[simp] theorem State.modResult_gate (s : State) (f : ResultSt → ResultSt) : (s.modResult f).gate = s.gate := rfl
@[simp] theorem State.modResult_port (s : State) (f : ResultSt → ResultSt) : (s.modResult f).port = s.port := rfl
@[simp] theorem State.modResult_cxe (s : State) (f : ResultSt → ResultSt) : (s.modResult f).cxe = s.cxe := rfl
@[simp] theorem State.modResult_boot (s : State) (f : ResultSt → ResultSt) : (s.modResult f).boot = s.boot := rfl
@[simp] theorem State.modResult_clock (s : State) (f : ResultSt → ResultSt) : (s.modResult f).clock = s.clock := rfl
@[simp] theorem State.modResult_health (s : State) (f : ResultSt → ResultSt) : (s.modResult f).health = s.health := rfl
@[simp] theorem State.modResult_power (s : State) (f : ResultSt → ResultSt) : (s.modResult f).power = s.power := rfl
@[simp] theorem State.modResult_sent (s : State) (f : ResultSt → ResultSt) : (s.modResult f).sent = s.sent := rfl
@[simp] theorem State.modResult_pending (s : State) (f : ResultSt → ResultSt) : (s.modResult f).pending = s.pending := rfl

/-! ### modGate -/
@[simp] theorem State.modGate_now (s : State) (f : GateSt → GateSt) : (s.modGate f).now = s.now := rfl
@[simp] theorem State.modGate_phase (s : State) (f : GateSt → GateSt) : (s.modGate f).phase = s.phase := rfl
@[simp] theorem State.modGate_millerReady (s : State) (f : GateSt → GateSt) : (s.modGate f).millerReady = s.millerReady := rfl
@[simp] theorem State.modGate_freeCtr (s : State) (f : GateSt → GateSt) : (s.modGate f).freeCtr = s.freeCtr := rfl
@[simp] theorem State.modGate_ext (s : State) (f : GateSt → GateSt) : (s.modGate f).ext = s.ext := rfl
@[simp] theorem State.modGate_store (s : State) (f : GateSt → GateSt) : (s.modGate f).store = s.store := rfl
@[simp] theorem State.modGate_sweep (s : State) (f : GateSt → GateSt) : (s.modGate f).sweep = s.sweep := rfl
@[simp] theorem State.modGate_weir (s : State) (f : GateSt → GateSt) : (s.modGate f).weir = s.weir := rfl
@[simp] theorem State.modGate_near (s : State) (f : GateSt → GateSt) : (s.modGate f).near = s.near := rfl
@[simp] theorem State.modGate_deep (s : State) (f : GateSt → GateSt) : (s.modGate f).deep = s.deep := rfl
@[simp] theorem State.modGate_integ (s : State) (f : GateSt → GateSt) : (s.modGate f).integ = s.integ := rfl
@[simp] theorem State.modGate_mbox (s : State) (f : GateSt → GateSt) : (s.modGate f).mbox = s.mbox := rfl
@[simp] theorem State.modGate_result (s : State) (f : GateSt → GateSt) : (s.modGate f).result = s.result := rfl
@[simp] theorem State.modGate_stone (s : State) (f : GateSt → GateSt) : (s.modGate f).stone = s.stone := rfl
@[simp] theorem State.modGate_gate (s : State) (f : GateSt → GateSt) : (s.modGate f).gate = f s.gate := rfl
@[simp] theorem State.modGate_port (s : State) (f : GateSt → GateSt) : (s.modGate f).port = s.port := rfl
@[simp] theorem State.modGate_cxe (s : State) (f : GateSt → GateSt) : (s.modGate f).cxe = s.cxe := rfl
@[simp] theorem State.modGate_boot (s : State) (f : GateSt → GateSt) : (s.modGate f).boot = s.boot := rfl
@[simp] theorem State.modGate_clock (s : State) (f : GateSt → GateSt) : (s.modGate f).clock = s.clock := rfl
@[simp] theorem State.modGate_health (s : State) (f : GateSt → GateSt) : (s.modGate f).health = s.health := rfl
@[simp] theorem State.modGate_power (s : State) (f : GateSt → GateSt) : (s.modGate f).power = s.power := rfl
@[simp] theorem State.modGate_sent (s : State) (f : GateSt → GateSt) : (s.modGate f).sent = s.sent := rfl
@[simp] theorem State.modGate_pending (s : State) (f : GateSt → GateSt) : (s.modGate f).pending = s.pending := rfl

/-! ### modPorts -/
@[simp] theorem State.modPorts_now (s : State) (f : PortSt → PortSt) : (s.modPorts f).now = s.now := rfl
@[simp] theorem State.modPorts_phase (s : State) (f : PortSt → PortSt) : (s.modPorts f).phase = s.phase := rfl
@[simp] theorem State.modPorts_millerReady (s : State) (f : PortSt → PortSt) : (s.modPorts f).millerReady = s.millerReady := rfl
@[simp] theorem State.modPorts_freeCtr (s : State) (f : PortSt → PortSt) : (s.modPorts f).freeCtr = s.freeCtr := rfl
@[simp] theorem State.modPorts_ext (s : State) (f : PortSt → PortSt) : (s.modPorts f).ext = s.ext := rfl
@[simp] theorem State.modPorts_store (s : State) (f : PortSt → PortSt) : (s.modPorts f).store = s.store := rfl
@[simp] theorem State.modPorts_sweep (s : State) (f : PortSt → PortSt) : (s.modPorts f).sweep = s.sweep := rfl
@[simp] theorem State.modPorts_weir (s : State) (f : PortSt → PortSt) : (s.modPorts f).weir = s.weir := rfl
@[simp] theorem State.modPorts_near (s : State) (f : PortSt → PortSt) : (s.modPorts f).near = s.near := rfl
@[simp] theorem State.modPorts_deep (s : State) (f : PortSt → PortSt) : (s.modPorts f).deep = s.deep := rfl
@[simp] theorem State.modPorts_integ (s : State) (f : PortSt → PortSt) : (s.modPorts f).integ = s.integ := rfl
@[simp] theorem State.modPorts_mbox (s : State) (f : PortSt → PortSt) : (s.modPorts f).mbox = s.mbox := rfl
@[simp] theorem State.modPorts_result (s : State) (f : PortSt → PortSt) : (s.modPorts f).result = s.result := rfl
@[simp] theorem State.modPorts_stone (s : State) (f : PortSt → PortSt) : (s.modPorts f).stone = s.stone := rfl
@[simp] theorem State.modPorts_gate (s : State) (f : PortSt → PortSt) : (s.modPorts f).gate = s.gate := rfl
@[simp] theorem State.modPorts_port (s : State) (f : PortSt → PortSt) : (s.modPorts f).port = f s.port := rfl
@[simp] theorem State.modPorts_cxe (s : State) (f : PortSt → PortSt) : (s.modPorts f).cxe = s.cxe := rfl
@[simp] theorem State.modPorts_boot (s : State) (f : PortSt → PortSt) : (s.modPorts f).boot = s.boot := rfl
@[simp] theorem State.modPorts_clock (s : State) (f : PortSt → PortSt) : (s.modPorts f).clock = s.clock := rfl
@[simp] theorem State.modPorts_health (s : State) (f : PortSt → PortSt) : (s.modPorts f).health = s.health := rfl
@[simp] theorem State.modPorts_power (s : State) (f : PortSt → PortSt) : (s.modPorts f).power = s.power := rfl
@[simp] theorem State.modPorts_sent (s : State) (f : PortSt → PortSt) : (s.modPorts f).sent = s.sent := rfl
@[simp] theorem State.modPorts_pending (s : State) (f : PortSt → PortSt) : (s.modPorts f).pending = s.pending := rfl

/-! ### modCxe -/
@[simp] theorem State.modCxe_now (s : State) (f : CxeSt → CxeSt) : (s.modCxe f).now = s.now := rfl
@[simp] theorem State.modCxe_phase (s : State) (f : CxeSt → CxeSt) : (s.modCxe f).phase = s.phase := rfl
@[simp] theorem State.modCxe_millerReady (s : State) (f : CxeSt → CxeSt) : (s.modCxe f).millerReady = s.millerReady := rfl
@[simp] theorem State.modCxe_freeCtr (s : State) (f : CxeSt → CxeSt) : (s.modCxe f).freeCtr = s.freeCtr := rfl
@[simp] theorem State.modCxe_ext (s : State) (f : CxeSt → CxeSt) : (s.modCxe f).ext = s.ext := rfl
@[simp] theorem State.modCxe_store (s : State) (f : CxeSt → CxeSt) : (s.modCxe f).store = s.store := rfl
@[simp] theorem State.modCxe_sweep (s : State) (f : CxeSt → CxeSt) : (s.modCxe f).sweep = s.sweep := rfl
@[simp] theorem State.modCxe_weir (s : State) (f : CxeSt → CxeSt) : (s.modCxe f).weir = s.weir := rfl
@[simp] theorem State.modCxe_near (s : State) (f : CxeSt → CxeSt) : (s.modCxe f).near = s.near := rfl
@[simp] theorem State.modCxe_deep (s : State) (f : CxeSt → CxeSt) : (s.modCxe f).deep = s.deep := rfl
@[simp] theorem State.modCxe_integ (s : State) (f : CxeSt → CxeSt) : (s.modCxe f).integ = s.integ := rfl
@[simp] theorem State.modCxe_mbox (s : State) (f : CxeSt → CxeSt) : (s.modCxe f).mbox = s.mbox := rfl
@[simp] theorem State.modCxe_result (s : State) (f : CxeSt → CxeSt) : (s.modCxe f).result = s.result := rfl
@[simp] theorem State.modCxe_stone (s : State) (f : CxeSt → CxeSt) : (s.modCxe f).stone = s.stone := rfl
@[simp] theorem State.modCxe_gate (s : State) (f : CxeSt → CxeSt) : (s.modCxe f).gate = s.gate := rfl
@[simp] theorem State.modCxe_port (s : State) (f : CxeSt → CxeSt) : (s.modCxe f).port = s.port := rfl
@[simp] theorem State.modCxe_cxe (s : State) (f : CxeSt → CxeSt) : (s.modCxe f).cxe = f s.cxe := rfl
@[simp] theorem State.modCxe_boot (s : State) (f : CxeSt → CxeSt) : (s.modCxe f).boot = s.boot := rfl
@[simp] theorem State.modCxe_clock (s : State) (f : CxeSt → CxeSt) : (s.modCxe f).clock = s.clock := rfl
@[simp] theorem State.modCxe_health (s : State) (f : CxeSt → CxeSt) : (s.modCxe f).health = s.health := rfl
@[simp] theorem State.modCxe_power (s : State) (f : CxeSt → CxeSt) : (s.modCxe f).power = s.power := rfl
@[simp] theorem State.modCxe_sent (s : State) (f : CxeSt → CxeSt) : (s.modCxe f).sent = s.sent := rfl
@[simp] theorem State.modCxe_pending (s : State) (f : CxeSt → CxeSt) : (s.modCxe f).pending = s.pending := rfl

/-! ### modBoot -/
@[simp] theorem State.modBoot_now (s : State) (f : BootSt → BootSt) : (s.modBoot f).now = s.now := rfl
@[simp] theorem State.modBoot_phase (s : State) (f : BootSt → BootSt) : (s.modBoot f).phase = s.phase := rfl
@[simp] theorem State.modBoot_millerReady (s : State) (f : BootSt → BootSt) : (s.modBoot f).millerReady = s.millerReady := rfl
@[simp] theorem State.modBoot_freeCtr (s : State) (f : BootSt → BootSt) : (s.modBoot f).freeCtr = s.freeCtr := rfl
@[simp] theorem State.modBoot_ext (s : State) (f : BootSt → BootSt) : (s.modBoot f).ext = s.ext := rfl
@[simp] theorem State.modBoot_store (s : State) (f : BootSt → BootSt) : (s.modBoot f).store = s.store := rfl
@[simp] theorem State.modBoot_sweep (s : State) (f : BootSt → BootSt) : (s.modBoot f).sweep = s.sweep := rfl
@[simp] theorem State.modBoot_weir (s : State) (f : BootSt → BootSt) : (s.modBoot f).weir = s.weir := rfl
@[simp] theorem State.modBoot_near (s : State) (f : BootSt → BootSt) : (s.modBoot f).near = s.near := rfl
@[simp] theorem State.modBoot_deep (s : State) (f : BootSt → BootSt) : (s.modBoot f).deep = s.deep := rfl
@[simp] theorem State.modBoot_integ (s : State) (f : BootSt → BootSt) : (s.modBoot f).integ = s.integ := rfl
@[simp] theorem State.modBoot_mbox (s : State) (f : BootSt → BootSt) : (s.modBoot f).mbox = s.mbox := rfl
@[simp] theorem State.modBoot_result (s : State) (f : BootSt → BootSt) : (s.modBoot f).result = s.result := rfl
@[simp] theorem State.modBoot_stone (s : State) (f : BootSt → BootSt) : (s.modBoot f).stone = s.stone := rfl
@[simp] theorem State.modBoot_gate (s : State) (f : BootSt → BootSt) : (s.modBoot f).gate = s.gate := rfl
@[simp] theorem State.modBoot_port (s : State) (f : BootSt → BootSt) : (s.modBoot f).port = s.port := rfl
@[simp] theorem State.modBoot_cxe (s : State) (f : BootSt → BootSt) : (s.modBoot f).cxe = s.cxe := rfl
@[simp] theorem State.modBoot_boot (s : State) (f : BootSt → BootSt) : (s.modBoot f).boot = f s.boot := rfl
@[simp] theorem State.modBoot_clock (s : State) (f : BootSt → BootSt) : (s.modBoot f).clock = s.clock := rfl
@[simp] theorem State.modBoot_health (s : State) (f : BootSt → BootSt) : (s.modBoot f).health = s.health := rfl
@[simp] theorem State.modBoot_power (s : State) (f : BootSt → BootSt) : (s.modBoot f).power = s.power := rfl
@[simp] theorem State.modBoot_sent (s : State) (f : BootSt → BootSt) : (s.modBoot f).sent = s.sent := rfl
@[simp] theorem State.modBoot_pending (s : State) (f : BootSt → BootSt) : (s.modBoot f).pending = s.pending := rfl

/-! ### modClock -/
@[simp] theorem State.modClock_now (s : State) (f : ClockSt → ClockSt) : (s.modClock f).now = s.now := rfl
@[simp] theorem State.modClock_phase (s : State) (f : ClockSt → ClockSt) : (s.modClock f).phase = s.phase := rfl
@[simp] theorem State.modClock_millerReady (s : State) (f : ClockSt → ClockSt) : (s.modClock f).millerReady = s.millerReady := rfl
@[simp] theorem State.modClock_freeCtr (s : State) (f : ClockSt → ClockSt) : (s.modClock f).freeCtr = s.freeCtr := rfl
@[simp] theorem State.modClock_ext (s : State) (f : ClockSt → ClockSt) : (s.modClock f).ext = s.ext := rfl
@[simp] theorem State.modClock_store (s : State) (f : ClockSt → ClockSt) : (s.modClock f).store = s.store := rfl
@[simp] theorem State.modClock_sweep (s : State) (f : ClockSt → ClockSt) : (s.modClock f).sweep = s.sweep := rfl
@[simp] theorem State.modClock_weir (s : State) (f : ClockSt → ClockSt) : (s.modClock f).weir = s.weir := rfl
@[simp] theorem State.modClock_near (s : State) (f : ClockSt → ClockSt) : (s.modClock f).near = s.near := rfl
@[simp] theorem State.modClock_deep (s : State) (f : ClockSt → ClockSt) : (s.modClock f).deep = s.deep := rfl
@[simp] theorem State.modClock_integ (s : State) (f : ClockSt → ClockSt) : (s.modClock f).integ = s.integ := rfl
@[simp] theorem State.modClock_mbox (s : State) (f : ClockSt → ClockSt) : (s.modClock f).mbox = s.mbox := rfl
@[simp] theorem State.modClock_result (s : State) (f : ClockSt → ClockSt) : (s.modClock f).result = s.result := rfl
@[simp] theorem State.modClock_stone (s : State) (f : ClockSt → ClockSt) : (s.modClock f).stone = s.stone := rfl
@[simp] theorem State.modClock_gate (s : State) (f : ClockSt → ClockSt) : (s.modClock f).gate = s.gate := rfl
@[simp] theorem State.modClock_port (s : State) (f : ClockSt → ClockSt) : (s.modClock f).port = s.port := rfl
@[simp] theorem State.modClock_cxe (s : State) (f : ClockSt → ClockSt) : (s.modClock f).cxe = s.cxe := rfl
@[simp] theorem State.modClock_boot (s : State) (f : ClockSt → ClockSt) : (s.modClock f).boot = s.boot := rfl
@[simp] theorem State.modClock_clock (s : State) (f : ClockSt → ClockSt) : (s.modClock f).clock = f s.clock := rfl
@[simp] theorem State.modClock_health (s : State) (f : ClockSt → ClockSt) : (s.modClock f).health = s.health := rfl
@[simp] theorem State.modClock_power (s : State) (f : ClockSt → ClockSt) : (s.modClock f).power = s.power := rfl
@[simp] theorem State.modClock_sent (s : State) (f : ClockSt → ClockSt) : (s.modClock f).sent = s.sent := rfl
@[simp] theorem State.modClock_pending (s : State) (f : ClockSt → ClockSt) : (s.modClock f).pending = s.pending := rfl

/-! ### modHealth -/
@[simp] theorem State.modHealth_now (s : State) (f : HealthSt → HealthSt) : (s.modHealth f).now = s.now := rfl
@[simp] theorem State.modHealth_phase (s : State) (f : HealthSt → HealthSt) : (s.modHealth f).phase = s.phase := rfl
@[simp] theorem State.modHealth_millerReady (s : State) (f : HealthSt → HealthSt) : (s.modHealth f).millerReady = s.millerReady := rfl
@[simp] theorem State.modHealth_freeCtr (s : State) (f : HealthSt → HealthSt) : (s.modHealth f).freeCtr = s.freeCtr := rfl
@[simp] theorem State.modHealth_ext (s : State) (f : HealthSt → HealthSt) : (s.modHealth f).ext = s.ext := rfl
@[simp] theorem State.modHealth_store (s : State) (f : HealthSt → HealthSt) : (s.modHealth f).store = s.store := rfl
@[simp] theorem State.modHealth_sweep (s : State) (f : HealthSt → HealthSt) : (s.modHealth f).sweep = s.sweep := rfl
@[simp] theorem State.modHealth_weir (s : State) (f : HealthSt → HealthSt) : (s.modHealth f).weir = s.weir := rfl
@[simp] theorem State.modHealth_near (s : State) (f : HealthSt → HealthSt) : (s.modHealth f).near = s.near := rfl
@[simp] theorem State.modHealth_deep (s : State) (f : HealthSt → HealthSt) : (s.modHealth f).deep = s.deep := rfl
@[simp] theorem State.modHealth_integ (s : State) (f : HealthSt → HealthSt) : (s.modHealth f).integ = s.integ := rfl
@[simp] theorem State.modHealth_mbox (s : State) (f : HealthSt → HealthSt) : (s.modHealth f).mbox = s.mbox := rfl
@[simp] theorem State.modHealth_result (s : State) (f : HealthSt → HealthSt) : (s.modHealth f).result = s.result := rfl
@[simp] theorem State.modHealth_stone (s : State) (f : HealthSt → HealthSt) : (s.modHealth f).stone = s.stone := rfl
@[simp] theorem State.modHealth_gate (s : State) (f : HealthSt → HealthSt) : (s.modHealth f).gate = s.gate := rfl
@[simp] theorem State.modHealth_port (s : State) (f : HealthSt → HealthSt) : (s.modHealth f).port = s.port := rfl
@[simp] theorem State.modHealth_cxe (s : State) (f : HealthSt → HealthSt) : (s.modHealth f).cxe = s.cxe := rfl
@[simp] theorem State.modHealth_boot (s : State) (f : HealthSt → HealthSt) : (s.modHealth f).boot = s.boot := rfl
@[simp] theorem State.modHealth_clock (s : State) (f : HealthSt → HealthSt) : (s.modHealth f).clock = s.clock := rfl
@[simp] theorem State.modHealth_health (s : State) (f : HealthSt → HealthSt) : (s.modHealth f).health = f s.health := rfl
@[simp] theorem State.modHealth_power (s : State) (f : HealthSt → HealthSt) : (s.modHealth f).power = s.power := rfl
@[simp] theorem State.modHealth_sent (s : State) (f : HealthSt → HealthSt) : (s.modHealth f).sent = s.sent := rfl
@[simp] theorem State.modHealth_pending (s : State) (f : HealthSt → HealthSt) : (s.modHealth f).pending = s.pending := rfl

/-! ### modPower -/
@[simp] theorem State.modPower_now (s : State) (f : PowerSt → PowerSt) : (s.modPower f).now = s.now := rfl
@[simp] theorem State.modPower_phase (s : State) (f : PowerSt → PowerSt) : (s.modPower f).phase = s.phase := rfl
@[simp] theorem State.modPower_millerReady (s : State) (f : PowerSt → PowerSt) : (s.modPower f).millerReady = s.millerReady := rfl
@[simp] theorem State.modPower_freeCtr (s : State) (f : PowerSt → PowerSt) : (s.modPower f).freeCtr = s.freeCtr := rfl
@[simp] theorem State.modPower_ext (s : State) (f : PowerSt → PowerSt) : (s.modPower f).ext = s.ext := rfl
@[simp] theorem State.modPower_store (s : State) (f : PowerSt → PowerSt) : (s.modPower f).store = s.store := rfl
@[simp] theorem State.modPower_sweep (s : State) (f : PowerSt → PowerSt) : (s.modPower f).sweep = s.sweep := rfl
@[simp] theorem State.modPower_weir (s : State) (f : PowerSt → PowerSt) : (s.modPower f).weir = s.weir := rfl
@[simp] theorem State.modPower_near (s : State) (f : PowerSt → PowerSt) : (s.modPower f).near = s.near := rfl
@[simp] theorem State.modPower_deep (s : State) (f : PowerSt → PowerSt) : (s.modPower f).deep = s.deep := rfl
@[simp] theorem State.modPower_integ (s : State) (f : PowerSt → PowerSt) : (s.modPower f).integ = s.integ := rfl
@[simp] theorem State.modPower_mbox (s : State) (f : PowerSt → PowerSt) : (s.modPower f).mbox = s.mbox := rfl
@[simp] theorem State.modPower_result (s : State) (f : PowerSt → PowerSt) : (s.modPower f).result = s.result := rfl
@[simp] theorem State.modPower_stone (s : State) (f : PowerSt → PowerSt) : (s.modPower f).stone = s.stone := rfl
@[simp] theorem State.modPower_gate (s : State) (f : PowerSt → PowerSt) : (s.modPower f).gate = s.gate := rfl
@[simp] theorem State.modPower_port (s : State) (f : PowerSt → PowerSt) : (s.modPower f).port = s.port := rfl
@[simp] theorem State.modPower_cxe (s : State) (f : PowerSt → PowerSt) : (s.modPower f).cxe = s.cxe := rfl
@[simp] theorem State.modPower_boot (s : State) (f : PowerSt → PowerSt) : (s.modPower f).boot = s.boot := rfl
@[simp] theorem State.modPower_clock (s : State) (f : PowerSt → PowerSt) : (s.modPower f).clock = s.clock := rfl
@[simp] theorem State.modPower_health (s : State) (f : PowerSt → PowerSt) : (s.modPower f).health = s.health := rfl
@[simp] theorem State.modPower_power (s : State) (f : PowerSt → PowerSt) : (s.modPower f).power = f s.power := rfl
@[simp] theorem State.modPower_sent (s : State) (f : PowerSt → PowerSt) : (s.modPower f).sent = s.sent := rfl
@[simp] theorem State.modPower_pending (s : State) (f : PowerSt → PowerSt) : (s.modPower f).pending = s.pending := rfl

@[simp] theorem State.at__up (s : State) (t : Nat) : (s.at_ t).up = s.up := rfl
@[simp] theorem State.at__sack (s : State) (t : Nat) (k : Nat) : (s.at_ t).sack k = s.sack k := rfl
@[simp] theorem State.at__slot (s : State) (t : Nat) (b : Nat) : (s.at_ t).slot b = s.slot b := rfl
@[simp] theorem State.at__stackOk (s : State) (t : Nat) (k : Nat) : (s.at_ t).stackOk k = s.stackOk k := rfl
@[simp] theorem State.at__stackAt (s : State) (t : Nat) (k : Nat) : (s.at_ t).stackAt k = s.stackAt k := rfl
@[simp] theorem State.at__stoneAt (s : State) (t : Nat) (k : Nat) : (s.at_ t).stoneAt k = s.stoneAt k := rfl
@[simp] theorem State.at__wheel (s : State) (t : Nat) (w : Nat) : (s.at_ t).wheel w = s.wheel w := rfl
@[simp] theorem State.at__portAt (s : State) (t : Nat) (p : Nat) : (s.at_ t).portAt p = s.portAt p := rfl
@[simp] theorem State.at__freeFrames (s : State) (t : Nat) (k : Nat) : (s.at_ t).freeFrames k = s.freeFrames k := rfl
@[simp] theorem State.at__framesPerStack (s : State) (t : Nat) : (s.at_ t).framesPerStack = s.framesPerStack := rfl
@[simp] theorem State.at__job (s : State) (t : Nat) (m : Nat) : (s.at_ t).job m = s.job m := rfl
@[simp] theorem State.at__guar (s : State) (t : Nat) (a b : Nat) : (s.at_ t).guar a b = s.guar a b := rfl
@[simp] theorem State.at__extById (s : State) (t : Nat) (e : Nat) : (s.at_ t).extById e = s.extById e := rfl
@[simp] theorem State.at__extOfSack (s : State) (t : Nat) (k : Nat) : (s.at_ t).extOfSack k = s.extOfSack k := rfl
@[simp] theorem State.at__xferOf (s : State) (t : Nat) (k : Nat) : (s.at_ t).xferOf k = s.xferOf k := rfl
@[simp] theorem State.at__openEnt (s : State) (t : Nat) (b : Nat) : (s.at_ t).openEnt b = s.openEnt b := rfl
@[simp] theorem State.at__tagOf (s : State) (t : Nat) (k n : Nat) : (s.at_ t).tagOf k n = s.tagOf k n := rfl
@[simp] theorem State.at__wantsRun (s : State) (t : Nat) (k : Nat) : (s.at_ t).wantsRun k = s.wantsRun k := rfl
@[simp] theorem State.at__ldOn (s : State) (t : Nat) (k : Nat) : (s.at_ t).ldOn k = s.ldOn k := rfl
@[simp] theorem State.send_up (s : State) (o : Out) : (s.send o).up = s.up := rfl
@[simp] theorem State.send_sack (s : State) (o : Out) (k : Nat) : (s.send o).sack k = s.sack k := rfl
@[simp] theorem State.send_slot (s : State) (o : Out) (b : Nat) : (s.send o).slot b = s.slot b := rfl
@[simp] theorem State.send_stackOk (s : State) (o : Out) (k : Nat) : (s.send o).stackOk k = s.stackOk k := rfl
@[simp] theorem State.send_stackAt (s : State) (o : Out) (k : Nat) : (s.send o).stackAt k = s.stackAt k := rfl
@[simp] theorem State.send_stoneAt (s : State) (o : Out) (k : Nat) : (s.send o).stoneAt k = s.stoneAt k := rfl
@[simp] theorem State.send_wheel (s : State) (o : Out) (w : Nat) : (s.send o).wheel w = s.wheel w := rfl
@[simp] theorem State.send_portAt (s : State) (o : Out) (p : Nat) : (s.send o).portAt p = s.portAt p := rfl
@[simp] theorem State.send_freeFrames (s : State) (o : Out) (k : Nat) : (s.send o).freeFrames k = s.freeFrames k := rfl
@[simp] theorem State.send_framesPerStack (s : State) (o : Out) : (s.send o).framesPerStack = s.framesPerStack := rfl
@[simp] theorem State.send_job (s : State) (o : Out) (m : Nat) : (s.send o).job m = s.job m := rfl
@[simp] theorem State.send_guar (s : State) (o : Out) (a b : Nat) : (s.send o).guar a b = s.guar a b := rfl
@[simp] theorem State.send_extById (s : State) (o : Out) (e : Nat) : (s.send o).extById e = s.extById e := rfl
@[simp] theorem State.send_extOfSack (s : State) (o : Out) (k : Nat) : (s.send o).extOfSack k = s.extOfSack k := rfl
@[simp] theorem State.send_xferOf (s : State) (o : Out) (k : Nat) : (s.send o).xferOf k = s.xferOf k := rfl
@[simp] theorem State.send_openEnt (s : State) (o : Out) (b : Nat) : (s.send o).openEnt b = s.openEnt b := rfl
@[simp] theorem State.send_tagOf (s : State) (o : Out) (k n : Nat) : (s.send o).tagOf k n = s.tagOf k n := rfl
@[simp] theorem State.send_wantsRun (s : State) (o : Out) (k : Nat) : (s.send o).wantsRun k = s.wantsRun k := rfl
@[simp] theorem State.send_ldOn (s : State) (o : Out) (k : Nat) : (s.send o).ldOn k = s.ldOn k := rfl

end Sys2Proof.Machine
end

