-- ==== Sys2Proof/Laws/Mailbox.lean ====
section
/-! SUPPORT. What the shared operations of mailbox commands and of go lines do, each in one lemma. -/
namespace Sys2Proof.Machine

theorem State.answer_success (s : State) (h : MbHdr) (c : Cmd) (fs : List Fld) (b : Bytes) :
    s.answer h c .success fs b = s.replied h c.opcode fs b := by
  simp [State.answer, State.replied, State.countFail]

theorem State.answer_bgStarted (s : State) (h : MbHdr) (c : Cmd) :
    s.answer h c .bgStarted [] [] = (s.noteCmd h.src c.opcode .bgStarted).send (.mailbox h.src c.opcode .bgStarted [] []) := by
  simp [State.answer, State.countFail]

/-- An immediate command that is taken and passes its own rules. -/
theorem State.mbRun_takes {s : State} {h : MbHdr} {c : Cmd} {body : MbBody} {r : MbOk} (ht : s.takes h c) (hb : body s = .ok r) :
    s.mbRun h c body = r.s.replied h c.opcode r.fields r.blob := by
  simp [State.mbRun, ht.1, ht.2, hb, State.answer_success]

/-- Everything an immediate command can do: nothing, an answer with a failure code, or its own effect and Success. -/
theorem State.mbRun_cases (s : State) (h : MbHdr) (c : Cmd) (body : MbBody) :
    (s.rings h.src = false ∧ s.mbRun h c body = s) ∨
    (∃ code, s.mbRun h c body = s.answer h c code [] [] ∧ (s.mbCheck h c = some code ∨ s.mbCheck h c = none ∧ body s = .error code)) ∨
    (∃ r, s.takes h c ∧ body s = .ok r ∧ s.mbRun h c body = r.s.replied h c.opcode r.fields r.blob) := by
  cases hr : s.rings h.src with
  | false => exact .inl ⟨rfl, by simp [State.mbRun, hr]⟩
  | true =>
    cases hc : s.mbCheck h c with
    | some code => exact .inr (.inl ⟨code, by simp [State.mbRun, hr, hc], .inl rfl⟩)
    | none =>
      cases hb : body s with
      | error code => exact .inr (.inl ⟨code, by simp [State.mbRun, hr, hc, hb], .inr ⟨rfl, rfl⟩⟩)
      | ok r => exact .inr (.inr ⟨r, ⟨hr, hc⟩, rfl, State.mbRun_takes ⟨hr, hc⟩ hb⟩)

/-- A background command that is taken and passes its immediate part. -/
theorem State.mbBg_takes {s v : State} {h : MbHdr} {c : Cmd} {cmd : Instr} {body : State → Except Rc State}
    (ht : s.takes h { c with bg := true }) (hb : body s = .ok v) (hn : v.now = s.now) : s.mbBg h c cmd body = v.begun h c.opcode cmd := by
  simp [State.mbBg, ht.1, ht.2, hb, State.answer_bgStarted, State.begun, hn]

/-- An output request from the beginning, for records. -/
theorem State.mbSnap_recs {s : State} {h : MbHdr} {c : Cmd} {o : OutReq} {n : Nat} {recs : List (List Fld)}
    {take : State → Except Rc (Bytes × List (List Fld))} (ht : s.takes h c) (ho : o.first = 0) (hn : n ≠ 0) (hk : take s = .ok ([], recs)) :
    s.mbSnap h c o n take = s.repliedRecs h c.opcode n o recs := by
  simp [State.mbSnap, State.mbRun, ht.1, ht.2, ho, hk, hn, State.answer_success, State.repliedRecs, State.snapped]

/-- An output request from the beginning, for an image. -/
theorem State.mbSnap_bytes {s : State} {h : MbHdr} {c : Cmd} {o : OutReq} {bytes : Bytes}
    {take : State → Except Rc (Bytes × List (List Fld))} (ht : s.takes h c) (ho : o.first = 0) (hk : take s = .ok (bytes, [])) :
    s.mbSnap h c o 0 take = s.repliedBytes h c.opcode o bytes := by
  simp [State.mbSnap, State.mbRun, ht.1, ht.2, ho, hk, State.answer_success, State.repliedBytes, State.snapped]

/-- The whole image of a background command. -/
theorem State.mbPartsBg_takes {s v w : State} {h : MbHdr} {c : Cmd} {p : Part} {cmd : Bytes → Instr} {img : Bytes}
    {check : Bytes → State → Except Rc State} (ht : s.takes h { c with bg := p.final, len := [], lenFrom := some 32 })
    (hlen : h.len = c.partHead + p.data.length)
    (hp : s.takePart h.src c.opcode p = .whole v img) (hl : img.length = p.total) (hc : check img v = .ok w) (hn : w.now = s.now) :
    s.mbPartsBg h c p cmd check = w.begun h c.opcode (cmd img) := by
  simp [State.mbPartsBg, ht.1, ht.2, hlen, hp, hl, hc, State.answer_bgStarted, State.begun, hn]

/-- The whole image of an immediate command. -/
theorem State.mbParts_takes {s v : State} {h : MbHdr} {c : Cmd} {p : Part} {img : Bytes} {check : Bytes → MbBody} {r : MbOk}
    (ht : s.takes h { c with len := [], lenFrom := some 32 }) (hlen : h.len = c.partHead + p.data.length)
    (hp : s.takePart h.src c.opcode p = .whole v img) (hl : img.length = p.total)
    (hc : check img v = .ok r) : s.mbParts h c p check = r.s.replied h c.opcode r.fields r.blob := by
  simp [State.mbParts, ht.1, ht.2, hlen, hp, hl, hc, State.answer_success]

/-- A whole image leaves the state but for the parts kept. -/
theorem State.takePart_whole_now {s v : State} {src opcode : Nat} {p : Part} {img : Bytes} (h : s.takePart src opcode p = .whole v img) :
    v.now = s.now ∧ v.sent = s.sent ∧ v.pending = s.pending := by
  unfold State.takePart at h
  dsimp only at h
  split at h
  · exact absurd h (by simp)
  · split at h
    · split at h <;> split at h <;> (obtain ⟨h1, -⟩ := PartOutcome.whole.inj h; rw [← h1]; exact ⟨rfl, rfl, rfl⟩)
    · exact absurd h (by simp)

/-- A packet that is heard is acted on. -/
theorem State.onPeer_heard {s u : State} {p : PeerHdr} {ptype : Nat} {f : State → State} (h : s.heard p ptype u) : s.onPeer p ptype f = f u := by
  obtain ⟨h1, h2, h3, h4, rfl⟩ := h
  unfold State.onPeer
  have hp : ¬ ((p.port ≠ 4 ∧ p.port ≠ 5) ∨ ¬ s.carries p.port) := fun h => h.elim (fun h => h1.elim h.1 h.2) fun h => h h2
  rw [if_neg hp]
  dsimp only
  rw [if_neg (by simp [h3, h4])]

/-- A go line that passes every check. -/
theorem State.runGo_passes {s u : State} {g : GoWrite} {opcode cls handle : Nat} {hasObj : Bool} {check : GoCheck}
    {begin_ : State → Nat → GateOp → State} {b : Nat} {o : GateOp} (hp : GoPasses s g opcode cls handle hasObj check b u o) :
    s.runGo g opcode cls handle hasObj check begin_ = begin_ u b o := by
  obtain ⟨v, p, aux, h1, h2, h3, h4, h5, h6, rfl, rfl⟩ := hp
  simp only [State.runGo, h1, h2, h3, h4, h5, h6]
  simp <;> congr 1

/-- The oldest operation of a sequence begins as soon as it is queued. -/
theorem State.queueSeq_turn {u w : State} {b : Nat} {o : GateOp} {q : KvSeq} (h : u.turnCome b o q w) :
    u.queueSeq b o = ((u.useStream (bufLd b) (kvStream (bufLd b) o.obj) o.wclass 0).startOp b).startSeqOps (bufLd b) o.obj 128 := by
  obtain ⟨h1, h2, h3, -, -⟩ := h
  show State.startSeqOps _ _ _ (128 + 1) = _
  rw [State.startSeqOps, h1]
  dsimp only
  rw [h2]
  simp only [h3]
  rfl

end Sys2Proof.Machine
end

