-- ==== Sys2Proof/Laws/Table.lean ====
section
/-! SUPPORT. Tables read back what was written, and every operation keeps their canonical form. -/
namespace Sys2Proof.Machine

variable {α : Type}

theorem cellsWf_weaken [DecidableEq α] {d : α} {lo : Option Nat} {l : List (Nat × α)} (h : cellsWf d lo l = true) : cellsWf d none l = true := by
  cases l with
  | nil => rfl
  | cons c l => simp only [cellsWf, Bool.and_eq_true, Bool.true_and] at h ⊢; exact ⟨h.1.2, h.2⟩

theorem cellsWf_lower [DecidableEq α] {d : α} {a b : Nat} {l : List (Nat × α)} (hab : a < b) (h : cellsWf d (some b) l = true) :
    cellsWf d (some a) l = true := by
  cases l with
  | nil => rfl
  | cons c l =>
    simp only [cellsWf, Bool.and_eq_true, decide_eq_true_eq] at h ⊢
    exact ⟨⟨by omega, h.1.2⟩, h.2⟩

theorem cellsWf_cons [DecidableEq α] {d : α} {lo : Option Nat} {k : Nat} {v : α} {l : List (Nat × α)} :
    cellsWf d lo ((k, v) :: l) = true ↔ (∀ n, lo = some n → n < k) ∧ v ≠ d ∧ cellsWf d (some k) l = true := by
  cases lo <;> simp [cellsWf, and_assoc]

/-- A bound of a suffix bounds its keys. -/
theorem cellGet_below [DecidableEq α] {d : α} {k : Nat} {l : List (Nat × α)} (h : cellsWf d (some k) l = true) {j : Nat} (hj : j ≤ k) :
    cellGet d j l = d := by
  induction l generalizing k with
  | nil => rfl
  | cons c l ih =>
    obtain ⟨a, b⟩ := c
    rw [cellsWf_cons] at h
    have := h.1 k rfl
    simp only [cellGet]
    rw [if_neg (by omega)]
    exact ih h.2.2 (by omega)

theorem cellsWf_del [DecidableEq α] {d : α} {lo : Option Nat} {l : List (Nat × α)} (k : Nat) (h : cellsWf d lo l = true) :
    cellsWf d lo (cellDel k l) = true := by
  induction l generalizing lo with
  | nil => exact h
  | cons c l ih =>
    obtain ⟨a, b⟩ := c
    rw [cellsWf_cons] at h
    simp only [cellDel]
    split
    · cases lo with
      | none => exact cellsWf_weaken h.2.2
      | some n => exact cellsWf_lower (h.1 n rfl) h.2.2
    · exact cellsWf_cons.2 ⟨h.1, h.2.1, ih h.2.2⟩

theorem cellsWf_put [DecidableEq α] {d : α} {lo : Option Nat} {l : List (Nat × α)} {k : Nat} {v : α} (hv : v ≠ d)
    (hk : ∀ n, lo = some n → n < k) (h : cellsWf d lo l = true) : cellsWf d lo (cellPut k v l) = true := by
  induction l generalizing lo with
  | nil => exact cellsWf_cons.2 ⟨hk, hv, rfl⟩
  | cons c l ih =>
    obtain ⟨a, b⟩ := c
    have h' := h
    rw [cellsWf_cons] at h
    simp only [cellPut]
    split
    · exact cellsWf_cons.2 ⟨hk, hv, cellsWf_cons.2 ⟨fun n hn => by cases hn; assumption, h.2.1, h.2.2⟩⟩
    · split
      · rename_i e; subst e; exact cellsWf_cons.2 ⟨hk, hv, h.2.2⟩
      · exact cellsWf_cons.2 ⟨h.1, h.2.1, ih (fun n hn => by cases hn; omega) h.2.2⟩

theorem cellsWf_filter [DecidableEq α] {d : α} {lo : Option Nat} {l : List (Nat × α)} (p : Nat × α → Bool) (h : cellsWf d lo l = true) :
    cellsWf d lo (l.filter p) = true := by
  induction l generalizing lo with
  | nil => exact h
  | cons c l ih =>
    obtain ⟨a, b⟩ := c
    rw [cellsWf_cons] at h
    simp only [List.filter_cons]
    split
    · exact cellsWf_cons.2 ⟨h.1, h.2.1, ih h.2.2⟩
    · have := ih h.2.2
      cases lo with
      | none => exact cellsWf_weaken this
      | some n => exact cellsWf_lower (h.1 n rfl) this

theorem cellGet_put_same {d : α} {l : List (Nat × α)} {k : Nat} {v : α} : cellGet d k (cellPut k v l) = v := by
  induction l with
  | nil => simp [cellPut, cellGet]
  | cons c l ih =>
    obtain ⟨a, b⟩ := c
    simp only [cellPut]
    split
    · simp [cellGet]
    · split
      · simp [cellGet]
      · rename_i h; simp only [cellGet]; rw [if_neg h]; exact ih

theorem cellGet_put_other {d : α} {l : List (Nat × α)} {k j : Nat} {v : α} (h : j ≠ k) : cellGet d j (cellPut k v l) = cellGet d j l := by
  induction l with
  | nil => simp only [cellPut, cellGet]; rw [if_neg fun e => h e.symm]
  | cons c l ih =>
    obtain ⟨a, b⟩ := c
    simp only [cellPut]
    split
    · simp only [cellGet]; rw [if_neg fun e => h e.symm]
    · split
      · rename_i e; subst e; simp only [cellGet]; rw [if_neg fun e => h e.symm, if_neg fun e => h e.symm]
      · simp only [cellGet]; split <;> simp_all

theorem cellGet_del_same [DecidableEq α] {d : α} {lo : Option Nat} {l : List (Nat × α)} {k : Nat} (h : cellsWf d lo l = true) :
    cellGet d k (cellDel k l) = d := by
  induction l generalizing lo with
  | nil => rfl
  | cons c l ih =>
    obtain ⟨a, b⟩ := c
    rw [cellsWf_cons] at h
    simp only [cellDel]
    split
    · rename_i e; subst e; exact cellGet_below h.2.2 (Nat.le_refl _)
    · rename_i e; simp only [cellGet]; rw [if_neg e]; exact ih h.2.2

theorem cellGet_del_other {d : α} {l : List (Nat × α)} {k j : Nat} (h : j ≠ k) : cellGet d j (cellDel k l) = cellGet d j l := by
  induction l with
  | nil => rfl
  | cons c l ih =>
    obtain ⟨a, b⟩ := c
    simp only [cellDel]
    split
    · rename_i e; subst e; simp only [cellGet]; rw [if_neg fun e => h e.symm]
    · simp only [cellGet]; split <;> simp_all

variable [DecidableEq α]

@[simp] theorem Tbl.set_dflt (t : Tbl α) (k : Nat) (v : α) : (t.set k v).dflt = t.dflt := rfl

/-- A table reads back what was written. -/
theorem Tbl.get_set_same {t : Tbl α} (h : t.wf = true) (k : Nat) (v : α) : (t.set k v).get k = v := by
  unfold Tbl.set Tbl.get
  split
  · rename_i e; rw [e]; exact cellGet_del_same h
  · exact cellGet_put_same

/-- A write leaves every other place of a table alone. -/
theorem Tbl.get_set_other (t : Tbl α) {k j : Nat} (h : j ≠ k) (v : α) : (t.set k v).get j = t.get j := by
  unfold Tbl.set Tbl.get
  split
  · exact cellGet_del_other h
  · exact cellGet_put_other h

/-- A write keeps the canonical form. -/
theorem Tbl.wf_set {t : Tbl α} (h : t.wf = true) (k : Nat) (v : α) : (t.set k v).wf = true := by
  unfold Tbl.set Tbl.wf
  split
  · exact cellsWf_del k h
  · exact cellsWf_put (by assumption) (fun n hn => by cases hn) h

theorem Tbl.wf_upd {t : Tbl α} (h : t.wf = true) (k : Nat) (f : α → α) : (t.upd k f).wf = true := Tbl.wf_set h _ _

theorem Tbl.wf_updAll {t : Tbl α} (h : t.wf = true) (ks : List Nat) (f : Nat → α → α) : (t.updAll ks f).wf = true := by
  unfold Tbl.updAll
  induction ks generalizing t with
  | nil => exact h
  | cons k ks ih => exact ih (Tbl.wf_upd h _ _)

theorem Tbl.wf_filter {t : Tbl α} (h : t.wf = true) (p : Nat × α → Bool) : ({ t with cells := t.cells.filter p } : Tbl α).wf = true :=
  cellsWf_filter p h

theorem Tbl.wf_empty (d : α) : ({ dflt := d } : Tbl α).wf = true := rfl

end Sys2Proof.Machine
end

