-- ==== Sys2Proof/Laws/Kept.lean ====
section
/-! SUPPORT. Operations and meanings that leave the stored data, the sweep, the gates and the extents as they were. -/
namespace Sys2Proof.Machine

theorem DataKept.refl (s : State) : DataKept s s := ⟨rfl,rfl,rfl,rfl⟩
theorem DataKept.trans {s u t : State} (h : DataKept s u) (k : DataKept u t) : DataKept s t :=
  ⟨k.store.trans h.store, k.sweep.trans h.sweep, k.gate.trans h.gate, k.ext.trans h.ext⟩
variable {u : State} {now : Nat} {ctr : Nat} {pend : List Instr} {sent : List Out} {phase : Phase} {ready : Bool} {ext : ExtSt} {store : StoreSt} {sweep : SweepSt} {weir : WeirSt} {near : NearSt}
  {deep : DeepSt} {integ : IntegSt} {mbox : MboxSt} {result : ResultSt} {stone : StoneSt} {gate : GateSt} {port : PortSt} {cxe : CxeSt}
  {boot : BootSt} {clock : ClockSt} {health : HealthSt} {power : PowerSt}
theorem DataKept.fields (h6 : store = u.store) (h7 : sweep = u.sweep) (h8 : gate = u.gate) (h4 : ext = u.ext) :
    DataKept u ⟨u.now, phase, ready, ctr, ext, store, sweep, weir, near, deep, integ, mbox, result, stone, gate, port, cxe, boot,
      clock, health, power, sent, pend⟩ := ⟨h6, h7, h8, h4⟩
theorem DataKept.fieldsF (h6 : store = u.store) (h7 : sweep = u.sweep) (h8 : gate = u.gate) (h4 : ext = u.ext) :
    DataKept u ⟨now, phase, ready, u.freeCtr + 1, ext, store, sweep, weir, near, deep, integ, mbox, result, stone, gate, port, cxe, boot,
      clock, health, power, sent, pend⟩ := ⟨h6, h7, h8, h4⟩
theorem State.modBoot_keeps (s : State) (f : BootSt → BootSt) : DataKept s (s.modBoot f) := ⟨rfl,rfl,rfl,rfl⟩
theorem DataKept.ite {s a b : State} {c : Prop} [Decidable c] (h : DataKept s a) (k : DataKept s b) : DataKept s (if c then a else b) := by
  split <;> assumption
theorem DataKept.iteP {α : Type} {s : State} {a b : α × State} {c : Prop} [Decidable c] (h : DataKept s a.2) (k : DataKept s b.2) : DataKept s (if c then a else b).2 := by
  split <;> assumption
theorem DataKept.foldl {α : Type} {s u : State} {g : State → α → State} {l : List α} (h : DataKept s u) (k : ∀ v x, DataKept v (g v x)) :
    DataKept s (l.foldl g u) := by
  induction l generalizing u with
  | nil => exact h
  | cons x l ih => exact ih (h.trans (k _ _))
theorem DataKept.snd {α : Type} {s v : State} {p : α × State} {a : α} (h : p = (a, v)) (k : DataKept s p.2) : DataKept s v := by
  subst h; exact k
theorem DataKept.snd3 {α β : Type} {s v : State} {p : α × β × State} {a : α} {b : β} (h : p = (a, b, v)) (k : DataKept s p.2.2) : DataKept s v := by
  subst h; exact k
theorem DataKept.optSome {α : Type} {s : State} {r : α × State} (h : DataKept s r.2) : ∀ q, some r = some q → DataKept s q.2 := fun q hq => by
  cases hq; exact h
theorem DataKept.optNone {α : Type} {s : State} : ∀ q : α × State, none = some q → DataKept s q.2 := fun q hq => by cases hq
theorem DataKept.optIte {α : Type} {s : State} {c : Prop} [Decidable c] {a b : Option (α × State)} (h : ∀ q, a = some q → DataKept s q.2) (k : ∀ q, b = some q → DataKept s q.2) :
    ∀ q, (if c then a else b) = some q → DataKept s q.2 := by split <;> assumption
theorem DataKept.some1 {s r : State} (h : DataKept s r) : ∀ q, some r = some q → DataKept s q := fun q hq => by cases hq; exact h
theorem DataKept.none1 {s : State} : ∀ q : State, none = some q → DataKept s q := fun q hq => by cases hq
theorem DataKept.ite1 {s : State} {c : Prop} [Decidable c] {a b : Option State} (h : ∀ q, a = some q → DataKept s q) (k : ∀ q, b = some q → DataKept s q) :
    ∀ q, (if c then a else b) = some q → DataKept s q := by split <;> assumption
theorem DataKept.okOk {s : State} {r : MbOk} (h : DataKept s r.s) : ∀ q : MbOk, Except.ok (ε := Rc) r = .ok q → DataKept s q.s := fun q hq => by cases hq; exact h
theorem DataKept.okErr {s : State} {e : Rc} : ∀ q : MbOk, Except.error (ε := Rc) e = .ok q → DataKept s q.s := fun q hq => by cases hq
theorem DataKept.okIte {s : State} {c : Prop} [Decidable c] {a b : Except Rc MbOk} (h : ∀ q, a = .ok q → DataKept s q.s) (k : ∀ q, b = .ok q → DataKept s q.s) :
    ∀ q, (if c then a else b) = .ok q → DataKept s q.s := by split <;> assumption
theorem DataKept.exOk {s r : State} (h : DataKept s r) : ∀ q : State, Except.ok (ε := Rc) r = .ok q → DataKept s q := fun q hq => by cases hq; exact h
theorem DataKept.exErr {s : State} {e : Rc} : ∀ q : State, Except.error (ε := Rc) e = .ok q → DataKept s q := fun q hq => by cases hq
theorem DataKept.exIte {s : State} {c : Prop} [Decidable c] {a b : Except Rc State} (h : ∀ q, a = .ok q → DataKept s q) (k : ∀ q, b = .ok q → DataKept s q) :
    ∀ q, (if c then a else b) = .ok q → DataKept s q := by split <;> assumption
theorem DataKept.nx {s r : State} (h : DataKept s r) : ∀ q : State, (Host.Outcome.next r : Res) = .next q → DataKept s q := fun q hq => by cases hq; exact h
theorem DataKept.nxIte {s : State} {c : Prop} [Decidable c] {a b : Res} (h : ∀ q, a = .next q → DataKept s q) (k : ∀ q, b = .next q → DataKept s q) :
    ∀ q, (if c then a else b) = .next q → DataKept s q := by split <;> assumption
theorem DataKept.getD {s d : State} {o : Option State} (h : ∀ v, o = some v → DataKept s v) (k : DataKept s d) : DataKept s (o.getD d) := by
  cases o with
  | none => exact k
  | some v => exact h v rfl
theorem DataKept.fst3 {α β : Type} {s v : State} {p : State × α × β} {a : α} {b : β} (h : p = (v, a, b)) (k : DataKept s p.1) : DataKept s v := by
  subst h; exact k


theorem State.at__keeps (s : State) (t : Nat) : DataKept s (s.at_ t) :=
  ⟨rfl, rfl, rfl, rfl⟩

theorem State.send_keeps (s : State) (o : Out) : DataKept s (s.send o) :=
  ⟨rfl, rfl, rfl, rfl⟩

theorem State.sendAll_keeps (s : State) (os : List Out) : DataKept s (State.sendAll s os) := by
  unfold State.sendAll
  refine DataKept.foldl ?_ (fun s x => ?_)
  exact DataKept.refl _
  refine DataKept.trans ?_ (State.send_keeps ..)
  exact DataKept.refl _

theorem State.free_keeps (s : State) : DataKept s s.free.2 :=
  ⟨rfl, rfl, rfl, rfl⟩

theorem State.signal_keeps (s : State) (m v : Nat) : DataKept s (State.signal s m v) := by
  unfold State.signal
  refine DataKept.ite ?_ ?_
  refine DataKept.trans ?_ (State.send_keeps ..)
  exact DataKept.refl _
  with_reducible refine DataKept.trans ?_ (DataKept.fields rfl rfl rfl rfl)
  exact DataKept.refl _

theorem State.post_keeps (s : State) (m log : Nat) (e : Event) : DataKept s (State.post s m log e) := by
  unfold State.post
  extract_lets +onlyGivenNames q1
  extract_lets +onlyGivenNames q2
  extract_lets +onlyGivenNames q3
  refine DataKept.ite ?_ ?_
  extract_lets +onlyGivenNames q4
  extract_lets +onlyGivenNames q5
  refine DataKept.ite ?_ ?_
  refine DataKept.trans ?_ (State.signal_keeps ..)
  with_reducible refine DataKept.trans ?_ (DataKept.fields rfl rfl rfl rfl)
  exact DataKept.refl _
  with_reducible refine DataKept.trans ?_ (DataKept.fields rfl rfl rfl rfl)
  exact DataKept.refl _
  extract_lets +onlyGivenNames q6
  with_reducible refine DataKept.trans ?_ (DataKept.fields rfl rfl rfl rfl)
  exact DataKept.refl _

theorem State.postAll_keeps (s : State) (ps : List Post) : DataKept s (State.postAll s ps) := by
  unfold State.postAll
  refine DataKept.foldl ?_ (fun s x => ?_)
  exact DataKept.refl _
  refine DataKept.trans ?_ (State.post_keeps ..)
  exact DataKept.refl _

theorem State.ledger_keeps (s : State) (r : LedgerRec) (posts : List Post) (outs : List Out) (job : Option (Nat × Rc × Nat)) : DataKept s (State.ledger s r posts outs job) := by
  unfold State.ledger
  extract_lets +onlyGivenNames q1
  extract_lets +onlyGivenNames q2
  extract_lets +onlyGivenNames q3
  refine DataKept.ite ?_ ?_
  refine DataKept.trans ?_ (State.sendAll_keeps ..)
  refine DataKept.trans ?_ (State.postAll_keeps ..)
  with_reducible refine DataKept.trans ?_ (DataKept.fields rfl rfl rfl rfl)
  exact DataKept.refl _
  with_reducible refine DataKept.trans ?_ (DataKept.fields rfl rfl rfl rfl)
  exact DataKept.refl _

theorem State.countFail_keeps (s : State) (src : Nat) (vendor : Bool) (code : Rc) : DataKept s (State.countFail s src vendor code) := by
  unfold State.countFail
  refine DataKept.ite ?_ ?_
  with_reducible refine DataKept.trans ?_ (DataKept.fields rfl rfl rfl rfl)
  exact DataKept.refl _
  exact DataKept.refl _

theorem State.noteCmd_keeps (s : State) (src opcode : Nat) (code : Rc) : DataKept s (State.noteCmd s src opcode code) := by
  unfold State.noteCmd
  with_reducible refine DataKept.trans ?_ (DataKept.fields rfl rfl rfl rfl)
  exact DataKept.refl _

theorem State.answer_keeps (s : State) (h : MbHdr) (c : Cmd) (code : Rc) (fields : List Fld) (blob : Bytes) : DataKept s (State.answer s h c code fields blob) := by
  unfold State.answer
  refine DataKept.trans ?_ (State.send_keeps ..)
  refine DataKept.trans ?_ (State.noteCmd_keeps ..)
  refine DataKept.trans ?_ (State.countFail_keeps ..)
  exact DataKept.refl _

theorem State.mbRun_keeps (s : State) (h : MbHdr) (c : Cmd) (body : MbBody) (hb : ∀ r, body s = .ok r → DataKept s r.s) : DataKept s (s.mbRun h c body) := by
  unfold State.mbRun
  split
  · exact DataKept.refl _
  · split
    · exact State.answer_keeps ..
    · split
      · exact DataKept.trans (hb _ (by assumption)) (State.answer_keeps ..)
      · exact State.answer_keeps ..

theorem State.mbBg_keeps (s : State) (h : MbHdr) (c : Cmd) (cmd : Instr) (body : State → Except Rc State)
    (hb : ∀ v, body s = .ok v → DataKept s v) : DataKept s (s.mbBg h c cmd body) := by
  unfold State.mbBg
  split
  · exact DataKept.refl _
  · split
    · exact State.answer_keeps ..
    · split
      · refine DataKept.trans (hb _ (by assumption)) (DataKept.trans ?_ (State.answer_keeps ..))
        exact ⟨rfl, rfl, rfl, rfl⟩
      · exact State.answer_keeps ..

theorem State.endJob_keeps (s : State) (src : Nat) (code : Rc) (vses : Nat) : DataKept s (State.endJob s src code vses) := by
  unfold State.endJob
  split
  exact DataKept.refl _
  extract_lets +onlyGivenNames q1
  extract_lets +onlyGivenNames q2
  refine DataKept.trans ?_ (State.signal_keeps ..)
  refine DataKept.trans ?_ (State.send_keeps ..)
  refine DataKept.trans ?_ (State.countFail_keeps ..)
  with_reducible refine DataKept.trans ?_ (DataKept.fields rfl rfl rfl rfl)
  exact DataKept.refl _

theorem State.takePart_keeps (s : State) (src opcode : Nat) (p : Part) :
    (∀ v, s.takePart src opcode p = .held v → DataKept s v) ∧ ∀ v img, s.takePart src opcode p = .whole v img → DataKept s v := by
  unfold State.takePart
  dsimp only
  refine ⟨fun v h => ?_, fun v img h => ?_⟩
  · split at h
    · exact absurd h (by simp)
    · split at h
      · split at h <;> split at h <;> exact absurd h (by simp)
      · injection h with h1; rw [← h1]; exact ⟨rfl, rfl, rfl, rfl⟩
  · split at h
    · exact absurd h (by simp)
    · split at h
      · split at h <;> split at h <;> (obtain ⟨h1, -⟩ := PartOutcome.whole.inj h; rw [← h1]; exact ⟨rfl, rfl, rfl, rfl⟩)
      · exact absurd h (by simp)

theorem State.mbPartsBg_keeps (s : State) (h : MbHdr) (c : Cmd) (p : Part) (cmd : Bytes → Instr) (check : Bytes → State → Except Rc State)
    (hb : ∀ v img r, check img v = .ok r → DataKept v r) : DataKept s (s.mbPartsBg h c p cmd check) := by
  unfold State.mbPartsBg
  split
  · exact DataKept.refl _
  · split
    · exact State.answer_keeps ..
    · split
      · exact State.answer_keeps ..
      · split
        · exact State.answer_keeps ..
        · exact DataKept.trans ((State.takePart_keeps ..).1 _ (by assumption)) (State.answer_keeps ..)
        · refine DataKept.trans ((State.takePart_keeps ..).2 _ _ (by assumption)) ?_
          split
          · split
            · refine DataKept.trans (hb _ _ _ (by assumption)) (DataKept.trans ?_ (State.answer_keeps ..))
              exact ⟨rfl, rfl, rfl, rfl⟩
            · exact State.answer_keeps ..
          · exact State.answer_keeps ..

theorem State.mbSnap_keeps (s : State) (h : MbHdr) (c : Cmd) (o : OutReq) (recLen : Nat)
    (take : State → Except Rc (Bytes × List (List Fld))) : DataKept s (s.mbSnap h c o recLen take) := by
  refine State.mbRun_keeps _ _ _ _ fun r hr => ?_
  dsimp only at hr
  generalize (if o.first = 0 then take s else _ : Except Rc (Bytes × List (List Fld))) = x at hr
  rcases x with e | ⟨bytes, recs⟩
  · exact absurd hr (by simp)
  · dsimp only at hr
    split at hr <;> (injection hr with h1; rw [← h1]; exact ⟨rfl, rfl, rfl, rfl⟩)

theorem State.modWeir_keeps (s : State) (f : WeirSt → WeirSt) : DataKept s (State.modWeir s f) := by
  unfold State.modWeir
  with_reducible refine DataKept.trans ?_ (DataKept.fields rfl rfl rfl rfl)
  exact DataKept.refl _

theorem State.setGuar_keeps (s : State) (ld r : Nat) (g : Guar) : DataKept s (State.setGuar s ld r g) := by
  unfold State.setGuar
  refine DataKept.trans ?_ (State.modWeir_keeps ..)
  exact DataKept.refl _

theorem State.recompute_keeps (s : State) (r : Nat) (was : Bool) : DataKept s (State.recompute s r was) := by
  unfold State.recompute
  extract_lets +onlyGivenNames q1
  extract_lets +onlyGivenNames q2
  extract_lets +onlyGivenNames q3
  extract_lets +onlyGivenNames q4
  refine DataKept.ite ?_ ?_
  extract_lets +onlyGivenNames q5
  extract_lets +onlyGivenNames q6
  refine DataKept.trans ?_ (State.post_keeps ..)
  refine DataKept.foldl ?_ (fun s x => ?_)
  refine DataKept.trans ?_ (State.modWeir_keeps ..)
  refine DataKept.foldl ?_ (fun s x => ?_)
  exact DataKept.refl _
  extract_lets +onlyGivenNames q7
  extract_lets +onlyGivenNames q8
  refine DataKept.trans ?_ (State.setGuar_keeps ..)
  exact DataKept.refl _
  refine DataKept.trans ?_ (State.post_keeps ..)
  exact DataKept.refl _
  refine DataKept.trans ?_ (State.modWeir_keeps ..)
  refine DataKept.foldl ?_ (fun s x => ?_)
  exact DataKept.refl _
  extract_lets +onlyGivenNames q9
  extract_lets +onlyGivenNames q10
  refine DataKept.trans ?_ (State.setGuar_keeps ..)
  exact DataKept.refl _

theorem State.noteCap_keeps (s : State) (r : Nat) : DataKept s (State.noteCap s r) := by
  unfold State.noteCap
  extract_lets +onlyGivenNames q1
  extract_lets +onlyGivenNames q2
  refine DataKept.trans ?_ (State.modWeir_keeps ..)
  exact DataKept.refl _

theorem State.caps_keeps (s : State) : DataKept s (State.caps s) := by
  unfold State.caps
  refine DataKept.foldl ?_ (fun s x => ?_)
  exact DataKept.refl _
  refine DataKept.trans ?_ (State.noteCap_keeps ..)
  exact DataKept.refl _

theorem State.noteServed_keeps (s : State) (cls r amount : Nat) : DataKept s (State.noteServed s cls r amount) := by
  unfold State.noteServed
  refine DataKept.trans ?_ (State.modWeir_keeps ..)
  exact DataKept.refl _

theorem State.missed_keeps (s : State) (ld r cls lat : Nat) : DataKept s (State.missed s ld r cls lat) := by
  unfold State.missed
  extract_lets +onlyGivenNames q1
  extract_lets +onlyGivenNames q2
  extract_lets +onlyGivenNames q3
  extract_lets +onlyGivenNames q4
  refine DataKept.ite ?_ ?_
  extract_lets +onlyGivenNames q5
  refine DataKept.trans ?_ (State.post_keeps ..)
  refine DataKept.trans ?_ (State.post_keeps ..)
  refine DataKept.trans ?_ (State.modWeir_keeps ..)
  exact DataKept.refl _
  refine DataKept.trans ?_ (State.modWeir_keeps ..)
  exact DataKept.refl _

theorem State.serveAs_keeps (s : State) (was : Bool) (ld r cls amount lat : Nat) (wheel : Option Nat) : DataKept s (State.serveAs s was ld r cls amount lat wheel) := by
  unfold State.serveAs
  extract_lets +onlyGivenNames q1
  extract_lets +onlyGivenNames q2
  extract_lets +onlyGivenNames q3
  extract_lets +onlyGivenNames q4
  extract_lets +onlyGivenNames q5
  extract_lets +onlyGivenNames q6
  extract_lets +onlyGivenNames q7
  extract_lets +onlyGivenNames q8
  extract_lets +onlyGivenNames q9
  extract_lets +onlyGivenNames q10
  refine DataKept.ite ?_ ?_
  refine DataKept.trans ?_ (State.missed_keeps ..)
  refine DataKept.ite ?_ ?_
  refine DataKept.trans ?_ (State.modWeir_keeps ..)
  refine DataKept.trans ?_ (State.noteServed_keeps ..)
  refine DataKept.ite ?_ ?_
  refine DataKept.trans ?_ (State.setGuar_keeps ..)
  exact DataKept.refl _
  exact DataKept.refl _
  refine DataKept.trans ?_ (State.noteServed_keeps ..)
  refine DataKept.ite ?_ ?_
  refine DataKept.trans ?_ (State.setGuar_keeps ..)
  exact DataKept.refl _
  exact DataKept.refl _
  refine DataKept.ite ?_ ?_
  refine DataKept.trans ?_ (State.modWeir_keeps ..)
  refine DataKept.trans ?_ (State.noteServed_keeps ..)
  refine DataKept.ite ?_ ?_
  refine DataKept.trans ?_ (State.setGuar_keeps ..)
  exact DataKept.refl _
  exact DataKept.refl _
  refine DataKept.trans ?_ (State.noteServed_keeps ..)
  refine DataKept.ite ?_ ?_
  refine DataKept.trans ?_ (State.setGuar_keeps ..)
  exact DataKept.refl _
  exact DataKept.refl _

theorem State.latchWindow_keeps (s : State) : DataKept s (State.latchWindow s) := by
  unfold State.latchWindow
  refine DataKept.trans ?_ (State.modWeir_keeps ..)
  exact DataKept.refl _

theorem State.moduleEvent_keeps (s : State) (m kind : Nat) : DataKept s (State.moduleEvent s m kind) := by
  unfold State.moduleEvent
  refine DataKept.trans ?_ (State.post_keeps ..)
  exact DataKept.refl _

theorem State.noteVitals_keeps (s s0 : State) : DataKept s (State.noteVitals s s0) := by
  unfold State.noteVitals
  refine DataKept.ite ?_ ?_
  exact DataKept.refl _
  extract_lets +onlyGivenNames q1
  refine DataKept.foldl ?_ (fun s x => ?_)
  exact DataKept.refl _
  refine DataKept.trans ?_ (State.moduleEvent_keeps ..)
  exact DataKept.refl _

theorem State.refill_keeps (s : State) : DataKept s (State.refill s) := by
  unfold State.refill
  with_reducible refine DataKept.trans ?_ (DataKept.fields rfl rfl rfl rfl)
  exact DataKept.refl _

theorem State.modInteg_keeps (s : State) (f : IntegSt → IntegSt) : DataKept s (State.modInteg s f) := by
  unfold State.modInteg
  with_reducible refine DataKept.trans ?_ (DataKept.fields rfl rfl rfl rfl)
  exact DataKept.refl _

theorem State.modIntegLd_keeps (s : State) (ld : Nat) (f : IntegLd → IntegLd) : DataKept s (State.modIntegLd s ld f) := by
  unfold State.modIntegLd
  refine DataKept.trans ?_ (State.modInteg_keeps ..)
  exact DataKept.refl _

theorem State.lossPosts_keeps (s : State) (r : UeRec) : DataKept s (State.lossPosts s r).2 := by
  unfold State.lossPosts
  extract_lets +onlyGivenNames q1
  refine DataKept.iteP ?_ ?_
  exact DataKept.refl _
  extract_lets +onlyGivenNames q2
  extract_lets +onlyGivenNames q3
  extract_lets +onlyGivenNames q4
  extract_lets +onlyGivenNames q5
  extract_lets +onlyGivenNames q6
  dsimp only
  refine DataKept.trans ?_ (State.modIntegLd_keeps ..)
  exact DataKept.refl _

theorem State.ueLog_keeps (s : State) (unit loc access outcome ld dpa : Nat) : DataKept s (State.ueLog s unit loc access outcome ld dpa) := by
  unfold State.ueLog
  extract_lets +onlyGivenNames q1
  extract_lets +onlyGivenNames q2
  split
  refine DataKept.trans ?_ (State.ledger_keeps ..)
  refine DataKept.snd (by assumption) ?_
  refine DataKept.iteP ?_ ?_
  refine DataKept.trans ?_ (State.lossPosts_keeps ..)
  refine DataKept.trans ?_ (State.modInteg_keeps ..)
  exact DataKept.refl _
  dsimp only
  refine DataKept.trans ?_ (State.modInteg_keeps ..)
  exact DataKept.refl _

theorem State.modStack_keeps (s : State) (k : Nat) (f : Stack → Stack) : DataKept s (State.modStack s k f) := by
  unfold State.modStack
  with_reducible refine DataKept.trans ?_ (DataKept.fields rfl rfl rfl rfl)
  exact DataKept.refl _

theorem State.modNear_keeps (s : State) (f : NearSt → NearSt) : DataKept s (State.modNear s f) := by
  unfold State.modNear
  with_reducible refine DataKept.trans ?_ (DataKept.fields rfl rfl rfl rfl)
  exact DataKept.refl _

theorem State.turnStack_keeps (s : State) (p k : Nat) : DataKept s (State.turnStack s p k) := by
  unfold State.turnStack
  extract_lets +onlyGivenNames q1
  refine DataKept.ite ?_ ?_
  exact DataKept.refl _
  refine DataKept.ite ?_ ?_
  refine DataKept.trans ?_ (State.modStack_keeps ..)
  exact DataKept.refl _
  refine DataKept.trans ?_ (State.modStack_keeps ..)
  exact DataKept.refl _

theorem State.pumpPoint_keeps (s : State) (y0 : Nat) : DataKept s (State.pumpPoint s y0) := by
  induction y0 generalizing s with
  | zero =>
    unfold State.pumpPoint
    exact DataKept.refl _
  | succ n ih =>
    unfold State.pumpPoint
    split
    refine DataKept.ite ?_ ?_
    exact DataKept.refl _
    refine DataKept.ite ?_ ?_
    extract_lets +onlyGivenNames q1
    refine DataKept.trans ?_ (ih ..)
    refine DataKept.foldl ?_ (fun s x => ?_)
    refine DataKept.trans ?_ (State.modNear_keeps ..)
    exact DataKept.refl _
    refine DataKept.trans ?_ (State.turnStack_keeps ..)
    exact DataKept.refl _
    refine DataKept.trans ?_ (ih ..)
    refine DataKept.trans ?_ (State.caps_keeps ..)
    refine DataKept.trans ?_ (State.modNear_keeps ..)
    exact DataKept.refl _
    split
    refine DataKept.ite ?_ ?_
    refine DataKept.trans ?_ (State.modNear_keeps ..)
    exact DataKept.refl _
    extract_lets +onlyGivenNames q2
    refine DataKept.trans ?_ (ih ..)
    refine DataKept.foldl ?_ (fun s x => ?_)
    refine DataKept.trans ?_ (State.caps_keeps ..)
    refine DataKept.trans ?_ (State.modNear_keeps ..)
    exact DataKept.refl _
    refine DataKept.trans ?_ (State.turnStack_keeps ..)
    exact DataKept.refl _
    exact DataKept.refl _

theorem State.pumpNear_keeps (s : State) : DataKept s (State.pumpNear s) := by
  unfold State.pumpNear
  refine DataKept.trans ?_ (State.pumpPoint_keeps ..)
  exact DataKept.refl _

theorem State.askPoint_keeps (s : State) (p : Nat) : DataKept s (State.askPoint s p) := by
  unfold State.askPoint
  refine DataKept.trans ?_ (State.pumpNear_keeps ..)
  refine DataKept.trans ?_ (State.modNear_keeps ..)
  exact DataKept.refl _

theorem State.journal_keeps (s : State) (n : Nat) : DataKept s (State.journal s n) := by
  unfold State.journal
  with_reducible refine DataKept.trans ?_ (DataKept.fields rfl rfl rfl rfl)
  exact DataKept.refl _

theorem State.hubFails_keeps (s : State) : DataKept s (State.hubFails s) := by
  unfold State.hubFails
  with_reducible refine DataKept.trans ?_ (DataKept.fields rfl rfl rfl rfl)
  exact DataKept.refl _

theorem execHubDieFailure_keeps (t : Nat) (s : State) : ∀ v : State, execHubDieFailure t s = .next v → DataKept s v := by
  unfold execHubDieFailure
  refine DataKept.nx ?_
  refine DataKept.trans ?_ (State.hubFails_keeps ..)
  refine DataKept.trans ?_ (State.at__keeps ..)
  exact DataKept.refl _

theorem State.modCxe_keeps (s : State) (f : CxeSt → CxeSt) : DataKept s (State.modCxe s f) := by
  unfold State.modCxe
  with_reducible refine DataKept.trans ?_ (DataKept.fields rfl rfl rfl rfl)
  exact DataKept.refl _

theorem State.modCxeLd_keeps (s : State) (ld : Nat) (f : CxeLd → CxeLd) : DataKept s (State.modCxeLd s ld f) := by
  unfold State.modCxeLd
  refine DataKept.trans ?_ (State.modCxe_keeps ..)
  exact DataKept.refl _

theorem State.aerCor_keeps (s : State) (ld bit : Nat) : DataKept s (State.aerCor s ld bit) := by
  unfold State.aerCor
  extract_lets +onlyGivenNames q1
  extract_lets +onlyGivenNames q2
  refine DataKept.ite ?_ ?_
  refine DataKept.trans ?_ (State.modCxeLd_keeps ..)
  exact DataKept.refl _
  refine DataKept.trans ?_ (State.send_keeps ..)
  refine DataKept.trans ?_ (State.modCxeLd_keeps ..)
  exact DataKept.refl _

theorem State.aerUnc_keeps (s : State) (ld bit : Nat) (header : Bytes) : DataKept s (State.aerUnc s ld bit header) := by
  unfold State.aerUnc
  extract_lets +onlyGivenNames q1
  extract_lets +onlyGivenNames q2
  refine DataKept.ite ?_ ?_
  refine DataKept.trans ?_ (State.modCxeLd_keeps ..)
  exact DataKept.refl _
  extract_lets +onlyGivenNames q3
  refine DataKept.trans ?_ (State.send_keeps ..)
  refine DataKept.ite ?_ ?_
  refine DataKept.trans ?_ (State.aerCor_keeps ..)
  refine DataKept.trans ?_ (State.modCxeLd_keeps ..)
  exact DataKept.refl _
  refine DataKept.trans ?_ (State.modCxeLd_keeps ..)
  refine DataKept.trans ?_ (State.modCxeLd_keeps ..)
  exact DataKept.refl _

theorem State.rasCor_keeps (s : State) (ld bit : Nat) (flit : Bytes) : DataKept s (State.rasCor s ld bit flit) := by
  unfold State.rasCor
  extract_lets +onlyGivenNames q1
  extract_lets +onlyGivenNames q2
  refine DataKept.ite ?_ ?_
  refine DataKept.trans ?_ (State.modCxeLd_keeps ..)
  exact DataKept.refl _
  extract_lets +onlyGivenNames q3
  refine DataKept.trans ?_ (State.send_keeps ..)
  refine DataKept.ite ?_ ?_
  refine DataKept.trans ?_ (State.aerCor_keeps ..)
  refine DataKept.trans ?_ (State.modCxeLd_keeps ..)
  exact DataKept.refl _
  refine DataKept.trans ?_ (State.modCxeLd_keeps ..)
  refine DataKept.trans ?_ (State.modCxeLd_keeps ..)
  exact DataKept.refl _

theorem State.rasUnc_keeps (s : State) (ld bit : Nat) (flit : Bytes) : DataKept s (State.rasUnc s ld bit flit) := by
  unfold State.rasUnc
  extract_lets +onlyGivenNames q1
  extract_lets +onlyGivenNames q2
  refine DataKept.ite ?_ ?_
  refine DataKept.trans ?_ (State.modCxeLd_keeps ..)
  exact DataKept.refl _
  extract_lets +onlyGivenNames q3
  refine DataKept.trans ?_ (State.send_keeps ..)
  refine DataKept.ite ?_ ?_
  refine DataKept.trans ?_ (State.aerCor_keeps ..)
  refine DataKept.trans ?_ (State.modCxeLd_keeps ..)
  exact DataKept.refl _
  refine DataKept.trans ?_ (State.modCxeLd_keeps ..)
  refine DataKept.trans ?_ (State.modCxeLd_keeps ..)
  exact DataKept.refl _

theorem State.onPort_keeps (s : State) (port : Nat) (f : State → Nat → State) (hf : ∀ v x, DataKept v (f v x)) : DataKept s (s.onPort port f) :=
  DataKept.foldl (DataKept.refl _) hf

theorem State.modStone_keeps (s : State) (k : Nat) (f : Stone → Stone) : DataKept s (State.modStone s k f) := by
  unfold State.modStone
  with_reducible refine DataKept.trans ?_ (DataKept.fields rfl rfl rfl rfl)
  exact DataKept.refl _

theorem State.modStnLd_keeps (s : State) (ld : Nat) (f : StnLd → StnLd) : DataKept s (State.modStnLd s ld f) := by
  unfold State.modStnLd
  with_reducible refine DataKept.trans ?_ (DataKept.fields rfl rfl rfl rfl)
  exact DataKept.refl _

theorem State.modChecker_keeps (s : State) (d : Nat) (f : Checker → Checker) : DataKept s (State.modChecker s d f) := by
  unfold State.modChecker
  with_reducible refine DataKept.trans ?_ (DataKept.fields rfl rfl rfl rfl)
  exact DataKept.refl _

theorem State.chargeCycles_keeps (s : State) (ld n : Nat) : DataKept s (State.chargeCycles s ld n) := by
  unfold State.chargeCycles
  refine DataKept.trans ?_ (State.modStnLd_keeps ..)
  exact DataKept.refl _

theorem State.placePiece_keeps (s : State) (p : Piece) : DataKept s (State.placePiece s p) := by
  unfold State.placePiece
  extract_lets +onlyGivenNames q1
  extract_lets +onlyGivenNames q2
  extract_lets +onlyGivenNames q3
  extract_lets +onlyGivenNames q4
  (unfold q4; split)
  with_reducible refine DataKept.trans ?_ (DataKept.fields rfl rfl rfl rfl)
  exact DataKept.refl _
  extract_lets +onlyGivenNames q5
  refine DataKept.ite ?_ ?_
  with_reducible refine DataKept.trans ?_ (DataKept.fields rfl rfl rfl rfl)
  refine DataKept.trans ?_ (State.modStone_keeps ..)
  exact DataKept.refl _
  refine DataKept.trans ?_ (State.modStone_keeps ..)
  exact DataKept.refl _

theorem State.placeAgain_keeps (s : State) (p : Piece) : DataKept s (State.placeAgain s p) := by
  unfold State.placeAgain
  refine DataKept.trans ?_ (State.placePiece_keeps ..)
  with_reducible refine DataKept.trans ?_ (DataKept.fields rfl rfl rfl rfl)
  exact DataKept.refl _

theorem State.placeWaiting_keeps (s : State) : DataKept s (State.placeWaiting s) := by
  unfold State.placeWaiting
  refine DataKept.foldl ?_ (fun s x => ?_)
  exact DataKept.refl _
  refine DataKept.trans ?_ (State.placeAgain_keeps ..)
  exact DataKept.refl _

theorem State.countClear_keeps (s : State) : DataKept s (State.countClear s) := by
  unfold State.countClear
  with_reducible refine DataKept.trans ?_ (DataKept.fields rfl rfl rfl rfl)
  exact DataKept.refl _

theorem State.beginClear_keeps (s : State) (k : Nat) : DataKept s (State.beginClear s k) := by
  unfold State.beginClear
  refine DataKept.trans ?_ (State.countClear_keeps ..)
  refine DataKept.trans ?_ (State.modStone_keeps ..)
  exact DataKept.refl _

theorem State.stoneIdle_keeps (s : State) (k : Nat) : DataKept s (State.stoneIdle s k) := by
  unfold State.stoneIdle
  extract_lets +onlyGivenNames q1
  refine DataKept.ite ?_ ?_
  refine DataKept.trans ?_ (State.beginClear_keeps ..)
  refine DataKept.trans ?_ (State.modStone_keeps ..)
  exact DataKept.refl _
  refine DataKept.trans ?_ (State.placeWaiting_keeps ..)
  refine DataKept.trans ?_ (State.modStone_keeps ..)
  exact DataKept.refl _

theorem State.moveQueue_keeps (s : State) (k : Nat) : DataKept s (State.moveQueue s k) := by
  unfold State.moveQueue
  extract_lets +onlyGivenNames q1
  refine DataKept.foldl ?_ (fun s x => ?_)
  refine DataKept.trans ?_ (State.modStone_keeps ..)
  exact DataKept.refl _
  refine DataKept.trans ?_ (State.placePiece_keeps ..)
  exact DataKept.refl _

theorem State.drainStone_keeps (s : State) (k : Nat) : DataKept s (State.drainStone s k) := by
  unfold State.drainStone
  extract_lets +onlyGivenNames q1
  refine DataKept.ite ?_ ?_
  extract_lets +onlyGivenNames q2
  extract_lets +onlyGivenNames q3
  refine DataKept.ite ?_ ?_
  refine DataKept.trans ?_ (State.beginClear_keeps ..)
  refine DataKept.foldl ?_ (fun s x => ?_)
  refine DataKept.trans ?_ (State.modStone_keeps ..)
  exact DataKept.refl _
  refine DataKept.trans ?_ (State.placePiece_keeps ..)
  exact DataKept.refl _
  refine DataKept.foldl ?_ (fun s x => ?_)
  refine DataKept.trans ?_ (State.modStone_keeps ..)
  exact DataKept.refl _
  refine DataKept.trans ?_ (State.placePiece_keeps ..)
  exact DataKept.refl _
  exact DataKept.refl _

theorem State.modPorts_keeps (s : State) (f : PortSt → PortSt) : DataKept s (State.modPorts s f) := by
  unfold State.modPorts
  with_reducible refine DataKept.trans ?_ (DataKept.fields rfl rfl rfl rfl)
  exact DataKept.refl _

theorem State.modPort_keeps (s : State) (p : Nat) (f : Port → Port) : DataKept s (State.modPort s p f) := by
  unfold State.modPort
  refine DataKept.trans ?_ (State.modPorts_keeps ..)
  exact DataKept.refl _

theorem State.setWindow_keeps (s : State) (port w : Nat) (v : Window) : DataKept s (State.setWindow s port w v) := by
  unfold State.setWindow
  refine DataKept.trans ?_ (State.modPorts_keeps ..)
  exact DataKept.refl _

theorem State.modFwdLd_keeps (s : State) (ld : Nat) (f : FwdLd → FwdLd) : DataKept s (State.modFwdLd s ld f) := by
  unfold State.modFwdLd
  refine DataKept.trans ?_ (State.modPorts_keeps ..)
  exact DataKept.refl _

theorem State.modRiLd_keeps (s : State) (ld : Nat) (f : RiLd → RiLd) : DataKept s (State.modRiLd s ld f) := by
  unfold State.modRiLd
  with_reducible refine DataKept.trans ?_ (DataKept.fields rfl rfl rfl rfl)
  exact DataKept.refl _

theorem State.slotRecord_keeps (s : State) (b kind utype unit detail : Nat) (outs : List Out) : DataKept s (State.slotRecord s b kind utype unit detail outs) := by
  unfold State.slotRecord
  extract_lets +onlyGivenNames q1
  refine DataKept.trans ?_ (State.ledger_keeps ..)
  exact DataKept.refl _

theorem State.usePeer_keeps (s : State) (port : Nat) : DataKept s (State.usePeer s port) := by
  unfold State.usePeer
  refine DataKept.trans ?_ (State.modPort_keeps ..)
  exact DataKept.refl _

theorem State.sendPeer_keeps (s : State) (port ptype : Nat) (flds : List Fld) (data : Bytes) : DataKept s (State.sendPeer s port ptype flds data) := by
  unfold State.sendPeer
  refine DataKept.trans ?_ (State.send_keeps ..)
  refine DataKept.trans ?_ (State.usePeer_keeps ..)
  exact DataKept.refl _

theorem State.transmit_keeps (s : State) (k : Packet) : DataKept s (State.transmit s k) := by
  unfold State.transmit
  extract_lets +onlyGivenNames q1
  refine DataKept.trans ?_ (State.sendPeer_keeps ..)
  exact DataKept.refl _

theorem State.modPacket_keeps (s : State) (port tag : Nat) (f : Packet → Packet) : DataKept s (State.modPacket s port tag f) := by
  unfold State.modPacket
  refine DataKept.trans ?_ (State.modPorts_keeps ..)
  exact DataKept.refl _

theorem State.pumpPackets_keeps (s : State) (port : Nat) : DataKept s (State.pumpPackets s port) := by
  unfold State.pumpPackets
  refine DataKept.foldl ?_ (fun s x => ?_)
  exact DataKept.refl _
  refine DataKept.ite ?_ ?_
  extract_lets +onlyGivenNames q1
  extract_lets +onlyGivenNames q2
  refine DataKept.trans ?_ (State.transmit_keeps ..)
  refine DataKept.trans ?_ (State.modPacket_keeps ..)
  exact DataKept.refl _
  exact DataKept.refl _

theorem State.modFwd_keeps (s : State) (id : Nat) (f : Fwd → Fwd) : DataKept s (State.modFwd s id f) := by
  unfold State.modFwd
  refine DataKept.trans ?_ (State.modPorts_keeps ..)
  exact DataKept.refl _

theorem State.putSettle_keeps (s : State) (f : Fwd) (kind cause : Nat) : DataKept s (State.putSettle s f kind cause) := by
  unfold State.putSettle
  extract_lets +onlyGivenNames q1
  refine DataKept.ite ?_ ?_
  extract_lets +onlyGivenNames q2
  extract_lets +onlyGivenNames q3
  extract_lets +onlyGivenNames q4
  refine DataKept.ite ?_ ?_
  refine DataKept.trans ?_ (State.slotRecord_keeps ..)
  refine DataKept.trans ?_ (State.modRiLd_keeps ..)
  refine DataKept.trans ?_ (State.usePeer_keeps ..)
  exact DataKept.refl _
  refine DataKept.trans ?_ (State.sendPeer_keeps ..)
  exact DataKept.refl _
  refine DataKept.ite ?_ ?_
  exact DataKept.refl _
  refine DataKept.trans ?_ (State.slotRecord_keeps ..)
  exact DataKept.refl _

theorem State.sweepFwds_keeps (s : State) : DataKept s (State.sweepFwds s) := by
  unfold State.sweepFwds
  refine DataKept.trans ?_ (State.modPorts_keeps ..)
  exact DataKept.refl _

theorem State.settleFwd_keeps (s : State) (id kind cause : Nat) : DataKept s (State.settleFwd s id kind cause) := by
  unfold State.settleFwd
  split
  exact DataKept.refl _
  refine DataKept.ite ?_ ?_
  exact DataKept.refl _
  refine DataKept.ite ?_ ?_
  refine DataKept.trans ?_ (State.modFwd_keeps ..)
  exact DataKept.refl _
  refine DataKept.trans ?_ (State.sweepFwds_keeps ..)
  refine DataKept.trans ?_ (State.putSettle_keeps ..)
  refine DataKept.trans ?_ (State.modFwd_keeps ..)
  exact DataKept.refl _

theorem State.flushSettles_keeps (s : State) : DataKept s (State.flushSettles s) := by
  unfold State.flushSettles
  refine DataKept.trans ?_ (State.sweepFwds_keeps ..)
  refine DataKept.foldl ?_ (fun s x => ?_)
  exact DataKept.refl _
  split
  refine DataKept.ite ?_ ?_
  exact DataKept.refl _
  refine DataKept.trans ?_ (State.putSettle_keeps ..)
  refine DataKept.trans ?_ (State.modFwd_keeps ..)
  exact DataKept.refl _
  exact DataKept.refl _

theorem State.pump_keeps (s : State) (port : Nat) : DataKept s (State.pump s port) := by
  unfold State.pump
  refine DataKept.trans ?_ (State.flushSettles_keeps ..)
  refine DataKept.trans ?_ (State.pumpPackets_keeps ..)
  exact DataKept.refl _

theorem State.addPackets_keeps (s : State) (f : Fwd) (y0 : Nat) (y1 : Nat) (y2 : Bytes) : DataKept s (State.addPackets s f y0 y1 y2) := by
  induction y0 generalizing s y1 y2 with
  | zero =>
    unfold State.addPackets
    exact DataKept.refl _
  | succ n ih =>
    unfold State.addPackets
    extract_lets +onlyGivenNames q1
    extract_lets +onlyGivenNames q2
    refine DataKept.ite ?_ ?_
    refine DataKept.trans ?_ (State.modPorts_keeps ..)
    exact DataKept.refl _
    refine DataKept.trans ?_ (ih ..)
    refine DataKept.trans ?_ (State.modPorts_keeps ..)
    exact DataKept.refl _

theorem State.startForward_keeps (s : State) (b : Nat) (early : Bool) (result : Bytes) : DataKept s (State.startForward s b early result).2 := by
  unfold State.startForward
  split
  exact DataKept.refl _
  refine DataKept.iteP ?_ ?_
  exact DataKept.refl _
  extract_lets +onlyGivenNames q1
  extract_lets +onlyGivenNames q2
  extract_lets +onlyGivenNames q3
  extract_lets +onlyGivenNames q4
  extract_lets +onlyGivenNames q5
  extract_lets +onlyGivenNames q6
  extract_lets +onlyGivenNames q7
  extract_lets +onlyGivenNames q8
  dsimp only
  refine DataKept.ite ?_ ?_
  refine DataKept.trans ?_ (State.pump_keeps ..)
  refine DataKept.ite ?_ ?_
  refine DataKept.trans ?_ (State.modRiLd_keeps ..)
  refine DataKept.trans ?_ (State.addPackets_keeps ..)
  refine DataKept.trans ?_ (State.modPorts_keeps ..)
  exact DataKept.refl _
  refine DataKept.trans ?_ (State.addPackets_keeps ..)
  refine DataKept.trans ?_ (State.modPorts_keeps ..)
  exact DataKept.refl _
  refine DataKept.trans ?_ (State.settleFwd_keeps ..)
  refine DataKept.trans ?_ (State.pump_keeps ..)
  refine DataKept.ite ?_ ?_
  refine DataKept.trans ?_ (State.modRiLd_keeps ..)
  refine DataKept.trans ?_ (State.addPackets_keeps ..)
  refine DataKept.trans ?_ (State.modPorts_keeps ..)
  exact DataKept.refl _
  refine DataKept.trans ?_ (State.addPackets_keeps ..)
  refine DataKept.trans ?_ (State.modPorts_keeps ..)
  exact DataKept.refl _

theorem State.failForward_keeps (s : State) (id status : Nat) : DataKept s (State.failForward s id status) := by
  unfold State.failForward
  split
  exact DataKept.refl _
  refine DataKept.ite ?_ ?_
  exact DataKept.refl _
  extract_lets +onlyGivenNames q1
  extract_lets +onlyGivenNames q2
  extract_lets +onlyGivenNames q3
  extract_lets +onlyGivenNames q4
  refine DataKept.trans ?_ (State.flushSettles_keeps ..)
  refine DataKept.trans ?_ (State.post_keeps ..)
  refine DataKept.trans ?_ (State.modFwdLd_keeps ..)
  refine DataKept.trans ?_ (State.modFwd_keeps ..)
  refine DataKept.trans ?_ (State.modPorts_keeps ..)
  exact DataKept.refl _

theorem State.unbind_keeps (s : State) (p : Bind → Bool) : DataKept s (State.unbind s p) := by
  unfold State.unbind
  refine DataKept.trans ?_ (State.modPorts_keeps ..)
  exact DataKept.refl _

theorem execGetSlotStatus_keeps (h : MbHdr) (dpa : Nat) (s : State) : ∀ v : State, execGetSlotStatus h dpa s = .next v → DataKept s v := by
  unfold execGetSlotStatus
  refine DataKept.nx ?_
  refine DataKept.trans ?_ (State.mbRun_keeps _ _ _ _ ?_)
  exact DataKept.refl _
  split
  refine DataKept.okIte ?_ ?_
  refine DataKept.okOk ?_
  exact DataKept.refl _
  exact DataKept.okErr
  exact DataKept.okErr

theorem execGetSequenceStatus_keeps (h : MbHdr) (seq : Nat) (s : State) : ∀ v : State, execGetSequenceStatus h seq s = .next v → DataKept s v := by
  unfold execGetSequenceStatus
  refine DataKept.nx ?_
  refine DataKept.trans ?_ (State.mbRun_keeps _ _ _ _ ?_)
  exact DataKept.refl _
  split
  exact DataKept.okErr
  refine DataKept.okOk ?_
  exact DataKept.refl _

theorem execRemoveGranaryExtent_keeps (h : MbHdr) (base : Nat) (s : State) : ∀ v : State, execRemoveGranaryExtent h base s = .next v → DataKept s v := by
  unfold execRemoveGranaryExtent
  refine DataKept.nx ?_
  refine DataKept.trans ?_ (State.mbBg_keeps _ _ _ _ _ ?_)
  exact DataKept.refl _
  split
  exact DataKept.exErr
  refine DataKept.exIte ?_ ?_
  exact DataKept.exErr
  refine DataKept.exOk ?_
  exact DataKept.refl _

theorem execListBins_keeps (h : MbHdr) (o : OutReq) (s : State) : ∀ v : State, execListBins h o s = .next v → DataKept s v := by
  unfold execListBins
  refine DataKept.nx ?_
  refine DataKept.trans ?_ (State.mbSnap_keeps ..)
  exact DataKept.refl _

theorem execGetGranaryStatus_keeps (h : MbHdr) (s : State) : ∀ v : State, execGetGranaryStatus h s = .next v → DataKept s v := by
  unfold execGetGranaryStatus
  refine DataKept.nx ?_
  refine DataKept.trans ?_ (State.mbRun_keeps _ _ _ _ ?_)
  exact DataKept.refl _
  refine DataKept.okIte ?_ ?_
  extract_lets +onlyGivenNames q1
  extract_lets +onlyGivenNames q2
  refine DataKept.okOk ?_
  exact DataKept.refl _
  extract_lets +onlyGivenNames q3
  extract_lets +onlyGivenNames q4
  extract_lets +onlyGivenNames q5
  refine DataKept.okOk ?_
  exact DataKept.refl _

theorem State.modResult_keeps (s : State) (f : ResultSt → ResultSt) : DataKept s (State.modResult s f) := by
  unfold State.modResult
  with_reducible refine DataKept.trans ?_ (DataKept.fields rfl rfl rfl rfl)
  exact DataKept.refl _

theorem State.setUnit_keeps (s : State) (utype unit : Nat) (f : UnitRec → UnitRec) : DataKept s (State.setUnit s utype unit f) := by
  unfold State.setUnit
  refine DataKept.trans ?_ (State.modResult_keeps ..)
  exact DataKept.refl _

theorem State.modSlice_keeps (s : State) (slice unit : Nat) (f : SliceRec → SliceRec) : DataKept s (State.modSlice s slice unit f) := by
  unfold State.modSlice
  with_reducible refine DataKept.trans ?_ (DataKept.fields rfl rfl rfl rfl)
  exact DataKept.refl _

theorem State.clearUnit_keeps (s : State) (utype unit : Nat) : DataKept s (State.clearUnit s utype unit) := by
  unfold State.clearUnit
  refine DataKept.ite ?_ ?_
  refine DataKept.trans ?_ (State.modChecker_keeps ..)
  exact DataKept.refl _
  exact DataKept.refl _

theorem State.markSlice_keeps (s : State) (slice unit : Nat) (now : Bool) : DataKept s (State.markSlice s slice unit now) := by
  unfold State.markSlice
  extract_lets +onlyGivenNames q1
  extract_lets +onlyGivenNames q2
  extract_lets +onlyGivenNames q3
  refine DataKept.ite ?_ ?_
  refine DataKept.ite ?_ ?_
  refine DataKept.trans ?_ (State.clearUnit_keeps ..)
  refine DataKept.trans ?_ (State.modSlice_keeps ..)
  exact DataKept.refl _
  refine DataKept.trans ?_ (State.modSlice_keeps ..)
  exact DataKept.refl _
  extract_lets +onlyGivenNames q4
  split
  refine DataKept.trans ?_ (State.drainStone_keeps ..)
  refine DataKept.trans ?_ (State.modStone_keeps ..)
  refine DataKept.trans ?_ (State.modSlice_keeps ..)
  exact DataKept.refl _
  refine DataKept.trans ?_ (State.beginClear_keeps ..)
  refine DataKept.trans ?_ (State.modStone_keeps ..)
  refine DataKept.trans ?_ (State.modStone_keeps ..)
  refine DataKept.trans ?_ (State.modSlice_keeps ..)
  exact DataKept.refl _
  refine DataKept.trans ?_ (State.beginClear_keeps ..)
  refine DataKept.trans ?_ (State.modStone_keeps ..)
  refine DataKept.trans ?_ (State.modSlice_keeps ..)
  exact DataKept.refl _
  refine DataKept.trans ?_ (State.moveQueue_keeps ..)
  refine DataKept.trans ?_ (State.modStone_keeps ..)
  refine DataKept.trans ?_ (State.modSlice_keeps ..)
  exact DataKept.refl _
  refine DataKept.trans ?_ (State.modStone_keeps ..)
  refine DataKept.trans ?_ (State.modSlice_keeps ..)
  exact DataKept.refl _

theorem State.chargeRun_keeps (s : State) (k : Nat) (p : Piece) : DataKept s (State.chargeRun s k p) := by
  unfold State.chargeRun
  extract_lets +onlyGivenNames q1
  refine DataKept.trans ?_ (State.serveAs_keeps ..)
  refine DataKept.trans ?_ (State.chargeCycles_keeps ..)
  exact DataKept.refl _

theorem execStoneTake_keeps (t stone tag : Nat) (s : State) : ∀ v : State, execStoneTake t stone tag s = .next v → DataKept s v := by
  unfold execStoneTake
  extract_lets +onlyGivenNames q1
  split
  refine DataKept.nxIte ?_ ?_
  refine DataKept.nx ?_
  refine DataKept.trans ?_ (State.at__keeps ..)
  exact DataKept.refl _
  refine DataKept.nxIte ?_ ?_
  extract_lets +onlyGivenNames q2
  extract_lets +onlyGivenNames q3
  extract_lets +onlyGivenNames q4
  refine DataKept.nx ?_
  refine DataKept.trans ?_ (State.modStone_keeps ..)
  refine DataKept.trans ?_ (State.at__keeps ..)
  exact DataKept.refl _
  refine DataKept.nxIte ?_ ?_
  refine DataKept.nx ?_
  refine DataKept.trans ?_ (State.at__keeps ..)
  exact DataKept.refl _
  extract_lets +onlyGivenNames q5
  refine DataKept.nx ?_
  refine DataKept.trans ?_ (State.modStone_keeps ..)
  refine DataKept.trans ?_ (State.at__keeps ..)
  exact DataKept.refl _
  refine DataKept.nx ?_
  refine DataKept.trans ?_ (State.at__keeps ..)
  exact DataKept.refl _

theorem State.saveCkpt_keeps (s : State) (stone : Nat) (p : Piece) : DataKept s (State.saveCkpt s stone p).2 := by
  unfold State.saveCkpt
  extract_lets +onlyGivenNames q1
  extract_lets +onlyGivenNames q2
  refine DataKept.iteP ?_ ?_
  exact DataKept.refl _
  extract_lets +onlyGivenNames q3
  dsimp only
  with_reducible refine DataKept.trans ?_ (DataKept.fields rfl rfl rfl rfl)
  exact DataKept.refl _

theorem execPreemptCheckpoint_keeps (t stone : Nat) (s : State) : ∀ v : State, execPreemptCheckpoint t stone s = .next v → DataKept s v := by
  unfold execPreemptCheckpoint
  extract_lets +onlyGivenNames q1
  extract_lets +onlyGivenNames q2
  split
  refine DataKept.nx ?_
  refine DataKept.trans ?_ (State.at__keeps ..)
  exact DataKept.refl _
  refine DataKept.nxIte ?_ ?_
  extract_lets +onlyGivenNames q3
  extract_lets +onlyGivenNames q4
  extract_lets +onlyGivenNames q5
  extract_lets +onlyGivenNames q6
  split
  refine DataKept.nx ?_
  refine DataKept.trans ?_ (State.placePiece_keeps ..)
  refine DataKept.snd (by assumption) ?_
  refine DataKept.trans ?_ (State.saveCkpt_keeps ..)
  refine DataKept.trans ?_ (State.stoneIdle_keeps ..)
  refine DataKept.trans ?_ (State.chargeRun_keeps ..)
  refine DataKept.ite ?_ ?_
  refine DataKept.trans ?_ (State.modStnLd_keeps ..)
  refine DataKept.trans ?_ (State.at__keeps ..)
  exact DataKept.refl _
  with_reducible refine DataKept.trans ?_ (DataKept.fields rfl rfl rfl rfl)
  refine DataKept.trans ?_ (State.modStnLd_keeps ..)
  refine DataKept.trans ?_ (State.at__keeps ..)
  exact DataKept.refl _
  refine DataKept.nx ?_
  refine DataKept.trans ?_ (State.at__keeps ..)
  exact DataKept.refl _

theorem execStoneClearComplete_keeps (t stone : Nat) (s : State) : ∀ v : State, execStoneClearComplete t stone s = .next v → DataKept s v := by
  unfold execStoneClearComplete
  extract_lets +onlyGivenNames q1
  extract_lets +onlyGivenNames q2
  refine DataKept.nxIte ?_ ?_
  extract_lets +onlyGivenNames q3
  extract_lets +onlyGivenNames q4
  extract_lets +onlyGivenNames q5
  refine DataKept.nx ?_
  refine DataKept.trans ?_ (State.caps_keeps ..)
  refine DataKept.trans ?_ (State.placeWaiting_keeps ..)
  unfold q5
  split
  refine DataKept.trans ?_ (State.modSlice_keeps ..)
  refine DataKept.trans ?_ (State.modStone_keeps ..)
  refine DataKept.trans ?_ (State.at__keeps ..)
  exact DataKept.refl _
  refine DataKept.trans ?_ (State.modStone_keeps ..)
  refine DataKept.trans ?_ (State.at__keeps ..)
  exact DataKept.refl _
  refine DataKept.nx ?_
  refine DataKept.trans ?_ (State.at__keeps ..)
  exact DataKept.refl _

theorem execDressingUnloadDrained_keeps (t handle : Nat) (s : State) : ∀ v : State, execDressingUnloadDrained t handle s = .next v → DataKept s v := by
  unfold execDressingUnloadDrained
  extract_lets +onlyGivenNames q1
  split
  refine DataKept.nxIte ?_ ?_
  refine DataKept.nx ?_
  with_reducible refine DataKept.trans ?_ (DataKept.fields rfl rfl rfl rfl)
  refine DataKept.trans ?_ (State.at__keeps ..)
  exact DataKept.refl _
  refine DataKept.nx ?_
  refine DataKept.trans ?_ (State.at__keeps ..)
  exact DataKept.refl _
  refine DataKept.nx ?_
  refine DataKept.trans ?_ (State.at__keeps ..)
  exact DataKept.refl _

theorem execLoadDressing_keeps (h : MbHdr) (p : Part) (s : State) : ∀ v : State, execLoadDressing h p s = .next v → DataKept s v := by
  unfold execLoadDressing
  refine DataKept.nx ?_
  refine DataKept.trans ?_ (State.mbPartsBg_keeps _ _ _ _ _ _ ?_)
  exact DataKept.refl _
  intro _ _ 
  refine DataKept.exOk ?_
  exact DataKept.refl _

theorem execUnloadDressing_keeps (h : MbHdr) (handle : Nat) (s : State) : ∀ v : State, execUnloadDressing h handle s = .next v → DataKept s v := by
  unfold execUnloadDressing
  refine DataKept.nx ?_
  refine DataKept.trans ?_ (State.mbRun_keeps _ _ _ _ ?_)
  exact DataKept.refl _
  split
  refine DataKept.okIte ?_ ?_
  exact DataKept.okErr
  extract_lets +onlyGivenNames q1
  refine DataKept.okOk ?_
  dsimp only
  with_reducible refine DataKept.trans ?_ (DataKept.fields rfl rfl rfl rfl)
  exact DataKept.refl _
  exact DataKept.okErr

theorem execGetDressingInfo_keeps (h : MbHdr) (handle : Nat) (s : State) : ∀ v : State, execGetDressingInfo h handle s = .next v → DataKept s v := by
  unfold execGetDressingInfo
  refine DataKept.nx (State.mbRun_keeps _ _ _ _ ?_)
  extract_lets running answer
  have ha : ∀ st r, answer st = .ok r → DataKept s r.s := fun st => DataKept.okOk (DataKept.refl _)
  split
  · exact DataKept.okIte DataKept.okErr (ha _)
  · exact DataKept.okIte DataKept.okErr (DataKept.okIte (ha _) (DataKept.okOk (DataKept.refl _)))

theorem execRegisterDressingKey_keeps (h : MbHdr) (exponent : Nat) (modulus : Bytes) (s : State) : ∀ v : State, execRegisterDressingKey h exponent modulus s = .next v → DataKept s v := by
  unfold execRegisterDressingKey
  refine DataKept.nx ?_
  refine DataKept.trans ?_ (State.mbRun_keeps _ _ _ _ ?_)
  exact DataKept.refl _
  extract_lets +onlyGivenNames q1
  extract_lets +onlyGivenNames q2
  refine DataKept.okIte ?_ ?_
  exact DataKept.okErr
  refine DataKept.okIte ?_ ?_
  refine DataKept.okOk ?_
  exact DataKept.refl _
  refine DataKept.okIte ?_ ?_
  exact DataKept.okErr
  refine DataKept.okOk ?_
  dsimp only
  with_reducible refine DataKept.trans ?_ (DataKept.fields rfl rfl rfl rfl)
  exact DataKept.refl _

theorem execRemoveDressingKey_keeps (h : MbHdr) (keyid : Bytes) (s : State) : ∀ v : State, execRemoveDressingKey h keyid s = .next v → DataKept s v := by
  unfold execRemoveDressingKey
  refine DataKept.nx ?_
  refine DataKept.trans ?_ (State.mbRun_keeps _ _ _ _ ?_)
  exact DataKept.refl _
  extract_lets +onlyGivenNames q1
  refine DataKept.okIte ?_ ?_
  refine DataKept.okOk ?_
  dsimp only
  with_reducible refine DataKept.trans ?_ (DataKept.fields rfl rfl rfl rfl)
  exact DataKept.refl _
  exact DataKept.okErr

theorem execGetStoneStatus_keeps (h : MbHdr) (s : State) : ∀ v : State, execGetStoneStatus h s = .next v → DataKept s v := by
  unfold execGetStoneStatus
  refine DataKept.nx ?_
  refine DataKept.trans ?_ (State.mbRun_keeps _ _ _ _ ?_)
  exact DataKept.refl _
  refine DataKept.okOk ?_
  exact DataKept.refl _

theorem State.offlineStone_keeps (s : State) (stone : Nat) : DataKept s (State.offlineStone s stone) := by
  unfold State.offlineStone
  refine DataKept.trans ?_ (State.drainStone_keeps ..)
  refine DataKept.trans ?_ (State.modStone_keeps ..)
  exact DataKept.refl _

theorem execSetStoneOffline_keeps (h : MbHdr) (stone : Nat) (s : State) : ∀ v : State, execSetStoneOffline h stone s = .next v → DataKept s v := by
  unfold execSetStoneOffline
  refine DataKept.nx ?_
  refine DataKept.trans ?_ (State.mbBg_keeps _ _ _ _ _ ?_)
  exact DataKept.refl _
  refine DataKept.exIte ?_ ?_
  exact DataKept.exErr
  refine DataKept.exOk ?_
  refine DataKept.trans ?_ (State.offlineStone_keeps ..)
  exact DataKept.refl _

theorem execSetStoneOnline_keeps (h : MbHdr) (stone : Nat) (s : State) : ∀ v : State, execSetStoneOnline h stone s = .next v → DataKept s v := by
  unfold execSetStoneOnline
  refine DataKept.nx ?_
  refine DataKept.trans ?_ (State.mbRun_keeps _ _ _ _ ?_)
  exact DataKept.refl _
  refine DataKept.okIte ?_ ?_
  exact DataKept.okErr
  refine DataKept.okOk ?_
  dsimp only
  refine DataKept.trans ?_ (State.caps_keeps ..)
  refine DataKept.trans ?_ (State.placeWaiting_keeps ..)
  refine DataKept.trans ?_ (State.modStone_keeps ..)
  exact DataKept.refl _

theorem State.recap_keeps (s : State) (resource : Nat) : DataKept s (State.recap s resource) := by
  unfold State.recap
  extract_lets +onlyGivenNames q1
  refine DataKept.ite ?_ ?_
  refine DataKept.trans ?_ (State.recompute_keeps ..)
  refine DataKept.trans ?_ (State.modWeir_keeps ..)
  exact DataKept.refl _
  refine DataKept.trans ?_ (State.noteCap_keeps ..)
  exact DataKept.refl _

theorem execGuaranteeRecompute_keeps (t resource : Nat) (s : State) : ∀ v : State, execGuaranteeRecompute t resource s = .next v → DataKept s v := by
  unfold execGuaranteeRecompute
  extract_lets +onlyGivenNames q1
  refine DataKept.nxIte ?_ ?_
  refine DataKept.nx ?_
  refine DataKept.trans ?_ (State.at__keeps ..)
  exact DataKept.refl _
  refine DataKept.nx ?_
  refine DataKept.trans ?_ (State.noteVitals_keeps ..)
  refine DataKept.trans ?_ (State.recap_keeps ..)
  refine DataKept.trans ?_ (State.at__keeps ..)
  exact DataKept.refl _

theorem execCapacityRiseTimeout_keeps (t resource : Nat) (s : State) : ∀ v : State, execCapacityRiseTimeout t resource s = .next v → DataKept s v := by
  unfold execCapacityRiseTimeout
  extract_lets +onlyGivenNames q1
  split
  refine DataKept.nxIte ?_ ?_
  extract_lets +onlyGivenNames q2
  extract_lets +onlyGivenNames q3
  refine DataKept.nx ?_
  refine DataKept.trans ?_ (State.noteVitals_keeps ..)
  refine DataKept.trans ?_ (State.noteCap_keeps ..)
  refine DataKept.trans ?_ (State.recompute_keeps ..)
  refine DataKept.trans ?_ (State.modWeir_keeps ..)
  refine DataKept.trans ?_ (State.at__keeps ..)
  exact DataKept.refl _
  refine DataKept.nx ?_
  refine DataKept.trans ?_ (State.at__keeps ..)
  exact DataKept.refl _
  refine DataKept.nx ?_
  refine DataKept.trans ?_ (State.at__keeps ..)
  exact DataKept.refl _

theorem execSetClass_keeps (h : MbHdr) (cls share cache queue : Nat) (s : State) : ∀ v : State, execSetClass h cls share cache queue s = .next v → DataKept s v := by
  unfold execSetClass
  refine DataKept.nx ?_
  refine DataKept.trans ?_ (State.mbRun_keeps _ _ _ _ ?_)
  exact DataKept.refl _
  refine DataKept.okIte ?_ ?_
  exact DataKept.okErr
  refine DataKept.okOk ?_
  dsimp only
  refine DataKept.trans ?_ (State.modWeir_keeps ..)
  exact DataKept.refl _

theorem execReserveGuarantee_keeps (h : MbHdr) (resource cls rate latbound : Nat) (s : State) : ∀ v : State, execReserveGuarantee h resource cls rate latbound s = .next v → DataKept s v := by
  unfold execReserveGuarantee
  refine DataKept.nx ?_
  refine DataKept.trans ?_ (State.mbRun_keeps _ _ _ _ ?_)
  exact DataKept.refl _
  extract_lets +onlyGivenNames q1
  refine DataKept.okIte ?_ ?_
  exact DataKept.okErr
  extract_lets +onlyGivenNames q2
  extract_lets +onlyGivenNames q3
  extract_lets +onlyGivenNames q4
  refine DataKept.okIte ?_ ?_
  exact DataKept.okErr
  extract_lets +onlyGivenNames q5
  refine DataKept.okOk ?_
  dsimp only
  refine DataKept.trans ?_ (State.noteVitals_keeps ..)
  refine DataKept.trans ?_ (State.recompute_keeps ..)
  refine DataKept.trans ?_ (State.setGuar_keeps ..)
  exact DataKept.refl _

theorem execReleaseGuarantee_keeps (h : MbHdr) (resource : Nat) (s : State) : ∀ v : State, execReleaseGuarantee h resource s = .next v → DataKept s v := by
  unfold execReleaseGuarantee
  refine DataKept.nx ?_
  refine DataKept.trans ?_ (State.mbRun_keeps _ _ _ _ ?_)
  exact DataKept.refl _
  refine DataKept.okIte ?_ ?_
  exact DataKept.okErr
  refine DataKept.okOk ?_
  dsimp only
  refine DataKept.trans ?_ (State.noteVitals_keeps ..)
  refine DataKept.trans ?_ (State.recompute_keeps ..)
  refine DataKept.trans ?_ (State.setGuar_keeps ..)
  exact DataKept.refl _

theorem execGetWeirStatus_keeps (h : MbHdr) (s : State) : ∀ v : State, execGetWeirStatus h s = .next v → DataKept s v := by
  unfold execGetWeirStatus
  refine DataKept.nx ?_
  refine DataKept.trans ?_ (State.mbRun_keeps _ _ _ _ ?_)
  exact DataKept.refl _
  refine DataKept.okIte ?_ ?_
  refine DataKept.okOk ?_
  exact DataKept.refl _
  extract_lets +onlyGivenNames q1
  refine DataKept.okOk ?_
  exact DataKept.refl _

theorem execSetCaptureWindow_keeps (h : MbHdr) (mode wheel span : Nat) (s : State) : ∀ v : State, execSetCaptureWindow h mode wheel span s = .next v → DataKept s v := by
  unfold execSetCaptureWindow
  refine DataKept.nx ?_
  refine DataKept.trans ?_ (State.mbRun_keeps _ _ _ _ ?_)
  exact DataKept.refl _
  refine DataKept.okIte ?_ ?_
  exact DataKept.okErr
  refine DataKept.okOk ?_
  dsimp only
  refine DataKept.trans ?_ (State.modWeir_keeps ..)
  exact DataKept.refl _

theorem execGetMaxLatency_keeps (h : MbHdr) (cls resource : Nat) (s : State) : ∀ v : State, execGetMaxLatency h cls resource s = .next v → DataKept s v := by
  unfold execGetMaxLatency
  refine DataKept.nx ?_
  refine DataKept.trans ?_ (State.mbRun_keeps _ _ _ _ ?_)
  exact DataKept.refl _
  refine DataKept.okIte ?_ ?_
  exact DataKept.okErr
  extract_lets +onlyGivenNames q1
  extract_lets +onlyGivenNames q2
  refine DataKept.okOk ?_
  exact DataKept.refl _

theorem execCaptureWindowEnd_keeps (t : Nat) (s : State) : ∀ v : State, execCaptureWindowEnd t s = .next v → DataKept s v := by
  unfold execCaptureWindowEnd
  extract_lets +onlyGivenNames q1
  extract_lets +onlyGivenNames q2
  refine DataKept.nxIte ?_ ?_
  refine DataKept.nx ?_
  refine DataKept.trans ?_ (State.latchWindow_keeps ..)
  refine DataKept.trans ?_ (State.at__keeps ..)
  exact DataKept.refl _
  refine DataKept.nx ?_
  refine DataKept.trans ?_ (State.at__keeps ..)
  exact DataKept.refl _

theorem execExportSchedule_keeps (h : MbHdr) (o : OutReq) (index : Nat) (s : State) : ∀ v : State, execExportSchedule h o index s = .next v → DataKept s v := by
  unfold execExportSchedule
  refine DataKept.nx ?_
  refine DataKept.trans ?_ (State.mbSnap_keeps ..)
  exact DataKept.refl _

theorem execSaveSchedule_keeps (h : MbHdr) (index : Nat) (s : State) : ∀ v : State, execSaveSchedule h index s = .next v → DataKept s v := by
  unfold execSaveSchedule
  refine DataKept.nx ?_
  refine DataKept.trans ?_ (State.mbBg_keeps _ _ _ _ _ ?_)
  exact DataKept.refl _
  split
  exact DataKept.exErr
  refine DataKept.exIte ?_ ?_
  refine DataKept.exOk ?_
  exact DataKept.refl _
  exact DataKept.exErr

theorem execGetWheelStatus_keeps (h : MbHdr) (index : Nat) (s : State) : ∀ v : State, execGetWheelStatus h index s = .next v → DataKept s v := by
  unfold execGetWheelStatus
  refine DataKept.nx ?_
  refine DataKept.trans ?_ (State.mbRun_keeps _ _ _ _ ?_)
  exact DataKept.refl _
  refine DataKept.okIte ?_ ?_
  exact DataKept.okErr
  extract_lets +onlyGivenNames q1
  extract_lets +onlyGivenNames q2
  extract_lets +onlyGivenNames q3
  extract_lets +onlyGivenNames q4
  refine DataKept.okOk ?_
  exact DataKept.refl _

theorem execGetTableSetStatus_keeps (h : MbHdr) (set : Nat) (s : State) : ∀ v : State, execGetTableSetStatus h set s = .next v → DataKept s v := by
  unfold execGetTableSetStatus
  refine DataKept.nx ?_
  refine DataKept.trans ?_ (State.mbRun_keeps _ _ _ _ ?_)
  exact DataKept.refl _
  refine DataKept.okIte ?_ ?_
  exact DataKept.okErr
  extract_lets +onlyGivenNames q1
  refine DataKept.okOk ?_
  exact DataKept.refl _

theorem execExportCodebook_keeps (h : MbHdr) (set : Nat) (s : State) : ∀ v : State, execExportCodebook h set s = .next v → DataKept s v := by
  unfold execExportCodebook
  refine DataKept.nx ?_
  refine DataKept.trans ?_ (State.mbRun_keeps _ _ _ _ ?_)
  exact DataKept.refl _
  extract_lets +onlyGivenNames q1
  refine DataKept.okIte ?_ ?_
  exact DataKept.okErr
  refine DataKept.okOk ?_
  exact DataKept.refl _

theorem State.setTemp_keeps (s : State) (p : Part17) (unit : Nat) (temp : Int) : DataKept s (State.setTemp s p unit temp) := by
  unfold State.setTemp
  extract_lets +onlyGivenNames q1
  with_reducible refine DataKept.trans ?_ (DataKept.fields rfl rfl rfl rfl)
  exact DataKept.refl _

theorem execRefreshDue_keeps (t stack channel rank : Nat) (queued : Bool) (s : State) : ∀ v : State, execRefreshDue t stack channel rank queued s = .next v → DataKept s v := by
  unfold execRefreshDue
  extract_lets +onlyGivenNames q1
  extract_lets +onlyGivenNames q2
  extract_lets +onlyGivenNames q3
  extract_lets +onlyGivenNames q4
  refine DataKept.nxIte ?_ ?_
  refine DataKept.nx ?_
  refine DataKept.trans ?_ (State.at__keeps ..)
  exact DataKept.refl _
  refine DataKept.nxIte ?_ ?_
  refine DataKept.nx ?_
  refine DataKept.trans ?_ (State.modStack_keeps ..)
  refine DataKept.trans ?_ (State.at__keeps ..)
  exact DataKept.refl _
  refine DataKept.nxIte ?_ ?_
  refine DataKept.nx ?_
  refine DataKept.trans ?_ (State.at__keeps ..)
  exact DataKept.refl _
  extract_lets +onlyGivenNames q5
  extract_lets +onlyGivenNames q6
  refine DataKept.nx ?_
  refine DataKept.trans ?_ (State.modStack_keeps ..)
  refine DataKept.trans ?_ (State.modNear_keeps ..)
  refine DataKept.trans ?_ (State.at__keeps ..)
  exact DataKept.refl _

theorem execRefreshWindowHot_keeps (t stack : Nat) (temp : Int) (s : State) : ∀ v : State, execRefreshWindowHot t stack temp s = .next v → DataKept s v := by
  unfold execRefreshWindowHot
  extract_lets +onlyGivenNames q1
  refine DataKept.nxIte ?_ ?_
  extract_lets +onlyGivenNames q2
  refine DataKept.nx ?_
  refine DataKept.trans ?_ (State.noteVitals_keeps ..)
  refine DataKept.trans ?_ (State.modStack_keeps ..)
  refine DataKept.trans ?_ (State.setTemp_keeps ..)
  refine DataKept.trans ?_ (State.at__keeps ..)
  exact DataKept.refl _
  refine DataKept.nx ?_
  refine DataKept.trans ?_ (State.at__keeps ..)
  exact DataKept.refl _

theorem execSelfRefreshIdle_keeps (t stack : Nat) (s : State) : ∀ v : State, execSelfRefreshIdle t stack s = .next v → DataKept s v := by
  unfold execSelfRefreshIdle
  extract_lets +onlyGivenNames q1
  extract_lets +onlyGivenNames q2
  refine DataKept.nxIte ?_ ?_
  refine DataKept.nx ?_
  refine DataKept.trans ?_ (State.modStack_keeps ..)
  refine DataKept.trans ?_ (State.at__keeps ..)
  exact DataKept.refl _
  refine DataKept.nx ?_
  refine DataKept.trans ?_ (State.at__keeps ..)
  exact DataKept.refl _

theorem execSetSelfRefreshIdle_keeps (h : MbHdr) (idle : Nat) (s : State) : ∀ v : State, execSetSelfRefreshIdle h idle s = .next v → DataKept s v := by
  unfold execSetSelfRefreshIdle
  refine DataKept.nx ?_
  refine DataKept.trans ?_ (State.mbRun_keeps _ _ _ _ ?_)
  exact DataKept.refl _
  refine DataKept.okIte ?_ ?_
  exact DataKept.okErr
  refine DataKept.okOk ?_
  dsimp only
  refine DataKept.trans ?_ (State.modNear_keeps ..)
  exact DataKept.refl _

theorem execSetNeighbourRefresh_keeps (h : MbHdr) (e : Nat) (s : State) : ∀ v : State, execSetNeighbourRefresh h e s = .next v → DataKept s v := by
  unfold execSetNeighbourRefresh
  refine DataKept.nx ?_
  refine DataKept.trans ?_ (State.mbRun_keeps _ _ _ _ ?_)
  exact DataKept.refl _
  refine DataKept.okIte ?_ ?_
  exact DataKept.okErr
  refine DataKept.okOk ?_
  dsimp only
  refine DataKept.trans ?_ (State.modNear_keeps ..)
  exact DataKept.refl _

theorem execRetrainDue_keeps (t stack point : Nat) (temp : Int) (s : State) : ∀ v : State, execRetrainDue t stack point temp s = .next v → DataKept s v := by
  unfold execRetrainDue
  extract_lets +onlyGivenNames q1
  extract_lets +onlyGivenNames q2
  refine DataKept.nxIte ?_ ?_
  refine DataKept.nx ?_
  refine DataKept.trans ?_ (State.at__keeps ..)
  exact DataKept.refl _
  extract_lets +onlyGivenNames q3
  extract_lets +onlyGivenNames q4
  extract_lets +onlyGivenNames q5
  refine DataKept.nxIte ?_ ?_
  refine DataKept.nx ?_
  refine DataKept.trans ?_ (State.modStack_keeps ..)
  refine DataKept.trans ?_ (State.noteVitals_keeps ..)
  refine DataKept.trans ?_ (State.setTemp_keeps ..)
  refine DataKept.trans ?_ (State.at__keeps ..)
  exact DataKept.refl _
  refine DataKept.nx ?_
  refine DataKept.trans ?_ (State.noteVitals_keeps ..)
  refine DataKept.trans ?_ (State.setTemp_keeps ..)
  refine DataKept.trans ?_ (State.at__keeps ..)
  exact DataKept.refl _

theorem State.modDeep_keeps (s : State) (f : DeepSt → DeepSt) : DataKept s (State.modDeep s f) := by
  unfold State.modDeep
  with_reducible refine DataKept.trans ?_ (DataKept.fields rfl rfl rfl rfl)
  exact DataKept.refl _

theorem State.openSet_keeps (s : State) (g b : Nat) : DataKept s (State.openSet s g b) := by
  unfold State.openSet
  extract_lets +onlyGivenNames q1
  refine DataKept.trans ?_ (State.modDeep_keeps ..)
  exact DataKept.refl _

theorem State.takePlace_keeps (s : State) (g : Nat) (y0 : Nat) : ∀ v : SlotLoc × State, State.takePlace s g y0 = some v → DataKept s v.2 := by
  induction y0 generalizing s with
  | zero =>
    unfold State.takePlace
    exact DataKept.optNone
  | succ n ih =>
    unfold State.takePlace
    extract_lets +onlyGivenNames q1
    split
    (unfold q1; split)
    refine DataKept.optSome ?_
    dsimp only
    refine DataKept.trans ?_ (State.modDeep_keeps ..)
    exact DataKept.refl _
    refine fun v hv => DataKept.trans ?_ (ih _ _ hv)
    refine DataKept.trans ?_ (State.openSet_keeps ..)
    exact DataKept.refl _
    (unfold q1; split)
    refine DataKept.optSome ?_
    dsimp only
    refine DataKept.trans ?_ (State.modDeep_keeps ..)
    exact DataKept.refl _
    exact DataKept.optNone

theorem State.placeSlot_keeps (s : State) (slot : Nat) (l : SlotLoc) : DataKept s (State.placeSlot s slot l) := by
  unfold State.placeSlot
  refine DataKept.trans ?_ (State.journal_keeps ..)
  refine DataKept.trans ?_ (State.modDeep_keeps ..)
  exact DataKept.refl _

theorem State.moveSlot_keeps (s : State) (slot : Nat) : DataKept s (State.moveSlot s slot) := by
  unfold State.moveSlot
  extract_lets +onlyGivenNames q1
  refine DataKept.ite ?_ ?_
  split
  refine DataKept.trans ?_ (State.placeSlot_keeps ..)
  refine DataKept.trans ?_ (State.takePlace_keeps _ _ _ _ (by assumption))
  exact DataKept.refl _
  exact DataKept.refl _
  exact DataKept.refl _

theorem State.relocate_keeps (s : State) (slots : List Nat) : DataKept s (State.relocate s slots) := by
  unfold State.relocate
  refine DataKept.foldl ?_ (fun s x => ?_)
  refine DataKept.trans ?_ (State.modDeep_keeps ..)
  exact DataKept.refl _
  refine DataKept.trans ?_ (State.moveSlot_keeps ..)
  exact DataKept.refl _

theorem State.eraseSet_keeps (s : State) (g b : Nat) : DataKept s (State.eraseSet s g b) := by
  unfold State.eraseSet
  extract_lets +onlyGivenNames q1
  refine DataKept.trans ?_ (State.modDeep_keeps ..)
  refine DataKept.trans ?_ (State.modDeep_keeps ..)
  exact DataKept.refl _

theorem State.moveSet_keeps (s : State) (g b : Nat) : DataKept s (State.moveSet s g b) := by
  unfold State.moveSet
  extract_lets +onlyGivenNames q1
  extract_lets +onlyGivenNames q2
  refine DataKept.ite ?_ ?_
  refine DataKept.trans ?_ (State.eraseSet_keeps ..)
  refine DataKept.trans ?_ (State.relocate_keeps ..)
  refine DataKept.trans ?_ (State.modDeep_keeps ..)
  exact DataKept.refl _
  refine DataKept.trans ?_ (State.relocate_keeps ..)
  refine DataKept.trans ?_ (State.modDeep_keeps ..)
  exact DataKept.refl _

theorem execGarbageCollect_keeps (t group : Nat) (s : State) : ∀ v : State, execGarbageCollect t group s = .next v → DataKept s v := by
  unfold execGarbageCollect
  extract_lets +onlyGivenNames q1
  refine DataKept.nxIte ?_ ?_
  split
  refine DataKept.nx ?_
  refine DataKept.trans ?_ (State.noteVitals_keeps ..)
  refine DataKept.trans ?_ (State.moveSet_keeps ..)
  refine DataKept.trans ?_ (State.at__keeps ..)
  exact DataKept.refl _
  refine DataKept.nx ?_
  refine DataKept.trans ?_ (State.at__keeps ..)
  exact DataKept.refl _
  refine DataKept.nx ?_
  refine DataKept.trans ?_ (State.at__keeps ..)
  exact DataKept.refl _

theorem execWearLevelMove_keeps (t group : Nat) (s : State) : ∀ v : State, execWearLevelMove t group s = .next v → DataKept s v := by
  unfold execWearLevelMove
  extract_lets +onlyGivenNames q1
  extract_lets +onlyGivenNames q2
  extract_lets +onlyGivenNames q3
  refine DataKept.nxIte ?_ ?_
  split
  refine DataKept.nxIte ?_ ?_
  refine DataKept.nx ?_
  refine DataKept.trans ?_ (State.noteVitals_keeps ..)
  refine DataKept.trans ?_ (State.moveSet_keeps ..)
  refine DataKept.trans ?_ (State.at__keeps ..)
  exact DataKept.refl _
  refine DataKept.nx ?_
  refine DataKept.trans ?_ (State.at__keeps ..)
  exact DataKept.refl _
  refine DataKept.nx ?_
  refine DataKept.trans ?_ (State.at__keeps ..)
  exact DataKept.refl _
  refine DataKept.nx ?_
  refine DataKept.trans ?_ (State.at__keeps ..)
  exact DataKept.refl _

theorem execSlotProgramDone_keeps (t slot group : Nat) (s : State) : ∀ v : State, execSlotProgramDone t slot group s = .next v → DataKept s v := by
  unfold execSlotProgramDone
  extract_lets +onlyGivenNames q1
  refine DataKept.nxIte ?_ ?_
  split
  refine DataKept.nx ?_
  refine DataKept.trans ?_ (State.modDeep_keeps ..)
  refine DataKept.trans ?_ (State.placeSlot_keeps ..)
  refine DataKept.trans ?_ (State.takePlace_keeps _ _ _ _ (by assumption))
  refine DataKept.trans ?_ (State.at__keeps ..)
  exact DataKept.refl _
  refine DataKept.nx ?_
  refine DataKept.trans ?_ (State.at__keeps ..)
  exact DataKept.refl _
  refine DataKept.nx ?_
  refine DataKept.trans ?_ (State.at__keeps ..)
  exact DataKept.refl _

theorem execReadRefresh_keeps (t die block : Nat) (margin : Bool) (s : State) : ∀ v : State, execReadRefresh t die block margin s = .next v → DataKept s v := by
  unfold execReadRefresh
  extract_lets +onlyGivenNames q1
  extract_lets +onlyGivenNames q2
  refine DataKept.nxIte ?_ ?_
  refine DataKept.nx ?_
  refine DataKept.trans ?_ (State.relocate_keeps ..)
  refine DataKept.trans ?_ (State.at__keeps ..)
  exact DataKept.refl _
  refine DataKept.nx ?_
  refine DataKept.trans ?_ (State.at__keeps ..)
  exact DataKept.refl _

theorem execPatrolRead_keeps (t die block : Nat) (s : State) : ∀ v : State, execPatrolRead t die block s = .next v → DataKept s v := by
  unfold execPatrolRead
  extract_lets +onlyGivenNames q1
  refine DataKept.nxIte ?_ ?_
  extract_lets +onlyGivenNames q2
  refine DataKept.nx ?_
  refine DataKept.trans ?_ (State.modDeep_keeps ..)
  refine DataKept.trans ?_ (State.at__keeps ..)
  exact DataKept.refl _
  refine DataKept.nx ?_
  refine DataKept.trans ?_ (State.at__keeps ..)
  exact DataKept.refl _

theorem execDieRebuildComplete_keeps (t die : Nat) (s : State) : ∀ v : State, execDieRebuildComplete t die s = .next v → DataKept s v := by
  unfold execDieRebuildComplete
  extract_lets +onlyGivenNames q1
  split
  refine DataKept.nxIte ?_ ?_
  extract_lets +onlyGivenNames q2
  refine DataKept.nx ?_
  refine DataKept.trans ?_ (State.caps_keeps ..)
  refine DataKept.trans ?_ (State.journal_keeps ..)
  refine DataKept.trans ?_ (State.modDeep_keeps ..)
  refine DataKept.foldl ?_ (fun s x => ?_)
  refine DataKept.trans ?_ (State.at__keeps ..)
  exact DataKept.refl _
  refine DataKept.trans ?_ (State.moveSlot_keeps ..)
  exact DataKept.refl _
  refine DataKept.nx ?_
  refine DataKept.trans ?_ (State.at__keeps ..)
  exact DataKept.refl _
  refine DataKept.nx ?_
  refine DataKept.trans ?_ (State.at__keeps ..)
  exact DataKept.refl _

theorem execJournalPageProgrammed_keeps (t : Nat) (s : State) : ∀ v : State, execJournalPageProgrammed t s = .next v → DataKept s v := by
  unfold execJournalPageProgrammed
  extract_lets +onlyGivenNames q1
  refine DataKept.nxIte ?_ ?_
  refine DataKept.nx ?_
  refine DataKept.trans ?_ (State.modDeep_keeps ..)
  refine DataKept.trans ?_ (State.at__keeps ..)
  exact DataKept.refl _
  refine DataKept.nx ?_
  refine DataKept.trans ?_ (State.at__keeps ..)
  exact DataKept.refl _

theorem execCheckpointImageDone_keeps (t : Nat) (s : State) : ∀ v : State, execCheckpointImageDone t s = .next v → DataKept s v := by
  unfold execCheckpointImageDone
  extract_lets +onlyGivenNames q1
  refine DataKept.nxIte ?_ ?_
  refine DataKept.nx ?_
  refine DataKept.trans ?_ (State.journal_keeps ..)
  refine DataKept.trans ?_ (State.modDeep_keeps ..)
  refine DataKept.trans ?_ (State.at__keeps ..)
  exact DataKept.refl _
  refine DataKept.nx ?_
  refine DataKept.trans ?_ (State.at__keeps ..)
  exact DataKept.refl _

theorem State.setBank_keeps (s : State) (b : Bank) : DataKept s (State.setBank s b) := by
  unfold State.setBank
  refine DataKept.ite ?_ ?_
  exact DataKept.refl _
  extract_lets +onlyGivenNames q1
  refine DataKept.trans ?_ (State.post_keeps ..)
  refine DataKept.trans ?_ (State.modDeep_keeps ..)
  exact DataKept.refl _

theorem State.startTest_keeps (s : State) : DataKept s (State.startTest s) := by
  unfold State.startTest
  refine DataKept.trans ?_ (State.setBank_keeps ..)
  refine DataKept.trans ?_ (State.modDeep_keeps ..)
  exact DataKept.refl _

theorem execHoldupTestDue_keeps (t : Nat) (s : State) : ∀ v : State, execHoldupTestDue t s = .next v → DataKept s v := by
  unfold execHoldupTestDue
  extract_lets +onlyGivenNames q1
  extract_lets +onlyGivenNames q2
  refine DataKept.nxIte ?_ ?_
  refine DataKept.nx ?_
  refine DataKept.trans ?_ (State.noteVitals_keeps ..)
  refine DataKept.trans ?_ (State.startTest_keeps ..)
  refine DataKept.trans ?_ (State.at__keeps ..)
  exact DataKept.refl _
  refine DataKept.nx ?_
  refine DataKept.trans ?_ (State.at__keeps ..)
  exact DataKept.refl _

theorem execTestHoldupBank_keeps (h : MbHdr) (s : State) : ∀ v : State, execTestHoldupBank h s = .next v → DataKept s v := by
  unfold execTestHoldupBank
  refine DataKept.nx ?_
  refine DataKept.trans ?_ (State.mbBg_keeps _ _ _ _ _ ?_)
  exact DataKept.refl _
  refine DataKept.exIte ?_ ?_
  exact DataKept.exErr
  refine DataKept.exOk ?_
  refine DataKept.trans ?_ (State.noteVitals_keeps ..)
  refine DataKept.trans ?_ (State.startTest_keeps ..)
  exact DataKept.refl _

theorem execSetHoldupTestPeriod_keeps (h : MbHdr) (period : Nat) (s : State) : ∀ v : State, execSetHoldupTestPeriod h period s = .next v → DataKept s v := by
  unfold execSetHoldupTestPeriod
  refine DataKept.nx ?_
  refine DataKept.trans ?_ (State.mbRun_keeps _ _ _ _ ?_)
  exact DataKept.refl _
  refine DataKept.okIte ?_ ?_
  exact DataKept.okErr
  refine DataKept.okOk ?_
  dsimp only
  refine DataKept.trans ?_ (State.modDeep_keeps ..)
  exact DataKept.refl _

theorem execSetEnduranceBudget_keeps (h : MbHdr) (b : Nat) (s : State) : ∀ v : State, execSetEnduranceBudget h b s = .next v → DataKept s v := by
  unfold execSetEnduranceBudget
  refine DataKept.nx ?_
  refine DataKept.trans ?_ (State.mbRun_keeps _ _ _ _ ?_)
  exact DataKept.refl _
  refine DataKept.okIte ?_ ?_
  exact DataKept.okErr
  refine DataKept.okOk ?_
  dsimp only
  refine DataKept.trans ?_ (State.noteVitals_keeps ..)
  refine DataKept.trans ?_ (State.recap_keeps ..)
  refine DataKept.trans ?_ (State.journal_keeps ..)
  refine DataKept.trans ?_ (State.modDeep_keeps ..)
  refine DataKept.trans ?_ (State.refill_keeps ..)
  exact DataKept.refl _

theorem State.flush_keeps (s : State) : DataKept s (State.flush s) := by
  unfold State.flush
  extract_lets +onlyGivenNames q1
  extract_lets +onlyGivenNames q2
  extract_lets +onlyGivenNames q3
  refine DataKept.trans ?_ (State.modDeep_keeps ..)
  exact DataKept.refl _

theorem execGpfPhase1_keeps (t port : Nat) (s : State) : ∀ v : State, execGpfPhase1 t port s = .next v → DataKept s v := by
  unfold execGpfPhase1
  extract_lets +onlyGivenNames q1
  refine DataKept.nxIte ?_ ?_
  refine DataKept.nx ?_
  refine DataKept.trans ?_ (State.send_keeps ..)
  refine DataKept.trans ?_ (State.at__keeps ..)
  exact DataKept.refl _
  refine DataKept.nx ?_
  refine DataKept.trans ?_ (State.at__keeps ..)
  exact DataKept.refl _

theorem execGpfPhase2_keeps (t port : Nat) (s : State) : ∀ v : State, execGpfPhase2 t port s = .next v → DataKept s v := by
  unfold execGpfPhase2
  extract_lets +onlyGivenNames q1
  refine DataKept.nxIte ?_ ?_
  extract_lets +onlyGivenNames q2
  refine DataKept.nx ?_
  refine DataKept.trans ?_ (State.send_keeps ..)
  refine DataKept.ite ?_ ?_
  refine DataKept.trans ?_ (State.modDeep_keeps ..)
  refine DataKept.trans ?_ (State.at__keeps ..)
  exact DataKept.refl _
  refine DataKept.trans ?_ (State.flush_keeps ..)
  refine DataKept.trans ?_ (State.at__keeps ..)
  exact DataKept.refl _
  refine DataKept.nx ?_
  refine DataKept.trans ?_ (State.at__keeps ..)
  exact DataKept.refl _

theorem execNearScrubBehind_keeps (t : Nat) (s : State) : ∀ v : State, execNearScrubBehind t s = .next v → DataKept s v := by
  unfold execNearScrubBehind
  extract_lets +onlyGivenNames q1
  refine DataKept.nxIte ?_ ?_
  refine DataKept.nx ?_
  refine DataKept.trans ?_ (State.modInteg_keeps ..)
  refine DataKept.trans ?_ (State.at__keeps ..)
  exact DataKept.refl _
  refine DataKept.nx ?_
  refine DataKept.trans ?_ (State.at__keeps ..)
  exact DataKept.refl _

theorem execSetScrubPeriod_keeps (h : MbHdr) (near sram : Nat) (s : State) : ∀ v : State, execSetScrubPeriod h near sram s = .next v → DataKept s v := by
  unfold execSetScrubPeriod
  refine DataKept.nx ?_
  refine DataKept.trans ?_ (State.mbRun_keeps _ _ _ _ ?_)
  exact DataKept.refl _
  refine DataKept.okIte ?_ ?_
  exact DataKept.okErr
  refine DataKept.okOk ?_
  dsimp only
  refine DataKept.trans ?_ (State.modInteg_keeps ..)
  exact DataKept.refl _

theorem execArmFlipMaskNear_keeps (h : MbHdr) (dpa word mask : Nat) (s : State) : ∀ v : State, execArmFlipMaskNear h dpa word mask s = .next v → DataKept s v := by
  unfold execArmFlipMaskNear
  refine DataKept.nx ?_
  refine DataKept.trans ?_ (State.mbRun_keeps _ _ _ _ ?_)
  exact DataKept.refl _
  extract_lets +onlyGivenNames q1
  split
  refine DataKept.okIte ?_ ?_
  exact DataKept.okErr
  refine DataKept.okIte ?_ ?_
  exact DataKept.okErr
  extract_lets +onlyGivenNames q2
  refine DataKept.okOk ?_
  dsimp only
  refine DataKept.trans ?_ (State.modIntegLd_keeps ..)
  exact DataKept.refl _
  exact DataKept.okErr

theorem execArmFlipMaskStone_keeps (h : MbHdr) (stone bank word mask : Nat) (s : State) : ∀ v : State, execArmFlipMaskStone h stone bank word mask s = .next v → DataKept s v := by
  unfold execArmFlipMaskStone
  refine DataKept.nx ?_
  refine DataKept.trans ?_ (State.mbBg_keeps _ _ _ _ _ ?_)
  exact DataKept.refl _
  refine DataKept.exIte ?_ ?_
  exact DataKept.exErr
  refine DataKept.exOk ?_
  exact DataKept.refl _

theorem execFlipMaskExpire_keeps (t ld : Nat) (s : State) : ∀ v : State, execFlipMaskExpire t ld s = .next v → DataKept s v := by
  unfold execFlipMaskExpire
  extract_lets +onlyGivenNames q1
  extract_lets +onlyGivenNames q2
  refine DataKept.nxIte ?_ ?_
  refine DataKept.nx ?_
  refine DataKept.trans ?_ (State.modIntegLd_keeps ..)
  refine DataKept.trans ?_ (State.at__keeps ..)
  exact DataKept.refl _
  refine DataKept.nx ?_
  refine DataKept.trans ?_ (State.at__keeps ..)
  exact DataKept.refl _

theorem execDisarmFlipMask_keeps (h : MbHdr) (s : State) : ∀ v : State, execDisarmFlipMask h s = .next v → DataKept s v := by
  unfold execDisarmFlipMask
  refine DataKept.nx ?_
  refine DataKept.trans ?_ (State.mbRun_keeps _ _ _ _ ?_)
  exact DataKept.refl _
  refine DataKept.okIte ?_ ?_
  exact DataKept.okErr
  refine DataKept.okOk ?_
  dsimp only
  refine DataKept.trans ?_ (State.modIntegLd_keeps ..)
  exact DataKept.refl _

theorem execGetCorrectableErrorTable_keeps (h : MbHdr) (o : OutReq) (s : State) : ∀ v : State, execGetCorrectableErrorTable h o s = .next v → DataKept s v := by
  unfold execGetCorrectableErrorTable
  refine DataKept.nx ?_
  refine DataKept.trans ?_ (State.mbSnap_keeps ..)
  exact DataKept.refl _

theorem execGetUncorrectableErrorLog_keeps (h : MbHdr) (o : OutReq) (s : State) : ∀ v : State, execGetUncorrectableErrorLog h o s = .next v → DataKept s v := by
  unfold execGetUncorrectableErrorLog
  refine DataKept.nx ?_
  refine DataKept.trans ?_ (State.mbSnap_keeps ..)
  exact DataKept.refl _

theorem execGetRetirementList_keeps (h : MbHdr) (o : OutReq) (s : State) : ∀ v : State, execGetRetirementList h o s = .next v → DataKept s v := by
  unfold execGetRetirementList
  refine DataKept.nx ?_
  refine DataKept.trans ?_ (State.mbSnap_keeps ..)
  exact DataKept.refl _

theorem execClearCorrectableErrorTable_keeps (h : MbHdr) (s : State) : ∀ v : State, execClearCorrectableErrorTable h s = .next v → DataKept s v := by
  unfold execClearCorrectableErrorTable
  refine DataKept.nx ?_
  refine DataKept.trans ?_ (State.mbRun_keeps _ _ _ _ ?_)
  exact DataKept.refl _
  refine DataKept.okOk ?_
  dsimp only
  refine DataKept.trans ?_ (State.modInteg_keeps ..)
  exact DataKept.refl _

theorem execLedgerCoalesceEnd_keeps (t kind utype unit : Nat) (s : State) : ∀ v : State, execLedgerCoalesceEnd t kind utype unit s = .next v → DataKept s v := by
  unfold execLedgerCoalesceEnd
  extract_lets +onlyGivenNames q1
  split
  refine DataKept.nxIte ?_ ?_
  extract_lets +onlyGivenNames q2
  refine DataKept.nxIte ?_ ?_
  refine DataKept.nx ?_
  refine DataKept.trans ?_ (State.modResult_keeps ..)
  refine DataKept.trans ?_ (State.at__keeps ..)
  exact DataKept.refl _
  refine DataKept.nx ?_
  refine DataKept.trans ?_ (State.ledger_keeps ..)
  refine DataKept.trans ?_ (State.modResult_keeps ..)
  refine DataKept.trans ?_ (State.at__keeps ..)
  exact DataKept.refl _
  refine DataKept.nx ?_
  refine DataKept.trans ?_ (State.at__keeps ..)
  exact DataKept.refl _
  refine DataKept.nx ?_
  refine DataKept.trans ?_ (State.at__keeps ..)
  exact DataKept.refl _

theorem execGetLedger_keeps (h : MbHdr) (seqno maxrec : Nat) (s : State) : ∀ v : State, execGetLedger h seqno maxrec s = .next v → DataKept s v := by
  unfold execGetLedger
  refine DataKept.nx ?_
  refine DataKept.trans ?_ (State.mbRun_keeps _ _ _ _ ?_)
  exact DataKept.refl _
  refine DataKept.okIte ?_ ?_
  exact DataKept.okErr
  extract_lets +onlyGivenNames q1
  extract_lets +onlyGivenNames q2
  extract_lets +onlyGivenNames q3
  refine DataKept.okOk ?_
  exact DataKept.refl _

theorem execGetResultErrorLog_keeps (h : MbHdr) (o : OutReq) (s : State) : ∀ v : State, execGetResultErrorLog h o s = .next v → DataKept s v := by
  unfold execGetResultErrorLog
  refine DataKept.nx ?_
  refine DataKept.trans ?_ (State.mbSnap_keeps ..)
  exact DataKept.refl _

theorem execAppendLedgerNote_keeps (h : MbHdr) (note : Bytes) (s : State) : ∀ v : State, execAppendLedgerNote h note s = .next v → DataKept s v := by
  unfold execAppendLedgerNote
  extract_lets +onlyGivenNames q1
  refine DataKept.nxIte ?_ ?_
  refine DataKept.nx ?_
  exact DataKept.refl _
  split
  refine DataKept.nx ?_
  refine DataKept.trans ?_ (State.answer_keeps ..)
  exact DataKept.refl _
  refine DataKept.nx ?_
  refine DataKept.trans ?_ (State.ledger_keeps ..)
  exact DataKept.refl _

theorem execSetCheckPolicy_keeps (h : MbHdr) (s0 s1 s2 earlyen : Nat) (s : State) : ∀ v : State, execSetCheckPolicy h s0 s1 s2 earlyen s = .next v → DataKept s v := by
  unfold execSetCheckPolicy
  refine DataKept.nx ?_
  refine DataKept.trans ?_ (State.mbRun_keeps _ _ _ _ ?_)
  exact DataKept.refl _
  refine DataKept.okIte ?_ ?_
  exact DataKept.okErr
  refine DataKept.okOk ?_
  dsimp only
  refine DataKept.trans ?_ (State.modResult_keeps ..)
  exact DataKept.refl _

theorem execGetUnitHealth_keeps (h : MbHdr) (s : State) : ∀ v : State, execGetUnitHealth h s = .next v → DataKept s v := by
  unfold execGetUnitHealth
  refine DataKept.nx ?_
  refine DataKept.trans ?_ (State.mbRun_keeps _ _ _ _ ?_)
  exact DataKept.refl _
  extract_lets +onlyGivenNames q1
  extract_lets +onlyGivenNames q2
  refine DataKept.okOk ?_
  exact DataKept.refl _

theorem execClearUnitRecord_keeps (h : MbHdr) (utype unit : Nat) (s : State) : ∀ v : State, execClearUnitRecord h utype unit s = .next v → DataKept s v := by
  unfold execClearUnitRecord
  refine DataKept.nx ?_
  refine DataKept.trans ?_ (State.mbRun_keeps _ _ _ _ ?_)
  exact DataKept.refl _
  refine DataKept.okIte ?_ ?_
  exact DataKept.okErr
  refine DataKept.okOk ?_
  dsimp only
  refine DataKept.trans ?_ (State.setUnit_keeps ..)
  exact DataKept.refl _

theorem execInstallTestContent_keeps (h : MbHdr) (p : Part) (s : State) : ∀ v : State, execInstallTestContent h p s = .next v → DataKept s v := by
  unfold execInstallTestContent
  refine DataKept.nx ?_
  refine DataKept.trans ?_ (State.mbPartsBg_keeps _ _ _ _ _ _ ?_)
  exact DataKept.refl _
  intro _ _ 
  refine DataKept.exOk ?_
  exact DataKept.refl _

theorem execGetTestContent_keeps (h : MbHdr) (s : State) : ∀ v : State, execGetTestContent h s = .next v → DataKept s v := by
  unfold execGetTestContent
  refine DataKept.nx ?_
  refine DataKept.trans ?_ (State.mbRun_keeps _ _ _ _ ?_)
  exact DataKept.refl _
  refine DataKept.okOk ?_
  exact DataKept.refl _

theorem State.modRange_keeps (s : State) (ld id : Nat) (f : Range → Range) : DataKept s (State.modRange s ld id f) := by
  unfold State.modRange
  refine DataKept.trans ?_ (State.modResult_keeps ..)
  exact DataKept.refl _

theorem execDefineDigestRange_keeps (h : MbHdr) (base len key period wheel layer : Nat) (s : State) : ∀ v : State, execDefineDigestRange h base len key period wheel layer s = .next v → DataKept s v := by
  unfold execDefineDigestRange
  refine DataKept.nx ?_
  refine DataKept.trans ?_ (State.mbRun_keeps _ _ _ _ ?_)
  exact DataKept.refl _
  split
  exact DataKept.okErr
  extract_lets +onlyGivenNames q1
  refine DataKept.okIte ?_ ?_
  exact DataKept.okErr
  refine DataKept.okIte ?_ ?_
  exact DataKept.okErr
  extract_lets +onlyGivenNames q2
  extract_lets +onlyGivenNames q3
  refine DataKept.okOk ?_
  dsimp only
  refine DataKept.trans ?_ (State.modResult_keeps ..)
  exact DataKept.refl _

theorem execDeleteDigestRange_keeps (h : MbHdr) (range : Nat) (s : State) : ∀ v : State, execDeleteDigestRange h range s = .next v → DataKept s v := by
  unfold execDeleteDigestRange
  refine DataKept.nx ?_
  refine DataKept.trans ?_ (State.mbRun_keeps _ _ _ _ ?_)
  exact DataKept.refl _
  split
  exact DataKept.okErr
  extract_lets +onlyGivenNames q1
  extract_lets +onlyGivenNames q2
  refine DataKept.okOk ?_
  dsimp only
  refine DataKept.ite ?_ ?_
  refine DataKept.trans ?_ (State.endJob_keeps ..)
  refine DataKept.trans ?_ (State.modResult_keeps ..)
  exact DataKept.refl _
  refine DataKept.trans ?_ (State.modResult_keeps ..)
  exact DataKept.refl _

theorem execGetDigest_keeps (h : MbHdr) (range : Nat) (s : State) : ∀ v : State, execGetDigest h range s = .next v → DataKept s v := by
  unfold execGetDigest
  refine DataKept.nx ?_
  refine DataKept.trans ?_ (State.mbRun_keeps _ _ _ _ ?_)
  exact DataKept.refl _
  split
  exact DataKept.okErr
  extract_lets +onlyGivenNames q1
  refine DataKept.okOk ?_
  exact DataKept.refl _

theorem execSetDigestReference_keeps (h : MbHdr) (range : Nat) (reference : BitVec 256) (s : State) : ∀ v : State, execSetDigestReference h range reference s = .next v → DataKept s v := by
  unfold execSetDigestReference
  refine DataKept.nx ?_
  refine DataKept.trans ?_ (State.mbRun_keeps _ _ _ _ ?_)
  exact DataKept.refl _
  split
  exact DataKept.okErr
  refine DataKept.okOk ?_
  dsimp only
  refine DataKept.trans ?_ (State.modRange_keeps ..)
  exact DataKept.refl _

theorem execRunDigest_keeps (h : MbHdr) (range : Nat) (s : State) : ∀ v : State, execRunDigest h range s = .next v → DataKept s v := by
  unfold execRunDigest
  refine DataKept.nx ?_
  refine DataKept.trans ?_ (State.mbBg_keeps _ _ _ _ _ ?_)
  exact DataKept.refl _
  split
  exact DataKept.exErr
  refine DataKept.exIte ?_ ?_
  exact DataKept.exErr
  refine DataKept.exOk ?_
  refine DataKept.trans ?_ (State.modRange_keeps ..)
  exact DataKept.refl _

theorem execSetDigestPeer_keeps (h : MbHdr) (range port window : Nat) (bind : Bool) (s : State) : ∀ v : State, execSetDigestPeer h range port window bind s = .next v → DataKept s v := by
  unfold execSetDigestPeer
  refine DataKept.nx ?_
  refine DataKept.trans ?_ (State.mbRun_keeps _ _ _ _ ?_)
  exact DataKept.refl _
  split
  exact DataKept.okErr
  refine DataKept.okIte ?_ ?_
  refine DataKept.okOk ?_
  dsimp only
  refine DataKept.trans ?_ (State.modRange_keeps ..)
  exact DataKept.refl _
  extract_lets +onlyGivenNames q1
  refine DataKept.okIte ?_ ?_
  exact DataKept.okErr
  refine DataKept.okOk ?_
  dsimp only
  refine DataKept.trans ?_ (State.modRange_keeps ..)
  exact DataKept.refl _

theorem State.retrain_keeps (s : State) (port : Nat) (fromDetect : Bool) : DataKept s (State.retrain s port fromDetect) := by
  unfold State.retrain
  extract_lets +onlyGivenNames q1
  extract_lets +onlyGivenNames q2
  refine DataKept.ite ?_ ?_
  refine DataKept.trans ?_ (State.modPorts_keeps ..)
  exact DataKept.refl _
  extract_lets +onlyGivenNames q3
  refine DataKept.trans ?_ (State.modPort_keeps ..)
  refine DataKept.trans ?_ (State.modPorts_keeps ..)
  exact DataKept.refl _

theorem State.modLane_keeps (s : State) (port lane : Nat) (f : Lane → Lane) : DataKept s (State.modLane s port lane f) := by
  unfold State.modLane
  refine DataKept.trans ?_ (State.modPorts_keeps ..)
  exact DataKept.refl _

theorem State.setGroup_keeps (s : State) (port : Nat) (g : List Nat) : DataKept s (State.setGroup s port g) := by
  unfold State.setGroup
  extract_lets +onlyGivenNames q1
  extract_lets +onlyGivenNames q2
  refine DataKept.ite ?_ ?_
  refine DataKept.trans ?_ (State.modPort_keeps ..)
  exact DataKept.refl _
  extract_lets +onlyGivenNames q3
  refine DataKept.trans ?_ (State.recap_keeps ..)
  refine DataKept.ite ?_ ?_
  refine DataKept.trans ?_ (State.modPort_keeps ..)
  exact DataKept.refl _
  refine DataKept.trans ?_ (State.modCxe_keeps ..)
  refine DataKept.trans ?_ (State.modPort_keeps ..)
  exact DataKept.refl _

theorem execLaserAgeing_keeps (t port lane wavelength bias : Nat) (s : State) : ∀ v : State, execLaserAgeing t port lane wavelength bias s = .next v → DataKept s v := by
  unfold execLaserAgeing
  extract_lets +onlyGivenNames q1
  refine DataKept.nxIte ?_ ?_
  refine DataKept.nx ?_
  refine DataKept.trans ?_ (State.at__keeps ..)
  exact DataKept.refl _
  extract_lets +onlyGivenNames q2
  extract_lets +onlyGivenNames q3
  refine DataKept.nxIte ?_ ?_
  refine DataKept.nx ?_
  refine DataKept.trans ?_ (State.modLane_keeps ..)
  refine DataKept.trans ?_ (State.at__keeps ..)
  exact DataKept.refl _
  extract_lets +onlyGivenNames q4
  refine DataKept.nx ?_
  refine DataKept.trans ?_ (State.post_keeps ..)
  refine DataKept.trans ?_ (State.modLane_keeps ..)
  refine DataKept.trans ?_ (State.modLane_keeps ..)
  refine DataKept.trans ?_ (State.at__keeps ..)
  exact DataKept.refl _

theorem execPortL0p_keeps (t port width : Nat) (s : State) : ∀ v : State, execPortL0p t port width s = .next v → DataKept s v := by
  unfold execPortL0p
  extract_lets +onlyGivenNames q1
  extract_lets +onlyGivenNames q2
  refine DataKept.nxIte ?_ ?_
  refine DataKept.nx ?_
  refine DataKept.trans ?_ (State.setGroup_keeps ..)
  refine DataKept.trans ?_ (State.modPort_keeps ..)
  refine DataKept.trans ?_ (State.at__keeps ..)
  exact DataKept.refl _
  refine DataKept.nx ?_
  refine DataKept.trans ?_ (State.at__keeps ..)
  exact DataKept.refl _

theorem execPortL1Entry_keeps (t port : Nat) (s : State) : ∀ v : State, execPortL1Entry t port s = .next v → DataKept s v := by
  unfold execPortL1Entry
  extract_lets +onlyGivenNames q1
  extract_lets +onlyGivenNames q2
  refine DataKept.nxIte ?_ ?_
  refine DataKept.nx ?_
  refine DataKept.trans ?_ (State.modPort_keeps ..)
  refine DataKept.trans ?_ (State.at__keeps ..)
  exact DataKept.refl _
  refine DataKept.nx ?_
  refine DataKept.trans ?_ (State.at__keeps ..)
  exact DataKept.refl _

theorem execPortL2Entry_keeps (t port : Nat) (s : State) : ∀ v : State, execPortL2Entry t port s = .next v → DataKept s v := by
  unfold execPortL2Entry
  extract_lets +onlyGivenNames q1
  refine DataKept.nxIte ?_ ?_
  refine DataKept.nx ?_
  refine DataKept.trans ?_ (State.setGroup_keeps ..)
  refine DataKept.trans ?_ (State.modPort_keeps ..)
  refine DataKept.trans ?_ (State.at__keeps ..)
  exact DataKept.refl _
  refine DataKept.nx ?_
  refine DataKept.trans ?_ (State.at__keeps ..)
  exact DataKept.refl _

theorem execPeerStandbyTimeout_keeps (t port : Nat) (s : State) : ∀ v : State, execPeerStandbyTimeout t port s = .next v → DataKept s v := by
  unfold execPeerStandbyTimeout
  extract_lets +onlyGivenNames q1
  extract_lets +onlyGivenNames q2
  refine DataKept.nxIte ?_ ?_
  refine DataKept.nx ?_
  refine DataKept.trans ?_ (State.modPort_keeps ..)
  refine DataKept.trans ?_ (State.at__keeps ..)
  exact DataKept.refl _
  refine DataKept.nx ?_
  refine DataKept.trans ?_ (State.at__keeps ..)
  exact DataKept.refl _

theorem execPortExitToActive_keeps (t port : Nat) (s : State) : ∀ v : State, execPortExitToActive t port s = .next v → DataKept s v := by
  unfold execPortExitToActive
  extract_lets +onlyGivenNames q1
  extract_lets +onlyGivenNames q2
  refine DataKept.nxIte ?_ ?_
  refine DataKept.nx ?_
  refine DataKept.trans ?_ (State.at__keeps ..)
  exact DataKept.refl _
  split
  refine DataKept.nx ?_
  refine DataKept.trans ?_ (State.at__keeps ..)
  exact DataKept.refl _
  refine DataKept.nx ?_
  refine DataKept.trans ?_ (State.pump_keeps ..)
  refine DataKept.trans ?_ (State.setGroup_keeps ..)
  refine DataKept.trans ?_ (State.modPort_keeps ..)
  refine DataKept.trans ?_ (State.at__keeps ..)
  exact DataKept.refl _
  refine DataKept.nx ?_
  refine DataKept.trans ?_ (State.pump_keeps ..)
  refine DataKept.trans ?_ (State.setGroup_keeps ..)
  refine DataKept.trans ?_ (State.modPort_keeps ..)
  refine DataKept.trans ?_ (State.at__keeps ..)
  exact DataKept.refl _
  refine DataKept.nxIte ?_ ?_
  refine DataKept.nx ?_
  refine DataKept.trans ?_ (State.at__keeps ..)
  exact DataKept.refl _
  refine DataKept.nx ?_
  refine DataKept.trans ?_ (State.modPort_keeps ..)
  refine DataKept.trans ?_ (State.at__keeps ..)
  exact DataKept.refl _

theorem execRetrainLink_keeps (ld : Nat) (s : State) : ∀ v : State, execRetrainLink ld s = .next v → DataKept s v := by
  unfold execRetrainLink
  refine DataKept.nxIte ?_ ?_
  refine DataKept.nx ?_
  refine DataKept.trans ?_ (State.recap_keeps ..)
  refine DataKept.trans ?_ (State.retrain_keeps ..)
  exact DataKept.refl _
  refine DataKept.nx ?_
  exact DataKept.refl _

theorem execRetrainPort_keeps (h : MbHdr) (port : Nat) (s : State) : ∀ v : State, execRetrainPort h port s = .next v → DataKept s v := by
  unfold execRetrainPort
  refine DataKept.nx ?_
  refine DataKept.trans ?_ (State.mbBg_keeps _ _ _ _ _ ?_)
  exact DataKept.refl _
  refine DataKept.exIte ?_ ?_
  exact DataKept.exErr
  extract_lets +onlyGivenNames q1
  refine DataKept.exOk ?_
  refine DataKept.ite ?_ ?_
  refine DataKept.trans ?_ (State.recap_keeps ..)
  refine DataKept.trans ?_ (State.retrain_keeps ..)
  exact DataKept.refl _
  refine DataKept.trans ?_ (State.retrain_keeps ..)
  exact DataKept.refl _

theorem execSetPeerPort_keeps (h : MbHdr) (port enable standby grace : Nat) (s : State) : ∀ v : State, execSetPeerPort h port enable standby grace s = .next v → DataKept s v := by
  unfold execSetPeerPort
  refine DataKept.nx ?_
  refine DataKept.trans ?_ (State.mbRun_keeps _ _ _ _ ?_)
  exact DataKept.refl _
  refine DataKept.okIte ?_ ?_
  exact DataKept.okErr
  extract_lets +onlyGivenNames q1
  extract_lets +onlyGivenNames q2
  refine DataKept.okIte ?_ ?_
  refine DataKept.okOk ?_
  dsimp only
  refine DataKept.trans ?_ (State.modPort_keeps ..)
  refine DataKept.trans ?_ (State.modPort_keeps ..)
  exact DataKept.refl _
  refine DataKept.okIte ?_ ?_
  refine DataKept.okOk ?_
  dsimp only
  refine DataKept.trans ?_ (State.modPort_keeps ..)
  refine DataKept.trans ?_ (State.modPort_keeps ..)
  exact DataKept.refl _
  refine DataKept.okOk ?_
  dsimp only
  refine DataKept.trans ?_ (State.modPort_keeps ..)
  exact DataKept.refl _

theorem State.telemetry_keeps (s : State) (port : Nat) (y0 : Nat) (y1 : Nat) : DataKept s (State.telemetry s port y0 y1).2 := by
  induction y0 generalizing s y1 with
  | zero =>
    unfold State.telemetry
    exact DataKept.refl _
  | succ n ih =>
    unfold State.telemetry
    extract_lets +onlyGivenNames q1
    extract_lets +onlyGivenNames q2
    extract_lets +onlyGivenNames q3
    extract_lets +onlyGivenNames q4
    extract_lets +onlyGivenNames q5
    extract_lets +onlyGivenNames q6
    dsimp only
    refine DataKept.trans ?_ (ih ..)
    refine DataKept.trans ?_ (State.free_keeps ..)
    refine DataKept.trans ?_ (State.free_keeps ..)
    exact DataKept.refl _

theorem execGetPortTelemetry_keeps (h : MbHdr) (port : Nat) (s : State) : ∀ v : State, execGetPortTelemetry h port s = .next v → DataKept s v := by
  unfold execGetPortTelemetry
  refine DataKept.nx ?_
  refine DataKept.trans ?_ (State.mbRun_keeps _ _ _ _ ?_)
  exact DataKept.refl _
  refine DataKept.okIte ?_ ?_
  exact DataKept.okErr
  extract_lets +onlyGivenNames q1
  refine DataKept.okOk ?_
  dsimp only
  refine DataKept.trans ?_ (State.telemetry_keeps ..)
  exact DataKept.refl _

theorem State.takeWord_keeps (s : State) (port : Nat) (x : Nat × LaneWord) : DataKept s (State.takeWord s port x) := by
  unfold State.takeWord
  extract_lets +onlyGivenNames q1
  refine DataKept.trans ?_ (State.modLane_keeps ..)
  exact DataKept.refl _

theorem State.takeWords_keeps (s : State) (port : Nat) (ws : List (Nat × LaneWord)) : DataKept s (State.takeWords s port ws) := by
  unfold State.takeWords
  refine DataKept.foldl ?_ (fun s x => ?_)
  exact DataKept.refl _
  refine DataKept.trans ?_ (State.takeWord_keeps ..)
  exact DataKept.refl _

theorem State.badLdid_keeps (s : State) (port : Nat) : DataKept s (State.badLdid s port) := by
  unfold State.badLdid
  refine DataKept.trans ?_ (State.modCxe_keeps ..)
  exact DataKept.refl _

theorem execBadLdId_keeps (port ldid kind tag : Nat) (s : State) : ∀ v : State, execBadLdId port ldid kind tag s = .next v → DataKept s v := by
  unfold execBadLdId
  refine DataKept.nxIte ?_ ?_
  refine DataKept.nx ?_
  exact DataKept.refl _
  refine DataKept.nxIte ?_ ?_
  refine DataKept.nx ?_
  exact DataKept.refl _
  extract_lets +onlyGivenNames q1
  split
  refine DataKept.nx ?_
  refine DataKept.trans ?_ (State.send_keeps ..)
  refine DataKept.trans ?_ (State.badLdid_keeps ..)
  exact DataKept.refl _
  refine DataKept.nx ?_
  refine DataKept.trans ?_ (State.send_keeps ..)
  refine DataKept.trans ?_ (State.badLdid_keeps ..)
  exact DataKept.refl _
  refine DataKept.nx ?_
  refine DataKept.trans ?_ (State.send_keeps ..)
  refine DataKept.trans ?_ (State.badLdid_keeps ..)
  exact DataKept.refl _

theorem State.badMsg_keeps (s : State) : DataKept s (State.badMsg s) := by
  unfold State.badMsg
  refine DataKept.trans ?_ (State.modPorts_keeps ..)
  exact DataKept.refl _

theorem State.onPeer_keeps (s : State) (p : PeerHdr) (ptype : Nat) (f : State → State) (hf : ∀ v, DataKept v (f v)) :
    DataKept s (s.onPeer p ptype f) := by
  unfold State.onPeer
  refine DataKept.ite (DataKept.refl _) (DataKept.ite ?_ ?_)
  · exact DataKept.trans (State.modPort_keeps ..) (State.badMsg_keeps ..)
  · exact DataKept.trans (State.modPort_keeps ..) (hf _)

theorem State.answerPeer_keeps (s : State) (p : PeerHdr) (status : Nat) : DataKept s (State.answerPeer s p status) := by
  unfold State.answerPeer
  extract_lets +onlyGivenNames q1
  extract_lets +onlyGivenNames q2
  extract_lets +onlyGivenNames q3
  refine DataKept.trans ?_ (State.sendPeer_keeps ..)
  refine DataKept.trans ?_ (State.modPorts_keeps ..)
  exact DataKept.refl _

theorem State.resend_keeps (s : State) (k : Packet) : DataKept s (State.resend s k) := by
  unfold State.resend
  extract_lets +onlyGivenNames q1
  extract_lets +onlyGivenNames q2
  refine DataKept.trans ?_ (State.transmit_keeps ..)
  refine DataKept.trans ?_ (State.modPacket_keeps ..)
  exact DataKept.refl _

theorem State.packetOk_keeps (s : State) (k : Packet) : DataKept s (State.packetOk s k) := by
  unfold State.packetOk
  extract_lets +onlyGivenNames q1
  refine DataKept.ite ?_ ?_
  refine DataKept.trans ?_ (State.modPorts_keeps ..)
  exact DataKept.refl _
  split
  refine DataKept.trans ?_ (State.modPorts_keeps ..)
  exact DataKept.refl _
  extract_lets +onlyGivenNames q2
  extract_lets +onlyGivenNames q3
  extract_lets +onlyGivenNames q4
  refine DataKept.trans ?_ (State.sweepFwds_keeps ..)
  refine DataKept.ite ?_ ?_
  refine DataKept.trans ?_ (State.modFwdLd_keeps ..)
  refine DataKept.trans ?_ (State.modFwd_keeps ..)
  refine DataKept.trans ?_ (State.modPorts_keeps ..)
  exact DataKept.refl _
  refine DataKept.trans ?_ (State.modFwd_keeps ..)
  refine DataKept.trans ?_ (State.modPorts_keeps ..)
  exact DataKept.refl _

theorem State.provFull_keeps (s : State) (id : Nat) : DataKept s (State.provFull s id) := by
  unfold State.provFull
  split
  exact DataKept.refl _
  extract_lets +onlyGivenNames q1
  refine DataKept.ite ?_ ?_
  extract_lets +onlyGivenNames q2
  refine DataKept.ite ?_ ?_
  refine DataKept.trans ?_ (State.startForward_keeps ..)
  refine DataKept.trans ?_ (State.sweepFwds_keeps ..)
  refine DataKept.trans ?_ (State.modRiLd_keeps ..)
  refine DataKept.trans ?_ (State.modPorts_keeps ..)
  exact DataKept.refl _
  refine DataKept.trans ?_ (State.sweepFwds_keeps ..)
  refine DataKept.trans ?_ (State.modPorts_keeps ..)
  exact DataKept.refl _
  refine DataKept.trans ?_ (State.flushSettles_keeps ..)
  refine DataKept.trans ?_ (State.modFwd_keeps ..)
  refine DataKept.trans ?_ (State.modPorts_keeps ..)
  exact DataKept.refl _

theorem execPack_keeps (p : PeerHdr) (s : State) : ∀ v : State, execPack p s = .next v → DataKept s v := by
  unfold execPack
  refine DataKept.nx ?_
  refine DataKept.trans ?_ (State.onPeer_keeps _ _ _ _ ?_)
  exact DataKept.refl _
  intro _
  split
  refine DataKept.trans ?_ (State.badMsg_keeps ..)
  exact DataKept.refl _
  split
  refine DataKept.trans ?_ (State.pump_keeps ..)
  refine DataKept.trans ?_ (State.packetOk_keeps ..)
  exact DataKept.refl _
  refine DataKept.trans ?_ (State.modPacket_keeps ..)
  exact DataKept.refl _
  extract_lets +onlyGivenNames q1
  refine DataKept.ite ?_ ?_
  refine DataKept.trans ?_ (State.modPacket_keeps ..)
  unfold q1
  split
  refine DataKept.trans ?_ (State.modFwdLd_keeps ..)
  exact DataKept.refl _
  exact DataKept.refl _
  refine DataKept.trans ?_ (State.resend_keeps ..)
  unfold q1
  split
  refine DataKept.trans ?_ (State.modFwdLd_keeps ..)
  exact DataKept.refl _
  exact DataKept.refl _
  refine DataKept.ite ?_ ?_
  refine DataKept.trans ?_ (State.pump_keeps ..)
  refine DataKept.trans ?_ (State.packetOk_keeps ..)
  exact DataKept.refl _
  refine DataKept.trans ?_ (State.pump_keeps ..)
  refine DataKept.trans ?_ (State.failForward_keeps ..)
  exact DataKept.refl _
  refine DataKept.ite ?_ ?_
  refine DataKept.trans ?_ (State.pump_keeps ..)
  refine DataKept.trans ?_ (State.packetOk_keeps ..)
  exact DataKept.refl _
  refine DataKept.trans ?_ (State.pump_keeps ..)
  refine DataKept.trans ?_ (State.failForward_keeps ..)
  exact DataKept.refl _
  refine DataKept.ite ?_ ?_
  refine DataKept.trans ?_ (State.pump_keeps ..)
  refine DataKept.trans ?_ (State.packetOk_keeps ..)
  exact DataKept.refl _
  refine DataKept.trans ?_ (State.pump_keeps ..)
  refine DataKept.trans ?_ (State.failForward_keeps ..)
  exact DataKept.refl _
  refine DataKept.ite ?_ ?_
  refine DataKept.trans ?_ (State.badMsg_keeps ..)
  exact DataKept.refl _
  refine DataKept.trans ?_ (State.pump_keeps ..)
  refine DataKept.trans ?_ (State.provFull_keeps ..)
  exact DataKept.refl _
  refine DataKept.trans ?_ (State.badMsg_keeps ..)
  exact DataKept.refl _

theorem execPsettleExtend_keeps (p : PeerHdr) (m : Settle) (s : State) : ∀ v : State, execPsettleExtend p m s = .next v → DataKept s v := by
  unfold execPsettleExtend
  refine DataKept.nx ?_
  refine DataKept.trans ?_ (State.onPeer_keeps _ _ _ _ ?_)
  exact DataKept.refl _
  intro _
  refine DataKept.trans ?_ (State.modResult_keeps ..)
  exact DataKept.refl _

theorem execPsettleKindZero_keeps (p : PeerHdr) (_m : Settle) (s : State) : ∀ v : State, execPsettleKindZero p _m s = .next v → DataKept s v := by
  unfold execPsettleKindZero
  refine DataKept.nx ?_
  refine DataKept.trans ?_ (State.onPeer_keeps _ _ _ _ ?_)
  exact DataKept.refl _
  intro _
  refine DataKept.trans ?_ (State.badMsg_keeps ..)
  exact DataKept.refl _

theorem execForwardExtendTimer_keeps (t fwdid : Nat) (s : State) : ∀ v : State, execForwardExtendTimer t fwdid s = .next v → DataKept s v := by
  unfold execForwardExtendTimer
  extract_lets +onlyGivenNames q1
  split
  refine DataKept.nxIte ?_ ?_
  refine DataKept.nx ?_
  refine DataKept.trans ?_ (State.putSettle_keeps ..)
  refine DataKept.trans ?_ (State.modFwd_keeps ..)
  refine DataKept.trans ?_ (State.at__keeps ..)
  exact DataKept.refl _
  refine DataKept.nx ?_
  refine DataKept.trans ?_ (State.at__keeps ..)
  exact DataKept.refl _
  refine DataKept.nx ?_
  refine DataKept.trans ?_ (State.at__keeps ..)
  exact DataKept.refl _

theorem execPdigest_keeps (p : PeerHdr) (key : Nat) (digest : BitVec 256) (_turn : Nat) (changed : Bool) (s : State) : ∀ v : State, execPdigest p key digest _turn changed s = .next v → DataKept s v := by
  unfold execPdigest
  refine DataKept.nx ?_
  refine DataKept.trans ?_ (State.onPeer_keeps _ _ _ _ ?_)
  exact DataKept.refl _
  intro _
  extract_lets +onlyGivenNames q1
  extract_lets +onlyGivenNames q2
  refine DataKept.ite ?_ ?_
  refine DataKept.trans ?_ (State.answerPeer_keeps ..)
  exact DataKept.refl _
  split
  refine DataKept.trans ?_ (State.answerPeer_keeps ..)
  exact DataKept.refl _
  refine DataKept.ite ?_ ?_
  refine DataKept.trans ?_ (State.answerPeer_keeps ..)
  exact DataKept.refl _
  extract_lets +onlyGivenNames q3
  extract_lets +onlyGivenNames q4
  refine DataKept.trans ?_ (State.ledger_keeps ..)
  refine DataKept.trans ?_ (State.modRiLd_keeps ..)
  refine DataKept.trans ?_ (State.answerPeer_keeps ..)
  exact DataKept.refl _

theorem execPnode_keeps (p : PeerHdr) (node : Nat) (s : State) : ∀ v : State, execPnode p node s = .next v → DataKept s v := by
  unfold execPnode
  refine DataKept.nx ?_
  refine DataKept.trans ?_ (State.onPeer_keeps _ _ _ _ ?_)
  exact DataKept.refl _
  intro _
  refine DataKept.trans ?_ (State.modPort_keeps ..)
  exact DataKept.refl _

theorem execPeerBadMessage_keeps (p : PeerHdr) (s : State) : ∀ v : State, execPeerBadMessage p s = .next v → DataKept s v := by
  unfold execPeerBadMessage
  refine DataKept.nx ?_
  refine DataKept.ite ?_ ?_
  refine DataKept.trans ?_ (State.badMsg_keeps ..)
  exact DataKept.refl _
  exact DataKept.refl _

theorem execPwrPendingResend_keeps (t port tag : Nat) (s : State) : ∀ v : State, execPwrPendingResend t port tag s = .next v → DataKept s v := by
  unfold execPwrPendingResend
  extract_lets +onlyGivenNames q1
  split
  refine DataKept.nxIte ?_ ?_
  refine DataKept.nx ?_
  refine DataKept.trans ?_ (State.resend_keeps ..)
  refine DataKept.trans ?_ (State.at__keeps ..)
  exact DataKept.refl _
  refine DataKept.nx ?_
  refine DataKept.trans ?_ (State.at__keeps ..)
  exact DataKept.refl _
  refine DataKept.nx ?_
  refine DataKept.trans ?_ (State.at__keeps ..)
  exact DataKept.refl _

theorem execForwardTimeout_keeps (t fwdid : Nat) (s : State) : ∀ v : State, execForwardTimeout t fwdid s = .next v → DataKept s v := by
  unfold execForwardTimeout
  extract_lets +onlyGivenNames q1
  split
  refine DataKept.nx ?_
  refine DataKept.trans ?_ (State.at__keeps ..)
  exact DataKept.refl _
  refine DataKept.nxIte ?_ ?_
  refine DataKept.nx ?_
  refine DataKept.trans ?_ (State.pump_keeps ..)
  refine DataKept.trans ?_ (State.packetOk_keeps ..)
  refine DataKept.trans ?_ (State.at__keeps ..)
  exact DataKept.refl _
  extract_lets +onlyGivenNames q2
  extract_lets +onlyGivenNames q3
  refine DataKept.nx ?_
  refine DataKept.trans ?_ (State.pump_keeps ..)
  refine DataKept.trans ?_ (State.failForward_keeps ..)
  refine DataKept.iteP ?_ ?_
  dsimp only
  refine DataKept.trans ?_ (State.at__keeps ..)
  exact DataKept.refl _
  refine DataKept.iteP ?_ ?_
  dsimp only
  refine DataKept.trans ?_ (State.at__keeps ..)
  exact DataKept.refl _
  dsimp only
  refine DataKept.trans ?_ (State.free_keeps ..)
  refine DataKept.trans ?_ (State.at__keeps ..)
  exact DataKept.refl _

theorem execPeerGraceEnd_keeps (t port window : Nat) (s : State) : ∀ v : State, execPeerGraceEnd t port window s = .next v → DataKept s v := by
  unfold execPeerGraceEnd
  extract_lets +onlyGivenNames q1
  extract_lets +onlyGivenNames q2
  refine DataKept.nxIte ?_ ?_
  refine DataKept.nx ?_
  refine DataKept.trans ?_ (State.setWindow_keeps ..)
  refine DataKept.trans ?_ (State.at__keeps ..)
  exact DataKept.refl _
  refine DataKept.nx ?_
  refine DataKept.trans ?_ (State.at__keeps ..)
  exact DataKept.refl _

theorem execSetNodeIdentifier_keeps (h : MbHdr) (node : Nat) (s : State) : ∀ v : State, execSetNodeIdentifier h node s = .next v → DataKept s v := by
  unfold execSetNodeIdentifier
  refine DataKept.nx ?_
  refine DataKept.trans ?_ (State.mbRun_keeps _ _ _ _ ?_)
  exact DataKept.refl _
  refine DataKept.okIte ?_ ?_
  exact DataKept.okErr
  extract_lets +onlyGivenNames q1
  refine DataKept.okOk ?_
  dsimp only
  refine DataKept.foldl ?_ (fun s x => ?_)
  refine DataKept.trans ?_ (State.modPorts_keeps ..)
  exact DataKept.refl _
  refine DataKept.ite ?_ ?_
  refine DataKept.trans ?_ (State.sendPeer_keeps ..)
  exact DataKept.refl _
  exact DataKept.refl _

theorem execSetPeerWindow_keeps (h : MbHdr) (port window : Nat) (w : PeerWin) (s : State) : ∀ v : State, execSetPeerWindow h port window w s = .next v → DataKept s v := by
  unfold execSetPeerWindow
  refine DataKept.nx ?_
  refine DataKept.trans ?_ (State.mbRun_keeps _ _ _ _ ?_)
  exact DataKept.refl _
  extract_lets +onlyGivenNames q1
  refine DataKept.okIte ?_ ?_
  exact DataKept.okErr
  extract_lets +onlyGivenNames q2
  refine DataKept.okOk ?_
  dsimp only
  refine DataKept.trans ?_ (State.setWindow_keeps ..)
  exact DataKept.refl _

theorem execCommitPeerWindow_keeps (h : MbHdr) (port window : Nat) (s : State) : ∀ v : State, execCommitPeerWindow h port window s = .next v → DataKept s v := by
  unfold execCommitPeerWindow
  refine DataKept.nx ?_
  refine DataKept.trans ?_ (State.mbRun_keeps _ _ _ _ ?_)
  exact DataKept.refl _
  refine DataKept.okIte ?_ ?_
  exact DataKept.okErr
  extract_lets +onlyGivenNames q1
  extract_lets +onlyGivenNames q2
  extract_lets +onlyGivenNames q3
  extract_lets +onlyGivenNames q4
  extract_lets +onlyGivenNames q5
  extract_lets +onlyGivenNames q6
  refine DataKept.okOk ?_
  dsimp only
  refine DataKept.trans ?_ (State.pump_keeps ..)
  refine DataKept.foldl ?_ (fun s x => ?_)
  refine DataKept.ite ?_ ?_
  refine DataKept.trans ?_ (State.modResult_keeps ..)
  refine DataKept.trans ?_ (State.unbind_keeps ..)
  refine DataKept.trans ?_ (State.setWindow_keeps ..)
  exact DataKept.refl _
  refine DataKept.trans ?_ (State.setWindow_keeps ..)
  exact DataKept.refl _
  refine DataKept.trans ?_ (State.resend_keeps ..)
  exact DataKept.refl _

theorem execGetPeerWindow_keeps (h : MbHdr) (port window : Nat) (s : State) : ∀ v : State, execGetPeerWindow h port window s = .next v → DataKept s v := by
  unfold execGetPeerWindow
  refine DataKept.nx ?_
  refine DataKept.trans ?_ (State.mbRun_keeps _ _ _ _ ?_)
  exact DataKept.refl _
  extract_lets +onlyGivenNames q1
  refine DataKept.okIte ?_ ?_
  exact DataKept.okErr
  refine DataKept.okOk ?_
  exact DataKept.refl _

theorem execBindSlotForward_keeps (h : MbHdr) (dpa port window offset : Nat) (s : State) : ∀ v : State, execBindSlotForward h dpa port window offset s = .next v → DataKept s v := by
  unfold execBindSlotForward
  refine DataKept.nx ?_
  refine DataKept.trans ?_ (State.mbRun_keeps _ _ _ _ ?_)
  exact DataKept.refl _
  split
  exact DataKept.okErr
  extract_lets +onlyGivenNames q1
  refine DataKept.okIte ?_ ?_
  exact DataKept.okErr
  extract_lets +onlyGivenNames q2
  refine DataKept.okOk ?_
  dsimp only
  refine DataKept.trans ?_ (State.modPorts_keeps ..)
  refine DataKept.trans ?_ (State.unbind_keeps ..)
  exact DataKept.refl _

theorem execUnbindSlotForward_keeps (h : MbHdr) (dpa : Nat) (s : State) : ∀ v : State, execUnbindSlotForward h dpa s = .next v → DataKept s v := by
  unfold execUnbindSlotForward
  refine DataKept.nx ?_
  refine DataKept.trans ?_ (State.mbRun_keeps _ _ _ _ ?_)
  exact DataKept.refl _
  split
  exact DataKept.okErr
  refine DataKept.okIte ?_ ?_
  exact DataKept.okErr
  refine DataKept.okOk ?_
  dsimp only
  refine DataKept.trans ?_ (State.unbind_keeps ..)
  exact DataKept.refl _

theorem execHdmDecoderCommit_keeps (ld k : Nat) (d : HdmSetup) (s : State) : ∀ v : State, execHdmDecoderCommit ld k d s = .next v → DataKept s v := by
  unfold execHdmDecoderCommit
  refine DataKept.nxIte ?_ ?_
  refine DataKept.nx ?_
  exact DataKept.refl _
  extract_lets +onlyGivenNames q1
  extract_lets +onlyGivenNames q2
  extract_lets +onlyGivenNames q3
  extract_lets +onlyGivenNames q4
  refine DataKept.nx ?_
  refine DataKept.ite ?_ ?_
  unfold q2
  refine DataKept.trans ?_ (State.modCxe_keeps ..)
  exact DataKept.refl _
  unfold q2
  refine DataKept.trans ?_ (State.modCxe_keeps ..)
  exact DataKept.refl _

theorem execCxlRsvdEncoding_keeps (port : Nat) (flit : Bytes) (s : State) : ∀ v : State, execCxlRsvdEncoding port flit s = .next v → DataKept s v := by
  unfold execCxlRsvdEncoding
  refine DataKept.nxIte ?_ ?_
  refine DataKept.nx ?_
  refine DataKept.trans ?_ (State.onPort_keeps _ _ _ ?_)
  exact DataKept.refl _
  intro _ _
  refine DataKept.trans ?_ (State.rasUnc_keeps ..)
  exact DataKept.refl _
  refine DataKept.nx ?_
  exact DataKept.refl _

theorem execCxlIoPoisonedWrite_keeps (ld : Nat) (header : Bytes) (s : State) : ∀ v : State, execCxlIoPoisonedWrite ld header s = .next v → DataKept s v := by
  unfold execCxlIoPoisonedWrite
  refine DataKept.nxIte ?_ ?_
  refine DataKept.nx ?_
  refine DataKept.trans ?_ (State.aerUnc_keeps ..)
  exact DataKept.refl _
  refine DataKept.nx ?_
  exact DataKept.refl _

theorem execFlitCrcFailure_keeps (port : Nat) (e : FlitErr) (header : Bytes) (s : State) : ∀ v : State, execFlitCrcFailure port e header s = .next v → DataKept s v := by
  unfold execFlitCrcFailure
  refine DataKept.nxIte ?_ ?_
  refine DataKept.nx ?_
  exact DataKept.refl _
  refine DataKept.nxIte ?_ ?_
  refine DataKept.nx ?_
  refine DataKept.trans ?_ (State.takeWords_keeps ..)
  exact DataKept.refl _
  extract_lets +onlyGivenNames q1
  extract_lets +onlyGivenNames q2
  extract_lets +onlyGivenNames q3
  extract_lets +onlyGivenNames q4
  extract_lets +onlyGivenNames q5
  refine DataKept.nx ?_
  refine DataKept.ite ?_ ?_
  refine DataKept.trans ?_ (State.onPort_keeps _ _ _ ?_)
  refine DataKept.ite ?_ ?_
  refine DataKept.trans ?_ (State.onPort_keeps _ _ _ ?_)
  refine DataKept.ite ?_ ?_
  refine DataKept.trans ?_ (State.onPort_keeps _ _ _ ?_)
  refine DataKept.ite ?_ ?_
  refine DataKept.trans ?_ (State.onPort_keeps _ _ _ ?_)
  refine DataKept.trans ?_ (State.onPort_keeps _ _ _ ?_)
  refine DataKept.trans ?_ (State.takeWords_keeps ..)
  exact DataKept.refl _
  intro _ _
  refine DataKept.trans ?_ (State.aerCor_keeps ..)
  exact DataKept.refl _
  intro _ _
  refine DataKept.trans ?_ (State.rasCor_keeps ..)
  exact DataKept.refl _
  refine DataKept.trans ?_ (State.onPort_keeps _ _ _ ?_)
  refine DataKept.trans ?_ (State.takeWords_keeps ..)
  exact DataKept.refl _
  intro _ _
  refine DataKept.trans ?_ (State.aerCor_keeps ..)
  exact DataKept.refl _
  intro _ _
  refine DataKept.trans ?_ (State.aerCor_keeps ..)
  exact DataKept.refl _
  refine DataKept.ite ?_ ?_
  refine DataKept.trans ?_ (State.onPort_keeps _ _ _ ?_)
  refine DataKept.trans ?_ (State.onPort_keeps _ _ _ ?_)
  refine DataKept.trans ?_ (State.takeWords_keeps ..)
  exact DataKept.refl _
  intro _ _
  refine DataKept.trans ?_ (State.aerCor_keeps ..)
  exact DataKept.refl _
  intro _ _
  refine DataKept.trans ?_ (State.rasCor_keeps ..)
  exact DataKept.refl _
  refine DataKept.trans ?_ (State.onPort_keeps _ _ _ ?_)
  refine DataKept.trans ?_ (State.takeWords_keeps ..)
  exact DataKept.refl _
  intro _ _
  refine DataKept.trans ?_ (State.aerCor_keeps ..)
  exact DataKept.refl _
  intro _ _
  refine DataKept.trans ?_ (State.rasCor_keeps ..)
  exact DataKept.refl _
  refine DataKept.ite ?_ ?_
  refine DataKept.trans ?_ (State.onPort_keeps _ _ _ ?_)
  refine DataKept.ite ?_ ?_
  refine DataKept.trans ?_ (State.onPort_keeps _ _ _ ?_)
  refine DataKept.trans ?_ (State.onPort_keeps _ _ _ ?_)
  refine DataKept.trans ?_ (State.takeWords_keeps ..)
  exact DataKept.refl _
  intro _ _
  refine DataKept.trans ?_ (State.aerCor_keeps ..)
  exact DataKept.refl _
  intro _ _
  refine DataKept.trans ?_ (State.rasCor_keeps ..)
  exact DataKept.refl _
  refine DataKept.trans ?_ (State.onPort_keeps _ _ _ ?_)
  refine DataKept.trans ?_ (State.takeWords_keeps ..)
  exact DataKept.refl _
  intro _ _
  refine DataKept.trans ?_ (State.aerCor_keeps ..)
  exact DataKept.refl _
  intro _ _
  refine DataKept.trans ?_ (State.aerCor_keeps ..)
  exact DataKept.refl _
  refine DataKept.ite ?_ ?_
  refine DataKept.trans ?_ (State.onPort_keeps _ _ _ ?_)
  refine DataKept.trans ?_ (State.onPort_keeps _ _ _ ?_)
  refine DataKept.trans ?_ (State.takeWords_keeps ..)
  exact DataKept.refl _
  intro _ _
  refine DataKept.trans ?_ (State.aerCor_keeps ..)
  exact DataKept.refl _
  intro _ _
  refine DataKept.trans ?_ (State.rasCor_keeps ..)
  exact DataKept.refl _
  refine DataKept.trans ?_ (State.onPort_keeps _ _ _ ?_)
  refine DataKept.trans ?_ (State.takeWords_keeps ..)
  exact DataKept.refl _
  intro _ _
  refine DataKept.trans ?_ (State.aerCor_keeps ..)
  exact DataKept.refl _
  intro _ _
  refine DataKept.trans ?_ (State.rasCor_keeps ..)
  exact DataKept.refl _
  refine DataKept.ite ?_ ?_
  refine DataKept.trans ?_ (State.onPort_keeps _ _ _ ?_)
  refine DataKept.ite ?_ ?_
  refine DataKept.trans ?_ (State.onPort_keeps _ _ _ ?_)
  refine DataKept.ite ?_ ?_
  refine DataKept.trans ?_ (State.onPort_keeps _ _ _ ?_)
  refine DataKept.trans ?_ (State.onPort_keeps _ _ _ ?_)
  refine DataKept.trans ?_ (State.takeWords_keeps ..)
  exact DataKept.refl _
  intro _ _
  refine DataKept.trans ?_ (State.aerCor_keeps ..)
  exact DataKept.refl _
  intro _ _
  refine DataKept.trans ?_ (State.rasCor_keeps ..)
  exact DataKept.refl _
  refine DataKept.trans ?_ (State.onPort_keeps _ _ _ ?_)
  refine DataKept.trans ?_ (State.takeWords_keeps ..)
  exact DataKept.refl _
  intro _ _
  refine DataKept.trans ?_ (State.aerCor_keeps ..)
  exact DataKept.refl _
  intro _ _
  refine DataKept.trans ?_ (State.aerCor_keeps ..)
  exact DataKept.refl _
  refine DataKept.ite ?_ ?_
  refine DataKept.trans ?_ (State.onPort_keeps _ _ _ ?_)
  refine DataKept.trans ?_ (State.onPort_keeps _ _ _ ?_)
  refine DataKept.trans ?_ (State.takeWords_keeps ..)
  exact DataKept.refl _
  intro _ _
  refine DataKept.trans ?_ (State.aerCor_keeps ..)
  exact DataKept.refl _
  intro _ _
  refine DataKept.trans ?_ (State.rasCor_keeps ..)
  exact DataKept.refl _
  refine DataKept.trans ?_ (State.onPort_keeps _ _ _ ?_)
  refine DataKept.trans ?_ (State.takeWords_keeps ..)
  exact DataKept.refl _
  intro _ _
  refine DataKept.trans ?_ (State.aerCor_keeps ..)
  exact DataKept.refl _
  intro _ _
  refine DataKept.trans ?_ (State.rasCor_keeps ..)
  exact DataKept.refl _
  refine DataKept.ite ?_ ?_
  refine DataKept.trans ?_ (State.onPort_keeps _ _ _ ?_)
  refine DataKept.ite ?_ ?_
  refine DataKept.trans ?_ (State.onPort_keeps _ _ _ ?_)
  refine DataKept.trans ?_ (State.onPort_keeps _ _ _ ?_)
  refine DataKept.trans ?_ (State.takeWords_keeps ..)
  exact DataKept.refl _
  intro _ _
  refine DataKept.trans ?_ (State.aerCor_keeps ..)
  exact DataKept.refl _
  intro _ _
  refine DataKept.trans ?_ (State.rasCor_keeps ..)
  exact DataKept.refl _
  refine DataKept.trans ?_ (State.onPort_keeps _ _ _ ?_)
  refine DataKept.trans ?_ (State.takeWords_keeps ..)
  exact DataKept.refl _
  intro _ _
  refine DataKept.trans ?_ (State.aerCor_keeps ..)
  exact DataKept.refl _
  intro _ _
  refine DataKept.trans ?_ (State.aerCor_keeps ..)
  exact DataKept.refl _
  refine DataKept.ite ?_ ?_
  refine DataKept.trans ?_ (State.onPort_keeps _ _ _ ?_)
  refine DataKept.trans ?_ (State.onPort_keeps _ _ _ ?_)
  refine DataKept.trans ?_ (State.takeWords_keeps ..)
  exact DataKept.refl _
  intro _ _
  refine DataKept.trans ?_ (State.aerCor_keeps ..)
  exact DataKept.refl _
  intro _ _
  refine DataKept.trans ?_ (State.rasCor_keeps ..)
  exact DataKept.refl _
  refine DataKept.trans ?_ (State.onPort_keeps _ _ _ ?_)
  refine DataKept.trans ?_ (State.takeWords_keeps ..)
  exact DataKept.refl _
  intro _ _
  refine DataKept.trans ?_ (State.aerCor_keeps ..)
  exact DataKept.refl _

theorem execBusMasterDisable_keeps (ld : Nat) (s : State) : ∀ v : State, execBusMasterDisable ld s = .next v → DataKept s v := by
  unfold execBusMasterDisable
  refine DataKept.nxIte ?_ ?_
  refine DataKept.nx ?_
  exact DataKept.refl _
  extract_lets +onlyGivenNames q1
  extract_lets +onlyGivenNames q2
  refine DataKept.nx ?_
  refine DataKept.ite ?_ ?_
  refine DataKept.trans ?_ (State.endJob_keeps ..)
  refine DataKept.trans ?_ (State.modCxe_keeps ..)
  exact DataKept.refl _
  refine DataKept.trans ?_ (State.modCxe_keeps ..)
  exact DataKept.refl _

theorem execBusMasterEnable_keeps (ld : Nat) (s : State) : ∀ v : State, execBusMasterEnable ld s = .next v → DataKept s v := by
  unfold execBusMasterEnable
  refine DataKept.nxIte ?_ ?_
  refine DataKept.nx ?_
  exact DataKept.refl _
  extract_lets +onlyGivenNames q1
  extract_lets +onlyGivenNames q2
  refine DataKept.nx ?_
  refine DataKept.foldl ?_ (fun s x => ?_)
  refine DataKept.trans ?_ (State.modCxe_keeps ..)
  exact DataKept.refl _
  refine DataKept.trans ?_ (State.send_keeps ..)
  exact DataKept.refl _

theorem execDmaCompletion_keeps (t ld tag : Nat) (_data : Bytes) (s : State) : ∀ v : State, execDmaCompletion t ld tag _data s = .next v → DataKept s v := by
  unfold execDmaCompletion
  extract_lets +onlyGivenNames q1
  refine DataKept.nxIte ?_ ?_
  refine DataKept.nx ?_
  refine DataKept.trans ?_ (State.at__keeps ..)
  exact DataKept.refl _
  split
  refine DataKept.nx ?_
  refine DataKept.trans ?_ (State.aerUnc_keeps ..)
  refine DataKept.trans ?_ (State.at__keeps ..)
  exact DataKept.refl _
  extract_lets +onlyGivenNames q2
  extract_lets +onlyGivenNames q3
  refine DataKept.nxIte ?_ ?_
  refine DataKept.nx ?_
  refine DataKept.trans ?_ (State.modCxe_keeps ..)
  refine DataKept.trans ?_ (State.at__keeps ..)
  exact DataKept.refl _
  refine DataKept.nxIte ?_ ?_
  refine DataKept.nx ?_
  refine DataKept.trans ?_ (State.modCxeLd_keeps ..)
  refine DataKept.trans ?_ (State.modCxe_keeps ..)
  refine DataKept.trans ?_ (State.at__keeps ..)
  exact DataKept.refl _
  refine DataKept.nx ?_
  refine DataKept.trans ?_ (State.modCxeLd_keeps ..)
  refine DataKept.trans ?_ (State.modCxe_keeps ..)
  refine DataKept.trans ?_ (State.at__keeps ..)
  exact DataKept.refl _

theorem execDmaCompletionTimeout_keeps (t ld tag : Nat) (s : State) : ∀ v : State, execDmaCompletionTimeout t ld tag s = .next v → DataKept s v := by
  unfold execDmaCompletionTimeout
  extract_lets +onlyGivenNames q1
  split
  refine DataKept.nx ?_
  refine DataKept.trans ?_ (State.at__keeps ..)
  exact DataKept.refl _
  refine DataKept.nxIte ?_ ?_
  extract_lets +onlyGivenNames q2
  extract_lets +onlyGivenNames q3
  refine DataKept.nx ?_
  refine DataKept.trans ?_ (State.endJob_keeps ..)
  refine DataKept.trans ?_ (State.aerUnc_keeps ..)
  refine DataKept.trans ?_ (State.modCxeLd_keeps ..)
  refine DataKept.trans ?_ (State.modCxe_keeps ..)
  refine DataKept.trans ?_ (State.at__keeps ..)
  exact DataKept.refl _
  refine DataKept.nx ?_
  refine DataKept.trans ?_ (State.at__keeps ..)
  exact DataKept.refl _

theorem execIdeKeyProgram_keeps (ld session : Nat) (activate : Bool) (s : State) : ∀ v : State, execIdeKeyProgram ld session activate s = .next v → DataKept s v := by
  unfold execIdeKeyProgram
  refine DataKept.nxIte ?_ ?_
  refine DataKept.nx ?_
  exact DataKept.refl _
  extract_lets +onlyGivenNames q1
  extract_lets +onlyGivenNames q2
  extract_lets +onlyGivenNames q3
  refine DataKept.nx ?_
  refine DataKept.trans ?_ (State.send_keeps ..)
  refine DataKept.trans ?_ (State.modCxe_keeps ..)
  with_reducible refine DataKept.trans ?_ (DataKept.fields rfl rfl rfl rfl)
  exact DataKept.refl _

theorem execCdatTableAccess_keeps (ld : Nat) (s : State) : ∀ v : State, execCdatTableAccess ld s = .next v → DataKept s v := by
  unfold execCdatTableAccess
  refine DataKept.nxIte ?_ ?_
  refine DataKept.nx ?_
  exact DataKept.refl _
  extract_lets +onlyGivenNames q1
  extract_lets +onlyGivenNames q2
  extract_lets +onlyGivenNames q3
  refine DataKept.nx ?_
  refine DataKept.trans ?_ (State.send_keeps ..)
  exact DataKept.refl _

theorem execSpdmGetMeasurements_keeps (ld index : Nat) (signed : Bool) (s : State) : ∀ v : State, execSpdmGetMeasurements ld index signed s = .next v → DataKept s v := by
  unfold execSpdmGetMeasurements
  refine DataKept.nxIte ?_ ?_
  refine DataKept.nx ?_
  exact DataKept.refl _
  refine DataKept.nxIte ?_ ?_
  refine DataKept.nx ?_
  refine DataKept.trans ?_ (State.send_keeps ..)
  exact DataKept.refl _
  refine DataKept.nxIte ?_ ?_
  refine DataKept.nx ?_
  refine DataKept.trans ?_ (State.send_keeps ..)
  exact DataKept.refl _
  extract_lets +onlyGivenNames q1
  refine DataKept.nx ?_
  refine DataKept.trans ?_ (State.send_keeps ..)
  exact DataKept.refl _

theorem execSpdmKeyExchange_keeps (ld : Nat) (s : State) : ∀ v : State, execSpdmKeyExchange ld s = .next v → DataKept s v := by
  unfold execSpdmKeyExchange
  refine DataKept.nxIte ?_ ?_
  refine DataKept.nx ?_
  exact DataKept.refl _
  extract_lets +onlyGivenNames q1
  refine DataKept.nxIte ?_ ?_
  refine DataKept.nx ?_
  refine DataKept.trans ?_ (State.send_keeps ..)
  exact DataKept.refl _
  extract_lets +onlyGivenNames q2
  extract_lets +onlyGivenNames q3
  extract_lets +onlyGivenNames q4
  extract_lets +onlyGivenNames q5
  refine DataKept.nx ?_
  refine DataKept.trans ?_ (State.send_keeps ..)
  refine DataKept.trans ?_ (State.modCxe_keeps ..)
  with_reducible refine DataKept.trans ?_ (DataKept.fields rfl rfl rfl rfl)
  exact DataKept.refl _

theorem execSpdmEndSession_keeps (ld session : Nat) (s : State) : ∀ v : State, execSpdmEndSession ld session s = .next v → DataKept s v := by
  unfold execSpdmEndSession
  refine DataKept.nx ?_
  refine DataKept.trans ?_ (State.modCxe_keeps ..)
  exact DataKept.refl _

theorem execD3hotEntry_keeps (ld : Nat) (toD3 : Bool) (s : State) : ∀ v : State, execD3hotEntry ld toD3 s = .next v → DataKept s v := by
  unfold execD3hotEntry
  refine DataKept.nxIte ?_ ?_
  refine DataKept.nx ?_
  refine DataKept.trans ?_ (State.modCxeLd_keeps ..)
  exact DataKept.refl _
  refine DataKept.nx ?_
  exact DataKept.refl _

theorem execGetModuleStatus_keeps (h : MbHdr) (s : State) : ∀ v : State, execGetModuleStatus h s = .next v → DataKept s v := by
  unfold execGetModuleStatus
  refine DataKept.nx ?_
  refine DataKept.trans ?_ (State.mbRun_keeps _ _ _ _ ?_)
  exact DataKept.refl _
  refine DataKept.okOk ?_
  exact DataKept.refl _

theorem execGetUnitMap_keeps (h : MbHdr) (s : State) : ∀ v : State, execGetUnitMap h s = .next v → DataKept s v := by
  unfold execGetUnitMap
  refine DataKept.nx ?_
  refine DataKept.trans ?_ (State.mbRun_keeps _ _ _ _ ?_)
  exact DataKept.refl _
  refine DataKept.okOk ?_
  exact DataKept.refl _

theorem execStagePartitionRequest_keeps (h : MbHdr) (p : Part) (s : State) : ∀ v : State, execStagePartitionRequest h p s = .next v → DataKept s v := by
  unfold execStagePartitionRequest
  refine DataKept.nx ?_
  refine DataKept.trans ?_ (State.mbPartsBg_keeps _ _ _ _ _ _ ?_)
  exact DataKept.refl _
  intro _ _ 
  refine DataKept.exOk ?_
  exact DataKept.refl _

theorem execGetPartitionMap_keeps (h : MbHdr) (o : OutReq) (s : State) : ∀ v : State, execGetPartitionMap h o s = .next v → DataKept s v := by
  unfold execGetPartitionMap
  refine DataKept.nx ?_
  refine DataKept.trans ?_ (State.mbSnap_keeps ..)
  exact DataKept.refl _

theorem execGetStagedRequestStatus_keeps (h : MbHdr) (s : State) : ∀ v : State, execGetStagedRequestStatus h s = .next v → DataKept s v := by
  unfold execGetStagedRequestStatus
  refine DataKept.nx ?_
  refine DataKept.trans ?_ (State.mbRun_keeps _ _ _ _ ?_)
  exact DataKept.refl _
  refine DataKept.okOk ?_
  exact DataKept.refl _

theorem execDiscardStagedRequest_keeps (h : MbHdr) (s : State) : ∀ v : State, execDiscardStagedRequest h s = .next v → DataKept s v := by
  unfold execDiscardStagedRequest
  refine DataKept.nx ?_
  refine DataKept.trans ?_ (State.mbRun_keeps _ _ _ _ ?_)
  exact DataKept.refl _
  refine DataKept.okOk ?_
  dsimp only
  refine DataKept.ite ?_ ?_
  refine DataKept.trans ?_ (State.modBoot_keeps ..)
  exact DataKept.refl _
  exact DataKept.refl _

theorem execGetRegionProfile_keeps (h : MbHdr) (region : Nat) (s : State) : ∀ v : State, execGetRegionProfile h region s = .next v → DataKept s v := by
  unfold execGetRegionProfile
  refine DataKept.nx ?_
  refine DataKept.trans ?_ (State.mbRun_keeps _ _ _ _ ?_)
  exact DataKept.refl _
  refine DataKept.okIte ?_ ?_
  exact DataKept.okErr
  extract_lets +onlyGivenNames q1
  refine DataKept.okOk ?_
  exact DataKept.refl _

theorem execGetExtentDescriptors_keeps (h : MbHdr) (o : OutReq) (s : State) : ∀ v : State, execGetExtentDescriptors h o s = .next v → DataKept s v := by
  unfold execGetExtentDescriptors
  refine DataKept.nx ?_
  refine DataKept.trans ?_ (State.mbSnap_keeps ..)
  exact DataKept.refl _

theorem execUnsupportedCommand_keeps (h : MbHdr) (opcode : Nat) (s : State) : ∀ v : State, execUnsupportedCommand h opcode s = .next v → DataKept s v := by
  unfold execUnsupportedCommand
  extract_lets +onlyGivenNames q1
  refine DataKept.nx ?_
  refine DataKept.ite ?_ ?_
  refine DataKept.trans ?_ (State.answer_keeps ..)
  exact DataKept.refl _
  exact DataKept.refl _

theorem execIdentifyMemoryDevice_keeps (h : MbHdr) (s : State) : ∀ v : State, execIdentifyMemoryDevice h s = .next v → DataKept s v := by
  unfold execIdentifyMemoryDevice
  refine DataKept.nx ?_
  refine DataKept.trans ?_ (State.mbRun_keeps _ _ _ _ ?_)
  exact DataKept.refl _
  refine DataKept.okOk ?_
  exact DataKept.refl _

theorem execGetSupportedLogs_keeps (h : MbHdr) (s : State) : ∀ v : State, execGetSupportedLogs h s = .next v → DataKept s v := by
  unfold execGetSupportedLogs
  refine DataKept.nx ?_
  refine DataKept.trans ?_ (State.mbRun_keeps _ _ _ _ ?_)
  exact DataKept.refl _
  refine DataKept.okOk ?_
  exact DataKept.refl _

theorem execGetLog_keeps (h : MbHdr) (isCel : Bool) (offset length : Nat) (s : State) : ∀ v : State, execGetLog h isCel offset length s = .next v → DataKept s v := by
  unfold execGetLog
  refine DataKept.nx ?_
  refine DataKept.trans ?_ (State.mbRun_keeps _ _ _ _ ?_)
  exact DataKept.refl _
  extract_lets +onlyGivenNames q1
  refine DataKept.okIte ?_ ?_
  exact DataKept.okErr
  refine DataKept.okOk ?_
  exact DataKept.refl _

theorem execGetEventRecords_keeps (h : MbHdr) (log : Nat) (s : State) : ∀ v : State, execGetEventRecords h log s = .next v → DataKept s v := by
  unfold execGetEventRecords
  refine DataKept.nx ?_
  refine DataKept.trans ?_ (State.mbRun_keeps _ _ _ _ ?_)
  exact DataKept.refl _
  refine DataKept.okIte ?_ ?_
  exact DataKept.okErr
  extract_lets +onlyGivenNames q1
  refine DataKept.okOk ?_
  exact DataKept.refl _

theorem execClearEventRecords_keeps (h : MbHdr) (log : Nat) (all : Bool) (handles : List Nat) (s : State) : ∀ v : State, execClearEventRecords h log all handles s = .next v → DataKept s v := by
  unfold execClearEventRecords
  refine DataKept.nx ?_
  refine DataKept.trans ?_ (State.mbRun_keeps _ _ _ _ ?_)
  exact DataKept.refl _
  extract_lets +onlyGivenNames q1
  extract_lets +onlyGivenNames q2
  refine DataKept.okIte ?_ ?_
  exact DataKept.okErr
  refine DataKept.okIte ?_ ?_
  exact DataKept.okErr
  extract_lets +onlyGivenNames q3
  refine DataKept.okOk ?_
  dsimp only
  with_reducible refine DataKept.trans ?_ (DataKept.fields rfl rfl rfl rfl)
  exact DataKept.refl _

theorem execGetEventInterruptPolicy_keeps (h : MbHdr) (s : State) : ∀ v : State, execGetEventInterruptPolicy h s = .next v → DataKept s v := by
  unfold execGetEventInterruptPolicy
  refine DataKept.nx ?_
  refine DataKept.trans ?_ (State.mbRun_keeps _ _ _ _ ?_)
  exact DataKept.refl _
  refine DataKept.okOk ?_
  exact DataKept.refl _

theorem execSetEventInterruptPolicy_keeps (h : MbHdr) (modes : List Nat) (s : State) : ∀ v : State, execSetEventInterruptPolicy h modes s = .next v → DataKept s v := by
  unfold execSetEventInterruptPolicy
  refine DataKept.nx ?_
  refine DataKept.trans ?_ (State.mbRun_keeps _ _ _ _ ?_)
  exact DataKept.refl _
  refine DataKept.okIte ?_ ?_
  exact DataKept.okErr
  extract_lets +onlyGivenNames q1
  refine DataKept.okOk ?_
  dsimp only
  with_reducible refine DataKept.trans ?_ (DataKept.fields rfl rfl rfl rfl)
  exact DataKept.refl _

theorem execGetFwInfo_keeps (h : MbHdr) (s : State) : ∀ v : State, execGetFwInfo h s = .next v → DataKept s v := by
  unfold execGetFwInfo
  refine DataKept.nx ?_
  refine DataKept.trans ?_ (State.mbRun_keeps _ _ _ _ ?_)
  exact DataKept.refl _
  extract_lets +onlyGivenNames q1
  refine DataKept.okOk ?_
  exact DataKept.refl _

theorem execActivateFw_keeps (h : MbHdr) (online : Bool) (slot : Nat) (s : State) : ∀ v : State, execActivateFw h online slot s = .next v → DataKept s v := by
  unfold execActivateFw
  refine DataKept.nx ?_
  refine DataKept.trans ?_ (State.mbRun_keeps _ _ _ _ ?_)
  exact DataKept.refl _
  refine DataKept.okIte ?_ ?_
  exact DataKept.okErr
  refine DataKept.okOk ?_
  dsimp only
  refine DataKept.trans ?_ (State.modBoot_keeps ..)
  exact DataKept.refl _

theorem execGetTimestamp_keeps (h : MbHdr) (s : State) : ∀ v : State, execGetTimestamp h s = .next v → DataKept s v := by
  unfold execGetTimestamp
  refine DataKept.nx ?_
  refine DataKept.trans ?_ (State.mbRun_keeps _ _ _ _ ?_)
  exact DataKept.refl _
  refine DataKept.okOk ?_
  exact DataKept.refl _

theorem execSetTimestamp_keeps (h : MbHdr) (value : Nat) (s : State) : ∀ v : State, execSetTimestamp h value s = .next v → DataKept s v := by
  unfold execSetTimestamp
  refine DataKept.nx ?_
  refine DataKept.trans ?_ (State.mbRun_keeps _ _ _ _ ?_)
  exact DataKept.refl _
  refine DataKept.okOk ?_
  dsimp only
  refine DataKept.trans ?_ (State.modCxe_keeps ..)
  exact DataKept.refl _

theorem execGetHealthInfo_keeps (h : MbHdr) (s : State) : ∀ v : State, execGetHealthInfo h s = .next v → DataKept s v := by
  unfold execGetHealthInfo
  refine DataKept.nx ?_
  refine DataKept.trans ?_ (State.mbRun_keeps _ _ _ _ ?_)
  exact DataKept.refl _
  refine DataKept.okOk ?_
  exact DataKept.refl _

theorem execGetPoisonList_keeps (h : MbHdr) (dpa lines : Nat) (s : State) : ∀ v : State, execGetPoisonList h dpa lines s = .next v → DataKept s v := by
  unfold execGetPoisonList
  refine DataKept.nx ?_
  refine DataKept.trans ?_ (State.mbRun_keeps _ _ _ _ ?_)
  exact DataKept.refl _
  refine DataKept.okIte ?_ ?_
  exact DataKept.okErr
  extract_lets +onlyGivenNames q1
  extract_lets +onlyGivenNames q2
  refine DataKept.okOk ?_
  exact DataKept.refl _

theorem execGetDcConfiguration_keeps (h : MbHdr) (first count : Nat) (s : State) : ∀ v : State, execGetDcConfiguration h first count s = .next v → DataKept s v := by
  unfold execGetDcConfiguration
  refine DataKept.nx ?_
  refine DataKept.trans ?_ (State.mbRun_keeps _ _ _ _ ?_)
  exact DataKept.refl _
  refine DataKept.okIte ?_ ?_
  exact DataKept.okErr
  extract_lets +onlyGivenNames q1
  refine DataKept.okOk ?_
  exact DataKept.refl _

theorem execGetDcExtentList_keeps (h : MbHdr) (count start : Nat) (s : State) : ∀ v : State, execGetDcExtentList h count start s = .next v → DataKept s v := by
  unfold execGetDcExtentList
  refine DataKept.nx ?_
  refine DataKept.trans ?_ (State.mbRun_keeps _ _ _ _ ?_)
  exact DataKept.refl _
  extract_lets +onlyGivenNames q1
  refine DataKept.okIte ?_ ?_
  exact DataKept.okErr
  split
  extract_lets +onlyGivenNames q2
  refine DataKept.okOk ?_
  dsimp only
  refine DataKept.snd (by assumption) ?_
  refine DataKept.trans ?_ (State.free_keeps ..)
  exact DataKept.refl _

theorem execGetDcdInfo_keeps (h : MbHdr) (s : State) : ∀ v : State, execGetDcdInfo h s = .next v → DataKept s v := by
  unfold execGetDcdInfo
  refine DataKept.nx ?_
  refine DataKept.trans ?_ (State.mbRun_keeps _ _ _ _ ?_)
  exact DataKept.refl _
  extract_lets +onlyGivenNames q1
  refine DataKept.okOk ?_
  exact DataKept.refl _

theorem execGetHostDcRegionConfig_keeps (h : MbHdr) (host first count : Nat) (s : State) : ∀ v : State, execGetHostDcRegionConfig h host first count s = .next v → DataKept s v := by
  unfold execGetHostDcRegionConfig
  refine DataKept.nx ?_
  refine DataKept.trans ?_ (State.mbRun_keeps _ _ _ _ ?_)
  exact DataKept.refl _
  refine DataKept.okIte ?_ ?_
  exact DataKept.okErr
  extract_lets +onlyGivenNames q1
  refine DataKept.okOk ?_
  exact DataKept.refl _

theorem execGetDcRegionExtentLists_keeps (h : MbHdr) (host count start : Nat) (s : State) : ∀ v : State, execGetDcRegionExtentLists h host count start s = .next v → DataKept s v := by
  unfold execGetDcRegionExtentLists
  refine DataKept.nx ?_
  refine DataKept.trans ?_ (State.mbRun_keeps _ _ _ _ ?_)
  exact DataKept.refl _
  extract_lets +onlyGivenNames q1
  refine DataKept.okIte ?_ ?_
  exact DataKept.okErr
  split
  extract_lets +onlyGivenNames q2
  refine DataKept.okOk ?_
  dsimp only
  refine DataKept.snd (by assumption) ?_
  refine DataKept.trans ?_ (State.free_keeps ..)
  exact DataKept.refl _

theorem execGetLdInfo_keeps (h : MbHdr) (s : State) : ∀ v : State, execGetLdInfo h s = .next v → DataKept s v := by
  unfold execGetLdInfo
  refine DataKept.nx ?_
  refine DataKept.trans ?_ (State.mbRun_keeps _ _ _ _ ?_)
  exact DataKept.refl _
  refine DataKept.okOk ?_
  exact DataKept.refl _

theorem execGetLdAllocations_keeps (h : MbHdr) (start limit : Nat) (s : State) : ∀ v : State, execGetLdAllocations h start limit s = .next v → DataKept s v := by
  unfold execGetLdAllocations
  refine DataKept.nx ?_
  refine DataKept.trans ?_ (State.mbRun_keeps _ _ _ _ ?_)
  exact DataKept.refl _
  refine DataKept.okIte ?_ ?_
  exact DataKept.okErr
  extract_lets +onlyGivenNames q1
  refine DataKept.okOk ?_
  exact DataKept.refl _

theorem execFmQosControl_keeps (h : MbHdr) (set : Option (List Nat)) (s : State) : ∀ v : State, execFmQosControl h set s = .next v → DataKept s v := by
  unfold execFmQosControl
  refine DataKept.nx ?_
  refine DataKept.trans ?_ (State.mbRun_keeps _ _ _ _ ?_)
  exact DataKept.refl _
  split
  refine DataKept.okIte ?_ ?_
  exact DataKept.okErr
  refine DataKept.okOk ?_
  dsimp only
  refine DataKept.trans ?_ (State.modCxe_keeps ..)
  exact DataKept.refl _
  refine DataKept.okOk ?_
  exact DataKept.refl _

theorem execGetDebugChallenge_keeps (h : MbHdr) (s : State) : ∀ v : State, execGetDebugChallenge h s = .next v → DataKept s v := by
  unfold execGetDebugChallenge
  refine DataKept.nx ?_
  refine DataKept.trans ?_ (State.mbRun_keeps _ _ _ _ ?_)
  exact DataKept.refl _
  extract_lets +onlyGivenNames q1
  extract_lets +onlyGivenNames q2
  refine DataKept.okOk ?_
  dsimp only
  refine DataKept.trans ?_ (State.modBoot_keeps ..)
  with_reducible refine DataKept.trans ?_ (DataKept.fields rfl rfl rfl rfl)
  exact DataKept.refl _

theorem execDebugNonceExpire_keeps (t : Nat) (s : State) : ∀ v : State, execDebugNonceExpire t s = .next v → DataKept s v := by
  unfold execDebugNonceExpire
  extract_lets +onlyGivenNames q1
  split
  refine DataKept.nxIte ?_ ?_
  refine DataKept.nx ?_
  refine DataKept.trans ?_ (State.modBoot_keeps ..)
  refine DataKept.trans ?_ (State.at__keeps ..)
  exact DataKept.refl _
  refine DataKept.nx ?_
  refine DataKept.trans ?_ (State.at__keeps ..)
  exact DataKept.refl _
  refine DataKept.nx ?_
  refine DataKept.trans ?_ (State.at__keeps ..)
  exact DataKept.refl _

theorem execUnlockDebug_keeps (h : MbHdr) (p : Part) (s : State) : ∀ v : State, execUnlockDebug h p s = .next v → DataKept s v := by
  unfold execUnlockDebug
  refine DataKept.nx ?_
  refine DataKept.trans ?_ (State.mbPartsBg_keeps _ _ _ _ _ _ ?_)
  exact DataKept.refl _
  intro _ _ 
  refine DataKept.exIte ?_ ?_
  exact DataKept.exErr
  refine DataKept.exOk ?_
  exact DataKept.refl _

theorem execGetDebugState_keeps (h : MbHdr) (s : State) : ∀ v : State, execGetDebugState h s = .next v → DataKept s v := by
  unfold execGetDebugState
  refine DataKept.nx ?_
  refine DataKept.trans ?_ (State.mbRun_keeps _ _ _ _ ?_)
  exact DataKept.refl _
  refine DataKept.okOk ?_
  exact DataKept.refl _

theorem execPartImageTimeout_keeps (t src opcode : Nat) (s : State) : ∀ v : State, execPartImageTimeout t src opcode s = .next v → DataKept s v := by
  unfold execPartImageTimeout
  extract_lets +onlyGivenNames q1
  refine DataKept.nx ?_
  with_reducible refine DataKept.trans ?_ (DataKept.fields rfl rfl rfl rfl)
  refine DataKept.trans ?_ (State.at__keeps ..)
  exact DataKept.refl _

theorem execSnapshotTimeout_keeps (t src opcode : Nat) (s : State) : ∀ v : State, execSnapshotTimeout t src opcode s = .next v → DataKept s v := by
  unfold execSnapshotTimeout
  extract_lets +onlyGivenNames q1
  refine DataKept.nx ?_
  with_reducible refine DataKept.trans ?_ (DataKept.fields rfl rfl rfl rfl)
  refine DataKept.trans ?_ (State.at__keeps ..)
  exact DataKept.refl _

theorem State.modClock_keeps (s : State) (f : ClockSt → ClockSt) : DataKept s (State.modClock s f) := by
  unfold State.modClock
  with_reducible refine DataKept.trans ?_ (DataKept.fields rfl rfl rfl rfl)
  exact DataKept.refl _

theorem State.modHealth_keeps (s : State) (f : HealthSt → HealthSt) : DataKept s (State.modHealth s f) := by
  unfold State.modHealth
  with_reducible refine DataKept.trans ?_ (DataKept.fields rfl rfl rfl rfl)
  exact DataKept.refl _

theorem State.pumpStone_keeps (s : State) : DataKept s (State.pumpStone s) := by
  unfold State.pumpStone
  split
  refine DataKept.ite ?_ ?_
  refine DataKept.trans ?_ (State.modClock_keeps ..)
  exact DataKept.refl _
  refine DataKept.ite ?_ ?_
  exact DataKept.refl _
  extract_lets +onlyGivenNames q1
  refine DataKept.trans ?_ (State.modClock_keeps ..)
  exact DataKept.refl _
  exact DataKept.refl _

theorem State.askStone_keeps (s : State) : DataKept s (State.askStone s) := by
  unfold State.askStone
  refine DataKept.trans ?_ (State.pumpStone_keeps ..)
  refine DataKept.trans ?_ (State.modClock_keeps ..)
  exact DataKept.refl _

theorem State.beginWaiting_keeps (s : State) : DataKept s (State.beginWaiting s) := by
  unfold State.beginWaiting
  refine DataKept.ite ?_ ?_
  exact DataKept.refl _
  extract_lets +onlyGivenNames q1
  extract_lets +onlyGivenNames q2
  refine DataKept.trans ?_ (State.modHealth_keeps ..)
  exact DataKept.refl _

theorem execStoneStepChangeComplete_keeps (t : Nat) (s : State) : ∀ v : State, execStoneStepChangeComplete t s = .next v → DataKept s v := by
  unfold execStoneStepChangeComplete
  extract_lets +onlyGivenNames q1
  split
  refine DataKept.nxIte ?_ ?_
  extract_lets +onlyGivenNames q2
  refine DataKept.nx ?_
  refine DataKept.trans ?_ (State.noteVitals_keeps ..)
  refine DataKept.trans ?_ (State.caps_keeps ..)
  refine DataKept.trans ?_ (State.beginWaiting_keeps ..)
  refine DataKept.trans ?_ (State.pumpStone_keeps ..)
  refine DataKept.trans ?_ (State.modClock_keeps ..)
  refine DataKept.trans ?_ (State.at__keeps ..)
  exact DataKept.refl _
  refine DataKept.nx ?_
  refine DataKept.trans ?_ (State.at__keeps ..)
  exact DataKept.refl _
  refine DataKept.nx ?_
  refine DataKept.trans ?_ (State.at__keeps ..)
  exact DataKept.refl _

theorem State.applySteps_keeps (s : State) : DataKept s (State.applySteps s) := by
  unfold State.applySteps
  extract_lets +onlyGivenNames q1
  extract_lets +onlyGivenNames q2
  refine DataKept.trans ?_ (State.caps_keeps ..)
  refine DataKept.ite ?_ ?_
  refine DataKept.ite ?_ ?_
  exact DataKept.refl _
  refine DataKept.trans ?_ (State.askStone_keeps ..)
  exact DataKept.refl _
  refine DataKept.trans ?_ (State.askPoint_keeps ..)
  refine DataKept.ite ?_ ?_
  exact DataKept.refl _
  refine DataKept.trans ?_ (State.askStone_keeps ..)
  exact DataKept.refl _

theorem State.modPower_keeps (s : State) (f : PowerSt → PowerSt) : DataKept s (State.modPower s f) := by
  unfold State.modPower
  with_reducible refine DataKept.trans ?_ (DataKept.fields rfl rfl rfl rfl)
  exact DataKept.refl _

theorem execGovernorStep_keeps (t avg : Nat) (s : State) : ∀ v : State, execGovernorStep t avg s = .next v → DataKept s v := by
  unfold execGovernorStep
  extract_lets +onlyGivenNames q1
  refine DataKept.nxIte ?_ ?_
  refine DataKept.nx ?_
  refine DataKept.trans ?_ (State.at__keeps ..)
  exact DataKept.refl _
  extract_lets +onlyGivenNames q2
  refine DataKept.nxIte ?_ ?_
  refine DataKept.nx ?_
  refine DataKept.trans ?_ (State.modPower_keeps ..)
  refine DataKept.trans ?_ (State.at__keeps ..)
  exact DataKept.refl _
  split
  extract_lets +onlyGivenNames q3
  refine DataKept.nx ?_
  refine DataKept.trans ?_ (State.noteVitals_keeps ..)
  refine DataKept.trans ?_ (State.applySteps_keeps ..)
  refine DataKept.trans ?_ (State.modPower_keeps ..)
  refine DataKept.trans ?_ (State.modPower_keeps ..)
  refine DataKept.trans ?_ (State.at__keeps ..)
  exact DataKept.refl _
  refine DataKept.nx ?_
  refine DataKept.trans ?_ (State.modPower_keeps ..)
  refine DataKept.trans ?_ (State.at__keeps ..)
  exact DataKept.refl _

theorem execGovernorRetreat_keeps (t avg : Nat) (s : State) : ∀ v : State, execGovernorRetreat t avg s = .next v → DataKept s v := by
  unfold execGovernorRetreat
  extract_lets +onlyGivenNames q1
  refine DataKept.nxIte ?_ ?_
  refine DataKept.nx ?_
  refine DataKept.trans ?_ (State.at__keeps ..)
  exact DataKept.refl _
  extract_lets +onlyGivenNames q2
  split
  refine DataKept.nx ?_
  refine DataKept.trans ?_ (State.modPower_keeps ..)
  refine DataKept.trans ?_ (State.at__keeps ..)
  exact DataKept.refl _
  refine DataKept.nxIte ?_ ?_
  refine DataKept.nx ?_
  refine DataKept.trans ?_ (State.modPower_keeps ..)
  refine DataKept.trans ?_ (State.at__keeps ..)
  exact DataKept.refl _
  extract_lets +onlyGivenNames q3
  refine DataKept.nx ?_
  refine DataKept.trans ?_ (State.noteVitals_keeps ..)
  refine DataKept.trans ?_ (State.applySteps_keeps ..)
  refine DataKept.trans ?_ (State.modPower_keeps ..)
  refine DataKept.trans ?_ (State.modPower_keeps ..)
  refine DataKept.trans ?_ (State.at__keeps ..)
  exact DataKept.refl _

theorem execSetPowerLimit_keeps (h : MbHdr) (limit : Nat) (s : State) : ∀ v : State, execSetPowerLimit h limit s = .next v → DataKept s v := by
  unfold execSetPowerLimit
  refine DataKept.nx ?_
  refine DataKept.trans ?_ (State.mbRun_keeps _ _ _ _ ?_)
  exact DataKept.refl _
  refine DataKept.okIte ?_ ?_
  exact DataKept.okErr
  refine DataKept.okOk ?_
  dsimp only
  refine DataKept.trans ?_ (State.modPower_keeps ..)
  exact DataKept.refl _

theorem State.freeFields_keeps (s : State) (at_ n : Nat) : DataKept s (s.freeFields at_ n).2 := by
  induction n generalizing s at_ with
  | zero => exact DataKept.refl _
  | succ n ih => exact DataKept.trans (State.free_keeps _) (ih _ _)

theorem execGetPowerStatus_keeps (h : MbHdr) (s : State) : ∀ v : State, execGetPowerStatus h s = .next v → DataKept s v := by
  unfold execGetPowerStatus
  refine DataKept.nx ?_
  refine DataKept.trans ?_ (State.mbRun_keeps _ _ _ _ ?_)
  exact DataKept.refl _
  extract_lets +onlyGivenNames q1
  refine DataKept.okOk ?_
  dsimp only
  refine DataKept.trans ?_ (State.freeFields_keeps ..)
  exact DataKept.refl _

theorem execThermalStep_keeps (t : Nat) (part : Part17) (unit : Nat) (temp : Int) (s : State) : ∀ v : State, execThermalStep t part unit temp s = .next v → DataKept s v := by
  unfold execThermalStep
  extract_lets +onlyGivenNames q1
  refine DataKept.nxIte ?_ ?_
  refine DataKept.nx ?_
  refine DataKept.trans ?_ (State.at__keeps ..)
  exact DataKept.refl _
  refine DataKept.nxIte ?_ ?_
  refine DataKept.nx ?_
  refine DataKept.trans ?_ (State.setTemp_keeps ..)
  refine DataKept.trans ?_ (State.at__keeps ..)
  exact DataKept.refl _
  extract_lets +onlyGivenNames q2
  extract_lets +onlyGivenNames q3
  extract_lets +onlyGivenNames q4
  refine DataKept.nxIte ?_ ?_
  refine DataKept.nx ?_
  refine DataKept.trans ?_ (State.noteVitals_keeps ..)
  refine DataKept.ite ?_ ?_
  refine DataKept.trans ?_ (State.post_keeps ..)
  refine DataKept.trans ?_ (State.setTemp_keeps ..)
  refine DataKept.trans ?_ (State.at__keeps ..)
  exact DataKept.refl _
  refine DataKept.trans ?_ (State.setTemp_keeps ..)
  refine DataKept.trans ?_ (State.at__keeps ..)
  exact DataKept.refl _
  split
  extract_lets +onlyGivenNames q5
  refine DataKept.nx ?_
  refine DataKept.trans ?_ (State.noteVitals_keeps ..)
  refine DataKept.trans ?_ (State.applySteps_keeps ..)
  refine DataKept.trans ?_ (State.post_keeps ..)
  refine DataKept.trans ?_ (State.modHealth_keeps ..)
  refine DataKept.ite ?_ ?_
  refine DataKept.trans ?_ (State.post_keeps ..)
  refine DataKept.trans ?_ (State.setTemp_keeps ..)
  refine DataKept.trans ?_ (State.at__keeps ..)
  exact DataKept.refl _
  refine DataKept.trans ?_ (State.setTemp_keeps ..)
  refine DataKept.trans ?_ (State.at__keeps ..)
  exact DataKept.refl _
  refine DataKept.nx ?_
  refine DataKept.trans ?_ (State.noteVitals_keeps ..)
  refine DataKept.ite ?_ ?_
  refine DataKept.trans ?_ (State.post_keeps ..)
  refine DataKept.trans ?_ (State.setTemp_keeps ..)
  refine DataKept.trans ?_ (State.at__keeps ..)
  exact DataKept.refl _
  refine DataKept.trans ?_ (State.setTemp_keeps ..)
  refine DataKept.trans ?_ (State.at__keeps ..)
  exact DataKept.refl _

theorem execThermalRetreat_keeps (t : Nat) (part : Part17) (unit : Nat) (temp : Int) (s : State) : ∀ v : State, execThermalRetreat t part unit temp s = .next v → DataKept s v := by
  unfold execThermalRetreat
  extract_lets +onlyGivenNames q1
  refine DataKept.nxIte ?_ ?_
  refine DataKept.nx ?_
  refine DataKept.trans ?_ (State.at__keeps ..)
  exact DataKept.refl _
  extract_lets +onlyGivenNames q2
  extract_lets +onlyGivenNames q3
  extract_lets +onlyGivenNames q4
  extract_lets +onlyGivenNames q5
  refine DataKept.nxIte ?_ ?_
  refine DataKept.nx ?_
  refine DataKept.trans ?_ (State.noteVitals_keeps ..)
  refine DataKept.trans ?_ (State.setTemp_keeps ..)
  refine DataKept.trans ?_ (State.at__keeps ..)
  exact DataKept.refl _
  extract_lets +onlyGivenNames q6
  refine DataKept.nx ?_
  refine DataKept.trans ?_ (State.noteVitals_keeps ..)
  refine DataKept.trans ?_ (State.applySteps_keeps ..)
  refine DataKept.trans ?_ (State.modHealth_keeps ..)
  refine DataKept.trans ?_ (State.setTemp_keeps ..)
  refine DataKept.trans ?_ (State.at__keeps ..)
  exact DataKept.refl _

theorem execGetThermalStatus_keeps (h : MbHdr) (s : State) : ∀ v : State, execGetThermalStatus h s = .next v → DataKept s v := by
  unfold execGetThermalStatus
  refine DataKept.nx ?_
  refine DataKept.trans ?_ (State.mbRun_keeps _ _ _ _ ?_)
  exact DataKept.refl _
  extract_lets +onlyGivenNames q1
  extract_lets +onlyGivenNames q2
  refine DataKept.okOk ?_
  exact DataKept.refl _

theorem State.markDue_keeps (s : State) (slice unit : Nat) (gap : Bool) : DataKept s (State.markDue s slice unit gap) := by
  unfold State.markDue
  extract_lets +onlyGivenNames q1
  extract_lets +onlyGivenNames q2
  refine DataKept.ite ?_ ?_
  refine DataKept.trans ?_ (State.markSlice_keeps ..)
  exact DataKept.refl _
  exact DataKept.refl _

theorem execSliceDue_keeps (t slice unit : Nat) (s : State) : ∀ v : State, execSliceDue t slice unit s = .next v → DataKept s v := by
  unfold execSliceDue
  extract_lets +onlyGivenNames q1
  extract_lets +onlyGivenNames q2
  extract_lets +onlyGivenNames q3
  extract_lets +onlyGivenNames q4
  refine DataKept.nxIte ?_ ?_
  refine DataKept.nx ?_
  refine DataKept.trans ?_ (State.at__keeps ..)
  exact DataKept.refl _
  refine DataKept.nxIte ?_ ?_
  refine DataKept.nx ?_
  refine DataKept.trans ?_ (State.at__keeps ..)
  exact DataKept.refl _
  extract_lets +onlyGivenNames q5
  refine DataKept.nx ?_
  refine DataKept.trans ?_ (State.markDue_keeps ..)
  refine DataKept.trans ?_ (State.modSlice_keeps ..)
  refine DataKept.trans ?_ (State.at__keeps ..)
  exact DataKept.refl _

theorem execSliceGapTimeout_keeps (t slice unit : Nat) (s : State) : ∀ v : State, execSliceGapTimeout t slice unit s = .next v → DataKept s v := by
  unfold execSliceGapTimeout
  extract_lets +onlyGivenNames q1
  extract_lets +onlyGivenNames q2
  split
  refine DataKept.nxIte ?_ ?_
  refine DataKept.nx ?_
  refine DataKept.trans ?_ (State.markDue_keeps ..)
  refine DataKept.trans ?_ (State.at__keeps ..)
  exact DataKept.refl _
  refine DataKept.nx ?_
  refine DataKept.trans ?_ (State.at__keeps ..)
  exact DataKept.refl _
  refine DataKept.nx ?_
  refine DataKept.trans ?_ (State.at__keeps ..)
  exact DataKept.refl _

theorem execSliceDeferralExpire_keeps (t slice unit : Nat) (s : State) : ∀ v : State, execSliceDeferralExpire t slice unit s = .next v → DataKept s v := by
  unfold execSliceDeferralExpire
  extract_lets +onlyGivenNames q1
  extract_lets +onlyGivenNames q2
  split
  refine DataKept.nxIte ?_ ?_
  refine DataKept.nx ?_
  refine DataKept.trans ?_ (State.modStone_keeps ..)
  refine DataKept.trans ?_ (State.at__keeps ..)
  exact DataKept.refl _
  refine DataKept.nx ?_
  refine DataKept.trans ?_ (State.at__keeps ..)
  exact DataKept.refl _
  refine DataKept.nx ?_
  refine DataKept.trans ?_ (State.at__keeps ..)
  exact DataKept.refl _

theorem State.raiseVolt_keeps (s : State) (key : Option Nat) : DataKept s (State.raiseVolt s key) := by
  unfold State.raiseVolt
  split
  refine DataKept.ite ?_ ?_
  exact DataKept.refl _
  refine DataKept.trans ?_ (State.modHealth_keeps ..)
  exact DataKept.refl _
  refine DataKept.ite ?_ ?_
  exact DataKept.refl _
  refine DataKept.trans ?_ (State.modHealth_keeps ..)
  exact DataKept.refl _

theorem execRequestTestSlice_keeps (h : MbHdr) (utype unit slice : Nat) (s : State) : ∀ v : State, execRequestTestSlice h utype unit slice s = .next v → DataKept s v := by
  unfold execRequestTestSlice
  refine DataKept.nx ?_
  refine DataKept.trans ?_ (State.mbBg_keeps _ _ _ _ _ ?_)
  exact DataKept.refl _
  refine DataKept.exIte ?_ ?_
  exact DataKept.exErr
  refine DataKept.exIte ?_ ?_
  exact DataKept.exErr
  refine DataKept.exIte ?_ ?_
  refine DataKept.exOk ?_
  refine DataKept.foldl ?_ (fun s x => ?_)
  exact DataKept.refl _
  refine DataKept.trans ?_ (State.markSlice_keeps ..)
  exact DataKept.refl _
  refine DataKept.exOk ?_
  refine DataKept.trans ?_ (State.markSlice_keeps ..)
  exact DataKept.refl _

theorem execGetTestSchedule_keeps (h : MbHdr) (o : OutReq) (s : State) : ∀ v : State, execGetTestSchedule h o s = .next v → DataKept s v := by
  unfold execGetTestSchedule
  refine DataKept.nx ?_
  refine DataKept.trans ?_ (State.mbSnap_keeps ..)
  exact DataKept.refl _

theorem execSetTestInterval_keeps (h : MbHdr) (slice interval : Nat) (s : State) : ∀ v : State, execSetTestInterval h slice interval s = .next v → DataKept s v := by
  unfold execSetTestInterval
  refine DataKept.nx ?_
  refine DataKept.trans ?_ (State.mbRun_keeps _ _ _ _ ?_)
  exact DataKept.refl _
  refine DataKept.okIte ?_ ?_
  exact DataKept.okErr
  refine DataKept.okOk ?_
  dsimp only
  refine DataKept.trans ?_ (State.modHealth_keeps ..)
  exact DataKept.refl _

theorem execSetDeferralLimit_keeps (h : MbHdr) (limit : Nat) (s : State) : ∀ v : State, execSetDeferralLimit h limit s = .next v → DataKept s v := by
  unfold execSetDeferralLimit
  refine DataKept.nx ?_
  refine DataKept.trans ?_ (State.mbRun_keeps _ _ _ _ ?_)
  exact DataKept.refl _
  refine DataKept.okIte ?_ ?_
  exact DataKept.okErr
  refine DataKept.okOk ?_
  dsimp only
  refine DataKept.trans ?_ (State.modHealth_keeps ..)
  exact DataKept.refl _

theorem execRequestCalibration_keeps (h : MbHdr) (kind unit : Nat) (s : State) : ∀ v : State, execRequestCalibration h kind unit s = .next v → DataKept s v := by
  unfold execRequestCalibration
  refine DataKept.nx ?_
  refine DataKept.trans ?_ (State.mbBg_keeps _ _ _ _ _ ?_)
  exact DataKept.refl _
  refine DataKept.exIte ?_ ?_
  exact DataKept.exErr
  refine DataKept.exIte ?_ ?_
  exact DataKept.exErr
  refine DataKept.exOk ?_
  refine DataKept.trans ?_ (State.modStack_keeps ..)
  exact DataKept.refl _

theorem execPathMonitorSample_keeps (t : Nat) (readings : List Nat) (hub : List Nat) (s : State) : ∀ v : State, execPathMonitorSample t readings hub s = .next v → DataKept s v := by
  unfold execPathMonitorSample
  extract_lets +onlyGivenNames q1
  refine DataKept.nxIte ?_ ?_
  refine DataKept.nx ?_
  refine DataKept.trans ?_ (State.modHealth_keeps ..)
  refine DataKept.trans ?_ (State.at__keeps ..)
  exact DataKept.refl _
  refine DataKept.nx ?_
  refine DataKept.trans ?_ (State.at__keeps ..)
  exact DataKept.refl _

theorem State.planDie_keeps (s : State) (d : Nat) : DataKept s (State.planDie s d) := by
  unfold State.planDie
  refine DataKept.ite ?_ ?_
  exact DataKept.refl _
  refine DataKept.ite ?_ ?_
  refine DataKept.trans ?_ (State.raiseVolt_keeps ..)
  exact DataKept.refl _
  refine DataKept.trans ?_ (State.modHealth_keeps ..)
  exact DataKept.refl _

theorem State.planHub_keeps (s : State) : DataKept s (State.planHub s) := by
  unfold State.planHub
  refine DataKept.ite ?_ ?_
  exact DataKept.refl _
  refine DataKept.ite ?_ ?_
  refine DataKept.trans ?_ (State.raiseVolt_keeps ..)
  exact DataKept.refl _
  refine DataKept.trans ?_ (State.modHealth_keeps ..)
  exact DataKept.refl _

theorem State.planFlash_keeps (s : State) (waf : Nat) : DataKept s (State.planFlash s waf) := by
  unfold State.planFlash
  extract_lets +onlyGivenNames q1
  extract_lets +onlyGivenNames q2
  extract_lets +onlyGivenNames q3
  refine DataKept.ite ?_ ?_
  refine DataKept.trans ?_ (State.modHealth_keeps ..)
  refine DataKept.trans ?_ (State.modDeep_keeps ..)
  exact DataKept.refl _
  exact DataKept.refl _

theorem State.planLasers_keeps (s : State) (margins : List Nat) : DataKept s (State.planLasers s margins) := by
  unfold State.planLasers
  refine DataKept.foldl ?_ (fun s x => ?_)
  exact DataKept.refl _
  refine DataKept.ite ?_ ?_
  refine DataKept.trans ?_ (State.modPorts_keeps ..)
  exact DataKept.refl _
  exact DataKept.refl _

theorem execTenteringRun_keeps (t waf30 : Nat) (margins : List Nat) (s : State) : ∀ v : State, execTenteringRun t waf30 margins s = .next v → DataKept s v := by
  unfold execTenteringRun
  extract_lets +onlyGivenNames q1
  refine DataKept.nxIte ?_ ?_
  extract_lets +onlyGivenNames q2
  extract_lets +onlyGivenNames q3
  refine DataKept.nx ?_
  refine DataKept.trans ?_ (State.noteVitals_keeps ..)
  refine DataKept.trans ?_ (State.applySteps_keeps ..)
  refine DataKept.trans ?_ (State.modHealth_keeps ..)
  refine DataKept.trans ?_ (State.planLasers_keeps ..)
  refine DataKept.trans ?_ (State.planFlash_keeps ..)
  refine DataKept.trans ?_ (State.planHub_keeps ..)
  refine DataKept.foldl ?_ (fun s x => ?_)
  refine DataKept.trans ?_ (State.at__keeps ..)
  exact DataKept.refl _
  refine DataKept.trans ?_ (State.planDie_keeps ..)
  exact DataKept.refl _
  refine DataKept.nx ?_
  refine DataKept.trans ?_ (State.at__keeps ..)
  exact DataKept.refl _

theorem State.skipFree_keeps (s : State) (n : Nat) : DataKept s (s.skipFree n) :=
  ⟨rfl, rfl, rfl, rfl⟩

theorem execGetAgeingTelemetry_keeps (h : MbHdr) (o : OutReq) (s : State) : ∀ v : State, execGetAgeingTelemetry h o s = .next v → DataKept s v := by
  unfold execGetAgeingTelemetry
  refine DataKept.nx ?_
  refine DataKept.trans ?_ (State.skipFree_keeps ..)
  refine DataKept.trans ?_ (State.mbSnap_keeps ..)
  exact DataKept.refl _

theorem execGetTenteringPlan_keeps (h : MbHdr) (s : State) : ∀ v : State, execGetTenteringPlan h s = .next v → DataKept s v := by
  unfold execGetTenteringPlan
  refine DataKept.nx ?_
  refine DataKept.trans ?_ (State.mbRun_keeps _ _ _ _ ?_)
  exact DataKept.refl _
  extract_lets +onlyGivenNames q1
  extract_lets +onlyGivenNames q2
  refine DataKept.okOk ?_
  dsimp only
  refine DataKept.trans ?_ (State.freeFields_keeps ..)
  exact DataKept.refl _

theorem State.powerUpReset_keeps (s : State) : DataKept s (State.powerUpReset s) := by
  unfold State.powerUpReset
  with_reducible refine DataKept.trans ?_ (DataKept.fields rfl rfl rfl rfl)
  exact DataKept.refl _

theorem State.lightPorts_keeps (s : State) : DataKept s (State.lightPorts s) := by
  unfold State.lightPorts
  extract_lets +onlyGivenNames q1
  extract_lets +onlyGivenNames q2
  refine DataKept.trans ?_ (State.modPorts_keeps ..)
  exact DataKept.refl _

theorem State.mainSequence_keeps (s : State) (zero : Bool) : DataKept s (State.mainSequence s zero) := by
  unfold State.mainSequence
  extract_lets +onlyGivenNames q1
  extract_lets +onlyGivenNames q2
  refine DataKept.trans ?_ (State.lightPorts_keeps ..)
  with_reducible refine DataKept.trans ?_ (DataKept.fields rfl rfl rfl rfl)
  refine DataKept.ite ?_ ?_
  refine DataKept.trans ?_ (State.modCxe_keeps ..)
  refine DataKept.trans ?_ (State.modClock_keeps ..)
  exact DataKept.refl _
  refine DataKept.trans ?_ (State.modClock_keeps ..)
  exact DataKept.refl _

theorem State.tryMain_keeps (s : State) : DataKept s (State.tryMain s) := by
  unfold State.tryMain
  refine DataKept.ite ?_ ?_
  refine DataKept.trans ?_ (State.mainSequence_keeps ..)
  exact DataKept.refl _
  exact DataKept.refl _

theorem execVaux33PowerOn_keeps (t : Nat) (s : State) : ∀ v : State, execVaux33PowerOn t s = .next v → DataKept s v := by
  unfold execVaux33PowerOn
  extract_lets +onlyGivenNames q1
  refine DataKept.nxIte ?_ ?_
  refine DataKept.nx ?_
  refine DataKept.trans ?_ (State.modClock_keeps ..)
  refine DataKept.trans ?_ (State.at__keeps ..)
  exact DataKept.refl _
  extract_lets +onlyGivenNames q2
  refine DataKept.nx ?_
  with_reducible refine DataKept.trans ?_ (DataKept.fields rfl rfl rfl rfl)
  refine DataKept.trans ?_ (State.modClock_keeps ..)
  refine DataKept.trans ?_ (State.powerUpReset_keeps ..)
  refine DataKept.trans ?_ (State.at__keeps ..)
  exact DataKept.refl _

theorem execFastOscQualified_keeps (t xdly : Nat) (s : State) : ∀ v : State, execFastOscQualified t xdly s = .next v → DataKept s v := by
  unfold execFastOscQualified
  extract_lets +onlyGivenNames q1
  refine DataKept.nxIte ?_ ?_
  refine DataKept.nx ?_
  extract_lets +onlyGivenNames q2
  with_reducible refine DataKept.trans ?_ (DataKept.fields rfl rfl rfl rfl)
  refine DataKept.trans ?_ (State.modClock_keeps ..)
  refine DataKept.trans ?_ (State.at__keeps ..)
  exact DataKept.refl _
  refine DataKept.nx ?_
  refine DataKept.trans ?_ (State.at__keeps ..)
  exact DataKept.refl _

theorem State.setCrystal_keeps (s : State) (c : Nat) (x : Crystal) : DataKept s (State.setCrystal s c x) := by
  unfold State.setCrystal
  refine DataKept.trans ?_ (State.modClock_keeps ..)
  exact DataKept.refl _

theorem State.startXb_keeps (s : State) : DataKept s (State.startXb s) := by
  unfold State.startXb
  refine DataKept.ite ?_ ?_
  refine DataKept.trans ?_ (State.modClock_keeps ..)
  exact DataKept.refl _
  exact DataKept.refl _

theorem State.fallback_keeps (s : State) (lost : Nat) : DataKept s (State.fallback s lost) := by
  unfold State.fallback
  refine DataKept.ite ?_ ?_
  refine DataKept.trans ?_ (State.post_keeps ..)
  exact DataKept.refl _
  refine DataKept.trans ?_ (State.modClock_keeps ..)
  exact DataKept.refl _

theorem State.releaseBrake_keeps (s : State) : DataKept s (State.releaseBrake s) := by
  unfold State.releaseBrake
  extract_lets +onlyGivenNames q1
  refine DataKept.trans ?_ (State.tryMain_keeps ..)
  extract_lets +onlyGivenNames q2
  with_reducible refine DataKept.trans ?_ (DataKept.fields rfl rfl rfl rfl)
  refine DataKept.trans ?_ (State.modClock_keeps ..)
  refine DataKept.ite ?_ ?_
  refine DataKept.trans ?_ (State.modClock_keeps ..)
  exact DataKept.refl _
  exact DataKept.refl _

theorem execCrystalQualified_keeps (t crystal : Nat) (s : State) : ∀ v : State, execCrystalQualified t crystal s = .next v → DataKept s v := by
  unfold execCrystalQualified
  extract_lets +onlyGivenNames q1
  refine DataKept.nxIte ?_ ?_
  refine DataKept.nx ?_
  refine DataKept.trans ?_ (State.at__keeps ..)
  exact DataKept.refl _
  extract_lets +onlyGivenNames q2
  extract_lets +onlyGivenNames q3
  refine DataKept.nxIte ?_ ?_
  extract_lets +onlyGivenNames q4
  refine DataKept.nx ?_
  refine DataKept.ite ?_ ?_
  refine DataKept.trans ?_ (State.modClock_keeps ..)
  refine DataKept.ite ?_ ?_
  refine DataKept.trans ?_ (State.startXb_keeps ..)
  refine DataKept.trans ?_ (State.setCrystal_keeps ..)
  refine DataKept.trans ?_ (State.at__keeps ..)
  exact DataKept.refl _
  refine DataKept.trans ?_ (State.setCrystal_keeps ..)
  refine DataKept.trans ?_ (State.at__keeps ..)
  exact DataKept.refl _
  refine DataKept.trans ?_ (State.releaseBrake_keeps ..)
  refine DataKept.trans ?_ (State.modClock_keeps ..)
  refine DataKept.ite ?_ ?_
  refine DataKept.trans ?_ (State.startXb_keeps ..)
  refine DataKept.trans ?_ (State.setCrystal_keeps ..)
  refine DataKept.trans ?_ (State.at__keeps ..)
  exact DataKept.refl _
  refine DataKept.trans ?_ (State.setCrystal_keeps ..)
  refine DataKept.trans ?_ (State.at__keeps ..)
  exact DataKept.refl _
  refine DataKept.nx ?_
  refine DataKept.ite ?_ ?_
  refine DataKept.trans ?_ (State.startXb_keeps ..)
  refine DataKept.trans ?_ (State.setCrystal_keeps ..)
  refine DataKept.trans ?_ (State.at__keeps ..)
  exact DataKept.refl _
  refine DataKept.trans ?_ (State.setCrystal_keeps ..)
  refine DataKept.trans ?_ (State.at__keeps ..)
  exact DataKept.refl _

theorem execCrystalQualTimeout_keeps (t crystal : Nat) (s : State) : ∀ v : State, execCrystalQualTimeout t crystal s = .next v → DataKept s v := by
  unfold execCrystalQualTimeout
  extract_lets +onlyGivenNames q1
  refine DataKept.nxIte ?_ ?_
  refine DataKept.nx ?_
  refine DataKept.trans ?_ (State.at__keeps ..)
  exact DataKept.refl _
  extract_lets +onlyGivenNames q2
  refine DataKept.nx ?_
  refine DataKept.trans ?_ (State.noteVitals_keeps ..)
  refine DataKept.ite ?_ ?_
  refine DataKept.trans ?_ (State.startXb_keeps ..)
  refine DataKept.trans ?_ (State.fallback_keeps ..)
  refine DataKept.trans ?_ (State.setCrystal_keeps ..)
  refine DataKept.trans ?_ (State.at__keeps ..)
  exact DataKept.refl _
  refine DataKept.trans ?_ (State.fallback_keeps ..)
  refine DataKept.trans ?_ (State.setCrystal_keeps ..)
  refine DataKept.trans ?_ (State.at__keeps ..)
  exact DataKept.refl _

theorem execPwrgdAssert_keeps (t : Nat) (s : State) : ∀ v : State, execPwrgdAssert t s = .next v → DataKept s v := by
  unfold execPwrgdAssert
  extract_lets +onlyGivenNames q1
  refine DataKept.nxIte ?_ ?_
  refine DataKept.nx ?_
  refine DataKept.trans ?_ (State.at__keeps ..)
  exact DataKept.refl _
  refine DataKept.nx ?_
  refine DataKept.trans ?_ (State.tryMain_keeps ..)
  refine DataKept.trans ?_ (State.modClock_keeps ..)
  refine DataKept.trans ?_ (State.at__keeps ..)
  exact DataKept.refl _

theorem execPerstDeassert_keeps (t : Nat) (s : State) : ∀ v : State, execPerstDeassert t s = .next v → DataKept s v := by
  unfold execPerstDeassert
  extract_lets +onlyGivenNames q1
  refine DataKept.nxIte ?_ ?_
  refine DataKept.nxIte ?_ ?_
  refine DataKept.nx ?_
  refine DataKept.trans ?_ (State.mainSequence_keeps ..)
  refine DataKept.trans ?_ (State.modClock_keeps ..)
  refine DataKept.trans ?_ (State.at__keeps ..)
  exact DataKept.refl _
  refine DataKept.nx ?_
  with_reducible refine DataKept.trans ?_ (DataKept.fields rfl rfl rfl rfl)
  refine DataKept.trans ?_ (State.modClock_keeps ..)
  refine DataKept.trans ?_ (State.at__keeps ..)
  exact DataKept.refl _
  refine DataKept.nx ?_
  refine DataKept.trans ?_ (State.tryMain_keeps ..)
  refine DataKept.trans ?_ (State.modClock_keeps ..)
  refine DataKept.trans ?_ (State.at__keeps ..)
  exact DataKept.refl _

theorem execVin48InputReconnect_keeps (t : Nat) (s : State) : ∀ v : State, execVin48InputReconnect t s = .next v → DataKept s v := by
  unfold execVin48InputReconnect
  refine DataKept.nx ?_
  refine DataKept.trans ?_ (State.modClock_keeps ..)
  refine DataKept.trans ?_ (State.at__keeps ..)
  exact DataKept.refl _

theorem execClockGateRequest_keeps (t kind unit : Nat) (s : State) : ∀ v : State, execClockGateRequest t kind unit s = .next v → DataKept s v := by
  unfold execClockGateRequest
  extract_lets +onlyGivenNames q1
  refine DataKept.nxIte ?_ ?_
  refine DataKept.nx ?_
  refine DataKept.trans ?_ (State.at__keeps ..)
  exact DataKept.refl _
  extract_lets +onlyGivenNames q2
  refine DataKept.nxIte ?_ ?_
  refine DataKept.nx ?_
  refine DataKept.trans ?_ (State.modClock_keeps ..)
  refine DataKept.trans ?_ (State.at__keeps ..)
  exact DataKept.refl _
  refine DataKept.nx ?_
  refine DataKept.trans ?_ (State.modClock_keeps ..)
  refine DataKept.trans ?_ (State.at__keeps ..)
  exact DataKept.refl _

theorem execGateHandshakeTimeout_keeps (t kind unit : Nat) (s : State) : ∀ v : State, execGateHandshakeTimeout t kind unit s = .next v → DataKept s v := by
  unfold execGateHandshakeTimeout
  extract_lets +onlyGivenNames q1
  refine DataKept.nxIte ?_ ?_
  refine DataKept.nx ?_
  refine DataKept.trans ?_ (State.modClock_keeps ..)
  refine DataKept.trans ?_ (State.at__keeps ..)
  exact DataKept.refl _
  refine DataKept.nx ?_
  refine DataKept.trans ?_ (State.at__keeps ..)
  exact DataKept.refl _

theorem execClockGateWake_keeps (t kind unit : Nat) (s : State) : ∀ v : State, execClockGateWake t kind unit s = .next v → DataKept s v := by
  unfold execClockGateWake
  refine DataKept.nx ?_
  refine DataKept.trans ?_ (State.modClock_keeps ..)
  refine DataKept.trans ?_ (State.at__keeps ..)
  exact DataKept.refl _

theorem State.millerFault_keeps (s : State) (cause : Nat) : DataKept s (State.millerFault s cause) := by
  unfold State.millerFault
  extract_lets +onlyGivenNames q1
  extract_lets +onlyGivenNames q2
  with_reducible refine DataKept.trans ?_ (DataKept.fields rfl rfl rfl rfl)
  refine DataKept.trans ?_ (State.modBoot_keeps ..)
  refine DataKept.foldl ?_ (fun s x => ?_)
  exact DataKept.refl _
  refine DataKept.trans ?_ (State.endJob_keeps ..)
  exact DataKept.refl _

theorem execMillerWatchdog_keeps (t : Nat) (s : State) : ∀ v : State, execMillerWatchdog t s = .next v → DataKept s v := by
  unfold execMillerWatchdog
  extract_lets +onlyGivenNames q1
  refine DataKept.nxIte ?_ ?_
  refine DataKept.nx ?_
  refine DataKept.trans ?_ (State.millerFault_keeps ..)
  refine DataKept.trans ?_ (State.at__keeps ..)
  exact DataKept.refl _
  refine DataKept.nx ?_
  refine DataKept.trans ?_ (State.at__keeps ..)
  exact DataKept.refl _

theorem execMillerFetchFault_keeps (t : Nat) (s : State) : ∀ v : State, execMillerFetchFault t s = .next v → DataKept s v := by
  unfold execMillerFetchFault
  extract_lets +onlyGivenNames q1
  refine DataKept.nxIte ?_ ?_
  refine DataKept.nx ?_
  refine DataKept.trans ?_ (State.millerFault_keeps ..)
  refine DataKept.trans ?_ (State.ueLog_keeps ..)
  refine DataKept.trans ?_ (State.at__keeps ..)
  exact DataKept.refl _
  refine DataKept.nx ?_
  refine DataKept.trans ?_ (State.at__keeps ..)
  exact DataKept.refl _

end Sys2Proof.Machine
end

