-- ==== Sys2Proof/Laws/SafeStep.lean ====
section
/-! SUPPORT. How safe steps compose, and the record updates that are safe: what the lemmas of the operations rest on. -/
namespace Sys2Proof.Machine

theorem SafeStep.refl (s : State) : SafeStep s s := ⟨rfl, Nat.le_refl _, List.suffix_refl _, Nat.le_refl _, Nat.le_refl _, id⟩
theorem SafeStep.trans {s u t : State} (h : SafeStep s u) (k : SafeStep u t) : SafeStep s t :=
  ⟨k.queue.trans h.queue, Nat.le_trans h.time k.time, h.sent.trans k.sent, Nat.le_trans h.fuses k.fuses, Nat.le_trans h.drawn k.drawn,
    fun x => k.mem (h.mem x)⟩
theorem SafeStep.ite {s a b : State} {c : Prop} [Decidable c] (h : SafeStep s a) (k : SafeStep s b) : SafeStep s (if c then a else b) := by
  split <;> assumption
theorem SafeStep.iteP {α : Type} {s : State} {a b : α × State} {c : Prop} [Decidable c] (h : SafeStep s a.2) (k : SafeStep s b.2) : SafeStep s (if c then a else b).2 := by
  split <;> assumption
theorem SafeStep.foldl {α : Type} {s u : State} {g : State → α → State} {l : List α} (h : SafeStep s u) (k : ∀ v x, SafeStep v (g v x)) :
    SafeStep s (l.foldl g u) := by
  induction l generalizing u with
  | nil => exact h
  | cons x l ih => exact ih (h.trans (k _ _))
theorem SafeStep.record {s t : State} (h1 : t.pending = s.pending) (h2 : t.now = s.now) (h3 : t.sent = s.sent) (h4 : t.boot.fusemin = s.boot.fusemin) (h5 : t.freeCtr = s.freeCtr) (h6 : t.store.sacks = s.store.sacks) (h7 : t.store.t1 = s.store.t1) (h8 : t.store.t2 = s.store.t2) : SafeStep s t :=
  ⟨h1, Nat.le_of_eq h2.symm, h3 ▸ List.suffix_refl _, Nat.le_of_eq h4.symm, Nat.le_of_eq h5.symm, fun h => by simpa [State.memWf, h6, h7, h8] using h⟩
theorem SafeStep.recordF {s t : State} (h1 : t.pending = s.pending) (h2 : t.now = s.now) (h3 : t.sent = s.sent) (h4 : t.boot.fusemin = s.boot.fusemin) (h5 : s.freeCtr ≤ t.freeCtr) (h6 : t.store.sacks = s.store.sacks) (h7 : t.store.t1 = s.store.t1) (h8 : t.store.t2 = s.store.t2) : SafeStep s t :=
  ⟨h1, Nat.le_of_eq h2.symm, h3 ▸ List.suffix_refl _, Nat.le_of_eq h4.symm, h5, fun h => by simpa [State.memWf, h6, h7, h8] using h⟩
theorem SafeStep.snd {α : Type} {s v : State} {p : α × State} {a : α} (h : p = (a, v)) (k : SafeStep s p.2) : SafeStep s v := by
  subst h; exact k
theorem SafeStep.snd3 {α β : Type} {s v : State} {p : α × β × State} {a : α} {b : β} (h : p = (a, b, v)) (k : SafeStep s p.2.2) : SafeStep s v := by
  subst h; exact k
theorem SafeStep.modStore {s : State} {f : StoreSt → StoreSt} (h6 : ∀ st, (f st).sacks = st.sacks) (h7 : ∀ st, (f st).t1 = st.t1) (h8 : ∀ st, (f st).t2 = st.t2) : SafeStep s (s.modStore f) :=
  SafeStep.record rfl rfl rfl rfl rfl (h6 _) (h7 _) (h8 _)
theorem SafeStep.modBoot {s : State} {f : BootSt → BootSt} (h : ∀ b, (f b).fusemin = b.fusemin) : SafeStep s (s.modBoot f) :=
  SafeStep.record rfl rfl rfl (h _) rfl rfl rfl rfl
theorem SafeStep.recordM {s t : State} (h1 : t.pending = s.pending) (h2 : t.now = s.now) (h3 : t.sent = s.sent) (h4 : s.boot.fusemin ≤ t.boot.fusemin) (h5 : t.freeCtr = s.freeCtr)
    (h6 : s.store.sacks.wf = true → t.store.sacks.wf = true) (h7 : s.store.t1.wf = true → t.store.t1.wf = true) (h8 : s.store.t2.wf = true → t.store.t2.wf = true) : SafeStep s t := by
  refine ⟨h1, Nat.le_of_eq h2.symm, h3 ▸ List.suffix_refl _, h4, Nat.le_of_eq h5.symm, fun h => ?_⟩
  simp only [State.memWf, Bool.and_eq_true] at h ⊢
  exact ⟨⟨h6 h.1.1, h7 h.1.2⟩, h8 h.2⟩
theorem SafeStep.optSome {α : Type} {s : State} {r : α × State} (h : SafeStep s r.2) : ∀ q, some r = some q → SafeStep s q.2 := fun q hq => by
  cases hq; exact h
theorem SafeStep.optSome1 {α : Type} {s : State} {r : State × α} (h : SafeStep s r.1) : ∀ q, some r = some q → SafeStep s q.1 := fun q hq => by
  cases hq; exact h
theorem SafeStep.optNone1 {α : Type} {s : State} : ∀ q : State × α, none = some q → SafeStep s q.1 := fun q hq => by cases hq
theorem SafeStep.optNone {α : Type} {s : State} : ∀ q : α × State, none = some q → SafeStep s q.2 := fun q hq => by cases hq
theorem SafeStep.optIte {α : Type} {s : State} {c : Prop} [Decidable c] {a b : Option (α × State)} (h : ∀ q, a = some q → SafeStep s q.2) (k : ∀ q, b = some q → SafeStep s q.2) :
    ∀ q, (if c then a else b) = some q → SafeStep s q.2 := by split <;> assumption
theorem SafeStep.some1 {s r : State} (h : SafeStep s r) : ∀ q, some r = some q → SafeStep s q := fun q hq => by cases hq; exact h
theorem SafeStep.none1 {s : State} : ∀ q : State, none = some q → SafeStep s q := fun q hq => by cases hq
theorem SafeStep.ite1 {s : State} {c : Prop} [Decidable c] {a b : Option State} (h : ∀ q, a = some q → SafeStep s q) (k : ∀ q, b = some q → SafeStep s q) :
    ∀ q, (if c then a else b) = some q → SafeStep s q := by split <;> assumption
theorem SafeStep.okOk {s : State} {r : MbOk} (h : SafeStep s r.s) : ∀ q : MbOk, Except.ok (ε := Rc) r = .ok q → SafeStep s q.s := fun q hq => by cases hq; exact h
theorem SafeStep.okErr {s : State} {e : Rc} : ∀ q : MbOk, Except.error (ε := Rc) e = .ok q → SafeStep s q.s := fun q hq => by cases hq
theorem SafeStep.okIte {s : State} {c : Prop} [Decidable c] {a b : Except Rc MbOk} (h : ∀ q, a = .ok q → SafeStep s q.s) (k : ∀ q, b = .ok q → SafeStep s q.s) :
    ∀ q, (if c then a else b) = .ok q → SafeStep s q.s := by split <;> assumption
theorem SafeStep.exOk {s r : State} (h : SafeStep s r) : ∀ q : State, Except.ok (ε := Rc) r = .ok q → SafeStep s q := fun q hq => by cases hq; exact h
theorem SafeStep.exErr {s : State} {e : Rc} : ∀ q : State, Except.error (ε := Rc) e = .ok q → SafeStep s q := fun q hq => by cases hq
theorem SafeStep.exIte {s : State} {c : Prop} [Decidable c] {a b : Except Rc State} (h : ∀ q, a = .ok q → SafeStep s q) (k : ∀ q, b = .ok q → SafeStep s q) :
    ∀ q, (if c then a else b) = .ok q → SafeStep s q := by split <;> assumption
theorem SafeStep.nx {s r : State} (h : SafeStep s r) : ∀ q : State, (Host.Outcome.next r : Res) = .next q → SafeStep s q := fun q hq => by cases hq; exact h
theorem SafeStep.nxIte {s : State} {c : Prop} [Decidable c] {a b : Res} (h : ∀ q, a = .next q → SafeStep s q) (k : ∀ q, b = .next q → SafeStep s q) :
    ∀ q, (if c then a else b) = .next q → SafeStep s q := by split <;> assumption
theorem SafeStep.getD {s d : State} {o : Option State} (h : ∀ v, o = some v → SafeStep s v) (k : SafeStep s d) : SafeStep s (o.getD d) := by
  cases o with
  | none => exact k
  | some v => exact h v rfl
variable {u : State} {phase : Phase} {ready : Bool} {ext : ExtSt} {store : StoreSt} {sweep : SweepSt} {weir : WeirSt} {near : NearSt}
  {deep : DeepSt} {integ : IntegSt} {mbox : MboxSt} {result : ResultSt} {stone : StoneSt} {gate : GateSt} {port : PortSt} {cxe : CxeSt}
  {boot : BootSt} {clock : ClockSt} {health : HealthSt} {power : PowerSt}

theorem SafeStep.fields (h6 : store.sacks = u.store.sacks) (h7 : store.t1 = u.store.t1) (h8 : store.t2 = u.store.t2)
    (h4 : boot.fusemin = u.boot.fusemin) :
    SafeStep u ⟨u.now, phase, ready, u.freeCtr, ext, store, sweep, weir, near, deep, integ, mbox, result, stone, gate, port, cxe, boot,
      clock, health, power, u.sent, u.pending⟩ :=
  SafeStep.record rfl rfl rfl h4 rfl h6 h7 h8

theorem SafeStep.fieldsF (h6 : store.sacks = u.store.sacks) (h7 : store.t1 = u.store.t1) (h8 : store.t2 = u.store.t2)
    (h4 : boot.fusemin = u.boot.fusemin) :
    SafeStep u ⟨u.now, phase, ready, u.freeCtr + 1, ext, store, sweep, weir, near, deep, integ, mbox, result, stone, gate, port, cxe, boot,
      clock, health, power, u.sent, u.pending⟩ :=
  SafeStep.recordF rfl rfl rfl h4 (Nat.le_succ _) h6 h7 h8

theorem SafeStep.fieldsM (h6 : u.store.sacks.wf = true → store.sacks.wf = true) (h7 : u.store.t1.wf = true → store.t1.wf = true)
    (h8 : u.store.t2.wf = true → store.t2.wf = true) (h4 : u.boot.fusemin ≤ boot.fusemin) :
    SafeStep u ⟨u.now, phase, ready, u.freeCtr, ext, store, sweep, weir, near, deep, integ, mbox, result, stone, gate, port, cxe, boot,
      clock, health, power, u.sent, u.pending⟩ :=
  SafeStep.recordM rfl rfl rfl h4 rfl h6 h7 h8
theorem SafeStep.fst {α : Type} {s v : State} {p : State × α} {a : α} (h : p = (v, a)) (k : SafeStep s p.1) : SafeStep s v := by
  subst h; exact k
theorem SafeStep.fst3 {α β : Type} {s v : State} {p : State × α × β} {a : α} {b : β} (h : p = (v, a, b)) (k : SafeStep s p.1) : SafeStep s v := by
  subst h; exact k
theorem Tbl.wf_foldl_set {α β : Type} [DecidableEq α] (l : List β) (k : β → Nat) (v : β → α) {t : Tbl α} (h : t.wf = true) :
    (l.foldl (fun t b => t.set (k b) (v b)) t).wf = true := by
  induction l generalizing t with
  | nil => exact h
  | cons b l ih => exact ih (Tbl.wf_set h _ _)

end Sys2Proof.Machine
end

