-- ==== Sys2Proof/Laws/SafeStore.lean ====
section
/-! SUPPORT. Every operation and every meaning over the stored data, the sweep and the tiers is a safe step: one lemma each. -/
namespace Sys2Proof.Machine

theorem State.at__safe (s : State) (t : Nat) : SafeStep s (s.at_ t) :=
  ⟨rfl, Nat.le_max_left _ _, List.suffix_refl _, Nat.le_refl _, Nat.le_refl _, id⟩

theorem State.send_safe (s : State) (o : Out) : SafeStep s (s.send o) :=
  ⟨rfl, Nat.le_refl _, List.suffix_cons _ _, Nat.le_refl _, Nat.le_refl _, id⟩

theorem State.sendAll_safe (s : State) (os : List Out) : SafeStep s (State.sendAll s os) := by
  unfold State.sendAll
  refine SafeStep.foldl ?_ (fun s x => ?_)
  exact SafeStep.refl _
  refine SafeStep.trans ?_ (State.send_safe ..)
  exact SafeStep.refl _

theorem State.free_safe (s : State) : SafeStep s s.free.2 :=
  SafeStep.recordF rfl rfl rfl rfl (Nat.le_succ _) rfl rfl rfl

theorem State.signal_safe (s : State) (m v : Nat) : SafeStep s (State.signal s m v) := by
  unfold State.signal
  refine SafeStep.ite ?_ ?_
  refine SafeStep.trans ?_ (State.send_safe ..)
  exact SafeStep.refl _
  with_reducible refine SafeStep.trans ?_ (SafeStep.fields rfl rfl rfl rfl)
  exact SafeStep.refl _

theorem State.post_safe (s : State) (m log : Nat) (e : Event) : SafeStep s (State.post s m log e) := by
  unfold State.post
  extract_lets +onlyGivenNames q1
  extract_lets +onlyGivenNames q2
  extract_lets +onlyGivenNames q3
  refine SafeStep.ite ?_ ?_
  extract_lets +onlyGivenNames q4
  extract_lets +onlyGivenNames q5
  refine SafeStep.ite ?_ ?_
  refine SafeStep.trans ?_ (State.signal_safe ..)
  with_reducible refine SafeStep.trans ?_ (SafeStep.fields rfl rfl rfl rfl)
  exact SafeStep.refl _
  with_reducible refine SafeStep.trans ?_ (SafeStep.fields rfl rfl rfl rfl)
  exact SafeStep.refl _
  extract_lets +onlyGivenNames q6
  with_reducible refine SafeStep.trans ?_ (SafeStep.fields rfl rfl rfl rfl)
  exact SafeStep.refl _

theorem State.postAll_safe (s : State) (ps : List Post) : SafeStep s (State.postAll s ps) := by
  unfold State.postAll
  refine SafeStep.foldl ?_ (fun s x => ?_)
  exact SafeStep.refl _
  refine SafeStep.trans ?_ (State.post_safe ..)
  exact SafeStep.refl _

theorem State.postEvery_safe (s : State) (log : Nat) (e : Event) : SafeStep s (State.postEvery s log e) := by
  unfold State.postEvery
  refine SafeStep.foldl ?_ (fun s x => ?_)
  exact SafeStep.refl _
  refine SafeStep.trans ?_ (State.post_safe ..)
  exact SafeStep.refl _

theorem State.ledger_safe (s : State) (r : LedgerRec) (posts : List Post) (outs : List Out) (job : Option (Nat × Rc × Nat)) : SafeStep s (State.ledger s r posts outs job) := by
  unfold State.ledger
  extract_lets +onlyGivenNames q1
  extract_lets +onlyGivenNames q2
  extract_lets +onlyGivenNames q3
  refine SafeStep.ite ?_ ?_
  refine SafeStep.trans ?_ (State.sendAll_safe ..)
  refine SafeStep.trans ?_ (State.postAll_safe ..)
  with_reducible refine SafeStep.trans ?_ (SafeStep.fields rfl rfl rfl rfl)
  exact SafeStep.refl _
  with_reducible refine SafeStep.trans ?_ (SafeStep.fields rfl rfl rfl rfl)
  exact SafeStep.refl _

theorem State.newKey_safe (s : State) : SafeStep s s.newKey.2 :=
  SafeStep.recordF rfl rfl rfl rfl (Nat.le_add_right _ _) rfl rfl rfl

theorem State.countFail_safe (s : State) (src : Nat) (vendor : Bool) (code : Rc) : SafeStep s (State.countFail s src vendor code) := by
  unfold State.countFail
  refine SafeStep.ite ?_ ?_
  with_reducible refine SafeStep.trans ?_ (SafeStep.fields rfl rfl rfl rfl)
  exact SafeStep.refl _
  exact SafeStep.refl _

theorem State.noteCmd_safe (s : State) (src opcode : Nat) (code : Rc) : SafeStep s (State.noteCmd s src opcode code) := by
  unfold State.noteCmd
  with_reducible refine SafeStep.trans ?_ (SafeStep.fields rfl rfl rfl rfl)
  exact SafeStep.refl _

theorem State.answer_safe (s : State) (h : MbHdr) (c : Cmd) (code : Rc) (fields : List Fld) (blob : Bytes) : SafeStep s (State.answer s h c code fields blob) := by
  unfold State.answer
  refine SafeStep.trans ?_ (State.send_safe ..)
  refine SafeStep.trans ?_ (State.noteCmd_safe ..)
  refine SafeStep.trans ?_ (State.countFail_safe ..)
  exact SafeStep.refl _

theorem State.mbRun_safe (s : State) (h : MbHdr) (c : Cmd) (body : MbBody) (hb : ∀ r, body s = .ok r → SafeStep s r.s) : SafeStep s (s.mbRun h c body) := by
  unfold State.mbRun
  split
  · exact SafeStep.refl _
  · split
    · exact State.answer_safe ..
    · split
      · exact SafeStep.trans (hb _ (by assumption)) (State.answer_safe ..)
      · exact State.answer_safe ..

theorem State.mbBg_safe (s : State) (h : MbHdr) (c : Cmd) (cmd : Instr) (body : State → Except Rc State)
    (hb : ∀ v, body s = .ok v → SafeStep s v) : SafeStep s (s.mbBg h c cmd body) := by
  unfold State.mbBg
  split
  · exact SafeStep.refl _
  · split
    · exact State.answer_safe ..
    · split
      · refine SafeStep.trans (hb _ (by assumption)) (SafeStep.trans ?_ (State.answer_safe ..))
        exact SafeStep.record rfl rfl rfl rfl rfl rfl rfl rfl
      · exact State.answer_safe ..

theorem State.endJob_safe (s : State) (src : Nat) (code : Rc) (vses : Nat) : SafeStep s (State.endJob s src code vses) := by
  unfold State.endJob
  split
  exact SafeStep.refl _
  extract_lets +onlyGivenNames q1
  extract_lets +onlyGivenNames q2
  refine SafeStep.trans ?_ (State.signal_safe ..)
  refine SafeStep.trans ?_ (State.send_safe ..)
  refine SafeStep.trans ?_ (State.countFail_safe ..)
  with_reducible refine SafeStep.trans ?_ (SafeStep.fields rfl rfl rfl rfl)
  exact SafeStep.refl _

theorem State.takePart_safe (s : State) (src opcode : Nat) (p : Part) :
    (∀ v, s.takePart src opcode p = .held v → SafeStep s v) ∧ ∀ v img, s.takePart src opcode p = .whole v img → SafeStep s v := by
  unfold State.takePart
  dsimp only
  refine ⟨fun v h => ?_, fun v img h => ?_⟩
  · split at h
    · exact absurd h (by simp)
    · split at h
      · split at h <;> split at h <;> exact absurd h (by simp)
      · injection h with h1; rw [← h1]; exact SafeStep.record rfl rfl rfl rfl rfl rfl rfl rfl
  · split at h
    · exact absurd h (by simp)
    · split at h
      · split at h <;> split at h <;> (obtain ⟨h1, -⟩ := PartOutcome.whole.inj h; rw [← h1]; exact SafeStep.record rfl rfl rfl rfl rfl rfl rfl rfl)
      · exact absurd h (by simp)

theorem State.mbParts_safe (s : State) (h : MbHdr) (c : Cmd) (p : Part) (check : Bytes → MbBody)
    (hb : ∀ v img r, check img v = .ok r → SafeStep v r.s) : SafeStep s (s.mbParts h c p check) := by
  unfold State.mbParts
  split
  · exact SafeStep.refl _
  · split
    · exact State.answer_safe ..
    · split
      · exact State.answer_safe ..
      · split
        · exact State.answer_safe ..
        · exact SafeStep.trans ((State.takePart_safe ..).1 _ (by assumption)) (State.answer_safe ..)
        · refine SafeStep.trans ((State.takePart_safe ..).2 _ _ (by assumption)) ?_
          split
          · split
            · exact SafeStep.trans (hb _ _ _ (by assumption)) (State.answer_safe ..)
            · exact State.answer_safe ..
          · exact State.answer_safe ..

theorem State.mbPartsBg_safe (s : State) (h : MbHdr) (c : Cmd) (p : Part) (cmd : Bytes → Instr) (check : Bytes → State → Except Rc State)
    (hb : ∀ v img r, check img v = .ok r → SafeStep v r) : SafeStep s (s.mbPartsBg h c p cmd check) := by
  unfold State.mbPartsBg
  split
  · exact SafeStep.refl _
  · split
    · exact State.answer_safe ..
    · split
      · exact State.answer_safe ..
      · split
        · exact State.answer_safe ..
        · exact SafeStep.trans ((State.takePart_safe ..).1 _ (by assumption)) (State.answer_safe ..)
        · refine SafeStep.trans ((State.takePart_safe ..).2 _ _ (by assumption)) ?_
          split
          · split
            · refine SafeStep.trans (hb _ _ _ (by assumption)) (SafeStep.trans ?_ (State.answer_safe ..))
              exact SafeStep.record rfl rfl rfl rfl rfl rfl rfl rfl
            · exact State.answer_safe ..
          · exact State.answer_safe ..

theorem State.mbSnap_safe (s : State) (h : MbHdr) (c : Cmd) (o : OutReq) (recLen : Nat)
    (take : State → Except Rc (Bytes × List (List Fld))) : SafeStep s (s.mbSnap h c o recLen take) := by
  refine State.mbRun_safe _ _ _ _ fun r hr => ?_
  dsimp only at hr
  generalize (if o.first = 0 then take s else _ : Except Rc (Bytes × List (List Fld))) = x at hr
  rcases x with e | ⟨bytes, recs⟩
  · exact absurd hr (by simp)
  · dsimp only at hr
    split at hr <;> (injection hr with h1; rw [← h1]; exact SafeStep.record rfl rfl rfl rfl rfl rfl rfl rfl)

theorem State.modWeir_safe (s : State) (f : WeirSt → WeirSt) : SafeStep s (State.modWeir s f) := by
  unfold State.modWeir
  with_reducible refine SafeStep.trans ?_ (SafeStep.fields rfl rfl rfl rfl)
  exact SafeStep.refl _

theorem State.setGuar_safe (s : State) (ld r : Nat) (g : Guar) : SafeStep s (State.setGuar s ld r g) := by
  unfold State.setGuar
  refine SafeStep.trans ?_ (State.modWeir_safe ..)
  exact SafeStep.refl _

theorem State.recompute_safe (s : State) (r : Nat) (was : Bool) : SafeStep s (State.recompute s r was) := by
  unfold State.recompute
  extract_lets +onlyGivenNames q1
  extract_lets +onlyGivenNames q2
  extract_lets +onlyGivenNames q3
  extract_lets +onlyGivenNames q4
  refine SafeStep.ite ?_ ?_
  extract_lets +onlyGivenNames q5
  extract_lets +onlyGivenNames q6
  refine SafeStep.trans ?_ (State.post_safe ..)
  refine SafeStep.foldl ?_ (fun s x => ?_)
  refine SafeStep.trans ?_ (State.modWeir_safe ..)
  refine SafeStep.foldl ?_ (fun s x => ?_)
  exact SafeStep.refl _
  extract_lets +onlyGivenNames q7
  extract_lets +onlyGivenNames q8
  refine SafeStep.trans ?_ (State.setGuar_safe ..)
  exact SafeStep.refl _
  refine SafeStep.trans ?_ (State.post_safe ..)
  exact SafeStep.refl _
  refine SafeStep.trans ?_ (State.modWeir_safe ..)
  refine SafeStep.foldl ?_ (fun s x => ?_)
  exact SafeStep.refl _
  extract_lets +onlyGivenNames q9
  extract_lets +onlyGivenNames q10
  refine SafeStep.trans ?_ (State.setGuar_safe ..)
  exact SafeStep.refl _

theorem State.noteCap_safe (s : State) (r : Nat) : SafeStep s (State.noteCap s r) := by
  unfold State.noteCap
  extract_lets +onlyGivenNames q1
  extract_lets +onlyGivenNames q2
  refine SafeStep.trans ?_ (State.modWeir_safe ..)
  exact SafeStep.refl _

theorem State.caps_safe (s : State) : SafeStep s (State.caps s) := by
  unfold State.caps
  refine SafeStep.foldl ?_ (fun s x => ?_)
  exact SafeStep.refl _
  refine SafeStep.trans ?_ (State.noteCap_safe ..)
  exact SafeStep.refl _

theorem State.noteServed_safe (s : State) (cls r amount : Nat) : SafeStep s (State.noteServed s cls r amount) := by
  unfold State.noteServed
  refine SafeStep.trans ?_ (State.modWeir_safe ..)
  exact SafeStep.refl _

theorem State.missed_safe (s : State) (ld r cls lat : Nat) : SafeStep s (State.missed s ld r cls lat) := by
  unfold State.missed
  extract_lets +onlyGivenNames q1
  extract_lets +onlyGivenNames q2
  extract_lets +onlyGivenNames q3
  extract_lets +onlyGivenNames q4
  refine SafeStep.ite ?_ ?_
  extract_lets +onlyGivenNames q5
  refine SafeStep.trans ?_ (State.post_safe ..)
  refine SafeStep.trans ?_ (State.post_safe ..)
  refine SafeStep.trans ?_ (State.modWeir_safe ..)
  exact SafeStep.refl _
  refine SafeStep.trans ?_ (State.modWeir_safe ..)
  exact SafeStep.refl _

theorem State.tookTurn_safe (s : State) (cls r ld : Nat) : SafeStep s (State.tookTurn s cls r ld) := by
  unfold State.tookTurn
  refine SafeStep.trans ?_ (State.modWeir_safe ..)
  exact SafeStep.refl _

theorem State.serveAs_safe (s : State) (was : Bool) (ld r cls amount lat : Nat) (wheel : Option Nat) : SafeStep s (State.serveAs s was ld r cls amount lat wheel) := by
  unfold State.serveAs
  extract_lets +onlyGivenNames q1
  extract_lets +onlyGivenNames q2
  extract_lets +onlyGivenNames q3
  extract_lets +onlyGivenNames q4
  extract_lets +onlyGivenNames q5
  extract_lets +onlyGivenNames q6
  extract_lets +onlyGivenNames q7
  extract_lets +onlyGivenNames q8
  extract_lets +onlyGivenNames q9
  extract_lets +onlyGivenNames q10
  refine SafeStep.ite ?_ ?_
  refine SafeStep.trans ?_ (State.missed_safe ..)
  refine SafeStep.ite ?_ ?_
  refine SafeStep.trans ?_ (State.modWeir_safe ..)
  refine SafeStep.trans ?_ (State.noteServed_safe ..)
  refine SafeStep.ite ?_ ?_
  refine SafeStep.trans ?_ (State.setGuar_safe ..)
  exact SafeStep.refl _
  exact SafeStep.refl _
  refine SafeStep.trans ?_ (State.noteServed_safe ..)
  refine SafeStep.ite ?_ ?_
  refine SafeStep.trans ?_ (State.setGuar_safe ..)
  exact SafeStep.refl _
  exact SafeStep.refl _
  refine SafeStep.ite ?_ ?_
  refine SafeStep.trans ?_ (State.modWeir_safe ..)
  refine SafeStep.trans ?_ (State.noteServed_safe ..)
  refine SafeStep.ite ?_ ?_
  refine SafeStep.trans ?_ (State.setGuar_safe ..)
  exact SafeStep.refl _
  exact SafeStep.refl _
  refine SafeStep.trans ?_ (State.noteServed_safe ..)
  refine SafeStep.ite ?_ ?_
  refine SafeStep.trans ?_ (State.setGuar_safe ..)
  exact SafeStep.refl _
  exact SafeStep.refl _

theorem State.serve_safe (s : State) (ld r cls amount lat : Nat) (wheel : Option Nat) : SafeStep s (State.serve s ld r cls amount lat wheel) := by
  unfold State.serve
  refine SafeStep.trans ?_ (State.serveAs_safe ..)
  exact SafeStep.refl _

theorem State.latchWindow_safe (s : State) : SafeStep s (State.latchWindow s) := by
  unfold State.latchWindow
  refine SafeStep.trans ?_ (State.modWeir_safe ..)
  exact SafeStep.refl _

theorem State.moduleEvent_safe (s : State) (m kind : Nat) : SafeStep s (State.moduleEvent s m kind) := by
  unfold State.moduleEvent
  refine SafeStep.trans ?_ (State.post_safe ..)
  exact SafeStep.refl _

theorem State.noteVitals_safe (s s0 : State) : SafeStep s (State.noteVitals s s0) := by
  unfold State.noteVitals
  refine SafeStep.ite ?_ ?_
  exact SafeStep.refl _
  extract_lets +onlyGivenNames q1
  refine SafeStep.foldl ?_ (fun s x => ?_)
  exact SafeStep.refl _
  refine SafeStep.trans ?_ (State.moduleEvent_safe ..)
  exact SafeStep.refl _

theorem State.modExt_safe (s : State) (eid : Nat) (f : Extent → Extent) : SafeStep s (State.modExt s eid f) := by
  unfold State.modExt
  with_reducible refine SafeStep.trans ?_ (SafeStep.fields rfl rfl rfl rfl)
  exact SafeStep.refl _

theorem State.setSack_safe (s : State) (k : Nat) (v : Sack) : SafeStep s (s.setSack k v) :=
  SafeStep.recordM rfl rfl rfl (Nat.le_refl _) rfl (fun h => Tbl.wf_set h _ _) id id

theorem State.modSack_safe (s : State) (k : Nat) (f : Sack → Sack) : SafeStep s (State.modSack s k f) := by
  unfold State.modSack
  refine SafeStep.trans ?_ (State.setSack_safe ..)
  exact SafeStep.refl _

theorem State.modMrc_safe (s : State) (ld : Nat) (f : MrcLd → MrcLd) : SafeStep s (State.modMrc s ld f) := by
  unfold State.modMrc
  with_reducible refine SafeStep.trans ?_ (SafeStep.fields rfl rfl rfl rfl)
  exact SafeStep.refl _

theorem State.isolation_safe (s : State) (ld dpa sack : Nat) : SafeStep s (State.isolation s ld dpa sack) := by
  unfold State.isolation
  extract_lets +onlyGivenNames q1
  refine SafeStep.trans ?_ (State.post_safe ..)
  refine SafeStep.trans ?_ (State.post_safe ..)
  exact SafeStep.refl _

theorem State.drop_safe (s : State) (ld dpa : Nat) (write event : Bool) : SafeStep s (State.drop s ld dpa write event) := by
  unfold State.drop
  extract_lets +onlyGivenNames q1
  extract_lets +onlyGivenNames q2
  extract_lets +onlyGivenNames q3
  extract_lets +onlyGivenNames q4
  extract_lets +onlyGivenNames q5
  extract_lets +onlyGivenNames q6
  refine SafeStep.ite ?_ ?_
  refine SafeStep.trans ?_ (State.post_safe ..)
  with_reducible refine SafeStep.trans ?_ (SafeStep.fields rfl rfl rfl rfl)
  exact SafeStep.refl _
  with_reducible refine SafeStep.trans ?_ (SafeStep.fields rfl rfl rfl rfl)
  exact SafeStep.refl _

theorem State.setCur_safe (s : State) (blk : Nat) (v : StoredBlk) : SafeStep s (s.setCur blk v) := by
  unfold State.setCur
  split
  · exact SafeStep.recordM rfl rfl rfl (Nat.le_refl _) rfl id (fun h => Tbl.wf_set h _ _) id
  · exact SafeStep.recordM rfl rfl rfl (Nat.le_refl _) rfl id id (fun h => Tbl.wf_set h _ _)

theorem State.poisonBlock_safe (s : State) (blk : Nat) : SafeStep s (s.poisonBlock blk) :=
  SafeStep.recordM rfl rfl rfl (Nat.le_refl _) rfl id (fun h => Tbl.wf_set h _ _) (fun h => Tbl.wf_set h _ _)

theorem State.compactPool_safe (s : State) (n : Nat) (l : List (Nat × Nat × Nat)) : SafeStep s (s.compactPool n l) := by
  induction l generalizing s n with
  | nil => exact SafeStep.refl _
  | cons c l ih =>
    obtain ⟨b, off, g⟩ := c
    simp only [State.compactPool]
    refine SafeStep.trans ?_ (ih _ _)
    exact SafeStep.ite (SafeStep.refl _) (State.setCur_safe ..)

theorem State.refill_safe (s : State) : SafeStep s (State.refill s) := by
  unfold State.refill
  with_reducible refine SafeStep.trans ?_ (SafeStep.fields rfl rfl rfl rfl)
  exact SafeStep.refl _

theorem State.chargeSlots_safe (s : State) (n : Nat) : SafeStep s (State.chargeSlots s n) := by
  unfold State.chargeSlots
  extract_lets +onlyGivenNames q1
  with_reducible refine SafeStep.trans ?_ (SafeStep.fields rfl rfl rfl rfl)
  refine SafeStep.trans ?_ (State.refill_safe ..)
  exact SafeStep.refl _

theorem State.chargeStore_safe (s : State) (n : Nat) : SafeStep s (State.chargeStore s n) := by
  unfold State.chargeStore
  extract_lets +onlyGivenNames q1
  refine SafeStep.trans ?_ (State.noteServed_safe ..)
  refine SafeStep.trans ?_ (State.chargeSlots_safe ..)
  exact SafeStep.refl _

theorem State.programImage_safe (s : State) (slot : Nat) : SafeStep s (State.programImage s slot) := by
  unfold State.programImage
  extract_lets +onlyGivenNames q1
  with_reducible refine SafeStep.trans ?_ (SafeStep.fields rfl rfl rfl rfl)
  refine SafeStep.trans ?_ (State.chargeStore_safe ..)
  exact SafeStep.refl _

theorem State.storeImage_safe (s : State) (blk : Nat) (v : StoredBlk) : SafeStep s (s.storeImage blk v) := by
  unfold State.storeImage
  dsimp only
  split
  · refine SafeStep.trans ?_ (State.setSack_safe ..)
    exact SafeStep.recordM rfl rfl rfl (Nat.le_refl _) rfl id (fun h => Tbl.wf_set h _ _) id
  · exact SafeStep.recordM rfl rfl rfl (Nat.le_refl _) rfl id id (fun h => Tbl.wf_set h _ _)

theorem State.convertPool_safe (s : State) (ld sack skip slot pool need fuel : Nat) : SafeStep s (s.convertPool ld sack skip slot pool need fuel) := by
  induction fuel generalizing s with
  | zero => exact SafeStep.refl _
  | succ n ih =>
    simp only [State.convertPool]
    split
    · exact SafeStep.refl _
    · split
      · exact SafeStep.refl _
      · refine SafeStep.trans ?_ (ih _)
        refine SafeStep.trans ?_ (State.modMrc_safe ..)
        split
        · exact State.storeImage_safe ..
        · exact SafeStep.trans (State.storeImage_safe ..) (State.programImage_safe ..)

theorem State.poolPack_safe (s : State) (ld sack skip pool need : Nat) : ∀ v : Nat × State, State.poolPack s ld sack skip pool need = some v → SafeStep s v.2 := by
  unfold State.poolPack
  extract_lets +onlyGivenNames q1
  refine SafeStep.optIte ?_ ?_
  refine SafeStep.optSome ?_
  dsimp only
  refine SafeStep.trans ?_ (State.modMrc_safe ..)
  refine SafeStep.trans ?_ (State.compactPool_safe ..)
  exact SafeStep.refl _
  exact SafeStep.optNone

theorem State.poolTake_safe (s : State) (ld sack skip pool need : Nat) : ∀ v : Nat × State, State.poolTake s ld sack skip pool need = some v → SafeStep s v.2 := by
  unfold State.poolTake
  extract_lets +onlyGivenNames q1
  split
  refine SafeStep.optSome ?_
  exact SafeStep.refl _
  refine fun v hv => SafeStep.trans ?_ (State.poolPack_safe _ _ _ _ _ _ _ hv)
  exact SafeStep.refl _

theorem State.overflow_safe (s : State) (e : Extent) (blk : Nat) (enc : Bytes) (raw : Bool) (order : Nat) : SafeStep s (s.overflow e blk enc raw order).2 := by
  unfold State.overflow
  dsimp only
  generalize hu : s.modMrc e.owner (fun m => { m with overflow := bump 32 m.overflow 1 }) = u
  have hs : SafeStep s u := hu ▸ State.modMrc_safe ..
  refine SafeStep.trans hs ?_
  clear hu hs
  split
  · exact State.poolTake_safe _ _ _ _ _ _ _ (by assumption)
  · generalize hv : u.convertPool e.owner _ _ _ _ _ _ = v
    have hs : SafeStep u v := hv ▸ State.convertPool_safe ..
    refine SafeStep.trans hs ?_
    clear hv hs
    split
    · exact State.poolPack_safe _ _ _ _ _ _ _ (by assumption)
    · split
      · rename_i h; exact State.poolTake_safe _ _ _ _ _ _ _ h
      · exact SafeStep.refl _

theorem State.precisionEvent_safe (s : State) (ld dpa : Nat) : SafeStep s (State.precisionEvent s ld dpa) := by
  unfold State.precisionEvent
  extract_lets +onlyGivenNames q1
  extract_lets +onlyGivenNames q2
  extract_lets +onlyGivenNames q3
  refine SafeStep.ite ?_ ?_
  refine SafeStep.trans ?_ (State.post_safe ..)
  refine SafeStep.trans ?_ (State.modMrc_safe ..)
  exact SafeStep.refl _
  refine SafeStep.trans ?_ (State.modMrc_safe ..)
  exact SafeStep.refl _

theorem State.encode_safe (s : State) (e : Extent) (blk : Nat) (data : Bytes) (order : Nat) : ∀ v : StoredBlk × State, State.encode s e blk data order = some v → SafeStep s v.2 := by
  unfold State.encode
  extract_lets +onlyGivenNames q1
  extract_lets +onlyGivenNames q2
  refine SafeStep.optIte ?_ ?_
  refine SafeStep.optSome ?_
  exact SafeStep.refl _
  refine SafeStep.optIte ?_ ?_
  extract_lets +onlyGivenNames q3
  refine SafeStep.optIte ?_ ?_
  extract_lets +onlyGivenNames q4
  extract_lets +onlyGivenNames q5
  extract_lets +onlyGivenNames q6
  refine SafeStep.optIte ?_ ?_
  refine SafeStep.optSome ?_
  exact SafeStep.refl _
  split
  refine SafeStep.optSome ?_
  dsimp only
  refine SafeStep.trans ?_ (State.modMrc_safe ..)
  exact SafeStep.refl _
  refine SafeStep.optSome ?_
  dsimp only
  refine SafeStep.trans ?_ (State.precisionEvent_safe ..)
  exact SafeStep.refl _
  split
  extract_lets +onlyGivenNames q7
  refine SafeStep.optSome ?_
  dsimp only
  with_reducible refine SafeStep.trans ?_ (SafeStep.fields rfl rfl rfl rfl)
  exact SafeStep.refl _
  exact SafeStep.optNone
  split
  refine SafeStep.optIte ?_ ?_
  refine SafeStep.optSome ?_
  exact SafeStep.refl _
  refine SafeStep.optSome ?_
  refine SafeStep.trans ?_ (State.overflow_safe ..)
  exact SafeStep.refl _

theorem State.fixSpill_safe (s : State) (sack : Nat) : SafeStep s (State.fixSpill s sack) := by
  unfold State.fixSpill
  refine SafeStep.trans ?_ (State.modSack_safe ..)
  exact SafeStep.refl _

theorem State.cacheUse_safe (s : State) (blk : Nat) : SafeStep s (State.cacheUse s blk) := by
  unfold State.cacheUse
  with_reducible refine SafeStep.trans ?_ (SafeStep.fields rfl rfl rfl rfl)
  exact SafeStep.refl _

theorem State.cacheSave_safe (s : State) (key : Nat) : SafeStep s (State.cacheSave s key) := by
  unfold State.cacheSave
  split
  exact SafeStep.refl _
  refine SafeStep.ite ?_ ?_
  refine SafeStep.trans ?_ (State.programImage_safe ..)
  exact SafeStep.refl _
  exact SafeStep.refl _

theorem State.cacheTrim_safe (s : State) (y0 : Nat) : SafeStep s (State.cacheTrim s y0) := by
  induction y0 generalizing s with
  | zero =>
    unfold State.cacheTrim
    exact SafeStep.refl _
  | succ n ih =>
    unfold State.cacheTrim
    refine SafeStep.ite ?_ ?_
    exact SafeStep.refl _
    split
    exact SafeStep.refl _
    refine SafeStep.ite ?_ ?_
    refine SafeStep.trans ?_ (ih ..)
    with_reducible refine SafeStep.trans ?_ (SafeStep.fields rfl rfl rfl rfl)
    exact SafeStep.refl _
    extract_lets +onlyGivenNames q1
    refine SafeStep.trans ?_ (ih ..)
    with_reducible refine SafeStep.trans ?_ (SafeStep.fields rfl rfl rfl rfl)
    refine SafeStep.trans ?_ (State.cacheSave_safe ..)
    exact SafeStep.refl _

theorem State.modInteg_safe (s : State) (f : IntegSt → IntegSt) : SafeStep s (State.modInteg s f) := by
  unfold State.modInteg
  with_reducible refine SafeStep.trans ?_ (SafeStep.fields rfl rfl rfl rfl)
  exact SafeStep.refl _

theorem State.modIntegLd_safe (s : State) (ld : Nat) (f : IntegLd → IntegLd) : SafeStep s (State.modIntegLd s ld f) := by
  unfold State.modIntegLd
  refine SafeStep.trans ?_ (State.modInteg_safe ..)
  exact SafeStep.refl _

theorem State.ceReport_safe (s : State) (e : CeEnt) : SafeStep s (State.ceReport s e) := by
  unfold State.ceReport
  refine SafeStep.trans ?_ (State.post_safe ..)
  exact SafeStep.refl _

theorem State.correct_safe (s : State) (unit loc bit : Nat) (fix : Bool) : SafeStep s (State.correct s unit loc bit fix) := by
  unfold State.correct
  extract_lets +onlyGivenNames q1
  extract_lets +onlyGivenNames q2
  extract_lets +onlyGivenNames q3
  split
  extract_lets +onlyGivenNames q4
  extract_lets +onlyGivenNames q5
  extract_lets +onlyGivenNames q6
  extract_lets +onlyGivenNames q7
  refine SafeStep.ite ?_ ?_
  refine SafeStep.trans ?_ (State.ceReport_safe ..)
  refine SafeStep.trans ?_ (State.modInteg_safe ..)
  refine SafeStep.trans ?_ (State.moduleEvent_safe ..)
  refine SafeStep.trans ?_ (State.modInteg_safe ..)
  exact SafeStep.refl _
  refine SafeStep.trans ?_ (State.modInteg_safe ..)
  refine SafeStep.trans ?_ (State.moduleEvent_safe ..)
  refine SafeStep.trans ?_ (State.modInteg_safe ..)
  exact SafeStep.refl _
  extract_lets +onlyGivenNames q8
  refine SafeStep.ite ?_ ?_
  refine SafeStep.trans ?_ (State.modInteg_safe ..)
  refine SafeStep.trans ?_ (State.moduleEvent_safe ..)
  refine SafeStep.trans ?_ (State.modInteg_safe ..)
  exact SafeStep.refl _
  split
  refine SafeStep.trans ?_ (State.modInteg_safe ..)
  refine SafeStep.trans ?_ (State.moduleEvent_safe ..)
  refine SafeStep.trans ?_ (State.modInteg_safe ..)
  exact SafeStep.refl _
  refine SafeStep.trans ?_ (State.modInteg_safe ..)
  refine SafeStep.trans ?_ (State.moduleEvent_safe ..)
  refine SafeStep.trans ?_ (State.modInteg_safe ..)
  exact SafeStep.refl _

theorem State.rewrite_safe (s : State) (unit loc : Nat) : SafeStep s (State.rewrite s unit loc) := by
  unfold State.rewrite
  refine SafeStep.trans ?_ (State.modInteg_safe ..)
  exact SafeStep.refl _

theorem State.lossPosts_safe (s : State) (r : UeRec) : SafeStep s (State.lossPosts s r).2 := by
  unfold State.lossPosts
  extract_lets +onlyGivenNames q1
  refine SafeStep.iteP ?_ ?_
  exact SafeStep.refl _
  extract_lets +onlyGivenNames q2
  extract_lets +onlyGivenNames q3
  extract_lets +onlyGivenNames q4
  extract_lets +onlyGivenNames q5
  extract_lets +onlyGivenNames q6
  dsimp only
  refine SafeStep.trans ?_ (State.modIntegLd_safe ..)
  exact SafeStep.refl _

theorem State.ueLog_safe (s : State) (unit loc access outcome ld dpa : Nat) : SafeStep s (State.ueLog s unit loc access outcome ld dpa) := by
  unfold State.ueLog
  extract_lets +onlyGivenNames q1
  extract_lets +onlyGivenNames q2
  split
  refine SafeStep.trans ?_ (State.ledger_safe ..)
  refine SafeStep.snd (by assumption) ?_
  refine SafeStep.iteP ?_ ?_
  refine SafeStep.trans ?_ (State.lossPosts_safe ..)
  refine SafeStep.trans ?_ (State.modInteg_safe ..)
  exact SafeStep.refl _
  dsimp only
  refine SafeStep.trans ?_ (State.modInteg_safe ..)
  exact SafeStep.refl _

theorem State.repaired_safe (s : State) (unit loc access ld dpa : Nat) : SafeStep s (State.repaired s unit loc access ld dpa) := by
  unfold State.repaired
  refine SafeStep.trans ?_ (State.ueLog_safe ..)
  refine SafeStep.trans ?_ (State.modInteg_safe ..)
  exact SafeStep.refl _

theorem State.lose_safe (s : State) (e : Extent) (blk unit loc access : Nat) : SafeStep s (State.lose s e blk unit loc access) := by
  unfold State.lose
  extract_lets +onlyGivenNames q1
  extract_lets +onlyGivenNames q2
  extract_lets +onlyGivenNames q3
  refine SafeStep.trans ?_ (State.ueLog_safe ..)
  refine SafeStep.trans ?_ (State.modIntegLd_safe ..)
  refine SafeStep.trans ?_ (State.modInteg_safe ..)
  refine SafeStep.trans ?_ (State.poisonBlock_safe ..)
  exact SafeStep.refl _

theorem State.setErr_safe (s : State) (blk word mask : Nat) : SafeStep s (State.setErr s blk word mask) := by
  unfold State.setErr
  extract_lets +onlyGivenNames q1
  with_reducible refine SafeStep.trans ?_ (SafeStep.fields rfl rfl rfl rfl)
  exact SafeStep.refl _

theorem State.clearErrs_safe (s : State) (blk : Nat) : SafeStep s (State.clearErrs s blk) := by
  unfold State.clearErrs
  with_reducible refine SafeStep.trans ?_ (SafeStep.fields rfl rfl rfl rfl)
  exact SafeStep.refl _

theorem State.modStack_safe (s : State) (k : Nat) (f : Stack → Stack) : SafeStep s (State.modStack s k f) := by
  unfold State.modStack
  with_reducible refine SafeStep.trans ?_ (SafeStep.fields rfl rfl rfl rfl)
  exact SafeStep.refl _

theorem State.evictNoop_safe (s : State) (ld : Nat) : SafeStep s (State.evictNoop s ld) := by
  unfold State.evictNoop
  refine SafeStep.trans ?_ (State.modMrc_safe ..)
  exact SafeStep.refl _

theorem State.confirm_safe (s : State) (sack : Nat) : SafeStep s (State.confirm s sack) := by
  unfold State.confirm
  extract_lets +onlyGivenNames q1
  refine SafeStep.ite ?_ ?_
  extract_lets +onlyGivenNames q2
  extract_lets +onlyGivenNames q3
  extract_lets +onlyGivenNames q4
  refine SafeStep.trans ?_ (State.modMrc_safe ..)
  refine SafeStep.trans ?_ (SafeStep.modStore (fun _ => rfl) (fun _ => rfl) (fun _ => rfl))
  refine SafeStep.trans ?_ (State.setSack_safe ..)
  exact SafeStep.refl _
  exact SafeStep.refl _

theorem State.touch_safe (s : State) (sack ld : Nat) : SafeStep s (State.touch s sack ld) := by
  unfold State.touch
  extract_lets +onlyGivenNames q1
  extract_lets +onlyGivenNames q2
  split
  refine SafeStep.trans ?_ (State.evictNoop_safe ..)
  refine SafeStep.trans ?_ (State.setSack_safe ..)
  refine SafeStep.trans ?_ (State.confirm_safe ..)
  exact SafeStep.refl _
  refine SafeStep.ite ?_ ?_
  refine SafeStep.trans ?_ (State.evictNoop_safe ..)
  refine SafeStep.trans ?_ (State.setSack_safe ..)
  refine SafeStep.trans ?_ (State.confirm_safe ..)
  exact SafeStep.refl _
  refine SafeStep.trans ?_ (State.confirm_safe ..)
  exact SafeStep.refl _
  refine SafeStep.trans ?_ (State.confirm_safe ..)
  exact SafeStep.refl _

theorem State.addHold_safe (s : State) (sack ld : Nat) (who : Holder) : SafeStep s (State.addHold s sack ld who) := by
  unfold State.addHold
  refine SafeStep.ite ?_ ?_
  exact SafeStep.refl _
  refine SafeStep.trans ?_ (SafeStep.modStore (fun _ => rfl) (fun _ => rfl) (fun _ => rfl))
  refine SafeStep.trans ?_ (State.touch_safe ..)
  exact SafeStep.refl _

theorem State.dropHolds_safe (s : State) (p : Hold → Bool) : SafeStep s (State.dropHolds s p) := by
  unfold State.dropHolds
  refine SafeStep.trans ?_ (SafeStep.modStore (fun _ => rfl) (fun _ => rfl) (fun _ => rfl))
  exact SafeStep.refl _

theorem State.putXfer_safe (s : State) (x : Xfer) : SafeStep s (State.putXfer s x) := by
  unfold State.putXfer
  refine SafeStep.trans ?_ (SafeStep.modStore (fun _ => rfl) (fun _ => rfl) (fun _ => rfl))
  exact SafeStep.refl _

theorem State.addXfer_safe (s : State) (x : Xfer) : SafeStep s (State.addXfer s x) := by
  unfold State.addXfer
  split
  refine SafeStep.trans ?_ (State.putXfer_safe ..)
  exact SafeStep.refl _
  refine SafeStep.trans ?_ (State.putXfer_safe ..)
  exact SafeStep.refl _

theorem State.dropXfer_safe (s : State) (sack : Nat) : SafeStep s (State.dropXfer s sack) := by
  unfold State.dropXfer
  refine SafeStep.trans ?_ (SafeStep.modStore (fun _ => rfl) (fun _ => rfl) (fun _ => rfl))
  exact SafeStep.refl _

theorem State.cancelWants_safe (s : State) (p : Xfer → Nat × Option Nat → Bool) : SafeStep s (State.cancelWants s p) := by
  unfold State.cancelWants
  refine SafeStep.trans ?_ (SafeStep.modStore (fun _ => rfl) (fun _ => rfl) (fun _ => rfl))
  exact SafeStep.refl _

theorem State.mapPage_safe (s : State) (slot : Nat) : SafeStep s (State.mapPage s slot) := by
  unfold State.mapPage
  extract_lets +onlyGivenNames q1
  with_reducible refine SafeStep.trans ?_ (SafeStep.fields rfl rfl rfl rfl)
  exact SafeStep.refl _

theorem State.startPromo_safe (s : State) (x : Xfer) (specW : Option Nat) (at_ : Nat × Nat × Bool) : SafeStep s (State.startPromo s x specW at_) := by
  unfold State.startPromo
  extract_lets +onlyGivenNames q1
  extract_lets +onlyGivenNames q2
  extract_lets +onlyGivenNames q3
  extract_lets +onlyGivenNames q4
  refine SafeStep.trans ?_ (State.putXfer_safe ..)
  refine SafeStep.trans ?_ (State.mapPage_safe ..)
  refine SafeStep.trans ?_ (SafeStep.modStore (fun _ => rfl) (fun _ => rfl) (fun _ => rfl))
  refine SafeStep.trans ?_ (State.setSack_safe ..)
  refine SafeStep.ite ?_ ?_
  refine SafeStep.trans ?_ (State.modMrc_safe ..)
  exact SafeStep.refl _
  exact SafeStep.refl _

theorem State.refused_safe (s : State) (x : Xfer) (demand : Bool) : SafeStep s (State.refused s x demand) := by
  unfold State.refused
  refine SafeStep.ite ?_ ?_
  refine SafeStep.trans ?_ (State.putXfer_safe ..)
  exact SafeStep.refl _
  refine SafeStep.ite ?_ ?_
  refine SafeStep.trans ?_ (State.dropXfer_safe ..)
  exact SafeStep.refl _
  refine SafeStep.trans ?_ (State.putXfer_safe ..)
  exact SafeStep.refl _

theorem State.promoteFor_safe (s : State) (sack ld : Nat) (e : Extent) (die : Option Nat) (demand : Bool) (specW : Option Nat) (cls : Nat) (wants : List (Nat × Option Nat)) : SafeStep s (State.promoteFor s sack ld e die demand specW cls wants).2 := by
  unfold State.promoteFor
  extract_lets +onlyGivenNames q1
  split
  refine SafeStep.iteP ?_ ?_
  dsimp only
  refine SafeStep.trans ?_ (State.putXfer_safe ..)
  exact SafeStep.refl _
  dsimp only
  refine SafeStep.trans ?_ (State.refused_safe ..)
  exact SafeStep.refl _
  split
  dsimp only
  refine SafeStep.trans ?_ (State.startPromo_safe ..)
  exact SafeStep.refl _
  refine SafeStep.iteP ?_ ?_
  dsimp only
  refine SafeStep.trans ?_ (State.startPromo_safe ..)
  exact SafeStep.refl _
  dsimp only
  refine SafeStep.trans ?_ (State.putXfer_safe ..)
  exact SafeStep.refl _

theorem State.promote_safe (s : State) (sack ld : Nat) (e : Extent) (die : Option Nat) (demand : Bool) (cls : Nat) : SafeStep s (State.promote s sack ld e die demand cls).2 := by
  unfold State.promote
  refine SafeStep.trans ?_ (State.promoteFor_safe ..)
  exact SafeStep.refl _

theorem State.issueOne_safe (s : State) (x : Xfer) : SafeStep s (State.issueOne s x) := by
  unfold State.issueOne
  split
  exact SafeStep.refl _
  refine SafeStep.ite ?_ ?_
  exact SafeStep.refl _
  refine SafeStep.ite ?_ ?_
  split
  exact SafeStep.refl _
  split
  refine SafeStep.trans ?_ (State.tookTurn_safe ..)
  refine SafeStep.trans ?_ (State.startPromo_safe ..)
  exact SafeStep.refl _
  exact SafeStep.refl _
  split
  refine SafeStep.trans ?_ (State.tookTurn_safe ..)
  refine SafeStep.trans ?_ (State.putXfer_safe ..)
  exact SafeStep.refl _
  exact SafeStep.refl _

theorem State.issueAll_safe (s : State) (xs : List Xfer) (n : Nat) : SafeStep s (s.issueAll xs n) := by
  induction n generalizing s xs with
  | zero => exact SafeStep.refl _
  | succ n ih =>
    unfold State.issueAll
    split
    · exact SafeStep.refl _
    · exact SafeStep.trans (State.issueOne_safe ..) (ih ..)

theorem State.pumpXfers_safe (s : State) : SafeStep s (State.pumpXfers s) := by
  unfold State.pumpXfers
  extract_lets +onlyGivenNames q1
  refine SafeStep.trans ?_ (State.issueAll_safe ..)
  exact SafeStep.refl _

theorem State.endXfer_safe (s : State) (sack : Nat) : SafeStep s (State.endXfer s sack) := by
  unfold State.endXfer
  refine SafeStep.trans ?_ (State.pumpXfers_safe ..)
  refine SafeStep.trans ?_ (State.dropXfer_safe ..)
  exact SafeStep.refl _

theorem State.countNoFrame_safe (s : State) : SafeStep s (State.countNoFrame s) := by
  unfold State.countNoFrame
  refine SafeStep.trans ?_ (SafeStep.modStore (fun _ => rfl) (fun _ => rfl) (fun _ => rfl))
  exact SafeStep.refl _

theorem State.toDeep_safe (s : State) (sack : Nat) (reft : Bool) : SafeStep s (State.toDeep s sack reft) := by
  unfold State.toDeep
  extract_lets +onlyGivenNames q1
  refine SafeStep.trans ?_ (SafeStep.modStore (fun _ => rfl) (fun _ => rfl) (fun _ => rfl))
  refine SafeStep.trans ?_ (State.modSack_safe ..)
  exact SafeStep.refl _

theorem State.wakeStack_safe (s : State) (stack : Nat) : SafeStep s (State.wakeStack s stack) := by
  unfold State.wakeStack
  refine SafeStep.trans ?_ (State.modStack_safe ..)
  exact SafeStep.refl _

theorem State.activate_safe (s : State) (stack bank row : Nat) : SafeStep s (State.activate s stack bank row) := by
  unfold State.activate
  extract_lets +onlyGivenNames q1
  extract_lets +onlyGivenNames q2
  extract_lets +onlyGivenNames q3
  refine SafeStep.ite ?_ ?_
  refine SafeStep.trans ?_ (SafeStep.fieldsF rfl rfl rfl rfl)
  exact SafeStep.refl _
  refine SafeStep.ite ?_ ?_
  refine SafeStep.trans ?_ (State.modStack_safe ..)
  refine SafeStep.trans ?_ (SafeStep.fieldsF rfl rfl rfl rfl)
  exact SafeStep.refl _
  refine SafeStep.trans ?_ (State.modStack_safe ..)
  refine SafeStep.trans ?_ (SafeStep.fieldsF rfl rfl rfl rfl)
  exact SafeStep.refl _

theorem State.useLine_safe (s : State) (stack l : Nat) : SafeStep s (State.useLine s stack l) := by
  unfold State.useLine
  extract_lets +onlyGivenNames q1
  extract_lets +onlyGivenNames q2
  refine SafeStep.ite ?_ ?_
  refine SafeStep.trans ?_ (State.activate_safe ..)
  exact SafeStep.refl _
  refine SafeStep.trans ?_ (State.activate_safe ..)
  refine SafeStep.trans ?_ (State.activate_safe ..)
  exact SafeStep.refl _

theorem State.useLines_safe (s : State) (stack l n : Nat) : SafeStep s (State.useLines s stack l n) := by
  unfold State.useLines
  refine SafeStep.foldl ?_ (fun s x => ?_)
  refine SafeStep.trans ?_ (State.wakeStack_safe ..)
  exact SafeStep.refl _
  refine SafeStep.trans ?_ (State.useLine_safe ..)
  exact SafeStep.refl _

theorem State.useBlk_safe (s : State) (e : Extent) (blk bytes : Nat) : SafeStep s (State.useBlk s e blk bytes) := by
  unfold State.useBlk
  extract_lets +onlyGivenNames q1
  refine SafeStep.trans ?_ (State.useLines_safe ..)
  exact SafeStep.refl _

theorem State.setWheel_safe (s : State) (w : Nat) (v : Wheel) : SafeStep s (State.setWheel s w v) := by
  unfold State.setWheel
  with_reducible refine SafeStep.trans ?_ (SafeStep.fields rfl rfl rfl rfl)
  exact SafeStep.refl _

theorem State.modWheel_safe (s : State) (w : Nat) (f : Wheel → Wheel) : SafeStep s (State.modWheel s w f) := by
  unfold State.modWheel
  refine SafeStep.trans ?_ (State.setWheel_safe ..)
  exact SafeStep.refl _

theorem State.noteRead_safe (s : State) (w sack : Nat) (die : Option Nat) : SafeStep s (State.noteRead s w sack die) := by
  unfold State.noteRead
  refine SafeStep.trans ?_ (State.modWheel_safe ..)
  exact SafeStep.refl _

theorem State.flipRead_safe (s : State) (ld blk word syn : Nat) (out : Ecc) : SafeStep s (State.flipRead s ld blk word syn out) := by
  unfold State.flipRead
  refine SafeStep.trans ?_ (State.modIntegLd_safe ..)
  exact SafeStep.refl _

theorem State.rebuildMirror_safe (s : State) (e : Extent) (m : Mirror) (loc access : Nat) : SafeStep s (State.rebuildMirror s e m loc access) := by
  unfold State.rebuildMirror
  split
  refine SafeStep.trans ?_ (State.lose_safe ..)
  exact SafeStep.refl _
  split
  refine SafeStep.trans ?_ (State.repaired_safe ..)
  refine SafeStep.trans ?_ (State.fixSpill_safe ..)
  refine SafeStep.trans ?_ (State.setCur_safe ..)
  refine SafeStep.trans ?_ (State.encode_safe _ _ _ _ _ _ (by assumption))
  exact SafeStep.refl _
  exact SafeStep.refl _

theorem State.resolveBad_safe (s : State) (e : Extent) (blk loc access : Nat) : SafeStep s (State.resolveBad s e blk loc access) := by
  unfold State.resolveBad
  split
  refine SafeStep.trans ?_ (State.rebuildMirror_safe ..)
  exact SafeStep.refl _
  refine SafeStep.ite ?_ ?_
  refine SafeStep.trans ?_ (State.ueLog_safe ..)
  exact SafeStep.refl _
  refine SafeStep.trans ?_ (State.lose_safe ..)
  exact SafeStep.refl _

theorem State.resolveUe_safe (s : State) (e : Extent) (blk word access : Nat) : SafeStep s (State.resolveUe s e blk word access) := by
  unfold State.resolveUe
  extract_lets +onlyGivenNames q1
  extract_lets +onlyGivenNames q2
  refine SafeStep.ite ?_ ?_
  refine SafeStep.trans ?_ (State.repaired_safe ..)
  refine SafeStep.trans ?_ (State.clearErrs_safe ..)
  exact SafeStep.refl _
  refine SafeStep.trans ?_ (State.resolveBad_safe ..)
  refine SafeStep.trans ?_ (State.clearErrs_safe ..)
  exact SafeStep.refl _

theorem State.checkImage_safe (s : State) (e : Extent) (blk access : Nat) : SafeStep s (State.checkImage s e blk access) := by
  unfold State.checkImage
  refine SafeStep.ite ?_ ?_
  exact SafeStep.refl _
  refine SafeStep.trans ?_ (State.resolveBad_safe ..)
  exact SafeStep.refl _

theorem State.checkWords_safe (s : State) (e : Extent) (blk access : Nat) (fix : Bool) (y0 : List (Nat × Nat)) : SafeStep s (State.checkWords s e blk access fix y0) := by
  induction y0 generalizing s with
  | nil =>
    unfold State.checkWords
    exact SafeStep.refl _
  | cons c l ih =>
    unfold State.checkWords
    extract_lets +onlyGivenNames q1
    extract_lets +onlyGivenNames q2
    extract_lets +onlyGivenNames q3
    (unfold q2; split)
    refine SafeStep.trans ?_ (ih ..)
    refine SafeStep.ite ?_ ?_
    exact SafeStep.refl _
    refine SafeStep.trans ?_ (State.flipRead_safe ..)
    exact SafeStep.refl _
    extract_lets +onlyGivenNames q4
    refine SafeStep.trans ?_ (ih ..)
    refine SafeStep.ite ?_ ?_
    refine SafeStep.trans ?_ (State.setErr_safe ..)
    refine SafeStep.trans ?_ (State.correct_safe ..)
    refine SafeStep.ite ?_ ?_
    exact SafeStep.refl _
    refine SafeStep.trans ?_ (State.flipRead_safe ..)
    exact SafeStep.refl _
    refine SafeStep.trans ?_ (State.correct_safe ..)
    refine SafeStep.ite ?_ ?_
    exact SafeStep.refl _
    refine SafeStep.trans ?_ (State.flipRead_safe ..)
    exact SafeStep.refl _
    refine SafeStep.trans ?_ (State.resolveUe_safe ..)
    refine SafeStep.ite ?_ ?_
    exact SafeStep.refl _
    refine SafeStep.trans ?_ (State.flipRead_safe ..)
    exact SafeStep.refl _

theorem State.readNear_safe (s : State) (e : Extent) (blk upset access cls : Nat) : SafeStep s (State.readNear s e blk upset access cls).2 := by
  unfold State.readNear
  extract_lets +onlyGivenNames q1
  refine SafeStep.iteP ?_ ?_
  dsimp only
  refine SafeStep.trans ?_ (State.wakeStack_safe ..)
  exact SafeStep.refl _
  refine SafeStep.iteP ?_ ?_
  exact SafeStep.refl _
  extract_lets +onlyGivenNames q2
  extract_lets +onlyGivenNames q3
  extract_lets +onlyGivenNames q4
  extract_lets +onlyGivenNames q5
  split
  dsimp only
  refine SafeStep.trans ?_ (State.checkImage_safe ..)
  refine SafeStep.trans ?_ (State.checkWords_safe ..)
  refine SafeStep.trans ?_ (State.serve_safe ..)
  refine SafeStep.trans ?_ (State.cacheUse_safe ..)
  refine SafeStep.trans ?_ (State.modSack_safe ..)
  refine SafeStep.trans ?_ (State.useBlk_safe ..)
  exact SafeStep.refl _
  dsimp only
  refine SafeStep.trans ?_ (State.checkImage_safe ..)
  refine SafeStep.trans ?_ (State.checkWords_safe ..)
  refine SafeStep.trans ?_ (State.serve_safe ..)
  refine SafeStep.trans ?_ (State.cacheUse_safe ..)
  refine SafeStep.trans ?_ (State.modSack_safe ..)
  refine SafeStep.trans ?_ (State.useBlk_safe ..)
  exact SafeStep.refl _

theorem State.readThrough_safe (s : State) (ld cls since : Nat) (e : Extent) (blk : Nat) : SafeStep s (State.readThrough s ld cls since e blk).2 := by
  unfold State.readThrough
  extract_lets +onlyGivenNames q1
  split
  dsimp only
  refine SafeStep.trans ?_ (State.countNoFrame_safe ..)
  refine SafeStep.trans ?_ (State.serve_safe ..)
  refine SafeStep.trans ?_ (State.checkImage_safe ..)
  exact SafeStep.refl _
  dsimp only
  refine SafeStep.trans ?_ (State.serve_safe ..)
  refine SafeStep.trans ?_ (State.checkImage_safe ..)
  exact SafeStep.refl _

theorem State.markCorrupt_safe (s : State) (sack : Nat) : SafeStep s (State.markCorrupt s sack) := by
  unfold State.markCorrupt
  refine SafeStep.trans ?_ (SafeStep.modStore (fun _ => rfl) (fun _ => rfl) (fun _ => rfl))
  exact SafeStep.refl _

theorem State.look_safe (s : State) (ld : Nat) (e : Extent) (dpa upset access : Nat) (die : Option Nat) (cls : Nat) : SafeStep s (State.look s ld e dpa upset access die cls).2 := by
  unfold State.look
  extract_lets +onlyGivenNames q1
  extract_lets +onlyGivenNames q2
  extract_lets +onlyGivenNames q3
  refine SafeStep.iteP ?_ ?_
  exact SafeStep.refl _
  refine SafeStep.iteP ?_ ?_
  dsimp only
  refine SafeStep.trans ?_ (State.markCorrupt_safe ..)
  exact SafeStep.refl _
  refine SafeStep.iteP ?_ ?_
  exact SafeStep.refl _
  refine SafeStep.iteP ?_ ?_
  exact SafeStep.refl _
  refine SafeStep.iteP ?_ ?_
  dsimp only
  refine SafeStep.trans ?_ (State.isolation_safe ..)
  exact SafeStep.refl _
  extract_lets +onlyGivenNames q4
  refine SafeStep.iteP ?_ ?_
  dsimp only
  refine SafeStep.trans ?_ (State.touch_safe ..)
  exact SafeStep.refl _
  split
  split
  refine SafeStep.trans ?_ (State.readThrough_safe ..)
  refine SafeStep.snd (by assumption) ?_
  refine SafeStep.trans ?_ (State.promote_safe ..)
  refine SafeStep.trans ?_ (State.touch_safe ..)
  exact SafeStep.refl _
  dsimp only
  refine SafeStep.snd (by assumption) ?_
  refine SafeStep.trans ?_ (State.promote_safe ..)
  refine SafeStep.trans ?_ (State.touch_safe ..)
  exact SafeStep.refl _
  refine SafeStep.iteP ?_ ?_
  refine SafeStep.trans ?_ (State.readNear_safe ..)
  refine SafeStep.trans ?_ (State.touch_safe ..)
  exact SafeStep.refl _
  dsimp only
  refine SafeStep.trans ?_ (State.touch_safe ..)
  exact SafeStep.refl _

theorem State.countMiss_safe (s : State) (e : Extent) (why : HeldWhy) : SafeStep s (State.countMiss s e why) := by
  unfold State.countMiss
  refine SafeStep.ite ?_ ?_
  refine SafeStep.trans ?_ (State.modMrc_safe ..)
  exact SafeStep.refl _
  exact SafeStep.refl _

theorem State.holdRead_safe (s : State) (ld dpa : Nat) (e : Extent) (who : ReadFor) (why : HeldWhy) (survey : Bool) (die : Option Nat) (cls : Nat) : SafeStep s (State.holdRead s ld dpa e who why survey die cls) := by
  unfold State.holdRead
  refine SafeStep.trans ?_ (SafeStep.modStore (fun _ => rfl) (fun _ => rfl) (fun _ => rfl))
  refine SafeStep.trans ?_ (State.countMiss_safe ..)
  exact SafeStep.refl _

theorem State.chargeStall_safe (s : State) (ld sack : Nat) (survey : Bool) (time : Nat) : SafeStep s (State.chargeStall s ld sack survey time) := by
  unfold State.chargeStall
  extract_lets +onlyGivenNames q1
  refine SafeStep.trans ?_ (State.modMrc_safe ..)
  exact SafeStep.refl _

theorem State.charge_safe (s : State) (r : HeldRead) : SafeStep s (State.charge s r) := by
  unfold State.charge
  refine SafeStep.ite ?_ ?_
  refine SafeStep.trans ?_ (State.chargeStall_safe ..)
  exact SafeStep.refl _
  exact SafeStep.refl _

theorem State.poisonRead_safe (s : State) (ld : Nat) : SafeStep s (State.poisonRead s ld) := by
  unfold State.poisonRead
  refine SafeStep.trans ?_ (State.modIntegLd_safe ..)
  exact SafeStep.refl _

theorem State.sendDone_safe (s : State) (ld tag cls : Nat) : SafeStep s (State.sendDone s ld tag cls) := by
  unfold State.sendDone
  refine SafeStep.trans ?_ (State.send_safe ..)
  exact SafeStep.refl _

theorem State.sendLine_safe (s : State) (ld tag cls : Nat) (d : Bytes) : SafeStep s (State.sendLine s ld tag cls d) := by
  unfold State.sendLine
  refine SafeStep.trans ?_ (State.send_safe ..)
  refine SafeStep.trans ?_ (State.serve_safe ..)
  exact SafeStep.refl _

theorem State.sendPoison_safe (s : State) (ld tag cls : Nat) : SafeStep s (State.sendPoison s ld tag cls) := by
  unfold State.sendPoison
  refine SafeStep.trans ?_ (State.send_safe ..)
  refine SafeStep.trans ?_ (State.serve_safe ..)
  exact SafeStep.refl _

theorem State.answerRead_safe (s : State) (r : HeldRead) (d : Option Bytes) : SafeStep s (State.answerRead s r d) := by
  unfold State.answerRead
  extract_lets +onlyGivenNames q1
  extract_lets +onlyGivenNames q2
  split
  refine SafeStep.ite ?_ ?_
  refine SafeStep.trans ?_ (SafeStep.modStore (fun _ => rfl) (fun _ => rfl) (fun _ => rfl))
  refine SafeStep.trans ?_ (State.charge_safe ..)
  exact SafeStep.refl _
  refine SafeStep.trans ?_ (State.sendLine_safe ..)
  refine SafeStep.trans ?_ (SafeStep.modStore (fun _ => rfl) (fun _ => rfl) (fun _ => rfl))
  refine SafeStep.trans ?_ (State.charge_safe ..)
  exact SafeStep.refl _
  refine SafeStep.ite ?_ ?_
  refine SafeStep.trans ?_ (SafeStep.modStore (fun _ => rfl) (fun _ => rfl) (fun _ => rfl))
  refine SafeStep.trans ?_ (State.charge_safe ..)
  exact SafeStep.refl _
  refine SafeStep.trans ?_ (State.sendPoison_safe ..)
  refine SafeStep.trans ?_ (State.poisonRead_safe ..)
  refine SafeStep.trans ?_ (SafeStep.modStore (fun _ => rfl) (fun _ => rfl) (fun _ => rfl))
  refine SafeStep.trans ?_ (State.charge_safe ..)
  exact SafeStep.refl _
  refine SafeStep.trans ?_ (SafeStep.modStore (fun _ => rfl) (fun _ => rfl) (fun _ => rfl))
  refine SafeStep.trans ?_ (SafeStep.modStore (fun _ => rfl) (fun _ => rfl) (fun _ => rfl))
  refine SafeStep.trans ?_ (State.charge_safe ..)
  exact SafeStep.refl _
  refine SafeStep.trans ?_ (SafeStep.modStore (fun _ => rfl) (fun _ => rfl) (fun _ => rfl))
  refine SafeStep.trans ?_ (State.charge_safe ..)
  exact SafeStep.refl _
  refine SafeStep.trans ?_ (SafeStep.modStore (fun _ => rfl) (fun _ => rfl) (fun _ => rfl))
  refine SafeStep.trans ?_ (State.charge_safe ..)
  exact SafeStep.refl _

theorem State.retryRead_safe (s : State) (r : HeldRead) : SafeStep s (State.retryRead s r) := by
  unfold State.retryRead
  refine SafeStep.ite ?_ ?_
  exact SafeStep.refl _
  split
  refine SafeStep.trans ?_ (State.answerRead_safe ..)
  exact SafeStep.refl _
  split
  refine SafeStep.trans ?_ (State.answerRead_safe ..)
  refine SafeStep.snd (by assumption) ?_
  refine SafeStep.trans ?_ (State.look_safe ..)
  exact SafeStep.refl _
  refine SafeStep.trans ?_ (State.answerRead_safe ..)
  refine SafeStep.snd (by assumption) ?_
  refine SafeStep.trans ?_ (State.look_safe ..)
  exact SafeStep.refl _
  refine SafeStep.trans ?_ (State.answerRead_safe ..)
  refine SafeStep.snd (by assumption) ?_
  refine SafeStep.trans ?_ (State.look_safe ..)
  exact SafeStep.refl _
  refine SafeStep.trans ?_ (State.answerRead_safe ..)
  refine SafeStep.snd (by assumption) ?_
  refine SafeStep.trans ?_ (State.look_safe ..)
  exact SafeStep.refl _
  refine SafeStep.trans ?_ (SafeStep.modStore (fun _ => rfl) (fun _ => rfl) (fun _ => rfl))
  refine SafeStep.ite ?_ ?_
  refine SafeStep.snd (by assumption) ?_
  refine SafeStep.trans ?_ (State.look_safe ..)
  exact SafeStep.refl _
  refine SafeStep.trans ?_ (State.countMiss_safe ..)
  refine SafeStep.snd (by assumption) ?_
  refine SafeStep.trans ?_ (State.look_safe ..)
  exact SafeStep.refl _

theorem State.readLine_safe (s : State) (ld dpa tag : Nat) (e : Extent) (upset : Nat) : SafeStep s (State.readLine s ld dpa tag e upset) := by
  unfold State.readLine
  extract_lets +onlyGivenNames q1
  extract_lets +onlyGivenNames q2
  extract_lets +onlyGivenNames q3
  extract_lets +onlyGivenNames q4
  extract_lets +onlyGivenNames q5
  extract_lets +onlyGivenNames q6
  extract_lets +onlyGivenNames q7
  refine SafeStep.ite ?_ ?_
  refine SafeStep.trans ?_ (State.holdRead_safe ..)
  unfold q2
  (unfold q1; split)
  refine SafeStep.trans ?_ (State.noteRead_safe ..)
  exact SafeStep.refl _
  exact SafeStep.refl _
  refine SafeStep.ite ?_ ?_
  refine SafeStep.trans ?_ (State.sendLine_safe ..)
  refine SafeStep.trans ?_ (State.confirm_safe ..)
  unfold q2
  (unfold q1; split)
  refine SafeStep.trans ?_ (State.noteRead_safe ..)
  exact SafeStep.refl _
  exact SafeStep.refl _
  split
  refine SafeStep.trans ?_ (State.sendLine_safe ..)
  refine SafeStep.snd (by assumption) ?_
  refine SafeStep.trans ?_ (State.look_safe ..)
  unfold q2
  (unfold q1; split)
  refine SafeStep.trans ?_ (State.noteRead_safe ..)
  exact SafeStep.refl _
  exact SafeStep.refl _
  refine SafeStep.trans ?_ (State.sendLine_safe ..)
  refine SafeStep.trans ?_ (State.chargeStall_safe ..)
  refine SafeStep.snd (by assumption) ?_
  refine SafeStep.trans ?_ (State.look_safe ..)
  unfold q2
  (unfold q1; split)
  refine SafeStep.trans ?_ (State.noteRead_safe ..)
  exact SafeStep.refl _
  exact SafeStep.refl _
  refine SafeStep.trans ?_ (State.sendPoison_safe ..)
  refine SafeStep.trans ?_ (State.poisonRead_safe ..)
  refine SafeStep.snd (by assumption) ?_
  refine SafeStep.trans ?_ (State.look_safe ..)
  unfold q2
  (unfold q1; split)
  refine SafeStep.trans ?_ (State.noteRead_safe ..)
  exact SafeStep.refl _
  exact SafeStep.refl _
  refine SafeStep.trans ?_ (State.sendPoison_safe ..)
  refine SafeStep.snd (by assumption) ?_
  refine SafeStep.trans ?_ (State.look_safe ..)
  unfold q2
  (unfold q1; split)
  refine SafeStep.trans ?_ (State.noteRead_safe ..)
  exact SafeStep.refl _
  exact SafeStep.refl _
  refine SafeStep.trans ?_ (State.holdRead_safe ..)
  refine SafeStep.snd (by assumption) ?_
  refine SafeStep.trans ?_ (State.look_safe ..)
  unfold q2
  (unfold q1; split)
  refine SafeStep.trans ?_ (State.noteRead_safe ..)
  exact SafeStep.refl _
  exact SafeStep.refl _

theorem State.rmwRead_safe (s : State) (m : MergeEnt) (owner : Extent) : SafeStep s (State.rmwRead s m owner) := by
  unfold State.rmwRead
  extract_lets +onlyGivenNames q1
  extract_lets +onlyGivenNames q2
  extract_lets +onlyGivenNames q3
  extract_lets +onlyGivenNames q4
  refine SafeStep.ite ?_ ?_
  exact SafeStep.refl _
  split
  refine SafeStep.trans ?_ (SafeStep.modStore (fun _ => rfl) (fun _ => rfl) (fun _ => rfl))
  refine SafeStep.snd (by assumption) ?_
  refine SafeStep.trans ?_ (State.look_safe ..)
  exact SafeStep.refl _
  refine SafeStep.trans ?_ (SafeStep.modStore (fun _ => rfl) (fun _ => rfl) (fun _ => rfl))
  refine SafeStep.trans ?_ (State.chargeStall_safe ..)
  refine SafeStep.snd (by assumption) ?_
  refine SafeStep.trans ?_ (State.look_safe ..)
  exact SafeStep.refl _
  refine SafeStep.trans ?_ (State.holdRead_safe ..)
  refine SafeStep.snd (by assumption) ?_
  refine SafeStep.trans ?_ (State.look_safe ..)
  exact SafeStep.refl _
  exact SafeStep.refl _

theorem State.modNear_safe (s : State) (f : NearSt → NearSt) : SafeStep s (State.modNear s f) := by
  unfold State.modNear
  with_reducible refine SafeStep.trans ?_ (SafeStep.fields rfl rfl rfl rfl)
  exact SafeStep.refl _

theorem State.turnStack_safe (s : State) (p k : Nat) : SafeStep s (State.turnStack s p k) := by
  unfold State.turnStack
  extract_lets +onlyGivenNames q1
  refine SafeStep.ite ?_ ?_
  exact SafeStep.refl _
  refine SafeStep.ite ?_ ?_
  refine SafeStep.trans ?_ (State.modStack_safe ..)
  exact SafeStep.refl _
  refine SafeStep.trans ?_ (State.modStack_safe ..)
  exact SafeStep.refl _

theorem State.pumpPoint_safe (s : State) (y0 : Nat) : SafeStep s (State.pumpPoint s y0) := by
  induction y0 generalizing s with
  | zero =>
    unfold State.pumpPoint
    exact SafeStep.refl _
  | succ n ih =>
    unfold State.pumpPoint
    split
    refine SafeStep.ite ?_ ?_
    exact SafeStep.refl _
    refine SafeStep.ite ?_ ?_
    extract_lets +onlyGivenNames q1
    refine SafeStep.trans ?_ (ih ..)
    refine SafeStep.foldl ?_ (fun s x => ?_)
    refine SafeStep.trans ?_ (State.modNear_safe ..)
    exact SafeStep.refl _
    refine SafeStep.trans ?_ (State.turnStack_safe ..)
    exact SafeStep.refl _
    refine SafeStep.trans ?_ (ih ..)
    refine SafeStep.trans ?_ (State.caps_safe ..)
    refine SafeStep.trans ?_ (State.modNear_safe ..)
    exact SafeStep.refl _
    split
    refine SafeStep.ite ?_ ?_
    refine SafeStep.trans ?_ (State.modNear_safe ..)
    exact SafeStep.refl _
    extract_lets +onlyGivenNames q2
    refine SafeStep.trans ?_ (ih ..)
    refine SafeStep.foldl ?_ (fun s x => ?_)
    refine SafeStep.trans ?_ (State.caps_safe ..)
    refine SafeStep.trans ?_ (State.modNear_safe ..)
    exact SafeStep.refl _
    refine SafeStep.trans ?_ (State.turnStack_safe ..)
    exact SafeStep.refl _
    exact SafeStep.refl _

theorem State.pumpNear_safe (s : State) : SafeStep s (State.pumpNear s) := by
  unfold State.pumpNear
  refine SafeStep.trans ?_ (State.pumpPoint_safe ..)
  exact SafeStep.refl _

theorem State.askPoint_safe (s : State) (p : Nat) : SafeStep s (State.askPoint s p) := by
  unfold State.askPoint
  refine SafeStep.trans ?_ (State.pumpNear_safe ..)
  refine SafeStep.trans ?_ (State.modNear_safe ..)
  exact SafeStep.refl _

theorem State.mirrorLine_safe (s : State) (e : Extent) (blk line : Nat) (data : Bytes) : ∀ v : State, State.mirrorLine s e blk line data = some v → SafeStep s v := by
  unfold State.mirrorLine
  split
  extract_lets +onlyGivenNames q1
  refine SafeStep.some1 ?_
  refine SafeStep.trans ?_ (SafeStep.modStore (fun _ => rfl) (fun _ => rfl) (fun _ => rfl))
  exact SafeStep.refl _
  refine SafeStep.ite1 ?_ ?_
  extract_lets +onlyGivenNames q2
  split
  refine SafeStep.some1 ?_
  refine SafeStep.trans ?_ (SafeStep.modStore (fun _ => rfl) (fun _ => rfl) (fun _ => rfl))
  exact SafeStep.refl _
  exact SafeStep.none1

theorem State.freeMirror_safe (s : State) (blk : Nat) : SafeStep s (State.freeMirror s blk) := by
  unfold State.freeMirror
  refine SafeStep.ite ?_ ?_
  exact SafeStep.refl _
  refine SafeStep.trans ?_ (SafeStep.modStore (fun _ => rfl) (fun _ => rfl) (fun _ => rfl))
  exact SafeStep.refl _

theorem State.readMissing_safe (s : State) (blk : Nat) : SafeStep s (State.readMissing s blk) := by
  unfold State.readMissing
  split
  refine SafeStep.trans ?_ (State.rmwRead_safe ..)
  exact SafeStep.refl _
  exact SafeStep.refl _

theorem State.passEnt_safe (s : State) (blk : Nat) (rmw : Bool) : SafeStep s (State.passEnt s blk rmw) := by
  unfold State.passEnt
  extract_lets +onlyGivenNames q1
  refine SafeStep.ite ?_ ?_
  refine SafeStep.trans ?_ (State.readMissing_safe ..)
  refine SafeStep.trans ?_ (SafeStep.modStore (fun _ => rfl) (fun _ => rfl) (fun _ => rfl))
  exact SafeStep.refl _
  refine SafeStep.trans ?_ (SafeStep.modStore (fun _ => rfl) (fun _ => rfl) (fun _ => rfl))
  exact SafeStep.refl _

theorem State.passBlk_safe (s : State) (blk : Nat) : SafeStep s (State.passBlk s blk) := by
  unfold State.passBlk
  split
  refine SafeStep.trans ?_ (State.passEnt_safe ..)
  exact SafeStep.refl _
  exact SafeStep.refl _

theorem State.passUntil_safe (s : State) (goal : Nat) (y0 : Nat) : SafeStep s (State.passUntil s goal y0) := by
  induction y0 generalizing s with
  | zero =>
    unfold State.passUntil
    exact SafeStep.refl _
  | succ n ih =>
    unfold State.passUntil
    extract_lets +onlyGivenNames q1
    refine SafeStep.ite ?_ ?_
    exact SafeStep.refl _
    split
    exact SafeStep.refl _
    refine SafeStep.trans ?_ (ih ..)
    refine SafeStep.trans ?_ (SafeStep.modStore (fun _ => rfl) (fun _ => rfl) (fun _ => rfl))
    refine SafeStep.trans ?_ (State.passEnt_safe ..)
    exact SafeStep.refl _

theorem State.mergePressure_safe (s : State) : SafeStep s (State.mergePressure s) := by
  unfold State.mergePressure
  refine SafeStep.ite ?_ ?_
  refine SafeStep.trans ?_ (State.passUntil_safe ..)
  exact SafeStep.refl _
  exact SafeStep.refl _

theorem State.merge_safe (s : State) (ld cls : Nat) (e : Extent) (blk line : Nat) (data : Bytes) (enables : BitVec 64) : SafeStep s (State.merge s ld cls e blk line data enables) := by
  unfold State.merge
  extract_lets +onlyGivenNames q1
  extract_lets +onlyGivenNames q2
  extract_lets +onlyGivenNames q3
  extract_lets +onlyGivenNames q4
  extract_lets +onlyGivenNames q5
  refine SafeStep.trans ?_ (State.mergePressure_safe ..)
  refine SafeStep.ite ?_ ?_
  refine SafeStep.trans ?_ (State.passEnt_safe ..)
  unfold q4
  split
  refine SafeStep.trans ?_ (SafeStep.modStore (fun _ => rfl) (fun _ => rfl) (fun _ => rfl))
  exact SafeStep.refl _
  refine SafeStep.trans ?_ (SafeStep.modStore (fun _ => rfl) (fun _ => rfl) (fun _ => rfl))
  exact SafeStep.refl _
  unfold q4
  split
  refine SafeStep.trans ?_ (SafeStep.modStore (fun _ => rfl) (fun _ => rfl) (fun _ => rfl))
  exact SafeStep.refl _
  refine SafeStep.trans ?_ (SafeStep.modStore (fun _ => rfl) (fun _ => rfl) (fun _ => rfl))
  exact SafeStep.refl _

theorem State.mergeWhole_safe (s : State) (ld : Nat) (e : Extent) (blk : Nat) (data : Bytes) : SafeStep s (State.mergeWhole s ld e blk data) := by
  unfold State.mergeWhole
  extract_lets +onlyGivenNames q1
  extract_lets +onlyGivenNames q2
  refine SafeStep.trans ?_ (State.mergePressure_safe ..)
  refine SafeStep.trans ?_ (SafeStep.modStore (fun _ => rfl) (fun _ => rfl) (fun _ => rfl))
  exact SafeStep.refl _

theorem State.mergeBelow_safe (s : State) (e : Extent) (blk : Nat) (data : Bytes) (order : Nat) : SafeStep s (State.mergeBelow s e blk data order) := by
  unfold State.mergeBelow
  extract_lets +onlyGivenNames q1
  refine SafeStep.trans ?_ (SafeStep.modStore (fun _ => rfl) (fun _ => rfl) (fun _ => rfl))
  exact SafeStep.refl _

theorem State.allocFrames_safe (s : State) (sack : Nat) (affinity : Nat) (die : Option Nat) : SafeStep s (State.allocFrames s sack affinity die) := by
  unfold State.allocFrames
  extract_lets +onlyGivenNames q1
  split
  refine SafeStep.trans ?_ (SafeStep.modStore (fun _ => rfl) (fun _ => rfl) (fun _ => rfl))
  refine SafeStep.trans ?_ (State.setSack_safe ..)
  exact SafeStep.refl _
  refine SafeStep.trans ?_ (State.setSack_safe ..)
  exact SafeStep.refl _

theorem State.allocate_safe (s : State) (e : Extent) (sack : Nat) (die : Option Nat) : SafeStep s (State.allocate s e sack die) := by
  unfold State.allocate
  extract_lets +onlyGivenNames q1
  extract_lets +onlyGivenNames q2
  refine SafeStep.trans ?_ (State.allocFrames_safe ..)
  refine SafeStep.trans ?_ (State.setSack_safe ..)
  exact SafeStep.refl _

theorem State.retryAllocs_safe (s : State) : SafeStep s (State.retryAllocs s) := by
  unfold State.retryAllocs
  refine SafeStep.foldl ?_ (fun s x => ?_)
  exact SafeStep.refl _
  split
  refine SafeStep.trans ?_ (State.allocFrames_safe ..)
  exact SafeStep.refl _
  exact SafeStep.refl _

theorem State.dropWrite_safe (s : State) (wid : Nat) : SafeStep s (State.dropWrite s wid) := by
  unfold State.dropWrite
  refine SafeStep.trans ?_ (SafeStep.modStore (fun _ => rfl) (fun _ => rfl) (fun _ => rfl))
  exact SafeStep.refl _

theorem State.dropT0_safe (s : State) (blk : Nat) : SafeStep s (State.dropT0 s blk) := by
  unfold State.dropT0
  refine SafeStep.trans ?_ (SafeStep.modStore (fun _ => rfl) (fun _ => rfl) (fun _ => rfl))
  exact SafeStep.refl _

theorem State.doneWrite_safe (s : State) (w : HeldWrite) : SafeStep s (State.doneWrite s w) := by
  unfold State.doneWrite
  refine SafeStep.ite ?_ ?_
  exact SafeStep.refl _
  refine SafeStep.trans ?_ (State.sendDone_safe ..)
  exact SafeStep.refl _

theorem State.unmerge_safe (s : State) (w : HeldWrite) (e : Extent) : SafeStep s (State.unmerge s w e) := by
  unfold State.unmerge
  refine SafeStep.trans ?_ (State.ueLog_safe ..)
  refine SafeStep.trans ?_ (SafeStep.modStore (fun _ => rfl) (fun _ => rfl) (fun _ => rfl))
  exact SafeStep.refl _

theorem State.parkMerged_safe (s : State) (w : HeldWrite) (why : WriteWhy) : SafeStep s (State.parkMerged s w why) := by
  unfold State.parkMerged
  refine SafeStep.trans ?_ (SafeStep.modStore (fun _ => rfl) (fun _ => rfl) (fun _ => rfl))
  refine SafeStep.trans ?_ (State.dropWrite_safe ..)
  exact SafeStep.refl _

theorem State.mirrorWrite_safe (s : State) (w : HeldWrite) (e : Extent) (d : Bytes) : SafeStep s (State.mirrorWrite s w e d) := by
  unfold State.mirrorWrite
  split
  refine SafeStep.trans ?_ (State.doneWrite_safe ..)
  refine SafeStep.trans ?_ (State.mirrorLine_safe _ _ _ _ _ _ (by assumption))
  refine SafeStep.trans ?_ (State.dropWrite_safe ..)
  exact SafeStep.refl _
  refine SafeStep.ite ?_ ?_
  refine SafeStep.trans ?_ (State.parkMerged_safe ..)
  exact SafeStep.refl _
  refine SafeStep.trans ?_ (SafeStep.modStore (fun _ => rfl) (fun _ => rfl) (fun _ => rfl))
  refine SafeStep.trans ?_ (State.parkMerged_safe ..)
  exact SafeStep.refl _

theorem State.finishWrite_safe (s : State) (w : HeldWrite) (e : Extent) : SafeStep s (State.finishWrite s w e) := by
  unfold State.finishWrite
  refine SafeStep.ite ?_ ?_
  refine SafeStep.trans ?_ (State.doneWrite_safe ..)
  refine SafeStep.trans ?_ (State.dropWrite_safe ..)
  exact SafeStep.refl _
  refine SafeStep.ite ?_ ?_
  refine SafeStep.ite ?_ ?_
  refine SafeStep.trans ?_ (State.doneWrite_safe ..)
  refine SafeStep.trans ?_ (State.dropWrite_safe ..)
  exact SafeStep.refl _
  refine SafeStep.trans ?_ (State.parkMerged_safe ..)
  exact SafeStep.refl _
  extract_lets +onlyGivenNames q1
  refine SafeStep.ite ?_ ?_
  refine SafeStep.trans ?_ (State.mirrorWrite_safe ..)
  exact SafeStep.refl _
  split
  refine SafeStep.trans ?_ (State.doneWrite_safe ..)
  refine SafeStep.trans ?_ (State.unmerge_safe ..)
  refine SafeStep.trans ?_ (State.dropWrite_safe ..)
  exact SafeStep.refl _
  refine SafeStep.ite ?_ ?_
  refine SafeStep.trans ?_ (State.mirrorWrite_safe ..)
  exact SafeStep.refl _
  refine SafeStep.ite ?_ ?_
  split
  refine SafeStep.trans ?_ (State.mirrorWrite_safe ..)
  refine SafeStep.snd (by assumption) ?_
  refine SafeStep.trans ?_ (State.promote_safe ..)
  exact SafeStep.refl _
  refine SafeStep.trans ?_ (State.parkMerged_safe ..)
  refine SafeStep.snd (by assumption) ?_
  refine SafeStep.trans ?_ (State.promote_safe ..)
  exact SafeStep.refl _
  refine SafeStep.trans ?_ (State.parkMerged_safe ..)
  exact SafeStep.refl _

theorem State.writeTouch_safe (s : State) (ld cls : Nat) (e : Extent) (sack : Nat) : SafeStep s (State.writeTouch s ld cls e sack) := by
  unfold State.writeTouch
  extract_lets +onlyGivenNames q1
  refine SafeStep.ite ?_ ?_
  refine SafeStep.trans ?_ (State.promote_safe ..)
  refine SafeStep.trans ?_ (State.touch_safe ..)
  exact SafeStep.refl _
  refine SafeStep.trans ?_ (State.touch_safe ..)
  exact SafeStep.refl _

theorem State.poisonWrite_safe (s : State) (w : HeldWrite) : SafeStep s (State.poisonWrite s w) := by
  unfold State.poisonWrite
  extract_lets +onlyGivenNames q1
  extract_lets +onlyGivenNames q2
  extract_lets +onlyGivenNames q3
  extract_lets +onlyGivenNames q4
  extract_lets +onlyGivenNames q5
  refine SafeStep.trans ?_ (State.doneWrite_safe ..)
  with_reducible refine SafeStep.trans ?_ (SafeStep.fields rfl rfl rfl rfl)
  refine SafeStep.trans ?_ (State.poisonBlock_safe ..)
  refine SafeStep.trans ?_ (SafeStep.modStore (fun _ => rfl) (fun _ => rfl) (fun _ => rfl))
  refine SafeStep.trans ?_ (State.dropT0_safe ..)
  refine SafeStep.trans ?_ (State.dropWrite_safe ..)
  exact SafeStep.refl _

theorem State.tryWrite_safe (s : State) (w : HeldWrite) (e : Extent) : SafeStep s (State.tryWrite s w e) := by
  unfold State.tryWrite
  refine SafeStep.ite ?_ ?_
  refine SafeStep.trans ?_ (State.finishWrite_safe ..)
  exact SafeStep.refl _
  extract_lets +onlyGivenNames q1
  extract_lets +onlyGivenNames q2
  refine SafeStep.ite ?_ ?_
  unfold q1
  refine SafeStep.trans ?_ (SafeStep.modStore (fun _ => rfl) (fun _ => rfl) (fun _ => rfl))
  exact SafeStep.refl _
  refine SafeStep.ite ?_ ?_
  unfold q1
  refine SafeStep.trans ?_ (SafeStep.modStore (fun _ => rfl) (fun _ => rfl) (fun _ => rfl))
  exact SafeStep.refl _
  refine SafeStep.ite ?_ ?_
  unfold q1
  refine SafeStep.trans ?_ (SafeStep.modStore (fun _ => rfl) (fun _ => rfl) (fun _ => rfl))
  refine SafeStep.trans ?_ (State.markCorrupt_safe ..)
  exact SafeStep.refl _
  split
  unfold q1
  refine SafeStep.trans ?_ (SafeStep.modStore (fun _ => rfl) (fun _ => rfl) (fun _ => rfl))
  refine SafeStep.trans ?_ (State.allocate_safe ..)
  exact SafeStep.refl _
  unfold q1
  refine SafeStep.trans ?_ (SafeStep.modStore (fun _ => rfl) (fun _ => rfl) (fun _ => rfl))
  exact SafeStep.refl _
  refine SafeStep.ite ?_ ?_
  refine SafeStep.trans ?_ (State.doneWrite_safe ..)
  refine SafeStep.trans ?_ (State.dropWrite_safe ..)
  refine SafeStep.trans ?_ (State.isolation_safe ..)
  exact SafeStep.refl _
  refine SafeStep.ite ?_ ?_
  refine SafeStep.trans ?_ (State.poisonWrite_safe ..)
  exact SafeStep.refl _
  refine SafeStep.ite ?_ ?_
  refine SafeStep.ite ?_ ?_
  unfold q1
  refine SafeStep.trans ?_ (SafeStep.modStore (fun _ => rfl) (fun _ => rfl) (fun _ => rfl))
  exact SafeStep.refl _
  refine SafeStep.trans ?_ (State.modMrc_safe ..)
  unfold q1
  refine SafeStep.trans ?_ (SafeStep.modStore (fun _ => rfl) (fun _ => rfl) (fun _ => rfl))
  exact SafeStep.refl _
  refine SafeStep.ite ?_ ?_
  unfold q1
  refine SafeStep.trans ?_ (SafeStep.modStore (fun _ => rfl) (fun _ => rfl) (fun _ => rfl))
  refine SafeStep.trans ?_ (State.mergePressure_safe ..)
  exact SafeStep.refl _
  extract_lets +onlyGivenNames q3
  extract_lets +onlyGivenNames q4
  refine SafeStep.trans ?_ (State.finishWrite_safe ..)
  refine SafeStep.trans ?_ (State.dropT0_safe ..)
  refine SafeStep.trans ?_ (State.merge_safe ..)
  refine SafeStep.trans ?_ (State.writeTouch_safe ..)
  exact SafeStep.refl _

theorem State.writeLine_safe (s : State) (ld dpa tag : Nat) (e : Extent) (data : Bytes) (enables : BitVec 64) (poison : Bool) (muted : Bool) (cls : Nat) : SafeStep s (State.writeLine s ld dpa tag e data enables poison muted cls) := by
  unfold State.writeLine
  extract_lets +onlyGivenNames q1
  refine SafeStep.trans ?_ (State.tryWrite_safe ..)
  refine SafeStep.trans ?_ (SafeStep.modStore (fun _ => rfl) (fun _ => rfl) (fun _ => rfl))
  exact SafeStep.refl _

theorem State.retryWrite_safe (s : State) (w : HeldWrite) : SafeStep s (State.retryWrite s w) := by
  unfold State.retryWrite
  split
  refine SafeStep.trans ?_ (State.tryWrite_safe ..)
  exact SafeStep.refl _
  refine SafeStep.trans ?_ (State.doneWrite_safe ..)
  refine SafeStep.trans ?_ (State.dropWrite_safe ..)
  exact SafeStep.refl _

theorem State.wakeOne_safe (s : State) (rid : Nat) : SafeStep s (State.wakeOne s rid) := by
  unfold State.wakeOne
  split
  refine SafeStep.trans ?_ (State.retryRead_safe ..)
  exact SafeStep.refl _
  split
  refine SafeStep.trans ?_ (State.retryWrite_safe ..)
  exact SafeStep.refl _
  exact SafeStep.refl _

theorem State.wakeOrder_safe (s : State) : SafeStep s (State.wakeOrder s) := by
  unfold State.wakeOrder
  refine SafeStep.foldl ?_ (fun s x => ?_)
  exact SafeStep.refl _
  refine SafeStep.trans ?_ (State.wakeOne_safe ..)
  exact SafeStep.refl _

theorem State.retryReads_safe (s : State) (p : HeldRead → Bool) : SafeStep s (State.retryReads s p) := by
  unfold State.retryReads
  refine SafeStep.trans ?_ (State.wakeOrder_safe ..)
  refine SafeStep.foldl ?_ (fun s x => ?_)
  exact SafeStep.refl _
  refine SafeStep.trans ?_ (State.retryRead_safe ..)
  exact SafeStep.refl _

theorem State.retryWrites_safe (s : State) (p : HeldWrite → Bool) : SafeStep s (State.retryWrites s p) := by
  unfold State.retryWrites
  refine SafeStep.trans ?_ (State.wakeOrder_safe ..)
  refine SafeStep.foldl ?_ (fun s x => ?_)
  exact SafeStep.refl _
  refine SafeStep.trans ?_ (State.retryWrite_safe ..)
  exact SafeStep.refl _

theorem State.modeChanged_safe (s : State) : SafeStep s (State.modeChanged s) := by
  unfold State.modeChanged
  refine SafeStep.trans ?_ (State.retryWrites_safe ..)
  exact SafeStep.refl _

theorem State.retryRid_safe (s : State) (rid : Nat) : SafeStep s (State.retryRid s rid) := by
  unfold State.retryRid
  split
  refine SafeStep.trans ?_ (State.retryRead_safe ..)
  exact SafeStep.refl _
  split
  refine SafeStep.trans ?_ (State.retryWrite_safe ..)
  exact SafeStep.refl _
  exact SafeStep.refl _

theorem State.retryHeld_safe (s : State) (p : HeldRead → Bool) (q : HeldWrite → Bool) : SafeStep s (State.retryHeld s p q) := by
  unfold State.retryHeld
  refine SafeStep.trans ?_ (State.wakeOrder_safe ..)
  refine SafeStep.foldl ?_ (fun s x => ?_)
  exact SafeStep.refl _
  refine SafeStep.trans ?_ (State.retryRid_safe ..)
  exact SafeStep.refl _

theorem State.programSlots_safe (s : State) (sack : Nat) (blocks : BitVec 128) (unit ld cls : Nat) : SafeStep s (State.programSlots s sack blocks unit ld cls) := by
  unfold State.programSlots
  extract_lets +onlyGivenNames q1
  extract_lets +onlyGivenNames q2
  extract_lets +onlyGivenNames q3
  extract_lets +onlyGivenNames q4
  with_reducible refine SafeStep.trans ?_ (SafeStep.fields rfl rfl rfl rfl)
  refine SafeStep.trans ?_ (State.serve_safe ..)
  refine SafeStep.trans ?_ (State.chargeSlots_safe ..)
  exact SafeStep.refl _

theorem State.programBlocks_safe (s : State) (sack : Nat) (blocks : BitVec 128) (unit : Nat) : SafeStep s (s.programBlocks sack blocks unit) := by
  unfold State.programBlocks
  extract_lets bs s1
  refine SafeStep.trans ?_ (State.programSlots_safe ..)
  refine SafeStep.trans ?_ (State.serve_safe ..)
  exact SafeStep.recordM rfl rfl rfl (Nat.le_refl _) rfl id id (fun h => Tbl.wf_foldl_set _ _ _ h)

theorem State.applyFlip_safe (s : State) (ld blk kind : Nat) : SafeStep s (State.applyFlip s ld blk kind) := by
  unfold State.applyFlip
  extract_lets +onlyGivenNames q1
  refine SafeStep.ite ?_ ?_
  refine SafeStep.trans ?_ (State.setErr_safe ..)
  refine SafeStep.trans ?_ (State.modIntegLd_safe ..)
  exact SafeStep.refl _
  exact SafeStep.refl _

theorem State.wtDone_safe (s : State) (blk : Nat) : SafeStep s (State.wtDone s blk) := by
  unfold State.wtDone
  refine SafeStep.foldl ?_ (fun s x => ?_)
  exact SafeStep.refl _
  refine SafeStep.trans ?_ (State.doneWrite_safe ..)
  refine SafeStep.trans ?_ (State.dropWrite_safe ..)
  exact SafeStep.refl _

theorem State.cacheWritten_safe (s : State) (blk : Nat) (plain : Bool) : SafeStep s (State.cacheWritten s blk plain) := by
  unfold State.cacheWritten
  refine SafeStep.trans ?_ (SafeStep.modStore (fun _ => rfl) (fun _ => rfl) (fun _ => rfl))
  exact SafeStep.refl _

theorem State.rewriteBlk_safe (s : State) (e : Extent) (blk bytes : Nat) : SafeStep s (State.rewriteBlk s e blk bytes) := by
  unfold State.rewriteBlk
  extract_lets +onlyGivenNames q1
  refine SafeStep.foldl ?_ (fun s x => ?_)
  exact SafeStep.refl _
  refine SafeStep.trans ?_ (State.rewrite_safe ..)
  exact SafeStep.refl _

theorem State.land_safe (s : State) (e : Extent) (ld cls blk : Nat) (v : StoredBlk) : SafeStep s (State.land s e ld cls blk v) := by
  unfold State.land
  extract_lets +onlyGivenNames q1
  extract_lets +onlyGivenNames q2
  extract_lets +onlyGivenNames q3
  extract_lets +onlyGivenNames q4
  extract_lets +onlyGivenNames q5
  extract_lets +onlyGivenNames q6
  extract_lets +onlyGivenNames q7
  extract_lets +onlyGivenNames q8
  extract_lets +onlyGivenNames q9
  extract_lets +onlyGivenNames q10
  refine SafeStep.trans ?_ (State.cacheTrim_safe ..)
  with_reducible refine SafeStep.trans ?_ (SafeStep.fields rfl rfl rfl rfl)
  refine SafeStep.trans ?_ (State.applyFlip_safe ..)
  refine SafeStep.trans ?_ (State.cacheWritten_safe ..)
  refine SafeStep.trans ?_ (State.fixSpill_safe ..)
  refine SafeStep.ite ?_ ?_
  refine SafeStep.trans ?_ (State.serve_safe ..)
  refine SafeStep.trans ?_ (State.rewriteBlk_safe ..)
  refine SafeStep.trans ?_ (State.useBlk_safe ..)
  refine SafeStep.trans ?_ (State.modSack_safe ..)
  refine SafeStep.trans ?_ (State.storeImage_safe ..)
  refine SafeStep.trans ?_ (State.clearErrs_safe ..)
  exact SafeStep.refl _
  refine SafeStep.trans ?_ (State.wtDone_safe ..)
  refine SafeStep.trans ?_ (State.countNoFrame_safe ..)
  refine SafeStep.trans ?_ (State.programSlots_safe ..)
  refine SafeStep.trans ?_ (State.modSack_safe ..)
  refine SafeStep.trans ?_ (State.storeImage_safe ..)
  refine SafeStep.trans ?_ (State.clearErrs_safe ..)
  exact SafeStep.refl _

theorem State.landing_safe (s : State) (e : Extent) (m : MergeEnt) : ∀ v : State, State.landing s e m = some v → SafeStep s v := by
  unfold State.landing
  split
  exact SafeStep.none1
  exact SafeStep.none1
  split
  refine SafeStep.ite1 ?_ ?_
  refine SafeStep.some1 ?_
  refine SafeStep.snd (by assumption) ?_
  refine SafeStep.trans ?_ (State.promote_safe ..)
  exact SafeStep.refl _
  exact SafeStep.none1
  refine SafeStep.some1 ?_
  refine SafeStep.snd (by assumption) ?_
  refine SafeStep.trans ?_ (State.promote_safe ..)
  exact SafeStep.refl _
  exact SafeStep.none1
  extract_lets +onlyGivenNames q1
  refine SafeStep.ite1 ?_ ?_
  exact SafeStep.none1
  refine SafeStep.some1 ?_
  refine SafeStep.trans ?_ (State.touch_safe ..)
  exact SafeStep.refl _

theorem State.encodeEnt_safe (s : State) (e : Extent) (m : MergeEnt) : ∀ v : State, State.encodeEnt s e m = some v → SafeStep s v := by
  unfold State.encodeEnt
  refine SafeStep.ite1 ?_ ?_
  exact SafeStep.none1
  extract_lets +onlyGivenNames q1
  split
  extract_lets +onlyGivenNames q2
  refine SafeStep.some1 ?_
  refine SafeStep.trans ?_ (State.ueLog_safe ..)
  refine SafeStep.trans ?_ (SafeStep.modStore (fun _ => rfl) (fun _ => rfl) (fun _ => rfl))
  refine SafeStep.ite ?_ ?_
  refine SafeStep.trans ?_ (State.modSack_safe ..)
  exact SafeStep.refl _
  exact SafeStep.refl _
  split
  exact SafeStep.none1
  split
  exact SafeStep.none1
  refine SafeStep.some1 ?_
  refine SafeStep.trans ?_ (State.dropT0_safe ..)
  refine SafeStep.trans ?_ (State.freeMirror_safe ..)
  refine SafeStep.trans ?_ (State.land_safe ..)
  refine SafeStep.trans ?_ (State.encode_safe _ _ _ _ _ _ (by assumption))
  refine SafeStep.trans ?_ (SafeStep.modStore (fun _ => rfl) (fun _ => rfl) (fun _ => rfl))
  refine SafeStep.trans ?_ (State.landing_safe _ _ _ _ (by assumption))
  refine SafeStep.ite ?_ ?_
  refine SafeStep.trans ?_ (State.modSack_safe ..)
  exact SafeStep.refl _
  exact SafeStep.refl _

theorem State.startWriteback_safe (s : State) (sack : Nat) (evict : Bool) (eid : Nat) : SafeStep s (State.startWriteback s sack evict eid) := by
  unfold State.startWriteback
  extract_lets +onlyGivenNames q1
  extract_lets +onlyGivenNames q2
  refine SafeStep.trans ?_ (State.addXfer_safe ..)
  refine SafeStep.trans ?_ (State.setSack_safe ..)
  exact SafeStep.refl _

theorem State.undoSpec_safe (s : State) (sack : Nat) : SafeStep s (State.undoSpec s sack) := by
  unfold State.undoSpec
  extract_lets +onlyGivenNames q1
  refine SafeStep.ite ?_ ?_
  extract_lets +onlyGivenNames q2
  refine SafeStep.trans ?_ (State.modMrc_safe ..)
  refine SafeStep.trans ?_ (State.endXfer_safe ..)
  refine SafeStep.trans ?_ (State.toDeep_safe ..)
  exact SafeStep.refl _
  exact SafeStep.refl _

theorem State.evictSack_safe (s : State) (sack : Nat) : SafeStep s (State.evictSack s sack) := by
  unfold State.evictSack
  extract_lets +onlyGivenNames q1
  split
  refine SafeStep.trans ?_ (State.undoSpec_safe ..)
  exact SafeStep.refl _
  refine SafeStep.trans ?_ (SafeStep.modStore (fun _ => rfl) (fun _ => rfl) (fun _ => rfl))
  refine SafeStep.trans ?_ (State.modSack_safe ..)
  exact SafeStep.refl _
  refine SafeStep.trans ?_ (State.startWriteback_safe ..)
  exact SafeStep.refl _
  exact SafeStep.refl _

theorem State.scanStep_safe (s : State) (stack : Nat) (r : Nat × Bool) : SafeStep s (State.scanStep s stack r) := by
  unfold State.scanStep
  extract_lets +onlyGivenNames q1
  extract_lets +onlyGivenNames q2
  refine SafeStep.trans ?_ (State.modStack_safe ..)
  refine SafeStep.ite ?_ ?_
  refine SafeStep.trans ?_ (State.modSack_safe ..)
  exact SafeStep.refl _
  refine SafeStep.trans ?_ (State.evictSack_safe ..)
  exact SafeStep.refl _

theorem State.evictUntil_safe (s : State) (stack goal : Nat) (y0 : Nat) : SafeStep s (State.evictUntil s stack goal y0) := by
  induction y0 generalizing s with
  | zero =>
    unfold State.evictUntil
    exact SafeStep.refl _
  | succ n ih =>
    unfold State.evictUntil
    refine SafeStep.ite ?_ ?_
    exact SafeStep.refl _
    split
    exact SafeStep.refl _
    refine SafeStep.trans ?_ (ih ..)
    refine SafeStep.trans ?_ (State.scanStep_safe ..)
    exact SafeStep.refl _

theorem State.mirrorPressure_safe (s : State) : SafeStep s (State.mirrorPressure s) := by
  unfold State.mirrorPressure
  refine SafeStep.ite ?_ ?_
  exact SafeStep.refl _
  refine SafeStep.foldl ?_ (fun s x => ?_)
  exact SafeStep.refl _
  refine SafeStep.ite ?_ ?_
  refine SafeStep.trans ?_ (State.startWriteback_safe ..)
  exact SafeStep.refl _
  exact SafeStep.refl _

theorem State.install_safe (s : State) (sack : Nat) : SafeStep s (State.install s sack) := by
  unfold State.install
  refine SafeStep.trans ?_ (State.modSack_safe ..)
  exact SafeStep.refl _

theorem State.modEntry_safe (s : State) (w i : Nat) (f : SEntry → SEntry) : SafeStep s (State.modEntry s w i f) := by
  unfold State.modEntry
  refine SafeStep.trans ?_ (State.modWheel_safe ..)
  exact SafeStep.refl _

theorem State.t0Room_safe (s : State) (die need : Nat) (y0 : Nat) : SafeStep s (State.t0Room s die need y0) := by
  induction y0 generalizing s with
  | zero =>
    unfold State.t0Room
    exact SafeStep.refl _
  | succ n ih =>
    unfold State.t0Room
    refine SafeStep.ite ?_ ?_
    exact SafeStep.refl _
    split
    exact SafeStep.refl _
    refine SafeStep.trans ?_ (ih ..)
    refine SafeStep.trans ?_ (SafeStep.modStore (fun _ => rfl) (fun _ => rfl) (fun _ => rfl))
    exact SafeStep.refl _

theorem State.stageT0_safe (s : State) (sack die w : Nat) : SafeStep s (State.stageT0 s sack die w) := by
  unfold State.stageT0
  refine SafeStep.ite ?_ ?_
  exact SafeStep.refl _
  extract_lets +onlyGivenNames q1
  extract_lets +onlyGivenNames q2
  extract_lets +onlyGivenNames q3
  refine SafeStep.ite ?_ ?_
  refine SafeStep.trans ?_ (SafeStep.modStore (fun _ => rfl) (fun _ => rfl) (fun _ => rfl))
  refine SafeStep.trans ?_ (State.t0Room_safe ..)
  refine SafeStep.trans ?_ (SafeStep.modStore (fun _ => rfl) (fun _ => rfl) (fun _ => rfl))
  exact SafeStep.refl _
  refine SafeStep.trans ?_ (State.t0Room_safe ..)
  refine SafeStep.trans ?_ (SafeStep.modStore (fun _ => rfl) (fun _ => rfl) (fun _ => rfl))
  exact SafeStep.refl _

theorem State.joinXfer_safe (s : State) (sack : Nat) (want : Nat × Option Nat) : SafeStep s (State.joinXfer s sack want) := by
  unfold State.joinXfer
  refine SafeStep.trans ?_ (SafeStep.modStore (fun _ => rfl) (fun _ => rfl) (fun _ => rfl))
  exact SafeStep.refl _

theorem State.fetchSack_safe (s : State) (w : Nat) (x : Extent) (sack : Nat) (e : SEntry) (cls : Nat) : SafeStep s (State.fetchSack s w x sack e cls).2 := by
  unfold State.fetchSack
  extract_lets +onlyGivenNames q1
  extract_lets +onlyGivenNames q2
  split
  dsimp only
  refine SafeStep.trans ?_ (State.promoteFor_safe ..)
  refine SafeStep.trans ?_ (State.addHold_safe ..)
  exact SafeStep.refl _
  dsimp only
  refine SafeStep.trans ?_ (State.joinXfer_safe ..)
  refine SafeStep.trans ?_ (State.addHold_safe ..)
  exact SafeStep.refl _
  dsimp only
  refine SafeStep.trans ?_ (State.joinXfer_safe ..)
  refine SafeStep.trans ?_ (State.addHold_safe ..)
  exact SafeStep.refl _
  dsimp only
  refine SafeStep.trans ?_ (State.addHold_safe ..)
  exact SafeStep.refl _
  dsimp only
  refine SafeStep.trans ?_ (State.addHold_safe ..)
  exact SafeStep.refl _
  dsimp only
  refine SafeStep.ite ?_ ?_
  refine SafeStep.trans ?_ (State.stageT0_safe ..)
  refine SafeStep.trans ?_ (State.addHold_safe ..)
  exact SafeStep.refl _
  refine SafeStep.trans ?_ (State.addHold_safe ..)
  exact SafeStep.refl _

theorem State.fetchAll_safe (s : State) (w : Nat) (e : SEntry) (cls : Nat) (y0 : List (Extent × Nat)) (y1 : List Nat) : SafeStep s (State.fetchAll s w e cls y0 y1).1 := by
  induction y0 generalizing s y1 with
  | nil =>
    unfold State.fetchAll
    exact SafeStep.refl _
  | cons c l ih =>
    unfold State.fetchAll
    split
    refine SafeStep.trans ?_ (ih ..)
    refine SafeStep.snd (by assumption) ?_
    refine SafeStep.trans ?_ (State.fetchSack_safe ..)
    exact SafeStep.refl _

theorem State.specSack_safe (s : State) (w : Nat) (x : Extent) (sack : Nat) (e : SEntry) : ∀ v : Bool × State, State.specSack s w x sack e = some v → SafeStep s v.2 := by
  unfold State.specSack
  extract_lets +onlyGivenNames q1
  split
  refine SafeStep.optIte ?_ ?_
  split
  refine SafeStep.optSome ?_
  dsimp only
  refine SafeStep.trans ?_ (State.modMrc_safe ..)
  refine SafeStep.snd (by assumption) ?_
  refine SafeStep.trans ?_ (State.promoteFor_safe ..)
  exact SafeStep.refl _
  exact SafeStep.optNone
  exact SafeStep.optNone
  refine SafeStep.optSome ?_
  exact SafeStep.refl _
  refine SafeStep.optSome ?_
  exact SafeStep.refl _
  extract_lets +onlyGivenNames q2
  refine SafeStep.optSome ?_
  dsimp only
  refine SafeStep.trans ?_ (State.modMrc_safe ..)
  refine SafeStep.ite ?_ ?_
  refine SafeStep.trans ?_ (State.stageT0_safe ..)
  exact SafeStep.refl _
  exact SafeStep.refl _

theorem State.specAll_safe (s : State) (w : Nat) (e : SEntry) (y0 : List (Extent × Nat)) (y1 : List Nat) : ∀ v : State × List Nat, State.specAll s w e y0 y1 = some v → SafeStep s v.1 := by
  induction y0 generalizing s y1 with
  | nil =>
    unfold State.specAll
    refine SafeStep.optSome1 ?_
    exact SafeStep.refl _
  | cons c l ih =>
    unfold State.specAll
    split
    refine fun v hv => SafeStep.trans ?_ (ih _ _ _ hv)
    refine SafeStep.trans ?_ (State.specSack_safe _ _ _ _ _ _ (by assumption))
    exact SafeStep.refl _
    exact SafeStep.optNone1

theorem State.countSkips_safe (s : State) (w : Nat) (e : SEntry) : SafeStep s (State.countSkips s w e) := by
  unfold State.countSkips
  extract_lets +onlyGivenNames q1
  refine SafeStep.ite ?_ ?_
  exact SafeStep.refl _
  refine SafeStep.trans ?_ (State.modWheel_safe ..)
  exact SafeStep.refl _

theorem State.releaseCold_safe (s : State) (w : Nat) (e : SEntry) : SafeStep s (s.releaseCold w e).1 := by
  unfold State.releaseCold
  extract_lets ld sacks cls ok
  split
  · rename_i v wait h
    dsimp only
    refine SafeStep.trans ?_ (State.countSkips_safe ..)
    split at h
    · exact State.specAll_safe _ _ _ _ _ _ h
    · cases h
  · exact State.modMrc_safe ..

theorem State.release_safe (s : State) (w i n cls : Nat) (spec : Bool) : SafeStep s (State.release s w i n cls spec) := by
  unfold State.release
  split
  exact SafeStep.refl _
  extract_lets +onlyGivenNames q1
  extract_lets +onlyGivenNames q2
  refine SafeStep.ite ?_ ?_
  refine SafeStep.ite ?_ ?_
  split
  refine SafeStep.trans ?_ (State.modEntry_safe ..)
  refine SafeStep.fst (by assumption) ?_
  refine SafeStep.trans ?_ (State.releaseCold_safe ..)
  exact SafeStep.refl _
  split
  refine SafeStep.trans ?_ (State.modEntry_safe ..)
  refine SafeStep.fst (by assumption) ?_
  refine SafeStep.trans ?_ (State.fetchAll_safe ..)
  refine SafeStep.trans ?_ (State.countSkips_safe ..)
  exact SafeStep.refl _
  extract_lets +onlyGivenNames q3
  refine SafeStep.trans ?_ (State.modEntry_safe ..)
  refine SafeStep.ite ?_ ?_
  refine SafeStep.foldl ?_ (fun s x => ?_)
  refine SafeStep.trans ?_ (State.countSkips_safe ..)
  exact SafeStep.refl _
  refine SafeStep.ite ?_ ?_
  refine SafeStep.trans ?_ (State.addHold_safe ..)
  exact SafeStep.refl _
  exact SafeStep.refl _
  exact SafeStep.refl _

theorem State.releaseDue_safe (s : State) (w cls : Nat) (pick : SEntry → Option Nat) : SafeStep s (State.releaseDue s w cls pick) := by
  unfold State.releaseDue
  split
  extract_lets +onlyGivenNames q1
  refine SafeStep.foldl ?_ (fun s x => ?_)
  refine SafeStep.foldl ?_ (fun s x => ?_)
  exact SafeStep.refl _
  refine SafeStep.trans ?_ (State.release_safe ..)
  exact SafeStep.refl _
  refine SafeStep.trans ?_ (State.release_safe ..)
  exact SafeStep.refl _

theorem State.shiftHist_safe (s : State) (w lo hi : Nat) : SafeStep s (State.shiftHist s w lo hi) := by
  unfold State.shiftHist
  refine SafeStep.trans ?_ (State.modWheel_safe ..)
  exact SafeStep.refl _

theorem State.leave_safe (s : State) (w lo hi : Nat) (rel : Bool) : SafeStep s (State.leave s w lo hi rel) := by
  unfold State.leave
  extract_lets +onlyGivenNames q1
  extract_lets +onlyGivenNames q2
  extract_lets +onlyGivenNames q3
  extract_lets +onlyGivenNames q4
  extract_lets +onlyGivenNames q5
  extract_lets +onlyGivenNames q6
  extract_lets +onlyGivenNames q7
  extract_lets +onlyGivenNames q8
  extract_lets +onlyGivenNames q9
  extract_lets +onlyGivenNames q10
  extract_lets +onlyGivenNames q11
  refine SafeStep.trans ?_ (State.modWheel_safe ..)
  refine SafeStep.foldl ?_ (fun s x => ?_)
  refine SafeStep.trans ?_ (State.dropHolds_safe ..)
  exact SafeStep.refl _
  refine SafeStep.ite ?_ ?_
  refine SafeStep.trans ?_ (State.undoSpec_safe ..)
  exact SafeStep.refl _
  exact SafeStep.refl _

theorem State.undoWheel_safe (s : State) (w : Nat) : SafeStep s (State.undoWheel s w) := by
  unfold State.undoWheel
  refine SafeStep.foldl ?_ (fun s x => ?_)
  exact SafeStep.refl _
  refine SafeStep.trans ?_ (State.undoSpec_safe ..)
  exact SafeStep.refl _

theorem State.cancelWheel_safe (s : State) (w : Nat) (keep : Nat → Bool) : SafeStep s (State.cancelWheel s w keep) := by
  unfold State.cancelWheel
  refine SafeStep.trans ?_ (State.cancelWants_safe ..)
  exact SafeStep.refl _

theorem State.rephaseAt_safe (s : State) (w k : Nat) : SafeStep s (State.rephaseAt s w k) := by
  unfold State.rephaseAt
  extract_lets +onlyGivenNames q1
  extract_lets +onlyGivenNames q2
  extract_lets +onlyGivenNames q3
  extract_lets +onlyGivenNames q4
  extract_lets +onlyGivenNames q5
  extract_lets +onlyGivenNames q6
  extract_lets +onlyGivenNames q7
  extract_lets +onlyGivenNames q8
  refine SafeStep.trans ?_ (State.post_safe ..)
  refine SafeStep.ite ?_ ?_
  refine SafeStep.trans ?_ (State.undoWheel_safe ..)
  refine SafeStep.trans ?_ (State.modWheel_safe ..)
  refine SafeStep.trans ?_ (State.cancelWheel_safe ..)
  exact SafeStep.refl _
  refine SafeStep.trans ?_ (State.releaseDue_safe ..)
  refine SafeStep.trans ?_ (State.undoWheel_safe ..)
  refine SafeStep.trans ?_ (State.modWheel_safe ..)
  refine SafeStep.trans ?_ (State.cancelWheel_safe ..)
  exact SafeStep.refl _

theorem State.moveTo_safe (s : State) (w k : Nat) : SafeStep s (State.moveTo s w k) := by
  unfold State.moveTo
  refine SafeStep.trans ?_ (State.modWheel_safe ..)
  exact SafeStep.refl _

theorem State.addEntries_safe (s : State) (w : Nat) (es : List SEntry) : SafeStep s (State.addEntries s w es) := by
  unfold State.addEntries
  extract_lets +onlyGivenNames q1
  extract_lets +onlyGivenNames q2
  refine SafeStep.trans ?_ (State.modWheel_safe ..)
  exact SafeStep.refl _

theorem State.surveyLayer_safe (s : State) (w layer : Nat) : SafeStep s (State.surveyLayer s w layer) := by
  unfold State.surveyLayer
  extract_lets +onlyGivenNames q1
  refine SafeStep.trans ?_ (State.modWheel_safe ..)
  refine SafeStep.trans ?_ (State.addEntries_safe ..)
  exact SafeStep.refl _

theorem State.surveyEnd_safe (s : State) (w : Nat) (discard : Bool) : SafeStep s (State.surveyEnd s w discard) := by
  unfold State.surveyEnd
  extract_lets +onlyGivenNames q1
  refine SafeStep.trans ?_ (State.modWheel_safe ..)
  refine SafeStep.ite ?_ ?_
  exact SafeStep.refl _
  refine SafeStep.foldl ?_ (fun s x => ?_)
  exact SafeStep.refl _
  refine SafeStep.trans ?_ (State.surveyLayer_safe ..)
  exact SafeStep.refl _

theorem State.layerZero_safe (s : State) (w : Nat) : SafeStep s (State.layerZero s w) := by
  unfold State.layerZero
  extract_lets +onlyGivenNames q1
  extract_lets +onlyGivenNames q2
  extract_lets +onlyGivenNames q3
  extract_lets +onlyGivenNames q4
  refine SafeStep.ite ?_ ?_
  refine SafeStep.trans ?_ (State.modWheel_safe ..)
  refine SafeStep.ite ?_ ?_
  refine SafeStep.trans ?_ (State.surveyEnd_safe ..)
  refine SafeStep.ite ?_ ?_
  refine SafeStep.trans ?_ (State.latchWindow_safe ..)
  exact SafeStep.refl _
  exact SafeStep.refl _
  refine SafeStep.ite ?_ ?_
  refine SafeStep.trans ?_ (State.latchWindow_safe ..)
  exact SafeStep.refl _
  exact SafeStep.refl _
  extract_lets +onlyGivenNames q5
  refine SafeStep.trans ?_ (State.modWheel_safe ..)
  refine SafeStep.trans ?_ (State.addEntries_safe ..)
  refine SafeStep.trans ?_ (State.modWheel_safe ..)
  refine SafeStep.ite ?_ ?_
  refine SafeStep.trans ?_ (State.surveyEnd_safe ..)
  refine SafeStep.ite ?_ ?_
  refine SafeStep.trans ?_ (State.latchWindow_safe ..)
  exact SafeStep.refl _
  exact SafeStep.refl _
  refine SafeStep.ite ?_ ?_
  refine SafeStep.trans ?_ (State.latchWindow_safe ..)
  exact SafeStep.refl _
  exact SafeStep.refl _

theorem State.markSlot_safe (s : State) (w lo hi : Nat) : SafeStep s (State.markSlot s w lo hi) := by
  unfold State.markSlot
  with_reducible refine SafeStep.trans ?_ (SafeStep.fields rfl rfl rfl rfl)
  exact SafeStep.refl _

theorem State.enterSlot_safe (s : State) (w k : Nat) : SafeStep s (State.enterSlot s w k) := by
  unfold State.enterSlot
  extract_lets +onlyGivenNames q1
  extract_lets +onlyGivenNames q2
  extract_lets +onlyGivenNames q3
  extract_lets +onlyGivenNames q4
  refine SafeStep.ite ?_ ?_
  extract_lets +onlyGivenNames q5
  extract_lets +onlyGivenNames q6
  refine SafeStep.trans ?_ (State.leave_safe ..)
  refine SafeStep.trans ?_ (State.releaseDue_safe ..)
  refine SafeStep.trans ?_ (State.surveyLayer_safe ..)
  refine SafeStep.ite ?_ ?_
  refine SafeStep.trans ?_ (State.surveyEnd_safe ..)
  refine SafeStep.trans ?_ (State.shiftHist_safe ..)
  refine SafeStep.trans ?_ (State.moveTo_safe ..)
  exact SafeStep.refl _
  refine SafeStep.trans ?_ (State.shiftHist_safe ..)
  refine SafeStep.trans ?_ (State.moveTo_safe ..)
  exact SafeStep.refl _
  extract_lets +onlyGivenNames q7
  extract_lets +onlyGivenNames q8
  extract_lets +onlyGivenNames q9
  extract_lets +onlyGivenNames q10
  refine SafeStep.ite ?_ ?_
  refine SafeStep.trans ?_ (State.leave_safe ..)
  refine SafeStep.trans ?_ (State.rephaseAt_safe ..)
  refine SafeStep.ite ?_ ?_
  refine SafeStep.trans ?_ (State.layerZero_safe ..)
  refine SafeStep.trans ?_ (State.modWheel_safe ..)
  refine SafeStep.ite ?_ ?_
  refine SafeStep.trans ?_ (State.surveyEnd_safe ..)
  refine SafeStep.trans ?_ (State.shiftHist_safe ..)
  refine SafeStep.trans ?_ (State.moveTo_safe ..)
  exact SafeStep.refl _
  refine SafeStep.trans ?_ (State.shiftHist_safe ..)
  refine SafeStep.trans ?_ (State.moveTo_safe ..)
  exact SafeStep.refl _
  refine SafeStep.trans ?_ (State.modWheel_safe ..)
  refine SafeStep.ite ?_ ?_
  refine SafeStep.trans ?_ (State.surveyEnd_safe ..)
  refine SafeStep.trans ?_ (State.shiftHist_safe ..)
  refine SafeStep.trans ?_ (State.moveTo_safe ..)
  exact SafeStep.refl _
  refine SafeStep.trans ?_ (State.shiftHist_safe ..)
  refine SafeStep.trans ?_ (State.moveTo_safe ..)
  exact SafeStep.refl _
  refine SafeStep.trans ?_ (State.leave_safe ..)
  refine SafeStep.trans ?_ (State.releaseDue_safe ..)
  refine SafeStep.ite ?_ ?_
  refine SafeStep.trans ?_ (State.layerZero_safe ..)
  refine SafeStep.trans ?_ (State.modWheel_safe ..)
  refine SafeStep.ite ?_ ?_
  refine SafeStep.trans ?_ (State.surveyEnd_safe ..)
  refine SafeStep.trans ?_ (State.shiftHist_safe ..)
  refine SafeStep.trans ?_ (State.moveTo_safe ..)
  exact SafeStep.refl _
  refine SafeStep.trans ?_ (State.shiftHist_safe ..)
  refine SafeStep.trans ?_ (State.moveTo_safe ..)
  exact SafeStep.refl _
  refine SafeStep.trans ?_ (State.modWheel_safe ..)
  refine SafeStep.ite ?_ ?_
  refine SafeStep.trans ?_ (State.surveyEnd_safe ..)
  refine SafeStep.trans ?_ (State.shiftHist_safe ..)
  refine SafeStep.trans ?_ (State.moveTo_safe ..)
  exact SafeStep.refl _
  refine SafeStep.trans ?_ (State.shiftHist_safe ..)
  refine SafeStep.trans ?_ (State.moveTo_safe ..)
  exact SafeStep.refl _

theorem State.enterSlots_safe (s : State) (w : Nat) (y0 : Nat) (y1 : Nat) : SafeStep s (State.enterSlots s w y0 y1) := by
  induction y0 generalizing s y1 with
  | zero =>
    unfold State.enterSlots
    exact SafeStep.refl _
  | succ n ih =>
    unfold State.enterSlots
    refine SafeStep.trans ?_ (ih ..)
    refine SafeStep.trans ?_ (State.enterSlot_safe ..)
    exact SafeStep.refl _

theorem State.firstPos_safe (s : State) (w k : Nat) : SafeStep s (State.firstPos s w k) := by
  unfold State.firstPos
  extract_lets +onlyGivenNames q1
  extract_lets +onlyGivenNames q2
  extract_lets +onlyGivenNames q3
  refine SafeStep.ite ?_ ?_
  refine SafeStep.trans ?_ (State.releaseDue_safe ..)
  refine SafeStep.trans ?_ (State.layerZero_safe ..)
  refine SafeStep.trans ?_ (State.modWheel_safe ..)
  exact SafeStep.refl _
  refine SafeStep.trans ?_ (State.layerZero_safe ..)
  refine SafeStep.trans ?_ (State.modWheel_safe ..)
  exact SafeStep.refl _

theorem State.resume_safe (s : State) (w k : Nat) : SafeStep s (State.resume s w k) := by
  unfold State.resume
  extract_lets +onlyGivenNames q1
  extract_lets +onlyGivenNames q2
  extract_lets +onlyGivenNames q3
  extract_lets +onlyGivenNames q4
  extract_lets +onlyGivenNames q5
  extract_lets +onlyGivenNames q6
  refine SafeStep.ite ?_ ?_
  refine SafeStep.trans ?_ (State.leave_safe ..)
  refine SafeStep.trans ?_ (State.rephaseAt_safe ..)
  refine SafeStep.ite ?_ ?_
  refine SafeStep.trans ?_ (State.surveyLayer_safe ..)
  refine SafeStep.trans ?_ (State.modWheel_safe ..)
  refine SafeStep.ite ?_ ?_
  refine SafeStep.trans ?_ (State.surveyEnd_safe ..)
  refine SafeStep.ite ?_ ?_
  refine SafeStep.trans ?_ (State.layerZero_safe ..)
  refine SafeStep.trans ?_ (State.shiftHist_safe ..)
  refine SafeStep.trans ?_ (State.moveTo_safe ..)
  exact SafeStep.refl _
  refine SafeStep.trans ?_ (State.shiftHist_safe ..)
  refine SafeStep.trans ?_ (State.moveTo_safe ..)
  exact SafeStep.refl _
  refine SafeStep.ite ?_ ?_
  refine SafeStep.trans ?_ (State.layerZero_safe ..)
  refine SafeStep.trans ?_ (State.shiftHist_safe ..)
  refine SafeStep.trans ?_ (State.moveTo_safe ..)
  exact SafeStep.refl _
  refine SafeStep.trans ?_ (State.shiftHist_safe ..)
  refine SafeStep.trans ?_ (State.moveTo_safe ..)
  exact SafeStep.refl _
  refine SafeStep.trans ?_ (State.modWheel_safe ..)
  refine SafeStep.ite ?_ ?_
  refine SafeStep.trans ?_ (State.surveyEnd_safe ..)
  refine SafeStep.ite ?_ ?_
  refine SafeStep.trans ?_ (State.layerZero_safe ..)
  refine SafeStep.trans ?_ (State.shiftHist_safe ..)
  refine SafeStep.trans ?_ (State.moveTo_safe ..)
  exact SafeStep.refl _
  refine SafeStep.trans ?_ (State.shiftHist_safe ..)
  refine SafeStep.trans ?_ (State.moveTo_safe ..)
  exact SafeStep.refl _
  refine SafeStep.ite ?_ ?_
  refine SafeStep.trans ?_ (State.layerZero_safe ..)
  refine SafeStep.trans ?_ (State.shiftHist_safe ..)
  refine SafeStep.trans ?_ (State.moveTo_safe ..)
  exact SafeStep.refl _
  refine SafeStep.trans ?_ (State.shiftHist_safe ..)
  refine SafeStep.trans ?_ (State.moveTo_safe ..)
  exact SafeStep.refl _
  refine SafeStep.trans ?_ (State.leave_safe ..)
  refine SafeStep.trans ?_ (State.releaseDue_safe ..)
  refine SafeStep.ite ?_ ?_
  refine SafeStep.trans ?_ (State.surveyLayer_safe ..)
  refine SafeStep.trans ?_ (State.modWheel_safe ..)
  refine SafeStep.ite ?_ ?_
  refine SafeStep.trans ?_ (State.surveyEnd_safe ..)
  refine SafeStep.ite ?_ ?_
  refine SafeStep.trans ?_ (State.layerZero_safe ..)
  refine SafeStep.trans ?_ (State.shiftHist_safe ..)
  refine SafeStep.trans ?_ (State.moveTo_safe ..)
  exact SafeStep.refl _
  refine SafeStep.trans ?_ (State.shiftHist_safe ..)
  refine SafeStep.trans ?_ (State.moveTo_safe ..)
  exact SafeStep.refl _
  refine SafeStep.ite ?_ ?_
  refine SafeStep.trans ?_ (State.layerZero_safe ..)
  refine SafeStep.trans ?_ (State.shiftHist_safe ..)
  refine SafeStep.trans ?_ (State.moveTo_safe ..)
  exact SafeStep.refl _
  refine SafeStep.trans ?_ (State.shiftHist_safe ..)
  refine SafeStep.trans ?_ (State.moveTo_safe ..)
  exact SafeStep.refl _
  refine SafeStep.trans ?_ (State.modWheel_safe ..)
  refine SafeStep.ite ?_ ?_
  refine SafeStep.trans ?_ (State.surveyEnd_safe ..)
  refine SafeStep.ite ?_ ?_
  refine SafeStep.trans ?_ (State.layerZero_safe ..)
  refine SafeStep.trans ?_ (State.shiftHist_safe ..)
  refine SafeStep.trans ?_ (State.moveTo_safe ..)
  exact SafeStep.refl _
  refine SafeStep.trans ?_ (State.shiftHist_safe ..)
  refine SafeStep.trans ?_ (State.moveTo_safe ..)
  exact SafeStep.refl _
  refine SafeStep.ite ?_ ?_
  refine SafeStep.trans ?_ (State.layerZero_safe ..)
  refine SafeStep.trans ?_ (State.shiftHist_safe ..)
  refine SafeStep.trans ?_ (State.moveTo_safe ..)
  exact SafeStep.refl _
  refine SafeStep.trans ?_ (State.shiftHist_safe ..)
  refine SafeStep.trans ?_ (State.moveTo_safe ..)
  exact SafeStep.refl _

theorem State.jump_safe (s : State) (w k : Nat) : SafeStep s (State.jump s w k) := by
  unfold State.jump
  extract_lets +onlyGivenNames q1
  extract_lets +onlyGivenNames q2
  extract_lets +onlyGivenNames q3
  extract_lets +onlyGivenNames q4
  refine SafeStep.trans ?_ (State.leave_safe ..)
  refine SafeStep.trans ?_ (State.rephaseAt_safe ..)
  refine SafeStep.ite ?_ ?_
  refine SafeStep.trans ?_ (State.surveyEnd_safe ..)
  refine SafeStep.ite ?_ ?_
  refine SafeStep.trans ?_ (State.layerZero_safe ..)
  refine SafeStep.trans ?_ (State.shiftHist_safe ..)
  refine SafeStep.trans ?_ (State.moveTo_safe ..)
  exact SafeStep.refl _
  refine SafeStep.trans ?_ (State.shiftHist_safe ..)
  refine SafeStep.trans ?_ (State.moveTo_safe ..)
  exact SafeStep.refl _
  refine SafeStep.ite ?_ ?_
  refine SafeStep.trans ?_ (State.layerZero_safe ..)
  refine SafeStep.trans ?_ (State.shiftHist_safe ..)
  refine SafeStep.trans ?_ (State.moveTo_safe ..)
  exact SafeStep.refl _
  refine SafeStep.trans ?_ (State.shiftHist_safe ..)
  refine SafeStep.trans ?_ (State.moveTo_safe ..)
  exact SafeStep.refl _

theorem State.badPos_safe (s : State) (w : Nat) : SafeStep s (State.badPos s w) := by
  unfold State.badPos
  refine SafeStep.trans ?_ (State.modWheel_safe ..)
  exact SafeStep.refl _

theorem State.accept_safe (s : State) (w k : Nat) : SafeStep s (State.accept s w k) := by
  unfold State.accept
  extract_lets +onlyGivenNames q1
  extract_lets +onlyGivenNames q2
  refine SafeStep.trans ?_ (State.modWheel_safe ..)
  refine SafeStep.ite ?_ ?_
  refine SafeStep.trans ?_ (State.markSlot_safe ..)
  refine SafeStep.trans ?_ (State.firstPos_safe ..)
  exact SafeStep.refl _
  refine SafeStep.ite ?_ ?_
  refine SafeStep.trans ?_ (State.markSlot_safe ..)
  refine SafeStep.trans ?_ (State.resume_safe ..)
  exact SafeStep.refl _
  refine SafeStep.ite ?_ ?_
  refine SafeStep.trans ?_ (State.markSlot_safe ..)
  refine SafeStep.trans ?_ (State.jump_safe ..)
  exact SafeStep.refl _
  refine SafeStep.trans ?_ (State.markSlot_safe ..)
  refine SafeStep.trans ?_ (State.enterSlots_safe ..)
  exact SafeStep.refl _

theorem State.position_safe (s : State) (w turn layer : Nat) (resv : Bool) : SafeStep s (State.position s w turn layer resv).2 := by
  unfold State.position
  extract_lets +onlyGivenNames q1
  extract_lets +onlyGivenNames q2
  refine SafeStep.iteP ?_ ?_
  exact SafeStep.refl _
  refine SafeStep.iteP ?_ ?_
  dsimp only
  refine SafeStep.trans ?_ (State.badPos_safe ..)
  exact SafeStep.refl _
  refine SafeStep.iteP ?_ ?_
  dsimp only
  refine SafeStep.trans ?_ (State.accept_safe ..)
  exact SafeStep.refl _
  refine SafeStep.iteP ?_ ?_
  dsimp only
  refine SafeStep.trans ?_ (State.modWheel_safe ..)
  exact SafeStep.refl _
  refine SafeStep.iteP ?_ ?_
  exact SafeStep.refl _
  dsimp only
  refine SafeStep.trans ?_ (State.accept_safe ..)
  exact SafeStep.refl _

theorem State.goPosition_safe (s : State) (w turnlo layer : Nat) : SafeStep s (State.goPosition s w turnlo layer).2 := by
  unfold State.goPosition
  extract_lets +onlyGivenNames q1
  refine SafeStep.iteP ?_ ?_
  exact SafeStep.refl _
  extract_lets +onlyGivenNames q2
  refine SafeStep.iteP ?_ ?_
  dsimp only
  refine SafeStep.trans ?_ (State.badPos_safe ..)
  exact SafeStep.refl _
  refine SafeStep.trans ?_ (State.position_safe ..)
  exact SafeStep.refl _

theorem State.arrived_safe (s : State) (sack : Nat) : SafeStep s (State.arrived s sack) := by
  unfold State.arrived
  refine SafeStep.foldl ?_ (fun s x => ?_)
  exact SafeStep.refl _
  extract_lets +onlyGivenNames q1
  extract_lets +onlyGivenNames q2
  refine SafeStep.ite ?_ ?_
  refine SafeStep.foldl ?_ (fun s x => ?_)
  exact SafeStep.refl _
  refine SafeStep.ite ?_ ?_
  refine SafeStep.trans ?_ (State.stageT0_safe ..)
  exact SafeStep.refl _
  exact SafeStep.refl _
  refine SafeStep.trans ?_ (State.modWheel_safe ..)
  refine SafeStep.foldl ?_ (fun s x => ?_)
  exact SafeStep.refl _
  refine SafeStep.ite ?_ ?_
  refine SafeStep.trans ?_ (State.stageT0_safe ..)
  exact SafeStep.refl _
  exact SafeStep.refl _

theorem State.framesFreed_safe (s : State) : SafeStep s (State.framesFreed s) := by
  unfold State.framesFreed
  refine SafeStep.trans ?_ (State.retryWrites_safe ..)
  refine SafeStep.trans ?_ (State.retryReads_safe ..)
  refine SafeStep.trans ?_ (State.retryAllocs_safe ..)
  refine SafeStep.trans ?_ (State.pumpXfers_safe ..)
  exact SafeStep.refl _

theorem State.dropWheel_safe (s : State) (w : Nat) : SafeStep s (State.dropWheel s w) := by
  unfold State.dropWheel
  refine SafeStep.trans ?_ (State.cancelWheel_safe ..)
  refine SafeStep.trans ?_ (State.undoWheel_safe ..)
  refine SafeStep.trans ?_ (State.dropHolds_safe ..)
  exact SafeStep.refl _

theorem State.restWheel_safe (s : State) (w : Nat) : SafeStep s (State.restWheel s w) := by
  unfold State.restWheel
  refine SafeStep.ite ?_ ?_
  exact SafeStep.refl _
  extract_lets +onlyGivenNames q1
  extract_lets +onlyGivenNames q2
  refine SafeStep.trans ?_ (State.modWheel_safe ..)
  refine SafeStep.trans ?_ (SafeStep.modStore (fun _ => rfl) (fun _ => rfl) (fun _ => rfl))
  refine SafeStep.trans ?_ (State.dropWheel_safe ..)
  exact SafeStep.refl _

theorem State.blockWritten_safe (s : State) (blk : Nat) : SafeStep s (State.blockWritten s blk) := by
  unfold State.blockWritten
  with_reducible refine SafeStep.trans ?_ (SafeStep.fields rfl rfl rfl rfl)
  exact SafeStep.refl _

theorem State.journal_safe (s : State) (n : Nat) : SafeStep s (State.journal s n) := by
  unfold State.journal
  with_reducible refine SafeStep.trans ?_ (SafeStep.fields rfl rfl rfl rfl)
  exact SafeStep.refl _

theorem execSackAllocJournalled_safe (t sack : Nat) (s : State) : ∀ v : State, execSackAllocJournalled t sack s = .next v → SafeStep s v := by
  unfold execSackAllocJournalled
  extract_lets +onlyGivenNames q1
  extract_lets +onlyGivenNames q2
  refine SafeStep.nxIte ?_ ?_
  extract_lets +onlyGivenNames q3
  refine SafeStep.nx ?_
  refine SafeStep.trans ?_ (State.retryHeld_safe ..)
  refine SafeStep.trans ?_ (State.journal_safe ..)
  refine SafeStep.trans ?_ (State.setSack_safe ..)
  refine SafeStep.trans ?_ (State.at__safe ..)
  exact SafeStep.refl _
  refine SafeStep.nx ?_
  refine SafeStep.trans ?_ (State.at__safe ..)
  exact SafeStep.refl _

theorem State.resumeXfer_safe (s : State) (sack : Nat) (e : Extent) : SafeStep s (State.resumeXfer s sack e) := by
  unfold State.resumeXfer
  refine SafeStep.ite ?_ ?_
  refine SafeStep.trans ?_ (State.addXfer_safe ..)
  exact SafeStep.refl _
  exact SafeStep.refl _

theorem State.restoreEntry_safe (s : State) (sack : Nat) (e : Extent) : SafeStep s (State.restoreEntry s sack e) := by
  unfold State.restoreEntry
  extract_lets +onlyGivenNames q1
  extract_lets +onlyGivenNames q2
  refine SafeStep.ite ?_ ?_
  refine SafeStep.trans ?_ (State.toDeep_safe ..)
  refine SafeStep.trans ?_ (State.setSack_safe ..)
  exact SafeStep.refl _
  refine SafeStep.trans ?_ (State.setSack_safe ..)
  exact SafeStep.refl _

theorem State.entryLost_safe (s : State) (sack : Nat) (e : Extent) : SafeStep s (State.entryLost s sack e) := by
  unfold State.entryLost
  extract_lets +onlyGivenNames q1
  extract_lets +onlyGivenNames q2
  extract_lets +onlyGivenNames q3
  refine SafeStep.trans ?_ (State.ueLog_safe ..)
  refine SafeStep.trans ?_ (State.modIntegLd_safe ..)
  refine SafeStep.trans ?_ (State.modInteg_safe ..)
  refine SafeStep.trans ?_ (State.modSack_safe ..)
  exact SafeStep.refl _

theorem execSackEntryRebuild_safe (t sack : Nat) (journalOk : Bool) (s : State) : ∀ v : State, execSackEntryRebuild t sack journalOk s = .next v → SafeStep s v := by
  unfold execSackEntryRebuild
  extract_lets +onlyGivenNames q1
  split
  refine SafeStep.nx ?_
  refine SafeStep.trans ?_ (State.at__safe ..)
  exact SafeStep.refl _
  refine SafeStep.nxIte ?_ ?_
  refine SafeStep.nx ?_
  refine SafeStep.trans ?_ (State.at__safe ..)
  exact SafeStep.refl _
  extract_lets +onlyGivenNames q2
  extract_lets +onlyGivenNames q3
  refine SafeStep.nx ?_
  refine SafeStep.trans ?_ (State.retryHeld_safe ..)
  refine SafeStep.trans ?_ (State.resumeXfer_safe ..)
  refine SafeStep.ite ?_ ?_
  refine SafeStep.trans ?_ (State.repaired_safe ..)
  refine SafeStep.trans ?_ (SafeStep.modStore (fun _ => rfl) (fun _ => rfl) (fun _ => rfl))
  refine SafeStep.trans ?_ (State.restoreEntry_safe ..)
  refine SafeStep.trans ?_ (State.at__safe ..)
  exact SafeStep.refl _
  refine SafeStep.trans ?_ (State.entryLost_safe ..)
  refine SafeStep.trans ?_ (SafeStep.modStore (fun _ => rfl) (fun _ => rfl) (fun _ => rfl))
  refine SafeStep.trans ?_ (State.restoreEntry_safe ..)
  refine SafeStep.trans ?_ (State.at__safe ..)
  exact SafeStep.refl _

theorem execMergeIdleFlush_safe (t blk : Nat) (s : State) : ∀ v : State, execMergeIdleFlush t blk s = .next v → SafeStep s v := by
  unfold execMergeIdleFlush
  extract_lets +onlyGivenNames q1
  split
  refine SafeStep.nxIte ?_ ?_
  refine SafeStep.nx ?_
  refine SafeStep.trans ?_ (SafeStep.modStore (fun _ => rfl) (fun _ => rfl) (fun _ => rfl))
  refine SafeStep.trans ?_ (State.passEnt_safe ..)
  refine SafeStep.trans ?_ (State.at__safe ..)
  exact SafeStep.refl _
  refine SafeStep.nx ?_
  refine SafeStep.trans ?_ (State.at__safe ..)
  exact SafeStep.refl _
  refine SafeStep.nx ?_
  refine SafeStep.trans ?_ (State.at__safe ..)
  exact SafeStep.refl _

theorem State.returnStageOf_safe (s : State) (e : Extent) : SafeStep s (State.returnStageOf s e) := by
  unfold State.returnStageOf
  refine SafeStep.ite ?_ ?_
  refine SafeStep.trans ?_ (State.modExt_safe ..)
  exact SafeStep.refl _
  exact SafeStep.refl _

theorem State.afterEncode_safe (s : State) (blk : Nat) : SafeStep s (State.afterEncode s blk) := by
  unfold State.afterEncode
  extract_lets +onlyGivenNames q1
  extract_lets +onlyGivenNames q2
  refine SafeStep.trans ?_ (State.retryWrites_safe ..)
  refine SafeStep.trans ?_ (State.retryReads_safe ..)
  refine SafeStep.trans ?_ (State.mirrorPressure_safe ..)
  refine SafeStep.trans ?_ (State.blockWritten_safe ..)
  unfold q1
  split
  refine SafeStep.ite ?_ ?_
  refine SafeStep.trans ?_ (State.returnStageOf_safe ..)
  exact SafeStep.refl _
  exact SafeStep.refl _
  exact SafeStep.refl _

theorem State.encodeWait_safe (s : State) (e : Extent) (m : MergeEnt) : SafeStep s (State.encodeWait s e m) := by
  unfold State.encodeWait
  refine SafeStep.ite ?_ ?_
  refine SafeStep.trans ?_ (State.rmwRead_safe ..)
  exact SafeStep.refl _
  refine SafeStep.ite ?_ ?_
  refine SafeStep.trans ?_ (State.promote_safe ..)
  exact SafeStep.refl _
  refine SafeStep.ite ?_ ?_
  refine SafeStep.trans ?_ (State.wakeStack_safe ..)
  exact SafeStep.refl _
  exact SafeStep.refl _

theorem execEncoderWriteDone_safe (t blk : Nat) (s : State) : ∀ v : State, execEncoderWriteDone t blk s = .next v → SafeStep s v := by
  unfold execEncoderWriteDone
  extract_lets +onlyGivenNames q1
  split
  refine SafeStep.nxIte ?_ ?_
  refine SafeStep.nx ?_
  refine SafeStep.trans ?_ (State.at__safe ..)
  exact SafeStep.refl _
  split
  split
  refine SafeStep.nx ?_
  refine SafeStep.trans ?_ (State.afterEncode_safe ..)
  refine SafeStep.trans ?_ (State.encodeEnt_safe _ _ _ _ (by assumption))
  refine SafeStep.trans ?_ (State.at__safe ..)
  exact SafeStep.refl _
  refine SafeStep.nx ?_
  refine SafeStep.trans ?_ (State.encodeWait_safe ..)
  refine SafeStep.trans ?_ (State.at__safe ..)
  exact SafeStep.refl _
  refine SafeStep.nx ?_
  refine SafeStep.trans ?_ (SafeStep.modStore (fun _ => rfl) (fun _ => rfl) (fun _ => rfl))
  refine SafeStep.trans ?_ (State.at__safe ..)
  exact SafeStep.refl _
  refine SafeStep.nx ?_
  refine SafeStep.trans ?_ (State.at__safe ..)
  exact SafeStep.refl _

theorem execMirrorRecordFreed_safe (t blk : Nat) (s : State) : ∀ v : State, execMirrorRecordFreed t blk s = .next v → SafeStep s v := by
  unfold execMirrorRecordFreed
  extract_lets +onlyGivenNames q1
  refine SafeStep.nxIte ?_ ?_
  refine SafeStep.nx ?_
  refine SafeStep.trans ?_ (State.retryWrites_safe ..)
  refine SafeStep.trans ?_ (State.freeMirror_safe ..)
  refine SafeStep.trans ?_ (State.at__safe ..)
  exact SafeStep.refl _
  refine SafeStep.nx ?_
  refine SafeStep.trans ?_ (State.freeMirror_safe ..)
  refine SafeStep.trans ?_ (State.at__safe ..)
  exact SafeStep.refl _

theorem execPromotionComplete_safe (t sack : Nat) (s : State) : ∀ v : State, execPromotionComplete t sack s = .next v → SafeStep s v := by
  unfold execPromotionComplete
  extract_lets +onlyGivenNames q1
  extract_lets +onlyGivenNames q2
  split
  refine SafeStep.nxIte ?_ ?_
  extract_lets +onlyGivenNames q3
  extract_lets +onlyGivenNames q4
  extract_lets +onlyGivenNames q5
  extract_lets +onlyGivenNames q6
  refine SafeStep.nx ?_
  refine SafeStep.trans ?_ (State.retryWrites_safe ..)
  refine SafeStep.trans ?_ (State.cacheTrim_safe ..)
  refine SafeStep.trans ?_ (State.arrived_safe ..)
  refine SafeStep.trans ?_ (State.endXfer_safe ..)
  refine SafeStep.trans ?_ (State.retryReads_safe ..)
  refine SafeStep.trans ?_ (SafeStep.modStore (fun _ => rfl) (fun _ => rfl) (fun _ => rfl))
  refine SafeStep.trans ?_ (State.install_safe ..)
  refine SafeStep.trans ?_ (State.at__safe ..)
  exact SafeStep.refl _
  refine SafeStep.nx ?_
  refine SafeStep.trans ?_ (State.at__safe ..)
  exact SafeStep.refl _
  refine SafeStep.nx ?_
  refine SafeStep.trans ?_ (State.at__safe ..)
  exact SafeStep.refl _

theorem execVictimScan_safe (t stack : Nat) (s : State) : ∀ v : State, execVictimScan t stack s = .next v → SafeStep s v := by
  unfold execVictimScan
  extract_lets +onlyGivenNames q1
  refine SafeStep.nxIte ?_ ?_
  refine SafeStep.nx ?_
  refine SafeStep.trans ?_ (State.framesFreed_safe ..)
  refine SafeStep.trans ?_ (State.evictUntil_safe ..)
  refine SafeStep.trans ?_ (State.at__safe ..)
  exact SafeStep.refl _
  refine SafeStep.nx ?_
  refine SafeStep.trans ?_ (State.at__safe ..)
  exact SafeStep.refl _

theorem execDemotionDrained_safe (t sack : Nat) (s : State) : ∀ v : State, execDemotionDrained t sack s = .next v → SafeStep s v := by
  unfold execDemotionDrained
  extract_lets +onlyGivenNames q1
  refine SafeStep.nxIte ?_ ?_
  refine SafeStep.nx ?_
  refine SafeStep.trans ?_ (State.framesFreed_safe ..)
  refine SafeStep.trans ?_ (State.journal_safe ..)
  refine SafeStep.trans ?_ (State.toDeep_safe ..)
  refine SafeStep.trans ?_ (State.at__safe ..)
  exact SafeStep.refl _
  refine SafeStep.nx ?_
  refine SafeStep.trans ?_ (State.at__safe ..)
  exact SafeStep.refl _

theorem State.writebackDone_safe (s : State) (sack : Nat) : SafeStep s (State.writebackDone s sack) := by
  unfold State.writebackDone
  extract_lets +onlyGivenNames q1
  extract_lets +onlyGivenNames q2
  extract_lets +onlyGivenNames q3
  extract_lets +onlyGivenNames q4
  extract_lets +onlyGivenNames q5
  extract_lets +onlyGivenNames q6
  extract_lets +onlyGivenNames q7
  refine SafeStep.trans ?_ (State.endXfer_safe ..)
  refine SafeStep.foldl ?_ (fun s x => ?_)
  refine SafeStep.trans ?_ (State.modSack_safe ..)
  refine SafeStep.trans ?_ (State.programBlocks_safe ..)
  exact SafeStep.refl _
  refine SafeStep.trans ?_ (State.wtDone_safe ..)
  refine SafeStep.trans ?_ (State.freeMirror_safe ..)
  exact SafeStep.refl _

theorem execWritebackComplete_safe (t sack : Nat) (s : State) : ∀ v : State, execWritebackComplete t sack s = .next v → SafeStep s v := by
  unfold execWritebackComplete
  extract_lets +onlyGivenNames q1
  split
  refine SafeStep.nxIte ?_ ?_
  refine SafeStep.nxIte ?_ ?_
  refine SafeStep.nx ?_
  refine SafeStep.trans ?_ (State.retryWrites_safe ..)
  refine SafeStep.trans ?_ (State.framesFreed_safe ..)
  refine SafeStep.trans ?_ (State.writebackDone_safe ..)
  refine SafeStep.trans ?_ (State.at__safe ..)
  exact SafeStep.refl _
  refine SafeStep.nx ?_
  refine SafeStep.trans ?_ (State.putXfer_safe ..)
  refine SafeStep.trans ?_ (State.at__safe ..)
  exact SafeStep.refl _
  refine SafeStep.nx ?_
  refine SafeStep.trans ?_ (State.at__safe ..)
  exact SafeStep.refl _
  refine SafeStep.nx ?_
  refine SafeStep.trans ?_ (State.at__safe ..)
  exact SafeStep.refl _

theorem execDurableDirtyTimeout_safe (t blk : Nat) (s : State) : ∀ v : State, execDurableDirtyTimeout t blk s = .next v → SafeStep s v := by
  unfold execDurableDirtyTimeout
  extract_lets +onlyGivenNames q1
  extract_lets +onlyGivenNames q2
  extract_lets +onlyGivenNames q3
  refine SafeStep.nxIte ?_ ?_
  refine SafeStep.nx ?_
  refine SafeStep.trans ?_ (State.startWriteback_safe ..)
  refine SafeStep.trans ?_ (State.at__safe ..)
  exact SafeStep.refl _
  refine SafeStep.nx ?_
  refine SafeStep.trans ?_ (State.at__safe ..)
  exact SafeStep.refl _

theorem execDemandReadTimeout_safe (t rid : Nat) (s : State) : ∀ v : State, execDemandReadTimeout t rid s = .next v → SafeStep s v := by
  unfold execDemandReadTimeout
  extract_lets +onlyGivenNames q1
  split
  refine SafeStep.nxIte ?_ ?_
  split
  split
  refine SafeStep.nx ?_
  refine SafeStep.trans ?_ (State.wakeOrder_safe ..)
  refine SafeStep.trans ?_ (State.answerRead_safe ..)
  refine SafeStep.snd (by assumption) ?_
  refine SafeStep.trans ?_ (State.readThrough_safe ..)
  refine SafeStep.trans ?_ (State.at__safe ..)
  exact SafeStep.refl _
  refine SafeStep.nx ?_
  refine SafeStep.trans ?_ (State.at__safe ..)
  exact SafeStep.refl _
  refine SafeStep.nx ?_
  refine SafeStep.trans ?_ (State.at__safe ..)
  exact SafeStep.refl _
  refine SafeStep.nx ?_
  refine SafeStep.trans ?_ (State.at__safe ..)
  exact SafeStep.refl _

theorem State.recordHalt_safe (s : State) (chan cause sack blk : Nat) : SafeStep s (State.recordHalt s chan cause sack blk) := by
  unfold State.recordHalt
  refine SafeStep.trans ?_ (SafeStep.modStore (fun _ => rfl) (fun _ => rfl) (fun _ => rfl))
  exact SafeStep.refl _

theorem State.haltLost_safe (s : State) (e : Extent) (blk : Nat) : SafeStep s (State.haltLost s e blk) := by
  unfold State.haltLost
  split
  refine SafeStep.trans ?_ (State.rebuildMirror_safe ..)
  exact SafeStep.refl _
  refine SafeStep.ite ?_ ?_
  refine SafeStep.trans ?_ (State.ueLog_safe ..)
  exact SafeStep.refl _
  refine SafeStep.trans ?_ (State.lose_safe ..)
  exact SafeStep.refl _

theorem State.haltBlock_safe (s : State) (e : Extent) (cause : Nat) (blk : Nat) : SafeStep s (State.haltBlock s e cause blk) := by
  unfold State.haltBlock
  extract_lets +onlyGivenNames q1
  extract_lets +onlyGivenNames q2
  refine SafeStep.ite ?_ ?_
  refine SafeStep.trans ?_ (State.resolveUe_safe ..)
  exact SafeStep.refl _
  refine SafeStep.ite ?_ ?_
  refine SafeStep.ite ?_ ?_
  refine SafeStep.trans ?_ (State.repaired_safe ..)
  exact SafeStep.refl _
  refine SafeStep.trans ?_ (State.resolveBad_safe ..)
  exact SafeStep.refl _
  refine SafeStep.ite ?_ ?_
  refine SafeStep.trans ?_ (State.repaired_safe ..)
  exact SafeStep.refl _
  refine SafeStep.trans ?_ (State.haltLost_safe ..)
  exact SafeStep.refl _

theorem State.stopWriteback_safe (s : State) (sack : Nat) : SafeStep s (State.stopWriteback s sack) := by
  unfold State.stopWriteback
  refine SafeStep.trans ?_ (State.modSack_safe ..)
  exact SafeStep.refl _

theorem State.haltXfer_safe (s : State) (x : Xfer) (e : Extent) (channel cause : Nat) (bs : List Nat) : SafeStep s (State.haltXfer s x e channel cause bs) := by
  unfold State.haltXfer
  extract_lets +onlyGivenNames q1
  extract_lets +onlyGivenNames q2
  extract_lets +onlyGivenNames q3
  extract_lets +onlyGivenNames q4
  refine SafeStep.trans ?_ (State.retryReads_safe ..)
  refine SafeStep.trans ?_ (State.pumpXfers_safe ..)
  unfold q4
  split
  refine SafeStep.trans ?_ (State.stopWriteback_safe ..)
  refine SafeStep.trans ?_ (State.dropXfer_safe ..)
  refine SafeStep.ite ?_ ?_
  refine SafeStep.trans ?_ (State.markCorrupt_safe ..)
  refine SafeStep.trans ?_ (State.isolation_safe ..)
  refine SafeStep.trans ?_ (State.recordHalt_safe ..)
  exact SafeStep.refl _
  refine SafeStep.foldl ?_ (fun s x => ?_)
  refine SafeStep.trans ?_ (State.recordHalt_safe ..)
  exact SafeStep.refl _
  refine SafeStep.trans ?_ (State.haltBlock_safe ..)
  exact SafeStep.refl _
  refine SafeStep.ite ?_ ?_
  refine SafeStep.trans ?_ (State.dropXfer_safe ..)
  refine SafeStep.ite ?_ ?_
  refine SafeStep.trans ?_ (State.markCorrupt_safe ..)
  refine SafeStep.trans ?_ (State.isolation_safe ..)
  refine SafeStep.trans ?_ (State.recordHalt_safe ..)
  exact SafeStep.refl _
  refine SafeStep.foldl ?_ (fun s x => ?_)
  refine SafeStep.trans ?_ (State.recordHalt_safe ..)
  exact SafeStep.refl _
  refine SafeStep.trans ?_ (State.haltBlock_safe ..)
  exact SafeStep.refl _
  refine SafeStep.trans ?_ (State.addXfer_safe ..)
  refine SafeStep.trans ?_ (State.dropXfer_safe ..)
  refine SafeStep.ite ?_ ?_
  refine SafeStep.trans ?_ (State.markCorrupt_safe ..)
  refine SafeStep.trans ?_ (State.isolation_safe ..)
  refine SafeStep.trans ?_ (State.recordHalt_safe ..)
  exact SafeStep.refl _
  refine SafeStep.foldl ?_ (fun s x => ?_)
  refine SafeStep.trans ?_ (State.recordHalt_safe ..)
  exact SafeStep.refl _
  refine SafeStep.trans ?_ (State.haltBlock_safe ..)
  exact SafeStep.refl _

theorem State.unitFailed_safe (s : State) (utype unit : Nat) : SafeStep s (State.unitFailed s utype unit) := by
  unfold State.unitFailed
  refine SafeStep.trans ?_ (State.postEvery_safe ..)
  exact SafeStep.refl _

theorem State.haltLostStack_safe (s : State) (sack : Nat) : SafeStep s (State.haltLostStack s sack) := by
  unfold State.haltLostStack
  split
  refine SafeStep.trans ?_ (State.recordHalt_safe ..)
  exact SafeStep.refl _
  exact SafeStep.refl _

theorem State.loseDirty_safe (s : State) (e : Extent) (blk order : Nat) : SafeStep s (State.loseDirty s e blk order) := by
  unfold State.loseDirty
  split
  split
  refine SafeStep.trans ?_ (State.mergeBelow_safe ..)
  exact SafeStep.refl _
  refine SafeStep.trans ?_ (State.lose_safe ..)
  exact SafeStep.refl _
  refine SafeStep.ite ?_ ?_
  exact SafeStep.refl _
  refine SafeStep.trans ?_ (State.lose_safe ..)
  exact SafeStep.refl _

theorem State.loseCopy_safe (s : State) (sack : Nat) : SafeStep s (State.loseCopy s sack) := by
  unfold State.loseCopy
  extract_lets +onlyGivenNames q1
  split
  refine SafeStep.trans ?_ (State.dropXfer_safe ..)
  refine SafeStep.trans ?_ (State.toDeep_safe ..)
  exact SafeStep.refl _
  extract_lets +onlyGivenNames q2
  extract_lets +onlyGivenNames q3
  extract_lets +onlyGivenNames q4
  extract_lets +onlyGivenNames q5
  split
  refine SafeStep.trans ?_ (State.allocFrames_safe ..)
  refine SafeStep.trans ?_ (State.setSack_safe ..)
  refine SafeStep.trans ?_ (State.haltLostStack_safe ..)
  exact SafeStep.refl _
  refine SafeStep.trans ?_ (State.undoSpec_safe ..)
  refine SafeStep.trans ?_ (State.haltLostStack_safe ..)
  exact SafeStep.refl _
  extract_lets +onlyGivenNames q6
  split
  refine SafeStep.trans ?_ (State.promoteFor_safe ..)
  refine SafeStep.foldl ?_ (fun s x => ?_)
  refine SafeStep.trans ?_ (State.dropXfer_safe ..)
  refine SafeStep.trans ?_ (State.toDeep_safe ..)
  refine SafeStep.trans ?_ (State.haltLostStack_safe ..)
  exact SafeStep.refl _
  refine SafeStep.trans ?_ (State.loseDirty_safe ..)
  exact SafeStep.refl _
  refine SafeStep.ite ?_ ?_
  refine SafeStep.trans ?_ (State.promoteFor_safe ..)
  refine SafeStep.foldl ?_ (fun s x => ?_)
  refine SafeStep.trans ?_ (State.dropXfer_safe ..)
  refine SafeStep.trans ?_ (State.toDeep_safe ..)
  refine SafeStep.trans ?_ (State.haltLostStack_safe ..)
  exact SafeStep.refl _
  refine SafeStep.trans ?_ (State.loseDirty_safe ..)
  exact SafeStep.refl _
  refine SafeStep.foldl ?_ (fun s x => ?_)
  refine SafeStep.trans ?_ (State.dropXfer_safe ..)
  refine SafeStep.trans ?_ (State.toDeep_safe ..)
  refine SafeStep.trans ?_ (State.haltLostStack_safe ..)
  exact SafeStep.refl _
  refine SafeStep.trans ?_ (State.loseDirty_safe ..)
  exact SafeStep.refl _

theorem State.stackFails_safe (s : State) (stack : Nat) : SafeStep s (State.stackFails s stack) := by
  unfold State.stackFails
  refine SafeStep.ite ?_ ?_
  exact SafeStep.refl _
  extract_lets +onlyGivenNames q1
  extract_lets +onlyGivenNames q2
  extract_lets +onlyGivenNames q3
  extract_lets +onlyGivenNames q4
  extract_lets +onlyGivenNames q5
  extract_lets +onlyGivenNames q6
  extract_lets +onlyGivenNames q7
  refine SafeStep.trans ?_ (State.caps_safe ..)
  refine SafeStep.trans ?_ (State.pumpNear_safe ..)
  refine SafeStep.trans ?_ (State.retryReads_safe ..)
  refine SafeStep.trans ?_ (State.modeChanged_safe ..)
  refine SafeStep.trans ?_ (State.framesFreed_safe ..)
  refine SafeStep.trans ?_ (State.unitFailed_safe ..)
  with_reducible refine SafeStep.trans ?_ (SafeStep.fields rfl rfl rfl rfl)
  refine SafeStep.foldl ?_ (fun s x => ?_)
  refine SafeStep.foldl ?_ (fun s x => ?_)
  refine SafeStep.trans ?_ (SafeStep.modStore (fun _ => rfl) (fun _ => rfl) (fun _ => rfl))
  refine SafeStep.trans ?_ (State.modStack_safe ..)
  exact SafeStep.refl _
  refine SafeStep.trans ?_ (State.loseCopy_safe ..)
  exact SafeStep.refl _
  extract_lets +onlyGivenNames q8
  extract_lets +onlyGivenNames q9
  refine SafeStep.ite ?_ ?_
  refine SafeStep.trans ?_ (State.startWriteback_safe ..)
  refine SafeStep.trans ?_ (SafeStep.modStore (fun _ => rfl) (fun _ => rfl) (fun _ => rfl))
  exact SafeStep.refl _
  refine SafeStep.trans ?_ (SafeStep.modStore (fun _ => rfl) (fun _ => rfl) (fun _ => rfl))
  exact SafeStep.refl _

theorem execStackLoss_safe (t stack : Nat) (s : State) : ∀ v : State, execStackLoss t stack s = .next v → SafeStep s v := by
  unfold execStackLoss
  extract_lets +onlyGivenNames q1
  refine SafeStep.nxIte ?_ ?_
  refine SafeStep.nx ?_
  refine SafeStep.trans ?_ (State.noteVitals_safe ..)
  refine SafeStep.trans ?_ (State.stackFails_safe ..)
  refine SafeStep.trans ?_ (State.at__safe ..)
  exact SafeStep.refl _
  refine SafeStep.nx ?_
  refine SafeStep.trans ?_ (State.at__safe ..)
  exact SafeStep.refl _

theorem execChannelHalt_safe (t channel cause : Nat) (blocks : List Nat) (s : State) : ∀ v : State, execChannelHalt t channel cause blocks s = .next v → SafeStep s v := by
  unfold execChannelHalt
  extract_lets +onlyGivenNames q1
  split
  split
  refine SafeStep.nxIte ?_ ?_
  refine SafeStep.nx ?_
  refine SafeStep.trans ?_ (State.at__safe ..)
  exact SafeStep.refl _
  refine SafeStep.nxIte ?_ ?_
  refine SafeStep.nx ?_
  refine SafeStep.trans ?_ (State.noteVitals_safe ..)
  refine SafeStep.trans ?_ (State.stackFails_safe ..)
  refine SafeStep.trans ?_ (State.at__safe ..)
  exact SafeStep.refl _
  extract_lets +onlyGivenNames q2
  refine SafeStep.nx ?_
  refine SafeStep.trans ?_ (State.haltXfer_safe ..)
  refine SafeStep.trans ?_ (State.at__safe ..)
  exact SafeStep.refl _
  refine SafeStep.nx ?_
  refine SafeStep.trans ?_ (State.at__safe ..)
  exact SafeStep.refl _
  refine SafeStep.nx ?_
  refine SafeStep.trans ?_ (State.at__safe ..)
  exact SafeStep.refl _

theorem execRemirror_safe (t blk : Nat) (s : State) : ∀ v : State, execRemirror t blk s = .next v → SafeStep s v := by
  unfold execRemirror
  extract_lets +onlyGivenNames q1
  split
  split
  refine SafeStep.nxIte ?_ ?_
  extract_lets +onlyGivenNames q2
  extract_lets +onlyGivenNames q3
  extract_lets +onlyGivenNames q4
  refine SafeStep.nx ?_
  refine SafeStep.ite ?_ ?_
  refine SafeStep.trans ?_ (SafeStep.modStore (fun _ => rfl) (fun _ => rfl) (fun _ => rfl))
  refine SafeStep.trans ?_ (State.at__safe ..)
  exact SafeStep.refl _
  refine SafeStep.trans ?_ (State.modeChanged_safe ..)
  refine SafeStep.trans ?_ (SafeStep.modStore (fun _ => rfl) (fun _ => rfl) (fun _ => rfl))
  refine SafeStep.trans ?_ (State.at__safe ..)
  exact SafeStep.refl _
  refine SafeStep.nx ?_
  refine SafeStep.trans ?_ (State.at__safe ..)
  exact SafeStep.refl _
  refine SafeStep.nx ?_
  refine SafeStep.trans ?_ (State.at__safe ..)
  exact SafeStep.refl _
  refine SafeStep.nx ?_
  refine SafeStep.trans ?_ (State.at__safe ..)
  exact SafeStep.refl _

theorem execReservedRegionRebuild_safe (t stack : Nat) (s : State) : ∀ v : State, execReservedRegionRebuild t stack s = .next v → SafeStep s v := by
  unfold execReservedRegionRebuild
  extract_lets +onlyGivenNames q1
  refine SafeStep.nxIte ?_ ?_
  extract_lets +onlyGivenNames q2
  extract_lets +onlyGivenNames q3
  refine SafeStep.nx ?_
  refine SafeStep.trans ?_ (State.retryHeld_safe ..)
  with_reducible refine SafeStep.trans ?_ (SafeStep.fields rfl rfl rfl rfl)
  refine SafeStep.trans ?_ (State.at__safe ..)
  exact SafeStep.refl _
  refine SafeStep.nx ?_
  refine SafeStep.trans ?_ (State.at__safe ..)
  exact SafeStep.refl _

theorem State.hubFails_safe (s : State) : SafeStep s (State.hubFails s) := by
  unfold State.hubFails
  with_reducible refine SafeStep.trans ?_ (SafeStep.fields rfl rfl rfl rfl)
  exact SafeStep.refl _

theorem execHubDieFailure_safe (t : Nat) (s : State) : ∀ v : State, execHubDieFailure t s = .next v → SafeStep s v := by
  unfold execHubDieFailure
  refine SafeStep.nx ?_
  refine SafeStep.trans ?_ (State.hubFails_safe ..)
  refine SafeStep.trans ?_ (State.at__safe ..)
  exact SafeStep.refl _

theorem execCodecCacheFill_safe (t blk : Nat) (s : State) : ∀ v : State, execCodecCacheFill t blk s = .next v → SafeStep s v := by
  unfold execCodecCacheFill
  extract_lets +onlyGivenNames q1
  refine SafeStep.nxIte ?_ ?_
  extract_lets +onlyGivenNames q2
  refine SafeStep.nx ?_
  refine SafeStep.trans ?_ (State.retryReads_safe ..)
  refine SafeStep.trans ?_ (SafeStep.modStore (fun _ => rfl) (fun _ => rfl) (fun _ => rfl))
  refine SafeStep.trans ?_ (State.at__safe ..)
  exact SafeStep.refl _
  refine SafeStep.nx ?_
  refine SafeStep.trans ?_ (State.at__safe ..)
  exact SafeStep.refl _

end Sys2Proof.Machine
end

