-- ==== Sys2Proof/Laws/SafeGates.lean ====
section
/-! SUPPORT. Every operation and every meaning over the gates, the fabric and the granary is a safe step: one lemma each. -/
namespace Sys2Proof.Machine

theorem State.modCxe_safe (s : State) (f : CxeSt → CxeSt) : SafeStep s (State.modCxe s f) := by
  unfold State.modCxe
  with_reducible refine SafeStep.trans ?_ (SafeStep.fields rfl rfl rfl rfl)
  exact SafeStep.refl _

theorem State.modCxeLd_safe (s : State) (ld : Nat) (f : CxeLd → CxeLd) : SafeStep s (State.modCxeLd s ld f) := by
  unfold State.modCxeLd
  refine SafeStep.trans ?_ (State.modCxe_safe ..)
  exact SafeStep.refl _

theorem State.aerCor_safe (s : State) (ld bit : Nat) : SafeStep s (State.aerCor s ld bit) := by
  unfold State.aerCor
  extract_lets +onlyGivenNames q1
  extract_lets +onlyGivenNames q2
  refine SafeStep.ite ?_ ?_
  refine SafeStep.trans ?_ (State.modCxeLd_safe ..)
  exact SafeStep.refl _
  refine SafeStep.trans ?_ (State.send_safe ..)
  refine SafeStep.trans ?_ (State.modCxeLd_safe ..)
  exact SafeStep.refl _

theorem State.aerUnc_safe (s : State) (ld bit : Nat) (header : Bytes) : SafeStep s (State.aerUnc s ld bit header) := by
  unfold State.aerUnc
  extract_lets +onlyGivenNames q1
  extract_lets +onlyGivenNames q2
  refine SafeStep.ite ?_ ?_
  refine SafeStep.trans ?_ (State.modCxeLd_safe ..)
  exact SafeStep.refl _
  extract_lets +onlyGivenNames q3
  refine SafeStep.trans ?_ (State.send_safe ..)
  refine SafeStep.ite ?_ ?_
  refine SafeStep.trans ?_ (State.aerCor_safe ..)
  refine SafeStep.trans ?_ (State.modCxeLd_safe ..)
  exact SafeStep.refl _
  refine SafeStep.trans ?_ (State.modCxeLd_safe ..)
  refine SafeStep.trans ?_ (State.modCxeLd_safe ..)
  exact SafeStep.refl _

theorem State.rasCor_safe (s : State) (ld bit : Nat) (flit : Bytes) : SafeStep s (State.rasCor s ld bit flit) := by
  unfold State.rasCor
  extract_lets +onlyGivenNames q1
  extract_lets +onlyGivenNames q2
  refine SafeStep.ite ?_ ?_
  refine SafeStep.trans ?_ (State.modCxeLd_safe ..)
  exact SafeStep.refl _
  extract_lets +onlyGivenNames q3
  refine SafeStep.trans ?_ (State.send_safe ..)
  refine SafeStep.ite ?_ ?_
  refine SafeStep.trans ?_ (State.aerCor_safe ..)
  refine SafeStep.trans ?_ (State.modCxeLd_safe ..)
  exact SafeStep.refl _
  refine SafeStep.trans ?_ (State.modCxeLd_safe ..)
  refine SafeStep.trans ?_ (State.modCxeLd_safe ..)
  exact SafeStep.refl _

theorem State.rasUnc_safe (s : State) (ld bit : Nat) (flit : Bytes) : SafeStep s (State.rasUnc s ld bit flit) := by
  unfold State.rasUnc
  extract_lets +onlyGivenNames q1
  extract_lets +onlyGivenNames q2
  refine SafeStep.ite ?_ ?_
  refine SafeStep.trans ?_ (State.modCxeLd_safe ..)
  exact SafeStep.refl _
  extract_lets +onlyGivenNames q3
  refine SafeStep.trans ?_ (State.send_safe ..)
  refine SafeStep.ite ?_ ?_
  refine SafeStep.trans ?_ (State.aerCor_safe ..)
  refine SafeStep.trans ?_ (State.modCxeLd_safe ..)
  exact SafeStep.refl _
  refine SafeStep.trans ?_ (State.modCxeLd_safe ..)
  refine SafeStep.trans ?_ (State.modCxeLd_safe ..)
  exact SafeStep.refl _

theorem State.onPort_safe (s : State) (port : Nat) (f : State → Nat → State) (hf : ∀ v x, SafeStep v (f v x)) : SafeStep s (s.onPort port f) :=
  SafeStep.foldl (SafeStep.refl _) hf

theorem State.modStone_safe (s : State) (k : Nat) (f : Stone → Stone) : SafeStep s (State.modStone s k f) := by
  unfold State.modStone
  with_reducible refine SafeStep.trans ?_ (SafeStep.fields rfl rfl rfl rfl)
  exact SafeStep.refl _

theorem State.modStnLd_safe (s : State) (ld : Nat) (f : StnLd → StnLd) : SafeStep s (State.modStnLd s ld f) := by
  unfold State.modStnLd
  with_reducible refine SafeStep.trans ?_ (SafeStep.fields rfl rfl rfl rfl)
  exact SafeStep.refl _

theorem State.modChecker_safe (s : State) (d : Nat) (f : Checker → Checker) : SafeStep s (State.modChecker s d f) := by
  unfold State.modChecker
  with_reducible refine SafeStep.trans ?_ (SafeStep.fields rfl rfl rfl rfl)
  exact SafeStep.refl _

theorem State.dropCopies_safe (s : State) (p : Piece) : SafeStep s (State.dropCopies s p) := by
  unfold State.dropCopies
  with_reducible refine SafeStep.trans ?_ (SafeStep.fields rfl rfl rfl rfl)
  exact SafeStep.refl _

theorem State.dropChecks_safe (s : State) (b : Nat) : SafeStep s (State.dropChecks s b) := by
  unfold State.dropChecks
  with_reducible refine SafeStep.trans ?_ (SafeStep.fields rfl rfl rfl rfl)
  exact SafeStep.refl _

theorem State.chargeCycles_safe (s : State) (ld n : Nat) : SafeStep s (State.chargeCycles s ld n) := by
  unfold State.chargeCycles
  refine SafeStep.trans ?_ (State.modStnLd_safe ..)
  exact SafeStep.refl _

theorem State.placePiece_safe (s : State) (p : Piece) : SafeStep s (State.placePiece s p) := by
  unfold State.placePiece
  extract_lets +onlyGivenNames q1
  extract_lets +onlyGivenNames q2
  extract_lets +onlyGivenNames q3
  extract_lets +onlyGivenNames q4
  (unfold q4; split)
  with_reducible refine SafeStep.trans ?_ (SafeStep.fields rfl rfl rfl rfl)
  exact SafeStep.refl _
  extract_lets +onlyGivenNames q5
  refine SafeStep.ite ?_ ?_
  with_reducible refine SafeStep.trans ?_ (SafeStep.fields rfl rfl rfl rfl)
  refine SafeStep.trans ?_ (State.modStone_safe ..)
  exact SafeStep.refl _
  refine SafeStep.trans ?_ (State.modStone_safe ..)
  exact SafeStep.refl _

theorem State.placeAgain_safe (s : State) (p : Piece) : SafeStep s (State.placeAgain s p) := by
  unfold State.placeAgain
  refine SafeStep.trans ?_ (State.placePiece_safe ..)
  with_reducible refine SafeStep.trans ?_ (SafeStep.fields rfl rfl rfl rfl)
  exact SafeStep.refl _

theorem State.placeWaiting_safe (s : State) : SafeStep s (State.placeWaiting s) := by
  unfold State.placeWaiting
  refine SafeStep.foldl ?_ (fun s x => ?_)
  exact SafeStep.refl _
  refine SafeStep.trans ?_ (State.placeAgain_safe ..)
  exact SafeStep.refl _

theorem State.dropPieces_safe (s : State) (p : Piece → Bool) : SafeStep s (State.dropPieces s p) := by
  unfold State.dropPieces
  extract_lets +onlyGivenNames q1
  extract_lets +onlyGivenNames q2
  refine SafeStep.foldl ?_ (fun s x => ?_)
  with_reducible refine SafeStep.trans ?_ (SafeStep.fields rfl rfl rfl rfl)
  exact SafeStep.refl _
  refine SafeStep.trans ?_ (State.modStone_safe ..)
  exact SafeStep.refl _

theorem State.dropCkpts_safe (s : State) (b : Nat) : SafeStep s (State.dropCkpts s b) := by
  unfold State.dropCkpts
  with_reducible refine SafeStep.trans ?_ (SafeStep.fields rfl rfl rfl rfl)
  exact SafeStep.refl _

theorem State.countClear_safe (s : State) : SafeStep s (State.countClear s) := by
  unfold State.countClear
  with_reducible refine SafeStep.trans ?_ (SafeStep.fields rfl rfl rfl rfl)
  exact SafeStep.refl _

theorem State.beginClear_safe (s : State) (k : Nat) : SafeStep s (State.beginClear s k) := by
  unfold State.beginClear
  refine SafeStep.trans ?_ (State.countClear_safe ..)
  refine SafeStep.trans ?_ (State.modStone_safe ..)
  exact SafeStep.refl _

theorem State.stoneIdle_safe (s : State) (k : Nat) : SafeStep s (State.stoneIdle s k) := by
  unfold State.stoneIdle
  extract_lets +onlyGivenNames q1
  refine SafeStep.ite ?_ ?_
  refine SafeStep.trans ?_ (State.beginClear_safe ..)
  refine SafeStep.trans ?_ (State.modStone_safe ..)
  exact SafeStep.refl _
  refine SafeStep.trans ?_ (State.placeWaiting_safe ..)
  refine SafeStep.trans ?_ (State.modStone_safe ..)
  exact SafeStep.refl _

theorem State.moveQueue_safe (s : State) (k : Nat) : SafeStep s (State.moveQueue s k) := by
  unfold State.moveQueue
  extract_lets +onlyGivenNames q1
  refine SafeStep.foldl ?_ (fun s x => ?_)
  refine SafeStep.trans ?_ (State.modStone_safe ..)
  exact SafeStep.refl _
  refine SafeStep.trans ?_ (State.placePiece_safe ..)
  exact SafeStep.refl _

theorem State.drainStone_safe (s : State) (k : Nat) : SafeStep s (State.drainStone s k) := by
  unfold State.drainStone
  extract_lets +onlyGivenNames q1
  refine SafeStep.ite ?_ ?_
  extract_lets +onlyGivenNames q2
  extract_lets +onlyGivenNames q3
  refine SafeStep.ite ?_ ?_
  refine SafeStep.trans ?_ (State.beginClear_safe ..)
  refine SafeStep.foldl ?_ (fun s x => ?_)
  refine SafeStep.trans ?_ (State.modStone_safe ..)
  exact SafeStep.refl _
  refine SafeStep.trans ?_ (State.placePiece_safe ..)
  exact SafeStep.refl _
  refine SafeStep.foldl ?_ (fun s x => ?_)
  refine SafeStep.trans ?_ (State.modStone_safe ..)
  exact SafeStep.refl _
  refine SafeStep.trans ?_ (State.placePiece_safe ..)
  exact SafeStep.refl _
  exact SafeStep.refl _

theorem State.rerun_safe (s : State) (k : Nat) : SafeStep s (State.rerun s k) := by
  unfold State.rerun
  extract_lets +onlyGivenNames q1
  extract_lets +onlyGivenNames q2
  extract_lets +onlyGivenNames q3
  extract_lets +onlyGivenNames q4
  extract_lets +onlyGivenNames q5
  refine SafeStep.foldl ?_ (fun s x => ?_)
  unfold q5
  split
  with_reducible refine SafeStep.trans ?_ (SafeStep.fields rfl rfl rfl rfl)
  refine SafeStep.trans ?_ (State.modStone_safe ..)
  exact SafeStep.refl _
  refine SafeStep.trans ?_ (State.modStone_safe ..)
  exact SafeStep.refl _
  refine SafeStep.trans ?_ (State.placePiece_safe ..)
  exact SafeStep.refl _

theorem State.stoneFails_safe (s : State) (k : Nat) : SafeStep s (State.stoneFails s k) := by
  unfold State.stoneFails
  refine SafeStep.ite ?_ ?_
  refine SafeStep.trans ?_ (State.modStone_safe ..)
  exact SafeStep.refl _
  extract_lets +onlyGivenNames q1
  refine SafeStep.trans ?_ (State.unitFailed_safe ..)
  refine SafeStep.trans ?_ (State.rerun_safe ..)
  refine SafeStep.trans ?_ (State.modStone_safe ..)
  exact SafeStep.refl _

theorem State.hubBlk_safe (s : State) (ld dpa cls : Nat) (die : Option Nat) : SafeStep s (State.hubBlk s ld dpa cls die).2.2 := by
  unfold State.hubBlk
  split
  exact SafeStep.refl _
  extract_lets +onlyGivenNames q1
  extract_lets +onlyGivenNames q2
  split
  exact SafeStep.refl _
  split
  exact SafeStep.refl _
  split
  dsimp only
  refine SafeStep.trans ?_ (State.isolation_safe ..)
  exact SafeStep.refl _
  extract_lets +onlyGivenNames q3
  extract_lets +onlyGivenNames q4
  extract_lets +onlyGivenNames q5
  extract_lets +onlyGivenNames q6
  extract_lets +onlyGivenNames q7
  extract_lets +onlyGivenNames q8
  (unfold q4; split)
  dsimp only
  refine SafeStep.trans ?_ (State.serve_safe ..)
  refine SafeStep.ite ?_ ?_
  refine SafeStep.trans ?_ (State.promote_safe ..)
  refine SafeStep.trans ?_ (State.touch_safe ..)
  exact SafeStep.refl _
  refine SafeStep.trans ?_ (State.cacheUse_safe ..)
  refine SafeStep.trans ?_ (State.modSack_safe ..)
  refine SafeStep.trans ?_ (State.touch_safe ..)
  exact SafeStep.refl _
  dsimp only
  refine SafeStep.trans ?_ (State.serve_safe ..)
  refine SafeStep.ite ?_ ?_
  refine SafeStep.trans ?_ (State.promote_safe ..)
  refine SafeStep.trans ?_ (State.touch_safe ..)
  exact SafeStep.refl _
  refine SafeStep.trans ?_ (State.cacheUse_safe ..)
  refine SafeStep.trans ?_ (State.modSack_safe ..)
  refine SafeStep.trans ?_ (State.touch_safe ..)
  exact SafeStep.refl _

theorem State.hubBlks_safe (s : State) (ld dpa cls : Nat) (die : Option Nat) (y0 : Nat) : SafeStep s (State.hubBlks s ld dpa cls die y0).2.2 := by
  induction y0 generalizing s dpa with
  | zero =>
    unfold State.hubBlks
    exact SafeStep.refl _
  | succ n ih =>
    unfold State.hubBlks
    split
    split
    dsimp only
    refine SafeStep.snd3 (by assumption) ?_
    refine SafeStep.trans ?_ (ih ..)
    refine SafeStep.snd3 (by assumption) ?_
    refine SafeStep.trans ?_ (State.hubBlk_safe ..)
    exact SafeStep.refl _

theorem State.modSeq_safe (s : State) (ld id : Nat) (f : KvSeq → KvSeq) : SafeStep s (State.modSeq s ld id f) := by
  unfold State.modSeq
  with_reducible refine SafeStep.trans ?_ (SafeStep.fields rfl rfl rfl rfl)
  exact SafeStep.refl _

theorem State.modBin_safe (s : State) (id : Nat) (f : Bin → Bin) : SafeStep s (State.modBin s id f) := by
  unfold State.modBin
  with_reducible refine SafeStep.trans ?_ (SafeStep.fields rfl rfl rfl rfl)
  exact SafeStep.refl _

theorem State.modGate_safe (s : State) (f : GateSt → GateSt) : SafeStep s (State.modGate s f) := by
  unfold State.modGate
  with_reducible refine SafeStep.trans ?_ (SafeStep.fields rfl rfl rfl rfl)
  exact SafeStep.refl _

theorem State.setSlot_safe (s : State) (b : Nat) (v : Slot) : SafeStep s (State.setSlot s b v) := by
  unfold State.setSlot
  refine SafeStep.trans ?_ (State.modGate_safe ..)
  exact SafeStep.refl _

theorem State.modSlot_safe (s : State) (b : Nat) (f : Slot → Slot) : SafeStep s (State.modSlot s b f) := by
  unfold State.modSlot
  refine SafeStep.trans ?_ (State.setSlot_safe ..)
  exact SafeStep.refl _

theorem State.holdOp_safe (s : State) (b : Nat) (o : GateOp) : SafeStep s (State.holdOp s b o) := by
  unfold State.holdOp
  refine SafeStep.foldl ?_ (fun s x => ?_)
  exact SafeStep.refl _
  refine SafeStep.trans ?_ (State.addHold_safe ..)
  exact SafeStep.refl _

theorem State.settleLeaving_safe (s : State) : SafeStep s (State.settleLeaving s) := by
  unfold State.settleLeaving
  with_reducible refine SafeStep.trans ?_ (SafeStep.fields rfl rfl rfl rfl)
  exact SafeStep.refl _

theorem State.modOp_safe (s : State) (b : Nat) (f : GateOp → GateOp) : SafeStep s (State.modOp s b f) := by
  unfold State.modOp
  refine SafeStep.trans ?_ (State.modSlot_safe ..)
  exact SafeStep.refl _

theorem State.modGateLd_safe (s : State) (ld : Nat) (f : GateLd → GateLd) : SafeStep s (State.modGateLd s ld f) := by
  unfold State.modGateLd
  refine SafeStep.trans ?_ (State.modGate_safe ..)
  exact SafeStep.refl _

theorem State.setParam_safe (s : State) (b line : Nat) (v : Option Bytes) : SafeStep s (State.setParam s b line v) := by
  unfold State.setParam
  extract_lets +onlyGivenNames q1
  refine SafeStep.trans ?_ (State.modGate_safe ..)
  exact SafeStep.refl _

theorem State.clearLines_safe (s : State) (b : Nat) : SafeStep s (State.clearLines s b) := by
  unfold State.clearLines
  refine SafeStep.trans ?_ (State.modGate_safe ..)
  exact SafeStep.refl _

theorem State.sendResult_safe (s : State) (ld b line tag : Nat) : SafeStep s (State.sendResult s ld b line tag) := by
  unfold State.sendResult
  extract_lets +onlyGivenNames q1
  refine SafeStep.ite ?_ ?_
  refine SafeStep.trans ?_ (State.sendLine_safe ..)
  exact SafeStep.refl _
  refine SafeStep.trans ?_ (State.sendPoison_safe ..)
  exact SafeStep.refl _

theorem State.answerResult_safe (s : State) (r : ResRead) : SafeStep s (State.answerResult s r) := by
  unfold State.answerResult
  refine SafeStep.trans ?_ (State.sendResult_safe ..)
  refine SafeStep.trans ?_ (State.modGate_safe ..)
  exact SafeStep.refl _

theorem State.releaseReads_safe (s : State) (b : Nat) : SafeStep s (State.releaseReads s b) := by
  unfold State.releaseReads
  refine SafeStep.foldl ?_ (fun s x => ?_)
  exact SafeStep.refl _
  refine SafeStep.trans ?_ (State.answerResult_safe ..)
  exact SafeStep.refl _

theorem State.dropOpHolds_safe (s : State) (b : Nat) : SafeStep s (State.dropOpHolds s b) := by
  unfold State.dropOpHolds
  refine SafeStep.trans ?_ (State.dropHolds_safe ..)
  exact SafeStep.refl _

theorem State.settleSlot_safe (s : State) (b : Nat) (st : SlotState) (code aux : Nat) (result : Bytes) (trunc : Bool) : SafeStep s (State.settleSlot s b st code aux result trunc) := by
  unfold State.settleSlot
  extract_lets +onlyGivenNames q1
  extract_lets +onlyGivenNames q2
  extract_lets +onlyGivenNames q3
  extract_lets +onlyGivenNames q4
  extract_lets +onlyGivenNames q5
  refine SafeStep.trans ?_ (State.releaseReads_safe ..)
  refine SafeStep.trans ?_ (State.dropOpHolds_safe ..)
  refine SafeStep.trans ?_ (State.dropChecks_safe ..)
  refine SafeStep.trans ?_ (State.dropCkpts_safe ..)
  refine SafeStep.trans ?_ (State.dropPieces_safe ..)
  refine SafeStep.ite ?_ ?_
  refine SafeStep.trans ?_ (State.setSlot_safe ..)
  exact SafeStep.refl _
  refine SafeStep.trans ?_ (State.modGateLd_safe ..)
  refine SafeStep.trans ?_ (State.setSlot_safe ..)
  exact SafeStep.refl _

theorem State.dispatch_safe (s : State) (b : Nat) (o : GateOp) (i : Nat) : SafeStep s (State.dispatch s b o i) := by
  unfold State.dispatch
  extract_lets +onlyGivenNames q1
  extract_lets +onlyGivenNames q2
  extract_lets +onlyGivenNames q3
  extract_lets +onlyGivenNames q4
  refine SafeStep.trans ?_ (State.placePiece_safe ..)
  refine SafeStep.trans ?_ (State.modOp_safe ..)
  refine SafeStep.trans ?_ (SafeStep.fieldsF rfl rfl rfl rfl)
  exact SafeStep.refl _

theorem State.dispatchAll_safe (s : State) (b : Nat) (o : GateOp) : SafeStep s (State.dispatchAll s b o) := by
  unfold State.dispatchAll
  extract_lets +onlyGivenNames q1
  extract_lets +onlyGivenNames q2
  refine SafeStep.foldl ?_ (fun s x => ?_)
  refine SafeStep.trans ?_ (State.modSlot_safe ..)
  refine SafeStep.trans ?_ (State.holdOp_safe ..)
  exact SafeStep.refl _
  refine SafeStep.trans ?_ (State.dispatch_safe ..)
  exact SafeStep.refl _

theorem State.hubSack_safe (s : State) (ld : Nat) (e : Extent) (sack : Nat) (die : Option Nat) (cls : Nat) : SafeStep s (State.hubSack s ld e sack die cls) := by
  unfold State.hubSack
  refine SafeStep.ite ?_ ?_
  exact SafeStep.refl _
  split
  refine SafeStep.trans ?_ (State.allocate_safe ..)
  exact SafeStep.refl _
  refine SafeStep.trans ?_ (State.promote_safe ..)
  exact SafeStep.refl _
  exact SafeStep.refl _

theorem State.innerWrite_safe (s : State) (ld : Nat) (e : Extent) (blk : Nat) (data : Bytes) (die : Option Nat) (cls : Nat) : SafeStep s (State.innerWrite s ld e blk data die cls) := by
  unfold State.innerWrite
  extract_lets +onlyGivenNames q1
  extract_lets +onlyGivenNames q2
  refine SafeStep.ite ?_ ?_
  refine SafeStep.trans ?_ (State.isolation_safe ..)
  exact SafeStep.refl _
  refine SafeStep.foldl ?_ (fun s x => ?_)
  refine SafeStep.trans ?_ (State.hubSack_safe ..)
  exact SafeStep.refl _
  refine SafeStep.trans ?_ (State.writeLine_safe ..)
  exact SafeStep.refl _

theorem State.innerBytes_safe (s : State) (ld dpa : Nat) (die : Option Nat) (cls : Nat) (y0 : Nat) (y1 : Bytes) : SafeStep s (s.innerBytes ld dpa die cls y0 y1).2 := by
  induction y0 generalizing s dpa y1 with
  | zero => exact SafeStep.refl _
  | succ n ih =>
    unfold State.innerBytes
    split
    · exact SafeStep.refl _
    · extract_lets blk v r
      exact SafeStep.trans (State.innerWrite_safe ..) (ih ..)

theorem State.poisonSeen_safe (s : State) (ld : Nat) (poison : Bool) : SafeStep s (State.poisonSeen s ld poison) := by
  unfold State.poisonSeen
  refine SafeStep.ite ?_ ?_
  refine SafeStep.trans ?_ (State.rasCor_safe ..)
  exact SafeStep.refl _
  exact SafeStep.refl _

theorem State.failGo_safe (s : State) (b code aux : Nat) : SafeStep s (State.failGo s b code aux) := by
  unfold State.failGo
  refine SafeStep.trans ?_ (State.settleSlot_safe ..)
  exact SafeStep.refl _

theorem State.takeGo_safe (s : State) (g : GoWrite) (opcode : Nat) :
    ∀ r, s.takeGo g opcode = r → SafeStep s (match r with | .dropped v => v | .accepted _ v => v) := by
  rintro r rfl
  unfold State.takeGo
  extract_lets s1
  refine SafeStep.trans (SafeStep.trans (State.poisonSeen_safe ..) (State.settleLeaving_safe ..)) (t := _) (?_ : SafeStep s1 _)
  clear_value s1
  split
  · rename_i h
    split at h
    · injection h with h; rw [← h]; exact SafeStep.refl _
    · split at h
      · injection h with h; rw [← h]; exact State.drop_safe ..
      · injection h with h; rw [← h]; exact State.drop_safe ..
      · split at h
        · injection h with h; rw [← h]; exact State.writeLine_safe ..
        · split at h
          · injection h with h; rw [← h]; exact State.modGateLd_safe ..
          · split at h
            · injection h with h; rw [← h]; exact State.modGateLd_safe ..
            · split at h
              · injection h with h; rw [← h]; exact State.modGateLd_safe ..
              · injection h
  · rename_i h
    split at h
    · injection h
    · split at h
      · injection h
      · injection h
      · split at h
        · injection h
        · split at h
          · injection h
          · split at h
            · injection h
            · split at h
              · injection h
              · injection h with _ h
                rw [← h]
                refine SafeStep.trans ?_ (State.setSlot_safe ..)
                refine SafeStep.iteP ?_ ?_
                · exact State.modGateLd_safe ..
                · exact SafeStep.trans (State.modGateLd_safe ..) (State.goPosition_safe ..)

theorem State.runGo_safe (s : State) (g : GoWrite) (opcode cls handle : Nat) (hasObj : Bool) (check : GoCheck)
    (begin_ : State → Nat → GateOp → State) (hb : ∀ v b o, SafeStep v (begin_ v b o)) :
    SafeStep s (s.runGo g opcode cls handle hasObj check begin_) := by
  unfold State.runGo
  split
  · exact State.takeGo_safe s g opcode _ (by assumption)
  · refine SafeStep.trans (State.takeGo_safe s g opcode _ (by assumption)) ?_
    dsimp only
    split
    · exact State.failGo_safe ..
    · split
      · exact State.failGo_safe ..
      · split
        · exact State.failGo_safe ..
        · split
          · exact State.failGo_safe ..
          · split
            · exact State.failGo_safe ..
            · exact SafeStep.trans (SafeStep.trans (State.modGate_safe ..) (State.modSlot_safe ..)) (hb ..)

theorem State.stopPieces_safe (s : State) (b : Nat) : SafeStep s (State.stopPieces s b) := by
  unfold State.stopPieces
  extract_lets +onlyGivenNames q1
  refine SafeStep.foldl ?_ (fun s x => ?_)
  refine SafeStep.trans ?_ (State.dropChecks_safe ..)
  refine SafeStep.trans ?_ (State.dropCkpts_safe ..)
  refine SafeStep.trans ?_ (State.dropPieces_safe ..)
  exact SafeStep.refl _
  split
  refine SafeStep.ite ?_ ?_
  refine SafeStep.trans ?_ (State.beginClear_safe ..)
  refine SafeStep.trans ?_ (State.modStone_safe ..)
  exact SafeStep.refl _
  exact SafeStep.refl _
  exact SafeStep.refl _

theorem State.cancelSlot_safe (s : State) (b : Nat) : SafeStep s (State.cancelSlot s b) := by
  unfold State.cancelSlot
  extract_lets +onlyGivenNames q1
  refine SafeStep.ite ?_ ?_
  exact SafeStep.refl _
  extract_lets +onlyGivenNames q2
  extract_lets +onlyGivenNames q3
  refine SafeStep.trans ?_ (State.releaseReads_safe ..)
  refine SafeStep.trans ?_ (State.dropOpHolds_safe ..)
  refine SafeStep.trans ?_ (State.modSlot_safe ..)
  refine SafeStep.ite ?_ ?_
  refine SafeStep.trans ?_ (State.modGateLd_safe ..)
  refine SafeStep.trans ?_ (State.stopPieces_safe ..)
  exact SafeStep.refl _
  exact SafeStep.refl _

theorem State.discardSacks_safe (s : State) (first count : Nat) : SafeStep s (s.discardSacks first count) := by
  unfold State.discardSacks
  extract_lets inR inB gone runs freed s1 s2 s3
  have h : SafeStep s s1 := SafeStep.recordM rfl rfl rfl (Nat.le_refl _) rfl
    (fun h => Tbl.wf_filter h _) (fun h => Tbl.wf_filter h _) (fun h => Tbl.wf_filter h _)
  refine SafeStep.trans ?_ (State.framesFreed_safe ..)
  refine SafeStep.trans ?_ (State.pumpXfers_safe ..)
  refine SafeStep.trans ?_ (State.journal_safe ..)
  exact SafeStep.trans (SafeStep.trans h (SafeStep.fields rfl rfl rfl rfl)) (SafeStep.fields rfl rfl rfl rfl)

theorem State.modStream_safe (s : State) (k : Nat) (f : StreamMeta → StreamMeta) : SafeStep s (State.modStream s k f) := by
  unfold State.modStream
  with_reducible refine SafeStep.trans ?_ (SafeStep.fields rfl rfl rfl rfl)
  exact SafeStep.refl _

theorem State.openStream_safe (s : State) (ld k cls : Nat) : SafeStep s (State.openStream s ld k cls) := by
  unfold State.openStream
  refine SafeStep.trans ?_ (State.modStream_safe ..)
  exact SafeStep.refl _

theorem State.freeStream_safe (s : State) (k : Nat) : SafeStep s (State.freeStream s k) := by
  unfold State.freeStream
  refine SafeStep.trans ?_ (State.modStream_safe ..)
  exact SafeStep.refl _

theorem State.useStream_safe (s : State) (ld k cls n : Nat) : SafeStep s (State.useStream s ld k cls n) := by
  unfold State.useStream
  refine SafeStep.trans ?_ (State.modStream_safe ..)
  exact SafeStep.refl _

theorem State.dropBinHolds_safe (s : State) (id : Nat) : SafeStep s (State.dropBinHolds s id) := by
  unfold State.dropBinHolds
  refine SafeStep.trans ?_ (State.cancelWants_safe ..)
  refine SafeStep.trans ?_ (State.dropHolds_safe ..)
  exact SafeStep.refl _

theorem State.keepNear_safe (s : State) (b : Bin) (e : Extent) (k : Nat) : SafeStep s (State.keepNear s b e k) := by
  unfold State.keepNear
  refine SafeStep.ite ?_ ?_
  exact SafeStep.refl _
  extract_lets +onlyGivenNames q1
  refine SafeStep.ite ?_ ?_
  refine SafeStep.trans ?_ (State.promoteFor_safe ..)
  refine SafeStep.trans ?_ (State.addHold_safe ..)
  exact SafeStep.refl _
  refine SafeStep.trans ?_ (State.addHold_safe ..)
  exact SafeStep.refl _

theorem State.fixNear_safe (s : State) (id : Nat) : SafeStep s (State.fixNear s id) := by
  unfold State.fixNear
  split
  refine SafeStep.trans ?_ (State.dropBinHolds_safe ..)
  exact SafeStep.refl _
  extract_lets +onlyGivenNames q1
  extract_lets +onlyGivenNames q2
  refine SafeStep.ite ?_ ?_
  exact SafeStep.refl _
  refine SafeStep.ite ?_ ?_
  refine SafeStep.trans ?_ (State.dropBinHolds_safe ..)
  exact SafeStep.refl _
  split
  exact SafeStep.refl _
  split
  refine SafeStep.foldl ?_ (fun s x => ?_)
  exact SafeStep.refl _
  refine SafeStep.trans ?_ (State.keepNear_safe ..)
  exact SafeStep.refl _

theorem State.loseBin_safe (s : State) (id : Nat) : SafeStep s (State.loseBin s id) := by
  unfold State.loseBin
  refine SafeStep.trans ?_ (State.modGate_safe ..)
  exact SafeStep.refl _

theorem State.freeBin_safe (s : State) (id : Nat) : SafeStep s (State.freeBin s id) := by
  unfold State.freeBin
  split
  exact SafeStep.refl _
  split
  extract_lets +onlyGivenNames q1
  extract_lets +onlyGivenNames q2
  refine SafeStep.trans ?_ (State.journal_safe ..)
  refine SafeStep.ite ?_ ?_
  refine SafeStep.trans ?_ (State.loseBin_safe ..)
  refine SafeStep.trans ?_ (State.dropBinHolds_safe ..)
  refine SafeStep.trans ?_ (State.modGate_safe ..)
  exact SafeStep.refl _
  refine SafeStep.trans ?_ (State.discardSacks_safe ..)
  refine SafeStep.trans ?_ (State.loseBin_safe ..)
  refine SafeStep.trans ?_ (State.dropBinHolds_safe ..)
  refine SafeStep.trans ?_ (State.modGate_safe ..)
  exact SafeStep.refl _

theorem State.attachBin_safe (s : State) (ld id : Nat) : SafeStep s (State.attachBin s ld id) := by
  unfold State.attachBin
  refine SafeStep.trans ?_ (State.journal_safe ..)
  refine SafeStep.trans ?_ (State.fixNear_safe ..)
  refine SafeStep.trans ?_ (State.modBin_safe ..)
  exact SafeStep.refl _

theorem State.releaseBin_safe (s : State) (id : Nat) : SafeStep s (State.releaseBin s id) := by
  unfold State.releaseBin
  extract_lets +onlyGivenNames q1
  split
  refine SafeStep.ite ?_ ?_
  refine SafeStep.trans ?_ (State.freeBin_safe ..)
  refine SafeStep.trans ?_ (State.journal_safe ..)
  refine SafeStep.trans ?_ (State.fixNear_safe ..)
  refine SafeStep.trans ?_ (State.modBin_safe ..)
  exact SafeStep.refl _
  refine SafeStep.trans ?_ (State.journal_safe ..)
  refine SafeStep.trans ?_ (State.fixNear_safe ..)
  refine SafeStep.trans ?_ (State.modBin_safe ..)
  exact SafeStep.refl _
  refine SafeStep.trans ?_ (State.journal_safe ..)
  refine SafeStep.trans ?_ (State.fixNear_safe ..)
  refine SafeStep.trans ?_ (State.modBin_safe ..)
  exact SafeStep.refl _

theorem State.cutPrefix_safe (s : State) (ld id n : Nat) : SafeStep s (State.cutPrefix s ld id n) := by
  unfold State.cutPrefix
  split
  exact SafeStep.refl _
  extract_lets +onlyGivenNames q1
  extract_lets +onlyGivenNames q2
  split
  refine SafeStep.ite ?_ ?_
  refine SafeStep.trans ?_ (State.releaseBin_safe ..)
  refine SafeStep.trans ?_ (State.modSeq_safe ..)
  exact SafeStep.refl _
  refine SafeStep.trans ?_ (State.modSeq_safe ..)
  exact SafeStep.refl _
  refine SafeStep.trans ?_ (State.modSeq_safe ..)
  exact SafeStep.refl _

theorem State.makeRoom_safe (s : State) (party : Nat) (exts : List Extent) (n : Nat) (y0 : List Nat) :
    ∀ v : Extent × Nat × State, s.makeRoom party exts n y0 = some v → SafeStep s v.2.2 := by
  induction y0 generalizing s with
  | nil =>
    intro v hv
    unfold State.makeRoom at hv
    obtain ⟨r, -, rfl⟩ := Option.map_eq_some_iff.1 hv
    exact SafeStep.refl _
  | cons c l ih =>
    intro v hv
    unfold State.makeRoom at hv
    split at hv
    · cases hv; exact SafeStep.refl _
    · refine SafeStep.trans ?_ (ih _ _ hv)
      refine SafeStep.foldl ?_ (fun u x => State.modGateLd_safe ..)
      exact SafeStep.trans (State.freeBin_safe ..) (State.modGate_safe ..)

theorem State.dropPublish_safe (s : State) (o : GateOp) : SafeStep s (State.dropPublish s o) := by
  unfold State.dropPublish
  split
  split
  refine SafeStep.ite ?_ ?_
  exact SafeStep.refl _
  refine SafeStep.trans ?_ (State.freeBin_safe ..)
  exact SafeStep.refl _
  exact SafeStep.refl _
  exact SafeStep.refl _

theorem State.modPorts_safe (s : State) (f : PortSt → PortSt) : SafeStep s (State.modPorts s f) := by
  unfold State.modPorts
  with_reducible refine SafeStep.trans ?_ (SafeStep.fields rfl rfl rfl rfl)
  exact SafeStep.refl _

theorem State.modPort_safe (s : State) (p : Nat) (f : Port → Port) : SafeStep s (State.modPort s p f) := by
  unfold State.modPort
  refine SafeStep.trans ?_ (State.modPorts_safe ..)
  exact SafeStep.refl _

theorem State.setWindow_safe (s : State) (port w : Nat) (v : Window) : SafeStep s (State.setWindow s port w v) := by
  unfold State.setWindow
  refine SafeStep.trans ?_ (State.modPorts_safe ..)
  exact SafeStep.refl _

theorem State.modFwdLd_safe (s : State) (ld : Nat) (f : FwdLd → FwdLd) : SafeStep s (State.modFwdLd s ld f) := by
  unfold State.modFwdLd
  refine SafeStep.trans ?_ (State.modPorts_safe ..)
  exact SafeStep.refl _

theorem State.modRiLd_safe (s : State) (ld : Nat) (f : RiLd → RiLd) : SafeStep s (State.modRiLd s ld f) := by
  unfold State.modRiLd
  with_reducible refine SafeStep.trans ?_ (SafeStep.fields rfl rfl rfl rfl)
  exact SafeStep.refl _

theorem State.slotRecord_safe (s : State) (b kind utype unit detail : Nat) (outs : List Out) : SafeStep s (State.slotRecord s b kind utype unit detail outs) := by
  unfold State.slotRecord
  extract_lets +onlyGivenNames q1
  refine SafeStep.trans ?_ (State.ledger_safe ..)
  exact SafeStep.refl _

theorem State.usePeer_safe (s : State) (port : Nat) : SafeStep s (State.usePeer s port) := by
  unfold State.usePeer
  refine SafeStep.trans ?_ (State.modPort_safe ..)
  exact SafeStep.refl _

theorem State.sendPeer_safe (s : State) (port ptype : Nat) (flds : List Fld) (data : Bytes) : SafeStep s (State.sendPeer s port ptype flds data) := by
  unfold State.sendPeer
  refine SafeStep.trans ?_ (State.send_safe ..)
  refine SafeStep.trans ?_ (State.usePeer_safe ..)
  exact SafeStep.refl _

theorem State.transmit_safe (s : State) (k : Packet) : SafeStep s (State.transmit s k) := by
  unfold State.transmit
  extract_lets +onlyGivenNames q1
  refine SafeStep.trans ?_ (State.sendPeer_safe ..)
  exact SafeStep.refl _

theorem State.modPacket_safe (s : State) (port tag : Nat) (f : Packet → Packet) : SafeStep s (State.modPacket s port tag f) := by
  unfold State.modPacket
  refine SafeStep.trans ?_ (State.modPorts_safe ..)
  exact SafeStep.refl _

theorem State.pumpPackets_safe (s : State) (port : Nat) : SafeStep s (State.pumpPackets s port) := by
  unfold State.pumpPackets
  refine SafeStep.foldl ?_ (fun s x => ?_)
  exact SafeStep.refl _
  refine SafeStep.ite ?_ ?_
  extract_lets +onlyGivenNames q1
  extract_lets +onlyGivenNames q2
  refine SafeStep.trans ?_ (State.transmit_safe ..)
  refine SafeStep.trans ?_ (State.modPacket_safe ..)
  exact SafeStep.refl _
  exact SafeStep.refl _

theorem State.modFwd_safe (s : State) (id : Nat) (f : Fwd → Fwd) : SafeStep s (State.modFwd s id f) := by
  unfold State.modFwd
  refine SafeStep.trans ?_ (State.modPorts_safe ..)
  exact SafeStep.refl _

theorem State.putSettle_safe (s : State) (f : Fwd) (kind cause : Nat) : SafeStep s (State.putSettle s f kind cause) := by
  unfold State.putSettle
  extract_lets +onlyGivenNames q1
  refine SafeStep.ite ?_ ?_
  extract_lets +onlyGivenNames q2
  extract_lets +onlyGivenNames q3
  extract_lets +onlyGivenNames q4
  refine SafeStep.ite ?_ ?_
  refine SafeStep.trans ?_ (State.slotRecord_safe ..)
  refine SafeStep.trans ?_ (State.modRiLd_safe ..)
  refine SafeStep.trans ?_ (State.usePeer_safe ..)
  exact SafeStep.refl _
  refine SafeStep.trans ?_ (State.sendPeer_safe ..)
  exact SafeStep.refl _
  refine SafeStep.ite ?_ ?_
  exact SafeStep.refl _
  refine SafeStep.trans ?_ (State.slotRecord_safe ..)
  exact SafeStep.refl _

theorem State.sweepFwds_safe (s : State) : SafeStep s (State.sweepFwds s) := by
  unfold State.sweepFwds
  refine SafeStep.trans ?_ (State.modPorts_safe ..)
  exact SafeStep.refl _

theorem State.settleFwd_safe (s : State) (id kind cause : Nat) : SafeStep s (State.settleFwd s id kind cause) := by
  unfold State.settleFwd
  split
  exact SafeStep.refl _
  refine SafeStep.ite ?_ ?_
  exact SafeStep.refl _
  refine SafeStep.ite ?_ ?_
  refine SafeStep.trans ?_ (State.modFwd_safe ..)
  exact SafeStep.refl _
  refine SafeStep.trans ?_ (State.sweepFwds_safe ..)
  refine SafeStep.trans ?_ (State.putSettle_safe ..)
  refine SafeStep.trans ?_ (State.modFwd_safe ..)
  exact SafeStep.refl _

theorem State.flushSettles_safe (s : State) : SafeStep s (State.flushSettles s) := by
  unfold State.flushSettles
  refine SafeStep.trans ?_ (State.sweepFwds_safe ..)
  refine SafeStep.foldl ?_ (fun s x => ?_)
  exact SafeStep.refl _
  split
  refine SafeStep.ite ?_ ?_
  exact SafeStep.refl _
  refine SafeStep.trans ?_ (State.putSettle_safe ..)
  refine SafeStep.trans ?_ (State.modFwd_safe ..)
  exact SafeStep.refl _
  exact SafeStep.refl _

theorem State.pump_safe (s : State) (port : Nat) : SafeStep s (State.pump s port) := by
  unfold State.pump
  refine SafeStep.trans ?_ (State.flushSettles_safe ..)
  refine SafeStep.trans ?_ (State.pumpPackets_safe ..)
  exact SafeStep.refl _

theorem State.addPackets_safe (s : State) (f : Fwd) (y0 : Nat) (y1 : Nat) (y2 : Bytes) : SafeStep s (State.addPackets s f y0 y1 y2) := by
  induction y0 generalizing s y1 y2 with
  | zero =>
    unfold State.addPackets
    exact SafeStep.refl _
  | succ n ih =>
    unfold State.addPackets
    extract_lets +onlyGivenNames q1
    extract_lets +onlyGivenNames q2
    refine SafeStep.ite ?_ ?_
    refine SafeStep.trans ?_ (State.modPorts_safe ..)
    exact SafeStep.refl _
    refine SafeStep.trans ?_ (ih ..)
    refine SafeStep.trans ?_ (State.modPorts_safe ..)
    exact SafeStep.refl _

theorem State.startForward_safe (s : State) (b : Nat) (early : Bool) (result : Bytes) : SafeStep s (State.startForward s b early result).2 := by
  unfold State.startForward
  split
  exact SafeStep.refl _
  refine SafeStep.iteP ?_ ?_
  exact SafeStep.refl _
  extract_lets +onlyGivenNames q1
  extract_lets +onlyGivenNames q2
  extract_lets +onlyGivenNames q3
  extract_lets +onlyGivenNames q4
  extract_lets +onlyGivenNames q5
  extract_lets +onlyGivenNames q6
  extract_lets +onlyGivenNames q7
  extract_lets +onlyGivenNames q8
  dsimp only
  refine SafeStep.ite ?_ ?_
  refine SafeStep.trans ?_ (State.pump_safe ..)
  refine SafeStep.ite ?_ ?_
  refine SafeStep.trans ?_ (State.modRiLd_safe ..)
  refine SafeStep.trans ?_ (State.addPackets_safe ..)
  refine SafeStep.trans ?_ (State.modPorts_safe ..)
  exact SafeStep.refl _
  refine SafeStep.trans ?_ (State.addPackets_safe ..)
  refine SafeStep.trans ?_ (State.modPorts_safe ..)
  exact SafeStep.refl _
  refine SafeStep.trans ?_ (State.settleFwd_safe ..)
  refine SafeStep.trans ?_ (State.pump_safe ..)
  refine SafeStep.ite ?_ ?_
  refine SafeStep.trans ?_ (State.modRiLd_safe ..)
  refine SafeStep.trans ?_ (State.addPackets_safe ..)
  refine SafeStep.trans ?_ (State.modPorts_safe ..)
  exact SafeStep.refl _
  refine SafeStep.trans ?_ (State.addPackets_safe ..)
  refine SafeStep.trans ?_ (State.modPorts_safe ..)
  exact SafeStep.refl _

theorem State.failForward_safe (s : State) (id status : Nat) : SafeStep s (State.failForward s id status) := by
  unfold State.failForward
  split
  exact SafeStep.refl _
  refine SafeStep.ite ?_ ?_
  exact SafeStep.refl _
  extract_lets +onlyGivenNames q1
  extract_lets +onlyGivenNames q2
  extract_lets +onlyGivenNames q3
  extract_lets +onlyGivenNames q4
  refine SafeStep.trans ?_ (State.flushSettles_safe ..)
  refine SafeStep.trans ?_ (State.post_safe ..)
  refine SafeStep.trans ?_ (State.modFwdLd_safe ..)
  refine SafeStep.trans ?_ (State.modFwd_safe ..)
  refine SafeStep.trans ?_ (State.modPorts_safe ..)
  exact SafeStep.refl _

theorem State.unbind_safe (s : State) (p : Bind → Bool) : SafeStep s (State.unbind s p) := by
  unfold State.unbind
  refine SafeStep.trans ?_ (State.modPorts_safe ..)
  exact SafeStep.refl _

theorem State.forwardEnd_safe (s : State) (b : Nat) (o : GateOp) (st : SlotState) (code : Nat) (result : Bytes) : SafeStep s (State.forwardEnd s b o st code result) := by
  unfold State.forwardEnd
  split
  refine SafeStep.ite ?_ ?_
  split
  refine SafeStep.ite ?_ ?_
  extract_lets +onlyGivenNames q1
  extract_lets +onlyGivenNames q2
  refine SafeStep.trans ?_ (State.startForward_safe ..)
  refine SafeStep.trans ?_ (State.settleFwd_safe ..)
  refine SafeStep.trans ?_ (State.modRiLd_safe ..)
  refine SafeStep.trans ?_ (State.modFwd_safe ..)
  exact SafeStep.refl _
  refine SafeStep.trans ?_ (State.settleFwd_safe ..)
  exact SafeStep.refl _
  exact SafeStep.refl _
  refine SafeStep.trans ?_ (State.settleFwd_safe ..)
  exact SafeStep.refl _
  refine SafeStep.ite ?_ ?_
  refine SafeStep.trans ?_ (State.startForward_safe ..)
  exact SafeStep.refl _
  exact SafeStep.refl _

theorem State.finish0_safe (s : State) (b : Nat) (st : SlotState) (code aux : Nat) (result : Bytes) (trunc : Bool) : SafeStep s (State.finish0 s b st code aux result trunc) := by
  unfold State.finish0
  split
  refine SafeStep.trans ?_ (State.settleSlot_safe ..)
  exact SafeStep.refl _
  extract_lets +onlyGivenNames q1
  extract_lets +onlyGivenNames q2
  extract_lets +onlyGivenNames q3
  refine SafeStep.trans ?_ (State.forwardEnd_safe ..)
  refine SafeStep.trans ?_ (State.settleSlot_safe ..)
  refine SafeStep.ite ?_ ?_
  refine SafeStep.foldl ?_ (fun s x => ?_)
  refine SafeStep.ite ?_ ?_
  exact SafeStep.refl _
  refine SafeStep.trans ?_ (State.dropPublish_safe ..)
  exact SafeStep.refl _
  refine SafeStep.trans ?_ (State.freeStream_safe ..)
  exact SafeStep.refl _
  refine SafeStep.ite ?_ ?_
  exact SafeStep.refl _
  refine SafeStep.trans ?_ (State.dropPublish_safe ..)
  exact SafeStep.refl _

theorem State.copyOne_safe (s : State) (c : HubCopy) (cls : Nat) : SafeStep s (State.copyOne s c cls).2.2 := by
  unfold State.copyOne
  split
  exact SafeStep.refl _
  split
  extract_lets +onlyGivenNames q1
  dsimp only
  refine SafeStep.trans ?_ (State.innerBytes_safe ..)
  refine SafeStep.snd3 (by assumption) ?_
  refine SafeStep.trans ?_ (State.hubBlks_safe ..)
  exact SafeStep.refl _

theorem State.copyAll_safe (s : State) (cls : Nat) (y0 : List HubCopy) : SafeStep s (State.copyAll s cls y0).2.2 := by
  induction y0 generalizing s with
  | nil =>
    unfold State.copyAll
    exact SafeStep.refl _
  | cons c l ih =>
    unfold State.copyAll
    split
    split
    dsimp only
    refine SafeStep.snd3 (by assumption) ?_
    refine SafeStep.trans ?_ (ih ..)
    refine SafeStep.snd3 (by assumption) ?_
    refine SafeStep.trans ?_ (State.copyOne_safe ..)
    exact SafeStep.refl _

theorem hubWork_safe (b : Nat) (r : List Nat × Met × State) : SafeStep r.2.2 (hubWork b r) := by
  unfold hubWork
  extract_lets +onlyGivenNames q1
  refine SafeStep.ite ?_ ?_
  refine SafeStep.trans ?_ (State.finish0_safe ..)
  exact SafeStep.refl _
  extract_lets +onlyGivenNames q2
  refine SafeStep.trans ?_ (State.modOp_safe ..)
  refine SafeStep.trans ?_ (State.modSlot_safe ..)
  exact SafeStep.refl _

theorem State.startPieces_safe (s : State) (b : Nat) (o : GateOp) : SafeStep s (State.startPieces s b o) := by
  unfold State.startPieces
  refine SafeStep.ite ?_ ?_
  extract_lets +onlyGivenNames q1
  refine SafeStep.trans ?_ (State.finish0_safe ..)
  exact SafeStep.refl _
  refine SafeStep.trans ?_ (State.dispatchAll_safe ..)
  exact SafeStep.refl _

theorem State.attachOp_safe (s : State) (b : Nat) (q : KvSeq) (n : Bin) : SafeStep s (State.attachOp s b q n) := by
  unfold State.attachOp
  refine SafeStep.ite ?_ ?_
  refine SafeStep.trans ?_ (State.finish0_safe ..)
  exact SafeStep.refl _
  refine SafeStep.ite ?_ ?_
  refine SafeStep.trans ?_ (State.finish0_safe ..)
  exact SafeStep.refl _
  refine SafeStep.ite ?_ ?_
  refine SafeStep.trans ?_ (State.finish0_safe ..)
  refine SafeStep.trans ?_ (State.modSeq_safe ..)
  refine SafeStep.trans ?_ (State.attachBin_safe ..)
  exact SafeStep.refl _
  refine SafeStep.trans ?_ (State.finish0_safe ..)
  exact SafeStep.refl _

theorem State.attachTurn_safe (s : State) (b : Nat) (o : GateOp) (q : KvSeq) : SafeStep s (State.attachTurn s b o q) := by
  unfold State.attachTurn
  refine SafeStep.ite ?_ ?_
  refine SafeStep.trans ?_ (State.finish0_safe ..)
  exact SafeStep.refl _
  split
  refine SafeStep.trans ?_ (State.finish0_safe ..)
  refine SafeStep.trans ?_ (State.modSlot_safe ..)
  refine SafeStep.trans ?_ (State.modGateLd_safe ..)
  exact SafeStep.refl _
  refine SafeStep.trans ?_ (State.attachOp_safe ..)
  refine SafeStep.trans ?_ (State.modGateLd_safe ..)
  exact SafeStep.refl _

theorem State.publishTurn_safe (s : State) (b : Nat) (o : GateOp) (q : KvSeq) : SafeStep s (State.publishTurn s b o q) := by
  unfold State.publishTurn
  extract_lets +onlyGivenNames q1
  extract_lets +onlyGivenNames q2
  extract_lets +onlyGivenNames q3
  refine SafeStep.ite ?_ ?_
  refine SafeStep.trans ?_ (State.finish0_safe ..)
  exact SafeStep.refl _
  split
  refine SafeStep.trans ?_ (State.finish0_safe ..)
  refine SafeStep.trans ?_ (State.modSlot_safe ..)
  exact SafeStep.refl _
  extract_lets +onlyGivenNames q4
  extract_lets +onlyGivenNames q5
  refine SafeStep.ite ?_ ?_
  refine SafeStep.trans ?_ (State.finish0_safe ..)
  exact SafeStep.refl _
  extract_lets +onlyGivenNames q6
  split
  refine SafeStep.trans ?_ (State.finish0_safe ..)
  refine SafeStep.trans ?_ (State.modGateLd_safe ..)
  exact SafeStep.refl _
  extract_lets +onlyGivenNames q7
  extract_lets +onlyGivenNames q8
  extract_lets +onlyGivenNames q9
  refine SafeStep.trans ?_ (hubWork_safe ..)
  refine SafeStep.trans ?_ (State.copyAll_safe ..)
  refine SafeStep.trans ?_ (State.holdOp_safe ..)
  refine SafeStep.trans ?_ (State.modOp_safe ..)
  refine SafeStep.trans ?_ (State.modGate_safe ..)
  refine SafeStep.trans ?_ (State.makeRoom_safe _ _ _ _ _ _ (by assumption))
  exact SafeStep.refl _

theorem State.startOp_safe (s : State) (b : Nat) : SafeStep s (State.startOp s b) := by
  unfold State.startOp
  split
  exact SafeStep.refl _
  extract_lets +onlyGivenNames q1
  extract_lets +onlyGivenNames q2
  extract_lets +onlyGivenNames q3
  split
  refine SafeStep.ite ?_ ?_
  refine SafeStep.trans ?_ (State.finish0_safe ..)
  refine SafeStep.trans ?_ (State.modOp_safe ..)
  exact SafeStep.refl _
  refine SafeStep.trans ?_ (State.startPieces_safe ..)
  refine SafeStep.trans ?_ (State.modOp_safe ..)
  exact SafeStep.refl _
  split
  refine SafeStep.trans ?_ (State.startPieces_safe ..)
  refine SafeStep.ite ?_ ?_
  refine SafeStep.trans ?_ (State.modOp_safe ..)
  exact SafeStep.refl _
  refine SafeStep.trans ?_ (State.cutPrefix_safe ..)
  refine SafeStep.trans ?_ (State.modOp_safe ..)
  exact SafeStep.refl _
  refine SafeStep.trans ?_ (State.attachTurn_safe ..)
  refine SafeStep.trans ?_ (State.modOp_safe ..)
  exact SafeStep.refl _
  extract_lets +onlyGivenNames q4
  extract_lets +onlyGivenNames q5
  refine SafeStep.trans ?_ (hubWork_safe ..)
  refine SafeStep.trans ?_ (State.copyAll_safe ..)
  refine SafeStep.trans ?_ (State.holdOp_safe ..)
  refine SafeStep.trans ?_ (State.modSeq_safe ..)
  refine SafeStep.trans ?_ (State.cutPrefix_safe ..)
  refine SafeStep.trans ?_ (State.modOp_safe ..)
  exact SafeStep.refl _
  refine SafeStep.trans ?_ (State.publishTurn_safe ..)
  refine SafeStep.trans ?_ (State.modOp_safe ..)
  exact SafeStep.refl _
  extract_lets +onlyGivenNames q6
  refine SafeStep.trans ?_ (State.finish0_safe ..)
  refine SafeStep.trans ?_ (State.modSeq_safe ..)
  refine SafeStep.trans ?_ (State.cutPrefix_safe ..)
  refine SafeStep.trans ?_ (State.modOp_safe ..)
  exact SafeStep.refl _
  refine SafeStep.trans ?_ (State.startPieces_safe ..)
  refine SafeStep.trans ?_ (State.modOp_safe ..)
  exact SafeStep.refl _

theorem State.startSeqOps_safe (s : State) (ld id : Nat) (y0 : Nat) : SafeStep s (State.startSeqOps s ld id y0) := by
  induction y0 generalizing s with
  | zero =>
    unfold State.startSeqOps
    exact SafeStep.refl _
  | succ n ih =>
    unfold State.startSeqOps
    split
    exact SafeStep.refl _
    split
    refine SafeStep.ite ?_ ?_
    exact SafeStep.refl _
    refine SafeStep.trans ?_ (ih ..)
    refine SafeStep.trans ?_ (State.startOp_safe ..)
    exact SafeStep.refl _
    exact SafeStep.refl _

theorem State.advance_safe (s : State) (b : Nat) (o : Option GateOp) : SafeStep s (State.advance s b o) := by
  unfold State.advance
  split
  refine SafeStep.ite ?_ ?_
  refine SafeStep.trans ?_ (State.startSeqOps_safe ..)
  exact SafeStep.refl _
  exact SafeStep.refl _
  exact SafeStep.refl _

theorem State.finish_safe (s : State) (b : Nat) (st : SlotState) (code aux : Nat) (result : Bytes) (trunc : Bool) : SafeStep s (State.finish s b st code aux result trunc) := by
  unfold State.finish
  refine SafeStep.trans ?_ (State.advance_safe ..)
  refine SafeStep.trans ?_ (State.finish0_safe ..)
  exact SafeStep.refl _

theorem State.cancelOp_safe (s : State) (b : Nat) : SafeStep s (State.cancelOp s b) := by
  unfold State.cancelOp
  split
  refine SafeStep.trans ?_ (State.cancelSlot_safe ..)
  exact SafeStep.refl _
  extract_lets +onlyGivenNames q1
  extract_lets +onlyGivenNames q2
  refine SafeStep.trans ?_ (State.forwardEnd_safe ..)
  refine SafeStep.trans ?_ (State.cancelSlot_safe ..)
  refine SafeStep.ite ?_ ?_
  refine SafeStep.foldl ?_ (fun s x => ?_)
  refine SafeStep.trans ?_ (State.dropPublish_safe ..)
  exact SafeStep.refl _
  refine SafeStep.trans ?_ (State.freeStream_safe ..)
  exact SafeStep.refl _
  refine SafeStep.trans ?_ (State.dropPublish_safe ..)
  exact SafeStep.refl _

theorem State.cancelGate_safe (s : State) (b : Nat) : SafeStep s (State.cancelGate s b) := by
  unfold State.cancelGate
  refine SafeStep.trans ?_ (State.advance_safe ..)
  refine SafeStep.trans ?_ (State.cancelOp_safe ..)
  exact SafeStep.refl _

theorem State.appendRecord_safe (s : State) (ld : Nat) (o : GateOp) : SafeStep s (State.appendRecord s ld o) := by
  unfold State.appendRecord
  split
  exact SafeStep.refl _
  refine SafeStep.ite ?_ ?_
  exact SafeStep.refl _
  extract_lets +onlyGivenNames q1
  extract_lets +onlyGivenNames q2
  extract_lets +onlyGivenNames q3
  extract_lets +onlyGivenNames q4
  refine SafeStep.trans ?_ (State.useStream_safe ..)
  refine SafeStep.trans ?_ (State.modSeq_safe ..)
  refine SafeStep.trans ?_ (State.innerBytes_safe ..)
  exact SafeStep.refl _

theorem State.queueSeq_safe (s : State) (b : Nat) (o : GateOp) : SafeStep s (State.queueSeq s b o) := by
  unfold State.queueSeq
  extract_lets +onlyGivenNames q1
  refine SafeStep.trans ?_ (State.startSeqOps_safe ..)
  refine SafeStep.trans ?_ (State.useStream_safe ..)
  exact SafeStep.refl _

theorem execAppendAttend_safe (g : GoWrite) (s : State) : ∀ v : State, execAppendAttend g s = .next v → SafeStep s v := by
  unfold execAppendAttend
  refine SafeStep.nx ?_
  refine SafeStep.trans ?_ (State.runGo_safe _ _ _ _ _ _ _ _ ?_)
  exact SafeStep.refl _
  intro _ _ _
  refine SafeStep.trans ?_ (State.queueSeq_safe ..)
  refine SafeStep.trans ?_ (State.appendRecord_safe ..)
  exact SafeStep.refl _

theorem execChunkPrefill_safe (g : GoWrite) (s : State) : ∀ v : State, execChunkPrefill g s = .next v → SafeStep s v := by
  unfold execChunkPrefill
  refine SafeStep.nx ?_
  refine SafeStep.trans ?_ (State.runGo_safe _ _ _ _ _ _ _ _ ?_)
  exact SafeStep.refl _
  intro _ _ _
  refine SafeStep.trans ?_ (State.queueSeq_safe ..)
  exact SafeStep.refl _

theorem State.prefillDone_safe (s : State) (b ld obj : Nat) (p : Bytes) : SafeStep s (State.prefillDone s b ld obj p) := by
  unfold State.prefillDone
  split
  exact SafeStep.refl _
  refine SafeStep.trans ?_ (State.modOp_safe ..)
  refine SafeStep.trans ?_ (State.modSeq_safe ..)
  exact SafeStep.refl _

theorem execPrefillWritesDone_safe (t ld buf : Nat) (s : State) : ∀ v : State, execPrefillWritesDone t ld buf s = .next v → SafeStep s v := by
  unfold execPrefillWritesDone
  extract_lets +onlyGivenNames q1
  extract_lets +onlyGivenNames q2
  split
  refine SafeStep.nx ?_
  refine SafeStep.trans ?_ (State.at__safe ..)
  exact SafeStep.refl _
  refine SafeStep.nxIte ?_ ?_
  extract_lets +onlyGivenNames q3
  extract_lets +onlyGivenNames q4
  refine SafeStep.nxIte ?_ ?_
  refine SafeStep.nx ?_
  refine SafeStep.trans ?_ (State.finish_safe ..)
  refine SafeStep.trans ?_ (State.prefillDone_safe ..)
  refine SafeStep.trans ?_ (State.at__safe ..)
  exact SafeStep.refl _
  refine SafeStep.nx ?_
  refine SafeStep.trans ?_ (State.dispatchAll_safe ..)
  refine SafeStep.trans ?_ (State.prefillDone_safe ..)
  refine SafeStep.trans ?_ (State.at__safe ..)
  exact SafeStep.refl _
  refine SafeStep.nx ?_
  refine SafeStep.trans ?_ (State.at__safe ..)
  exact SafeStep.refl _

theorem execPrefixAttach_safe (g : GoWrite) (s : State) : ∀ v : State, execPrefixAttach g s = .next v → SafeStep s v := by
  unfold execPrefixAttach
  refine SafeStep.nx ?_
  refine SafeStep.trans ?_ (State.runGo_safe _ _ _ _ _ _ _ _ ?_)
  exact SafeStep.refl _
  intro _ _ _
  refine SafeStep.trans ?_ (State.queueSeq_safe ..)
  exact SafeStep.refl _

theorem execPrefixPublish_safe (g : GoWrite) (s : State) : ∀ v : State, execPrefixPublish g s = .next v → SafeStep s v := by
  unfold execPrefixPublish
  refine SafeStep.nx ?_
  refine SafeStep.trans ?_ (State.runGo_safe _ _ _ _ _ _ _ _ ?_)
  exact SafeStep.refl _
  intro _ _ _
  refine SafeStep.trans ?_ (State.queueSeq_safe ..)
  exact SafeStep.refl _

theorem execPublishCommit_safe (t ld buf : Nat) (s : State) : ∀ v : State, execPublishCommit t ld buf s = .next v → SafeStep s v := by
  unfold execPublishCommit
  extract_lets +onlyGivenNames q1
  extract_lets +onlyGivenNames q2
  split
  refine SafeStep.nx ?_
  refine SafeStep.trans ?_ (State.at__safe ..)
  exact SafeStep.refl _
  split
  refine SafeStep.nx ?_
  refine SafeStep.trans ?_ (State.at__safe ..)
  exact SafeStep.refl _
  refine SafeStep.nxIte ?_ ?_
  extract_lets +onlyGivenNames q3
  refine SafeStep.nx ?_
  refine SafeStep.trans ?_ (State.finish_safe ..)
  refine SafeStep.trans ?_ (State.journal_safe ..)
  refine SafeStep.trans ?_ (State.modBin_safe ..)
  refine SafeStep.trans ?_ (State.at__safe ..)
  exact SafeStep.refl _
  refine SafeStep.nx ?_
  refine SafeStep.trans ?_ (State.at__safe ..)
  exact SafeStep.refl _

theorem execSeqTruncate_safe (g : GoWrite) (s : State) : ∀ v : State, execSeqTruncate g s = .next v → SafeStep s v := by
  unfold execSeqTruncate
  refine SafeStep.nx ?_
  refine SafeStep.trans ?_ (State.runGo_safe _ _ _ _ _ _ _ _ ?_)
  exact SafeStep.refl _
  intro _ _ _
  refine SafeStep.trans ?_ (State.queueSeq_safe ..)
  exact SafeStep.refl _

theorem execGateNop_safe (g : GoWrite) (s : State) : ∀ v : State, execGateNop g s = .next v → SafeStep s v := by
  unfold execGateNop
  refine SafeStep.nx ?_
  split
  refine SafeStep.trans ?_ (State.takeGo_safe _ _ _ _ (by assumption))
  exact SafeStep.refl _
  refine SafeStep.ite ?_ ?_
  refine SafeStep.trans ?_ (State.failGo_safe ..)
  refine SafeStep.trans ?_ (State.takeGo_safe _ _ _ _ (by assumption))
  exact SafeStep.refl _
  split
  refine SafeStep.trans ?_ (State.failGo_safe ..)
  refine SafeStep.trans ?_ (State.takeGo_safe _ _ _ _ (by assumption))
  exact SafeStep.refl _
  refine SafeStep.trans ?_ (State.settleSlot_safe ..)
  refine SafeStep.trans ?_ (State.takeGo_safe _ _ _ _ (by assumption))
  exact SafeStep.refl _

theorem execGateOpcodeReserved_safe (g : GoWrite) (opcode : Nat) (s : State) : ∀ v : State, execGateOpcodeReserved g opcode s = .next v → SafeStep s v := by
  unfold execGateOpcodeReserved
  refine SafeStep.nx ?_
  split
  refine SafeStep.trans ?_ (State.takeGo_safe _ _ _ _ (by assumption))
  exact SafeStep.refl _
  refine SafeStep.trans ?_ (State.failGo_safe ..)
  refine SafeStep.trans ?_ (State.takeGo_safe _ _ _ _ (by assumption))
  exact SafeStep.refl _

theorem execGraphSearch_safe (g : GoWrite) (s : State) : ∀ v : State, execGraphSearch g s = .next v → SafeStep s v := by
  unfold execGraphSearch
  refine SafeStep.nx ?_
  refine SafeStep.trans ?_ (State.runGo_safe _ _ _ _ _ _ _ _ ?_)
  exact SafeStep.refl _
  intro _ _ _
  extract_lets +onlyGivenNames q1
  refine SafeStep.trans ?_ (State.startPieces_safe ..)
  refine SafeStep.foldl ?_ (fun s x => ?_)
  exact SafeStep.refl _
  refine SafeStep.trans ?_ (State.openStream_safe ..)
  exact SafeStep.refl _

theorem execDistanceBatch_safe (g : GoWrite) (s : State) : ∀ v : State, execDistanceBatch g s = .next v → SafeStep s v := by
  unfold execDistanceBatch
  refine SafeStep.nx ?_
  refine SafeStep.trans ?_ (State.runGo_safe _ _ _ _ _ _ _ _ ?_)
  exact SafeStep.refl _
  intro _ _ _
  refine SafeStep.trans ?_ (State.startPieces_safe ..)
  exact SafeStep.refl _

theorem State.setOp_safe (s : State) (g : GoWrite) (opcode : Nat) : SafeStep s (State.setOp s g opcode) := by
  unfold State.setOp
  refine SafeStep.trans ?_ (State.runGo_safe _ _ _ _ _ _ _ _ ?_)
  exact SafeStep.refl _
  intro _ _ _
  refine SafeStep.trans ?_ (State.startPieces_safe ..)
  exact SafeStep.refl _

theorem execSetIntersect_safe (g : GoWrite) (s : State) : ∀ v : State, execSetIntersect g s = .next v → SafeStep s v := by
  unfold execSetIntersect
  refine SafeStep.nx ?_
  refine SafeStep.trans ?_ (State.setOp_safe ..)
  exact SafeStep.refl _

theorem execSetUnion_safe (g : GoWrite) (s : State) : ∀ v : State, execSetUnion g s = .next v → SafeStep s v := by
  unfold execSetUnion
  refine SafeStep.nx ?_
  refine SafeStep.trans ?_ (State.setOp_safe ..)
  exact SafeStep.refl _

theorem execSetDifference_safe (g : GoWrite) (s : State) : ∀ v : State, execSetDifference g s = .next v → SafeStep s v := by
  unfold execSetDifference
  refine SafeStep.nx ?_
  refine SafeStep.trans ?_ (State.setOp_safe ..)
  exact SafeStep.refl _

theorem execTenant_safe (g : GoWrite) (s : State) : ∀ v : State, execTenant g s = .next v → SafeStep s v := by
  unfold execTenant
  refine SafeStep.nx ?_
  refine SafeStep.trans ?_ (State.runGo_safe _ _ _ _ _ _ _ _ ?_)
  exact SafeStep.refl _
  intro _ _ _
  refine SafeStep.trans ?_ (State.startPieces_safe ..)
  exact SafeStep.refl _

theorem State.slotWrite_safe (s : State) (ld b line : Nat) (data : Bytes) (enables : BitVec 64) (poison : Bool) : SafeStep s (State.slotWrite s ld b line data enables poison) := by
  unfold State.slotWrite
  refine SafeStep.ite ?_ ?_
  refine SafeStep.ite ?_ ?_
  refine SafeStep.trans ?_ (State.setParam_safe ..)
  exact SafeStep.refl _
  split
  refine SafeStep.trans ?_ (State.setParam_safe ..)
  exact SafeStep.refl _
  refine SafeStep.ite ?_ ?_
  refine SafeStep.trans ?_ (State.setParam_safe ..)
  exact SafeStep.refl _
  exact SafeStep.refl _
  refine SafeStep.trans ?_ (State.modGateLd_safe ..)
  exact SafeStep.refl _

theorem execGateParamWrite_safe (ld dpa : Nat) (data : Bytes) (enables : BitVec 64) (poison : Bool) (s : State) : ∀ v : State, execGateParamWrite ld dpa data enables poison s = .next v → SafeStep s v := by
  unfold execGateParamWrite
  extract_lets +onlyGivenNames q1
  refine SafeStep.nxIte ?_ ?_
  refine SafeStep.nx ?_
  refine SafeStep.trans ?_ (State.settleLeaving_safe ..)
  refine SafeStep.trans ?_ (State.poisonSeen_safe ..)
  exact SafeStep.refl _
  split
  refine SafeStep.nx ?_
  refine SafeStep.trans ?_ (State.drop_safe ..)
  refine SafeStep.trans ?_ (State.settleLeaving_safe ..)
  refine SafeStep.trans ?_ (State.poisonSeen_safe ..)
  exact SafeStep.refl _
  refine SafeStep.nx ?_
  refine SafeStep.trans ?_ (State.drop_safe ..)
  refine SafeStep.trans ?_ (State.settleLeaving_safe ..)
  refine SafeStep.trans ?_ (State.poisonSeen_safe ..)
  exact SafeStep.refl _
  refine SafeStep.nxIte ?_ ?_
  refine SafeStep.nx ?_
  refine SafeStep.trans ?_ (State.writeLine_safe ..)
  refine SafeStep.trans ?_ (State.settleLeaving_safe ..)
  refine SafeStep.trans ?_ (State.poisonSeen_safe ..)
  exact SafeStep.refl _
  split
  refine SafeStep.nx ?_
  refine SafeStep.trans ?_ (State.modGateLd_safe ..)
  refine SafeStep.trans ?_ (State.settleLeaving_safe ..)
  refine SafeStep.trans ?_ (State.poisonSeen_safe ..)
  exact SafeStep.refl _
  extract_lets +onlyGivenNames q2
  refine SafeStep.nxIte ?_ ?_
  refine SafeStep.nx ?_
  refine SafeStep.trans ?_ (State.modGateLd_safe ..)
  refine SafeStep.trans ?_ (State.settleLeaving_safe ..)
  refine SafeStep.trans ?_ (State.poisonSeen_safe ..)
  exact SafeStep.refl _
  refine SafeStep.nx ?_
  refine SafeStep.trans ?_ (State.slotWrite_safe ..)
  refine SafeStep.trans ?_ (State.settleLeaving_safe ..)
  refine SafeStep.trans ?_ (State.poisonSeen_safe ..)
  exact SafeStep.refl _

theorem State.slotRead_safe (s : State) (ld b line tag : Nat) : SafeStep s (State.slotRead s ld b line tag) := by
  unfold State.slotRead
  extract_lets +onlyGivenNames q1
  extract_lets +onlyGivenNames q2
  refine SafeStep.ite ?_ ?_
  refine SafeStep.trans ?_ (State.sendLine_safe ..)
  exact SafeStep.refl _
  refine SafeStep.ite ?_ ?_
  refine SafeStep.trans ?_ (State.sendLine_safe ..)
  exact SafeStep.refl _
  refine SafeStep.ite ?_ ?_
  refine SafeStep.trans ?_ (State.sendLine_safe ..)
  exact SafeStep.refl _
  refine SafeStep.ite ?_ ?_
  split
  refine SafeStep.trans ?_ (State.sendLine_safe ..)
  exact SafeStep.refl _
  refine SafeStep.trans ?_ (State.sendPoison_safe ..)
  exact SafeStep.refl _
  split
  refine SafeStep.trans ?_ (State.sendLine_safe ..)
  exact SafeStep.refl _
  refine SafeStep.ite ?_ ?_
  refine SafeStep.trans ?_ (State.sendPoison_safe ..)
  refine SafeStep.trans ?_ (State.modGateLd_safe ..)
  exact SafeStep.refl _
  extract_lets +onlyGivenNames q3
  refine SafeStep.trans ?_ (State.modGate_safe ..)
  refine SafeStep.trans ?_ (State.modGateLd_safe ..)
  exact SafeStep.refl _
  refine SafeStep.ite ?_ ?_
  refine SafeStep.trans ?_ (State.sendPoison_safe ..)
  refine SafeStep.trans ?_ (State.modGateLd_safe ..)
  exact SafeStep.refl _
  extract_lets +onlyGivenNames q4
  refine SafeStep.trans ?_ (State.modGate_safe ..)
  refine SafeStep.trans ?_ (State.modGateLd_safe ..)
  exact SafeStep.refl _
  refine SafeStep.ite ?_ ?_
  refine SafeStep.trans ?_ (State.sendPoison_safe ..)
  refine SafeStep.trans ?_ (State.modGateLd_safe ..)
  exact SafeStep.refl _
  extract_lets +onlyGivenNames q5
  refine SafeStep.trans ?_ (State.modGate_safe ..)
  refine SafeStep.trans ?_ (State.modGateLd_safe ..)
  exact SafeStep.refl _
  refine SafeStep.trans ?_ (State.sendResult_safe ..)
  exact SafeStep.refl _

theorem State.gateRead_safe (s : State) (ld dpa tag : Nat) : SafeStep s (State.gateRead s ld dpa tag) := by
  unfold State.gateRead
  split
  refine SafeStep.trans ?_ (State.send_safe ..)
  refine SafeStep.trans ?_ (State.modGateLd_safe ..)
  exact SafeStep.refl _
  refine SafeStep.trans ?_ (State.slotRead_safe ..)
  exact SafeStep.refl _

theorem execGateResultRead_safe (ld dpa tag : Nat) (s : State) : ∀ v : State, execGateResultRead ld dpa tag s = .next v → SafeStep s v := by
  unfold execGateResultRead
  extract_lets +onlyGivenNames q1
  refine SafeStep.nxIte ?_ ?_
  refine SafeStep.nx ?_
  refine SafeStep.trans ?_ (State.settleLeaving_safe ..)
  exact SafeStep.refl _
  split
  refine SafeStep.nx ?_
  refine SafeStep.trans ?_ (State.send_safe ..)
  refine SafeStep.trans ?_ (State.drop_safe ..)
  refine SafeStep.trans ?_ (State.settleLeaving_safe ..)
  exact SafeStep.refl _
  refine SafeStep.nx ?_
  refine SafeStep.trans ?_ (State.send_safe ..)
  refine SafeStep.trans ?_ (State.drop_safe ..)
  refine SafeStep.trans ?_ (State.settleLeaving_safe ..)
  exact SafeStep.refl _
  refine SafeStep.nxIte ?_ ?_
  refine SafeStep.nx ?_
  refine SafeStep.trans ?_ (State.gateRead_safe ..)
  refine SafeStep.trans ?_ (State.settleLeaving_safe ..)
  exact SafeStep.refl _
  refine SafeStep.nx ?_
  refine SafeStep.trans ?_ (State.readLine_safe ..)
  refine SafeStep.trans ?_ (State.settleLeaving_safe ..)
  exact SafeStep.refl _

theorem execGateHoldExpire_safe (t rid : Nat) (s : State) : ∀ v : State, execGateHoldExpire t rid s = .next v → SafeStep s v := by
  unfold execGateHoldExpire
  extract_lets +onlyGivenNames q1
  split
  refine SafeStep.nx ?_
  refine SafeStep.trans ?_ (State.at__safe ..)
  exact SafeStep.refl _
  refine SafeStep.nxIte ?_ ?_
  extract_lets +onlyGivenNames q2
  extract_lets +onlyGivenNames q3
  refine SafeStep.nx ?_
  refine SafeStep.trans ?_ (State.sendPoison_safe ..)
  refine SafeStep.trans ?_ (State.modSlot_safe ..)
  refine SafeStep.trans ?_ (State.modGateLd_safe ..)
  refine SafeStep.trans ?_ (State.modGate_safe ..)
  refine SafeStep.trans ?_ (State.at__safe ..)
  exact SafeStep.refl _
  refine SafeStep.nx ?_
  refine SafeStep.trans ?_ (State.at__safe ..)
  exact SafeStep.refl _

theorem State.armOne_safe (s : State) (ld dpa eid hold : Nat) : SafeStep s (State.armOne s ld dpa eid hold) := by
  unfold State.armOne
  extract_lets +onlyGivenNames q1
  refine SafeStep.trans ?_ (State.setSlot_safe ..)
  refine SafeStep.trans ?_ (State.unbind_safe ..)
  refine SafeStep.trans ?_ (State.clearLines_safe ..)
  exact SafeStep.refl _

theorem State.unarm_safe (s : State) (b : Nat) : SafeStep s (State.unarm s b) := by
  unfold State.unarm
  refine SafeStep.trans ?_ (State.setSlot_safe ..)
  refine SafeStep.trans ?_ (State.unbind_safe ..)
  refine SafeStep.trans ?_ (State.clearLines_safe ..)
  exact SafeStep.refl _

theorem execArmGateSlots_safe (h : MbHdr) (dpa count hold : Nat) (s : State) : ∀ v : State, execArmGateSlots h dpa count hold s = .next v → SafeStep s v := by
  unfold execArmGateSlots
  refine SafeStep.nx ?_
  refine SafeStep.trans ?_ (State.mbRun_safe _ _ _ _ ?_)
  exact SafeStep.refl _
  extract_lets +onlyGivenNames q1
  extract_lets +onlyGivenNames q2
  split
  exact SafeStep.okErr
  extract_lets +onlyGivenNames q3
  refine SafeStep.okIte ?_ ?_
  exact SafeStep.okErr
  extract_lets +onlyGivenNames q4
  extract_lets +onlyGivenNames q5
  refine SafeStep.okIte ?_ ?_
  exact SafeStep.okErr
  refine SafeStep.okOk ?_
  dsimp only
  refine SafeStep.foldl ?_ (fun s x => ?_)
  exact SafeStep.refl _
  refine SafeStep.trans ?_ (State.armOne_safe ..)
  exact SafeStep.refl _

theorem execDisarmGateSlots_safe (h : MbHdr) (dpa count : Nat) (force : Bool) (s : State) : ∀ v : State, execDisarmGateSlots h dpa count force s = .next v → SafeStep s v := by
  unfold execDisarmGateSlots
  refine SafeStep.nx ?_
  refine SafeStep.trans ?_ (State.mbRun_safe _ _ _ _ ?_)
  exact SafeStep.refl _
  extract_lets +onlyGivenNames q1
  refine SafeStep.okIte ?_ ?_
  exact SafeStep.okErr
  extract_lets +onlyGivenNames q2
  refine SafeStep.okIte ?_ ?_
  exact SafeStep.okErr
  refine SafeStep.okOk ?_
  dsimp only
  refine SafeStep.foldl ?_ (fun s x => ?_)
  exact SafeStep.refl _
  refine SafeStep.trans ?_ (State.unarm_safe ..)
  refine SafeStep.ite ?_ ?_
  refine SafeStep.trans ?_ (State.cancelGate_safe ..)
  exact SafeStep.refl _
  exact SafeStep.refl _

theorem execGetSlotStatus_safe (h : MbHdr) (dpa : Nat) (s : State) : ∀ v : State, execGetSlotStatus h dpa s = .next v → SafeStep s v := by
  unfold execGetSlotStatus
  refine SafeStep.nx ?_
  refine SafeStep.trans ?_ (State.mbRun_safe _ _ _ _ ?_)
  exact SafeStep.refl _
  split
  refine SafeStep.okIte ?_ ?_
  refine SafeStep.okOk ?_
  exact SafeStep.refl _
  exact SafeStep.okErr
  exact SafeStep.okErr

theorem execOpenSequence_safe (h : MbHdr) (sbase layers hkv g d maxpos : Nat) (s : State) : ∀ v : State, execOpenSequence h sbase layers hkv g d maxpos s = .next v → SafeStep s v := by
  unfold execOpenSequence
  refine SafeStep.nx ?_
  refine SafeStep.trans ?_ (State.mbRun_safe _ _ _ _ ?_)
  exact SafeStep.refl _
  split
  exact SafeStep.okErr
  extract_lets +onlyGivenNames q1
  extract_lets +onlyGivenNames q2
  refine SafeStep.okIte ?_ ?_
  exact SafeStep.okErr
  extract_lets +onlyGivenNames q3
  split
  exact SafeStep.okErr
  extract_lets +onlyGivenNames q4
  extract_lets +onlyGivenNames q5
  refine SafeStep.okOk ?_
  dsimp only
  refine SafeStep.trans ?_ (State.openStream_safe ..)
  refine SafeStep.trans ?_ (State.modGate_safe ..)
  exact SafeStep.refl _

theorem execCloseSequence_safe (h : MbHdr) (seq : Nat) (s : State) : ∀ v : State, execCloseSequence h seq s = .next v → SafeStep s v := by
  unfold execCloseSequence
  refine SafeStep.nx ?_
  refine SafeStep.trans ?_ (State.mbRun_safe _ _ _ _ ?_)
  exact SafeStep.refl _
  split
  exact SafeStep.okErr
  refine SafeStep.okIte ?_ ?_
  exact SafeStep.okErr
  extract_lets +onlyGivenNames q1
  refine SafeStep.okOk ?_
  dsimp only
  refine SafeStep.trans ?_ (State.freeStream_safe ..)
  refine SafeStep.trans ?_ (State.modGate_safe ..)
  unfold q1
  split
  refine SafeStep.trans ?_ (State.releaseBin_safe ..)
  exact SafeStep.refl _
  exact SafeStep.refl _

theorem execGetSequenceStatus_safe (h : MbHdr) (seq : Nat) (s : State) : ∀ v : State, execGetSequenceStatus h seq s = .next v → SafeStep s v := by
  unfold execGetSequenceStatus
  refine SafeStep.nx ?_
  refine SafeStep.trans ?_ (State.mbRun_safe _ _ _ _ ?_)
  exact SafeStep.refl _
  split
  exact SafeStep.okErr
  refine SafeStep.okOk ?_
  exact SafeStep.refl _

theorem execDefineIndex_safe (h : MbHdr) (vbase abase nv entry dim vfmt deg metric : Nat) (s : State) : ∀ v : State, execDefineIndex h vbase abase nv entry dim vfmt deg metric s = .next v → SafeStep s v := by
  unfold execDefineIndex
  refine SafeStep.nx ?_
  refine SafeStep.trans ?_ (State.mbRun_safe _ _ _ _ ?_)
  exact SafeStep.refl _
  extract_lets +onlyGivenNames q1
  extract_lets +onlyGivenNames q2
  extract_lets +onlyGivenNames q3
  refine SafeStep.okIte ?_ ?_
  exact SafeStep.okErr
  refine SafeStep.okIte ?_ ?_
  exact SafeStep.okErr
  refine SafeStep.okOk ?_
  dsimp only
  refine SafeStep.trans ?_ (State.modGate_safe ..)
  exact SafeStep.refl _

theorem execDeleteIndex_safe (h : MbHdr) (index : Nat) (s : State) : ∀ v : State, execDeleteIndex h index s = .next v → SafeStep s v := by
  unfold execDeleteIndex
  refine SafeStep.nx ?_
  refine SafeStep.trans ?_ (State.mbRun_safe _ _ _ _ ?_)
  exact SafeStep.refl _
  split
  exact SafeStep.okErr
  extract_lets +onlyGivenNames q1
  refine SafeStep.okIte ?_ ?_
  exact SafeStep.okErr
  refine SafeStep.okOk ?_
  dsimp only
  refine SafeStep.trans ?_ (State.modGate_safe ..)
  exact SafeStep.refl _

theorem execAddGranaryExtent_safe (h : MbHdr) (base : Nat) (s : State) : ∀ v : State, execAddGranaryExtent h base s = .next v → SafeStep s v := by
  unfold execAddGranaryExtent
  refine SafeStep.nx ?_
  refine SafeStep.trans ?_ (State.mbRun_safe _ _ _ _ ?_)
  exact SafeStep.refl _
  split
  exact SafeStep.okErr
  refine SafeStep.okIte ?_ ?_
  exact SafeStep.okErr
  extract_lets +onlyGivenNames q1
  refine SafeStep.okIte ?_ ?_
  exact SafeStep.okErr
  refine SafeStep.okOk ?_
  dsimp only
  refine SafeStep.trans ?_ (State.journal_safe ..)
  refine SafeStep.trans ?_ (State.modGate_safe ..)
  exact SafeStep.refl _

theorem State.dropGranary_safe (s : State) (eid : Nat) : SafeStep s (State.dropGranary s eid) := by
  unfold State.dropGranary
  extract_lets +onlyGivenNames q1
  refine SafeStep.trans ?_ (State.journal_safe ..)
  refine SafeStep.trans ?_ (State.modGate_safe ..)
  refine SafeStep.foldl ?_ (fun s x => ?_)
  exact SafeStep.refl _
  refine SafeStep.trans ?_ (State.freeBin_safe ..)
  exact SafeStep.refl _

theorem execRemoveGranaryExtent_safe (h : MbHdr) (base : Nat) (s : State) : ∀ v : State, execRemoveGranaryExtent h base s = .next v → SafeStep s v := by
  unfold execRemoveGranaryExtent
  refine SafeStep.nx ?_
  refine SafeStep.trans ?_ (State.mbBg_safe _ _ _ _ _ ?_)
  exact SafeStep.refl _
  split
  exact SafeStep.exErr
  refine SafeStep.exIte ?_ ?_
  exact SafeStep.exErr
  refine SafeStep.exOk ?_
  exact SafeStep.refl _

theorem execDeleteBin_safe (h : MbHdr) (key : Bytes) (sig : Nat) (s : State) : ∀ v : State, execDeleteBin h key sig s = .next v → SafeStep s v := by
  unfold execDeleteBin
  refine SafeStep.nx ?_
  refine SafeStep.trans ?_ (State.mbRun_safe _ _ _ _ ?_)
  exact SafeStep.refl _
  split
  exact SafeStep.okErr
  refine SafeStep.okIte ?_ ?_
  refine SafeStep.okOk ?_
  dsimp only
  refine SafeStep.trans ?_ (State.freeBin_safe ..)
  exact SafeStep.refl _
  refine SafeStep.okOk ?_
  dsimp only
  refine SafeStep.trans ?_ (State.journal_safe ..)
  refine SafeStep.trans ?_ (State.modBin_safe ..)
  exact SafeStep.refl _

theorem execSetBinAttributes_safe (h : MbHdr) (key : Bytes) (sig attr : Nat) (s : State) : ∀ v : State, execSetBinAttributes h key sig attr s = .next v → SafeStep s v := by
  unfold execSetBinAttributes
  refine SafeStep.nx ?_
  refine SafeStep.trans ?_ (State.mbRun_safe _ _ _ _ ?_)
  exact SafeStep.refl _
  split
  exact SafeStep.okErr
  refine SafeStep.okIte ?_ ?_
  exact SafeStep.okErr
  refine SafeStep.okOk ?_
  dsimp only
  refine SafeStep.trans ?_ (State.journal_safe ..)
  refine SafeStep.trans ?_ (State.fixNear_safe ..)
  refine SafeStep.trans ?_ (State.modBin_safe ..)
  exact SafeStep.refl _

theorem execListBins_safe (h : MbHdr) (o : OutReq) (s : State) : ∀ v : State, execListBins h o s = .next v → SafeStep s v := by
  unfold execListBins
  refine SafeStep.nx ?_
  refine SafeStep.trans ?_ (State.mbSnap_safe ..)
  exact SafeStep.refl _

theorem execGetGranaryStatus_safe (h : MbHdr) (s : State) : ∀ v : State, execGetGranaryStatus h s = .next v → SafeStep s v := by
  unfold execGetGranaryStatus
  refine SafeStep.nx ?_
  refine SafeStep.trans ?_ (State.mbRun_safe _ _ _ _ ?_)
  exact SafeStep.refl _
  refine SafeStep.okIte ?_ ?_
  extract_lets +onlyGivenNames q1
  extract_lets +onlyGivenNames q2
  refine SafeStep.okOk ?_
  exact SafeStep.refl _
  extract_lets +onlyGivenNames q3
  extract_lets +onlyGivenNames q4
  extract_lets +onlyGivenNames q5
  refine SafeStep.okOk ?_
  exact SafeStep.refl _

theorem State.modResult_safe (s : State) (f : ResultSt → ResultSt) : SafeStep s (State.modResult s f) := by
  unfold State.modResult
  with_reducible refine SafeStep.trans ?_ (SafeStep.fields rfl rfl rfl rfl)
  exact SafeStep.refl _

theorem State.setUnit_safe (s : State) (utype unit : Nat) (f : UnitRec → UnitRec) : SafeStep s (State.setUnit s utype unit f) := by
  unfold State.setUnit
  refine SafeStep.trans ?_ (State.modResult_safe ..)
  exact SafeStep.refl _

theorem State.unitTo_safe (s : State) (utype unit : Nat) (st : UnitState) : SafeStep s (State.unitTo s utype unit st) := by
  unfold State.unitTo
  extract_lets +onlyGivenNames q1
  refine SafeStep.ite ?_ ?_
  exact SafeStep.refl _
  extract_lets +onlyGivenNames q2
  extract_lets +onlyGivenNames q3
  refine SafeStep.ite ?_ ?_
  refine SafeStep.trans ?_ (State.stoneFails_safe ..)
  refine SafeStep.trans ?_ (State.ledger_safe ..)
  refine SafeStep.trans ?_ (State.setUnit_safe ..)
  exact SafeStep.refl _
  refine SafeStep.trans ?_ (State.ledger_safe ..)
  refine SafeStep.trans ?_ (State.setUnit_safe ..)
  exact SafeStep.refl _

theorem State.modSlice_safe (s : State) (slice unit : Nat) (f : SliceRec → SliceRec) : SafeStep s (State.modSlice s slice unit f) := by
  unfold State.modSlice
  with_reducible refine SafeStep.trans ?_ (SafeStep.fields rfl rfl rfl rfl)
  exact SafeStep.refl _

theorem State.clearUnit_safe (s : State) (utype unit : Nat) : SafeStep s (State.clearUnit s utype unit) := by
  unfold State.clearUnit
  refine SafeStep.ite ?_ ?_
  refine SafeStep.trans ?_ (State.modChecker_safe ..)
  exact SafeStep.refl _
  exact SafeStep.refl _

theorem State.markSlice_safe (s : State) (slice unit : Nat) (now : Bool) : SafeStep s (State.markSlice s slice unit now) := by
  unfold State.markSlice
  extract_lets +onlyGivenNames q1
  extract_lets +onlyGivenNames q2
  extract_lets +onlyGivenNames q3
  refine SafeStep.ite ?_ ?_
  refine SafeStep.ite ?_ ?_
  refine SafeStep.trans ?_ (State.clearUnit_safe ..)
  refine SafeStep.trans ?_ (State.modSlice_safe ..)
  exact SafeStep.refl _
  refine SafeStep.trans ?_ (State.modSlice_safe ..)
  exact SafeStep.refl _
  extract_lets +onlyGivenNames q4
  split
  refine SafeStep.trans ?_ (State.drainStone_safe ..)
  refine SafeStep.trans ?_ (State.modStone_safe ..)
  refine SafeStep.trans ?_ (State.modSlice_safe ..)
  exact SafeStep.refl _
  refine SafeStep.trans ?_ (State.beginClear_safe ..)
  refine SafeStep.trans ?_ (State.modStone_safe ..)
  refine SafeStep.trans ?_ (State.modStone_safe ..)
  refine SafeStep.trans ?_ (State.modSlice_safe ..)
  exact SafeStep.refl _
  refine SafeStep.trans ?_ (State.beginClear_safe ..)
  refine SafeStep.trans ?_ (State.modStone_safe ..)
  refine SafeStep.trans ?_ (State.modSlice_safe ..)
  exact SafeStep.refl _
  refine SafeStep.trans ?_ (State.moveQueue_safe ..)
  refine SafeStep.trans ?_ (State.modStone_safe ..)
  refine SafeStep.trans ?_ (State.modSlice_safe ..)
  exact SafeStep.refl _
  refine SafeStep.trans ?_ (State.modStone_safe ..)
  refine SafeStep.trans ?_ (State.modSlice_safe ..)
  exact SafeStep.refl _

theorem State.observe_safe (s : State) (utype unit cause : Nat) : SafeStep s (State.observe s utype unit cause) := by
  unfold State.observe
  extract_lets +onlyGivenNames q1
  extract_lets +onlyGivenNames q2
  extract_lets +onlyGivenNames q3
  extract_lets +onlyGivenNames q4
  extract_lets +onlyGivenNames q5
  extract_lets +onlyGivenNames q6
  extract_lets +onlyGivenNames q7
  refine SafeStep.ite ?_ ?_
  refine SafeStep.ite ?_ ?_
  refine SafeStep.trans ?_ (State.markSlice_safe ..)
  refine SafeStep.trans ?_ (State.unitTo_safe ..)
  refine SafeStep.trans ?_ (State.ledger_safe ..)
  refine SafeStep.trans ?_ (State.modResult_safe ..)
  refine SafeStep.trans ?_ (State.setUnit_safe ..)
  exact SafeStep.refl _
  refine SafeStep.ite ?_ ?_
  refine SafeStep.trans ?_ (State.markSlice_safe ..)
  refine SafeStep.trans ?_ (State.unitTo_safe ..)
  refine SafeStep.trans ?_ (State.ledger_safe ..)
  refine SafeStep.trans ?_ (State.modResult_safe ..)
  refine SafeStep.trans ?_ (State.setUnit_safe ..)
  exact SafeStep.refl _
  refine SafeStep.trans ?_ (State.markSlice_safe ..)
  refine SafeStep.trans ?_ (State.unitTo_safe ..)
  refine SafeStep.trans ?_ (State.ledger_safe ..)
  refine SafeStep.trans ?_ (State.modResult_safe ..)
  refine SafeStep.trans ?_ (State.setUnit_safe ..)
  exact SafeStep.refl _
  refine SafeStep.trans ?_ (State.unitTo_safe ..)
  refine SafeStep.trans ?_ (State.ledger_safe ..)
  refine SafeStep.trans ?_ (State.modResult_safe ..)
  refine SafeStep.trans ?_ (State.setUnit_safe ..)
  exact SafeStep.refl _

theorem execSuspectTimeout_safe (t utype unit : Nat) (s : State) : ∀ v : State, execSuspectTimeout t utype unit s = .next v → SafeStep s v := by
  unfold execSuspectTimeout
  extract_lets +onlyGivenNames q1
  extract_lets +onlyGivenNames q2
  refine SafeStep.nxIte ?_ ?_
  refine SafeStep.nx ?_
  refine SafeStep.trans ?_ (State.unitTo_safe ..)
  refine SafeStep.trans ?_ (State.at__safe ..)
  exact SafeStep.refl _
  refine SafeStep.nx ?_
  refine SafeStep.trans ?_ (State.at__safe ..)
  exact SafeStep.refl _

theorem State.modPiece_safe (s : State) (b idx : Nat) (f : PieceRec → PieceRec) : SafeStep s (State.modPiece s b idx f) := by
  unfold State.modPiece
  refine SafeStep.trans ?_ (State.modOp_safe ..)
  exact SafeStep.refl _

theorem State.lastEnded_safe (s : State) (b : Nat) : SafeStep s (State.lastEnded s b) := by
  unfold State.lastEnded
  extract_lets +onlyGivenNames q1
  split
  refine SafeStep.trans ?_ (State.modSlot_safe ..)
  exact SafeStep.refl _
  refine SafeStep.ite ?_ ?_
  extract_lets +onlyGivenNames q2
  extract_lets +onlyGivenNames q3
  refine SafeStep.trans ?_ (State.modOp_safe ..)
  refine SafeStep.trans ?_ (State.startForward_safe ..)
  refine SafeStep.trans ?_ (State.modSlot_safe ..)
  exact SafeStep.refl _
  refine SafeStep.trans ?_ (State.modSlot_safe ..)
  exact SafeStep.refl _

theorem State.pieceEnded_safe (s : State) (p : Piece) (stone : Nat) (out : PieceOut) : SafeStep s (State.pieceEnded s p stone out) := by
  unfold State.pieceEnded
  extract_lets +onlyGivenNames q1
  extract_lets +onlyGivenNames q2
  extract_lets +onlyGivenNames q3
  extract_lets +onlyGivenNames q4
  extract_lets +onlyGivenNames q5
  extract_lets +onlyGivenNames q6
  extract_lets +onlyGivenNames q7
  refine SafeStep.ite ?_ ?_
  extract_lets +onlyGivenNames q8
  split
  refine SafeStep.ite ?_ ?_
  refine SafeStep.trans ?_ (State.lastEnded_safe ..)
  refine SafeStep.trans ?_ (State.modPiece_safe ..)
  refine SafeStep.trans ?_ (State.dropCopies_safe ..)
  refine SafeStep.trans ?_ (State.modChecker_safe ..)
  refine SafeStep.ite ?_ ?_
  refine SafeStep.trans ?_ (State.modStnLd_safe ..)
  refine SafeStep.trans ?_ (State.modSlot_safe ..)
  refine SafeStep.trans ?_ (State.modOp_safe ..)
  exact SafeStep.refl _
  refine SafeStep.trans ?_ (State.modSlot_safe ..)
  refine SafeStep.trans ?_ (State.modOp_safe ..)
  exact SafeStep.refl _
  refine SafeStep.trans ?_ (State.modPiece_safe ..)
  refine SafeStep.trans ?_ (State.dropCopies_safe ..)
  refine SafeStep.trans ?_ (State.modChecker_safe ..)
  refine SafeStep.ite ?_ ?_
  refine SafeStep.trans ?_ (State.modStnLd_safe ..)
  refine SafeStep.trans ?_ (State.modSlot_safe ..)
  refine SafeStep.trans ?_ (State.modOp_safe ..)
  exact SafeStep.refl _
  refine SafeStep.trans ?_ (State.modSlot_safe ..)
  refine SafeStep.trans ?_ (State.modOp_safe ..)
  exact SafeStep.refl _
  refine SafeStep.trans ?_ (State.modPiece_safe ..)
  refine SafeStep.trans ?_ (State.dropCopies_safe ..)
  refine SafeStep.trans ?_ (State.modChecker_safe ..)
  refine SafeStep.ite ?_ ?_
  refine SafeStep.trans ?_ (State.modStnLd_safe ..)
  refine SafeStep.trans ?_ (State.modSlot_safe ..)
  refine SafeStep.trans ?_ (State.modOp_safe ..)
  exact SafeStep.refl _
  refine SafeStep.trans ?_ (State.modSlot_safe ..)
  refine SafeStep.trans ?_ (State.modOp_safe ..)
  exact SafeStep.refl _
  refine SafeStep.trans ?_ (State.modPiece_safe ..)
  refine SafeStep.trans ?_ (State.dropCopies_safe ..)
  refine SafeStep.trans ?_ (State.modChecker_safe ..)
  refine SafeStep.ite ?_ ?_
  refine SafeStep.trans ?_ (State.modStnLd_safe ..)
  refine SafeStep.trans ?_ (State.modSlot_safe ..)
  refine SafeStep.trans ?_ (State.modOp_safe ..)
  exact SafeStep.refl _
  refine SafeStep.trans ?_ (State.modSlot_safe ..)
  refine SafeStep.trans ?_ (State.modOp_safe ..)
  exact SafeStep.refl _

theorem State.tryRelease_safe (s : State) (b : Nat) : SafeStep s (State.tryRelease s b) := by
  unfold State.tryRelease
  split
  exact SafeStep.refl _
  refine SafeStep.ite ?_ ?_
  extract_lets +onlyGivenNames q1
  refine SafeStep.trans ?_ (State.finish_safe ..)
  exact SafeStep.refl _
  exact SafeStep.refl _

theorem State.runAgain_safe (s : State) (b : Nat) (o : GateOp) (r : PieceRec) (run : Nat) : SafeStep s (State.runAgain s b o r run) := by
  unfold State.runAgain
  extract_lets +onlyGivenNames q1
  extract_lets +onlyGivenNames q2
  extract_lets +onlyGivenNames q3
  extract_lets +onlyGivenNames q4
  extract_lets +onlyGivenNames q5
  extract_lets +onlyGivenNames q6
  refine SafeStep.trans ?_ (State.placePiece_safe ..)
  refine SafeStep.trans ?_ (State.modPiece_safe ..)
  refine SafeStep.trans ?_ (State.modSlot_safe ..)
  refine SafeStep.trans ?_ (State.modRiLd_safe ..)
  with_reducible refine SafeStep.trans ?_ (SafeStep.fields rfl rfl rfl rfl)
  exact SafeStep.refl _

theorem State.retractCheck_safe (s : State) (b : Nat) : SafeStep s (State.retractCheck s b) := by
  unfold State.retractCheck
  split
  split
  refine SafeStep.trans ?_ (State.modOp_safe ..)
  refine SafeStep.trans ?_ (State.settleFwd_safe ..)
  exact SafeStep.refl _
  exact SafeStep.refl _
  exact SafeStep.refl _

theorem State.checkFail_safe (s : State) (b : Nat) (o : GateOp) (r : PieceRec) : SafeStep s (State.checkFail s b o r) := by
  unfold State.checkFail
  extract_lets +onlyGivenNames q1
  extract_lets +onlyGivenNames q2
  refine SafeStep.trans ?_ (State.retractCheck_safe ..)
  refine SafeStep.trans ?_ (State.modPiece_safe ..)
  refine SafeStep.trans ?_ (State.modRiLd_safe ..)
  refine SafeStep.trans ?_ (State.slotRecord_safe ..)
  exact SafeStep.refl _

theorem execResultCheckComplete_safe (t ld buf : Nat) (failed : List Nat) (s : State) :
    ∀ v : State, execResultCheckComplete t ld buf failed s = .next v → SafeStep s v := by
  unfold execResultCheckComplete
  extract_lets s1 b
  have h : SafeStep s s1 := State.at__safe ..
  split
  · exact SafeStep.nx h
  · refine SafeStep.nxIte ?_ (SafeStep.nx h)
    extract_lets e bad again s2 s3 s4
    refine SafeStep.nxIte (SafeStep.nx (SafeStep.trans h (State.finish_safe ..))) (SafeStep.nx ?_)
    refine SafeStep.trans ?_ (State.tryRelease_safe ..)
    refine SafeStep.foldl ?_ fun u p => SafeStep.ite (State.runAgain_safe ..) (State.modPiece_safe ..)
    refine SafeStep.trans (u := s2) (SafeStep.foldl h fun u p => State.checkFail_safe ..) ?_
    exact SafeStep.recordF rfl rfl rfl rfl (Nat.le_add_right _ _) rfl rfl rfl

theorem State.mismatch_safe (s : State) (b : Nat) (r : PieceRec) (row : Nat) : SafeStep s (State.mismatch s b r row) := by
  unfold State.mismatch
  extract_lets +onlyGivenNames q1
  extract_lets +onlyGivenNames q2
  refine SafeStep.trans ?_ (State.retractCheck_safe ..)
  refine SafeStep.trans ?_ (State.slotRecord_safe ..)
  refine SafeStep.trans ?_ (State.modRiLd_safe ..)
  exact SafeStep.refl _

theorem State.resolve_safe (s : State) (b idx : Nat) (second : Bool) : SafeStep s (State.resolve s b idx second) := by
  unfold State.resolve
  refine SafeStep.trans ?_ (State.tryRelease_safe ..)
  refine SafeStep.trans ?_ (State.modPiece_safe ..)
  exact SafeStep.refl _

theorem State.unresolved_safe (s : State) (b : Nat) : SafeStep s (State.unresolved s b) := by
  unfold State.unresolved
  refine SafeStep.trans ?_ (State.finish_safe ..)
  exact SafeStep.refl _

theorem State.observeStones_safe (s : State) (ks : List Nat) (row : Nat) : SafeStep s (State.observeStones s ks row) := by
  unfold State.observeStones
  refine SafeStep.foldl ?_ (fun s x => ?_)
  exact SafeStep.refl _
  refine SafeStep.trans ?_ (State.observe_safe ..)
  exact SafeStep.refl _

theorem State.inputChanged_safe (s : State) (b : Nat) (p : PieceRec) (r : ReplayRes) : SafeStep s (State.inputChanged s b p r) := by
  unfold State.inputChanged
  extract_lets +onlyGivenNames q1
  refine SafeStep.ite ?_ ?_
  refine SafeStep.trans ?_ (State.resolve_safe ..)
  refine SafeStep.trans ?_ (State.modRiLd_safe ..)
  exact SafeStep.refl _
  refine SafeStep.ite ?_ ?_
  refine SafeStep.trans ?_ (State.resolve_safe ..)
  refine SafeStep.trans ?_ (State.modRiLd_safe ..)
  exact SafeStep.refl _
  refine SafeStep.trans ?_ (State.unresolved_safe ..)
  refine SafeStep.trans ?_ (State.modRiLd_safe ..)
  exact SafeStep.refl _

theorem State.replayOutcome_safe (s : State) (b : Nat) (o : GateOp) (p : PieceRec) (r : ReplayRes) : SafeStep s (State.replayOutcome s b o p r) := by
  unfold State.replayOutcome
  refine SafeStep.ite ?_ ?_
  refine SafeStep.trans ?_ (State.inputChanged_safe ..)
  exact SafeStep.refl _
  refine SafeStep.ite ?_ ?_
  refine SafeStep.ite ?_ ?_
  refine SafeStep.trans ?_ (State.resolve_safe ..)
  refine SafeStep.trans ?_ (State.observeStones_safe ..)
  refine SafeStep.trans ?_ (State.mismatch_safe ..)
  exact SafeStep.refl _
  refine SafeStep.ite ?_ ?_
  extract_lets +onlyGivenNames q1
  extract_lets +onlyGivenNames q2
  refine SafeStep.trans ?_ (State.resolve_safe ..)
  refine SafeStep.ite ?_ ?_
  refine SafeStep.trans ?_ (State.observe_safe ..)
  exact SafeStep.refl _
  exact SafeStep.refl _
  refine SafeStep.ite ?_ ?_
  refine SafeStep.trans ?_ (State.unresolved_safe ..)
  exact SafeStep.refl _
  refine SafeStep.trans ?_ (State.runAgain_safe ..)
  refine SafeStep.trans ?_ (State.mismatch_safe ..)
  exact SafeStep.refl _
  refine SafeStep.ite ?_ ?_
  refine SafeStep.trans ?_ (State.resolve_safe ..)
  exact SafeStep.refl _
  refine SafeStep.trans ?_ (State.runAgain_safe ..)
  refine SafeStep.trans ?_ (State.mismatch_safe ..)
  exact SafeStep.refl _

theorem State.thirdOutcome_safe (s : State) (b : Nat) (p : PieceRec) (r : ReplayRes) : SafeStep s (State.thirdOutcome s b p r) := by
  unfold State.thirdOutcome
  refine SafeStep.ite ?_ ?_
  refine SafeStep.trans ?_ (State.inputChanged_safe ..)
  exact SafeStep.refl _
  refine SafeStep.ite ?_ ?_
  refine SafeStep.ite ?_ ?_
  refine SafeStep.trans ?_ (State.resolve_safe ..)
  refine SafeStep.trans ?_ (State.observeStones_safe ..)
  exact SafeStep.refl _
  refine SafeStep.ite ?_ ?_
  refine SafeStep.trans ?_ (State.unresolved_safe ..)
  refine SafeStep.trans ?_ (State.observeStones_safe ..)
  exact SafeStep.refl _
  refine SafeStep.trans ?_ (State.unresolved_safe ..)
  exact SafeStep.refl _
  refine SafeStep.ite ?_ ?_
  refine SafeStep.trans ?_ (State.resolve_safe ..)
  refine SafeStep.trans ?_ (State.observeStones_safe ..)
  exact SafeStep.refl _
  refine SafeStep.ite ?_ ?_
  refine SafeStep.trans ?_ (State.resolve_safe ..)
  refine SafeStep.trans ?_ (State.observeStones_safe ..)
  exact SafeStep.refl _
  refine SafeStep.trans ?_ (State.unresolved_safe ..)
  refine SafeStep.trans ?_ (State.observeStones_safe ..)
  exact SafeStep.refl _

theorem execReplayComplete_safe (t ld buf piece : Nat) (r : ReplayRes) (s : State) : ∀ v : State, execReplayComplete t ld buf piece r s = .next v → SafeStep s v := by
  unfold execReplayComplete
  extract_lets +onlyGivenNames q1
  extract_lets +onlyGivenNames q2
  split
  refine SafeStep.nx ?_
  refine SafeStep.trans ?_ (State.at__safe ..)
  exact SafeStep.refl _
  split
  refine SafeStep.nx ?_
  refine SafeStep.trans ?_ (State.at__safe ..)
  exact SafeStep.refl _
  refine SafeStep.nxIte ?_ ?_
  refine SafeStep.nx ?_
  refine SafeStep.trans ?_ (State.at__safe ..)
  exact SafeStep.refl _
  refine SafeStep.nxIte ?_ ?_
  refine SafeStep.nx ?_
  refine SafeStep.trans ?_ (State.replayOutcome_safe ..)
  refine SafeStep.trans ?_ (State.at__safe ..)
  exact SafeStep.refl _
  refine SafeStep.nxIte ?_ ?_
  refine SafeStep.nx ?_
  refine SafeStep.trans ?_ (State.thirdOutcome_safe ..)
  refine SafeStep.trans ?_ (State.at__safe ..)
  exact SafeStep.refl _
  refine SafeStep.nx ?_
  refine SafeStep.trans ?_ (State.at__safe ..)
  exact SafeStep.refl _

theorem State.takePiece_safe (s : State) (stone : Nat) (p : Piece) (load : Nat) : SafeStep s (State.takePiece s stone p load) := by
  unfold State.takePiece
  extract_lets +onlyGivenNames q1
  extract_lets +onlyGivenNames q2
  extract_lets +onlyGivenNames q3
  extract_lets +onlyGivenNames q4
  refine SafeStep.trans ?_ (SafeStep.fieldsF rfl rfl rfl rfl)
  refine SafeStep.trans ?_ (State.modStone_safe ..)
  refine SafeStep.trans ?_ (State.chargeCycles_safe ..)
  refine SafeStep.ite ?_ ?_
  exact SafeStep.refl _
  refine SafeStep.trans ?_ (State.dropCopies_safe ..)
  exact SafeStep.refl _

theorem execPieceStart_safe (t stone : Nat) (s : State) : ∀ v : State, execPieceStart t stone s = .next v → SafeStep s v := by
  unfold execPieceStart
  extract_lets +onlyGivenNames q1
  extract_lets +onlyGivenNames q2
  refine SafeStep.nxIte ?_ ?_
  refine SafeStep.nx ?_
  refine SafeStep.trans ?_ (State.at__safe ..)
  exact SafeStep.refl _
  split
  refine SafeStep.nx ?_
  refine SafeStep.trans ?_ (State.at__safe ..)
  exact SafeStep.refl _
  refine SafeStep.nxIte ?_ ?_
  refine SafeStep.nx ?_
  refine SafeStep.trans ?_ (State.beginClear_safe ..)
  refine SafeStep.trans ?_ (State.chargeCycles_safe ..)
  refine SafeStep.trans ?_ (State.at__safe ..)
  exact SafeStep.refl _
  refine SafeStep.nxIte ?_ ?_
  refine SafeStep.nx ?_
  refine SafeStep.trans ?_ (State.at__safe ..)
  exact SafeStep.refl _
  extract_lets +onlyGivenNames q3
  extract_lets +onlyGivenNames q4
  extract_lets +onlyGivenNames q5
  extract_lets +onlyGivenNames q6
  extract_lets +onlyGivenNames q7
  refine SafeStep.nx ?_
  refine SafeStep.trans ?_ (State.placeWaiting_safe ..)
  refine SafeStep.trans ?_ (State.modSlot_safe ..)
  refine SafeStep.trans ?_ (State.serveAs_safe ..)
  refine SafeStep.trans ?_ (State.takePiece_safe ..)
  refine SafeStep.trans ?_ (State.at__safe ..)
  exact SafeStep.refl _

theorem State.chargeRun_safe (s : State) (k : Nat) (p : Piece) : SafeStep s (State.chargeRun s k p) := by
  unfold State.chargeRun
  extract_lets +onlyGivenNames q1
  refine SafeStep.trans ?_ (State.serveAs_safe ..)
  refine SafeStep.trans ?_ (State.chargeCycles_safe ..)
  exact SafeStep.refl _

theorem execPieceEnd_safe (t stone : Nat) (s : State) : ∀ v : State, execPieceEnd t stone s = .next v → SafeStep s v := by
  unfold execPieceEnd
  extract_lets +onlyGivenNames q1
  split
  refine SafeStep.nx ?_
  refine SafeStep.trans ?_ (State.at__safe ..)
  exact SafeStep.refl _
  refine SafeStep.nxIte ?_ ?_
  refine SafeStep.nx ?_
  refine SafeStep.trans ?_ (State.at__safe ..)
  exact SafeStep.refl _
  split
  refine SafeStep.nx ?_
  refine SafeStep.trans ?_ (State.stoneIdle_safe ..)
  refine SafeStep.trans ?_ (State.chargeRun_safe ..)
  refine SafeStep.trans ?_ (State.at__safe ..)
  exact SafeStep.refl _
  extract_lets +onlyGivenNames q2
  extract_lets +onlyGivenNames q3
  refine SafeStep.nx ?_
  refine SafeStep.trans ?_ (State.pieceEnded_safe ..)
  refine SafeStep.trans ?_ (State.stoneIdle_safe ..)
  refine SafeStep.trans ?_ (State.chargeRun_safe ..)
  refine SafeStep.trans ?_ (State.at__safe ..)
  exact SafeStep.refl _

theorem State.crossLine_safe (s : State) (p : Piece) (dpa : Nat) : SafeStep s (State.crossLine s p dpa) := by
  unfold State.crossLine
  split
  refine SafeStep.trans ?_ (State.drop_safe ..)
  exact SafeStep.refl _
  refine SafeStep.trans ?_ (State.drop_safe ..)
  exact SafeStep.refl _
  exact SafeStep.refl _

theorem State.putLine_safe (s : State) (k tag : Nat) (l : HopLine) : SafeStep s (State.putLine s k tag l) := by
  unfold State.putLine
  extract_lets +onlyGivenNames q1
  extract_lets +onlyGivenNames q2
  refine SafeStep.trans ?_ (State.modStone_safe ..)
  unfold q2
  split
  refine SafeStep.trans ?_ (State.modChecker_safe ..)
  exact SafeStep.refl _
  exact SafeStep.refl _

theorem State.putPoison_safe (s : State) (k tag line : Nat) : SafeStep s (State.putPoison s k tag line) := by
  unfold State.putPoison
  refine SafeStep.trans ?_ (State.putLine_safe ..)
  exact SafeStep.refl _

theorem execStoneReadRequest_safe (t stone tag dpa count : Nat) (s : State) : ∀ v : State, execStoneReadRequest t stone tag dpa count s = .next v → SafeStep s v := by
  unfold execStoneReadRequest
  extract_lets +onlyGivenNames q1
  extract_lets +onlyGivenNames q2
  split
  refine SafeStep.nx ?_
  refine SafeStep.trans ?_ (State.at__safe ..)
  exact SafeStep.refl _
  extract_lets +onlyGivenNames q3
  refine SafeStep.nxIte ?_ ?_
  refine SafeStep.nx ?_
  refine SafeStep.trans ?_ (State.at__safe ..)
  exact SafeStep.refl _
  extract_lets +onlyGivenNames q4
  extract_lets +onlyGivenNames q5
  extract_lets +onlyGivenNames q6
  extract_lets +onlyGivenNames q7
  extract_lets +onlyGivenNames q8
  refine SafeStep.nx ?_
  refine SafeStep.ite ?_ ?_
  refine SafeStep.foldl ?_ (fun s x => ?_)
  refine SafeStep.trans ?_ (State.modStone_safe ..)
  unfold q7
  split
  refine SafeStep.trans ?_ (State.noteRead_safe ..)
  refine SafeStep.ite ?_ ?_
  refine SafeStep.foldl ?_ (fun s x => ?_)
  refine SafeStep.trans ?_ (State.settleLeaving_safe ..)
  refine SafeStep.trans ?_ (State.at__safe ..)
  exact SafeStep.refl _
  refine SafeStep.trans ?_ (State.crossLine_safe ..)
  exact SafeStep.refl _
  refine SafeStep.trans ?_ (State.settleLeaving_safe ..)
  refine SafeStep.trans ?_ (State.at__safe ..)
  exact SafeStep.refl _
  refine SafeStep.ite ?_ ?_
  refine SafeStep.foldl ?_ (fun s x => ?_)
  refine SafeStep.trans ?_ (State.settleLeaving_safe ..)
  refine SafeStep.trans ?_ (State.at__safe ..)
  exact SafeStep.refl _
  refine SafeStep.trans ?_ (State.crossLine_safe ..)
  exact SafeStep.refl _
  refine SafeStep.trans ?_ (State.settleLeaving_safe ..)
  refine SafeStep.trans ?_ (State.at__safe ..)
  exact SafeStep.refl _
  refine SafeStep.trans ?_ (State.putPoison_safe ..)
  exact SafeStep.refl _
  refine SafeStep.trans ?_ (State.modStone_safe ..)
  unfold q7
  split
  refine SafeStep.trans ?_ (State.noteRead_safe ..)
  refine SafeStep.ite ?_ ?_
  refine SafeStep.foldl ?_ (fun s x => ?_)
  refine SafeStep.trans ?_ (State.settleLeaving_safe ..)
  refine SafeStep.trans ?_ (State.at__safe ..)
  exact SafeStep.refl _
  refine SafeStep.trans ?_ (State.crossLine_safe ..)
  exact SafeStep.refl _
  refine SafeStep.trans ?_ (State.settleLeaving_safe ..)
  refine SafeStep.trans ?_ (State.at__safe ..)
  exact SafeStep.refl _
  refine SafeStep.ite ?_ ?_
  refine SafeStep.foldl ?_ (fun s x => ?_)
  refine SafeStep.trans ?_ (State.settleLeaving_safe ..)
  refine SafeStep.trans ?_ (State.at__safe ..)
  exact SafeStep.refl _
  refine SafeStep.trans ?_ (State.crossLine_safe ..)
  exact SafeStep.refl _
  refine SafeStep.trans ?_ (State.settleLeaving_safe ..)
  refine SafeStep.trans ?_ (State.at__safe ..)
  exact SafeStep.refl _

theorem State.chargeOp_safe (s : State) (k : Nat) : SafeStep s (State.chargeOp s k) := by
  unfold State.chargeOp
  split
  exact SafeStep.refl _
  split
  exact SafeStep.refl _
  refine SafeStep.ite ?_ ?_
  refine SafeStep.trans ?_ (State.useStream_safe ..)
  exact SafeStep.refl _
  refine SafeStep.ite ?_ ?_
  refine SafeStep.trans ?_ (State.useStream_safe ..)
  exact SafeStep.refl _
  exact SafeStep.refl _

theorem State.deliver_safe (s : State) (k tag line : Nat) (e : Extent) (dpa : Nat) (d : Bytes) : SafeStep s (State.deliver s k tag line e dpa d) := by
  unfold State.deliver
  refine SafeStep.trans ?_ (State.putLine_safe ..)
  refine SafeStep.trans ?_ (State.chargeOp_safe ..)
  exact SafeStep.refl _

theorem State.hopperServe_safe (s : State) (p : Piece) (stone tag line upset : Nat) (e : Extent) (dpa : Nat) : SafeStep s (State.hopperServe s p stone tag line upset e dpa) := by
  unfold State.hopperServe
  extract_lets +onlyGivenNames q1
  extract_lets +onlyGivenNames q2
  extract_lets +onlyGivenNames q3
  extract_lets +onlyGivenNames q4
  refine SafeStep.ite ?_ ?_
  refine SafeStep.trans ?_ (State.putPoison_safe ..)
  exact SafeStep.refl _
  refine SafeStep.ite ?_ ?_
  extract_lets +onlyGivenNames q5
  refine SafeStep.trans ?_ (State.putPoison_safe ..)
  refine SafeStep.trans ?_ (State.modStone_safe ..)
  refine SafeStep.ite ?_ ?_
  exact SafeStep.refl _
  refine SafeStep.trans ?_ (State.isolation_safe ..)
  exact SafeStep.refl _
  refine SafeStep.ite ?_ ?_
  refine SafeStep.trans ?_ (State.passBlk_safe ..)
  exact SafeStep.refl _
  split
  refine SafeStep.trans ?_ (State.deliver_safe ..)
  exact SafeStep.refl _
  extract_lets +onlyGivenNames q6
  split
  refine SafeStep.trans ?_ (State.deliver_safe ..)
  refine SafeStep.snd (by assumption) ?_
  refine SafeStep.trans ?_ (State.look_safe ..)
  exact SafeStep.refl _
  refine SafeStep.trans ?_ (State.deliver_safe ..)
  refine SafeStep.trans ?_ (State.chargeStall_safe ..)
  refine SafeStep.snd (by assumption) ?_
  refine SafeStep.trans ?_ (State.look_safe ..)
  exact SafeStep.refl _
  refine SafeStep.trans ?_ (State.putPoison_safe ..)
  refine SafeStep.snd (by assumption) ?_
  refine SafeStep.trans ?_ (State.look_safe ..)
  exact SafeStep.refl _
  refine SafeStep.trans ?_ (State.putPoison_safe ..)
  refine SafeStep.snd (by assumption) ?_
  refine SafeStep.trans ?_ (State.look_safe ..)
  exact SafeStep.refl _
  refine SafeStep.ite ?_ ?_
  refine SafeStep.snd (by assumption) ?_
  refine SafeStep.trans ?_ (State.look_safe ..)
  exact SafeStep.refl _
  refine SafeStep.trans ?_ (State.holdRead_safe ..)
  refine SafeStep.snd (by assumption) ?_
  refine SafeStep.trans ?_ (State.look_safe ..)
  exact SafeStep.refl _

theorem execHopperLineDeliver_safe (t stone tag line upset : Nat) (s : State) : ∀ v : State, execHopperLineDeliver t stone tag line upset s = .next v → SafeStep s v := by
  unfold execHopperLineDeliver
  extract_lets +onlyGivenNames q1
  split
  refine SafeStep.nxIte ?_ ?_
  refine SafeStep.nx ?_
  refine SafeStep.trans ?_ (State.at__safe ..)
  exact SafeStep.refl _
  extract_lets +onlyGivenNames q2
  extract_lets +onlyGivenNames q3
  split
  refine SafeStep.nx ?_
  refine SafeStep.trans ?_ (State.putPoison_safe ..)
  refine SafeStep.trans ?_ (State.drop_safe ..)
  refine SafeStep.trans ?_ (State.settleLeaving_safe ..)
  refine SafeStep.trans ?_ (State.at__safe ..)
  exact SafeStep.refl _
  refine SafeStep.nx ?_
  refine SafeStep.trans ?_ (State.putPoison_safe ..)
  refine SafeStep.trans ?_ (State.drop_safe ..)
  refine SafeStep.trans ?_ (State.settleLeaving_safe ..)
  refine SafeStep.trans ?_ (State.at__safe ..)
  exact SafeStep.refl _
  refine SafeStep.nx ?_
  refine SafeStep.trans ?_ (State.hopperServe_safe ..)
  refine SafeStep.trans ?_ (State.settleLeaving_safe ..)
  refine SafeStep.trans ?_ (State.at__safe ..)
  exact SafeStep.refl _
  refine SafeStep.nx ?_
  refine SafeStep.trans ?_ (State.at__safe ..)
  exact SafeStep.refl _

theorem execStoneTake_safe (t stone tag : Nat) (s : State) : ∀ v : State, execStoneTake t stone tag s = .next v → SafeStep s v := by
  unfold execStoneTake
  extract_lets +onlyGivenNames q1
  split
  refine SafeStep.nxIte ?_ ?_
  refine SafeStep.nx ?_
  refine SafeStep.trans ?_ (State.at__safe ..)
  exact SafeStep.refl _
  refine SafeStep.nxIte ?_ ?_
  extract_lets +onlyGivenNames q2
  extract_lets +onlyGivenNames q3
  extract_lets +onlyGivenNames q4
  refine SafeStep.nx ?_
  refine SafeStep.trans ?_ (State.modStone_safe ..)
  refine SafeStep.trans ?_ (State.at__safe ..)
  exact SafeStep.refl _
  refine SafeStep.nxIte ?_ ?_
  refine SafeStep.nx ?_
  refine SafeStep.trans ?_ (State.at__safe ..)
  exact SafeStep.refl _
  extract_lets +onlyGivenNames q5
  refine SafeStep.nx ?_
  refine SafeStep.trans ?_ (State.modStone_safe ..)
  refine SafeStep.trans ?_ (State.at__safe ..)
  exact SafeStep.refl _
  refine SafeStep.nx ?_
  refine SafeStep.trans ?_ (State.at__safe ..)
  exact SafeStep.refl _

theorem State.recordFault_safe (s : State) (k : Nat) (p : Piece) (limit : Bool) : SafeStep s (State.recordFault s k p limit) := by
  unfold State.recordFault
  extract_lets +onlyGivenNames q1
  with_reducible refine SafeStep.trans ?_ (SafeStep.fields rfl rfl rfl rfl)
  refine SafeStep.trans ?_ (State.modStnLd_safe ..)
  exact SafeStep.refl _

theorem State.countWatchdog_safe (s : State) (handle : Nat) : SafeStep s (State.countWatchdog s handle) := by
  unfold State.countWatchdog
  extract_lets +onlyGivenNames q1
  extract_lets +onlyGivenNames q2
  extract_lets +onlyGivenNames q3
  extract_lets +onlyGivenNames q4
  refine SafeStep.ite ?_ ?_
  with_reducible refine SafeStep.trans ?_ (SafeStep.fields rfl rfl rfl rfl)
  exact SafeStep.refl _
  refine SafeStep.ite ?_ ?_
  with_reducible refine SafeStep.trans ?_ (SafeStep.fields rfl rfl rfl rfl)
  with_reducible refine SafeStep.trans ?_ (SafeStep.fields rfl rfl rfl rfl)
  exact SafeStep.refl _
  with_reducible refine SafeStep.trans ?_ (SafeStep.fields rfl rfl rfl rfl)
  with_reducible refine SafeStep.trans ?_ (SafeStep.fields rfl rfl rfl rfl)
  exact SafeStep.refl _

theorem execCheckpointWatchdog_safe (t stone : Nat) (s : State) : ∀ v : State, execCheckpointWatchdog t stone s = .next v → SafeStep s v := by
  unfold execCheckpointWatchdog
  extract_lets +onlyGivenNames q1
  extract_lets +onlyGivenNames q2
  split
  refine SafeStep.nx ?_
  refine SafeStep.trans ?_ (State.at__safe ..)
  exact SafeStep.refl _
  refine SafeStep.nxIte ?_ ?_
  extract_lets +onlyGivenNames q3
  extract_lets +onlyGivenNames q4
  refine SafeStep.nx ?_
  refine SafeStep.trans ?_ (State.placePiece_safe ..)
  refine SafeStep.trans ?_ (State.modSlot_safe ..)
  refine SafeStep.trans ?_ (State.stoneIdle_safe ..)
  refine SafeStep.trans ?_ (State.countWatchdog_safe ..)
  refine SafeStep.trans ?_ (State.recordFault_safe ..)
  refine SafeStep.trans ?_ (State.chargeRun_safe ..)
  refine SafeStep.trans ?_ (State.at__safe ..)
  exact SafeStep.refl _
  refine SafeStep.nx ?_
  refine SafeStep.trans ?_ (State.at__safe ..)
  exact SafeStep.refl _

theorem State.abortPiece_safe (s : State) (k : Nat) (p : Piece) (out : PieceOut) : SafeStep s (State.abortPiece s k p out) := by
  unfold State.abortPiece
  refine SafeStep.trans ?_ (State.pieceEnded_safe ..)
  refine SafeStep.trans ?_ (State.stoneIdle_safe ..)
  refine SafeStep.trans ?_ (State.chargeRun_safe ..)
  exact SafeStep.refl _

theorem execAccumulatorLimit_safe (t stone : Nat) (s : State) : ∀ v : State, execAccumulatorLimit t stone s = .next v → SafeStep s v := by
  unfold execAccumulatorLimit
  extract_lets +onlyGivenNames q1
  split
  refine SafeStep.nx ?_
  refine SafeStep.trans ?_ (State.at__safe ..)
  exact SafeStep.refl _
  refine SafeStep.nxIte ?_ ?_
  refine SafeStep.nx ?_
  refine SafeStep.trans ?_ (State.abortPiece_safe ..)
  refine SafeStep.trans ?_ (State.countWatchdog_safe ..)
  refine SafeStep.trans ?_ (State.recordFault_safe ..)
  refine SafeStep.trans ?_ (State.at__safe ..)
  exact SafeStep.refl _
  refine SafeStep.nx ?_
  refine SafeStep.trans ?_ (State.at__safe ..)
  exact SafeStep.refl _

theorem execCodeFetchTrap_safe (t stone : Nat) (s : State) : ∀ v : State, execCodeFetchTrap t stone s = .next v → SafeStep s v := by
  unfold execCodeFetchTrap
  extract_lets +onlyGivenNames q1
  split
  refine SafeStep.nx ?_
  refine SafeStep.trans ?_ (State.at__safe ..)
  exact SafeStep.refl _
  refine SafeStep.nxIte ?_ ?_
  refine SafeStep.nx ?_
  refine SafeStep.trans ?_ (State.ueLog_safe ..)
  refine SafeStep.trans ?_ (State.modStone_safe ..)
  refine SafeStep.trans ?_ (State.abortPiece_safe ..)
  refine SafeStep.trans ?_ (State.at__safe ..)
  exact SafeStep.refl _
  refine SafeStep.nx ?_
  refine SafeStep.trans ?_ (State.at__safe ..)
  exact SafeStep.refl _

theorem State.saveCkpt_safe (s : State) (stone : Nat) (p : Piece) : SafeStep s (State.saveCkpt s stone p).2 := by
  unfold State.saveCkpt
  extract_lets +onlyGivenNames q1
  extract_lets +onlyGivenNames q2
  refine SafeStep.iteP ?_ ?_
  exact SafeStep.refl _
  extract_lets +onlyGivenNames q3
  dsimp only
  refine SafeStep.trans ?_ (SafeStep.fieldsF rfl rfl rfl rfl)
  exact SafeStep.refl _

theorem execPreemptCheckpoint_safe (t stone : Nat) (s : State) : ∀ v : State, execPreemptCheckpoint t stone s = .next v → SafeStep s v := by
  unfold execPreemptCheckpoint
  extract_lets +onlyGivenNames q1
  extract_lets +onlyGivenNames q2
  split
  refine SafeStep.nx ?_
  refine SafeStep.trans ?_ (State.at__safe ..)
  exact SafeStep.refl _
  refine SafeStep.nxIte ?_ ?_
  extract_lets +onlyGivenNames q3
  extract_lets +onlyGivenNames q4
  extract_lets +onlyGivenNames q5
  extract_lets +onlyGivenNames q6
  split
  refine SafeStep.nx ?_
  refine SafeStep.trans ?_ (State.placePiece_safe ..)
  refine SafeStep.snd (by assumption) ?_
  refine SafeStep.trans ?_ (State.saveCkpt_safe ..)
  refine SafeStep.trans ?_ (State.stoneIdle_safe ..)
  refine SafeStep.trans ?_ (State.chargeRun_safe ..)
  refine SafeStep.ite ?_ ?_
  refine SafeStep.trans ?_ (State.modStnLd_safe ..)
  refine SafeStep.trans ?_ (State.at__safe ..)
  exact SafeStep.refl _
  with_reducible refine SafeStep.trans ?_ (SafeStep.fields rfl rfl rfl rfl)
  refine SafeStep.trans ?_ (State.modStnLd_safe ..)
  refine SafeStep.trans ?_ (State.at__safe ..)
  exact SafeStep.refl _
  refine SafeStep.nx ?_
  refine SafeStep.trans ?_ (State.at__safe ..)
  exact SafeStep.refl _

theorem execStoneClearComplete_safe (t stone : Nat) (s : State) : ∀ v : State, execStoneClearComplete t stone s = .next v → SafeStep s v := by
  unfold execStoneClearComplete
  extract_lets +onlyGivenNames q1
  extract_lets +onlyGivenNames q2
  refine SafeStep.nxIte ?_ ?_
  extract_lets +onlyGivenNames q3
  extract_lets +onlyGivenNames q4
  extract_lets +onlyGivenNames q5
  refine SafeStep.nx ?_
  refine SafeStep.trans ?_ (State.caps_safe ..)
  refine SafeStep.trans ?_ (State.placeWaiting_safe ..)
  unfold q5
  split
  refine SafeStep.trans ?_ (State.modSlice_safe ..)
  refine SafeStep.trans ?_ (State.modStone_safe ..)
  refine SafeStep.trans ?_ (State.at__safe ..)
  exact SafeStep.refl _
  refine SafeStep.trans ?_ (State.modStone_safe ..)
  refine SafeStep.trans ?_ (State.at__safe ..)
  exact SafeStep.refl _
  refine SafeStep.nx ?_
  refine SafeStep.trans ?_ (State.at__safe ..)
  exact SafeStep.refl _

theorem execStoneFailure_safe (t stone : Nat) (s : State) : ∀ v : State, execStoneFailure t stone s = .next v → SafeStep s v := by
  unfold execStoneFailure
  extract_lets +onlyGivenNames q1
  refine SafeStep.nxIte ?_ ?_
  refine SafeStep.nx ?_
  refine SafeStep.trans ?_ (State.noteVitals_safe ..)
  refine SafeStep.trans ?_ (State.caps_safe ..)
  refine SafeStep.trans ?_ (State.stoneFails_safe ..)
  refine SafeStep.trans ?_ (State.at__safe ..)
  exact SafeStep.refl _
  refine SafeStep.nx ?_
  refine SafeStep.trans ?_ (State.at__safe ..)
  exact SafeStep.refl _

theorem execDressingUnloadDrained_safe (t handle : Nat) (s : State) : ∀ v : State, execDressingUnloadDrained t handle s = .next v → SafeStep s v := by
  unfold execDressingUnloadDrained
  extract_lets +onlyGivenNames q1
  split
  refine SafeStep.nxIte ?_ ?_
  refine SafeStep.nx ?_
  with_reducible refine SafeStep.trans ?_ (SafeStep.fields rfl rfl rfl rfl)
  refine SafeStep.trans ?_ (State.at__safe ..)
  exact SafeStep.refl _
  refine SafeStep.nx ?_
  refine SafeStep.trans ?_ (State.at__safe ..)
  exact SafeStep.refl _
  refine SafeStep.nx ?_
  refine SafeStep.trans ?_ (State.at__safe ..)
  exact SafeStep.refl _

theorem State.loadDone_safe (s : State) (ld : Nat) (c : Bytes) : SafeStep s (State.loadDone s ld c).2 := by
  unfold State.loadDone
  extract_lets +onlyGivenNames q1
  refine SafeStep.iteP ?_ ?_
  dsimp only
  refine SafeStep.trans ?_ (State.modStnLd_safe ..)
  exact SafeStep.refl _
  extract_lets +onlyGivenNames q2
  dsimp only
  with_reducible refine SafeStep.trans ?_ (SafeStep.fields rfl rfl rfl rfl)
  exact SafeStep.refl _

theorem execLoadDressing_safe (h : MbHdr) (p : Part) (s : State) : ∀ v : State, execLoadDressing h p s = .next v → SafeStep s v := by
  unfold execLoadDressing
  refine SafeStep.nx ?_
  refine SafeStep.trans ?_ (State.mbPartsBg_safe _ _ _ _ _ _ ?_)
  exact SafeStep.refl _
  intro _ _ 
  refine SafeStep.exOk ?_
  exact SafeStep.refl _

theorem execUnloadDressing_safe (h : MbHdr) (handle : Nat) (s : State) : ∀ v : State, execUnloadDressing h handle s = .next v → SafeStep s v := by
  unfold execUnloadDressing
  refine SafeStep.nx ?_
  refine SafeStep.trans ?_ (State.mbRun_safe _ _ _ _ ?_)
  exact SafeStep.refl _
  split
  refine SafeStep.okIte ?_ ?_
  exact SafeStep.okErr
  extract_lets +onlyGivenNames q1
  refine SafeStep.okOk ?_
  dsimp only
  with_reducible refine SafeStep.trans ?_ (SafeStep.fields rfl rfl rfl rfl)
  exact SafeStep.refl _
  exact SafeStep.okErr

theorem execGetDressingInfo_safe (h : MbHdr) (handle : Nat) (s : State) : ∀ v : State, execGetDressingInfo h handle s = .next v → SafeStep s v := by
  unfold execGetDressingInfo
  refine SafeStep.nx (State.mbRun_safe _ _ _ _ ?_)
  extract_lets running answer
  have ha : ∀ st r, answer st = .ok r → SafeStep s r.s := fun st => SafeStep.okOk (SafeStep.refl _)
  split
  · exact SafeStep.okIte SafeStep.okErr (ha _)
  · exact SafeStep.okIte SafeStep.okErr (SafeStep.okIte (ha _) (SafeStep.okOk (SafeStep.refl _)))

theorem execRegisterDressingKey_safe (h : MbHdr) (exponent : Nat) (modulus : Bytes) (s : State) : ∀ v : State, execRegisterDressingKey h exponent modulus s = .next v → SafeStep s v := by
  unfold execRegisterDressingKey
  refine SafeStep.nx ?_
  refine SafeStep.trans ?_ (State.mbRun_safe _ _ _ _ ?_)
  exact SafeStep.refl _
  extract_lets +onlyGivenNames q1
  extract_lets +onlyGivenNames q2
  refine SafeStep.okIte ?_ ?_
  exact SafeStep.okErr
  refine SafeStep.okIte ?_ ?_
  refine SafeStep.okOk ?_
  exact SafeStep.refl _
  refine SafeStep.okIte ?_ ?_
  exact SafeStep.okErr
  refine SafeStep.okOk ?_
  dsimp only
  with_reducible refine SafeStep.trans ?_ (SafeStep.fields rfl rfl rfl rfl)
  exact SafeStep.refl _

theorem execRemoveDressingKey_safe (h : MbHdr) (keyid : Bytes) (s : State) : ∀ v : State, execRemoveDressingKey h keyid s = .next v → SafeStep s v := by
  unfold execRemoveDressingKey
  refine SafeStep.nx ?_
  refine SafeStep.trans ?_ (State.mbRun_safe _ _ _ _ ?_)
  exact SafeStep.refl _
  extract_lets +onlyGivenNames q1
  refine SafeStep.okIte ?_ ?_
  refine SafeStep.okOk ?_
  dsimp only
  with_reducible refine SafeStep.trans ?_ (SafeStep.fields rfl rfl rfl rfl)
  exact SafeStep.refl _
  exact SafeStep.okErr

theorem execGetStoneStatus_safe (h : MbHdr) (s : State) : ∀ v : State, execGetStoneStatus h s = .next v → SafeStep s v := by
  unfold execGetStoneStatus
  refine SafeStep.nx ?_
  refine SafeStep.trans ?_ (State.mbRun_safe _ _ _ _ ?_)
  exact SafeStep.refl _
  refine SafeStep.okOk ?_
  exact SafeStep.refl _

theorem State.offlineStone_safe (s : State) (stone : Nat) : SafeStep s (State.offlineStone s stone) := by
  unfold State.offlineStone
  refine SafeStep.trans ?_ (State.drainStone_safe ..)
  refine SafeStep.trans ?_ (State.modStone_safe ..)
  exact SafeStep.refl _

theorem execSetStoneOffline_safe (h : MbHdr) (stone : Nat) (s : State) : ∀ v : State, execSetStoneOffline h stone s = .next v → SafeStep s v := by
  unfold execSetStoneOffline
  refine SafeStep.nx ?_
  refine SafeStep.trans ?_ (State.mbBg_safe _ _ _ _ _ ?_)
  exact SafeStep.refl _
  refine SafeStep.exIte ?_ ?_
  exact SafeStep.exErr
  refine SafeStep.exOk ?_
  refine SafeStep.trans ?_ (State.offlineStone_safe ..)
  exact SafeStep.refl _

theorem execSetStoneOnline_safe (h : MbHdr) (stone : Nat) (s : State) : ∀ v : State, execSetStoneOnline h stone s = .next v → SafeStep s v := by
  unfold execSetStoneOnline
  refine SafeStep.nx ?_
  refine SafeStep.trans ?_ (State.mbRun_safe _ _ _ _ ?_)
  exact SafeStep.refl _
  refine SafeStep.okIte ?_ ?_
  exact SafeStep.okErr
  refine SafeStep.okOk ?_
  dsimp only
  refine SafeStep.trans ?_ (State.caps_safe ..)
  refine SafeStep.trans ?_ (State.placeWaiting_safe ..)
  refine SafeStep.trans ?_ (State.modStone_safe ..)
  exact SafeStep.refl _

theorem State.streamMiss_safe (s : State) : SafeStep s (State.streamMiss s) := by
  unfold State.streamMiss
  refine SafeStep.trans ?_ (State.modWeir_safe ..)
  exact SafeStep.refl _

theorem State.streamLost_safe (s : State) (k : Nat) : SafeStep s (State.streamLost s k) := by
  unfold State.streamLost
  refine SafeStep.ite ?_ ?_
  extract_lets +onlyGivenNames q1
  extract_lets +onlyGivenNames q2
  refine SafeStep.ite ?_ ?_
  refine SafeStep.trans ?_ (State.ueLog_safe ..)
  refine SafeStep.trans ?_ (State.freeStream_safe ..)
  refine SafeStep.trans ?_ (State.modSeq_safe ..)
  exact SafeStep.refl _
  exact SafeStep.refl _
  refine SafeStep.ite ?_ ?_
  split
  exact SafeStep.refl _
  extract_lets +onlyGivenNames q3
  refine SafeStep.trans ?_ (State.ueLog_safe ..)
  refine SafeStep.trans ?_ (State.modWheel_safe ..)
  exact SafeStep.refl _
  refine SafeStep.ite ?_ ?_
  extract_lets +onlyGivenNames q4
  split
  refine SafeStep.ite ?_ ?_
  refine SafeStep.trans ?_ (State.ueLog_safe ..)
  refine SafeStep.trans ?_ (State.finish_safe ..)
  refine SafeStep.trans ?_ (State.stopPieces_safe ..)
  exact SafeStep.refl _
  exact SafeStep.refl _
  exact SafeStep.refl _
  split
  exact SafeStep.refl _
  split
  refine SafeStep.trans ?_ (State.ueLog_safe ..)
  refine SafeStep.trans ?_ (State.haltXfer_safe ..)
  exact SafeStep.refl _
  exact SafeStep.refl _

theorem execStreamCacheFill_safe (t entry : Nat) (corrupt : Bool) (s : State) : ∀ v : State, execStreamCacheFill t entry corrupt s = .next v → SafeStep s v := by
  unfold execStreamCacheFill
  extract_lets +onlyGivenNames q1
  refine SafeStep.nxIte ?_ ?_
  refine SafeStep.nx ?_
  refine SafeStep.trans ?_ (State.at__safe ..)
  exact SafeStep.refl _
  refine SafeStep.nxIte ?_ ?_
  refine SafeStep.nx ?_
  refine SafeStep.trans ?_ (State.streamLost_safe ..)
  refine SafeStep.trans ?_ (State.streamMiss_safe ..)
  refine SafeStep.trans ?_ (State.at__safe ..)
  exact SafeStep.refl _
  refine SafeStep.nx ?_
  refine SafeStep.trans ?_ (State.streamMiss_safe ..)
  refine SafeStep.trans ?_ (State.at__safe ..)
  exact SafeStep.refl _

theorem State.recap_safe (s : State) (resource : Nat) : SafeStep s (State.recap s resource) := by
  unfold State.recap
  extract_lets +onlyGivenNames q1
  refine SafeStep.ite ?_ ?_
  refine SafeStep.trans ?_ (State.recompute_safe ..)
  refine SafeStep.trans ?_ (State.modWeir_safe ..)
  exact SafeStep.refl _
  refine SafeStep.trans ?_ (State.noteCap_safe ..)
  exact SafeStep.refl _

theorem execGuaranteeRecompute_safe (t resource : Nat) (s : State) : ∀ v : State, execGuaranteeRecompute t resource s = .next v → SafeStep s v := by
  unfold execGuaranteeRecompute
  extract_lets +onlyGivenNames q1
  refine SafeStep.nxIte ?_ ?_
  refine SafeStep.nx ?_
  refine SafeStep.trans ?_ (State.at__safe ..)
  exact SafeStep.refl _
  refine SafeStep.nx ?_
  refine SafeStep.trans ?_ (State.noteVitals_safe ..)
  refine SafeStep.trans ?_ (State.recap_safe ..)
  refine SafeStep.trans ?_ (State.at__safe ..)
  exact SafeStep.refl _

theorem execCapacityRiseTimeout_safe (t resource : Nat) (s : State) : ∀ v : State, execCapacityRiseTimeout t resource s = .next v → SafeStep s v := by
  unfold execCapacityRiseTimeout
  extract_lets +onlyGivenNames q1
  split
  refine SafeStep.nxIte ?_ ?_
  extract_lets +onlyGivenNames q2
  extract_lets +onlyGivenNames q3
  refine SafeStep.nx ?_
  refine SafeStep.trans ?_ (State.noteVitals_safe ..)
  refine SafeStep.trans ?_ (State.noteCap_safe ..)
  refine SafeStep.trans ?_ (State.recompute_safe ..)
  refine SafeStep.trans ?_ (State.modWeir_safe ..)
  refine SafeStep.trans ?_ (State.at__safe ..)
  exact SafeStep.refl _
  refine SafeStep.nx ?_
  refine SafeStep.trans ?_ (State.at__safe ..)
  exact SafeStep.refl _
  refine SafeStep.nx ?_
  refine SafeStep.trans ?_ (State.at__safe ..)
  exact SafeStep.refl _

theorem execSetClass_safe (h : MbHdr) (cls share cache queue : Nat) (s : State) : ∀ v : State, execSetClass h cls share cache queue s = .next v → SafeStep s v := by
  unfold execSetClass
  refine SafeStep.nx ?_
  refine SafeStep.trans ?_ (State.mbRun_safe _ _ _ _ ?_)
  exact SafeStep.refl _
  refine SafeStep.okIte ?_ ?_
  exact SafeStep.okErr
  refine SafeStep.okOk ?_
  dsimp only
  refine SafeStep.trans ?_ (State.modWeir_safe ..)
  exact SafeStep.refl _

theorem execReserveGuarantee_safe (h : MbHdr) (resource cls rate latbound : Nat) (s : State) : ∀ v : State, execReserveGuarantee h resource cls rate latbound s = .next v → SafeStep s v := by
  unfold execReserveGuarantee
  refine SafeStep.nx ?_
  refine SafeStep.trans ?_ (State.mbRun_safe _ _ _ _ ?_)
  exact SafeStep.refl _
  extract_lets +onlyGivenNames q1
  refine SafeStep.okIte ?_ ?_
  exact SafeStep.okErr
  extract_lets +onlyGivenNames q2
  extract_lets +onlyGivenNames q3
  extract_lets +onlyGivenNames q4
  refine SafeStep.okIte ?_ ?_
  exact SafeStep.okErr
  extract_lets +onlyGivenNames q5
  refine SafeStep.okOk ?_
  dsimp only
  refine SafeStep.trans ?_ (State.noteVitals_safe ..)
  refine SafeStep.trans ?_ (State.recompute_safe ..)
  refine SafeStep.trans ?_ (State.setGuar_safe ..)
  exact SafeStep.refl _

theorem execReleaseGuarantee_safe (h : MbHdr) (resource : Nat) (s : State) : ∀ v : State, execReleaseGuarantee h resource s = .next v → SafeStep s v := by
  unfold execReleaseGuarantee
  refine SafeStep.nx ?_
  refine SafeStep.trans ?_ (State.mbRun_safe _ _ _ _ ?_)
  exact SafeStep.refl _
  refine SafeStep.okIte ?_ ?_
  exact SafeStep.okErr
  refine SafeStep.okOk ?_
  dsimp only
  refine SafeStep.trans ?_ (State.noteVitals_safe ..)
  refine SafeStep.trans ?_ (State.recompute_safe ..)
  refine SafeStep.trans ?_ (State.setGuar_safe ..)
  exact SafeStep.refl _

theorem execGetWeirStatus_safe (h : MbHdr) (s : State) : ∀ v : State, execGetWeirStatus h s = .next v → SafeStep s v := by
  unfold execGetWeirStatus
  refine SafeStep.nx ?_
  refine SafeStep.trans ?_ (State.mbRun_safe _ _ _ _ ?_)
  exact SafeStep.refl _
  refine SafeStep.okIte ?_ ?_
  refine SafeStep.okOk ?_
  exact SafeStep.refl _
  extract_lets +onlyGivenNames q1
  refine SafeStep.okOk ?_
  exact SafeStep.refl _

theorem execSetCaptureWindow_safe (h : MbHdr) (mode wheel span : Nat) (s : State) : ∀ v : State, execSetCaptureWindow h mode wheel span s = .next v → SafeStep s v := by
  unfold execSetCaptureWindow
  refine SafeStep.nx ?_
  refine SafeStep.trans ?_ (State.mbRun_safe _ _ _ _ ?_)
  exact SafeStep.refl _
  refine SafeStep.okIte ?_ ?_
  exact SafeStep.okErr
  refine SafeStep.okOk ?_
  dsimp only
  refine SafeStep.trans ?_ (State.modWeir_safe ..)
  exact SafeStep.refl _

theorem execGetMaxLatency_safe (h : MbHdr) (cls resource : Nat) (s : State) : ∀ v : State, execGetMaxLatency h cls resource s = .next v → SafeStep s v := by
  unfold execGetMaxLatency
  refine SafeStep.nx ?_
  refine SafeStep.trans ?_ (State.mbRun_safe _ _ _ _ ?_)
  exact SafeStep.refl _
  refine SafeStep.okIte ?_ ?_
  exact SafeStep.okErr
  extract_lets +onlyGivenNames q1
  extract_lets +onlyGivenNames q2
  refine SafeStep.okOk ?_
  exact SafeStep.refl _

theorem execCaptureWindowEnd_safe (t : Nat) (s : State) : ∀ v : State, execCaptureWindowEnd t s = .next v → SafeStep s v := by
  unfold execCaptureWindowEnd
  extract_lets +onlyGivenNames q1
  extract_lets +onlyGivenNames q2
  refine SafeStep.nxIte ?_ ?_
  refine SafeStep.nx ?_
  refine SafeStep.trans ?_ (State.latchWindow_safe ..)
  refine SafeStep.trans ?_ (State.at__safe ..)
  exact SafeStep.refl _
  refine SafeStep.nx ?_
  refine SafeStep.trans ?_ (State.at__safe ..)
  exact SafeStep.refl _

end Sys2Proof.Machine
end

