-- ==== Sys2Proof/Laws/SafeDeep.lean ====
section
/-! SUPPORT. Every operation and every meaning over the extents, the deep tier and integrity is a safe step: one lemma each. -/
namespace Sys2Proof.Machine

theorem State.setLine_safe (s : State) (blk line : Nat) (h : LineHold) : SafeStep s (State.setLine s blk line h) := by
  unfold State.setLine
  extract_lets +onlyGivenNames q1
  extract_lets +onlyGivenNames q2
  extract_lets +onlyGivenNames q3
  refine SafeStep.trans ?_ (State.modCxe_safe ..)
  exact SafeStep.refl _

theorem State.sendSnoop_safe (s : State) (ld blk line kind : Nat) : SafeStep s (State.sendSnoop s ld blk line kind) := by
  unfold State.sendSnoop
  extract_lets +onlyGivenNames q1
  refine SafeStep.trans ?_ (State.send_safe ..)
  refine SafeStep.trans ?_ (State.modCxe_safe ..)
  refine SafeStep.trans ?_ (State.modCxeLd_safe ..)
  exact SafeStep.refl _

theorem State.snoopEntry_safe (s : State) (e : SnoopEnt) : SafeStep s (State.snoopEntry s e) := by
  unfold State.snoopEntry
  refine SafeStep.foldl ?_ (fun s x => ?_)
  exact SafeStep.refl _
  refine SafeStep.foldl ?_ (fun s x => ?_)
  exact SafeStep.refl _
  refine SafeStep.trans ?_ (State.sendSnoop_safe ..)
  exact SafeStep.refl _

theorem State.snoopRoom_safe (s : State) (blk : Nat) : SafeStep s (State.snoopRoom s blk).2 := by
  unfold State.snoopRoom
  refine SafeStep.iteP ?_ ?_
  exact SafeStep.refl _
  split
  exact SafeStep.refl _
  dsimp only
  refine SafeStep.trans ?_ (State.modCxe_safe ..)
  refine SafeStep.trans ?_ (State.snoopEntry_safe ..)
  exact SafeStep.refl _

theorem State.snoopLost_safe (s : State) (blk : Nat) : SafeStep s (State.snoopLost s blk) := by
  unfold State.snoopLost
  extract_lets +onlyGivenNames q1
  refine SafeStep.foldl ?_ (fun s x => ?_)
  exact SafeStep.refl _
  refine SafeStep.foldl ?_ (fun s x => ?_)
  exact SafeStep.refl _
  refine SafeStep.trans ?_ (State.sendSnoop_safe ..)
  exact SafeStep.refl _

theorem State.postLost_safe (s : State) (m view ld : Nat) (blks : List Nat) : SafeStep s (State.postLost s m view ld blks) := by
  unfold State.postLost
  extract_lets +onlyGivenNames q1
  refine SafeStep.ite ?_ ?_
  exact SafeStep.refl _
  extract_lets +onlyGivenNames q2
  refine SafeStep.foldl ?_ (fun s x => ?_)
  exact SafeStep.refl _
  refine SafeStep.trans ?_ (State.post_safe ..)
  exact SafeStep.refl _

theorem State.poisonLost_safe (s : State) (blk : Nat) : SafeStep s (State.poisonLost s blk) := by
  unfold State.poisonLost
  extract_lets +onlyGivenNames q1
  with_reducible refine SafeStep.trans ?_ (SafeStep.fields rfl rfl rfl rfl)
  refine SafeStep.trans ?_ (SafeStep.modStore (fun _ => rfl) (fun _ => rfl) (fun _ => rfl))
  refine SafeStep.trans ?_ (State.poisonBlock_safe ..)
  exact SafeStep.refl _

theorem State.holderLost_safe (s : State) (ld : Nat) (lines : List (Nat × Nat)) : SafeStep s (State.holderLost s ld lines) := by
  unfold State.holderLost
  extract_lets +onlyGivenNames q1
  extract_lets +onlyGivenNames q2
  extract_lets +onlyGivenNames q3
  extract_lets +onlyGivenNames q4
  refine SafeStep.ite ?_ ?_
  refine SafeStep.foldl ?_ (fun s x => ?_)
  refine SafeStep.foldl ?_ (fun s x => ?_)
  exact SafeStep.refl _
  refine SafeStep.trans ?_ (State.setLine_safe ..)
  exact SafeStep.refl _
  refine SafeStep.trans ?_ (State.poisonLost_safe ..)
  exact SafeStep.refl _
  extract_lets +onlyGivenNames q5
  extract_lets +onlyGivenNames q6
  extract_lets +onlyGivenNames q7
  refine SafeStep.trans ?_ (State.postLost_safe ..)
  refine SafeStep.foldl ?_ (fun s x => ?_)
  refine SafeStep.trans ?_ (State.modCxeLd_safe ..)
  refine SafeStep.foldl ?_ (fun s x => ?_)
  refine SafeStep.foldl ?_ (fun s x => ?_)
  exact SafeStep.refl _
  refine SafeStep.trans ?_ (State.setLine_safe ..)
  exact SafeStep.refl _
  refine SafeStep.trans ?_ (State.poisonLost_safe ..)
  exact SafeStep.refl _
  refine SafeStep.trans ?_ (State.postLost_safe ..)
  exact SafeStep.refl _

theorem State.serveBi_safe (s : State) (r : HeldBi) : SafeStep s (State.serveBi s r) := by
  unfold State.serveBi
  split
  refine SafeStep.ite ?_ ?_
  exact SafeStep.refl _
  refine SafeStep.ite ?_ ?_
  refine SafeStep.trans ?_ (State.send_safe ..)
  exact SafeStep.refl _
  refine SafeStep.trans ?_ (State.send_safe ..)
  exact SafeStep.refl _
  refine SafeStep.ite ?_ ?_
  refine SafeStep.ite ?_ ?_
  refine SafeStep.trans ?_ (State.writeLine_safe ..)
  exact SafeStep.refl _
  exact SafeStep.refl _
  extract_lets +onlyGivenNames q1
  extract_lets +onlyGivenNames q2
  refine SafeStep.ite ?_ ?_
  refine SafeStep.trans ?_ (State.writeLine_safe ..)
  refine SafeStep.trans ?_ (State.setLine_safe ..)
  exact SafeStep.refl _
  refine SafeStep.trans ?_ (State.readLine_safe ..)
  refine SafeStep.trans ?_ (State.setLine_safe ..)
  exact SafeStep.refl _

theorem State.pumpBi_safe (s : State) (y0 : List HeldBi) (y1 : List HeldBi) : SafeStep s (State.pumpBi s y0 y1) := by
  induction y0 generalizing s y1 with
  | nil =>
    unfold State.pumpBi
    refine SafeStep.trans ?_ (State.modCxe_safe ..)
    exact SafeStep.refl _
  | cons c l ih =>
    unfold State.pumpBi
    refine SafeStep.ite ?_ ?_
    refine SafeStep.trans ?_ (ih ..)
    exact SafeStep.refl _
    extract_lets +onlyGivenNames q1
    refine SafeStep.ite ?_ ?_
    refine SafeStep.trans ?_ (ih ..)
    refine SafeStep.trans ?_ (State.serveBi_safe ..)
    exact SafeStep.refl _
    refine SafeStep.trans ?_ (ih ..)
    refine SafeStep.foldl ?_ (fun s x => ?_)
    exact SafeStep.refl _
    refine SafeStep.trans ?_ (State.sendSnoop_safe ..)
    exact SafeStep.refl _

theorem State.acceptBi_safe (s : State) (r : HeldBi) : SafeStep s (State.acceptBi s r) := by
  unfold State.acceptBi
  extract_lets +onlyGivenNames q1
  split
  refine SafeStep.trans ?_ (State.pumpBi_safe ..)
  refine SafeStep.snd (by assumption) ?_
  refine SafeStep.iteP ?_ ?_
  refine SafeStep.trans ?_ (State.snoopRoom_safe ..)
  exact SafeStep.refl _
  exact SafeStep.refl _

theorem State.snoopDone_safe (s : State) (x : Snp) : SafeStep s (State.snoopDone s x) := by
  unfold State.snoopDone
  extract_lets +onlyGivenNames q1
  refine SafeStep.trans ?_ (State.setLine_safe ..)
  refine SafeStep.trans ?_ (State.modCxe_safe ..)
  exact SafeStep.refl _

theorem execBirsp_safe (ld blk line : Nat) (writeback : Option Bytes) (s : State) : ∀ v : State, execBirsp ld blk line writeback s = .next v → SafeStep s v := by
  unfold execBirsp
  split
  refine SafeStep.nx ?_
  exact SafeStep.refl _
  extract_lets +onlyGivenNames q1
  extract_lets +onlyGivenNames q2
  refine SafeStep.nx ?_
  refine SafeStep.trans ?_ (State.pumpBi_safe ..)
  refine SafeStep.trans ?_ (State.snoopDone_safe ..)
  unfold q1
  split
  refine SafeStep.trans ?_ (State.writeLine_safe ..)
  exact SafeStep.refl _
  exact SafeStep.refl _

theorem execBisnpTimeout_safe (t ld blk line : Nat) (s : State) : ∀ v : State, execBisnpTimeout t ld blk line s = .next v → SafeStep s v := by
  unfold execBisnpTimeout
  extract_lets +onlyGivenNames q1
  split
  refine SafeStep.nx ?_
  refine SafeStep.trans ?_ (State.at__safe ..)
  exact SafeStep.refl _
  refine SafeStep.nxIte ?_ ?_
  extract_lets +onlyGivenNames q2
  extract_lets +onlyGivenNames q3
  refine SafeStep.nx ?_
  refine SafeStep.trans ?_ (State.pumpBi_safe ..)
  refine SafeStep.trans ?_ (State.snoopDone_safe ..)
  refine SafeStep.trans ?_ (State.holderLost_safe ..)
  refine SafeStep.trans ?_ (State.modCxeLd_safe ..)
  refine SafeStep.trans ?_ (State.at__safe ..)
  exact SafeStep.refl _
  refine SafeStep.nx ?_
  refine SafeStep.trans ?_ (State.at__safe ..)
  exact SafeStep.refl _

theorem State.addExtent_safe (s : State) (e : Extent) : SafeStep s (State.addExtent s e) := by
  unfold State.addExtent
  with_reducible refine SafeStep.trans ?_ (SafeStep.fields rfl rfl rfl rfl)
  exact SafeStep.refl _

theorem State.admitExt_safe (s : State) (ld : Nat) (shared : Bool) (a : DcAdd) (group : Nat) : ∀ v : State, State.admitExt s ld shared a group = .ok v → SafeStep s v := by
  unfold State.admitExt
  refine SafeStep.exIte ?_ ?_
  exact SafeStep.exErr
  refine SafeStep.exIte ?_ ?_
  exact SafeStep.exErr
  split
  exact SafeStep.exErr
  extract_lets +onlyGivenNames q1
  refine SafeStep.exIte ?_ ?_
  split
  refine SafeStep.exIte ?_ ?_
  exact SafeStep.exErr
  refine SafeStep.exIte ?_ ?_
  exact SafeStep.exErr
  refine SafeStep.exIte ?_ ?_
  exact SafeStep.exErr
  refine SafeStep.exOk ?_
  refine SafeStep.trans ?_ (State.addExtent_safe ..)
  exact SafeStep.refl _
  exact SafeStep.exErr
  extract_lets +onlyGivenNames q2
  split
  refine SafeStep.exIte ?_ ?_
  exact SafeStep.exErr
  refine SafeStep.exOk ?_
  refine SafeStep.trans ?_ (State.addExtent_safe ..)
  exact SafeStep.refl _

theorem State.admitAll_safe (s : State) (ld : Nat) (shared : Bool) (group : Nat) (y0 : List DcAdd) : ∀ v : State, State.admitAll s ld shared group y0 = .ok v → SafeStep s v := by
  induction y0 generalizing s with
  | nil =>
    unfold State.admitAll
    refine SafeStep.exOk ?_
    exact SafeStep.refl _
  | cons c l ih =>
    unfold State.admitAll
    split
    refine fun v hv => SafeStep.trans ?_ (ih _ _ hv)
    refine SafeStep.trans ?_ (State.admitExt_safe _ _ _ _ _ _ (by assumption))
    exact SafeStep.refl _
    exact SafeStep.exErr

theorem State.postDc_safe (s : State) (ld kind : Nat) (y0 : List Extent) : SafeStep s (State.postDc s ld kind y0) := by
  induction y0 generalizing s with
  | nil =>
    unfold State.postDc
    exact SafeStep.refl _
  | cons c l ih =>
    unfold State.postDc
    refine SafeStep.trans ?_ (ih ..)
    refine SafeStep.trans ?_ (State.post_safe ..)
    exact SafeStep.refl _

theorem execInitiateDcAdd_safe (h : MbHdr) (host policy : Nat) (exts : List DcAdd) (s : State) : ∀ v : State, execInitiateDcAdd h host policy exts s = .next v → SafeStep s v := by
  unfold execInitiateDcAdd
  refine SafeStep.nx ?_
  refine SafeStep.trans ?_ (State.mbRun_safe _ _ _ _ ?_)
  exact SafeStep.refl _
  refine SafeStep.okIte ?_ ?_
  exact SafeStep.okErr
  refine SafeStep.okIte ?_ ?_
  exact SafeStep.okErr
  extract_lets +onlyGivenNames q1
  split
  exact SafeStep.okErr
  extract_lets +onlyGivenNames q2
  extract_lets +onlyGivenNames q3
  extract_lets +onlyGivenNames q4
  refine SafeStep.okOk ?_
  dsimp only
  refine SafeStep.trans ?_ (State.postDc_safe ..)
  refine SafeStep.trans ?_ (State.journal_safe ..)
  with_reducible refine SafeStep.trans ?_ (SafeStep.fields rfl rfl rfl rfl)
  refine SafeStep.trans ?_ (State.admitAll_safe _ _ _ _ _ _ (by assumption))
  exact SafeStep.refl _

theorem execAddDcResponse_safe (h : MbHdr) (exts : List DcRange) (s : State) : ∀ v : State, execAddDcResponse h exts s = .next v → SafeStep s v := by
  unfold execAddDcResponse
  refine SafeStep.nx ?_
  refine SafeStep.trans ?_ (State.mbRun_safe _ _ _ _ ?_)
  exact SafeStep.refl _
  refine SafeStep.okIte ?_ ?_
  exact SafeStep.okErr
  split
  refine SafeStep.okIte ?_ ?_
  refine SafeStep.okOk ?_
  exact SafeStep.refl _
  exact SafeStep.okErr
  extract_lets +onlyGivenNames q1
  refine SafeStep.okIte ?_ ?_
  exact SafeStep.okErr
  extract_lets +onlyGivenNames q2
  refine SafeStep.okOk ?_
  dsimp only
  refine SafeStep.trans ?_ (State.journal_safe ..)
  with_reducible refine SafeStep.trans ?_ (SafeStep.fields rfl rfl rfl rfl)
  exact SafeStep.refl _

theorem State.cancelPrefetch_safe (s : State) (e : Extent) : SafeStep s (State.cancelPrefetch s e) := by
  unfold State.cancelPrefetch
  extract_lets +onlyGivenNames q1
  extract_lets +onlyGivenNames q2
  extract_lets +onlyGivenNames q3
  extract_lets +onlyGivenNames q4
  extract_lets +onlyGivenNames q5
  refine SafeStep.foldl ?_ (fun s x => ?_)
  refine SafeStep.foldl ?_ (fun s x => ?_)
  refine SafeStep.trans ?_ (State.cancelWants_safe ..)
  exact SafeStep.refl _
  refine SafeStep.trans ?_ (State.modWheel_safe ..)
  exact SafeStep.refl _
  refine SafeStep.trans ?_ (State.undoSpec_safe ..)
  exact SafeStep.refl _

theorem State.invalidateExt_safe (s : State) (e : Extent) : SafeStep s (State.invalidateExt s e) := by
  unfold State.invalidateExt
  extract_lets +onlyGivenNames q1
  refine SafeStep.foldl ?_ (fun s x => ?_)
  exact SafeStep.refl _
  refine SafeStep.trans ?_ (State.sendSnoop_safe ..)
  exact SafeStep.refl _

theorem State.withdrawOne_safe (s : State) (eid : Nat) : SafeStep s (State.withdrawOne s eid) := by
  unfold State.withdrawOne
  split
  exact SafeStep.refl _
  refine SafeStep.ite ?_ ?_
  exact SafeStep.refl _
  extract_lets +onlyGivenNames q1
  extract_lets +onlyGivenNames q2
  refine SafeStep.trans ?_ (State.post_safe ..)
  refine SafeStep.trans ?_ (State.invalidateExt_safe ..)
  refine SafeStep.trans ?_ (State.cancelPrefetch_safe ..)
  refine SafeStep.trans ?_ (State.modExt_safe ..)
  exact SafeStep.refl _

theorem State.dropExt_safe (s : State) (eid : Nat) : SafeStep s (State.dropExt s eid) := by
  unfold State.dropExt
  with_reducible refine SafeStep.trans ?_ (SafeStep.fields rfl rfl rfl rfl)
  exact SafeStep.refl _

theorem State.withdrawAliases_safe (s : State) (e : Extent) : SafeStep s (State.withdrawAliases s e) := by
  unfold State.withdrawAliases
  refine SafeStep.foldl ?_ (fun s x => ?_)
  exact SafeStep.refl _
  split
  refine SafeStep.trans ?_ (State.withdrawOne_safe ..)
  exact SafeStep.refl _
  refine SafeStep.trans ?_ (State.dropExt_safe ..)
  exact SafeStep.refl _
  exact SafeStep.refl _

theorem State.forceOut_safe (s : State) (e : Extent) : SafeStep s (State.forceOut s e) := by
  unfold State.forceOut
  split
  refine SafeStep.trans ?_ (State.dropExt_safe ..)
  exact SafeStep.refl _
  exact SafeStep.refl _
  exact SafeStep.refl _
  refine SafeStep.trans ?_ (State.withdrawAliases_safe ..)
  refine SafeStep.trans ?_ (State.withdrawOne_safe ..)
  exact SafeStep.refl _

theorem execInitiateDcRelease_safe (h : MbHdr) (host : Nat) (forced : Bool) (exts : List DcRange) (s : State) : ∀ v : State, execInitiateDcRelease h host forced exts s = .next v → SafeStep s v := by
  unfold execInitiateDcRelease
  refine SafeStep.nx ?_
  refine SafeStep.trans ?_ (State.mbRun_safe _ _ _ _ ?_)
  exact SafeStep.refl _
  extract_lets +onlyGivenNames q1
  extract_lets +onlyGivenNames q2
  refine SafeStep.okIte ?_ ?_
  exact SafeStep.okErr
  refine SafeStep.okIte ?_ ?_
  refine SafeStep.okOk ?_
  dsimp only
  refine SafeStep.trans ?_ (State.settleLeaving_safe ..)
  refine SafeStep.trans ?_ (State.journal_safe ..)
  refine SafeStep.foldl ?_ (fun s x => ?_)
  refine SafeStep.trans ?_ (State.settleLeaving_safe ..)
  exact SafeStep.refl _
  refine SafeStep.trans ?_ (State.forceOut_safe ..)
  exact SafeStep.refl _
  refine SafeStep.okOk ?_
  dsimp only
  refine SafeStep.trans ?_ (State.postDc_safe ..)
  refine SafeStep.trans ?_ (State.settleLeaving_safe ..)
  exact SafeStep.refl _

theorem execReleaseDc_safe (h : MbHdr) (exts : List DcRange) (s : State) : ∀ v : State, execReleaseDc h exts s = .next v → SafeStep s v := by
  unfold execReleaseDc
  refine SafeStep.nx ?_
  refine SafeStep.trans ?_ (State.mbRun_safe _ _ _ _ ?_)
  exact SafeStep.refl _
  extract_lets +onlyGivenNames q1
  extract_lets +onlyGivenNames q2
  extract_lets +onlyGivenNames q3
  refine SafeStep.okIte ?_ ?_
  exact SafeStep.okErr
  extract_lets +onlyGivenNames q4
  refine SafeStep.okOk ?_
  dsimp only
  refine SafeStep.trans ?_ (State.settleLeaving_safe ..)
  refine SafeStep.trans ?_ (State.journal_safe ..)
  refine SafeStep.foldl ?_ (fun s x => ?_)
  refine SafeStep.trans ?_ (State.settleLeaving_safe ..)
  exact SafeStep.refl _
  unfold q4
  refine SafeStep.ite ?_ ?_
  extract_lets +onlyGivenNames q5
  refine SafeStep.trans ?_ (State.withdrawAliases_safe ..)
  refine SafeStep.trans ?_ (State.cancelPrefetch_safe ..)
  refine SafeStep.trans ?_ (State.modExt_safe ..)
  exact SafeStep.refl _
  exact SafeStep.refl _

theorem State.endBound_safe (s : State) (e : Extent) : SafeStep s (State.endBound s e) := by
  unfold State.endBound
  extract_lets +onlyGivenNames q1
  extract_lets +onlyGivenNames q2
  refine SafeStep.ite ?_ ?_
  refine SafeStep.trans ?_ (State.dropGranary_safe ..)
  refine SafeStep.foldl ?_ (fun s x => ?_)
  exact SafeStep.refl _
  refine SafeStep.trans ?_ (State.unarm_safe ..)
  refine SafeStep.trans ?_ (State.releaseReads_safe ..)
  exact SafeStep.refl _
  refine SafeStep.foldl ?_ (fun s x => ?_)
  exact SafeStep.refl _
  refine SafeStep.trans ?_ (State.unarm_safe ..)
  refine SafeStep.trans ?_ (State.releaseReads_safe ..)
  exact SafeStep.refl _

theorem State.discard_safe (s : State) (e : Extent) : SafeStep s (State.discard s e) := by
  unfold State.discard
  extract_lets +onlyGivenNames q1
  extract_lets +onlyGivenNames q2
  extract_lets +onlyGivenNames q3
  refine SafeStep.trans ?_ (State.journal_safe ..)
  refine SafeStep.trans ?_ (State.dropExt_safe ..)
  refine SafeStep.ite ?_ ?_
  refine SafeStep.trans ?_ (State.endBound_safe ..)
  exact SafeStep.refl _
  refine SafeStep.trans ?_ (State.discardSacks_safe ..)
  refine SafeStep.trans ?_ (State.endBound_safe ..)
  exact SafeStep.refl _

theorem execExtentDiscard_safe (t eid : Nat) (s : State) : ∀ v : State, execExtentDiscard t eid s = .next v → SafeStep s v := by
  unfold execExtentDiscard
  extract_lets +onlyGivenNames q1
  split
  refine SafeStep.nxIte ?_ ?_
  refine SafeStep.nx ?_
  refine SafeStep.trans ?_ (State.retryReads_safe ..)
  refine SafeStep.trans ?_ (State.discard_safe ..)
  refine SafeStep.foldl ?_ (fun s x => ?_)
  refine SafeStep.trans ?_ (State.at__safe ..)
  exact SafeStep.refl _
  refine SafeStep.trans ?_ (State.discard_safe ..)
  exact SafeStep.refl _
  refine SafeStep.nx ?_
  refine SafeStep.trans ?_ (State.at__safe ..)
  exact SafeStep.refl _
  refine SafeStep.nx ?_
  refine SafeStep.trans ?_ (State.at__safe ..)
  exact SafeStep.refl _

theorem State.writeBeacon_safe (s : State) (ld wheel size : Nat) (aligned : Bool) (value : Word) : SafeStep s (State.writeBeacon s ld wheel size aligned value) := by
  unfold State.writeBeacon
  extract_lets +onlyGivenNames q1
  refine SafeStep.ite ?_ ?_
  refine SafeStep.trans ?_ (State.position_safe ..)
  exact SafeStep.refl _
  extract_lets +onlyGivenNames q2
  refine SafeStep.ite ?_ ?_
  refine SafeStep.trans ?_ (State.badPos_safe ..)
  exact SafeStep.refl _
  refine SafeStep.trans ?_ (State.aerUnc_safe ..)
  refine SafeStep.trans ?_ (State.badPos_safe ..)
  exact SafeStep.refl _

theorem execWheelBeacon_safe (ld wheel size : Nat) (aligned : Bool) (value : Word) (s : State) : ∀ v : State, execWheelBeacon ld wheel size aligned value s = .next v → SafeStep s v := by
  unfold execWheelBeacon
  refine SafeStep.nxIte ?_ ?_
  refine SafeStep.nx ?_
  exact SafeStep.refl _
  refine SafeStep.nx ?_
  refine SafeStep.trans ?_ (State.writeBeacon_safe ..)
  exact SafeStep.refl _

theorem execWheelIdleTimeout_safe (t ld wheel : Nat) (s : State) : ∀ v : State, execWheelIdleTimeout t ld wheel s = .next v → SafeStep s v := by
  unfold execWheelIdleTimeout
  extract_lets +onlyGivenNames q1
  extract_lets +onlyGivenNames q2
  extract_lets +onlyGivenNames q3
  refine SafeStep.nxIte ?_ ?_
  refine SafeStep.nx ?_
  refine SafeStep.trans ?_ (State.modWheel_safe ..)
  refine SafeStep.trans ?_ (State.cancelWheel_safe ..)
  refine SafeStep.trans ?_ (State.undoWheel_safe ..)
  refine SafeStep.trans ?_ (State.at__safe ..)
  exact SafeStep.refl _
  refine SafeStep.nx ?_
  refine SafeStep.trans ?_ (State.at__safe ..)
  exact SafeStep.refl _

theorem execWheelRestTimeout_safe (t ld wheel : Nat) (s : State) : ∀ v : State, execWheelRestTimeout t ld wheel s = .next v → SafeStep s v := by
  unfold execWheelRestTimeout
  extract_lets +onlyGivenNames q1
  extract_lets +onlyGivenNames q2
  extract_lets +onlyGivenNames q3
  refine SafeStep.nxIte ?_ ?_
  refine SafeStep.nx ?_
  refine SafeStep.trans ?_ (State.restWheel_safe ..)
  refine SafeStep.trans ?_ (State.at__safe ..)
  exact SafeStep.refl _
  refine SafeStep.nx ?_
  refine SafeStep.trans ?_ (State.at__safe ..)
  exact SafeStep.refl _

theorem execOpenWheel_safe (h : MbHdr) (n dlead pclass cclass flags sig idle rest : Nat) (watch : List (Nat × Nat)) (s : State) : ∀ v : State, execOpenWheel h n dlead pclass cclass flags sig idle rest watch s = .next v → SafeStep s v := by
  unfold execOpenWheel
  refine SafeStep.nx ?_
  refine SafeStep.trans ?_ (State.mbRun_safe _ _ _ _ ?_)
  exact SafeStep.refl _
  extract_lets +onlyGivenNames q1
  extract_lets +onlyGivenNames q2
  extract_lets +onlyGivenNames q3
  extract_lets +onlyGivenNames q4
  extract_lets +onlyGivenNames q5
  refine SafeStep.okIte ?_ ?_
  exact SafeStep.okErr
  split
  exact SafeStep.okErr
  split
  extract_lets +onlyGivenNames q6
  extract_lets +onlyGivenNames q7
  refine SafeStep.okOk ?_
  dsimp only
  refine SafeStep.trans ?_ (State.setWheel_safe ..)
  exact SafeStep.refl _

theorem State.closeWheel_safe (s : State) (w : Nat) : SafeStep s (State.closeWheel s w) := by
  unfold State.closeWheel
  extract_lets +onlyGivenNames q1
  extract_lets +onlyGivenNames q2
  extract_lets +onlyGivenNames q3
  with_reducible refine SafeStep.trans ?_ (SafeStep.fields rfl rfl rfl rfl)
  refine SafeStep.trans ?_ (State.modWheel_safe ..)
  refine SafeStep.trans ?_ (SafeStep.modStore (fun _ => rfl) (fun _ => rfl) (fun _ => rfl))
  refine SafeStep.trans ?_ (State.dropWheel_safe ..)
  exact SafeStep.refl _

theorem execCloseWheel_safe (h : MbHdr) (index : Nat) (s : State) : ∀ v : State, execCloseWheel h index s = .next v → SafeStep s v := by
  unfold execCloseWheel
  refine SafeStep.nx ?_
  refine SafeStep.trans ?_ (State.mbRun_safe _ _ _ _ ?_)
  exact SafeStep.refl _
  split
  exact SafeStep.okErr
  refine SafeStep.okOk ?_
  dsimp only
  refine SafeStep.trans ?_ (State.closeWheel_safe ..)
  exact SafeStep.refl _

theorem execImportSchedule_safe (h : MbHdr) (p : Part) (index : Nat) (s : State) : ∀ v : State, execImportSchedule h p index s = .next v → SafeStep s v := by
  unfold execImportSchedule
  refine SafeStep.nx ?_
  refine SafeStep.trans ?_ (State.mbParts_safe _ _ _ _ _ ?_)
  exact SafeStep.refl _
  intro _ _ 
  split
  exact SafeStep.okErr
  extract_lets +onlyGivenNames q1
  split
  exact SafeStep.okErr
  extract_lets +onlyGivenNames q2
  refine SafeStep.okIte ?_ ?_
  exact SafeStep.okErr
  extract_lets +onlyGivenNames q3
  refine SafeStep.okOk ?_
  dsimp only
  refine SafeStep.trans ?_ (State.modWheel_safe ..)
  exact SafeStep.refl _

theorem execExportSchedule_safe (h : MbHdr) (o : OutReq) (index : Nat) (s : State) : ∀ v : State, execExportSchedule h o index s = .next v → SafeStep s v := by
  unfold execExportSchedule
  refine SafeStep.nx ?_
  refine SafeStep.trans ?_ (State.mbSnap_safe ..)
  exact SafeStep.refl _

theorem State.saveSchedule_safe (s : State) (w : Nat) : SafeStep s (State.saveSchedule s w) := by
  unfold State.saveSchedule
  extract_lets +onlyGivenNames q1
  extract_lets +onlyGivenNames q2
  extract_lets +onlyGivenNames q3
  extract_lets +onlyGivenNames q4
  with_reducible refine SafeStep.trans ?_ (SafeStep.fields rfl rfl rfl rfl)
  refine SafeStep.trans ?_ (State.chargeStore_safe ..)
  exact SafeStep.refl _

theorem execSaveSchedule_safe (h : MbHdr) (index : Nat) (s : State) : ∀ v : State, execSaveSchedule h index s = .next v → SafeStep s v := by
  unfold execSaveSchedule
  refine SafeStep.nx ?_
  refine SafeStep.trans ?_ (State.mbBg_safe _ _ _ _ _ ?_)
  exact SafeStep.refl _
  split
  exact SafeStep.exErr
  refine SafeStep.exIte ?_ ?_
  refine SafeStep.exOk ?_
  exact SafeStep.refl _
  exact SafeStep.exErr

theorem execDeleteSavedSchedule_safe (h : MbHdr) (sig : Nat) (s : State) : ∀ v : State, execDeleteSavedSchedule h sig s = .next v → SafeStep s v := by
  unfold execDeleteSavedSchedule
  refine SafeStep.nx ?_
  refine SafeStep.trans ?_ (State.mbRun_safe _ _ _ _ ?_)
  exact SafeStep.refl _
  refine SafeStep.okIte ?_ ?_
  refine SafeStep.okOk ?_
  dsimp only
  with_reducible refine SafeStep.trans ?_ (SafeStep.fields rfl rfl rfl rfl)
  exact SafeStep.refl _
  exact SafeStep.okErr

theorem execGetWheelStatus_safe (h : MbHdr) (index : Nat) (s : State) : ∀ v : State, execGetWheelStatus h index s = .next v → SafeStep s v := by
  unfold execGetWheelStatus
  refine SafeStep.nx ?_
  refine SafeStep.trans ?_ (State.mbRun_safe _ _ _ _ ?_)
  exact SafeStep.refl _
  refine SafeStep.okIte ?_ ?_
  exact SafeStep.okErr
  extract_lets +onlyGivenNames q1
  extract_lets +onlyGivenNames q2
  extract_lets +onlyGivenNames q3
  extract_lets +onlyGivenNames q4
  refine SafeStep.okOk ?_
  exact SafeStep.refl _

theorem execSetWheelTimers_safe (h : MbHdr) (index idle rest : Nat) (s : State) : ∀ v : State, execSetWheelTimers h index idle rest s = .next v → SafeStep s v := by
  unfold execSetWheelTimers
  refine SafeStep.nx ?_
  refine SafeStep.trans ?_ (State.mbRun_safe _ _ _ _ ?_)
  exact SafeStep.refl _
  split
  exact SafeStep.okErr
  refine SafeStep.okIte ?_ ?_
  refine SafeStep.okOk ?_
  dsimp only
  refine SafeStep.trans ?_ (State.modWheel_safe ..)
  exact SafeStep.refl _
  exact SafeStep.okErr

theorem execRephaseWheel_safe (h : MbHdr) (index : Nat) (s : State) : ∀ v : State, execRephaseWheel h index s = .next v → SafeStep s v := by
  unfold execRephaseWheel
  refine SafeStep.nx ?_
  refine SafeStep.trans ?_ (State.mbRun_safe _ _ _ _ ?_)
  exact SafeStep.refl _
  split
  exact SafeStep.okErr
  refine SafeStep.okIte ?_ ?_
  refine SafeStep.okOk ?_
  dsimp only
  refine SafeStep.trans ?_ (State.rephaseAt_safe ..)
  exact SafeStep.refl _
  refine SafeStep.okOk ?_
  exact SafeStep.refl _

theorem State.modSet_safe (s : State) (k : Nat) (f : TableSet → TableSet) : SafeStep s (State.modSet s k f) := by
  unfold State.modSet
  refine SafeStep.trans ?_ (SafeStep.modStore (fun _ => rfl) (fun _ => rfl) (fun _ => rfl))
  exact SafeStep.refl _

theorem State.bolterNext_safe (s : State) : SafeStep s (State.bolterNext s) := by
  unfold State.bolterNext
  split
  refine SafeStep.ite ?_ ?_
  exact SafeStep.refl _
  refine SafeStep.trans ?_ (SafeStep.modStore (fun _ => rfl) (fun _ => rfl) (fun _ => rfl))
  exact SafeStep.refl _
  exact SafeStep.refl _

theorem State.queueBuild_safe (s : State) (k : Nat) (ext : Option Nat) : SafeStep s (State.queueBuild s k ext) := by
  unfold State.queueBuild
  extract_lets +onlyGivenNames q1
  refine SafeStep.trans ?_ (State.bolterNext_safe ..)
  refine SafeStep.trans ?_ (SafeStep.modStore (fun _ => rfl) (fun _ => rfl) (fun _ => rfl))
  refine SafeStep.trans ?_ (State.modSet_safe ..)
  exact SafeStep.refl _

theorem State.newGeneration_safe (s : State) (k : Nat) (cb : List (List Nat)) : SafeStep s (State.newGeneration s k cb) := by
  unfold State.newGeneration
  extract_lets +onlyGivenNames q1
  extract_lets +onlyGivenNames q2
  refine SafeStep.trans ?_ (State.retryWrites_safe ..)
  refine SafeStep.trans ?_ (State.modSet_safe ..)
  refine SafeStep.trans ?_ (State.chargeStore_safe ..)
  exact SafeStep.refl _

theorem execBolterBuildStart_safe (t set : Nat) (s : State) : ∀ v : State, execBolterBuildStart t set s = .next v → SafeStep s v := by
  unfold execBolterBuildStart
  extract_lets +onlyGivenNames q1
  refine SafeStep.nxIte ?_ ?_
  refine SafeStep.nx ?_
  refine SafeStep.trans ?_ (State.at__safe ..)
  exact SafeStep.refl _
  refine SafeStep.nxIte ?_ ?_
  refine SafeStep.nx ?_
  refine SafeStep.trans ?_ (State.queueBuild_safe ..)
  refine SafeStep.trans ?_ (State.at__safe ..)
  exact SafeStep.refl _
  refine SafeStep.nx ?_
  refine SafeStep.trans ?_ (State.bolterNext_safe ..)
  refine SafeStep.trans ?_ (State.at__safe ..)
  exact SafeStep.refl _

theorem execStageIdleTimeout_safe (t set : Nat) (s : State) : ∀ v : State, execStageIdleTimeout t set s = .next v → SafeStep s v := by
  unfold execStageIdleTimeout
  extract_lets +onlyGivenNames q1
  extract_lets +onlyGivenNames q2
  refine SafeStep.nxIte ?_ ?_
  refine SafeStep.nx ?_
  refine SafeStep.trans ?_ (State.queueBuild_safe ..)
  refine SafeStep.trans ?_ (State.at__safe ..)
  exact SafeStep.refl _
  refine SafeStep.nx ?_
  refine SafeStep.trans ?_ (State.at__safe ..)
  exact SafeStep.refl _

theorem execBolterBuildComplete_safe (t set : Nat) (s : State) : ∀ v : State, execBolterBuildComplete t set s = .next v → SafeStep s v := by
  unfold execBolterBuildComplete
  extract_lets +onlyGivenNames q1
  split
  refine SafeStep.nxIte ?_ ?_
  extract_lets +onlyGivenNames q2
  extract_lets +onlyGivenNames q3
  extract_lets +onlyGivenNames q4
  refine SafeStep.nx ?_
  refine SafeStep.trans ?_ (State.bolterNext_safe ..)
  refine SafeStep.trans ?_ (State.newGeneration_safe ..)
  refine SafeStep.trans ?_ (SafeStep.modStore (fun _ => rfl) (fun _ => rfl) (fun _ => rfl))
  refine SafeStep.trans ?_ (State.at__safe ..)
  exact SafeStep.refl _
  refine SafeStep.nx ?_
  refine SafeStep.trans ?_ (State.at__safe ..)
  exact SafeStep.refl _
  refine SafeStep.nx ?_
  refine SafeStep.trans ?_ (State.at__safe ..)
  exact SafeStep.refl _

theorem State.recodeBlk_safe (s : State) (e : Extent) (blk : Nat) : SafeStep s (State.recodeBlk s e blk) := by
  unfold State.recodeBlk
  split
  · exact State.passBlk_safe ..
  · split
    · exact SafeStep.refl _
    · next d _ =>
      extract_lets s1
      have hw : SafeStep s s1 := by
        refine SafeStep.trans ?_ (State.writeTouch_safe ..)
        exact SafeStep.modStore (fun _ => rfl) (fun _ => rfl) (fun _ => rfl)
      clear_value s1
      split
      · next v h =>
        refine SafeStep.trans ?_ (State.afterEncode_safe ..)
        exact SafeStep.trans hw (State.encodeEnt_safe _ _ _ v h)
      · exact hw

theorem State.returnStage_safe (s : State) (k : Nat) : SafeStep s (State.returnStage s k) := by
  unfold State.returnStage
  refine SafeStep.foldl ?_ (fun s x => ?_)
  exact SafeStep.refl _
  refine SafeStep.trans ?_ (State.returnStageOf_safe ..)
  exact SafeStep.refl _

theorem State.recodeAll_safe (s : State) (k : Nat) : SafeStep s (State.recodeAll s k) := by
  unfold State.recodeAll
  refine SafeStep.trans ?_ (State.returnStage_safe ..)
  refine SafeStep.foldl ?_ (fun s x => ?_)
  exact SafeStep.refl _
  refine SafeStep.trans ?_ (State.recodeBlk_safe ..)
  exact SafeStep.refl _

theorem execRecodeSweep_safe (t set : Nat) (s : State) : ∀ v : State, execRecodeSweep t set s = .next v → SafeStep s v := by
  unfold execRecodeSweep
  extract_lets +onlyGivenNames q1
  refine SafeStep.nxIte ?_ ?_
  refine SafeStep.nx ?_
  refine SafeStep.trans ?_ (State.recodeAll_safe ..)
  refine SafeStep.trans ?_ (SafeStep.modStore (fun _ => rfl) (fun _ => rfl) (fun _ => rfl))
  refine SafeStep.trans ?_ (State.at__safe ..)
  exact SafeStep.refl _
  refine SafeStep.nx ?_
  refine SafeStep.trans ?_ (State.at__safe ..)
  exact SafeStep.refl _

theorem execRecodeGapTimeout_safe (t set : Nat) (s : State) : ∀ v : State, execRecodeGapTimeout t set s = .next v → SafeStep s v := by
  unfold execRecodeGapTimeout
  extract_lets +onlyGivenNames q1
  extract_lets +onlyGivenNames q2
  refine SafeStep.nxIte ?_ ?_
  refine SafeStep.nx ?_
  refine SafeStep.trans ?_ (State.recodeAll_safe ..)
  refine SafeStep.trans ?_ (State.at__safe ..)
  exact SafeStep.refl _
  refine SafeStep.nx ?_
  refine SafeStep.trans ?_ (State.at__safe ..)
  exact SafeStep.refl _

theorem execGenerationRelease_safe (t set : Nat) (s : State) : ∀ v : State, execGenerationRelease t set s = .next v → SafeStep s v := by
  unfold execGenerationRelease
  extract_lets +onlyGivenNames q1
  refine SafeStep.nxIte ?_ ?_
  refine SafeStep.nx ?_
  refine SafeStep.trans ?_ (State.returnStage_safe ..)
  refine SafeStep.trans ?_ (State.modSet_safe ..)
  refine SafeStep.trans ?_ (State.at__safe ..)
  exact SafeStep.refl _
  refine SafeStep.nx ?_
  refine SafeStep.trans ?_ (State.at__safe ..)
  exact SafeStep.refl _

theorem execAllocateTableSet_safe (h : MbHdr) (src rate cols : Nat) (s : State) : ∀ v : State, execAllocateTableSet h src rate cols s = .next v → SafeStep s v := by
  unfold execAllocateTableSet
  refine SafeStep.nx ?_
  refine SafeStep.trans ?_ (State.mbRun_safe _ _ _ _ ?_)
  exact SafeStep.refl _
  refine SafeStep.okIte ?_ ?_
  exact SafeStep.okErr
  split
  exact SafeStep.okErr
  refine SafeStep.okOk ?_
  dsimp only
  refine SafeStep.trans ?_ (State.modSet_safe ..)
  exact SafeStep.refl _

theorem execFreeTableSet_safe (h : MbHdr) (set : Nat) (s : State) : ∀ v : State, execFreeTableSet h set s = .next v → SafeStep s v := by
  unfold execFreeTableSet
  refine SafeStep.nx ?_
  refine SafeStep.trans ?_ (State.mbRun_safe _ _ _ _ ?_)
  exact SafeStep.refl _
  refine SafeStep.okIte ?_ ?_
  exact SafeStep.okErr
  refine SafeStep.okIte ?_ ?_
  exact SafeStep.okErr
  refine SafeStep.okOk ?_
  dsimp only
  refine SafeStep.trans ?_ (State.modSet_safe ..)
  exact SafeStep.refl _

theorem execGetTableSetStatus_safe (h : MbHdr) (set : Nat) (s : State) : ∀ v : State, execGetTableSetStatus h set s = .next v → SafeStep s v := by
  unfold execGetTableSetStatus
  refine SafeStep.nx ?_
  refine SafeStep.trans ?_ (State.mbRun_safe _ _ _ _ ?_)
  exact SafeStep.refl _
  refine SafeStep.okIte ?_ ?_
  exact SafeStep.okErr
  extract_lets +onlyGivenNames q1
  refine SafeStep.okOk ?_
  exact SafeStep.refl _

theorem execRebuildTableSet_safe (h : MbHdr) (set base : Nat) (s : State) : ∀ v : State, execRebuildTableSet h set base s = .next v → SafeStep s v := by
  unfold execRebuildTableSet
  refine SafeStep.nx ?_
  refine SafeStep.trans ?_ (State.mbBg_safe _ _ _ _ _ ?_)
  exact SafeStep.refl _
  refine SafeStep.exIte ?_ ?_
  exact SafeStep.exErr
  refine SafeStep.exIte ?_ ?_
  exact SafeStep.exErr
  split
  exact SafeStep.exErr
  refine SafeStep.exOk ?_
  refine SafeStep.trans ?_ (State.queueBuild_safe ..)
  exact SafeStep.refl _

theorem execImportCodebook_safe (h : MbHdr) (set : Nat) (image : Bytes) (s : State) : ∀ v : State, execImportCodebook h set image s = .next v → SafeStep s v := by
  unfold execImportCodebook
  refine SafeStep.nx ?_
  refine SafeStep.trans ?_ (State.mbRun_safe _ _ _ _ ?_)
  exact SafeStep.refl _
  extract_lets +onlyGivenNames q1
  refine SafeStep.okIte ?_ ?_
  exact SafeStep.okErr
  refine SafeStep.okIte ?_ ?_
  exact SafeStep.okErr
  split
  exact SafeStep.okErr
  refine SafeStep.okOk ?_
  dsimp only
  refine SafeStep.trans ?_ (State.newGeneration_safe ..)
  exact SafeStep.refl _

theorem execExportCodebook_safe (h : MbHdr) (set : Nat) (s : State) : ∀ v : State, execExportCodebook h set s = .next v → SafeStep s v := by
  unfold execExportCodebook
  refine SafeStep.nx ?_
  refine SafeStep.trans ?_ (State.mbRun_safe _ _ _ _ ?_)
  exact SafeStep.refl _
  extract_lets +onlyGivenNames q1
  refine SafeStep.okIte ?_ ?_
  exact SafeStep.okErr
  refine SafeStep.okOk ?_
  exact SafeStep.refl _

theorem State.setTemp_safe (s : State) (p : Part17) (unit : Nat) (temp : Int) : SafeStep s (State.setTemp s p unit temp) := by
  unfold State.setTemp
  extract_lets +onlyGivenNames q1
  with_reducible refine SafeStep.trans ?_ (SafeStep.fields rfl rfl rfl rfl)
  exact SafeStep.refl _

theorem execRefreshDue_safe (t stack channel rank : Nat) (queued : Bool) (s : State) : ∀ v : State, execRefreshDue t stack channel rank queued s = .next v → SafeStep s v := by
  unfold execRefreshDue
  extract_lets +onlyGivenNames q1
  extract_lets +onlyGivenNames q2
  extract_lets +onlyGivenNames q3
  extract_lets +onlyGivenNames q4
  refine SafeStep.nxIte ?_ ?_
  refine SafeStep.nx ?_
  refine SafeStep.trans ?_ (State.at__safe ..)
  exact SafeStep.refl _
  refine SafeStep.nxIte ?_ ?_
  refine SafeStep.nx ?_
  refine SafeStep.trans ?_ (State.modStack_safe ..)
  refine SafeStep.trans ?_ (State.at__safe ..)
  exact SafeStep.refl _
  refine SafeStep.nxIte ?_ ?_
  refine SafeStep.nx ?_
  refine SafeStep.trans ?_ (State.at__safe ..)
  exact SafeStep.refl _
  extract_lets +onlyGivenNames q5
  extract_lets +onlyGivenNames q6
  refine SafeStep.nx ?_
  refine SafeStep.trans ?_ (State.modStack_safe ..)
  refine SafeStep.trans ?_ (State.modNear_safe ..)
  refine SafeStep.trans ?_ (State.at__safe ..)
  exact SafeStep.refl _

theorem execRefreshWindowHot_safe (t stack : Nat) (temp : Int) (s : State) : ∀ v : State, execRefreshWindowHot t stack temp s = .next v → SafeStep s v := by
  unfold execRefreshWindowHot
  extract_lets +onlyGivenNames q1
  refine SafeStep.nxIte ?_ ?_
  extract_lets +onlyGivenNames q2
  refine SafeStep.nx ?_
  refine SafeStep.trans ?_ (State.noteVitals_safe ..)
  refine SafeStep.trans ?_ (State.modStack_safe ..)
  refine SafeStep.trans ?_ (State.setTemp_safe ..)
  refine SafeStep.trans ?_ (State.at__safe ..)
  exact SafeStep.refl _
  refine SafeStep.nx ?_
  refine SafeStep.trans ?_ (State.at__safe ..)
  exact SafeStep.refl _

theorem execSelfRefreshIdle_safe (t stack : Nat) (s : State) : ∀ v : State, execSelfRefreshIdle t stack s = .next v → SafeStep s v := by
  unfold execSelfRefreshIdle
  extract_lets +onlyGivenNames q1
  extract_lets +onlyGivenNames q2
  refine SafeStep.nxIte ?_ ?_
  refine SafeStep.nx ?_
  refine SafeStep.trans ?_ (State.modStack_safe ..)
  refine SafeStep.trans ?_ (State.at__safe ..)
  exact SafeStep.refl _
  refine SafeStep.nx ?_
  refine SafeStep.trans ?_ (State.at__safe ..)
  exact SafeStep.refl _

theorem execSetSelfRefreshIdle_safe (h : MbHdr) (idle : Nat) (s : State) : ∀ v : State, execSetSelfRefreshIdle h idle s = .next v → SafeStep s v := by
  unfold execSetSelfRefreshIdle
  refine SafeStep.nx ?_
  refine SafeStep.trans ?_ (State.mbRun_safe _ _ _ _ ?_)
  exact SafeStep.refl _
  refine SafeStep.okIte ?_ ?_
  exact SafeStep.okErr
  refine SafeStep.okOk ?_
  dsimp only
  refine SafeStep.trans ?_ (State.modNear_safe ..)
  exact SafeStep.refl _

theorem execSetNeighbourRefresh_safe (h : MbHdr) (e : Nat) (s : State) : ∀ v : State, execSetNeighbourRefresh h e s = .next v → SafeStep s v := by
  unfold execSetNeighbourRefresh
  refine SafeStep.nx ?_
  refine SafeStep.trans ?_ (State.mbRun_safe _ _ _ _ ?_)
  exact SafeStep.refl _
  refine SafeStep.okIte ?_ ?_
  exact SafeStep.okErr
  refine SafeStep.okOk ?_
  dsimp only
  refine SafeStep.trans ?_ (State.modNear_safe ..)
  exact SafeStep.refl _

theorem execFreqChangeStackDone_safe (t stack : Nat) (spotOk : Bool) (s : State) : ∀ v : State, execFreqChangeStackDone t stack spotOk s = .next v → SafeStep s v := by
  unfold execFreqChangeStackDone
  extract_lets +onlyGivenNames q1
  extract_lets +onlyGivenNames q2
  refine SafeStep.nxIte ?_ ?_
  refine SafeStep.nx ?_
  refine SafeStep.trans ?_ (State.at__safe ..)
  exact SafeStep.refl _
  extract_lets +onlyGivenNames q3
  refine SafeStep.nxIte ?_ ?_
  extract_lets +onlyGivenNames q4
  refine SafeStep.nx ?_
  refine SafeStep.trans ?_ (State.retryReads_safe ..)
  refine SafeStep.trans ?_ (State.caps_safe ..)
  refine SafeStep.trans ?_ (State.pumpNear_safe ..)
  refine SafeStep.trans ?_ (State.modStack_safe ..)
  refine SafeStep.trans ?_ (State.modNear_safe ..)
  refine SafeStep.trans ?_ (State.at__safe ..)
  exact SafeStep.refl _
  refine SafeStep.nxIte ?_ ?_
  refine SafeStep.nx ?_
  refine SafeStep.trans ?_ (State.noteVitals_safe ..)
  refine SafeStep.trans ?_ (State.caps_safe ..)
  refine SafeStep.trans ?_ (State.stackFails_safe ..)
  refine SafeStep.trans ?_ (State.at__safe ..)
  exact SafeStep.refl _
  extract_lets +onlyGivenNames q5
  refine SafeStep.nx ?_
  refine SafeStep.trans ?_ (State.caps_safe ..)
  refine SafeStep.trans ?_ (State.modStack_safe ..)
  refine SafeStep.trans ?_ (State.at__safe ..)
  exact SafeStep.refl _

theorem State.changeAlone_safe (s : State) (stack : Nat) : SafeStep s (State.changeAlone s stack) := by
  unfold State.changeAlone
  extract_lets +onlyGivenNames q1
  split
  refine SafeStep.ite ?_ ?_
  exact SafeStep.refl _
  refine SafeStep.trans ?_ (State.turnStack_safe ..)
  exact SafeStep.refl _
  exact SafeStep.refl _

theorem execRetrainDue_safe (t stack point : Nat) (temp : Int) (s : State) : ∀ v : State, execRetrainDue t stack point temp s = .next v → SafeStep s v := by
  unfold execRetrainDue
  extract_lets +onlyGivenNames q1
  extract_lets +onlyGivenNames q2
  refine SafeStep.nxIte ?_ ?_
  refine SafeStep.nx ?_
  refine SafeStep.trans ?_ (State.at__safe ..)
  exact SafeStep.refl _
  extract_lets +onlyGivenNames q3
  extract_lets +onlyGivenNames q4
  extract_lets +onlyGivenNames q5
  refine SafeStep.nxIte ?_ ?_
  refine SafeStep.nx ?_
  refine SafeStep.trans ?_ (State.modStack_safe ..)
  refine SafeStep.trans ?_ (State.noteVitals_safe ..)
  refine SafeStep.trans ?_ (State.setTemp_safe ..)
  refine SafeStep.trans ?_ (State.at__safe ..)
  exact SafeStep.refl _
  refine SafeStep.nx ?_
  refine SafeStep.trans ?_ (State.noteVitals_safe ..)
  refine SafeStep.trans ?_ (State.setTemp_safe ..)
  refine SafeStep.trans ?_ (State.at__safe ..)
  exact SafeStep.refl _

theorem State.beginSlot_safe (s : State) (stack channel : Nat) : SafeStep s (State.beginSlot s stack channel) := by
  unfold State.beginSlot
  refine SafeStep.trans ?_ (State.modStack_safe ..)
  refine SafeStep.trans ?_ (State.wakeStack_safe ..)
  exact SafeStep.refl _

theorem execRetrainSlot_safe (t stack channel : Nat) (ok : Bool) (s : State) : ∀ v : State, execRetrainSlot t stack channel ok s = .next v → SafeStep s v := by
  unfold execRetrainSlot
  extract_lets +onlyGivenNames q1
  extract_lets +onlyGivenNames q2
  split
  refine SafeStep.nx ?_
  refine SafeStep.trans ?_ (State.at__safe ..)
  exact SafeStep.refl _
  refine SafeStep.nxIte ?_ ?_
  refine SafeStep.nx ?_
  refine SafeStep.trans ?_ (State.at__safe ..)
  exact SafeStep.refl _
  refine SafeStep.nxIte ?_ ?_
  extract_lets +onlyGivenNames q3
  extract_lets +onlyGivenNames q4
  refine SafeStep.nxIte ?_ ?_
  refine SafeStep.nx ?_
  refine SafeStep.trans ?_ (State.noteVitals_safe ..)
  refine SafeStep.trans ?_ (State.caps_safe ..)
  refine SafeStep.trans ?_ (State.stackFails_safe ..)
  refine SafeStep.trans ?_ (State.beginSlot_safe ..)
  refine SafeStep.trans ?_ (State.at__safe ..)
  exact SafeStep.refl _
  refine SafeStep.nx ?_
  refine SafeStep.trans ?_ (State.modStack_safe ..)
  refine SafeStep.trans ?_ (State.beginSlot_safe ..)
  refine SafeStep.trans ?_ (State.at__safe ..)
  exact SafeStep.refl _
  extract_lets +onlyGivenNames q5
  extract_lets +onlyGivenNames q6
  refine SafeStep.nxIte ?_ ?_
  extract_lets +onlyGivenNames q7
  extract_lets +onlyGivenNames q8
  refine SafeStep.nx ?_
  refine SafeStep.trans ?_ (State.changeAlone_safe ..)
  refine SafeStep.trans ?_ (SafeStep.fieldsF rfl rfl rfl rfl)
  refine SafeStep.trans ?_ (State.modStack_safe ..)
  refine SafeStep.trans ?_ (State.modStack_safe ..)
  refine SafeStep.trans ?_ (State.beginSlot_safe ..)
  refine SafeStep.trans ?_ (State.at__safe ..)
  exact SafeStep.refl _
  refine SafeStep.nx ?_
  refine SafeStep.trans ?_ (State.modStack_safe ..)
  refine SafeStep.trans ?_ (State.beginSlot_safe ..)
  refine SafeStep.trans ?_ (State.at__safe ..)
  exact SafeStep.refl _

theorem State.modDeep_safe (s : State) (f : DeepSt → DeepSt) : SafeStep s (State.modDeep s f) := by
  unfold State.modDeep
  with_reducible refine SafeStep.trans ?_ (SafeStep.fields rfl rfl rfl rfl)
  exact SafeStep.refl _

theorem State.openSet_safe (s : State) (g b : Nat) : SafeStep s (State.openSet s g b) := by
  unfold State.openSet
  extract_lets +onlyGivenNames q1
  refine SafeStep.trans ?_ (State.modDeep_safe ..)
  exact SafeStep.refl _

theorem State.takePlace_safe (s : State) (g : Nat) (y0 : Nat) : ∀ v : SlotLoc × State, State.takePlace s g y0 = some v → SafeStep s v.2 := by
  induction y0 generalizing s with
  | zero =>
    unfold State.takePlace
    exact SafeStep.optNone
  | succ n ih =>
    unfold State.takePlace
    extract_lets +onlyGivenNames q1
    split
    (unfold q1; split)
    refine SafeStep.optSome ?_
    dsimp only
    refine SafeStep.trans ?_ (State.modDeep_safe ..)
    exact SafeStep.refl _
    refine fun v hv => SafeStep.trans ?_ (ih _ _ hv)
    refine SafeStep.trans ?_ (State.openSet_safe ..)
    exact SafeStep.refl _
    (unfold q1; split)
    refine SafeStep.optSome ?_
    dsimp only
    refine SafeStep.trans ?_ (State.modDeep_safe ..)
    exact SafeStep.refl _
    exact SafeStep.optNone

theorem State.placeSlot_safe (s : State) (slot : Nat) (l : SlotLoc) : SafeStep s (State.placeSlot s slot l) := by
  unfold State.placeSlot
  refine SafeStep.trans ?_ (State.journal_safe ..)
  refine SafeStep.trans ?_ (State.modDeep_safe ..)
  exact SafeStep.refl _

theorem State.moveSlot_safe (s : State) (slot : Nat) : SafeStep s (State.moveSlot s slot) := by
  unfold State.moveSlot
  extract_lets +onlyGivenNames q1
  refine SafeStep.ite ?_ ?_
  split
  refine SafeStep.trans ?_ (State.placeSlot_safe ..)
  refine SafeStep.trans ?_ (State.takePlace_safe _ _ _ _ (by assumption))
  exact SafeStep.refl _
  exact SafeStep.refl _
  exact SafeStep.refl _

theorem State.relocate_safe (s : State) (slots : List Nat) : SafeStep s (State.relocate s slots) := by
  unfold State.relocate
  refine SafeStep.foldl ?_ (fun s x => ?_)
  refine SafeStep.trans ?_ (State.modDeep_safe ..)
  exact SafeStep.refl _
  refine SafeStep.trans ?_ (State.moveSlot_safe ..)
  exact SafeStep.refl _

theorem State.eraseSet_safe (s : State) (g b : Nat) : SafeStep s (State.eraseSet s g b) := by
  unfold State.eraseSet
  extract_lets +onlyGivenNames q1
  refine SafeStep.trans ?_ (State.modDeep_safe ..)
  refine SafeStep.trans ?_ (State.modDeep_safe ..)
  exact SafeStep.refl _

theorem State.moveSet_safe (s : State) (g b : Nat) : SafeStep s (State.moveSet s g b) := by
  unfold State.moveSet
  extract_lets +onlyGivenNames q1
  extract_lets +onlyGivenNames q2
  refine SafeStep.ite ?_ ?_
  refine SafeStep.trans ?_ (State.eraseSet_safe ..)
  refine SafeStep.trans ?_ (State.relocate_safe ..)
  refine SafeStep.trans ?_ (State.modDeep_safe ..)
  exact SafeStep.refl _
  refine SafeStep.trans ?_ (State.relocate_safe ..)
  refine SafeStep.trans ?_ (State.modDeep_safe ..)
  exact SafeStep.refl _

theorem execGarbageCollect_safe (t group : Nat) (s : State) : ∀ v : State, execGarbageCollect t group s = .next v → SafeStep s v := by
  unfold execGarbageCollect
  extract_lets +onlyGivenNames q1
  refine SafeStep.nxIte ?_ ?_
  split
  refine SafeStep.nx ?_
  refine SafeStep.trans ?_ (State.noteVitals_safe ..)
  refine SafeStep.trans ?_ (State.moveSet_safe ..)
  refine SafeStep.trans ?_ (State.at__safe ..)
  exact SafeStep.refl _
  refine SafeStep.nx ?_
  refine SafeStep.trans ?_ (State.at__safe ..)
  exact SafeStep.refl _
  refine SafeStep.nx ?_
  refine SafeStep.trans ?_ (State.at__safe ..)
  exact SafeStep.refl _

theorem execWearLevelMove_safe (t group : Nat) (s : State) : ∀ v : State, execWearLevelMove t group s = .next v → SafeStep s v := by
  unfold execWearLevelMove
  extract_lets +onlyGivenNames q1
  extract_lets +onlyGivenNames q2
  extract_lets +onlyGivenNames q3
  refine SafeStep.nxIte ?_ ?_
  split
  refine SafeStep.nxIte ?_ ?_
  refine SafeStep.nx ?_
  refine SafeStep.trans ?_ (State.noteVitals_safe ..)
  refine SafeStep.trans ?_ (State.moveSet_safe ..)
  refine SafeStep.trans ?_ (State.at__safe ..)
  exact SafeStep.refl _
  refine SafeStep.nx ?_
  refine SafeStep.trans ?_ (State.at__safe ..)
  exact SafeStep.refl _
  refine SafeStep.nx ?_
  refine SafeStep.trans ?_ (State.at__safe ..)
  exact SafeStep.refl _
  refine SafeStep.nx ?_
  refine SafeStep.trans ?_ (State.at__safe ..)
  exact SafeStep.refl _

theorem State.slotLost_safe (s : State) (slot : Nat) : SafeStep s (State.slotLost s slot) := by
  unfold State.slotLost
  split
  exact SafeStep.refl _
  split
  exact SafeStep.refl _
  extract_lets +onlyGivenNames q1
  split
  refine SafeStep.trans ?_ (State.haltXfer_safe ..)
  exact SafeStep.refl _
  refine SafeStep.trans ?_ (State.retryReads_safe ..)
  refine SafeStep.foldl ?_ (fun s x => ?_)
  exact SafeStep.refl _
  refine SafeStep.trans ?_ (State.haltBlock_safe ..)
  exact SafeStep.refl _

theorem State.chargePage_safe (s : State) (sack n : Nat) : SafeStep s (State.chargePage s sack n) := by
  unfold State.chargePage
  split
  exact SafeStep.refl _
  extract_lets +onlyGivenNames q1
  extract_lets +onlyGivenNames q2
  extract_lets +onlyGivenNames q3
  refine SafeStep.foldl ?_ (fun s x => ?_)
  refine SafeStep.trans ?_ (State.putXfer_safe ..)
  refine SafeStep.trans ?_ (State.serve_safe ..)
  refine SafeStep.trans ?_ (State.serveAs_safe ..)
  exact SafeStep.refl _
  refine SafeStep.trans ?_ (State.modWheel_safe ..)
  exact SafeStep.refl _

theorem State.pageArrived_safe (s : State) (sack slot : Nat) : SafeStep s (State.pageArrived s sack slot) := by
  unfold State.pageArrived
  extract_lets +onlyGivenNames q1
  refine SafeStep.ite ?_ ?_
  exact SafeStep.refl _
  extract_lets +onlyGivenNames q2
  extract_lets +onlyGivenNames q3
  extract_lets +onlyGivenNames q4
  extract_lets +onlyGivenNames q5
  refine SafeStep.trans ?_ (State.retryHeld_safe ..)
  refine SafeStep.trans ?_ (State.modSack_safe ..)
  refine SafeStep.trans ?_ (State.chargePage_safe ..)
  exact SafeStep.refl _

theorem State.markRetry_safe (s : State) (sack : Nat) : SafeStep s (State.markRetry s sack) := by
  unfold State.markRetry
  refine SafeStep.trans ?_ (SafeStep.modStore (fun _ => rfl) (fun _ => rfl) (fun _ => rfl))
  exact SafeStep.refl _

theorem State.pageRead_safe (s : State) (slot : Nat) (retried : Bool) : SafeStep s (State.pageRead s slot retried) := by
  unfold State.pageRead
  split
  exact SafeStep.refl _
  refine SafeStep.trans ?_ (State.pageArrived_safe ..)
  refine SafeStep.ite ?_ ?_
  refine SafeStep.trans ?_ (State.markRetry_safe ..)
  exact SafeStep.refl _
  exact SafeStep.refl _

theorem execDeepPageRead_safe (t slot : Nat) (outcome : PageOutcome) (s : State) : ∀ v : State, execDeepPageRead t slot outcome s = .next v → SafeStep s v := by
  unfold execDeepPageRead
  extract_lets +onlyGivenNames q1
  extract_lets +onlyGivenNames q2
  refine SafeStep.nxIte ?_ ?_
  refine SafeStep.nx ?_
  refine SafeStep.trans ?_ (State.at__safe ..)
  exact SafeStep.refl _
  extract_lets +onlyGivenNames q3
  extract_lets +onlyGivenNames q4
  split
  refine SafeStep.nx ?_
  refine SafeStep.trans ?_ (State.pageRead_safe ..)
  refine SafeStep.ite ?_ ?_
  refine SafeStep.trans ?_ (State.modDeep_safe ..)
  refine SafeStep.trans ?_ (State.modDeep_safe ..)
  refine SafeStep.trans ?_ (State.mapPage_safe ..)
  refine SafeStep.trans ?_ (State.at__safe ..)
  exact SafeStep.refl _
  refine SafeStep.trans ?_ (State.modDeep_safe ..)
  refine SafeStep.trans ?_ (State.mapPage_safe ..)
  refine SafeStep.trans ?_ (State.at__safe ..)
  exact SafeStep.refl _
  refine SafeStep.nx ?_
  refine SafeStep.trans ?_ (State.pageRead_safe ..)
  refine SafeStep.ite ?_ ?_
  refine SafeStep.trans ?_ (State.modDeep_safe ..)
  refine SafeStep.trans ?_ (State.modDeep_safe ..)
  refine SafeStep.trans ?_ (State.mapPage_safe ..)
  refine SafeStep.trans ?_ (State.at__safe ..)
  exact SafeStep.refl _
  refine SafeStep.trans ?_ (State.modDeep_safe ..)
  refine SafeStep.trans ?_ (State.modDeep_safe ..)
  refine SafeStep.trans ?_ (State.mapPage_safe ..)
  refine SafeStep.trans ?_ (State.at__safe ..)
  exact SafeStep.refl _
  refine SafeStep.nx ?_
  refine SafeStep.trans ?_ (State.pageRead_safe ..)
  refine SafeStep.trans ?_ (State.modDeep_safe ..)
  refine SafeStep.trans ?_ (State.modDeep_safe ..)
  refine SafeStep.trans ?_ (State.mapPage_safe ..)
  refine SafeStep.trans ?_ (State.at__safe ..)
  exact SafeStep.refl _
  refine SafeStep.nx ?_
  refine SafeStep.trans ?_ (State.slotLost_safe ..)
  refine SafeStep.trans ?_ (State.modDeep_safe ..)
  refine SafeStep.trans ?_ (State.modDeep_safe ..)
  refine SafeStep.trans ?_ (State.mapPage_safe ..)
  refine SafeStep.trans ?_ (State.at__safe ..)
  exact SafeStep.refl _

theorem execSlotProgramDone_safe (t slot group : Nat) (s : State) : ∀ v : State, execSlotProgramDone t slot group s = .next v → SafeStep s v := by
  unfold execSlotProgramDone
  extract_lets +onlyGivenNames q1
  refine SafeStep.nxIte ?_ ?_
  split
  refine SafeStep.nx ?_
  refine SafeStep.trans ?_ (State.modDeep_safe ..)
  refine SafeStep.trans ?_ (State.placeSlot_safe ..)
  refine SafeStep.trans ?_ (State.takePlace_safe _ _ _ _ (by assumption))
  refine SafeStep.trans ?_ (State.at__safe ..)
  exact SafeStep.refl _
  refine SafeStep.nx ?_
  refine SafeStep.trans ?_ (State.at__safe ..)
  exact SafeStep.refl _
  refine SafeStep.nx ?_
  refine SafeStep.trans ?_ (State.at__safe ..)
  exact SafeStep.refl _

theorem execReadRefresh_safe (t die block : Nat) (margin : Bool) (s : State) : ∀ v : State, execReadRefresh t die block margin s = .next v → SafeStep s v := by
  unfold execReadRefresh
  extract_lets +onlyGivenNames q1
  extract_lets +onlyGivenNames q2
  refine SafeStep.nxIte ?_ ?_
  refine SafeStep.nx ?_
  refine SafeStep.trans ?_ (State.relocate_safe ..)
  refine SafeStep.trans ?_ (State.at__safe ..)
  exact SafeStep.refl _
  refine SafeStep.nx ?_
  refine SafeStep.trans ?_ (State.at__safe ..)
  exact SafeStep.refl _

theorem execPatrolRead_safe (t die block : Nat) (s : State) : ∀ v : State, execPatrolRead t die block s = .next v → SafeStep s v := by
  unfold execPatrolRead
  extract_lets +onlyGivenNames q1
  refine SafeStep.nxIte ?_ ?_
  extract_lets +onlyGivenNames q2
  refine SafeStep.nx ?_
  refine SafeStep.trans ?_ (State.modDeep_safe ..)
  refine SafeStep.trans ?_ (State.at__safe ..)
  exact SafeStep.refl _
  refine SafeStep.nx ?_
  refine SafeStep.trans ?_ (State.at__safe ..)
  exact SafeStep.refl _

theorem State.noteSpare_safe (s : State) : SafeStep s (State.noteSpare s) := by
  unfold State.noteSpare
  extract_lets +onlyGivenNames q1
  extract_lets +onlyGivenNames q2
  extract_lets +onlyGivenNames q3
  extract_lets +onlyGivenNames q4
  refine SafeStep.ite ?_ ?_
  refine SafeStep.trans ?_ (State.modeChanged_safe ..)
  refine SafeStep.trans ?_ (State.post_safe ..)
  refine SafeStep.trans ?_ (State.modDeep_safe ..)
  exact SafeStep.refl _
  refine SafeStep.trans ?_ (State.modDeep_safe ..)
  exact SafeStep.refl _

theorem State.dieFails_safe (s : State) (die : Nat) : SafeStep s (State.dieFails s die) := by
  unfold State.dieFails
  refine SafeStep.ite ?_ ?_
  exact SafeStep.refl _
  extract_lets +onlyGivenNames q1
  extract_lets +onlyGivenNames q2
  extract_lets +onlyGivenNames q3
  extract_lets +onlyGivenNames q4
  extract_lets +onlyGivenNames q5
  refine SafeStep.trans ?_ (State.caps_safe ..)
  refine SafeStep.trans ?_ (State.journal_safe ..)
  refine SafeStep.trans ?_ (State.noteSpare_safe ..)
  refine SafeStep.trans ?_ (State.unitFailed_safe ..)
  refine SafeStep.foldl ?_ (fun s x => ?_)
  refine SafeStep.trans ?_ (State.modDeep_safe ..)
  exact SafeStep.refl _
  refine SafeStep.trans ?_ (State.slotLost_safe ..)
  exact SafeStep.refl _

theorem execFlashBlockFailure_safe (t die block : Nat) (s : State) : ∀ v : State, execFlashBlockFailure t die block s = .next v → SafeStep s v := by
  unfold execFlashBlockFailure
  extract_lets +onlyGivenNames q1
  refine SafeStep.nxIte ?_ ?_
  refine SafeStep.nx ?_
  refine SafeStep.trans ?_ (State.at__safe ..)
  exact SafeStep.refl _
  extract_lets +onlyGivenNames q2
  extract_lets +onlyGivenNames q3
  extract_lets +onlyGivenNames q4
  extract_lets +onlyGivenNames q5
  refine SafeStep.nx ?_
  refine SafeStep.trans ?_ (State.noteVitals_safe ..)
  refine SafeStep.ite ?_ ?_
  refine SafeStep.trans ?_ (State.dieFails_safe ..)
  refine SafeStep.foldl ?_ (fun s x => ?_)
  refine SafeStep.trans ?_ (State.modDeep_safe ..)
  refine SafeStep.trans ?_ (State.at__safe ..)
  exact SafeStep.refl _
  refine SafeStep.trans ?_ (State.moveSlot_safe ..)
  exact SafeStep.refl _
  refine SafeStep.trans ?_ (State.noteSpare_safe ..)
  refine SafeStep.foldl ?_ (fun s x => ?_)
  refine SafeStep.trans ?_ (State.modDeep_safe ..)
  refine SafeStep.trans ?_ (State.at__safe ..)
  exact SafeStep.refl _
  refine SafeStep.trans ?_ (State.moveSlot_safe ..)
  exact SafeStep.refl _

theorem execFlashDieFailure_safe (t die : Nat) (s : State) : ∀ v : State, execFlashDieFailure t die s = .next v → SafeStep s v := by
  unfold execFlashDieFailure
  extract_lets +onlyGivenNames q1
  refine SafeStep.nxIte ?_ ?_
  refine SafeStep.nx ?_
  refine SafeStep.trans ?_ (State.noteVitals_safe ..)
  refine SafeStep.trans ?_ (State.dieFails_safe ..)
  refine SafeStep.trans ?_ (State.at__safe ..)
  exact SafeStep.refl _
  refine SafeStep.nx ?_
  refine SafeStep.trans ?_ (State.at__safe ..)
  exact SafeStep.refl _

theorem execDieRebuildComplete_safe (t die : Nat) (s : State) : ∀ v : State, execDieRebuildComplete t die s = .next v → SafeStep s v := by
  unfold execDieRebuildComplete
  extract_lets +onlyGivenNames q1
  split
  refine SafeStep.nxIte ?_ ?_
  extract_lets +onlyGivenNames q2
  refine SafeStep.nx ?_
  refine SafeStep.trans ?_ (State.caps_safe ..)
  refine SafeStep.trans ?_ (State.journal_safe ..)
  refine SafeStep.trans ?_ (State.modDeep_safe ..)
  refine SafeStep.foldl ?_ (fun s x => ?_)
  refine SafeStep.trans ?_ (State.at__safe ..)
  exact SafeStep.refl _
  refine SafeStep.trans ?_ (State.moveSlot_safe ..)
  exact SafeStep.refl _
  refine SafeStep.nx ?_
  refine SafeStep.trans ?_ (State.at__safe ..)
  exact SafeStep.refl _
  refine SafeStep.nx ?_
  refine SafeStep.trans ?_ (State.at__safe ..)
  exact SafeStep.refl _

theorem execJournalPageProgrammed_safe (t : Nat) (s : State) : ∀ v : State, execJournalPageProgrammed t s = .next v → SafeStep s v := by
  unfold execJournalPageProgrammed
  extract_lets +onlyGivenNames q1
  refine SafeStep.nxIte ?_ ?_
  refine SafeStep.nx ?_
  refine SafeStep.trans ?_ (State.modDeep_safe ..)
  refine SafeStep.trans ?_ (State.at__safe ..)
  exact SafeStep.refl _
  refine SafeStep.nx ?_
  refine SafeStep.trans ?_ (State.at__safe ..)
  exact SafeStep.refl _

theorem execCheckpointImageDone_safe (t : Nat) (s : State) : ∀ v : State, execCheckpointImageDone t s = .next v → SafeStep s v := by
  unfold execCheckpointImageDone
  extract_lets +onlyGivenNames q1
  refine SafeStep.nxIte ?_ ?_
  refine SafeStep.nx ?_
  refine SafeStep.trans ?_ (State.journal_safe ..)
  refine SafeStep.trans ?_ (State.modDeep_safe ..)
  refine SafeStep.trans ?_ (State.at__safe ..)
  exact SafeStep.refl _
  refine SafeStep.nx ?_
  refine SafeStep.trans ?_ (State.at__safe ..)
  exact SafeStep.refl _

theorem State.setBank_safe (s : State) (b : Bank) : SafeStep s (State.setBank s b) := by
  unfold State.setBank
  refine SafeStep.ite ?_ ?_
  exact SafeStep.refl _
  extract_lets +onlyGivenNames q1
  refine SafeStep.trans ?_ (State.post_safe ..)
  refine SafeStep.trans ?_ (State.modDeep_safe ..)
  exact SafeStep.refl _

theorem State.startTest_safe (s : State) : SafeStep s (State.startTest s) := by
  unfold State.startTest
  refine SafeStep.trans ?_ (State.setBank_safe ..)
  refine SafeStep.trans ?_ (State.modDeep_safe ..)
  exact SafeStep.refl _

theorem execHoldupTestDue_safe (t : Nat) (s : State) : ∀ v : State, execHoldupTestDue t s = .next v → SafeStep s v := by
  unfold execHoldupTestDue
  extract_lets +onlyGivenNames q1
  extract_lets +onlyGivenNames q2
  refine SafeStep.nxIte ?_ ?_
  refine SafeStep.nx ?_
  refine SafeStep.trans ?_ (State.noteVitals_safe ..)
  refine SafeStep.trans ?_ (State.startTest_safe ..)
  refine SafeStep.trans ?_ (State.at__safe ..)
  exact SafeStep.refl _
  refine SafeStep.nx ?_
  refine SafeStep.trans ?_ (State.at__safe ..)
  exact SafeStep.refl _

theorem execHoldupTestComplete_safe (t energy : Nat) (s : State) : ∀ v : State, execHoldupTestComplete t energy s = .next v → SafeStep s v := by
  unfold execHoldupTestComplete
  extract_lets +onlyGivenNames q1
  refine SafeStep.nxIte ?_ ?_
  extract_lets +onlyGivenNames q2
  extract_lets +onlyGivenNames q3
  refine SafeStep.nx ?_
  refine SafeStep.trans ?_ (State.noteVitals_safe ..)
  refine SafeStep.trans ?_ (State.modeChanged_safe ..)
  refine SafeStep.trans ?_ (State.setBank_safe ..)
  refine SafeStep.trans ?_ (State.modDeep_safe ..)
  refine SafeStep.trans ?_ (State.at__safe ..)
  exact SafeStep.refl _
  refine SafeStep.nx ?_
  refine SafeStep.trans ?_ (State.at__safe ..)
  exact SafeStep.refl _

theorem execHoldupBankFailed_safe (t : Nat) (s : State) : ∀ v : State, execHoldupBankFailed t s = .next v → SafeStep s v := by
  unfold execHoldupBankFailed
  extract_lets +onlyGivenNames q1
  refine SafeStep.nxIte ?_ ?_
  refine SafeStep.nx ?_
  refine SafeStep.trans ?_ (State.noteVitals_safe ..)
  refine SafeStep.trans ?_ (State.modeChanged_safe ..)
  refine SafeStep.trans ?_ (State.setBank_safe ..)
  refine SafeStep.trans ?_ (State.at__safe ..)
  exact SafeStep.refl _
  refine SafeStep.nx ?_
  refine SafeStep.trans ?_ (State.at__safe ..)
  exact SafeStep.refl _

theorem execTestHoldupBank_safe (h : MbHdr) (s : State) : ∀ v : State, execTestHoldupBank h s = .next v → SafeStep s v := by
  unfold execTestHoldupBank
  refine SafeStep.nx ?_
  refine SafeStep.trans ?_ (State.mbBg_safe _ _ _ _ _ ?_)
  exact SafeStep.refl _
  refine SafeStep.exIte ?_ ?_
  exact SafeStep.exErr
  refine SafeStep.exOk ?_
  refine SafeStep.trans ?_ (State.noteVitals_safe ..)
  refine SafeStep.trans ?_ (State.startTest_safe ..)
  exact SafeStep.refl _

theorem execSetHoldupTestPeriod_safe (h : MbHdr) (period : Nat) (s : State) : ∀ v : State, execSetHoldupTestPeriod h period s = .next v → SafeStep s v := by
  unfold execSetHoldupTestPeriod
  refine SafeStep.nx ?_
  refine SafeStep.trans ?_ (State.mbRun_safe _ _ _ _ ?_)
  exact SafeStep.refl _
  refine SafeStep.okIte ?_ ?_
  exact SafeStep.okErr
  refine SafeStep.okOk ?_
  dsimp only
  refine SafeStep.trans ?_ (State.modDeep_safe ..)
  exact SafeStep.refl _

theorem execBurstCreditRefill_safe (t : Nat) (s : State) : ∀ v : State, execBurstCreditRefill t s = .next v → SafeStep s v := by
  unfold execBurstCreditRefill
  extract_lets +onlyGivenNames q1
  refine SafeStep.nxIte ?_ ?_
  extract_lets +onlyGivenNames q2
  refine SafeStep.nx ?_
  refine SafeStep.ite ?_ ?_
  refine SafeStep.trans ?_ (State.refill_safe ..)
  refine SafeStep.trans ?_ (State.at__safe ..)
  exact SafeStep.refl _
  refine SafeStep.trans ?_ (SafeStep.modStore (fun _ => rfl) (fun _ => rfl) (fun _ => rfl))
  refine SafeStep.trans ?_ (State.refill_safe ..)
  refine SafeStep.trans ?_ (State.at__safe ..)
  exact SafeStep.refl _
  refine SafeStep.nx ?_
  refine SafeStep.trans ?_ (State.at__safe ..)
  exact SafeStep.refl _

theorem execSetEnduranceBudget_safe (h : MbHdr) (b : Nat) (s : State) : ∀ v : State, execSetEnduranceBudget h b s = .next v → SafeStep s v := by
  unfold execSetEnduranceBudget
  refine SafeStep.nx ?_
  refine SafeStep.trans ?_ (State.mbRun_safe _ _ _ _ ?_)
  exact SafeStep.refl _
  refine SafeStep.okIte ?_ ?_
  exact SafeStep.okErr
  refine SafeStep.okOk ?_
  dsimp only
  refine SafeStep.trans ?_ (State.noteVitals_safe ..)
  refine SafeStep.trans ?_ (State.recap_safe ..)
  refine SafeStep.trans ?_ (State.journal_safe ..)
  refine SafeStep.trans ?_ (State.modDeep_safe ..)
  refine SafeStep.trans ?_ (State.refill_safe ..)
  exact SafeStep.refl _

theorem State.flush_safe (s : State) : SafeStep s (State.flush s) := by
  unfold State.flush
  extract_lets +onlyGivenNames q1
  extract_lets +onlyGivenNames q2
  extract_lets +onlyGivenNames q3
  refine SafeStep.trans ?_ (State.modDeep_safe ..)
  exact SafeStep.refl _

theorem execGpfPhase1_safe (t port : Nat) (s : State) : ∀ v : State, execGpfPhase1 t port s = .next v → SafeStep s v := by
  unfold execGpfPhase1
  extract_lets +onlyGivenNames q1
  refine SafeStep.nxIte ?_ ?_
  refine SafeStep.nx ?_
  refine SafeStep.trans ?_ (State.send_safe ..)
  refine SafeStep.trans ?_ (State.at__safe ..)
  exact SafeStep.refl _
  refine SafeStep.nx ?_
  refine SafeStep.trans ?_ (State.at__safe ..)
  exact SafeStep.refl _

theorem execGpfPhase2_safe (t port : Nat) (s : State) : ∀ v : State, execGpfPhase2 t port s = .next v → SafeStep s v := by
  unfold execGpfPhase2
  extract_lets +onlyGivenNames q1
  refine SafeStep.nxIte ?_ ?_
  extract_lets +onlyGivenNames q2
  refine SafeStep.nx ?_
  refine SafeStep.trans ?_ (State.send_safe ..)
  refine SafeStep.ite ?_ ?_
  refine SafeStep.trans ?_ (State.modDeep_safe ..)
  refine SafeStep.trans ?_ (State.at__safe ..)
  exact SafeStep.refl _
  refine SafeStep.trans ?_ (State.flush_safe ..)
  refine SafeStep.trans ?_ (State.at__safe ..)
  exact SafeStep.refl _
  refine SafeStep.nx ?_
  refine SafeStep.trans ?_ (State.at__safe ..)
  exact SafeStep.refl _

theorem execNearScrub_safe (t blk word upset : Nat) (last : Bool) (s : State) : ∀ v : State, execNearScrub t blk word upset last s = .next v → SafeStep s v := by
  unfold execNearScrub
  extract_lets +onlyGivenNames q1
  extract_lets +onlyGivenNames q2
  refine SafeStep.nxIte ?_ ?_
  refine SafeStep.nx ?_
  refine SafeStep.trans ?_ (State.at__safe ..)
  exact SafeStep.refl _
  extract_lets +onlyGivenNames q3
  split
  extract_lets +onlyGivenNames q4
  refine SafeStep.nxIte ?_ ?_
  split
  refine SafeStep.nx ?_
  refine SafeStep.trans ?_ (State.checkWords_safe ..)
  refine SafeStep.snd (by assumption) ?_
  refine SafeStep.trans ?_ (State.free_safe ..)
  refine SafeStep.trans ?_ (State.useLines_safe ..)
  refine SafeStep.ite ?_ ?_
  refine SafeStep.trans ?_ (State.modInteg_safe ..)
  refine SafeStep.trans ?_ (State.at__safe ..)
  exact SafeStep.refl _
  refine SafeStep.trans ?_ (State.at__safe ..)
  exact SafeStep.refl _
  refine SafeStep.nx ?_
  refine SafeStep.ite ?_ ?_
  refine SafeStep.trans ?_ (State.modInteg_safe ..)
  refine SafeStep.trans ?_ (State.at__safe ..)
  exact SafeStep.refl _
  refine SafeStep.trans ?_ (State.at__safe ..)
  exact SafeStep.refl _
  refine SafeStep.nx ?_
  refine SafeStep.ite ?_ ?_
  refine SafeStep.trans ?_ (State.modInteg_safe ..)
  refine SafeStep.trans ?_ (State.at__safe ..)
  exact SafeStep.refl _
  refine SafeStep.trans ?_ (State.at__safe ..)
  exact SafeStep.refl _

theorem execNearScrubBehind_safe (t : Nat) (s : State) : ∀ v : State, execNearScrubBehind t s = .next v → SafeStep s v := by
  unfold execNearScrubBehind
  extract_lets +onlyGivenNames q1
  refine SafeStep.nxIte ?_ ?_
  refine SafeStep.nx ?_
  refine SafeStep.trans ?_ (State.modInteg_safe ..)
  refine SafeStep.trans ?_ (State.at__safe ..)
  exact SafeStep.refl _
  refine SafeStep.nx ?_
  refine SafeStep.trans ?_ (State.at__safe ..)
  exact SafeStep.refl _

theorem State.mergeReplace_safe (s : State) (m : MergeEnt) (d : Bytes) : SafeStep s (State.mergeReplace s m d) := by
  unfold State.mergeReplace
  refine SafeStep.trans ?_ (SafeStep.modStore (fun _ => rfl) (fun _ => rfl) (fun _ => rfl))
  exact SafeStep.refl _

theorem State.mergeEntLost_safe (s : State) (m : MergeEnt) (loc access : Nat) : SafeStep s (State.mergeEntLost s m loc access) := by
  unfold State.mergeEntLost
  extract_lets +onlyGivenNames q1
  split
  refine SafeStep.trans ?_ (SafeStep.modStore (fun _ => rfl) (fun _ => rfl) (fun _ => rfl))
  exact SafeStep.refl _
  split
  split
  refine SafeStep.trans ?_ (State.repaired_safe ..)
  refine SafeStep.trans ?_ (State.mergeReplace_safe ..)
  exact SafeStep.refl _
  refine SafeStep.trans ?_ (State.lose_safe ..)
  refine SafeStep.trans ?_ (SafeStep.modStore (fun _ => rfl) (fun _ => rfl) (fun _ => rfl))
  exact SafeStep.refl _
  refine SafeStep.trans ?_ (State.lose_safe ..)
  refine SafeStep.trans ?_ (SafeStep.modStore (fun _ => rfl) (fun _ => rfl) (fun _ => rfl))
  exact SafeStep.refl _

theorem State.gateLineLost_safe (s : State) (b line : Nat) : SafeStep s (State.gateLineLost s b line) := by
  unfold State.gateLineLost
  refine SafeStep.ite ?_ ?_
  exact SafeStep.refl _
  refine SafeStep.ite ?_ ?_
  refine SafeStep.trans ?_ (State.setParam_safe ..)
  exact SafeStep.refl _
  refine SafeStep.trans ?_ (State.modSlot_safe ..)
  exact SafeStep.refl _

theorem State.stoneSramLost_safe (s : State) (stone : Nat) : SafeStep s (State.stoneSramLost s stone) := by
  unfold State.stoneSramLost
  split
  exact SafeStep.refl _
  refine SafeStep.ite ?_ ?_
  refine SafeStep.trans ?_ (State.finish_safe ..)
  refine SafeStep.trans ?_ (State.stopPieces_safe ..)
  exact SafeStep.refl _
  refine SafeStep.trans ?_ (State.placePiece_safe ..)
  refine SafeStep.trans ?_ (State.beginClear_safe ..)
  refine SafeStep.trans ?_ (State.modStone_safe ..)
  exact SafeStep.refl _

theorem State.ckptLost_safe (s : State) (c : Ckpt) : SafeStep s (State.ckptLost s c) := by
  unfold State.ckptLost
  extract_lets +onlyGivenNames q1
  extract_lets +onlyGivenNames q2
  extract_lets +onlyGivenNames q3
  extract_lets +onlyGivenNames q4
  refine SafeStep.ite ?_ ?_
  refine SafeStep.trans ?_ (State.finish_safe ..)
  refine SafeStep.trans ?_ (State.stopPieces_safe ..)
  with_reducible refine SafeStep.trans ?_ (SafeStep.fields rfl rfl rfl rfl)
  exact SafeStep.refl _
  with_reducible refine SafeStep.trans ?_ (SafeStep.fields rfl rfl rfl rfl)
  exact SafeStep.refl _

theorem State.sharedLost_safe (s : State) (die loc : Nat) : SafeStep s (State.sharedLost s die loc) := by
  unfold State.sharedLost
  extract_lets +onlyGivenNames q1
  refine SafeStep.ite ?_ ?_
  extract_lets +onlyGivenNames q2
  refine SafeStep.trans ?_ (State.ueLog_safe ..)
  split
  refine SafeStep.trans ?_ (SafeStep.modStore (fun _ => rfl) (fun _ => rfl) (fun _ => rfl))
  exact SafeStep.refl _
  exact SafeStep.refl _
  refine SafeStep.ite ?_ ?_
  refine SafeStep.trans ?_ (State.repaired_safe ..)
  exact SafeStep.refl _
  refine SafeStep.ite ?_ ?_
  refine SafeStep.trans ?_ (State.ueLog_safe ..)
  split
  refine SafeStep.trans ?_ (State.stoneSramLost_safe ..)
  exact SafeStep.refl _
  exact SafeStep.refl _
  refine SafeStep.trans ?_ (State.ueLog_safe ..)
  split
  refine SafeStep.trans ?_ (State.ckptLost_safe ..)
  exact SafeStep.refl _
  exact SafeStep.refl _

theorem State.sramLost_safe (s : State) (unit loc access : Nat) : SafeStep s (State.sramLost s unit loc access) := by
  unfold State.sramLost
  extract_lets +onlyGivenNames q1
  extract_lets +onlyGivenNames q2
  split
  refine SafeStep.trans ?_ (State.ueLog_safe ..)
  refine SafeStep.trans ?_ (State.stoneSramLost_safe ..)
  exact SafeStep.refl _
  refine SafeStep.trans ?_ (State.sharedLost_safe ..)
  exact SafeStep.refl _
  split
  (unfold q1; split)
  refine SafeStep.trans ?_ (State.mergeEntLost_safe ..)
  exact SafeStep.refl _
  refine SafeStep.trans ?_ (State.ueLog_safe ..)
  refine SafeStep.trans ?_ (State.gateLineLost_safe ..)
  exact SafeStep.refl _
  refine SafeStep.ite ?_ ?_
  refine SafeStep.trans ?_ (State.streamLost_safe ..)
  exact SafeStep.refl _
  split
  refine SafeStep.trans ?_ (State.ueLog_safe ..)
  refine SafeStep.trans ?_ (State.snoopLost_safe ..)
  exact SafeStep.refl _
  exact SafeStep.refl _
  refine SafeStep.trans ?_ (State.repaired_safe ..)
  exact SafeStep.refl _
  (unfold q1; split)
  exact SafeStep.refl _
  refine SafeStep.trans ?_ (State.ueLog_safe ..)
  refine SafeStep.trans ?_ (State.gateLineLost_safe ..)
  exact SafeStep.refl _
  refine SafeStep.ite ?_ ?_
  refine SafeStep.trans ?_ (State.streamLost_safe ..)
  exact SafeStep.refl _
  split
  refine SafeStep.trans ?_ (State.ueLog_safe ..)
  refine SafeStep.trans ?_ (State.snoopLost_safe ..)
  exact SafeStep.refl _
  exact SafeStep.refl _
  refine SafeStep.trans ?_ (State.repaired_safe ..)
  exact SafeStep.refl _

theorem execSramScrub_safe (t unit loc upset : Nat) (s : State) : ∀ v : State, execSramScrub t unit loc upset s = .next v → SafeStep s v := by
  unfold execSramScrub
  extract_lets +onlyGivenNames q1
  refine SafeStep.nxIte ?_ ?_
  refine SafeStep.nx ?_
  refine SafeStep.trans ?_ (State.at__safe ..)
  exact SafeStep.refl _
  split
  refine SafeStep.nx ?_
  refine SafeStep.trans ?_ (State.at__safe ..)
  exact SafeStep.refl _
  refine SafeStep.nx ?_
  refine SafeStep.trans ?_ (State.correct_safe ..)
  refine SafeStep.trans ?_ (State.at__safe ..)
  exact SafeStep.refl _
  split
  refine SafeStep.nx ?_
  refine SafeStep.trans ?_ (State.sramLost_safe ..)
  refine SafeStep.snd (by assumption) ?_
  refine SafeStep.trans ?_ (State.free_safe ..)
  refine SafeStep.trans ?_ (State.at__safe ..)
  exact SafeStep.refl _

theorem execSetScrubPeriod_safe (h : MbHdr) (near sram : Nat) (s : State) : ∀ v : State, execSetScrubPeriod h near sram s = .next v → SafeStep s v := by
  unfold execSetScrubPeriod
  refine SafeStep.nx ?_
  refine SafeStep.trans ?_ (State.mbRun_safe _ _ _ _ ?_)
  exact SafeStep.refl _
  refine SafeStep.okIte ?_ ?_
  exact SafeStep.okErr
  refine SafeStep.okOk ?_
  dsimp only
  refine SafeStep.trans ?_ (State.modInteg_safe ..)
  exact SafeStep.refl _

theorem execArmFlipMaskNear_safe (h : MbHdr) (dpa word mask : Nat) (s : State) : ∀ v : State, execArmFlipMaskNear h dpa word mask s = .next v → SafeStep s v := by
  unfold execArmFlipMaskNear
  refine SafeStep.nx ?_
  refine SafeStep.trans ?_ (State.mbRun_safe _ _ _ _ ?_)
  exact SafeStep.refl _
  extract_lets +onlyGivenNames q1
  split
  refine SafeStep.okIte ?_ ?_
  exact SafeStep.okErr
  refine SafeStep.okIte ?_ ?_
  exact SafeStep.okErr
  extract_lets +onlyGivenNames q2
  refine SafeStep.okOk ?_
  dsimp only
  refine SafeStep.trans ?_ (State.modIntegLd_safe ..)
  exact SafeStep.refl _
  exact SafeStep.okErr

theorem execArmFlipMaskStone_safe (h : MbHdr) (stone bank word mask : Nat) (s : State) : ∀ v : State, execArmFlipMaskStone h stone bank word mask s = .next v → SafeStep s v := by
  unfold execArmFlipMaskStone
  refine SafeStep.nx ?_
  refine SafeStep.trans ?_ (State.mbBg_safe _ _ _ _ _ ?_)
  exact SafeStep.refl _
  refine SafeStep.exIte ?_ ?_
  exact SafeStep.exErr
  refine SafeStep.exOk ?_
  exact SafeStep.refl _

theorem execFlipMaskExpire_safe (t ld : Nat) (s : State) : ∀ v : State, execFlipMaskExpire t ld s = .next v → SafeStep s v := by
  unfold execFlipMaskExpire
  extract_lets +onlyGivenNames q1
  extract_lets +onlyGivenNames q2
  refine SafeStep.nxIte ?_ ?_
  refine SafeStep.nx ?_
  refine SafeStep.trans ?_ (State.modIntegLd_safe ..)
  refine SafeStep.trans ?_ (State.at__safe ..)
  exact SafeStep.refl _
  refine SafeStep.nx ?_
  refine SafeStep.trans ?_ (State.at__safe ..)
  exact SafeStep.refl _

theorem execDisarmFlipMask_safe (h : MbHdr) (s : State) : ∀ v : State, execDisarmFlipMask h s = .next v → SafeStep s v := by
  unfold execDisarmFlipMask
  refine SafeStep.nx ?_
  refine SafeStep.trans ?_ (State.mbRun_safe _ _ _ _ ?_)
  exact SafeStep.refl _
  refine SafeStep.okIte ?_ ?_
  exact SafeStep.okErr
  refine SafeStep.okOk ?_
  dsimp only
  refine SafeStep.trans ?_ (State.modIntegLd_safe ..)
  exact SafeStep.refl _

theorem execGetCorrectableErrorTable_safe (h : MbHdr) (o : OutReq) (s : State) : ∀ v : State, execGetCorrectableErrorTable h o s = .next v → SafeStep s v := by
  unfold execGetCorrectableErrorTable
  refine SafeStep.nx ?_
  refine SafeStep.trans ?_ (State.mbSnap_safe ..)
  exact SafeStep.refl _

theorem execGetUncorrectableErrorLog_safe (h : MbHdr) (o : OutReq) (s : State) : ∀ v : State, execGetUncorrectableErrorLog h o s = .next v → SafeStep s v := by
  unfold execGetUncorrectableErrorLog
  refine SafeStep.nx ?_
  refine SafeStep.trans ?_ (State.mbSnap_safe ..)
  exact SafeStep.refl _

theorem execGetRetirementList_safe (h : MbHdr) (o : OutReq) (s : State) : ∀ v : State, execGetRetirementList h o s = .next v → SafeStep s v := by
  unfold execGetRetirementList
  refine SafeStep.nx ?_
  refine SafeStep.trans ?_ (State.mbSnap_safe ..)
  exact SafeStep.refl _

theorem execClearCorrectableErrorTable_safe (h : MbHdr) (s : State) : ∀ v : State, execClearCorrectableErrorTable h s = .next v → SafeStep s v := by
  unfold execClearCorrectableErrorTable
  refine SafeStep.nx ?_
  refine SafeStep.trans ?_ (State.mbRun_safe _ _ _ _ ?_)
  exact SafeStep.refl _
  refine SafeStep.okOk ?_
  dsimp only
  refine SafeStep.trans ?_ (State.modInteg_safe ..)
  exact SafeStep.refl _

theorem State.retireFrames_safe (s : State) (stack : Nat) (fs : List Nat) : SafeStep s (State.retireFrames s stack fs) := by
  unfold State.retireFrames
  refine SafeStep.foldl ?_ (fun s x => ?_)
  exact SafeStep.refl _
  extract_lets +onlyGivenNames q1
  refine SafeStep.ite ?_ ?_
  exact SafeStep.refl _
  extract_lets +onlyGivenNames q2
  (unfold q2; split)
  refine SafeStep.trans ?_ (State.modStack_safe ..)
  exact SafeStep.refl _
  exact SafeStep.refl _

theorem State.clearRetired_safe (s : State) (stack : Nat) : SafeStep s (State.clearRetired s stack) := by
  unfold State.clearRetired
  refine SafeStep.foldl ?_ (fun s x => ?_)
  exact SafeStep.refl _
  refine SafeStep.trans ?_ (State.evictSack_safe ..)
  exact SafeStep.refl _

theorem State.startRetire_safe (s : State) (kind loc : Nat) : SafeStep s (State.startRetire s kind loc) := by
  unfold State.startRetire
  split
  refine SafeStep.trans ?_ (State.clearRetired_safe ..)
  refine SafeStep.trans ?_ (State.retireFrames_safe ..)
  exact SafeStep.refl _
  refine SafeStep.trans ?_ (State.clearRetired_safe ..)
  refine SafeStep.trans ?_ (State.modStack_safe ..)
  exact SafeStep.refl _
  exact SafeStep.refl _

theorem State.moveSack_safe (s : State) (sack : Nat) : SafeStep s (State.moveSack s sack) := by
  unfold State.moveSack
  extract_lets +onlyGivenNames q1
  extract_lets +onlyGivenNames q2
  extract_lets +onlyGivenNames q3
  extract_lets +onlyGivenNames q4
  extract_lets +onlyGivenNames q5
  refine SafeStep.ite ?_ ?_
  refine SafeStep.trans ?_ (State.noteSpare_safe ..)
  refine SafeStep.foldl ?_ (fun s x => ?_)
  refine SafeStep.trans ?_ (State.modDeep_safe ..)
  exact SafeStep.refl _
  refine SafeStep.trans ?_ (State.moveSlot_safe ..)
  exact SafeStep.refl _
  extract_lets +onlyGivenNames q6
  extract_lets +onlyGivenNames q7
  split
  refine SafeStep.trans ?_ (State.setSack_safe ..)
  refine SafeStep.trans ?_ (State.modStack_safe ..)
  refine SafeStep.trans ?_ (State.noteSpare_safe ..)
  refine SafeStep.foldl ?_ (fun s x => ?_)
  refine SafeStep.trans ?_ (State.modDeep_safe ..)
  exact SafeStep.refl _
  refine SafeStep.trans ?_ (State.moveSlot_safe ..)
  exact SafeStep.refl _
  refine SafeStep.trans ?_ (State.evictSack_safe ..)
  refine SafeStep.trans ?_ (State.modStack_safe ..)
  refine SafeStep.trans ?_ (State.noteSpare_safe ..)
  refine SafeStep.foldl ?_ (fun s x => ?_)
  refine SafeStep.trans ?_ (State.modDeep_safe ..)
  exact SafeStep.refl _
  refine SafeStep.trans ?_ (State.moveSlot_safe ..)
  exact SafeStep.refl _

theorem State.finishRetire_safe (s : State) (src kind loc : Nat) : ∀ v : State, State.finishRetire s src kind loc = some v → SafeStep s v := by
  unfold State.finishRetire
  extract_lets +onlyGivenNames q1
  refine SafeStep.ite1 ?_ ?_
  exact SafeStep.none1
  extract_lets +onlyGivenNames q2
  extract_lets +onlyGivenNames q3
  extract_lets +onlyGivenNames q4
  refine SafeStep.some1 ?_
  refine SafeStep.trans ?_ (State.ledger_safe ..)
  refine SafeStep.trans ?_ (State.modInteg_safe ..)
  refine SafeStep.trans ?_ (State.modInteg_safe ..)
  unfold q2
  split
  refine SafeStep.trans ?_ (State.caps_safe ..)
  refine SafeStep.trans ?_ (State.stackFails_safe ..)
  exact SafeStep.refl _
  refine SafeStep.trans ?_ (State.moveSack_safe ..)
  exact SafeStep.refl _
  exact SafeStep.refl _

theorem State.retireCmd_safe (s : State) (h : MbHdr) (kind loc : Nat) (cmd : Instr) : SafeStep s (State.retireCmd s h kind loc cmd) := by
  unfold State.retireCmd
  refine SafeStep.trans ?_ (State.mbBg_safe _ _ _ _ _ ?_)
  exact SafeStep.refl _
  split
  exact SafeStep.exErr
  refine SafeStep.exOk ?_
  refine SafeStep.trans ?_ (State.startRetire_safe ..)
  exact SafeStep.refl _

theorem execRetireRow_safe (h : MbHdr) (loc : Nat) (s : State) : ∀ v : State, execRetireRow h loc s = .next v → SafeStep s v := by
  unfold execRetireRow
  refine SafeStep.nx ?_
  refine SafeStep.trans ?_ (State.retireCmd_safe ..)
  exact SafeStep.refl _

theorem execRetireBank_safe (h : MbHdr) (loc : Nat) (s : State) : ∀ v : State, execRetireBank h loc s = .next v → SafeStep s v := by
  unfold execRetireBank
  refine SafeStep.nx ?_
  refine SafeStep.trans ?_ (State.retireCmd_safe ..)
  exact SafeStep.refl _

theorem execRetireStack_safe (h : MbHdr) (loc : Nat) (s : State) : ∀ v : State, execRetireStack h loc s = .next v → SafeStep s v := by
  unfold execRetireStack
  refine SafeStep.nx ?_
  refine SafeStep.trans ?_ (State.retireCmd_safe ..)
  exact SafeStep.refl _

theorem execRetireSack_safe (h : MbHdr) (sack : Nat) (s : State) : ∀ v : State, execRetireSack h sack s = .next v → SafeStep s v := by
  unfold execRetireSack
  refine SafeStep.nx ?_
  refine SafeStep.trans ?_ (State.retireCmd_safe ..)
  exact SafeStep.refl _

theorem State.abortJobs_safe (s : State) (p : Instr → Bool) : SafeStep s (State.abortJobs s p) := by
  unfold State.abortJobs
  refine SafeStep.foldl ?_ (fun s x => ?_)
  exact SafeStep.refl _
  refine SafeStep.trans ?_ (State.endJob_safe ..)
  exact SafeStep.refl _

theorem State.endKey_safe (s : State) (ld : Nat) : SafeStep s (State.endKey s ld) := by
  unfold State.endKey
  extract_lets +onlyGivenNames q1
  extract_lets +onlyGivenNames q2
  split
  refine SafeStep.ite ?_ ?_
  refine SafeStep.trans ?_ (State.endJob_safe ..)
  with_reducible refine SafeStep.trans ?_ (SafeStep.fields rfl rfl rfl rfl)
  exact SafeStep.refl _
  with_reducible refine SafeStep.trans ?_ (SafeStep.fields rfl rfl rfl rfl)
  exact SafeStep.refl _
  with_reducible refine SafeStep.trans ?_ (SafeStep.fields rfl rfl rfl rfl)
  exact SafeStep.refl _

theorem State.answerBi_safe (s : State) (r : HeldBi) : SafeStep s (State.answerBi s r) := by
  unfold State.answerBi
  refine SafeStep.ite ?_ ?_
  exact SafeStep.refl _
  refine SafeStep.ite ?_ ?_
  refine SafeStep.trans ?_ (State.send_safe ..)
  exact SafeStep.refl _
  split
  split
  refine SafeStep.trans ?_ (State.sendLine_safe ..)
  exact SafeStep.refl _
  refine SafeStep.trans ?_ (State.sendPoison_safe ..)
  refine SafeStep.trans ?_ (State.poisonRead_safe ..)
  exact SafeStep.refl _
  refine SafeStep.trans ?_ (State.send_safe ..)
  exact SafeStep.refl _

theorem State.completeOne_safe (s : State) (rid : Nat) : SafeStep s (State.completeOne s rid) := by
  unfold State.completeOne
  split
  refine SafeStep.trans ?_ (State.answerRead_safe ..)
  exact SafeStep.refl _
  split
  split
  refine SafeStep.ite ?_ ?_
  refine SafeStep.trans ?_ (State.poisonWrite_safe ..)
  exact SafeStep.refl _
  refine SafeStep.trans ?_ (State.doneWrite_safe ..)
  refine SafeStep.trans ?_ (State.dropWrite_safe ..)
  refine SafeStep.ite ?_ ?_
  exact SafeStep.refl _
  refine SafeStep.trans ?_ (State.merge_safe ..)
  exact SafeStep.refl _
  refine SafeStep.trans ?_ (State.doneWrite_safe ..)
  refine SafeStep.trans ?_ (State.dropWrite_safe ..)
  exact SafeStep.refl _
  exact SafeStep.refl _

theorem State.completeAll_safe (s : State) : SafeStep s (State.completeAll s) := by
  unfold State.completeAll
  extract_lets +onlyGivenNames q1
  extract_lets +onlyGivenNames q2
  with_reducible refine SafeStep.trans ?_ (SafeStep.fields rfl rfl rfl rfl)
  refine SafeStep.foldl ?_ (fun s x => ?_)
  refine SafeStep.foldl ?_ (fun s x => ?_)
  exact SafeStep.refl _
  refine SafeStep.trans ?_ (State.completeOne_safe ..)
  exact SafeStep.refl _
  refine SafeStep.trans ?_ (State.answerBi_safe ..)
  exact SafeStep.refl _

theorem State.zeroBuffers_safe (s : State) : SafeStep s (State.zeroBuffers s) := by
  unfold State.zeroBuffers
  extract_lets +onlyGivenNames q1
  extract_lets +onlyGivenNames q2
  extract_lets +onlyGivenNames q3
  extract_lets +onlyGivenNames q4
  with_reducible refine SafeStep.trans ?_ (SafeStep.fields rfl rfl rfl rfl)
  refine SafeStep.trans ?_ (SafeStep.modStore (fun _ => rfl) (fun _ => rfl) (fun _ => rfl))
  refine SafeStep.foldl ?_ (fun s x => ?_)
  exact SafeStep.refl _
  refine SafeStep.trans ?_ (State.unarm_safe ..)
  refine SafeStep.trans ?_ (State.releaseReads_safe ..)
  exact SafeStep.refl _

theorem State.startDebug_safe (s : State) (src scope reqid : Nat) : SafeStep s (State.startDebug s src scope reqid) := by
  unfold State.startDebug
  extract_lets +onlyGivenNames q1
  extract_lets +onlyGivenNames q2
  extract_lets +onlyGivenNames q3
  extract_lets +onlyGivenNames q4
  extract_lets +onlyGivenNames q5
  extract_lets +onlyGivenNames q6
  extract_lets +onlyGivenNames q7
  split
  extract_lets +onlyGivenNames q8
  extract_lets +onlyGivenNames q9
  refine SafeStep.trans ?_ (State.ledger_safe ..)
  refine SafeStep.trans ?_ (SafeStep.modBoot (fun _ => rfl))
  refine SafeStep.snd (by assumption) ?_
  refine SafeStep.trans ?_ (State.newKey_safe ..)
  with_reducible refine SafeStep.trans ?_ (SafeStep.fields rfl rfl rfl rfl)
  refine SafeStep.trans ?_ (State.abortJobs_safe ..)
  refine SafeStep.trans ?_ (State.zeroBuffers_safe ..)
  refine SafeStep.trans ?_ (State.completeAll_safe ..)
  refine SafeStep.foldl ?_ (fun s x => ?_)
  exact SafeStep.refl _
  refine SafeStep.trans ?_ (State.cancelOp_safe ..)
  exact SafeStep.refl _

theorem State.releaseReq_safe (s : State) (r : Nat × Nat × Nat × Bool) : SafeStep s (State.releaseReq s r) := by
  unfold State.releaseReq
  extract_lets +onlyGivenNames q1
  refine SafeStep.trans ?_ (State.send_safe ..)
  refine SafeStep.trans ?_ (State.drop_safe ..)
  exact SafeStep.refl _

theorem State.dropTenants_safe (s : State) : SafeStep s (State.dropTenants s) := by
  unfold State.dropTenants
  extract_lets +onlyGivenNames q1
  extract_lets +onlyGivenNames q2
  extract_lets +onlyGivenNames q3
  extract_lets +onlyGivenNames q4
  extract_lets +onlyGivenNames q5
  extract_lets +onlyGivenNames q6
  extract_lets +onlyGivenNames q7
  extract_lets +onlyGivenNames q8
  extract_lets +onlyGivenNames q9
  extract_lets +onlyGivenNames q10
  with_reducible refine SafeStep.trans ?_ (SafeStep.fields rfl rfl rfl rfl)
  refine SafeStep.trans ?_ (State.modWeir_safe ..)
  refine SafeStep.trans ?_ (State.modGate_safe ..)
  refine SafeStep.trans ?_ (SafeStep.modStore (fun _ => rfl) (fun _ => rfl) (fun _ => rfl))
  with_reducible refine SafeStep.trans ?_ (SafeStep.fields rfl rfl rfl rfl)
  refine SafeStep.foldl ?_ (fun s x => ?_)
  refine SafeStep.foldl ?_ (fun s x => ?_)
  refine SafeStep.trans ?_ (State.abortJobs_safe ..)
  exact SafeStep.refl _
  refine SafeStep.trans ?_ (State.freeBin_safe ..)
  exact SafeStep.refl _
  refine SafeStep.trans ?_ (State.closeWheel_safe ..)
  exact SafeStep.refl _

theorem State.openDebug_safe (s : State) : SafeStep s (State.openDebug s) := by
  unfold State.openDebug
  extract_lets +onlyGivenNames q1
  extract_lets +onlyGivenNames q2
  refine SafeStep.foldl ?_ (fun s x => ?_)
  refine SafeStep.trans ?_ (State.dropTenants_safe ..)
  refine SafeStep.trans ?_ (SafeStep.modBoot (fun _ => rfl))
  exact SafeStep.refl _
  refine SafeStep.trans ?_ (State.releaseReq_safe ..)
  exact SafeStep.refl _

theorem State.commitRecord_safe (s : State) (r : LedgerRec) : SafeStep s (State.commitRecord s r) := by
  unfold State.commitRecord
  refine SafeStep.trans ?_ (State.modResult_safe ..)
  exact SafeStep.refl _

theorem execLedgerCommit_safe (t : Nat) (s : State) : ∀ v : State, execLedgerCommit t s = .next v → SafeStep s v := by
  unfold execLedgerCommit
  extract_lets +onlyGivenNames q1
  split
  refine SafeStep.nx ?_
  refine SafeStep.trans ?_ (State.at__safe ..)
  exact SafeStep.refl _
  refine SafeStep.nxIte ?_ ?_
  refine SafeStep.nx ?_
  refine SafeStep.trans ?_ (State.at__safe ..)
  exact SafeStep.refl _
  extract_lets +onlyGivenNames q2
  extract_lets +onlyGivenNames q3
  extract_lets +onlyGivenNames q4
  split
  refine SafeStep.nx ?_
  refine SafeStep.trans ?_ (State.endJob_safe ..)
  refine SafeStep.ite ?_ ?_
  refine SafeStep.trans ?_ (State.openDebug_safe ..)
  refine SafeStep.trans ?_ (State.sendAll_safe ..)
  refine SafeStep.trans ?_ (State.postAll_safe ..)
  refine SafeStep.trans ?_ (State.commitRecord_safe ..)
  refine SafeStep.trans ?_ (State.modResult_safe ..)
  refine SafeStep.trans ?_ (State.at__safe ..)
  exact SafeStep.refl _
  refine SafeStep.trans ?_ (State.sendAll_safe ..)
  refine SafeStep.trans ?_ (State.postAll_safe ..)
  refine SafeStep.trans ?_ (State.commitRecord_safe ..)
  refine SafeStep.trans ?_ (State.modResult_safe ..)
  refine SafeStep.trans ?_ (State.at__safe ..)
  exact SafeStep.refl _
  refine SafeStep.nx ?_
  refine SafeStep.ite ?_ ?_
  refine SafeStep.trans ?_ (State.openDebug_safe ..)
  refine SafeStep.trans ?_ (State.sendAll_safe ..)
  refine SafeStep.trans ?_ (State.postAll_safe ..)
  refine SafeStep.trans ?_ (State.commitRecord_safe ..)
  refine SafeStep.trans ?_ (State.modResult_safe ..)
  refine SafeStep.trans ?_ (State.at__safe ..)
  exact SafeStep.refl _
  refine SafeStep.trans ?_ (State.sendAll_safe ..)
  refine SafeStep.trans ?_ (State.postAll_safe ..)
  refine SafeStep.trans ?_ (State.commitRecord_safe ..)
  refine SafeStep.trans ?_ (State.modResult_safe ..)
  refine SafeStep.trans ?_ (State.at__safe ..)
  exact SafeStep.refl _

theorem execLedgerCoalesceEnd_safe (t kind utype unit : Nat) (s : State) : ∀ v : State, execLedgerCoalesceEnd t kind utype unit s = .next v → SafeStep s v := by
  unfold execLedgerCoalesceEnd
  extract_lets +onlyGivenNames q1
  split
  refine SafeStep.nxIte ?_ ?_
  extract_lets +onlyGivenNames q2
  refine SafeStep.nxIte ?_ ?_
  refine SafeStep.nx ?_
  refine SafeStep.trans ?_ (State.modResult_safe ..)
  refine SafeStep.trans ?_ (State.at__safe ..)
  exact SafeStep.refl _
  refine SafeStep.nx ?_
  refine SafeStep.trans ?_ (State.ledger_safe ..)
  refine SafeStep.trans ?_ (State.modResult_safe ..)
  refine SafeStep.trans ?_ (State.at__safe ..)
  exact SafeStep.refl _
  refine SafeStep.nx ?_
  refine SafeStep.trans ?_ (State.at__safe ..)
  exact SafeStep.refl _
  refine SafeStep.nx ?_
  refine SafeStep.trans ?_ (State.at__safe ..)
  exact SafeStep.refl _

theorem execGetLedger_safe (h : MbHdr) (seqno maxrec : Nat) (s : State) : ∀ v : State, execGetLedger h seqno maxrec s = .next v → SafeStep s v := by
  unfold execGetLedger
  refine SafeStep.nx ?_
  refine SafeStep.trans ?_ (State.mbRun_safe _ _ _ _ ?_)
  exact SafeStep.refl _
  refine SafeStep.okIte ?_ ?_
  exact SafeStep.okErr
  extract_lets +onlyGivenNames q1
  extract_lets +onlyGivenNames q2
  extract_lets +onlyGivenNames q3
  refine SafeStep.okOk ?_
  exact SafeStep.refl _

theorem execGetResultErrorLog_safe (h : MbHdr) (o : OutReq) (s : State) : ∀ v : State, execGetResultErrorLog h o s = .next v → SafeStep s v := by
  unfold execGetResultErrorLog
  refine SafeStep.nx ?_
  refine SafeStep.trans ?_ (State.mbSnap_safe ..)
  exact SafeStep.refl _

theorem execAppendLedgerNote_safe (h : MbHdr) (note : Bytes) (s : State) : ∀ v : State, execAppendLedgerNote h note s = .next v → SafeStep s v := by
  unfold execAppendLedgerNote
  extract_lets +onlyGivenNames q1
  refine SafeStep.nxIte ?_ ?_
  refine SafeStep.nx ?_
  exact SafeStep.refl _
  split
  refine SafeStep.nx ?_
  refine SafeStep.trans ?_ (State.answer_safe ..)
  exact SafeStep.refl _
  refine SafeStep.nx ?_
  refine SafeStep.trans ?_ (State.ledger_safe ..)
  exact SafeStep.refl _

theorem execSetCheckPolicy_safe (h : MbHdr) (s0 s1 s2 earlyen : Nat) (s : State) : ∀ v : State, execSetCheckPolicy h s0 s1 s2 earlyen s = .next v → SafeStep s v := by
  unfold execSetCheckPolicy
  refine SafeStep.nx ?_
  refine SafeStep.trans ?_ (State.mbRun_safe _ _ _ _ ?_)
  exact SafeStep.refl _
  refine SafeStep.okIte ?_ ?_
  exact SafeStep.okErr
  refine SafeStep.okOk ?_
  dsimp only
  refine SafeStep.trans ?_ (State.modResult_safe ..)
  exact SafeStep.refl _

theorem execGetUnitHealth_safe (h : MbHdr) (s : State) : ∀ v : State, execGetUnitHealth h s = .next v → SafeStep s v := by
  unfold execGetUnitHealth
  refine SafeStep.nx ?_
  refine SafeStep.trans ?_ (State.mbRun_safe _ _ _ _ ?_)
  exact SafeStep.refl _
  extract_lets +onlyGivenNames q1
  extract_lets +onlyGivenNames q2
  refine SafeStep.okOk ?_
  exact SafeStep.refl _

theorem execClearUnitRecord_safe (h : MbHdr) (utype unit : Nat) (s : State) : ∀ v : State, execClearUnitRecord h utype unit s = .next v → SafeStep s v := by
  unfold execClearUnitRecord
  refine SafeStep.nx ?_
  refine SafeStep.trans ?_ (State.mbRun_safe _ _ _ _ ?_)
  exact SafeStep.refl _
  refine SafeStep.okIte ?_ ?_
  exact SafeStep.okErr
  refine SafeStep.okOk ?_
  dsimp only
  refine SafeStep.trans ?_ (State.setUnit_safe ..)
  exact SafeStep.refl _

theorem execInstallTestContent_safe (h : MbHdr) (p : Part) (s : State) : ∀ v : State, execInstallTestContent h p s = .next v → SafeStep s v := by
  unfold execInstallTestContent
  refine SafeStep.nx ?_
  refine SafeStep.trans ?_ (State.mbPartsBg_safe _ _ _ _ _ _ ?_)
  exact SafeStep.refl _
  intro _ _ 
  refine SafeStep.exOk ?_
  exact SafeStep.refl _

theorem State.installPkg_safe (s : State) (src : Nat) (img : Bytes) : SafeStep s (State.installPkg s src img) := by
  unfold State.installPkg
  extract_lets +onlyGivenNames q1
  extract_lets +onlyGivenNames q2
  extract_lets +onlyGivenNames q3
  refine SafeStep.trans ?_ (State.ledger_safe ..)
  refine SafeStep.ite ?_ ?_
  refine SafeStep.trans ?_ (State.modResult_safe ..)
  exact SafeStep.refl _
  exact SafeStep.refl _

theorem execGetTestContent_safe (h : MbHdr) (s : State) : ∀ v : State, execGetTestContent h s = .next v → SafeStep s v := by
  unfold execGetTestContent
  refine SafeStep.nx ?_
  refine SafeStep.trans ?_ (State.mbRun_safe _ _ _ _ ?_)
  exact SafeStep.refl _
  refine SafeStep.okOk ?_
  exact SafeStep.refl _

theorem State.modRange_safe (s : State) (ld id : Nat) (f : Range → Range) : SafeStep s (State.modRange s ld id f) := by
  unfold State.modRange
  refine SafeStep.trans ?_ (State.modResult_safe ..)
  exact SafeStep.refl _

theorem State.passRange_safe (s : State) (r : Range) : SafeStep s (State.passRange s r) := by
  unfold State.passRange
  refine SafeStep.foldl ?_ (fun s x => ?_)
  exact SafeStep.refl _
  refine SafeStep.trans ?_ (State.passEnt_safe ..)
  exact SafeStep.refl _

theorem execDigestStart_safe (t ld range : Nat) (s : State) : ∀ v : State, execDigestStart t ld range s = .next v → SafeStep s v := by
  unfold execDigestStart
  extract_lets +onlyGivenNames q1
  split
  refine SafeStep.nxIte ?_ ?_
  refine SafeStep.nx ?_
  refine SafeStep.trans ?_ (State.passRange_safe ..)
  refine SafeStep.trans ?_ (State.modRange_safe ..)
  refine SafeStep.trans ?_ (State.at__safe ..)
  exact SafeStep.refl _
  refine SafeStep.nx ?_
  refine SafeStep.trans ?_ (State.at__safe ..)
  exact SafeStep.refl _
  refine SafeStep.nx ?_
  refine SafeStep.trans ?_ (State.at__safe ..)
  exact SafeStep.refl _

theorem State.endRun_safe (s : State) (ld range outcome : Nat) : SafeStep s (State.endRun s ld range outcome) := by
  unfold State.endRun
  split
  split
  refine SafeStep.ite ?_ ?_
  refine SafeStep.trans ?_ (State.endJob_safe ..)
  exact SafeStep.refl _
  exact SafeStep.refl _
  exact SafeStep.refl _
  exact SafeStep.refl _

theorem State.digestMismatch_safe (s : State) (r : Range) (reference : BitVec 256) (d : BitVec 256) : SafeStep s (State.digestMismatch s r reference d) := by
  unfold State.digestMismatch
  extract_lets +onlyGivenNames q1
  extract_lets +onlyGivenNames q2
  refine SafeStep.trans ?_ (State.ledger_safe ..)
  refine SafeStep.trans ?_ (State.modRiLd_safe ..)
  exact SafeStep.refl _

theorem State.sendDigest_safe (s : State) (r : Range) (changed : Bool) : SafeStep s (State.sendDigest s r changed) := by
  unfold State.sendDigest
  split
  exact SafeStep.refl _
  extract_lets +onlyGivenNames q1
  extract_lets +onlyGivenNames q2
  refine SafeStep.trans ?_ (State.pump_safe ..)
  refine SafeStep.trans ?_ (State.modPorts_safe ..)
  exact SafeStep.refl _

theorem State.digestDone_safe (s : State) (r : Range) (d : BitVec 256) (turn : Nat) : SafeStep s (State.digestDone s r d turn) := by
  unfold State.digestDone
  extract_lets +onlyGivenNames q1
  extract_lets +onlyGivenNames q2
  extract_lets +onlyGivenNames q3
  extract_lets +onlyGivenNames q4
  extract_lets +onlyGivenNames q5
  refine SafeStep.trans ?_ (State.endRun_safe ..)
  refine SafeStep.trans ?_ (State.sendDigest_safe ..)
  refine SafeStep.ite ?_ ?_
  refine SafeStep.trans ?_ (State.digestMismatch_safe ..)
  refine SafeStep.trans ?_ (State.modRiLd_safe ..)
  refine SafeStep.trans ?_ (State.modRange_safe ..)
  exact SafeStep.refl _
  refine SafeStep.trans ?_ (State.modRiLd_safe ..)
  refine SafeStep.trans ?_ (State.modRange_safe ..)
  exact SafeStep.refl _

theorem execDigestComplete_safe (t ld range : Nat) (disagree : List Nat) (turn : Nat) (s : State) : ∀ v : State, execDigestComplete t ld range disagree turn s = .next v → SafeStep s v := by
  unfold execDigestComplete
  extract_lets +onlyGivenNames q1
  split
  refine SafeStep.nxIte ?_ ?_
  refine SafeStep.nx ?_
  refine SafeStep.trans ?_ (State.at__safe ..)
  exact SafeStep.refl _
  extract_lets +onlyGivenNames q2
  split
  refine SafeStep.nx ?_
  refine SafeStep.trans ?_ (State.digestDone_safe ..)
  refine SafeStep.foldl ?_ (fun s x => ?_)
  refine SafeStep.trans ?_ (State.at__safe ..)
  exact SafeStep.refl _
  refine SafeStep.trans ?_ (State.observe_safe ..)
  exact SafeStep.refl _
  extract_lets +onlyGivenNames q3
  extract_lets +onlyGivenNames q4
  extract_lets +onlyGivenNames q5
  refine SafeStep.nx ?_
  refine SafeStep.trans ?_ (State.endRun_safe ..)
  refine SafeStep.trans ?_ (State.modRange_safe ..)
  refine SafeStep.ite ?_ ?_
  refine SafeStep.trans ?_ (State.isolation_safe ..)
  refine SafeStep.foldl ?_ (fun s x => ?_)
  refine SafeStep.trans ?_ (State.at__safe ..)
  exact SafeStep.refl _
  refine SafeStep.trans ?_ (State.observe_safe ..)
  exact SafeStep.refl _
  refine SafeStep.foldl ?_ (fun s x => ?_)
  refine SafeStep.trans ?_ (State.at__safe ..)
  exact SafeStep.refl _
  refine SafeStep.trans ?_ (State.observe_safe ..)
  exact SafeStep.refl _
  refine SafeStep.nx ?_
  refine SafeStep.trans ?_ (State.at__safe ..)
  exact SafeStep.refl _

theorem execDefineDigestRange_safe (h : MbHdr) (base len key period wheel layer : Nat) (s : State) : ∀ v : State, execDefineDigestRange h base len key period wheel layer s = .next v → SafeStep s v := by
  unfold execDefineDigestRange
  refine SafeStep.nx ?_
  refine SafeStep.trans ?_ (State.mbRun_safe _ _ _ _ ?_)
  exact SafeStep.refl _
  split
  exact SafeStep.okErr
  extract_lets +onlyGivenNames q1
  refine SafeStep.okIte ?_ ?_
  exact SafeStep.okErr
  refine SafeStep.okIte ?_ ?_
  exact SafeStep.okErr
  extract_lets +onlyGivenNames q2
  extract_lets +onlyGivenNames q3
  refine SafeStep.okOk ?_
  dsimp only
  refine SafeStep.trans ?_ (State.modResult_safe ..)
  exact SafeStep.refl _

theorem execDeleteDigestRange_safe (h : MbHdr) (range : Nat) (s : State) : ∀ v : State, execDeleteDigestRange h range s = .next v → SafeStep s v := by
  unfold execDeleteDigestRange
  refine SafeStep.nx ?_
  refine SafeStep.trans ?_ (State.mbRun_safe _ _ _ _ ?_)
  exact SafeStep.refl _
  split
  exact SafeStep.okErr
  extract_lets +onlyGivenNames q1
  extract_lets +onlyGivenNames q2
  refine SafeStep.okOk ?_
  dsimp only
  refine SafeStep.ite ?_ ?_
  refine SafeStep.trans ?_ (State.endJob_safe ..)
  refine SafeStep.trans ?_ (State.modResult_safe ..)
  exact SafeStep.refl _
  refine SafeStep.trans ?_ (State.modResult_safe ..)
  exact SafeStep.refl _

theorem execGetDigest_safe (h : MbHdr) (range : Nat) (s : State) : ∀ v : State, execGetDigest h range s = .next v → SafeStep s v := by
  unfold execGetDigest
  refine SafeStep.nx ?_
  refine SafeStep.trans ?_ (State.mbRun_safe _ _ _ _ ?_)
  exact SafeStep.refl _
  split
  exact SafeStep.okErr
  extract_lets +onlyGivenNames q1
  refine SafeStep.okOk ?_
  exact SafeStep.refl _

theorem execSetDigestReference_safe (h : MbHdr) (range : Nat) (reference : BitVec 256) (s : State) : ∀ v : State, execSetDigestReference h range reference s = .next v → SafeStep s v := by
  unfold execSetDigestReference
  refine SafeStep.nx ?_
  refine SafeStep.trans ?_ (State.mbRun_safe _ _ _ _ ?_)
  exact SafeStep.refl _
  split
  exact SafeStep.okErr
  refine SafeStep.okOk ?_
  dsimp only
  refine SafeStep.trans ?_ (State.modRange_safe ..)
  exact SafeStep.refl _

theorem execRunDigest_safe (h : MbHdr) (range : Nat) (s : State) : ∀ v : State, execRunDigest h range s = .next v → SafeStep s v := by
  unfold execRunDigest
  refine SafeStep.nx ?_
  refine SafeStep.trans ?_ (State.mbBg_safe _ _ _ _ _ ?_)
  exact SafeStep.refl _
  split
  exact SafeStep.exErr
  refine SafeStep.exIte ?_ ?_
  exact SafeStep.exErr
  refine SafeStep.exOk ?_
  refine SafeStep.trans ?_ (State.modRange_safe ..)
  exact SafeStep.refl _

theorem execSetDigestPeer_safe (h : MbHdr) (range port window : Nat) (bind : Bool) (s : State) : ∀ v : State, execSetDigestPeer h range port window bind s = .next v → SafeStep s v := by
  unfold execSetDigestPeer
  refine SafeStep.nx ?_
  refine SafeStep.trans ?_ (State.mbRun_safe _ _ _ _ ?_)
  exact SafeStep.refl _
  split
  exact SafeStep.okErr
  refine SafeStep.okIte ?_ ?_
  refine SafeStep.okOk ?_
  dsimp only
  refine SafeStep.trans ?_ (State.modRange_safe ..)
  exact SafeStep.refl _
  extract_lets +onlyGivenNames q1
  refine SafeStep.okIte ?_ ?_
  exact SafeStep.okErr
  refine SafeStep.okOk ?_
  dsimp only
  refine SafeStep.trans ?_ (State.modRange_safe ..)
  exact SafeStep.refl _

end Sys2Proof.Machine
end

