-- ==== Sys2Proof/Laws/SafePorts.lean ====
section
/-! SUPPORT. Every operation and every meaning over the ports, the endpoint and the mailboxes is a safe step: one lemma each. -/
namespace Sys2Proof.Machine

theorem State.undoBuild_safe (s : State) (set : Nat) : SafeStep s (State.undoBuild s set) := by
  unfold State.undoBuild
  split
  exact SafeStep.refl _
  extract_lets +onlyGivenNames q1
  refine SafeStep.ite ?_ ?_
  refine SafeStep.trans ?_ (State.modSet_safe ..)
  refine SafeStep.trans ?_ (SafeStep.modStore (fun _ => rfl) (fun _ => rfl) (fun _ => rfl))
  exact SafeStep.refl _
  refine SafeStep.trans ?_ (SafeStep.modStore (fun _ => rfl) (fun _ => rfl) (fun _ => rfl))
  exact SafeStep.refl _

theorem State.undoSlice_safe (s : State) (slice unit : Nat) : SafeStep s (State.undoSlice s slice unit) := by
  unfold State.undoSlice
  refine SafeStep.ite ?_ ?_
  exact SafeStep.refl _
  extract_lets +onlyGivenNames q1
  refine SafeStep.ite ?_ ?_
  refine SafeStep.trans ?_ (State.modStone_safe ..)
  refine SafeStep.trans ?_ (State.modSlice_safe ..)
  exact SafeStep.refl _
  refine SafeStep.trans ?_ (State.modSlice_safe ..)
  exact SafeStep.refl _

theorem State.undoJob_safe (s : State) (cmd : Instr) : SafeStep s (State.undoJob s cmd) := by
  unfold State.undoJob
  split
  refine SafeStep.trans ?_ (State.undoBuild_safe ..)
  exact SafeStep.refl _
  refine SafeStep.trans ?_ (State.modRange_safe ..)
  exact SafeStep.refl _
  refine SafeStep.trans ?_ (State.undoSlice_safe ..)
  exact SafeStep.refl _
  exact SafeStep.refl _

theorem State.stopJob_safe (s : State) (src : Nat) : SafeStep s (State.stopJob s src) := by
  unfold State.stopJob
  split
  exact SafeStep.refl _
  refine SafeStep.trans ?_ (State.endJob_safe ..)
  refine SafeStep.trans ?_ (State.undoJob_safe ..)
  exact SafeStep.refl _

theorem State.retrain_safe (s : State) (port : Nat) (fromDetect : Bool) : SafeStep s (State.retrain s port fromDetect) := by
  unfold State.retrain
  extract_lets +onlyGivenNames q1
  extract_lets +onlyGivenNames q2
  refine SafeStep.ite ?_ ?_
  refine SafeStep.trans ?_ (State.modPorts_safe ..)
  exact SafeStep.refl _
  extract_lets +onlyGivenNames q3
  refine SafeStep.trans ?_ (State.modPort_safe ..)
  refine SafeStep.trans ?_ (State.modPorts_safe ..)
  exact SafeStep.refl _

theorem State.muteLd_safe (s : State) (ld : Nat) : SafeStep s (State.muteLd s ld) := by
  unfold State.muteLd
  extract_lets +onlyGivenNames q1
  extract_lets +onlyGivenNames q2
  refine SafeStep.trans ?_ (State.modGate_safe ..)
  refine SafeStep.trans ?_ (State.modCxe_safe ..)
  refine SafeStep.trans ?_ (SafeStep.modStore (fun _ => rfl) (fun _ => rfl) (fun _ => rfl))
  exact SafeStep.refl _

theorem State.holdsGone_safe (s : State) (ld : Nat) : SafeStep s (State.holdsGone s ld) := by
  unfold State.holdsGone
  extract_lets +onlyGivenNames q1
  extract_lets +onlyGivenNames q2
  refine SafeStep.trans ?_ (State.pumpBi_safe ..)
  refine SafeStep.foldl ?_ (fun s x => ?_)
  refine SafeStep.trans ?_ (State.holderLost_safe ..)
  exact SafeStep.refl _
  refine SafeStep.trans ?_ (State.snoopDone_safe ..)
  exact SafeStep.refl _

theorem State.clearExt_safe (s : State) (e : Extent) : SafeStep s (State.clearExt s e) := by
  unfold State.clearExt
  extract_lets +onlyGivenNames q1
  extract_lets +onlyGivenNames q2
  extract_lets +onlyGivenNames q3
  extract_lets +onlyGivenNames q4
  refine SafeStep.trans ?_ (State.retryReads_safe ..)
  refine SafeStep.trans ?_ (State.discardSacks_safe ..)
  refine SafeStep.foldl ?_ (fun s x => ?_)
  refine SafeStep.foldl ?_ (fun s x => ?_)
  exact SafeStep.refl _
  refine SafeStep.trans ?_ (State.freeBin_safe ..)
  exact SafeStep.refl _
  refine SafeStep.trans ?_ (State.doneWrite_safe ..)
  refine SafeStep.trans ?_ (State.dropWrite_safe ..)
  exact SafeStep.refl _

theorem State.memClear_safe (s : State) (ld : Nat) : SafeStep s (State.memClear s ld) := by
  unfold State.memClear
  refine SafeStep.foldl ?_ (fun s x => ?_)
  exact SafeStep.refl _
  refine SafeStep.trans ?_ (State.clearExt_safe ..)
  exact SafeStep.refl _

theorem State.resetConfig_safe (s : State) (ld last : Nat) : SafeStep s (State.resetConfig s ld last) := by
  unfold State.resetConfig
  extract_lets +onlyGivenNames q1
  extract_lets +onlyGivenNames q2
  refine SafeStep.ite ?_ ?_
  refine SafeStep.ite ?_ ?_
  exact SafeStep.refl _
  refine SafeStep.trans ?_ (State.modCxeLd_safe ..)
  refine SafeStep.trans ?_ (State.modCxe_safe ..)
  exact SafeStep.refl _
  refine SafeStep.trans ?_ (State.modCxeLd_safe ..)
  refine SafeStep.trans ?_ (State.modCxe_safe ..)
  refine SafeStep.ite ?_ ?_
  exact SafeStep.refl _
  refine SafeStep.trans ?_ (State.modCxeLd_safe ..)
  refine SafeStep.trans ?_ (State.modCxe_safe ..)
  exact SafeStep.refl _

theorem State.noteReset_safe (s : State) (ld last : Nat) : SafeStep s (State.noteReset s ld last) := by
  unfold State.noteReset
  refine SafeStep.trans ?_ (State.modCxeLd_safe ..)
  exact SafeStep.refl _

theorem State.cancelLd_safe (s : State) (ld : Nat) : SafeStep s (State.cancelLd s ld) := by
  unfold State.cancelLd
  refine SafeStep.foldl ?_ (fun s x => ?_)
  exact SafeStep.refl _
  refine SafeStep.ite ?_ ?_
  exact SafeStep.refl _
  refine SafeStep.trans ?_ (State.cancelOp_safe ..)
  exact SafeStep.refl _

theorem State.ldReset_safe (s : State) (ld last : Nat) : SafeStep s (State.ldReset s ld last) := by
  unfold State.ldReset
  extract_lets +onlyGivenNames q1
  extract_lets +onlyGivenNames q2
  extract_lets +onlyGivenNames q3
  extract_lets +onlyGivenNames q4
  extract_lets +onlyGivenNames q5
  extract_lets +onlyGivenNames q6
  extract_lets +onlyGivenNames q7
  extract_lets +onlyGivenNames q8
  extract_lets +onlyGivenNames q9
  extract_lets +onlyGivenNames q10
  refine SafeStep.trans ?_ (State.noteReset_safe ..)
  refine SafeStep.trans ?_ (State.resetConfig_safe ..)
  refine SafeStep.ite ?_ ?_
  refine SafeStep.trans ?_ (State.modCxe_safe ..)
  refine SafeStep.ite ?_ ?_
  refine SafeStep.trans ?_ (State.memClear_safe ..)
  refine SafeStep.trans ?_ (State.modIntegLd_safe ..)
  refine SafeStep.foldl ?_ (fun s x => ?_)
  refine SafeStep.trans ?_ (State.cancelLd_safe ..)
  refine SafeStep.ite ?_ ?_
  refine SafeStep.trans ?_ (State.modCxe_safe ..)
  refine SafeStep.ite ?_ ?_
  with_reducible refine SafeStep.trans ?_ (SafeStep.fields rfl rfl rfl rfl)
  refine SafeStep.trans ?_ (State.stopJob_safe ..)
  exact SafeStep.refl _
  refine SafeStep.trans ?_ (State.holdsGone_safe ..)
  refine SafeStep.trans ?_ (State.muteLd_safe ..)
  with_reducible refine SafeStep.trans ?_ (SafeStep.fields rfl rfl rfl rfl)
  refine SafeStep.trans ?_ (State.stopJob_safe ..)
  exact SafeStep.refl _
  refine SafeStep.trans ?_ (State.modCxe_safe ..)
  refine SafeStep.ite ?_ ?_
  with_reducible refine SafeStep.trans ?_ (SafeStep.fields rfl rfl rfl rfl)
  refine SafeStep.trans ?_ (State.stopJob_safe ..)
  exact SafeStep.refl _
  refine SafeStep.trans ?_ (State.holdsGone_safe ..)
  refine SafeStep.trans ?_ (State.muteLd_safe ..)
  with_reducible refine SafeStep.trans ?_ (SafeStep.fields rfl rfl rfl rfl)
  refine SafeStep.trans ?_ (State.stopJob_safe ..)
  exact SafeStep.refl _
  refine SafeStep.trans ?_ (State.restWheel_safe ..)
  exact SafeStep.refl _
  refine SafeStep.trans ?_ (State.modIntegLd_safe ..)
  refine SafeStep.foldl ?_ (fun s x => ?_)
  refine SafeStep.trans ?_ (State.cancelLd_safe ..)
  refine SafeStep.ite ?_ ?_
  refine SafeStep.trans ?_ (State.modCxe_safe ..)
  refine SafeStep.ite ?_ ?_
  with_reducible refine SafeStep.trans ?_ (SafeStep.fields rfl rfl rfl rfl)
  refine SafeStep.trans ?_ (State.stopJob_safe ..)
  exact SafeStep.refl _
  refine SafeStep.trans ?_ (State.holdsGone_safe ..)
  refine SafeStep.trans ?_ (State.muteLd_safe ..)
  with_reducible refine SafeStep.trans ?_ (SafeStep.fields rfl rfl rfl rfl)
  refine SafeStep.trans ?_ (State.stopJob_safe ..)
  exact SafeStep.refl _
  refine SafeStep.trans ?_ (State.modCxe_safe ..)
  refine SafeStep.ite ?_ ?_
  with_reducible refine SafeStep.trans ?_ (SafeStep.fields rfl rfl rfl rfl)
  refine SafeStep.trans ?_ (State.stopJob_safe ..)
  exact SafeStep.refl _
  refine SafeStep.trans ?_ (State.holdsGone_safe ..)
  refine SafeStep.trans ?_ (State.muteLd_safe ..)
  with_reducible refine SafeStep.trans ?_ (SafeStep.fields rfl rfl rfl rfl)
  refine SafeStep.trans ?_ (State.stopJob_safe ..)
  exact SafeStep.refl _
  refine SafeStep.trans ?_ (State.restWheel_safe ..)
  exact SafeStep.refl _
  refine SafeStep.ite ?_ ?_
  refine SafeStep.trans ?_ (State.memClear_safe ..)
  refine SafeStep.trans ?_ (State.modIntegLd_safe ..)
  refine SafeStep.foldl ?_ (fun s x => ?_)
  refine SafeStep.trans ?_ (State.cancelLd_safe ..)
  refine SafeStep.ite ?_ ?_
  refine SafeStep.trans ?_ (State.modCxe_safe ..)
  refine SafeStep.ite ?_ ?_
  with_reducible refine SafeStep.trans ?_ (SafeStep.fields rfl rfl rfl rfl)
  refine SafeStep.trans ?_ (State.stopJob_safe ..)
  exact SafeStep.refl _
  refine SafeStep.trans ?_ (State.holdsGone_safe ..)
  refine SafeStep.trans ?_ (State.muteLd_safe ..)
  with_reducible refine SafeStep.trans ?_ (SafeStep.fields rfl rfl rfl rfl)
  refine SafeStep.trans ?_ (State.stopJob_safe ..)
  exact SafeStep.refl _
  refine SafeStep.trans ?_ (State.modCxe_safe ..)
  refine SafeStep.ite ?_ ?_
  with_reducible refine SafeStep.trans ?_ (SafeStep.fields rfl rfl rfl rfl)
  refine SafeStep.trans ?_ (State.stopJob_safe ..)
  exact SafeStep.refl _
  refine SafeStep.trans ?_ (State.holdsGone_safe ..)
  refine SafeStep.trans ?_ (State.muteLd_safe ..)
  with_reducible refine SafeStep.trans ?_ (SafeStep.fields rfl rfl rfl rfl)
  refine SafeStep.trans ?_ (State.stopJob_safe ..)
  exact SafeStep.refl _
  refine SafeStep.trans ?_ (State.restWheel_safe ..)
  exact SafeStep.refl _
  refine SafeStep.trans ?_ (State.modIntegLd_safe ..)
  refine SafeStep.foldl ?_ (fun s x => ?_)
  refine SafeStep.trans ?_ (State.cancelLd_safe ..)
  refine SafeStep.ite ?_ ?_
  refine SafeStep.trans ?_ (State.modCxe_safe ..)
  refine SafeStep.ite ?_ ?_
  with_reducible refine SafeStep.trans ?_ (SafeStep.fields rfl rfl rfl rfl)
  refine SafeStep.trans ?_ (State.stopJob_safe ..)
  exact SafeStep.refl _
  refine SafeStep.trans ?_ (State.holdsGone_safe ..)
  refine SafeStep.trans ?_ (State.muteLd_safe ..)
  with_reducible refine SafeStep.trans ?_ (SafeStep.fields rfl rfl rfl rfl)
  refine SafeStep.trans ?_ (State.stopJob_safe ..)
  exact SafeStep.refl _
  refine SafeStep.trans ?_ (State.modCxe_safe ..)
  refine SafeStep.ite ?_ ?_
  with_reducible refine SafeStep.trans ?_ (SafeStep.fields rfl rfl rfl rfl)
  refine SafeStep.trans ?_ (State.stopJob_safe ..)
  exact SafeStep.refl _
  refine SafeStep.trans ?_ (State.holdsGone_safe ..)
  refine SafeStep.trans ?_ (State.muteLd_safe ..)
  with_reducible refine SafeStep.trans ?_ (SafeStep.fields rfl rfl rfl rfl)
  refine SafeStep.trans ?_ (State.stopJob_safe ..)
  exact SafeStep.refl _
  refine SafeStep.trans ?_ (State.restWheel_safe ..)
  exact SafeStep.refl _

theorem State.portReset_safe (s : State) (port last : Nat) : SafeStep s (State.portReset s port last) := by
  unfold State.portReset
  extract_lets +onlyGivenNames q1
  extract_lets +onlyGivenNames q2
  refine SafeStep.trans ?_ (State.recap_safe ..)
  refine SafeStep.trans ?_ (State.retrain_safe ..)
  refine SafeStep.trans ?_ (State.modCxe_safe ..)
  refine SafeStep.foldl ?_ (fun s x => ?_)
  exact SafeStep.refl _
  refine SafeStep.trans ?_ (State.ldReset_safe ..)
  exact SafeStep.refl _

theorem State.portDown_safe (s : State) (port : Nat) : SafeStep s (State.portDown s port) := by
  unfold State.portDown
  refine SafeStep.ite ?_ ?_
  refine SafeStep.trans ?_ (State.portReset_safe ..)
  exact SafeStep.refl _
  refine SafeStep.trans ?_ (State.retrain_safe ..)
  exact SafeStep.refl _

theorem State.modLane_safe (s : State) (port lane : Nat) (f : Lane → Lane) : SafeStep s (State.modLane s port lane f) := by
  unfold State.modLane
  refine SafeStep.trans ?_ (State.modPorts_safe ..)
  exact SafeStep.refl _

theorem State.setGroup_safe (s : State) (port : Nat) (g : List Nat) : SafeStep s (State.setGroup s port g) := by
  unfold State.setGroup
  extract_lets +onlyGivenNames q1
  extract_lets +onlyGivenNames q2
  refine SafeStep.ite ?_ ?_
  refine SafeStep.trans ?_ (State.modPort_safe ..)
  exact SafeStep.refl _
  extract_lets +onlyGivenNames q3
  refine SafeStep.trans ?_ (State.recap_safe ..)
  refine SafeStep.ite ?_ ?_
  refine SafeStep.trans ?_ (State.modPort_safe ..)
  exact SafeStep.refl _
  refine SafeStep.trans ?_ (State.modCxe_safe ..)
  refine SafeStep.trans ?_ (State.modPort_safe ..)
  exact SafeStep.refl _

theorem State.attemptOver_safe (s : State) (port : Nat) : SafeStep s (State.attemptOver s port) := by
  unfold State.attemptOver
  extract_lets +onlyGivenNames q1
  refine SafeStep.ite ?_ ?_
  refine SafeStep.trans ?_ (State.portDown_safe ..)
  refine SafeStep.trans ?_ (State.modPort_safe ..)
  exact SafeStep.refl _
  refine SafeStep.trans ?_ (State.retrain_safe ..)
  refine SafeStep.trans ?_ (State.modPort_safe ..)
  exact SafeStep.refl _

theorem State.configure_safe (s : State) (port partner node : Nat) (flit256 : Bool) : SafeStep s (State.configure s port partner node flit256) := by
  unfold State.configure
  extract_lets +onlyGivenNames q1
  refine SafeStep.ite ?_ ?_
  refine SafeStep.trans ?_ (State.attemptOver_safe ..)
  exact SafeStep.refl _
  refine SafeStep.ite ?_ ?_
  refine SafeStep.trans ?_ (State.modPort_safe ..)
  exact SafeStep.refl _
  extract_lets +onlyGivenNames q2
  refine SafeStep.trans ?_ (State.pump_safe ..)
  refine SafeStep.trans ?_ (State.setGroup_safe ..)
  refine SafeStep.trans ?_ (State.modPort_safe ..)
  exact SafeStep.refl _

theorem execPortTrainingAdvance_safe (t port : Nat) (light : Bool) (failed skew : List Nat) (partner node : Nat) (flit256 : Bool)
    (s : State) : ∀ v : State, execPortTrainingAdvance t port light failed skew partner node flit256 s = .next v → SafeStep s v := by
  unfold execPortTrainingAdvance
  extract_lets s1 p dst fail s2 s3 first s4 s5
  have h : SafeStep s s1 := State.at__safe ..
  have hd : ∀ u st, SafeStep u (dst u st) := fun u st => State.modPort_safe ..
  have hf : ∀ u ns, SafeStep u (fail u ns) := fun u ns => SafeStep.foldl (SafeStep.refl _) fun v n => State.modLane_safe ..
  have h3 : SafeStep s s3 := SafeStep.foldl (SafeStep.trans h (hf ..)) fun u n =>
    SafeStep.trans (State.free_safe _) (State.modLane_safe ..)
  have h5 : SafeStep s s5 := SafeStep.trans (SafeStep.trans h (hf ..)) (hf ..)
  refine SafeStep.nxIte (SafeStep.nx h) ?_
  split
  · exact SafeStep.nxIte (SafeStep.nx (SafeStep.trans (SafeStep.trans h (State.modPort_safe ..)) (hd ..))) (SafeStep.nx h)
  · exact SafeStep.nxIte (SafeStep.nx (SafeStep.trans h (hd ..))) (SafeStep.nx h)
  · exact SafeStep.nx (SafeStep.trans h (hd ..))
  · exact SafeStep.nxIte (SafeStep.nx (SafeStep.trans h3 (State.attemptOver_safe ..))) (SafeStep.nx (SafeStep.trans h3 (hd ..)))
  · exact SafeStep.nxIte (SafeStep.nx (SafeStep.trans h5 (State.attemptOver_safe ..))) (SafeStep.nx (SafeStep.trans h5 (hd ..)))
  · exact SafeStep.nxIte (SafeStep.nx h) (SafeStep.nx (SafeStep.trans h (State.configure_safe ..)))
  · exact SafeStep.nx h
  · exact SafeStep.nx (SafeStep.trans (SafeStep.trans h (hd ..)) (State.pump_safe ..))

theorem execPortTrainingTimeout_safe (t port : Nat) (s : State) : ∀ v : State, execPortTrainingTimeout t port s = .next v → SafeStep s v := by
  unfold execPortTrainingTimeout
  extract_lets +onlyGivenNames q1
  split
  refine SafeStep.nxIte ?_ ?_
  refine SafeStep.nx ?_
  refine SafeStep.trans ?_ (State.attemptOver_safe ..)
  refine SafeStep.trans ?_ (State.at__safe ..)
  exact SafeStep.refl _
  refine SafeStep.nx ?_
  refine SafeStep.trans ?_ (State.at__safe ..)
  exact SafeStep.refl _
  refine SafeStep.nx ?_
  refine SafeStep.trans ?_ (State.at__safe ..)
  exact SafeStep.refl _

theorem execConfigMismatchRetry_safe (t port partner node : Nat) (flit256 : Bool) (s : State) : ∀ v : State, execConfigMismatchRetry t port partner node flit256 s = .next v → SafeStep s v := by
  unfold execConfigMismatchRetry
  extract_lets +onlyGivenNames q1
  extract_lets +onlyGivenNames q2
  refine SafeStep.nxIte ?_ ?_
  refine SafeStep.nx ?_
  refine SafeStep.trans ?_ (State.configure_safe ..)
  refine SafeStep.trans ?_ (State.at__safe ..)
  exact SafeStep.refl _
  refine SafeStep.nx ?_
  refine SafeStep.trans ?_ (State.at__safe ..)
  exact SafeStep.refl _

theorem State.failLane_safe (s : State) (port lane : Nat) : SafeStep s (State.failLane s port lane) := by
  unfold State.failLane
  refine SafeStep.ite ?_ ?_
  exact SafeStep.refl _
  extract_lets +onlyGivenNames q1
  extract_lets +onlyGivenNames q2
  extract_lets +onlyGivenNames q3
  extract_lets +onlyGivenNames q4
  refine SafeStep.ite ?_ ?_
  refine SafeStep.trans ?_ (State.noteVitals_safe ..)
  refine SafeStep.trans ?_ (State.unitFailed_safe ..)
  refine SafeStep.trans ?_ (State.modLane_safe ..)
  exact SafeStep.refl _
  extract_lets +onlyGivenNames q5
  extract_lets +onlyGivenNames q6
  extract_lets +onlyGivenNames q7
  extract_lets +onlyGivenNames q8
  extract_lets +onlyGivenNames q9
  refine SafeStep.trans ?_ (State.noteVitals_safe ..)
  refine SafeStep.ite ?_ ?_
  refine SafeStep.trans ?_ (State.portDown_safe ..)
  refine SafeStep.foldl ?_ (fun s x => ?_)
  refine SafeStep.trans ?_ (State.modPort_safe ..)
  refine SafeStep.trans ?_ (State.unitFailed_safe ..)
  refine SafeStep.trans ?_ (State.modLane_safe ..)
  exact SafeStep.refl _
  refine SafeStep.trans ?_ (State.post_safe ..)
  exact SafeStep.refl _
  refine SafeStep.trans ?_ (State.setGroup_safe ..)
  refine SafeStep.trans ?_ (State.modPort_safe ..)
  refine SafeStep.foldl ?_ (fun s x => ?_)
  refine SafeStep.trans ?_ (State.modPort_safe ..)
  refine SafeStep.trans ?_ (State.unitFailed_safe ..)
  refine SafeStep.trans ?_ (State.modLane_safe ..)
  exact SafeStep.refl _
  refine SafeStep.trans ?_ (State.post_safe ..)
  exact SafeStep.refl _

theorem execLaneFailure_safe (t port lane : Nat) (s : State) : ∀ v : State, execLaneFailure t port lane s = .next v → SafeStep s v := by
  unfold execLaneFailure
  extract_lets +onlyGivenNames q1
  refine SafeStep.nxIte ?_ ?_
  refine SafeStep.nx ?_
  refine SafeStep.trans ?_ (State.failLane_safe ..)
  refine SafeStep.trans ?_ (State.at__safe ..)
  exact SafeStep.refl _
  refine SafeStep.nx ?_
  refine SafeStep.trans ?_ (State.at__safe ..)
  exact SafeStep.refl _

theorem execLaserAgeing_safe (t port lane wavelength bias : Nat) (s : State) : ∀ v : State, execLaserAgeing t port lane wavelength bias s = .next v → SafeStep s v := by
  unfold execLaserAgeing
  extract_lets +onlyGivenNames q1
  refine SafeStep.nxIte ?_ ?_
  refine SafeStep.nx ?_
  refine SafeStep.trans ?_ (State.at__safe ..)
  exact SafeStep.refl _
  extract_lets +onlyGivenNames q2
  extract_lets +onlyGivenNames q3
  refine SafeStep.nxIte ?_ ?_
  refine SafeStep.nx ?_
  refine SafeStep.trans ?_ (State.modLane_safe ..)
  refine SafeStep.trans ?_ (State.at__safe ..)
  exact SafeStep.refl _
  extract_lets +onlyGivenNames q4
  refine SafeStep.nx ?_
  refine SafeStep.trans ?_ (State.post_safe ..)
  refine SafeStep.trans ?_ (State.modLane_safe ..)
  refine SafeStep.trans ?_ (State.modLane_safe ..)
  refine SafeStep.trans ?_ (State.at__safe ..)
  exact SafeStep.refl _

theorem execLaserFailure_safe (t port lane bias : Nat) (lowPower : Bool) (s : State) : ∀ v : State, execLaserFailure t port lane bias lowPower s = .next v → SafeStep s v := by
  unfold execLaserFailure
  extract_lets +onlyGivenNames q1
  refine SafeStep.nxIte ?_ ?_
  refine SafeStep.nx ?_
  refine SafeStep.trans ?_ (State.at__safe ..)
  exact SafeStep.refl _
  extract_lets +onlyGivenNames q2
  refine SafeStep.nx ?_
  refine SafeStep.trans ?_ (State.failLane_safe ..)
  refine SafeStep.trans ?_ (State.modLane_safe ..)
  refine SafeStep.trans ?_ (State.at__safe ..)
  exact SafeStep.refl _

theorem execPortL0p_safe (t port width : Nat) (s : State) : ∀ v : State, execPortL0p t port width s = .next v → SafeStep s v := by
  unfold execPortL0p
  extract_lets +onlyGivenNames q1
  extract_lets +onlyGivenNames q2
  refine SafeStep.nxIte ?_ ?_
  refine SafeStep.nx ?_
  refine SafeStep.trans ?_ (State.setGroup_safe ..)
  refine SafeStep.trans ?_ (State.modPort_safe ..)
  refine SafeStep.trans ?_ (State.at__safe ..)
  exact SafeStep.refl _
  refine SafeStep.nx ?_
  refine SafeStep.trans ?_ (State.at__safe ..)
  exact SafeStep.refl _

theorem execPortL1Entry_safe (t port : Nat) (s : State) : ∀ v : State, execPortL1Entry t port s = .next v → SafeStep s v := by
  unfold execPortL1Entry
  extract_lets +onlyGivenNames q1
  extract_lets +onlyGivenNames q2
  refine SafeStep.nxIte ?_ ?_
  refine SafeStep.nx ?_
  refine SafeStep.trans ?_ (State.modPort_safe ..)
  refine SafeStep.trans ?_ (State.at__safe ..)
  exact SafeStep.refl _
  refine SafeStep.nx ?_
  refine SafeStep.trans ?_ (State.at__safe ..)
  exact SafeStep.refl _

theorem execPortL2Entry_safe (t port : Nat) (s : State) : ∀ v : State, execPortL2Entry t port s = .next v → SafeStep s v := by
  unfold execPortL2Entry
  extract_lets +onlyGivenNames q1
  refine SafeStep.nxIte ?_ ?_
  refine SafeStep.nx ?_
  refine SafeStep.trans ?_ (State.setGroup_safe ..)
  refine SafeStep.trans ?_ (State.modPort_safe ..)
  refine SafeStep.trans ?_ (State.at__safe ..)
  exact SafeStep.refl _
  refine SafeStep.nx ?_
  refine SafeStep.trans ?_ (State.at__safe ..)
  exact SafeStep.refl _

theorem execPeerStandbyTimeout_safe (t port : Nat) (s : State) : ∀ v : State, execPeerStandbyTimeout t port s = .next v → SafeStep s v := by
  unfold execPeerStandbyTimeout
  extract_lets +onlyGivenNames q1
  extract_lets +onlyGivenNames q2
  refine SafeStep.nxIte ?_ ?_
  refine SafeStep.nx ?_
  refine SafeStep.trans ?_ (State.modPort_safe ..)
  refine SafeStep.trans ?_ (State.at__safe ..)
  exact SafeStep.refl _
  refine SafeStep.nx ?_
  refine SafeStep.trans ?_ (State.at__safe ..)
  exact SafeStep.refl _

theorem execPortExitToActive_safe (t port : Nat) (s : State) : ∀ v : State, execPortExitToActive t port s = .next v → SafeStep s v := by
  unfold execPortExitToActive
  extract_lets +onlyGivenNames q1
  extract_lets +onlyGivenNames q2
  refine SafeStep.nxIte ?_ ?_
  refine SafeStep.nx ?_
  refine SafeStep.trans ?_ (State.at__safe ..)
  exact SafeStep.refl _
  split
  refine SafeStep.nx ?_
  refine SafeStep.trans ?_ (State.at__safe ..)
  exact SafeStep.refl _
  refine SafeStep.nx ?_
  refine SafeStep.trans ?_ (State.pump_safe ..)
  refine SafeStep.trans ?_ (State.setGroup_safe ..)
  refine SafeStep.trans ?_ (State.modPort_safe ..)
  refine SafeStep.trans ?_ (State.at__safe ..)
  exact SafeStep.refl _
  refine SafeStep.nx ?_
  refine SafeStep.trans ?_ (State.pump_safe ..)
  refine SafeStep.trans ?_ (State.setGroup_safe ..)
  refine SafeStep.trans ?_ (State.modPort_safe ..)
  refine SafeStep.trans ?_ (State.at__safe ..)
  exact SafeStep.refl _
  refine SafeStep.nxIte ?_ ?_
  refine SafeStep.nx ?_
  refine SafeStep.trans ?_ (State.at__safe ..)
  exact SafeStep.refl _
  refine SafeStep.nx ?_
  refine SafeStep.trans ?_ (State.modPort_safe ..)
  refine SafeStep.trans ?_ (State.at__safe ..)
  exact SafeStep.refl _

theorem execRetrainLink_safe (ld : Nat) (s : State) : ∀ v : State, execRetrainLink ld s = .next v → SafeStep s v := by
  unfold execRetrainLink
  refine SafeStep.nxIte ?_ ?_
  refine SafeStep.nx ?_
  refine SafeStep.trans ?_ (State.recap_safe ..)
  refine SafeStep.trans ?_ (State.retrain_safe ..)
  exact SafeStep.refl _
  refine SafeStep.nx ?_
  exact SafeStep.refl _

theorem execRetrainPort_safe (h : MbHdr) (port : Nat) (s : State) : ∀ v : State, execRetrainPort h port s = .next v → SafeStep s v := by
  unfold execRetrainPort
  refine SafeStep.nx ?_
  refine SafeStep.trans ?_ (State.mbBg_safe _ _ _ _ _ ?_)
  exact SafeStep.refl _
  refine SafeStep.exIte ?_ ?_
  exact SafeStep.exErr
  extract_lets +onlyGivenNames q1
  refine SafeStep.exOk ?_
  refine SafeStep.ite ?_ ?_
  refine SafeStep.trans ?_ (State.recap_safe ..)
  refine SafeStep.trans ?_ (State.retrain_safe ..)
  exact SafeStep.refl _
  refine SafeStep.trans ?_ (State.retrain_safe ..)
  exact SafeStep.refl _

theorem execSetPeerPort_safe (h : MbHdr) (port enable standby grace : Nat) (s : State) : ∀ v : State, execSetPeerPort h port enable standby grace s = .next v → SafeStep s v := by
  unfold execSetPeerPort
  refine SafeStep.nx ?_
  refine SafeStep.trans ?_ (State.mbRun_safe _ _ _ _ ?_)
  exact SafeStep.refl _
  refine SafeStep.okIte ?_ ?_
  exact SafeStep.okErr
  extract_lets +onlyGivenNames q1
  extract_lets +onlyGivenNames q2
  refine SafeStep.okIte ?_ ?_
  refine SafeStep.okOk ?_
  dsimp only
  refine SafeStep.trans ?_ (State.modPort_safe ..)
  refine SafeStep.trans ?_ (State.modPort_safe ..)
  exact SafeStep.refl _
  refine SafeStep.okIte ?_ ?_
  refine SafeStep.okOk ?_
  dsimp only
  refine SafeStep.trans ?_ (State.modPort_safe ..)
  refine SafeStep.trans ?_ (State.modPort_safe ..)
  exact SafeStep.refl _
  refine SafeStep.okOk ?_
  dsimp only
  refine SafeStep.trans ?_ (State.modPort_safe ..)
  exact SafeStep.refl _

theorem State.telemetry_safe (s : State) (port : Nat) (y0 : Nat) (y1 : Nat) : SafeStep s (State.telemetry s port y0 y1).2 := by
  induction y0 generalizing s y1 with
  | zero =>
    unfold State.telemetry
    exact SafeStep.refl _
  | succ n ih =>
    unfold State.telemetry
    extract_lets +onlyGivenNames q1
    extract_lets +onlyGivenNames q2
    extract_lets +onlyGivenNames q3
    extract_lets +onlyGivenNames q4
    extract_lets +onlyGivenNames q5
    extract_lets +onlyGivenNames q6
    dsimp only
    refine SafeStep.trans ?_ (ih ..)
    refine SafeStep.trans ?_ (State.free_safe ..)
    refine SafeStep.trans ?_ (State.free_safe ..)
    exact SafeStep.refl _

theorem execGetPortTelemetry_safe (h : MbHdr) (port : Nat) (s : State) : ∀ v : State, execGetPortTelemetry h port s = .next v → SafeStep s v := by
  unfold execGetPortTelemetry
  refine SafeStep.nx ?_
  refine SafeStep.trans ?_ (State.mbRun_safe _ _ _ _ ?_)
  exact SafeStep.refl _
  refine SafeStep.okIte ?_ ?_
  exact SafeStep.okErr
  extract_lets +onlyGivenNames q1
  refine SafeStep.okOk ?_
  dsimp only
  refine SafeStep.trans ?_ (State.telemetry_safe ..)
  exact SafeStep.refl _

theorem State.takeWord_safe (s : State) (port : Nat) (x : Nat × LaneWord) : SafeStep s (State.takeWord s port x) := by
  unfold State.takeWord
  extract_lets +onlyGivenNames q1
  refine SafeStep.trans ?_ (State.modLane_safe ..)
  exact SafeStep.refl _

theorem State.takeWords_safe (s : State) (port : Nat) (ws : List (Nat × LaneWord)) : SafeStep s (State.takeWords s port ws) := by
  unfold State.takeWords
  refine SafeStep.foldl ?_ (fun s x => ?_)
  exact SafeStep.refl _
  refine SafeStep.trans ?_ (State.takeWord_safe ..)
  exact SafeStep.refl _

theorem stateOf_safe {s u : State} {r : Res} (h : ∀ v, r = .next v → SafeStep u v) (k : SafeStep u s) : SafeStep u (stateOf r s) := by
  unfold stateOf
  split
  · exact h _ rfl
  · exact k

theorem goMeaning_safe (g : GoWrite) (opcode : Nat) (s : State) : ∀ v, goMeaning g opcode s = .next v → SafeStep s v := by
  unfold goMeaning
  split
  · exact execGateNop_safe g s
  · exact execAppendAttend_safe g s
  · exact execPrefixAttach_safe g s
  · exact execChunkPrefill_safe g s
  · exact execPrefixPublish_safe g s
  · exact execSeqTruncate_safe g s
  · exact execGraphSearch_safe g s
  · exact execDistanceBatch_safe g s
  · exact execSetIntersect_safe g s
  · exact execSetUnion_safe g s
  · exact execSetDifference_safe g s
  · exact execTenant_safe g s
  · exact execGateOpcodeReserved_safe g opcode s

theorem State.gateWrite_safe (s : State) (ld dpa : Nat) (data : Bytes) (enables : BitVec 64) (poison : Bool) :
    SafeStep s (s.gateWrite ld dpa data enables poison) := by
  unfold State.gateWrite
  split
  · exact State.modGateLd_safe ..
  · extract_lets line x
    refine SafeStep.ite (State.slotWrite_safe ..) (SafeStep.ite (State.modGateLd_safe ..) ?_)
    exact stateOf_safe (goMeaning_safe _ _ _) (SafeStep.refl _)

theorem State.hostWrite_safe (s : State) (ld dpa tag : Nat) (data : Bytes) (enables : BitVec 64) (poison muted : Bool) : SafeStep s (State.hostWrite s ld dpa tag data enables poison muted) := by
  unfold State.hostWrite
  extract_lets +onlyGivenNames q1
  extract_lets +onlyGivenNames q2
  split
  unfold q1
  refine SafeStep.ite ?_ ?_
  refine SafeStep.trans ?_ (State.drop_safe ..)
  refine SafeStep.trans ?_ (State.settleLeaving_safe ..)
  exact SafeStep.refl _
  refine SafeStep.trans ?_ (State.send_safe ..)
  refine SafeStep.trans ?_ (State.drop_safe ..)
  refine SafeStep.trans ?_ (State.settleLeaving_safe ..)
  exact SafeStep.refl _
  unfold q1
  refine SafeStep.ite ?_ ?_
  refine SafeStep.trans ?_ (State.drop_safe ..)
  refine SafeStep.trans ?_ (State.settleLeaving_safe ..)
  exact SafeStep.refl _
  refine SafeStep.trans ?_ (State.send_safe ..)
  refine SafeStep.trans ?_ (State.drop_safe ..)
  refine SafeStep.trans ?_ (State.settleLeaving_safe ..)
  exact SafeStep.refl _
  refine SafeStep.ite ?_ ?_
  unfold q1
  refine SafeStep.ite ?_ ?_
  refine SafeStep.trans ?_ (State.gateWrite_safe ..)
  refine SafeStep.trans ?_ (State.settleLeaving_safe ..)
  exact SafeStep.refl _
  refine SafeStep.trans ?_ (State.send_safe ..)
  refine SafeStep.trans ?_ (State.gateWrite_safe ..)
  refine SafeStep.trans ?_ (State.settleLeaving_safe ..)
  exact SafeStep.refl _
  refine SafeStep.trans ?_ (State.writeLine_safe ..)
  refine SafeStep.trans ?_ (State.settleLeaving_safe ..)
  exact SafeStep.refl _

theorem State.hostRead_safe (s : State) (ld dpa tag upset : Nat) : SafeStep s (State.hostRead s ld dpa tag upset) := by
  unfold State.hostRead
  extract_lets +onlyGivenNames q1
  split
  refine SafeStep.trans ?_ (State.send_safe ..)
  refine SafeStep.trans ?_ (State.drop_safe ..)
  refine SafeStep.trans ?_ (State.settleLeaving_safe ..)
  exact SafeStep.refl _
  refine SafeStep.trans ?_ (State.send_safe ..)
  refine SafeStep.trans ?_ (State.drop_safe ..)
  refine SafeStep.trans ?_ (State.settleLeaving_safe ..)
  exact SafeStep.refl _
  refine SafeStep.ite ?_ ?_
  refine SafeStep.trans ?_ (State.gateRead_safe ..)
  refine SafeStep.trans ?_ (State.settleLeaving_safe ..)
  exact SafeStep.refl _
  refine SafeStep.trans ?_ (State.readLine_safe ..)
  refine SafeStep.trans ?_ (State.settleLeaving_safe ..)
  exact SafeStep.refl _

theorem State.wakePort_safe (s : State) (port : Nat) : SafeStep s (State.wakePort s port) := by
  unfold State.wakePort
  refine SafeStep.ite ?_ ?_
  refine SafeStep.trans ?_ (State.setGroup_safe ..)
  refine SafeStep.trans ?_ (State.modPort_safe ..)
  exact SafeStep.refl _
  exact SafeStep.refl _

theorem State.badLdid_safe (s : State) (port : Nat) : SafeStep s (State.badLdid s port) := by
  unfold State.badLdid
  refine SafeStep.trans ?_ (State.modCxe_safe ..)
  exact SafeStep.refl _

theorem State.noDecoder_safe (s : State) (ld : Nat) : SafeStep s (State.noDecoder s ld) := by
  unfold State.noDecoder
  refine SafeStep.trans ?_ (State.modCxeLd_safe ..)
  exact SafeStep.refl _

theorem State.biRequest_safe (s : State) (ld dpa tag : Nat) (e : Extent) (write : Bool) (mv : MetaVal) (data : Bytes) (enables : BitVec 64) (poison : Bool) (upset : Nat) : SafeStep s (State.biRequest s ld dpa tag e write mv data enables poison upset) := by
  unfold State.biRequest
  refine SafeStep.trans ?_ (State.acceptBi_safe ..)
  exact SafeStep.refl _

theorem State.holdReq_safe (s : State) (ld dpa tag : Nat) (write : Bool) : SafeStep s (State.holdReq s ld dpa tag write) := by
  unfold State.holdReq
  refine SafeStep.trans ?_ (SafeStep.modBoot (fun _ => rfl))
  exact SafeStep.refl _

theorem execCxlMemRead_safe (port ldid hpa tag : Nat) (mv : MetaVal) (upset : Nat) (s : State) : ∀ v : State, execCxlMemRead port ldid hpa tag mv upset s = .next v → SafeStep s v := by
  unfold execCxlMemRead
  refine SafeStep.nxIte ?_ ?_
  refine SafeStep.nx ?_
  exact SafeStep.refl _
  extract_lets +onlyGivenNames q1
  refine SafeStep.nxIte ?_ ?_
  refine SafeStep.nx ?_
  refine SafeStep.trans ?_ (State.send_safe ..)
  refine SafeStep.trans ?_ (State.badLdid_safe ..)
  refine SafeStep.trans ?_ (State.wakePort_safe ..)
  exact SafeStep.refl _
  split
  refine SafeStep.nx ?_
  refine SafeStep.trans ?_ (State.send_safe ..)
  refine SafeStep.trans ?_ (State.noDecoder_safe ..)
  refine SafeStep.trans ?_ (State.wakePort_safe ..)
  exact SafeStep.refl _
  extract_lets +onlyGivenNames q2
  refine SafeStep.nxIte ?_ ?_
  refine SafeStep.nx ?_
  refine SafeStep.trans ?_ (State.holdReq_safe ..)
  refine SafeStep.trans ?_ (State.wakePort_safe ..)
  exact SafeStep.refl _
  split
  refine SafeStep.nxIte ?_ ?_
  refine SafeStep.nx ?_
  refine SafeStep.trans ?_ (State.gateRead_safe ..)
  refine SafeStep.trans ?_ (State.wakePort_safe ..)
  exact SafeStep.refl _
  refine SafeStep.nx ?_
  refine SafeStep.trans ?_ (State.biRequest_safe ..)
  refine SafeStep.trans ?_ (State.wakePort_safe ..)
  exact SafeStep.refl _
  refine SafeStep.nx ?_
  refine SafeStep.trans ?_ (State.hostRead_safe ..)
  refine SafeStep.trans ?_ (State.wakePort_safe ..)
  exact SafeStep.refl _

theorem execCxlMemWrite_safe (port ldid hpa tag : Nat) (data : Bytes) (enables : BitVec 64) (poison : Bool) (s : State) : ∀ v : State, execCxlMemWrite port ldid hpa tag data enables poison s = .next v → SafeStep s v := by
  unfold execCxlMemWrite
  refine SafeStep.nxIte ?_ ?_
  refine SafeStep.nx ?_
  exact SafeStep.refl _
  extract_lets +onlyGivenNames q1
  refine SafeStep.nxIte ?_ ?_
  refine SafeStep.nx ?_
  refine SafeStep.trans ?_ (State.send_safe ..)
  refine SafeStep.trans ?_ (State.badLdid_safe ..)
  refine SafeStep.trans ?_ (State.wakePort_safe ..)
  exact SafeStep.refl _
  extract_lets +onlyGivenNames q2
  split
  refine SafeStep.nx ?_
  refine SafeStep.trans ?_ (State.send_safe ..)
  refine SafeStep.trans ?_ (State.noDecoder_safe ..)
  refine SafeStep.trans ?_ (State.poisonSeen_safe ..)
  refine SafeStep.trans ?_ (State.wakePort_safe ..)
  exact SafeStep.refl _
  extract_lets +onlyGivenNames q3
  refine SafeStep.nxIte ?_ ?_
  refine SafeStep.nx ?_
  refine SafeStep.trans ?_ (State.holdReq_safe ..)
  refine SafeStep.trans ?_ (State.poisonSeen_safe ..)
  refine SafeStep.trans ?_ (State.wakePort_safe ..)
  exact SafeStep.refl _
  split
  refine SafeStep.nxIte ?_ ?_
  refine SafeStep.nx ?_
  refine SafeStep.trans ?_ (State.hostWrite_safe ..)
  refine SafeStep.trans ?_ (State.poisonSeen_safe ..)
  refine SafeStep.trans ?_ (State.wakePort_safe ..)
  exact SafeStep.refl _
  refine SafeStep.nx ?_
  refine SafeStep.trans ?_ (State.biRequest_safe ..)
  refine SafeStep.trans ?_ (State.poisonSeen_safe ..)
  refine SafeStep.trans ?_ (State.wakePort_safe ..)
  exact SafeStep.refl _
  refine SafeStep.nx ?_
  refine SafeStep.trans ?_ (State.hostWrite_safe ..)
  refine SafeStep.trans ?_ (State.poisonSeen_safe ..)
  refine SafeStep.trans ?_ (State.wakePort_safe ..)
  exact SafeStep.refl _

theorem execBadLdId_safe (port ldid kind tag : Nat) (s : State) : ∀ v : State, execBadLdId port ldid kind tag s = .next v → SafeStep s v := by
  unfold execBadLdId
  refine SafeStep.nxIte ?_ ?_
  refine SafeStep.nx ?_
  exact SafeStep.refl _
  refine SafeStep.nxIte ?_ ?_
  refine SafeStep.nx ?_
  exact SafeStep.refl _
  extract_lets +onlyGivenNames q1
  split
  refine SafeStep.nx ?_
  refine SafeStep.trans ?_ (State.send_safe ..)
  refine SafeStep.trans ?_ (State.badLdid_safe ..)
  exact SafeStep.refl _
  refine SafeStep.nx ?_
  refine SafeStep.trans ?_ (State.send_safe ..)
  refine SafeStep.trans ?_ (State.badLdid_safe ..)
  exact SafeStep.refl _
  refine SafeStep.nx ?_
  refine SafeStep.trans ?_ (State.send_safe ..)
  refine SafeStep.trans ?_ (State.badLdid_safe ..)
  exact SafeStep.refl _

theorem State.badMsg_safe (s : State) : SafeStep s (State.badMsg s) := by
  unfold State.badMsg
  refine SafeStep.trans ?_ (State.modPorts_safe ..)
  exact SafeStep.refl _

theorem State.onPeer_safe (s : State) (p : PeerHdr) (ptype : Nat) (f : State → State) (hf : ∀ v, SafeStep v (f v)) :
    SafeStep s (s.onPeer p ptype f) := by
  unfold State.onPeer
  refine SafeStep.ite (SafeStep.refl _) (SafeStep.ite ?_ ?_)
  · exact SafeStep.trans (State.modPort_safe ..) (State.badMsg_safe ..)
  · exact SafeStep.trans (State.modPort_safe ..) (hf _)

theorem State.answerPeer_safe (s : State) (p : PeerHdr) (status : Nat) : SafeStep s (State.answerPeer s p status) := by
  unfold State.answerPeer
  extract_lets +onlyGivenNames q1
  extract_lets +onlyGivenNames q2
  extract_lets +onlyGivenNames q3
  refine SafeStep.trans ?_ (State.sendPeer_safe ..)
  refine SafeStep.trans ?_ (State.modPorts_safe ..)
  exact SafeStep.refl _

theorem State.provisional_safe (s : State) (p : PeerHdr) (ld : Nat) (blks : List Nat) : SafeStep s (State.provisional s p ld blks) := by
  unfold State.provisional
  refine SafeStep.ite ?_ ?_
  refine SafeStep.trans ?_ (State.modResult_safe ..)
  exact SafeStep.refl _
  extract_lets +onlyGivenNames q1
  refine SafeStep.trans ?_ (State.modRiLd_safe ..)
  refine SafeStep.trans ?_ (State.modResult_safe ..)
  exact SafeStep.refl _

theorem execPwr_safe (p : PeerHdr) (data : Bytes) (s : State) : ∀ v : State, execPwr p data s = .next v → SafeStep s v := by
  unfold execPwr
  refine SafeStep.nx ?_
  refine SafeStep.trans ?_ (State.onPeer_safe _ _ _ _ ?_)
  exact SafeStep.refl _
  intro _
  extract_lets +onlyGivenNames q1
  refine SafeStep.ite ?_ ?_
  refine SafeStep.trans ?_ (State.answerPeer_safe ..)
  exact SafeStep.refl _
  extract_lets +onlyGivenNames q2
  extract_lets +onlyGivenNames q3
  extract_lets +onlyGivenNames q4
  refine SafeStep.trans ?_ (State.answerPeer_safe ..)
  refine SafeStep.ite ?_ ?_
  refine SafeStep.trans ?_ (State.provisional_safe ..)
  refine SafeStep.foldl ?_ (fun s x => ?_)
  exact SafeStep.refl _
  refine SafeStep.trans ?_ (State.hostWrite_safe ..)
  exact SafeStep.refl _
  refine SafeStep.foldl ?_ (fun s x => ?_)
  exact SafeStep.refl _
  refine SafeStep.trans ?_ (State.hostWrite_safe ..)
  exact SafeStep.refl _

theorem State.resend_safe (s : State) (k : Packet) : SafeStep s (State.resend s k) := by
  unfold State.resend
  extract_lets +onlyGivenNames q1
  extract_lets +onlyGivenNames q2
  refine SafeStep.trans ?_ (State.transmit_safe ..)
  refine SafeStep.trans ?_ (State.modPacket_safe ..)
  exact SafeStep.refl _

theorem State.packetOk_safe (s : State) (k : Packet) : SafeStep s (State.packetOk s k) := by
  unfold State.packetOk
  extract_lets +onlyGivenNames q1
  refine SafeStep.ite ?_ ?_
  refine SafeStep.trans ?_ (State.modPorts_safe ..)
  exact SafeStep.refl _
  split
  refine SafeStep.trans ?_ (State.modPorts_safe ..)
  exact SafeStep.refl _
  extract_lets +onlyGivenNames q2
  extract_lets +onlyGivenNames q3
  extract_lets +onlyGivenNames q4
  refine SafeStep.trans ?_ (State.sweepFwds_safe ..)
  refine SafeStep.ite ?_ ?_
  refine SafeStep.trans ?_ (State.modFwdLd_safe ..)
  refine SafeStep.trans ?_ (State.modFwd_safe ..)
  refine SafeStep.trans ?_ (State.modPorts_safe ..)
  exact SafeStep.refl _
  refine SafeStep.trans ?_ (State.modFwd_safe ..)
  refine SafeStep.trans ?_ (State.modPorts_safe ..)
  exact SafeStep.refl _

theorem State.provFull_safe (s : State) (id : Nat) : SafeStep s (State.provFull s id) := by
  unfold State.provFull
  split
  exact SafeStep.refl _
  extract_lets +onlyGivenNames q1
  refine SafeStep.ite ?_ ?_
  extract_lets +onlyGivenNames q2
  refine SafeStep.ite ?_ ?_
  refine SafeStep.trans ?_ (State.startForward_safe ..)
  refine SafeStep.trans ?_ (State.sweepFwds_safe ..)
  refine SafeStep.trans ?_ (State.modRiLd_safe ..)
  refine SafeStep.trans ?_ (State.modPorts_safe ..)
  exact SafeStep.refl _
  refine SafeStep.trans ?_ (State.sweepFwds_safe ..)
  refine SafeStep.trans ?_ (State.modPorts_safe ..)
  exact SafeStep.refl _
  refine SafeStep.trans ?_ (State.flushSettles_safe ..)
  refine SafeStep.trans ?_ (State.modFwd_safe ..)
  refine SafeStep.trans ?_ (State.modPorts_safe ..)
  exact SafeStep.refl _

theorem execPack_safe (p : PeerHdr) (s : State) : ∀ v : State, execPack p s = .next v → SafeStep s v := by
  unfold execPack
  refine SafeStep.nx ?_
  refine SafeStep.trans ?_ (State.onPeer_safe _ _ _ _ ?_)
  exact SafeStep.refl _
  intro _
  split
  refine SafeStep.trans ?_ (State.badMsg_safe ..)
  exact SafeStep.refl _
  split
  refine SafeStep.trans ?_ (State.pump_safe ..)
  refine SafeStep.trans ?_ (State.packetOk_safe ..)
  exact SafeStep.refl _
  refine SafeStep.trans ?_ (State.modPacket_safe ..)
  exact SafeStep.refl _
  extract_lets +onlyGivenNames q1
  refine SafeStep.ite ?_ ?_
  refine SafeStep.trans ?_ (State.modPacket_safe ..)
  unfold q1
  split
  refine SafeStep.trans ?_ (State.modFwdLd_safe ..)
  exact SafeStep.refl _
  exact SafeStep.refl _
  refine SafeStep.trans ?_ (State.resend_safe ..)
  unfold q1
  split
  refine SafeStep.trans ?_ (State.modFwdLd_safe ..)
  exact SafeStep.refl _
  exact SafeStep.refl _
  refine SafeStep.ite ?_ ?_
  refine SafeStep.trans ?_ (State.pump_safe ..)
  refine SafeStep.trans ?_ (State.packetOk_safe ..)
  exact SafeStep.refl _
  refine SafeStep.trans ?_ (State.pump_safe ..)
  refine SafeStep.trans ?_ (State.failForward_safe ..)
  exact SafeStep.refl _
  refine SafeStep.ite ?_ ?_
  refine SafeStep.trans ?_ (State.pump_safe ..)
  refine SafeStep.trans ?_ (State.packetOk_safe ..)
  exact SafeStep.refl _
  refine SafeStep.trans ?_ (State.pump_safe ..)
  refine SafeStep.trans ?_ (State.failForward_safe ..)
  exact SafeStep.refl _
  refine SafeStep.ite ?_ ?_
  refine SafeStep.trans ?_ (State.pump_safe ..)
  refine SafeStep.trans ?_ (State.packetOk_safe ..)
  exact SafeStep.refl _
  refine SafeStep.trans ?_ (State.pump_safe ..)
  refine SafeStep.trans ?_ (State.failForward_safe ..)
  exact SafeStep.refl _
  refine SafeStep.ite ?_ ?_
  refine SafeStep.trans ?_ (State.badMsg_safe ..)
  exact SafeStep.refl _
  refine SafeStep.trans ?_ (State.pump_safe ..)
  refine SafeStep.trans ?_ (State.provFull_safe ..)
  exact SafeStep.refl _
  refine SafeStep.trans ?_ (State.badMsg_safe ..)
  exact SafeStep.refl _

theorem State.dropProv_safe (s : State) (node fwdid : Nat) : SafeStep s (State.dropProv s node fwdid) := by
  unfold State.dropProv
  refine SafeStep.trans ?_ (State.modResult_safe ..)
  exact SafeStep.refl _

theorem State.retractBlock_safe (s : State) (blk : Nat) : SafeStep s (State.retractBlock s blk) := by
  unfold State.retractBlock
  extract_lets +onlyGivenNames q1
  extract_lets +onlyGivenNames q2
  with_reducible refine SafeStep.trans ?_ (SafeStep.fields rfl rfl rfl rfl)
  refine SafeStep.trans ?_ (State.poisonBlock_safe ..)
  refine SafeStep.trans ?_ (State.dropT0_safe ..)
  refine SafeStep.trans ?_ (SafeStep.modStore (fun _ => rfl) (fun _ => rfl) (fun _ => rfl))
  exact SafeStep.refl _

theorem State.cascade_safe (s : State) (b : Nat) : SafeStep s (State.cascade s b) := by
  unfold State.cascade
  extract_lets +onlyGivenNames q1
  extract_lets +onlyGivenNames q2
  refine SafeStep.trans ?_ (State.finish_safe ..)
  refine SafeStep.trans ?_ (State.stopPieces_safe ..)
  refine SafeStep.ite ?_ ?_
  refine SafeStep.trans ?_ (State.modResult_safe ..)
  exact SafeStep.refl _
  exact SafeStep.refl _

theorem State.retract_safe (s : State) (e : Prov) (cause : Nat) (m : Settle) : SafeStep s (State.retract s e cause m) := by
  unfold State.retract
  extract_lets +onlyGivenNames q1
  extract_lets +onlyGivenNames q2
  extract_lets +onlyGivenNames q3
  extract_lets +onlyGivenNames q4
  extract_lets +onlyGivenNames q5
  extract_lets +onlyGivenNames q6
  refine SafeStep.trans ?_ (State.ledger_safe ..)
  refine SafeStep.trans ?_ (State.modRiLd_safe ..)
  refine SafeStep.trans ?_ (State.dropProv_safe ..)
  refine SafeStep.foldl ?_ (fun s x => ?_)
  refine SafeStep.foldl ?_ (fun s x => ?_)
  exact SafeStep.refl _
  refine SafeStep.trans ?_ (State.retractBlock_safe ..)
  exact SafeStep.refl _
  refine SafeStep.trans ?_ (State.cascade_safe ..)
  exact SafeStep.refl _

theorem execPsettleConfirm_safe (p : PeerHdr) (m : Settle) (s : State) : ∀ v : State, execPsettleConfirm p m s = .next v → SafeStep s v := by
  unfold execPsettleConfirm
  refine SafeStep.nx ?_
  refine SafeStep.trans ?_ (State.onPeer_safe _ _ _ _ ?_)
  exact SafeStep.refl _
  intro _
  split
  exact SafeStep.refl _
  extract_lets +onlyGivenNames q1
  refine SafeStep.foldl ?_ (fun s x => ?_)
  refine SafeStep.trans ?_ (State.dropProv_safe ..)
  exact SafeStep.refl _
  refine SafeStep.trans ?_ (State.tryRelease_safe ..)
  exact SafeStep.refl _

theorem execPsettleRetract_safe (p : PeerHdr) (m : Settle) (s : State) : ∀ v : State, execPsettleRetract p m s = .next v → SafeStep s v := by
  unfold execPsettleRetract
  refine SafeStep.nx ?_
  refine SafeStep.trans ?_ (State.onPeer_safe _ _ _ _ ?_)
  exact SafeStep.refl _
  intro _
  split
  exact SafeStep.refl _
  refine SafeStep.trans ?_ (State.retract_safe ..)
  exact SafeStep.refl _

theorem execPsettleExtend_safe (p : PeerHdr) (m : Settle) (s : State) : ∀ v : State, execPsettleExtend p m s = .next v → SafeStep s v := by
  unfold execPsettleExtend
  refine SafeStep.nx ?_
  refine SafeStep.trans ?_ (State.onPeer_safe _ _ _ _ ?_)
  exact SafeStep.refl _
  intro _
  refine SafeStep.trans ?_ (State.modResult_safe ..)
  exact SafeStep.refl _

theorem execPsettleKindZero_safe (p : PeerHdr) (_m : Settle) (s : State) : ∀ v : State, execPsettleKindZero p _m s = .next v → SafeStep s v := by
  unfold execPsettleKindZero
  refine SafeStep.nx ?_
  refine SafeStep.trans ?_ (State.onPeer_safe _ _ _ _ ?_)
  exact SafeStep.refl _
  intro _
  refine SafeStep.trans ?_ (State.badMsg_safe ..)
  exact SafeStep.refl _

theorem execProvisionalTimeout_safe (t node fwdid : Nat) (s : State) : ∀ v : State, execProvisionalTimeout t node fwdid s = .next v → SafeStep s v := by
  unfold execProvisionalTimeout
  extract_lets +onlyGivenNames q1
  split
  refine SafeStep.nx ?_
  refine SafeStep.trans ?_ (State.at__safe ..)
  exact SafeStep.refl _
  refine SafeStep.nxIte ?_ ?_
  refine SafeStep.nx ?_
  refine SafeStep.trans ?_ (State.retract_safe ..)
  refine SafeStep.trans ?_ (State.at__safe ..)
  exact SafeStep.refl _
  refine SafeStep.nx ?_
  refine SafeStep.trans ?_ (State.at__safe ..)
  exact SafeStep.refl _

theorem execForwardExtendTimer_safe (t fwdid : Nat) (s : State) : ∀ v : State, execForwardExtendTimer t fwdid s = .next v → SafeStep s v := by
  unfold execForwardExtendTimer
  extract_lets +onlyGivenNames q1
  split
  refine SafeStep.nxIte ?_ ?_
  refine SafeStep.nx ?_
  refine SafeStep.trans ?_ (State.putSettle_safe ..)
  refine SafeStep.trans ?_ (State.modFwd_safe ..)
  refine SafeStep.trans ?_ (State.at__safe ..)
  exact SafeStep.refl _
  refine SafeStep.nx ?_
  refine SafeStep.trans ?_ (State.at__safe ..)
  exact SafeStep.refl _
  refine SafeStep.nx ?_
  refine SafeStep.trans ?_ (State.at__safe ..)
  exact SafeStep.refl _

theorem execPdigest_safe (p : PeerHdr) (key : Nat) (digest : BitVec 256) (_turn : Nat) (changed : Bool) (s : State) : ∀ v : State, execPdigest p key digest _turn changed s = .next v → SafeStep s v := by
  unfold execPdigest
  refine SafeStep.nx ?_
  refine SafeStep.trans ?_ (State.onPeer_safe _ _ _ _ ?_)
  exact SafeStep.refl _
  intro _
  extract_lets +onlyGivenNames q1
  extract_lets +onlyGivenNames q2
  refine SafeStep.ite ?_ ?_
  refine SafeStep.trans ?_ (State.answerPeer_safe ..)
  exact SafeStep.refl _
  split
  refine SafeStep.trans ?_ (State.answerPeer_safe ..)
  exact SafeStep.refl _
  refine SafeStep.ite ?_ ?_
  refine SafeStep.trans ?_ (State.answerPeer_safe ..)
  exact SafeStep.refl _
  extract_lets +onlyGivenNames q3
  extract_lets +onlyGivenNames q4
  refine SafeStep.trans ?_ (State.ledger_safe ..)
  refine SafeStep.trans ?_ (State.modRiLd_safe ..)
  refine SafeStep.trans ?_ (State.answerPeer_safe ..)
  exact SafeStep.refl _

theorem execPnode_safe (p : PeerHdr) (node : Nat) (s : State) : ∀ v : State, execPnode p node s = .next v → SafeStep s v := by
  unfold execPnode
  refine SafeStep.nx ?_
  refine SafeStep.trans ?_ (State.onPeer_safe _ _ _ _ ?_)
  exact SafeStep.refl _
  intro _
  refine SafeStep.trans ?_ (State.modPort_safe ..)
  exact SafeStep.refl _

theorem execPeerBadMessage_safe (p : PeerHdr) (s : State) : ∀ v : State, execPeerBadMessage p s = .next v → SafeStep s v := by
  unfold execPeerBadMessage
  refine SafeStep.nx ?_
  refine SafeStep.ite ?_ ?_
  refine SafeStep.trans ?_ (State.badMsg_safe ..)
  exact SafeStep.refl _
  exact SafeStep.refl _

theorem execPwrPendingResend_safe (t port tag : Nat) (s : State) : ∀ v : State, execPwrPendingResend t port tag s = .next v → SafeStep s v := by
  unfold execPwrPendingResend
  extract_lets +onlyGivenNames q1
  split
  refine SafeStep.nxIte ?_ ?_
  refine SafeStep.nx ?_
  refine SafeStep.trans ?_ (State.resend_safe ..)
  refine SafeStep.trans ?_ (State.at__safe ..)
  exact SafeStep.refl _
  refine SafeStep.nx ?_
  refine SafeStep.trans ?_ (State.at__safe ..)
  exact SafeStep.refl _
  refine SafeStep.nx ?_
  refine SafeStep.trans ?_ (State.at__safe ..)
  exact SafeStep.refl _

theorem execForwardTimeout_safe (t fwdid : Nat) (s : State) : ∀ v : State, execForwardTimeout t fwdid s = .next v → SafeStep s v := by
  unfold execForwardTimeout
  extract_lets +onlyGivenNames q1
  split
  refine SafeStep.nx ?_
  refine SafeStep.trans ?_ (State.at__safe ..)
  exact SafeStep.refl _
  refine SafeStep.nxIte ?_ ?_
  refine SafeStep.nx ?_
  refine SafeStep.trans ?_ (State.pump_safe ..)
  refine SafeStep.trans ?_ (State.packetOk_safe ..)
  refine SafeStep.trans ?_ (State.at__safe ..)
  exact SafeStep.refl _
  extract_lets +onlyGivenNames q2
  extract_lets +onlyGivenNames q3
  refine SafeStep.nx ?_
  refine SafeStep.trans ?_ (State.pump_safe ..)
  refine SafeStep.trans ?_ (State.failForward_safe ..)
  refine SafeStep.iteP ?_ ?_
  dsimp only
  refine SafeStep.trans ?_ (State.at__safe ..)
  exact SafeStep.refl _
  refine SafeStep.iteP ?_ ?_
  dsimp only
  refine SafeStep.trans ?_ (State.at__safe ..)
  exact SafeStep.refl _
  dsimp only
  refine SafeStep.trans ?_ (State.free_safe ..)
  refine SafeStep.trans ?_ (State.at__safe ..)
  exact SafeStep.refl _

theorem execPeerGraceEnd_safe (t port window : Nat) (s : State) : ∀ v : State, execPeerGraceEnd t port window s = .next v → SafeStep s v := by
  unfold execPeerGraceEnd
  extract_lets +onlyGivenNames q1
  extract_lets +onlyGivenNames q2
  refine SafeStep.nxIte ?_ ?_
  refine SafeStep.nx ?_
  refine SafeStep.trans ?_ (State.setWindow_safe ..)
  refine SafeStep.trans ?_ (State.at__safe ..)
  exact SafeStep.refl _
  refine SafeStep.nx ?_
  refine SafeStep.trans ?_ (State.at__safe ..)
  exact SafeStep.refl _

theorem execSetNodeIdentifier_safe (h : MbHdr) (node : Nat) (s : State) : ∀ v : State, execSetNodeIdentifier h node s = .next v → SafeStep s v := by
  unfold execSetNodeIdentifier
  refine SafeStep.nx ?_
  refine SafeStep.trans ?_ (State.mbRun_safe _ _ _ _ ?_)
  exact SafeStep.refl _
  refine SafeStep.okIte ?_ ?_
  exact SafeStep.okErr
  extract_lets +onlyGivenNames q1
  refine SafeStep.okOk ?_
  dsimp only
  refine SafeStep.foldl ?_ (fun s x => ?_)
  refine SafeStep.trans ?_ (State.modPorts_safe ..)
  exact SafeStep.refl _
  refine SafeStep.ite ?_ ?_
  refine SafeStep.trans ?_ (State.sendPeer_safe ..)
  exact SafeStep.refl _
  exact SafeStep.refl _

theorem execSetPeerWindow_safe (h : MbHdr) (port window : Nat) (w : PeerWin) (s : State) : ∀ v : State, execSetPeerWindow h port window w s = .next v → SafeStep s v := by
  unfold execSetPeerWindow
  refine SafeStep.nx ?_
  refine SafeStep.trans ?_ (State.mbRun_safe _ _ _ _ ?_)
  exact SafeStep.refl _
  extract_lets +onlyGivenNames q1
  refine SafeStep.okIte ?_ ?_
  exact SafeStep.okErr
  extract_lets +onlyGivenNames q2
  refine SafeStep.okOk ?_
  dsimp only
  refine SafeStep.trans ?_ (State.setWindow_safe ..)
  exact SafeStep.refl _

theorem execCommitPeerWindow_safe (h : MbHdr) (port window : Nat) (s : State) : ∀ v : State, execCommitPeerWindow h port window s = .next v → SafeStep s v := by
  unfold execCommitPeerWindow
  refine SafeStep.nx ?_
  refine SafeStep.trans ?_ (State.mbRun_safe _ _ _ _ ?_)
  exact SafeStep.refl _
  refine SafeStep.okIte ?_ ?_
  exact SafeStep.okErr
  extract_lets +onlyGivenNames q1
  extract_lets +onlyGivenNames q2
  extract_lets +onlyGivenNames q3
  extract_lets +onlyGivenNames q4
  extract_lets +onlyGivenNames q5
  extract_lets +onlyGivenNames q6
  refine SafeStep.okOk ?_
  dsimp only
  refine SafeStep.trans ?_ (State.pump_safe ..)
  refine SafeStep.foldl ?_ (fun s x => ?_)
  refine SafeStep.ite ?_ ?_
  refine SafeStep.trans ?_ (State.modResult_safe ..)
  refine SafeStep.trans ?_ (State.unbind_safe ..)
  refine SafeStep.trans ?_ (State.setWindow_safe ..)
  exact SafeStep.refl _
  refine SafeStep.trans ?_ (State.setWindow_safe ..)
  exact SafeStep.refl _
  refine SafeStep.trans ?_ (State.resend_safe ..)
  exact SafeStep.refl _

theorem execGetPeerWindow_safe (h : MbHdr) (port window : Nat) (s : State) : ∀ v : State, execGetPeerWindow h port window s = .next v → SafeStep s v := by
  unfold execGetPeerWindow
  refine SafeStep.nx ?_
  refine SafeStep.trans ?_ (State.mbRun_safe _ _ _ _ ?_)
  exact SafeStep.refl _
  extract_lets +onlyGivenNames q1
  refine SafeStep.okIte ?_ ?_
  exact SafeStep.okErr
  refine SafeStep.okOk ?_
  exact SafeStep.refl _

theorem execBindSlotForward_safe (h : MbHdr) (dpa port window offset : Nat) (s : State) : ∀ v : State, execBindSlotForward h dpa port window offset s = .next v → SafeStep s v := by
  unfold execBindSlotForward
  refine SafeStep.nx ?_
  refine SafeStep.trans ?_ (State.mbRun_safe _ _ _ _ ?_)
  exact SafeStep.refl _
  split
  exact SafeStep.okErr
  extract_lets +onlyGivenNames q1
  refine SafeStep.okIte ?_ ?_
  exact SafeStep.okErr
  extract_lets +onlyGivenNames q2
  refine SafeStep.okOk ?_
  dsimp only
  refine SafeStep.trans ?_ (State.modPorts_safe ..)
  refine SafeStep.trans ?_ (State.unbind_safe ..)
  exact SafeStep.refl _

theorem execUnbindSlotForward_safe (h : MbHdr) (dpa : Nat) (s : State) : ∀ v : State, execUnbindSlotForward h dpa s = .next v → SafeStep s v := by
  unfold execUnbindSlotForward
  refine SafeStep.nx ?_
  refine SafeStep.trans ?_ (State.mbRun_safe _ _ _ _ ?_)
  exact SafeStep.refl _
  split
  exact SafeStep.okErr
  refine SafeStep.okIte ?_ ?_
  exact SafeStep.okErr
  refine SafeStep.okOk ?_
  dsimp only
  refine SafeStep.trans ?_ (State.unbind_safe ..)
  exact SafeStep.refl _

theorem execHdmDecoderCommit_safe (ld k : Nat) (d : HdmSetup) (s : State) : ∀ v : State, execHdmDecoderCommit ld k d s = .next v → SafeStep s v := by
  unfold execHdmDecoderCommit
  refine SafeStep.nxIte ?_ ?_
  refine SafeStep.nx ?_
  exact SafeStep.refl _
  extract_lets +onlyGivenNames q1
  extract_lets +onlyGivenNames q2
  extract_lets +onlyGivenNames q3
  extract_lets +onlyGivenNames q4
  refine SafeStep.nx ?_
  refine SafeStep.ite ?_ ?_
  unfold q2
  refine SafeStep.trans ?_ (State.modCxe_safe ..)
  exact SafeStep.refl _
  unfold q2
  refine SafeStep.trans ?_ (State.modCxe_safe ..)
  exact SafeStep.refl _

theorem execHotReset_safe (t port : Nat) (s : State) : ∀ v : State, execHotReset t port s = .next v → SafeStep s v := by
  unfold execHotReset
  extract_lets +onlyGivenNames q1
  refine SafeStep.nxIte ?_ ?_
  refine SafeStep.nx ?_
  refine SafeStep.trans ?_ (State.portReset_safe ..)
  refine SafeStep.trans ?_ (State.at__safe ..)
  exact SafeStep.refl _
  refine SafeStep.nx ?_
  refine SafeStep.trans ?_ (State.at__safe ..)
  exact SafeStep.refl _

theorem execLinkDown_safe (t port : Nat) (s : State) : ∀ v : State, execLinkDown t port s = .next v → SafeStep s v := by
  unfold execLinkDown
  extract_lets +onlyGivenNames q1
  refine SafeStep.nxIte ?_ ?_
  refine SafeStep.nx ?_
  refine SafeStep.trans ?_ (State.portReset_safe ..)
  refine SafeStep.trans ?_ (State.at__safe ..)
  exact SafeStep.refl _
  refine SafeStep.nx ?_
  refine SafeStep.trans ?_ (State.at__safe ..)
  exact SafeStep.refl _

theorem execLdIdHotReset_safe (t : Nat) (vector : BitVec 16) (s : State) : ∀ v : State, execLdIdHotReset t vector s = .next v → SafeStep s v := by
  unfold execLdIdHotReset
  extract_lets +onlyGivenNames q1
  refine SafeStep.nxIte ?_ ?_
  refine SafeStep.nx ?_
  refine SafeStep.foldl ?_ (fun s x => ?_)
  refine SafeStep.trans ?_ (State.at__safe ..)
  exact SafeStep.refl _
  refine SafeStep.trans ?_ (State.ldReset_safe ..)
  exact SafeStep.refl _
  refine SafeStep.nx ?_
  refine SafeStep.trans ?_ (State.at__safe ..)
  exact SafeStep.refl _

theorem execCxlReset_safe (t ld : Nat) (memClear : Bool) (s : State) : ∀ v : State, execCxlReset t ld memClear s = .next v → SafeStep s v := by
  unfold execCxlReset
  extract_lets +onlyGivenNames q1
  refine SafeStep.nxIte ?_ ?_
  refine SafeStep.nx ?_
  refine SafeStep.trans ?_ (State.ldReset_safe ..)
  refine SafeStep.trans ?_ (State.at__safe ..)
  exact SafeStep.refl _
  refine SafeStep.nx ?_
  refine SafeStep.trans ?_ (State.at__safe ..)
  exact SafeStep.refl _

theorem execFlr_safe (t ld : Nat) (s : State) : ∀ v : State, execFlr t ld s = .next v → SafeStep s v := by
  unfold execFlr
  extract_lets +onlyGivenNames q1
  refine SafeStep.nxIte ?_ ?_
  refine SafeStep.nx ?_
  refine SafeStep.trans ?_ (State.at__safe ..)
  exact SafeStep.refl _
  refine SafeStep.nxIte ?_ ?_
  refine SafeStep.nx ?_
  refine SafeStep.trans ?_ (State.stopJob_safe ..)
  refine SafeStep.trans ?_ (State.at__safe ..)
  exact SafeStep.refl _
  refine SafeStep.nxIte ?_ ?_
  refine SafeStep.nx ?_
  refine SafeStep.trans ?_ (State.at__safe ..)
  exact SafeStep.refl _
  refine SafeStep.nx ?_
  refine SafeStep.trans ?_ (State.modCxeLd_safe ..)
  refine SafeStep.trans ?_ (State.ldReset_safe ..)
  refine SafeStep.trans ?_ (State.at__safe ..)
  exact SafeStep.refl _

theorem execCxlRsvdEncoding_safe (port : Nat) (flit : Bytes) (s : State) : ∀ v : State, execCxlRsvdEncoding port flit s = .next v → SafeStep s v := by
  unfold execCxlRsvdEncoding
  refine SafeStep.nxIte ?_ ?_
  refine SafeStep.nx ?_
  refine SafeStep.trans ?_ (State.onPort_safe _ _ _ ?_)
  exact SafeStep.refl _
  intro _ _
  refine SafeStep.trans ?_ (State.rasUnc_safe ..)
  exact SafeStep.refl _
  refine SafeStep.nx ?_
  exact SafeStep.refl _

theorem execCxlIoPoisonedWrite_safe (ld : Nat) (header : Bytes) (s : State) : ∀ v : State, execCxlIoPoisonedWrite ld header s = .next v → SafeStep s v := by
  unfold execCxlIoPoisonedWrite
  refine SafeStep.nxIte ?_ ?_
  refine SafeStep.nx ?_
  refine SafeStep.trans ?_ (State.aerUnc_safe ..)
  exact SafeStep.refl _
  refine SafeStep.nx ?_
  exact SafeStep.refl _

theorem execFlitCrcFailure_safe (port : Nat) (e : FlitErr) (header : Bytes) (s : State) : ∀ v : State, execFlitCrcFailure port e header s = .next v → SafeStep s v := by
  unfold execFlitCrcFailure
  refine SafeStep.nxIte ?_ ?_
  refine SafeStep.nx ?_
  exact SafeStep.refl _
  refine SafeStep.nxIte ?_ ?_
  refine SafeStep.nx ?_
  refine SafeStep.trans ?_ (State.takeWords_safe ..)
  exact SafeStep.refl _
  extract_lets +onlyGivenNames q1
  extract_lets +onlyGivenNames q2
  extract_lets +onlyGivenNames q3
  extract_lets +onlyGivenNames q4
  extract_lets +onlyGivenNames q5
  refine SafeStep.nx ?_
  refine SafeStep.ite ?_ ?_
  refine SafeStep.trans ?_ (State.onPort_safe _ _ _ ?_)
  refine SafeStep.ite ?_ ?_
  refine SafeStep.trans ?_ (State.onPort_safe _ _ _ ?_)
  refine SafeStep.ite ?_ ?_
  refine SafeStep.trans ?_ (State.onPort_safe _ _ _ ?_)
  refine SafeStep.ite ?_ ?_
  refine SafeStep.trans ?_ (State.onPort_safe _ _ _ ?_)
  refine SafeStep.trans ?_ (State.onPort_safe _ _ _ ?_)
  refine SafeStep.trans ?_ (State.takeWords_safe ..)
  exact SafeStep.refl _
  intro _ _
  refine SafeStep.trans ?_ (State.aerCor_safe ..)
  exact SafeStep.refl _
  intro _ _
  refine SafeStep.trans ?_ (State.rasCor_safe ..)
  exact SafeStep.refl _
  refine SafeStep.trans ?_ (State.onPort_safe _ _ _ ?_)
  refine SafeStep.trans ?_ (State.takeWords_safe ..)
  exact SafeStep.refl _
  intro _ _
  refine SafeStep.trans ?_ (State.aerCor_safe ..)
  exact SafeStep.refl _
  intro _ _
  refine SafeStep.trans ?_ (State.aerCor_safe ..)
  exact SafeStep.refl _
  refine SafeStep.ite ?_ ?_
  refine SafeStep.trans ?_ (State.onPort_safe _ _ _ ?_)
  refine SafeStep.trans ?_ (State.onPort_safe _ _ _ ?_)
  refine SafeStep.trans ?_ (State.takeWords_safe ..)
  exact SafeStep.refl _
  intro _ _
  refine SafeStep.trans ?_ (State.aerCor_safe ..)
  exact SafeStep.refl _
  intro _ _
  refine SafeStep.trans ?_ (State.rasCor_safe ..)
  exact SafeStep.refl _
  refine SafeStep.trans ?_ (State.onPort_safe _ _ _ ?_)
  refine SafeStep.trans ?_ (State.takeWords_safe ..)
  exact SafeStep.refl _
  intro _ _
  refine SafeStep.trans ?_ (State.aerCor_safe ..)
  exact SafeStep.refl _
  intro _ _
  refine SafeStep.trans ?_ (State.rasCor_safe ..)
  exact SafeStep.refl _
  refine SafeStep.ite ?_ ?_
  refine SafeStep.trans ?_ (State.onPort_safe _ _ _ ?_)
  refine SafeStep.ite ?_ ?_
  refine SafeStep.trans ?_ (State.onPort_safe _ _ _ ?_)
  refine SafeStep.trans ?_ (State.onPort_safe _ _ _ ?_)
  refine SafeStep.trans ?_ (State.takeWords_safe ..)
  exact SafeStep.refl _
  intro _ _
  refine SafeStep.trans ?_ (State.aerCor_safe ..)
  exact SafeStep.refl _
  intro _ _
  refine SafeStep.trans ?_ (State.rasCor_safe ..)
  exact SafeStep.refl _
  refine SafeStep.trans ?_ (State.onPort_safe _ _ _ ?_)
  refine SafeStep.trans ?_ (State.takeWords_safe ..)
  exact SafeStep.refl _
  intro _ _
  refine SafeStep.trans ?_ (State.aerCor_safe ..)
  exact SafeStep.refl _
  intro _ _
  refine SafeStep.trans ?_ (State.aerCor_safe ..)
  exact SafeStep.refl _
  refine SafeStep.ite ?_ ?_
  refine SafeStep.trans ?_ (State.onPort_safe _ _ _ ?_)
  refine SafeStep.trans ?_ (State.onPort_safe _ _ _ ?_)
  refine SafeStep.trans ?_ (State.takeWords_safe ..)
  exact SafeStep.refl _
  intro _ _
  refine SafeStep.trans ?_ (State.aerCor_safe ..)
  exact SafeStep.refl _
  intro _ _
  refine SafeStep.trans ?_ (State.rasCor_safe ..)
  exact SafeStep.refl _
  refine SafeStep.trans ?_ (State.onPort_safe _ _ _ ?_)
  refine SafeStep.trans ?_ (State.takeWords_safe ..)
  exact SafeStep.refl _
  intro _ _
  refine SafeStep.trans ?_ (State.aerCor_safe ..)
  exact SafeStep.refl _
  intro _ _
  refine SafeStep.trans ?_ (State.rasCor_safe ..)
  exact SafeStep.refl _
  refine SafeStep.ite ?_ ?_
  refine SafeStep.trans ?_ (State.onPort_safe _ _ _ ?_)
  refine SafeStep.ite ?_ ?_
  refine SafeStep.trans ?_ (State.onPort_safe _ _ _ ?_)
  refine SafeStep.ite ?_ ?_
  refine SafeStep.trans ?_ (State.onPort_safe _ _ _ ?_)
  refine SafeStep.trans ?_ (State.onPort_safe _ _ _ ?_)
  refine SafeStep.trans ?_ (State.takeWords_safe ..)
  exact SafeStep.refl _
  intro _ _
  refine SafeStep.trans ?_ (State.aerCor_safe ..)
  exact SafeStep.refl _
  intro _ _
  refine SafeStep.trans ?_ (State.rasCor_safe ..)
  exact SafeStep.refl _
  refine SafeStep.trans ?_ (State.onPort_safe _ _ _ ?_)
  refine SafeStep.trans ?_ (State.takeWords_safe ..)
  exact SafeStep.refl _
  intro _ _
  refine SafeStep.trans ?_ (State.aerCor_safe ..)
  exact SafeStep.refl _
  intro _ _
  refine SafeStep.trans ?_ (State.aerCor_safe ..)
  exact SafeStep.refl _
  refine SafeStep.ite ?_ ?_
  refine SafeStep.trans ?_ (State.onPort_safe _ _ _ ?_)
  refine SafeStep.trans ?_ (State.onPort_safe _ _ _ ?_)
  refine SafeStep.trans ?_ (State.takeWords_safe ..)
  exact SafeStep.refl _
  intro _ _
  refine SafeStep.trans ?_ (State.aerCor_safe ..)
  exact SafeStep.refl _
  intro _ _
  refine SafeStep.trans ?_ (State.rasCor_safe ..)
  exact SafeStep.refl _
  refine SafeStep.trans ?_ (State.onPort_safe _ _ _ ?_)
  refine SafeStep.trans ?_ (State.takeWords_safe ..)
  exact SafeStep.refl _
  intro _ _
  refine SafeStep.trans ?_ (State.aerCor_safe ..)
  exact SafeStep.refl _
  intro _ _
  refine SafeStep.trans ?_ (State.rasCor_safe ..)
  exact SafeStep.refl _
  refine SafeStep.ite ?_ ?_
  refine SafeStep.trans ?_ (State.onPort_safe _ _ _ ?_)
  refine SafeStep.ite ?_ ?_
  refine SafeStep.trans ?_ (State.onPort_safe _ _ _ ?_)
  refine SafeStep.trans ?_ (State.onPort_safe _ _ _ ?_)
  refine SafeStep.trans ?_ (State.takeWords_safe ..)
  exact SafeStep.refl _
  intro _ _
  refine SafeStep.trans ?_ (State.aerCor_safe ..)
  exact SafeStep.refl _
  intro _ _
  refine SafeStep.trans ?_ (State.rasCor_safe ..)
  exact SafeStep.refl _
  refine SafeStep.trans ?_ (State.onPort_safe _ _ _ ?_)
  refine SafeStep.trans ?_ (State.takeWords_safe ..)
  exact SafeStep.refl _
  intro _ _
  refine SafeStep.trans ?_ (State.aerCor_safe ..)
  exact SafeStep.refl _
  intro _ _
  refine SafeStep.trans ?_ (State.aerCor_safe ..)
  exact SafeStep.refl _
  refine SafeStep.ite ?_ ?_
  refine SafeStep.trans ?_ (State.onPort_safe _ _ _ ?_)
  refine SafeStep.trans ?_ (State.onPort_safe _ _ _ ?_)
  refine SafeStep.trans ?_ (State.takeWords_safe ..)
  exact SafeStep.refl _
  intro _ _
  refine SafeStep.trans ?_ (State.aerCor_safe ..)
  exact SafeStep.refl _
  intro _ _
  refine SafeStep.trans ?_ (State.rasCor_safe ..)
  exact SafeStep.refl _
  refine SafeStep.trans ?_ (State.onPort_safe _ _ _ ?_)
  refine SafeStep.trans ?_ (State.takeWords_safe ..)
  exact SafeStep.refl _
  intro _ _
  refine SafeStep.trans ?_ (State.aerCor_safe ..)
  exact SafeStep.refl _

theorem execBusMasterDisable_safe (ld : Nat) (s : State) : ∀ v : State, execBusMasterDisable ld s = .next v → SafeStep s v := by
  unfold execBusMasterDisable
  refine SafeStep.nxIte ?_ ?_
  refine SafeStep.nx ?_
  exact SafeStep.refl _
  extract_lets +onlyGivenNames q1
  extract_lets +onlyGivenNames q2
  refine SafeStep.nx ?_
  refine SafeStep.ite ?_ ?_
  refine SafeStep.trans ?_ (State.endJob_safe ..)
  refine SafeStep.trans ?_ (State.modCxe_safe ..)
  exact SafeStep.refl _
  refine SafeStep.trans ?_ (State.modCxe_safe ..)
  exact SafeStep.refl _

theorem execBusMasterEnable_safe (ld : Nat) (s : State) : ∀ v : State, execBusMasterEnable ld s = .next v → SafeStep s v := by
  unfold execBusMasterEnable
  refine SafeStep.nxIte ?_ ?_
  refine SafeStep.nx ?_
  exact SafeStep.refl _
  extract_lets +onlyGivenNames q1
  extract_lets +onlyGivenNames q2
  refine SafeStep.nx ?_
  refine SafeStep.foldl ?_ (fun s x => ?_)
  refine SafeStep.trans ?_ (State.modCxe_safe ..)
  exact SafeStep.refl _
  refine SafeStep.trans ?_ (State.send_safe ..)
  exact SafeStep.refl _

theorem execDmaCompletion_safe (t ld tag : Nat) (_data : Bytes) (s : State) : ∀ v : State, execDmaCompletion t ld tag _data s = .next v → SafeStep s v := by
  unfold execDmaCompletion
  extract_lets +onlyGivenNames q1
  refine SafeStep.nxIte ?_ ?_
  refine SafeStep.nx ?_
  refine SafeStep.trans ?_ (State.at__safe ..)
  exact SafeStep.refl _
  split
  refine SafeStep.nx ?_
  refine SafeStep.trans ?_ (State.aerUnc_safe ..)
  refine SafeStep.trans ?_ (State.at__safe ..)
  exact SafeStep.refl _
  extract_lets +onlyGivenNames q2
  extract_lets +onlyGivenNames q3
  refine SafeStep.nxIte ?_ ?_
  refine SafeStep.nx ?_
  refine SafeStep.trans ?_ (State.modCxe_safe ..)
  refine SafeStep.trans ?_ (State.at__safe ..)
  exact SafeStep.refl _
  refine SafeStep.nxIte ?_ ?_
  refine SafeStep.nx ?_
  refine SafeStep.trans ?_ (State.modCxeLd_safe ..)
  refine SafeStep.trans ?_ (State.modCxe_safe ..)
  refine SafeStep.trans ?_ (State.at__safe ..)
  exact SafeStep.refl _
  refine SafeStep.nx ?_
  refine SafeStep.trans ?_ (State.modCxeLd_safe ..)
  refine SafeStep.trans ?_ (State.modCxe_safe ..)
  refine SafeStep.trans ?_ (State.at__safe ..)
  exact SafeStep.refl _

theorem execDmaCompletionTimeout_safe (t ld tag : Nat) (s : State) : ∀ v : State, execDmaCompletionTimeout t ld tag s = .next v → SafeStep s v := by
  unfold execDmaCompletionTimeout
  extract_lets +onlyGivenNames q1
  split
  refine SafeStep.nx ?_
  refine SafeStep.trans ?_ (State.at__safe ..)
  exact SafeStep.refl _
  refine SafeStep.nxIte ?_ ?_
  extract_lets +onlyGivenNames q2
  extract_lets +onlyGivenNames q3
  refine SafeStep.nx ?_
  refine SafeStep.trans ?_ (State.endJob_safe ..)
  refine SafeStep.trans ?_ (State.aerUnc_safe ..)
  refine SafeStep.trans ?_ (State.modCxeLd_safe ..)
  refine SafeStep.trans ?_ (State.modCxe_safe ..)
  refine SafeStep.trans ?_ (State.at__safe ..)
  exact SafeStep.refl _
  refine SafeStep.nx ?_
  refine SafeStep.trans ?_ (State.at__safe ..)
  exact SafeStep.refl _

theorem execIdeIntegrityFail_safe (t port : Nat) (s : State) : ∀ v : State, execIdeIntegrityFail t port s = .next v → SafeStep s v := by
  unfold execIdeIntegrityFail
  extract_lets +onlyGivenNames q1
  refine SafeStep.nxIte ?_ ?_
  refine SafeStep.nx ?_
  refine SafeStep.trans ?_ (State.at__safe ..)
  exact SafeStep.refl _
  extract_lets +onlyGivenNames q2
  extract_lets +onlyGivenNames q3
  extract_lets +onlyGivenNames q4
  refine SafeStep.nx ?_
  refine SafeStep.trans ?_ (State.modCxe_safe ..)
  refine SafeStep.trans ?_ (State.portReset_safe ..)
  refine SafeStep.trans ?_ (State.modCxe_safe ..)
  refine SafeStep.trans ?_ (State.onPort_safe _ _ _ ?_)
  refine SafeStep.trans ?_ (State.at__safe ..)
  exact SafeStep.refl _
  intro _ _
  refine SafeStep.trans ?_ (State.rasUnc_safe ..)
  exact SafeStep.refl _

theorem execIdeKeyProgram_safe (ld session : Nat) (activate : Bool) (s : State) : ∀ v : State, execIdeKeyProgram ld session activate s = .next v → SafeStep s v := by
  unfold execIdeKeyProgram
  refine SafeStep.nxIte ?_ ?_
  refine SafeStep.nx ?_
  exact SafeStep.refl _
  extract_lets +onlyGivenNames q1
  extract_lets +onlyGivenNames q2
  extract_lets +onlyGivenNames q3
  refine SafeStep.nx ?_
  refine SafeStep.trans ?_ (State.send_safe ..)
  refine SafeStep.trans ?_ (State.modCxe_safe ..)
  refine SafeStep.trans ?_ (SafeStep.fieldsF rfl rfl rfl rfl)
  exact SafeStep.refl _

theorem execCdatTableAccess_safe (ld : Nat) (s : State) : ∀ v : State, execCdatTableAccess ld s = .next v → SafeStep s v := by
  unfold execCdatTableAccess
  refine SafeStep.nxIte ?_ ?_
  refine SafeStep.nx ?_
  exact SafeStep.refl _
  extract_lets +onlyGivenNames q1
  extract_lets +onlyGivenNames q2
  extract_lets +onlyGivenNames q3
  refine SafeStep.nx ?_
  refine SafeStep.trans ?_ (State.send_safe ..)
  exact SafeStep.refl _

theorem execSpdmGetMeasurements_safe (ld index : Nat) (signed : Bool) (s : State) : ∀ v : State, execSpdmGetMeasurements ld index signed s = .next v → SafeStep s v := by
  unfold execSpdmGetMeasurements
  refine SafeStep.nxIte ?_ ?_
  refine SafeStep.nx ?_
  exact SafeStep.refl _
  refine SafeStep.nxIte ?_ ?_
  refine SafeStep.nx ?_
  refine SafeStep.trans ?_ (State.send_safe ..)
  exact SafeStep.refl _
  refine SafeStep.nxIte ?_ ?_
  refine SafeStep.nx ?_
  refine SafeStep.trans ?_ (State.send_safe ..)
  exact SafeStep.refl _
  extract_lets +onlyGivenNames q1
  refine SafeStep.nx ?_
  refine SafeStep.trans ?_ (State.send_safe ..)
  exact SafeStep.refl _

theorem execSpdmKeyExchange_safe (ld : Nat) (s : State) : ∀ v : State, execSpdmKeyExchange ld s = .next v → SafeStep s v := by
  unfold execSpdmKeyExchange
  refine SafeStep.nxIte ?_ ?_
  refine SafeStep.nx ?_
  exact SafeStep.refl _
  extract_lets +onlyGivenNames q1
  refine SafeStep.nxIte ?_ ?_
  refine SafeStep.nx ?_
  refine SafeStep.trans ?_ (State.send_safe ..)
  exact SafeStep.refl _
  extract_lets +onlyGivenNames q2
  extract_lets +onlyGivenNames q3
  extract_lets +onlyGivenNames q4
  extract_lets +onlyGivenNames q5
  refine SafeStep.nx ?_
  refine SafeStep.trans ?_ (State.send_safe ..)
  refine SafeStep.trans ?_ (State.modCxe_safe ..)
  refine SafeStep.trans ?_ (SafeStep.fieldsF rfl rfl rfl rfl)
  exact SafeStep.refl _

theorem execSpdmEndSession_safe (ld session : Nat) (s : State) : ∀ v : State, execSpdmEndSession ld session s = .next v → SafeStep s v := by
  unfold execSpdmEndSession
  refine SafeStep.nx ?_
  refine SafeStep.trans ?_ (State.modCxe_safe ..)
  exact SafeStep.refl _

theorem execD3hotEntry_safe (ld : Nat) (toD3 : Bool) (s : State) : ∀ v : State, execD3hotEntry ld toD3 s = .next v → SafeStep s v := by
  unfold execD3hotEntry
  refine SafeStep.nxIte ?_ ?_
  refine SafeStep.nx ?_
  refine SafeStep.trans ?_ (State.modCxeLd_safe ..)
  exact SafeStep.refl _
  refine SafeStep.nx ?_
  exact SafeStep.refl _

theorem execGetModuleStatus_safe (h : MbHdr) (s : State) : ∀ v : State, execGetModuleStatus h s = .next v → SafeStep s v := by
  unfold execGetModuleStatus
  refine SafeStep.nx ?_
  refine SafeStep.trans ?_ (State.mbRun_safe _ _ _ _ ?_)
  exact SafeStep.refl _
  refine SafeStep.okOk ?_
  exact SafeStep.refl _

theorem execGetUnitMap_safe (h : MbHdr) (s : State) : ∀ v : State, execGetUnitMap h s = .next v → SafeStep s v := by
  unfold execGetUnitMap
  refine SafeStep.nx ?_
  refine SafeStep.trans ?_ (State.mbRun_safe _ _ _ _ ?_)
  exact SafeStep.refl _
  refine SafeStep.okOk ?_
  exact SafeStep.refl _

theorem execStagePartitionRequest_safe (h : MbHdr) (p : Part) (s : State) : ∀ v : State, execStagePartitionRequest h p s = .next v → SafeStep s v := by
  unfold execStagePartitionRequest
  refine SafeStep.nx ?_
  refine SafeStep.trans ?_ (State.mbPartsBg_safe _ _ _ _ _ _ ?_)
  exact SafeStep.refl _
  intro _ _ 
  refine SafeStep.exOk ?_
  exact SafeStep.refl _

theorem State.stageReq_safe (s : State) (img : Bytes) : SafeStep s (State.stageReq s img).2 := by
  unfold State.stageReq
  extract_lets +onlyGivenNames q1
  refine SafeStep.iteP ?_ ?_
  dsimp only
  refine SafeStep.trans ?_ (SafeStep.modBoot (fun _ => rfl))
  exact SafeStep.refl _
  extract_lets +onlyGivenNames q2
  dsimp only
  refine SafeStep.trans ?_ (SafeStep.modBoot (fun _ => rfl))
  exact SafeStep.refl _

theorem State.setKey_safe (s : State) (ld : Nat) (key : Option (BitVec 512)) : SafeStep s (State.setKey s ld key) := by
  unfold State.setKey
  with_reducible refine SafeStep.trans ?_ (SafeStep.fields rfl rfl rfl rfl)
  exact SafeStep.refl _

theorem State.applyReq_safe (s : State) (img : Bytes) : SafeStep s (State.applyReq s img) := by
  unfold State.applyReq
  extract_lets +onlyGivenNames q1
  extract_lets +onlyGivenNames q2
  extract_lets +onlyGivenNames q3
  extract_lets +onlyGivenNames q4
  extract_lets +onlyGivenNames q5
  with_reducible refine SafeStep.trans ?_ (SafeStep.fields rfl rfl rfl rfl)
  refine SafeStep.trans ?_ (SafeStep.modBoot (fun _ => rfl))
  refine SafeStep.foldl ?_ (fun s x => ?_)
  exact SafeStep.refl _
  refine SafeStep.trans ?_ (State.endKey_safe ..)
  refine SafeStep.trans ?_ (State.setKey_safe ..)
  exact SafeStep.refl _

theorem State.applyStaged_safe (s : State) : SafeStep s (State.applyStaged s) := by
  unfold State.applyStaged
  split
  exact SafeStep.refl _
  extract_lets +onlyGivenNames q1
  extract_lets +onlyGivenNames q2
  extract_lets +onlyGivenNames q3
  refine SafeStep.trans ?_ (State.ledger_safe ..)
  refine SafeStep.ite ?_ ?_
  refine SafeStep.trans ?_ (State.applyReq_safe ..)
  refine SafeStep.trans ?_ (SafeStep.modBoot (fun _ => rfl))
  exact SafeStep.refl _
  refine SafeStep.trans ?_ (SafeStep.modBoot (fun _ => rfl))
  exact SafeStep.refl _

theorem execGetPartitionMap_safe (h : MbHdr) (o : OutReq) (s : State) : ∀ v : State, execGetPartitionMap h o s = .next v → SafeStep s v := by
  unfold execGetPartitionMap
  refine SafeStep.nx ?_
  refine SafeStep.trans ?_ (State.mbSnap_safe ..)
  exact SafeStep.refl _

theorem execGetStagedRequestStatus_safe (h : MbHdr) (s : State) : ∀ v : State, execGetStagedRequestStatus h s = .next v → SafeStep s v := by
  unfold execGetStagedRequestStatus
  refine SafeStep.nx ?_
  refine SafeStep.trans ?_ (State.mbRun_safe _ _ _ _ ?_)
  exact SafeStep.refl _
  refine SafeStep.okOk ?_
  exact SafeStep.refl _

theorem execDiscardStagedRequest_safe (h : MbHdr) (s : State) : ∀ v : State, execDiscardStagedRequest h s = .next v → SafeStep s v := by
  unfold execDiscardStagedRequest
  refine SafeStep.nx ?_
  refine SafeStep.trans ?_ (State.mbRun_safe _ _ _ _ ?_)
  exact SafeStep.refl _
  refine SafeStep.okOk ?_
  dsimp only
  refine SafeStep.ite ?_ ?_
  refine SafeStep.trans ?_ (SafeStep.modBoot (fun _ => rfl))
  exact SafeStep.refl _
  exact SafeStep.refl _

theorem execKeyLd_safe (h : MbHdr) (s : State) : ∀ v : State, execKeyLd h s = .next v → SafeStep s v := by
  unfold execKeyLd
  refine SafeStep.nx ?_
  refine SafeStep.trans ?_ (State.mbRun_safe _ _ _ _ ?_)
  exact SafeStep.refl _
  extract_lets +onlyGivenNames q1
  extract_lets +onlyGivenNames q2
  refine SafeStep.okIte ?_ ?_
  exact SafeStep.okErr
  split
  extract_lets +onlyGivenNames q3
  refine SafeStep.okOk ?_
  dsimp only
  refine SafeStep.trans ?_ (SafeStep.modBoot (fun _ => rfl))
  refine SafeStep.trans ?_ (State.setKey_safe ..)
  refine SafeStep.ite ?_ ?_
  refine SafeStep.trans ?_ (State.endKey_safe ..)
  refine SafeStep.snd (by assumption) ?_
  refine SafeStep.trans ?_ (State.newKey_safe ..)
  exact SafeStep.refl _
  refine SafeStep.snd (by assumption) ?_
  refine SafeStep.trans ?_ (State.newKey_safe ..)
  exact SafeStep.refl _

theorem execZeroiseLdKey_safe (h : MbHdr) (s : State) : ∀ v : State, execZeroiseLdKey h s = .next v → SafeStep s v := by
  unfold execZeroiseLdKey
  refine SafeStep.nx ?_
  refine SafeStep.trans ?_ (State.mbRun_safe _ _ _ _ ?_)
  exact SafeStep.refl _
  extract_lets +onlyGivenNames q1
  refine SafeStep.okIte ?_ ?_
  exact SafeStep.okErr
  refine SafeStep.okIte ?_ ?_
  refine SafeStep.okOk ?_
  exact SafeStep.refl _
  refine SafeStep.okOk ?_
  dsimp only
  refine SafeStep.trans ?_ (SafeStep.modBoot (fun _ => rfl))
  refine SafeStep.trans ?_ (State.setKey_safe ..)
  refine SafeStep.trans ?_ (State.endKey_safe ..)
  exact SafeStep.refl _

theorem execGetRegionProfile_safe (h : MbHdr) (region : Nat) (s : State) : ∀ v : State, execGetRegionProfile h region s = .next v → SafeStep s v := by
  unfold execGetRegionProfile
  refine SafeStep.nx ?_
  refine SafeStep.trans ?_ (State.mbRun_safe _ _ _ _ ?_)
  exact SafeStep.refl _
  refine SafeStep.okIte ?_ ?_
  exact SafeStep.okErr
  extract_lets +onlyGivenNames q1
  refine SafeStep.okOk ?_
  exact SafeStep.refl _

theorem execSetRegionProfile_safe (h : MbHdr) (region : Nat) (profile : Word) (s : State) : ∀ v : State, execSetRegionProfile h region profile s = .next v → SafeStep s v := by
  unfold execSetRegionProfile
  refine SafeStep.nx ?_
  refine SafeStep.trans ?_ (State.mbRun_safe _ _ _ _ ?_)
  exact SafeStep.refl _
  extract_lets +onlyGivenNames q1
  refine SafeStep.okIte ?_ ?_
  exact SafeStep.okErr
  refine SafeStep.okIte ?_ ?_
  exact SafeStep.okErr
  extract_lets +onlyGivenNames q2
  extract_lets +onlyGivenNames q3
  extract_lets +onlyGivenNames q4
  refine SafeStep.okOk ?_
  dsimp only
  refine SafeStep.trans ?_ (State.post_safe ..)
  refine SafeStep.trans ?_ (State.modCxe_safe ..)
  with_reducible refine SafeStep.trans ?_ (SafeStep.fields rfl rfl rfl rfl)
  exact SafeStep.refl _

theorem execGetExtentDescriptors_safe (h : MbHdr) (o : OutReq) (s : State) : ∀ v : State, execGetExtentDescriptors h o s = .next v → SafeStep s v := by
  unfold execGetExtentDescriptors
  refine SafeStep.nx ?_
  refine SafeStep.trans ?_ (State.mbSnap_safe ..)
  exact SafeStep.refl _

theorem execUnsupportedCommand_safe (h : MbHdr) (opcode : Nat) (s : State) : ∀ v : State, execUnsupportedCommand h opcode s = .next v → SafeStep s v := by
  unfold execUnsupportedCommand
  extract_lets +onlyGivenNames q1
  refine SafeStep.nx ?_
  refine SafeStep.ite ?_ ?_
  refine SafeStep.trans ?_ (State.answer_safe ..)
  exact SafeStep.refl _
  exact SafeStep.refl _

theorem execIdentifyMemoryDevice_safe (h : MbHdr) (s : State) : ∀ v : State, execIdentifyMemoryDevice h s = .next v → SafeStep s v := by
  unfold execIdentifyMemoryDevice
  refine SafeStep.nx ?_
  refine SafeStep.trans ?_ (State.mbRun_safe _ _ _ _ ?_)
  exact SafeStep.refl _
  refine SafeStep.okOk ?_
  exact SafeStep.refl _

theorem execGetSupportedLogs_safe (h : MbHdr) (s : State) : ∀ v : State, execGetSupportedLogs h s = .next v → SafeStep s v := by
  unfold execGetSupportedLogs
  refine SafeStep.nx ?_
  refine SafeStep.trans ?_ (State.mbRun_safe _ _ _ _ ?_)
  exact SafeStep.refl _
  refine SafeStep.okOk ?_
  exact SafeStep.refl _

theorem execGetLog_safe (h : MbHdr) (isCel : Bool) (offset length : Nat) (s : State) : ∀ v : State, execGetLog h isCel offset length s = .next v → SafeStep s v := by
  unfold execGetLog
  refine SafeStep.nx ?_
  refine SafeStep.trans ?_ (State.mbRun_safe _ _ _ _ ?_)
  exact SafeStep.refl _
  extract_lets +onlyGivenNames q1
  refine SafeStep.okIte ?_ ?_
  exact SafeStep.okErr
  refine SafeStep.okOk ?_
  exact SafeStep.refl _

theorem execGetEventRecords_safe (h : MbHdr) (log : Nat) (s : State) : ∀ v : State, execGetEventRecords h log s = .next v → SafeStep s v := by
  unfold execGetEventRecords
  refine SafeStep.nx ?_
  refine SafeStep.trans ?_ (State.mbRun_safe _ _ _ _ ?_)
  exact SafeStep.refl _
  refine SafeStep.okIte ?_ ?_
  exact SafeStep.okErr
  extract_lets +onlyGivenNames q1
  refine SafeStep.okOk ?_
  exact SafeStep.refl _

theorem execClearEventRecords_safe (h : MbHdr) (log : Nat) (all : Bool) (handles : List Nat) (s : State) : ∀ v : State, execClearEventRecords h log all handles s = .next v → SafeStep s v := by
  unfold execClearEventRecords
  refine SafeStep.nx ?_
  refine SafeStep.trans ?_ (State.mbRun_safe _ _ _ _ ?_)
  exact SafeStep.refl _
  extract_lets +onlyGivenNames q1
  extract_lets +onlyGivenNames q2
  refine SafeStep.okIte ?_ ?_
  exact SafeStep.okErr
  refine SafeStep.okIte ?_ ?_
  exact SafeStep.okErr
  extract_lets +onlyGivenNames q3
  refine SafeStep.okOk ?_
  dsimp only
  with_reducible refine SafeStep.trans ?_ (SafeStep.fields rfl rfl rfl rfl)
  exact SafeStep.refl _

theorem execGetEventInterruptPolicy_safe (h : MbHdr) (s : State) : ∀ v : State, execGetEventInterruptPolicy h s = .next v → SafeStep s v := by
  unfold execGetEventInterruptPolicy
  refine SafeStep.nx ?_
  refine SafeStep.trans ?_ (State.mbRun_safe _ _ _ _ ?_)
  exact SafeStep.refl _
  refine SafeStep.okOk ?_
  exact SafeStep.refl _

theorem execSetEventInterruptPolicy_safe (h : MbHdr) (modes : List Nat) (s : State) : ∀ v : State, execSetEventInterruptPolicy h modes s = .next v → SafeStep s v := by
  unfold execSetEventInterruptPolicy
  refine SafeStep.nx ?_
  refine SafeStep.trans ?_ (State.mbRun_safe _ _ _ _ ?_)
  exact SafeStep.refl _
  refine SafeStep.okIte ?_ ?_
  exact SafeStep.okErr
  extract_lets +onlyGivenNames q1
  refine SafeStep.okOk ?_
  dsimp only
  with_reducible refine SafeStep.trans ?_ (SafeStep.fields rfl rfl rfl rfl)
  exact SafeStep.refl _

theorem execGetFwInfo_safe (h : MbHdr) (s : State) : ∀ v : State, execGetFwInfo h s = .next v → SafeStep s v := by
  unfold execGetFwInfo
  refine SafeStep.nx ?_
  refine SafeStep.trans ?_ (State.mbRun_safe _ _ _ _ ?_)
  exact SafeStep.refl _
  extract_lets +onlyGivenNames q1
  refine SafeStep.okOk ?_
  exact SafeStep.refl _

theorem execTransferFw_safe (h : MbHdr) (slot : Nat) (p : Part) (s : State) : ∀ v : State, execTransferFw h slot p s = .next v → SafeStep s v := by
  unfold execTransferFw
  refine SafeStep.nx (State.mbParts_safe _ _ _ _ _ fun v img => ?_)
  refine SafeStep.okIte SafeStep.okErr (SafeStep.okOk ?_)
  refine SafeStep.record rfl rfl rfl ?_ rfl rfl rfl rfl
  dsimp only [State.modBoot]
  split <;> rfl

theorem execActivateFw_safe (h : MbHdr) (online : Bool) (slot : Nat) (s : State) : ∀ v : State, execActivateFw h online slot s = .next v → SafeStep s v := by
  unfold execActivateFw
  refine SafeStep.nx ?_
  refine SafeStep.trans ?_ (State.mbRun_safe _ _ _ _ ?_)
  exact SafeStep.refl _
  refine SafeStep.okIte ?_ ?_
  exact SafeStep.okErr
  refine SafeStep.okOk ?_
  dsimp only
  refine SafeStep.trans ?_ (SafeStep.modBoot (fun _ => rfl))
  exact SafeStep.refl _

theorem execGetTimestamp_safe (h : MbHdr) (s : State) : ∀ v : State, execGetTimestamp h s = .next v → SafeStep s v := by
  unfold execGetTimestamp
  refine SafeStep.nx ?_
  refine SafeStep.trans ?_ (State.mbRun_safe _ _ _ _ ?_)
  exact SafeStep.refl _
  refine SafeStep.okOk ?_
  exact SafeStep.refl _

theorem execSetTimestamp_safe (h : MbHdr) (value : Nat) (s : State) : ∀ v : State, execSetTimestamp h value s = .next v → SafeStep s v := by
  unfold execSetTimestamp
  refine SafeStep.nx ?_
  refine SafeStep.trans ?_ (State.mbRun_safe _ _ _ _ ?_)
  exact SafeStep.refl _
  refine SafeStep.okOk ?_
  dsimp only
  refine SafeStep.trans ?_ (State.modCxe_safe ..)
  exact SafeStep.refl _

theorem execGetHealthInfo_safe (h : MbHdr) (s : State) : ∀ v : State, execGetHealthInfo h s = .next v → SafeStep s v := by
  unfold execGetHealthInfo
  refine SafeStep.nx ?_
  refine SafeStep.trans ?_ (State.mbRun_safe _ _ _ _ ?_)
  exact SafeStep.refl _
  refine SafeStep.okOk ?_
  exact SafeStep.refl _

theorem execGetPoisonList_safe (h : MbHdr) (dpa lines : Nat) (s : State) : ∀ v : State, execGetPoisonList h dpa lines s = .next v → SafeStep s v := by
  unfold execGetPoisonList
  refine SafeStep.nx ?_
  refine SafeStep.trans ?_ (State.mbRun_safe _ _ _ _ ?_)
  exact SafeStep.refl _
  refine SafeStep.okIte ?_ ?_
  exact SafeStep.okErr
  extract_lets +onlyGivenNames q1
  extract_lets +onlyGivenNames q2
  refine SafeStep.okOk ?_
  exact SafeStep.refl _

theorem State.injectBlock_safe (s : State) (e : Extent) (blk : Nat) : SafeStep s (State.injectBlock s e blk) := by
  unfold State.injectBlock
  extract_lets +onlyGivenNames q1
  extract_lets +onlyGivenNames q2
  extract_lets +onlyGivenNames q3
  extract_lets +onlyGivenNames q4
  extract_lets +onlyGivenNames q5
  with_reducible refine SafeStep.trans ?_ (SafeStep.fields rfl rfl rfl rfl)
  refine SafeStep.trans ?_ (State.dropT0_safe ..)
  refine SafeStep.trans ?_ (State.poisonBlock_safe ..)
  refine SafeStep.trans ?_ (SafeStep.modStore (fun _ => rfl) (fun _ => rfl) (fun _ => rfl))
  refine SafeStep.ite ?_ ?_
  refine SafeStep.trans ?_ (State.journal_safe ..)
  refine SafeStep.trans ?_ (State.modSack_safe ..)
  refine SafeStep.trans ?_ (State.allocate_safe ..)
  exact SafeStep.refl _
  exact SafeStep.refl _

theorem execInjectPoison_safe (h : MbHdr) (dpa : Nat) (s : State) : ∀ v : State, execInjectPoison h dpa s = .next v → SafeStep s v := by
  unfold execInjectPoison
  refine SafeStep.nx ?_
  refine SafeStep.trans ?_ (State.mbRun_safe _ _ _ _ ?_)
  exact SafeStep.refl _
  split
  exact SafeStep.okErr
  extract_lets +onlyGivenNames q1
  extract_lets +onlyGivenNames q2
  refine SafeStep.okIte ?_ ?_
  exact SafeStep.okErr
  refine SafeStep.okOk ?_
  dsimp only
  refine SafeStep.trans ?_ (State.injectBlock_safe ..)
  exact SafeStep.refl _

theorem execClearPoison_safe (h : MbHdr) (dpa : Nat) (data : Bytes) (s : State) : ∀ v : State, execClearPoison h dpa data s = .next v → SafeStep s v := by
  unfold execClearPoison
  refine SafeStep.nx ?_
  refine SafeStep.trans ?_ (State.mbRun_safe _ _ _ _ ?_)
  exact SafeStep.refl _
  split
  exact SafeStep.okErr
  refine SafeStep.okOk ?_
  dsimp only
  refine SafeStep.trans ?_ (State.innerWrite_safe ..)
  exact SafeStep.refl _

theorem execGetDcConfiguration_safe (h : MbHdr) (first count : Nat) (s : State) : ∀ v : State, execGetDcConfiguration h first count s = .next v → SafeStep s v := by
  unfold execGetDcConfiguration
  refine SafeStep.nx ?_
  refine SafeStep.trans ?_ (State.mbRun_safe _ _ _ _ ?_)
  exact SafeStep.refl _
  refine SafeStep.okIte ?_ ?_
  exact SafeStep.okErr
  extract_lets +onlyGivenNames q1
  refine SafeStep.okOk ?_
  exact SafeStep.refl _

theorem execGetDcExtentList_safe (h : MbHdr) (count start : Nat) (s : State) : ∀ v : State, execGetDcExtentList h count start s = .next v → SafeStep s v := by
  unfold execGetDcExtentList
  refine SafeStep.nx ?_
  refine SafeStep.trans ?_ (State.mbRun_safe _ _ _ _ ?_)
  exact SafeStep.refl _
  extract_lets +onlyGivenNames q1
  refine SafeStep.okIte ?_ ?_
  exact SafeStep.okErr
  split
  extract_lets +onlyGivenNames q2
  refine SafeStep.okOk ?_
  dsimp only
  refine SafeStep.snd (by assumption) ?_
  refine SafeStep.trans ?_ (State.free_safe ..)
  exact SafeStep.refl _

theorem execGetDcdInfo_safe (h : MbHdr) (s : State) : ∀ v : State, execGetDcdInfo h s = .next v → SafeStep s v := by
  unfold execGetDcdInfo
  refine SafeStep.nx ?_
  refine SafeStep.trans ?_ (State.mbRun_safe _ _ _ _ ?_)
  exact SafeStep.refl _
  extract_lets +onlyGivenNames q1
  refine SafeStep.okOk ?_
  exact SafeStep.refl _

theorem execGetHostDcRegionConfig_safe (h : MbHdr) (host first count : Nat) (s : State) : ∀ v : State, execGetHostDcRegionConfig h host first count s = .next v → SafeStep s v := by
  unfold execGetHostDcRegionConfig
  refine SafeStep.nx ?_
  refine SafeStep.trans ?_ (State.mbRun_safe _ _ _ _ ?_)
  exact SafeStep.refl _
  refine SafeStep.okIte ?_ ?_
  exact SafeStep.okErr
  extract_lets +onlyGivenNames q1
  refine SafeStep.okOk ?_
  exact SafeStep.refl _

theorem execGetDcRegionExtentLists_safe (h : MbHdr) (host count start : Nat) (s : State) : ∀ v : State, execGetDcRegionExtentLists h host count start s = .next v → SafeStep s v := by
  unfold execGetDcRegionExtentLists
  refine SafeStep.nx ?_
  refine SafeStep.trans ?_ (State.mbRun_safe _ _ _ _ ?_)
  exact SafeStep.refl _
  extract_lets +onlyGivenNames q1
  refine SafeStep.okIte ?_ ?_
  exact SafeStep.okErr
  split
  extract_lets +onlyGivenNames q2
  refine SafeStep.okOk ?_
  dsimp only
  refine SafeStep.snd (by assumption) ?_
  refine SafeStep.trans ?_ (State.free_safe ..)
  exact SafeStep.refl _

theorem execGetLdInfo_safe (h : MbHdr) (s : State) : ∀ v : State, execGetLdInfo h s = .next v → SafeStep s v := by
  unfold execGetLdInfo
  refine SafeStep.nx ?_
  refine SafeStep.trans ?_ (State.mbRun_safe _ _ _ _ ?_)
  exact SafeStep.refl _
  refine SafeStep.okOk ?_
  exact SafeStep.refl _

theorem execGetLdAllocations_safe (h : MbHdr) (start limit : Nat) (s : State) : ∀ v : State, execGetLdAllocations h start limit s = .next v → SafeStep s v := by
  unfold execGetLdAllocations
  refine SafeStep.nx ?_
  refine SafeStep.trans ?_ (State.mbRun_safe _ _ _ _ ?_)
  exact SafeStep.refl _
  refine SafeStep.okIte ?_ ?_
  exact SafeStep.okErr
  extract_lets +onlyGivenNames q1
  refine SafeStep.okOk ?_
  exact SafeStep.refl _

theorem execFmQosControl_safe (h : MbHdr) (set : Option (List Nat)) (s : State) : ∀ v : State, execFmQosControl h set s = .next v → SafeStep s v := by
  unfold execFmQosControl
  refine SafeStep.nx ?_
  refine SafeStep.trans ?_ (State.mbRun_safe _ _ _ _ ?_)
  exact SafeStep.refl _
  split
  refine SafeStep.okIte ?_ ?_
  exact SafeStep.okErr
  refine SafeStep.okOk ?_
  dsimp only
  refine SafeStep.trans ?_ (State.modCxe_safe ..)
  exact SafeStep.refl _
  refine SafeStep.okOk ?_
  exact SafeStep.refl _

theorem execGetDebugChallenge_safe (h : MbHdr) (s : State) : ∀ v : State, execGetDebugChallenge h s = .next v → SafeStep s v := by
  unfold execGetDebugChallenge
  refine SafeStep.nx ?_
  refine SafeStep.trans ?_ (State.mbRun_safe _ _ _ _ ?_)
  exact SafeStep.refl _
  extract_lets +onlyGivenNames q1
  extract_lets +onlyGivenNames q2
  refine SafeStep.okOk ?_
  dsimp only
  refine SafeStep.trans ?_ (SafeStep.modBoot (fun _ => rfl))
  refine SafeStep.trans ?_ (SafeStep.fieldsF rfl rfl rfl rfl)
  exact SafeStep.refl _

theorem execDebugNonceExpire_safe (t : Nat) (s : State) : ∀ v : State, execDebugNonceExpire t s = .next v → SafeStep s v := by
  unfold execDebugNonceExpire
  extract_lets +onlyGivenNames q1
  split
  refine SafeStep.nxIte ?_ ?_
  refine SafeStep.nx ?_
  refine SafeStep.trans ?_ (SafeStep.modBoot (fun _ => rfl))
  refine SafeStep.trans ?_ (State.at__safe ..)
  exact SafeStep.refl _
  refine SafeStep.nx ?_
  refine SafeStep.trans ?_ (State.at__safe ..)
  exact SafeStep.refl _
  refine SafeStep.nx ?_
  refine SafeStep.trans ?_ (State.at__safe ..)
  exact SafeStep.refl _

theorem execUnlockDebug_safe (h : MbHdr) (p : Part) (s : State) : ∀ v : State, execUnlockDebug h p s = .next v → SafeStep s v := by
  unfold execUnlockDebug
  refine SafeStep.nx ?_
  refine SafeStep.trans ?_ (State.mbPartsBg_safe _ _ _ _ _ _ ?_)
  exact SafeStep.refl _
  intro _ _ 
  refine SafeStep.exIte ?_ ?_
  exact SafeStep.exErr
  refine SafeStep.exOk ?_
  exact SafeStep.refl _

theorem State.judgeUnlock_safe (s : State) (src : Nat) (img : Bytes) : SafeStep s (State.judgeUnlock s src img) := by
  unfold State.judgeUnlock
  extract_lets +onlyGivenNames q1
  extract_lets +onlyGivenNames q2
  refine SafeStep.ite ?_ ?_
  refine SafeStep.trans ?_ (State.startDebug_safe ..)
  refine SafeStep.trans ?_ (SafeStep.modBoot (fun _ => rfl))
  exact SafeStep.refl _
  refine SafeStep.trans ?_ (State.endJob_safe ..)
  refine SafeStep.trans ?_ (SafeStep.modBoot (fun _ => rfl))
  refine SafeStep.trans ?_ (SafeStep.modBoot (fun _ => rfl))
  exact SafeStep.refl _

theorem execGetDebugState_safe (h : MbHdr) (s : State) : ∀ v : State, execGetDebugState h s = .next v → SafeStep s v := by
  unfold execGetDebugState
  refine SafeStep.nx ?_
  refine SafeStep.trans ?_ (State.mbRun_safe _ _ _ _ ?_)
  exact SafeStep.refl _
  refine SafeStep.okOk ?_
  exact SafeStep.refl _

theorem State.markJob_safe (s : State) (src : Nat) : SafeStep s (State.markJob s src) := by
  unfold State.markJob
  with_reducible refine SafeStep.trans ?_ (SafeStep.fields rfl rfl rfl rfl)
  exact SafeStep.refl _

theorem State.retireStep_safe (s : State) (src kind loc : Nat) : SafeStep s (State.retireStep s src kind loc) := by
  unfold State.retireStep
  split
  refine SafeStep.trans ?_ (State.markJob_safe ..)
  refine SafeStep.trans ?_ (State.finishRetire_safe _ _ _ _ _ (by assumption))
  exact SafeStep.refl _
  refine SafeStep.trans ?_ (State.clearRetired_safe ..)
  exact SafeStep.refl _

theorem State.completeJob_safe (s : State) (src : Nat) (j : Job) : SafeStep s (State.completeJob s src j) := by
  unfold State.completeJob
  split
  split
  refine SafeStep.trans ?_ (State.endJob_safe ..)
  refine SafeStep.snd (by assumption) ?_
  refine SafeStep.trans ?_ (State.stageReq_safe ..)
  exact SafeStep.refl _
  split
  refine SafeStep.trans ?_ (State.endJob_safe ..)
  refine SafeStep.snd (by assumption) ?_
  refine SafeStep.trans ?_ (State.loadDone_safe ..)
  exact SafeStep.refl _
  refine SafeStep.trans ?_ (State.endJob_safe ..)
  refine SafeStep.snd (by assumption) ?_
  refine SafeStep.trans ?_ (State.loadDone_safe ..)
  exact SafeStep.refl _
  refine SafeStep.ite ?_ ?_
  refine SafeStep.trans ?_ (State.endJob_safe ..)
  exact SafeStep.refl _
  refine SafeStep.trans ?_ (State.endJob_safe ..)
  refine SafeStep.trans ?_ (State.saveSchedule_safe ..)
  exact SafeStep.refl _
  refine SafeStep.ite ?_ ?_
  refine SafeStep.trans ?_ (State.endJob_safe ..)
  exact SafeStep.refl _
  exact SafeStep.refl _
  refine SafeStep.ite ?_ ?_
  refine SafeStep.trans ?_ (State.endJob_safe ..)
  exact SafeStep.refl _
  exact SafeStep.refl _
  split
  refine SafeStep.trans ?_ (State.endJob_safe ..)
  exact SafeStep.refl _
  refine SafeStep.ite ?_ ?_
  refine SafeStep.trans ?_ (State.endJob_safe ..)
  exact SafeStep.refl _
  refine SafeStep.trans ?_ (State.endJob_safe ..)
  refine SafeStep.trans ?_ (State.dropGranary_safe ..)
  exact SafeStep.refl _
  refine SafeStep.trans ?_ (State.endJob_safe ..)
  refine SafeStep.trans ?_ (State.countClear_safe ..)
  refine SafeStep.trans ?_ (State.modStone_safe ..)
  exact SafeStep.refl _
  refine SafeStep.ite ?_ ?_
  exact SafeStep.refl _
  refine SafeStep.trans ?_ (State.retireStep_safe ..)
  exact SafeStep.refl _
  refine SafeStep.ite ?_ ?_
  exact SafeStep.refl _
  refine SafeStep.trans ?_ (State.retireStep_safe ..)
  exact SafeStep.refl _
  refine SafeStep.ite ?_ ?_
  exact SafeStep.refl _
  refine SafeStep.trans ?_ (State.retireStep_safe ..)
  exact SafeStep.refl _
  refine SafeStep.ite ?_ ?_
  exact SafeStep.refl _
  refine SafeStep.trans ?_ (State.retireStep_safe ..)
  exact SafeStep.refl _
  refine SafeStep.ite ?_ ?_
  exact SafeStep.refl _
  refine SafeStep.trans ?_ (State.markJob_safe ..)
  refine SafeStep.trans ?_ (State.installPkg_safe ..)
  exact SafeStep.refl _
  refine SafeStep.ite ?_ ?_
  refine SafeStep.trans ?_ (State.endJob_safe ..)
  exact SafeStep.refl _
  exact SafeStep.refl _
  refine SafeStep.ite ?_ ?_
  exact SafeStep.refl _
  refine SafeStep.trans ?_ (State.judgeUnlock_safe ..)
  refine SafeStep.trans ?_ (State.markJob_safe ..)
  exact SafeStep.refl _
  refine SafeStep.ite ?_ ?_
  exact SafeStep.refl _
  refine SafeStep.trans ?_ (State.endJob_safe ..)
  exact SafeStep.refl _
  extract_lets +onlyGivenNames q1
  refine SafeStep.ite ?_ ?_
  refine SafeStep.trans ?_ (State.endJob_safe ..)
  exact SafeStep.refl _
  refine SafeStep.ite ?_ ?_
  refine SafeStep.trans ?_ (State.endJob_safe ..)
  exact SafeStep.refl _
  exact SafeStep.refl _
  exact SafeStep.refl _

theorem execBackgroundCommandComplete_safe (t src : Nat) (s : State) : ∀ v : State, execBackgroundCommandComplete t src s = .next v → SafeStep s v := by
  unfold execBackgroundCommandComplete
  extract_lets +onlyGivenNames q1
  split
  refine SafeStep.nxIte ?_ ?_
  refine SafeStep.nx ?_
  refine SafeStep.trans ?_ (State.completeJob_safe ..)
  refine SafeStep.trans ?_ (State.at__safe ..)
  exact SafeStep.refl _
  refine SafeStep.nx ?_
  refine SafeStep.trans ?_ (State.at__safe ..)
  exact SafeStep.refl _
  refine SafeStep.nx ?_
  refine SafeStep.trans ?_ (State.at__safe ..)
  exact SafeStep.refl _

theorem execAbortBackgroundOperation_safe (h : MbHdr) (s : State) : ∀ v : State, execAbortBackgroundOperation h s = .next v → SafeStep s v := by
  unfold execAbortBackgroundOperation
  refine SafeStep.nx (State.mbRun_safe _ _ _ _ ?_)
  extract_lets refusal
  split
  · exact SafeStep.okIte (SafeStep.okOk (State.stopJob_safe ..)) SafeStep.okErr
  · exact SafeStep.okErr

theorem execPartImageTimeout_safe (t src opcode : Nat) (s : State) : ∀ v : State, execPartImageTimeout t src opcode s = .next v → SafeStep s v := by
  unfold execPartImageTimeout
  extract_lets +onlyGivenNames q1
  refine SafeStep.nx ?_
  with_reducible refine SafeStep.trans ?_ (SafeStep.fields rfl rfl rfl rfl)
  refine SafeStep.trans ?_ (State.at__safe ..)
  exact SafeStep.refl _

theorem execSnapshotTimeout_safe (t src opcode : Nat) (s : State) : ∀ v : State, execSnapshotTimeout t src opcode s = .next v → SafeStep s v := by
  unfold execSnapshotTimeout
  extract_lets +onlyGivenNames q1
  refine SafeStep.nx ?_
  with_reducible refine SafeStep.trans ?_ (SafeStep.fields rfl rfl rfl rfl)
  refine SafeStep.trans ?_ (State.at__safe ..)
  exact SafeStep.refl _

end Sys2Proof.Machine
end

