-- ==== Sys2Proof/Laws/SafePower.lean ====
section
/-! SUPPORT. Every operation and every meaning over power, clocks, health and the boot is a safe step: one lemma each. -/
namespace Sys2Proof.Machine

theorem State.modClock_safe (s : State) (f : ClockSt → ClockSt) : SafeStep s (State.modClock s f) := by
  unfold State.modClock
  with_reducible refine SafeStep.trans ?_ (SafeStep.fields rfl rfl rfl rfl)
  exact SafeStep.refl _

theorem State.modHealth_safe (s : State) (f : HealthSt → HealthSt) : SafeStep s (State.modHealth s f) := by
  unfold State.modHealth
  with_reducible refine SafeStep.trans ?_ (SafeStep.fields rfl rfl rfl rfl)
  exact SafeStep.refl _

theorem State.pumpStone_safe (s : State) : SafeStep s (State.pumpStone s) := by
  unfold State.pumpStone
  split
  refine SafeStep.ite ?_ ?_
  refine SafeStep.trans ?_ (State.modClock_safe ..)
  exact SafeStep.refl _
  refine SafeStep.ite ?_ ?_
  exact SafeStep.refl _
  extract_lets +onlyGivenNames q1
  refine SafeStep.trans ?_ (State.modClock_safe ..)
  exact SafeStep.refl _
  exact SafeStep.refl _

theorem State.askStone_safe (s : State) : SafeStep s (State.askStone s) := by
  unfold State.askStone
  refine SafeStep.trans ?_ (State.pumpStone_safe ..)
  refine SafeStep.trans ?_ (State.modClock_safe ..)
  exact SafeStep.refl _

theorem State.beginWaiting_safe (s : State) : SafeStep s (State.beginWaiting s) := by
  unfold State.beginWaiting
  refine SafeStep.ite ?_ ?_
  exact SafeStep.refl _
  extract_lets +onlyGivenNames q1
  extract_lets +onlyGivenNames q2
  refine SafeStep.trans ?_ (State.modHealth_safe ..)
  exact SafeStep.refl _

theorem execStoneStepChangeComplete_safe (t : Nat) (s : State) : ∀ v : State, execStoneStepChangeComplete t s = .next v → SafeStep s v := by
  unfold execStoneStepChangeComplete
  extract_lets +onlyGivenNames q1
  split
  refine SafeStep.nxIte ?_ ?_
  extract_lets +onlyGivenNames q2
  refine SafeStep.nx ?_
  refine SafeStep.trans ?_ (State.noteVitals_safe ..)
  refine SafeStep.trans ?_ (State.caps_safe ..)
  refine SafeStep.trans ?_ (State.beginWaiting_safe ..)
  refine SafeStep.trans ?_ (State.pumpStone_safe ..)
  refine SafeStep.trans ?_ (State.modClock_safe ..)
  refine SafeStep.trans ?_ (State.at__safe ..)
  exact SafeStep.refl _
  refine SafeStep.nx ?_
  refine SafeStep.trans ?_ (State.at__safe ..)
  exact SafeStep.refl _
  refine SafeStep.nx ?_
  refine SafeStep.trans ?_ (State.at__safe ..)
  exact SafeStep.refl _

theorem State.applySteps_safe (s : State) : SafeStep s (State.applySteps s) := by
  unfold State.applySteps
  extract_lets +onlyGivenNames q1
  extract_lets +onlyGivenNames q2
  refine SafeStep.trans ?_ (State.caps_safe ..)
  refine SafeStep.ite ?_ ?_
  refine SafeStep.ite ?_ ?_
  exact SafeStep.refl _
  refine SafeStep.trans ?_ (State.askStone_safe ..)
  exact SafeStep.refl _
  refine SafeStep.trans ?_ (State.askPoint_safe ..)
  refine SafeStep.ite ?_ ?_
  exact SafeStep.refl _
  refine SafeStep.trans ?_ (State.askStone_safe ..)
  exact SafeStep.refl _

theorem State.modPower_safe (s : State) (f : PowerSt → PowerSt) : SafeStep s (State.modPower s f) := by
  unfold State.modPower
  with_reducible refine SafeStep.trans ?_ (SafeStep.fields rfl rfl rfl rfl)
  exact SafeStep.refl _

theorem execGovernorStep_safe (t avg : Nat) (s : State) : ∀ v : State, execGovernorStep t avg s = .next v → SafeStep s v := by
  unfold execGovernorStep
  extract_lets +onlyGivenNames q1
  refine SafeStep.nxIte ?_ ?_
  refine SafeStep.nx ?_
  refine SafeStep.trans ?_ (State.at__safe ..)
  exact SafeStep.refl _
  extract_lets +onlyGivenNames q2
  refine SafeStep.nxIte ?_ ?_
  refine SafeStep.nx ?_
  refine SafeStep.trans ?_ (State.modPower_safe ..)
  refine SafeStep.trans ?_ (State.at__safe ..)
  exact SafeStep.refl _
  split
  extract_lets +onlyGivenNames q3
  refine SafeStep.nx ?_
  refine SafeStep.trans ?_ (State.noteVitals_safe ..)
  refine SafeStep.trans ?_ (State.applySteps_safe ..)
  refine SafeStep.trans ?_ (State.modPower_safe ..)
  refine SafeStep.trans ?_ (State.modPower_safe ..)
  refine SafeStep.trans ?_ (State.at__safe ..)
  exact SafeStep.refl _
  refine SafeStep.nx ?_
  refine SafeStep.trans ?_ (State.modPower_safe ..)
  refine SafeStep.trans ?_ (State.at__safe ..)
  exact SafeStep.refl _

theorem execGovernorRetreat_safe (t avg : Nat) (s : State) : ∀ v : State, execGovernorRetreat t avg s = .next v → SafeStep s v := by
  unfold execGovernorRetreat
  extract_lets +onlyGivenNames q1
  refine SafeStep.nxIte ?_ ?_
  refine SafeStep.nx ?_
  refine SafeStep.trans ?_ (State.at__safe ..)
  exact SafeStep.refl _
  extract_lets +onlyGivenNames q2
  split
  refine SafeStep.nx ?_
  refine SafeStep.trans ?_ (State.modPower_safe ..)
  refine SafeStep.trans ?_ (State.at__safe ..)
  exact SafeStep.refl _
  refine SafeStep.nxIte ?_ ?_
  refine SafeStep.nx ?_
  refine SafeStep.trans ?_ (State.modPower_safe ..)
  refine SafeStep.trans ?_ (State.at__safe ..)
  exact SafeStep.refl _
  extract_lets +onlyGivenNames q3
  refine SafeStep.nx ?_
  refine SafeStep.trans ?_ (State.noteVitals_safe ..)
  refine SafeStep.trans ?_ (State.applySteps_safe ..)
  refine SafeStep.trans ?_ (State.modPower_safe ..)
  refine SafeStep.trans ?_ (State.modPower_safe ..)
  refine SafeStep.trans ?_ (State.at__safe ..)
  exact SafeStep.refl _

theorem execSetPowerLimit_safe (h : MbHdr) (limit : Nat) (s : State) : ∀ v : State, execSetPowerLimit h limit s = .next v → SafeStep s v := by
  unfold execSetPowerLimit
  refine SafeStep.nx ?_
  refine SafeStep.trans ?_ (State.mbRun_safe _ _ _ _ ?_)
  exact SafeStep.refl _
  refine SafeStep.okIte ?_ ?_
  exact SafeStep.okErr
  refine SafeStep.okOk ?_
  dsimp only
  refine SafeStep.trans ?_ (State.modPower_safe ..)
  exact SafeStep.refl _

theorem State.freeFields_safe (s : State) (at_ n : Nat) : SafeStep s (s.freeFields at_ n).2 := by
  induction n generalizing s at_ with
  | zero => exact SafeStep.refl _
  | succ n ih => exact SafeStep.trans (State.free_safe _) (ih _ _)

theorem execGetPowerStatus_safe (h : MbHdr) (s : State) : ∀ v : State, execGetPowerStatus h s = .next v → SafeStep s v := by
  unfold execGetPowerStatus
  refine SafeStep.nx ?_
  refine SafeStep.trans ?_ (State.mbRun_safe _ _ _ _ ?_)
  exact SafeStep.refl _
  extract_lets +onlyGivenNames q1
  refine SafeStep.okOk ?_
  dsimp only
  refine SafeStep.trans ?_ (State.freeFields_safe ..)
  exact SafeStep.refl _

theorem execThermalStep_safe (t : Nat) (part : Part17) (unit : Nat) (temp : Int) (s : State) : ∀ v : State, execThermalStep t part unit temp s = .next v → SafeStep s v := by
  unfold execThermalStep
  extract_lets +onlyGivenNames q1
  refine SafeStep.nxIte ?_ ?_
  refine SafeStep.nx ?_
  refine SafeStep.trans ?_ (State.at__safe ..)
  exact SafeStep.refl _
  refine SafeStep.nxIte ?_ ?_
  refine SafeStep.nx ?_
  refine SafeStep.trans ?_ (State.setTemp_safe ..)
  refine SafeStep.trans ?_ (State.at__safe ..)
  exact SafeStep.refl _
  extract_lets +onlyGivenNames q2
  extract_lets +onlyGivenNames q3
  extract_lets +onlyGivenNames q4
  refine SafeStep.nxIte ?_ ?_
  refine SafeStep.nx ?_
  refine SafeStep.trans ?_ (State.noteVitals_safe ..)
  refine SafeStep.ite ?_ ?_
  refine SafeStep.trans ?_ (State.post_safe ..)
  refine SafeStep.trans ?_ (State.setTemp_safe ..)
  refine SafeStep.trans ?_ (State.at__safe ..)
  exact SafeStep.refl _
  refine SafeStep.trans ?_ (State.setTemp_safe ..)
  refine SafeStep.trans ?_ (State.at__safe ..)
  exact SafeStep.refl _
  split
  extract_lets +onlyGivenNames q5
  refine SafeStep.nx ?_
  refine SafeStep.trans ?_ (State.noteVitals_safe ..)
  refine SafeStep.trans ?_ (State.applySteps_safe ..)
  refine SafeStep.trans ?_ (State.post_safe ..)
  refine SafeStep.trans ?_ (State.modHealth_safe ..)
  refine SafeStep.ite ?_ ?_
  refine SafeStep.trans ?_ (State.post_safe ..)
  refine SafeStep.trans ?_ (State.setTemp_safe ..)
  refine SafeStep.trans ?_ (State.at__safe ..)
  exact SafeStep.refl _
  refine SafeStep.trans ?_ (State.setTemp_safe ..)
  refine SafeStep.trans ?_ (State.at__safe ..)
  exact SafeStep.refl _
  refine SafeStep.nx ?_
  refine SafeStep.trans ?_ (State.noteVitals_safe ..)
  refine SafeStep.ite ?_ ?_
  refine SafeStep.trans ?_ (State.post_safe ..)
  refine SafeStep.trans ?_ (State.setTemp_safe ..)
  refine SafeStep.trans ?_ (State.at__safe ..)
  exact SafeStep.refl _
  refine SafeStep.trans ?_ (State.setTemp_safe ..)
  refine SafeStep.trans ?_ (State.at__safe ..)
  exact SafeStep.refl _

theorem execThermalRetreat_safe (t : Nat) (part : Part17) (unit : Nat) (temp : Int) (s : State) : ∀ v : State, execThermalRetreat t part unit temp s = .next v → SafeStep s v := by
  unfold execThermalRetreat
  extract_lets +onlyGivenNames q1
  refine SafeStep.nxIte ?_ ?_
  refine SafeStep.nx ?_
  refine SafeStep.trans ?_ (State.at__safe ..)
  exact SafeStep.refl _
  extract_lets +onlyGivenNames q2
  extract_lets +onlyGivenNames q3
  extract_lets +onlyGivenNames q4
  extract_lets +onlyGivenNames q5
  refine SafeStep.nxIte ?_ ?_
  refine SafeStep.nx ?_
  refine SafeStep.trans ?_ (State.noteVitals_safe ..)
  refine SafeStep.trans ?_ (State.setTemp_safe ..)
  refine SafeStep.trans ?_ (State.at__safe ..)
  exact SafeStep.refl _
  extract_lets +onlyGivenNames q6
  refine SafeStep.nx ?_
  refine SafeStep.trans ?_ (State.noteVitals_safe ..)
  refine SafeStep.trans ?_ (State.applySteps_safe ..)
  refine SafeStep.trans ?_ (State.modHealth_safe ..)
  refine SafeStep.trans ?_ (State.setTemp_safe ..)
  refine SafeStep.trans ?_ (State.at__safe ..)
  exact SafeStep.refl _

theorem execGetThermalStatus_safe (h : MbHdr) (s : State) : ∀ v : State, execGetThermalStatus h s = .next v → SafeStep s v := by
  unfold execGetThermalStatus
  refine SafeStep.nx ?_
  refine SafeStep.trans ?_ (State.mbRun_safe _ _ _ _ ?_)
  exact SafeStep.refl _
  extract_lets +onlyGivenNames q1
  extract_lets +onlyGivenNames q2
  refine SafeStep.okOk ?_
  exact SafeStep.refl _

theorem State.markDue_safe (s : State) (slice unit : Nat) (gap : Bool) : SafeStep s (State.markDue s slice unit gap) := by
  unfold State.markDue
  extract_lets +onlyGivenNames q1
  extract_lets +onlyGivenNames q2
  refine SafeStep.ite ?_ ?_
  refine SafeStep.trans ?_ (State.markSlice_safe ..)
  exact SafeStep.refl _
  exact SafeStep.refl _

theorem execSliceDue_safe (t slice unit : Nat) (s : State) : ∀ v : State, execSliceDue t slice unit s = .next v → SafeStep s v := by
  unfold execSliceDue
  extract_lets +onlyGivenNames q1
  extract_lets +onlyGivenNames q2
  extract_lets +onlyGivenNames q3
  extract_lets +onlyGivenNames q4
  refine SafeStep.nxIte ?_ ?_
  refine SafeStep.nx ?_
  refine SafeStep.trans ?_ (State.at__safe ..)
  exact SafeStep.refl _
  refine SafeStep.nxIte ?_ ?_
  refine SafeStep.nx ?_
  refine SafeStep.trans ?_ (State.at__safe ..)
  exact SafeStep.refl _
  extract_lets +onlyGivenNames q5
  refine SafeStep.nx ?_
  refine SafeStep.trans ?_ (State.markDue_safe ..)
  refine SafeStep.trans ?_ (State.modSlice_safe ..)
  refine SafeStep.trans ?_ (State.at__safe ..)
  exact SafeStep.refl _

theorem execSliceGapTimeout_safe (t slice unit : Nat) (s : State) : ∀ v : State, execSliceGapTimeout t slice unit s = .next v → SafeStep s v := by
  unfold execSliceGapTimeout
  extract_lets +onlyGivenNames q1
  extract_lets +onlyGivenNames q2
  split
  refine SafeStep.nxIte ?_ ?_
  refine SafeStep.nx ?_
  refine SafeStep.trans ?_ (State.markDue_safe ..)
  refine SafeStep.trans ?_ (State.at__safe ..)
  exact SafeStep.refl _
  refine SafeStep.nx ?_
  refine SafeStep.trans ?_ (State.at__safe ..)
  exact SafeStep.refl _
  refine SafeStep.nx ?_
  refine SafeStep.trans ?_ (State.at__safe ..)
  exact SafeStep.refl _

theorem execSliceDeferralExpire_safe (t slice unit : Nat) (s : State) : ∀ v : State, execSliceDeferralExpire t slice unit s = .next v → SafeStep s v := by
  unfold execSliceDeferralExpire
  extract_lets +onlyGivenNames q1
  extract_lets +onlyGivenNames q2
  split
  refine SafeStep.nxIte ?_ ?_
  refine SafeStep.nx ?_
  refine SafeStep.trans ?_ (State.modStone_safe ..)
  refine SafeStep.trans ?_ (State.at__safe ..)
  exact SafeStep.refl _
  refine SafeStep.nx ?_
  refine SafeStep.trans ?_ (State.at__safe ..)
  exact SafeStep.refl _
  refine SafeStep.nx ?_
  refine SafeStep.trans ?_ (State.at__safe ..)
  exact SafeStep.refl _

theorem State.raiseVolt_safe (s : State) (key : Option Nat) : SafeStep s (State.raiseVolt s key) := by
  unfold State.raiseVolt
  split
  refine SafeStep.ite ?_ ?_
  exact SafeStep.refl _
  refine SafeStep.trans ?_ (State.modHealth_safe ..)
  exact SafeStep.refl _
  refine SafeStep.ite ?_ ?_
  exact SafeStep.refl _
  refine SafeStep.trans ?_ (State.modHealth_safe ..)
  exact SafeStep.refl _

theorem State.testRecord_safe (s : State) (slice unit outcome : Nat) (posts : List Post) : SafeStep s (State.testRecord s slice unit outcome posts) := by
  unfold State.testRecord
  refine SafeStep.trans ?_ (State.ledger_safe ..)
  exact SafeStep.refl _

theorem State.noteSlice_safe (s : State) (slice unit : Nat) (o : SliceOutcome) : SafeStep s (State.noteSlice s slice unit o) := by
  unfold State.noteSlice
  extract_lets +onlyGivenNames q1
  split
  refine SafeStep.trans ?_ (State.modHealth_safe ..)
  exact SafeStep.refl _
  extract_lets +onlyGivenNames q2
  refine SafeStep.trans ?_ (State.raiseVolt_safe ..)
  refine SafeStep.trans ?_ (State.testRecord_safe ..)
  refine SafeStep.trans ?_ (State.modHealth_safe ..)
  exact SafeStep.refl _
  extract_lets +onlyGivenNames q3
  extract_lets +onlyGivenNames q4
  refine SafeStep.trans ?_ (State.observe_safe ..)
  refine SafeStep.trans ?_ (State.testRecord_safe ..)
  refine SafeStep.trans ?_ (State.modHealth_safe ..)
  exact SafeStep.refl _

theorem State.mayReturn_safe (s : State) (utype unit : Nat) : SafeStep s (State.mayReturn s utype unit) := by
  unfold State.mayReturn
  extract_lets +onlyGivenNames q1
  extract_lets +onlyGivenNames q2
  refine SafeStep.ite ?_ ?_
  exact SafeStep.refl _
  extract_lets +onlyGivenNames q3
  refine SafeStep.ite ?_ ?_
  refine SafeStep.trans ?_ (State.modStone_safe ..)
  refine SafeStep.trans ?_ (State.unitTo_safe ..)
  exact SafeStep.refl _
  refine SafeStep.trans ?_ (State.unitTo_safe ..)
  exact SafeStep.refl _

theorem State.judge_safe (s : State) (slice unit : Nat) (was : UnitState) (failed : Bool) (o : SliceOutcome) : SafeStep s (State.judge s slice unit was failed o) := by
  unfold State.judge
  extract_lets +onlyGivenNames q1
  refine SafeStep.ite ?_ ?_
  extract_lets +onlyGivenNames q2
  refine SafeStep.trans ?_ (State.mayReturn_safe ..)
  refine SafeStep.trans ?_ (State.setUnit_safe ..)
  exact SafeStep.refl _
  refine SafeStep.ite ?_ ?_
  refine SafeStep.trans ?_ (State.unitTo_safe ..)
  exact SafeStep.refl _
  exact SafeStep.refl _

theorem State.endSliceJobs_safe (s : State) (slice unit : Nat) (failed : Bool) (o : SliceOutcome) : SafeStep s (State.endSliceJobs s slice unit failed o) := by
  unfold State.endSliceJobs
  extract_lets +onlyGivenNames q1
  extract_lets +onlyGivenNames q2
  refine SafeStep.ite ?_ ?_
  exact SafeStep.refl _
  extract_lets +onlyGivenNames q3
  refine SafeStep.foldl ?_ (fun s x => ?_)
  exact SafeStep.refl _
  refine SafeStep.trans ?_ (State.endJob_safe ..)
  exact SafeStep.refl _

theorem State.afterSlice_safe (s : State) (slice unit : Nat) : SafeStep s (State.afterSlice s slice unit) := by
  unfold State.afterSlice
  extract_lets +onlyGivenNames q1
  refine SafeStep.ite ?_ ?_
  refine SafeStep.trans ?_ (State.beginClear_safe ..)
  refine SafeStep.trans ?_ (State.modStone_safe ..)
  exact SafeStep.refl _
  refine SafeStep.trans ?_ (State.modStone_safe ..)
  exact SafeStep.refl _

theorem execSliceComplete_safe (t slice unit : Nat) (o : SliceOutcome) (s : State) : ∀ v : State, execSliceComplete t slice unit o s = .next v → SafeStep s v := by
  unfold execSliceComplete
  extract_lets +onlyGivenNames q1
  extract_lets +onlyGivenNames q2
  extract_lets +onlyGivenNames q3
  extract_lets +onlyGivenNames q4
  refine SafeStep.nxIte ?_ ?_
  refine SafeStep.nx ?_
  refine SafeStep.trans ?_ (State.at__safe ..)
  exact SafeStep.refl _
  extract_lets +onlyGivenNames q5
  extract_lets +onlyGivenNames q6
  extract_lets +onlyGivenNames q7
  extract_lets +onlyGivenNames q8
  extract_lets +onlyGivenNames q9
  refine SafeStep.nxIte ?_ ?_
  extract_lets +onlyGivenNames q10
  refine SafeStep.nx ?_
  refine SafeStep.ite ?_ ?_
  refine SafeStep.trans ?_ (State.hubFails_safe ..)
  refine SafeStep.ite ?_ ?_
  refine SafeStep.trans ?_ (State.unitTo_safe ..)
  refine SafeStep.trans ?_ (State.judge_safe ..)
  refine SafeStep.trans ?_ (State.noteSlice_safe ..)
  refine SafeStep.trans ?_ (State.modSlice_safe ..)
  refine SafeStep.trans ?_ (State.at__safe ..)
  exact SafeStep.refl _
  refine SafeStep.trans ?_ (State.judge_safe ..)
  refine SafeStep.trans ?_ (State.noteSlice_safe ..)
  refine SafeStep.trans ?_ (State.modSlice_safe ..)
  refine SafeStep.trans ?_ (State.at__safe ..)
  exact SafeStep.refl _
  refine SafeStep.ite ?_ ?_
  refine SafeStep.trans ?_ (State.modStone_safe ..)
  refine SafeStep.ite ?_ ?_
  refine SafeStep.trans ?_ (State.unitTo_safe ..)
  refine SafeStep.trans ?_ (State.judge_safe ..)
  refine SafeStep.trans ?_ (State.noteSlice_safe ..)
  refine SafeStep.trans ?_ (State.modSlice_safe ..)
  refine SafeStep.trans ?_ (State.at__safe ..)
  exact SafeStep.refl _
  refine SafeStep.trans ?_ (State.judge_safe ..)
  refine SafeStep.trans ?_ (State.noteSlice_safe ..)
  refine SafeStep.trans ?_ (State.modSlice_safe ..)
  refine SafeStep.trans ?_ (State.at__safe ..)
  exact SafeStep.refl _
  refine SafeStep.ite ?_ ?_
  refine SafeStep.trans ?_ (State.unitTo_safe ..)
  refine SafeStep.trans ?_ (State.judge_safe ..)
  refine SafeStep.trans ?_ (State.noteSlice_safe ..)
  refine SafeStep.trans ?_ (State.modSlice_safe ..)
  refine SafeStep.trans ?_ (State.at__safe ..)
  exact SafeStep.refl _
  refine SafeStep.trans ?_ (State.judge_safe ..)
  refine SafeStep.trans ?_ (State.noteSlice_safe ..)
  refine SafeStep.trans ?_ (State.modSlice_safe ..)
  refine SafeStep.trans ?_ (State.at__safe ..)
  exact SafeStep.refl _
  extract_lets +onlyGivenNames q11
  extract_lets +onlyGivenNames q12
  refine SafeStep.nx ?_
  refine SafeStep.ite ?_ ?_
  refine SafeStep.trans ?_ (State.hubFails_safe ..)
  refine SafeStep.trans ?_ (State.caps_safe ..)
  refine SafeStep.trans ?_ (State.pumpStone_safe ..)
  refine SafeStep.trans ?_ (State.endSliceJobs_safe ..)
  refine SafeStep.ite ?_ ?_
  refine SafeStep.trans ?_ (State.afterSlice_safe ..)
  refine SafeStep.trans ?_ (State.judge_safe ..)
  refine SafeStep.trans ?_ (State.noteSlice_safe ..)
  refine SafeStep.trans ?_ (State.modSlice_safe ..)
  refine SafeStep.trans ?_ (State.at__safe ..)
  exact SafeStep.refl _
  refine SafeStep.trans ?_ (State.clearUnit_safe ..)
  refine SafeStep.trans ?_ (State.judge_safe ..)
  refine SafeStep.trans ?_ (State.noteSlice_safe ..)
  refine SafeStep.trans ?_ (State.modSlice_safe ..)
  refine SafeStep.trans ?_ (State.at__safe ..)
  exact SafeStep.refl _
  refine SafeStep.trans ?_ (State.noteVitals_safe ..)
  refine SafeStep.trans ?_ (State.caps_safe ..)
  refine SafeStep.trans ?_ (State.pumpStone_safe ..)
  refine SafeStep.trans ?_ (State.endSliceJobs_safe ..)
  refine SafeStep.ite ?_ ?_
  refine SafeStep.trans ?_ (State.afterSlice_safe ..)
  refine SafeStep.trans ?_ (State.judge_safe ..)
  refine SafeStep.trans ?_ (State.noteSlice_safe ..)
  refine SafeStep.trans ?_ (State.modSlice_safe ..)
  refine SafeStep.trans ?_ (State.at__safe ..)
  exact SafeStep.refl _
  refine SafeStep.trans ?_ (State.clearUnit_safe ..)
  refine SafeStep.trans ?_ (State.judge_safe ..)
  refine SafeStep.trans ?_ (State.noteSlice_safe ..)
  refine SafeStep.trans ?_ (State.modSlice_safe ..)
  refine SafeStep.trans ?_ (State.at__safe ..)
  exact SafeStep.refl _

theorem execRequestTestSlice_safe (h : MbHdr) (utype unit slice : Nat) (s : State) : ∀ v : State, execRequestTestSlice h utype unit slice s = .next v → SafeStep s v := by
  unfold execRequestTestSlice
  refine SafeStep.nx ?_
  refine SafeStep.trans ?_ (State.mbBg_safe _ _ _ _ _ ?_)
  exact SafeStep.refl _
  refine SafeStep.exIte ?_ ?_
  exact SafeStep.exErr
  refine SafeStep.exIte ?_ ?_
  exact SafeStep.exErr
  refine SafeStep.exIte ?_ ?_
  refine SafeStep.exOk ?_
  refine SafeStep.foldl ?_ (fun s x => ?_)
  exact SafeStep.refl _
  refine SafeStep.trans ?_ (State.markSlice_safe ..)
  exact SafeStep.refl _
  refine SafeStep.exOk ?_
  refine SafeStep.trans ?_ (State.markSlice_safe ..)
  exact SafeStep.refl _

theorem execGetTestSchedule_safe (h : MbHdr) (o : OutReq) (s : State) : ∀ v : State, execGetTestSchedule h o s = .next v → SafeStep s v := by
  unfold execGetTestSchedule
  refine SafeStep.nx ?_
  refine SafeStep.trans ?_ (State.mbSnap_safe ..)
  exact SafeStep.refl _

theorem execSetTestInterval_safe (h : MbHdr) (slice interval : Nat) (s : State) : ∀ v : State, execSetTestInterval h slice interval s = .next v → SafeStep s v := by
  unfold execSetTestInterval
  refine SafeStep.nx ?_
  refine SafeStep.trans ?_ (State.mbRun_safe _ _ _ _ ?_)
  exact SafeStep.refl _
  refine SafeStep.okIte ?_ ?_
  exact SafeStep.okErr
  refine SafeStep.okOk ?_
  dsimp only
  refine SafeStep.trans ?_ (State.modHealth_safe ..)
  exact SafeStep.refl _

theorem execSetDeferralLimit_safe (h : MbHdr) (limit : Nat) (s : State) : ∀ v : State, execSetDeferralLimit h limit s = .next v → SafeStep s v := by
  unfold execSetDeferralLimit
  refine SafeStep.nx ?_
  refine SafeStep.trans ?_ (State.mbRun_safe _ _ _ _ ?_)
  exact SafeStep.refl _
  refine SafeStep.okIte ?_ ?_
  exact SafeStep.okErr
  refine SafeStep.okOk ?_
  dsimp only
  refine SafeStep.trans ?_ (State.modHealth_safe ..)
  exact SafeStep.refl _

theorem execRequestCalibration_safe (h : MbHdr) (kind unit : Nat) (s : State) : ∀ v : State, execRequestCalibration h kind unit s = .next v → SafeStep s v := by
  unfold execRequestCalibration
  refine SafeStep.nx ?_
  refine SafeStep.trans ?_ (State.mbBg_safe _ _ _ _ _ ?_)
  exact SafeStep.refl _
  refine SafeStep.exIte ?_ ?_
  exact SafeStep.exErr
  refine SafeStep.exIte ?_ ?_
  exact SafeStep.exErr
  refine SafeStep.exOk ?_
  refine SafeStep.trans ?_ (State.modStack_safe ..)
  exact SafeStep.refl _

theorem execPathMonitorSample_safe (t : Nat) (readings : List Nat) (hub : List Nat) (s : State) : ∀ v : State, execPathMonitorSample t readings hub s = .next v → SafeStep s v := by
  unfold execPathMonitorSample
  extract_lets +onlyGivenNames q1
  refine SafeStep.nxIte ?_ ?_
  refine SafeStep.nx ?_
  refine SafeStep.trans ?_ (State.modHealth_safe ..)
  refine SafeStep.trans ?_ (State.at__safe ..)
  exact SafeStep.refl _
  refine SafeStep.nx ?_
  refine SafeStep.trans ?_ (State.at__safe ..)
  exact SafeStep.refl _

theorem State.planDie_safe (s : State) (d : Nat) : SafeStep s (State.planDie s d) := by
  unfold State.planDie
  refine SafeStep.ite ?_ ?_
  exact SafeStep.refl _
  refine SafeStep.ite ?_ ?_
  refine SafeStep.trans ?_ (State.raiseVolt_safe ..)
  exact SafeStep.refl _
  refine SafeStep.trans ?_ (State.modHealth_safe ..)
  exact SafeStep.refl _

theorem State.planHub_safe (s : State) : SafeStep s (State.planHub s) := by
  unfold State.planHub
  refine SafeStep.ite ?_ ?_
  exact SafeStep.refl _
  refine SafeStep.ite ?_ ?_
  refine SafeStep.trans ?_ (State.raiseVolt_safe ..)
  exact SafeStep.refl _
  refine SafeStep.trans ?_ (State.modHealth_safe ..)
  exact SafeStep.refl _

theorem State.planFlash_safe (s : State) (waf : Nat) : SafeStep s (State.planFlash s waf) := by
  unfold State.planFlash
  extract_lets +onlyGivenNames q1
  extract_lets +onlyGivenNames q2
  extract_lets +onlyGivenNames q3
  refine SafeStep.ite ?_ ?_
  refine SafeStep.trans ?_ (State.modHealth_safe ..)
  refine SafeStep.trans ?_ (State.modDeep_safe ..)
  exact SafeStep.refl _
  exact SafeStep.refl _

theorem State.planLasers_safe (s : State) (margins : List Nat) : SafeStep s (State.planLasers s margins) := by
  unfold State.planLasers
  refine SafeStep.foldl ?_ (fun s x => ?_)
  exact SafeStep.refl _
  refine SafeStep.ite ?_ ?_
  refine SafeStep.trans ?_ (State.modPorts_safe ..)
  exact SafeStep.refl _
  exact SafeStep.refl _

theorem execTenteringRun_safe (t waf30 : Nat) (margins : List Nat) (s : State) : ∀ v : State, execTenteringRun t waf30 margins s = .next v → SafeStep s v := by
  unfold execTenteringRun
  extract_lets +onlyGivenNames q1
  refine SafeStep.nxIte ?_ ?_
  extract_lets +onlyGivenNames q2
  extract_lets +onlyGivenNames q3
  refine SafeStep.nx ?_
  refine SafeStep.trans ?_ (State.noteVitals_safe ..)
  refine SafeStep.trans ?_ (State.applySteps_safe ..)
  refine SafeStep.trans ?_ (State.modHealth_safe ..)
  refine SafeStep.trans ?_ (State.planLasers_safe ..)
  refine SafeStep.trans ?_ (State.planFlash_safe ..)
  refine SafeStep.trans ?_ (State.planHub_safe ..)
  refine SafeStep.foldl ?_ (fun s x => ?_)
  refine SafeStep.trans ?_ (State.at__safe ..)
  exact SafeStep.refl _
  refine SafeStep.trans ?_ (State.planDie_safe ..)
  exact SafeStep.refl _
  refine SafeStep.nx ?_
  refine SafeStep.trans ?_ (State.at__safe ..)
  exact SafeStep.refl _

theorem State.skipFree_safe (s : State) (n : Nat) : SafeStep s (s.skipFree n) :=
  SafeStep.recordF rfl rfl rfl rfl (Nat.le_add_right _ _) rfl rfl rfl

theorem execGetAgeingTelemetry_safe (h : MbHdr) (o : OutReq) (s : State) : ∀ v : State, execGetAgeingTelemetry h o s = .next v → SafeStep s v := by
  unfold execGetAgeingTelemetry
  refine SafeStep.nx ?_
  refine SafeStep.trans ?_ (State.skipFree_safe ..)
  refine SafeStep.trans ?_ (State.mbSnap_safe ..)
  exact SafeStep.refl _

theorem execGetTenteringPlan_safe (h : MbHdr) (s : State) : ∀ v : State, execGetTenteringPlan h s = .next v → SafeStep s v := by
  unfold execGetTenteringPlan
  refine SafeStep.nx ?_
  refine SafeStep.trans ?_ (State.mbRun_safe _ _ _ _ ?_)
  exact SafeStep.refl _
  extract_lets +onlyGivenNames q1
  extract_lets +onlyGivenNames q2
  refine SafeStep.okOk ?_
  dsimp only
  refine SafeStep.trans ?_ (State.freeFields_safe ..)
  exact SafeStep.refl _

theorem State.cold_safe (s : State) : SafeStep s s.cold :=
  SafeStep.recordM rfl rfl rfl (Nat.le_refl _) rfl (fun h => Tbl.wf_updAll h _ _) (fun _ => rfl) id

theorem State.finishPrograms_safe (s : State) : SafeStep s (State.finishPrograms s) := by
  unfold State.finishPrograms
  refine SafeStep.foldl ?_ (fun s x => ?_)
  exact SafeStep.refl _
  extract_lets +onlyGivenNames q1
  split
  refine SafeStep.trans ?_ (State.placeSlot_safe ..)
  refine SafeStep.trans ?_ (State.takePlace_safe _ _ _ _ (by assumption))
  exact SafeStep.refl _
  exact SafeStep.refl _

theorem State.drop48_safe (s : State) : SafeStep s (State.drop48 s) := by
  unfold State.drop48
  refine SafeStep.ite ?_ ?_
  refine SafeStep.trans ?_ (State.cold_safe ..)
  exact SafeStep.refl _
  exact SafeStep.refl _

theorem State.loseHolders_safe (s : State) : SafeStep s (State.loseHolders s) := by
  unfold State.loseHolders
  refine SafeStep.foldl ?_ (fun s x => ?_)
  exact SafeStep.refl _
  extract_lets +onlyGivenNames q1
  extract_lets +onlyGivenNames q2
  refine SafeStep.trans ?_ (SafeStep.modStore (fun _ => rfl) (fun _ => rfl) (fun _ => rfl))
  refine SafeStep.trans ?_ (State.holderLost_safe ..)
  exact SafeStep.refl _

theorem State.flushCold_safe (s : State) : SafeStep s (State.flushCold s) := by
  unfold State.flushCold
  refine SafeStep.ite ?_ ?_
  refine SafeStep.trans ?_ (State.cold_safe ..)
  refine SafeStep.trans ?_ (State.flush_safe ..)
  refine SafeStep.trans ?_ (State.loseHolders_safe ..)
  refine SafeStep.trans ?_ (State.finishPrograms_safe ..)
  exact SafeStep.refl _
  refine SafeStep.trans ?_ (State.drop48_safe ..)
  exact SafeStep.refl _

theorem State.brakeCold_safe (s : State) : SafeStep s (State.brakeCold s) := by
  unfold State.brakeCold
  refine SafeStep.ite ?_ ?_
  extract_lets +onlyGivenNames q1
  extract_lets +onlyGivenNames q2
  extract_lets +onlyGivenNames q3
  extract_lets +onlyGivenNames q4
  refine SafeStep.trans ?_ (State.cold_safe ..)
  refine SafeStep.trans ?_ (State.modDeep_safe ..)
  refine SafeStep.trans ?_ (State.flush_safe ..)
  refine SafeStep.trans ?_ (State.loseHolders_safe ..)
  exact SafeStep.refl _
  refine SafeStep.trans ?_ (State.drop48_safe ..)
  exact SafeStep.refl _

theorem State.powerUpReset_safe (s : State) : SafeStep s (State.powerUpReset s) := by
  unfold State.powerUpReset
  with_reducible refine SafeStep.trans ?_ (SafeStep.fields rfl rfl rfl rfl)
  exact SafeStep.refl _

theorem State.loseMain_safe (s : State) : SafeStep s (State.loseMain s) := by
  unfold State.loseMain
  extract_lets +onlyGivenNames q1
  with_reducible refine SafeStep.trans ?_ (SafeStep.fields rfl rfl rfl rfl)
  refine SafeStep.trans ?_ (State.modDeep_safe ..)
  refine SafeStep.trans ?_ (State.powerUpReset_safe ..)
  refine SafeStep.trans ?_ (State.flushCold_safe ..)
  exact SafeStep.refl _

theorem State.loseInput_safe (s : State) : SafeStep s (State.loseInput s) := by
  unfold State.loseInput
  refine SafeStep.ite ?_ ?_
  refine SafeStep.trans ?_ (State.loseMain_safe ..)
  exact SafeStep.refl _
  refine SafeStep.ite ?_ ?_
  with_reducible refine SafeStep.trans ?_ (SafeStep.fields rfl rfl rfl rfl)
  exact SafeStep.refl _
  exact SafeStep.refl _

theorem execPowerLoss_safe (t : Nat) (s : State) : ∀ v : State, execPowerLoss t s = .next v → SafeStep s v := by
  unfold execPowerLoss
  refine SafeStep.nx ?_
  refine SafeStep.trans ?_ (State.loseInput_safe ..)
  refine SafeStep.trans ?_ (State.at__safe ..)
  exact SafeStep.refl _

theorem State.lightPorts_safe (s : State) : SafeStep s (State.lightPorts s) := by
  unfold State.lightPorts
  extract_lets +onlyGivenNames q1
  extract_lets +onlyGivenNames q2
  refine SafeStep.trans ?_ (State.modPorts_safe ..)
  exact SafeStep.refl _

theorem State.mainSequence_safe (s : State) (zero : Bool) : SafeStep s (State.mainSequence s zero) := by
  unfold State.mainSequence
  extract_lets +onlyGivenNames q1
  extract_lets +onlyGivenNames q2
  refine SafeStep.trans ?_ (State.lightPorts_safe ..)
  with_reducible refine SafeStep.trans ?_ (SafeStep.fields rfl rfl rfl rfl)
  refine SafeStep.ite ?_ ?_
  refine SafeStep.trans ?_ (State.modCxe_safe ..)
  refine SafeStep.trans ?_ (State.modClock_safe ..)
  exact SafeStep.refl _
  refine SafeStep.trans ?_ (State.modClock_safe ..)
  exact SafeStep.refl _

theorem State.tryMain_safe (s : State) : SafeStep s (State.tryMain s) := by
  unfold State.tryMain
  refine SafeStep.ite ?_ ?_
  refine SafeStep.trans ?_ (State.mainSequence_safe ..)
  exact SafeStep.refl _
  exact SafeStep.refl _

theorem execVaux33PowerOn_safe (t : Nat) (s : State) : ∀ v : State, execVaux33PowerOn t s = .next v → SafeStep s v := by
  unfold execVaux33PowerOn
  extract_lets +onlyGivenNames q1
  refine SafeStep.nxIte ?_ ?_
  refine SafeStep.nx ?_
  refine SafeStep.trans ?_ (State.modClock_safe ..)
  refine SafeStep.trans ?_ (State.at__safe ..)
  exact SafeStep.refl _
  extract_lets +onlyGivenNames q2
  refine SafeStep.nx ?_
  with_reducible refine SafeStep.trans ?_ (SafeStep.fields rfl rfl rfl rfl)
  refine SafeStep.trans ?_ (State.modClock_safe ..)
  refine SafeStep.trans ?_ (State.powerUpReset_safe ..)
  refine SafeStep.trans ?_ (State.at__safe ..)
  exact SafeStep.refl _

theorem execFastOscQualified_safe (t xdly : Nat) (s : State) : ∀ v : State, execFastOscQualified t xdly s = .next v → SafeStep s v := by
  unfold execFastOscQualified
  extract_lets +onlyGivenNames q1
  refine SafeStep.nxIte ?_ ?_
  refine SafeStep.nx ?_
  extract_lets +onlyGivenNames q2
  with_reducible refine SafeStep.trans ?_ (SafeStep.fields rfl rfl rfl rfl)
  refine SafeStep.trans ?_ (State.modClock_safe ..)
  refine SafeStep.trans ?_ (State.at__safe ..)
  exact SafeStep.refl _
  refine SafeStep.nx ?_
  refine SafeStep.trans ?_ (State.at__safe ..)
  exact SafeStep.refl _

theorem State.setCrystal_safe (s : State) (c : Nat) (x : Crystal) : SafeStep s (State.setCrystal s c x) := by
  unfold State.setCrystal
  refine SafeStep.trans ?_ (State.modClock_safe ..)
  exact SafeStep.refl _

theorem State.startXb_safe (s : State) : SafeStep s (State.startXb s) := by
  unfold State.startXb
  refine SafeStep.ite ?_ ?_
  refine SafeStep.trans ?_ (State.modClock_safe ..)
  exact SafeStep.refl _
  exact SafeStep.refl _

theorem State.fallback_safe (s : State) (lost : Nat) : SafeStep s (State.fallback s lost) := by
  unfold State.fallback
  refine SafeStep.ite ?_ ?_
  refine SafeStep.trans ?_ (State.post_safe ..)
  exact SafeStep.refl _
  refine SafeStep.trans ?_ (State.modClock_safe ..)
  exact SafeStep.refl _

theorem State.releaseBrake_safe (s : State) : SafeStep s (State.releaseBrake s) := by
  unfold State.releaseBrake
  extract_lets +onlyGivenNames q1
  refine SafeStep.trans ?_ (State.tryMain_safe ..)
  extract_lets +onlyGivenNames q2
  with_reducible refine SafeStep.trans ?_ (SafeStep.fields rfl rfl rfl rfl)
  refine SafeStep.trans ?_ (State.modClock_safe ..)
  refine SafeStep.ite ?_ ?_
  refine SafeStep.trans ?_ (State.modClock_safe ..)
  exact SafeStep.refl _
  exact SafeStep.refl _

theorem State.brake_safe (s : State) : SafeStep s (State.brake s) := by
  unfold State.brake
  extract_lets +onlyGivenNames q1
  with_reducible refine SafeStep.trans ?_ (SafeStep.fields rfl rfl rfl rfl)
  refine SafeStep.trans ?_ (State.modClock_safe ..)
  refine SafeStep.trans ?_ (State.brakeCold_safe ..)
  exact SafeStep.refl _

theorem execCrystalQualified_safe (t crystal : Nat) (s : State) : ∀ v : State, execCrystalQualified t crystal s = .next v → SafeStep s v := by
  unfold execCrystalQualified
  extract_lets +onlyGivenNames q1
  refine SafeStep.nxIte ?_ ?_
  refine SafeStep.nx ?_
  refine SafeStep.trans ?_ (State.at__safe ..)
  exact SafeStep.refl _
  extract_lets +onlyGivenNames q2
  extract_lets +onlyGivenNames q3
  refine SafeStep.nxIte ?_ ?_
  extract_lets +onlyGivenNames q4
  refine SafeStep.nx ?_
  refine SafeStep.ite ?_ ?_
  refine SafeStep.trans ?_ (State.modClock_safe ..)
  refine SafeStep.ite ?_ ?_
  refine SafeStep.trans ?_ (State.startXb_safe ..)
  refine SafeStep.trans ?_ (State.setCrystal_safe ..)
  refine SafeStep.trans ?_ (State.at__safe ..)
  exact SafeStep.refl _
  refine SafeStep.trans ?_ (State.setCrystal_safe ..)
  refine SafeStep.trans ?_ (State.at__safe ..)
  exact SafeStep.refl _
  refine SafeStep.trans ?_ (State.releaseBrake_safe ..)
  refine SafeStep.trans ?_ (State.modClock_safe ..)
  refine SafeStep.ite ?_ ?_
  refine SafeStep.trans ?_ (State.startXb_safe ..)
  refine SafeStep.trans ?_ (State.setCrystal_safe ..)
  refine SafeStep.trans ?_ (State.at__safe ..)
  exact SafeStep.refl _
  refine SafeStep.trans ?_ (State.setCrystal_safe ..)
  refine SafeStep.trans ?_ (State.at__safe ..)
  exact SafeStep.refl _
  refine SafeStep.nx ?_
  refine SafeStep.ite ?_ ?_
  refine SafeStep.trans ?_ (State.startXb_safe ..)
  refine SafeStep.trans ?_ (State.setCrystal_safe ..)
  refine SafeStep.trans ?_ (State.at__safe ..)
  exact SafeStep.refl _
  refine SafeStep.trans ?_ (State.setCrystal_safe ..)
  refine SafeStep.trans ?_ (State.at__safe ..)
  exact SafeStep.refl _

theorem execCrystalQualTimeout_safe (t crystal : Nat) (s : State) : ∀ v : State, execCrystalQualTimeout t crystal s = .next v → SafeStep s v := by
  unfold execCrystalQualTimeout
  extract_lets +onlyGivenNames q1
  refine SafeStep.nxIte ?_ ?_
  refine SafeStep.nx ?_
  refine SafeStep.trans ?_ (State.at__safe ..)
  exact SafeStep.refl _
  extract_lets +onlyGivenNames q2
  refine SafeStep.nx ?_
  refine SafeStep.trans ?_ (State.noteVitals_safe ..)
  refine SafeStep.ite ?_ ?_
  refine SafeStep.trans ?_ (State.startXb_safe ..)
  refine SafeStep.trans ?_ (State.fallback_safe ..)
  refine SafeStep.trans ?_ (State.setCrystal_safe ..)
  refine SafeStep.trans ?_ (State.at__safe ..)
  exact SafeStep.refl _
  refine SafeStep.trans ?_ (State.fallback_safe ..)
  refine SafeStep.trans ?_ (State.setCrystal_safe ..)
  refine SafeStep.trans ?_ (State.at__safe ..)
  exact SafeStep.refl _

theorem execCrystalTrip_safe (t crystal : Nat) (s : State) : ∀ v : State, execCrystalTrip t crystal s = .next v → SafeStep s v := by
  unfold execCrystalTrip
  extract_lets +onlyGivenNames q1
  refine SafeStep.nxIte ?_ ?_
  refine SafeStep.nx ?_
  refine SafeStep.trans ?_ (State.at__safe ..)
  exact SafeStep.refl _
  extract_lets +onlyGivenNames q2
  refine SafeStep.nxIte ?_ ?_
  refine SafeStep.nx ?_
  refine SafeStep.trans ?_ (State.noteVitals_safe ..)
  refine SafeStep.trans ?_ (State.fallback_safe ..)
  refine SafeStep.trans ?_ (State.setCrystal_safe ..)
  refine SafeStep.trans ?_ (State.at__safe ..)
  exact SafeStep.refl _
  refine SafeStep.nxIte ?_ ?_
  refine SafeStep.nx ?_
  refine SafeStep.trans ?_ (State.noteVitals_safe ..)
  refine SafeStep.trans ?_ (State.fallback_safe ..)
  refine SafeStep.trans ?_ (State.modClock_safe ..)
  refine SafeStep.trans ?_ (State.setCrystal_safe ..)
  refine SafeStep.trans ?_ (State.at__safe ..)
  exact SafeStep.refl _
  refine SafeStep.nx ?_
  refine SafeStep.trans ?_ (State.modClock_safe ..)
  refine SafeStep.trans ?_ (State.brake_safe ..)
  refine SafeStep.trans ?_ (State.setCrystal_safe ..)
  refine SafeStep.trans ?_ (State.at__safe ..)
  exact SafeStep.refl _

theorem execFastOscFail_safe (t : Nat) (s : State) : ∀ v : State, execFastOscFail t s = .next v → SafeStep s v := by
  unfold execFastOscFail
  extract_lets +onlyGivenNames q1
  refine SafeStep.nxIte ?_ ?_
  refine SafeStep.nx ?_
  refine SafeStep.trans ?_ (State.at__safe ..)
  exact SafeStep.refl _
  refine SafeStep.nx ?_
  refine SafeStep.trans ?_ (State.modClock_safe ..)
  refine SafeStep.trans ?_ (State.brake_safe ..)
  refine SafeStep.trans ?_ (State.at__safe ..)
  exact SafeStep.refl _

theorem execPwrgdAssert_safe (t : Nat) (s : State) : ∀ v : State, execPwrgdAssert t s = .next v → SafeStep s v := by
  unfold execPwrgdAssert
  extract_lets +onlyGivenNames q1
  refine SafeStep.nxIte ?_ ?_
  refine SafeStep.nx ?_
  refine SafeStep.trans ?_ (State.at__safe ..)
  exact SafeStep.refl _
  refine SafeStep.nx ?_
  refine SafeStep.trans ?_ (State.tryMain_safe ..)
  refine SafeStep.trans ?_ (State.modClock_safe ..)
  refine SafeStep.trans ?_ (State.at__safe ..)
  exact SafeStep.refl _

theorem execPwrgdDeassert_safe (t : Nat) (s : State) : ∀ v : State, execPwrgdDeassert t s = .next v → SafeStep s v := by
  unfold execPwrgdDeassert
  refine SafeStep.nx ?_
  refine SafeStep.trans ?_ (State.loseInput_safe ..)
  refine SafeStep.trans ?_ (State.modClock_safe ..)
  refine SafeStep.trans ?_ (State.at__safe ..)
  exact SafeStep.refl _

theorem execPerstAssert_safe (t held : Nat) (s : State) : ∀ v : State, execPerstAssert t held s = .next v → SafeStep s v := by
  unfold execPerstAssert
  extract_lets +onlyGivenNames q1
  refine SafeStep.nxIte ?_ ?_
  refine SafeStep.nx ?_
  refine SafeStep.trans ?_ (State.at__safe ..)
  exact SafeStep.refl _
  extract_lets +onlyGivenNames q2
  refine SafeStep.nxIte ?_ ?_
  refine SafeStep.nxIte ?_ ?_
  refine SafeStep.nx ?_
  refine SafeStep.trans ?_ (State.modClock_safe ..)
  refine SafeStep.trans ?_ (State.at__safe ..)
  exact SafeStep.refl _
  refine SafeStep.nx ?_
  extract_lets +onlyGivenNames q3
  with_reducible refine SafeStep.trans ?_ (SafeStep.fields rfl rfl rfl rfl)
  refine SafeStep.trans ?_ (State.modClock_safe ..)
  refine SafeStep.trans ?_ (State.modClock_safe ..)
  refine SafeStep.trans ?_ (State.at__safe ..)
  exact SafeStep.refl _
  refine SafeStep.nxIte ?_ ?_
  refine SafeStep.nxIte ?_ ?_
  refine SafeStep.nx ?_
  extract_lets +onlyGivenNames q4
  with_reducible refine SafeStep.trans ?_ (SafeStep.fields rfl rfl rfl rfl)
  refine SafeStep.trans ?_ (State.modClock_safe ..)
  refine SafeStep.trans ?_ (State.modClock_safe ..)
  refine SafeStep.trans ?_ (State.at__safe ..)
  exact SafeStep.refl _
  refine SafeStep.nx ?_
  refine SafeStep.trans ?_ (State.modClock_safe ..)
  refine SafeStep.trans ?_ (State.at__safe ..)
  exact SafeStep.refl _
  refine SafeStep.nxIte ?_ ?_
  extract_lets +onlyGivenNames q5
  refine SafeStep.nx ?_
  extract_lets +onlyGivenNames q6
  with_reducible refine SafeStep.trans ?_ (SafeStep.fields rfl rfl rfl rfl)
  refine SafeStep.trans ?_ (State.modClock_safe ..)
  refine SafeStep.trans ?_ (State.modDeep_safe ..)
  refine SafeStep.trans ?_ (State.flushCold_safe ..)
  refine SafeStep.trans ?_ (State.modClock_safe ..)
  refine SafeStep.trans ?_ (State.at__safe ..)
  exact SafeStep.refl _
  refine SafeStep.nx ?_
  refine SafeStep.trans ?_ (State.modClock_safe ..)
  refine SafeStep.trans ?_ (State.at__safe ..)
  exact SafeStep.refl _

theorem execPerstDeassert_safe (t : Nat) (s : State) : ∀ v : State, execPerstDeassert t s = .next v → SafeStep s v := by
  unfold execPerstDeassert
  extract_lets +onlyGivenNames q1
  refine SafeStep.nxIte ?_ ?_
  refine SafeStep.nxIte ?_ ?_
  refine SafeStep.nx ?_
  refine SafeStep.trans ?_ (State.mainSequence_safe ..)
  refine SafeStep.trans ?_ (State.modClock_safe ..)
  refine SafeStep.trans ?_ (State.at__safe ..)
  exact SafeStep.refl _
  refine SafeStep.nx ?_
  with_reducible refine SafeStep.trans ?_ (SafeStep.fields rfl rfl rfl rfl)
  refine SafeStep.trans ?_ (State.modClock_safe ..)
  refine SafeStep.trans ?_ (State.at__safe ..)
  exact SafeStep.refl _
  refine SafeStep.nx ?_
  refine SafeStep.trans ?_ (State.tryMain_safe ..)
  refine SafeStep.trans ?_ (State.modClock_safe ..)
  refine SafeStep.trans ?_ (State.at__safe ..)
  exact SafeStep.refl _

theorem execVin48Overvoltage_safe (t : Nat) (s : State) : ∀ v : State, execVin48Overvoltage t s = .next v → SafeStep s v := by
  unfold execVin48Overvoltage
  refine SafeStep.nx ?_
  refine SafeStep.trans ?_ (State.loseInput_safe ..)
  refine SafeStep.trans ?_ (State.modClock_safe ..)
  refine SafeStep.trans ?_ (State.at__safe ..)
  exact SafeStep.refl _

theorem execVin48InputReconnect_safe (t : Nat) (s : State) : ∀ v : State, execVin48InputReconnect t s = .next v → SafeStep s v := by
  unfold execVin48InputReconnect
  refine SafeStep.nx ?_
  refine SafeStep.trans ?_ (State.modClock_safe ..)
  refine SafeStep.trans ?_ (State.at__safe ..)
  exact SafeStep.refl _

theorem execVaux33Loss_safe (t : Nat) (s : State) : ∀ v : State, execVaux33Loss t s = .next v → SafeStep s v := by
  unfold execVaux33Loss
  extract_lets +onlyGivenNames q1
  refine SafeStep.nxIte ?_ ?_
  refine SafeStep.nx ?_
  refine SafeStep.trans ?_ (State.modClock_safe ..)
  refine SafeStep.trans ?_ (State.at__safe ..)
  exact SafeStep.refl _
  extract_lets +onlyGivenNames q2
  extract_lets +onlyGivenNames q3
  refine SafeStep.nx ?_
  with_reducible refine SafeStep.trans ?_ (SafeStep.fields rfl rfl rfl rfl)
  refine SafeStep.trans ?_ (State.modClock_safe ..)
  refine SafeStep.ite ?_ ?_
  refine SafeStep.trans ?_ (State.loseMain_safe ..)
  refine SafeStep.trans ?_ (State.at__safe ..)
  exact SafeStep.refl _
  refine SafeStep.trans ?_ (State.at__safe ..)
  exact SafeStep.refl _

theorem execThermalTrip_safe (t : Nat) (part : Part17) (unit : Nat) (temp : Int) (s : State) : ∀ v : State, execThermalTrip t part unit temp s = .next v → SafeStep s v := by
  unfold execThermalTrip
  extract_lets +onlyGivenNames q1
  refine SafeStep.nxIte ?_ ?_
  refine SafeStep.nx ?_
  refine SafeStep.trans ?_ (State.at__safe ..)
  exact SafeStep.refl _
  extract_lets +onlyGivenNames q2
  refine SafeStep.nx ?_
  extract_lets +onlyGivenNames q3
  with_reducible refine SafeStep.trans ?_ (SafeStep.fields rfl rfl rfl rfl)
  refine SafeStep.trans ?_ (State.modClock_safe ..)
  refine SafeStep.trans ?_ (State.modDeep_safe ..)
  refine SafeStep.trans ?_ (State.flushCold_safe ..)
  refine SafeStep.trans ?_ (State.setTemp_safe ..)
  refine SafeStep.trans ?_ (State.at__safe ..)
  exact SafeStep.refl _

theorem State.failedOther_safe (s : State) (unit : Nat) : SafeStep s (State.failedOther s unit) := by
  unfold State.failedOther
  extract_lets +onlyGivenNames q1
  refine SafeStep.trans ?_ (State.unitFailed_safe ..)
  refine SafeStep.trans ?_ (State.free_safe ..)
  exact SafeStep.refl _

theorem State.dieDown_safe (s : State) (d : Nat) : SafeStep s (State.dieDown s d) := by
  unfold State.dieDown
  refine SafeStep.ite ?_ ?_
  exact SafeStep.refl _
  extract_lets +onlyGivenNames q1
  extract_lets +onlyGivenNames q2
  extract_lets +onlyGivenNames q3
  extract_lets +onlyGivenNames q4
  refine SafeStep.trans ?_ (State.caps_safe ..)
  refine SafeStep.trans ?_ (State.modClock_safe ..)
  refine SafeStep.foldl ?_ (fun s x => ?_)
  refine SafeStep.foldl ?_ (fun s x => ?_)
  refine SafeStep.trans ?_ (SafeStep.modStore (fun _ => rfl) (fun _ => rfl) (fun _ => rfl))
  refine SafeStep.trans ?_ (State.modHealth_safe ..)
  refine SafeStep.trans ?_ (State.failedOther_safe ..)
  exact SafeStep.refl _
  refine SafeStep.trans ?_ (State.stoneFails_safe ..)
  exact SafeStep.refl _
  refine SafeStep.trans ?_ (State.stackFails_safe ..)
  exact SafeStep.refl _

theorem State.lanesDown_safe (s : State) (port : Nat) : SafeStep s (State.lanesDown s port) := by
  unfold State.lanesDown
  extract_lets +onlyGivenNames q1
  extract_lets +onlyGivenNames q2
  refine SafeStep.ite ?_ ?_
  extract_lets +onlyGivenNames q3
  extract_lets +onlyGivenNames q4
  refine SafeStep.trans ?_ (State.portDown_safe ..)
  refine SafeStep.foldl ?_ (fun s x => ?_)
  refine SafeStep.trans ?_ (State.modPort_safe ..)
  refine SafeStep.trans ?_ (State.modPorts_safe ..)
  exact SafeStep.refl _
  refine SafeStep.trans ?_ (State.post_safe ..)
  exact SafeStep.refl _
  refine SafeStep.trans ?_ (State.modPorts_safe ..)
  exact SafeStep.refl _

theorem State.rerunDie_safe (s : State) (d : Nat) : SafeStep s (State.rerunDie s d) := by
  unfold State.rerunDie
  refine SafeStep.foldl ?_ (fun s x => ?_)
  exact SafeStep.refl _
  refine SafeStep.trans ?_ (State.rerun_safe ..)
  exact SafeStep.refl _

theorem execPllLockLoss_safe (t domain unit : Nat) (s : State) : ∀ v : State, execPllLockLoss t domain unit s = .next v → SafeStep s v := by
  unfold execPllLockLoss
  extract_lets +onlyGivenNames q1
  refine SafeStep.nxIte ?_ ?_
  refine SafeStep.nx ?_
  refine SafeStep.trans ?_ (State.at__safe ..)
  exact SafeStep.refl _
  extract_lets +onlyGivenNames q2
  extract_lets +onlyGivenNames q3
  refine SafeStep.nxIte ?_ ?_
  refine SafeStep.nx ?_
  refine SafeStep.trans ?_ (State.modClock_safe ..)
  refine SafeStep.trans ?_ (State.brake_safe ..)
  refine SafeStep.trans ?_ (State.modClock_safe ..)
  refine SafeStep.trans ?_ (State.at__safe ..)
  exact SafeStep.refl _
  refine SafeStep.nxIte ?_ ?_
  refine SafeStep.nx ?_
  refine SafeStep.trans ?_ (State.noteVitals_safe ..)
  refine SafeStep.trans ?_ (State.lanesDown_safe ..)
  refine SafeStep.trans ?_ (State.modClock_safe ..)
  refine SafeStep.trans ?_ (State.at__safe ..)
  exact SafeStep.refl _
  extract_lets +onlyGivenNames q4
  extract_lets +onlyGivenNames q5
  extract_lets +onlyGivenNames q6
  refine SafeStep.nx ?_
  refine SafeStep.ite ?_ ?_
  refine SafeStep.trans ?_ (State.noteVitals_safe ..)
  refine SafeStep.trans ?_ (State.dieDown_safe ..)
  refine SafeStep.trans ?_ (State.rerunDie_safe ..)
  refine SafeStep.trans ?_ (State.modClock_safe ..)
  refine SafeStep.trans ?_ (State.modClock_safe ..)
  refine SafeStep.trans ?_ (State.at__safe ..)
  exact SafeStep.refl _
  refine SafeStep.trans ?_ (State.rerunDie_safe ..)
  refine SafeStep.trans ?_ (State.modClock_safe ..)
  refine SafeStep.trans ?_ (State.modClock_safe ..)
  refine SafeStep.trans ?_ (State.at__safe ..)
  exact SafeStep.refl _

theorem execPllRelock_safe (t domain unit : Nat) (s : State) : ∀ v : State, execPllRelock t domain unit s = .next v → SafeStep s v := by
  unfold execPllRelock
  extract_lets +onlyGivenNames q1
  refine SafeStep.nxIte ?_ ?_
  refine SafeStep.nxIte ?_ ?_
  extract_lets +onlyGivenNames q2
  refine SafeStep.nx ?_
  refine SafeStep.ite ?_ ?_
  refine SafeStep.trans ?_ (State.releaseBrake_safe ..)
  refine SafeStep.trans ?_ (State.modClock_safe ..)
  refine SafeStep.trans ?_ (State.at__safe ..)
  exact SafeStep.refl _
  refine SafeStep.trans ?_ (State.modClock_safe ..)
  refine SafeStep.trans ?_ (State.at__safe ..)
  exact SafeStep.refl _
  refine SafeStep.nx ?_
  refine SafeStep.trans ?_ (State.at__safe ..)
  exact SafeStep.refl _
  extract_lets +onlyGivenNames q3
  refine SafeStep.nx ?_
  refine SafeStep.trans ?_ (State.retryReads_safe ..)
  refine SafeStep.trans ?_ (State.placeWaiting_safe ..)
  refine SafeStep.trans ?_ (State.modClock_safe ..)
  refine SafeStep.trans ?_ (State.at__safe ..)
  exact SafeStep.refl _

theorem execClockGateRequest_safe (t kind unit : Nat) (s : State) : ∀ v : State, execClockGateRequest t kind unit s = .next v → SafeStep s v := by
  unfold execClockGateRequest
  extract_lets +onlyGivenNames q1
  refine SafeStep.nxIte ?_ ?_
  refine SafeStep.nx ?_
  refine SafeStep.trans ?_ (State.at__safe ..)
  exact SafeStep.refl _
  extract_lets +onlyGivenNames q2
  refine SafeStep.nxIte ?_ ?_
  refine SafeStep.nx ?_
  refine SafeStep.trans ?_ (State.modClock_safe ..)
  refine SafeStep.trans ?_ (State.at__safe ..)
  exact SafeStep.refl _
  refine SafeStep.nx ?_
  refine SafeStep.trans ?_ (State.modClock_safe ..)
  refine SafeStep.trans ?_ (State.at__safe ..)
  exact SafeStep.refl _

theorem execGateHandshakeTimeout_safe (t kind unit : Nat) (s : State) : ∀ v : State, execGateHandshakeTimeout t kind unit s = .next v → SafeStep s v := by
  unfold execGateHandshakeTimeout
  extract_lets +onlyGivenNames q1
  refine SafeStep.nxIte ?_ ?_
  refine SafeStep.nx ?_
  refine SafeStep.trans ?_ (State.modClock_safe ..)
  refine SafeStep.trans ?_ (State.at__safe ..)
  exact SafeStep.refl _
  refine SafeStep.nx ?_
  refine SafeStep.trans ?_ (State.at__safe ..)
  exact SafeStep.refl _

theorem execClockGateWake_safe (t kind unit : Nat) (s : State) : ∀ v : State, execClockGateWake t kind unit s = .next v → SafeStep s v := by
  unfold execClockGateWake
  refine SafeStep.nx ?_
  refine SafeStep.trans ?_ (State.modClock_safe ..)
  refine SafeStep.trans ?_ (State.at__safe ..)
  exact SafeStep.refl _

theorem State.fwRecord_safe (s : State) (slot : Nat) (refused : Bool) : SafeStep s (State.fwRecord s slot refused) := by
  unfold State.fwRecord
  extract_lets +onlyGivenNames q1
  refine SafeStep.trans ?_ (State.ledger_safe ..)
  exact SafeStep.refl _

theorem State.choose_safe (s : State) (full : Bool) : SafeStep s (State.choose s full).2 := by
  unfold State.choose
  extract_lets +onlyGivenNames q1
  extract_lets +onlyGivenNames q2
  extract_lets +onlyGivenNames q3
  extract_lets +onlyGivenNames q4
  refine SafeStep.iteP ?_ ?_
  dsimp only
  refine SafeStep.trans ?_ (SafeStep.modBoot (fun _ => rfl))
  refine SafeStep.trans ?_ (SafeStep.modBoot (fun _ => rfl))
  refine SafeStep.ite ?_ ?_
  refine SafeStep.trans ?_ (State.fwRecord_safe ..)
  exact SafeStep.refl _
  exact SafeStep.refl _
  extract_lets +onlyGivenNames q5
  extract_lets +onlyGivenNames q6
  refine SafeStep.iteP ?_ ?_
  dsimp only
  refine SafeStep.trans ?_ (SafeStep.modBoot (fun _ => rfl))
  unfold q5
  (unfold q2; split)
  refine SafeStep.trans ?_ (State.fwRecord_safe ..)
  refine SafeStep.trans ?_ (SafeStep.modBoot (fun _ => rfl))
  refine SafeStep.ite ?_ ?_
  refine SafeStep.trans ?_ (State.fwRecord_safe ..)
  exact SafeStep.refl _
  exact SafeStep.refl _
  refine SafeStep.trans ?_ (SafeStep.modBoot (fun _ => rfl))
  refine SafeStep.ite ?_ ?_
  refine SafeStep.trans ?_ (State.fwRecord_safe ..)
  exact SafeStep.refl _
  exact SafeStep.refl _
  dsimp only
  unfold q5
  (unfold q2; split)
  refine SafeStep.trans ?_ (State.fwRecord_safe ..)
  refine SafeStep.trans ?_ (SafeStep.modBoot (fun _ => rfl))
  refine SafeStep.ite ?_ ?_
  refine SafeStep.trans ?_ (State.fwRecord_safe ..)
  exact SafeStep.refl _
  exact SafeStep.refl _
  refine SafeStep.trans ?_ (SafeStep.modBoot (fun _ => rfl))
  refine SafeStep.ite ?_ ?_
  refine SafeStep.trans ?_ (State.fwRecord_safe ..)
  exact SafeStep.refl _
  exact SafeStep.refl _

theorem State.condemn_safe (s : State) (p : Extent → Bool) : SafeStep s (State.condemn s p) := by
  unfold State.condemn
  extract_lets +onlyGivenNames q1
  with_reducible refine SafeStep.trans ?_ (SafeStep.fields rfl rfl rfl rfl)
  exact SafeStep.refl _

theorem State.endDebugKeys_safe (s : State) : SafeStep s (State.endDebugKeys s) := by
  unfold State.endDebugKeys
  extract_lets +onlyGivenNames q1
  extract_lets +onlyGivenNames q2
  refine SafeStep.trans ?_ (SafeStep.modBoot (fun _ => rfl))
  refine SafeStep.trans ?_ (State.condemn_safe ..)
  refine SafeStep.foldl ?_ (fun s x => ?_)
  exact SafeStep.refl _
  refine SafeStep.trans ?_ (State.endKey_safe ..)
  refine SafeStep.trans ?_ (State.setKey_safe ..)
  exact SafeStep.refl _

theorem State.endWiped_safe (s : State) : SafeStep s (State.endWiped s) := by
  unfold State.endWiped
  refine SafeStep.ite ?_ ?_
  extract_lets +onlyGivenNames q1
  extract_lets +onlyGivenNames q2
  refine SafeStep.trans ?_ (SafeStep.modBoot (fun _ => rfl))
  refine SafeStep.trans ?_ (State.ledger_safe ..)
  refine SafeStep.trans ?_ (State.condemn_safe ..)
  refine SafeStep.foldl ?_ (fun s x => ?_)
  exact SafeStep.refl _
  refine SafeStep.trans ?_ (State.endKey_safe ..)
  refine SafeStep.trans ?_ (State.setKey_safe ..)
  exact SafeStep.refl _
  exact SafeStep.refl _

theorem State.trainAll_safe (s : State) (trained : List Bool) : SafeStep s (State.trainAll s trained) := by
  unfold State.trainAll
  refine SafeStep.foldl ?_ (fun s x => ?_)
  exact SafeStep.refl _
  extract_lets +onlyGivenNames q1
  extract_lets +onlyGivenNames q2
  extract_lets +onlyGivenNames q3
  refine SafeStep.ite ?_ ?_
  refine SafeStep.trans ?_ (State.modStack_safe ..)
  refine SafeStep.trans ?_ (SafeStep.fieldsF rfl rfl rfl rfl)
  exact SafeStep.refl _
  refine SafeStep.trans ?_ (State.unitFailed_safe ..)
  refine SafeStep.trans ?_ (State.modStack_safe ..)
  refine SafeStep.trans ?_ (SafeStep.fieldsF rfl rfl rfl rfl)
  exact SafeStep.refl _

theorem State.applyRetires_safe (s : State) : SafeStep s (State.applyRetires s) := by
  unfold State.applyRetires
  refine SafeStep.foldl ?_ (fun s x => ?_)
  exact SafeStep.refl _
  split
  refine SafeStep.trans ?_ (State.retireFrames_safe ..)
  exact SafeStep.refl _
  refine SafeStep.trans ?_ (State.modStack_safe ..)
  exact SafeStep.refl _
  refine SafeStep.trans ?_ (State.modStack_safe ..)
  exact SafeStep.refl _
  exact SafeStep.refl _

theorem State.deriveKey_safe (s : State) : SafeStep s (State.deriveKey s) := by
  unfold State.deriveKey
  refine SafeStep.trans ?_ (SafeStep.modBoot (fun _ => rfl))
  exact SafeStep.refl _

theorem State.writeBw_safe (s : State) (slot : Nat) : SafeStep s (State.writeBw s slot) := by
  unfold State.writeBw
  refine SafeStep.trans ?_ (State.modNear_safe ..)
  exact SafeStep.refl _

theorem State.restoreRec_safe (s : State) (m : Mirror) : SafeStep s (State.restoreRec s m) := by
  unfold State.restoreRec
  split
  exact SafeStep.refl _
  split
  refine SafeStep.trans ?_ (State.lose_safe ..)
  exact SafeStep.refl _
  extract_lets +onlyGivenNames q1
  extract_lets +onlyGivenNames q2
  refine SafeStep.foldl ?_ (fun s x => ?_)
  refine SafeStep.trans ?_ (State.mergeWhole_safe ..)
  exact SafeStep.refl _
  refine SafeStep.getD ?_ ?_
  refine fun v hv => SafeStep.trans ?_ (State.mirrorLine_safe _ _ _ _ _ _ hv)
  exact SafeStep.refl _
  exact SafeStep.refl _

theorem State.restoreArea_safe (s : State) (a : FlushArea) : SafeStep s (State.restoreArea s a) := by
  unfold State.restoreArea
  extract_lets +onlyGivenNames q1
  extract_lets +onlyGivenNames q2
  extract_lets +onlyGivenNames q3
  refine SafeStep.trans ?_ (State.modDeep_safe ..)
  refine SafeStep.foldl ?_ (fun s x => ?_)
  refine SafeStep.foldl ?_ (fun s x => ?_)
  exact SafeStep.refl _
  refine SafeStep.trans ?_ (State.restoreRec_safe ..)
  exact SafeStep.refl _
  split
  refine SafeStep.trans ?_ (State.lose_safe ..)
  exact SafeStep.refl _
  exact SafeStep.refl _

theorem State.emptyVolatile_safe (s : State) : SafeStep s (State.emptyVolatile s) := by
  unfold State.emptyVolatile
  extract_lets +onlyGivenNames q1
  extract_lets +onlyGivenNames q2
  refine SafeStep.foldl ?_ (fun s x => ?_)
  refine SafeStep.foldl ?_ (fun s x => ?_)
  exact SafeStep.refl _
  refine SafeStep.trans ?_ (State.discardSacks_safe ..)
  exact SafeStep.refl _
  refine SafeStep.ite ?_ ?_
  refine SafeStep.trans ?_ (State.discard_safe ..)
  refine SafeStep.foldl ?_ (fun s x => ?_)
  exact SafeStep.refl _
  refine SafeStep.trans ?_ (State.discard_safe ..)
  exact SafeStep.refl _
  exact SafeStep.refl _

theorem State.keepBins_safe (s : State) : SafeStep s (State.keepBins s) := by
  unfold State.keepBins
  extract_lets +onlyGivenNames q1
  extract_lets +onlyGivenNames q2
  refine SafeStep.foldl ?_ (fun s x => ?_)
  refine SafeStep.trans ?_ (State.modGate_safe ..)
  exact SafeStep.refl _
  refine SafeStep.trans ?_ (State.fixNear_safe ..)
  exact SafeStep.refl _

theorem State.mount_safe (s : State) : SafeStep s (State.mount s) := by
  unfold State.mount
  extract_lets +onlyGivenNames q1
  extract_lets +onlyGivenNames q2
  extract_lets +onlyGivenNames q3
  extract_lets +onlyGivenNames q4
  extract_lets +onlyGivenNames q5
  refine SafeStep.trans ?_ (State.modDeep_safe ..)
  refine SafeStep.trans ?_ (State.free_safe ..)
  refine SafeStep.trans ?_ (SafeStep.modStore (fun _ => rfl) (fun _ => rfl) (fun _ => rfl))
  refine SafeStep.trans ?_ (State.keepBins_safe ..)
  refine SafeStep.trans ?_ (State.emptyVolatile_safe ..)
  unfold q2
  split
  refine SafeStep.trans ?_ (State.restoreArea_safe ..)
  refine SafeStep.trans ?_ (State.modDeep_safe ..)
  exact SafeStep.refl _
  refine SafeStep.trans ?_ (State.modDeep_safe ..)
  exact SafeStep.refl _

theorem State.ready_safe (s : State) (cause bootAt : Nat) : SafeStep s (State.ready s cause bootAt) := by
  unfold State.ready
  extract_lets +onlyGivenNames q1
  extract_lets +onlyGivenNames q2
  split
  refine SafeStep.trans ?_ (State.modClock_safe ..)
  refine SafeStep.trans ?_ (State.fallback_safe ..)
  with_reducible refine SafeStep.trans ?_ (SafeStep.fields rfl rfl rfl rfl)
  refine SafeStep.trans ?_ (SafeStep.modBoot (fun _ => rfl))
  exact SafeStep.refl _
  with_reducible refine SafeStep.trans ?_ (SafeStep.fields rfl rfl rfl rfl)
  refine SafeStep.trans ?_ (SafeStep.modBoot (fun _ => rfl))
  exact SafeStep.refl _

theorem State.recover_safe (s : State) (cause bootAt : Nat) : SafeStep s (State.recover s cause bootAt) := by
  unfold State.recover
  extract_lets +onlyGivenNames q1
  extract_lets +onlyGivenNames q2
  with_reducible refine SafeStep.trans ?_ (SafeStep.fields rfl rfl rfl rfl)
  refine SafeStep.trans ?_ (State.modClock_safe ..)
  refine SafeStep.trans ?_ (SafeStep.modBoot (fun _ => rfl))
  exact SafeStep.refl _

theorem State.firstKey_safe (s : State) : SafeStep s (State.firstKey s) := by
  unfold State.firstKey
  refine SafeStep.ite ?_ ?_
  exact SafeStep.refl _
  split
  refine SafeStep.trans ?_ (SafeStep.modBoot (fun _ => rfl))
  refine SafeStep.snd (by assumption) ?_
  refine SafeStep.trans ?_ (State.newKey_safe ..)
  exact SafeStep.refl _

theorem State.fullBoot_safe (s : State) (cause bootAt : Nat) (trained : List Bool) : SafeStep s (State.fullBoot s cause bootAt trained) := by
  unfold State.fullBoot
  split
  refine SafeStep.trans ?_ (State.recover_safe ..)
  refine SafeStep.snd (by assumption) ?_
  refine SafeStep.trans ?_ (State.choose_safe ..)
  exact SafeStep.refl _
  extract_lets +onlyGivenNames q1
  extract_lets +onlyGivenNames q2
  extract_lets +onlyGivenNames q3
  extract_lets +onlyGivenNames q4
  extract_lets +onlyGivenNames q5
  refine SafeStep.trans ?_ (State.caps_safe ..)
  refine SafeStep.trans ?_ (State.ready_safe ..)
  refine SafeStep.trans ?_ (State.applyStaged_safe ..)
  refine SafeStep.trans ?_ (State.mount_safe ..)
  refine SafeStep.trans ?_ (State.modWeir_safe ..)
  refine SafeStep.trans ?_ (State.modInteg_safe ..)
  refine SafeStep.trans ?_ (State.applyRetires_safe ..)
  refine SafeStep.trans ?_ (State.trainAll_safe ..)
  refine SafeStep.trans ?_ (State.endWiped_safe ..)
  refine SafeStep.trans ?_ (State.endDebugKeys_safe ..)
  refine SafeStep.trans ?_ (State.firstKey_safe ..)
  refine SafeStep.trans ?_ (State.writeBw_safe ..)
  refine SafeStep.trans ?_ (State.deriveKey_safe ..)
  refine SafeStep.trans ?_ (SafeStep.modBoot (fun _ => rfl))
  refine SafeStep.snd (by assumption) ?_
  refine SafeStep.trans ?_ (State.choose_safe ..)
  exact SafeStep.refl _

theorem State.faultBoot_safe (s : State) (cause : Nat) : SafeStep s (State.faultBoot s cause) := by
  unfold State.faultBoot
  extract_lets +onlyGivenNames q1
  split
  refine SafeStep.trans ?_ (State.recover_safe ..)
  refine SafeStep.snd (by assumption) ?_
  refine SafeStep.trans ?_ (State.choose_safe ..)
  exact SafeStep.refl _
  refine SafeStep.trans ?_ (State.ready_safe ..)
  refine SafeStep.trans ?_ (State.applyStaged_safe ..)
  refine SafeStep.trans ?_ (State.deriveKey_safe ..)
  refine SafeStep.trans ?_ (SafeStep.modBoot (fun _ => rfl))
  refine SafeStep.snd (by assumption) ?_
  refine SafeStep.trans ?_ (State.choose_safe ..)
  exact SafeStep.refl _

theorem execMillerBoot_safe (t cause : Nat) (trained : List Bool) (s : State) : ∀ v : State, execMillerBoot t cause trained s = .next v → SafeStep s v := by
  unfold execMillerBoot
  extract_lets +onlyGivenNames q1
  refine SafeStep.nxIte ?_ ?_
  refine SafeStep.nxIte ?_ ?_
  refine SafeStep.nx ?_
  refine SafeStep.trans ?_ (State.noteVitals_safe ..)
  refine SafeStep.trans ?_ (State.fullBoot_safe ..)
  refine SafeStep.trans ?_ (State.at__safe ..)
  exact SafeStep.refl _
  refine SafeStep.nx ?_
  refine SafeStep.trans ?_ (State.at__safe ..)
  exact SafeStep.refl _
  refine SafeStep.nxIte ?_ ?_
  refine SafeStep.nx ?_
  refine SafeStep.trans ?_ (State.faultBoot_safe ..)
  refine SafeStep.trans ?_ (State.at__safe ..)
  exact SafeStep.refl _
  refine SafeStep.nx ?_
  refine SafeStep.trans ?_ (State.at__safe ..)
  exact SafeStep.refl _

theorem State.millerFault_safe (s : State) (cause : Nat) : SafeStep s (State.millerFault s cause) := by
  unfold State.millerFault
  extract_lets +onlyGivenNames q1
  extract_lets +onlyGivenNames q2
  with_reducible refine SafeStep.trans ?_ (SafeStep.fields rfl rfl rfl rfl)
  refine SafeStep.trans ?_ (SafeStep.modBoot (fun _ => rfl))
  refine SafeStep.foldl ?_ (fun s x => ?_)
  exact SafeStep.refl _
  refine SafeStep.trans ?_ (State.endJob_safe ..)
  exact SafeStep.refl _

theorem execMillerWatchdog_safe (t : Nat) (s : State) : ∀ v : State, execMillerWatchdog t s = .next v → SafeStep s v := by
  unfold execMillerWatchdog
  extract_lets +onlyGivenNames q1
  refine SafeStep.nxIte ?_ ?_
  refine SafeStep.nx ?_
  refine SafeStep.trans ?_ (State.millerFault_safe ..)
  refine SafeStep.trans ?_ (State.at__safe ..)
  exact SafeStep.refl _
  refine SafeStep.nx ?_
  refine SafeStep.trans ?_ (State.at__safe ..)
  exact SafeStep.refl _

theorem execMillerFetchFault_safe (t : Nat) (s : State) : ∀ v : State, execMillerFetchFault t s = .next v → SafeStep s v := by
  unfold execMillerFetchFault
  extract_lets +onlyGivenNames q1
  refine SafeStep.nxIte ?_ ?_
  refine SafeStep.nx ?_
  refine SafeStep.trans ?_ (State.millerFault_safe ..)
  refine SafeStep.trans ?_ (State.ueLog_safe ..)
  refine SafeStep.trans ?_ (State.at__safe ..)
  exact SafeStep.refl _
  refine SafeStep.nx ?_
  refine SafeStep.trans ?_ (State.at__safe ..)
  exact SafeStep.refl _

theorem execFirmwareTrialCommit_safe (t : Nat) (s : State) : ∀ v : State, execFirmwareTrialCommit t s = .next v → SafeStep s v := by
  unfold execFirmwareTrialCommit
  extract_lets s1 slot s2
  refine SafeStep.nxIte (SafeStep.nx ?_) (SafeStep.nx (State.at__safe ..))
  refine SafeStep.trans (State.at__safe s t) (SafeStep.trans ?_ (State.fwRecord_safe ..))
  exact SafeStep.recordM rfl rfl rfl (Nat.le_max_left _ _) rfl id id id

theorem State.engineDown_safe (s : State) (port : Nat) : SafeStep s (State.engineDown s port) := by
  unfold State.engineDown
  refine SafeStep.ite ?_ ?_
  exact SafeStep.refl _
  extract_lets +onlyGivenNames q1
  extract_lets +onlyGivenNames q2
  refine SafeStep.trans ?_ (State.caps_safe ..)
  refine SafeStep.trans ?_ (State.modPort_safe ..)
  refine SafeStep.trans ?_ (State.modHealth_safe ..)
  refine SafeStep.trans ?_ (State.failedOther_safe ..)
  refine SafeStep.trans ?_ (State.lanesDown_safe ..)
  exact SafeStep.refl _

theorem State.hopDown_safe (s : State) (n : Nat) : SafeStep s (State.hopDown s n) := by
  unfold State.hopDown
  refine SafeStep.ite ?_ ?_
  exact SafeStep.refl _
  refine SafeStep.trans ?_ (State.modHealth_safe ..)
  refine SafeStep.trans ?_ (State.failedOther_safe ..)
  exact SafeStep.refl _

theorem State.failUnit_safe (s : State) (u : FailUnit) : SafeStep s (State.failUnit s u) := by
  unfold State.failUnit
  split
  refine SafeStep.ite ?_ ?_
  refine SafeStep.trans ?_ (State.stoneFails_safe ..)
  exact SafeStep.refl _
  exact SafeStep.refl _
  refine SafeStep.ite ?_ ?_
  refine SafeStep.trans ?_ (State.stackFails_safe ..)
  exact SafeStep.refl _
  exact SafeStep.refl _
  refine SafeStep.ite ?_ ?_
  refine SafeStep.trans ?_ (State.hopDown_safe ..)
  exact SafeStep.refl _
  exact SafeStep.refl _
  refine SafeStep.ite ?_ ?_
  refine SafeStep.trans ?_ (State.dieDown_safe ..)
  exact SafeStep.refl _
  exact SafeStep.refl _
  refine SafeStep.ite ?_ ?_
  refine SafeStep.trans ?_ (State.dieDown_safe ..)
  exact SafeStep.refl _
  exact SafeStep.refl _
  refine SafeStep.ite ?_ ?_
  refine SafeStep.trans ?_ (State.failLane_safe ..)
  exact SafeStep.refl _
  exact SafeStep.refl _
  refine SafeStep.trans ?_ (State.engineDown_safe ..)
  exact SafeStep.refl _
  refine SafeStep.trans ?_ (State.dieFails_safe ..)
  exact SafeStep.refl _
  refine SafeStep.ite ?_ ?_
  refine SafeStep.foldl ?_ (fun s x => ?_)
  exact SafeStep.refl _
  refine SafeStep.trans ?_ (State.dieFails_safe ..)
  exact SafeStep.refl _
  exact SafeStep.refl _

theorem execUnitFailure_safe (t : Nat) (u : FailUnit) (s : State) : ∀ v : State, execUnitFailure t u s = .next v → SafeStep s v := by
  unfold execUnitFailure
  extract_lets +onlyGivenNames q1
  refine SafeStep.nxIte ?_ ?_
  refine SafeStep.nx ?_
  refine SafeStep.trans ?_ (State.noteVitals_safe ..)
  refine SafeStep.trans ?_ (State.caps_safe ..)
  refine SafeStep.trans ?_ (State.failUnit_safe ..)
  refine SafeStep.trans ?_ (State.at__safe ..)
  exact SafeStep.refl _
  refine SafeStep.nx ?_
  refine SafeStep.trans ?_ (State.at__safe ..)
  exact SafeStep.refl _

theorem State.clearWheel_safe (s : State) (w k v : Nat) : SafeStep s (State.clearWheel s w k v) := by
  unfold State.clearWheel
  refine SafeStep.ite ?_ ?_
  refine SafeStep.trans ?_ (State.modWheel_safe ..)
  exact SafeStep.refl _
  refine SafeStep.ite ?_ ?_
  refine SafeStep.trans ?_ (State.modWheel_safe ..)
  exact SafeStep.refl _
  exact SafeStep.refl _

theorem State.writeLdReg_safe (s : State) (ld off v : Nat) (low : Bool) : SafeStep s (State.writeLdReg s ld off v low) := by
  unfold State.writeLdReg
  extract_lets +onlyGivenNames q1
  split
  refine SafeStep.trans ?_ (State.modCxeLd_safe ..)
  exact SafeStep.refl _
  refine SafeStep.trans ?_ (State.modCxeLd_safe ..)
  exact SafeStep.refl _
  refine SafeStep.trans ?_ (State.modCxeLd_safe ..)
  exact SafeStep.refl _
  refine SafeStep.trans ?_ (State.modCxeLd_safe ..)
  exact SafeStep.refl _
  extract_lets +onlyGivenNames q2
  extract_lets +onlyGivenNames q3
  with_reducible refine SafeStep.trans ?_ (SafeStep.fields rfl rfl rfl rfl)
  exact SafeStep.refl _
  refine SafeStep.trans ?_ (State.modMrc_safe ..)
  exact SafeStep.refl _
  refine SafeStep.trans ?_ (State.modMrc_safe ..)
  exact SafeStep.refl _
  refine SafeStep.trans ?_ (State.modMrc_safe ..)
  exact SafeStep.refl _
  refine SafeStep.ite ?_ ?_
  refine SafeStep.trans ?_ (State.modMrc_safe ..)
  exact SafeStep.refl _
  exact SafeStep.refl _
  refine SafeStep.ite ?_ ?_
  refine SafeStep.trans ?_ (State.modMrc_safe ..)
  exact SafeStep.refl _
  exact SafeStep.refl _
  refine SafeStep.trans ?_ (State.modMrc_safe ..)
  exact SafeStep.refl _
  refine SafeStep.trans ?_ (State.modMrc_safe ..)
  exact SafeStep.refl _
  refine SafeStep.trans ?_ (State.modMrc_safe ..)
  exact SafeStep.refl _
  refine SafeStep.trans ?_ (State.modMrc_safe ..)
  exact SafeStep.refl _
  refine SafeStep.trans ?_ (State.modStnLd_safe ..)
  exact SafeStep.refl _
  refine SafeStep.trans ?_ (State.modStnLd_safe ..)
  exact SafeStep.refl _
  refine SafeStep.trans ?_ (State.modStnLd_safe ..)
  exact SafeStep.refl _
  refine SafeStep.trans ?_ (State.modGateLd_safe ..)
  exact SafeStep.refl _
  refine SafeStep.trans ?_ (State.modGateLd_safe ..)
  exact SafeStep.refl _
  refine SafeStep.trans ?_ (State.modGateLd_safe ..)
  exact SafeStep.refl _
  refine SafeStep.trans ?_ (State.modGateLd_safe ..)
  exact SafeStep.refl _
  refine SafeStep.trans ?_ (State.modGateLd_safe ..)
  exact SafeStep.refl _
  refine SafeStep.trans ?_ (State.modWeir_safe ..)
  exact SafeStep.refl _
  refine SafeStep.trans ?_ (State.modIntegLd_safe ..)
  exact SafeStep.refl _
  refine SafeStep.trans ?_ (State.modRiLd_safe ..)
  exact SafeStep.refl _
  refine SafeStep.trans ?_ (State.modRiLd_safe ..)
  exact SafeStep.refl _
  refine SafeStep.trans ?_ (State.modRiLd_safe ..)
  exact SafeStep.refl _
  refine SafeStep.trans ?_ (State.modRiLd_safe ..)
  exact SafeStep.refl _
  refine SafeStep.trans ?_ (State.modRiLd_safe ..)
  exact SafeStep.refl _
  refine SafeStep.trans ?_ (State.modFwdLd_safe ..)
  exact SafeStep.refl _
  with_reducible refine SafeStep.trans ?_ (SafeStep.fields rfl rfl rfl rfl)
  exact SafeStep.refl _
  refine SafeStep.trans ?_ (State.clearWheel_safe ..)
  exact SafeStep.refl _
  exact SafeStep.refl _

theorem State.writeFmReg_safe (s : State) (off v : Nat) : SafeStep s (State.writeFmReg s off v) := by
  unfold State.writeFmReg
  extract_lets +onlyGivenNames q1
  split
  refine SafeStep.trans ?_ (State.modCxe_safe ..)
  exact SafeStep.refl _
  refine SafeStep.ite ?_ ?_
  refine SafeStep.trans ?_ (State.modCxe_safe ..)
  exact SafeStep.refl _
  exact SafeStep.refl _
  refine SafeStep.trans ?_ (SafeStep.modStore (fun _ => rfl) (fun _ => rfl) (fun _ => rfl))
  exact SafeStep.refl _
  refine SafeStep.trans ?_ (SafeStep.modStore (fun _ => rfl) (fun _ => rfl) (fun _ => rfl))
  exact SafeStep.refl _
  refine SafeStep.trans ?_ (SafeStep.modStore (fun _ => rfl) (fun _ => rfl) (fun _ => rfl))
  exact SafeStep.refl _
  refine SafeStep.trans ?_ (SafeStep.modStore (fun _ => rfl) (fun _ => rfl) (fun _ => rfl))
  exact SafeStep.refl _
  refine SafeStep.trans ?_ (SafeStep.modStore (fun _ => rfl) (fun _ => rfl) (fun _ => rfl))
  exact SafeStep.refl _
  with_reducible refine SafeStep.trans ?_ (SafeStep.fields rfl rfl rfl rfl)
  exact SafeStep.refl _
  extract_lets +onlyGivenNames q2
  extract_lets +onlyGivenNames q3
  with_reducible refine SafeStep.trans ?_ (SafeStep.fields rfl rfl rfl rfl)
  exact SafeStep.refl _
  refine SafeStep.trans ?_ (State.modGate_safe ..)
  exact SafeStep.refl _
  refine SafeStep.trans ?_ (State.modWeir_safe ..)
  exact SafeStep.refl _
  refine SafeStep.trans ?_ (State.modNear_safe ..)
  exact SafeStep.refl _
  refine SafeStep.trans ?_ (State.modNear_safe ..)
  exact SafeStep.refl _
  refine SafeStep.trans ?_ (SafeStep.modStore (fun _ => rfl) (fun _ => rfl) (fun _ => rfl))
  exact SafeStep.refl _
  refine SafeStep.ite ?_ ?_
  refine SafeStep.trans ?_ (State.modStack_safe ..)
  exact SafeStep.refl _
  exact SafeStep.refl _
  refine SafeStep.trans ?_ (State.modDeep_safe ..)
  exact SafeStep.refl _
  refine SafeStep.trans ?_ (State.modDeep_safe ..)
  exact SafeStep.refl _
  refine SafeStep.trans ?_ (State.modInteg_safe ..)
  exact SafeStep.refl _
  refine SafeStep.trans ?_ (State.modInteg_safe ..)
  exact SafeStep.refl _
  refine SafeStep.trans ?_ (State.modInteg_safe ..)
  exact SafeStep.refl _
  refine SafeStep.trans ?_ (State.modResult_safe ..)
  exact SafeStep.refl _
  refine SafeStep.trans ?_ (State.modResult_safe ..)
  exact SafeStep.refl _
  refine SafeStep.trans ?_ (State.modResult_safe ..)
  exact SafeStep.refl _
  refine SafeStep.ite ?_ ?_
  refine SafeStep.trans ?_ (State.modPort_safe ..)
  exact SafeStep.refl _
  refine SafeStep.ite ?_ ?_
  refine SafeStep.trans ?_ (State.modLane_safe ..)
  exact SafeStep.refl _
  refine SafeStep.ite ?_ ?_
  refine SafeStep.trans ?_ (State.modPorts_safe ..)
  exact SafeStep.refl _
  exact SafeStep.refl _
  refine SafeStep.trans ?_ (SafeStep.modBoot (fun _ => rfl))
  exact SafeStep.refl _
  refine SafeStep.trans ?_ (SafeStep.modBoot (fun _ => rfl))
  exact SafeStep.refl _
  refine SafeStep.trans ?_ (State.modClock_safe ..)
  exact SafeStep.refl _
  refine SafeStep.trans ?_ (State.modClock_safe ..)
  exact SafeStep.refl _
  refine SafeStep.trans ?_ (State.modClock_safe ..)
  exact SafeStep.refl _
  refine SafeStep.trans ?_ (State.modClock_safe ..)
  exact SafeStep.refl _
  refine SafeStep.trans ?_ (State.modHealth_safe ..)
  exact SafeStep.refl _
  refine SafeStep.trans ?_ (State.modHealth_safe ..)
  exact SafeStep.refl _
  refine SafeStep.trans ?_ (State.modHealth_safe ..)
  exact SafeStep.refl _
  refine SafeStep.trans ?_ (State.modHealth_safe ..)
  exact SafeStep.refl _
  refine SafeStep.trans ?_ (State.modPower_safe ..)
  exact SafeStep.refl _
  exact SafeStep.refl _

theorem State.modErrs_safe (s : State) (ld : Nat) (f : ErrRegs → ErrRegs) : SafeStep s (State.modErrs s ld f) := by
  unfold State.modErrs
  refine SafeStep.trans ?_ (State.modCxeLd_safe ..)
  exact SafeStep.refl _

theorem State.writeMsix_safe (s : State) (ld i v : Nat) : SafeStep s (State.writeMsix s ld i v) := by
  unfold State.writeMsix
  refine SafeStep.trans ?_ (State.modCxeLd_safe ..)
  exact SafeStep.refl _

theorem State.writeMb_safe (s : State) (ld i v : Nat) : SafeStep s (State.writeMb s ld i v) := by
  unfold State.writeMb
  with_reducible refine SafeStep.trans ?_ (SafeStep.fields rfl rfl rfl rfl)
  exact SafeStep.refl _

theorem State.writeBar0_safe (s : State) (ld off v : Nat) : SafeStep s (State.writeBar0 s ld off v) := by
  unfold State.writeBar0
  split
  refine SafeStep.trans ?_ (State.modErrs_safe ..)
  exact SafeStep.refl _
  refine SafeStep.trans ?_ (State.modErrs_safe ..)
  exact SafeStep.refl _
  refine SafeStep.trans ?_ (State.modErrs_safe ..)
  exact SafeStep.refl _
  refine SafeStep.trans ?_ (State.modErrs_safe ..)
  exact SafeStep.refl _
  refine SafeStep.trans ?_ (State.modErrs_safe ..)
  exact SafeStep.refl _
  refine SafeStep.ite ?_ ?_
  refine SafeStep.trans ?_ (State.modCxeLd_safe ..)
  exact SafeStep.refl _
  exact SafeStep.refl _
  refine SafeStep.ite ?_ ?_
  refine SafeStep.trans ?_ (State.writeMsix_safe ..)
  exact SafeStep.refl _
  refine SafeStep.ite ?_ ?_
  refine SafeStep.trans ?_ (State.writeMb_safe ..)
  exact SafeStep.refl _
  exact SafeStep.refl _

theorem State.modBars_safe (s : State) (ld : Nat) (f : BarRegs → BarRegs) : SafeStep s (State.modBars s ld f) := by
  unfold State.modBars
  refine SafeStep.trans ?_ (State.modCxeLd_safe ..)
  exact SafeStep.refl _

theorem State.writeCfg_safe (s : State) (ld off v : Nat) : SafeStep s (State.writeCfg s ld off v) := by
  unfold State.writeCfg
  split
  refine SafeStep.trans ?_ (State.modBars_safe ..)
  exact SafeStep.refl _
  refine SafeStep.trans ?_ (State.modBars_safe ..)
  exact SafeStep.refl _
  refine SafeStep.trans ?_ (State.modBars_safe ..)
  exact SafeStep.refl _
  refine SafeStep.trans ?_ (State.modBars_safe ..)
  exact SafeStep.refl _
  refine SafeStep.trans ?_ (State.modBars_safe ..)
  exact SafeStep.refl _
  refine SafeStep.trans ?_ (State.modCxeLd_safe ..)
  exact SafeStep.refl _
  refine SafeStep.trans ?_ (State.modBars_safe ..)
  exact SafeStep.refl _
  refine SafeStep.trans ?_ (State.modBars_safe ..)
  exact SafeStep.refl _
  refine SafeStep.trans ?_ (State.modErrs_safe ..)
  exact SafeStep.refl _
  refine SafeStep.trans ?_ (State.modErrs_safe ..)
  exact SafeStep.refl _
  refine SafeStep.trans ?_ (State.modErrs_safe ..)
  exact SafeStep.refl _
  refine SafeStep.trans ?_ (State.modErrs_safe ..)
  exact SafeStep.refl _
  refine SafeStep.trans ?_ (State.modErrs_safe ..)
  exact SafeStep.refl _
  exact SafeStep.refl _

theorem State.halves_safe (s : State) (size off v : Nat) (f : State → Nat → Nat → State) (hf : ∀ u o x, SafeStep u (f u o x)) :
    SafeStep s (s.halves size off v f) := by
  unfold State.halves
  exact SafeStep.ite (SafeStep.trans (hf _ _ _) (hf _ _ _)) (hf _ _ _)

theorem State.writeReg_safe (s : State) (r : RegAccess) : SafeStep s (State.writeReg s r) := by
  unfold State.writeReg
  refine SafeStep.ite ?_ ?_
  refine SafeStep.trans ?_ (State.writeLdReg_safe ..)
  exact SafeStep.refl _
  refine SafeStep.ite ?_ ?_
  refine SafeStep.trans ?_ (State.writeFmReg_safe ..)
  exact SafeStep.refl _
  refine SafeStep.ite ?_ ?_
  refine SafeStep.trans ?_ (State.halves_safe _ _ _ _ _ ?_)
  exact SafeStep.refl _
  intro _ _ _
  refine SafeStep.trans ?_ (State.writeBar0_safe ..)
  exact SafeStep.refl _
  refine SafeStep.trans ?_ (State.halves_safe _ _ _ _ _ ?_)
  exact SafeStep.refl _
  intro _ _ _
  refine SafeStep.trans ?_ (State.writeCfg_safe ..)
  exact SafeStep.refl _

theorem execRegisterWrite_safe (r : RegAccess) (s : State) : ∀ v : State, execRegisterWrite r s = .next v → SafeStep s v := by
  unfold execRegisterWrite
  refine SafeStep.nxIte ?_ ?_
  refine SafeStep.nx ?_
  exact SafeStep.refl _
  refine SafeStep.nxIte ?_ ?_
  refine SafeStep.nx ?_
  refine SafeStep.ite ?_ ?_
  refine SafeStep.trans ?_ (State.writeBeacon_safe ..)
  exact SafeStep.refl _
  exact SafeStep.refl _
  refine SafeStep.nxIte ?_ ?_
  refine SafeStep.nx ?_
  refine SafeStep.trans ?_ (State.aerUnc_safe ..)
  exact SafeStep.refl _
  refine SafeStep.nx ?_
  refine SafeStep.trans ?_ (State.writeReg_safe ..)
  exact SafeStep.refl _

end Sys2Proof.Machine
end

