-- ==== Sys2Proof/Machine/Bars.lean ====
section
/-! DEFINITION. What BAR0 and the configuration space of a function read as (R332 to R335, Tables 14.2 to 14.4): the component registers,
the device capabilities and status, the mailbox registers, the MSI-X table and the pending bits, and the access rule of R335. Where the
spec names a register and gives no bits, they are those of PCIe and CXL 3.1. PRESUMED, log entry 14. -/
namespace Sys2Proof.Machine

/-- The return codes as CXL 3.1 numbers them; the bus master code is R350's. PRESUMED, log entry 14. -/
def Rc.code : Rc → Nat
  | .success => 0
  | .bgStarted => 1
  | .invalidInput => 2
  | .unsupported => 3
  | .internalError => 4
  | .retryRequired => 5
  | .busy => 6
  | .invalidHandle => 0x0E
  | .invalidPhysicalAddress => 0x0F
  | .aborted => 0x12
  | .resourcesExhausted => 0x1D
  | .invalidExtentList => 0x1E
  | .busMasterDisabled => 0x8001

/-! ### Component registers (BAR0 + 0x1000) -/

/-- The capability array: its header and the pointers to RAS, HDM Decoder, BI Decoder and IDE. -/
def capArray (k : Nat) : Nat :=
  match k with
  | 0 => 0x04110001
  | 1 => 0x10010002
  | 2 => 0x20010005
  | 3 => 0x4001000C
  | 4 => 0x50010007
  | _ => 0

/-- The RAS capability, by word. -/
def ErrRegs.rasWord (e : ErrRegs) (k : Nat) : Nat :=
  match k with
  | 0 => e.rasUnc
  | 1 => e.rasUncMask
  | 2 => e.rasUncSev
  | 3 => e.rasCor
  | 4 => e.rasCorMask
  | 5 => if e.rasHeld ∧ e.rasFirst < 32 then e.rasFirst else 0
  | k => if k < 22 then leAt e.rasHeader (4 * (k - 6)) 4 else 0

/-- The codes of interleave ways in a decoder's control word. -/
def waysCode (n : Nat) : Nat := match n with | 1 => 0 | 2 => 1 | 4 => 2 | 8 => 3 | 16 => 4 | 3 => 8 | 6 => 9 | 12 => 10 | _ => 15

/-- A decoder's registers, by word: base, size, control, DPA skip. -/
def Hdm.word (h : Hdm) (k : Nat) : Nat :=
  match k with
  | 0 => h.base % 2 ^ 32
  | 1 => h.base / 2 ^ 32
  | 2 => h.size % 2 ^ 32
  | 3 => h.size / 2 ^ 32
  | 4 => pack [(0, h.gran.log2 - 8), (4, waysCode h.ways), (10, b2n h.committed), (11, b2n h.error), (13, b2n h.bi)]
  | 5 => h.skip % 2 ^ 32
  | 6 => h.skip / 2 ^ 32
  | _ => 0

/-- The HDM Decoder capability, by word: eight decoders, none in the FM-owned LD (R336). -/
def State.hdmWord (s : State) (fn k : Nat) : Nat :=
  if 16 ≤ fn then 0
  else if k = 0 then 0x704
  else if k < 4 then 0
  else (s.cxe.hdm.get (8 * fn + (k - 4) / 8)).word ((k - 4) % 8)

/-- Does a function carry the IDE capability: it manages the port's IDE (R352). -/
def State.managesIde (s : State) (fn : Nat) : Bool := fn < 16 && ((portLds (ldPort fn)).filter s.ldOn).head? == some fn

/-- The IDE capability: the state of the port's IDE, in the LD that manages it (R352). -/
def State.ideWord (s : State) (fn k : Nat) : Nat :=
  if k = 2 ∧ s.managesIde fn = true then (s.cxe.ports.get (ldPort fn)).ide else 0

/-! ### Device registers (BAR0 + 0x1_0000) -/

/-- The Device Capabilities Array: Device Status, Primary Mailbox, Memory Device Status. -/
def devArray (k : Nat) : Nat :=
  match k with
  | 0 => 0x00010000 | 1 => 3
  | 4 => 0x00010001 | 5 => 0x400 | 6 => 0x400
  | 8 => 0x00010002 | 9 => 0x10000 | 10 => 0x10020
  | 12 => 0x00014000 | 13 => 0x800 | 14 => 0x400
  | _ => 0

/-- Device Status: a bit for each event log that holds records. -/
def State.eventStatus (s : State) (fn : Nat) : Nat := bitMap 5 fun log => !(s.mbox.logs.get (fn * 8 + log)).recs.isEmpty

/-- Memory Device Status: the media are ready from the end of the mount, the mailbox as R358 states. -/
def State.memStatus (s : State) : Nat := pack [(2, b2n s.up), (4, b2n s.mbReady)]

/-- The mailbox registers, by word: Payload Size 16 (64 KiB), the interrupt of vector 0, status and background status. -/
def State.mbWord (s : State) (fn k : Nat) : Nat :=
  let r := s.mbox.regs.get fn
  let b := s.mbox.status.get fn
  match k with
  | 0 => pack [(0, 16), (6, 1)]
  | 1 => 0
  | 4 => b2n (s.job fn).isSome
  | 5 => r.code.code
  | 6 => match s.job fn with | some j => pack [(0, j.opcode), (16, Config.progress j.opcode (s.now - j.start) % 101)] | none => pack [(0, b.opcode), (16, if b.opcode = 0 then 0 else 100)]
  | 7 => pack [(0, b.code.code), (16, b.vses % 2 ^ 16)]
  | k => r.words.get k

/-- A word of the MSI-X table. -/
def BarRegs.msixWord (b : BarRegs) (i : Nat) : Nat := if i % 4 = 3 then 1 - b.table.get i % 2 else b.table.get i

/-! ### Reads -/

/-- A 4-byte word of BAR0. -/
def State.bar0Word (s : State) (fn off : Nat) : Nat :=
  let l := s.cxe.lds.get fn
  if 0x1000 ≤ off ∧ off < 0x1100 then capArray ((off - 0x1000) / 4)
  else if 0x1100 ≤ off ∧ off < 0x1200 then l.errs.rasWord ((off - 0x1100) / 4)
  else if 0x1200 ≤ off ∧ off < 0x1400 then s.hdmWord fn ((off - 0x1200) / 4)
  else if off = 0x1404 then 2 * b2n l.biEnable
  else if 0x1500 ≤ off ∧ off < 0x2000 then s.ideWord fn ((off - 0x1500) / 4)
  else if 0x10000 ≤ off ∧ off < 0x10400 then devArray ((off - 0x10000) / 4)
  else if off = 0x10400 then s.eventStatus fn
  else if off = 0x10800 then s.memStatus
  else if 0x20000 ≤ off ∧ off < 0x30020 then s.mbWord fn ((off - 0x20000) / 4)
  else if 0x70000 ≤ off ∧ off < 0x70060 then l.bars.msixWord ((off - 0x70000) / 4)
  else if off = 0x78000 then s.cxe.msix.get fn
  else 0

/-! ### Configuration space (R332, R333, Tables 14.2, 14.3) -/

/-- The capabilities of Table 14.2 from 0x100 on, in order: offset, extended capability ID, and the DVSEC ID and length of a DVSEC. -/
def extCaps (fn : Nat) : List (Nat × Nat × Nat × Nat) :=
  [(0x100, 0x0001, 0, 0), (0x150, 0x0003, 0, 0), (0x160, 0x0023, 0, 0x40), (0x1A0, 0x0023, 7, 0x20),
   (0x1C0, 0x0023, if fn = 16 then 9 else 5, 0x10), (0x1E0, 0x0023, 8, 0x24), (0x210, 0x002E, 0, 0), (0x230, 0x002E, 0, 0)]

/-- The header of an extended capability: each names the next, the last names none. -/
def State.extHeader (s : State) (fn off : Nat) : Nat :=
  let caps := extCaps fn ++ if s.managesIde fn then [(0x250, 0x0030, 0, 0)] else []
  match caps.zipIdx.find? fun c => c.1.1 = off with
  | some c => pack [(0, c.1.2.1), (16, 1), (20, ((caps[c.2 + 1]?).map Prod.fst).getD 0)]
  | none => 0

/-- The two words behind the header of a DVSEC of CXL: vendor and length, and the DVSEC ID with the capability bits above it. -/
def dvsecHead (len : Nat) : Nat := pack [(0, 0x1E98), (20, len)]

/-- CXL Capability (Table 14.3): CXL.io and CXL.mem, one range, CXL Reset in 10 s with Mem Clear, Multiple_Logical_Device. -/
def cxlCap : Nat := pack [(1, 1), (2, 1), (4, 1), (7, 1), (8, 3), (11, 1), (13, 1)]

/-- The entries of the Register Locator: BAR, block ID, offset. The third is the vendor block of 0x1E9D. -/
def locator : List (Nat × Nat × Nat) := [(0, 0x01, 0), (0, 0x03, 0x10000), (2, 0xFF, 0)]

/-- The words of the DVSECs (Table 14.3). Range 1 Size reports DPA_SIZE, with Memory_Info_Valid and Memory_Active from the end of the
mount. -/
def State.dvsecWord (s : State) (fn off : Nat) : Nat :=
  let size := (s.ext.parts.get fn).dpaSize * granule
  let b := (s.cxe.lds.get fn).bars
  match off with
  | 0x164 => dvsecHead 0x40
  | 0x168 => cxlCap * 2 ^ 16
  | 0x178 => size / 2 ^ 32
  | 0x17C => size % 2 ^ 32 / 2 ^ 28 * 2 ^ 28 + pack [(0, b2n s.up), (1, b2n s.up)]
  | 0x180 => b.range1 / 2 ^ 32
  | 0x184 => b.range1 % 2 ^ 32
  | 0x1A4 => dvsecHead 0x20
  | 0x1A8 => pack [(0, 7), (17, 1), (18, 1)]
  | 0x1C4 => dvsecHead 0x10
  | 0x1C8 => if fn = 16 then pack [(0, 9), (16, 16)] else pack [(0, 5), (16, 1), (24, 5)]
  | 0x1CC => if fn = 16 then 0 else 255000
  | 0x1E4 => dvsecHead 0x24
  | 0x1E8 => 8
  | off =>
    if 0x1EC ≤ off ∧ off < 0x204 ∧ (off - 0x1EC) % 8 = 0 then
      match locator[(off - 0x1EC) / 8]? with
      | some e => pack [(0, e.1), (8, e.2.1), (16, e.2.2 / 2 ^ 16)]
      | none => 0
    else 0

/-- The words of the PCI Express capability that R333 speaks of: the endpoint of a port in flit mode that resets by FLR, the link at 64.0
GT/s and the width of the port, Completion Timeout ranges B and C. -/
def State.pcieWord (s : State) (fn off : Nat) : Nat :=
  match off with
  | 0x060 => pack [(0, 0x10), (16, 2), (31, 1)]
  | 0x064 => pack [(28, 1)]
  | 0x06C => pack [(0, 6), (4, 8)]
  | 0x070 => pack [(16, 6), (20, (s.portAt (if fn = 16 then s.boot.fmport else ldPort fn)).group.length)]
  | 0x084 => 6
  | _ => 0

/-- A 4-byte word of the configuration space: header, capabilities, DVSECs and AER (Tables 14.2, 14.3, 14.6). -/
def State.cfgWord (s : State) (fn off : Nat) : Nat :=
  let l := s.cxe.lds.get fn
  match off with
  | 0x000 => pack [(0, 0x1E9D), (16, if fn = 16 then 0x0A0F else 0x0A09)]
  | 0x004 => pack [(2, b2n (s.cxe.bme.get fn)), (20, 1)]
  | 0x008 => 0x05021000
  | 0x010 => l.bars.bar0 % 2 ^ 32 + 4
  | 0x014 => l.bars.bar0 / 2 ^ 32
  | 0x018 => l.bars.bar2 % 2 ^ 32 + 4
  | 0x01C => l.bars.bar2 / 2 ^ 32
  | 0x034 => 0x40
  | 0x040 => pack [(0, 0x01), (8, 0x48), (16, 3)]
  | 0x044 => if l.d3 then 3 else 0
  | 0x048 => pack [(0, 0x11), (8, 0x60), (16, 5), (30, l.bars.control)]
  | 0x04C => 0x70000
  | 0x050 => 0x78000
  | 0x088 => l.cto
  | 0x104 => l.errs.aerUnc
  | 0x108 => l.errs.aerUncMask
  | 0x10C => l.errs.aerUncSev
  | 0x110 => l.errs.aerCor
  | 0x114 => l.errs.aerCorMask
  | 0x118 => if l.errs.aerHeld then l.errs.aerFirst else 0
  | 0x154 => s.boot.serial % 2 ^ 32
  | 0x158 => s.boot.serial / 2 ^ 32 % 2 ^ 32
  | off =>
    if 0x11C ≤ off ∧ off < 0x12C then leAt l.errs.aerHeader (off - 0x11C) 4
    else if off < 0x100 then s.pcieWord fn off
    else s.extHeader fn off + s.dvsecWord fn off

/-- A 4-byte word of a page of a `RegAccess`. -/
def State.pageWord (s : State) (page off : Nat) : Nat :=
  if page ≤ 16 then s.regWord page (off / 8 * 8) / 2 ^ (8 * (off % 8)) % 2 ^ 32
  else if page < 64 then s.bar0Word (page - 32) off
  else s.cfgWord (page - 64) off

/-- What a read of a register returns: nothing for an access that is an Unsupported Request (R335). -/
def State.readReg (s : State) (r : RegAccess) : Option Nat :=
  if ¬ regTaken r then none
  else some (s.pageWord r.page r.offset + if r.size = 8 then s.pageWord r.page (r.offset + 4) * 2 ^ 32 else 0)

end Sys2Proof.Machine
end

