-- ==== Sys2Proof/Machine/Cipher.lean ====
section
/-! DEFINITION. The encryption of stored data (R12, R44, Table 2.7): the XTS data units of a block and the cipher text that each tier
holds of them. State keeps the plain text of every unit beside its owner's key; what the media hold follows from the two. -/
namespace Sys2Proof.Machine

/-! ### Data units and their tweaks (R44, Table 2.7) -/

/-- The DOMAIN of a data unit. -/
inductive UnitDomain where
  | payload
  | sideArray
  | spill
  deriving DecidableEq, Repr

def UnitDomain.code : UnitDomain → Nat
  | .payload => 0 | .sideArray => 1 | .spill => 2

/-- The tweak: UNIT [36:0], DOMAIN [39:37], OWNER [43:40], the rest zero. -/
def xtsTweak (unit : BitVec 37) (domain : UnitDomain) (owner : BitVec 4) : BitVec 128 :=
  (owner ++ BitVec.ofNat 3 domain.code ++ unit).setWidth 128

/-- UNIT of a block's payload or spillway copy: the owner's DPA >> 9; that of a side array unit: the owner's DPA >> 15. -/
def unitNo (domain : UnitDomain) (dpa : Nat) : BitVec 37 :=
  BitVec.ofNat 37 (match domain with | .sideArray => dpa / 2 ^ 15 | _ => dpa / 2 ^ 9)

/-- The tweak of a data unit of an owner's extent. -/
def State.tweakOf (s : State) (e : Extent) (blk : Nat) (domain : UnitDomain) : BitVec 128 :=
  xtsTweak (unitNo domain (s.dpaOf e blk)) domain (BitVec.ofNat 4 e.owner)

/-! ### XTS-AES-256 over one data unit. PRESUMED, log entry 11 (IEEE 1619; the text of AES is not in the spec) -/

/-- The next block's mask: a multiplication by x in GF(2^128). -/
def xtsNext (t : BitVec 128) : BitVec 128 := (t <<< 1) ^^^ (if t.msb then 0x87 else 0)

/-- Sixteen bytes as a block, and a block as sixteen bytes. -/
def blockOf (bs : Bytes) : BitVec 128 := BitVec.ofNat 128 (leNat bs)

/-- The 16-byte blocks of a data unit, each under its mask. -/
def xtsBlocks (k : BitVec 256) (bs : Bytes) : Nat → BitVec 128 → Bytes
  | 0, _ => []
  | n + 1, t =>
    leBytes 16 (Config.aes256 k (blockOf (bs.take 16) ^^^ t) ^^^ t).toNat ++ xtsBlocks k (bs.drop 16) n (xtsNext t)

/-- A data unit of whole blocks, encrypted: the low half of the key for the data, the high half for the tweak. -/
def xtsEncrypt (key : BitVec 512) (tweak : BitVec 128) (bs : Bytes) : Bytes :=
  xtsBlocks (key.setWidth 256) bs (bs.length / 16) (Config.aes256 ((key >>> 256).setWidth 256) tweak)

/-! ### The units of a stored image -/

/-- The payload unit that a stored image keeps in its slot position: compressed before it is encrypted (R44). -/
def payloadUnit (unit : Nat) (v : StoredBlk) : Option Bytes :=
  if v.side.kind = kCoded ∨ v.side.kind = kSplit then some (fit unit v.bytes) else none

/-- The spillway copy that it keeps in the codec area: an exact copy, or its run of granules. -/
def spillUnit (unit : Nat) (v : StoredBlk) : Option Bytes :=
  if v.side.kind = kEscape ∨ v.side.kind = kStaged then some (fit 512 v.bytes)
  else if v.side.kind = kWhole then some (fit (64 * v.side.gran) v.bytes)
  else if v.side.kind = kSplit then some (fit (64 * v.side.gran) (v.bytes.drop unit))
  else none

/-- The 64 side records of the unit that holds a block's record. -/
def State.sideUnit (s : State) (blk : Nat) : Bytes :=
  (List.range 64).flatMap fun i => leBytes 8 (s.curBlk (blk / 64 * 64 + i)).side.word

/-! ### What the media hold -/

/-- A unit under its owner's key: nothing where the owner has no key. -/
def State.seal (s : State) (e : Extent) (blk : Nat) (domain : UnitDomain) (bs : Bytes) : Option Bytes :=
  (s.ext.keys.get e.owner).map fun key => xtsEncrypt key (s.tweakOf e blk domain) bs

/-- The cipher text of a block's payload in T1, and in T2. -/
def State.t1Media (s : State) (e : Extent) (blk : Nat) : Option Bytes :=
  (payloadUnit (Prof.unit e.profile) (s.store.t1.get blk)).bind (s.seal e blk .payload)
def State.t2Media (s : State) (e : Extent) (blk : Nat) : Option Bytes :=
  (payloadUnit (Prof.unit e.profile) (s.store.t2.get blk)).bind (s.seal e blk .payload)

/-- The cipher text of a block's spillway copy, and of its side array unit. -/
def State.spillMedia (s : State) (e : Extent) (blk : Nat) : Option Bytes :=
  (spillUnit (Prof.unit e.profile) (s.curBlk blk)).bind (s.seal e blk .spill)
def State.sideMedia (s : State) (e : Extent) (blk : Nat) : Option Bytes := s.seal e (blk / 64 * 64) .sideArray (s.sideUnit blk)

end Sys2Proof.Machine
end

