-- ==== Sys2Proof/WellFormed.lean ====
section
/-! DEFINITION. Which commands are well formed: every operand lies in the range that its field or its unit number has. The
machine itself takes any command: what the spec says of an operand out of range is part of the meanings. -/
namespace Sys2Proof

def below (n k : Nat) : Bool := decide (k < n)

/-- A number of 64 bits. -/
def wide (n : Nat) : Bool := decide (n < 2 ^ 64)

/-- A function: an LD, or the FM-owned LD as 16. -/
def fnOk (n : Nat) : Bool := decide (n ≤ 16)

/-- The data of one 64-byte line. -/
def lineOk (b : Bytes) : Bool := decide (b.length = 64)

/-- A run of bytes no longer than a mailbox payload. -/
def bytesOk (b : Bytes) : Bool := decide (b.length ≤ 65536)

/-- A doorbell: its mailbox, a one-byte TARGET, a payload that fits (R356). -/
def hdrOk (h : MbHdr) : Bool := fnOk h.src && below 256 h.target && decide (h.len ≤ 65536)

/-- A part of an image (R360): its data fit a payload and lie inside the total. -/
def partOk (p : Part) : Bool := bytesOk p.data && decide (p.offset + p.data.length ≤ p.total)

/-- A go line's fields (Table 7.3). -/
def goOk (g : GoWrite) : Bool :=
  fnOk g.ld && wide g.dpa && below 1024 g.line.layer && below 65536 g.line.plines && below 65536 g.line.handle
    && below (2 ^ 32) g.line.seq

/-- A peer packet's header (Table 13.5). -/
def peerOk (p : PeerHdr) : Bool :=
  below 6 p.port && below 65536 p.srcNode && below 65536 p.tag && below (2 ^ 32) p.fwdid && wide p.dest

/-- A settling message (Table 12.3). -/
def settleOk (m : Settle) : Bool := below 65536 m.node && below (2 ^ 48) m.turn && below 1024 m.layer && wide m.dest

/-- A register access: a page that exists, and an offset within 512 KiB. -/
def regAccOk (r : RegAccess) : Bool :=
  (decide (r.page ≤ 16) || (decide (32 ≤ r.page) && decide (r.page ≤ 48)) || (decide (64 ≤ r.page) && decide (r.page ≤ 80)))
    && below 524288 r.offset && below 4097 r.size

/-- A codeword of a lane: 256 data symbols, 271 symbols received, its marker naming the lane (R309). -/
def laneWordOk (x : Nat × LaneWord) : Bool :=
  below 8 x.1 && decide (x.2.marker.lane = x.1 ∧ x.2.data.length = 256 ∧ x.2.got.length = 271)

/-- Well-formed commands. -/
def Instr.wf : Instr → Bool
  | .cxlMemRead port _ hpa _ _ _ => below 6 port && wide hpa
  | .cxlMemWrite port _ hpa _ data _ _ => below 6 port && wide hpa && lineOk data
  | .sackAllocJournalled t _ => wide t
  | .sackEntryRebuild t _ _ => wide t
  | .mergeIdleFlush t _ => wide t
  | .encoderWriteDone t _ => wide t
  | .mirrorRecordFreed t _ => wide t
  | .governorStep t _ => wide t
  | .governorRetreat t _ => wide t
  | .thermalStep t _ _ _ => wide t
  | .thermalRetreat t _ _ _ => wide t
  | .thermalTrip t _ _ _ => wide t
  | .unitFailure t _ => wide t
  | .stoneFailure t stone => wide t && below 192 stone
  | .stackLoss t stack => wide t && below 12 stack
  | .remirror t _ => wide t
  | .reservedRegionRebuild t stack => wide t && below 12 stack
  | .hubDieFailure t => wide t
  | .initiateDcAdd h _ _ _ => hdrOk h
  | .addDcResponse h _ => hdrOk h
  | .initiateDcRelease h _ _ _ => hdrOk h
  | .releaseDc h _ => hdrOk h
  | .extentDiscard t _ => wide t
  | .wheelBeacon ld wheel _ _ _ => fnOk ld && below 16 wheel
  | .wheelIdleTimeout t ld wheel => wide t && fnOk ld && below 16 wheel
  | .wheelRestTimeout t ld wheel => wide t && fnOk ld && below 16 wheel
  | .openWheel h _ _ _ _ _ _ _ _ _ => hdrOk h
  | .closeWheel h _ => hdrOk h
  | .importSchedule h p _ => hdrOk h && partOk p
  | .exportSchedule h _ _ => hdrOk h
  | .saveSchedule h _ => hdrOk h
  | .deleteSavedSchedule h _ => hdrOk h
  | .getWheelStatus h _ => hdrOk h
  | .setWheelTimers h _ _ _ => hdrOk h
  | .rephaseWheel h _ => hdrOk h
  | .promotionComplete t _ => wide t
  | .victimScan t stack => wide t && below 12 stack
  | .demotionDrained t _ => wide t
  | .writebackComplete t _ => wide t
  | .durableDirtyTimeout t _ => wide t
  | .demandReadTimeout t _ => wide t
  | .channelHalt t _ _ _ => wide t
  | .bolterBuildStart t _ => wide t
  | .stageIdleTimeout t _ => wide t
  | .bolterBuildComplete t _ => wide t
  | .recodeSweep t _ => wide t
  | .recodeGapTimeout t _ => wide t
  | .generationRelease t _ => wide t
  | .codecCacheFill t _ => wide t
  | .allocateTableSet h src _ _ => hdrOk h && fnOk src
  | .freeTableSet h _ => hdrOk h
  | .getTableSetStatus h _ => hdrOk h
  | .rebuildTableSet h _ base => hdrOk h && wide base
  | .importCodebook h _ image => hdrOk h && bytesOk image
  | .exportCodebook h _ => hdrOk h
  | .pieceStart t stone => wide t && below 192 stone
  | .pieceEnd t stone => wide t && below 192 stone
  | .stoneReadRequest t stone _ dpa _ => wide t && below 192 stone && wide dpa
  | .hopperLineDeliver t stone _ _ _ => wide t && below 192 stone
  | .stoneTake t stone _ => wide t && below 192 stone
  | .checkpointWatchdog t stone => wide t && below 192 stone
  | .accumulatorLimit t stone => wide t && below 192 stone
  | .codeFetchTrap t stone => wide t && below 192 stone
  | .preemptCheckpoint t stone => wide t && below 192 stone
  | .stoneClearComplete t stone => wide t && below 192 stone
  | .dressingUnloadDrained t _ => wide t
  | .loadDressing h p => hdrOk h && partOk p
  | .unloadDressing h _ => hdrOk h
  | .getDressingInfo h _ => hdrOk h
  | .registerDressingKey h _ modulus => hdrOk h && bytesOk modulus
  | .removeDressingKey h keyid => hdrOk h && bytesOk keyid
  | .getStoneStatus h => hdrOk h
  | .setStoneOffline h stone => hdrOk h && below 192 stone
  | .setStoneOnline h stone => hdrOk h && below 192 stone
  | .gateParamWrite ld dpa data _ _ => fnOk ld && wide dpa && lineOk data
  | .gateResultRead ld dpa _ => fnOk ld && wide dpa
  | .gateHoldExpire t _ => wide t
  | .gateNop g => goOk g
  | .gateOpcodeReserved g _ => goOk g
  | .appendAttend g => goOk g
  | .prefixAttach g => goOk g
  | .chunkPrefill g => goOk g
  | .prefillWritesDone t ld buf => wide t && fnOk ld && below 2048 buf
  | .prefixPublish g => goOk g
  | .publishCommit t ld buf => wide t && fnOk ld && below 2048 buf
  | .seqTruncate g => goOk g
  | .graphSearch g => goOk g
  | .distanceBatch g => goOk g
  | .setIntersect g => goOk g
  | .setUnion g => goOk g
  | .setDifference g => goOk g
  | .tenant g => goOk g
  | .armGateSlots h dpa _ _ => hdrOk h && wide dpa
  | .disarmGateSlots h dpa _ _ => hdrOk h && wide dpa
  | .getSlotStatus h dpa => hdrOk h && wide dpa
  | .openSequence h _ _ _ _ _ _ => hdrOk h
  | .closeSequence h _ => hdrOk h
  | .getSequenceStatus h _ => hdrOk h
  | .defineIndex h _ _ _ _ _ _ _ _ => hdrOk h
  | .deleteIndex h _ => hdrOk h
  | .addGranaryExtent h base => hdrOk h && wide base
  | .removeGranaryExtent h base => hdrOk h && wide base
  | .deleteBin h key _ => hdrOk h && bytesOk key
  | .setBinAttributes h key _ _ => hdrOk h && bytesOk key
  | .listBins h _ => hdrOk h
  | .getGranaryStatus h => hdrOk h
  | .resultCheckComplete t ld buf _ => wide t && fnOk ld && below 2048 buf
  | .replayComplete t ld buf _ _ => wide t && fnOk ld && below 2048 buf
  | .suspectTimeout t _ _ => wide t
  | .forwardExtendTimer t _ => wide t
  | .streamCacheFill t _ _ => wide t
  | .guaranteeRecompute t _ => wide t
  | .capacityRiseTimeout t _ => wide t
  | .captureWindowEnd t => wide t
  | .setClass h _ _ _ _ => hdrOk h
  | .reserveGuarantee h _ _ _ _ => hdrOk h
  | .releaseGuarantee h _ => hdrOk h
  | .getWeirStatus h => hdrOk h
  | .setCaptureWindow h _ _ _ => hdrOk h
  | .getMaxLatency h _ _ => hdrOk h
  | .refreshDue t stack _ _ _ => wide t && below 12 stack
  | .selfRefreshIdle t stack => wide t && below 12 stack
  | .freqChangeStackDone t stack _ => wide t && below 12 stack
  | .retrainDue t stack _ _ => wide t && below 12 stack
  | .retrainSlot t stack _ _ => wide t && below 12 stack
  | .garbageCollect t _ => wide t
  | .wearLevelMove t _ => wide t
  | .deepPageRead t _ _ => wide t
  | .slotProgramDone t _ _ => wide t
  | .readRefresh t die _ _ => wide t && below 256 die
  | .patrolRead t die _ => wide t && below 256 die
  | .flashBlockFailure t die _ => wide t && below 256 die
  | .flashDieFailure t die => wide t && below 256 die
  | .dieRebuildComplete t die => wide t && below 256 die
  | .journalPageProgrammed t => wide t
  | .checkpointImageDone t => wide t
  | .holdupTestDue t => wide t
  | .holdupTestComplete t _ => wide t
  | .powerLoss t => wide t
  | .gpfPhase1 t port => wide t && below 6 port
  | .gpfPhase2 t port => wide t && below 6 port
  | .setEnduranceBudget h _ => hdrOk h
  | .testHoldupBank h => hdrOk h
  | .setHoldupTestPeriod h _ => hdrOk h
  | .nearScrub t _ _ _ _ => wide t
  | .nearScrubBehind t => wide t
  | .sramScrub t _ _ _ => wide t
  | .armFlipMaskNear h dpa _ _ => hdrOk h && wide dpa
  | .armFlipMaskStone h stone _ _ _ => hdrOk h && below 192 stone
  | .flipMaskExpire t ld => wide t && fnOk ld
  | .disarmFlipMask h => hdrOk h
  | .setScrubPeriod h _ _ => hdrOk h
  | .setNeighbourRefresh h _ => hdrOk h
  | .getCorrectableErrorTable h _ => hdrOk h
  | .getUncorrectableErrorLog h _ => hdrOk h
  | .retireRow h _ => hdrOk h
  | .retireBank h _ => hdrOk h
  | .retireStack h _ => hdrOk h
  | .retireSack h _ => hdrOk h
  | .getRetirementList h _ => hdrOk h
  | .clearCorrectableErrorTable h => hdrOk h
  | .digestStart t ld _ => wide t && fnOk ld
  | .digestComplete t ld _ _ _ => wide t && fnOk ld
  | .ledgerCommit t => wide t
  | .ledgerCoalesceEnd t _ _ _ => wide t
  | .getLedger h _ _ => hdrOk h
  | .getResultErrorLog h _ => hdrOk h
  | .setCheckPolicy h _ _ _ _ => hdrOk h
  | .getUnitHealth h => hdrOk h
  | .installTestContent h p => hdrOk h && partOk p
  | .requestCalibration h _ _ => hdrOk h
  | .requestTestSlice h _ _ _ => hdrOk h
  | .stagePartitionRequest h p => hdrOk h && partOk p
  | .unlockDebug h p => hdrOk h && partOk p
  | .getTestContent h => hdrOk h
  | .clearUnitRecord h _ _ => hdrOk h
  | .appendLedgerNote h note => hdrOk h && bytesOk note
  | .defineDigestRange h base _ _ _ _ _ => hdrOk h && wide base
  | .deleteDigestRange h _ => hdrOk h
  | .getDigest h _ => hdrOk h
  | .setDigestReference h _ _ => hdrOk h
  | .runDigest h _ => hdrOk h
  | .setDigestPeer h _ port _ _ => hdrOk h && below 6 port
  | .portTrainingAdvance t port _ _ _ _ _ _ => wide t && below 6 port
  | .portTrainingTimeout t port => wide t && below 6 port
  | .configMismatchRetry t port _ _ _ => wide t && below 6 port
  | .laneFailure t port lane => wide t && below 6 port && below 8 lane
  | .laserAgeing t port lane _ _ => wide t && below 6 port && below 8 lane
  | .laserFailure t port lane _ _ => wide t && below 6 port && below 8 lane
  | .portL0p t port _ => wide t && below 6 port
  | .portL1Entry t port => wide t && below 6 port
  | .portL2Entry t port => wide t && below 6 port
  | .peerStandbyTimeout t port => wide t && below 6 port
  | .portExitToActive t port => wide t && below 6 port
  | .pwr p data => peerOk p && bytesOk data
  | .pack p => peerOk p
  | .psettleConfirm p m => peerOk p && settleOk m
  | .psettleRetract p m => peerOk p && settleOk m
  | .psettleExtend p m => peerOk p && settleOk m
  | .psettleKindZero p m => peerOk p && settleOk m
  | .pdigest p _ _ _ _ => peerOk p
  | .pnode p _ => peerOk p
  | .peerBadMessage p => peerOk p
  | .provisionalTimeout t _ _ => wide t
  | .pwrPendingResend t port _ => wide t && below 6 port
  | .forwardTimeout t _ => wide t
  | .peerGraceEnd t port _ => wide t && below 6 port
  | .setNodeIdentifier h _ => hdrOk h
  | .setPeerWindow h port _ _ => hdrOk h && below 6 port
  | .commitPeerWindow h port _ => hdrOk h && below 6 port
  | .getPeerWindow h port _ => hdrOk h && below 6 port
  | .bindSlotForward h dpa port _ _ => hdrOk h && wide dpa && below 6 port
  | .unbindSlotForward h dpa => hdrOk h && wide dpa
  | .setPeerPort h port _ _ _ => hdrOk h && below 6 port
  | .retrainPort h port => hdrOk h && below 6 port
  | .getPortTelemetry h port => hdrOk h && below 6 port
  | .retrainLink ld => fnOk ld
  | .hdmDecoderCommit ld _ _ => fnOk ld
  | .birsp ld _ _ _ => fnOk ld
  | .bisnpTimeout t ld _ _ => wide t && fnOk ld
  | .cxlRsvdEncoding port flit => below 6 port && bytesOk flit
  | .badLdId port _ _ _ => below 6 port
  | .cxlIoPoisonedWrite ld header => fnOk ld && bytesOk header
  | .hotReset t port => wide t && below 6 port
  | .linkDown t port => wide t && below 6 port
  | .ldIdHotReset t _ => wide t
  | .cxlReset t ld _ => wide t && fnOk ld
  | .flr t ld => wide t && fnOk ld
  | .busMasterDisable ld => fnOk ld
  | .dmaCompletion t ld _ data => wide t && fnOk ld && bytesOk data
  | .dmaCompletionTimeout t ld _ => wide t && fnOk ld
  | .ideIntegrityFail t port => wide t && below 6 port
  | .cdatTableAccess ld => fnOk ld
  | .spdmGetMeasurements ld _ _ => fnOk ld
  | .spdmKeyExchange ld => fnOk ld
  | .ideKeyProgram ld _ _ => fnOk ld
  | .abortBackgroundOperation h => hdrOk h
  | .backgroundCommandComplete t src => wide t && fnOk src
  | .partImageTimeout t src _ => wide t && fnOk src
  | .snapshotTimeout t src _ => wide t && fnOk src
  | .unsupportedCommand h _ => hdrOk h
  | .getModuleStatus h => hdrOk h
  | .getUnitMap h => hdrOk h
  | .getPartitionMap h _ => hdrOk h
  | .getStagedRequestStatus h => hdrOk h
  | .discardStagedRequest h => hdrOk h
  | .keyLd h => hdrOk h
  | .zeroiseLdKey h => hdrOk h
  | .getRegionProfile h _ => hdrOk h
  | .setRegionProfile h _ _ => hdrOk h
  | .getExtentDescriptors h _ => hdrOk h
  | .identifyMemoryDevice h => hdrOk h
  | .getSupportedLogs h => hdrOk h
  | .getLog h _ _ _ => hdrOk h
  | .getEventRecords h _ => hdrOk h
  | .clearEventRecords h _ _ _ => hdrOk h
  | .getEventInterruptPolicy h => hdrOk h
  | .setEventInterruptPolicy h _ => hdrOk h
  | .getFwInfo h => hdrOk h
  | .transferFw h _ p => hdrOk h && partOk p
  | .activateFw h _ _ => hdrOk h
  | .getTimestamp h => hdrOk h
  | .setTimestamp h _ => hdrOk h
  | .getHealthInfo h => hdrOk h
  | .getPoisonList h dpa _ => hdrOk h && wide dpa
  | .injectPoison h dpa => hdrOk h && wide dpa
  | .clearPoison h dpa data => hdrOk h && wide dpa && lineOk data
  | .getDcConfiguration h _ _ => hdrOk h
  | .getDcExtentList h _ _ => hdrOk h
  | .getDcdInfo h => hdrOk h
  | .getHostDcRegionConfig h _ _ _ => hdrOk h
  | .getDcRegionExtentLists h _ _ _ => hdrOk h
  | .getLdInfo h => hdrOk h
  | .getLdAllocations h _ _ => hdrOk h
  | .fmQosControl h _ => hdrOk h
  | .millerBoot t _ _ => wide t
  | .millerWatchdog t => wide t
  | .millerFetchFault t => wide t
  | .firmwareTrialCommit t => wide t
  | .getDebugChallenge h => hdrOk h
  | .debugNonceExpire t => wide t
  | .getDebugState h => hdrOk h
  | .setPowerLimit h _ => hdrOk h
  | .getPowerStatus h => hdrOk h
  | .setSelfRefreshIdle h _ => hdrOk h
  | .getThermalStatus h => hdrOk h
  | .vaux33PowerOn t => wide t
  | .fastOscQualified t _ => wide t
  | .crystalQualified t _ => wide t
  | .crystalQualTimeout t _ => wide t
  | .crystalTrip t _ => wide t
  | .fastOscFail t => wide t
  | .pwrgdAssert t => wide t
  | .pwrgdDeassert t => wide t
  | .perstAssert t _ => wide t
  | .perstDeassert t => wide t
  | .vin48Overvoltage t => wide t
  | .vaux33Loss t => wide t
  | .pllLockLoss t _ _ => wide t
  | .pllRelock t _ _ => wide t
  | .clockGateRequest t _ _ => wide t
  | .gateHandshakeTimeout t _ _ => wide t
  | .clockGateWake t _ _ => wide t
  | .sliceDue t _ _ => wide t
  | .sliceGapTimeout t _ _ => wide t
  | .sliceDeferralExpire t _ _ => wide t
  | .sliceComplete t _ _ _ => wide t
  | .getTestSchedule h _ => hdrOk h
  | .setTestInterval h _ _ => hdrOk h
  | .setDeferralLimit h _ => hdrOk h
  | .getAgeingTelemetry h _ => hdrOk h
  | .getTenteringPlan h => hdrOk h
  | .pathMonitorSample t _ _ => wide t
  | .tenteringRun t _ _ => wide t
  | .registerWrite r => regAccOk r
  | .stoneStepChangeComplete t => wide t
  | .holdupBankFailed t => wide t
  | .refreshWindowHot t stack _ => wide t && below 12 stack
  | .burstCreditRefill t => wide t
  | .vin48InputReconnect t => wide t
  | .flitCrcFailure port e header => below 6 port && bytesOk header && e.words.all laneWordOk
  | .spdmEndSession ld _ => fnOk ld
  | .busMasterEnable ld => fnOk ld
  | .d3hotEntry ld _ => fnOk ld

end Sys2Proof
end

