-- ==== Sys2Proof/Tests/Slice0.lean ====
section
/-! SUPPORT. For every statement a concrete state and operands that meet its hypotheses, clause by clause (the theorems wit_…);
the spec's worked examples; an ill-formed command for each check of WellFormed. -/
namespace Sys2Proof.Tests
open Sys2Proof Sys2Proof.Machine

set_option Elab.async false

/-! ### States -/

/-- A module in service: LD 0 has 2 GiB with an ordinary, a gate and a lossy extent, every port is up. -/
def on : State :=
  { now := 10000000000000000, phase := .running, millerReady := true,
    ext := { mapOk := true, nextEid := 3, keys := { dflt := none, cells := [(0, some 0)] },
             parts := { dflt := {}, cells := [(0, { enabled := true, dpaSize := 8, quota := 1099511627776, regions := [(0, 8)] })] },
             exts := [{ eid := 0, ld := 0, base := 0, len := 268435456, owner := 0, ownerBase := 0, profile := 0, state := .active },
                      { eid := 1, ld := 0, base := 268435456, len := 268435456, owner := 0, ownerBase := 268435456, profile := 2,
                        state := .active },
                      { eid := 2, ld := 0, base := 536870912, len := 268435456, owner := 0, ownerBase := 536870912, profile := 17,
                        state := .active }] },
    port := { ports := { dflt := { state := .active, power := .active, group := [0, 1, 2, 3, 4, 5, 6, 7] } }, node := 7 },
    cxe := { hdm := { dflt := {}, cells := [(0, { base := 0, size := 2147483648, committed := true })] },
             lds := { dflt := { biEnable := true } } },
    clock := { rails := true, vaux := true, pwrgd := true, perst := false, xa := .qualified, xb := .qualified, fault := false } }

/-- `on` with LD 0's decoder in BI mode. -/
def onBi : State :=
  { on with cxe := { on.cxe with hdm := { dflt := {}, cells := [(0, { base := 0, size := 2147483648, bi := true, committed := true })] } } }

/-- `on` with slot position 0 of the gate extent armed, in state `st`. -/
def armed (st : SlotState) : State := on.modGate fun g => { g with slots := { dflt := {}, cells := [(0, { state := st, eid := 1, dpa := 268435456 })] } }

/-- A whole input of `n` zero bytes. -/
def whole (n : Nat) : Part := { offset := 0, total := n, final := true, data := List.replicate n 0 }

/-- A whole go line at the gate extent's position 0: no wheel, `plines` parameter lines, dressing `handle`. -/
def goTo (plines handle : Nat) : GoWrite := ⟨0, 268435456, ⟨true, false, 0, 0, 0, 0, plines, handle, 0, 0⟩, true, false⟩

/-- The slot's first parameter line is `p`. -/
def armedWith (p : Bytes) : State := (armed .idle).modGate fun g => { g with
  lines := { dflt := some [], cells := [(8, some p)] }
  seqs := [{ ld := 0, id := 0, eid := 2, sbase := 536870912, layers := 1, hkv := 1, g := 1, d := 64, maxpos := 2048, len := 16 }]
  indexes := [{ ld := 0, id := 0, vbase := 0, abase := 65536, nv := 16, entry := 0, dim := 32, vfmt := 1, deg := 16, metric := 0 }] }

/-- A committed prefix bin of the lossy extent, key 0. -/
def aBin : Bin := { id := 0, key := List.replicate 32 0, sig := 0, plen := 16, geom := 4194304, base := 536870912, eid := 2, owner := 0, pub := 0, committed := true }

/-- An operation in the slot. -/
def anOp (opcode cls : Nat) : GateOp :=
  { opcode := opcode, cls := cls, handle := 0, obj := 0, wclass := 0, params := zeros 64, accepted := 0, order := 0, wheel := none, early := false }

/-- Slot 0 holds operation `o` in state `st`. -/
def slotOp (st : SlotState) (o : GateOp) : State :=
  on.modGate fun g => { g with slots := { dflt := {}, cells := [(0, { state := st, eid := 1, dpa := 268435456, op := some o })] } }

theorem ok_of_eval {x : Except (Nat × Nat) Nat} {a : Nat} (h : (match x with | .ok b => b == a | .error _ => false) = true) : x = .ok a := by
  split at h
  · simp_all
  · cases h

theorem some_pair {α β : Type} {o : Option (α × β)} (h : o.isSome = true) : o = some ((o.get h).1, (o.get h).2) := (Option.some_get h).symm

theorem some_triple {α β γ : Type} {o : Option (α × β × γ)} (h : o.isSome = true) : o = some ((o.get h).1, (o.get h).2.1, (o.get h).2.2) :=
  (Option.some_get h).symm

/-- Parameters of a publish: key 0, signature 0, 16 tokens. -/
def publishParams : Bytes := List.replicate 40 0 ++ [16]

theorem not_served {a : Access} (h : (match a with | .served _ => false | _ => true) = true) : ∀ e : Extent, a ≠ .served e := by
  rintro e rfl; cases h

/-- A piece of slot 0's operation. -/
def aPiece : Piece := { buf := 0, idx := 0, ld := 0, handle := 40, cls := 4, wclass := 0, order := 0 }

/-- Stone 0 is `x`. -/
def withStone (s : State) (x : Stone) : State := { s with stone := { s.stone with stones := { dflt := {}, cells := [(0, x)] } } }

/-- The gate extent alone in DPA 268435456, with the other extents in state `st`. -/
def extsIn (st : ExtState) : State := { on with ext := { on.ext with exts := on.ext.exts.map fun e => { e with state := st, group := 1 } } }

/-- The library holds a dressing of LD 0. -/
def withDressing (stopped : Bool) : State := { on with stone := { lib := [(40, { party := 0, container := zeros 256, stopped := stopped })] } }

/-! ### Witnesses: the hypotheses of each statement's clauses can be met -/

theorem wit_StepRunsFront :
  (∃ (c : Instr) (rest : List Instr) (s : State), s.pending = c :: rest) ∧
  (∃ (s : State), s.pending = []) :=
  ⟨⟨_, _, { on with pending := [.cxlMemRead 0 0 0 0 .any 0] }, rfl⟩,
   ⟨on, by decide⟩⟩

theorem wit_StepsAreSafe :
  ∃ (c : Instr) (rest : List Instr) (s : State) (t : State), s.pending = c :: rest ∧ step s = .next t :=
  ⟨_, _, { on with pending := [.cxlMemRead 0 0 0 0 .any 0] }, _, rfl, rfl⟩

theorem wit_StoredFormInvariant :
  ∃ (s : State) (t : State), s.memWf = true ∧ step s = .next t :=
  ⟨{ on with pending := [.cxlMemRead 0 0 0 0 .any 0] }, _, by decide, rfl⟩

theorem wit_ResetState :
  ∃ (ld : Nat), ld < 16 :=
  ⟨15, by decide⟩

theorem wit_FactoryState :
  ∃ (ld : Nat), ld < 16 :=
  ⟨15, by decide⟩

theorem wit_MemRequestsComplete :
  (∃ (port : Nat) (ldid : Nat) (hpa : Nat) (a : Nat) (bi : Bool) (s : State) (u : State), s.portServes port = true ∧ s.wakePort port = u ∧
    u.ldidOk port ldid = true ∧ u.hdmDecode ldid hpa = some (a, bi) ∧ u.boot.openSeq = 0 ∧ bi = false) ∧
  (∃ (port : Nat) (ldid : Nat) (hpa : Nat) (a : Nat) (bi : Bool) (s : State) (u : State) (e : Extent), s.portServes port = true ∧
    s.wakePort port = u ∧ u.ldidOk port ldid = true ∧ u.hdmDecode ldid hpa = some (a, bi) ∧ u.boot.openSeq = 0 ∧ bi = true ∧
    u.access ldid (a / 64 * 64) = .served e) ∧
  (∃ (port : Nat) (ldid : Nat) (hpa : Nat) (poison : Bool) (a : Nat) (bi : Bool) (s : State) (u : State), (s.portServes port = true ∧
    (s.wakePort port).ldidOk port ldid = true) ∧ (s.wakePort port).poisonSeen ldid poison = u ∧ u.hdmDecode ldid hpa = some (a, bi) ∧
    u.boot.openSeq = 0 ∧ bi = false) ∧
  (∃ (port : Nat) (ldid : Nat) (hpa : Nat) (poison : Bool) (a : Nat) (bi : Bool) (s : State) (u : State) (e : Extent),
    (s.portServes port = true ∧ (s.wakePort port).ldidOk port ldid = true) ∧ (s.wakePort port).poisonSeen ldid poison = u ∧
    u.hdmDecode ldid hpa = some (a, bi) ∧ u.boot.openSeq = 0 ∧ bi = true ∧ u.access ldid (a / 64 * 64) = .served e) ∧
  (∃ (port : Nat) (ldid : Nat) (kind : Nat) (s : State), s.up = true ∧ port < 4 ∧ s.ldidOk port ldid = false ∧
    ((kind = 0 → ldid = 0xFFFF → s.boot.fmport ≠ port))) :=
  ⟨⟨0, 0, 0, _, _, on, _, by decide, rfl, by decide, rfl, by decide, rfl⟩,
   ⟨0, 0, 0, _, _, onBi, _, _, by decide, rfl, by decide, rfl, by decide, rfl, rfl⟩,
   ⟨0, 0, 0, false, _, _, on, _, by decide, rfl, rfl, by decide, rfl⟩,
   ⟨0, 0, 0, false, _, _, onBi, _, _, by decide, rfl, rfl, by decide, rfl, rfl⟩,
   ⟨0, 17, 1, on, by decide⟩⟩

theorem wit_WritePathCompletes_part1 :
  (∃ (sack : Nat) (s : State), s.up = true ∧ (s.sack sack).mst = .allocating ∧ (s.sack sack).waits = false) ∧
  (∃ (t : Nat) (sack : Nat) (e : Extent) (s : State) (u : State), s.up = true ∧ s.extOfSack sack = some e ∧
    ((s.at_ t).restoreEntry sack e).modStore (fun st => { st with corrupt := st.corrupt.filter (· ≠ sack) }) = u) ∧
  (∃ (t : Nat) (blk : Nat) (m : MergeEnt) (s : State), s.up = true ∧ s.openEnt blk = some m ∧ m.lastWrite + 64 * us ≤ max s.now t) ∧
  (∃ (t : Nat) (blk : Nat) (m : MergeEnt) (e : Extent) (v : StoredBlk) (s : State) (u : State) (w : State), s.up = true ∧
    (s.store.merges.find? fun m => m.blk = blk ∧ m.passed = true) = some m ∧ s.extOfSack (blk / 128) = some e ∧
    m.valid = BitVec.allOnes 512 ∧ (s.at_ t).landing e m = some u ∧
    (u.modStore fun st => { st with merges := st.merges.filter (· ≠ m) }).encode e m.blk m.data m.order = some (v, w)) ∧
  (∃ (t : Nat) (blk : Nat) (m : MergeEnt) (e : Extent) (s : State), s.up = true ∧ (s.store.merges.find? fun m => m.blk = blk ∧
    m.passed = true) = some m ∧ s.extOfSack (blk / 128) = some e ∧ m.valid ≠ BitVec.allOnes 512 ∧ (s.at_ t).blkNear m.blk = false ∧
    (s.at_ t).isPoison m.blk = false) ∧
  (∃ (t : Nat) (blk : Nat) (s : State) (u : State), u.up = true ∧ (s.at_ t).freeMirror blk = u ∧ u.store.mirrors.length < 16777216) :=
  ⟨⟨0, on.setSack 0 { mst := .allocating }, by decide⟩,
   ⟨0, 0, _, on, _, by decide, rfl, rfl⟩,
   ⟨0, 0, _, on.modStore fun st => { st with merges := [{ blk := 0, opener := 0, eid := 0, data := [], valid := 1, lastWrite := 0 }] },
     by decide, rfl, by decide⟩,
   ⟨0, 0, _, _, _,
     (on.modStore fun st => { st with merges := [{ blk := 0, opener := 0, eid := 0, data := zeros 512, valid := BitVec.allOnes 512, lastWrite := 0, passed := true }] }).setSack 0 { mst := .dirty, tier := .t1, near := true },
     _, _, by decide, rfl, rfl, by decide +kernel, (Option.some_get (by decide +kernel)).symm, some_pair (by decide +kernel)⟩,
   ⟨0, 0, _, _,
     on.modStore fun st => { st with merges := [{ blk := 0, opener := 0, eid := 0, data := zeros 512, valid := 1, lastWrite := 0, passed := true }] },
     by decide, rfl, rfl, by decide +kernel, by decide +kernel, by decide +kernel⟩,
   ⟨0, 0, on, _, by decide, rfl, by decide⟩⟩

theorem wit_WritePathCompletes_part2 :
  (∃ (t : Nat) (blk : Nat) (s : State), s.up = true ∧ (s.sack (blk / 128)).durable = true ∧ (s.sack (blk / 128)).mst = .dirty ∧
    (s.sack (blk / 128)).dirty.getLsbD (blk % 128) = true ∧ s.store.dirtySince.get blk + sec ≤ max s.now t) ∧
  (∃ (t : Nat) (blk : Nat) (m : Mirror) (e : Extent) (s : State) (u : State), s.up = true ∧
    (s.store.mirrors.find? fun m => m.blk = blk) = some m ∧ s.extOfSack (blk / 128) = some e ∧ ((m.stackA = none ∨ m.stackB = none)) ∧
    (s.at_ t).modStore (fun st => { st with mirrors := st.mirrors.map fun x => if x.blk = blk then (if m.stackA = none then { m with stackA := (s.at_ t).remirrorPlace e m } else { m with stackB := (s.at_ t).remirrorPlace e m }) else x }) = u) :=
  ⟨⟨0, 0, on.setSack 0 { mst := .dirty, tier := .t1, near := true, durable := true, dirty := 1 }, by decide⟩,
   ⟨0, 0, _, _,
     on.modStore fun st => { st with mirrors := [{ blk := 0, lines := 1, data := zeros 512, stackA := none, stackB := some 1, since := 0 }] },
     _, by decide, rfl, rfl, by decide, rfl⟩⟩

theorem wit_TierMovesComplete_part1 :
  (∃ (sack : Nat) (x : Xfer) (s : State), s.up = true ∧ s.xferOf sack = some x ∧ x.chan.isSome = true ∧
    (((s.sack sack).mst = .promoting ∨ (s.sack sack).mst = .specPromoting))) ∧
  (∃ (stack : Nat) (s : State), s.up = true ∧ s.stackOk stack = true ∧
    ((64 * s.freeFrames stack < s.framesPerStack ∨ s.wantsRun stack = true))) ∧
  (∃ (sack : Nat) (s : State), s.up = true ∧ (s.sack sack).mst = .demoting) ∧
  (∃ (t : Nat) (sack : Nat) (x : Xfer) (s : State), s.up = true ∧ s.xferOf sack = some x ∧ x.chan.isSome = true ∧
    (s.sack sack).mst = .writeback ∧ (((s.at_ t).mayProgram = true ∨ (s.at_ t).wbExempt sack = true))) ∧
  (∃ (t : Nat) (rid : Nat) (r : HeldRead) (e : Extent) (s : State), s.up = true ∧
    (s.store.heldReads.find? fun r => r.rid = rid) = some r ∧ (r.why = .demand ∧ r.start + ms ≤ max s.now t) ∧ s.extById r.eid = some e) ∧
  (∃ (channel : Nat) (cause : Nat) (x : Xfer) (e : Extent) (s : State), (s.up = true ∧ cause ≤ 4) ∧
    (s.store.xfers.find? fun x => x.chan = some channel) = some x ∧ s.extOfSack x.sack = some e) :=
  ⟨⟨0, _,
     (on.setSack 0 { mst := .promoting, tier := .t2 }).modStore fun st => { st with xfers := [{ sack := 0, kind := .promote, chan := some 0, eid := 0, demand := true, start := 0 }] },
     by decide, rfl, by decide⟩,
   ⟨0, on.setSack 0 { mst := .clean, tier := .t1, near := true, size := 10000000 }, by decide⟩,
   ⟨0, on.setSack 0 { mst := .demoting, tier := .t1, near := true }, by decide⟩,
   ⟨0, 0, _,
     (on.setSack 0 { mst := .writeback, tier := .t1, near := true }).modStore fun st => { st with xfers := [{ sack := 0, kind := .writeback, chan := some 0, eid := 0, demand := true, start := 0 }] },
     by decide, rfl, by decide⟩,
   ⟨0, 0, _, _,
     on.modStore fun st => { st with heldReads := [{ rid := 0, ld := 0, dpa := 0, eid := 0, sack := 0, blk := 0, line := 0, who := .cxl 0, why := .demand, cause := none, start := 0 }] },
     by decide, rfl, by decide, rfl⟩,
   ⟨0, 4, _, _,
     on.modStore fun st => { st with xfers := [{ sack := 0, kind := .promote, chan := some 0, eid := 0, demand := true, start := 0 }] },
     by decide, rfl, rfl⟩⟩

theorem wit_TierMovesComplete_part2 :
  ∃ (s : State), s.up = true :=
  ⟨on, by decide⟩

theorem wit_GateLinesComplete :
  (∃ (ld : Nat) (dpa : Nat) (e : Extent) (b : Nat) (s : State) (u : State), (s.poisonSeen ld false).settleLeaving = u ∧ u.up = true ∧
    u.access ld dpa = .served e ∧ Prof.gate e.profile = true ∧ u.bufAt ld dpa = some b ∧ dpa / 64 % 1024 ≠ 0) ∧
  (∃ (ld : Nat) (dpa : Nat) (e : Extent) (s : State) (u : State), s.settleLeaving = u ∧ u.up = true ∧ u.access ld dpa = .served e ∧
    Prof.gate e.profile = true) ∧
  (∃ (t : Nat) (rid : Nat) (r : ResRead) (s : State) (u : State), (s.gate.reads.find? fun r => r.rid = rid) = some r ∧
    r.start + (s.slot r.buf).hold * us ≤ max s.now t ∧
    ((s.at_ t).modGate fun g => { g with reads := g.reads.filter fun x => x.rid ≠ rid }).modGateLd r.ld (fun l => { l with expired := bump 16 l.expired 1 }) = u) ∧
  (∃ (g : GoWrite) (b : Nat) (p : Bytes) (s : State) (v : State), s.takeGo g 0 = .accepted b v ∧ v.goShape b g false false = true ∧
    v.copyParams b g.line.plines = some p) ∧
  (∃ (g : GoWrite) (opcode : Nat) (b : Nat) (s : State) (v : State), s.takeGo g opcode = .accepted b v) :=
  ⟨⟨0, 268435520, _, _, armed .idle, _, rfl, by decide, rfl, by decide, rfl, by decide⟩,
   ⟨0, 268435456, _, armed .idle, _, rfl, by decide, rfl, by decide⟩,
   ⟨0, 0, _, (armed .running).modGate fun g => { g with reads := [{ rid := 0, ld := 0, buf := 0, line := 512, tag := 0, start := 0 }] },
     _, rfl, by decide, rfl⟩,
   ⟨⟨0, 268435456, ⟨true, false, 0, 0, 0, 0, 0, 0, 0, 0⟩, true, false⟩, _, _, armed .idle, _, rfl, by decide, rfl⟩,
   ⟨⟨0, 268435456, ⟨true, false, 0, 0, 0, 0, 0, 0, 0, 0⟩, true, false⟩, 5, _, armed .idle, _, rfl⟩⟩

theorem wit_GateOpsComplete_part1 :
  (∃ (g : GoWrite) (b : Nat) (o : GateOp) (s : State) (u : State) (q : KvSeq) (w : State),
    GoPasses s g 0x0100 0 (s.builtinFor 0) true (apCheck g.ld g.line.obj g.line.plines) b u o ∧
    (u.appendRecord g.ld o).turnCome b o q w) ∧
  (∃ (g : GoWrite) (b : Nat) (o : GateOp) (s : State) (u : State) (q : KvSeq) (v : State) (w : State),
    GoPasses s g 0x0102 0 (s.builtinFor 0) true (cpCheck g.ld g.line.obj g.line.plines) b u o ∧ u.turnCome b o q w ∧
    ((w.cutPrefix (bufLd b) o.obj (apPos o.params)).modSeq (bufLd b) o.obj fun q => { q with len := min q.len (apPos o.params) }).holdOp b { o with begun := true } = v) ∧
  (∃ (g : GoWrite) (b : Nat) (o : GateOp) (s : State) (u : State) (q : KvSeq) (w : State),
    GoPasses s g 0x0101 0 noHandle true (paCheck g.ld g.line.obj g.line.plines) b u o ∧ u.turnCome b o q w ∧ q.len = 0 ∧
    w.lookup q.ld (o.params.take 32) (leAt o.params 32 8) = none) ∧
  (∃ (g : GoWrite) (b : Nat) (o : GateOp) (s : State) (u : State) (q : KvSeq) (n : Bin) (v : State) (w : State),
    GoPasses s g 0x0101 0 noHandle true (paCheck g.ld g.line.obj g.line.plines) b u o ∧ u.turnCome b o q w ∧ q.len = 0 ∧
    w.lookup q.ld (o.params.take 32) (leAt o.params 32 8) = some n ∧ w.modGateLd q.ld (fun l => { l with hits := bump 32 l.hits 1 }) = v ∧
    n.geom = v.geomOf q ∧ n.plen ≤ q.maxpos ∧ ((v.binView q.ld n).any fun e => e.state == .active) = true) ∧
  (∃ (g : GoWrite) (b : Nat) (o : GateOp) (s : State) (u : State) (q : KvSeq) (x : Bin) (w : State),
    GoPasses s g 0x0103 0 noHandle true (ppCheck g.ld g.line.obj g.line.plines) b u o ∧ u.turnCome b o q w ∧ leAt o.params 40 4 ≤ q.len ∧
    w.lookup q.ld (o.params.take 32) (leAt o.params 32 8) = some x) ∧
  (∃ (g : GoWrite) (b : Nat) (o : GateOp) (s : State) (u : State) (q : KvSeq) (e : Extent) (base : Nat) (n : Bin) (v : State) (w : State) (y : State),
    GoPasses s g 0x0103 0 noHandle true (ppCheck g.ld g.line.obj g.line.plines) b u o ∧ u.turnCome b o q w ∧ leAt o.params 40 4 ≤ q.len ∧
    w.lookup q.ld (o.params.take 32) (leAt o.params 32 8) = none ∧ (w.publishExts q).isEmpty = false ∧
    w.makeRoom (w.party q.ld) (w.publishExts q) (binBytes q.layers (leAt o.params 40 4) (w.psz q)) (w.evictable (w.party q.ld)) = some (e,
    base, v) ∧
    n = { id := v.freshBin, key := o.params.take 32, sig := leAt o.params 32 8, plen := leAt o.params 40 4, geom := v.geomOf q, base := base, eid := e.eid, owner := e.ld, pub := q.ld, bytes := binBytes q.layers (leAt o.params 40 4) (w.psz q), last := v.timeOf q.ld } ∧
    (((v.modGate fun gt => { gt with bins := gt.bins ++ [n] }).modOp b fun o => { o with bin := some n.id }).holdOp b { o with begun := true, bin := some n.id }) = y) :=
  ⟨⟨goTo 7 0, _, _, (armedWith []).modGate fun g => { g with seqs := g.seqs.map fun q => { q with len := 0 } }, _, _, _, ⟨_, _, 1, rfl,
     by decide, by decide, rfl, ok_of_eval (by decide +kernel), by decide, rfl, rfl⟩, ⟨by decide +kernel, rfl, by decide +kernel, rfl,
     rfl⟩⟩,
   ⟨goTo 1 0, _, _, armedWith [0, 0, 0, 0, 1], _, _, _, _, ⟨_, _, 0, rfl, by decide, by decide, rfl, ok_of_eval (by decide +kernel),
     by decide, rfl, rfl⟩, ⟨by decide +kernel, rfl, by decide +kernel, rfl, rfl⟩, rfl⟩,
   ⟨goTo 1 0, _, _, (armedWith []).modGate fun g => { g with seqs := g.seqs.map fun q => { q with len := 0 } }, _, _, _, ⟨_, _, 0, rfl,
     by decide, by decide, rfl, ok_of_eval (by decide +kernel), by decide, rfl, rfl⟩, ⟨by decide +kernel, rfl, by decide +kernel, rfl,
     rfl⟩, by decide +kernel, by decide +kernel⟩,
   ⟨goTo 1 0, _, _, (armedWith []).modGate fun g => { g with bins := [aBin], seqs := g.seqs.map fun q => { q with len := 0 } }, _, _, _,
     _, _, ⟨_, _, 0, rfl, by decide, by decide, rfl, ok_of_eval (by decide +kernel), by decide, rfl, rfl⟩, ⟨by decide +kernel, rfl,
     by decide +kernel, rfl, rfl⟩, by decide +kernel, (Option.some_get (by decide +kernel)).symm, rfl, by decide +kernel,
     by decide +kernel, by decide +kernel⟩,
   ⟨goTo 1 0, _, _, (armedWith publishParams).modGate fun g => { g with bins := [aBin] }, _, _, _, _, ⟨_, _, 0, rfl, by decide, by decide,
     rfl, ok_of_eval (by decide +kernel), by decide, rfl, rfl⟩, ⟨by decide +kernel, rfl, by decide +kernel, rfl, rfl⟩, by decide +kernel,
     (Option.some_get (by decide +kernel)).symm⟩,
   ⟨goTo 1 0, _, _, (armedWith publishParams).modGate fun g => { g with granary := [2] }, _, _, _, _, _, _, _, _, ⟨_, _, 0, rfl,
     by decide, by decide, rfl, ok_of_eval (by decide +kernel), by decide, rfl, rfl⟩, ⟨by decide +kernel, rfl, by decide +kernel, rfl,
     rfl⟩, by decide +kernel, by decide +kernel, by decide +kernel, some_triple (by decide +kernel), rfl, rfl⟩⟩

theorem wit_GateOpsComplete_part2 :
  (∃ (g : GoWrite) (b : Nat) (o : GateOp) (s : State) (u : State) (q : KvSeq) (w : State),
    GoPasses s g 0x0104 0 noHandle true (stCheck g.ld g.line.obj g.line.plines) b u o ∧ u.turnCome b o q w) ∧
  (∃ (g : GoWrite) (b : Nat) (o : GateOp) (s : State) (u : State),
    GoPasses s g 0x0200 1 (s.builtinFor 1) true (gsCheck g.ld g.line.obj g.line.plines) b u o) ∧
  (∃ (g : GoWrite) (b : Nat) (o : GateOp) (s : State) (u : State),
    GoPasses s g 0x0201 2 (s.builtinFor 2) true (dbCheck g.ld g.line.obj g.line.plines) b u o) ∧
  (∃ (g : GoWrite) (b : Nat) (o : GateOp) (s : State) (u : State),
    GoPasses s g 0x0300 3 (s.builtinFor 3) false (soCheck g.ld g.line.plines) b u o) ∧
  (∃ (g : GoWrite) (b : Nat) (o : GateOp) (s : State) (u : State),
    GoPasses s g 0x0301 3 (s.builtinFor 3) false (soCheck g.ld g.line.plines) b u o) ∧
  (∃ (g : GoWrite) (b : Nat) (o : GateOp) (s : State) (u : State),
    GoPasses s g 0x0302 3 (s.builtinFor 3) false (soCheck g.ld g.line.plines) b u o) :=
  ⟨⟨goTo 1 0, _, _, armedWith [8], _, _, _, ⟨_, _, 8, rfl, by decide, by decide, rfl, ok_of_eval (by decide +kernel), by decide, rfl, rfl⟩,
     ⟨by decide +kernel, rfl, by decide +kernel, rfl, rfl⟩⟩,
   ⟨goTo 3 0, _, _, armedWith [1, 0, 1, 0, 1, 0, 1], _, ⟨_, _, 0, rfl, by decide, by decide, rfl, ok_of_eval (by decide +kernel),
     by decide, rfl, rfl⟩⟩,
   ⟨goTo 3 0, _, _, armedWith [1], _, ⟨_, _, 0, rfl, by decide, by decide, rfl, ok_of_eval (by decide +kernel), by decide, rfl, rfl⟩⟩,
   ⟨goTo 2 0, _, _, armedWith [2], _, ⟨_, _, 0, rfl, by decide, by decide, rfl, ok_of_eval (by decide +kernel), by decide, rfl, rfl⟩⟩,
   ⟨goTo 2 0, _, _, armedWith [2], _, ⟨_, _, 0, rfl, by decide, by decide, rfl, ok_of_eval (by decide +kernel), by decide, rfl, rfl⟩⟩,
   ⟨goTo 2 0, _, _, armedWith [2], _, ⟨_, _, 0, rfl, by decide, by decide, rfl, ok_of_eval (by decide +kernel), by decide, rfl, rfl⟩⟩⟩

theorem wit_GateOpsComplete_part3 :
  (∃ (g : GoWrite) (b : Nat) (o : GateOp) (s : State) (u : State),
    GoPasses s g 0x0400 4 g.line.handle false (teCheck g.ld g.line.handle g.line.plines) b u o) ∧
  (∃ (t : Nat) (ld : Nat) (buf : Nat) (o : GateOp) (q : KvSeq) (s : State) (u : State), (s.up = true ∧ buf < 128) ∧
    (s.slot (128 * ld + buf)).op = some o ∧ (o.opcode = 0x0102 ∧ o.begun = true ∧ (s.slot (128 * ld + buf)).state = .running ∧
    o.pieces = [] ∧ (s.at_ t).landed o.hub = true ∧ (s.at_ t).inputsOk o = true) ∧ s.seqOf ld o.obj = some q ∧
    (((s.at_ t).modSeq ld o.obj fun x => { x with len := prefillLen x o.params }).modOp (128 * ld + buf) fun x => { x with aux := prefillLen q o.params }) = u) ∧
  (∃ (t : Nat) (ld : Nat) (buf : Nat) (id : Nat) (o : GateOp) (s : State), (s.up = true ∧ buf < 128) ∧
    (s.slot (128 * ld + buf)).op = some o ∧ o.opcode = 0x0103 ∧ o.bin = some id ∧ o.begun = true ∧
    (s.slot (128 * ld + buf)).state = .running ∧ (s.at_ t).landed o.hub = true ∧ (s.at_ t).inputsOk o = true) :=
  ⟨⟨goTo 1 32, _, _, { armedWith [1] with stone := { lib := [(32, { party := 0, container := zeros 20 ++ [16] ++ zeros 35 ++ [1] })] } }, _,
     ⟨_, _, 0, rfl, by decide, by decide, rfl, ok_of_eval (by decide +kernel), by decide, rfl, rfl⟩⟩,
   ⟨0, 0, 0, _, _,
     (armedWith []).modGate fun g => { g with slots := { dflt := {}, cells := [(0, { state := .running, eid := 1, dpa := 268435456, op := some { anOp 0x0102 0 with begun := true } })] } },
     _, by decide, rfl, by decide, rfl, rfl⟩,
   ⟨0, 0, 0, 0, _, slotOp .running { anOp 0x0103 0 with begun := true, bin := some 0 }, by decide, rfl, by decide⟩⟩

theorem wit_GateCommandsComplete_part1 :
  (∃ (h : MbHdr) (dpa : Nat) (count : Nat) (hold : Nat) (e : Extent) (s : State),
    s.takes h { opcode := 0xC060, ld := true, fm := .no, len := [24] } ∧ s.extAt h.src dpa = some e ∧ (e.state = .active ∧
    Prof.gate e.profile = true ∧ dpa % 65536 = 0 ∧ 0 < count ∧ count ≤ 128 ∧ dpa + 65536 * count ≤ e.base + e.len ∧ 10 ≤ hold ∧
    hold ≤ 16000) ∧ ((∀ p ∈ slotPositions dpa count, s.bufAt h.src p = none)) ∧
    ((ldBufs h.src).filter fun b => (s.slot b).state != .unarmed).length + (slotPositions dpa count).length ≤ 128) ∧
  (∃ (h : MbHdr) (dpa : Nat) (count : Nat) (force : Bool) (bs : List Nat) (s : State),
    s.takes h { opcode := 0xC061, ld := true, fm := .no, len := [25] } ∧ dpa % 65536 = 0 ∧ 0 < count ∧ count ≤ 128 ∧
    (slotPositions dpa count).map (s.bufAt h.src) = bs.map some ∧ ((force = true ∨ ∀ b ∈ bs, (s.slot b).state.busy = false))) ∧
  (∃ (h : MbHdr) (dpa : Nat) (b : Nat) (s : State), s.takes h { opcode := 0xC062, ld := true, fm := .ld, len := [16] } ∧
    s.bufAt (whoOf h) dpa = some b ∧ dpa % 65536 = 0) ∧
  (∃ (h : MbHdr) (sbase : Nat) (layers : Nat) (hkv : Nat) (g : Nat) (d : Nat) (maxpos : Nat) (id : Nat) (e : Extent) (s : State),
    s.takes h { opcode := 0xC063, ld := true, fm := .no, len := [28], store := true } ∧ s.extAt h.src sbase = some e ∧
    (e.state = .active ∧ Prof.lossy e.profile = true ∧
    ((Prof.src e.profile = 0 ∨ Prof.src e.profile = 1 ∨ Prof.src e.profile = 3 ∨ Prof.src e.profile = 4)) ∧ sbase % 65536 = 0 ∧
    1 ≤ layers ∧ layers ≤ 1024 ∧ 1 ≤ hkv ∧ hkv ≤ 64 ∧ 1 ≤ g ∧ g ≤ 16 ∧ ((d = 64 ∨ d = 128 ∨ d = 256)) ∧ maxpos % 2048 = 0 ∧
    2048 ≤ maxpos ∧ maxpos ≤ 1048576 ∧ 2 * hkv * d * (srcBits (Prof.src e.profile) / 8) % 512 = 0 ∧
    sbase + layers * maxpos * (2 * hkv * d * (srcBits (Prof.src e.profile) / 8)) ≤ e.base + e.len) ∧
    lowestFree ((s.gate.seqs.filter fun q => q.ld = h.src).map KvSeq.id) 16384 = some id) ∧
  (∃ (h : MbHdr) (seq : Nat) (q : KvSeq) (s : State), s.takes h { opcode := 0xC064, ld := true, fm := .no, len := [10], store := true } ∧
    s.seqOf h.src seq = some q ∧ s.seqOps h.src seq = [] ∧ q.bin = none) ∧
  (∃ (h : MbHdr) (seq : Nat) (q : KvSeq) (s : State), s.takes h { opcode := 0xC065, ld := true, fm := .no, len := [10], store := true } ∧
    s.seqOf h.src seq = some q) :=
  ⟨⟨⟨0, 0, 0, 24⟩, 268435456, 1, 10, _, on, ⟨by decide, by decide⟩, rfl, by decide, by decide +kernel, by decide +kernel⟩,
   ⟨⟨0, 0, 0, 25⟩, 268435456, 1, false, [0], armed .idle, ⟨by decide, by decide⟩, by decide⟩,
   ⟨⟨0, 0, 0, 16⟩, 268435456, _, armed .idle, ⟨by decide, by decide⟩, rfl, by decide⟩,
   ⟨⟨0, 0, 0, 28⟩, 536870912, 1, 2, 1, 64, 2048, _, _, on, ⟨by decide, by decide⟩, rfl, by decide, rfl⟩,
   ⟨⟨0, 0, 0, 10⟩, 0, _, armedWith [], ⟨by decide, by decide⟩, rfl, by decide +kernel, by decide⟩,
   ⟨⟨0, 0, 0, 10⟩, 0, _, armedWith [], ⟨by decide, by decide⟩, rfl⟩⟩

theorem wit_GateCommandsComplete_part2 :
  (∃ (h : MbHdr) (vbase : Nat) (abase : Nat) (nv : Nat) (entry : Nat) (dim : Nat) (vfmt : Nat) (deg : Nat) (metric : Nat) (id : Nat) (x : VecIndex) (s : State),
    x = { ld := h.src, id := id, vbase := vbase, abase := abase, nv := nv, entry := entry, dim := dim, vfmt := vfmt, deg := deg, metric := metric } ∧
    s.takes h { opcode := 0xC066, ld := true, fm := .no, len := [37] } ∧ (1 ≤ vfmt ∧ vfmt ≤ 5 ∧ 32 ≤ dim ∧ dim ≤ 4096 ∧
    x.vecBytes % 64 = 0 ∧ 1 ≤ nv ∧ nv ≤ 2 ^ 32 - 2 ∧ ((deg = 16 ∨ deg = 32 ∨ deg = 48 ∨ deg = 64)) ∧ entry < nv ∧ metric ≤ 1 ∧
    s.rangesCode h.src vbase (nv * x.vecBytes) s.ext.exts.length = 0 ∧ s.rangesCode h.src abase (nv * deg * 4) s.ext.exts.length = 0) ∧
    lowestFree ((s.gate.indexes.filter fun x => x.ld = h.src).map VecIndex.id) 64 = some id ∧ id < 64) ∧
  (∃ (h : MbHdr) (index : Nat) (x : VecIndex) (s : State), s.takes h { opcode := 0xC067, ld := true, fm := .no, len := [9] } ∧
    s.indexOf h.src index = some x ∧ ((∀ b ∈ ldBufs h.src, (s.slot b).state.busy = false))) :=
  ⟨⟨⟨0, 0, 0, 37⟩, 0, 65536, 16, 0, 32, 1, 16, 0, _, _, on, rfl, ⟨by decide, by decide⟩, by decide, rfl, by decide⟩,
   ⟨⟨0, 0, 0, 9⟩, 0, _, armedWith [], ⟨by decide, by decide⟩, rfl, by decide +kernel⟩⟩

theorem wit_GranaryCommandsComplete :
  (∃ (h : MbHdr) (base : Nat) (e : Extent) (s : State), s.takes h { opcode := 0xC070, ld := true, fm := .no, len := [16] } ∧
    s.extAt h.src base = some e ∧ e.base = base ∧ e.isAlias = false ∧ e.state = .active ∧ Prof.lossy e.profile = true ∧
    s.gate.granary.contains e.eid = false ∧ s.gate.granary.length < 8) ∧
  (∃ (h : MbHdr) (base : Nat) (e : Extent) (s : State), s.takes h { opcode := 0xC071, ld := true, fm := .no, bg := true, len := [16] } ∧
    s.granaryAt h.src base = some e ∧ ((∀ b ∈ s.gate.bins, b.eid = e.eid → b.attach = 0))) ∧
  (∃ (h : MbHdr) (key : Bytes) (sig : Nat) (b : Bin) (s : State), s.takes h { opcode := 0xC072, ld := true, fm := .no, len := [48] } ∧
    s.lookup h.src (fit 32 key) sig = some b) ∧
  (∃ (h : MbHdr) (key : Bytes) (sig : Nat) (attr : Nat) (b : Bin) (s : State),
    s.takes h { opcode := 0xC073, ld := true, fm := .no, len := [49] } ∧ s.lookup h.src (fit 32 key) sig = some b ∧ attr < 8 ∧
    attr / 2 ≠ 3) ∧
  (∃ (h : MbHdr) (o : OutReq) (s : State), s.takes h { opcode := 0xC074, ld := true, fm := .no, len := [16] } ∧ o.first = 0) ∧
  (∃ (h : MbHdr) (s : State), s.takes h { opcode := 0xC075, ld := true, fm := .module } ∧ 16 ≤ h.src) :=
  ⟨⟨⟨0, 0, 0, 16⟩, 536870912, _, on, ⟨by decide, by decide⟩, rfl, by decide⟩,
   ⟨⟨0, 0, 0, 16⟩, 536870912, _, on.modGate fun g => { g with granary := [2] }, ⟨by decide, by decide⟩, rfl, by decide⟩,
   ⟨⟨0, 0, 0, 48⟩, List.replicate 32 0, 0, _, on.modGate fun g => { g with bins := [aBin] }, ⟨by decide, by decide⟩, rfl⟩,
   ⟨⟨0, 0, 0, 49⟩, List.replicate 32 0, 0, 5, _, on.modGate fun g => { g with bins := [aBin] }, ⟨by decide, by decide⟩, rfl, by decide⟩,
   ⟨⟨0, 0, 0, 16⟩, ⟨0, 0⟩, on, ⟨by decide, by decide⟩, by decide⟩,
   ⟨⟨16, 255, 0, 8⟩, on, ⟨by decide, by decide⟩, by decide⟩⟩

theorem wit_PiecesComplete_part1 :
  (∃ (t : Nat) (stone : Nat) (p : Piece) (s : State), (s.up = true ∧ stone < 192 ∧ (s.stoneAt stone).state = .online ∧
    (s.stoneAt stone).running = none ∧ (s.at_ t).dieStopped (stoneDie stone) = false) ∧
    (s.at_ t).nextPiece (s.stoneAt stone).queue = some p ∧ (s.stoneAt stone).clean = false ∧
    (s.stoneAt stone).party ≠ some ((s.at_ t).party p.ld)) ∧
  (∃ (t : Nat) (stone : Nat) (p : Piece) (s : State) (load : Nat) (u : State), (s.up = true ∧ stone < 192 ∧
    (s.stoneAt stone).state = .online ∧ (s.stoneAt stone).running = none ∧ (s.at_ t).dieStopped (stoneDie stone) = false) ∧
    (s.at_ t).nextPiece (s.stoneAt stone).queue = some p ∧
    ((((s.stoneAt stone).clean = true ∨ (s.stoneAt stone).party = some ((s.at_ t).party p.ld))) ∧ (s.at_ t).mayStart stone p = true) ∧
    load = (if (s.stoneAt stone).loaded = some p.handle then 0 else hdrCode ((s.at_ t).hdr p.handle) / 64) ∧
    u = (s.at_ t).takePiece stone p load) ∧
  (∃ (t : Nat) (stone : Nat) (p : Piece) (o : GateOp) (s : State) (out : PieceOut), s.up = true ∧ (s.stoneAt stone).running = some p ∧
    (s.slot p.buf).op = some o ∧ (s.at_ t).evalPiece p.ld o p.idx (s.stoneAt stone).inputs = out) ∧
  (∃ (t : Nat) (stone : Nat) (tag : Nat) (dpa : Nat) (count : Nat) (p : Piece) (s : State) (u : State), s.up = true ∧
    (s.stoneAt stone).running = some p ∧ (tag < 512 ∧ 0 < count ∧ count ≤ 16 ∧ s.tagOf stone tag = none ∧
    (s.stoneAt stone).slotsUsed + count ≤ 4096 ∧ (s.at_ t).crosses p (dpa / 64 * 64) count = false) ∧
    u = (match (s.at_ t).settleLeaving.pieceWheel p (dpa / 64 * 64) with | some w => (s.at_ t).settleLeaving.noteRead w (dpa / 64 * 64 / 65536) (some (stoneDie stone)) | none => (s.at_ t).settleLeaving)) ∧
  (∃ (t : Nat) (stone : Nat) (tag : Nat) (dpa : Nat) (count : Nat) (p : Piece) (s : State) (v : State) (u : State), s.up = true ∧
    (s.stoneAt stone).running = some p ∧ (tag < 512 ∧ 0 < count ∧ count ≤ 16 ∧ s.tagOf stone tag = none ∧
    (s.stoneAt stone).slotsUsed + count ≤ 4096 ∧ (s.at_ t).crosses p (dpa / 64 * 64) count = true) ∧
    v = (List.range count).foldl (fun s i => s.crossLine p (dpa / 64 * 64 + 64 * i)) (s.at_ t).settleLeaving ∧
    u = (match v.pieceWheel p (dpa / 64 * 64) with | some w => v.noteRead w (dpa / 64 * 64 / 65536) (some (stoneDie stone)) | none => v)) ∧
  (∃ (t : Nat) (stone : Nat) (tag : Nat) (line : Nat) (p : Piece) (r : ReadTag) (e : Extent) (s : State) (u : State), s.up = true ∧
    (s.stoneAt stone).running = some p ∧ s.tagOf stone tag = some r ∧ (line < r.count ∧ ((∀ x ∈ r.lines, x.line ≠ line))) ∧
    (s.at_ t).settleLeaving = u ∧ u.pieceAccess p (r.dpa + 64 * line) = .served e) :=
  ⟨⟨0, 0, _, withStone on { queue := [aPiece] }, by decide, rfl, by decide⟩,
   ⟨0, 0, _, withStone (withDressing false) { queue := [{ aPiece with cls := 0 }], clean := true }, _, _, by decide, rfl, by decide, rfl,
     rfl⟩,
   ⟨0, 0, _, _, withStone (slotOp .running (anOp 0x0100 0)) { running := some aPiece }, _, by decide, rfl, rfl, rfl⟩,
   ⟨0, 0, 0, 0, 1, _, withStone on { running := some aPiece }, _, by decide, rfl, by decide, rfl⟩,
   ⟨0, 0, 0, 2147483648, 1, _, withStone on { running := some aPiece }, _, _, by decide, rfl, by decide, rfl, rfl⟩,
   ⟨0, 0, 0, 0, _, _, _,
     (withStone on { running := some aPiece, tags := [{ tag := 0, dpa := 0, count := 1, lines := [] }] }).modStore fun st => { st with t0 := [{ sack := 0, die := 0, wheel := 0, since := 0 }] },
     _, by decide, rfl, rfl, by decide, rfl, rfl⟩⟩

theorem wit_PiecesComplete_part2 :
  (∃ (stone : Nat) (tag : Nat) (p : Piece) (r : ReadTag) (s : State), s.up = true ∧ (s.stoneAt stone).running = some p ∧
    s.tagOf stone tag = some r ∧ r.lines.length = r.count) ∧
  (∃ (stone : Nat) (tag : Nat) (p : Piece) (r : ReadTag) (s : State), s.up = true ∧ (s.stoneAt stone).running = some p ∧
    s.tagOf stone tag = some r ∧ r.lines.length ≠ r.count ∧ (s.stoneAt stone).taking = none) ∧
  (∃ (t : Nat) (stone : Nat) (p : Piece) (s : State), s.up = true ∧ (s.stoneAt stone).running = some p ∧
    2 * hdrCkptUs ((s.at_ t).hdr p.handle) * 3600 ≤ (s.at_ t).issued (s.stoneAt stone)) ∧
  (∃ (t : Nat) (stone : Nat) (p : Piece) (s : State), s.up = true ∧ (s.stoneAt stone).running = some p ∧
    2 ^ 47 ≤ (s.at_ t).productBound (s.stoneAt stone)) ∧
  (∃ (stone : Nat) (p : Piece) (s : State), s.up = true ∧ (s.stoneAt stone).running = some p) ∧
  (∃ (t : Nat) (stone : Nat) (p : Piece) (s : State) (u : State), s.up = true ∧ (s.stoneAt stone).running = some p ∧
    ((s.stoneAt stone).preempt = true ∧ (s.stoneAt stone).slices = []) ∧
    u = ((((s.at_ t).modStnLd p.ld fun l => { l with preempt := bump 32 l.preempt 1 }).chargeRun stone p).stoneIdle stone)) :=
  ⟨⟨0, 0, _, _,
     withStone on { running := some aPiece, tags := [{ tag := 0, dpa := 0, count := 1, lines := [{ line := 0, status := 0 }] }] },
     by decide, rfl, rfl, by decide⟩,
   ⟨0, 0, _, _, withStone on { running := some aPiece, tags := [{ tag := 0, dpa := 0, count := 1, lines := [] }] }, by decide, rfl, rfl,
     by decide⟩,
   ⟨0, 0, _, withStone on { running := some aPiece }, by decide, rfl, by decide⟩,
   ⟨0, 0, _, withStone on { running := some aPiece }, by decide, rfl, by decide⟩,
   ⟨0, _, withStone on { running := some aPiece }, by decide, rfl⟩,
   ⟨0, 0, _, withStone on { running := some aPiece, preempt := true }, _, by decide, rfl, by decide, rfl⟩⟩

theorem wit_StonesComplete_part1 :
  (∃ (t : Nat) (stone : Nat) (s : State) (u : State), ((s.stoneAt stone).state = .clearing ∧
    4160 ≤ (s.at_ t).cycSince (s.stoneAt stone).clearAt ∧ (s.stoneAt stone).slices = []) ∧
    u = (s.at_ t).modStone stone (fun x => { x.zeroed with state := (s.stoneAt stone).afterClear, cleared := (s.at_ t).cyc, toOffline := x.toOffline && (s.stoneAt stone).afterClear == .test })) ∧
  (∃ (stone : Nat) (s : State), s.up = true ∧ stone < 192) ∧
  (∃ (t : Nat) (handle : Nat) (d : Dressing) (s : State), (s.at_ t).dressing handle = some d ∧ d.stopped = true ∧
    (s.at_ t).piecesOf handle = 0) ∧
  (∃ (h : MbHdr) (p : Part) (img : Bytes) (s : State) (v : State),
    s.takes h { opcode := 0xC050, ld := true, fm := .no, bg := p.final, len := [], lenFrom := some 32 } ∧ h.len = 32 + p.data.length ∧
    s.takePart h.src 0xC050 p = .whole v img ∧ img.length = p.total) ∧
  (∃ (h : MbHdr) (handle : Nat) (d : Dressing) (lib : List (Nat × Dressing)) (s : State),
    s.takes h { opcode := 0xC051, ld := true, fm := .no, len := [10] } ∧ s.dressing handle = some d ∧ d.party = s.party h.src ∧
    lib = (if s.piecesOf handle = 0 then s.stone.lib.filter fun x => x.1 ≠ handle else s.stone.lib.map fun x => if x.1 = handle then (x.1,
    { x.2 with stopped := true }) else x)) ∧
  (∃ (h : MbHdr) (handle : Nat) (d : Dressing) (s : State), s.takes h { opcode := 0xC052, ld := true, fm := .either, len := [10] } ∧
    s.dressing handle = some d ∧ d.party = s.party h.src) :=
  ⟨⟨0, 0, withStone on { state := .clearing }, _, by decide, rfl⟩,
   ⟨0, on, by decide⟩,
   ⟨0, 40, _, withDressing true, rfl, by decide, by decide +kernel⟩,
   ⟨⟨0, 0, 0, 40⟩, whole 8, _, on, _, ⟨by decide, by decide⟩, by decide, rfl, by decide⟩,
   ⟨⟨0, 0, 0, 10⟩, 40, _, _, withDressing false, ⟨by decide, by decide⟩, rfl, by decide, rfl⟩,
   ⟨⟨0, 0, 0, 10⟩, 40, _, withDressing false, ⟨by decide, by decide⟩, rfl, by decide⟩⟩

theorem wit_StonesComplete_part2 :
  (∃ (h : MbHdr) (exponent : Nat) (modulus : Bytes) (s : State) (k : DressKey),
    s.takes h { opcode := 0xC053, ld := true, fm := .no, len := [400] } ∧ (exponent % 2 = 1 ∧ 65537 ≤ exponent) ∧ modulus.length = 384 ∧
    ((∀ k ∈ s.stone.keys, k.party ≠ s.party h.src)) ∧ k = { party := s.party h.src, keyId := fit 32 (Config.keyId exponent modulus) }) ∧
  (∃ (h : MbHdr) (keyid : Bytes) (k : DressKey) (s : State), s.takes h { opcode := 0xC054, ld := true, fm := .no, len := [40] } ∧
    k = { party := s.party h.src, keyId := fit 32 keyid } ∧ s.stone.keys.contains k = true) ∧
  (∃ (h : MbHdr) (s : State), s.takes h { opcode := 0xC055, ld := true, fm := .module }) ∧
  (∃ (h : MbHdr) (stone : Nat) (s : State), s.takes h { opcode := 0xC056, ld := false, fm := .module, bg := true, len := [9] } ∧
    stone < 192 ∧ (s.stoneAt stone).broken = false) ∧
  (∃ (h : MbHdr) (stone : Nat) (s : State), s.takes h { opcode := 0xC057, ld := false, fm := .module, len := [9] } ∧ stone < 192 ∧
    (s.stoneAt stone).state = .offline) :=
  ⟨⟨⟨0, 0, 0, 400⟩, 65537, List.replicate 384 0, on, _, ⟨by decide, by decide⟩, by decide, by decide +kernel, by decide, rfl⟩,
   ⟨⟨0, 0, 0, 40⟩, [], _, { on with stone := { keys := [{ party := 0, keyId := fit 32 [] }] } }, ⟨by decide, by decide⟩, rfl, by decide⟩,
   ⟨⟨0, 0, 0, 8⟩, on, ⟨by decide, by decide⟩⟩,
   ⟨⟨16, 255, 0, 9⟩, 0, on, ⟨by decide, by decide⟩, by decide⟩,
   ⟨⟨16, 255, 0, 9⟩, 0, withStone on { state := .offline }, ⟨by decide, by decide⟩, by decide⟩⟩

theorem wit_ChecksComplete :
  (∃ (t : Nat) (utype : Nat) (unit : Nat) (s : State), s.up = true ∧ ((s.at_ t).unitRec utype unit).state = .suspect ∧
    max ((s.at_ t).unitRec utype unit).since (((s.at_ t).unitRec utype unit).obs.headD 0) + day ≤ (s.at_ t).now) ∧
  (∃ (ld : Nat) (buf : Nat) (o : GateOp) (s : State), (s.up = true ∧ buf < 128) ∧ (s.slot (128 * ld + buf)).op = some o ∧
    (s.slot (128 * ld + buf)).state = .checking ∧ ((∀ p ∈ o.pieces, p.stage = .ended)) ∧ o.errorOf.1 ≠ 0) ∧
  (∃ (t : Nat) (ld : Nat) (buf : Nat) (failed : List Nat) (o : GateOp) (s : State) (bad : PieceRec → Bool) (u : State) (v : State),
    (s.up = true ∧ buf < 128) ∧ (s.slot (128 * ld + buf)).op = some o ∧ ((s.slot (128 * ld + buf)).state = .checking ∧ ((∀ p ∈ o.pieces,
    p.stage = .ended)) ∧ o.errorOf.1 = 0) ∧
    bad = (fun p => (s.at_ t).checked o && (failed.contains p.idx || !(s.at_ t).figuresOk ld o p)) ∧
    u = (o.pieces.filter bad).foldl (fun s p => s.checkFail (128 * ld + buf) o p) (s.at_ t) ∧
    v = { u with freeCtr := u.freeCtr + o.pieces.length }) ∧
  (∃ (ld : Nat) (buf : Nat) (piece : Nat) (o : GateOp) (p : PieceRec) (s : State), (s.up = true ∧ buf < 128) ∧
    (s.slot (128 * ld + buf)).op = some o ∧ (o.pieces.find? fun p => p.idx = piece) = some p ∧ p.stage = .replaying ∧
    p.stones.length = 2) ∧
  (∃ (ld : Nat) (buf : Nat) (piece : Nat) (o : GateOp) (p : PieceRec) (s : State), (s.up = true ∧ buf < 128) ∧
    (s.slot (128 * ld + buf)).op = some o ∧ (o.pieces.find? fun p => p.idx = piece) = some p ∧ p.stage = .third ∧ p.stones.length = 3) :=
  ⟨⟨0, 1, 0, on.setUnit 1 0 fun r => { r with state := .suspect }, by decide⟩,
   ⟨0, 0, _, slotOp .checking { anOp 0x0200 1 with pieces := [{ idx := 0, stage := .ended, out := { poison := true } }] }, by decide, rfl,
     by decide⟩,
   ⟨0, 0, 0, [], _, slotOp .checking { anOp 0x0200 1 with pieces := [{ idx := 0, stage := .ended }] }, _, _, _, by decide, rfl, by decide,
     rfl, rfl, rfl⟩,
   ⟨0, 0, 0, _, _, slotOp .checking { anOp 0x0200 1 with pieces := [{ idx := 0, stage := .replaying, stones := [0, 48] }] }, by decide,
     rfl, rfl, by decide⟩,
   ⟨0, 0, 0, _, _, slotOp .checking { anOp 0x0200 1 with pieces := [{ idx := 0, stage := .third, stones := [0, 48, 96] }] }, by decide,
     rfl, rfl, by decide⟩⟩

theorem wit_WeirsComplete_part1 :
  (∃ (s : State), s.up = true) ∧
  (∃ (resource : Nat) (s : State), s.up = true ∧ resource < 8) ∧
  (∃ (t : Nat) (resource : Nat) (c : Nat) (since : Nat) (s : State) (u : State), (s.up = true ∧ resource < 8) ∧
    s.weir.rise.get resource = some (c, since) ∧ since + 10 * ms ≤ (s.at_ t).now ∧
    u = (s.at_ t).modWeir (fun w => { w with cscale := w.cscale.set resource (some (min c ((s.at_ t).capacity resource))), rise := w.rise.set resource none })) ∧
  (∃ (t : Nat) (s : State), s.up = true ∧ ((s.weir.mode = 0 ∧ s.weir.windowStart + s.weir.span * ms ≤ (s.at_ t).now ∨ s.weir.mode ≠ 0 ∧
    (s.wheel s.weir.wheel).state = .closed ∧ s.weir.windowStart + 1000 * ms ≤ (s.at_ t).now))) ∧
  (∃ (h : MbHdr) (cls : Nat) (share : Nat) (cache : Nat) (queue : Nat) (s : State),
    s.takes h { opcode := 0xC080, ld := false, fm := .module, len := [12] } ∧ cls < 8 ∧ s.shareSum cls share WClass.share ≤ 256 ∧
    s.shareSum cls cache WClass.cache ≤ 256 ∧ s.shareSum cls queue WClass.queue ≤ 256 ∧ ((cls = 7 → share ≠ 0))) ∧
  (∃ (h : MbHdr) (resource : Nat) (cls : Nat) (rate : Nat) (latbound : Nat) (s : State) (old : Guar),
    s.takes h { opcode := 0xC081, ld := false, fm := .ld, len := [16] } ∧ (resource < 8 ∧ cls < 7 ∧ rate ≠ 0 ∧ latbound ≠ 0 ∧
    latbound ≤ 4095 ∧ ((4 ≤ resource → ldPort h.target = resource - 4))) ∧ old = s.guar h.target resource ∧
    (((if old.valid then old.resv else 0) < rate → s.short resource = false ∧
    s.resvTotal resource - (if old.valid then old.resv else 0) + rate ≤ roomOf (s.capacity resource)))) :=
  ⟨⟨on, by decide⟩,
   ⟨0, on, by decide⟩,
   ⟨0, 0, 5, 0, on.modWeir fun w => { w with rise := { dflt := none, cells := [(0, some (5, 0))] } }, _, by decide, rfl, by decide, rfl⟩,
   ⟨0, on, by decide⟩,
   ⟨⟨16, 255, 0, 12⟩, 0, 32, 32, 32, on, ⟨by decide, by decide⟩, by decide⟩,
   ⟨⟨16, 0, 0, 16⟩, 0, 0, 1, 4095, on, _, ⟨by decide, by decide⟩, by decide, rfl, by decide +kernel⟩⟩

theorem wit_WeirsComplete_part2 :
  (∃ (h : MbHdr) (resource : Nat) (s : State), s.takes h { opcode := 0xC082, ld := false, fm := .ld, len := [10] } ∧ resource < 8 ∧
    (s.guar h.target resource).valid = true) ∧
  (∃ (h : MbHdr) (s : State), s.takes h { opcode := 0xC083, ld := true, fm := .module } ∧ h.src < 16) ∧
  (∃ (h : MbHdr) (s : State), s.takes h { opcode := 0xC083, ld := true, fm := .module } ∧ 16 ≤ h.src) ∧
  (∃ (h : MbHdr) (mode : Nat) (wheel : Nat) (span : Nat) (s : State),
    s.takes h { opcode := 0xC084, ld := false, fm := .module, len := [16] } ∧ mode ≤ 1 ∧ span ≠ 0 ∧ span ≤ 10000 ∧
    ((mode = 1 → wheel < 256 ∧ (s.wheel wheel).state ≠ .closed))) ∧
  (∃ (h : MbHdr) (cls : Nat) (resource : Nat) (l : LatMax) (s : State),
    s.takes h { opcode := 0xC085, ld := false, fm := .module, len := [10] } ∧ (cls < 8 ∧ resource < 8) ∧
    l = s.weir.latLast.get (8 * cls + resource)) :=
  ⟨⟨⟨16, 0, 0, 10⟩, 0, on.setGuar 0 0 { valid := true }, ⟨by decide, by decide⟩, by decide⟩,
   ⟨⟨0, 0, 0, 8⟩, on, ⟨by decide, by decide⟩, by decide⟩,
   ⟨⟨16, 255, 0, 8⟩, on, ⟨by decide, by decide⟩, by decide⟩,
   ⟨⟨16, 255, 0, 16⟩, 0, 0, 10000, on, ⟨by decide, by decide⟩, by decide⟩,
   ⟨⟨16, 255, 0, 10⟩, 0, 0, _, on, ⟨by decide, by decide⟩, by decide, rfl⟩⟩

theorem wit_ExtentsComplete :
  (∃ (h : MbHdr) (host : Nat) (policy : Nat) (exts : List DcAdd) (s : State) (u : State) (v : State),
    s.takes h { opcode := 0x5604, ld := false, fm := .module, vendor := false } ∧ (h.len = 32 + 40 * exts.length ∧
    ((policy = 2 ∨ policy = 3))) ∧ s.admitAll host (policy == 3) (s.ext.nextGroup.get host) exts = .ok u ∧
    v = { u with ext := { u.ext with nextGroup := u.ext.nextGroup.set host (s.ext.nextGroup.get host + 1) } }) ∧
  (∃ (h : MbHdr) (exts : List DcRange) (g : Nat) (s : State) (mine : List Extent) (step : Extent → Option Extent),
    s.takes h { opcode := 0x4802, ld := true, fm := .no, vendor := false } ∧ (exts.length ≤ 64 ∧ h.len = 8 + 24 * exts.length) ∧
    s.oldestGroup h.src = some g ∧ mine = s.ext.exts.filter (fun e => e.ld = h.src ∧ e.group = g ∧ e.state = .pending) ∧ ((∀ r ∈ exts,
    ∃ e ∈ mine, e.isRange r = true)) ∧ ((∀ e, step e = (if e.ld = h.src ∧ e.group = g ∧
    e.state = .pending then (if exts.any e.isRange then some { e with state := .active } else none) else some e)))) ∧
  (∃ (h : MbHdr) (host : Nat) (forced : Bool) (exts : List DcRange) (es : List Extent) (s : State) (u : State),
    s.takes h { opcode := 0x5605, ld := false, fm := .module, vendor := false } ∧ (host < 16 ∧ h.len = 32 + 40 * exts.length) ∧
    s.settleLeaving = u ∧ exts.map (u.namedExt host) = es.map some ∧ ((∀ e ∈ es, mayLeave forced e = true))) ∧
  (∃ (h : MbHdr) (exts : List DcRange) (es : List Extent) (s : State) (u : State) (leave : State → Extent → State),
    s.takes h { opcode := 0x4803, ld := true, fm := .no, vendor := false } ∧ (exts.length ≤ 64 ∧ h.len = 8 + 24 * exts.length) ∧
    s.settleLeaving = u ∧ (exts.map (u.namedExt h.src) = es.map some ∧ ((∀ e ∈ es, e.state = .active ∨ e.state = .withdrawing))) ∧
    ((∀ (v : State) (e : Extent),
    leave v e = (if e.state = .active then ((v.modExt e.eid fun x => { x with state := .releasing, leftOp := v.gate.nextOp }).cancelPrefetch e).withdrawAliases e else v)))) ∧
  (∃ (t : Nat) (eid : Nat) (e : Extent) (s : State), s.up = true ∧ (s.at_ t).extById eid = some e ∧
    ((e.state = .discarding ∨ (e.state = .releasing ∨ e.state = .withdrawing) ∧ (s.at_ t).quiet e = true))) ∧
  (∃ (t : Nat) (ld : Nat) (blk : Nat) (line : Nat) (x : Snp) (s : State) (u : State), s.cxe.snps.find? (fun x => x.ld = ld ∧ x.blk = blk ∧
    x.line = line) = some x ∧ x.start + 4 * ms ≤ (s.at_ t).now ∧
    u = (((s.at_ t).modCxeLd ld fun l => { l with biTimeout := bump 16 l.biTimeout 1 }).holderLost ld [(blk, line)]).snoopDone x) :=
  ⟨⟨⟨16, 0, 0, 72⟩, 0, 2, [{ region := 0, base := 805306368, len := 268435456, tag := 0, shared := false, srcLd := 0, srcBase := 0 }],
     { on with ext := { on.ext with profiles := { dflt := none, cells := [(0, some 0)] } } }, _, _, ⟨by decide, by decide⟩, by decide,
     rfl, rfl⟩,
   ⟨⟨0, 0, 0, 32⟩, [{ base := 0, len := 268435456 }], _, extsIn .pending, _, _, ⟨by decide, by decide⟩, by decide, rfl, rfl, by decide,
     by intros; rfl⟩,
   ⟨⟨16, 0, 0, 72⟩, 0, false, [{ base := 0, len := 268435456 }], on.ext.exts.take 1, on, _, ⟨by decide, by decide⟩, by decide, rfl,
     by decide⟩,
   ⟨⟨0, 0, 0, 32⟩, [{ base := 0, len := 268435456 }], on.ext.exts.take 1, on, _, _, ⟨by decide, by decide⟩, by decide, rfl, by decide,
     by intros; rfl⟩,
   ⟨0, 0, _, extsIn .discarding, by decide, rfl, by decide⟩,
   ⟨0, 0, 0, 0, _, on.modCxe fun c => { c with snps := [{ ld := 0, blk := 0, line := 0, kind := 0, start := 0 }] }, _, rfl, by decide,
     rfl⟩⟩

theorem wit_WheelsComplete_part1 :
  (∃ (ld : Nat) (wheel : Nat) (s : State), s.up = true ∧ ld < 16 ∧ wheel < 16 ∧ (s.cxe.lds.get ld).d3 = false) ∧
  (∃ (t : Nat) (ld : Nat) (wheel : Nat) (x : Wheel) (s : State) (u : State), u = s.at_ t ∧ (u.up = true ∧ wheel < 16) ∧
    x = u.wheel (16 * ld + wheel) ∧ ((x.state = .running ∨ x.state = .survey)) ∧ x.lastAdvance + x.idleMs * ms ≤ u.now) ∧
  (∃ (t : Nat) (ld : Nat) (wheel : Nat) (x : Wheel) (s : State) (u : State), u = s.at_ t ∧ (u.up = true ∧ wheel < 16) ∧
    x = u.wheel (16 * ld + wheel) ∧ x.state ≠ .closed ∧ x.state ≠ .resting ∧ x.lastAdvance + x.restS * sec ≤ u.now) ∧
  (∃ (h : MbHdr) (n : Nat) (dlead : Nat) (pclass : Nat) (cclass : Nat) (flags : Nat) (sig : Nat) (idle : Nat) (rest : Nat) (idle' : Nat) (rest' : Nat) (i : Nat) (load : Nat) (watch : List (Nat × Nat)) (used : List (Nat × Nat)) (others : List (Nat × Nat)) (es : Option (List SEntry)) (s : State) (x : Wheel) (old : Wheel),
    s.takes h { opcode := 0xC030, ld := true, fm := .no, len := [96] } ∧ (n ≠ 0 ∧ n ≤ 1024 ∧ dlead ≠ 0 ∧ dlead ≤ 16 ∧ pclass < 8 ∧
    cclass < 8 ∧ flags < 16) ∧ idle' = (if idle = 0 then 100 else idle) ∧ rest' = (if rest = 0 then 10 else rest) ∧
    timersOk idle' rest' = true ∧ used = watch.filter (fun r => r.2 ≠ 0) ∧
    others = (List.range 16).flatMap (fun i => if (s.wheel (16 * h.src + i)).state = .closed then [] else (s.wheel (16 * h.src + i)).watch) ∧
    ((∀ r ∈ used, r.1 + r.2 ≤ (s.ext.parts.get h.src).dpaSize ∧ ∀ q ∈ others, rangesMeet r q = false)) ∧ s.freeWheel h.src = some i ∧
    s.autoload h.src sig n (bitOf flags 3) = (load, es) ∧ old = s.wheel (16 * h.src + i) ∧
    x.state = (if es.isSome then .running else .survey) ∧
    x.sched = ((es.getD []).map fun e => { e with strm := s.newStream h.src pclass }) ∧ x.wasSurvey = es.isNone ∧
    x = { state := x.state, n := n, sig := sig, dlead := dlead, pclass := pclass, cclass := cclass, notune := bitOf flags 0, nolearn := bitOf flags 1, spec := bitOf flags 2, autoload := bitOf flags 3, idleMs := idle', restS := rest', watch := used, late := old.late, rephase := old.rephase, backstep := old.backstep, badpos := old.badpos, skip := old.skip, sched := x.sched, wasSurvey := x.wasSurvey, lastAdvance := s.now, slotStart := s.now }) ∧
  (∃ (h : MbHdr) (index : Nat) (w : Nat) (s : State), s.takes h { opcode := 0xC031, ld := true, fm := .ld, len := [9] } ∧
    s.openIdx h index = .ok w) ∧
  (∃ (h : MbHdr) (p : Part) (index : Nat) (w : Nat) (img : Bytes) (es : List SEntry) (s : State) (v : State),
    s.takes h { opcode := 0xC032, ld := true, fm := .no, len := [], lenFrom := some 32 } ∧ h.len = 32 + p.data.length ∧
    s.takePart h.src 0xC032 p = .whole v img ∧ img.length = p.total ∧ v.openIdx h index = .ok w ∧
    parseSchedule img (v.wheel w).sig (v.wheel w).n (v.ext.parts.get h.src).dpaSize = some es ∧ es.length ≤ 65536 ∧
    v.schedTotal - (match (v.wheel w).staged with | some l => l.length | none => 0) + es.length ≤ 262144) :=
  ⟨⟨0, 0, on, by decide⟩,
   ⟨0, 0, 0, _, on.modWheel 0 fun x => { x with state := .running, n := 8, idleMs := 100 }, _, rfl, by decide, rfl, by decide⟩,
   ⟨0, 0, 0, _, on.modWheel 0 fun x => { x with state := .running, n := 8, restS := 10 }, _, rfl, by decide, rfl, by decide⟩,
   ⟨⟨0, 0, 0, 96⟩, 1024, 16, 0, 0, 15, 0, 0, 0, _, _, _, _, [(7, 1)], _, _, _, on,
     { state := .survey, n := 1024, sig := 0, dlead := 16, pclass := 0, cclass := 0, notune := true, nolearn := true, spec := true, autoload := true, idleMs := 100, restS := 10, watch := [(7, 1)], wasSurvey := true, lastAdvance := 10000000000000000, slotStart := 10000000000000000 },
     _, ⟨by decide, by decide⟩, by decide, rfl, rfl, by decide, rfl, rfl, by decide, rfl, rfl, rfl, by decide⟩,
   ⟨⟨0, 0, 0, 9⟩, 0, _, on.modWheel 0 fun x => { x with state := .running, n := 8 }, ⟨by decide, by decide⟩, rfl⟩,
   ⟨⟨0, 0, 0, 112⟩,
     { offset := 0, total := 80, final := true, data := scheduleImage 0 8 2 [{ layer := 3, lead := 1, action := 0, die := 0, anydie := false, sack := 5, count := 1 }] },
     0, _, _, _, on.modWheel 0 fun x => { x with state := .running, n := 8 }, _, ⟨by decide, by decide⟩, by decide, rfl,
     by decide +kernel, rfl, (Option.some_get (by decide +kernel)).symm, by decide +kernel, by decide +kernel⟩⟩

theorem wit_WheelsComplete_part2 :
  (∃ (h : MbHdr) (o : OutReq) (index : Nat) (w : Nat) (s : State), s.takes h { opcode := 0xC033, ld := true, fm := .no, len := [32] } ∧
    o.first = 0 ∧ s.openIdx h index = .ok w) ∧
  (∃ (h : MbHdr) (index : Nat) (w : Nat) (s : State), s.takes h { opcode := 0xC034, ld := true, fm := .no, len := [9], bg := true } ∧
    s.openIdx h index = .ok w ∧ s.storeRoom h.src (s.wheel w).sig = true) ∧
  (∃ (h : MbHdr) (sig : Nat) (s : State), s.takes h { opcode := 0xC035, ld := true, fm := .no, len := [24] } ∧ ((∃ x ∈ s.sweep.stored,
    x.ld = h.src ∧ x.sig = sig))) ∧
  (∃ (h : MbHdr) (index : Nat) (x : Wheel) (s : State), s.takes h { opcode := 0xC036, ld := true, fm := .ld, len := [9] } ∧ index < 16 ∧
    x = s.wheel (16 * whoOf h + index)) ∧
  (∃ (h : MbHdr) (index : Nat) (idle : Nat) (rest : Nat) (w : Nat) (s : State),
    s.takes h { opcode := 0xC037, ld := true, fm := .no, len := [20] } ∧ s.openIdx h index = .ok w ∧ timersOk idle rest = true) ∧
  (∃ (h : MbHdr) (index : Nat) (w : Nat) (s : State), s.takes h { opcode := 0xC038, ld := true, fm := .no, len := [9] } ∧
    s.openIdx h index = .ok w ∧ (s.wheel w).placed = true) :=
  ⟨⟨⟨0, 0, 0, 32⟩, ⟨0, 0⟩, 0, _, on.modWheel 0 fun x => { x with state := .running, n := 8 }, ⟨by decide, by decide⟩, by decide, rfl⟩,
   ⟨⟨0, 0, 0, 9⟩, 0, _, on.modWheel 0 fun x => { x with state := .running, n := 8 }, ⟨by decide, by decide⟩, rfl, by decide⟩,
   ⟨⟨0, 0, 0, 24⟩, _, { on with sweep := { stored := [{ ld := 0, sig := 0, layers := 8, sched := [] }] } }, ⟨by decide, by decide⟩, ⟨_,
     .head _, rfl, rfl⟩⟩,
   ⟨⟨0, 0, 0, 9⟩, 0, _, on, ⟨by decide, by decide⟩, by decide, rfl⟩,
   ⟨⟨0, 0, 0, 20⟩, 0, 999, 1, _, on.modWheel 0 fun x => { x with state := .running, n := 8 }, ⟨by decide, by decide⟩, rfl, by decide⟩,
   ⟨⟨0, 0, 0, 9⟩, 0, _, on.modWheel 0 fun x => { x with state := .running, n := 8, placed := true, k := 3 }, ⟨by decide, by decide⟩, rfl,
     by decide⟩⟩

theorem wit_BolterComplete_part1 :
  (∃ (t : Nat) (set : Nat) (s : State) (u : State), u = s.at_ t ∧ u.up = true ∧ (u.setAt set).state ≠ .empty) ∧
  (∃ (t : Nat) (set : Nat) (s : State) (u : State), u = s.at_ t ∧ (u.up = true ∧ (u.setAt set).state = .empty) ∧
    (u.setAt set).lastStaged + sec ≤ u.now ∧ u.stagedOf set ≠ []) ∧
  (∃ (t : Nat) (set : Nat) (b : Build) (rest : List Build) (x : TableSet) (s : State) (u : State), u = s.at_ t ∧ u.up = true ∧
    u.store.builds = b :: rest ∧ b.set = set ∧ b.running = true ∧ x = u.setAt set) ∧
  (∃ (t : Nat) (set : Nat) (s : State) (u : State), u = s.at_ t ∧ u.up = true ∧ u.anyGap = true ∧ (u.setAt set).state = .recoding) ∧
  (∃ (t : Nat) (set : Nat) (s : State) (u : State), u = s.at_ t ∧ u.up = true ∧ (u.setAt set).state = .recoding ∧
    max u.store.lastGap (u.setAt set).recodeStart + 100 * ms ≤ u.now) ∧
  (∃ (t : Nat) (set : Nat) (s : State) (u : State), u = s.at_ t ∧ (u.up = true ∧ (u.setAt set).state = .recoding) ∧
    u.recodeBlocks set = [] ∧ u.inFlight set = 0) :=
  ⟨⟨0, 0, { on with store := { sets := { dflt := {}, cells := [(0, { state := .ready, src := 1, cols := 1 })] } } }, _, rfl, by decide⟩,
   ⟨0, 0,
     { on with store := { sets := { dflt := {}, cells := [(0, { state := .empty, src := 1, cols := 1 })] }, t2 := { dflt := {}, cells := [(1048576, { side := { kind := kStaged } })] } } },
     _, rfl, by decide, by decide +kernel, by decide +kernel⟩,
   ⟨0, _, _, _, _, { on with store := { builds := [{ set := 0, ext := none, running := true, start := 0 }] } }, _, rfl, by decide, rfl,
     rfl, by decide, rfl⟩,
   ⟨0, 0, { on with store := { sets := { dflt := {}, cells := [(0, { state := .recoding, src := 1, cols := 1 })] } } }, _, rfl, by decide,
     by decide +kernel, by decide⟩,
   ⟨0, 0, { on with store := { sets := { dflt := {}, cells := [(0, { state := .recoding, src := 1, cols := 1 })] } } }, _, rfl, by decide,
     by decide +kernel, by decide⟩,
   ⟨0, 0, { on with store := { sets := { dflt := {}, cells := [(0, { state := .recoding, src := 1, cols := 1 })] } } }, _, rfl, by decide,
     by decide +kernel, by decide +kernel⟩⟩

theorem wit_BolterComplete_part2 :
  (∃ (h : MbHdr) (src : Nat) (rate : Nat) (cols : Nat) (k : Nat) (s : State),
    s.takes h { opcode := 0xC040, ld := true, fm := .no, len := [11] } ∧ (rateAllowed src rate = true ∧ cols ∈ [1, 2, 4, 8, 16, 32]) ∧
    (List.range 4096).find? (fun k => (s.setAt k).state == .free) = some k) ∧
  (∃ (h : MbHdr) (set : Nat) (s : State), s.takes h { opcode := 0xC041, ld := true, fm := .no, len := [10] } ∧ s.seesSet h set = true ∧
    s.profileNames set = false ∧ (s.setAt set).state ≠ .building ∧ (s.setAt set).state ≠ .recoding ∧ s.rebuilding set = false) ∧
  (∃ (h : MbHdr) (set : Nat) (x : TableSet) (s : State), s.takes h { opcode := 0xC042, ld := true, fm := .either, len := [10] } ∧
    ((s.seesSet h set = true ∨ h.src = fmSrc ∧ set < 4096)) ∧ x = s.setAt set) ∧
  (∃ (h : MbHdr) (set : Nat) (base : Nat) (e : Extent) (s : State),
    s.takes h { opcode := 0xC043, ld := true, fm := .no, len := [24], bg := true } ∧ (s.seesSet h set = true ∧
    (s.setAt set).state ≠ .building ∧ (s.setAt set).state ≠ .recoding ∧ s.rebuilding set = false) ∧
    (s.spanOf set).find? (fun e => e.ld = h.src ∧ e.base = base) = some e) ∧
  (∃ (h : MbHdr) (set : Nat) (x : TableSet) (s : State), s.takes h { opcode := 0xC045, ld := true, fm := .no, len := [10] } ∧
    s.seesSet h set = true ∧ x = s.setAt set ∧ x.hasGen = true) :=
  ⟨⟨⟨0, 0, 0, 11⟩, 1, 3, 32, 0, on, ⟨by decide, by decide⟩, by decide, by decide +kernel⟩,
   ⟨⟨0, 0, 0, 10⟩, 0, { on with store := { sets := { dflt := {}, cells := [(0, { state := .ready, src := 0, cols := 1 })] } } },
     ⟨by decide, by decide⟩, by decide +kernel, by decide +kernel, by decide⟩,
   ⟨⟨0, 0, 0, 10⟩, 0, _, { on with store := { sets := { dflt := {}, cells := [(0, { state := .ready, src := 1, cols := 1 })] } } },
     ⟨by decide, by decide⟩, by decide, rfl⟩,
   ⟨⟨0, 0, 0, 24⟩, 0, 536870912, _,
     { on with store := { sets := { dflt := {}, cells := [(0, { state := .ready, src := 1, cols := 1 })] } } }, ⟨by decide, by decide⟩,
     by decide, rfl⟩,
   ⟨⟨0, 0, 0, 10⟩, 0, _,
     { on with store := { sets := { dflt := {}, cells := [(0, { state := .ready, src := 1, cols := 1, gen0 := [[0, 1]] })] } } },
     ⟨by decide, by decide⟩, by decide, rfl, by decide⟩⟩

theorem wit_NearComplete_part1 :
  (∃ (t : Nat) (stack : Nat) (channel : Nat) (rank : Nat) (key : Nat) (due : Nat) (queued : Bool) (x : Stack) (s : State) (u : State),
    u = s.at_ t ∧ (u.up = true ∧ stack < 12 ∧ channel < 8 ∧ rank < 2) ∧ x = u.stackAt stack ∧ key = 2 * channel + rank ∧
    due = x.refreshAt.get key + x.interval ∧ x.state = .active ∧ due ≤ u.now ∧ queued = true ∧ x.refreshLate.get key = false) ∧
  (∃ (t : Nat) (stack : Nat) (channel : Nat) (rank : Nat) (key : Nat) (due : Nat) (queued : Bool) (x : Stack) (s : State) (u : State) (v : State),
    u = s.at_ t ∧ (u.up = true ∧ stack < 12 ∧ channel < 8 ∧ rank < 2) ∧ x = u.stackAt stack ∧ key = 2 * channel + rank ∧
    due = x.refreshAt.get key + x.interval ∧ (x.state = .active ∧ due ≤ u.now ∧ (queued = false ∨ x.refreshLate.get key = true ∧
    due + x.interval ≤ u.now)) ∧
    v = u.modNear (fun n => { n with nref := bump 64 n.nref (x.targeted.filter fun b => onRank channel rank b.1).length })) ∧
  (∃ (t : Nat) (stack : Nat) (s : State) (u : State), u = s.at_ t ∧ u.up = true ∧ stack < 12) ∧
  (∃ (t : Nat) (stack : Nat) (x : Stack) (s : State) (u : State), u = s.at_ t ∧ (u.up = true ∧ stack < 12) ∧ x = u.stackAt stack ∧
    u.near.sridle ≠ 0 ∧ u.stackIdle x = true ∧ x.lastUse + u.near.sridle * us ≤ u.now) ∧
  (∃ (h : MbHdr) (idle : Nat) (s : State), s.takes h { opcode := 0xC0E2, ld := false, fm := .module, len := [12] } ∧ idle ≠ 1 ∧
    idle ≤ 1000) ∧
  (∃ (h : MbHdr) (e : Nat) (s : State), s.takes h { opcode := 0xC091, ld := false, fm := .module, len := [9] } ∧ 6 ≤ e ∧ e ≤ 14) :=
  ⟨⟨0, 0, 0, 0, _, _, true, _, on, _, rfl, by decide, rfl, rfl, rfl, by decide⟩,
   ⟨0, 0, 0, 0, _, _, false, _, on, _, _, rfl, by decide, rfl, rfl, rfl, by decide, rfl⟩,
   ⟨0, 0, on, _, rfl, by decide⟩,
   ⟨0, 0, _, on, _, rfl, by decide, rfl, by decide⟩,
   ⟨⟨16, 255, 0, 12⟩, 1000, on, ⟨by decide, by decide⟩, by decide⟩,
   ⟨⟨16, 255, 0, 9⟩, 14, on, ⟨by decide, by decide⟩, by decide⟩⟩

theorem wit_NearComplete_part2 :
  (∃ (t : Nat) (stack : Nat) (dst : Nat) (x : Stack) (s : State) (u : State) (v : State), u = s.at_ t ∧ (u.up = true ∧ stack < 12) ∧
    x = u.stackAt stack ∧ (x.state = .changing ∧ x.changeAt ≤ u.now) ∧ dst = x.goal.getD x.point ∧
    v = (u.modNear fun n => { n with nref := bump 64 n.nref x.targeted.length }).modStack stack (fun x => { x with state := .active, point := dst, goal := none, checkAtExit := false, targeted := [], lastUse := u.now })) ∧
  (∃ (t : Nat) (stack : Nat) (dst : Nat) (x : Stack) (s : State) (u : State), u = s.at_ t ∧ (u.up = true ∧ stack < 12) ∧
    x = u.stackAt stack ∧ (x.state = .changing ∧ x.changeAt ≤ u.now) ∧ dst = x.goal.getD x.point ∧ x.retryPoint.isSome = true ∧
    dst = x.prev) ∧
  (∃ (t : Nat) (stack : Nat) (dst : Nat) (x : Stack) (s : State) (u : State), u = s.at_ t ∧ (u.up = true ∧ stack < 12) ∧
    x = u.stackAt stack ∧ (x.state = .changing ∧ x.changeAt ≤ u.now) ∧ dst = x.goal.getD x.point ∧ x.retryPoint = none) ∧
  (∃ (t : Nat) (stack : Nat) (point : Nat) (temp : Int) (x : Stack) (s : State) (u : State) (v : State), u = s.at_ t ∧ (u.up = true ∧
    stack < 12 ∧ point < 4) ∧ x = u.stackAt stack ∧ x.state ≠ .failed ∧ v = (u.setTemp .stack stack temp).noteVitals u ∧
    (point = x.point ∧ (8 ≤ (temp - x.trainTemp.get point).natAbs ∨ x.trainAt.get point + 10 * sec ≤ u.now) ∨ point ≠ x.point ∧
    (15 ≤ (temp - x.trainTemp.get point).natAbs ∨ x.stale.getLsbD point = true))) ∧
  (∃ (t : Nat) (stack : Nat) (point : Nat) (temp : Int) (x : Stack) (s : State) (u : State) (v : State), u = s.at_ t ∧ (u.up = true ∧
    stack < 12 ∧ point < 4) ∧ x = u.stackAt stack ∧ x.state ≠ .failed ∧ v = (u.setTemp .stack stack temp).noteVitals u ∧ point = x.point ∧
    (temp - x.trainTemp.get point).natAbs < 8 ∧ u.now < x.trainAt.get point + 10 * sec) ∧
  (∃ (t : Nat) (stack : Nat) (channel : Nat) (p : Nat) (x : Stack) (s : State) (u : State) (done : Tbl Nat) (v : State), u = s.at_ t ∧
    (u.up = true ∧ stack < 12 ∧ channel < 8) ∧ x = u.stackAt stack ∧ x.retrainPoint = some p ∧ u.slotHeld x channel = false ∧
    done = x.slotsDone.set channel (x.slotsDone.get channel + 1) ∧
    v = (u.beginSlot stack channel).modStack stack (fun x => { x with slotsDone := done, lastSlot := x.lastSlot.set channel u.now }) ∧
    ((∃ c < 8, done.get c < 48))) :=
  ⟨⟨0, 0, _, _, on.modStack 0 fun x => { x with state := .changing, goal := some 2 }, _, _, rfl, by decide, rfl, by decide, rfl, rfl⟩,
   ⟨0, 0, _, _, on.modStack 0 fun x => { x with state := .changing, retryPoint := some 1, goal := some 0 }, _, rfl, by decide, rfl,
     by decide, rfl, by decide, rfl⟩,
   ⟨0, 0, _, _, on.modStack 0 fun x => { x with state := .changing, goal := some 2 }, _, rfl, by decide, rfl, by decide, rfl, by decide⟩,
   ⟨0, 0, 0, 48, _, on, _, _, rfl, by decide, rfl, by decide, rfl, by decide⟩,
   ⟨0, 0, _, 47, _, on.modStack 0 fun x => { x with trainAt := { dflt := 10000000000000000 } }, _, _, rfl, by decide, rfl, by decide, rfl,
     rfl, by decide⟩,
   ⟨0, 0, 0, _, _, on.modStack 0 fun x => { x with retrainPoint := some 0 }, _, _, _, rfl, by decide, rfl, rfl, by decide, rfl, rfl,
     by decide⟩⟩

theorem wit_NearComplete_part3 :
  ∃ (t : Nat) (stack : Nat) (channel : Nat) (p : Nat) (x : Stack) (s : State) (u : State) (done : Tbl Nat) (v : State) (w : State),
    u = s.at_ t ∧ (u.up = true ∧ stack < 12 ∧ channel < 8) ∧ x = u.stackAt stack ∧ x.retrainPoint = some p ∧
    u.slotHeld x channel = false ∧ done = x.slotsDone.set channel (x.slotsDone.get channel + 1) ∧
    v = (u.beginSlot stack channel).modStack stack (fun x => { x with slotsDone := done, lastSlot := x.lastSlot.set channel u.now }) ∧
    ((∀ c < 8, 48 ≤ done.get c)) ∧
    (v.modStack stack fun x => { x with stale := x.stale &&& ~~~ BitVec.ofNat 4 (2 ^ p), trainTemp := x.trainTemp.set p (v.health.sensors.get (sensorKey .stack stack)).temp, trainAt := x.trainAt.set p v.now, sets := x.sets.set p v.freeCtr, slotsDone := { dflt := 0 }, trainFails := 0, retrainPoint := Stack.nextTrain { x with stale := x.stale &&& ~~~ BitVec.ofNat 4 (2 ^ p) } }) = w :=
  ⟨0, 0, 0, _, _, on.modStack 0 fun x => { x with retrainPoint := some 0, slotsDone := { dflt := 48, cells := [(0, 47)] } }, _, _, _, _,
     rfl, by decide, rfl, rfl, by decide, rfl, rfl, by decide, rfl⟩

theorem wit_DeepComplete_part1 :
  (∃ (t : Nat) (group : Nat) (b : Nat) (s : State) (u : State), u = s.at_ t ∧ (u.up = true ∧ group < 16) ∧
    u.leastSet group (u.setPe group) ((u.usedSets group).filter fun b => u.setValid group b != 0) = some b ∧
    u.setPe group b + 300 < ((u.deep.blocks.cells.filter fun c => c.1 / 16384 % 16 == group).map fun c => c.2.pe).foldl max 0) ∧
  (∃ (t : Nat) (slot : Nat) (l : SlotLoc) (s : State) (u : State) (v : State), u = s.at_ t ∧ u.up = true ∧ l = u.deep.slots.get slot ∧
    l.valid = true ∧
    v = (u.mapPage slot).modDeep (fun d => { d with blocks := d.blocks.upd l.key fun b => { b with reads := b.reads + 1 } }) ∧
    v.deep.dieFailed.get l.die = false) ∧
  (∃ (t : Nat) (slot : Nat) (group : Nat) (l : SlotLoc) (s : State) (u : State) (v : State), u = s.at_ t ∧ (u.up = true ∧ group < 16 ∧
    slot ∈ u.deep.programming) ∧ u.takePlace group 2 = some (l, v)) ∧
  (∃ (t : Nat) (die : Nat) (block : Nat) (margin : Bool) (b : FlashBlk) (s : State) (u : State), u = s.at_ t ∧ u.up = true ∧
    b = u.deep.blocks.get (blkKey die block) ∧ b.free = false ∧
    ((margin = true ∨ 200000 ≤ b.reads ∨ b.since + 180 * dayNs ≤ u.powered))) ∧
  (∃ (t : Nat) (die : Nat) (block : Nat) (n : Nat) (s : State) (u : State), u = s.at_ t ∧ (u.up = true ∧ die < 256 ∧ block < 16384 ∧
    ((u.anyGap = true ∨ (u.deep.blocks.get (blkKey die block)).patrolled + 15 * dayNs ≤ u.now))) ∧ n = (u.inBlock die block).length) ∧
  (∃ (t : Nat) (die : Nat) (block : Nat) (fails : List (Nat × Nat)) (s : State) (u : State) (v : State), u = s.at_ t ∧ (u.up = true ∧
    die < 256 ∧ block < 16384 ∧ u.deep.dieFailed.get die = false ∧ (u.deep.blocks.get (blkKey die block)).retired = false) ∧ fails = (die,
    u.now) :: u.deep.dieFails.filter (fun f => u.now < f.2 + dayNs) ∧
    v = u.modDeep (fun d => { d with dieFails := fails, blocks := d.blocks.upd (blkKey die block) fun b => { b with retired := true, free := false } }) ∧
    (fails.filter fun f => f.1 == die).length < 8) :=
  ⟨⟨0, 0, 1,
     on.modDeep fun d => { d with slots := { dflt := {}, cells := [(0, { block := 1, valid := true })] }, blocks := { dflt := {}, cells := [(1, { free := false }), (2, { free := false, pe := 301 })] } },
     _, rfl, by decide, by decide +kernel, by decide +kernel⟩,
   ⟨0, 0, _, on.modDeep fun d => { d with slots := { dflt := {}, cells := [(0, { valid := true })] } }, _, _, rfl, by decide, rfl,
     by decide, rfl, by decide⟩,
   ⟨0, 0, 0, _,
     on.modDeep fun d => { d with programming := [0], openSets := { dflt := none, cells := [(0, some { block := 0, pos := 0 })] } }, _, _,
     rfl, by decide, rfl⟩,
   ⟨0, 0, 0, false, _, on.modDeep fun d => { d with blocks := { dflt := {}, cells := [(0, { free := false, reads := 200000 })] } }, _,
     rfl, by decide, rfl, by decide⟩,
   ⟨0, 0, 0, _, on.modDeep fun d => { d with slots := { dflt := {}, cells := [(0, { valid := true })] } }, _, rfl, by decide, rfl⟩,
   ⟨0, 0, 0, _, on, _, _, rfl, by decide, rfl, rfl, by decide⟩⟩

theorem wit_DeepComplete_part2 :
  (∃ (t : Nat) (die : Nat) (block : Nat) (fails : List (Nat × Nat)) (s : State) (u : State) (v : State), u = s.at_ t ∧ (u.up = true ∧
    die < 256 ∧ block < 16384 ∧ u.deep.dieFailed.get die = false ∧ (u.deep.blocks.get (blkKey die block)).retired = false) ∧ fails = (die,
    u.now) :: u.deep.dieFails.filter (fun f => u.now < f.2 + dayNs) ∧
    v = u.modDeep (fun d => { d with dieFails := fails, blocks := d.blocks.upd (blkKey die block) fun b => { b with retired := true, free := false } }) ∧
    8 ≤ (fails.filter fun f => f.1 == die).length) ∧
  (∃ (t : Nat) (s : State) (u : State), u = s.at_ t ∧ u.up = true) ∧
  (∃ (t : Nat) (die : Nat) (r : Rebuild) (s : State) (u : State), u = s.at_ t ∧ u.up = true ∧
    u.deep.rebuilds.find? (fun r => r.die = die) = some r) ∧
  (∃ (t : Nat) (s : State) (u : State), u = s.at_ t ∧ u.up = true) ∧
  (∃ (t : Nat) (s : State) (u : State), u = s.at_ t ∧ u.up = true ∧ ((u.deep.bank = .charging ∨ u.deep.bank = .healthy ∧
    u.deep.lastTest + u.deep.period * hourNs ≤ u.now ∨ u.deep.bank = .weak ∧ u.deep.lastTest + 600 * sec ≤ u.now))) ∧
  (∃ (t : Nat) (energy : Nat) (s : State) (u : State) (v : State), u = s.at_ t ∧ (u.up = true ∧ u.deep.bank = .testing ∧
    u.deep.testAt + 2500 * ms ≤ u.now) ∧ v = u.modDeep (fun d => { d with energy := min energy 255, lastTest := u.now }) ∧
    (40 ≤ energy ∨ 36 ≤ energy ∧ u.deep.before = .healthy)) :=
  ⟨⟨0, 0, 0, _,
     on.modDeep fun d => { d with dieFails := [(0, 9999999999999999), (0, 9999999999999998), (0, 9999999999999997), (0, 9999999999999996), (0, 9999999999999995), (0, 9999999999999994), (0, 9999999999999993)] },
     _, _, rfl, by decide, rfl, rfl, by decide +kernel⟩,
   ⟨0, on, _, rfl, by decide⟩,
   ⟨0, 0, _, on.modDeep fun d => { d with rebuilds := [{ die := 0, slots := [], total := 0 }] }, _, rfl, by decide, rfl⟩,
   ⟨0, on, _, rfl, by decide⟩,
   ⟨0, on, _, rfl, by decide⟩,
   ⟨0, 36, on.modDeep fun d => { d with bank := .testing, before := .healthy }, _, _, rfl, by decide, rfl, by decide⟩⟩

theorem wit_DeepComplete_part3 :
  (∃ (t : Nat) (energy : Nat) (s : State) (u : State) (v : State), u = s.at_ t ∧ (u.up = true ∧ u.deep.bank = .testing ∧
    u.deep.testAt + 2500 * ms ≤ u.now) ∧ v = u.modDeep (fun d => { d with energy := min energy 255, lastTest := u.now }) ∧
    (energy < 36 ∨ energy < 40 ∧ u.deep.before ≠ .healthy)) ∧
  (∃ (h : MbHdr) (s : State), s.takes h { opcode := 0xC0E5, ld := false, fm := .module, bg := true } ∧ s.deep.bank ≠ .testing ∧
    s.deep.bank ≠ .charging) ∧
  (∃ (h : MbHdr) (period : Nat) (s : State), s.takes h { opcode := 0xC0E6, ld := false, fm := .module, len := [9] } ∧ period ≠ 0 ∧
    period ≤ 168) ∧
  (∃ (t : Nat) (s : State) (u : State), u = s.at_ t ∧ u.up = true ∧ u.refill.throttled = true) ∧
  (∃ (t : Nat) (s : State) (u : State), u = s.at_ t ∧ u.up = true ∧ u.refill.throttled = false) ∧
  (∃ (h : MbHdr) (b : Nat) (s : State), s.takes h { opcode := 0xC0E4, ld := false, fm := .module, len := [9] } ∧ 2 ≤ b ∧ b ≤ 30) :=
  ⟨⟨0, 35, on.modDeep fun d => { d with bank := .testing, before := .healthy }, _, _, rfl, by decide, rfl, by decide⟩,
   ⟨⟨16, 255, 0, 8⟩, on.modDeep fun d => { d with bank := .healthy }, ⟨by decide, by decide⟩, by decide⟩,
   ⟨⟨16, 255, 0, 9⟩, 168, on, ⟨by decide, by decide⟩, by decide⟩,
   ⟨0, on.modDeep fun d => { d with credit := -1, creditAt := 10000000000000000 }, _, rfl, by decide⟩,
   ⟨0, on, _, rfl, by decide⟩,
   ⟨⟨16, 255, 0, 9⟩, 30, on, ⟨by decide, by decide⟩, by decide⟩⟩

theorem wit_DeepComplete_part4 :
  (∃ (t : Nat) (port : Nat) (s : State) (u : State), u = s.at_ t ∧ u.up = true ∧ port < 4 ∧ u.wt = true) ∧
  (∃ (t : Nat) (port : Nat) (s : State) (u : State), u = s.at_ t ∧ u.up = true ∧ port < 4 ∧ u.wt = false) :=
  ⟨⟨0, 0, on, _, rfl, by decide⟩,
   ⟨0, 0, on.modDeep fun d => { d with bank := .healthy }, _, rfl, by decide⟩⟩

theorem wit_IntegrityComplete_part1 :
  (∃ (t : Nat) (blk : Nat) (word : Nat) (k : Sack) (e : Extent) (s : State) (u : State) (v : State), u = s.at_ t ∧ u.up = true ∧
    k = u.sack (blk / 128) ∧ ((u.integ.behind = true ∨ u.anyGap = true)) ∧ u.extOfSack (blk / 128) = some e ∧ (k.near = true ∧
    u.stackBusy k.stack = false ∧ word < Prof.unit e.profile / 8) ∧
    u.useLines k.stack (128 * k.frame + (blk % 128 * Prof.unit e.profile + 8 * word) / 64) 1 = v) ∧
  (∃ (t : Nat) (s : State) (u : State), u = s.at_ t ∧ u.up = true ∧ u.integ.passStart + (u.integ.nearPer + 1) * hourNs ≤ u.now) ∧
  (∃ (t : Nat) (unit : Nat) (upset : Nat) (s : State) (u : State), u = s.at_ t ∧ u.up = true ∧ unit ≠ 0 ∧ unit ≤ 3 ∧
    eccOutcome (syndromeOf upset) = .good) ∧
  (∃ (t : Nat) (unit : Nat) (upset : Nat) (s : State) (u : State) (b : _), u = s.at_ t ∧ (u.up = true ∧ unit ≠ 0 ∧ unit ≤ 3) ∧
    eccOutcome (syndromeOf upset) = .corrected b) ∧
  (∃ (t : Nat) (unit : Nat) (upset : Nat) (s : State) (u : State), u = s.at_ t ∧ u.up = true ∧ unit ≠ 0 ∧ unit ≤ 3 ∧
    eccOutcome (syndromeOf upset) = .uncorrectable) ∧
  (∃ (h : MbHdr) (near : Nat) (sram : Nat) (s : State), s.takes h { opcode := 0xC090, ld := false, fm := .module, len := [16] } ∧
    near ≠ 0 ∧ near ≤ 168 ∧ sram ≠ 0 ∧ sram ≤ 60) :=
  ⟨⟨0, 0, 0, _, _, on.setSack 0 { mst := .clean, tier := .t1, near := true }, _, _, rfl, by decide, rfl, by decide, rfl, by decide, rfl⟩,
   ⟨0, on, _, rfl, by decide⟩,
   ⟨0, 3, 0, on, _, rfl, by decide⟩,
   ⟨0, 3, 1, on, _, _, rfl, by decide, rfl⟩,
   ⟨0, 3, 3, on, _, rfl, by decide⟩,
   ⟨⟨16, 255, 0, 16⟩, 168, 60, on, ⟨by decide, by decide⟩, by decide⟩⟩

theorem wit_IntegrityComplete_part2 :
  (∃ (h : MbHdr) (dpa : Nat) (word : Nat) (mask : Nat) (e : Extent) (s : State),
    s.takes h { opcode := 0xC092, ld := true, fm := .no, len := [41] } ∧ s.extAt h.src dpa = some e ∧ e.state = .active ∧
    e.isAlias = false ∧ Prof.gate e.profile = false ∧ dpa % 512 = 0 ∧ word < Prof.unit e.profile / 8 ∧ mask ≠ 0 ∧ mask < 2 ^ 72 ∧
    popc 72 mask ≤ 4 ∧ (s.integ.lds.get h.src).flip.state ≠ .armed) ∧
  (∃ (h : MbHdr) (stone : Nat) (bank : Nat) (word : Nat) (mask : Nat) (s : State),
    s.takes h { opcode := 0xC092, ld := false, fm := .module, len := [41], bg := true } ∧ stone < 192 ∧
    (s.stoneAt stone).state = .offline ∧ bank < 16 ∧ word < 32768 ∧ mask < 2 ^ 72) ∧
  (∃ (t : Nat) (ld : Nat) (s : State) (u : State), u = s.at_ t ∧ u.up = true ∧ (u.integ.lds.get ld).flip.state = .armed ∧
    (u.integ.lds.get ld).flip.at_ + 10 * sec ≤ u.now) ∧
  (∃ (h : MbHdr) (s : State), s.takes h { opcode := 0xC093, ld := true, fm := .no } ∧ (s.integ.lds.get h.src).flip.state = .armed) ∧
  (∃ (h : MbHdr) (o : OutReq) (s : State), s.takes h { opcode := 0xC094, ld := false, fm := .module, len := [16] } ∧ o.first = 0) ∧
  (∃ (h : MbHdr) (o : OutReq) (s : State), s.takes h { opcode := 0xC095, ld := true, fm := .module, len := [16] } ∧ o.first = 0) :=
  ⟨⟨⟨0, 0, 0, 41⟩, 0, 0, 15, _, on, ⟨by decide, by decide⟩, rfl, by decide⟩,
   ⟨⟨16, 255, 0, 41⟩, 0, 15, 32767, 4722366482869645213695, withStone on { state := .offline }, ⟨by decide, by decide⟩, by decide⟩,
   ⟨0, 0, on.modIntegLd 0 fun l => { l with flip := { l.flip with state := .armed } }, _, rfl, by decide⟩,
   ⟨⟨0, 0, 0, 8⟩, on.modIntegLd 0 fun l => { l with flip := { l.flip with state := .armed } }, ⟨by decide, by decide⟩, by decide⟩,
   ⟨⟨16, 255, 0, 16⟩, ⟨0, 0⟩, on, ⟨by decide, by decide⟩, by decide⟩,
   ⟨⟨0, 0, 0, 16⟩, ⟨0, 0⟩, on, ⟨by decide, by decide⟩, by decide⟩⟩

theorem wit_IntegrityComplete_part3 :
  (∃ (h : MbHdr) (o : OutReq) (s : State), s.takes h { opcode := 0xC097, ld := false, fm := .module, len := [16] } ∧ o.first = 0) ∧
  (∃ (h : MbHdr) (s : State), s.takes h { opcode := 0xC098, ld := false, fm := .module }) :=
  ⟨⟨⟨16, 255, 0, 16⟩, ⟨0, 0⟩, on, ⟨by decide, by decide⟩, by decide⟩,
   ⟨⟨16, 255, 0, 8⟩, on, ⟨by decide, by decide⟩⟩⟩

theorem wit_ResultsComplete_part1 :
  (∃ (t : Nat) (w : LedgerWait) (rest : List LedgerWait) (s : State) (u : State) (v : State), u = s.at_ t ∧ u.result.waits = w :: rest ∧
    (u.phase ≠ .off ∧ u.phase ≠ .hubFailed ∧ w.record.kind ≠ 16) ∧
    v = (((u.modResult fun x => { x with waits := rest }).commitRecord w.record).postAll w.posts).sendAll w.outs ∧ w.job = none) ∧
  (∃ (t : Nat) (w : LedgerWait) (rest : List LedgerWait) (s : State) (u : State) (v : State) (src : _) (code : _) (vses : _),
    u = s.at_ t ∧ u.result.waits = w :: rest ∧ (u.phase ≠ .off ∧ u.phase ≠ .hubFailed ∧ w.record.kind ≠ 16) ∧
    v = (((u.modResult fun x => { x with waits := rest }).commitRecord w.record).postAll w.posts).sendAll w.outs ∧ w.job = some (src,
    code, vses)) ∧
  (∃ (t : Nat) (kind : Nat) (utype : Nat) (unit : Nat) (c : Coalesce) (s : State) (u : State) (v : State), u = s.at_ t ∧
    u.result.coal.find? (fun c => c.kind = kind ∧ c.utype = utype ∧ c.unit = unit) = some c ∧ c.start + sec ≤ u.now ∧
    v = u.modResult (fun x => { x with coal := x.coal.filter (· ≠ c), coalesced := bump 32 x.coalesced c.lost }) ∧ c.lost = 0) ∧
  (∃ (t : Nat) (kind : Nat) (utype : Nat) (unit : Nat) (c : Coalesce) (s : State) (u : State) (v : State), u = s.at_ t ∧
    u.result.coal.find? (fun c => c.kind = kind ∧ c.utype = utype ∧ c.unit = unit) = some c ∧ c.start + sec ≤ u.now ∧
    v = u.modResult (fun x => { x with coal := x.coal.filter (· ≠ c), coalesced := bump 32 x.coalesced c.lost }) ∧ c.lost ≠ 0) ∧
  (∃ (h : MbHdr) (seqno : Nat) (maxrec : Nat) (rs : List LedgerRec) (s : State),
    s.takes h { opcode := 0xC0A0, ld := false, fm := .module, len := [20] } ∧ ((∀ r, s.result.ledger.head? = some r → r.seqno ≤ seqno)) ∧
    rs = (s.result.ledger.filter fun r => seqno ≤ r.seqno).take (if maxrec = 0 then 1023 else min maxrec 1023)) ∧
  (∃ (h : MbHdr) (o : OutReq) (s : State), s.takes h { opcode := 0xC0A1, ld := true, fm := .module, len := [16] } ∧ o.first = 0) :=
  ⟨⟨0, _, _, on.modResult fun r => { r with waits := [{ record := { kind := 18 }, posts := [], outs := [], job := none, start := 0 }] }, _,
     _, rfl, rfl, by decide, rfl, by decide⟩,
   ⟨0, _, _,
     on.modResult fun r => { r with waits := [{ record := { kind := 18 }, posts := [], outs := [], job := some (16, .success, 0), start := 0 }] },
     _, _, 16, .success, 0, rfl, rfl, by decide, rfl, by decide⟩,
   ⟨0, 1, 1, 0, _, on.modResult fun r => { r with coal := [{ kind := 1, utype := 1, unit := 0, start := 0, count := 8, lost := 0 }] }, _,
     _, rfl, rfl, by decide, rfl, by decide⟩,
   ⟨0, 1, 1, 0, _, on.modResult fun r => { r with coal := [{ kind := 1, utype := 1, unit := 0, start := 0, count := 8, lost := 1 }] }, _,
     _, rfl, rfl, by decide, rfl, by decide⟩,
   ⟨⟨16, 255, 0, 20⟩, 1, 0, _, on.modResult fun r => { r with ledger := [{ kind := 15, seqno := 1 }] }, ⟨by decide, by decide⟩,
     by rintro r h; cases h; decide, rfl⟩,
   ⟨⟨0, 0, 0, 16⟩, ⟨0, 0⟩, on, ⟨by decide, by decide⟩, by decide⟩⟩

theorem wit_ResultsComplete_part2 :
  (∃ (h : MbHdr) (s : State), s.takes h { opcode := 0xC0A7, ld := false, fm := .module, len := [24] }) ∧
  (∃ (h : MbHdr) (s0 : Nat) (s1 : Nat) (s2 : Nat) (earlyen : Nat) (s : State),
    s.takes h { opcode := 0xC0A2, ld := false, fm := .module, len := [12] } ∧ s0 ≤ 15 ∧ s1 ≤ 15 ∧ s2 ≤ 15 ∧ earlyen ≤ 1) ∧
  (∃ (h : MbHdr) (one : Nat → Nat → Bytes) (at_ : Option Nat → Nat) (s : State),
    s.takes h { opcode := 0xC0A3, ld := false, fm := .module } ∧ ((∀ o,
    at_ o = (match o with | some x => s.stampOf fmSrc x | none => 0))) ∧ ((∀ utype unit, one utype unit = layout 24 [⟨0, 1,
    (s.unitRec utype unit).state.code⟩, ⟨8, 8, at_ (s.unitRec utype unit).obs.getLast?⟩, ⟨16, 8,
    at_ (s.unitRec utype unit).obs.head?⟩]))) ∧
  (∃ (h : MbHdr) (utype : Nat) (unit : Nat) (s : State), s.takes h { opcode := 0xC0A6, ld := false, fm := .module, len := [12] } ∧
    ((utype = 1 ∧ unit < 192 ∨ utype = 2 ∧ unit < 4)) ∧ (s.unitRec utype unit).state = .failed) ∧
  (∃ (h : MbHdr) (p : Part) (img : Bytes) (s : State) (v : State),
    s.takes h { opcode := 0xC0A4, ld := false, fm := .module, bg := p.final, len := [], lenFrom := some 32 } ∧
    h.len = 32 + p.data.length ∧ s.takePart h.src 0xC0A4 p = .whole v img ∧ img.length = p.total) ∧
  (∃ (h : MbHdr) (s : State), s.takes h { opcode := 0xC0A5, ld := false, fm := .module }) :=
  ⟨⟨⟨16, 255, 0, 24⟩, on, ⟨by decide, by decide⟩⟩,
   ⟨⟨16, 255, 0, 12⟩, 15, 0, 15, 1, on, ⟨by decide, by decide⟩, by decide⟩,
   ⟨⟨16, 255, 0, 8⟩, _, _, on, ⟨by decide, by decide⟩, by intros; rfl, by intros; rfl⟩,
   ⟨⟨16, 255, 0, 12⟩, 1, 0, on.setUnit 1 0 fun r => { r with state := .failed }, ⟨by decide, by decide⟩, by decide⟩,
   ⟨⟨16, 255, 0, 40⟩, whole 8, _, on, _, ⟨by decide, by decide⟩, by decide, rfl, by decide⟩,
   ⟨⟨16, 255, 0, 8⟩, on, ⟨by decide, by decide⟩⟩⟩

theorem wit_ResultsComplete_part3 :
  (∃ (t : Nat) (src : Nat) (j : Job) (s : State) (u : State), u = s.at_ t ∧ u.job src = some j ∧ u.up = true ∧ u.millerReady = true) ∧
  (∃ (h : MbHdr) (j : Job) (s : State), s.takes h (stdCmd 0x0005 true .module) ∧ s.job h.src = some j ∧ s.abortable j = true) ∧
  (∃ (t : Nat) (s : State) (u : State), u = s.at_ t) :=
  ⟨⟨0, 0, _,
     { on with mbox := { jobs := [(0, { opcode := 0xC0B4, cmd := .runDigest ⟨0, 0, 0, 9⟩ 0, start := 0, started := false, aborted := false })] } },
     _, rfl, rfl, by decide⟩,
   ⟨⟨0, 0, 0, 0⟩, _,
     { on with mbox := { jobs := [(0, { opcode := 0xC0B4, cmd := .runDigest ⟨0, 0, 0, 9⟩ 0, start := 0, started := false, aborted := false })] } },
     ⟨by decide, by decide⟩, rfl, by decide⟩,
   ⟨0, on, _, rfl⟩⟩

theorem wit_RetiresComplete :
  (∃ (h : MbHdr) (loc : Nat) (s : State), s.takes h { opcode := 0xC096, ld := false, fm := .module, len := [24], bg := true } ∧
    s.retireCheck 0 loc = none) ∧
  (∃ (h : MbHdr) (loc : Nat) (s : State), s.takes h { opcode := 0xC096, ld := false, fm := .module, len := [24], bg := true } ∧
    s.retireCheck 1 loc = none) ∧
  (∃ (h : MbHdr) (loc : Nat) (s : State), s.takes h { opcode := 0xC096, ld := false, fm := .module, len := [24], bg := true } ∧
    s.retireCheck 2 loc = none) ∧
  (∃ (h : MbHdr) (loc : Nat) (s : State), s.takes h { opcode := 0xC096, ld := false, fm := .module, len := [24], bg := true } ∧
    s.retireCheck 3 loc = none) :=
  ⟨⟨⟨16, 255, 0, 24⟩, 0, on, ⟨by decide, by decide⟩, by decide⟩,
   ⟨⟨16, 255, 0, 24⟩, 0, on, ⟨by decide, by decide⟩, by decide⟩,
   ⟨⟨16, 255, 0, 24⟩, 0, on, ⟨by decide, by decide⟩, by decide⟩,
   ⟨⟨16, 255, 0, 24⟩, 0, on, ⟨by decide, by decide⟩, by decide⟩⟩

theorem wit_DigestsComplete_part1 :
  (∃ (t : Nat) (ld : Nat) (range : Nat) (r : Range) (s : State) (u : State), u = s.at_ t ∧ u.rangeOf ld range = some r ∧ (u.up = true ∧
    r.running = false) ∧ u.digestMay r = true) ∧
  (∃ (t : Nat) (ld : Nat) (range : Nat) (disagree : List Nat) (r : Range) (ds : Bytes) (s : State) (u : State) (v : State), u = s.at_ t ∧
    u.rangeOf ld range = some r ∧ (u.up = true ∧ r.running = true) ∧ v = disagree.foldl (fun s k => s.observe 1 k 16) u ∧
    v.sackDigests ld r.base (r.len / 65536) = (ds, none)) ∧
  (∃ (h : MbHdr) (base : Nat) (len : Nat) (period : Nat) (wheel : Nat) (layer : Nat) (id : Nat) (p : Nat) (e : Extent) (s : State),
    s.takes h { opcode := 0xC0B0, ld := true, fm := .no, len := [38] } ∧ s.extAt h.src base = some e ∧ (e.state = .active ∧
    Prof.gate e.profile = false ∧ base % 65536 = 0 ∧ len % 65536 = 0 ∧ len ≠ 0 ∧ len ≤ MiB * MiB ∧ base + len ≤ e.base + e.len) ∧
    p = (if period = 0 then 24 else period) ∧ (p ≤ 720 ∧ ((wheel < 16 ∨ wheel = 0xFF)) ∧ layer ≤ 1023 ∧
    (s.result.ranges.filter fun r => r.ld == h.src).length < 64 ∧ s.result.ranges.length < 256) ∧
    id = (lowestFree ((s.result.ranges.filter fun r => r.ld == h.src).map Range.id) 64).getD 0) ∧
  (∃ (h : MbHdr) (range : Nat) (r : Range) (s : State), s.takes h { opcode := 0xC0B1, ld := true, fm := .no, len := [9] } ∧
    s.rangeOf h.src range = some r ∧ s.job h.src = none) ∧
  (∃ (h : MbHdr) (range : Nat) (r : Range) (s : State), s.takes h { opcode := 0xC0B2, ld := true, fm := .ld, len := [9] } ∧
    s.rangeOf (whoOf h) range = some r) ∧
  (∃ (h : MbHdr) (range : Nat) (r : Range) (s : State), s.takes h { opcode := 0xC0B3, ld := true, fm := .no, len := [48] } ∧
    s.rangeOf h.src range = some r) :=
  ⟨⟨0, 0, 0, _,
     on.modResult fun r => { r with ranges := [{ id := 0, ld := 0, base := 0, len := 65536, firstBlk := 0, key := 5, period := 24, wheel := none, layer := 0 }] },
     _, rfl, rfl, by decide, by decide +kernel⟩,
   ⟨0, 0, 0, [], _, _,
     on.modResult fun r => { r with ranges := [{ id := 0, ld := 0, base := 0, len := 65536, firstBlk := 0, key := 5, period := 24, wheel := none, layer := 0, running := true }] },
     _, _, rfl, rfl, by decide, rfl, rfl⟩,
   ⟨⟨0, 0, 0, 38⟩, 0, 65536, 0, 255, 1023, _, _, _, on, ⟨by decide, by decide⟩, rfl, by decide, rfl, by decide, rfl⟩,
   ⟨⟨0, 0, 0, 9⟩, 0, _,
     on.modResult fun r => { r with ranges := [{ id := 0, ld := 0, base := 0, len := 65536, firstBlk := 0, key := 5, period := 24, wheel := none, layer := 0 }] },
     ⟨by decide, by decide⟩, rfl, by decide⟩,
   ⟨⟨0, 0, 0, 9⟩, 0, _,
     on.modResult fun r => { r with ranges := [{ id := 0, ld := 0, base := 0, len := 65536, firstBlk := 0, key := 5, period := 24, wheel := none, layer := 0 }] },
     ⟨by decide, by decide⟩, rfl⟩,
   ⟨⟨0, 0, 0, 48⟩, 0, _,
     on.modResult fun r => { r with ranges := [{ id := 0, ld := 0, base := 0, len := 65536, firstBlk := 0, key := 5, period := 24, wheel := none, layer := 0 }] },
     ⟨by decide, by decide⟩, rfl⟩⟩

theorem wit_DigestsComplete_part2 :
  (∃ (h : MbHdr) (range : Nat) (r : Range) (s : State), s.takes h { opcode := 0xC0B4, ld := true, fm := .no, len := [9], bg := true } ∧
    s.rangeOf h.src range = some r ∧ r.running = false) ∧
  (∃ (h : MbHdr) (range : Nat) (port : Nat) (window : Nat) (r : Range) (s : State),
    s.takes h { opcode := 0xC0B5, ld := true, fm := .no, len := [12] } ∧ s.rangeOf h.src range = some r ∧ ((port = 4 ∨ port = 5)) ∧
    window < 64 ∧ (s.window port window).act.dir = 0 ∧ (s.window port window).act.ld = h.src ∧ (s.window port window).act.enable = true) :=
  ⟨⟨⟨0, 0, 0, 9⟩, 0, _,
     on.modResult fun r => { r with ranges := [{ id := 0, ld := 0, base := 0, len := 65536, firstBlk := 0, key := 5, period := 24, wheel := none, layer := 0 }] },
     ⟨by decide, by decide⟩, rfl, by decide⟩,
   ⟨⟨0, 0, 0, 12⟩, 0, 4, 0, _,
     (on.modResult fun r => { r with ranges := [{ id := 0, ld := 0, base := 0, len := 65536, firstBlk := 0, key := 5, period := 24, wheel := none, layer := 0 }] }).modPorts fun q => { q with windows := { dflt := {}, cells := [(256, { act := { dir := 0, enable := true, node := 9, base := 0, len := 65536 } })] } },
     ⟨by decide, by decide⟩, rfl, by decide⟩⟩

theorem wit_PortsComplete_part1 :
  (∃ (t : Nat) (port : Nat) (p : Port) (dst : State → Training → State) (fail : State → List Nat → State) (s : State) (u : State),
    u = s.at_ t ∧ (u.lit = true ∧ port < 6 ∧ port ∉ u.health.engines) ∧ p = u.portAt port ∧ ((∀ v st,
    dst v st = v.modPort port fun p => { p with state := st, since := v.now })) ∧ ((∀ v ns,
    fail v ns = ns.foldl (fun s n => s.modLane port n fun l => { l with failed := true }) v)) ∧ p.state = .dark ∧ 4 ≤ port ∧
    p.enabled = true ∧ u.port.node ≠ 0) ∧
  (∃ (t : Nat) (port : Nat) (light : Bool) (p : Port) (dst : State → Training → State) (fail : State → List Nat → State) (s : State) (u : State),
    u = s.at_ t ∧ (u.lit = true ∧ port < 6 ∧ port ∉ u.health.engines) ∧ p = u.portAt port ∧ ((∀ v st,
    dst v st = v.modPort port fun p => { p with state := st, since := v.now })) ∧ ((∀ v ns,
    fail v ns = ns.foldl (fun s n => s.modLane port n fun l => { l with failed := true }) v)) ∧ p.state = .detect ∧ light = true) ∧
  (∃ (t : Nat) (port : Nat) (p : Port) (dst : State → Training → State) (fail : State → List Nat → State) (s : State) (u : State),
    u = s.at_ t ∧ (u.lit = true ∧ port < 6 ∧ port ∉ u.health.engines) ∧ p = u.portAt port ∧ ((∀ v st,
    dst v st = v.modPort port fun p => { p with state := st, since := v.now })) ∧ ((∀ v ns,
    fail v ns = ns.foldl (fun s n => s.modLane port n fun l => { l with failed := true }) v)) ∧ p.state = .light) ∧
  (∃ (t : Nat) (port : Nat) (failed : List Nat) (p : Port) (dst : State → Training → State) (fail : State → List Nat → State) (s : State) (u : State) (v : State),
    u = s.at_ t ∧ (u.lit = true ∧ port < 6 ∧ port ∉ u.health.engines) ∧ p = u.portAt port ∧ ((∀ v st,
    dst v st = v.modPort port fun p => { p with state := st, since := v.now })) ∧ ((∀ v ns,
    fail v ns = ns.foldl (fun s n => s.modLane port n fun l => { l with failed := true }) v)) ∧ p.state = .equalise ∧
    v = (List.range 8).foldl (fun s n => s.free.2.modLane port n fun l => { l with margin := s.free.1 % 256 }) (fail u (failed.filter (· < 8)))) ∧
  (∃ (t : Nat) (port : Nat) (failed : List Nat) (skew : List Nat) (p : Port) (dst : State → Training → State) (fail : State → List Nat → State) (s : State) (u : State) (first : Nat) (v : State),
    u = s.at_ t ∧ (u.lit = true ∧ port < 6 ∧ port ∉ u.health.engines) ∧ p = u.portAt port ∧ ((∀ v st,
    dst v st = v.modPort port fun p => { p with state := st, since := v.now })) ∧ ((∀ v ns,
    fail v ns = ns.foldl (fun s n => s.modLane port n fun l => { l with failed := true }) v)) ∧ p.state = .lock ∧
    first = ((List.range 8).filterMap fun n => if (u.laneAt port n).failed then none else skew[n]?).foldl min (skew.foldl max 0) ∧
    v = fail (fail u (failed.filter (· < 8))) ((List.range 8).filter fun n => decide (first + 128 < skew.getD n first))) ∧
  (∃ (t : Nat) (port : Nat) (p : Port) (dst : State → Training → State) (fail : State → List Nat → State) (s : State) (u : State),
    u = s.at_ t ∧ (u.lit = true ∧ port < 6 ∧ port ∉ u.health.engines) ∧ p = u.portAt port ∧ ((∀ v st,
    dst v st = v.modPort port fun p => { p with state := st, since := v.now })) ∧ ((∀ v ns,
    fail v ns = ns.foldl (fun s n => s.modLane port n fun l => { l with failed := true }) v)) ∧ p.state = .config ∧ p.mismatch = false) :=
  ⟨⟨0, 4, _, _, _, on.modPort 4 fun p => { p with state := .dark }, _, rfl, by decide, rfl, by intros; rfl, by intros; rfl, by decide⟩,
   ⟨0, 4, true, _, _, _, on.modPort 4 fun p => { p with state := .detect }, _, rfl, by decide, rfl, by intros; rfl, by intros; rfl,
     by decide⟩,
   ⟨0, 4, _, _, _, on.modPort 4 fun p => { p with state := .light }, _, rfl, by decide, rfl, by intros; rfl, by intros; rfl, by decide⟩,
   ⟨0, 4, [7], _, _, _, on.modPort 4 fun p => { p with state := .equalise }, _, _, rfl, by decide, rfl, by intros; rfl, by intros; rfl,
     by decide, rfl⟩,
   ⟨0, 4, [], [0, 200], _, _, _, on.modPort 4 fun p => { p with state := .lock }, _, _, _, rfl, by decide, rfl, by intros; rfl,
     by intros; rfl, by decide, rfl, rfl⟩,
   ⟨0, 4, _, _, _, on.modPort 4 fun p => { p with state := .config }, _, rfl, by decide, rfl, by intros; rfl, by intros; rfl, by decide⟩⟩

theorem wit_PortsComplete_part2 :
  (∃ (t : Nat) (port : Nat) (p : Port) (dst : State → Training → State) (fail : State → List Nat → State) (s : State) (u : State),
    u = s.at_ t ∧ (u.lit = true ∧ port < 6 ∧ port ∉ u.health.engines) ∧ p = u.portAt port ∧ ((∀ v st,
    dst v st = v.modPort port fun p => { p with state := st, since := v.now })) ∧ ((∀ v ns,
    fail v ns = ns.foldl (fun s n => s.modLane port n fun l => { l with failed := true }) v)) ∧ p.state = .reconfig) ∧
  (∃ (t : Nat) (port : Nat) (n : Nat) (s : State) (u : State), u = s.at_ t ∧ (u.portAt port).limit = some n ∧
    (u.portAt port).since + n ≤ u.now) ∧
  (∃ (t : Nat) (port : Nat) (p : Port) (s : State) (u : State), u = s.at_ t ∧ p = u.portAt port ∧ p.state = .config ∧ p.mismatch = true ∧
    p.since + 100 * ms ≤ u.now) ∧
  (∃ (t : Nat) (port : Nat) (lane : Nat) (s : State) (u : State), u = s.at_ t ∧ u.lit = true ∧ port < 6 ∧ lane < 8) ∧
  (∃ (t : Nat) (port : Nat) (lane : Nat) (wavelength : Nat) (bias : Nat) (s : State) (u : State) (v : State), u = s.at_ t ∧ (port < 6 ∧
    lane < 8 ∧ wavelength < 4) ∧ v = u.modLane port lane (fun l => { l with bias := l.bias.set wavelength bias }) ∧
    ((bias < 130 ∨ wavelength ∈ (u.laneAt port lane).aged))) ∧
  (∃ (t : Nat) (port : Nat) (lane : Nat) (wavelength : Nat) (bias : Nat) (s : State) (u : State) (v : State), u = s.at_ t ∧ (port < 6 ∧
    lane < 8 ∧ wavelength < 4) ∧ v = u.modLane port lane (fun l => { l with bias := l.bias.set wavelength bias }) ∧ 130 ≤ bias ∧
    wavelength ∉ (u.laneAt port lane).aged) :=
  ⟨⟨0, 4, _, _, _, on.modPort 4 fun p => { p with state := .reconfig }, _, rfl, by decide, rfl, by intros; rfl, by intros; rfl, by decide⟩,
   ⟨0, 4, _, on.modPort 4 fun p => { p with state := .lock }, _, rfl, rfl, by decide⟩,
   ⟨0, 4, _, on.modPort 4 fun p => { p with state := .config, mismatch := true }, _, rfl, rfl, by decide⟩,
   ⟨0, 5, 7, on, _, rfl, by decide⟩,
   ⟨0, 5, 7, 3, 129, on, _, _, rfl, by decide, rfl, by decide⟩,
   ⟨0, 5, 7, 3, 130, on, _, _, rfl, by decide, rfl, by decide⟩⟩

theorem wit_PortsComplete_part3 :
  (∃ (t : Nat) (port : Nat) (lane : Nat) (bias : Nat) (lowPower : Bool) (s : State) (u : State), u = s.at_ t ∧ port < 6 ∧ lane < 8 ∧
    ((150 ≤ bias ∨ lowPower = true))) ∧
  (∃ (t : Nat) (port : Nat) (width : Nat) (p : Port) (s : State) (u : State), u = s.at_ t ∧ port < 4 ∧ p = u.portAt port ∧
    p.state = .active ∧ ((p.power = .active ∨ p.power = .partial_)) ∧ ((width = 1 ∨ width = 2 ∨ width = 4)) ∧ width < p.group.length) ∧
  (∃ (t : Nat) (port : Nat) (s : State) (u : State), u = s.at_ t ∧ port < 4 ∧ (u.portAt port).state = .active) ∧
  (∃ (t : Nat) (port : Nat) (p : Port) (s : State) (u : State), u = s.at_ t ∧ ((port = 4 ∨ port = 5)) ∧ p = u.portAt port ∧
    p.state = .active ∧ p.power = .active ∧ 0 < p.standby ∧ p.lastUse + p.standby * us ≤ u.now) ∧
  (∃ (t : Nat) (port : Nat) (p : Port) (s : State) (u : State), u = s.at_ t ∧ (u.lit = true ∧ port < 6 ∧
    u.health.engines.contains port = false) ∧ p = u.portAt port ∧ (p.power = .partial_ ∨ p.power = .standby)) ∧
  (∃ (t : Nat) (port : Nat) (p : Port) (s : State) (u : State), u = s.at_ t ∧ (u.lit = true ∧ port < 6 ∧
    u.health.engines.contains port = false) ∧ p = u.portAt port ∧ p.power = .dark ∧ ((4 ≤ port → p.enabled = true ∧ u.port.node ≠ 0))) :=
  ⟨⟨0, 5, 7, 150, false, on, _, rfl, by decide⟩,
   ⟨0, 0, 4, _, on, _, rfl, by decide, rfl, by decide⟩,
   ⟨0, 0, on, _, rfl, by decide⟩,
   ⟨0, 4, _, on.modPort 4 fun p => { p with state := .active, standby := 10 }, _, rfl, by decide, rfl, by decide⟩,
   ⟨0, 0, _, on.modPort 0 fun p => { p with power := .standby }, _, rfl, by decide, rfl, by decide⟩,
   ⟨0, 0, _, on.modPort 0 fun p => { p with power := .dark }, _, rfl, by decide, rfl, by decide⟩⟩

theorem wit_PortsComplete_part4 :
  (∃ (ld : Nat) (s : State), s.lit = true ∧ ld < 16 ∧ s.ldOn ld = true) ∧
  (∃ (h : MbHdr) (port : Nat) (s : State), s.takes h { opcode := 0xC0F7, ld := false, fm := .module, len := [9], bg := true } ∧
    port < 6) ∧
  (∃ (h : MbHdr) (port : Nat) (enable : Nat) (standby : Nat) (grace : Nat) (s : State) (v : State),
    s.takes h { opcode := 0xC0F6, ld := false, fm := .module, len := [20] } ∧ (((port = 4 ∨ port = 5)) ∧ enable ≤ 1 ∧ standby ≤ 1000 ∧
    10 ≤ grace ∧ grace ≤ 10000) ∧ v = s.modPort port (fun p => { p with enabled := enable == 1, standby := standby, grace := grace }) ∧
    enable = 0) ∧
  (∃ (h : MbHdr) (port : Nat) (enable : Nat) (standby : Nat) (grace : Nat) (s : State) (v : State),
    s.takes h { opcode := 0xC0F6, ld := false, fm := .module, len := [20] } ∧ (((port = 4 ∨ port = 5)) ∧ enable ≤ 1 ∧ standby ≤ 1000 ∧
    10 ≤ grace ∧ grace ≤ 10000) ∧ v = s.modPort port (fun p => { p with enabled := enable == 1, standby := standby, grace := grace }) ∧
    enable = 1 ∧ (v.portAt port).state = .dark ∧ v.lit = true ∧ v.port.node ≠ 0) ∧
  (∃ (h : MbHdr) (port : Nat) (enable : Nat) (standby : Nat) (grace : Nat) (s : State) (v : State),
    s.takes h { opcode := 0xC0F6, ld := false, fm := .module, len := [20] } ∧ (((port = 4 ∨ port = 5)) ∧ enable ≤ 1 ∧ standby ≤ 1000 ∧
    10 ≤ grace ∧ grace ≤ 10000) ∧ v = s.modPort port (fun p => { p with enabled := enable == 1, standby := standby, grace := grace }) ∧
    enable = 1 ∧ (v.portAt port).state ≠ .dark) ∧
  (∃ (h : MbHdr) (port : Nat) (s : State), s.takes h { opcode := 0xC0F8, ld := false, fm := .module, len := [9] } ∧ port < 6) :=
  ⟨⟨0, on, by decide⟩,
   ⟨⟨16, 255, 0, 9⟩, 5, on, ⟨by decide, by decide⟩, by decide⟩,
   ⟨⟨16, 255, 0, 20⟩, 4, 0, 1000, 10000, on, _, ⟨by decide, by decide⟩, by decide, rfl, by decide⟩,
   ⟨⟨16, 255, 0, 20⟩, 4, 1, 0, 10, on.modPort 4 fun p => { p with state := .dark }, _, ⟨by decide, by decide⟩, by decide, rfl, by decide⟩,
   ⟨⟨16, 255, 0, 20⟩, 4, 1, 0, 10, on, _, ⟨by decide, by decide⟩, by decide, rfl, by decide⟩,
   ⟨⟨16, 255, 0, 9⟩, 5, on, ⟨by decide, by decide⟩, by decide⟩⟩

theorem wit_PeerMessagesComplete_part1 :
  (∃ (p : PeerHdr) (data : Bytes) (ld : Nat) (w : WinDesc) (s : State) (u : State) (v : State), s.heard p 1 u ∧ u.inbound p = (0, w) ∧
    ld = w.ld ∧
    v = (List.range p.lines).foldl (fun s i => s.hostWrite ld (p.dest + 64 * i) 0 (fit 64 ((data.drop (64 * i)).take 64)) (BitVec.allOnes 64) false true) u) ∧
  (∃ (p : PeerHdr) (s : State) (u : State), s.heard p 1 u ∧ (u.inbound p).1 ≠ 0) ∧
  (∃ (p : PeerHdr) (k : Packet) (s : State) (u : State), s.heard p 2 u ∧ u.port.packets.find? (fun k => k.port = p.port ∧ k.tag = p.tag ∧
    k.out = true) = some k ∧ p.status = 0) ∧
  (∃ (p : PeerHdr) (k : Packet) (s : State) (u : State), s.heard p 2 u ∧ u.port.packets.find? (fun k => k.port = p.port ∧ k.tag = p.tag ∧
    k.out = true) = some k ∧ p.status = 2) ∧
  (∃ (p : PeerHdr) (k : Packet) (s : State) (u : State), s.heard p 2 u ∧ u.port.packets.find? (fun k => k.port = p.port ∧ k.tag = p.tag ∧
    k.out = true) = some k ∧ ((p.status = 1 ∨ p.status = 4 ∨ p.status = 5)) ∧ k.digest = false) ∧
  (∃ (p : PeerHdr) (k : Packet) (s : State) (u : State), s.heard p 2 u ∧ u.port.packets.find? (fun k => k.port = p.port ∧ k.tag = p.tag ∧
    k.out = true) = some k ∧ p.status = 6 ∧ k.digest = false) :=
  ⟨⟨⟨4, 1, false, true, 0, 1, 1, 9, 0, 0, 0, 1, 0, 0⟩, [], _, _,
     on.modPorts fun q => { q with windows := { dflt := {}, cells := [(256, { act := { dir := 1, enable := true, node := 9, base := 0, len := 65536 }, gen := 1 })] } },
     _, _, ⟨by decide, by decide, by decide, rfl, rfl⟩, rfl, rfl, rfl⟩,
   ⟨⟨4, 1, false, true, 0, 0, 1, 9, 0, 0, 0, 1, 0, 0⟩,
     on.modPorts fun q => { q with windows := { dflt := {}, cells := [(256, { act := { dir := 1, enable := true, node := 9, base := 0, len := 65536 }, gen := 1 })] } },
     _, ⟨by decide, by decide, by decide, rfl, rfl⟩, by decide⟩,
   ⟨⟨4, 2, false, true, 0, 0, 0, 9, 0, 0, 0, 1, 0, 0⟩, _,
     on.modPorts fun q => { q with packets := [{ port := 4, tag := 0, window := 0, gen := 0, off := 0, data := [], fwdid := 1, last := true, early := false, first := 0 }] },
     _, ⟨by decide, by decide, by decide, rfl, rfl⟩, rfl, by decide⟩,
   ⟨⟨4, 2, false, true, 0, 0, 0, 9, 0, 2, 0, 1, 0, 0⟩, _,
     on.modPorts fun q => { q with packets := [{ port := 4, tag := 0, window := 0, gen := 0, off := 0, data := [], fwdid := 1, last := true, early := false, first := 0 }] },
     _, ⟨by decide, by decide, by decide, rfl, rfl⟩, rfl, by decide⟩,
   ⟨⟨4, 2, false, true, 0, 0, 0, 9, 0, 5, 0, 1, 0, 0⟩, _,
     on.modPorts fun q => { q with packets := [{ port := 4, tag := 0, window := 0, gen := 0, off := 0, data := [], fwdid := 1, last := true, early := false, first := 0 }] },
     _, ⟨by decide, by decide, by decide, rfl, rfl⟩, rfl, by decide⟩,
   ⟨⟨4, 2, false, true, 0, 0, 0, 9, 0, 6, 0, 1, 0, 0⟩, _,
     on.modPorts fun q => { q with packets := [{ port := 4, tag := 0, window := 0, gen := 0, off := 0, data := [], fwdid := 1, last := true, early := false, first := 0 }] },
     _, ⟨by decide, by decide, by decide, rfl, rfl⟩, rfl, by decide⟩⟩

theorem wit_PeerMessagesComplete_part2 :
  (∃ (p : PeerHdr) (m : Settle) (e : Prov) (s : State) (u : State), s.heard p 3 u ∧ u.provOf m.node m.fwdid = some e ∧ 1 ≤ m.cause ∧
    m.cause ≤ 3) ∧
  (∃ (p : PeerHdr) (s : State) (u : State), s.heard p 3 u) ∧
  (∃ (t : Nat) (node : Nat) (fwdid : Nat) (e : Prov) (s : State) (u : State), u = s.at_ t ∧ u.provOf node fwdid = some e ∧ u.up = true ∧
    e.since + ms ≤ u.now) ∧
  (∃ (t : Nat) (fwdid : Nat) (f : Fwd) (s : State) (u : State), u = s.at_ t ∧ u.fwd fwdid = some f ∧ f.early = true ∧ f.settled = false ∧
    f.extended + 500 * us ≤ u.now) ∧
  (∃ (p : PeerHdr) (key : Nat) (digest : BitVec 256) (changed : Bool) (w : WinDesc) (x : Range) (s : State) (u : State) (v : State),
    s.heard p 4 u ∧ u.inbound p = (0, w) ∧ v = u.answerPeer p 0 ∧ v.result.ranges.find? (fun x => x.ld = w.ld ∧ x.key = key ∧
    x.done = true) = some x ∧ (changed = true ∨ x.changed = true ∨ x.latest = digest)) ∧
  (∃ (p : PeerHdr) (key : Nat) (digest : BitVec 256) (changed : Bool) (w : WinDesc) (x : Range) (s : State) (u : State) (v : State) (ev : Event),
    s.heard p 4 u ∧ u.inbound p = (0, w) ∧ v = u.answerPeer p 0 ∧ v.result.ranges.find? (fun x => x.ld = w.ld ∧ x.key = key ∧
    x.done = true) = some x ∧ (changed = false ∧ x.changed = false ∧ x.latest ≠ digest) ∧ ev = Event.of 16 x.ld 1 [⟨64, 1, x.id⟩, ⟨72, 8,
    key⟩, ⟨80, 2, p.srcNode⟩]) :=
  ⟨⟨⟨4, 3, false, true, 0, 0, 1, 9, 0, 0, 0, 1, 0, 0⟩, ⟨3, 9, 0, 0, true, 0, 0, 0, 0, 0, 1, 0, 1⟩, _,
     on.modResult fun r => { r with provs := [{ node := 9, fwdid := 1, ld := 0, blocks := [0], since := 0 }] }, _, ⟨by decide, by decide,
     by decide, rfl, rfl⟩, rfl, by decide⟩,
   ⟨⟨4, 3, false, true, 0, 0, 1, 9, 0, 0, 0, 1, 0, 0⟩, on, _, ⟨by decide, by decide, by decide, rfl, rfl⟩⟩,
   ⟨0, 9, 1, _, on.modResult fun r => { r with provs := [{ node := 9, fwdid := 1, ld := 0, blocks := [0], since := 0 }] }, _, rfl, rfl,
     by decide⟩,
   ⟨0, 1, _,
     on.modPorts fun q => { q with fwds := [{ fwdid := 1, ld := 0, buf := 0, port := 4, window := 0, offset := 0, early := true, data := [], wheel := 0, nowheel := true, layer := 0, turn := 0, seq := 0, opcode := 0, started := 0, extended := 0, left := 1 }] },
     _, rfl, rfl, by decide⟩,
   ⟨⟨4, 4, false, true, 0, 1, 1, 9, 0, 0, 0, 1, 0, 0⟩, 5, 0, false, _, _,
     (on.modPorts fun q => { q with windows := { dflt := {}, cells := [(256, { act := { dir := 1, enable := true, node := 9, base := 0, len := 65536 }, gen := 1 })] } }).modResult fun r => { r with ranges := [{ id := 0, ld := 0, base := 0, len := 65536, firstBlk := 0, key := 5, period := 24, wheel := none, layer := 0, done := true }] },
     _, _, ⟨by decide, by decide, by decide, rfl, rfl⟩, rfl, rfl, rfl, by decide⟩,
   ⟨⟨4, 4, false, true, 0, 1, 1, 9, 0, 0, 0, 1, 0, 0⟩, 5, 1, false, _, _,
     (on.modPorts fun q => { q with windows := { dflt := {}, cells := [(256, { act := { dir := 1, enable := true, node := 9, base := 0, len := 65536 }, gen := 1 })] } }).modResult fun r => { r with ranges := [{ id := 0, ld := 0, base := 0, len := 65536, firstBlk := 0, key := 5, period := 24, wheel := none, layer := 0, done := true }] },
     _, _, _, ⟨by decide, by decide, by decide, rfl, rfl⟩, rfl, rfl, rfl, by decide, rfl⟩⟩

theorem wit_PeerMessagesComplete_part3 :
  (∃ (p : PeerHdr) (s : State) (u : State), s.heard p 5 u) ∧
  (∃ (p : PeerHdr) (s : State), ((p.port = 4 ∨ p.port = 5)) ∧ s.carries p.port = true ∧ peerBad p = true) ∧
  (∃ (t : Nat) (port : Nat) (tag : Nat) (k : Packet) (s : State) (u : State), u = s.at_ t ∧ u.port.packets.find? (fun k => k.port = port ∧
    k.tag = tag ∧ k.again = true) = some k ∧ u.carries port = true ∧ k.sentAt + us ≤ u.now) ∧
  (∃ (t : Nat) (fwdid : Nat) (k : Packet) (s : State) (u : State), u = s.at_ t ∧ u.port.packets.find? (fun k => k.fwdid = fwdid ∧
    k.first + ms ≤ u.now) = some k ∧ k.digest = false ∧ k.hold = true) ∧
  (∃ (t : Nat) (fwdid : Nat) (k : Packet) (s : State) (u : State), u = s.at_ t ∧ u.port.packets.find? (fun k => k.fwdid = fwdid ∧
    k.first + ms ≤ u.now) = some k ∧ k.digest = false ∧ k.hold = false ∧ k.again = true) ∧
  (∃ (t : Nat) (fwdid : Nat) (k : Packet) (s : State) (u : State), u = s.at_ t ∧ u.port.packets.find? (fun k => k.fwdid = fwdid ∧
    k.first + ms ≤ u.now) = some k ∧ k.digest = false ∧ k.hold = false ∧ k.again = false) :=
  ⟨⟨⟨4, 5, false, true, 0, 0, 0, 9, 0, 0, 0, 1, 0, 0⟩, on, _, ⟨by decide, by decide, by decide, rfl, rfl⟩⟩,
   ⟨⟨4, 6, false, true, 0, 0, 1, 9, 0, 0, 0, 1, 0, 0⟩, on, by decide⟩,
   ⟨0, 4, 0, _,
     on.modPorts fun q => { q with packets := [{ port := 4, tag := 0, window := 0, gen := 0, off := 0, data := [], fwdid := 1, last := true, early := false, first := 0, again := true }] },
     _, rfl, rfl, by decide⟩,
   ⟨0, 1, _,
     on.modPorts fun q => { q with packets := [{ port := 4, tag := 0, window := 0, gen := 0, off := 0, data := [], fwdid := 1, last := true, early := false, first := 0, hold := true }] },
     _, rfl, rfl, by decide⟩,
   ⟨0, 1, _,
     on.modPorts fun q => { q with packets := [{ port := 4, tag := 0, window := 0, gen := 0, off := 0, data := [], fwdid := 1, last := true, early := false, first := 0, again := true }] },
     _, rfl, rfl, by decide⟩,
   ⟨0, 1, _,
     on.modPorts fun q => { q with packets := [{ port := 4, tag := 0, window := 0, gen := 0, off := 0, data := [], fwdid := 1, last := true, early := false, first := 0 }] },
     _, rfl, rfl, by decide⟩⟩

theorem wit_PeerMessagesComplete_part4 :
  ∃ (t : Nat) (port : Nat) (window : Nat) (w : Window) (s : State) (u : State), u = s.at_ t ∧ w = u.window port window ∧
    w.prev.isSome = true ∧ w.graceEnd ≤ u.now :=
  ⟨0, 4, 0, _, on.modPorts fun q => { q with windows := { dflt := {}, cells := [(256, { prev := some {} })] } }, _, rfl, rfl, by decide⟩

theorem wit_PeerCommandsComplete :
  (∃ (h : MbHdr) (node : Nat) (s : State) (v : State), s.takes h { opcode := 0xC0F0, ld := false, fm := .module, len := [10] } ∧ (node ≠ 0 ∧
    node ≤ 65535) ∧ v = s.modPorts (fun q => { q with node := node })) ∧
  (∃ (h : MbHdr) (port : Nat) (window : Nat) (w : PeerWin) (old : Window) (s : State),
    s.takes h { opcode := 0xC0F1, ld := false, fm := .module, len := [32] } ∧ (((port = 4 ∨ port = 5)) ∧ window < 64 ∧ w.len % 65536 = 0 ∧
    w.len ≠ 0 ∧ w.len ≤ 64 * MiB * MiB ∧ w.dir ≤ 1 ∧ w.ld ≤ 15) ∧ old = s.window port window ∧
    ((old.act.enable = true → w.dir = old.act.dir))) ∧
  (∃ (h : MbHdr) (port : Nat) (window : Nat) (w : Window) (w' : Window) (s : State) (v : State) (x : State) (y : State),
    s.takes h { opcode := 0xC0F2, ld := false, fm := .module, len := [10] } ∧ (((port = 4 ∨ port = 5)) ∧ window < 64) ∧
    w = s.window port window ∧
    w' = { act := w.shadow, shadow := w.shadow, gen := (w.gen + 1) % 256, prev := (if w.act.dir = 1 ∧ w.act.enable = true ∧ w.shadow.dir = 1 then some w.act else none), graceEnd := s.now + (s.portAt port).grace * us } ∧
    v = s.setWindow port window w' ∧
    x = (if w.shadow.ld != w.act.ld || w.shadow.dir != 0 then (v.unbind fun x => x.port == port && x.window == window).modResult fun r => { r with ranges := r.ranges.map fun x => if x.peer = some (port, window) then { x with peer := none } else x } else v) ∧
    y = (x.port.packets.filter fun k => k.port == port && k.window == window && k.hold).foldl State.resend x) ∧
  (∃ (h : MbHdr) (port : Nat) (window : Nat) (w : Window) (s : State),
    s.takes h { opcode := 0xC0F3, ld := true, fm := .module, len := [10] } ∧ (((port = 4 ∨ port = 5)) ∧ window < 64) ∧
    w = s.window port window ∧ ((h.src < 16 → w.act.ld = h.src ∧ (w.act.len ≠ 0 ∨ w.act.enable = true)))) ∧
  (∃ (h : MbHdr) (dpa : Nat) (port : Nat) (window : Nat) (offset : Nat) (b : Nat) (w : WinDesc) (s : State),
    s.takes h { opcode := 0xC0F4, ld := true, fm := .no, len := [32] } ∧ dpa % 65536 = 0 ∧ s.bufAt h.src dpa = some b ∧
    (((port = 4 ∨ port = 5)) ∧ window < 64) ∧ w = (s.window port window).act ∧ w.dir = 0 ∧ w.enable = true ∧ w.ld = h.src ∧
    offset % 64 = 0 ∧ offset + 64 * 512 ≤ w.len) ∧
  (∃ (h : MbHdr) (dpa : Nat) (b : Nat) (s : State), s.takes h { opcode := 0xC0F5, ld := true, fm := .no, len := [16] } ∧ dpa % 65536 = 0 ∧
    s.bufAt h.src dpa = some b ∧ ((∀ f ∈ s.port.fwds, f.buf = b → f.early = true → f.settled = true))) :=
  ⟨⟨⟨16, 255, 0, 10⟩, 65535, on, _, ⟨by decide, by decide⟩, by decide, rfl⟩,
   ⟨⟨16, 255, 0, 32⟩, 4, 63, { dir := 1, ld := 15, node := 9, enable := true, base := 0, len := 65536 }, _, on, ⟨by decide, by decide⟩,
     by decide, rfl, by decide⟩,
   ⟨⟨16, 255, 0, 10⟩, 4, 63, _, _, on, _, _, _, ⟨by decide, by decide⟩, by decide, rfl, rfl, rfl, rfl, rfl⟩,
   ⟨⟨16, 255, 0, 10⟩, 4, 63, _, on, ⟨by decide, by decide⟩, by decide, rfl, by decide⟩,
   ⟨⟨0, 0, 0, 32⟩, 268435456, 4, 0, 32768, _, _,
     (armed .idle).modPorts fun q => { q with windows := { dflt := {}, cells := [(256, { act := { dir := 0, enable := true, node := 9, base := 0, len := 65536 } })] } },
     ⟨by decide, by decide⟩, by decide, rfl, by decide, rfl, by decide⟩,
   ⟨⟨0, 0, 0, 16⟩, 268435456, _, armed .idle, ⟨by decide, by decide⟩, by decide, rfl, by decide⟩⟩

theorem wit_ModuleComplete_part1 :
  (∃ (h : MbHdr) (s : State), s.takes h { opcode := 0xC000, ld := true, fm := .module }) ∧
  (∃ (h : MbHdr) (s : State), s.takes h { opcode := 0xC001, ld := false, fm := .module }) ∧
  (∃ (h : MbHdr) (p : Part) (img : Bytes) (s : State) (v : State),
    s.takes h { opcode := 0xC010, ld := false, fm := .module, bg := p.final, len := [], lenFrom := some 32 } ∧
    h.len = 32 + p.data.length ∧ s.takePart h.src 0xC010 p = .whole v img ∧ img.length = p.total) ∧
  (∃ (h : MbHdr) (o : OutReq) (s : State), s.takes h { opcode := 0xC011, ld := true, fm := .any, len := [16] } ∧ o.first = 0) ∧
  (∃ (h : MbHdr) (s : State), s.takes h { opcode := 0xC012, ld := false, fm := .module }) ∧
  (∃ (h : MbHdr) (s : State), s.takes h { opcode := 0xC013, ld := false, fm := .module } ∧ s.boot.stagedReq.isSome = true) :=
  ⟨⟨⟨0, 0, 0, 8⟩, on, ⟨by decide, by decide⟩⟩,
   ⟨⟨16, 255, 0, 8⟩, on, ⟨by decide, by decide⟩⟩,
   ⟨⟨16, 255, 0, 40⟩, whole 8, _, on, _, ⟨by decide, by decide⟩, by decide, rfl, by decide⟩,
   ⟨⟨0, 0, 0, 16⟩, ⟨0, 0⟩, on, ⟨by decide, by decide⟩, by decide⟩,
   ⟨⟨16, 255, 0, 8⟩, on, ⟨by decide, by decide⟩⟩,
   ⟨⟨16, 255, 0, 8⟩, on.modBoot fun b => { b with stagedReq := some [] }, ⟨by decide, by decide⟩, by decide⟩⟩

theorem wit_ModuleComplete_part2 :
  (∃ (h : MbHdr) (s : State), s.takes h { opcode := 0xC013, ld := false, fm := .module } ∧ s.boot.stagedReq = none) ∧
  (∃ (h : MbHdr) (ld : Nat) (s : State) (v : State), s.takes h { opcode := 0xC014, ld := true, fm := .ld } ∧ ld = whoOf h ∧
    (((s.ext.keys.get ld).isSome = true → s.ownsAny ld = false)) ∧
    v = ((if (s.ext.keys.get ld).isSome then s.newKey.2.endKey ld else s.newKey.2).setKey ld (some s.newKey.1))) ∧
  (∃ (h : MbHdr) (ld : Nat) (s : State), s.takes h { opcode := 0xC015, ld := true, fm := .ld } ∧ ld = whoOf h ∧ s.ownsAny ld = false ∧
    (s.ext.keys.get ld).isSome = true) ∧
  (∃ (h : MbHdr) (region : Nat) (p : Option Word) (s : State), s.takes h { opcode := 0xC020, ld := true, fm := .anyLd, len := [9] } ∧
    region < 8 ∧ p = s.regionProfile (whoOf h) region) ∧
  (∃ (h : MbHdr) (region : Nat) (ld : Nat) (profile : Word) (s : State) (v : State),
    s.takes h { opcode := 0xC021, ld := false, fm := .anyLd, len := [24] } ∧ ld = h.target ∧ (region < 8 ∧ s.profileOk ld profile = true ∧
    s.inRegion ld region = []) ∧ v = { s with ext := { s.ext with profiles := s.ext.profiles.set (8 * ld + region) (some profile) } }) ∧
  (∃ (h : MbHdr) (o : OutReq) (s : State), s.takes h { opcode := 0xC022, ld := true, fm := .ld, len := [16] } ∧ o.first = 0) :=
  ⟨⟨⟨16, 255, 0, 8⟩, on, ⟨by decide, by decide⟩, by decide⟩,
   ⟨⟨0, 0, 0, 8⟩, _, { on with ext := { on.ext with exts := [] } }, _, ⟨by decide, by decide⟩, rfl, by decide, rfl⟩,
   ⟨⟨0, 0, 0, 8⟩, _, { on with ext := { on.ext with exts := [] } }, ⟨by decide, by decide⟩, rfl, by decide⟩,
   ⟨⟨0, 0, 0, 9⟩, 7, _, on, ⟨by decide, by decide⟩, by decide, rfl⟩,
   ⟨⟨16, 0, 0, 24⟩, 7, _, 0, { on with ext := { on.ext with exts := [] } }, _, ⟨by decide, by decide⟩, rfl, by decide, rfl⟩,
   ⟨⟨0, 0, 0, 16⟩, ⟨0, 0⟩, on, ⟨by decide, by decide⟩, by decide⟩⟩

theorem wit_EndpointComplete_part1 :
  (∃ (ld : Nat) (k : Nat) (d : HdmSetup) (v : Hdm) (s : State) (u : State), (s.ioOk ld = true ∧ ld < 16 ∧ k < 8) ∧
    v = { base := d.base, size := d.hpaSize, ways := d.ways, gran := d.gran, target := d.target, skip := d.skip, bi := d.bi } ∧
    u = s.modCxe (fun c => { c with hdm := c.hdm.set (8 * ld + k) v }) ∧ waysOk d.ways = true ∧ granOk d.gran = true ∧
    d.hpaSize % (granule * d.ways) = 0 ∧ ((∀ i < k, (s.hdmAt ld i).committed = true)) ∧
    u.dbase ld k + v.dpaSize ≤ (s.ext.parts.get ld).dpaSize * granule ∧ ((d.bi = true → (s.cxe.lds.get ld).biEnable = true))) ∧
  (∃ (ld : Nat) (k : Nat) (d : HdmSetup) (v : Hdm) (s : State) (u : State), (s.ioOk ld = true ∧ ld < 16 ∧ k < 8) ∧
    v = { base := d.base, size := d.hpaSize, ways := d.ways, gran := d.gran, target := d.target, skip := d.skip, bi := d.bi } ∧
    u = s.modCxe (fun c => { c with hdm := c.hdm.set (8 * ld + k) v }) ∧
    (waysOk d.ways = false ∨ granOk d.gran = false ∨ d.hpaSize % (granule * d.ways) ≠ 0)) ∧
  (∃ (t : Nat) (port : Nat) (s : State) (u : State), u = s.at_ t ∧ u.lit = true ∧ port < 4) ∧
  (∃ (t : Nat) (s : State) (u : State), u = s.at_ t ∧ u.ioOk fmSrc = true) ∧
  (∃ (t : Nat) (ld : Nat) (s : State) (u : State), u = s.at_ t ∧ u.ioOk ld = true ∧ ld < 16) ∧
  (∃ (t : Nat) (ld : Nat) (s : State) (u : State), u = s.at_ t ∧ u.ldOn ld = true ∧ u.lit = true ∧ ld = fmSrc) :=
  ⟨⟨0, 0, ⟨0, 4294967296, 2, 256, 1, 0, true⟩, _, on, _, by decide, rfl, rfl, by decide⟩,
   ⟨0, 7, ⟨0, 0, 5, 100, 0, 0, false⟩, _, on, _, by decide, rfl, rfl, by decide⟩,
   ⟨0, 3, on, _, rfl, by decide⟩,
   ⟨0, on, _, rfl, by decide⟩,
   ⟨0, 0, on, _, rfl, by decide⟩,
   ⟨0, 16, on, _, rfl, by decide⟩⟩

theorem wit_EndpointComplete_part2 :
  (∃ (t : Nat) (ld : Nat) (s : State) (u : State), u = s.at_ t ∧ u.ldOn ld = true ∧ u.lit = true ∧ ld < 16) ∧
  (∃ (port : Nat) (s : State), s.lit = true ∧ port < 4) ∧
  (∃ (ld : Nat) (s : State), s.ioOk ld = true) ∧
  (∃ (port : Nat) (e : FlitErr) (header : Bytes) (s : State) (a : State) (b : State) (c : State) (d : State), (s.lit = true ∧ port < 4) ∧
    a = (s.takeWords port e.words).onPort port (fun s ld => s.aerCor ld 0) ∧
    b = (if e.uncorrectable then a.onPort port (fun s ld => s.rasCor ld 6 header) else a) ∧
    c = (if e.rollover then b.onPort port (fun s ld => s.aerCor ld 8) else b) ∧
    d = (if e.crcThreshold then c.onPort port (fun s ld => s.rasCor ld 2 header) else c)) ∧
  (∃ (ld : Nat) (s : State) (v : State), s.ioOk ld = true ∧
    v = s.modCxe (fun c => { c with bme := c.bme.set ld false, dmas := c.dmas.map fun d => if d.ld = ld then { d with drop := true } else d })) ∧
  (∃ (ld : Nat) (s : State), s.ioOk ld = true) :=
  ⟨⟨0, 0, on, _, rfl, by decide⟩,
   ⟨3, on, by decide⟩,
   ⟨0, on, by decide⟩,
   ⟨0, ⟨[], true, true, true, true⟩, [], on, _, _, _, _, by decide, rfl, rfl, rfl, rfl⟩,
   ⟨0, on, _, by decide, rfl⟩,
   ⟨0, on, by decide⟩⟩

theorem wit_EndpointComplete_part3 :
  (∃ (t : Nat) (ld : Nat) (tag : Nat) (d : Dma) (s : State) (u : State) (v : State), u = s.at_ t ∧ (u.up = true ∧ u.ldOn ld = true) ∧
    u.cxe.dmas.find? (fun d => d.ld = ld ∧ d.tag = tag) = some d ∧
    v = u.modCxe (fun c => { c with dmas := c.dmas.filter fun x => ¬ (x.ld = ld ∧ x.tag = tag) }) ∧ d.drop = false) ∧
  (∃ (t : Nat) (ld : Nat) (tag : Nat) (d : Dma) (s : State) (u : State) (v : State), u = s.at_ t ∧ (u.up = true ∧ u.ldOn ld = true) ∧
    u.cxe.dmas.find? (fun d => d.ld = ld ∧ d.tag = tag) = some d ∧
    v = u.modCxe (fun c => { c with dmas := c.dmas.filter fun x => ¬ (x.ld = ld ∧ x.tag = tag) }) ∧ d.drop = true ∧
    (v.cxe.lds.get ld).flrUntil ≠ 0 ∧ (v.cxe.lds.get ld).flrUntil < v.now) ∧
  (∃ (t : Nat) (ld : Nat) (tag : Nat) (s : State) (u : State), u = s.at_ t ∧ u.up = true ∧ u.ldOn ld = true ∧
    u.cxe.dmas.find? (fun d => d.ld = ld ∧ d.tag = tag) = none) ∧
  (∃ (t : Nat) (ld : Nat) (tag : Nat) (d : Dma) (s : State) (u : State), u = s.at_ t ∧ u.cxe.dmas.find? (fun d => d.ld = ld ∧
    d.tag = tag ∧ d.drop = false) = some d ∧ d.start + (u.cxe.lds.get ld).timeout ≤ u.now) ∧
  (∃ (t : Nat) (port : Nat) (s : State) (u : State) (v : State), u = s.at_ t ∧ (u.up = true ∧ port < 4 ∧ (u.cxe.ports.get port).ide = 2) ∧
    v = (u.onPort port fun s ld => s.rasUnc ld 16 []).modCxe (fun c => { c with ports := c.ports.upd port fun p => { p with ideFail := bump 16 p.ideFail 1 } })) ∧
  (∃ (ld : Nat) (session : Nat) (s : State) (ks : List (BitVec 256)) (u : State), s.ioOk ld = true ∧ s.ideLd (ldPort ld) = some ld ∧
    ((∃ x ∈ s.cxe.sessions, x.ld = ld ∧ x.id = session)) ∧ ks = (List.range 4).map (Config.ideKey s.freeCtr) ∧
    u = { s with freeCtr := s.freeCtr + 1 }) :=
  ⟨⟨0, 0, 0, _, on.modCxe fun c => { c with dmas := [{ ld := 0, tag := 0, start := 0 }] }, _, _, rfl, by decide, rfl, rfl, by decide⟩,
   ⟨0, 0, 0, _,
     on.modCxe fun c => { c with dmas := [{ ld := 0, tag := 0, start := 0, drop := true }], lds := { dflt := { flrUntil := 1 } } }, _, _,
     rfl, by decide, rfl, rfl, by decide⟩,
   ⟨0, 0, 0, on, _, rfl, by decide⟩,
   ⟨0, 0, 0, _, on.modCxe fun c => { c with dmas := [{ ld := 0, tag := 0, start := 0 }] }, _, rfl, rfl, by decide⟩,
   ⟨0, 0, on.modCxe fun c => { c with ports := { dflt := { ide := 2 } } }, _, _, rfl, by decide, rfl⟩,
   ⟨_, _, on.modCxe fun c => { c with sessions := [{ ld := 0, id := 0, key := 0 }] }, _, _, by decide, rfl, ⟨_, .head _, rfl, rfl⟩, rfl,
     rfl⟩⟩

theorem wit_EndpointComplete_part4 :
  (∃ (ld : Nat) (regs : List (Nat × (Nat × Nat) × Word)) (s : State), (s.ioOk ld = true ∧ ld < 16) ∧
    regs = (s.ext.parts.get ld).regions.zipIdx.filterMap (fun p => (s.regionProfile ld p.2).map fun w => (p.2, p.1, w))) ∧
  (∃ (ld : Nat) (index : Nat) (s : State), s.ioOk ld = true ∧ ld < 16 ∧ index = 0) ∧
  (∃ (ld : Nat) (index : Nat) (s : State), s.ioOk ld = true ∧ ld < 16 ∧ 1 ≤ index ∧ index ≤ 8) ∧
  (∃ (ld : Nat) (id : Nat) (s : State), (s.ioOk ld = true ∧ ld < 16 ∧ (s.cxe.sessions.filter fun x => x.ld = ld).length < 2) ∧
    id = (lowestFree ((s.cxe.sessions.filter fun x => x.ld = ld).map Session.id) 2).getD 0) ∧
  (∃ (ld : Nat) (s : State), ((s.phase = .running ∨ s.phase = .booting)) ∧ s.ldOn ld = true) :=
  ⟨⟨0, _, on, by decide, rfl⟩,
   ⟨0, 0, on, by decide⟩,
   ⟨0, 8, on, by decide⟩,
   ⟨0, _, on, by decide, rfl⟩,
   ⟨0, on, by decide⟩⟩

theorem wit_PowerComplete_part1 :
  (∃ (t : Nat) (g : Nat) (s : State) (u : State), u = s.at_ t ∧ u.clock.target = some g ∧ u.up = true ∧ u.clock.changeAt ≤ u.now) ∧
  (∃ (t : Nat) (avg : Nat) (s : State) (u : State) (v : State), u = s.at_ t ∧ (u.up = true ∧ u.power.limit < avg) ∧
    v = u.modPower (fun p => { p with avg := avg }) ∧ ((v.power.taken = [] ∨ v.power.lastStep + 2 * ms ≤ v.now)) ∧ v.nextGov = none) ∧
  (∃ (t : Nat) (avg : Nat) (s : State) (u : State) (v : State) (k : _), u = s.at_ t ∧ (u.up = true ∧ u.power.limit < avg) ∧
    v = u.modPower (fun p => { p with avg := avg }) ∧ ((v.power.taken = [] ∨ v.power.lastStep + 2 * ms ≤ v.now)) ∧ v.nextGov = some k) ∧
  (∃ (t : Nat) (avg : Nat) (k : Nat) (rest : List Nat) (s : State) (u : State) (v : State), u = s.at_ t ∧ (u.up = true ∧
    avg + 20 ≤ u.power.limit) ∧ v = u.modPower (fun p => { p with avg := avg }) ∧ v.power.taken = k :: rest ∧
    v.power.lastStep + 50 * ms ≤ v.now ∧ v.power.lastUndo + 50 * ms ≤ v.now) ∧
  (∃ (h : MbHdr) (limit : Nat) (s : State), s.takes h { opcode := 0xC0E0, ld := false, fm := .module, len := [10] } ∧ 450 ≤ limit ∧
    limit ≤ 850) ∧
  (∃ (h : MbHdr) (s : State), s.takes h { opcode := 0xC0E1, ld := false, fm := .module }) :=
  ⟨⟨0, _, on.modClock fun c => { c with target := some 1 }, _, rfl, rfl, by decide⟩,
   ⟨0, 451, on.modPower fun p => { p with limit := 450, taken := [1, 1, 1, 1, 2, 2, 2, 2, 2, 2, 2, 2, 2, 2, 3, 3, 3, 4, 4] }, _, _, rfl,
     by decide, rfl, by decide, by decide +kernel⟩,
   ⟨0, 851, on, _, _, _, rfl, by decide, rfl, by decide, rfl⟩,
   ⟨0, 830, _, _, on.modPower fun p => { p with taken := [1] }, _, _, rfl, by decide, rfl, rfl, by decide⟩,
   ⟨⟨16, 255, 0, 10⟩, 450, on, ⟨by decide, by decide⟩, by decide⟩,
   ⟨⟨16, 255, 0, 8⟩, on, ⟨by decide, by decide⟩⟩⟩

theorem wit_PowerComplete_part2 :
  (∃ (t : Nat) (unit : Nat) (k : Nat) (part : Part17) (temp : Int) (s : State) (u : State) (v : State) (w : State), u = s.at_ t ∧
    (u.up = true ∧ unit < partUnits part) ∧ v = u.setTemp part unit temp ∧
    w = (if (u.health.sensors.get (sensorKey part unit)).temp < warnAt part ∧
    warnAt part ≤ temp then v.post fmSrc 1 (thermalEvent unit temp 0) else v) ∧ (stepAt part ≤ temp ∧
    ((u.health.lastTherm = 0 ∨ u.health.lastTherm + ms ≤ u.now))) ∧ w.thermKind part = some k) ∧
  (∃ (t : Nat) (unit : Nat) (key : Nat) (part : Part17) (temp : Int) (s : State) (u : State) (v : State), u = s.at_ t ∧ (u.up = true ∧
    unit < partUnits part) ∧ key = sensorKey part unit ∧ v = u.setTemp part unit temp ∧ ((∃ y ∈ v.health.steps, y.part = part ∧
    y.unit = unit)) ∧ temp < retreatAt part ∧ (v.health.sensors.get key).lastHot + 100 * ms ≤ u.now ∧
    (v.health.sensors.get key).lastUndo + 100 * ms ≤ u.now) ∧
  (∃ (h : MbHdr) (s : State), s.takes h { opcode := 0xC0E3, ld := false, fm := .module }) :=
  ⟨⟨0, 0, _, .hub, 120, on, _, _, _, rfl, by decide, rfl, rfl, by decide, rfl⟩,
   ⟨0, _, _, .hub, 20, on.modHealth fun h => { h with steps := [{ part := .hub, unit := 0, kind := 2 }] }, _, _, rfl, by decide, rfl, rfl,
     ⟨_, .head _, rfl, rfl⟩, by decide⟩,
   ⟨⟨16, 255, 0, 8⟩, on, ⟨by decide, by decide⟩⟩⟩

theorem wit_HealthComplete_part1 :
  (∃ (t : Nat) (slice : Nat) (unit : Nat) (every : Nat) (r : SliceRec) (s : State) (u : State) (v : State), u = s.at_ t ∧
    r = u.sliceRec slice unit ∧ every = u.health.intervals.getD slice 0 ∧ (u.up = true ∧ sliceHas slice unit = true ∧ every ≠ 0 ∧
    r.marked = false ∧ u.unitFailedNow (sliceUtype slice) unit = false ∧
    ((r.due.isSome = true ∨ r.lastDone + every * (60 * sec) ≤ u.powered))) ∧
    v = u.modSlice slice unit (fun r => { r with due := some (r.due.getD u.now) })) ∧
  (∃ (t : Nat) (slice : Nat) (unit : Nat) (d : Nat) (r : SliceRec) (s : State) (u : State), u = s.at_ t ∧ r = u.sliceRec slice unit ∧
    r.due = some d ∧ u.up = true ∧ sliceHas slice unit = true ∧ r.marked = false ∧ d + 600 * sec ≤ u.now) ∧
  (∃ (t : Nat) (slice : Nat) (unit : Nat) (d : Nat) (r : SliceRec) (s : State) (u : State), u = s.at_ t ∧ r = u.sliceRec slice unit ∧
    r.due = some d ∧ u.up = true ∧ slice < 3 ∧ r.marked = true ∧ (u.stoneAt unit).state = .draining ∧
    (u.stoneAt unit).running.isSome = true ∧ d + u.health.deferral * (60 * sec) ≤ u.now) ∧
  (∃ (t : Nat) (slice : Nat) (unit : Nat) (o : SliceOutcome) (failed : Bool) (s : State) (u : State) (v : State) (w : State) (x : State),
    u = s.at_ t ∧ (sliceHas slice unit = true ∧ u.up = true ∧ u.phase ≠ .booting ∧ (u.sliceRec slice unit).running = true ∧
    ((o = .margin → slice ≠ 2 ∧ slice ≠ 4))) ∧ failed = u.unitFailedNow (sliceUtype slice) unit ∧
    v = u.modSlice slice unit (fun r => { r with lastDone := u.powered, due := none, marked := false, running := false, requested := false }) ∧
    w = (v.noteSlice slice unit o).judge slice unit (u.unitRec (sliceUtype slice) unit).state failed o ∧ w.phase ≠ .booting ∧
    x = ((if sliceUtype slice = 1 then w.afterSlice slice unit else w.clearUnit (sliceUtype slice) unit).endSliceJobs slice unit failed o).pumpStone.caps) ∧
  (∃ (h : MbHdr) (utype : Nat) (unit : Nat) (slice : Nat) (s : State),
    s.takes h { opcode := 0xC0A8, ld := false, fm := .module, len := [13], bg := true } ∧ sliceHas slice unit = true ∧
    sliceUtype slice = utype ∧ s.unitBusy utype unit = false ∧ s.unitFailedNow utype unit = true ∧ utype ≠ 6) ∧
  (∃ (h : MbHdr) (utype : Nat) (unit : Nat) (slice : Nat) (s : State),
    s.takes h { opcode := 0xC0A8, ld := false, fm := .module, len := [13], bg := true } ∧ sliceHas slice unit = true ∧
    sliceUtype slice = utype ∧ s.unitBusy utype unit = false ∧ (s.unitFailedNow utype unit = false ∨ utype = 6)) :=
  ⟨⟨0, 0, 0, _, _, on.modSlice 0 0 fun r => { r with due := some 0 }, _, _, rfl, rfl, rfl, by decide, rfl⟩,
   ⟨0, 0, 0, _, _, on.modSlice 0 0 fun r => { r with due := some 0 }, _, rfl, rfl, rfl, by decide⟩,
   ⟨0, 2, 0, _, _,
     withStone (on.modSlice 2 0 fun r => { r with due := some 0, marked := true }) { state := .draining, running := some aPiece }, _, rfl,
     rfl, rfl, by decide⟩,
   ⟨0, 4, 0, .pass, _, on.modSlice 4 0 fun r => { r with due := some 0, marked := true, running := true }, _, _, _, _, rfl, by decide,
     rfl, rfl, rfl, by decide, rfl⟩,
   ⟨⟨16, 255, 0, 13⟩, 1, 0, 2, on.setUnit 1 0 fun r => { r with state := .failed }, ⟨by decide, by decide⟩, by decide⟩,
   ⟨⟨16, 255, 0, 13⟩, 6, 7, 6, on, ⟨by decide, by decide⟩, by decide⟩⟩

theorem wit_HealthComplete_part2 :
  (∃ (h : MbHdr) (o : OutReq) (s : State), s.takes h { opcode := 0xC0A9, ld := false, fm := .module, len := [16] } ∧ o.first = 0) ∧
  (∃ (h : MbHdr) (slice : Nat) (interval : Nat) (s : State), s.takes h { opcode := 0xC0AA, ld := false, fm := .module, len := [16] } ∧
    slice < 7 ∧ ((interval ≠ 0 → 10 ≤ interval ∧ interval ≤ 10080))) ∧
  (∃ (h : MbHdr) (limit : Nat) (s : State), s.takes h { opcode := 0xC0AB, ld := false, fm := .module, len := [12] } ∧ limit ≠ 0 ∧
    limit ≤ 120) ∧
  (∃ (h : MbHdr) (unit : Nat) (s : State), s.takes h { opcode := 0xC0AC, ld := false, fm := .module, len := [10], bg := true } ∧
    unit ≤ 11 ∧ s.stackOk unit = true ∧ (s.stackAt unit).retrainPoint = none) ∧
  (∃ (t : Nat) (s : State) (u : State), u = s.at_ t ∧ u.up = true ∧ ((u.health.sampleAt = 0 ∨ u.health.sampleAt + 600 * sec ≤ u.now))) ∧
  (∃ (t : Nat) (waf30 : Nat) (margins : List Nat) (s : State) (u : State) (v : State), u = s.at_ t ∧ (u.up = true ∧
    ((u.health.planAt = 0 ∨ u.health.planAt + 86400 * sec ≤ u.now))) ∧
    v = ((((List.range 4).foldl State.planDie u).planHub.planFlash waf30).planLasers margins).modHealth (fun h => { h with plans := bump 16 h.plans 1, planAt := u.now })) :=
  ⟨⟨⟨16, 255, 0, 16⟩, ⟨0, 0⟩, on, ⟨by decide, by decide⟩, by decide⟩,
   ⟨⟨16, 255, 0, 16⟩, 6, 10080, on, ⟨by decide, by decide⟩, by decide⟩,
   ⟨⟨16, 255, 0, 12⟩, 120, on, ⟨by decide, by decide⟩, by decide⟩,
   ⟨⟨16, 255, 0, 10⟩, 11, on, ⟨by decide, by decide⟩, by decide⟩,
   ⟨0, on, _, rfl, by decide⟩,
   ⟨0, 0, [], on, _, _, rfl, by decide, rfl⟩⟩

theorem wit_HealthComplete_part3 :
  (∃ (h : MbHdr) (o : OutReq) (s : State), s.takes h { opcode := 0xC0AD, ld := false, fm := .module, len := [16] } ∧ o.first = 0) ∧
  (∃ (h : MbHdr) (s : State), s.takes h { opcode := 0xC0AE, ld := false, fm := .module }) :=
  ⟨⟨⟨16, 255, 0, 16⟩, ⟨0, 0⟩, on, ⟨by decide, by decide⟩, by decide⟩,
   ⟨⟨16, 255, 0, 8⟩, on, ⟨by decide, by decide⟩⟩⟩

theorem wit_StandardComplete_part1 :
  (∃ (h : MbHdr) (opcode : Nat) (c : Cmd) (s : State), (s.rings h.src = true ∧ opcode ∉ commandsOf h.src) ∧
    c = { opcode := opcode, ld := false, fm := .no, vendor := decide (0xC000 ≤ opcode ∧ opcode ≤ 0xC0FF) }) ∧
  (∃ (h : MbHdr) (s : State), s.takes h (stdCmd 0x4000 true .no)) ∧
  (∃ (h : MbHdr) (s : State), s.takes h (stdCmd 0x0400 true .module)) ∧
  (∃ (h : MbHdr) (offset : Nat) (length : Nat) (s : State), s.takes h (stdCmd 0x0401 true .module) ∧
    offset + length ≤ (effectsLog h.src).length) ∧
  (∃ (h : MbHdr) (log : Nat) (l : EvLog) (s : State), s.takes h (stdCmd 0x0100 true .module) ∧ log ≤ 4 ∧
    l = s.mbox.logs.get (h.src * 8 + log)) ∧
  (∃ (h : MbHdr) (log : Nat) (all : Bool) (handles : List Nat) (l : EvLog) (s : State) (logs : Tbl EvLog),
    s.takes h (stdCmd 0x0101 true .module) ∧ (log ≤ 4 ∧ h.len = 6 + 2 * handles.length) ∧ l = s.mbox.logs.get (h.src * 8 + log) ∧
    ((all = false → ∀ x ∈ handles, ∃ e ∈ l.recs, e.handle = x)) ∧
    logs = s.mbox.logs.set (h.src * 8 + log) (l.keep fun e => !all && !handles.contains e.handle)) :=
  ⟨⟨⟨0, 0, 0, 0⟩, 49407, _, on, by decide, rfl⟩,
   ⟨⟨0, 0, 0, 0⟩, on, ⟨by decide, by decide⟩⟩,
   ⟨⟨0, 0, 0, 0⟩, on, ⟨by decide, by decide⟩⟩,
   ⟨⟨0, 0, 0, 24⟩, 0, 4, on, ⟨by decide, by decide⟩, by decide +kernel⟩,
   ⟨⟨0, 0, 0, 1⟩, 4, _, on, ⟨by decide, by decide⟩, by decide, rfl⟩,
   ⟨⟨0, 0, 0, 8⟩, 0, false, [0], _, { on with mbox := { logs := { dflt := {}, cells := [(0, { recs := [Event.of 1001 0 1 []] })] } } }, _,
     ⟨by decide, by decide⟩, by decide, rfl, (by rintro - x h; cases h with | head => exact ⟨_, .head _, rfl⟩ | tail _ h => cases h),
     rfl⟩⟩

theorem wit_StandardComplete_part2 :
  (∃ (h : MbHdr) (s : State), s.takes h (stdCmd 0x0102 true .module)) ∧
  (∃ (h : MbHdr) (modes : List Nat) (s : State) (pol : Tbl Nat), s.takes h (stdCmd 0x0103 true .module) ∧ (modes.length = h.len ∧
    ((∀ m ∈ modes, m ≤ 1))) ∧ pol = modes.zipIdx.foldl (fun (t : Tbl Nat) p => t.set (h.src * 8 + p.2) p.1) s.mbox.policy) ∧
  (∃ (h : MbHdr) (s : State), s.takes h (stdCmd 0x0200 true .module)) ∧
  (∃ (h : MbHdr) (slot : Nat) (p : Part) (img : Bytes) (c : Cmd) (s : State) (v : State), c = stdCmd 0x0201 false .module ∧
    s.takes h { c with len := [], lenFrom := some 32 } ∧ h.len = 128 + p.data.length ∧ s.takePart h.src 0x0201 p = .whole v img ∧
    img.length = p.total ∧ ((slot = 1 ∨ slot = 2)) ∧ ((v.boot.recovery = false → slot ≠ v.boot.running + 1))) ∧
  (∃ (h : MbHdr) (slot : Nat) (s : State), s.takes h (stdCmd 0x0202 false .module) ∧ ((slot = 1 ∨ slot = 2))) ∧
  (∃ (h : MbHdr) (s : State), s.takes h (stdCmd 0x0300 true .module)) :=
  ⟨⟨⟨0, 0, 0, 0⟩, on, ⟨by decide, by decide⟩⟩,
   ⟨⟨0, 0, 0, 5⟩, [1, 1, 1, 1, 1], on, _, ⟨by decide, by decide⟩, by decide, rfl⟩,
   ⟨⟨0, 0, 0, 0⟩, on, ⟨by decide, by decide⟩⟩,
   ⟨⟨16, 0, 0, 136⟩, 2, whole 8, _, _, on, _, rfl, ⟨by decide, by decide⟩, by decide, rfl, by decide⟩,
   ⟨⟨16, 0, 0, 2⟩, 2, on, ⟨by decide, by decide⟩, by decide⟩,
   ⟨⟨0, 0, 0, 0⟩, on, ⟨by decide, by decide⟩⟩⟩

theorem wit_StandardComplete_part3 :
  (∃ (h : MbHdr) (s : State), s.takes h (stdCmd 0x0301 true .module)) ∧
  (∃ (h : MbHdr) (s : State), s.takes h (stdCmd 0x4200 true .module)) :=
  ⟨⟨⟨0, 0, 0, 8⟩, on, ⟨by decide, by decide⟩⟩,
   ⟨⟨0, 0, 0, 0⟩, on, ⟨by decide, by decide⟩⟩⟩

theorem wit_MediaCommandsComplete_part1 :
  (∃ (h : MbHdr) (dpa : Nat) (lines : Nat) (hit : List (Nat × Nat)) (s : State), s.takes h (stdCmd 0x4300 true .no) ∧
    s.badDpa h.src dpa = false ∧ hit = ((s.poisoned h.src).filter fun x => dpa < x.1 + 512 ∧ x.1 < dpa + 64 * lines).foldr insertDpa []) ∧
  (∃ (h : MbHdr) (dpa : Nat) (e : Extent) (s : State), s.takes h (stdCmd 0x4301 true .no) ∧ s.poisonExt h.src dpa = some e ∧
    ((s.blkOf e dpa ∈ s.mbox.injected ∨ (s.mbox.injected.filter fun b => (s.extFor h.src (b / 128)).isSome).length < 64))) ∧
  (∃ (h : MbHdr) (dpa : Nat) (e : Extent) (s : State), s.takes h (stdCmd 0x4302 true .no) ∧ s.poisonExt h.src dpa = some e) ∧
  (∃ (h : MbHdr) (first : Nat) (count : Nat) (n : Nat) (s : State), s.takes h (stdCmd 0x4800 true .no) ∧ first < 8 ∧
    n = min count (8 - first)) ∧
  (∃ (h : MbHdr) (count : Nat) (start : Nat) (es : List Extent) (out : List Extent) (s : State), s.takes h (stdCmd 0x4801 true .no) ∧
    es = s.dcExtents h.src ∧ start ≤ es.length ∧ out = (es.drop start).take count) ∧
  (∃ (h : MbHdr) (s : State), s.takes h (stdCmd 0x5600 false .module)) :=
  ⟨⟨⟨0, 0, 0, 16⟩, 0, 8, _, on, ⟨by decide, by decide⟩, by decide, rfl⟩,
   ⟨⟨0, 0, 0, 8⟩, 268435392, _, on, ⟨by decide, by decide⟩, (Option.some_get (by decide +kernel)).symm, by decide +kernel⟩,
   ⟨⟨0, 0, 0, 72⟩, 268435392, _, on, ⟨by decide, by decide⟩, (Option.some_get (by decide +kernel)).symm⟩,
   ⟨⟨0, 0, 0, 2⟩, 7, 9, _, on, ⟨by decide, by decide⟩, by decide, rfl⟩,
   ⟨⟨0, 0, 0, 8⟩, 0, 3, _, _, on, ⟨by decide, by decide⟩, rfl, by decide, rfl⟩,
   ⟨⟨16, 0, 0, 0⟩, on, ⟨by decide, by decide⟩⟩⟩

theorem wit_MediaCommandsComplete_part2 :
  (∃ (h : MbHdr) (host : Nat) (first : Nat) (count : Nat) (n : Nat) (s : State), s.takes h (stdCmd 0x5601 false .module) ∧ (host < 16 ∧
    s.ldOn host = true ∧ first < 8) ∧ n = min count (8 - first)) ∧
  (∃ (h : MbHdr) (host : Nat) (count : Nat) (start : Nat) (es : List Extent) (out : List Extent) (s : State),
    s.takes h (stdCmd 0x5603 false .module) ∧ (host < 16 ∧ s.ldOn host = true) ∧ es = s.dcExtents host ∧ start ≤ es.length ∧
    out = (es.drop start).take count) ∧
  (∃ (h : MbHdr) (s : State), s.takes h (stdCmd 0x5400 false .module)) ∧
  (∃ (h : MbHdr) (start : Nat) (limit : Nat) (n : Nat) (s : State), s.takes h (stdCmd 0x5401 false .module) ∧ start < 16 ∧
    n = min limit (16 - start)) ∧
  (∃ (h : MbHdr) (s : State), s.takes h (stdCmd 0x5408 false .module)) ∧
  (∃ (h : MbHdr) (s : State) (l : List Nat), s.takes h (stdCmd 0x5409 false .module) ∧ l.length ≤ 16 ∧ h.len = 2 + l.length ∧ ((∀ x ∈ l,
    x ≤ 255))) :=
  ⟨⟨⟨16, 0, 0, 4⟩, 0, 7, 9, _, on, ⟨by decide, by decide⟩, by decide, rfl⟩,
   ⟨⟨16, 0, 0, 12⟩, 0, 0, 3, _, _, on, ⟨by decide, by decide⟩, by decide, rfl, by decide, rfl⟩,
   ⟨⟨16, 0, 0, 0⟩, on, ⟨by decide, by decide⟩⟩,
   ⟨⟨16, 0, 0, 2⟩, 15, 16, _, on, ⟨by decide, by decide⟩, by decide, rfl⟩,
   ⟨⟨16, 0, 0, 2⟩, on, ⟨by decide, by decide⟩⟩,
   ⟨⟨16, 0, 0, 3⟩, on, [255], ⟨by decide, by decide⟩, by decide⟩⟩

theorem wit_ClocksComplete_part1 :
  (∃ (t : Nat) (s : State) (u : State) (v : State), u = s.at_ t ∧ u.phase = .off ∧
    v = u.powerUpReset.modClock (fun c => { c with vaux := true, fault := true, thermtrip := false, xa := .stopped, xb := .stopped, source := 0, lostCore := false, inBrake := false, fastDead := false, lostSource := none, lossAt := [], stopped := [] })) ∧
  (∃ (t : Nat) (xdly : Nat) (s : State) (u : State) (v : State), u = s.at_ t ∧ u.phase = .osc ∧
    v = u.modClock (fun c => { c with xdly := xdly % 8, xa := .starting, xaStart := u.now })) ∧
  (∃ (t : Nat) (crystal : Nat) (s : State) (u : State) (v : State) (w : State), u = s.at_ t ∧ (crystal < 2 ∧
    u.crystal crystal = .starting ∧ u.clock.fastDead = false ∧ u.crystalStart crystal + u.xDelay + 100 * us ≤ u.now) ∧
    v = (if crystal = 0 then (u.setCrystal crystal .qualified).startXb else u.setCrystal crystal .qualified) ∧
    w = v.modClock (fun c => { c with source := crystal }) ∧ u.phase ≠ .qualifying ∧ u.phase ≠ .braked) ∧
  (∃ (t : Nat) (crystal : Nat) (s : State) (u : State) (v : State) (w : State), u = s.at_ t ∧ (crystal < 2 ∧
    u.crystal crystal = .starting ∧ u.clock.fastDead = false ∧ u.crystalStart crystal + u.xDelay + 100 * us ≤ u.now) ∧
    v = (if crystal = 0 then (u.setCrystal crystal .qualified).startXb else u.setCrystal crystal .qualified) ∧
    w = v.modClock (fun c => { c with source := crystal }) ∧ (u.phase = .qualifying ∨ u.phase = .braked)) ∧
  (∃ (t : Nat) (crystal : Nat) (s : State) (u : State) (v : State), u = s.at_ t ∧ (crystal < 2 ∧ u.crystal crystal = .starting ∧
    u.crystalStart crystal + 5 * u.xDelay ≤ u.now) ∧ v = (u.setCrystal crystal .failed).fallback crystal) ∧
  (∃ (t : Nat) (crystal : Nat) (s : State) (u : State) (v : State), u = s.at_ t ∧ (crystal < 2 ∧ u.crystal crystal = .qualified) ∧
    v = u.setCrystal crystal .failed ∧ (u.clock.source ≠ crystal ∨ u.sourceLive = false)) :=
  ⟨⟨0, { on with phase := .off }, _, _, rfl, by decide, rfl⟩,
   ⟨0, 7, { on with phase := .osc }, _, _, rfl, by decide, rfl⟩,
   ⟨0, 1, on.modClock fun c => { c with xb := .starting }, _, _, _, rfl, by decide, rfl, rfl, by decide⟩,
   ⟨0, 0, { (on.modClock fun c => { c with xa := .starting }) with phase := .qualifying }, _, _, _, rfl, by decide, rfl, rfl, by decide⟩,
   ⟨0, 1, on.modClock fun c => { c with xb := .starting }, _, _, rfl, by decide, rfl⟩,
   ⟨0, 1, on, _, _, rfl, by decide, rfl, by decide⟩⟩

theorem wit_ClocksComplete_part2 :
  (∃ (t : Nat) (crystal : Nat) (s : State) (u : State) (v : State), u = s.at_ t ∧ (crystal < 2 ∧ u.crystal crystal = .qualified) ∧
    v = u.setCrystal crystal .failed ∧ u.clock.source = crystal ∧ u.sourceLive = true ∧ u.crystal (1 - crystal) = .qualified) ∧
  (∃ (t : Nat) (crystal : Nat) (s : State) (u : State) (v : State), u = s.at_ t ∧ (crystal < 2 ∧ u.crystal crystal = .qualified) ∧
    v = u.setCrystal crystal .failed ∧ u.clock.source = crystal ∧ u.sourceLive = true ∧ u.crystal (1 - crystal) ≠ .qualified) ∧
  (∃ (t : Nat) (s : State) (u : State), u = s.at_ t ∧ u.phase ≠ .off ∧ u.phase ≠ .hubFailed) ∧
  (∃ (t : Nat) (s : State) (u : State), u = s.at_ t ∧ u.clock.pwrgd = false) ∧
  (∃ (t : Nat) (held : Nat) (s : State) (u : State) (v : State) (w : State), u = s.at_ t ∧ 100 * us ≤ held ∧
    v = u.modClock (fun c => { c with perst := true }) ∧ (v.phase ≠ .braked ∧ v.phase ≠ .tripped ∧ v.powered48 = true) ∧
    w = (v.flushCold.modDeep fun d => { d with loss := false }).modClock (fun c => { c with fault := false, rstCause := 1, perstCount := bump 16 c.perstCount 1 })) ∧
  (∃ (t : Nat) (s : State) (u : State), u = (s.at_ t).modClock (fun c => { c with perst := false }) ∧ u.phase = .inReset ∧
    u.clock.pwrgd = true ∧ u.clock.vin48 = true) :=
  ⟨⟨0, 0, on, _, _, rfl, by decide, rfl, by decide⟩,
   ⟨0, 0, on.modClock fun c => { c with xb := .failed }, _, _, rfl, by decide, rfl, by decide⟩,
   ⟨0, on, _, rfl, by decide⟩,
   ⟨0, on.modClock fun c => { c with pwrgd := false }, _, rfl, by decide⟩,
   ⟨0, 100000, on, _, _, _, rfl, by decide, rfl, by decide, rfl⟩,
   ⟨0, { on with phase := .inReset }, _, rfl, by decide⟩⟩

theorem wit_ClocksComplete_part3 :
  (∃ (t : Nat) (s : State) (u : State), u = (s.at_ t).modClock (fun c => { c with perst := false }) ∧ u.phase ≠ .inReset) ∧
  (∃ (t : Nat) (s : State) (u : State) (v : State), u = s.at_ t ∧ u.phase ≠ .hubFailed ∧
    v = (if u.railsOn then u.loseMain else u).modClock (fun c => { c with vaux := false, fault := false, thermtrip := false, rails := false, xa := .stopped, xb := .stopped, lostCore := false, inBrake := false, fastDead := false })) ∧
  (∃ (t : Nat) (unit : Nat) (part : Part17) (temp : Int) (s : State) (u : State) (v : State), u = s.at_ t ∧ (unit < partUnits part ∧
    tripAt part ≤ temp ∧ u.powered48 = true) ∧
    v = ((u.setTemp part unit temp).flushCold.modDeep fun d => { d with loss := false, bank := .charging }).modClock (fun c => { c with thermtrip := true, rails := false, rstCause := 3, trips := bump 16 c.trips 1 })) ∧
  (∃ (t : Nat) (domain : Nat) (s : State) (u : State) (v : State), u = s.at_ t ∧
    ((u.phase = .booting ∨ u.phase = .running ∨ u.phase = .recovery)) ∧
    v = u.modClock (fun c => { c with lockLoss := bump 16 c.lockLoss 1 }) ∧ domain < 3) ∧
  (∃ (t : Nat) (domain : Nat) (unit : Nat) (s : State) (u : State) (v : State), u = s.at_ t ∧
    ((u.phase = .booting ∨ u.phase = .running ∨ u.phase = .recovery)) ∧
    v = u.modClock (fun c => { c with lockLoss := bump 16 c.lockLoss 1 }) ∧ domain = 5 ∧ unit < 6) ∧
  (∃ (t : Nat) (domain : Nat) (unit : Nat) (s : State) (u : State) (v : State) (recent : List (Nat × Nat)) (w : State), u = s.at_ t ∧
    ((u.phase = .booting ∨ u.phase = .running ∨ u.phase = .recovery)) ∧
    v = u.modClock (fun c => { c with lockLoss := bump 16 c.lockLoss 1 }) ∧ (((domain = 3 ∨ domain = 4)) ∧ unit < 4) ∧ recent = (unit,
    v.now) :: v.clock.lossAt.filter (fun x => v.now < x.2 + sec) ∧
    w = (v.modClock fun c => { c with lossAt := recent, stopped := (domain, unit) :: c.stopped.filter (· ≠ (domain, unit)) }).rerunDie unit) :=
  ⟨⟨0, on, _, rfl, by decide⟩,
   ⟨0, on, _, _, rfl, by decide, rfl⟩,
   ⟨0, 0, .hub, 200, on, _, _, rfl, by decide, rfl⟩,
   ⟨0, 2, on, _, _, rfl, by decide, rfl, by decide⟩,
   ⟨0, 5, 5, on, _, _, rfl, by decide, rfl, by decide⟩,
   ⟨0, 4, 3, on, _, _, _, _, rfl, by decide, rfl, by decide, rfl, rfl⟩⟩

theorem wit_ClocksComplete_part4 :
  (∃ (t : Nat) (domain : Nat) (s : State) (u : State) (v : State), u = s.at_ t ∧ (domain < 3 ∧ u.phase = .braked ∧
    u.clock.lostCore = true) ∧ v = u.modClock (fun c => { c with lostCore := false })) ∧
  (∃ (t : Nat) (domain : Nat) (unit : Nat) (s : State) (u : State) (v : State), u = s.at_ t ∧ 3 ≤ domain ∧
    v = u.modClock (fun c => { c with stopped := c.stopped.filter (· ≠ (domain, unit)) })) ∧
  (∃ (t : Nat) (kind : Nat) (unit : Nat) (s : State) (u : State), u = s.at_ t ∧ u.up = true ∧ u.mayGate kind unit = true ∧ (kind,
    unit) ∉ u.clock.gated ∧ u.blockIdle kind unit = true) ∧
  (∃ (t : Nat) (kind : Nat) (unit : Nat) (s : State) (u : State), u = s.at_ t ∧ u.up = true ∧ u.mayGate kind unit = true ∧ (kind,
    unit) ∉ u.clock.gated ∧ u.blockIdle kind unit = false) ∧
  (∃ (t : Nat) (kind : Nat) (unit : Nat) (since : Nat) (s : State) (u : State), u = s.at_ t ∧ (kind, unit, since) ∈ u.clock.asked ∧
    since + 2276 ≤ u.now) :=
  ⟨⟨0, 2, { (on.modClock fun c => { c with lostCore := true }) with phase := .braked }, _, _, rfl, by decide, rfl⟩,
   ⟨0, 3, 0, on, _, _, rfl, by decide, rfl⟩,
   ⟨0, 3, 63, on, _, rfl, by decide⟩,
   ⟨0, 1, 7,
     on.modStore fun st => { st with merges := [{ blk := 0, opener := 0, eid := 0, data := [], valid := 1, lastWrite := 0, passed := true }] },
     _, rfl, by decide⟩,
   ⟨0, 1, 0, 0, on.modClock fun c => { c with asked := [(1, 0, 0)] }, _, rfl, by decide⟩⟩

theorem wit_ModuleLifeComplete_part1 :
  (∃ (t : Nat) (cause : Nat) (s : State) (u : State), u = s.at_ t ∧ u.phase = .booting ∧ cause = u.fullCause ∧ u.clock.p + ms ≤ u.now) ∧
  (∃ (t : Nat) (cause : Nat) (s : State) (u : State), u = s.at_ t ∧ u.phase = .running ∧ u.millerReady = false ∧ cause = u.boot.cause ∧
    2 ≤ cause) ∧
  (∃ (t : Nat) (s : State) (u : State), u = s.at_ t ∧ u.up = true ∧ u.millerReady = true ∧ u.boot.serviced + sec ≤ u.now) ∧
  (∃ (t : Nat) (s : State) (u : State) (slot : Nat), u = s.at_ t ∧ (u.up = true ∧ u.millerReady = true ∧ u.boot.trial = true ∧
    u.boot.mountedAt + 600 * sec ≤ u.now) ∧ slot = u.boot.running) ∧
  (∃ (t : Nat) (s : State) (u : State), u = s.at_ t ∧ u.up = true) ∧
  (∃ (t : Nat) (stack : Nat) (s : State) (u : State), u = s.at_ t ∧ u.up = true ∧ stack < 12) :=
  ⟨⟨0, _, { on with phase := .booting }, _, rfl, by decide, rfl, by decide⟩,
   ⟨0, 2, { (on.modBoot fun b => { b with cause := 2 }) with millerReady := false }, _, rfl, by decide⟩,
   ⟨0, on, _, rfl, by decide⟩,
   ⟨0, on.modBoot fun b => { b with trial := true }, _, _, rfl, by decide, rfl⟩,
   ⟨0, on, _, rfl, by decide⟩,
   ⟨0, 11, on, _, rfl, by decide⟩⟩

theorem wit_ModuleLifeComplete_part2 :
  (∃ (t : Nat) (stack : Nat) (s : State) (u : State), u = s.at_ t ∧ u.up = true ∧ stack ∈ u.near.rebuilding) ∧
  (∃ (h : MbHdr) (v : BitVec 256) (s : State), s.takes h { opcode := 0xC0D0, ld := false, fm := .module } ∧
    v = Config.randomBits s.freeCtr) ∧
  (∃ (t : Nat) (n : Nonce) (s : State) (u : State), u = s.at_ t ∧ u.boot.nonce = some n ∧ n.since + 600 * sec ≤ u.now) ∧
  (∃ (h : MbHdr) (p : Part) (img : Bytes) (s : State) (v : State),
    s.takes h { opcode := 0xC0D1, ld := false, fm := .module, bg := p.final, len := [], lenFrom := some 32 } ∧
    h.len = 32 + p.data.length ∧ s.takePart h.src 0xC0D1 p = .whole v img ∧ img.length = p.total ∧ v.boot.debugOpen = false) ∧
  (∃ (h : MbHdr) (s : State), s.takes h { opcode := 0xC0D2, ld := false, fm := .module }) ∧
  (∃ (r : RegAccess) (s : State), s.regOk (regFn r) = true ∧ regBeacon r = true ∧ s.up = true) :=
  ⟨⟨0, 3, on.modNear fun n => { n with rebuilding := [3] }, _, rfl, by decide⟩,
   ⟨⟨16, 255, 0, 8⟩, _, on, ⟨by decide, by decide⟩, rfl⟩,
   ⟨0, _, on.modBoot fun b => { b with nonce := some { value := 0, since := 0 } }, _, rfl, rfl, by decide⟩,
   ⟨⟨16, 255, 0, 40⟩, whole 8, _, on, _, ⟨by decide, by decide⟩, by decide, rfl, by decide⟩,
   ⟨⟨16, 255, 0, 8⟩, on, ⟨by decide, by decide⟩⟩,
   ⟨⟨0, 0x4000, 8, 0⟩, on, by decide⟩⟩

theorem wit_ModuleLifeComplete_part3 :
  ∃ (r : RegAccess) (s : State), s.regOk (regFn r) = true ∧ regBeacon r = false ∧ regTaken r = true :=
  ⟨⟨0, 0x4400, 4, 0⟩, on, by decide⟩

theorem wit_CountersSaturate :
  (∃ (w : Nat) (n : Nat) (k : Nat), n + k ≤ 2 ^ w - 1) ∧
  (∃ (w : Nat) (n : Nat) (k : Nat), 2 ^ w - 1 < n + k) ∧
  (∃ (w : Nat) (n : Nat), n ≤ 2 ^ w - 1) ∧
  (∃ (w : Nat) (cur : Nat), cur < 2 ^ w) :=
  ⟨⟨16, 65534, 1, by decide⟩,
   ⟨16, 65535, 1, by decide⟩,
   ⟨16, 65535, by decide⟩,
   ⟨16, 65535, by decide⟩⟩

theorem wit_CodewordsCorrectSingles_part1 :
  (∃ (j : Nat), j < 8) ∧
  (∃ (j : Nat), j < 8) ∧
  (∃ (i : Nat), i < 64) ∧
  (∃ (syn : Nat), syn < 256 ∧ syn ≠ 0 ∧ popc 8 syn % 2 = 0) ∧
  (∃ (syn : Nat), (syn < 256 ∧ ((popc 8 syn = 5 ∨ popc 8 syn = 7))) ∧ syn ∉ hColumns) ∧
  (∃ (i : Nat), i < 72) :=
  ⟨⟨7, by decide⟩,
   ⟨7, by decide⟩,
   ⟨63, by decide⟩,
   ⟨3, by decide⟩,
   ⟨127, by decide, by decide +kernel⟩,
   ⟨71, by decide⟩⟩

theorem wit_CodewordsCorrectSingles_part2 :
  ∃ (i : Nat) (j : Nat), i < j ∧ j < 72 :=
  ⟨70, 71, by decide⟩

theorem wit_NearestEntryCoded :
  (∃ (src : Nat) (col : List Nat) (x : Int) (i : Nat) (j : Nat), col ≠ [] ∧ i = codeIdx src col x ∧ j < col.length) ∧
  (∃ (src : Nat) (col : List Nat) (x : Int) (i : Nat) (j : Nat), col ≠ [] ∧ i = codeIdx src col x ∧ j < i) ∧
  (∃ (src : Nat) (i : Nat) (data : Bytes) (v : Int) (z : Bool), i < (elemsOf src data).length ∧
    decodeElem src ((elemsOf src data).getD i 0) = .fin v z) ∧
  (∃ (s : State) (x : Extent) (e : Extent) (blk : Nat) (data : Bytes) (ts : TableSet) (cb : List (List Nat)), e = s.homeExt x blk ∧
    Prof.lossy e.profile = true ∧ data.all (· == 0) = false ∧ ts = s.tset e.profile ∧ ts.hasGen = true ∧ cb = ts.book ts.cur ∧
    boundOk (Prof.src e.profile) (Prof.bound e.profile) cb data = true) ∧
  (∃ (src : Nat) (rate : Nat) (payload : Bytes), isMx src = false ∧ payload.length = rateBytes rate) ∧
  (∃ (src : Nat) (payload : Bytes), isMx src = true ∧ payload.length = 256) :=
  ⟨⟨0, [0x3c00, 0x4000], 0, _, 1, by decide, rfl, by decide⟩,
   ⟨1, [0x3c00, 0x4000], (decodeElem 1 0x4000).val, 1, 0, by decide, by decide +kernel, by decide +kernel⟩,
   ⟨0, 0, zeros 512, _, _, by decide +kernel, rfl⟩,
   ⟨{ on with ext := { on.ext with exts := [{ eid := 3, ld := 0, base := 0, len := 268435456, owner := 0, ownerBase := 0, profile := 9, state := .active }] }, store := { sets := { dflt := {}, cells := [(0, { state := .ready, rate := 2, cols := 1, gen0 := [[0xBF80, 0x3F80]] })] } } },
     { eid := 3, ld := 0, base := 0, len := 268435456, owner := 0, ownerBase := 0, profile := 9, state := .active }, _, 0, [0x80,
     0x3F] ++ zeros 510, _, _, rfl, by decide, by decide +kernel, rfl, by decide, rfl, by decide +kernel⟩,
   ⟨0, 3, zeros (rateBytes 3), by decide, List.length_replicate⟩,
   ⟨6, zeros 256, by decide, List.length_replicate⟩⟩

theorem wit_BusySlotsDropGoLines :
  ∃ (g : GoWrite) (opcode : Nat) (b : Nat) (i : Instr) (e : Extent) (s : State) (u : State), i ∈ [Instr.gateNop g,
    .gateOpcodeReserved g opcode, .appendAttend g, .prefixAttach g, .chunkPrefill g, .prefixPublish g, .seqTruncate g, .graphSearch g,
    .distanceBatch g, .setIntersect g, .setUnion g, .setDifference g, .tenant g] ∧ (s.poisonSeen g.ld false).settleLeaving = u ∧
    u.up = true ∧ u.access g.ld g.dpa = .served e ∧ Prof.gate e.profile = true ∧ u.bufAt g.ld g.dpa = some b ∧ g.full = true ∧
    g.poison = false ∧
    (((u.slot b).state = .queued ∨ (u.slot b).state = .running ∨ (u.slot b).state = .checking ∨ (u.slot b).state = .cancelled)) :=
  ⟨goTo 1 0, 0, _, _, _, armed .queued, _, .head _, rfl, by decide, rfl, by decide, rfl, by decide⟩

theorem wit_UnarmedPositionsPoison :
  (∃ (port : Nat) (ldid : Nat) (hpa : Nat) (a : Nat) (bi : Bool) (e : Extent) (s : State) (v : State) (u : State),
    s.portServes port = true ∧ s.wakePort port = v ∧ v.ldidOk port ldid = true ∧ v.hdmDecode ldid hpa = some (a, bi) ∧
    v.boot.openSeq = 0 ∧ u = (if bi then v else v.settleLeaving) ∧ u.access ldid (a / 64 * 64) = .served e ∧ Prof.gate e.profile = true ∧
    u.bufAt ldid (a / 64 * 64) = none) ∧
  (∃ (port : Nat) (ldid : Nat) (hpa : Nat) (a : Nat) (bi : Bool) (e : Extent) (s : State) (v : State) (u : State) (w : State),
    s.portServes port = true ∧ s.wakePort port = v ∧ v.ldidOk port ldid = true ∧ v.hdmDecode ldid hpa = some (a, bi) ∧
    v.boot.openSeq = 0 ∧ v.settleLeaving = u ∧ (u.modGateLd ldid fun l => { l with unarmed := bump 16 l.unarmed 1 }) = w ∧
    v.access ldid (a / 64 * 64) = .served e ∧ u.access ldid (a / 64 * 64) = .served e ∧ Prof.gate e.profile = true ∧
    u.bufAt ldid (a / 64 * 64) = none) ∧
  (∃ (port : Nat) (ldid : Nat) (hpa : Nat) (a : Nat) (bi : Bool) (s : State) (v : State) (u : State), s.portServes port = true ∧
    s.wakePort port = v ∧ v.ldidOk port ldid = true ∧ v.hdmDecode ldid hpa = some (a, bi) ∧ v.boot.openSeq = 0 ∧ v.settleLeaving = u ∧
    ((∀ e : Extent, v.access ldid (a / 64 * 64) ≠ .served e)) ∧ u.access ldid (a / 64 * 64) = .leaving) ∧
  (∃ (port : Nat) (ldid : Nat) (hpa : Nat) (a : Nat) (bi : Bool) (s : State) (v : State) (u : State), s.portServes port = true ∧
    s.wakePort port = v ∧ v.ldidOk port ldid = true ∧ v.hdmDecode ldid hpa = some (a, bi) ∧ v.boot.openSeq = 0 ∧ v.settleLeaving = u ∧
    ((∀ e : Extent, v.access ldid (a / 64 * 64) ≠ .served e)) ∧ u.access ldid (a / 64 * 64) = .nowhere) ∧
  (∃ (port : Nat) (ldid : Nat) (hpa : Nat) (a : Nat) (bi : Bool) (s : State) (v : State) (u : State) (w : State),
    s.portServes port = true ∧ s.wakePort port = v ∧ v.ldidOk port ldid = true ∧ v.hdmDecode ldid hpa = some (a, bi) ∧
    v.boot.openSeq = 0 ∧ v.settleLeaving = u ∧ ((∀ e : Extent, v.access ldid (a / 64 * 64) ≠ .served e)) ∧
    u.access ldid (a / 64 * 64) = .leaving ∧ u.drop ldid (a / 64 * 64) true false = w) ∧
  (∃ (port : Nat) (ldid : Nat) (hpa : Nat) (a : Nat) (bi : Bool) (s : State) (v : State) (u : State) (w : State),
    s.portServes port = true ∧ s.wakePort port = v ∧ v.ldidOk port ldid = true ∧ v.hdmDecode ldid hpa = some (a, bi) ∧
    v.boot.openSeq = 0 ∧ v.settleLeaving = u ∧ ((∀ e : Extent, v.access ldid (a / 64 * 64) ≠ .served e)) ∧
    u.access ldid (a / 64 * 64) = .nowhere ∧ u.drop ldid (a / 64 * 64) true true = w) :=
  ⟨⟨0, 0, 268435456, _, _, _, on, _, _, by decide, rfl, by decide, rfl, by decide, rfl, rfl, by decide⟩,
   ⟨0, 0, 268435456, _, _, _, on, _, _, _, by decide, rfl, by decide, rfl, by decide, rfl, rfl, rfl, rfl, by decide⟩,
   ⟨0, 0, 0, _, _,
     { extsIn .releasing with store := { heldReads := [{ rid := 0, ld := 0, dpa := 0, eid := 0, sack := 0, blk := 0, line := 0, who := .cxl 0, why := .demand, cause := none, start := 0 }] } },
     _, _, by decide, rfl, by decide, rfl, by decide, rfl, not_served (by decide +kernel), by decide +kernel⟩,
   ⟨0, 0, 2147483584, _, _, on, _, _, by decide, rfl, by decide, rfl, by decide, rfl, not_served (by decide +kernel), by decide +kernel⟩,
   ⟨0, 0, 0, _, _,
     { extsIn .releasing with store := { heldReads := [{ rid := 0, ld := 0, dpa := 0, eid := 0, sack := 0, blk := 0, line := 0, who := .cxl 0, why := .demand, cause := none, start := 0 }] } },
     _, _, _, by decide, rfl, by decide, rfl, by decide, rfl, not_served (by decide +kernel), by decide +kernel, rfl⟩,
   ⟨0, 0, 2147483584, _, _, on, _, _, _, by decide, rfl, by decide, rfl, by decide, rfl, not_served (by decide +kernel),
     by decide +kernel, rfl⟩⟩

theorem wit_ResultReadsByState :
  (∃ (ld : Nat) (dpa : Nat) (line : Nat) (b : Nat) (e : Extent) (x : Slot) (s : State) (u : State), s.settleLeaving = u ∧ u.up = true ∧
    u.access ld dpa = .served e ∧ Prof.gate e.profile = true ∧ u.bufAt ld dpa = some b ∧ x = u.slot b ∧ line = dpa / 64 % 1024 ∧
    512 ≤ line ∧ x.state = .idle) ∧
  (∃ (ld : Nat) (dpa : Nat) (line : Nat) (b : Nat) (e : Extent) (x : Slot) (s : State) (u : State), s.settleLeaving = u ∧ u.up = true ∧
    u.access ld dpa = .served e ∧ Prof.gate e.profile = true ∧ u.bufAt ld dpa = some b ∧ x = u.slot b ∧ line = dpa / 64 % 1024 ∧
    512 ≤ line ∧ x.state = .ready ∧ (line - 512) ∉ x.bad ∧ x.rlines ≤ line - 512) ∧
  (∃ (ld : Nat) (dpa : Nat) (line : Nat) (b : Nat) (e : Extent) (x : Slot) (s : State) (u : State), s.settleLeaving = u ∧ u.up = true ∧
    u.access ld dpa = .served e ∧ Prof.gate e.profile = true ∧ u.bufAt ld dpa = some b ∧ x = u.slot b ∧ line = dpa / 64 % 1024 ∧
    512 ≤ line ∧ x.state = .ready ∧ (line - 512) ∈ x.bad) ∧
  (∃ (ld : Nat) (dpa : Nat) (line : Nat) (b : Nat) (e : Extent) (x : Slot) (s : State) (u : State), s.settleLeaving = u ∧ u.up = true ∧
    u.access ld dpa = .served e ∧ Prof.gate e.profile = true ∧ u.bufAt ld dpa = some b ∧ x = u.slot b ∧ line = dpa / 64 % 1024 ∧
    512 ≤ line ∧ (x.state = .failed ∨ x.state = .cancelled)) ∧
  (∃ (ld : Nat) (dpa : Nat) (line : Nat) (b : Nat) (e : Extent) (x : Slot) (s : State) (u : State), s.settleLeaving = u ∧ u.up = true ∧
    u.access ld dpa = .served e ∧ Prof.gate e.profile = true ∧ u.bufAt ld dpa = some b ∧ x = u.slot b ∧ line = dpa / 64 % 1024 ∧
    512 ≤ line ∧ x.state.busy = true ∧ (u.gate.reads.filter fun r => r.ld = ld).length < 1024) ∧
  (∃ (ld : Nat) (dpa : Nat) (line : Nat) (b : Nat) (e : Extent) (x : Slot) (s : State) (u : State), s.settleLeaving = u ∧ u.up = true ∧
    u.access ld dpa = .served e ∧ Prof.gate e.profile = true ∧ u.bufAt ld dpa = some b ∧ x = u.slot b ∧ line = dpa / 64 % 1024 ∧
    (512 ≤ line ∧ x.state.busy = true) ∧ 1024 ≤ (u.gate.reads.filter fun r => r.ld = ld).length) :=
  ⟨⟨0, 268468224, _, _, _, _, armed .idle, _, rfl, by decide, rfl, by decide, rfl, rfl, rfl, by decide⟩,
   ⟨0, 268468224, _, _, _, _, armed .ready, _, rfl, by decide, rfl, by decide, rfl, rfl, rfl, by decide⟩,
   ⟨0, 268468224, _, _, _, _,
     on.modGate fun g => { g with slots := { dflt := {}, cells := [(0, { state := .ready, eid := 1, dpa := 268435456, bad := [0] })] } },
     _, rfl, by decide, rfl, by decide, rfl, rfl, rfl, by decide⟩,
   ⟨0, 268468224, _, _, _, _, armed .cancelled, _, rfl, by decide, rfl, by decide, rfl, rfl, rfl, by decide⟩,
   ⟨0, 268468224, _, _, _, _, armed .checking, _, rfl, by decide, rfl, by decide, rfl, rfl, rfl, by decide⟩,
   ⟨0, 268468224, _, _, _, _,
     (armed .queued).modGate fun g => { g with reads := List.replicate 1024 { rid := 0, ld := 0, buf := 0, line := 512, tag := 0, start := 0 } },
     _, rfl, by decide, rfl, by decide, rfl, rfl, rfl, by decide, by decide +kernel⟩⟩

theorem wit_BadPeerPacketsCounted :
  (∃ (p : PeerHdr) (s : State), ((p.port = 4 ∨ p.port = 5)) ∧ s.carries p.port = true ∧ peerBad p = true) ∧
  (∃ (p : PeerHdr) (s : State) (u : State), s.heard p 3 u) :=
  ⟨⟨⟨4, 6, false, true, 0, 0, 1, 9, 0, 0, 0, 1, 0, 0⟩, on, by decide⟩,
   ⟨⟨4, 3, false, true, 0, 0, 1, 9, 0, 0, 0, 1, 0, 0⟩, on, _, ⟨by decide, by decide, by decide, rfl, rfl⟩⟩⟩

theorem wit_RegionProfilesChangeWhenEmpty :
  (∃ (h : MbHdr) (region : Nat) (ld : Nat) (profile : Word) (s : State),
    s.takes h { opcode := 0xC021, ld := false, fm := .anyLd, len := [24] } ∧ ld = h.target ∧ region < 8 ∧ s.profileOk ld profile = true ∧
    s.inRegion ld region = []) ∧
  (∃ (h : MbHdr) (region : Nat) (ld : Nat) (profile : Word) (s : State),
    s.takes h { opcode := 0xC021, ld := false, fm := .anyLd, len := [24] } ∧ ld = h.target ∧ region < 8 ∧ s.profileOk ld profile = true ∧
    s.inRegion ld region ≠ []) ∧
  (∃ (h : MbHdr) (host : Nat) (policy : Nat) (a : DcAdd) (c : Cmd) (s : State), s.takes h c ∧
    c = { opcode := 0x5604, ld := false, fm := .module, vendor := false } ∧ ((policy = 2 ∨ policy = 3)) ∧
    s.rangeFits host a.region a.base a.len = true ∧ s.regionProfile host a.region = none) :=
  ⟨⟨⟨16, 0, 0, 24⟩, 0, _, 0, { on with ext := { on.ext with exts := [] } }, ⟨by decide, by decide⟩, rfl, by decide⟩,
   ⟨⟨16, 0, 0, 24⟩, 0, _, 0, on, ⟨by decide, by decide⟩, rfl, by decide⟩,
   ⟨⟨16, 255, 0, 72⟩, 0, 2, ⟨0, 805306368, 268435456, 0, false, 0, 0⟩, _, on, ⟨by decide, by decide⟩, rfl, by decide⟩⟩

theorem wit_PoisonedReadsAtOnce :
  ∃ (port : Nat) (ldid : Nat) (hpa : Nat) (a : Nat) (dpa : Nat) (e : Extent) (s : State) (v : State) (u : State), s.portServes port = true ∧
    s.wakePort port = v ∧ v.ldidOk port ldid = true ∧ v.hdmDecode ldid hpa = some (a, false) ∧ v.boot.openSeq = 0 ∧ dpa = a / 64 * 64 ∧
    v.settleLeaving = u ∧ u.access ldid dpa = .served e ∧ Prof.gate e.profile = false ∧
    u.earlier ldid dpa (u.blkOf e dpa) u.store.nextRid = false ∧ u.mergesOf (u.blkOf e dpa) = [] ∧ u.entryAway (u.sackOf e dpa) = false ∧
    u.entryBad (u.sackOf e dpa) = false ∧ (u.sack (u.sackOf e dpa)).mst ≠ .unmapped ∧ (u.sack (u.sackOf e dpa)).mst ≠ .allocating ∧
    u.mayReach ldid e (u.sack (u.sackOf e dpa)) = true ∧ u.isPoison (u.blkOf e dpa) = true :=
  ⟨0, 0, 0, _, _, _, on.setSack 0 { mst := .deep, poison := true, tier := .t2, unwritten := 1 }, _, _, by decide, rfl, by decide, rfl,
     by decide, rfl, rfl, rfl, by decide⟩

theorem wit_WidestHealthyGroup :
  (∃ (s : State) (port : Nat) (ok : Nat → Bool), ((∀ n, ok n = !(s.laneAt port n).failed)) ∧
    ok 0 && ok 1 && ok 2 && ok 3 && ok 4 && ok 5 && ok 6 && ok 7) ∧
  (∃ (s : State) (port : Nat) (ok : Nat → Bool), ((∀ n, ok n = !(s.laneAt port n).failed)) ∧ (List.range 8).all ok = false ∧
    ok 0 && ok 1 && ok 2 && ok 3) ∧
  (∃ (s : State) (port : Nat) (ok : Nat → Bool), ((∀ n, ok n = !(s.laneAt port n).failed)) ∧ (List.range 8).all ok = false ∧
    (ok 0 && ok 1 && ok 2 && ok 3) = false ∧ ok 4 && ok 5 && ok 6 && ok 7) ∧
  (∃ (s : State) (port : Nat) (ok : Nat → Bool) (p : Nat), ((∀ n, ok n = !(s.laneAt port n).failed)) ∧ (List.range 8).all ok = false ∧
    (ok 0 && ok 1 && ok 2 && ok 3) = false ∧ (ok 4 && ok 5 && ok 6 && ok 7) = false ∧ p ∈ [0, 2, 4, 6] ∧ (ok p && ok (p + 1)) = true ∧
    ((∀ q ∈ [0, 2, 4, 6], q < p → (ok q && ok (q + 1)) = false))) ∧
  (∃ (s : State) (port : Nat) (ok : Nat → Bool) (n : _), ((∀ n, ok n = !(s.laneAt port n).failed)) ∧ (List.range 8).all ok = false ∧
    (ok 0 && ok 1 && ok 2 && ok 3) = false ∧ (ok 4 && ok 5 && ok 6 && ok 7) = false ∧ ((∀ q ∈ [0, 2, 4, 6],
    (ok q && ok (q + 1)) = false)) ∧ n < 8 ∧ ok n = true ∧ ((∀ m, m < n → ok m = false))) ∧
  (∃ (s : State) (port : Nat) (ok : Nat → Bool), ((∀ n, ok n = !(s.laneAt port n).failed)) ∧ (List.range 8).all ok = false ∧
    (ok 0 && ok 1 && ok 2 && ok 3) = false ∧ (ok 4 && ok 5 && ok 6 && ok 7) = false ∧ ((∀ q ∈ [0, 2, 4, 6],
    (ok q && ok (q + 1)) = false)) ∧ ((∀ n, n < 8 → ok n = false))) :=
  ⟨⟨on, 0, _, fun _ => rfl, by decide⟩,
   ⟨on.modPorts fun q => { q with lanes := { dflt := {}, cells := [(7, { failed := true })] } }, 0, _, fun _ => rfl, by decide⟩,
   ⟨on.modPorts fun q => { q with lanes := { dflt := {}, cells := [(0, { failed := true })] } }, 0, _, fun _ => rfl, by decide⟩,
   ⟨on.modPorts fun q => { q with lanes := { dflt := {}, cells := [(0, { failed := true }), (4, { failed := true })] } }, 0, _, 2,
     fun _ => rfl, by decide⟩,
   ⟨on.modPorts fun q => { q with lanes := { dflt := {}, cells := [(0, { failed := true }), (2, { failed := true }), (4, { failed := true }), (6, { failed := true })] } },
     0, _, 1, fun _ => rfl, by decide⟩,
   ⟨on.modPorts fun q => { q with lanes := { dflt := {}, cells := [(0, { failed := true }), (1, { failed := true }), (2, { failed := true }), (3, { failed := true }), (4, { failed := true }), (5, { failed := true }), (6, { failed := true }), (7, { failed := true })] } },
     0, _, fun _ => rfl, by decide⟩⟩

theorem wit_BeaconsStatePositions :
  (∃ (ld : Nat) (wheel : Nat) (size : Nat) (w : Nat) (aligned : Bool) (s : State), (s.up = true ∧ ld < 16 ∧ wheel < 16 ∧
    (s.cxe.lds.get ld).d3 = false) ∧ w = 16 * ld + wheel ∧ size = 8 ∧ aligned = true) ∧
  (∃ (ld : Nat) (wheel : Nat) (size : Nat) (w : Nat) (aligned : Bool) (s : State), (s.up = true ∧ ld < 16 ∧ wheel < 16 ∧
    (s.cxe.lds.get ld).d3 = false) ∧ w = 16 * ld + wheel ∧ ¬ (size = 8 ∧ aligned = true)) :=
  ⟨⟨0, 0, 8, _, true, on, by decide, rfl, by decide⟩,
   ⟨0, 0, 4, _, true, on, by decide, rfl, by decide⟩⟩

theorem wit_MailboxChecksInOrder :
  (∃ (h : MbHdr) (c : Cmd) (s : State), s.rings h.src = true ∧ s.permits h c = false) ∧
  (∃ (h : MbHdr) (c : Cmd) (s : State), s.rings h.src = true ∧ s.permits h c = true ∧ s.boot.openSeq = 0 ∧ c.bg = true ∧
    (s.job h.src).isSome = true) ∧
  (∃ (h : MbHdr) (c : Cmd) (s : State), s.rings h.src = true ∧ s.permits h c = true ∧ s.boot.openSeq = 0 ∧
    (c.bg = false ∨ s.job h.src = none) ∧ s.targetOk h c = false) ∧
  (∃ (h : MbHdr) (c : Cmd) (s : State), s.rings h.src = true ∧ s.permits h c = true ∧ s.boot.openSeq = 0 ∧
    (c.bg = false ∨ s.job h.src = none) ∧ s.targetOk h c = true ∧ c.store = true ∧ s.near.rebuilding ≠ []) :=
  ⟨⟨⟨16, 0, 0, 9⟩, { opcode := 0xC0B4, ld := true, fm := .no, len := [9], bg := true, store := true }, on, by decide⟩,
   ⟨⟨0, 0, 0, 9⟩, { opcode := 0xC0B4, ld := true, fm := .no, len := [9], bg := true, store := true },
     { on with mbox := { jobs := [(0, { opcode := 0xC0B4, cmd := .runDigest ⟨0, 0, 0, 9⟩ 0, start := 0, started := false, aborted := false })] } },
     by decide⟩,
   ⟨⟨0, 0, 0, 8⟩, { opcode := 0xC0B4, ld := true, fm := .no, len := [9], bg := true, store := true }, on, by decide⟩,
   ⟨⟨0, 0, 0, 9⟩, { opcode := 0xC0B4, ld := true, fm := .no, len := [9], bg := true, store := true },
     on.modNear fun n => { n with rebuilding := [3] }, by decide⟩⟩

theorem wit_IgnoredPositions :
  (∃ (ld : Nat) (wheel : Nat) (w : Nat) (turn : Nat) (layer : Nat) (k : Nat) (resv : Bool) (value : Word) (x : Wheel) (s : State),
    (s.up = true ∧ ld < 16 ∧ wheel < 16 ∧ (s.cxe.lds.get ld).d3 = false) ∧ w = 16 * ld + wheel ∧ x = s.wheel w ∧
    turn = value.toNat / 2 ^ 16 ∧ layer = value.toNat % 1024 ∧ resv = decide (value.toNat / 1024 % 64 ≠ 0) ∧
    k = (turn - 1) * x.n + layer ∧ x.state = .closed) ∧
  (∃ (ld : Nat) (wheel : Nat) (w : Nat) (turn : Nat) (layer : Nat) (k : Nat) (resv : Bool) (value : Word) (x : Wheel) (s : State),
    (s.up = true ∧ ld < 16 ∧ wheel < 16 ∧ (s.cxe.lds.get ld).d3 = false) ∧ w = 16 * ld + wheel ∧ x = s.wheel w ∧
    turn = value.toNat / 2 ^ 16 ∧ layer = value.toNat % 1024 ∧ resv = decide (value.toNat / 1024 % 64 ≠ 0) ∧
    k = (turn - 1) * x.n + layer ∧ x.state ≠ .closed ∧ ((turn = 0 ∨ x.n ≤ layer ∨ resv = true))) ∧
  (∃ (ld : Nat) (wheel : Nat) (w : Nat) (turn : Nat) (layer : Nat) (k : Nat) (resv : Bool) (value : Word) (x : Wheel) (s : State),
    (s.up = true ∧ ld < 16 ∧ wheel < 16 ∧ (s.cxe.lds.get ld).d3 = false) ∧ w = 16 * ld + wheel ∧ x = s.wheel w ∧
    turn = value.toNat / 2 ^ 16 ∧ layer = value.toNat % 1024 ∧ resv = decide (value.toNat / 1024 % 64 ≠ 0) ∧
    k = (turn - 1) * x.n + layer ∧ (x.state ≠ .closed ∧ turn ≠ 0 ∧ layer < x.n) ∧ resv = false ∧ x.placed = true ∧ k < x.k) ∧
  (∃ (ld : Nat) (wheel : Nat) (w : Nat) (turn : Nat) (layer : Nat) (k : Nat) (resv : Bool) (value : Word) (x : Wheel) (s : State),
    (s.up = true ∧ ld < 16 ∧ wheel < 16 ∧ (s.cxe.lds.get ld).d3 = false) ∧ w = 16 * ld + wheel ∧ x = s.wheel w ∧
    turn = value.toNat / 2 ^ 16 ∧ layer = value.toNat % 1024 ∧ resv = decide (value.toNat / 1024 % 64 ≠ 0) ∧
    k = (turn - 1) * x.n + layer ∧ (x.state ≠ .closed ∧ turn ≠ 0 ∧ layer < x.n) ∧ resv = false ∧ x.placed = true ∧ k = x.k) :=
  ⟨⟨0, 0, _, _, _, _, _, 65536, _, on, by decide, rfl, rfl, rfl, rfl, rfl, rfl, by decide⟩,
   ⟨0, 0, _, _, _, _, _, 8, _,
     on.modWheel 0 fun x => { x with state := .running, n := 8, placed := true, turn := 2, layer := 3, k := 11 }, by decide, rfl, rfl,
     rfl, rfl, rfl, rfl, by decide⟩,
   ⟨0, 0, _, _, _, _, _, (131072 + 2), _,
     on.modWheel 0 fun x => { x with state := .running, n := 8, placed := true, turn := 2, layer := 3, k := 11 }, by decide, rfl, rfl,
     rfl, rfl, rfl, rfl, by decide, rfl, by decide⟩,
   ⟨0, 0, _, _, _, _, _, (131072 + 3), _,
     on.modWheel 0 fun x => { x with state := .running, n := 8, placed := true, turn := 2, layer := 3, k := 11 }, by decide, rfl, rfl,
     rfl, rfl, rfl, rfl, by decide, rfl, by decide, rfl⟩⟩

theorem wit_LosslessBlocksReadBack :
  ∃ (data : Bytes), data.length = 512 :=
  ⟨zeros 512, List.length_replicate⟩

theorem wit_SackEntriesReadBack :
  (∃ (k : Sack), k.tier = k.mst.tier ∧ k.ldtag < 16 ∧ sizeLegal k.size = true ∧ k.slot < 2 ^ 33 ∧ k.stack < 12 ∧ k.frame < 2 ^ 23 ∧
    k.tier = .t2) ∧
  (∃ (k : Sack), k.tier = k.mst.tier ∧ k.ldtag < 16 ∧ sizeLegal k.size = true ∧ k.slot < 2 ^ 33 ∧ k.stack < 12 ∧ k.frame < 2 ^ 23 ∧
    k.tier = .t1) ∧
  (∃ (v : Nat), 10 ≤ v / 4 % 16) ∧
  (∃ (v : Nat) (m : Mst), mstOf (v / 4 % 16) = some m ∧ m.tier.code ≠ v % 4) :=
  ⟨⟨{ tier := .t2, mst := .deep, ldtag := 15, size := 3, slot := 8589934591, stack := 11, frame := 8388607 }, by decide⟩,
   ⟨{ tier := .t1, mst := .clean, ldtag := 15, size := 3, slot := 8589934591, stack := 11, frame := 8388607 }, by decide⟩,
   ⟨40, by decide⟩,
   ⟨8, _, rfl, by decide⟩⟩

theorem wit_SideRecordsReadBack :
  (∃ (r : SideRec), r.kind < 7 ∧ r.gen < 2 ∧ r.gran < 16 ∧ r.spoff < 2 ^ 40 ∧ r.resv = 0) ∧
  (∃ (v : Nat), v < 2 ^ 64) :=
  ⟨⟨{ kind := 6, gen := 1, prec := true, raw := true, gran := 15, spoff := 1099511627775 }, by decide⟩,
   ⟨18446744073709551615, by decide⟩⟩

theorem wit_GoLinesReadBack :
  (∃ (bs : Bytes), bs.length = 64) ∧
  (∃ (opcode : Nat) (g : GoLine), opcode < 2 ^ 16 ∧ g.turnlo < 2 ^ 8 ∧ g.layer < 1024 ∧ g.wheel < 16 ∧ g.seq < 2 ^ 16 ∧
    g.plines < 2 ^ 16 ∧ g.handle < 2 ^ 16 ∧ g.obj < 2 ^ 64 ∧ g.resv < 2 ^ 360) :=
  ⟨⟨List.replicate 64 255, by simp⟩,
   ⟨65535, ⟨true, true, 255, 1023, 15, 65535, 65535, 65535, 18446744073709551615, 2 ^ 360 - 1⟩, by decide⟩⟩

theorem wit_SchedulesReadBack :
  ∃ (sig : Nat) (n : Nat) (dlead : Nat) (dpaSize : Nat) (es : List SEntry), sig < 2 ^ 64 ∧ n ≤ 1024 ∧ dlead ≤ 16 ∧ es.length ≤ 65536 ∧
    layersRise es = true ∧ dpaSize ≤ 2 ^ 18 ∧ ((∀ e ∈ es, e.layer < n ∧ e.lead ≤ 16 ∧ e.action ≤ 3 ∧ e.die < 4 ∧
    (e.anydie = true → e.die = 0) ∧ 1 ≤ e.count ∧ e.count ≤ 65536 ∧ e.sack + e.count ≤ dpaSize * 4096)) :=
  ⟨0, 1024, 16, 262144, [{ layer := 1023, lead := 16, action := 3, die := 3, anydie := false, sack := 1073676288, count := 65536 }],
     by decide⟩

theorem wit_ReportingFrame :
  ∃ (i : Instr) (s : State) (t : State), onlyAnswers i = true ∧ exec i s = .next t :=
  ⟨.getModuleStatus ⟨16, 255, 0, 8⟩, on, _, by decide, rfl⟩

theorem wit_StoredDataFrame :
  ∃ (i : Instr) (s : State) (t : State), leavesData i = true ∧ exec i s = .next t :=
  ⟨.hubDieFailure 0, on, _, by decide, rfl⟩

theorem wit_ParamWriteFrame :
  ∃ (ld : Nat) (dpa : Nat) (data : Bytes) (enables : BitVec 64) (poison : Bool) (e : Extent) (s : State) (u : State) (t : State),
    (s.poisonSeen ld poison).settleLeaving = u ∧ u.up = true ∧ u.access ld dpa = .served e ∧ (Prof.gate e.profile = true ∧
    dpa / 64 % 1024 ≠ 0) ∧ exec (.gateParamWrite ld dpa data enables poison) s = .next t :=
  ⟨0, 268435520, [], 0, false, _, armed .idle, _, _, rfl, by decide, rfl, by decide, rfl⟩

theorem wit_BlockImagesReadBack :
  ∃ (s : State), s.memWf = true :=
  ⟨on, by decide⟩

theorem wit_SameLineOrder :
  (∃ (port : Nat) (ldid : Nat) (hpa : Nat) (a : Nat) (dpa : Nat) (e : Extent) (s : State) (v : State) (u : State),
    s.portServes port = true ∧ s.wakePort port = v ∧ v.ldidOk port ldid = true ∧ v.hdmDecode ldid hpa = some (a, false) ∧
    v.boot.openSeq = 0 ∧ dpa = a / 64 * 64 ∧ v.settleLeaving = u ∧ u.access ldid dpa = .served e ∧ Prof.gate e.profile = false ∧
    u.earlier ldid dpa (u.blkOf e dpa) u.store.nextRid = true) ∧
  (∃ (port : Nat) (ldid : Nat) (hpa : Nat) (a : Nat) (dpa : Nat) (e : Extent) (s : State) (v : State) (u : State),
    s.portServes port = true ∧ s.wakePort port = v ∧ v.ldidOk port ldid = true ∧ v.hdmDecode ldid hpa = some (a, false) ∧
    v.boot.openSeq = 0 ∧ dpa = a / 64 * 64 ∧ v.settleLeaving = u ∧ u.access ldid dpa = .served e ∧ Prof.gate e.profile = false ∧
    u.earlier ldid dpa (u.blkOf e dpa) u.store.nextRid = true ∧ ((∀ x ∈ u.store.heldWrites, x.wid < u.store.nextRid))) :=
  ⟨⟨0, 0, 0, _, _, _,
     { on with store := { heldReads := [{ rid := 0, ld := 0, dpa := 0, eid := 0, sack := 0, blk := 0, line := 0, who := .cxl 0, why := .demand, cause := none, start := 0 }], nextRid := 1 } },
     _, _, by decide, rfl, by decide, rfl, by decide, rfl, rfl, rfl, by decide, by decide +kernel⟩,
   ⟨0, 0, 0, _, _, _,
     { on with store := { heldReads := [{ rid := 0, ld := 0, dpa := 0, eid := 0, sack := 0, blk := 0, line := 0, who := .cxl 0, why := .demand, cause := none, start := 0 }], nextRid := 1 } },
     _, _, by decide, rfl, by decide, rfl, by decide, rfl, rfl, rfl, by decide, by decide +kernel, by decide⟩⟩

/-! ### Witnesses whose state is too large to evaluate -/

theorem cellGet_range' {α : Type} (d v : α) (k : Nat) : ∀ (n a : Nat), a ≤ k → k < a + n →
    cellGet d k ((List.range' a n).map fun b => (b, v)) = v := by
  intro n
  induction n with
  | zero => intro a h1 h2; omega
  | succ n ih =>
    intro a h1 h2
    rw [List.range'_succ, List.map_cons, cellGet]
    split
    · rfl
    · exact ih (a + 1) (by omega) (by omega)

/-- An EMPTY table set whose lossy extent holds `n` staged blocks. -/
def stagedFull (n : Nat) : State :=
  { on with store :=
    { sets := { dflt := {}, cells := [(0, { state := .empty, src := 1, cols := 1 })] }
      t2 := { dflt := {}, cells := (List.range' 1048576 n).map fun b => (b, { side := { kind := kStaged } }) } } }

theorem stagedFull_kind (n b : Nat) (h1 : 1048576 ≤ b) (h2 : b < 1048576 + n) : ((stagedFull n).curBlk b).side.kind = kStaged := by
  have h : ((stagedFull n).sack (b / 128)).inT1 (b % 128) = false := rfl
  unfold State.curBlk
  rw [h]
  show (cellGet ({} : StoredBlk) b ((List.range' 1048576 n).map fun b => (b, { side := { kind := kStaged } }))).side.kind = kStaged
  rw [cellGet_range' _ _ _ _ _ h1 h2]

theorem stagedFull_blks (n : Nat) (hn : n ≤ 524288) (e : Extent) (h : (stagedFull n).firstSack e = 8192) (hs : e.sacks = 4096) :
    (stagedFull n).stagedIn e = List.range' 1048576 n := by
  have hk : (stagedFull n).store.t2.keys = List.range' 1048576 n := by
    show (((List.range' 1048576 n).map fun b => (b, ({ side := { kind := kStaged } } : StoredBlk))).map Prod.fst) = _
    rw [List.map_map]; exact List.map_id _
  have h1 : (stagedFull n).store.t1.keys = [] := rfl
  unfold State.stagedIn State.blksOfExt State.blksIn
  rw [h, hs, hk, h1]
  dsimp only
  rw [List.filter_nil, List.nil_append]
  have h2 : (List.range' 1048576 n).filter (fun k => decide (8192 * 128 ≤ k) && decide (k < (8192 + 4096) * 128)) = List.range' 1048576 n := by
    rw [List.filter_eq_self]
    intro b hb
    have := List.mem_range'_1.1 hb
    simp; omega
  rw [h2]
  have h3 : (List.range' 1048576 n).filter (fun k => !([] : List Nat).contains k) = List.range' 1048576 n :=
    List.filter_eq_self.2 (fun _ _ => rfl)
  rw [h3, List.filter_eq_self]
  intro b hb
  have := List.mem_range'_1.1 hb
  rw [stagedFull_kind n b this.1 this.2]; rfl

theorem stagedFull_meets (n : Nat) (hn : n ≤ 524288) : ∃ (t set : Nat) (s u : State), u = s.at_ t ∧ u.up = true ∧
    (u.setAt set).state = .empty ∧ n ≤ (u.stagedOf set).length := by
  refine ⟨0, 0, stagedFull n, stagedFull n, rfl, rfl, rfl, ?_⟩
  have hs : (stagedFull n).spanOf 0 = [{ eid := 2, ld := 0, base := 536870912, len := 268435456, owner := 0, ownerBase := 536870912, profile := 17, state := .active }] := by rfl
  unfold State.stagedOf
  have hf : (stagedFull n).firstSack { eid := 2, ld := 0, base := 536870912, len := 268435456, owner := 0, ownerBase := 536870912, profile := 17, state := .active } = 8192 := by
    show 0 + (536870912 + (536870912 - 536870912)) / 65536 = 8192
    decide
  rw [hs, List.flatMap_cons, stagedFull_blks n hn _ hf (by decide)]
  simp

theorem wit_BolterComplete_0_0 : ∃ (t set : Nat) (s u : State), u = s.at_ t ∧ u.up = true ∧ (u.setAt set).state = .empty ∧
    131072 ≤ (u.stagedOf set).length := stagedFull_meets 131072 (by decide)

theorem wit_BolterComplete_10 : ∃ (h : MbHdr) (set : Nat) (image : Bytes) (cb : List (List Nat)) (s : State),
    s.takes h { opcode := 0xC044, ld := true, fm := .no, len := [32800] } ∧ s.seesSet h set = true ∧
    (s.setAt set).state ≠ .building ∧ (s.setAt set).state ≠ .recoding ∧ s.rebuilding set = false ∧
    codebookOf (s.setAt set).src (s.setAt set).rate (s.setAt set).cols image = some cb := by
  refine ⟨⟨0, 0, 0, 32800⟩, 0, List.replicate 32768 0,
    chunk (2 ^ idxBits 1 3) 1 (wordsOf (srcBits 1 / 8) (1 * 2 ^ idxBits 1 3) (List.replicate 32768 0)),
    { on with store := { sets := { dflt := {}, cells := [(0, { state := .empty, src := 1, rate := 3, cols := 1 })] } } },
    ⟨by decide, by decide⟩, by decide, by decide, by decide, by decide, ?_⟩
  show codebookOf 1 3 1 (List.replicate 32768 0) = _
  unfold codebookOf
  exact if_pos ⟨List.length_replicate, by rw [List.drop_replicate, List.all_replicate]; decide, by decide +kernel⟩

theorem usedSets_range (n : Nat) (h : n ≤ 4096) :
    ((List.range n).map fun b => (b, ({ free := false } : FlashBlk))).foldl (fun (a : List Nat) c =>
      let b := c.1 % 4096
      if a.contains b then a else a ++ [b]) [] = List.range n := by
  induction n with
  | zero => rfl
  | succ n ih =>
    rw [List.range_succ, List.map_append, List.foldl_append, ih (by omega)]
    have : n % 4096 = n := Nat.mod_eq_of_lt (by omega)
    simp [this]

/-- Superpage group 0 has `n` of its 4,096 block sets in use. -/
def nearlyFull (n : Nat) : State :=
  on.modDeep fun d => { d with blocks := { dflt := {}, cells := (List.range n).map fun b => (b, { free := false }) } }

theorem nearlyFull_used (n : Nat) (hn : n ≤ 4096) : (nearlyFull n).usedSets 0 = List.range n := by
  have : ∀ n, n ≤ 4096 → (((List.range n).map fun b => (b, ({ free := false } : FlashBlk))).filter fun c =>
      c.1 / 16384 % 16 == 0 && !c.2.free) = (List.range n).map fun b => (b, ({ free := false } : FlashBlk)) := by
    intro n hn
    rw [List.filter_eq_self]
    intro c hc
    obtain ⟨b, hb, rfl⟩ := List.mem_map.1 hc
    have := List.mem_range.1 hb
    simp; omega
  show List.foldl _ [] (((List.range n).map fun b => (b, ({ free := false } : FlashBlk))).filter fun c =>
    c.1 / 16384 % 16 == 0 && !c.2.free) = _
  rw [this n hn]
  exact usedSets_range n hn

theorem least_isSome (f : Nat → Nat) : ∀ (l : List Nat) (a : Nat), ∃ b, l.foldl (fun a b =>
    match a with | none => some b | some c => if f b < f c then some b else a) (some a) = some b := by
  intro l
  induction l with
  | nil => exact fun a => ⟨a, rfl⟩
  | cons x xs ih =>
    intro a
    rw [List.foldl_cons]
    by_cases h : f x < f a
    · simp only [h, if_true]; exact ih x
    · simp only [h, if_false]; exact ih a

theorem nearlyFull_meets (n : Nat) (hn : n + 1 ≤ 4096) : ∃ (t group b : Nat) (s u : State), u = s.at_ t ∧ u.up = true ∧ group < 16 ∧
    u.freeSets group = 4095 - n ∧ u.leastSet group (u.setValid group) (u.usedSets group) = some b := by
  have h : ∃ b, (nearlyFull (n + 1)).leastSet 0 ((nearlyFull (n + 1)).setValid 0) ((nearlyFull (n + 1)).usedSets 0) = some b := by
    rw [nearlyFull_used _ hn, List.range_succ_eq_map]
    unfold State.leastSet
    rw [List.filter_eq_self.2 (fun b _ => by rfl)]
    exact least_isSome _ _ _
  obtain ⟨b, hb⟩ := h
  refine ⟨0, 0, b, nearlyFull (n + 1), nearlyFull (n + 1), rfl, rfl, by decide, ?_, hb⟩
  unfold State.freeSets
  rw [nearlyFull_used _ hn, List.length_range]
  omega

theorem wit_DeepComplete_0 : ∃ (t group b : Nat) (s u : State), u = s.at_ t ∧ u.up = true ∧ group < 16 ∧
    100 * u.freeSets group < 2 * 4096 ∧ u.leastSet group (u.setValid group) (u.usedSets group) = some b := by
  obtain ⟨t, group, b, s, u, h1, h2, h3, h4, h5⟩ := nearlyFull_meets 4019 (by decide)
  exact ⟨t, group, b, s, u, h1, h2, h3, by rw [h4]; decide, h5⟩

theorem wit_ExtentsComplete_5 : ∃ (ld blk line : Nat) (x : Snp) (d : Bytes) (e : Extent) (s u : State),
    s.cxe.snps.find? (fun x => x.ld = ld ∧ x.blk = blk ∧ x.line = line) = some x ∧ s.extFor ld (blk / 128) = some e ∧
    u = (s.writeLine ld (s.dpaOf e blk + 64 * line) 0 e (fit 64 d) (BitVec.allOnes 64) false true).snoopDone x :=
  ⟨0, 0, 0, _, [], _, on.modCxe fun c => { c with snps := [{ ld := 0, blk := 0, line := 0, kind := 0, start := 0 }] }, _, rfl, rfl, rfl⟩

/-! ### The spec's own worked examples -/

/-- The codebook column of the worked encoding of 05_thousk_codec.md. -/
def bookColumn : List Nat := [0xBFE0, 0xBFA0, 0xBF60, 0xBF20, 0xBEE0, 0xBE90, 0xBE20, 0xBD60, 0x3D60, 0x3E20, 0x3E90, 0x3EE0, 0x3F20, 0x3F60, 0x3FA0, 0x3FE0]

/-- 05_thousk_codec.md, worked encoding: values 0 to 7 of the group take indices 11, 5, 13, 7, 1, 9, 13, 4 (0.0 is a tie). -/
theorem test_codes_of_group : [0x3F00, 0xBE80, 0x3F80, 0x0000, 0xBFB0, 0x3E40, 0x3F50, 0xBF00].map (codeElem 0 bookColumn) =
    [11, 5, 13, 7, 1, 9, 13, 4] := by decide +kernel

/-- 05_thousk_codec.md: 1.5 takes 14 over 15 and -0.75 takes 2 over 3. -/
theorem test_code_ties : [0x3FC0, 0xBF40].map (codeElem 0 bookColumn) = [14, 2] := by decide +kernel

/-- 06_stone_fabric.md: the eight products accumulate to -4.12109375, read as fp32 and as bf16. -/
theorem test_folded_sum : ∀ a, a = dotAcc ([11, 5, 13, 7, 1, 9, 13, 4].map fun i => decodeElem 0 (bookColumn.getD i 0))
        ([0x3F80, 0x4000, 0xBF80, 0x3F00, 0x3F80, 0xC000, 0x3E80, 0x4080].map (decodeElem 0)) →
    a.read .fp32 = 0xC083E000 ∧ a.read .bf16 = 0xC084 := by rintro a rfl; decide +kernel

/-- 11_stored_data_integrity.md: the check byte of 0x105 is 0x10. -/
theorem test_check_byte : checkByte 0x105 = 0x10 := by decide +kernel

/-- 03_sweep_time_base.md: from turn 1204, turn bits 181 mean 1205 and turn bits 179 mean 1203. -/
theorem test_go_turn : goTurn 1204 181 = 1205 ∧ goTurn 1204 179 = 1203 := by decide

/-- 09_near_tier.md: data line 128,000,037 lies on channel 6, rank 1, bank group 2, bank 2, row 8,789, column 2. -/
theorem test_near_line : lineAt ({} : NearSt).bankhash 128000037 =
    { channel := 6, rank := 1, bank := 2, group := 2, row := 8789, col := 2 } := by decide +kernel

/-- 14_cxl_endpoint.md: the decoder of the worked example turns HPA 0x0040_0001_2345 into DPA 0x4345. -/
theorem test_hdm_dpa : Hdm.dpa { base := 0x4000000000, size := 0x4000000000, ways := 4, gran := 4096, target := 2 } 0 0x4000012345 =
    some 0x4345 := by decide +kernel

/-- 02_extents_and_isolation.md: 64 GiB of lossy 4:1 KV reserve 16 GiB, 1 GiB, 2 GiB and 64 MiB; 16 GiB in slots of 256 bytes
reserve 8 GiB, 256 MiB and 8 GiB. -/
theorem test_reservations : reservation 9 (64 * GiB) false = (16 * GiB, GiB, 2 * GiB, 64 * MiB) ∧
    reservation 0x100 (16 * GiB) false = (8 * GiB, 256 * MiB, 8 * GiB, 0) := by decide +kernel

/-- 13_light_ports_and_peers.md: with lane 2 failed the port runs x4 on lanes 4 to 7; with lane 5 failed too, x2 on lanes 0 and 1. -/
theorem test_lane_groups : pickGroup (fun n => n != 2) = [4, 5, 6, 7] ∧ pickGroup (fun n => n != 2 && n != 5) = [0, 1] := by decide

/-- 05_thousk_codec.md, worked posting list: 127 gaps below 4,096 code in mode 0b01 to 196 bytes. -/
theorem test_posting_list : (losslessEncode ((List.range 128).flatMap fun i => leBytes 4 (if i = 0 then 5 else 5 + 4095 * i))).1.length = 196 := by
  decide +kernel

/-- 01_architecture.md: stone die 2 holds stones 96 to 143 and stacks 6, 7 and 8. -/
theorem test_die_two : stoneDie 96 = 2 ∧ stoneDie 143 = 2 ∧ stoneDie 144 = 3 ∧ stackDie 6 = 2 ∧ stackDie 8 = 2 ∧ stackDie 9 = 3 := by decide

/-- 15_mailbox_commands.md: a part carries at most 65,504 bytes. -/
theorem test_part_limit : on.takePart 0 0xC032 { offset := 0, total := 160064, final := false, data := List.replicate 65505 0 } = .refused := by
  unfold State.takePart
  rw [if_pos (Or.inr (by rw [List.length_replicate]; decide))]

/-! ### Ill-formed commands are refused by WellFormed, one for each check -/

theorem wf_below : (Instr.stoneFailure 0 192).wf = false ∧ (Instr.stoneFailure 0 191).wf = true := by decide
theorem wf_wide : (Instr.hubDieFailure (2 ^ 64)).wf = false ∧ (Instr.hubDieFailure (2 ^ 64 - 1)).wf = true := by decide
theorem wf_fnOk : (Instr.retrainLink 17).wf = false ∧ (Instr.retrainLink 16).wf = true := by decide
theorem wf_lineOk : (Instr.cxlMemWrite 0 0 0 0 [1, 2, 3] 0 false).wf = false := by decide
theorem wf_hdrOk : (Instr.getModuleStatus ⟨16, 256, 0, 8⟩).wf = false ∧ (Instr.getModuleStatus ⟨16, 255, 0, 8⟩).wf = true := by decide
theorem wf_partOk : (Instr.stagePartitionRequest ⟨16, 255, 0, 32⟩ { offset := 8, total := 8, final := true, data := [0] }).wf = false := by decide
theorem wf_goOk : (Instr.gateNop ⟨0, 0, ⟨true, false, 0, 1024, 0, 0, 0, 0, 0, 0⟩, true, false⟩).wf = false := by decide
theorem wf_peerOk : (Instr.pnode ⟨6, 5, false, true, 0, 0, 0, 1, 0, 0, 0, 0, 0, 0⟩ 1).wf = false := by decide
theorem wf_settleOk : (Instr.psettleConfirm ⟨4, 3, false, true, 0, 0, 1, 1, 0, 0, 0, 0, 0, 0⟩ ⟨0, 65536, 0, 0, true, 0, 0, 0, 0, 0, 1, 0, 1⟩).wf = false := by decide
theorem wf_regAccOk : (Instr.registerWrite ⟨17, 0, 4, 0⟩).wf = false ∧ (Instr.registerWrite ⟨0, 524288, 4, 0⟩).wf = false := by decide

end Sys2Proof.Tests
end

section
/-! PROOFS. Saturating counters and RW1C fields (O38). -/
namespace Sys2Proof.Machine

theorem bump_le_max (w n k : Nat) : bump w n k ≤ 2 ^ w - 1 := Nat.min_le_right ..

theorem bump_of_le {w n k : Nat} (h : n + k ≤ 2 ^ w - 1) : bump w n k = n + k := Nat.min_eq_left h

theorem bump_of_lt {w n k : Nat} (h : 2 ^ w - 1 < n + k) : bump w n k = 2 ^ w - 1 := Nat.min_eq_right h.le

theorem le_bump {w n : Nat} (k : Nat) (h : n ≤ 2 ^ w - 1) : n ≤ bump w n k := le_min (Nat.le_add_right n k) h

/-- The complement of all ones has no bit set. -/
theorem rw1c_allOnes (w cur : Nat) : rw1c w cur (2 ^ w - 1) = 0 := by
  have hones : BitVec.ofNat w (2 ^ w - 1) = BitVec.allOnes w := BitVec.eq_of_toNat_eq (by simp)
  simp [rw1c, hones]

end Sys2Proof.Machine

open Sys2Proof.Machine

/-- Settles O38, from what `bump` is below, at and above the maximum, and from `rw1c_allOnes`. -/
theorem countersSaturate : Obligations.CountersSaturate :=
  ⟨fun w n k => ⟨bump_le_max w n k, bump_of_le, bump_of_lt⟩, fun _ _ k => le_bump k, fun w cur _ => rw1c_allOnes w cur⟩

end

section
/-! PROOFS. What the events and commands of boot, failures, debug and the registers do when their conditions hold (O37). -/
namespace Sys2Proof.Machine

/-! ### Timed events: `u` is the state at the instant that the event carries. -/

section
variable {t : Nat} {s u : State} (hu : u = s.at_ t)
include hu

theorem exec_millerBoot_of_booting {cause : Nat} {trained : List Bool} (hphase : u.phase = .booting) (hcause : cause = u.fullCause)
    (hp : u.clock.p + ms ≤ u.now) :
    exec (.millerBoot t cause trained) s = .next ((u.fullBoot cause (u.clock.p + ms) trained).noteVitals u) := by
  subst hu
  exact (if_pos hphase).trans (if_pos ⟨hcause, hp⟩)

theorem exec_millerBoot_of_fault {cause : Nat} {trained : List Bool} (hphase : u.phase = .running) (hready : u.millerReady = false)
    (hcause : cause = u.boot.cause) (hfault : 2 ≤ cause) :
    exec (.millerBoot t cause trained) s = .next (u.faultBoot cause) := by
  have hboot : u.phase ≠ .booting := by rw [hphase]; decide
  subst hu
  exact (if_neg hboot).trans (if_pos ⟨hphase, ne_true_of_eq_false hready, hcause, hfault⟩)

theorem exec_millerFetchFault_of_ready (hup : u.up = true) (hready : u.millerReady = true) :
    exec (.millerFetchFault t) s = .next ((u.ueLog 2 0 1 2 31 0).millerFault 2) := by
  subst hu
  exact if_pos ⟨hup, hready⟩

theorem exec_millerWatchdog_of_due (hup : u.up = true) (hready : u.millerReady = true) (hdue : u.boot.serviced + sec ≤ u.now) :
    exec (.millerWatchdog t) s = .next (u.millerFault 3) := by
  subst hu
  exact if_pos ⟨hup, hready, hdue⟩

theorem exec_firmwareTrialCommit_of_due (hup : u.up = true) (hready : u.millerReady = true) (htrial : u.boot.trial = true)
    (hdue : u.boot.mountedAt + 600 * sec ≤ u.now) {slot : Nat} (hslot : slot = u.boot.running) :
    exec (.firmwareTrialCommit t) s = .next ((u.modBoot fun b =>
      { b with active := slot, trial := false, fusemin := max b.fusemin (min 64 (u.slotOf slot).svn) }).fwRecord slot false) := by
  subst hu hslot
  exact if_pos ⟨hup, hready, htrial, hdue⟩

theorem exec_unitFailure_of_up (f : FailUnit) (hup : u.up = true) :
    exec (.unitFailure t f) s = .next ((u.failUnit f).caps.noteVitals u) := by
  subst hu
  exact if_pos hup

theorem exec_stackLoss_of_up {stack : Nat} (hup : u.up = true) (hstack : stack < 12) :
    exec (.stackLoss t stack) s = .next ((u.stackFails stack).noteVitals u) := by
  subst hu
  exact if_pos ⟨hup, hstack⟩

theorem exec_reservedRegionRebuild_of_mem {stack : Nat} (hup : u.up = true) (hmem : stack ∈ u.near.rebuilding) :
    exec (.reservedRegionRebuild t stack) s = .next ((u.modNear fun n =>
      { n with rebuilding := n.rebuilding.filter (· ≠ stack) }).retryHeld (fun r => r.why == .rebuild) fun w => w.why == .rebuild) := by
  subst hu
  exact if_pos ⟨hup, List.contains_iff_mem.mpr hmem⟩

theorem exec_debugNonceExpire_of_due {n : Nonce} (hn : u.boot.nonce = some n) (hdue : n.since + 600 * sec ≤ u.now) :
    exec (.debugNonceExpire t) s = .next (u.modBoot fun b => { b with nonce := none }) := by
  subst hu
  show execDebugNonceExpire t s = _
  simp only [execDebugNonceExpire, hn, if_pos hdue]

end

/-! ### Debug commands (R386, R387) -/

theorem exec_getDebugChallenge_of_takes {h : MbHdr} {s : State} {v : BitVec 256}
    (ht : s.takes h { opcode := 0xC0D0, ld := false, fm := .module }) (hv : v = Config.randomBits s.freeCtr) :
    exec (.getDebugChallenge h) s = .next ((({ s with freeCtr := s.freeCtr + 1 } : State).modBoot fun b =>
      { b with nonce := some { value := v, since := s.now } }).replied h 0xC0D0
        [⟨0, 32, v.toNat⟩, ⟨32, 8, s.boot.serial⟩, ⟨40, 4, ({ s with freeCtr := s.freeCtr + 1 } : State).fwver⟩] []) := by
  subst hv
  show execGetDebugChallenge h s = _
  rw [execGetDebugChallenge, State.mbRun_takes ht rfl]

theorem exec_unlockDebug_of_whole {h : MbHdr} {p : Part} {img : Bytes} {s v : State}
    (ht : s.takes h { opcode := 0xC0D1, ld := false, fm := .module, bg := p.final, len := [], lenFrom := some 32 })
    (hlen : h.len = 32 + p.data.length) (hpart : s.takePart h.src 0xC0D1 p = .whole v img) (himg : img.length = p.total)
    (hclosed : v.boot.debugOpen = false) :
    exec (.unlockDebug h p) s = .next (v.begun h 0xC0D1 (.unlockDebug h { p with data := img })) := by
  show execUnlockDebug h p s = _
  rw [execUnlockDebug,
    State.mbPartsBg_takes ht hlen hpart himg (if_neg (ne_true_of_eq_false hclosed)) (State.takePart_whole_now hpart).1]

theorem exec_getDebugState_of_takes {h : MbHdr} {s : State} (ht : s.takes h { opcode := 0xC0D2, ld := false, fm := .module }) :
    exec (.getDebugState h) s = .next (s.replied h 0xC0D2 [⟨0, 1, b2n s.boot.debugOpen⟩, ⟨8, 8, s.debugSeq⟩] []) := by
  show execGetDebugState h s = _
  rw [execGetDebugState, State.mbRun_takes ht rfl]

/-! ### Register writes (R4) -/

section
variable {r : RegAccess} {s : State} (hok : s.regOk (regFn r) = true)
include hok

theorem exec_registerWrite_beacon (hbeacon : regBeacon r = true) (hup : s.up = true) :
    exec (.registerWrite r) s = .next (s.writeBeacon r.page ((r.offset - 0x4000) / 64) r.size
      (r.offset % 8 == 0 || (r.size == 4 && regTaken r)) r.value) := by
  show execRegisterWrite r s = _
  rw [execRegisterWrite, if_neg (not_not_intro hok), if_pos hbeacon, if_pos hup]

theorem exec_registerWrite_taken (hbeacon : regBeacon r = false) (htaken : regTaken r = true) :
    exec (.registerWrite r) s = .next (s.writeReg r) := by
  show execRegisterWrite r s = _
  rw [execRegisterWrite, if_neg (not_not_intro hok), if_neg (ne_true_of_eq_false hbeacon), if_neg (not_not_intro htaken)]

end

end Sys2Proof.Machine

open Sys2Proof.Machine

/-- Settles O37: each clause is the lemma of its event or command. HUB_DIE_FAILURE has no condition, so its clause is its definition
(`State.hubFails`). -/
theorem moduleLifeComplete : Obligations.ModuleLifeComplete := by
  unfold Obligations.ModuleLifeComplete
  refine ⟨?boot, ?miller, ?unit, ?stack, ?hubDie, ?challenge, ?nonce, ?unlock, ?debugState, ?register⟩
  case boot =>
    intro t cause trained s u hu
    exact ⟨exec_millerBoot_of_booting hu, exec_millerBoot_of_fault hu⟩
  case miller =>
    intro t s u hu hup hready
    exact ⟨exec_millerFetchFault_of_ready hu hup hready, exec_millerWatchdog_of_due hu hup hready,
      fun htrial hdue _ hslot => exec_firmwareTrialCommit_of_due hu hup hready htrial hdue hslot⟩
  case unit =>
    intro t f s u hu hup
    exact exec_unitFailure_of_up hu f hup
  case stack =>
    intro t stack s u hu hup
    exact ⟨exec_stackLoss_of_up hu hup, exec_reservedRegionRebuild_of_mem hu hup⟩
  case hubDie =>
    intro t s
    rfl
  case challenge =>
    intro h v s ht hv
    exact exec_getDebugChallenge_of_takes ht hv
  case nonce =>
    intro t n s u hu hn hdue
    exact exec_debugNonceExpire_of_due hu hn hdue
  case unlock =>
    intro h p img s v ht hlen hpart himg hclosed
    exact exec_unlockDebug_of_whole ht hlen hpart himg hclosed
  case debugState =>
    intro h s ht
    exact exec_getDebugState_of_takes ht
  case register =>
    intro r s hok
    exact ⟨exec_registerWrite_beacon hok, exec_registerWrite_taken hok⟩

end

section
/-! PROOFS. CXL.mem requests through a committed decoder (O7), and the order of one LD's requests to one line (O60). -/
namespace Sys2Proof.Machine

/-! ### Reads and writes of a presented LD (R15, R330, R336 to R338, R341) -/

theorem State.poisonSeen_false {s : State} {ld : Nat} : s.poisonSeen ld false = s := rfl

section
variable {port ldid hpa a : Nat} {s u : State} {e : Extent} (hport : s.portServes port = true)
include hport

section
variable (hwake : s.wakePort port = u) (hld : u.ldidOk port ldid = true) (hopen : u.boot.openSeq = 0)
include hwake hld hopen

theorem exec_cxlMemRead_host (tag : Nat) (mv : MetaVal) (upset : Nat) (hdec : u.hdmDecode ldid hpa = some (a, false)) :
    exec (.cxlMemRead port ldid hpa tag mv upset) s = .next (u.hostRead ldid (a / 64 * 64) tag upset) := by
  subst hwake
  show execCxlMemRead port ldid hpa tag mv upset s = _
  simp only [execCxlMemRead, hport, hld, hdec, hopen, not_true_eq_false, if_false, ne_eq]

/-- In an HDM-DB range stored data is reached through the snoop filter, a go line at its gate. -/
theorem exec_cxlMemRead_hdmDb (tag : Nat) (mv : MetaVal) (upset : Nat) (hdec : u.hdmDecode ldid hpa = some (a, true))
    (hserved : u.access ldid (a / 64 * 64) = .served e) :
    exec (.cxlMemRead port ldid hpa tag mv upset) s =
      .next (if Prof.gate e.profile then u.gateRead ldid (a / 64 * 64) tag
        else u.biRequest ldid (a / 64 * 64) tag e false mv [] 0 false upset) := by
  subst hwake
  show execCxlMemRead port ldid hpa tag mv upset s = _
  simp only [execCxlMemRead, hport, hld, hdec, hopen, hserved, not_true_eq_false, if_false, ne_eq]
  exact (apply_ite Host.Outcome.next ..).symm

end

section
variable {poison : Bool} (hld : (s.wakePort port).ldidOk port ldid = true) (hseen : (s.wakePort port).poisonSeen ldid poison = u)
  (hopen : u.boot.openSeq = 0)
include hld hseen hopen

theorem exec_cxlMemWrite_host (tag : Nat) (data : Bytes) (enables : BitVec 64) (hdec : u.hdmDecode ldid hpa = some (a, false)) :
    exec (.cxlMemWrite port ldid hpa tag data enables poison) s =
      .next (u.hostWrite ldid (a / 64 * 64) tag (fit 64 data) enables poison false) := by
  subst hseen
  show execCxlMemWrite port ldid hpa tag data enables poison s = _
  simp only [execCxlMemWrite, hport, hld, hdec, hopen, not_true_eq_false, if_false, ne_eq]

/-- In an HDM-DB range stored data is reached through the snoop filter, a go line at its gate. -/
theorem exec_cxlMemWrite_hdmDb (tag : Nat) (data : Bytes) (enables : BitVec 64) (hdec : u.hdmDecode ldid hpa = some (a, true))
    (hserved : u.access ldid (a / 64 * 64) = .served e) :
    exec (.cxlMemWrite port ldid hpa tag data enables poison) s =
      .next (if Prof.gate e.profile then u.hostWrite ldid (a / 64 * 64) tag data enables poison false
        else u.biRequest ldid (a / 64 * 64) tag e true .any (fit 64 data) enables poison 0) := by
  subst hseen
  show execCxlMemWrite port ldid hpa tag data enables poison s = _
  simp only [execCxlMemWrite, hport, hld, hdec, hopen, hserved, not_true_eq_false, if_false, ne_eq]
  exact (apply_ite Host.Outcome.next ..).symm

end

end

/-- A request whose LD-ID the port does not present is counted and answered; only the FM's CXL.io to its own port is the FM's. -/
theorem exec_badLdId_of_bad {port ldid kind : Nat} (tag : Nat) {s : State} (hup : s.up = true) (hport : port < 4)
    (hbad : s.ldidOk port ldid = false) (hfm : kind = 0 → ldid = 0xFFFF → s.boot.fmport ≠ port) :
    exec (.badLdId port ldid kind tag) s = .next ((s.badLdid port).send
      (if kind = 0 then .cxlIo ldid 4 [] [] else if kind = 1 then .memPoison ldid tag else .memDone ldid tag)) := by
  have hheard : ¬ (¬ s.up = true ∨ 4 ≤ port ∨ s.ldidOk port ldid = true) := by simp [hup, hport, hbad]
  have hhost : ¬ (kind = 0 ∧ ldid = 0xFFFF ∧ s.boot.fmport = port) := fun h => hfm h.1 h.2.1 h.2.2
  show execBadLdId port ldid kind tag s = _
  rw [execBadLdId, if_neg hheard, if_neg hhost]
  match kind with
  | 0 => rfl
  | 1 => rfl
  | _ + 2 => rfl

/-! ### A request behind an earlier one of its LD to its line (R15) -/

theorem State.hostRead_of_served {s u : State} {ld dpa : Nat} {e : Extent} (tag upset : Nat) (hsettle : s.settleLeaving = u)
    (hserved : u.access ld dpa = .served e) (hgate : Prof.gate e.profile = false) :
    s.hostRead ld dpa tag upset = u.readLine ld dpa tag e upset := by
  subst hsettle
  simp [State.hostRead, hserved, hgate]

theorem State.hostWrite_of_served {s u : State} {ld dpa : Nat} {e : Extent} (tag : Nat) (data : Bytes) (enables : BitVec 64)
    (poison muted : Bool) (hsettle : s.settleLeaving = u) (hserved : u.access ld dpa = .served e)
    (hgate : Prof.gate e.profile = false) :
    s.hostWrite ld dpa tag data enables poison muted = u.writeLine ld dpa tag e data enables poison muted := by
  subst hsettle
  simp [State.hostWrite, hserved, hgate]

/-- Noting a read at its wheel leaves the store as it is, and the read joins the end of the held reads. -/
theorem State.readLine_of_earlier {s : State} {ld dpa : Nat} {e : Extent} (tag upset : Nat)
    (hearlier : s.earlier ld dpa (s.blkOf e dpa) s.store.nextRid = true) :
    ∃ (t : State) (r : HeldRead), s.readLine ld dpa tag e upset = t ∧ t.sent = s.sent ∧ t.store.sacks = s.store.sacks ∧
      t.store.heldReads = s.store.heldReads ++ [r] ∧ r.ld = ld ∧ r.dpa = dpa ∧ r.why = .order ∧ r.who = .cxl tag := by
  unfold State.readLine
  cases s.wheelFor ld dpa with
  | none => exact ⟨_, _, if_pos hearlier, rfl, rfl, rfl, rfl, rfl, rfl, rfl⟩
  | some w => exact ⟨_, _, if_pos hearlier, rfl, rfl, rfl, rfl, rfl, rfl, rfl⟩

/-- A write whose number no held write has joins the end of the held writes. -/
theorem State.tryWrite_of_earlier {s : State} {w : HeldWrite} (e : Extent) (hmerged : w.merged = false)
    (hearlier : s.earlier w.ld w.dpa w.blk w.wid = true) (hnew : ∀ x ∈ s.store.heldWrites, x.wid ≠ w.wid) :
    s.tryWrite w e = s.modStore fun st => { st with heldWrites := s.store.heldWrites ++ [{ w with why := .order }] } := by
  have hany : ¬ (s.store.heldWrites.any fun x => x.wid == w.wid) = true := by simpa using hnew
  rw [State.tryWrite, if_neg (ne_true_of_eq_false hmerged)]
  dsimp only
  rw [if_pos hearlier]
  simp only [State.modStore, if_neg hany]

theorem State.writeLine_of_earlier {s : State} {ld dpa : Nat} {e : Extent} (tag : Nat) (data : Bytes) (enables : BitVec 64)
    (poison muted : Bool) (hearlier : s.earlier ld dpa (s.blkOf e dpa) s.store.nextRid = true)
    (hrid : ∀ x ∈ s.store.heldWrites, x.wid < s.store.nextRid) :
    ∃ (t : State) (w : HeldWrite), s.writeLine ld dpa tag e data enables poison muted = t ∧ t.sent = s.sent ∧
      t.store.sacks = s.store.sacks ∧ t.store.heldWrites = s.store.heldWrites ++ [w] ∧ w.ld = ld ∧ w.dpa = dpa ∧ w.why = .order ∧
      w.data = data ∧ w.enables = enables :=
  ⟨_, _, State.tryWrite_of_earlier e rfl hearlier fun x hx => (hrid x hx).ne, rfl, rfl, rfl, rfl, rfl, rfl, rfl, rfl⟩

end Sys2Proof.Machine

open Sys2Proof.Machine

/-- Settles O7: each clause is the lemma of its request. -/
theorem memRequestsComplete : Obligations.MemRequestsComplete := by
  unfold Obligations.MemRequestsComplete
  refine ⟨?read, ?write, ?bad⟩
  case read =>
    intro port ldid hpa tag mv upset a bi s u hport hwake hld hdec hopen
    exact ⟨fun hbi => exec_cxlMemRead_host hport hwake hld hopen tag mv upset (hbi ▸ hdec),
      fun e hbi hserved => exec_cxlMemRead_hdmDb hport hwake hld hopen tag mv upset (hbi ▸ hdec) hserved⟩
  case write =>
    intro port ldid hpa tag data enables poison a bi s u hport hld hseen hdec hopen
    exact ⟨fun hbi => exec_cxlMemWrite_host hport hld hseen hopen tag data enables (hbi ▸ hdec),
      fun e hbi hserved => exec_cxlMemWrite_hdmDb hport hld hseen hopen tag data enables (hbi ▸ hdec) hserved⟩
  case bad =>
    intro port ldid kind tag s hup hport hbad hfm
    exact exec_badLdId_of_bad tag hup hport hbad hfm

/-- Settles O60: the request reaches the line (O7), whose first question is whether an earlier one waits. -/
theorem sameLineOrder : Obligations.SameLineOrder := by
  unfold Obligations.SameLineOrder
  refine ⟨?read, ?write⟩
  case read =>
    intro port ldid hpa tag upset a dpa mv e s v u hport hwake hld hdec hopen hdpa hsettle hserved hgate hearlier
    subst hdpa
    obtain ⟨t, r, hline, hheld⟩ := State.readLine_of_earlier tag upset hearlier
    have hexec := exec_cxlMemRead_host hport hwake hld hopen tag mv upset hdec
    rw [State.hostRead_of_served tag upset hsettle hserved hgate, hline] at hexec
    exact ⟨t, r, hexec, hheld⟩
  case write =>
    intro port ldid hpa tag a dpa data enables e s v u hport hwake hld hdec hopen hdpa hsettle hserved hgate hearlier hrid
    subst hdpa hwake
    obtain ⟨t, w, hline, hheld⟩ := State.writeLine_of_earlier tag (fit 64 data) enables false false hearlier hrid
    have hexec := exec_cxlMemWrite_host hport hld State.poisonSeen_false hopen tag data enables hdec
    rw [State.hostWrite_of_served tag _ enables false false hsettle hserved hgate, hline] at hexec
    exact ⟨t, w, hexec, hheld⟩

end

section
/-! PROOFS. The encoder, the merge buffer, the mirror and the sack map's journal when their turn comes (O8). -/
namespace Sys2Proof.Machine

theorem exec_sackAllocJournalled_of_allocating {t sack : Nat} {s : State} (hup : s.up = true)
    (hmst : (s.sack sack).mst = .allocating) (hwaits : (s.sack sack).waits = false) :
    exec (.sackAllocJournalled t sack) s =
      .next ((((s.at_ t).setSack sack { s.sack sack with
          tier := if (s.sack sack).near then .t1 else .t2
          mst := if (s.sack sack).near then (if (s.sack sack).dirty = 0 then .clean else .dirty) else .deep
          since := (s.at_ t).now }).journal 1).retryHeld (fun r => r.sack == sack) fun w => w.sack == sack) :=
  if_pos ⟨hup, hmst, hwaits⟩

theorem exec_mergeIdleFlush_of_idle {t blk : Nat} {m : MergeEnt} {s : State} (hup : s.up = true) (hopen : s.openEnt blk = some m)
    (hidle : m.lastWrite + 64 * us ≤ max s.now t) :
    exec (.mergeIdleFlush t blk) s =
      .next (((s.at_ t).passEnt blk true).modStore fun st => { st with mergeRmw := bump 16 st.mergeRmw 1 }) := by
  have hopen' : (s.at_ t).openEnt blk = some m := hopen
  show execMergeIdleFlush t blk s = _
  simp only [execMergeIdleFlush, hopen']
  exact if_pos ⟨hup, hidle⟩

theorem exec_mirrorRecordFreed_of_room {t blk : Nat} {s u : State} (hup : u.up = true) (hfree : (s.at_ t).freeMirror blk = u)
    (hroom : u.store.mirrors.length < 16777216) :
    exec (.mirrorRecordFreed t blk) s = .next (u.retryWrites fun w => w.why == .mirrorFull) := by
  subst hfree
  exact if_pos ⟨hup, hroom⟩

theorem exec_durableDirtyTimeout_of_due {t blk : Nat} {s : State} (hup : s.up = true) (hdurable : (s.sack (blk / 128)).durable = true)
    (hmst : (s.sack (blk / 128)).mst = .dirty) (hbit : (s.sack (blk / 128)).dirty.getLsbD (blk % 128) = true)
    (hdue : s.store.dirtySince.get blk + sec ≤ max s.now t) :
    exec (.durableDirtyTimeout t blk) s = .next ((s.at_ t).startWriteback (blk / 128) false
      (match s.extOfSack (blk / 128) with | some e => e.eid | none => 0)) :=
  if_pos ⟨hup, hdurable, hmst, hbit, .inl hdue⟩

/-! ### The rebuild of a corrupt sack map entry (R41) -/

theorem exec_sackEntryRebuild_of_extent {t sack : Nat} {e : Extent} {s u : State} (hup : s.up = true)
    (he : s.extOfSack sack = some e)
    (hu : ((s.at_ t).restoreEntry sack e).modStore (fun st => { st with corrupt := st.corrupt.filter (· ≠ sack) }) = u)
    (journalOk : Bool) :
    exec (.sackEntryRebuild t sack journalOk) s =
      .next (((if journalOk then u.repaired 0 0 2 e.owner (u.dpaOf e (sack * 128)) else u.entryLost sack e).resumeXfer sack e).retryHeld
        (fun r => r.sack == sack) fun w => w.sack == sack) := by
  have he' : (s.at_ t).extOfSack sack = some e := he
  subst hu
  show execSackEntryRebuild t sack journalOk s = _
  simp only [execSackEntryRebuild, he']
  exact if_neg (not_not_intro hup)

/-! ### The encoder's turn: the oldest passed entry of a block (R83, R84) -/

/-- An entry with every byte written needs no block below it: it is encoded where it lands. -/
theorem State.encodeEnt_of_full {s u w : State} {e : Extent} {m : MergeEnt} {v : StoredBlk} (hfull : m.valid = BitVec.allOnes 512)
    (hland : s.landing e m = some u)
    (henc : (u.modStore fun st => { st with merges := st.merges.filter (· ≠ m) }).encode e m.blk m.data m.order = some (v, w)) :
    s.encodeEnt e m = some (((w.land e m.opener m.cls m.blk v).freeMirror m.blk).dropT0 m.blk) := by
  have hread : ¬ (m.valid ≠ BitVec.allOnes 512 ∧ ¬ s.blkNear m.blk = true ∧ ¬ s.isPoison m.blk = true) := fun h => h.1 hfull
  simp only [State.encodeEnt, if_neg hread, if_neg (not_not_intro hfull), if_pos hfull, hland, henc]

/-- A partial entry over a block that is neither near nor poison waits for the block's read. -/
theorem State.encodeEnt_of_partial {s : State} {e : Extent} {m : MergeEnt} (hpart : m.valid ≠ BitVec.allOnes 512)
    (hnear : s.blkNear m.blk = false) (hpoison : s.isPoison m.blk = false) : s.encodeEnt e m = none :=
  if_pos ⟨hpart, ne_true_of_eq_false hnear, ne_true_of_eq_false hpoison⟩

section
variable {t blk : Nat} {m : MergeEnt} {e : Extent} {s : State} (hup : s.up = true)
  (hm : (s.store.merges.find? fun m => m.blk = blk ∧ m.passed = true) = some m) (he : s.extOfSack (blk / 128) = some e)
include hup hm he

theorem exec_encoderWriteDone_of_some {u : State} (hent : (s.at_ t).encodeEnt e m = some u) :
    exec (.encoderWriteDone t blk) s = .next (u.afterEncode blk) := by
  have he' : (s.at_ t).extOfSack (blk / 128) = some e := he
  have hup' : ¬ ¬ (s.at_ t).up = true := not_not_intro hup
  show execEncoderWriteDone t blk s = _
  simp only [execEncoderWriteDone, State.at__store, hm, if_neg hup', he', hent]

theorem exec_encoderWriteDone_of_none (hent : (s.at_ t).encodeEnt e m = none) :
    exec (.encoderWriteDone t blk) s = .next ((s.at_ t).encodeWait e m) := by
  have he' : (s.at_ t).extOfSack (blk / 128) = some e := he
  have hup' : ¬ ¬ (s.at_ t).up = true := not_not_intro hup
  show execEncoderWriteDone t blk s = _
  simp only [execEncoderWriteDone, State.at__store, hm, if_neg hup', he', hent]

end

/-- A mirror record that lost a copy is given another place for it (R23, R91). -/
theorem exec_remirror_of_lost {t blk : Nat} {m : Mirror} {e : Extent} {s u : State} (hup : s.up = true)
    (hm : (s.store.mirrors.find? fun m => m.blk = blk) = some m) (he : s.extOfSack (blk / 128) = some e)
    (hlost : m.stackA = none ∨ m.stackB = none)
    (hu : (s.at_ t).modStore (fun st => { st with mirrors := st.mirrors.map fun x => if x.blk = blk then
      (if m.stackA = none then { m with stackA := (s.at_ t).remirrorPlace e m } else { m with stackB := (s.at_ t).remirrorPlace e m })
      else x }) = u) :
    exec (.remirror t blk) s = .next (if u.wt then u else u.modeChanged) := by
  have he' : (s.at_ t).extOfSack (blk / 128) = some e := he
  have hcond : (s.at_ t).up = true ∧ (m.stackA = none ∨ m.stackB = none) := ⟨hup, hlost⟩
  subst hu
  show execRemirror t blk s = _
  simp only [execRemirror, State.at__store, hm, he', Option.isNone_iff_eq_none, if_pos hcond]

end Sys2Proof.Machine

open Sys2Proof.Machine

/-- Settles O8: each clause is the lemma of its event. -/
theorem writePathCompletes : Obligations.WritePathCompletes := by
  unfold Obligations.WritePathCompletes
  refine ⟨?journalled, ?rebuild, ?flush, ?encoded, ?waits, ?freed, ?dirty, ?remirror⟩
  case journalled =>
    intro t sack s hup hmst hwaits
    exact exec_sackAllocJournalled_of_allocating hup hmst hwaits
  case rebuild =>
    intro t sack e s u hup he hu
    exact ⟨exec_sackEntryRebuild_of_extent hup he hu true, exec_sackEntryRebuild_of_extent hup he hu false⟩
  case flush =>
    intro t blk m s hup hopen hidle
    exact exec_mergeIdleFlush_of_idle hup hopen hidle
  case encoded =>
    intro t blk m e v s u w hup hm he hfull hland henc
    exact exec_encoderWriteDone_of_some hup hm he (State.encodeEnt_of_full hfull hland henc)
  case waits =>
    intro t blk m e s hup hm he hpart hnear hpoison
    exact exec_encoderWriteDone_of_none hup hm he (State.encodeEnt_of_partial hpart hnear hpoison)
  case freed =>
    intro t blk s u hup hfree hroom
    exact exec_mirrorRecordFreed_of_room hup hfree hroom
  case dirty =>
    intro t blk s hup hdurable hmst hbit hdue
    exact exec_durableDirtyTimeout_of_due hup hdurable hmst hbit hdue
  case remirror =>
    intro t blk m e s u hup hm he hlost hu
    exact exec_remirror_of_lost hup hm he hlost hu

end

section
/-! PROOFS. Stones and dressings: their events and the commands C050h to C057h (O15). -/
namespace Sys2Proof.Machine

/-! ### Moving the pieces of a stone leaves the time as it is -/

@[simp] theorem State.placePiece_now (s : State) (p : Piece) : (s.placePiece p).now = s.now := by
  unfold State.placePiece
  extract_lets _ _ _ pick
  cases pick with
  | none => rfl
  | some k => dsimp only; split <;> rfl

theorem State.placePieces_now (ps : List Piece) (s : State) : (ps.foldl State.placePiece s).now = s.now := by
  induction ps generalizing s with
  | nil => rfl
  | cons p ps ih => rw [List.foldl_cons, ih, State.placePiece_now]

theorem State.drainStone_now (s : State) (k : Nat) : (s.drainStone k).now = s.now := by
  unfold State.drainStone
  dsimp only
  split
  · split
    · exact State.placePieces_now ..
    · exact State.placePieces_now ..
  · rfl

theorem State.offlineStone_now (s : State) (stone : Nat) : (s.offlineStone stone).now = s.now := State.drainStone_now ..

/-! ### Events (R25, R160, R163) -/

theorem exec_stoneClearComplete_of_due {t stone : Nat} {s u : State} (hstate : (s.stoneAt stone).state = .clearing)
    (hdue : 4160 ≤ (s.at_ t).cycSince (s.stoneAt stone).clearAt) (hslices : (s.stoneAt stone).slices = [])
    (hu : u = (s.at_ t).modStone stone (fun x => { x.zeroed with
      state := (s.stoneAt stone).afterClear
      cleared := (s.at_ t).cyc
      toOffline := x.toOffline && (s.stoneAt stone).afterClear == .test })) :
    exec (.stoneClearComplete t stone) s = .next u.placeWaiting.caps := by
  have hstone : (s.at_ t).stoneAt stone = s.stoneAt stone := rfl
  have hcond : (s.stoneAt stone).state = .clearing ∧ 4160 ≤ (s.at_ t).cycSince (s.stoneAt stone).clearAt ∧
      (True ∨ (s.at_ t).clock.target = none) := ⟨hstate, hdue, .inl trivial⟩
  subst hu
  show execStoneClearComplete t stone s = _
  simp only [execStoneClearComplete, hstone, hslices, if_pos hcond]
  cases (s.stoneAt stone).afterClear <;> rfl

theorem exec_stoneFailure_of_up {t stone : Nat} {s : State} (hup : s.up = true) (hstone : stone < 192) :
    exec (.stoneFailure t stone) s = .next (((s.at_ t).stoneFails stone).caps.noteVitals (s.at_ t)) :=
  if_pos ⟨hup, hstone⟩

theorem exec_dressingUnloadDrained_of_stopped {t handle : Nat} {d : Dressing} {s : State} (hd : (s.at_ t).dressing handle = some d)
    (hstopped : d.stopped = true) (hpieces : (s.at_ t).piecesOf handle = 0) :
    exec (.dressingUnloadDrained t handle) s =
      .next { s.at_ t with stone := { s.stone with lib := s.stone.lib.filter fun x => x.1 ≠ handle } } := by
  show execDressingUnloadDrained t handle s = _
  simp only [execDressingUnloadDrained, hd]
  exact if_pos ⟨hstopped, hpieces⟩

/-! ### Dressing commands (R148 to R150, C050h to C054h) -/

section
variable {h : MbHdr} {s : State}

theorem exec_loadDressing_of_whole {p : Part} {img : Bytes} {v : State}
    (ht : s.takes h { opcode := 0xC050, ld := true, fm := .no, bg := p.final, len := [], lenFrom := some 32 })
    (hlen : h.len = 32 + p.data.length) (hpart : s.takePart h.src 0xC050 p = .whole v img) (himg : img.length = p.total) :
    exec (.loadDressing h p) s = .next (v.begun h 0xC050 (.loadDressing h { p with data := img })) := by
  exact congrArg Host.Outcome.next (State.mbPartsBg_takes (c := { opcode := 0xC050, ld := true, fm := .no }) (p := p)
    (check := fun _ s => .ok s) ht hlen hpart himg rfl (State.takePart_whole_now hpart).1)

/-- A dressing that still runs is stopped, and leaves the library when its pieces have ended. -/
theorem exec_unloadDressing_of_own {handle : Nat} {d : Dressing} {lib : List (Nat × Dressing)}
    (ht : s.takes h { opcode := 0xC051, ld := true, fm := .no, len := [10] }) (hd : s.dressing handle = some d)
    (hparty : d.party = s.party h.src)
    (hlib : lib = (if s.piecesOf handle = 0 then s.stone.lib.filter fun x => x.1 ≠ handle
      else s.stone.lib.map fun x => if x.1 = handle then (x.1, { x.2 with stopped := true }) else x)) :
    exec (.unloadDressing h handle) s = .next (({ s with stone := { s.stone with lib := lib } } : State).replied h 0xC051 [] []) := by
  subst hlib
  show execUnloadDressing h handle s = _
  rw [execUnloadDressing, State.mbRun_takes ht (by simp only [hd, if_neg (not_not_intro hparty)]; rfl)]

theorem exec_getDressingInfo_of_own {handle : Nat} {d : Dressing}
    (ht : s.takes h { opcode := 0xC052, ld := true, fm := .either, len := [10] }) (hd : s.dressing handle = some d)
    (hparty : d.party = s.party h.src) :
    exec (.getDressingInfo h handle) s = .next (s.replied h 0xC052 [] (s.hdr handle ++ layout 4
      [⟨0, 1, (if d.disabled then 3 else if d.stopped then 2 else 1)⟩,
       ⟨2, 2, (allStones.filter fun k => match (s.stoneAt k).running with | some p => p.handle == handle | none => false).length⟩])) := by
  have hown : ¬ (h.src < 16 ∧ d.party ≠ s.party h.src) := fun hforeign => hforeign.2 hparty
  exact congrArg Host.Outcome.next (State.mbRun_takes (r := { s := s, blob := _ }) ht (by
    rw [hd]
    exact if_neg hown))

theorem exec_registerDressingKey_of_first {exponent : Nat} {modulus : Bytes}
    (ht : s.takes h { opcode := 0xC053, ld := true, fm := .no, len := [400] }) (hodd : exponent % 2 = 1) (hmin : 65537 ≤ exponent)
    (hmod : modulus.length = 384) (hfirst : ∀ k ∈ s.stone.keys, k.party ≠ s.party h.src) {k : DressKey}
    (hk : k = { party := s.party h.src, keyId := fit 32 (Config.keyId exponent modulus) }) :
    exec (.registerDressingKey h exponent modulus) s =
      .next (({ s with stone := { s.stone with keys := s.stone.keys ++ [k] } } : State).replied h 0xC053 [] k.keyId) := by
  have hform : ¬ (exponent % 2 = 0 ∨ exponent < 65537 ∨ modulus.length ≠ 384) := by omega
  have hnew : ¬ (s.stone.keys.any fun x => x.party == s.party h.src && x.keyId == k.keyId) = true := by
    simp only [List.any_eq_true, Bool.and_eq_true, beq_iff_eq, not_exists, not_and]
    exact fun x hx hp => absurd hp (hfirst x hx)
  have hnone : s.stone.keys.filter (fun x => x.party = s.party h.src) = [] := by simpa using hfirst
  subst hk
  show execRegisterDressingKey h exponent modulus s = _
  rw [execRegisterDressingKey, State.mbRun_takes ht (by simp only [if_neg hform, if_neg hnew, hnone]; rfl)]

theorem exec_removeDressingKey_of_mem {keyid : Bytes} {k : DressKey}
    (ht : s.takes h { opcode := 0xC054, ld := true, fm := .no, len := [40] }) (hk : k = { party := s.party h.src, keyId := fit 32 keyid })
    (hmem : s.stone.keys.contains k = true) :
    exec (.removeDressingKey h keyid) s =
      .next (({ s with stone := { s.stone with keys := s.stone.keys.filter (· ≠ k) } } : State).replied h 0xC054 [] []) := by
  subst hk
  show execRemoveDressingKey h keyid s = _
  rw [execRemoveDressingKey, State.mbRun_takes ht (if_pos hmem)]

/-! ### Stone commands (R25, R163, R164, C055h to C057h) -/

theorem exec_getStoneStatus_of_takes (ht : s.takes h { opcode := 0xC055, ld := true, fm := .module }) :
    exec (.getStoneStatus h) s = .next (s.replied h 0xC055 [] (if h.src < 16 then (List.range 8).map fun c => BitVec.ofNat 8 (s.stonesIn c)
      else allStones.map fun k => BitVec.ofNat 8 (s.stoneAt k).state.code)) := by
  show execGetStoneStatus h s = _
  rw [execGetStoneStatus, State.mbRun_takes ht rfl]

theorem exec_setStoneOffline_of_sound {stone : Nat}
    (ht : s.takes h { opcode := 0xC056, ld := false, fm := .module, bg := true, len := [9] }) (hstone : stone < 192)
    (hsound : (s.stoneAt stone).broken = false) :
    exec (.setStoneOffline h stone) s = .next ((s.offlineStone stone).begun h 0xC056 (.setStoneOffline h stone)) := by
  have hok : ¬ (192 ≤ stone ∨ (s.stoneAt stone).broken = true) := by simp [hstone, hsound]
  show execSetStoneOffline h stone s = _
  rw [execSetStoneOffline, State.mbBg_takes ht (if_neg hok) (State.offlineStone_now ..)]

theorem exec_setStoneOnline_of_offline {stone : Nat} (ht : s.takes h { opcode := 0xC057, ld := false, fm := .module, len := [9] })
    (hstone : stone < 192) (hoffline : (s.stoneAt stone).state = .offline) :
    exec (.setStoneOnline h stone) s = .next ((s.modStone stone fun st =>
      { st with state := .online, toOffline := false }).placeWaiting.caps.replied h 0xC057 [] []) := by
  have hok : ¬ (192 ≤ stone ∨ (s.stoneAt stone).state ≠ .offline) := by simp [hstone, hoffline]
  show execSetStoneOnline h stone s = _
  rw [execSetStoneOnline, State.mbRun_takes ht (if_neg hok)]

end

end Sys2Proof.Machine

open Sys2Proof.Machine

/-- Settles O15: each clause is the lemma of its event or command. -/
theorem stonesComplete : Obligations.StonesComplete := by
  unfold Obligations.StonesComplete
  refine ⟨?clear, ?failure, ?drained, ?load, ?unload, ?info, ?register, ?remove, ?status, ?offline, ?online⟩
  case clear =>
    intro t stone s u hstate hdue hslices hu
    exact exec_stoneClearComplete_of_due hstate hdue hslices hu
  case failure =>
    intro t stone s hup hstone
    exact exec_stoneFailure_of_up hup hstone
  case drained =>
    intro t handle d s hd hstopped hpieces
    exact exec_dressingUnloadDrained_of_stopped hd hstopped hpieces
  case load =>
    intro h p img s v ht hlen hpart himg
    exact exec_loadDressing_of_whole ht hlen hpart himg
  case unload =>
    intro h handle d lib s ht hd hparty hlib
    exact exec_unloadDressing_of_own ht hd hparty hlib
  case info =>
    intro h handle d s ht hd hparty
    exact exec_getDressingInfo_of_own ht hd hparty
  case register =>
    intro h exponent modulus s ht hodd hmin hmod hfirst k hk
    exact exec_registerDressingKey_of_first ht hodd hmin hmod hfirst hk
  case remove =>
    intro h keyid k s ht hk hmem
    exact exec_removeDressingKey_of_mem ht hk hmem
  case status =>
    intro h s ht
    exact exec_getStoneStatus_of_takes ht
  case offline =>
    intro h stone s ht hstone hsound
    exact exec_setStoneOffline_of_sound ht hstone hsound
  case online =>
    intro h stone s ht hstone hoffline
    exact exec_setStoneOnline_of_offline ht hstone hoffline

end

section
/-! PROOFS. Pace, power and heat: the stone clock, the governor and the thermal steps (O32). -/
namespace Sys2Proof.Machine

theorem State.phase_ne_off_of_up {s : State} (hup : s.up = true) : s.phase ≠ .off := fun hoff => by
  simp [State.up, hoff] at hup

@[simp] theorem State.setTemp_steps (s : State) (p : Part17) (unit : Nat) (temp : Int) :
    (s.setTemp p unit temp).health.steps = s.health.steps := rfl

/-! ### Timed events: `u` is the state at the instant that the event carries. -/

section
variable {t : Nat} {s u : State} (hu : u = s.at_ t)
include hu

theorem exec_stoneStepChangeComplete_of_due {g : Nat} (htarget : u.clock.target = some g) (hup : u.up = true)
    (hdue : u.clock.changeAt ≤ u.now) :
    exec (.stoneStepChangeComplete t) s = .next ((u.modClock fun c =>
      { c with cycBase := u.cyc, cycAt := u.now, step := g, target := none, changes := bump 32 c.changes 1 }).pumpStone.beginWaiting.caps.noteVitals u) := by
  subst hu
  show execStoneStepChangeComplete t s = _
  simp only [execStoneStepChangeComplete, htarget]
  exact if_pos ⟨hup, hdue⟩

/-! ### The governor (R18, R19, R418) -/

section
variable {avg : Nat} {v : State} (hup : u.up = true) (hv : v = u.modPower fun p => { p with avg := avg })
include hup hv

/-- Above the limit and with the last step settled, the governor takes the step that is next, where there is one. -/
theorem exec_governorStep_of_above (habove : u.power.limit < avg) (hsettled : v.power.taken = [] ∨ v.power.lastStep + 2 * ms ≤ v.now) :
    (v.nextGov = none → exec (.governorStep t avg) s = .next v) ∧
    (∀ k, v.nextGov = some k → exec (.governorStep t avg) s = .next ((v.modPower fun p =>
      { p with taken := k :: p.taken, lastStep := v.now, steps := bump 32 p.steps 1 }).applySteps.noteVitals v)) := by
  have hact : ¬ (¬ u.up = true ∨ avg ≤ u.power.limit) := by simp [hup, habove]
  have hfree : ¬ (v.power.taken ≠ [] ∧ v.now < v.power.lastStep + 2 * ms) := fun h =>
    hsettled.elim h.1 fun hle => absurd h.2 (Nat.not_lt.mpr hle)
  subst hu hv
  refine ⟨fun hnone => ?_, fun k hsome => ?_⟩ <;> show execGovernorStep t avg s = _
  · simp only [execGovernorStep, if_neg hact, if_neg hfree, hnone]
  · simp only [execGovernorStep, if_neg hact, if_neg hfree, hsome]

theorem exec_governorRetreat_of_below {k : Nat} {rest : List Nat} (hbelow : avg + 20 ≤ u.power.limit)
    (htaken : v.power.taken = k :: rest) (hstep : v.power.lastStep + 50 * ms ≤ v.now) (hundo : v.power.lastUndo + 50 * ms ≤ v.now) :
    exec (.governorRetreat t avg) s =
      .next ((v.modPower fun p => { p with taken := rest, lastUndo := v.now }).applySteps.noteVitals v) := by
  have hact : ¬ (¬ u.up = true ∨ u.power.limit < avg + 20) := by simp [hup, hbelow]
  have hdue : ¬ (v.now < v.power.lastStep + 50 * ms ∨ v.now < v.power.lastUndo + 50 * ms) := by omega
  subst hu hv
  show execGovernorRetreat t avg s = _
  simp only [execGovernorRetreat, if_neg hact, htaken, if_neg hdue]

end

/-! ### Thermal steps (R415, R416) -/

section
variable {unit : Nat} {part : Part17} {temp : Int} {v : State} (hup : u.up = true) (hunit : unit < partUnits part)
  (hv : v = u.setTemp part unit temp)
include hup hunit hv

/-- A step is taken a millisecond after the last at the earliest; crossing the warning threshold is reported too. -/
theorem exec_thermalStep_of_hot {k : Nat} {w : State}
    (hw : w = (if (u.health.sensors.get (sensorKey part unit)).temp < warnAt part ∧ warnAt part ≤ temp then
      v.post fmSrc 1 (thermalEvent unit temp 0) else v)) (hhot : stepAt part ≤ temp)
    (hsettled : u.health.lastTherm = 0 ∨ u.health.lastTherm + ms ≤ u.now) (hkind : w.thermKind part = some k) :
    exec (.thermalStep t part unit temp) s = .next (((w.modHealth fun h => { h with
        steps := { part := part, unit := unit, kind := k } :: h.steps
        lastTherm := u.now
        stepCount := bump 16 h.stepCount 1 }).post fmSrc 1 (thermalEvent unit temp k)).applySteps.noteVitals u) := by
  have hon : ¬ (u.phase = .off ∨ partUnits part ≤ unit) := not_or.mpr ⟨State.phase_ne_off_of_up hup, Nat.not_le.mpr hunit⟩
  have hdue : ¬ (temp < stepAt part ∨ (u.health.lastTherm ≠ 0 ∧ u.now < u.health.lastTherm + ms)) := by omega
  subst hu hv hw
  show execThermalStep t part unit temp s = _
  simp only [execThermalStep, if_neg hon, if_neg (not_not_intro hup), if_neg hdue, hkind]

/-- A step of a part is undone once the part has been cool, and none of its steps has been undone, for 100 ms. -/
theorem exec_thermalRetreat_of_cool {key : Nat} (hkey : key = sensorKey part unit)
    (hmine : ∃ y ∈ v.health.steps, y.part = part ∧ y.unit = unit) (hcool : temp < retreatAt part)
    (hhot : (v.health.sensors.get key).lastHot + 100 * ms ≤ u.now) (hundo : (v.health.sensors.get key).lastUndo + 100 * ms ≤ u.now) :
    exec (.thermalRetreat t part unit temp) s = .next ((v.modHealth fun h => { h with
      steps := dropStep part unit h.steps
      sensors := h.sensors.upd key fun y => { y with lastUndo := u.now } }).applySteps.noteVitals u) := by
  have hon : ¬ (¬ u.up = true ∨ partUnits part ≤ unit) := not_or.mpr ⟨not_not_intro hup, Nat.not_le.mpr hunit⟩
  have hany : (u.health.steps.any fun y => y.part == part && y.unit == unit) = true := by
    simpa [hv] using hmine
  have hdue : ¬ (¬ (u.health.steps.any fun y => y.part == part && y.unit == unit) = true ∨ retreatAt part ≤ temp ∨
      u.now < (v.health.sensors.get key).lastHot + 100 * ms ∨ u.now < (v.health.sensors.get key).lastUndo + 100 * ms) := by
    rintro (hnone | hdue)
    · exact hnone hany
    · omega
  subst hu hv hkey
  show execThermalRetreat t part unit temp s = _
  simp only [execThermalRetreat, if_neg hon, if_neg hdue]

end

end

/-! ### Commands (C0E0h, C0E1h, C0E3h) -/

section
variable {h : MbHdr} {s : State}

theorem exec_setPowerLimit_of_range {limit : Nat} (ht : s.takes h { opcode := 0xC0E0, ld := false, fm := .module, len := [10] })
    (hmin : 450 ≤ limit) (hmax : limit ≤ 850) :
    exec (.setPowerLimit h limit) s = .next ((s.modPower fun p => { p with limit := limit }).replied h 0xC0E0 [] []) := by
  have hok : ¬ (limit < 450 ∨ 850 < limit) := by omega
  show execSetPowerLimit h limit s = _
  rw [execSetPowerLimit, State.mbRun_takes ht (if_neg hok)]

theorem exec_getPowerStatus_of_takes (ht : s.takes h { opcode := 0xC0E1, ld := false, fm := .module }) :
    exec (.getPowerStatus h) s = .next ((s.freeFields 8 5).2.replied h 0xC0E1 ([⟨0, 2, s.power.avg⟩, ⟨2, 2, s.power.limit⟩,
      ⟨4, 1, s.deepestStep⟩, ⟨5, 1, s.clock.step⟩, ⟨6, 1, s.near.point⟩, ⟨7, 1, b2n (s.health.steps != [])⟩] ++ (s.freeFields 8 5).1) []) := by
  show execGetPowerStatus h s = _
  rw [execGetPowerStatus, State.mbRun_takes ht rfl]

theorem exec_getThermalStatus_of_takes (ht : s.takes h { opcode := 0xC0E3, ld := false, fm := .module }) :
    exec (.getThermalStatus h) s = .next (s.replied h 0xC0E3 (⟨0, 2, tempField (s.tempOf .hub 0)⟩ ::
      ((List.range 4).map fun d => (⟨2 + 2 * d, 2, tempField (s.tempOf .stoneDie d)⟩ : Fld)) ++
      ((List.range 6).map fun p => (⟨10 + 2 * p, 2, tempField (s.tempOf .engine p)⟩ : Fld)) ++
      [⟨22, 2, tempField (s.hottestOf .flash)⟩, ⟨24, 2, tempField (s.hottestOf .stack)⟩]) []) := by
  show execGetThermalStatus h s = _
  rw [execGetThermalStatus, State.mbRun_takes ht rfl]

end

end Sys2Proof.Machine

open Sys2Proof.Machine

/-- Settles O32: each clause is the lemma of its event or command. -/
theorem powerComplete : Obligations.PowerComplete := by
  unfold Obligations.PowerComplete
  refine ⟨?clock, ?governor, ?retreat, ?limit, ?power, ?heat, ?cool, ?thermal⟩
  case clock =>
    intro t g s u hu htarget hup hdue
    exact exec_stoneStepChangeComplete_of_due hu htarget hup hdue
  case governor =>
    intro t avg s u v hu hup habove hv hsettled
    exact exec_governorStep_of_above hu hup hv habove hsettled
  case retreat =>
    intro t avg k rest s u v hu hup hbelow hv htaken hstep hundo
    exact exec_governorRetreat_of_below hu hup hv hbelow htaken hstep hundo
  case limit =>
    intro h limit s ht hmin hmax
    exact exec_setPowerLimit_of_range ht hmin hmax
  case power =>
    intro h s ht
    exact exec_getPowerStatus_of_takes ht
  case heat =>
    intro t unit k part temp s u v w hu hup hunit hv hw hhot hsettled hkind
    exact exec_thermalStep_of_hot hu hup hunit hv hw hhot hsettled hkind
  case cool =>
    intro t unit key part temp s u v hu hup hunit hkey hv hmine hcool hhot hundo
    exact exec_thermalRetreat_of_cool hu hup hunit hv hkey hmine hcool hhot hundo
  case thermal =>
    intro h s ht
    exact exec_getThermalStatus_of_takes ht

end

section
/-! PROOFS. A step keeps the canonical form of the stored data (O3), and the commands that leave all stored data as they are (O57). -/
namespace Sys2Proof.Machine

/-! ### Every command is a safe step -/

theorem exec_safe {i : Instr} {s v : State} (h : exec i s = .next v) : SafeStep s v := by
  cases i with
  | cxlMemRead port ldid hpa tag mv upset => exact execCxlMemRead_safe port ldid hpa tag mv upset s v h
  | cxlMemWrite port ldid hpa tag data enables poison => exact execCxlMemWrite_safe port ldid hpa tag data enables poison s v h
  | sackAllocJournalled t sack => exact execSackAllocJournalled_safe t sack s v h
  | sackEntryRebuild t sack journalOk => exact execSackEntryRebuild_safe t sack journalOk s v h
  | mergeIdleFlush t blk => exact execMergeIdleFlush_safe t blk s v h
  | encoderWriteDone t blk => exact execEncoderWriteDone_safe t blk s v h
  | mirrorRecordFreed t blk => exact execMirrorRecordFreed_safe t blk s v h
  | governorStep t avg => exact execGovernorStep_safe t avg s v h
  | governorRetreat t avg => exact execGovernorRetreat_safe t avg s v h
  | thermalStep t part unit temp => exact execThermalStep_safe t part unit temp s v h
  | thermalRetreat t part unit temp => exact execThermalRetreat_safe t part unit temp s v h
  | thermalTrip t part unit temp => exact execThermalTrip_safe t part unit temp s v h
  | unitFailure t u => exact execUnitFailure_safe t u s v h
  | stoneFailure t stone => exact execStoneFailure_safe t stone s v h
  | stackLoss t stack => exact execStackLoss_safe t stack s v h
  | remirror t blk => exact execRemirror_safe t blk s v h
  | reservedRegionRebuild t stack => exact execReservedRegionRebuild_safe t stack s v h
  | hubDieFailure t => exact execHubDieFailure_safe t s v h
  | initiateDcAdd hd host policy exts => exact execInitiateDcAdd_safe hd host policy exts s v h
  | addDcResponse hd exts => exact execAddDcResponse_safe hd exts s v h
  | initiateDcRelease hd host forced exts => exact execInitiateDcRelease_safe hd host forced exts s v h
  | releaseDc hd exts => exact execReleaseDc_safe hd exts s v h
  | extentDiscard t eid => exact execExtentDiscard_safe t eid s v h
  | wheelBeacon ld wheel size aligned value => exact execWheelBeacon_safe ld wheel size aligned value s v h
  | wheelIdleTimeout t ld wheel => exact execWheelIdleTimeout_safe t ld wheel s v h
  | wheelRestTimeout t ld wheel => exact execWheelRestTimeout_safe t ld wheel s v h
  | openWheel hd n dlead pclass cclass flags sig idle rest watch => exact execOpenWheel_safe hd n dlead pclass cclass flags sig idle rest watch s v h
  | closeWheel hd index => exact execCloseWheel_safe hd index s v h
  | importSchedule hd p index => exact execImportSchedule_safe hd p index s v h
  | exportSchedule hd o index => exact execExportSchedule_safe hd o index s v h
  | saveSchedule hd index => exact execSaveSchedule_safe hd index s v h
  | deleteSavedSchedule hd sig => exact execDeleteSavedSchedule_safe hd sig s v h
  | getWheelStatus hd index => exact execGetWheelStatus_safe hd index s v h
  | setWheelTimers hd index idle rest => exact execSetWheelTimers_safe hd index idle rest s v h
  | rephaseWheel hd index => exact execRephaseWheel_safe hd index s v h
  | promotionComplete t sack => exact execPromotionComplete_safe t sack s v h
  | victimScan t stack => exact execVictimScan_safe t stack s v h
  | demotionDrained t sack => exact execDemotionDrained_safe t sack s v h
  | writebackComplete t sack => exact execWritebackComplete_safe t sack s v h
  | durableDirtyTimeout t blk => exact execDurableDirtyTimeout_safe t blk s v h
  | demandReadTimeout t rid => exact execDemandReadTimeout_safe t rid s v h
  | channelHalt t channel cause blocks => exact execChannelHalt_safe t channel cause blocks s v h
  | bolterBuildStart t set => exact execBolterBuildStart_safe t set s v h
  | stageIdleTimeout t set => exact execStageIdleTimeout_safe t set s v h
  | bolterBuildComplete t set => exact execBolterBuildComplete_safe t set s v h
  | recodeSweep t set => exact execRecodeSweep_safe t set s v h
  | recodeGapTimeout t set => exact execRecodeGapTimeout_safe t set s v h
  | generationRelease t set => exact execGenerationRelease_safe t set s v h
  | codecCacheFill t blk => exact execCodecCacheFill_safe t blk s v h
  | allocateTableSet hd src rate cols => exact execAllocateTableSet_safe hd src rate cols s v h
  | freeTableSet hd set => exact execFreeTableSet_safe hd set s v h
  | getTableSetStatus hd set => exact execGetTableSetStatus_safe hd set s v h
  | rebuildTableSet hd set base => exact execRebuildTableSet_safe hd set base s v h
  | importCodebook hd set image => exact execImportCodebook_safe hd set image s v h
  | exportCodebook hd set => exact execExportCodebook_safe hd set s v h
  | pieceStart t stone => exact execPieceStart_safe t stone s v h
  | pieceEnd t stone => exact execPieceEnd_safe t stone s v h
  | stoneReadRequest t stone tag dpa count => exact execStoneReadRequest_safe t stone tag dpa count s v h
  | hopperLineDeliver t stone tag line upset => exact execHopperLineDeliver_safe t stone tag line upset s v h
  | stoneTake t stone tag => exact execStoneTake_safe t stone tag s v h
  | checkpointWatchdog t stone => exact execCheckpointWatchdog_safe t stone s v h
  | accumulatorLimit t stone => exact execAccumulatorLimit_safe t stone s v h
  | codeFetchTrap t stone => exact execCodeFetchTrap_safe t stone s v h
  | preemptCheckpoint t stone => exact execPreemptCheckpoint_safe t stone s v h
  | stoneClearComplete t stone => exact execStoneClearComplete_safe t stone s v h
  | dressingUnloadDrained t handle => exact execDressingUnloadDrained_safe t handle s v h
  | loadDressing hd p => exact execLoadDressing_safe hd p s v h
  | unloadDressing hd handle => exact execUnloadDressing_safe hd handle s v h
  | getDressingInfo hd handle => exact execGetDressingInfo_safe hd handle s v h
  | registerDressingKey hd exponent modulus => exact execRegisterDressingKey_safe hd exponent modulus s v h
  | removeDressingKey hd keyid => exact execRemoveDressingKey_safe hd keyid s v h
  | getStoneStatus hd => exact execGetStoneStatus_safe hd s v h
  | setStoneOffline hd stone => exact execSetStoneOffline_safe hd stone s v h
  | setStoneOnline hd stone => exact execSetStoneOnline_safe hd stone s v h
  | gateParamWrite ld dpa data enables poison => exact execGateParamWrite_safe ld dpa data enables poison s v h
  | gateResultRead ld dpa tag => exact execGateResultRead_safe ld dpa tag s v h
  | gateHoldExpire t rid => exact execGateHoldExpire_safe t rid s v h
  | gateNop g => exact execGateNop_safe g s v h
  | gateOpcodeReserved g opcode => exact execGateOpcodeReserved_safe g opcode s v h
  | appendAttend g => exact execAppendAttend_safe g s v h
  | prefixAttach g => exact execPrefixAttach_safe g s v h
  | chunkPrefill g => exact execChunkPrefill_safe g s v h
  | prefillWritesDone t ld buf => exact execPrefillWritesDone_safe t ld buf s v h
  | prefixPublish g => exact execPrefixPublish_safe g s v h
  | publishCommit t ld buf => exact execPublishCommit_safe t ld buf s v h
  | seqTruncate g => exact execSeqTruncate_safe g s v h
  | graphSearch g => exact execGraphSearch_safe g s v h
  | distanceBatch g => exact execDistanceBatch_safe g s v h
  | setIntersect g => exact execSetIntersect_safe g s v h
  | setUnion g => exact execSetUnion_safe g s v h
  | setDifference g => exact execSetDifference_safe g s v h
  | tenant g => exact execTenant_safe g s v h
  | armGateSlots hd dpa count hold => exact execArmGateSlots_safe hd dpa count hold s v h
  | disarmGateSlots hd dpa count force => exact execDisarmGateSlots_safe hd dpa count force s v h
  | getSlotStatus hd dpa => exact execGetSlotStatus_safe hd dpa s v h
  | openSequence hd sbase layers hkv g d maxpos => exact execOpenSequence_safe hd sbase layers hkv g d maxpos s v h
  | closeSequence hd seq => exact execCloseSequence_safe hd seq s v h
  | getSequenceStatus hd seq => exact execGetSequenceStatus_safe hd seq s v h
  | defineIndex hd vbase abase nv entry dim vfmt deg metric => exact execDefineIndex_safe hd vbase abase nv entry dim vfmt deg metric s v h
  | deleteIndex hd index => exact execDeleteIndex_safe hd index s v h
  | addGranaryExtent hd base => exact execAddGranaryExtent_safe hd base s v h
  | removeGranaryExtent hd base => exact execRemoveGranaryExtent_safe hd base s v h
  | deleteBin hd key sig => exact execDeleteBin_safe hd key sig s v h
  | setBinAttributes hd key sig attr => exact execSetBinAttributes_safe hd key sig attr s v h
  | listBins hd o => exact execListBins_safe hd o s v h
  | getGranaryStatus hd => exact execGetGranaryStatus_safe hd s v h
  | resultCheckComplete t ld buf failed => exact execResultCheckComplete_safe t ld buf failed s v h
  | replayComplete t ld buf piece r => exact execReplayComplete_safe t ld buf piece r s v h
  | suspectTimeout t utype unit => exact execSuspectTimeout_safe t utype unit s v h
  | forwardExtendTimer t fwdid => exact execForwardExtendTimer_safe t fwdid s v h
  | streamCacheFill t entry corrupt => exact execStreamCacheFill_safe t entry corrupt s v h
  | guaranteeRecompute t resource => exact execGuaranteeRecompute_safe t resource s v h
  | capacityRiseTimeout t resource => exact execCapacityRiseTimeout_safe t resource s v h
  | captureWindowEnd t => exact execCaptureWindowEnd_safe t s v h
  | setClass hd cls share cache queue => exact execSetClass_safe hd cls share cache queue s v h
  | reserveGuarantee hd resource cls rate latbound => exact execReserveGuarantee_safe hd resource cls rate latbound s v h
  | releaseGuarantee hd resource => exact execReleaseGuarantee_safe hd resource s v h
  | getWeirStatus hd => exact execGetWeirStatus_safe hd s v h
  | setCaptureWindow hd mode wheel span => exact execSetCaptureWindow_safe hd mode wheel span s v h
  | getMaxLatency hd cls resource => exact execGetMaxLatency_safe hd cls resource s v h
  | refreshDue t stack channel rank queued => exact execRefreshDue_safe t stack channel rank queued s v h
  | selfRefreshIdle t stack => exact execSelfRefreshIdle_safe t stack s v h
  | freqChangeStackDone t stack spotOk => exact execFreqChangeStackDone_safe t stack spotOk s v h
  | retrainDue t stack point temp => exact execRetrainDue_safe t stack point temp s v h
  | retrainSlot t stack channel ok => exact execRetrainSlot_safe t stack channel ok s v h
  | garbageCollect t group => exact execGarbageCollect_safe t group s v h
  | wearLevelMove t group => exact execWearLevelMove_safe t group s v h
  | deepPageRead t slot outcome => exact execDeepPageRead_safe t slot outcome s v h
  | slotProgramDone t slot group => exact execSlotProgramDone_safe t slot group s v h
  | readRefresh t die block margin => exact execReadRefresh_safe t die block margin s v h
  | patrolRead t die block => exact execPatrolRead_safe t die block s v h
  | flashBlockFailure t die block => exact execFlashBlockFailure_safe t die block s v h
  | flashDieFailure t die => exact execFlashDieFailure_safe t die s v h
  | dieRebuildComplete t die => exact execDieRebuildComplete_safe t die s v h
  | journalPageProgrammed t => exact execJournalPageProgrammed_safe t s v h
  | checkpointImageDone t => exact execCheckpointImageDone_safe t s v h
  | holdupTestDue t => exact execHoldupTestDue_safe t s v h
  | holdupTestComplete t energy => exact execHoldupTestComplete_safe t energy s v h
  | powerLoss t => exact execPowerLoss_safe t s v h
  | gpfPhase1 t port => exact execGpfPhase1_safe t port s v h
  | gpfPhase2 t port => exact execGpfPhase2_safe t port s v h
  | setEnduranceBudget hd b => exact execSetEnduranceBudget_safe hd b s v h
  | testHoldupBank hd => exact execTestHoldupBank_safe hd s v h
  | setHoldupTestPeriod hd period => exact execSetHoldupTestPeriod_safe hd period s v h
  | nearScrub t blk word upset last => exact execNearScrub_safe t blk word upset last s v h
  | nearScrubBehind t => exact execNearScrubBehind_safe t s v h
  | sramScrub t unit loc upset => exact execSramScrub_safe t unit loc upset s v h
  | armFlipMaskNear hd dpa word mask => exact execArmFlipMaskNear_safe hd dpa word mask s v h
  | armFlipMaskStone hd stone bank word mask => exact execArmFlipMaskStone_safe hd stone bank word mask s v h
  | flipMaskExpire t ld => exact execFlipMaskExpire_safe t ld s v h
  | disarmFlipMask hd => exact execDisarmFlipMask_safe hd s v h
  | setScrubPeriod hd near sram => exact execSetScrubPeriod_safe hd near sram s v h
  | setNeighbourRefresh hd e => exact execSetNeighbourRefresh_safe hd e s v h
  | getCorrectableErrorTable hd o => exact execGetCorrectableErrorTable_safe hd o s v h
  | getUncorrectableErrorLog hd o => exact execGetUncorrectableErrorLog_safe hd o s v h
  | retireRow hd loc => exact execRetireRow_safe hd loc s v h
  | retireBank hd loc => exact execRetireBank_safe hd loc s v h
  | retireStack hd loc => exact execRetireStack_safe hd loc s v h
  | retireSack hd sack => exact execRetireSack_safe hd sack s v h
  | getRetirementList hd o => exact execGetRetirementList_safe hd o s v h
  | clearCorrectableErrorTable hd => exact execClearCorrectableErrorTable_safe hd s v h
  | digestStart t ld range => exact execDigestStart_safe t ld range s v h
  | digestComplete t ld range disagree turn => exact execDigestComplete_safe t ld range disagree turn s v h
  | ledgerCommit t => exact execLedgerCommit_safe t s v h
  | ledgerCoalesceEnd t kind utype unit => exact execLedgerCoalesceEnd_safe t kind utype unit s v h
  | getLedger hd seqno maxrec => exact execGetLedger_safe hd seqno maxrec s v h
  | getResultErrorLog hd o => exact execGetResultErrorLog_safe hd o s v h
  | setCheckPolicy hd s0 s1 s2 earlyen => exact execSetCheckPolicy_safe hd s0 s1 s2 earlyen s v h
  | getUnitHealth hd => exact execGetUnitHealth_safe hd s v h
  | installTestContent hd p => exact execInstallTestContent_safe hd p s v h
  | requestCalibration hd kind unit => exact execRequestCalibration_safe hd kind unit s v h
  | requestTestSlice hd utype unit slice => exact execRequestTestSlice_safe hd utype unit slice s v h
  | stagePartitionRequest hd p => exact execStagePartitionRequest_safe hd p s v h
  | unlockDebug hd p => exact execUnlockDebug_safe hd p s v h
  | getTestContent hd => exact execGetTestContent_safe hd s v h
  | clearUnitRecord hd utype unit => exact execClearUnitRecord_safe hd utype unit s v h
  | appendLedgerNote hd note => exact execAppendLedgerNote_safe hd note s v h
  | defineDigestRange hd base len key period wheel layer => exact execDefineDigestRange_safe hd base len key period wheel layer s v h
  | deleteDigestRange hd range => exact execDeleteDigestRange_safe hd range s v h
  | getDigest hd range => exact execGetDigest_safe hd range s v h
  | setDigestReference hd range reference => exact execSetDigestReference_safe hd range reference s v h
  | runDigest hd range => exact execRunDigest_safe hd range s v h
  | setDigestPeer hd range port window bind => exact execSetDigestPeer_safe hd range port window bind s v h
  | portTrainingAdvance t port light failed skew partner node flit256 => exact execPortTrainingAdvance_safe t port light failed skew partner node flit256 s v h
  | portTrainingTimeout t port => exact execPortTrainingTimeout_safe t port s v h
  | configMismatchRetry t port partner node flit256 => exact execConfigMismatchRetry_safe t port partner node flit256 s v h
  | laneFailure t port lane => exact execLaneFailure_safe t port lane s v h
  | laserAgeing t port lane wavelength bias => exact execLaserAgeing_safe t port lane wavelength bias s v h
  | laserFailure t port lane bias lowPower => exact execLaserFailure_safe t port lane bias lowPower s v h
  | portL0p t port width => exact execPortL0p_safe t port width s v h
  | portL1Entry t port => exact execPortL1Entry_safe t port s v h
  | portL2Entry t port => exact execPortL2Entry_safe t port s v h
  | peerStandbyTimeout t port => exact execPeerStandbyTimeout_safe t port s v h
  | portExitToActive t port => exact execPortExitToActive_safe t port s v h
  | pwr p data => exact execPwr_safe p data s v h
  | pack p => exact execPack_safe p s v h
  | psettleConfirm p m => exact execPsettleConfirm_safe p m s v h
  | psettleRetract p m => exact execPsettleRetract_safe p m s v h
  | psettleExtend p m => exact execPsettleExtend_safe p m s v h
  | psettleKindZero p m => exact execPsettleKindZero_safe p m s v h
  | pdigest p key digest turn changed => exact execPdigest_safe p key digest turn changed s v h
  | pnode p node => exact execPnode_safe p node s v h
  | peerBadMessage p => exact execPeerBadMessage_safe p s v h
  | provisionalTimeout t node fwdid => exact execProvisionalTimeout_safe t node fwdid s v h
  | pwrPendingResend t port tag => exact execPwrPendingResend_safe t port tag s v h
  | forwardTimeout t fwdid => exact execForwardTimeout_safe t fwdid s v h
  | peerGraceEnd t port window => exact execPeerGraceEnd_safe t port window s v h
  | setNodeIdentifier hd node => exact execSetNodeIdentifier_safe hd node s v h
  | setPeerWindow hd port window w => exact execSetPeerWindow_safe hd port window w s v h
  | commitPeerWindow hd port window => exact execCommitPeerWindow_safe hd port window s v h
  | getPeerWindow hd port window => exact execGetPeerWindow_safe hd port window s v h
  | bindSlotForward hd dpa port window offset => exact execBindSlotForward_safe hd dpa port window offset s v h
  | unbindSlotForward hd dpa => exact execUnbindSlotForward_safe hd dpa s v h
  | setPeerPort hd port enable standby grace => exact execSetPeerPort_safe hd port enable standby grace s v h
  | retrainPort hd port => exact execRetrainPort_safe hd port s v h
  | getPortTelemetry hd port => exact execGetPortTelemetry_safe hd port s v h
  | retrainLink ld => exact execRetrainLink_safe ld s v h
  | hdmDecoderCommit ld k d => exact execHdmDecoderCommit_safe ld k d s v h
  | birsp ld blk line writeback => exact execBirsp_safe ld blk line writeback s v h
  | bisnpTimeout t ld blk line => exact execBisnpTimeout_safe t ld blk line s v h
  | cxlRsvdEncoding port flit => exact execCxlRsvdEncoding_safe port flit s v h
  | badLdId port ldid kind tag => exact execBadLdId_safe port ldid kind tag s v h
  | cxlIoPoisonedWrite ld header => exact execCxlIoPoisonedWrite_safe ld header s v h
  | hotReset t port => exact execHotReset_safe t port s v h
  | linkDown t port => exact execLinkDown_safe t port s v h
  | ldIdHotReset t vector => exact execLdIdHotReset_safe t vector s v h
  | cxlReset t ld memClear => exact execCxlReset_safe t ld memClear s v h
  | flr t ld => exact execFlr_safe t ld s v h
  | busMasterDisable ld => exact execBusMasterDisable_safe ld s v h
  | dmaCompletion t ld tag data => exact execDmaCompletion_safe t ld tag data s v h
  | dmaCompletionTimeout t ld tag => exact execDmaCompletionTimeout_safe t ld tag s v h
  | ideIntegrityFail t port => exact execIdeIntegrityFail_safe t port s v h
  | cdatTableAccess ld => exact execCdatTableAccess_safe ld s v h
  | spdmGetMeasurements ld index signed => exact execSpdmGetMeasurements_safe ld index signed s v h
  | spdmKeyExchange ld => exact execSpdmKeyExchange_safe ld s v h
  | ideKeyProgram ld session activate => exact execIdeKeyProgram_safe ld session activate s v h
  | abortBackgroundOperation hd => exact execAbortBackgroundOperation_safe hd s v h
  | backgroundCommandComplete t src => exact execBackgroundCommandComplete_safe t src s v h
  | partImageTimeout t src opcode => exact execPartImageTimeout_safe t src opcode s v h
  | snapshotTimeout t src opcode => exact execSnapshotTimeout_safe t src opcode s v h
  | unsupportedCommand hd opcode => exact execUnsupportedCommand_safe hd opcode s v h
  | getModuleStatus hd => exact execGetModuleStatus_safe hd s v h
  | getUnitMap hd => exact execGetUnitMap_safe hd s v h
  | getPartitionMap hd o => exact execGetPartitionMap_safe hd o s v h
  | getStagedRequestStatus hd => exact execGetStagedRequestStatus_safe hd s v h
  | discardStagedRequest hd => exact execDiscardStagedRequest_safe hd s v h
  | keyLd hd => exact execKeyLd_safe hd s v h
  | zeroiseLdKey hd => exact execZeroiseLdKey_safe hd s v h
  | getRegionProfile hd region => exact execGetRegionProfile_safe hd region s v h
  | setRegionProfile hd region profile => exact execSetRegionProfile_safe hd region profile s v h
  | getExtentDescriptors hd o => exact execGetExtentDescriptors_safe hd o s v h
  | identifyMemoryDevice hd => exact execIdentifyMemoryDevice_safe hd s v h
  | getSupportedLogs hd => exact execGetSupportedLogs_safe hd s v h
  | getLog hd isCel offset length => exact execGetLog_safe hd isCel offset length s v h
  | getEventRecords hd log => exact execGetEventRecords_safe hd log s v h
  | clearEventRecords hd log all handles => exact execClearEventRecords_safe hd log all handles s v h
  | getEventInterruptPolicy hd => exact execGetEventInterruptPolicy_safe hd s v h
  | setEventInterruptPolicy hd modes => exact execSetEventInterruptPolicy_safe hd modes s v h
  | getFwInfo hd => exact execGetFwInfo_safe hd s v h
  | transferFw hd slot p => exact execTransferFw_safe hd slot p s v h
  | activateFw hd online slot => exact execActivateFw_safe hd online slot s v h
  | getTimestamp hd => exact execGetTimestamp_safe hd s v h
  | setTimestamp hd value => exact execSetTimestamp_safe hd value s v h
  | getHealthInfo hd => exact execGetHealthInfo_safe hd s v h
  | getPoisonList hd dpa lines => exact execGetPoisonList_safe hd dpa lines s v h
  | injectPoison hd dpa => exact execInjectPoison_safe hd dpa s v h
  | clearPoison hd dpa data => exact execClearPoison_safe hd dpa data s v h
  | getDcConfiguration hd first count => exact execGetDcConfiguration_safe hd first count s v h
  | getDcExtentList hd count start => exact execGetDcExtentList_safe hd count start s v h
  | getDcdInfo hd => exact execGetDcdInfo_safe hd s v h
  | getHostDcRegionConfig hd host first count => exact execGetHostDcRegionConfig_safe hd host first count s v h
  | getDcRegionExtentLists hd host count start => exact execGetDcRegionExtentLists_safe hd host count start s v h
  | getLdInfo hd => exact execGetLdInfo_safe hd s v h
  | getLdAllocations hd start limit => exact execGetLdAllocations_safe hd start limit s v h
  | fmQosControl hd set => exact execFmQosControl_safe hd set s v h
  | millerBoot t cause trained => exact execMillerBoot_safe t cause trained s v h
  | millerWatchdog t => exact execMillerWatchdog_safe t s v h
  | millerFetchFault t => exact execMillerFetchFault_safe t s v h
  | firmwareTrialCommit t => exact execFirmwareTrialCommit_safe t s v h
  | getDebugChallenge hd => exact execGetDebugChallenge_safe hd s v h
  | debugNonceExpire t => exact execDebugNonceExpire_safe t s v h
  | getDebugState hd => exact execGetDebugState_safe hd s v h
  | setPowerLimit hd limit => exact execSetPowerLimit_safe hd limit s v h
  | getPowerStatus hd => exact execGetPowerStatus_safe hd s v h
  | setSelfRefreshIdle hd idle => exact execSetSelfRefreshIdle_safe hd idle s v h
  | getThermalStatus hd => exact execGetThermalStatus_safe hd s v h
  | vaux33PowerOn t => exact execVaux33PowerOn_safe t s v h
  | fastOscQualified t xdly => exact execFastOscQualified_safe t xdly s v h
  | crystalQualified t crystal => exact execCrystalQualified_safe t crystal s v h
  | crystalQualTimeout t crystal => exact execCrystalQualTimeout_safe t crystal s v h
  | crystalTrip t crystal => exact execCrystalTrip_safe t crystal s v h
  | fastOscFail t => exact execFastOscFail_safe t s v h
  | pwrgdAssert t => exact execPwrgdAssert_safe t s v h
  | pwrgdDeassert t => exact execPwrgdDeassert_safe t s v h
  | perstAssert t held => exact execPerstAssert_safe t held s v h
  | perstDeassert t => exact execPerstDeassert_safe t s v h
  | vin48Overvoltage t => exact execVin48Overvoltage_safe t s v h
  | vaux33Loss t => exact execVaux33Loss_safe t s v h
  | pllLockLoss t domain unit => exact execPllLockLoss_safe t domain unit s v h
  | pllRelock t domain unit => exact execPllRelock_safe t domain unit s v h
  | clockGateRequest t kind unit => exact execClockGateRequest_safe t kind unit s v h
  | gateHandshakeTimeout t kind unit => exact execGateHandshakeTimeout_safe t kind unit s v h
  | clockGateWake t kind unit => exact execClockGateWake_safe t kind unit s v h
  | sliceDue t slice unit => exact execSliceDue_safe t slice unit s v h
  | sliceGapTimeout t slice unit => exact execSliceGapTimeout_safe t slice unit s v h
  | sliceDeferralExpire t slice unit => exact execSliceDeferralExpire_safe t slice unit s v h
  | sliceComplete t slice unit outcome => exact execSliceComplete_safe t slice unit outcome s v h
  | getTestSchedule hd o => exact execGetTestSchedule_safe hd o s v h
  | setTestInterval hd slice interval => exact execSetTestInterval_safe hd slice interval s v h
  | setDeferralLimit hd limit => exact execSetDeferralLimit_safe hd limit s v h
  | getAgeingTelemetry hd o => exact execGetAgeingTelemetry_safe hd o s v h
  | getTenteringPlan hd => exact execGetTenteringPlan_safe hd s v h
  | pathMonitorSample t readings hub => exact execPathMonitorSample_safe t readings hub s v h
  | tenteringRun t waf30 margins => exact execTenteringRun_safe t waf30 margins s v h
  | registerWrite r => exact execRegisterWrite_safe r s v h
  | stoneStepChangeComplete t => exact execStoneStepChangeComplete_safe t s v h
  | holdupBankFailed t => exact execHoldupBankFailed_safe t s v h
  | refreshWindowHot t stack temp => exact execRefreshWindowHot_safe t stack temp s v h
  | burstCreditRefill t => exact execBurstCreditRefill_safe t s v h
  | vin48InputReconnect t => exact execVin48InputReconnect_safe t s v h
  | flitCrcFailure port e header => exact execFlitCrcFailure_safe port e header s v h
  | spdmEndSession ld session => exact execSpdmEndSession_safe ld session s v h
  | busMasterEnable ld => exact execBusMasterEnable_safe ld s v h
  | d3hotEntry ld toD3 => exact execD3hotEntry_safe ld toD3 s v h

/-! ### The commands that leave the stored data -/

theorem exec_keeps {i : Instr} {s v : State} (hi : leavesData i = true) (h : exec i s = .next v) : DataKept s v := by
  cases i with
  | governorStep t avg => exact execGovernorStep_keeps t avg s v h
  | governorRetreat t avg => exact execGovernorRetreat_keeps t avg s v h
  | thermalStep t part unit temp => exact execThermalStep_keeps t part unit temp s v h
  | thermalRetreat t part unit temp => exact execThermalRetreat_keeps t part unit temp s v h
  | hubDieFailure t => exact execHubDieFailure_keeps t s v h
  | exportSchedule hd o index => exact execExportSchedule_keeps hd o index s v h
  | saveSchedule hd index => exact execSaveSchedule_keeps hd index s v h
  | getWheelStatus hd index => exact execGetWheelStatus_keeps hd index s v h
  | getTableSetStatus hd set => exact execGetTableSetStatus_keeps hd set s v h
  | exportCodebook hd set => exact execExportCodebook_keeps hd set s v h
  | stoneTake t stone tag => exact execStoneTake_keeps t stone tag s v h
  | preemptCheckpoint t stone => exact execPreemptCheckpoint_keeps t stone s v h
  | stoneClearComplete t stone => exact execStoneClearComplete_keeps t stone s v h
  | dressingUnloadDrained t handle => exact execDressingUnloadDrained_keeps t handle s v h
  | loadDressing hd p => exact execLoadDressing_keeps hd p s v h
  | unloadDressing hd handle => exact execUnloadDressing_keeps hd handle s v h
  | getDressingInfo hd handle => exact execGetDressingInfo_keeps hd handle s v h
  | registerDressingKey hd exponent modulus => exact execRegisterDressingKey_keeps hd exponent modulus s v h
  | removeDressingKey hd keyid => exact execRemoveDressingKey_keeps hd keyid s v h
  | getStoneStatus hd => exact execGetStoneStatus_keeps hd s v h
  | setStoneOffline hd stone => exact execSetStoneOffline_keeps hd stone s v h
  | setStoneOnline hd stone => exact execSetStoneOnline_keeps hd stone s v h
  | getSlotStatus hd dpa => exact execGetSlotStatus_keeps hd dpa s v h
  | getSequenceStatus hd seq => exact execGetSequenceStatus_keeps hd seq s v h
  | removeGranaryExtent hd base => exact execRemoveGranaryExtent_keeps hd base s v h
  | listBins hd o => exact execListBins_keeps hd o s v h
  | getGranaryStatus hd => exact execGetGranaryStatus_keeps hd s v h
  | forwardExtendTimer t fwdid => exact execForwardExtendTimer_keeps t fwdid s v h
  | guaranteeRecompute t resource => exact execGuaranteeRecompute_keeps t resource s v h
  | capacityRiseTimeout t resource => exact execCapacityRiseTimeout_keeps t resource s v h
  | captureWindowEnd t => exact execCaptureWindowEnd_keeps t s v h
  | setClass hd cls share cache queue => exact execSetClass_keeps hd cls share cache queue s v h
  | reserveGuarantee hd resource cls rate latbound => exact execReserveGuarantee_keeps hd resource cls rate latbound s v h
  | releaseGuarantee hd resource => exact execReleaseGuarantee_keeps hd resource s v h
  | getWeirStatus hd => exact execGetWeirStatus_keeps hd s v h
  | setCaptureWindow hd mode wheel span => exact execSetCaptureWindow_keeps hd mode wheel span s v h
  | getMaxLatency hd cls resource => exact execGetMaxLatency_keeps hd cls resource s v h
  | refreshDue t stack channel rank queued => exact execRefreshDue_keeps t stack channel rank queued s v h
  | selfRefreshIdle t stack => exact execSelfRefreshIdle_keeps t stack s v h
  | retrainDue t stack point temp => exact execRetrainDue_keeps t stack point temp s v h
  | garbageCollect t group => exact execGarbageCollect_keeps t group s v h
  | wearLevelMove t group => exact execWearLevelMove_keeps t group s v h
  | slotProgramDone t slot group => exact execSlotProgramDone_keeps t slot group s v h
  | readRefresh t die block margin => exact execReadRefresh_keeps t die block margin s v h
  | patrolRead t die block => exact execPatrolRead_keeps t die block s v h
  | dieRebuildComplete t die => exact execDieRebuildComplete_keeps t die s v h
  | journalPageProgrammed t => exact execJournalPageProgrammed_keeps t s v h
  | checkpointImageDone t => exact execCheckpointImageDone_keeps t s v h
  | holdupTestDue t => exact execHoldupTestDue_keeps t s v h
  | gpfPhase1 t port => exact execGpfPhase1_keeps t port s v h
  | gpfPhase2 t port => exact execGpfPhase2_keeps t port s v h
  | setEnduranceBudget hd b => exact execSetEnduranceBudget_keeps hd b s v h
  | testHoldupBank hd => exact execTestHoldupBank_keeps hd s v h
  | setHoldupTestPeriod hd period => exact execSetHoldupTestPeriod_keeps hd period s v h
  | nearScrubBehind t => exact execNearScrubBehind_keeps t s v h
  | armFlipMaskNear hd dpa word mask => exact execArmFlipMaskNear_keeps hd dpa word mask s v h
  | armFlipMaskStone hd stone bank word mask => exact execArmFlipMaskStone_keeps hd stone bank word mask s v h
  | flipMaskExpire t ld => exact execFlipMaskExpire_keeps t ld s v h
  | disarmFlipMask hd => exact execDisarmFlipMask_keeps hd s v h
  | setScrubPeriod hd near sram => exact execSetScrubPeriod_keeps hd near sram s v h
  | setNeighbourRefresh hd e => exact execSetNeighbourRefresh_keeps hd e s v h
  | getCorrectableErrorTable hd o => exact execGetCorrectableErrorTable_keeps hd o s v h
  | getUncorrectableErrorLog hd o => exact execGetUncorrectableErrorLog_keeps hd o s v h
  | getRetirementList hd o => exact execGetRetirementList_keeps hd o s v h
  | clearCorrectableErrorTable hd => exact execClearCorrectableErrorTable_keeps hd s v h
  | ledgerCoalesceEnd t kind utype unit => exact execLedgerCoalesceEnd_keeps t kind utype unit s v h
  | getLedger hd seqno maxrec => exact execGetLedger_keeps hd seqno maxrec s v h
  | getResultErrorLog hd o => exact execGetResultErrorLog_keeps hd o s v h
  | setCheckPolicy hd s0 s1 s2 earlyen => exact execSetCheckPolicy_keeps hd s0 s1 s2 earlyen s v h
  | getUnitHealth hd => exact execGetUnitHealth_keeps hd s v h
  | installTestContent hd p => exact execInstallTestContent_keeps hd p s v h
  | requestCalibration hd kind unit => exact execRequestCalibration_keeps hd kind unit s v h
  | requestTestSlice hd utype unit slice => exact execRequestTestSlice_keeps hd utype unit slice s v h
  | stagePartitionRequest hd p => exact execStagePartitionRequest_keeps hd p s v h
  | unlockDebug hd p => exact execUnlockDebug_keeps hd p s v h
  | getTestContent hd => exact execGetTestContent_keeps hd s v h
  | clearUnitRecord hd utype unit => exact execClearUnitRecord_keeps hd utype unit s v h
  | appendLedgerNote hd note => exact execAppendLedgerNote_keeps hd note s v h
  | defineDigestRange hd base len key period wheel layer => exact execDefineDigestRange_keeps hd base len key period wheel layer s v h
  | deleteDigestRange hd range => exact execDeleteDigestRange_keeps hd range s v h
  | getDigest hd range => exact execGetDigest_keeps hd range s v h
  | setDigestReference hd range reference => exact execSetDigestReference_keeps hd range reference s v h
  | runDigest hd range => exact execRunDigest_keeps hd range s v h
  | setDigestPeer hd range port window bind => exact execSetDigestPeer_keeps hd range port window bind s v h
  | laserAgeing t port lane wavelength bias => exact execLaserAgeing_keeps t port lane wavelength bias s v h
  | portL0p t port width => exact execPortL0p_keeps t port width s v h
  | portL1Entry t port => exact execPortL1Entry_keeps t port s v h
  | portL2Entry t port => exact execPortL2Entry_keeps t port s v h
  | peerStandbyTimeout t port => exact execPeerStandbyTimeout_keeps t port s v h
  | portExitToActive t port => exact execPortExitToActive_keeps t port s v h
  | pack p => exact execPack_keeps p s v h
  | psettleExtend p m => exact execPsettleExtend_keeps p m s v h
  | psettleKindZero p m => exact execPsettleKindZero_keeps p m s v h
  | pdigest p key digest turn changed => exact execPdigest_keeps p key digest turn changed s v h
  | pnode p node => exact execPnode_keeps p node s v h
  | peerBadMessage p => exact execPeerBadMessage_keeps p s v h
  | pwrPendingResend t port tag => exact execPwrPendingResend_keeps t port tag s v h
  | forwardTimeout t fwdid => exact execForwardTimeout_keeps t fwdid s v h
  | peerGraceEnd t port window => exact execPeerGraceEnd_keeps t port window s v h
  | setNodeIdentifier hd node => exact execSetNodeIdentifier_keeps hd node s v h
  | setPeerWindow hd port window w => exact execSetPeerWindow_keeps hd port window w s v h
  | commitPeerWindow hd port window => exact execCommitPeerWindow_keeps hd port window s v h
  | getPeerWindow hd port window => exact execGetPeerWindow_keeps hd port window s v h
  | bindSlotForward hd dpa port window offset => exact execBindSlotForward_keeps hd dpa port window offset s v h
  | unbindSlotForward hd dpa => exact execUnbindSlotForward_keeps hd dpa s v h
  | setPeerPort hd port enable standby grace => exact execSetPeerPort_keeps hd port enable standby grace s v h
  | retrainPort hd port => exact execRetrainPort_keeps hd port s v h
  | getPortTelemetry hd port => exact execGetPortTelemetry_keeps hd port s v h
  | retrainLink ld => exact execRetrainLink_keeps ld s v h
  | hdmDecoderCommit ld k d => exact execHdmDecoderCommit_keeps ld k d s v h
  | cxlRsvdEncoding port flit => exact execCxlRsvdEncoding_keeps port flit s v h
  | badLdId port ldid kind tag => exact execBadLdId_keeps port ldid kind tag s v h
  | cxlIoPoisonedWrite ld header => exact execCxlIoPoisonedWrite_keeps ld header s v h
  | busMasterDisable ld => exact execBusMasterDisable_keeps ld s v h
  | dmaCompletion t ld tag data => exact execDmaCompletion_keeps t ld tag data s v h
  | dmaCompletionTimeout t ld tag => exact execDmaCompletionTimeout_keeps t ld tag s v h
  | cdatTableAccess ld => exact execCdatTableAccess_keeps ld s v h
  | spdmGetMeasurements ld index signed => exact execSpdmGetMeasurements_keeps ld index signed s v h
  | spdmKeyExchange ld => exact execSpdmKeyExchange_keeps ld s v h
  | ideKeyProgram ld session activate => exact execIdeKeyProgram_keeps ld session activate s v h
  | partImageTimeout t src opcode => exact execPartImageTimeout_keeps t src opcode s v h
  | snapshotTimeout t src opcode => exact execSnapshotTimeout_keeps t src opcode s v h
  | unsupportedCommand hd opcode => exact execUnsupportedCommand_keeps hd opcode s v h
  | getModuleStatus hd => exact execGetModuleStatus_keeps hd s v h
  | getUnitMap hd => exact execGetUnitMap_keeps hd s v h
  | getPartitionMap hd o => exact execGetPartitionMap_keeps hd o s v h
  | getStagedRequestStatus hd => exact execGetStagedRequestStatus_keeps hd s v h
  | discardStagedRequest hd => exact execDiscardStagedRequest_keeps hd s v h
  | getRegionProfile hd region => exact execGetRegionProfile_keeps hd region s v h
  | getExtentDescriptors hd o => exact execGetExtentDescriptors_keeps hd o s v h
  | identifyMemoryDevice hd => exact execIdentifyMemoryDevice_keeps hd s v h
  | getSupportedLogs hd => exact execGetSupportedLogs_keeps hd s v h
  | getLog hd isCel offset length => exact execGetLog_keeps hd isCel offset length s v h
  | getEventRecords hd log => exact execGetEventRecords_keeps hd log s v h
  | clearEventRecords hd log all handles => exact execClearEventRecords_keeps hd log all handles s v h
  | getEventInterruptPolicy hd => exact execGetEventInterruptPolicy_keeps hd s v h
  | setEventInterruptPolicy hd modes => exact execSetEventInterruptPolicy_keeps hd modes s v h
  | getFwInfo hd => exact execGetFwInfo_keeps hd s v h
  | activateFw hd online slot => exact execActivateFw_keeps hd online slot s v h
  | getTimestamp hd => exact execGetTimestamp_keeps hd s v h
  | setTimestamp hd value => exact execSetTimestamp_keeps hd value s v h
  | getHealthInfo hd => exact execGetHealthInfo_keeps hd s v h
  | getPoisonList hd dpa lines => exact execGetPoisonList_keeps hd dpa lines s v h
  | getDcConfiguration hd first count => exact execGetDcConfiguration_keeps hd first count s v h
  | getDcExtentList hd count start => exact execGetDcExtentList_keeps hd count start s v h
  | getDcdInfo hd => exact execGetDcdInfo_keeps hd s v h
  | getHostDcRegionConfig hd host first count => exact execGetHostDcRegionConfig_keeps hd host first count s v h
  | getDcRegionExtentLists hd host count start => exact execGetDcRegionExtentLists_keeps hd host count start s v h
  | getLdInfo hd => exact execGetLdInfo_keeps hd s v h
  | getLdAllocations hd start limit => exact execGetLdAllocations_keeps hd start limit s v h
  | fmQosControl hd set => exact execFmQosControl_keeps hd set s v h
  | millerWatchdog t => exact execMillerWatchdog_keeps t s v h
  | millerFetchFault t => exact execMillerFetchFault_keeps t s v h
  | getDebugChallenge hd => exact execGetDebugChallenge_keeps hd s v h
  | debugNonceExpire t => exact execDebugNonceExpire_keeps t s v h
  | getDebugState hd => exact execGetDebugState_keeps hd s v h
  | setPowerLimit hd limit => exact execSetPowerLimit_keeps hd limit s v h
  | getPowerStatus hd => exact execGetPowerStatus_keeps hd s v h
  | setSelfRefreshIdle hd idle => exact execSetSelfRefreshIdle_keeps hd idle s v h
  | getThermalStatus hd => exact execGetThermalStatus_keeps hd s v h
  | vaux33PowerOn t => exact execVaux33PowerOn_keeps t s v h
  | fastOscQualified t xdly => exact execFastOscQualified_keeps t xdly s v h
  | crystalQualified t crystal => exact execCrystalQualified_keeps t crystal s v h
  | crystalQualTimeout t crystal => exact execCrystalQualTimeout_keeps t crystal s v h
  | pwrgdAssert t => exact execPwrgdAssert_keeps t s v h
  | perstDeassert t => exact execPerstDeassert_keeps t s v h
  | clockGateRequest t kind unit => exact execClockGateRequest_keeps t kind unit s v h
  | gateHandshakeTimeout t kind unit => exact execGateHandshakeTimeout_keeps t kind unit s v h
  | clockGateWake t kind unit => exact execClockGateWake_keeps t kind unit s v h
  | sliceDue t slice unit => exact execSliceDue_keeps t slice unit s v h
  | sliceGapTimeout t slice unit => exact execSliceGapTimeout_keeps t slice unit s v h
  | sliceDeferralExpire t slice unit => exact execSliceDeferralExpire_keeps t slice unit s v h
  | getTestSchedule hd o => exact execGetTestSchedule_keeps hd o s v h
  | setTestInterval hd slice interval => exact execSetTestInterval_keeps hd slice interval s v h
  | setDeferralLimit hd limit => exact execSetDeferralLimit_keeps hd limit s v h
  | getAgeingTelemetry hd o => exact execGetAgeingTelemetry_keeps hd o s v h
  | getTenteringPlan hd => exact execGetTenteringPlan_keeps hd s v h
  | pathMonitorSample t readings hub => exact execPathMonitorSample_keeps t readings hub s v h
  | tenteringRun t waf30 margins => exact execTenteringRun_keeps t waf30 margins s v h
  | stoneStepChangeComplete t => exact execStoneStepChangeComplete_keeps t s v h
  | refreshWindowHot t stack temp => exact execRefreshWindowHot_keeps t stack temp s v h
  | vin48InputReconnect t => exact execVin48InputReconnect_keeps t s v h
  | flitCrcFailure port e header => exact execFlitCrcFailure_keeps port e header s v h
  | spdmEndSession ld session => exact execSpdmEndSession_keeps ld session s v h
  | busMasterEnable ld => exact execBusMasterEnable_keeps ld s v h
  | d3hotEntry ld toD3 => exact execD3hotEntry_keeps ld toD3 s v h
  | _ => exact absurd hi Bool.false_ne_true

/-! ### A step -/

/-- What a step can do: idle on an empty queue, or carry out the command at its front. -/
theorem step_cases {s t : State} (h : step s = .next t) :
    t = s ∨ ∃ (c : Instr) (rest : List Instr), s.pending = c :: rest ∧ exec c { s with pending := rest } = .next t := by
  unfold step at h
  split at h
  · exact .inl (Host.Outcome.next.inj h).symm
  · next c rest hq => exact .inr ⟨c, rest, hq, h⟩

/-- The queue is no part of the stored data's form. -/
theorem State.memWf_pending (s : State) (rest : List Instr) : ({ s with pending := rest } : State).memWf = s.memWf := rfl

end Sys2Proof.Machine

open Sys2Proof.Machine

/-- Settles O3: a step idles or carries out one command, and every command is a safe step. -/
theorem storedFormInvariant : Obligations.StoredFormInvariant := by
  intro s t hwf hstep
  obtain rfl | ⟨c, rest, -, hexec⟩ := step_cases hstep
  · exact hwf
  · exact (exec_safe hexec).mem ((s.memWf_pending rest).trans hwf)

/-- Settles O57: each command listed keeps the data, by the lemma of its meaning. -/
theorem storedDataFrame : Obligations.StoredDataFrame := fun _ _ _ => exec_keeps

end

section
/-! PROOFS. Module commands (O30): status, partition requests, keys, region profiles and extent descriptors. -/
namespace Sys2Proof.Machine

/-- An immediate command that is taken and fails one of its own rules. -/
theorem State.mbRun_fails {s : State} {h : MbHdr} {c : Cmd} {body : MbBody} {code : Rc} (ht : s.takes h c) (hb : body s = .error code) :
    s.mbRun h c body = s.answer h c code [] [] := by
  simp [State.mbRun, ht.1, ht.2, hb]

section
variable {h : MbHdr} {s : State}

/-! ### Module status and partition requests (R363, R379, R381, C000h to C013h) -/

theorem exec_getModuleStatus_of_takes (ht : s.takes h { opcode := 0xC000, ld := true, fm := .module }) :
    exec (.getModuleStatus h) s =
      .next (s.replied h 0xC000 [⟨0, 1, s.moduleState⟩, ⟨1, 1, s.isolByte h.src⟩, ⟨4, 4, s.fwver⟩, ⟨8, 8, s.boot.serial⟩] []) := by
  show execGetModuleStatus h s = _
  rw [execGetModuleStatus, State.mbRun_takes ht rfl]

theorem exec_getUnitMap_of_takes (ht : s.takes h { opcode := 0xC001, ld := false, fm := .module }) :
    exec (.getUnitMap h) s = .next (s.replied h 0xC001 [⟨0, 24, bitMap 192 fun k => (s.stoneAt k).state != .online⟩,
      ⟨24, 2, bitMap 12 fun k => !s.stackOk k⟩, ⟨26, 1, bitMap 4 fun k => (s.unitRec 2 k).state == .failed⟩,
      ⟨32, 32, bitMap 256 fun k => s.deep.dieFailed.get k⟩, ⟨64, 6, bitMap 48 fun k => (s.port.lanes.get k).failed⟩] []) := by
  show execGetUnitMap h s = _
  rw [execGetUnitMap, State.mbRun_takes ht rfl]

theorem exec_stagePartitionRequest_of_whole {p : Part} {img : Bytes} {v : State}
    (ht : s.takes h { opcode := 0xC010, ld := false, fm := .module, bg := p.final, len := [], lenFrom := some 32 })
    (hlen : h.len = 32 + p.data.length) (hpart : s.takePart h.src 0xC010 p = .whole v img) (himg : img.length = p.total) :
    exec (.stagePartitionRequest h p) s = .next (v.begun h 0xC010 (.stagePartitionRequest h { p with data := img })) := by
  show execStagePartitionRequest h p s = _
  rw [execStagePartitionRequest, State.mbPartsBg_takes (c := { opcode := 0xC010, ld := false, fm := .module }) ht hlen hpart himg rfl
    (State.takePart_whole_now hpart).1]

theorem exec_getPartitionMap_of_first {o : OutReq} (ht : s.takes h { opcode := 0xC011, ld := true, fm := .any, len := [16] })
    (hfirst : o.first = 0) :
    exec (.getPartitionMap h o) s = .next (s.repliedBytes h 0xC011 o
      (if h.src < 16 then (s.ext.parts.get h.src).entry else s.mapBytes ++ leBytes 1 s.boot.fmport)) := by
  show execGetPartitionMap h o s = _
  rw [execGetPartitionMap, State.mbSnap_bytes ht hfirst rfl]

theorem exec_getStagedRequestStatus_of_takes (ht : s.takes h { opcode := 0xC012, ld := false, fm := .module }) :
    exec (.getStagedRequestStatus h) s = .next (s.replied h 0xC012 [⟨0, 1, s.boot.stageState⟩,
      ⟨4, 4, if s.boot.stageState = 2 then s.boot.reason else 0⟩, ⟨8, 8, s.boot.stageSerial⟩] []) := by
  show execGetStagedRequestStatus h s = _
  rw [execGetStagedRequestStatus, State.mbRun_takes ht rfl]

section
variable (ht : s.takes h { opcode := 0xC013, ld := false, fm := .module })
include ht

theorem exec_discardStagedRequest_of_staged (hreq : s.boot.stagedReq.isSome = true) :
    exec (.discardStagedRequest h) s =
      .next ((s.modBoot fun b => { b with stagedReq := none, stageState := 0, stageSerial := 0 }).replied h 0xC013 [] []) := by
  show execDiscardStagedRequest h s = _
  rw [execDiscardStagedRequest, State.mbRun_takes ht rfl, if_pos hreq]

theorem exec_discardStagedRequest_of_none (hreq : s.boot.stagedReq = none) :
    exec (.discardStagedRequest h) s = .next (s.replied h 0xC013 [] []) := by
  show execDiscardStagedRequest h s = _
  rw [execDiscardStagedRequest, State.mbRun_takes ht rfl, if_neg (by simp [hreq])]

end

/-! ### Keys (R43, C014h and C015h) -/

/-- A new key is drawn unless the LD has one and owns an extent. -/
theorem exec_keyLd_of_free {ld : Nat} (ht : s.takes h { opcode := 0xC014, ld := true, fm := .ld }) (hld : ld = whoOf h)
    (hfree : (s.ext.keys.get ld).isSome = true → s.ownsAny ld = false) :
    exec (.keyLd h) s = .next ((((if (s.ext.keys.get ld).isSome then s.newKey.2.endKey ld else s.newKey.2).setKey ld
      (some s.newKey.1)).modBoot fun b => { b with debugKeys :=
        if b.debugOpen then ld :: b.debugKeys.filter (· ≠ ld) else b.debugKeys.filter (· ≠ ld) }).replied h 0xC014 [] []) := by
  subst hld
  have hok : ¬ ((s.ext.keys.get (whoOf h)).isSome = true ∧ s.ownsAny (whoOf h) = true) := fun hbad =>
    ne_true_of_eq_false (hfree hbad.1) hbad.2
  show execKeyLd h s = _
  rw [execKeyLd, State.mbRun_takes ht (if_neg hok)]
  rfl

theorem exec_zeroiseLdKey_of_free {ld : Nat} (ht : s.takes h { opcode := 0xC015, ld := true, fm := .ld }) (hld : ld = whoOf h)
    (hfree : s.ownsAny ld = false) (hkey : (s.ext.keys.get ld).isSome = true) :
    exec (.zeroiseLdKey h) s = .next ((((s.endKey ld).setKey ld none).modBoot fun b =>
      { b with debugKeys := b.debugKeys.filter (· ≠ ld) }).replied h 0xC015 [] []) := by
  subst hld
  have hsome : ¬ (s.ext.keys.get (whoOf h)).isNone = true := by simpa [Option.isSome_iff_ne_none] using hkey
  show execZeroiseLdKey h s = _
  rw [execZeroiseLdKey, State.mbRun_takes ht ((if_neg (ne_true_of_eq_false hfree)).trans (if_neg hsome))]

/-! ### Region profiles and extent descriptors (R34, C020h to C022h) -/

theorem exec_getRegionProfile_of_region {region : Nat} (ht : s.takes h { opcode := 0xC020, ld := true, fm := .anyLd, len := [9] })
    (hregion : region < 8) :
    exec (.getRegionProfile h region) s = .next (s.replied h 0xC020 [⟨0, 8, ((s.regionProfile (whoOf h) region).getD 0).toNat⟩,
      ⟨8, 1, b2n (s.regionProfile (whoOf h) region).isSome⟩, ⟨12, 4, (s.inRegion (whoOf h) region).length⟩] []) := by
  show execGetRegionProfile h region s = _
  rw [execGetRegionProfile, State.mbRun_takes ht (if_neg (Nat.not_le.mpr hregion))]

section
variable {region ld : Nat} {profile : Word} (ht : s.takes h { opcode := 0xC021, ld := false, fm := .anyLd, len := [24] })
  (hld : ld = h.target) (hregion : region < 8) (hok : s.profileOk ld profile = true)
include ht hld hregion hok

theorem exec_setRegionProfile_of_empty (hempty : s.inRegion ld region = []) :
    exec (.setRegionProfile h region profile) s = .next
      (((({ s with ext := { s.ext with profiles := s.ext.profiles.set (8 * ld + region) (some profile) } } : State).modCxe fun c =>
        { c with cdatSeq := c.cdatSeq.upd ld fun n => (n + 1) % 2 ^ 32 }).post ld 0
          (Event.of 20 ld 1 [⟨64, 1, region⟩, ⟨72, 8, profile.toNat⟩])).replied h 0xC021 [] []) := by
  subst hld
  have hvalid : ¬ (8 ≤ region ∨ ¬ s.profileOk h.target profile = true) := not_or.mpr ⟨Nat.not_le.mpr hregion, not_not_intro hok⟩
  show execSetRegionProfile h region profile s = _
  rw [execSetRegionProfile, State.mbRun_takes ht ((if_neg hvalid).trans (if_neg (not_not_intro hempty)))]

theorem exec_setRegionProfile_profiles {t : State} (hempty : s.inRegion ld region = [])
    (hexec : exec (.setRegionProfile h region profile) s = .next t) :
    t.ext.profiles = s.ext.profiles.set (8 * ld + region) (some profile) := by
  rw [exec_setRegionProfile_of_empty ht hld hregion hok hempty] at hexec
  obtain rfl := Host.Outcome.next.inj hexec
  exact congrArg ExtSt.profiles (State.post_keeps ..).ext

theorem exec_setRegionProfile_of_extent (hext : s.inRegion ld region ≠ []) :
    exec (.setRegionProfile h region profile) s =
      .next (s.answer h { opcode := 0xC021, ld := false, fm := .anyLd, len := [24] } .busy [] []) := by
  subst hld
  have hvalid : ¬ (8 ≤ region ∨ ¬ s.profileOk h.target profile = true) := not_or.mpr ⟨Nat.not_le.mpr hregion, not_not_intro hok⟩
  show execSetRegionProfile h region profile s = _
  rw [execSetRegionProfile, State.mbRun_fails ht ((if_neg hvalid).trans (if_pos hext))]

end

theorem exec_getExtentDescriptors_of_first {o : OutReq} (ht : s.takes h { opcode := 0xC022, ld := true, fm := .ld, len := [16] })
    (hfirst : o.first = 0) :
    exec (.getExtentDescriptors h o) s =
      .next (s.repliedRecs h 0xC022 64 o ((s.ext.exts.filter fun e => e.ld = whoOf h).map s.descriptor)) := by
  show execGetExtentDescriptors h o s = _
  rw [execGetExtentDescriptors, State.mbSnap_recs ht hfirst (by decide) rfl]

end

end Sys2Proof.Machine

open Sys2Proof.Machine

/-- Settles O30: each clause is the lemma of its command. -/
theorem moduleComplete : Obligations.ModuleComplete := by
  unfold Obligations.ModuleComplete
  refine ⟨?status, ?units, ?stage, ?map, ?staged, ?discard, ?key, ?zeroise, ?profile, ?setProfile, ?descriptors⟩
  case status =>
    intro h s ht
    exact exec_getModuleStatus_of_takes ht
  case units =>
    intro h s ht
    exact exec_getUnitMap_of_takes ht
  case stage =>
    intro h p img s v ht hlen hpart himg
    exact exec_stagePartitionRequest_of_whole ht hlen hpart himg
  case map =>
    intro h o s ht hfirst
    exact exec_getPartitionMap_of_first ht hfirst
  case staged =>
    intro h s ht
    exact exec_getStagedRequestStatus_of_takes ht
  case discard =>
    intro h s ht
    exact ⟨exec_discardStagedRequest_of_staged ht, exec_discardStagedRequest_of_none ht⟩
  case key =>
    intro h ld s v ht hld hfree hv
    subst hv
    exact exec_keyLd_of_free ht hld hfree
  case zeroise =>
    intro h ld s ht hld hfree hkey
    exact exec_zeroiseLdKey_of_free ht hld hfree hkey
  case profile =>
    intro h region p s ht hregion hp
    subst hp
    exact exec_getRegionProfile_of_region ht hregion
  case setProfile =>
    intro h region ld profile s v ht hld hregion hok hempty hv
    subst hv
    exact exec_setRegionProfile_of_empty ht hld hregion hok hempty
  case descriptors =>
    intro h o s ht hfirst
    exact exec_getExtentDescriptors_of_first ht hfirst

end

section
/-! PROOFS. When a region profile changes (O45): over the states whose profile table is in its canonical form, and over every state. -/
namespace Sys2Proof.Machine

/-- An add request into a region whose profile has never been set. -/
theorem exec_initiateDcAdd_of_no_profile {h : MbHdr} {host policy : Nat} {a : DcAdd} {rest : List DcAdd} {s : State}
    (ht : s.takes h { opcode := 0x5604, ld := false, fm := .module, vendor := false }) (hpolicy : policy = 2 ∨ policy = 3)
    (hfits : s.rangeFits host a.region a.base a.len = true) (hnone : s.regionProfile host a.region = none) :
    exec (.initiateDcAdd h host policy (a :: rest)) s =
      .next (s.answer h { opcode := 0x5604, ld := false, fm := .module, vendor := false } .invalidInput [] []) := by
  have hknown : ¬ (policy ≠ 2 ∧ policy ≠ 3) := by omega
  have hadmit : s.admitAll host (policy == 3) (s.ext.nextGroup.get host) (a :: rest) = .error .invalidInput := by
    simp [State.admitAll, State.admitExt, hfits, hnone]
  show execInitiateDcAdd h host policy (a :: rest) s = _
  rw [execInitiateDcAdd, State.mbRun_fails (code := .invalidInput) ht (by simp only [if_neg hknown, hadmit, ite_self])]

/-- What R34 asks holds of every state whose profile table is in its canonical form, as it is at reset. -/
theorem regionProfilesChangeWhenEmpty_of_wf :
    (∀ (h : MbHdr) (region ld : Nat) (profile : Word) (s : State), s.ext.profiles.wf = true →
      s.takes h { opcode := 0xC021, ld := false, fm := .anyLd, len := [24] } → ld = h.target → region < 8 → s.profileOk ld profile = true →
      (s.inRegion ld region = [] → ∃ t : State, exec (.setRegionProfile h region profile) s = .next t ∧
        t.ext.profiles.get (8 * ld + region) = some profile) ∧
      (s.inRegion ld region ≠ [] → exec (.setRegionProfile h region profile) s =
        .next (s.answer h { opcode := 0xC021, ld := false, fm := .anyLd, len := [24] } .busy [] []))) ∧
    (∀ (h : MbHdr) (host policy : Nat) (a : DcAdd) (rest : List DcAdd) (c : Cmd) (s : State), s.takes h c →
      c = { opcode := 0x5604, ld := false, fm := .module, vendor := false } → (policy = 2 ∨ policy = 3) →
      s.rangeFits host a.region a.base a.len = true → s.regionProfile host a.region = none →
      exec (.initiateDcAdd h host policy (a :: rest)) s = .next (s.answer h c .invalidInput [] [])) := by
  constructor
  · intro h region ld profile s hwf ht hld hregion hok
    refine ⟨fun hempty => ⟨_, exec_setRegionProfile_of_empty ht hld hregion hok hempty, ?_⟩,
      exec_setRegionProfile_of_extent ht hld hregion hok⟩
    rw [exec_setRegionProfile_profiles ht hld hregion hok hempty (exec_setRegionProfile_of_empty ht hld hregion hok hempty)]
    exact Tbl.get_set_same hwf _ _
  · rintro h host policy a rest _ s ht rfl hpolicy hfits hnone
    exact exec_initiateDcAdd_of_no_profile ht hpolicy hfits hnone

/-- A module in service without an extent, whose profile table is not in its canonical form: unlisted regions have profile 0, and
region 0 of LD 0 is listed twice as never set. -/
def profileListedTwice : State :=
  { millerReady := true, phase := .running, ext := { profiles := { dflt := some 0, cells := [(0, none), (0, none)] } } }

/-- Writing what an unlisted region reads as removes the first of two entries, and the second is read. -/
theorem profileListedTwice_reads_none : (profileListedTwice.ext.profiles.set 0 (some 0)).get 0 = none := by decide

end Sys2Proof.Machine

open Sys2Proof.Machine

/-- Refutes O45: its first clause admits states whose profile table is not in canonical form. The FM sets profile 0 of region 0 of LD 0
in `profileListedTwice`; the command succeeds, and the region's profile still reads as never set. `regionProfilesChangeWhenEmpty_of_wf`
is the statement with the hypothesis that it lacks. -/
theorem not_regionProfilesChangeWhenEmpty : ¬ Obligations.RegionProfilesChangeWhenEmpty := by
  intro hclaim
  have htakes : profileListedTwice.takes ⟨16, 0, 0, 24⟩ { opcode := 0xC021, ld := false, fm := .anyLd, len := [24] } :=
    ⟨by decide, by decide⟩
  have hok : profileListedTwice.profileOk 0 0 = true := by decide
  obtain ⟨t, hexec, hread⟩ := (hclaim.1 _ 0 0 0 _ htakes rfl (by decide) hok).1 rfl
  rw [exec_setRegionProfile_profiles htakes rfl (by decide) hok rfl hexec] at hread
  exact absurd (profileListedTwice_reads_none.symm.trans hread) (by decide)

end

section
/-! PROOFS. Dynamic Capacity commands, the discarding of an extent, and the end of a snoop (O18). -/
namespace Sys2Proof.Machine

/-! ### Dynamic Capacity commands (R36, R45, R339, R433) -/

/-- Ranges that all name an extent are the ranges of those extents, one for each. -/
theorem filterMap_of_map_some {α β : Type} {f : α → Option β} {xs : List α} {ys : List β} (h : xs.map f = ys.map some) :
    xs.filterMap f = ys ∧ ys.length = xs.length := by
  refine ⟨?_, by simpa using (congrArg List.length h).symm⟩
  calc xs.filterMap f = (xs.map f).filterMap id := by rw [List.filterMap_map, Function.id_comp]
    _ = (ys.map some).filterMap id := by rw [h]
    _ = ys := by simp

section
variable {h : MbHdr} {s : State}

theorem exec_initiateDcAdd_of_admitted {host policy : Nat} {exts : List DcAdd} {u v : State}
    (ht : s.takes h { opcode := 0x5604, ld := false, fm := .module, vendor := false }) (hlen : h.len = 32 + 40 * exts.length)
    (hpolicy : policy = 2 ∨ policy = 3) (hadmit : s.admitAll host (policy == 3) (s.ext.nextGroup.get host) exts = .ok u)
    (hv : v = { u with ext := { u.ext with nextGroup := u.ext.nextGroup.set host (s.ext.nextGroup.get host + 1) } }) :
    exec (.initiateDcAdd h host policy exts) s = .next (((v.journal exts.length).postDc host 0 (v.ext.exts.filter fun e =>
      e.ld = host ∧ e.group = s.ext.nextGroup.get host ∧ e.state = .pending)).replied h 0x5604 [] []) := by
  have hknown : ¬ (policy ≠ 2 ∧ policy ≠ 3) := by omega
  subst hv
  show execInitiateDcAdd h host policy exts s = _
  rw [execInitiateDcAdd, State.mbRun_takes ht (by simp only [if_neg hknown, if_neg (not_not_intro hlen), hadmit]; rfl)]

/-- The named extents of the oldest group become ACTIVE, and its others are deleted. -/
theorem exec_addDcResponse_of_named {exts : List DcRange} {g : Nat} {mine : List Extent} {step : Extent → Option Extent}
    (ht : s.takes h { opcode := 0x4802, ld := true, fm := .no, vendor := false }) (hmany : exts.length ≤ 64)
    (hlen : h.len = 8 + 24 * exts.length) (hgroup : s.oldestGroup h.src = some g)
    (hmine : mine = s.ext.exts.filter fun e => e.ld = h.src ∧ e.group = g ∧ e.state = .pending)
    (hnamed : ∀ r ∈ exts, ∃ e ∈ mine, e.isRange r = true)
    (hstep : ∀ e, step e = (if e.ld = h.src ∧ e.group = g ∧ e.state = .pending then
      (if exts.any e.isRange then some { e with state := .active } else none) else some e)) :
    exec (.addDcResponse h exts) s = .next ((({ s with ext := { s.ext with exts := s.ext.exts.filterMap step } } : State).journal
      mine.length).replied h 0x4802 [] []) := by
  have hform : ¬ (64 < exts.length ∨ h.len ≠ 8 + 24 * exts.length) := by omega
  have hall : (exts.all fun r => mine.any fun e => e.isRange r) = true := by simpa using hnamed
  obtain rfl := funext hstep
  subst hmine
  show execAddDcResponse h exts s = _
  rw [execAddDcResponse, State.mbRun_takes ht (by simp only [if_neg hform, hgroup, if_neg (not_not_intro hall)]; rfl)]

theorem exec_initiateDcRelease_of_named {host : Nat} {forced : Bool} {exts : List DcRange} {es : List Extent} {u : State}
    (ht : s.takes h { opcode := 0x5605, ld := false, fm := .module, vendor := false }) (hhost : host < 16)
    (hlen : h.len = 32 + 40 * exts.length) (hu : s.settleLeaving = u) (hnamed : exts.map (u.namedExt host) = es.map some)
    (hleave : ∀ e ∈ es, mayLeave forced e = true) :
    exec (.initiateDcRelease h host forced exts) s = .next ((if forced then ((es.foldl State.forceOut u).journal es.length).settleLeaving
      else u.postDc host 1 es).replied h 0x5605 [] []) := by
  obtain ⟨hes, hcount⟩ := filterMap_of_map_some hnamed
  have hall : es.all (mayLeave forced) = true := List.all_eq_true.mpr hleave
  have hform : ¬ (16 ≤ host ∨ h.len ≠ 32 + 40 * exts.length ∨ es.length ≠ exts.length ∨ ¬ es.all (mayLeave forced) = true) := by
    simp [hlen, hcount, hall, hhost]
  show execInitiateDcRelease h host forced exts s = _
  rw [execInitiateDcRelease, State.mbRun_takes
    (r := { s := (if forced then ((es.foldl State.forceOut u).journal es.length).settleLeaving else u.postDc host 1 es) }) ht
    (by simp only [hu, hes, if_neg hform]; cases forced <;> rfl)]

/-- An ACTIVE extent starts to be released; one that is WITHDRAWING goes on leaving. -/
theorem exec_releaseDc_of_named {exts : List DcRange} {es : List Extent} {u : State} {leave : State → Extent → State}
    (ht : s.takes h { opcode := 0x4803, ld := true, fm := .no, vendor := false }) (hmany : exts.length ≤ 64)
    (hlen : h.len = 8 + 24 * exts.length) (hu : s.settleLeaving = u) (hnamed : exts.map (u.namedExt h.src) = es.map some)
    (hstate : ∀ e ∈ es, e.state = .active ∨ e.state = .withdrawing)
    (hleave : ∀ (v : State) (e : Extent), leave v e = (if e.state = .active then
      ((v.modExt e.eid fun x => { x with state := .releasing, leftOp := v.gate.nextOp }).cancelPrefetch e).withdrawAliases e else v)) :
    exec (.releaseDc h exts) s = .next (((es.foldl leave u).journal es.length).settleLeaving.replied h 0x4803 [] []) := by
  obtain ⟨hes, hcount⟩ := filterMap_of_map_some hnamed
  have hall : (es.all fun e => decide (e.state = .active ∨ e.state = .withdrawing)) = true := by simpa using hstate
  have hform : ¬ (64 < exts.length ∨ h.len ≠ 8 + 24 * exts.length ∨ es.length ≠ exts.length ∨
      ¬ (es.all fun e => decide (e.state = .active ∨ e.state = .withdrawing)) = true) :=
    not_or.mpr ⟨Nat.not_lt.mpr hmany, not_or.mpr ⟨not_not_intro hlen, not_or.mpr ⟨not_not_intro hcount, not_not_intro hall⟩⟩⟩
  obtain rfl := funext fun v => funext (hleave v)
  show execReleaseDc h exts s = _
  rw [execReleaseDc, State.mbRun_takes ht (by simp only [hu, hes, if_neg hform]; rfl)]

end

/-! ### The discarding of an extent (R46) -/

theorem exec_extentDiscard_of_ended {t eid : Nat} {e : Extent} {s : State} (hup : s.up = true) (he : (s.at_ t).extById eid = some e)
    (hended : e.state = .discarding ∨ (e.state = .releasing ∨ e.state = .withdrawing) ∧ (s.at_ t).quiet e = true) :
    exec (.extentDiscard t eid) s =
      .next (((((s.at_ t).aliasesOf e).foldl State.discard (s.at_ t)).discard e).retryReads fun r => r.eid == eid) := by
  show execExtentDiscard t eid s = _
  simp only [execExtentDiscard, he]
  exact if_pos ⟨hup, hended⟩

/-! ### The end of a snoop (R341, R343) -/

section
variable {ld blk line : Nat} {x : Snp} {s : State} (hx : s.cxe.snps.find? (fun x => x.ld = ld ∧ x.blk = blk ∧ x.line = line) = some x)
include hx

theorem exec_birsp_clean :
    exec (.birsp ld blk line none) s = .next ((s.snoopDone x).pumpBi (s.snoopDone x).cxe.heldBi []) := by
  show execBirsp ld blk line none s = _
  simp only [execBirsp, hx]

/-- The holder's data are written back before the snoop is over. -/
theorem exec_birsp_writeback {d : Bytes} {e : Extent} {u : State} (he : s.extFor ld (blk / 128) = some e)
    (hu : u = (s.writeLine ld (s.dpaOf e blk + 64 * line) 0 e (fit 64 d) (BitVec.allOnes 64) false true).snoopDone x) :
    exec (.birsp ld blk line (some d)) s = .next (u.pumpBi u.cxe.heldBi []) := by
  subst hu
  show execBirsp ld blk line (some d) s = _
  simp only [execBirsp, hx, he]

/-- A holder that has not answered for 4 ms is taken for crashed on the line. -/
theorem exec_bisnpTimeout_of_due {t : Nat} {u : State} (hdue : x.start + 4 * ms ≤ (s.at_ t).now)
    (hu : u = (((s.at_ t).modCxeLd ld fun l => { l with biTimeout := bump 16 l.biTimeout 1 }).holderLost ld [(blk, line)]).snoopDone x) :
    exec (.bisnpTimeout t ld blk line) s = .next (u.pumpBi u.cxe.heldBi []) := by
  subst hu
  show execBisnpTimeout t ld blk line s = _
  simp only [execBisnpTimeout, State.at__cxe, hx]
  exact if_pos hdue

end

end Sys2Proof.Machine

open Sys2Proof.Machine

/-- Settles O18: each clause is the lemma of its event or command. -/
theorem extentsComplete : Obligations.ExtentsComplete := by
  unfold Obligations.ExtentsComplete
  refine ⟨?add, ?response, ?initiateRelease, ?release, ?discard, ?birsp, ?timeout⟩
  case add =>
    intro h host policy exts s u v ht hlen hpolicy hadmit hv
    exact exec_initiateDcAdd_of_admitted ht hlen hpolicy hadmit hv
  case response =>
    intro h exts g s mine step ht hmany hlen hgroup hmine hnamed hstep
    exact exec_addDcResponse_of_named ht hmany hlen hgroup hmine hnamed hstep
  case initiateRelease =>
    intro h host forced exts es s u ht hhost hlen hu hnamed hleave
    exact exec_initiateDcRelease_of_named ht hhost hlen hu hnamed hleave
  case release =>
    intro h exts es s u leave ht hmany hlen hu hnamed hstate hleave
    exact exec_releaseDc_of_named ht hmany hlen hu hnamed hstate hleave
  case discard =>
    intro t eid e s hup he hended
    exact exec_extentDiscard_of_ended hup he hended
  case birsp =>
    intro ld blk line x s hx
    exact ⟨exec_birsp_clean hx, fun d e u he hu => exec_birsp_writeback hx he hu⟩
  case timeout =>
    intro t ld blk line x s u hx hdue hu
    exact exec_bisnpTimeout_of_due hx hdue hu

end

section
/-! PROOFS. Beacons and the positions that they state (O48, O50). -/
namespace Sys2Proof.Machine

/-! ### The fields of WHL_BEACON -/

theorem Beacon.turn_eq (v : Word) : Beacon.turn v = v.toNat / 2 ^ 16 := by
  have hbound : v.toNat < 2 ^ 64 := v.isLt
  rw [Beacon.turn, bitsOf, Nat.shiftRight_eq_div_pow]
  exact Nat.mod_eq_of_lt (by omega)

theorem Beacon.layer_eq (v : Word) : Beacon.layer v = v.toNat % 1024 := rfl

theorem Beacon.resv_eq (v : Word) : Beacon.resv v = v.toNat / 1024 % 64 := by
  simp [Beacon.resv, bitsOf, Nat.shiftRight_eq_div_pow]

/-! ### Positions that are ignored (Table 3.3) -/

section
variable {s : State} {w turn layer : Nat} {resv : Bool}

theorem State.position_of_closed (hclosed : (s.wheel w).state = .closed) : s.position w turn layer resv = (false, s) := if_pos hclosed

section
variable (hopen : (s.wheel w).state ≠ .closed)
include hopen

theorem State.position_of_invalid (hbad : turn = 0 ∨ (s.wheel w).n ≤ layer ∨ resv = true) :
    s.position w turn layer resv = (false, s.badPos w) :=
  (if_neg hopen).trans (if_pos (hbad.imp_right (Or.imp_right .inl)))

section
variable (hvalid : ¬ (turn = 0 ∨ (s.wheel w).n ≤ layer ∨ resv = true ∨ 2 ^ 48 ≤ turn)) (hplaced : (s.wheel w).placed = true)
include hvalid hplaced

theorem State.position_of_backstep (hback : (turn - 1) * (s.wheel w).n + layer < (s.wheel w).k) :
    s.position w turn layer resv = (false, s.modWheel w fun x => { x with backstep := bump 16 x.backstep 1 }) :=
  (if_neg hopen).trans ((if_neg hvalid).trans ((if_neg (not_not_intro hplaced)).trans (if_pos hback)))

theorem State.position_of_current (hsame : (turn - 1) * (s.wheel w).n + layer = (s.wheel w).k) :
    s.position w turn layer resv = (true, s) :=
  (if_neg hopen).trans ((if_neg hvalid).trans ((if_neg (not_not_intro hplaced)).trans ((if_neg hsame.not_lt).trans (if_pos hsame))))

end

end

end

/-! ### Beacon writes (R52) -/

section
variable {ld wheel : Nat} {s : State} (hup : s.up = true) (hld : ld < 16) (hwheel : wheel < 16) (hd3 : (s.cxe.lds.get ld).d3 = false)
include hup hld hwheel hd3

theorem exec_wheelBeacon_of_up (size : Nat) (aligned : Bool) (value : Word) :
    exec (.wheelBeacon ld wheel size aligned value) s = .next (s.writeBeacon ld wheel size aligned value) := by
  have hheard : ¬ (¬ s.up = true ∨ 16 ≤ ld ∨ 16 ≤ wheel ∨ (s.cxe.lds.get ld).d3 = true) := by
    simp [hup, hd3, Nat.not_le.mpr hld, Nat.not_le.mpr hwheel]
  exact if_neg hheard

theorem exec_wheelBeacon_states_position (value : Word) :
    exec (.wheelBeacon ld wheel 8 true value) s =
      .next (s.position (16 * ld + wheel) (value.toNat / 2 ^ 16) (value.toNat % 1024) (decide (value.toNat / 1024 % 64 ≠ 0))).2 := by
  have hresv : (Beacon.resv value != 0) = decide (value.toNat / 1024 % 64 ≠ 0) := by simp [Beacon.resv_eq, bne, beq_eq_decide]
  rw [exec_wheelBeacon_of_up hup hld hwheel hd3, State.writeBeacon]
  simp only [and_self, if_true, Beacon.turn_eq, Beacon.layer_eq, hresv]

end

/-- A beacon that is not one aligned 8-byte write is counted at its wheel; an error that it raises touches neither wheels nor stored data. -/
theorem State.writeBeacon_of_malformed {size : Nat} {aligned : Bool} (s : State) (ld wheel : Nat) (value : Word)
    (hform : ¬ (size = 8 ∧ aligned = true)) :
    (s.writeBeacon ld wheel size aligned value).sweep = (s.badPos (16 * ld + wheel)).sweep ∧
      (s.writeBeacon ld wheel size aligned value).store = s.store := by
  rw [State.writeBeacon, if_neg hform]
  dsimp only
  split
  · exact ⟨rfl, rfl⟩
  · have hkept := State.aerUnc_keeps (s.badPos (16 * ld + wheel)) ld 20 []
    exact ⟨hkept.sweep, hkept.store⟩

theorem State.modWheel_wheel_same {s : State} (hwf : s.sweep.wheels.wf = true) (w : Nat) (f : Wheel → Wheel) :
    (s.modWheel w f).wheel w = f (s.wheel w) := Tbl.get_set_same hwf ..

/-- What R52 asks holds of every state whose wheel table is in its canonical form, as it is at reset. -/
theorem beaconsStatePositions_of_wf (ld wheel size w : Nat) (aligned : Bool) (value : Word) (s : State)
    (hwf : s.sweep.wheels.wf = true) (hup : s.up = true) (hld : ld < 16) (hwheel : wheel < 16)
    (hd3 : (s.cxe.lds.get ld).d3 = false) (hw : w = 16 * ld + wheel) :
    (size = 8 → aligned = true → exec (.wheelBeacon ld wheel size aligned value) s =
      .next (s.position w (value.toNat / 2 ^ 16) (value.toNat % 1024) (decide (value.toNat / 1024 % 64 ≠ 0))).2) ∧
    (¬ (size = 8 ∧ aligned = true) → ∃ t : State, exec (.wheelBeacon ld wheel size aligned value) s = .next t ∧
      t.wheel w = { s.wheel w with badpos := bump 32 (s.wheel w).badpos 1 } ∧ t.store = s.store) := by
  subst hw
  constructor
  · rintro rfl rfl
    exact exec_wheelBeacon_states_position hup hld hwheel hd3 value
  · intro hform
    obtain ⟨hsweep, hstore⟩ := s.writeBeacon_of_malformed ld wheel value hform
    refine ⟨_, exec_wheelBeacon_of_up hup hld hwheel hd3 size aligned value, ?_, hstore⟩
    calc (s.writeBeacon ld wheel size aligned value).wheel (16 * ld + wheel)
        = (s.badPos (16 * ld + wheel)).wheel (16 * ld + wheel) := by rw [State.wheel, hsweep, State.wheel]
      _ = _ := State.modWheel_wheel_same hwf ..

/-- A module in service whose wheel table is not in its canonical form: unlisted wheels have BADPOS 1, and wheel 0 of LD 0 is listed
twice, with BADPOS 0 and then 5. -/
def wheelListedTwice : State :=
  { millerReady := true, phase := .running, sweep := { wheels := { dflt := { badpos := 1 }, cells := [(0, {}), (0, { badpos := 5 })] } } }

/-- Counting the first ignored position writes what an unlisted wheel reads as, which removes the first of two entries. -/
theorem wheelListedTwice_counts_wrongly :
    (wheelListedTwice.badPos 0).wheel 0 ≠ { wheelListedTwice.wheel 0 with badpos := bump 32 (wheelListedTwice.wheel 0).badpos 1 } := by
  decide

end Sys2Proof.Machine

open Sys2Proof.Machine

/-- Refutes O48: its second clause admits states whose wheel table is not in canonical form. A 4-byte write of the beacon of wheel 0 of
LD 0 in `wheelListedTwice` is counted, and the wheel's BADPOS then reads 5, not 1. `beaconsStatePositions_of_wf` is the statement with the
hypothesis that it lacks. -/
theorem not_beaconsStatePositions : ¬ Obligations.BeaconsStatePositions := by
  intro hclaim
  have hup : wheelListedTwice.up = true := by decide
  have hd3 : (wheelListedTwice.cxe.lds.get 0).d3 = false := by decide
  have hform : ¬ (4 = 8 ∧ true = true) := by decide
  obtain ⟨t, hexec, hread, -⟩ := (hclaim 0 0 4 0 true 0 wheelListedTwice hup (by decide) (by decide) hd3 rfl).2 hform
  rw [exec_wheelBeacon_of_up hup (by decide) (by decide) hd3] at hexec
  obtain rfl := Host.Outcome.next.inj hexec
  rw [State.wheel, (wheelListedTwice.writeBeacon_of_malformed 0 0 0 hform).1] at hread
  exact wheelListedTwice_counts_wrongly hread

/-- Settles O50: an aligned 8-byte write states its position, and each row of Table 3.3 is the lemma of `State.position` for it. -/
theorem ignoredPositions : Obligations.IgnoredPositions := by
  rintro ld wheel w turn layer k resv value x s hup hld hwheel hd3 rfl rfl rfl rfl rfl rfl
  have hbound : value.toNat < 2 ^ 64 := value.isLt
  rw [exec_wheelBeacon_states_position hup hld hwheel hd3]
  refine ⟨fun hclosed => ?closed, fun hopen hbad => ?invalid, fun hopen hturn hlayer hresv hplaced => ?_⟩
  case closed => rw [State.position_of_closed hclosed]
  case invalid => rw [State.position_of_invalid hopen hbad]
  have hvalid : ¬ (value.toNat / 2 ^ 16 = 0 ∨ (s.wheel (16 * ld + wheel)).n ≤ value.toNat % 1024 ∨
      decide (value.toNat / 1024 % 64 ≠ 0) = true ∨ 2 ^ 48 ≤ value.toNat / 2 ^ 16) :=
    not_or.mpr ⟨hturn, not_or.mpr ⟨Nat.not_le.mpr hlayer, not_or.mpr ⟨ne_true_of_eq_false hresv, by omega⟩⟩⟩
  refine ⟨fun hback => ?backstep, fun hsame => ?current⟩
  case backstep => rw [State.position_of_backstep hopen hvalid hplaced hback]
  case current => rw [State.position_of_current hopen hvalid hplaced hsame]

end

section
/-! PROOFS. The wheels: their timeouts and the commands C030h to C038h (O19). -/
namespace Sys2Proof.Machine

/-! ### Timeouts (R67): `u` is the state at the instant that the event carries. -/

section
variable {t ld wheel : Nat} {s u : State} (hu : u = s.at_ t) (hup : u.up = true) (hwheel : wheel < 16)
include hu hup hwheel

theorem exec_wheelIdleTimeout_of_due {x : Wheel} (hx : x = u.wheel (16 * ld + wheel)) (hstate : x.state = .running ∨ x.state = .survey)
    (hdue : x.lastAdvance + x.idleMs * ms ≤ u.now) :
    exec (.wheelIdleTimeout t ld wheel) s = .next (((u.undoWheel (16 * ld + wheel)).cancelWheel (16 * ld + wheel)
      fun _ => false).modWheel (16 * ld + wheel) fun x => { x with state := .idle }) := by
  subst hu hx
  exact if_pos ⟨hup, hwheel, hstate, hdue⟩

theorem exec_wheelRestTimeout_of_due {x : Wheel} (hx : x = u.wheel (16 * ld + wheel)) (hopen : x.state ≠ .closed)
    (hresting : x.state ≠ .resting) (hdue : x.lastAdvance + x.restS * sec ≤ u.now) :
    exec (.wheelRestTimeout t ld wheel) s = .next (u.restWheel (16 * ld + wheel)) := by
  subst hu hx
  exact if_pos ⟨hup, hwheel, hopen, hresting, hdue⟩

end

/-! ### Opening and closing (R51, R65, R69, C030h and C031h) -/

/-- Watch ranges that lie within the LD and meet none of the others pass both checks of OPEN_WHEEL. -/
theorem watchRanges_pass {dpaSize : Nat} {used others : List (Nat × Nat)}
    (hfits : ∀ r ∈ used, r.1 + r.2 ≤ dpaSize ∧ ∀ q ∈ others, rangesMeet r q = false) :
    ¬ (used.any fun r => dpaSize < r.1 + r.2) = true ∧ ¬ (used.any fun r => others.any (rangesMeet r)) = true := by
  simp only [List.any_eq_true, decide_eq_true_eq, not_exists, not_and]
  exact ⟨fun r hr => Nat.not_lt.mpr (hfits r hr).1, fun r hr q hq => ne_true_of_eq_false ((hfits r hr).2 q hq)⟩

/-- How many entries of R56's limit a wheel's staged schedule holds. -/
def Wheel.stagedLength (x : Wheel) : Nat :=
  match x.staged with
  | some l => l.length
  | none => 0

section
variable {h : MbHdr} {s : State}

/-- The wheel opens at the lowest free index; its counters are those that stood there. -/
theorem exec_openWheel_of_free {n dlead pclass cclass flags sig idle rest idle' rest' i load : Nat} {watch used others : List (Nat × Nat)}
    {es : Option (List SEntry)} {x old : Wheel} (ht : s.takes h { opcode := 0xC030, ld := true, fm := .no, len := [96] })
    (hform : ¬ (n = 0 ∨ 1024 < n ∨ dlead = 0 ∨ 16 < dlead ∨ 8 ≤ pclass ∨ 8 ≤ cclass ∨ 16 ≤ flags))
    (hidle : idle' = if idle = 0 then 100 else idle) (hrest : rest' = if rest = 0 then 10 else rest)
    (htimers : timersOk idle' rest' = true) (hused : used = watch.filter fun r => r.2 ≠ 0)
    (hothers : others = (List.range 16).flatMap fun i =>
      if (s.wheel (16 * h.src + i)).state = .closed then [] else (s.wheel (16 * h.src + i)).watch)
    (hfits : ∀ r ∈ used, r.1 + r.2 ≤ (s.ext.parts.get h.src).dpaSize ∧ ∀ q ∈ others, rangesMeet r q = false)
    (hfree : s.freeWheel h.src = some i) (hload : s.autoload h.src sig n (bitOf flags 3) = (load, es))
    (hold : old = s.wheel (16 * h.src + i))
    (hx : x = { state := if es.isSome then .running else .survey, n := n, sig := sig, dlead := dlead, pclass := pclass, cclass := cclass,
                notune := bitOf flags 0, nolearn := bitOf flags 1, spec := bitOf flags 2, autoload := bitOf flags 3, idleMs := idle',
                restS := rest', watch := used, late := old.late, rephase := old.rephase, backstep := old.backstep, badpos := old.badpos,
                skip := old.skip, sched := (es.getD []).map fun e => { e with strm := s.newStream h.src pclass },
                wasSurvey := es.isNone, lastAdvance := s.now, slotStart := s.now }) :
    exec (.openWheel h n dlead pclass cclass flags sig idle rest watch) s =
      .next ((s.setWheel (16 * h.src + i) x).replied h 0xC030 [⟨0, 1, i⟩, ⟨1, 1, x.state.code⟩, ⟨2, 1, load⟩] []) := by
  obtain ⟨hwithin, happart⟩ := watchRanges_pass hfits
  subst hidle hrest hused hothers hold hx
  show execOpenWheel h n dlead pclass cclass flags sig idle rest watch s = _
  rw [execOpenWheel, State.mbRun_takes ht (by
    dsimp only
    rw [if_neg (by tauto), hfree, hload])]

section
variable {index w : Nat}

theorem exec_closeWheel_of_open (ht : s.takes h { opcode := 0xC031, ld := true, fm := .ld, len := [9] })
    (hw : s.openIdx h index = .ok w) :
    exec (.closeWheel h index) s = .next ((s.closeWheel w).replied h 0xC031 [] []) := by
  show execCloseWheel h index s = _
  rw [execCloseWheel, State.mbRun_takes ht (by rw [hw])]

/-! ### Schedules (R63, R64, C032h to C035h) -/

theorem exec_importSchedule_of_whole {p : Part} {img : Bytes} {es : List SEntry} {v : State}
    (ht : s.takes h { opcode := 0xC032, ld := true, fm := .no, len := [], lenFrom := some 32 }) (hlen : h.len = 32 + p.data.length)
    (hpart : s.takePart h.src 0xC032 p = .whole v img) (himg : img.length = p.total) (hw : v.openIdx h index = .ok w)
    (hparse : parseSchedule img (v.wheel w).sig (v.wheel w).n (v.ext.parts.get h.src).dpaSize = some es) (hmany : es.length ≤ 65536)
    (hroom : v.schedTotal - (v.wheel w).stagedLength + es.length ≤ 262144) :
    exec (.importSchedule h p index) s = .next ((v.modWheel w fun x =>
      { x with staged := some (es.map fun e => { e with strm := v.newStream h.src (v.wheel w).pclass }) }).replied h 0xC032 [] []) := by
  have hfits : ¬ (65536 < es.length ∨ 262144 < v.schedTotal - (v.wheel w).stagedLength + es.length) :=
    not_or.mpr ⟨Nat.not_lt.mpr hmany, Nat.not_lt.mpr hroom⟩
  show execImportSchedule h p index s = _
  rw [execImportSchedule, State.mbParts_takes (c := { opcode := 0xC032, ld := true, fm := .no }) ht hlen hpart himg (by
    simp only [hw, hparse]
    exact if_neg hfits)]

theorem exec_exportSchedule_of_first {o : OutReq} (ht : s.takes h { opcode := 0xC033, ld := true, fm := .no, len := [32] })
    (hfirst : o.first = 0) (hw : s.openIdx h index = .ok w) :
    exec (.exportSchedule h o index) s =
      .next (s.repliedBytes h 0xC033 o (scheduleImage (s.wheel w).sig (s.wheel w).n (s.wheel w).dlead (s.wheel w).sched)) := by
  show execExportSchedule h o index s = _
  rw [execExportSchedule, State.mbSnap_bytes ht hfirst (by rw [hw])]

theorem exec_saveSchedule_of_room (ht : s.takes h { opcode := 0xC034, ld := true, fm := .no, len := [9], bg := true })
    (hw : s.openIdx h index = .ok w) (hroom : s.storeRoom h.src (s.wheel w).sig = true) :
    exec (.saveSchedule h index) s = .next (s.begun h 0xC034 (.saveSchedule h index)) := by
  show execSaveSchedule h index s = _
  rw [execSaveSchedule, State.mbBg_takes (v := s) ht (by rw [hw]; exact if_pos hroom) rfl]

theorem exec_deleteSavedSchedule_of_stored {sig : Nat} (ht : s.takes h { opcode := 0xC035, ld := true, fm := .no, len := [24] })
    (hstored : ∃ x ∈ s.sweep.stored, x.ld = h.src ∧ x.sig = sig) :
    exec (.deleteSavedSchedule h sig) s = .next (({ s with sweep := { s.sweep with
      stored := s.sweep.stored.filter fun x => ¬ (x.ld = h.src ∧ x.sig = sig) } } : State).replied h 0xC035 [] []) := by
  have hany : (s.sweep.stored.any fun x => x.ld == h.src && x.sig == sig) = true := by simpa using hstored
  show execDeleteSavedSchedule h sig s = _
  rw [execDeleteSavedSchedule, State.mbRun_takes ht (if_pos hany)]

/-! ### Status, timers and re-phasing (R59, R67, C036h to C038h) -/

/-- A CLOSED wheel reports its registers and ranges alone. -/
theorem exec_getWheelStatus_of_index {x : Wheel} (ht : s.takes h { opcode := 0xC036, ld := true, fm := .ld, len := [9] })
    (hindex : index < 16) (hx : x = s.wheel (16 * whoOf h + index)) :
    exec (.getWheelStatus h index) s = .next (s.replied h 0xC036 ((x.words.zipIdx.map fun p => (⟨8 * p.2, 8, p.1⟩ : Fld)) ++
      (x.watch.zipIdx.map fun p => (⟨40 + 8 * p.2, 8, p.1.1 + p.1.2 * 2 ^ 32⟩ : Fld)) ++
      (if x.state = .closed then []
        else [⟨104, 4, x.idleMs⟩, ⟨108, 4, x.restS⟩, ⟨112, 8, x.sig⟩, ⟨120, 1, x.flagsByte⟩])) []) := by
  subst hx
  show execGetWheelStatus h index s = _
  rw [execGetWheelStatus, State.mbRun_takes ht (if_neg (Nat.not_le.mpr hindex))]

theorem exec_setWheelTimers_of_legal {idle rest : Nat} (ht : s.takes h { opcode := 0xC037, ld := true, fm := .no, len := [20] })
    (hw : s.openIdx h index = .ok w) (htimers : timersOk idle rest = true) :
    exec (.setWheelTimers h index idle rest) s =
      .next ((s.modWheel w fun x => { x with idleMs := idle, restS := rest }).replied h 0xC037 [] []) := by
  show execSetWheelTimers h index idle rest s = _
  rw [execSetWheelTimers, State.mbRun_takes ht (by rw [hw]; exact if_pos htimers)]

theorem exec_rephaseWheel_of_placed (ht : s.takes h { opcode := 0xC038, ld := true, fm := .no, len := [9] })
    (hw : s.openIdx h index = .ok w) (hplaced : (s.wheel w).placed = true) :
    exec (.rephaseWheel h index) s = .next ((s.rephaseAt w (s.wheel w).k).replied h 0xC038 [] []) := by
  show execRephaseWheel h index s = _
  rw [execRephaseWheel, State.mbRun_takes ht (by rw [hw]; exact if_pos hplaced)]

end

end

end Sys2Proof.Machine

open Sys2Proof.Machine

/-- Settles O19: each clause is the lemma of its event or command. -/
theorem wheelsComplete : Obligations.WheelsComplete := by
  unfold Obligations.WheelsComplete
  refine ⟨?beacon, ?idle, ?rest, ?opening, ?close, ?importing, ?exporting, ?save, ?delete, ?status, ?timers, ?rephase⟩
  case beacon =>
    intro ld wheel size aligned value s hup hld hwheel hd3
    exact exec_wheelBeacon_of_up hup hld hwheel hd3 size aligned value
  case idle =>
    intro t ld wheel x s u hu hup hwheel hx hstate hdue
    exact exec_wheelIdleTimeout_of_due hu hup hwheel hx hstate hdue
  case rest =>
    intro t ld wheel x s u hu hup hwheel hx hopen hresting hdue
    exact exec_wheelRestTimeout_of_due hu hup hwheel hx hopen hresting hdue
  case opening =>
    intro h n dlead pclass cclass flags sig idle rest idle' rest' i load watch used others es s x old ht hn0 hn hd0 hd hp hc hf
      hidle hrest htimers hused hothers hfits hfree hload hold hstate hsched hsurvey hx
    rw [hstate, hsched, hsurvey] at hx
    exact exec_openWheel_of_free ht (by omega) hidle hrest htimers hused hothers hfits hfree hload hold hx
  case close =>
    intro h index w s ht hw
    exact exec_closeWheel_of_open ht hw
  case importing =>
    intro h p index w img es s v ht hlen hpart himg hw hparse hmany hroom
    exact exec_importSchedule_of_whole ht hlen hpart himg hw hparse hmany hroom
  case exporting =>
    intro h o index w s ht hfirst hw
    exact exec_exportSchedule_of_first ht hfirst hw
  case save =>
    intro h index w s ht hw hroom
    exact exec_saveSchedule_of_room ht hw hroom
  case delete =>
    intro h sig s ht hstored
    exact exec_deleteSavedSchedule_of_stored ht hstored
  case status =>
    intro h index x s ht hindex hx
    exact exec_getWheelStatus_of_index ht hindex hx
  case timers =>
    intro h index idle rest w s ht hw htimers
    exact exec_setWheelTimers_of_legal ht hw htimers
  case rephase =>
    intro h index w s ht hw hplaced
    exact exec_rephaseWheel_of_placed ht hw hplaced

end

section
/-! PROOFS. Transfers between tiers: promotions, victims, demotions, write-backs, late reads, halts and cache fills (O9). -/
namespace Sys2Proof.Machine

/-! ### Promotion, victims and demotion (R75, R79, Table 4.3) -/

theorem exec_promotionComplete_of_issued {t sack : Nat} {x : Xfer} {s : State} (hup : s.up = true) (hx : s.xferOf sack = some x)
    (hchan : x.chan.isSome = true) (hmst : (s.sack sack).mst = .promoting ∨ (s.sack sack).mst = .specPromoting) :
    exec (.promotionComplete t sack) s =
      .next (((((((s.at_ t).install sack).modStore fun st => { st with cacheMissing := st.cacheMissing.filter fun u => u / 130 ≠ sack }).retryReads
        fun r => r.sack == sack).endXfer sack).arrived sack).cacheTrim 4096 |>.retryWrites fun w => w.sack == sack && w.why == .completing) := by
  show execPromotionComplete t sack s = _
  simp only [execPromotionComplete, State.at__xferOf, hx]
  exact if_pos ⟨hup, hchan, hmst⟩

theorem exec_victimScan_of_short {t stack : Nat} {s : State} (hup : s.up = true) (hstack : s.stackOk stack = true)
    (hshort : 64 * s.freeFrames stack < s.framesPerStack ∨ s.wantsRun stack = true) :
    exec (.victimScan t stack) s =
      .next ((s.at_ t).evictUntil stack ((s.at_ t).scanGoal stack) (2 * s.store.sacks.keys.length + 2)).framesFreed :=
  if_pos ⟨hup, hstack, hshort⟩

theorem exec_demotionDrained_of_demoting {t sack : Nat} {s : State} (hup : s.up = true) (hmst : (s.sack sack).mst = .demoting) :
    exec (.demotionDrained t sack) s = .next (((s.at_ t).toDeep sack true).journal 1).framesFreed :=
  if_pos ⟨hup, hmst⟩

/-! ### Write-back (R84, R252) -/

theorem exec_writebackComplete_of_admitted {t sack : Nat} {x : Xfer} {s : State} (hup : s.up = true) (hx : s.xferOf sack = some x)
    (hchan : x.chan.isSome = true) (hmst : (s.sack sack).mst = .writeback)
    (hadmit : (s.at_ t).mayProgram = true ∨ (s.at_ t).wbExempt sack = true) :
    exec (.writebackComplete t sack) s =
      .next (((s.at_ t).writebackDone sack).framesFreed.retryWrites fun w => w.why == .mirrorFull) := by
  have hactive : (s.at_ t).up = true ∧ ((s.at_ t).sack sack).mst = .writeback ∧ x.chan.isSome = true := ⟨hup, hmst, hchan⟩
  show execWritebackComplete t sack s = _
  simp only [execWritebackComplete, State.at__xferOf, hx]
  exact (if_pos hactive).trans (if_pos hadmit)

/-! ### Held reads: a demand read held for 1 ms (R92), and reads held for the codec cache (R110) -/

theorem exec_demandReadTimeout_of_due {t rid : Nat} {r : HeldRead} {e : Extent} {s : State} (hup : s.up = true)
    (hr : (s.store.heldReads.find? fun r => r.rid = rid) = some r) (hwhy : r.why = .demand) (hdue : r.start + ms ≤ max s.now t)
    (he : s.extById r.eid = some e) :
    exec (.demandReadTimeout t rid) s = .next (((s.at_ t).readThrough r.ld r.cls r.start e r.blk).2.answerRead r
      (match ((s.at_ t).readThrough r.ld r.cls r.start e r.blk).1 with | .through d => some d | _ => none)).wakeOrder := by
  have hactive : (s.at_ t).up = true ∧ r.why = .demand ∧ r.start + ms ≤ (s.at_ t).now := ⟨hup, hwhy, hdue⟩
  show execDemandReadTimeout t rid s = _
  simp only [execDemandReadTimeout, State.at__store, hr, if_pos hactive, State.at__extById, he] <;> rfl

theorem exec_codecCacheFill_of_up {t blk : Nat} {s : State} (hup : s.up = true) :
    exec (.codecCacheFill t blk) s =
      .next (((s.at_ t).modStore fun st => { st with cacheMissing := st.cacheMissing.filter fun u => u ≠ cacheUnit blk ∧ u ≠ cacheCopy blk }).retryReads
        fun r => r.why == .codecCache && r.blk / 64 == blk / 64) :=
  if_pos hup

/-! ### Channel halts (R101, R102, Table 4.7) -/

/-- Cause 3 is a lost stack; every other cause halts the transfer with the blocks of its own sack. -/
theorem exec_channelHalt_of_active {t channel cause : Nat} {x : Xfer} {e : Extent} {s : State} (hup : s.up = true) (hcause : cause ≤ 4)
    (hx : (s.store.xfers.find? fun x => x.chan = some channel) = some x) (he : s.extOfSack x.sack = some e) (blocks : List Nat) :
    exec (.channelHalt t channel cause blocks) s = .next (if cause = 3 then ((s.at_ t).stackFails (s.sack x.sack).stack).noteVitals (s.at_ t)
      else (s.at_ t).haltXfer x e channel cause
        ((if cause = 2 then blocks.flatMap unitBlocks else blocks).filter fun b => b / 128 == x.sack)) := by
  have hactive : ¬ (¬ (s.at_ t).up = true ∨ 4 < cause) := not_or.mpr ⟨not_not_intro hup, Nat.not_lt.mpr hcause⟩
  show execChannelHalt t channel cause blocks s = _
  simp only [execChannelHalt, State.at__store, hx, State.at__extOfSack, he, if_neg hactive]
  exact (apply_ite Host.Outcome.next ..).symm

end Sys2Proof.Machine

open Sys2Proof.Machine

/-- Settles O9: each clause is the lemma of its event. -/
theorem tierMovesComplete : Obligations.TierMovesComplete := by
  unfold Obligations.TierMovesComplete
  refine ⟨?promoted, ?scan, ?drained, ?written, ?late, ?halt, ?fill⟩
  case promoted =>
    intro t sack x s hup hx hchan hmst
    exact exec_promotionComplete_of_issued hup hx hchan hmst
  case scan =>
    intro t stack s hup hstack hshort
    exact exec_victimScan_of_short hup hstack hshort
  case drained =>
    intro t sack s hup hmst
    exact exec_demotionDrained_of_demoting hup hmst
  case written =>
    intro t sack x s hup hx hchan hmst hadmit
    exact exec_writebackComplete_of_admitted hup hx hchan hmst hadmit
  case late =>
    intro t rid r e s hup hr hwhy hdue he
    exact exec_demandReadTimeout_of_due hup hr hwhy hdue he
  case halt =>
    intro t channel cause blocks x e s hup hcause hx he
    exact exec_channelHalt_of_active hup hcause hx he blocks
  case fill =>
    intro t blk s hup
    exact exec_codecCacheFill_of_up hup

end

section
/-! PROOFS. The words of sack map entries (O52): what each field of an entry's word is, and how a word is read back. -/
namespace Sys2Proof.Machine

/-! ### Fields of a word -/

theorem bitsOf_eq_div_mod (v hi lo : Nat) : bitsOf v hi lo = v / 2 ^ lo % 2 ^ (hi + 1 - lo) := by
  rw [bitsOf, Nat.shiftRight_eq_div_pow]

/-- A flag of a word is the bit that stands there. -/
theorem bitOf_eq_of_div_mod {v i : Nat} {b : Bool} (h : v / 2 ^ i % 2 = b2n b) : bitOf v i = b := by
  rw [bitOf, Nat.testBit_eq_decide_div_mod_eq, h]
  cases b <;> rfl

theorem b2n_le_one (b : Bool) : b2n b ≤ 1 := by cases b <;> decide

theorem Tier.code_lt (t : Tier) : t.code < 4 := by cases t <;> decide

theorem Mst.code_lt (m : Mst) : m.code < 16 := by cases m <;> decide

theorem mstOf_code (m : Mst) : mstOf m.code = some m := by cases m <;> rfl

/-- Codes 10 to 15 name no state (Table 4.2). -/
theorem mstOf_of_ge {c : Nat} (h : 10 ≤ c) : mstOf c = none := by
  obtain ⟨n, rfl⟩ := Nat.exists_eq_add_of_le' h
  rfl

theorem lt_of_sizeLegal {c : Nat} (h : sizeLegal c = true) : c < 16 := by
  simp only [sizeLegal, Bool.or_eq_true, beq_iff_eq] at h
  omega

/-! ### The word of an entry (Table 2.6) -/

/-- TIER, MST and the flags fit the places that Table 2.6 gives them. -/
theorem Sack.low_fields_fit (k : Sack) : k.tier.code < 4 ∧ k.mst.code < 16 ∧ b2n k.poison ≤ 1 ∧ b2n k.durable ≤ 1 ∧ b2n k.lossy ≤ 1 ∧
    b2n k.spill ≤ 1 ∧ b2n k.reft ≤ 1 :=
  ⟨k.tier.code_lt, k.mst.code_lt, b2n_le_one _, b2n_le_one _, b2n_le_one _, b2n_le_one _, b2n_le_one _⟩

section
variable {k : Sack}

theorem Sack.word_tier : bitsOf k.word 1 0 = k.tier.code := by
  have htier := k.tier.code_lt
  rw [bitsOf_eq_div_mod, Sack.word]
  omega

theorem Sack.word_mst : bitsOf k.word 5 2 = k.mst.code := by
  have htier := k.tier.code_lt
  have hmst := k.mst.code_lt
  rw [bitsOf_eq_div_mod, Sack.word]
  omega

section
variable (hldtag : k.ldtag < 16)
include hldtag

theorem Sack.word_ldtag : bitsOf k.word 9 6 = k.ldtag := by
  have htier := k.tier.code_lt
  have hmst := k.mst.code_lt
  rw [bitsOf_eq_div_mod, Sack.word]
  omega

theorem Sack.word_flags : bitOf k.word 10 = k.poison ∧ bitOf k.word 11 = k.durable ∧ bitOf k.word 12 = k.lossy ∧
    bitOf k.word 13 = k.spill ∧ bitOf k.word 14 = k.reft := by
  obtain ⟨htier, hmst, hpoison, hdurable, hlossy, hspill, hreft⟩ := k.low_fields_fit
  refine ⟨bitOf_eq_of_div_mod ?_, bitOf_eq_of_div_mod ?_, bitOf_eq_of_div_mod ?_, bitOf_eq_of_div_mod ?_, bitOf_eq_of_div_mod ?_⟩ <;>
    · rw [Sack.word]
      omega

/-- Bits 0 to 15 of the word hold the fields below SIZE. -/
theorem Sack.word_eq_size_loc : ∃ low < 2 ^ 16, k.word = low + k.size * 2 ^ 16 + k.loc * 2 ^ 24 := by
  obtain ⟨htier, hmst, hpoison, hdurable, hlossy, hspill, hreft⟩ := k.low_fields_fit
  refine ⟨_, ?_, rfl⟩
  omega

section
variable (hsize : k.size < 16)
include hsize

theorem Sack.word_size : bitsOf k.word 19 16 = k.size := by
  obtain ⟨low, hlow, hword⟩ := Sack.word_eq_size_loc hldtag
  rw [bitsOf_eq_div_mod, hword]
  omega

theorem Sack.word_div_loc : k.word / 2 ^ 24 = k.loc := by
  obtain ⟨low, hlow, hword⟩ := Sack.word_eq_size_loc hldtag
  rw [hword]
  omega

theorem Sack.word_slot (htier : k.tier = .t2) (hslot : k.slot < 2 ^ 33) : bitsOf k.word 56 24 = k.slot := by
  have hloc : k.loc = k.slot := by rw [Sack.loc, htier]
  rw [bitsOf_eq_div_mod, Sack.word_div_loc hldtag hsize, hloc]
  exact Nat.mod_eq_of_lt hslot

theorem Sack.word_stack (htier : k.tier = .t1) (hstack : k.stack < 12) : bitsOf k.word 27 24 = k.stack := by
  have hloc : k.loc = k.stack + k.frame * 16 := by rw [Sack.loc, htier]
  rw [bitsOf_eq_div_mod, Sack.word_div_loc hldtag hsize, hloc]
  omega

theorem Sack.word_frame (htier : k.tier = .t1) (hstack : k.stack < 12) (hframe : k.frame < 2 ^ 23) : bitsOf k.word 50 28 = k.frame := by
  have hloc : k.loc = k.stack + k.frame * 16 := by rw [Sack.loc, htier]
  have hdiv : k.word / 2 ^ 28 = k.loc / 2 ^ 4 := by
    rw [← Sack.word_div_loc hldtag hsize, Nat.div_div_eq_div_mul, ← Nat.pow_add]
  rw [bitsOf_eq_div_mod, hdiv, hloc]
  omega

end

end

/-- What an entry's word holds of it: the fields of Table 2.6, LOC by the tier. -/
def Sack.entryFields (k : Sack) : Sack :=
  { tier := k.tier, mst := k.mst, ldtag := k.ldtag, poison := k.poison, durable := k.durable, lossy := k.lossy, spill := k.spill,
    reft := k.reft, size := k.size,
    slot := if k.tier = .t2 then k.slot else 0,
    stack := if k.tier = .t1 then k.stack else 0,
    frame := if k.tier = .t1 then k.frame else 0 }

/-- An entry whose fields fit and whose tier is the one of its state is read back from its word. -/
theorem sackOfWord_word (htier : k.tier = k.mst.tier) (hldtag : k.ldtag < 16) (hsize : sizeLegal k.size = true) (hslot : k.slot < 2 ^ 33)
    (hstack : k.stack < 12) (hframe : k.frame < 2 ^ 23) : sackOfWord k.word = some k.entryFields := by
  have hsize' := lt_of_sizeLegal hsize
  obtain ⟨hpoison, hdurable, hlossy, hspill, hreft⟩ := Sack.word_flags hldtag
  have hmst : mstOf (bitsOf k.word 5 2) = some k.mst := by rw [Sack.word_mst, mstOf_code]
  have hlegal : k.tier.code = bitsOf k.word 1 0 ∧ sizeLegal (bitsOf k.word 19 16) = true ∧ (k.tier = .t1 → bitsOf k.word 27 24 < 12) :=
    ⟨Sack.word_tier.symm, by rwa [Sack.word_size hldtag hsize'], fun ht => by rwa [Sack.word_stack hldtag hsize' ht hstack]⟩
  have hslot' : (if k.tier = .t2 then bitsOf k.word 56 24 else 0) = if k.tier = .t2 then k.slot else 0 :=
    if_ctx_congr Iff.rfl (fun ht => Sack.word_slot hldtag hsize' ht hslot) fun _ => rfl
  have hstack' : (if k.tier = .t1 then bitsOf k.word 27 24 else 0) = if k.tier = .t1 then k.stack else 0 :=
    if_ctx_congr Iff.rfl (fun ht => Sack.word_stack hldtag hsize' ht hstack) fun _ => rfl
  have hframe' : (if k.tier = .t1 then bitsOf k.word 50 28 else 0) = if k.tier = .t1 then k.frame else 0 :=
    if_ctx_congr Iff.rfl (fun ht => Sack.word_frame hldtag hsize' ht hstack hframe) fun _ => rfl
  rw [sackOfWord, hmst]
  dsimp only
  rw [← htier, if_pos hlegal, Sack.word_ldtag hldtag, Sack.word_size hldtag hsize', hpoison, hdurable, hlossy, hspill, hreft, hslot',
    hstack', hframe', Sack.entryFields]

end

/-! ### Corrupt words (R78) -/

theorem sackOfWord_of_reserved_mst {v : Nat} (h : 10 ≤ v / 4 % 16) : sackOfWord v = none := by
  have hmst : mstOf (bitsOf v 5 2) = none := by
    rw [bitsOf_eq_div_mod]
    exact mstOf_of_ge h
  rw [sackOfWord, hmst]

theorem sackOfWord_of_other_tier {v : Nat} {m : Mst} (hm : mstOf (v / 4 % 16) = some m) (htier : m.tier.code ≠ v % 4) :
    sackOfWord v = none := by
  have hmst : mstOf (bitsOf v 5 2) = some m := by
    rw [bitsOf_eq_div_mod]
    exact hm
  have hcode : m.tier.code ≠ bitsOf v 1 0 := by
    rw [bitsOf_eq_div_mod, Nat.pow_zero, Nat.div_one]
    exact htier
  simp only [sackOfWord, hmst]
  exact if_neg fun h => hcode h.1

end Sys2Proof.Machine

open Sys2Proof.Machine

/-- Settles O52: `sackOfWord_word` one way, and the two corrupt forms. -/
theorem sackEntriesReadBack : Obligations.SackEntriesReadBack := by
  unfold Obligations.SackEntriesReadBack
  refine ⟨fun k htier hldtag hsize hslot hstack hframe => ?_,
    fun v => ⟨sackOfWord_of_reserved_mst, fun m hm htier => sackOfWord_of_other_tier hm htier⟩⟩
  exact ⟨k.entryFields, sackOfWord_word htier hldtag hsize hslot hstack hframe, rfl, rfl, rfl, rfl, rfl, rfl, rfl, rfl, rfl,
    fun ht2 => if_pos ht2, fun ht1 => ⟨if_pos ht1, if_pos ht1⟩⟩

end

section
/-! PROOFS. Demand reads of poisoned data (O46): over the states whose sack map and counters are in canonical form, and over every state. -/
namespace Sys2Proof.Machine

/-- A write that leaves one part of a table's value at its place leaves that part everywhere. -/
theorem Tbl.part_get_set {α β : Type} [DecidableEq α] {t : Tbl α} (hwf : t.wf = true) {part : α → β} {k : Nat} {v : α}
    (hv : part v = part (t.get k)) (j : Nat) : part ((t.set k v).get j) = part (t.get j) := by
  by_cases hj : j = k
  · rw [hj, Tbl.get_set_same hwf, hv]
  · rw [Tbl.get_set_other t hj]

/-! ### What a touch of a sack leaves as it was (Table 4.3, R81, R97) -/

/-- `t` is `s` but for the states of sacks, the transfers, the holds and the counters beside the stall counts; the two tables that a
touch writes are in canonical form. -/
structure TouchKept (s t : State) : Prop where
  sent : t.sent = s.sent
  heldReads : t.store.heldReads = s.store.heldReads
  t1 : t.store.t1 = s.store.t1
  t2 : t.store.t2 = s.store.t2
  poison : ∀ k, (t.sack k).poison = (s.sack k).poison
  inT1 : ∀ k, (t.sack k).inT1 = (s.sack k).inT1
  stallCount : ∀ ld, (t.store.mrc.get ld).stallCount = (s.store.mrc.get ld).stallCount
  sacksWf : t.store.sacks.wf = true
  mrcWf : t.store.mrc.wf = true

section
variable {s u : State}

theorem TouchKept.refl (hsacks : s.store.sacks.wf = true) (hmrc : s.store.mrc.wf = true) : TouchKept s s :=
  ⟨rfl, rfl, rfl, rfl, fun _ => rfl, fun _ => rfl, fun _ => rfl, hsacks, hmrc⟩

theorem TouchKept.setSack (h : TouchKept s u) {k : Nat} {v : Sack} (hpoison : v.poison = (u.sack k).poison)
    (hinT1 : v.inT1 = (u.sack k).inT1) : TouchKept s (u.setSack k v) where
  sent := h.sent
  heldReads := h.heldReads
  t1 := h.t1
  t2 := h.t2
  poison j := (Tbl.part_get_set h.sacksWf hpoison j).trans (h.poison j)
  inT1 j := (Tbl.part_get_set h.sacksWf hinT1 j).trans (h.inT1 j)
  stallCount := h.stallCount
  sacksWf := Tbl.wf_set h.sacksWf k v
  mrcWf := h.mrcWf

theorem TouchKept.modMrc (h : TouchKept s u) {ld : Nat} {f : MrcLd → MrcLd} (hf : ∀ m, (f m).stallCount = m.stallCount) :
    TouchKept s (u.modMrc ld f) where
  sent := h.sent
  heldReads := h.heldReads
  t1 := h.t1
  t2 := h.t2
  poison := h.poison
  inT1 := h.inT1
  stallCount j := (Tbl.part_get_set h.mrcWf (hf _) j).trans (h.stallCount j)
  sacksWf := h.sacksWf
  mrcWf := Tbl.wf_upd h.mrcWf ld f

theorem TouchKept.evictNoop (h : TouchKept s u) (ld : Nat) : TouchKept s (u.evictNoop ld) := h.modMrc fun _ => rfl

theorem TouchKept.modXfersHolds (h : TouchKept s u) (xfers : StoreSt → List Xfer) (holds : StoreSt → List Hold) :
    TouchKept s (u.modStore fun st => { st with xfers := xfers st, holds := holds st }) :=
  ⟨h.sent, h.heldReads, h.t1, h.t2, h.poison, h.inT1, h.stallCount, h.sacksWf, h.mrcWf⟩

theorem TouchKept.confirm (h : TouchKept s u) (sack : Nat) : TouchKept s (u.confirm sack) := by
  unfold State.confirm
  dsimp only
  split
  · refine .modMrc (.modXfersHolds (.setSack h ?_ ?_) _ _) fun _ => ?_ <;> rfl
  · exact h

theorem TouchKept.touch (h : TouchKept s u) (sack ld : Nat) : TouchKept s (u.touch sack ld) := by
  have hconfirm := h.confirm sack
  unfold State.touch
  dsimp only
  split
  · refine .evictNoop (.setSack hconfirm ?_ ?_) ld <;> rfl
  · split
    · refine .evictNoop (.setSack hconfirm ?_ ?_) ld <;> rfl
    · exact hconfirm
  · exact hconfirm

theorem TouchKept.isPoison (h : TouchKept s u) (blk : Nat) : u.isPoison blk = s.isPoison blk := by
  simp only [State.isPoison, State.curBlk, h.poison, h.inT1, h.t1, h.t2]

end

/-! ### The answer with poison -/

/-- A request without latency misses no guarantee, so that no event is posted. -/
theorem State.serve_sent_of_no_latency (s : State) (ld r cls amount : Nat) (wheel : Option Nat) :
    (s.serve ld r cls amount 0 wheel).sent = s.sent := by
  simp only [State.serve, State.serveAs, Nat.zero_min, Nat.not_lt_zero, and_false, if_false]
  split <;> rfl

theorem State.sendPoison_sent (s : State) (ld tag cls : Nat) : ∃ load, (s.sendPoison ld tag cls).sent = .memPoison ld tag load :: s.sent :=
  ⟨_, congrArg _ (s.serve_sent_of_no_latency ..)⟩

theorem State.sendPoison_store (s : State) (ld tag cls : Nat) : (s.sendPoison ld tag cls).store = s.store :=
  (State.serveAs_keeps ..).store

/-! ### A read of a line that no merge-buffer entry holds (R94) -/

/-- The mask of a line is not empty. -/
theorem lineMask_ne_zero : ∀ line < 8, lineMask line ≠ 0 := by decide +kernel

/-- Without an entry in the merge buffer no line is held there whole. -/
theorem mergedValid_nil_and_lineMask_ne (dpa : Nat) : mergedValid [] &&& lineMask (lineOf dpa) ≠ lineMask (lineOf dpa) := by
  have hline : lineOf dpa < 8 := Nat.mod_lt _ (by decide)
  have hempty : mergedValid [] &&& lineMask (lineOf dpa) = 0 := BitVec.zero_and
  rw [hempty]
  exact (lineMask_ne_zero _ hline).symm

/-- The state with another sweep: what noting a read at its wheel changes (R51). -/
def State.withSweep (s : State) (sweep : SweepSt) : State := { s with sweep := sweep }

theorem State.noteRead_eq_withSweep (s : State) (w sack : Nat) (die : Option Nat) :
    s.noteRead w sack die = s.withSweep (s.noteRead w sack die).sweep := rfl

theorem TouchKept.withSweep {s u : State} (h : TouchKept s u) (sweep : SweepSt) : TouchKept s (u.withSweep sweep) :=
  ⟨h.sent, h.heldReads, h.t1, h.t2, h.poison, h.inT1, h.stallCount, h.sacksWf, h.mrcWf⟩

/-- What R94's rule asks of a line that an LD reads: no earlier request of it waits, no merge-buffer entry is of its block, its sack is
allocated with an entry that can be read, and the LD may reach it. -/
structure State.ReadsStored (s : State) (ld dpa : Nat) (e : Extent) : Prop where
  first : s.earlier ld dpa (s.blkOf e dpa) s.store.nextRid = false
  noMerge : s.mergesOf (s.blkOf e dpa) = []
  present : s.entryAway (s.sackOf e dpa) = false
  readable : s.entryBad (s.sackOf e dpa) = false
  mapped : (s.sack (s.sackOf e dpa)).mst ≠ .unmapped
  allocated : (s.sack (s.sackOf e dpa)).mst ≠ .allocating
  reach : s.mayReach ld e (s.sack (s.sackOf e dpa)) = true

section
variable {s : State} {ld dpa : Nat} {e : Extent} (h : s.ReadsStored ld dpa e)
include h

/-- Nothing that is asked of the line is a part of the sweep. -/
theorem State.ReadsStored.withSweep (sweep : SweepSt) : (s.withSweep sweep).ReadsStored ld dpa e :=
  ⟨h.first, h.noMerge, h.present, h.readable, h.mapped, h.allocated, h.reach⟩

theorem State.ReadsStored.look (hpoison : (s.touch (s.sackOf e dpa) ld).isPoison (s.blkOf e dpa) = true) (upset access : Nat)
    (die : Option Nat) (cls : Nat) : s.look ld e dpa upset access die cls = (.poison, s.touch (s.sackOf e dpa) ld) := by
  simp only [State.look, h.present, h.readable, if_neg h.mapped, if_neg h.allocated, h.reach, hpoison, not_true_eq_false,
    Bool.false_eq_true, if_false, if_true]

/-- The read is noted at its wheel, which changes the sweep alone; then its sack is touched, and it is answered with poison. -/
theorem State.ReadsStored.readLine
    (hpoison : ∀ sweep, ((s.withSweep sweep).touch (s.sackOf e dpa) ld).isPoison (s.blkOf e dpa) = true) (tag upset : Nat) :
    ∃ sweep, s.readLine ld dpa tag e upset =
      (((s.withSweep sweep).touch (s.sackOf e dpa) ld).poisonRead ld).sendPoison ld tag (Prof.wclass e.profile) := by
  have hpart : ¬ (mergedValid (s.mergesOf (s.blkOf e dpa)) &&& lineMask (lineOf dpa) = lineMask (lineOf dpa) ∧
      s.mayReach ld e (s.sack (s.blkOf e dpa / 128)) = true) := by
    rw [h.noMerge]
    exact fun hheld => mergedValid_nil_and_lineMask_ne dpa hheld.1
  unfold State.readLine
  cases s.wheelFor ld dpa with
  | none =>
    refine ⟨s.sweep, (if_neg (ne_true_of_eq_false h.first)).trans ((if_neg hpart).trans ?_)⟩
    rw [h.look (hpoison s.sweep)]
    rfl
  | some w =>
    refine ⟨(s.noteRead w (dpa / 65536) none).sweep, (if_neg (ne_true_of_eq_false h.first)).trans ((if_neg hpart).trans ?_)⟩
    have hlook := (h.withSweep _).look (hpoison (s.noteRead w (dpa / 65536) none).sweep) upset 5 none (Prof.wclass e.profile)
    rw [← State.noteRead_eq_withSweep] at hlook
    rw [hlook]
    rfl

end

/-! ### The demand read (O46) -/

theorem State.wakePort_store (s : State) (port : Nat) : (s.wakePort port).store = s.store := by
  unfold State.wakePort
  split
  · exact (State.setGroup_keeps ..).store
  · rfl

theorem State.settleLeaving_store (s : State) : s.settleLeaving.store = s.store := rfl

section
variable {port ldid hpa a dpa : Nat} {e : Extent} {s v u : State} (hport : s.portServes port = true) (hwake : s.wakePort port = v)
  (hld : v.ldidOk port ldid = true) (hdec : v.hdmDecode ldid hpa = some (a, false)) (hopen : v.boot.openSeq = 0) (hdpa : dpa = a / 64 * 64)
  (hsettle : v.settleLeaving = u) (hserved : u.access ldid dpa = .served e) (hgate : Prof.gate e.profile = false)
  (hreads : u.ReadsStored ldid dpa e)
include hport hwake hld hdec hopen hdpa hsettle hserved hgate hreads

/-- A read whose block still reads as poisoned once its sack is touched sends poison and changes the stored state by that touch alone. -/
theorem exec_cxlMemRead_of_poison
    (hpoison : ∀ sweep, ((u.withSweep sweep).touch (u.sackOf e dpa) ldid).isPoison (u.blkOf e dpa) = true)
    (tag : Nat) (mv : MetaVal) (upset : Nat) :
    ∃ (sweep : SweepSt) (t : State), exec (.cxlMemRead port ldid hpa tag mv upset) s = .next t ∧
      (∃ load, t.sent = .memPoison ldid tag load :: ((u.withSweep sweep).touch (u.sackOf e dpa) ldid).sent) ∧
      t.store = ((u.withSweep sweep).touch (u.sackOf e dpa) ldid).store := by
  subst hdpa
  obtain ⟨sweep, hline⟩ := hreads.readLine hpoison tag upset
  refine ⟨sweep, u.readLine ldid (a / 64 * 64) tag e upset, ?exec, ?sent, ?store⟩
  case exec =>
    rw [exec_cxlMemRead_host hport hwake hld hopen tag mv upset hdec, State.hostRead_of_served tag upset hsettle hserved hgate]
  case sent =>
    rw [hline]
    exact State.sendPoison_sent ..
  case store =>
    rw [hline]
    exact State.sendPoison_store ..

/-- What R94 asks holds of every state whose sack map and whose counters are in their canonical form, as they are at reset. -/
theorem poisonedReadsAtOnce_of_wf (hsacks : s.store.sacks.wf = true) (hmrc : s.store.mrc.wf = true)
    (hpoison : u.isPoison (u.blkOf e dpa) = true) (tag : Nat) (mv : MetaVal) (upset : Nat) :
    ∃ t : State, exec (.cxlMemRead port ldid hpa tag mv upset) s = .next t ∧ (∃ load : Nat, t.sent = .memPoison ldid tag load :: u.sent) ∧
      t.store.heldReads = u.store.heldReads ∧ (∀ c ld : Nat, (t.store.mrc.get ld).stallCount.get c = (u.store.mrc.get ld).stallCount.get c) := by
  have hstore : u.store = s.store := by rw [← hsettle, ← hwake, State.settleLeaving_store, State.wakePort_store]
  have hkept (sweep : SweepSt) : TouchKept u ((u.withSweep sweep).touch (u.sackOf e dpa) ldid) :=
    ((TouchKept.refl (hstore ▸ hsacks) (hstore ▸ hmrc)).withSweep sweep).touch ..
  have hstill (sweep : SweepSt) := ((hkept sweep).isPoison (u.blkOf e dpa)).trans hpoison
  obtain ⟨sweep, t, hexec, ⟨load, hsent⟩, hafter⟩ :=
    exec_cxlMemRead_of_poison hport hwake hld hdec hopen hdpa hsettle hserved hgate hreads hstill tag mv upset
  refine ⟨t, hexec, ⟨load, by rw [hsent, (hkept sweep).sent]⟩, by rw [hafter, (hkept sweep).heldReads], fun c ld => ?_⟩
  rw [hafter, (hkept sweep).stallCount]

end

/-- The extent of `countersListedTwice`: the first 256 MiB of LD 0. -/
def poisonedExtent : Extent :=
  { eid := 0, ld := 0, base := 0, len := 268435456, owner := 0, ownerBase := 0, profile := 0, state := .active }

/-- A module in service with one extent, whose first sack is poisoned and DEMOTING. Its counters are not in their canonical form: an
unlisted LD has one eviction that became a no-op, and LD 0 is listed twice, with no stall and then with one of every cause. -/
def countersListedTwice : State :=
  { millerReady := true, phase := .running
    ext := { parts := { dflt := {}, cells := [(0, { enabled := true, dpaSize := 1 })] }
             exts := [poisonedExtent] }
    port := { ports := { dflt := { state := .active, power := .active } } }
    cxe := { hdm := { dflt := {}, cells := [(0, { base := 0, size := 268435456, committed := true })] } }
    store := { sacks := { dflt := {}, cells := [(0, { tier := .t1, mst := .demoting, poison := true })] }
               mrc := { dflt := { evictNoop := 1 }, cells := [(0, {}), (0, { stallCount := { dflt := 1 } })] } } }

/-- Counting the demotion that became a no-op writes what an unlisted LD reads as, which removes the first of two entries. -/
theorem countersListedTwice_touch (sweep : SweepSt) :
    (((countersListedTwice.withSweep sweep).touch 0 0).store.mrc.get 0).stallCount.get 0 = 1 := by rfl

end Sys2Proof.Machine

open Sys2Proof.Machine

/-- Refutes O46: it admits states whose counters are not in canonical form. LD 0 reads address 0 in `countersListedTwice`; poison is
answered at once, but the read also stops the demotion of its sack, and LD 0 then reads as having one stall of cause 0, where it had
none. `poisonedReadsAtOnce_of_wf` is the statement with the hypotheses that it lacks. -/
theorem not_poisonedReadsAtOnce : ¬ Obligations.PoisonedReadsAtOnce := by
  intro hclaim
  have hreads : countersListedTwice.ReadsStored 0 0 poisonedExtent := by constructor <;> decide
  have hport : countersListedTwice.portServes 0 = true := by decide
  have hwake : countersListedTwice.wakePort 0 = countersListedTwice := rfl
  have hld : countersListedTwice.ldidOk 0 0 = true := by decide
  have hdec : countersListedTwice.hdmDecode 0 0 = some (0, false) := by decide
  have hsettle : countersListedTwice.settleLeaving = countersListedTwice := rfl
  have hserved : countersListedTwice.access 0 0 = .served poisonedExtent := by decide
  obtain ⟨sweep, t, hexec, -, hstore⟩ :=
    exec_cxlMemRead_of_poison hport hwake hld hdec rfl rfl hsettle hserved rfl hreads (fun _ => rfl) 0 .any 0
  obtain ⟨t', hexec', -, -, hstall⟩ := hclaim 0 0 0 0 0 0 0 .any poisonedExtent _ _ _ hport hwake hld hdec rfl rfl hsettle hserved rfl
    hreads.first hreads.noMerge hreads.present hreads.readable hreads.mapped hreads.allocated hreads.reach rfl
  obtain rfl := Host.Outcome.next.inj (hexec.symm.trans hexec')
  have hread := hstall 0 0
  rw [hstore] at hread
  exact absurd ((countersListedTwice_touch sweep).symm.trans hread) (by decide)

end

section
/-! PROOFS. The lossless codec (O51): bytes and words, bit strings, the three modes of Table 5.7, and the encoder's choice. -/
namespace Sys2Proof.Machine

/-! ### Bytes and words (R2) -/

@[simp] theorem length_leBytes (n v : Nat) : (leBytes n v).length = n := by
  induction n generalizing v with
  | zero => rfl
  | succ n ih => rw [leBytes, List.length_cons, ih]

theorem leBytes_zero_right (n : Nat) : leBytes n 0 = zeros n := by
  induction n with
  | zero => rfl
  | succ n ih => rw [leBytes, Nat.zero_div, ih]; rfl

theorem leNat_leBytes {n v : Nat} (hv : v < 2 ^ (8 * n)) : leNat (leBytes n v) = v := by
  induction n generalizing v with
  | zero => rw [Nat.lt_one_iff.mp hv]; rfl
  | succ n ih =>
    have hdiv : v / 256 < 2 ^ (8 * n) := by
      rw [Nat.div_lt_iff_lt_mul (by decide)]
      exact hv.trans_eq (by rw [Nat.mul_succ, Nat.pow_add])
    rw [leBytes, leNat, ih hdiv, BitVec.toNat_ofNat]
    exact Nat.mod_add_div v 256

theorem leBytes_leNat (bs : Bytes) : leBytes bs.length (leNat bs) = bs := by
  induction bs with
  | nil => rfl
  | cons b bs ih =>
    have hb : b.toNat < 256 := b.isLt
    have hdiv : leNat (b :: bs) / 256 = leNat bs := by rw [leNat]; omega
    have hhead : BitVec.ofNat 8 (leNat (b :: bs)) = b := by
      apply BitVec.eq_of_toNat_eq
      rw [BitVec.toNat_ofNat, leNat]
      omega
    rw [List.length_cons, leBytes, hdiv, hhead, ih]

theorem leNat_lt (bs : Bytes) : leNat bs < 2 ^ (8 * bs.length) := by
  induction bs with
  | nil => exact Nat.one_pos
  | cons b bs ih =>
    have hb : b.toNat < 256 := b.isLt
    rw [leNat, List.length_cons, Nat.mul_succ, Nat.pow_add]
    omega

theorem fit_of_length {n : Nat} {bs : Bytes} (h : bs.length = n) : fit n bs = bs := by
  subst h
  rw [fit, List.take_length, Nat.sub_self, List.replicate_zero, List.append_nil]

theorem fit_append {n : Nat} {bs rest : Bytes} (h : bs.length = n) : fit n (bs ++ rest) = bs := by
  subst h
  simp [fit]

@[simp] theorem length_wordsOf (n k : Nat) (bs : Bytes) : (wordsOf n k bs).length = k := by
  induction k generalizing bs with
  | zero => rfl
  | succ k ih => rw [wordsOf, List.length_cons, ih]

theorem lt_of_mem_wordsOf {n k w : Nat} {bs : Bytes} (h : w ∈ wordsOf n k bs) : w < 2 ^ (8 * n) := by
  induction k generalizing bs with
  | zero => cases h
  | succ k ih =>
    obtain rfl | h := List.mem_cons.mp h
    · exact (leNat_lt _).trans_le (Nat.pow_le_pow_right (by decide) (Nat.mul_le_mul_left 8 (List.length_take_le n bs)))
    · exact ih h

/-- The words of a run of bytes, written out again, are that run. -/
theorem flatMap_wordsOf {n k : Nat} {bs : Bytes} (h : bs.length = n * k) : (wordsOf n k bs).flatMap (leBytes n) = bs := by
  induction k generalizing bs with
  | zero => rw [List.eq_nil_of_length_eq_zero h]; rfl
  | succ k ih =>
    have hword : (bs.take n).length = n := by rw [List.length_take, h, Nat.mul_succ]; omega
    have hrest : (bs.drop n).length = n * k := by rw [List.length_drop, h, Nat.mul_succ]; omega
    have hhead := leBytes_leNat (bs.take n)
    rw [hword] at hhead
    rw [wordsOf, List.flatMap_cons, hhead, ih hrest, List.take_append_drop]

/-! ### Bit strings -/

theorem unpackBits_packBits {b : Nat} {vs : List Nat} (h : ∀ v ∈ vs, v < 2 ^ b) : unpackBits b vs.length (packBits b vs) = vs := by
  induction vs with
  | nil => rfl
  | cons v vs ih =>
    obtain ⟨hv, hvs⟩ := List.forall_mem_cons.mp h
    have hpos : 0 < 2 ^ b := Nat.two_pow_pos b
    rw [packBits, List.length_cons, unpackBits, Nat.add_mul_mod_self_left, Nat.mod_mod, Nat.mod_eq_of_lt hv,
      Nat.add_mul_div_left _ _ hpos, Nat.div_eq_of_lt hv, Nat.zero_add, ih hvs]

theorem packBits_lt (b : Nat) (vs : List Nat) : packBits b vs < 2 ^ (vs.length * b) := by
  induction vs with
  | nil => simp [packBits]
  | cons v vs ih =>
    have hv : v % 2 ^ b < 2 ^ b := Nat.mod_lt _ (Nat.two_pow_pos b)
    calc packBits b (v :: vs) < 2 ^ b * (packBits b vs + 1) := by rw [packBits, Nat.mul_succ]; omega
      _ ≤ 2 ^ b * 2 ^ (vs.length * b) := Nat.mul_le_mul_left _ ih
      _ = 2 ^ ((v :: vs).length * b) := by rw [← Nat.pow_add, List.length_cons, Nat.succ_mul, Nat.add_comm]

theorem width_le_iff {v n : Nat} : width v ≤ n ↔ v < 2 ^ n := by
  unfold width
  split
  case isTrue h => simp [h]
  case isFalse h => rw [Nat.succ_le_iff, Nat.log2_lt h]

/-- The largest of the values of `f` over a list. -/
theorem foldl_max_le_iff {f : Nat → Nat} {l : List Nat} {a n : Nat} :
    l.foldl (fun a d => max a (f d)) a ≤ n ↔ a ≤ n ∧ ∀ d ∈ l, f d ≤ n := by
  induction l generalizing a with
  | nil => simp
  | cons d l ih => rw [List.foldl_cons, ih, Nat.max_le, List.forall_mem_cons, and_assoc]

/-! ### The decoder by mode (Table 5.7) -/

theorem losslessDecode_raw (enc : Bytes) : losslessDecode true enc = some (fit 512 enc) := if_pos rfl

section
variable {enc : Bytes} {w : Nat}

theorem losslessDecode_mode0 (h : (enc.headD 0).toNat = 0) :
    losslessDecode false enc = some (spreadWords 64 (leAt enc 1 8) (enc.drop 9)) := by
  rw [losslessDecode, h]
  rfl

theorem losslessDecode_mode1 (h : (enc.headD 0).toNat = 1 + 4 * w) (hw : w ≤ 32) :
    losslessDecode false enc = some ((undelta (2 ^ 32) (leAt enc 1 4)
      (unpackBits w 127 (leNat ((enc.drop 5).take ((127 * w + 7) / 8))))).flatMap (leBytes 4)) := by
  have hmode : (1 + 4 * w) % 4 = 1 := by omega
  have hwidth : (1 + 4 * w) / 4 = w := by omega
  simp only [losslessDecode, h, hmode, hwidth]
  exact (if_neg Bool.false_ne_true).trans (if_neg (Nat.not_lt.mpr hw))

theorem losslessDecode_mode2 (h : (enc.headD 0).toNat = 2 + 4 * w) :
    losslessDecode false enc = some ((undelta (2 ^ 64) (leAt enc 1 8)
      (unpackBits w 63 (leNat ((enc.drop 9).take ((63 * w + 7) / 8))))).flatMap (leBytes 8)) := by
  have hmode : (2 + 4 * w) % 4 = 2 := by omega
  have hwidth : (2 + 4 * w) / 4 = w := by omega
  simp only [losslessDecode, h, hmode, hwidth]
  exact if_neg Bool.false_ne_true

end

/-! ### Encodings: a mode byte, a run of fixed length and a tail -/

section
variable {n : Nat} {xs : Bytes} (hxs : xs.length = n) (mode : Byte) (tail : Bytes)
include hxs

theorem leAt_modeByte_append : leAt (mode :: xs ++ tail) 1 n = leNat xs := congrArg leNat (List.take_left' hxs)

theorem drop_modeByte_append : (mode :: xs ++ tail).drop (n + 1) = tail := List.drop_left' (congrArg (· + 1) hxs)

end

/-! ### Mode 0: zero-word elimination -/

theorem nonZeroMask_lt (ws : List Nat) : nonZeroMask ws < 2 ^ ws.length := by
  induction ws with
  | nil => exact Nat.one_pos
  | cons w ws ih =>
    rw [nonZeroMask, List.length_cons, Nat.pow_succ]
    split <;> omega

/-- The words that are not zero, spread by the mask over zero bytes, are all the words. -/
theorem spreadWords_nonZeroMask (ws : List Nat) :
    spreadWords ws.length (nonZeroMask ws) ((ws.filter (· ≠ 0)).flatMap (leBytes 8)) = ws.flatMap (leBytes 8) := by
  induction ws with
  | nil => rfl
  | cons w ws ih =>
    rw [List.length_cons, spreadWords, List.flatMap_cons]
    by_cases hw : w = 0
    · have hbit : ¬ nonZeroMask (w :: ws) % 2 = 1 := by rw [nonZeroMask, if_pos hw]; omega
      have hrest : nonZeroMask (w :: ws) / 2 = nonZeroMask ws := by rw [nonZeroMask, if_pos hw]; omega
      rw [if_neg hbit, hrest, List.filter_cons_of_neg (by simpa using hw), ih, hw, leBytes_zero_right]
    · have hbit : nonZeroMask (w :: ws) % 2 = 1 := by rw [nonZeroMask, if_neg hw]; omega
      have hrest : nonZeroMask (w :: ws) / 2 = nonZeroMask ws := by rw [nonZeroMask, if_neg hw]; omega
      rw [if_pos hbit, hrest, List.filter_cons_of_pos (by simpa using hw), List.flatMap_cons, fit_append (length_leBytes 8 w),
        List.drop_left' (length_leBytes 8 w), ih]

theorem losslessDecode_encodeZero {data : Bytes} (hlen : data.length = 512) : losslessDecode false (encodeZero data) = some data := by
  have hmask := nonZeroMask_lt (wordsOf 8 64 data)
  have hspread := spreadWords_nonZeroMask (wordsOf 8 64 data)
  rw [length_wordsOf] at hmask hspread
  rw [losslessDecode_mode0 rfl, encodeZero, leAt_modeByte_append (length_leBytes 8 _), drop_modeByte_append (length_leBytes 8 _),
    leNat_leBytes hmask, hspread, flatMap_wordsOf hlen]

/-! ### Modes 1 and 2: delta coding -/

theorem length_deltas_cons (modulus a : Nat) (ws : List Nat) : (deltas modulus (a :: ws)).length = ws.length := by
  induction ws generalizing a with
  | nil => rfl
  | cons b ws ih => rw [deltas, List.length_cons, ih, List.length_cons]

theorem lt_of_mem_deltas {modulus d : Nat} {ws : List Nat} (hpos : 0 < modulus) (h : d ∈ deltas modulus ws) : d < modulus := by
  induction ws using deltas.induct with
  | case1 a b ws ih =>
    obtain rfl | h := List.mem_cons.mp h
    · exact Nat.mod_lt _ hpos
    · exact ih h
  | case2 ws hshort => rw [deltas.eq_2 _ _ hshort] at h; cases h

/-- Adding up the differences gives the words again. -/
theorem undelta_deltas {modulus a : Nat} {ws : List Nat} (h : ∀ w ∈ a :: ws, w < modulus) :
    undelta modulus a (deltas modulus (a :: ws)) = a :: ws := by
  induction ws generalizing a with
  | nil => rfl
  | cons b ws ih =>
    obtain ⟨ha, hws⟩ := List.forall_mem_cons.mp h
    have hb : b < modulus := hws b List.mem_cons_self
    have hstep : (a + (b + modulus - a) % modulus) % modulus = b := by
      rw [Nat.add_mod_mod, Nat.add_sub_cancel' (by omega), Nat.add_mod_right, Nat.mod_eq_of_lt hb]
    rw [deltas, undelta, hstep, ih hws]

/-- The differences of the words of a block. -/
def blockDeltas (n count : Nat) (data : Bytes) : List Nat := deltas (2 ^ (8 * n)) (wordsOf n count data)

/-- The width that holds each of them. -/
def deltaWidth (n count : Nat) (data : Bytes) : Nat := (blockDeltas n count data).foldl (fun a d => max a (width d)) 0

/-- A delta encoding of a block: the mode byte, the first word, the packed differences. -/
def deltaBytes (mode n count : Nat) (data : Bytes) : Bytes :=
  BitVec.ofNat 8 (mode + 4 * deltaWidth n count data) :: leBytes n ((wordsOf n count data).headD 0)
    ++ leBytes (((count - 1) * deltaWidth n count data + 7) / 8) (packBits (deltaWidth n count data) (blockDeltas n count data))

theorem encodeDelta_eq (mode n count : Nat) (data : Bytes) :
    encodeDelta mode n count data = if mode = 2 ∧ 63 < deltaWidth n count data then none else some (deltaBytes mode n count data) := rfl

section
variable (n count : Nat) (data : Bytes)

theorem length_blockDeltas : (blockDeltas n (count + 1) data).length = count := by
  rw [blockDeltas, wordsOf, length_deltas_cons, length_wordsOf]

theorem deltaWidth_le : deltaWidth n count data ≤ 8 * n :=
  foldl_max_le_iff.mpr ⟨Nat.zero_le _, fun _ hd => width_le_iff.mpr (lt_of_mem_deltas (Nat.two_pow_pos _) hd)⟩

theorem lt_two_pow_deltaWidth : ∀ d ∈ blockDeltas n count data, d < 2 ^ deltaWidth n count data :=
  fun d hd => width_le_iff.mp ((foldl_max_le_iff.mp le_rfl).2 d hd)

/-- The packed differences fit the bytes that Table 5.7 gives them. -/
theorem packBits_blockDeltas_lt : packBits (deltaWidth n (count + 1) data) (blockDeltas n (count + 1) data) <
    2 ^ (8 * ((count * deltaWidth n (count + 1) data + 7) / 8)) := by
  refine (packBits_lt ..).trans_le (Nat.pow_le_pow_right (by decide) ?_)
  rw [length_blockDeltas]
  omega

end

/-- What a delta mode of the decoder reads from the bytes after the mode byte. -/
theorem undelta_deltaBytes {n k : Nat} {data : Bytes} (mode : Nat) :
    undelta (2 ^ (8 * n)) (leAt (deltaBytes mode n (k + 1) data) 1 n)
      (unpackBits (deltaWidth n (k + 1) data) k
        (leNat (((deltaBytes mode n (k + 1) data).drop (n + 1)).take ((k * deltaWidth n (k + 1) data + 7) / 8)))) =
      wordsOf n (k + 1) data := by
  have hwords : ∀ w ∈ wordsOf n (k + 1) data, w < 2 ^ (8 * n) := fun _ => lt_of_mem_wordsOf
  have hdeltas := unpackBits_packBits (lt_two_pow_deltaWidth n (k + 1) data)
  rw [length_blockDeltas] at hdeltas
  rw [deltaBytes, leAt_modeByte_append (length_leBytes n _), drop_modeByte_append (length_leBytes n _),
    leNat_leBytes (v := (wordsOf n (k + 1) data).headD 0) (hwords _ List.mem_cons_self), Nat.add_sub_cancel,
    List.take_of_length_le (length_leBytes _ _).le, leNat_leBytes (packBits_blockDeltas_lt n k data), hdeltas]
  exact undelta_deltas hwords

/-- The mode byte of a delta encoding whose width fits it. -/
theorem headD_deltaBytes {mode n count : Nat} {data : Bytes} (hmode : mode < 4) (hw : deltaWidth n count data < 64) :
    ((deltaBytes mode n count data).headD 0).toNat = mode + 4 * deltaWidth n count data :=
  Nat.mod_eq_of_lt (by omega)

theorem losslessDecode_delta32 {data : Bytes} (hlen : data.length = 512) : losslessDecode false (deltaBytes 1 4 128 data) = some data := by
  have hw : deltaWidth 4 128 data ≤ 32 := deltaWidth_le 4 128 data
  have hmode := headD_deltaBytes (mode := 1) (by decide) (hw.trans_lt (by decide))
  rw [losslessDecode_mode1 hmode hw, undelta_deltaBytes (n := 4) (k := 127), flatMap_wordsOf hlen]

theorem losslessDecode_delta64 {data : Bytes} (hlen : data.length = 512) (hw : deltaWidth 8 64 data ≤ 63) :
    losslessDecode false (deltaBytes 2 8 64 data) = some data := by
  have hmode := headD_deltaBytes (mode := 2) (by decide) (Nat.lt_succ_of_le hw)
  rw [losslessDecode_mode2 hmode, undelta_deltaBytes (n := 8) (k := 63), flatMap_wordsOf hlen]

/-! ### The choice of the encoder -/

theorem shorter_cases (a : Bytes) (b : Option Bytes) : shorter a b = a ∨ b = some (shorter a b) := by
  cases b with
  | none => exact .inl rfl
  | some b =>
    rw [shorter]
    split
    · exact .inr rfl
    · exact .inl rfl

/-- The shortest of the three encodings, which the encoder keeps where it is below 512 bytes. -/
def shortestEncoding (data : Bytes) : Bytes :=
  shorter (shorter (encodeZero data) (encodeDelta 1 4 128 data)) (encodeDelta 2 8 64 data)

theorem shortestEncoding_cases (data : Bytes) : shortestEncoding data = encodeZero data ∨
    encodeDelta 1 4 128 data = some (shortestEncoding data) ∨ encodeDelta 2 8 64 data = some (shortestEncoding data) := by
  obtain h | h := shorter_cases (shorter (encodeZero data) (encodeDelta 1 4 128 data)) (encodeDelta 2 8 64 data)
  · rw [shortestEncoding, h]
    exact (shorter_cases _ _).imp_right .inl
  · exact .inr (.inr h)

theorem losslessDecode_shortestEncoding {data : Bytes} (hlen : data.length = 512) :
    losslessDecode false (shortestEncoding data) = some data := by
  obtain hzero | hdelta32 | hdelta64 := shortestEncoding_cases data
  · rw [hzero, losslessDecode_encodeZero hlen]
  · have henc : deltaBytes 1 4 128 data = shortestEncoding data := by simpa [encodeDelta_eq] using hdelta32
    rw [← henc, losslessDecode_delta32 hlen]
  · obtain ⟨hw, henc⟩ : deltaWidth 8 64 data ≤ 63 ∧ deltaBytes 2 8 64 data = shortestEncoding data := by
      simpa [encodeDelta_eq] using hdelta64
    rw [← henc, losslessDecode_delta64 hlen hw]

theorem losslessEncode_eq (data : Bytes) :
    losslessEncode data = if 512 ≤ (shortestEncoding data).length then (data, true) else (shortestEncoding data, false) := rfl

end Sys2Proof.Machine

open Sys2Proof.Machine

/-- Settles O51: a block that no mode shortens is kept as it is, and each of the three modes is read back. -/
theorem losslessBlocksReadBack : Obligations.LosslessBlocksReadBack := by
  unfold Obligations.LosslessBlocksReadBack
  intro data hlen
  by_cases hlong : 512 ≤ (shortestEncoding data).length
  · rw [losslessEncode_eq, if_pos hlong]
    dsimp only
    exact ⟨by rw [losslessDecode_raw, fit_of_length hlen], hlen.le⟩
  · rw [losslessEncode_eq, if_neg hlong]
    dsimp only
    exact ⟨losslessDecode_shortestEncoding hlen, (Nat.not_le.mp hlong).le⟩

end

section
/-! PROOFS. The words of side records (O53). -/
namespace Sys2Proof.Machine

section
variable {r : SideRec}

/-- The fields of Table 5.3 stand side by side, with zero in the reserved places. -/
theorem SideRec.word_eq_of_resv (hresv : r.resv = 0) :
    r.word = r.kind + r.gen * 2 ^ 3 + b2n r.prec * 2 ^ 4 + b2n r.raw * 2 ^ 5 + r.gran * 2 ^ 8 + r.spoff * 2 ^ 24 := by
  rw [SideRec.word]
  omega

/-- A record whose fields fit is read back from its word. -/
theorem sideOfWord_word (hkind : r.kind < 7) (hgen : r.gen < 2) (hgran : r.gran < 16) (hspoff : r.spoff < 2 ^ 40) (hresv : r.resv = 0) :
    sideOfWord r.word = some r := by
  have hprec := b2n_le_one r.prec
  have hraw := b2n_le_one r.raw
  have hword := SideRec.word_eq_of_resv hresv
  generalize r.word = v at hword ⊢
  have hkind' : bitsOf v 2 0 = r.kind := by rw [bitsOf_eq_div_mod]; omega
  have hgen' : bitsOf v 3 3 = r.gen := by rw [bitsOf_eq_div_mod]; omega
  have hprec' : bitOf v 4 = r.prec := bitOf_eq_of_div_mod (by omega)
  have hraw' : bitOf v 5 = r.raw := bitOf_eq_of_div_mod (by omega)
  have hgran' : bitsOf v 11 8 = r.gran := by rw [bitsOf_eq_div_mod]; omega
  have hspoff' : bitsOf v 63 24 = r.spoff := by rw [bitsOf_eq_div_mod]; omega
  have hlow : bitsOf v 7 6 = 0 := by rw [bitsOf_eq_div_mod]; omega
  have hhigh : bitsOf v 23 12 = 0 := by rw [bitsOf_eq_div_mod]; omega
  have hlegal : ¬ (bitsOf v 2 0 = 7 ∨ bitsOf v 7 6 ≠ 0 ∨ bitsOf v 23 12 ≠ 0) := by omega
  rw [sideOfWord, if_neg hlegal, hkind', hgen', hprec', hraw', hgran', hspoff', ← hresv]

end

/-- KIND 7 and a reserved bit that is set are uncorrectable (R107). -/
theorem sideOfWord_eq_none_iff (v : Nat) : sideOfWord v = none ↔ v % 8 = 7 ∨ v / 64 % 4 ≠ 0 ∨ v / 4096 % 4096 ≠ 0 := by
  have hkind : bitsOf v 2 0 = v % 8 := by rw [bitsOf_eq_div_mod, Nat.pow_zero, Nat.div_one]; rfl
  have hlow : bitsOf v 7 6 = v / 64 % 4 := bitsOf_eq_div_mod ..
  have hhigh : bitsOf v 23 12 = v / 4096 % 4096 := bitsOf_eq_div_mod ..
  rw [sideOfWord, hkind, hlow, hhigh, ite_eq_left_iff]
  simp only [reduceCtorEq, imp_false, not_not]

end Sys2Proof.Machine

open Sys2Proof.Machine

/-- Settles O53: `sideOfWord_word` one way, and the uncorrectable words. -/
theorem sideRecordsReadBack : Obligations.SideRecordsReadBack := by
  unfold Obligations.SideRecordsReadBack
  exact ⟨fun r => sideOfWord_word, fun v _ => (sideOfWord_eq_none_iff v).symm, rfl⟩

end

section
/-! PROOFS. Nearest-entry coding (O40): the search for the nearest entry, the indices of a block, the encoder and the decoder. -/
namespace Sys2Proof.Machine

/-! ### The nearest entry of a list of values -/

/-- Entry `i` is nearest to `x`, and every entry below it is farther. -/
def FirstNearest (x : Int) (es : List Int) (i : Nat) : Prop :=
  i < es.length ∧ (∀ j < es.length, (x - es.getD i 0).natAbs ≤ (x - es.getD j 0).natAbs) ∧
    ∀ j < i, (x - es.getD i 0).natAbs < (x - es.getD j 0).natAbs

section
variable {x e : Int} {es : List Int} {i : Nat}

theorem FirstNearest.singleton (x e : Int) : FirstNearest x [e] 0 := by
  refine ⟨Nat.one_pos, fun j hj => ?_, fun j hj => absurd hj (Nat.not_lt_zero j)⟩
  rw [Nat.lt_one_iff.mp hj]

/-- A further entry that is strictly nearer takes the place. -/
theorem FirstNearest.append_closer (h : FirstNearest x es i) (hcloser : (x - e).natAbs < (x - es.getD i 0).natAbs) :
    FirstNearest x (es ++ [e]) es.length := by
  obtain ⟨-, hle, -⟩ := h
  have hnew : (es ++ [e]).getD es.length 0 = e := by simp
  have hbelow : ∀ j < es.length, (x - e).natAbs < (x - (es ++ [e]).getD j 0).natAbs := fun j hj => by
    rw [List.getD_append _ _ _ _ hj]
    exact hcloser.trans_le (hle j hj)
  rw [FirstNearest, hnew]
  refine ⟨by simp, fun j hj => ?_, hbelow⟩
  obtain hj | rfl := Nat.lt_succ_iff_lt_or_eq.mp (by simpa using hj)
  · exact (hbelow j hj).le
  · rw [hnew]

/-- A further entry that is not nearer changes nothing. -/
theorem FirstNearest.append_farther (h : FirstNearest x es i) (hfarther : (x - es.getD i 0).natAbs ≤ (x - e).natAbs) :
    FirstNearest x (es ++ [e]) i := by
  obtain ⟨hi, hle, hlt⟩ := h
  have hnew : (es ++ [e]).getD es.length 0 = e := by simp
  rw [FirstNearest, List.getD_append _ _ _ _ hi]
  refine ⟨by simp; omega, fun j hj => ?_, fun j hj => ?_⟩
  · obtain hj | rfl := Nat.lt_succ_iff_lt_or_eq.mp (by simpa using hj)
    · rw [List.getD_append _ _ _ _ hj]
      exact hle j hj
    · rwa [hnew]
  · rw [List.getD_append _ _ _ _ (hj.trans hi)]
    exact hlt j hj

/-- The search goes on from the nearest of the entries it has passed. -/
theorem firstNearest_nearestIdx {rest : List Int} (h : FirstNearest x es i) :
    FirstNearest x (es ++ rest) (nearestIdx x es.length rest i (x - es.getD i 0).natAbs) := by
  induction rest generalizing es i with
  | nil => rwa [List.append_nil]
  | cons e rest ih =>
    have hsplit : es ++ e :: rest = (es ++ [e]) ++ rest := by simp
    have hlen : es.length + 1 = (es ++ [e]).length := by simp
    rw [nearestIdx, hsplit, hlen]
    split
    case isTrue hcloser => simpa using ih (h.append_closer hcloser)
    case isFalse hfarther =>
      have hnext := ih (h.append_farther (Nat.not_lt.mp hfarther))
      rwa [List.getD_append _ _ _ _ h.1] at hnext

end

/-- The exact values of a column's entries. -/
def colValues (src : Nat) (col : List Nat) : List Int := col.map fun e => (decodeElem src e).val

theorem getD_colValues {src j : Nat} {col : List Nat} (hj : j < col.length) :
    (colValues src col).getD j 0 = (decodeElem src (col.getD j 0)).val := by
  simp [colValues, hj]

theorem firstNearest_codeIdx {src : Nat} {col : List Nat} (x : Int) (hcol : col ≠ []) :
    FirstNearest x (colValues src col) (codeIdx src col x) := by
  cases col with
  | nil => exact absurd rfl hcol
  | cons e es => exact firstNearest_nearestIdx (FirstNearest.singleton x (decodeElem src e).val)

/-- R112: the entry coded is nearest to the value, and every entry below it is farther. -/
theorem codeIdx_nearest (src : Nat) {col : List Nat} (x : Int) (hcol : col ≠ []) :
    codeIdx src col x < col.length ∧
    (∀ j : Nat, j < col.length → (x - (decodeElem src (col.getD (codeIdx src col x) 0)).val).natAbs ≤
      (x - (decodeElem src (col.getD j 0)).val).natAbs) ∧
    (∀ j : Nat, j < codeIdx src col x → (x - (decodeElem src (col.getD (codeIdx src col x) 0)).val).natAbs <
      (x - (decodeElem src (col.getD j 0)).val).natAbs) := by
  obtain ⟨hi, hle, hlt⟩ := firstNearest_codeIdx (src := src) x hcol
  have hlen : (colValues src col).length = col.length := List.length_map _
  rw [hlen] at hi hle
  rw [getD_colValues hi] at hle hlt
  refine ⟨hi, fun j hj => ?_, fun j hj => ?_⟩
  · rw [← getD_colValues hj]
    exact hle j hj
  · rw [← getD_colValues (hj.trans hi)]
    exact hlt j hj

/-! ### Blocks (R105, R106) -/

/-- The index of a block's element is that of its value in its own column. -/
theorem getD_blockIdx {src i : Nat} {cb : List (List Nat)} {data : Bytes} {v : Int} {z : Bool} (hi : i < (elemsOf src data).length)
    (hv : decodeElem src ((elemsOf src data).getD i 0) = .fin v z) : (blockIdx src cb data).getD i 0 = codeIdx src (columnOf cb i) v := by
  have hidx : (blockIdx src cb data).getD i 0 = codeElem src (columnOf cb i) ((elemsOf src data).getD i 0) := by simp [blockIdx, hi]
  rw [hidx, codeElem, hv]

/-- A block within the bound of its extent's profile is CODED with the current generation (R113). -/
theorem State.encode_of_boundOk {s : State} {x e : Extent} {blk : Nat} {data : Bytes} {ts : TableSet} (order : Nat)
    (he : e = s.homeExt x blk) (hlossy : Prof.lossy e.profile = true) (hdata : data.all (· == 0) = false) (hts : ts = s.tset e.profile)
    (hgen : ts.hasGen = true) (hbound : boundOk (Prof.src e.profile) (Prof.bound e.profile) (ts.book ts.cur) data = true) :
    s.encode x blk data order = some ({ side := { kind := kCoded, gen := ts.cur }
                                        bytes := lossyPayload (Prof.src e.profile) (Prof.rate e.profile) (ts.book ts.cur) data
                                        order := order }, s) := by
  subst he hts
  exact (if_neg (ne_true_of_eq_false hdata)).trans ((if_pos hlossy).trans ((if_pos hgen).trans (if_pos hbound)))

section
variable {src : Nat} (rate : Nat) (cb : List (List Nat)) {payload : Bytes}

theorem lossyDecode_of_not_mx (hmx : isMx src = false) (hlen : payload.length = rateBytes rate) :
    lossyDecode src rate cb payload = (unpackBits (idxBits src rate) (srcCount src) (leNat payload)).zipIdx.flatMap fun p =>
      leBytes (srcBits src / 8) ((columnOf cb p.2).getD p.1 0) := by
  simp [lossyDecode, hmx, ← hlen]

/-- An MX payload has its indices in 240 bytes and its scale bytes behind them. -/
theorem lossyDecode_of_mx (hmx : isMx src = true) :
    lossyDecode src rate cb payload = ((unpackBits (idxBits src rate) (srcCount src) (leNat (payload.take 240))).zipIdx.flatMap fun p =>
      leBytes (srcBits src / 8) ((columnOf cb p.2).getD p.1 0)) ++ (payload.drop 240).take 15 ++ zeros 17 := by
  simp only [lossyDecode, hmx, if_true]

end

end Sys2Proof.Machine

open Sys2Proof.Machine

/-- Settles O40: the search keeps the lowest nearest entry so far, and the other clauses are the lemmas of the block's coder. -/
theorem nearestEntryCoded : Obligations.NearestEntryCoded := by
  unfold Obligations.NearestEntryCoded
  refine ⟨?nearest, ?block, ?encoder, ?decoder, ?decoderMx⟩
  case nearest =>
    rintro src col x _ hcol rfl
    exact codeIdx_nearest src x hcol
  case block =>
    intro src i cb data v z hi hv
    exact getD_blockIdx hi hv
  case encoder =>
    rintro s x e blk order data ts cb he hlossy hdata hts hgen rfl hbound
    exact State.encode_of_boundOk order he hlossy hdata hts hgen hbound
  case decoder =>
    intro src rate cb payload hmx hlen
    exact lossyDecode_of_not_mx rate cb hmx hlen
  case decoderMx =>
    intro src rate cb payload hmx _
    exact lossyDecode_of_mx rate cb hmx

end

section
/-! PROOFS. What the events of the bolter and the commands of table sets do when their conditions hold (O20). -/
namespace Sys2Proof.Machine

/-! ### Builds, the sweep and generations (R118 to R121): `u` is the state at the instant that the event carries. -/

section
variable {t set : Nat} {s u : State} (hu : u = s.at_ t) (hup : u.up = true)
include hu hup

theorem exec_bolterBuildStart_of_staged (hempty : (u.setAt set).state = .empty) (hmany : 131072 ≤ (u.stagedOf set).length) :
    exec (.bolterBuildStart t set) s = .next (u.queueBuild set none) := by
  subst hu
  exact (if_neg (not_not_intro hup)).trans (if_pos ⟨hempty, hmany⟩)

theorem exec_bolterBuildStart_of_not_empty (hset : (u.setAt set).state ≠ .empty) :
    exec (.bolterBuildStart t set) s = .next u.bolterNext := by
  subst hu
  exact (if_neg (not_not_intro hup)).trans (if_neg fun h => hset h.1)

theorem exec_stageIdleTimeout_of_due (hempty : (u.setAt set).state = .empty) (hdue : (u.setAt set).lastStaged + sec ≤ u.now)
    (hstaged : u.stagedOf set ≠ []) :
    exec (.stageIdleTimeout t set) s = .next (u.queueBuild set none) := by
  subst hu
  exact if_pos ⟨hup, hempty, hdue, hstaged⟩

theorem exec_bolterBuildComplete_of_running {b : Build} {rest : List Build} {x : TableSet} (hbuilds : u.store.builds = b :: rest)
    (hset : b.set = set) (hrunning : b.running = true) (hx : x = u.setAt set) :
    exec (.bolterBuildComplete t set) s = .next (((u.modStore fun st => { st with builds := rest }).newGeneration set
      (bolterBuild x.src x.rate x.cols b.sample)).bolterNext) := by
  subst hu hx
  show execBolterBuildComplete t set s = _
  simp only [execBolterBuildComplete, hbuilds]
  exact if_pos ⟨hup, hset, hrunning⟩

section
variable (hrecoding : (u.setAt set).state = .recoding)
include hrecoding

theorem exec_recodeSweep_of_gap (hgap : u.anyGap = true) :
    exec (.recodeSweep t set) s = .next ((u.modStore fun st => { st with lastGap := u.now }).recodeAll set) := by
  subst hu
  exact if_pos ⟨hup, hgap, hrecoding⟩

theorem exec_recodeGapTimeout_of_due (hdue : max u.store.lastGap (u.setAt set).recodeStart + 100 * ms ≤ u.now) :
    exec (.recodeGapTimeout t set) s = .next (u.recodeAll set) := by
  subst hu
  exact if_pos ⟨hup, hrecoding, hdue⟩

theorem exec_generationRelease_of_unused (hblocks : u.recodeBlocks set = []) (hflight : u.inFlight set = 0) :
    exec (.generationRelease t set) s =
      .next ((u.modSet set fun x => { x with state := .ready, genOps := [] }).returnStage set) := by
  subst hu
  exact if_pos ⟨hup, hrecoding, hblocks, hflight⟩

end

end

/-! ### Commands (Table 5.8) -/

theorem State.bolterNext_now (s : State) : s.bolterNext.now = s.now := by
  unfold State.bolterNext
  split
  · split <;> rfl
  · rfl

theorem State.queueBuild_now (s : State) (k : Nat) (ext : Option Nat) : (s.queueBuild k ext).now = s.now := State.bolterNext_now _

section
variable {h : MbHdr} {set : Nat} {s : State}

theorem exec_allocateTableSet_of_free {src rate cols k : Nat} (ht : s.takes h { opcode := 0xC040, ld := true, fm := .no, len := [11] })
    (hrate : rateAllowed src rate = true) (hcols : cols ∈ [1, 2, 4, 8, 16, 32])
    (hfree : (List.range 4096).find? (fun k => (s.setAt k).state == .free) = some k) :
    exec (.allocateTableSet h src rate cols) s = .next ((s.modSet k fun _ =>
      { state := .empty, party := s.party h.src, src := src, rate := rate, cols := cols }).replied h 0xC040 [⟨0, 2, k⟩] []) := by
  have hform : ¬ (¬ rateAllowed src rate = true ∨ ¬ [1, 2, 4, 8, 16, 32].contains cols = true) :=
    not_or.mpr ⟨not_not_intro hrate, not_not_intro (List.contains_iff_mem.mpr hcols)⟩
  show execAllocateTableSet h src rate cols s = _
  rw [execAllocateTableSet, State.mbRun_takes ht (by rw [if_neg hform, hfree])]

/-- A set that is neither built nor recoded passes the Busy check of C041h, C043h and C044h (R123). -/
theorem tableSet_not_busy (hbuilding : (s.setAt set).state ≠ .building) (hrecoding : (s.setAt set).state ≠ .recoding)
    (hrebuild : s.rebuilding set = false) :
    ¬ ((s.setAt set).state = .building ∨ (s.setAt set).state = .recoding ∨ s.rebuilding set = true) :=
  not_or.mpr ⟨hbuilding, not_or.mpr ⟨hrecoding, ne_true_of_eq_false hrebuild⟩⟩

theorem exec_getTableSetStatus_of_visible {x : TableSet} (ht : s.takes h { opcode := 0xC042, ld := true, fm := .either, len := [10] })
    (hsees : s.seesSet h set = true ∨ h.src = fmSrc ∧ set < 4096) (hx : x = s.setAt set) :
    exec (.getTableSetStatus h set) s = .next (s.replied h 0xC042 [⟨0, 1, x.state.code⟩, ⟨1, 1, x.src⟩, ⟨2, 1, x.rate⟩, ⟨3, 1, x.cols⟩,
      ⟨4, 1, x.cur⟩, ⟨8, 8, (s.recodeBlocks set).length⟩, ⟨16, 4, s.inFlight set⟩] []) := by
  subst hx
  show execGetTableSetStatus h set s = _
  rw [execGetTableSetStatus, State.mbRun_takes ht (if_neg (not_not_intro hsees))]

section
variable (hsees : s.seesSet h set = true)
include hsees

theorem exec_exportCodebook_of_hasGen {x : TableSet} (ht : s.takes h { opcode := 0xC045, ld := true, fm := .no, len := [10] })
    (hx : x = s.setAt set) (hgen : x.hasGen = true) :
    exec (.exportCodebook h set) s = .next (s.replied h 0xC045 [⟨0, 1, x.cur⟩] (codebookImage x.src (x.book x.cur))) := by
  subst hx
  show execExportCodebook h set s = _
  rw [execExportCodebook, State.mbRun_takes ht (if_neg (not_or.mpr ⟨not_not_intro hsees, not_not_intro hgen⟩))]

section
variable (hbuilding : (s.setAt set).state ≠ .building) (hrecoding : (s.setAt set).state ≠ .recoding) (hrebuild : s.rebuilding set = false)
include hbuilding hrecoding hrebuild

theorem exec_freeTableSet_of_unused (ht : s.takes h { opcode := 0xC041, ld := true, fm := .no, len := [10] })
    (hprofiles : s.profileNames set = false) :
    exec (.freeTableSet h set) s = .next ((s.modSet set fun _ => {}).replied h 0xC041 [] []) := by
  have hnotBusy := tableSet_not_busy hbuilding hrecoding hrebuild
  show execFreeTableSet h set s = _
  rw [execFreeTableSet, State.mbRun_takes ht (by
    rw [if_neg (not_not_intro hsees), if_neg (not_or.mpr ⟨ne_true_of_eq_false hprofiles, hnotBusy⟩)])]

theorem exec_rebuildTableSet_of_extent {base : Nat} {e : Extent}
    (ht : s.takes h { opcode := 0xC043, ld := true, fm := .no, len := [24], bg := true })
    (he : (s.spanOf set).find? (fun e => e.ld = h.src ∧ e.base = base) = some e) :
    exec (.rebuildTableSet h set base) s = .next ((s.queueBuild set (if (s.setAt set).state = .empty then none else some e.eid)).begun h
      0xC043 (.rebuildTableSet h set base)) := by
  have hnotBusy := tableSet_not_busy hbuilding hrecoding hrebuild
  show execRebuildTableSet h set base s = _
  rw [execRebuildTableSet, State.mbBg_takes ht (by rw [if_neg (not_not_intro hsees), if_neg hnotBusy, he]) (State.queueBuild_now ..)]

theorem exec_importCodebook_of_legal {image : Bytes} {cb : List (List Nat)}
    (ht : s.takes h { opcode := 0xC044, ld := true, fm := .no, len := [32800] })
    (hbook : codebookOf (s.setAt set).src (s.setAt set).rate (s.setAt set).cols image = some cb) :
    exec (.importCodebook h set image) s = .next ((s.newGeneration set cb).replied h 0xC044 [] []) := by
  have hnotBusy := tableSet_not_busy hbuilding hrecoding hrebuild
  show execImportCodebook h set image s = _
  rw [execImportCodebook, State.mbRun_takes ht (by
    dsimp only
    rw [if_neg (not_not_intro hsees), if_neg hnotBusy, hbook])]

end

end

end

end Sys2Proof.Machine

open Sys2Proof.Machine

/-- Settles O20: each clause is the lemma of its event or command. -/
theorem bolterComplete : Obligations.BolterComplete := by
  unfold Obligations.BolterComplete
  refine ⟨?start, ?stageIdle, ?built, ?sweep, ?gapTimeout, ?release, ?allocate, ?free, ?status, ?rebuild, ?importing, ?exporting⟩
  case start =>
    intro t set s u hu hup
    exact ⟨exec_bolterBuildStart_of_staged hu hup, exec_bolterBuildStart_of_not_empty hu hup⟩
  case stageIdle =>
    intro t set s u hu hup hempty hdue hstaged
    exact exec_stageIdleTimeout_of_due hu hup hempty hdue hstaged
  case built =>
    intro t set b rest x s u hu hup hbuilds hset hrunning hx
    exact exec_bolterBuildComplete_of_running hu hup hbuilds hset hrunning hx
  case sweep =>
    intro t set s u hu hup hgap hrecoding
    exact exec_recodeSweep_of_gap hu hup hrecoding hgap
  case gapTimeout =>
    intro t set s u hu hup hrecoding hdue
    exact exec_recodeGapTimeout_of_due hu hup hrecoding hdue
  case release =>
    intro t set s u hu hup hrecoding hblocks hflight
    exact exec_generationRelease_of_unused hu hup hrecoding hblocks hflight
  case allocate =>
    intro h src rate cols k s ht hrate hcols hfree
    exact exec_allocateTableSet_of_free ht hrate hcols hfree
  case free =>
    intro h set s ht hsees hprofiles hbuilding hrecoding hrebuild
    exact exec_freeTableSet_of_unused hsees hbuilding hrecoding hrebuild ht hprofiles
  case status =>
    intro h set x s ht hsees hx
    exact exec_getTableSetStatus_of_visible ht hsees hx
  case rebuild =>
    intro h set base e s ht hsees hbuilding hrecoding hrebuild he
    exact exec_rebuildTableSet_of_extent hsees hbuilding hrecoding hrebuild ht he
  case importing =>
    intro h set image cb s ht hsees hbuilding hrecoding hrebuild hbook
    exact exec_importCodebook_of_legal hsees hbuilding hrecoding hrebuild ht hbook
  case exporting =>
    intro h set x s ht hsees hx hgen
    exact exec_exportCodebook_of_hasGen hsees ht hx hgen

end

section
/-! PROOFS. Pieces on the stones: their start, their reads, their end, and what stops them (O14). -/
namespace Sys2Proof.Machine

/-! ### The start of a piece (R156, R160) -/

section
variable {t stone : Nat} {p : Piece} {s : State} (hup : s.up = true) (hstone : stone < 192)
  (honline : (s.stoneAt stone).state = .online) (hidle : (s.stoneAt stone).running = none)
  (hdie : (s.at_ t).dieStopped (stoneDie stone) = false)
include hup hstone honline hidle hdie

/-- An idle ONLINE stone of a running die passes the first check of PIECE_START. -/
theorem pieceStart_admitted : ¬ (¬ s.up = true ∨ 192 ≤ stone ∨ (s.stoneAt stone).state ≠ .online ∨
    (s.stoneAt stone).running.isSome = true ∨ (s.at_ t).dieStopped (stoneDie stone) = true) := by
  simp [hup, hstone, honline, hidle, hdie]

variable (hnext : (s.at_ t).nextPiece (s.stoneAt stone).queue = some p)
include hnext

theorem exec_pieceStart_of_foreign (hdirty : (s.stoneAt stone).clean = false)
    (hforeign : (s.stoneAt stone).party ≠ some ((s.at_ t).party p.ld)) :
    exec (.pieceStart t stone) s = .next (((s.at_ t).chargeCycles p.ld 4160).beginClear stone) := by
  show execPieceStart t stone s = _
  simp only [execPieceStart, State.at__stoneAt, hnext]
  refine (if_neg (pieceStart_admitted hup hstone honline hidle hdie)).trans ?_
  exact if_pos ⟨ne_true_of_eq_false hdirty, hforeign⟩

theorem exec_pieceStart_of_own (hown : (s.stoneAt stone).clean = true ∨ (s.stoneAt stone).party = some ((s.at_ t).party p.ld))
    (hmay : (s.at_ t).mayStart stone p = true) {load : Nat} {u : State}
    (hload : load = (if (s.stoneAt stone).loaded = some p.handle then 0 else hdrCode ((s.at_ t).hdr p.handle) / 64))
    (hu : u = (s.at_ t).takePiece stone p load) :
    exec (.pieceStart t stone) s = .next (((u.serveAs p.inG p.ld 3 p.wclass load
        (match (u.slot p.buf).op with | some o => u.now - o.accepted | none => 0)
        (match (u.slot p.buf).op with | some o => o.wheel | none => none)).modSlot p.buf
      fun x => { x with state := if x.state = .queued then .running else x.state }).placeWaiting) := by
  have hclear : ¬ (¬ (s.stoneAt stone).clean = true ∧ (s.stoneAt stone).party ≠ some ((s.at_ t).party p.ld)) := by
    rwa [not_and_or, not_not, not_not]
  subst hload hu
  show execPieceStart t stone s = _
  simp only [execPieceStart, State.at__stoneAt, hnext]
  refine (if_neg (pieceStart_admitted hup hstone honline hidle hdie)).trans ?_
  exact (if_neg hclear).trans (if_neg (not_not_intro hmay))

end

/-! ### Events of a running piece -/

/-- A read of 1 to 16 lines under a free tag, with room in the hopper, is issued at once (R141). -/
theorem stoneRead_admitted {stone tag count : Nat} {s : State} (hup : s.up = true) (htag : tag < 512) (hpos : 0 < count)
    (hcount : count ≤ 16) (hfree : s.tagOf stone tag = none) (hroom : (s.stoneAt stone).slotsUsed + count ≤ 4096) :
    ¬ (¬ s.up = true ∨ 512 ≤ tag ∨ count = 0 ∨ 16 < count ∨ (s.tagOf stone tag).isSome = true ∨
      4096 < (s.stoneAt stone).slotsUsed + count) := by
  simp only [hup, hfree, Option.isSome_none, Bool.false_eq_true, not_true_eq_false, false_or]
  omega

section
variable {t stone : Nat} {p : Piece} {s : State} (hup : s.up = true) (hrun : (s.stoneAt stone).running = some p)
include hup hrun

/-! #### Its end (R154) -/

theorem exec_pieceEnd_of_running {o : GateOp} {out : PieceOut} (hop : (s.slot p.buf).op = some o)
    (hout : (s.at_ t).evalPiece p.ld o p.idx (s.stoneAt stone).inputs = out) :
    exec (.pieceEnd t stone) s = .next ((((s.at_ t).chargeRun stone p).stoneIdle stone).pieceEnded p stone
      { out with poison := out.poison || p.poison, iso := out.iso || p.iso }) := by
  subst hout
  show execPieceEnd t stone s = _
  simp only [execPieceEnd, State.at__stoneAt, State.at__slot, State.at__up, hrun, hop]
  exact if_neg (not_not_intro hup)

/-! #### Its reads (R141 to R145) -/

section
variable {tag dpa count : Nat} (htag : tag < 512) (hpos : 0 < count) (hcount : count ≤ 16) (hfree : s.tagOf stone tag = none)
  (hroom : (s.stoneAt stone).slotsUsed + count ≤ 4096)
include htag hpos hcount hfree hroom

theorem exec_stoneReadRequest_of_inside (hinside : (s.at_ t).crosses p (dpa / 64 * 64) count = false) {u : State}
    (hu : u = (match (s.at_ t).settleLeaving.pieceWheel p (dpa / 64 * 64) with
      | some w => (s.at_ t).settleLeaving.noteRead w (dpa / 64 * 64 / 65536) (some (stoneDie stone))
      | none => (s.at_ t).settleLeaving)) :
    exec (.stoneReadRequest t stone tag dpa count) s = .next (u.modStone stone fun x => { x with
      running := some (u.noteInput p (dpa / 64 * 64))
      tags := x.tags ++ [{ tag := tag, dpa := dpa / 64 * 64, count := count, lines := [] }] }) := by
  subst hu
  show execStoneReadRequest t stone tag dpa count s = _
  simp only [execStoneReadRequest, State.at__stoneAt, hrun, hinside]
  exact if_neg (stoneRead_admitted hup htag hpos hcount hfree hroom)

theorem exec_stoneReadRequest_of_crosses (hcross : (s.at_ t).crosses p (dpa / 64 * 64) count = true) {v u : State}
    (hv : v = (List.range count).foldl (fun s i => s.crossLine p (dpa / 64 * 64 + 64 * i)) (s.at_ t).settleLeaving)
    (hu : u = (match v.pieceWheel p (dpa / 64 * 64) with
      | some w => v.noteRead w (dpa / 64 * 64 / 65536) (some (stoneDie stone))
      | none => v)) :
    exec (.stoneReadRequest t stone tag dpa count) s =
      .next ((List.range count).foldl (fun s i => s.putPoison stone tag i) (u.modStone stone fun x => { x with
        running := some (u.noteInput p (dpa / 64 * 64))
        tags := x.tags ++ [{ tag := tag, dpa := dpa / 64 * 64, count := count, lines := [] }] })) := by
  subst hu hv
  show execStoneReadRequest t stone tag dpa count s = _
  simp only [execStoneReadRequest, State.at__stoneAt, hrun, hcross]
  exact if_neg (stoneRead_admitted hup htag hpos hcount hfree hroom)

end

section
variable {tag : Nat} {r : ReadTag} (htag : s.tagOf stone tag = some r)
include htag

theorem exec_hopperLineDeliver_of_served {line upset : Nat} {e : Extent} {u : State} (hline : line < r.count)
    (hnew : ∀ x ∈ r.lines, x.line ≠ line) (hu : (s.at_ t).settleLeaving = u)
    (hserved : u.pieceAccess p (r.dpa + 64 * line) = .served e) :
    exec (.hopperLineDeliver t stone tag line upset) s = .next (u.hopperServe p stone tag line upset e (r.dpa + 64 * line)) := by
  have hok : ¬ (¬ s.up = true ∨ r.count ≤ line ∨ (r.lines.any fun x => x.line == line) = true) := by
    simpa [hup, hline] using hnew
  subst hu
  show execHopperLineDeliver t stone tag line upset s = _
  simp only [execHopperLineDeliver, State.at__stoneAt, State.at__tagOf, State.at__up, hrun, htag, if_neg hok, hserved]

theorem exec_stoneTake_of_delivered (hall : r.lines.length = r.count) :
    exec (.stoneTake t stone tag) s = .next ((s.at_ t).modStone stone fun st => { st.endStall (s.at_ t).cyc with
      tags := st.tags.filter fun x => x.tag ≠ tag
      took := r.lines.foldr insertLine []
      inputs := st.inputs ++ (r.lines.foldr insertLine []).map HopLine.data
      running := some { p with poison := p.poison || (r.lines.foldr insertLine []).any fun x => x.status == 3 } }) := by
  show execStoneTake t stone tag s = _
  simp only [execStoneTake, State.at__stoneAt, State.at__tagOf, State.at__up, hrun, htag]
  exact (if_neg (not_not_intro hup)).trans (if_pos hall)

theorem exec_stoneTake_of_waiting (hwait : r.lines.length ≠ r.count) (hfirst : (s.stoneAt stone).taking = none) :
    exec (.stoneTake t stone tag) s = .next ((s.at_ t).modStone stone fun st => { st with taking := some (tag, (s.at_ t).cyc) }) := by
  have hnone : ¬ (s.stoneAt stone).taking.isSome = true := by rw [hfirst]; exact Bool.false_ne_true
  show execStoneTake t stone tag s = _
  simp only [execStoneTake, State.at__stoneAt, State.at__tagOf, State.at__up, hrun, htag]
  exact (if_neg (not_not_intro hup)).trans ((if_neg hwait).trans (if_neg hnone))

end

/-! #### What stops it (R137, R151, R157, R158) -/

theorem exec_checkpointWatchdog_of_due (hdue : 2 * hdrCkptUs ((s.at_ t).hdr p.handle) * 3600 ≤ (s.at_ t).issued (s.stoneAt stone)) :
    exec (.checkpointWatchdog t stone) s =
      .next ((((((((s.at_ t).chargeRun stone p).recordFault stone p false).countWatchdog p.handle).stoneIdle stone).modSlot p.buf
        fun x => { x with replayed := true })).placePiece
        { p with poison := false, iso := false, saved := false, notStones := stone :: p.notStones }) := by
  show execCheckpointWatchdog t stone s = _
  simp only [execCheckpointWatchdog, State.at__stoneAt, State.at__up, hrun]
  exact if_pos ⟨hup, hdue⟩

theorem exec_accumulatorLimit_of_reached (hreached : 2 ^ 47 ≤ (s.at_ t).productBound (s.stoneAt stone)) :
    exec (.accumulatorLimit t stone) s =
      .next ((((s.at_ t).recordFault stone p true).countWatchdog p.handle).abortPiece stone p { abort := 13 }) := by
  show execAccumulatorLimit t stone s = _
  simp only [execAccumulatorLimit, State.at__stoneAt, State.at__up, hrun]
  exact if_pos ⟨hup, hreached⟩

theorem exec_codeFetchTrap_of_running : exec (.codeFetchTrap t stone) s = .next ((((s.at_ t).abortPiece stone p
    { poison := true }).modStone stone fun st => { st with loaded := none }).ueLog ((s.at_ t).trapUnit stone).1 ((s.at_ t).trapUnit stone).2
      0 2 p.ld 0) := by
  show execCodeFetchTrap t stone s = _
  simp only [execCodeFetchTrap, State.at__stoneAt, State.at__up, hrun]
  exact if_pos hup

theorem exec_preemptCheckpoint_of_marked (hmarked : (s.stoneAt stone).preempt = true) (hslices : (s.stoneAt stone).slices = []) {u : State}
    (hu : u = ((((s.at_ t).modStnLd p.ld fun l => { l with preempt := bump 32 l.preempt 1 }).chargeRun stone p).stoneIdle stone)) :
    exec (.preemptCheckpoint t stone) s = .next ((u.saveCkpt stone p).2.placePiece { p with
      ahead := true
      saved := (u.saveCkpt stone p).1
      poison := p.poison && (u.saveCkpt stone p).1 }) := by
  subst hu
  show execPreemptCheckpoint t stone s = _
  simp only [execPreemptCheckpoint, State.at__stoneAt, State.at__up, hrun, hslices]
  exact if_pos ⟨hup, hmarked⟩

end

end Sys2Proof.Machine

open Sys2Proof.Machine

/-- Settles O14: each clause is the lemma of its event. -/
theorem piecesComplete : Obligations.PiecesComplete := by
  unfold Obligations.PiecesComplete
  refine ⟨?start, ?ending, ?request, ?deliver, ?take, ?watchdog, ?limit, ?trap, ?preempt⟩
  case start =>
    intro t stone p s hup hstone honline hidle hdie hnext
    refine ⟨?foreign, ?own⟩
    case foreign =>
      intro hdirty hforeign
      exact exec_pieceStart_of_foreign hup hstone honline hidle hdie hnext hdirty hforeign
    case own =>
      intro hown hmay load u hload hu
      exact exec_pieceStart_of_own hup hstone honline hidle hdie hnext hown hmay hload hu
  case ending =>
    intro t stone p o s hup hrun hop out hout
    exact exec_pieceEnd_of_running hup hrun hop hout
  case request =>
    intro t stone tag dpa count p s hup hrun htag hpos hcount hfree hroom
    refine ⟨?inside, ?crosses⟩
    case inside =>
      intro hinside u hu
      exact exec_stoneReadRequest_of_inside hup hrun htag hpos hcount hfree hroom hinside hu
    case crosses =>
      intro hcross v u hv hu
      exact exec_stoneReadRequest_of_crosses hup hrun htag hpos hcount hfree hroom hcross hv hu
  case deliver =>
    intro t stone tag line upset p r e s u hup hrun htag hline hnew hu hserved
    exact exec_hopperLineDeliver_of_served hup hrun htag hline hnew hu hserved
  case take =>
    intro t stone tag p r s hup hrun htag
    exact ⟨exec_stoneTake_of_delivered hup hrun htag, exec_stoneTake_of_waiting hup hrun htag⟩
  case watchdog =>
    intro t stone p s hup hrun hdue
    exact exec_checkpointWatchdog_of_due hup hrun hdue
  case limit =>
    intro t stone p s hup hrun hreached
    exact exec_accumulatorLimit_of_reached hup hrun hreached
  case trap =>
    intro t stone p s hup hrun
    exact exec_codeFetchTrap_of_running hup hrun
  case preempt =>
    intro t stone p s hup hrun hmarked hslices u hu
    exact exec_preemptCheckpoint_of_marked hup hrun hmarked hslices hu

end

section
/-! PROOFS. The lines of gate slots: writes and reads of armed and unarmed positions (O10, O42, O43, O58), and the go lines that a busy
slot drops (O41). -/
namespace Sys2Proof.Machine

/-! ### What settling leaves, and what a write to the gates leaves -/

@[simp] theorem State.settleLeaving_gate (s : State) : s.settleLeaving.gate = s.gate := rfl
@[simp] theorem State.settleLeaving_sweep (s : State) : s.settleLeaving.sweep = s.sweep := rfl
@[simp] theorem State.settleLeaving_sent (s : State) : s.settleLeaving.sent = s.sent := rfl

theorem State.poisonSeen_keeps (s : State) (ld : Nat) (poison : Bool) : DataKept s (s.poisonSeen ld poison) := by
  cases poison with
  | false => exact DataKept.refl s
  | true => exact State.rasCor_keeps s ld 5 []

/-- The armed buffer of a position is found from the gates alone. -/
theorem State.bufAt_congr {s u : State} (h : u.gate = s.gate) (ld dpa : Nat) : u.bufAt ld dpa = s.bufAt ld dpa := by
  simp only [State.bufAt, State.slot, h]

theorem SlotState.busy_iff (x : SlotState) : x.busy = true ↔ x = .queued ∨ x = .running ∨ x = .checking := by
  cases x <;> decide

/-- R167: an access to a position that is not armed is counted. -/
def State.countUnarmed (s : State) (ld : Nat) : State := s.modGateLd ld fun l => { l with unarmed := bump 16 l.unarmed 1 }

/-! ### Writes to a position (R167, R168) -/

section
variable {ld dpa : Nat} {poison : Bool} {e : Extent} {s u : State} (hseen : (s.poisonSeen ld poison).settleLeaving = u)
  (hup : u.up = true) (hserved : u.access ld dpa = .served e) (hgate : Prof.gate e.profile = true)
include hseen hup hserved hgate

theorem exec_gateParamWrite_of_armed {b : Nat} (data : Bytes) (enables : BitVec 64) (hbuf : u.bufAt ld dpa = some b)
    (hline : dpa / 64 % 1024 ≠ 0) :
    exec (.gateParamWrite ld dpa data enables poison) s = .next (u.slotWrite ld b (dpa / 64 % 1024) data enables poison) := by
  subst hseen
  show execGateParamWrite ld dpa data enables poison s = _
  simp only [execGateParamWrite, hup, hserved, hgate, hbuf, not_true_eq_false, if_false, if_neg hline]

theorem exec_gateParamWrite_of_unarmed (data : Bytes) (enables : BitVec 64) (hbuf : u.bufAt ld dpa = none) :
    exec (.gateParamWrite ld dpa data enables poison) s = .next (u.countUnarmed ld) := by
  subst hseen
  show execGateParamWrite ld dpa data enables poison s = _
  simp only [execGateParamWrite, hup, hserved, hgate, hbuf, not_true_eq_false, if_false]
  rfl

end

/-! ### What a write to a line leaves (O58) -/

/-- `t` is `s` but for line `line` of buffer `b`, as far as stored data, wheels, extents, slots, sequences and lines go. -/
structure LineWritten (b line : Nat) (s t : State) : Prop where
  store : t.store = s.store
  sweep : t.sweep = s.sweep
  ext : t.ext = s.ext
  slots : t.gate.slots = s.gate.slots
  seqs : t.gate.seqs = s.gate.seqs
  others : ∀ c k : Nat, k < 1024 → ¬ (c = b ∧ k = line) → t.param c k = s.param c k

theorem LineWritten.refl (b line : Nat) (s : State) : LineWritten b line s s := ⟨rfl, rfl, rfl, rfl, rfl, fun _ _ _ _ => rfl⟩

/-- Counting leaves every line as it is. -/
theorem LineWritten.modGateLd (b line : Nat) (s : State) (ld : Nat) (f : GateLd → GateLd) : LineWritten b line s (s.modGateLd ld f) :=
  ⟨rfl, rfl, rfl, rfl, rfl, fun _ _ _ _ => rfl⟩

theorem LineWritten.setParam {b line : Nat} (hline : line < 1024) (s : State) (v : Option Bytes) :
    LineWritten b line s (s.setParam b line v) := by
  refine ⟨rfl, rfl, rfl, rfl, rfl, fun c k hk hne => ?_⟩
  have hkey : 1024 * c + k ≠ 1024 * b + line := by omega
  exact congrArg (Option.map (fit 64)) (Tbl.get_set_other _ hkey _)

theorem State.slotWrite_lineWritten {b line : Nat} (hline : line < 1024) (s : State) (ld : Nat) (data : Bytes) (enables : BitVec 64)
    (poison : Bool) : LineWritten b line s (s.slotWrite ld b line data enables poison) := by
  unfold State.slotWrite
  split
  · split
    · exact .setParam hline ..
    · split
      · exact .setParam hline ..
      · split
        · exact .setParam hline ..
        · exact .refl ..
  · exact .modGateLd ..

/-! ### Reads of a position (R167, R176, R178) -/

theorem State.gateRead_of_armed {s : State} {ld dpa b : Nat} (tag : Nat) (hbuf : s.bufAt ld dpa = some b) :
    s.gateRead ld dpa tag = s.slotRead ld b (dpa / 64 % 1024) tag := by
  rw [State.gateRead, hbuf]

theorem State.gateRead_of_unarmed {s : State} {ld dpa : Nat} (tag : Nat) (hbuf : s.bufAt ld dpa = none) :
    s.gateRead ld dpa tag = (s.countUnarmed ld).send (.memPoison ld tag (s.loadAt ld dpa)) := by
  rw [State.gateRead, hbuf]
  rfl

theorem exec_gateResultRead_of_served {ld dpa : Nat} {e : Extent} {s u : State} (tag : Nat) (hsettle : s.settleLeaving = u)
    (hup : u.up = true) (hserved : u.access ld dpa = .served e) (hgate : Prof.gate e.profile = true) :
    exec (.gateResultRead ld dpa tag) s = .next (u.gateRead ld dpa tag) := by
  subst hsettle
  show execGateResultRead ld dpa tag s = _
  simp only [execGateResultRead, hup, hserved, hgate, not_true_eq_false, if_false, if_true]

theorem State.sendLine_sent (s : State) (ld tag cls : Nat) (d : Bytes) :
    (s.sendLine ld tag cls d).sent = .memData ld tag d (s.devLoad cls) :: s.sent := congrArg _ (s.serve_sent_of_no_latency ..)

theorem State.sendPoison_sent_devLoad (s : State) (ld tag cls : Nat) :
    (s.sendPoison ld tag cls).sent = .memPoison ld tag (s.devLoad cls) :: s.sent := congrArg _ (s.serve_sent_of_no_latency ..)

/-! #### RESULT lines by the state of their slot -/

theorem Slot.resultLine_of_beyond {x : Slot} {i : Nat} (h : x.rlines ≤ i) : x.resultLine i = zeros 64 := if_neg (Nat.not_lt.mpr h)

theorem not_below_result {line : Nat} (h : 512 ≤ line) : line ≠ 0 ∧ line ≠ 1 ∧ ¬ line < 8 ∧ ¬ line < 512 := by omega

section
variable {s : State} {b : Nat}

theorem State.sendResult_of_good {i : Nat} (ld tag : Nat) (hready : (s.slot b).state = .ready) (hgood : i ∉ (s.slot b).bad) :
    s.sendResult ld b i tag = s.sendLine ld tag (s.slotClass b) ((s.slot b).resultLine i) :=
  if_pos ⟨hready, fun h => hgood (List.contains_iff_mem.mp h)⟩

theorem State.sendResult_of_bad {i : Nat} (ld tag : Nat) (hbad : i ∈ (s.slot b).bad) :
    s.sendResult ld b i tag = s.sendPoison ld tag (s.slotClass b) :=
  if_neg fun h => h.2 (List.contains_iff_mem.mpr hbad)

theorem State.sendResult_of_not_ready (ld i tag : Nat) (hstate : (s.slot b).state ≠ .ready) :
    s.sendResult ld b i tag = s.sendPoison ld tag (s.slotClass b) :=
  if_neg fun h => hstate h.1

/-- Reads of an LD that wait for a result (R178). -/
def State.heldOfLd (s : State) (ld : Nat) : Nat := (s.gate.reads.filter fun r => r.ld = ld).length

/-- R178: a held read that would be one too many is counted. -/
def State.countFull (s : State) (ld : Nat) : State := s.modGateLd ld fun l => { l with full := bump 16 l.full 1 }

/-- A read of a RESULT line waits for its slot (R176). -/
def State.holdResultRead (s : State) (ld b line tag : Nat) : State :=
  (s.modGateLd ld fun l => { l with held := bump 32 l.held 1 }).modGate fun g =>
    { g with reads := g.reads ++ [{ rid := s.gate.nextRead, ld := ld, buf := b, line := line - 512, tag := tag, start := s.now }],
             nextRead := g.nextRead + 1 }

variable {line : Nat} (hresult : 512 ≤ line) (ld tag : Nat)
include hresult

theorem State.slotRead_of_idle (hstate : (s.slot b).state = .idle) :
    s.slotRead ld b line tag = s.sendLine ld tag (s.slotClass b) (zeros 64) := by
  obtain ⟨h0, h1, h8, h512⟩ := not_below_result hresult
  simp only [State.slotRead, if_neg h0, if_neg h1, if_neg h8, if_neg h512, hstate]

theorem State.slotRead_of_ended (hstate : (s.slot b).state = .ready ∨ (s.slot b).state = .failed ∨ (s.slot b).state = .cancelled) :
    s.slotRead ld b line tag = s.sendResult ld b (line - 512) tag := by
  obtain ⟨h0, h1, h8, h512⟩ := not_below_result hresult
  obtain h | h | h := hstate <;> simp only [State.slotRead, if_neg h0, if_neg h1, if_neg h8, if_neg h512, h]

theorem State.slotRead_of_busy (hbusy : (s.slot b).state.busy = true) :
    s.slotRead ld b line tag = if 1024 ≤ s.heldOfLd ld then (s.countFull ld).sendPoison ld tag (s.slotClass b)
      else s.holdResultRead ld b line tag := by
  obtain ⟨h0, h1, h8, h512⟩ := not_below_result hresult
  obtain h | h | h := (SlotState.busy_iff _).mp hbusy <;>
    (simp only [State.slotRead, if_neg h0, if_neg h1, if_neg h8, if_neg h512, h]; rfl)

end

/-! ### The end of a hold time (R177) -/

theorem exec_gateHoldExpire_of_due {t rid : Nat} {r : ResRead} {s u : State} (hfind : (s.gate.reads.find? fun r => r.rid = rid) = some r)
    (hdue : r.start + (s.slot r.buf).hold * us ≤ max s.now t)
    (hu : ((s.at_ t).modGate fun g => { g with reads := g.reads.filter fun x => x.rid ≠ rid }).modGateLd r.ld
      (fun l => { l with expired := bump 16 l.expired 1 }) = u) :
    exec (.gateHoldExpire t rid) s =
      .next ((u.modSlot r.buf fun x => { x with holdexp := true }).sendPoison r.ld r.tag (u.slotClass r.buf)) := by
  subst hu
  show execGateHoldExpire t rid s = _
  simp only [execGateHoldExpire, State.at__gate, hfind]
  exact if_pos hdue

/-! ### Go lines (R171, R172, R182) -/

theorem exec_gateNop_of_accepted {g : GoWrite} {b : Nat} {p : Bytes} {s v : State} (hgo : s.takeGo g 0 = .accepted b v)
    (hshape : v.goShape b g false false = true) (hparams : v.copyParams b g.line.plines = some p) :
    exec (.gateNop g) s = .next (v.settleSlot b .ready 0 0 [] false) := by
  show execGateNop g s = _
  simp only [execGateNop, hgo, hshape, hparams, not_true_eq_false, if_false]

theorem exec_gateOpcodeReserved_of_accepted {g : GoWrite} {opcode b : Nat} {s v : State} (hgo : s.takeGo g opcode = .accepted b v) :
    exec (.gateOpcodeReserved g opcode) s = .next (v.failGo b 1 0) := by
  show execGateOpcodeReserved g opcode s = _
  rw [execGateOpcodeReserved, hgo]

theorem State.takeGo_of_busy {g : GoWrite} {b : Nat} {e : Extent} {s u : State} (opcode : Nat)
    (hseen : (s.poisonSeen g.ld g.poison).settleLeaving = u) (hup : u.up = true) (hserved : u.access g.ld g.dpa = .served e)
    (hgate : Prof.gate e.profile = true) (hbuf : u.bufAt g.ld g.dpa = some b) (hfull : g.full = true) (hclean : g.poison = false)
    (hbusy : (u.slot b).state.busy = true ∨ (u.slot b).state = .cancelled) :
    s.takeGo g opcode = .dropped (u.modGateLd g.ld fun l => { l with busygo := bump 16 l.busygo 1 }) := by
  have hwhole : ¬ (¬ g.full = true ∨ g.poison = true) := by simp [hfull, hclean]
  subst hseen
  simp only [State.takeGo, hup, hserved, hgate, hbuf, not_true_eq_false, if_false, if_neg hwhole, if_pos hbusy]

theorem State.runGo_of_dropped {s v : State} {g : GoWrite} {opcode cls handle : Nat} {hasObj : Bool} {check : GoCheck}
    {begin_ : State → Nat → GateOp → State} (hgo : s.takeGo g opcode = .dropped v) :
    s.runGo g opcode cls handle hasObj check begin_ = v := by
  rw [State.runGo, hgo]

/-- The go lines: one for each opcode of Table 7.6, and those of reserved opcodes. -/
def goLines (g : GoWrite) (opcode : Nat) : List Instr :=
  [.gateNop g, .gateOpcodeReserved g opcode, .appendAttend g, .prefixAttach g, .chunkPrefill g, .prefixPublish g, .seqTruncate g,
   .graphSearch g, .distanceBatch g, .setIntersect g, .setUnion g, .setDifference g, .tenant g]

/-- A go line that is dropped leaves what the drop leaves, whatever its opcode. -/
theorem exec_goLine_of_dropped {g : GoWrite} {opcode : Nat} {i : Instr} {s v : State} (hi : i ∈ goLines g opcode)
    (hgo : ∀ op : Nat, s.takeGo g op = .dropped v) : exec i s = .next v := by
  simp only [goLines, List.mem_cons, List.not_mem_nil, or_false] at hi
  obtain rfl | rfl | hi := hi
  · show execGateNop g s = _
    rw [execGateNop, hgo]
  · show execGateOpcodeReserved g opcode s = _
    rw [execGateOpcodeReserved, hgo]
  · rcases hi with rfl | rfl | rfl | rfl | rfl | rfl | rfl | rfl | rfl | rfl | rfl <;>
      exact congrArg Host.Outcome.next (State.runGo_of_dropped (hgo _))

/-! ### Requests of a host to a gate extent, and where no extent serves (R167, Table 2.4) -/

section
variable {ld dpa : Nat} {s u : State} (hsettle : s.settleLeaving = u) (tag : Nat)
include hsettle

theorem State.hostRead_of_gate {e : Extent} (upset : Nat) (hserved : u.access ld dpa = .served e) (hgate : Prof.gate e.profile = true) :
    s.hostRead ld dpa tag upset = u.gateRead ld dpa tag := by
  subst hsettle
  simp only [State.hostRead, hserved, hgate, if_true]

theorem State.hostRead_of_leaving (upset : Nat) (haccess : u.access ld dpa = .leaving) :
    s.hostRead ld dpa tag upset = (u.drop ld dpa false false).send (.memPoison ld tag (u.loadAt ld dpa)) := by
  subst hsettle
  simp only [State.hostRead, haccess]

theorem State.hostRead_of_nowhere (upset : Nat) (haccess : u.access ld dpa = .nowhere) :
    s.hostRead ld dpa tag upset = (u.drop ld dpa false true).send (.memPoison ld tag (u.loadAt ld dpa)) := by
  subst hsettle
  simp only [State.hostRead, haccess]

variable (data : Bytes) (enables : BitVec 64) (poison : Bool) {w : State}

theorem State.hostWrite_of_unarmed {e : Extent} (hserved : u.access ld dpa = .served e) (hgate : Prof.gate e.profile = true)
    (hbuf : u.bufAt ld dpa = none) (hw : u.countUnarmed ld = w) :
    s.hostWrite ld dpa tag data enables poison false = w.send (.memDone ld tag (w.loadAt ld dpa)) := by
  subst hsettle hw
  simp only [State.hostWrite, hserved, hgate, State.gateWrite, hbuf, if_true]
  rfl

theorem State.hostWrite_of_leaving (haccess : u.access ld dpa = .leaving) (hw : u.drop ld dpa true false = w) :
    s.hostWrite ld dpa tag data enables poison false = w.send (.memDone ld tag (w.loadAt ld dpa)) := by
  subst hsettle hw
  simp only [State.hostWrite, haccess]
  rfl

theorem State.hostWrite_of_nowhere (haccess : u.access ld dpa = .nowhere) (hw : u.drop ld dpa true true = w) :
    s.hostWrite ld dpa tag data enables poison false = w.send (.memDone ld tag (w.loadAt ld dpa)) := by
  subst hsettle hw
  simp only [State.hostWrite, haccess]
  rfl

end

section
variable {port ldid hpa a : Nat} {bi : Bool} {s v : State} (hport : s.portServes port = true) (hwake : s.wakePort port = v)
  (hld : v.ldidOk port ldid = true) (hdec : v.hdmDecode ldid hpa = some (a, bi)) (hopen : v.boot.openSeq = 0)
  (hnone : ∀ e : Extent, v.access ldid (a / 64 * 64) ≠ .served e)
include hport hwake hld hdec hopen hnone

/-- Where no extent serves, a read of an HDM-DB range is treated as any other. -/
theorem exec_cxlMemRead_of_not_served (tag : Nat) (mv : MetaVal) (upset : Nat) :
    exec (.cxlMemRead port ldid hpa tag mv upset) s = .next (v.hostRead ldid (a / 64 * 64) tag upset) := by
  cases bi with
  | false => exact exec_cxlMemRead_host hport hwake hld hopen tag mv upset hdec
  | true =>
    subst hwake
    show execCxlMemRead port ldid hpa tag mv upset s = _
    simp only [execCxlMemRead, hport, hld, hdec, hopen, not_true_eq_false, if_false, ne_eq]
    cases haccess : (s.wakePort port).access ldid (a / 64 * 64) with
    | served e => exact absurd haccess (hnone e)
    | leaving => rfl
    | nowhere => rfl

theorem exec_cxlMemWrite_of_not_served (tag : Nat) (data : Bytes) (enables : BitVec 64) :
    exec (.cxlMemWrite port ldid hpa tag data enables false) s =
      .next (v.hostWrite ldid (a / 64 * 64) tag (fit 64 data) enables false false) := by
  subst hwake
  cases bi with
  | false => exact exec_cxlMemWrite_host hport hld State.poisonSeen_false hopen tag data enables hdec
  | true =>
    show execCxlMemWrite port ldid hpa tag data enables false s = _
    simp only [execCxlMemWrite, State.poisonSeen_false, hport, hld, hdec, hopen, not_true_eq_false, if_false, ne_eq]
    cases haccess : (s.wakePort port).access ldid (a / 64 * 64) with
    | served e => exact absurd haccess (hnone e)
    | leaving => rfl
    | nowhere => rfl

end

section
variable {port ldid hpa a : Nat} {bi : Bool} {e : Extent} {s v u : State} (hport : s.portServes port = true) (hwake : s.wakePort port = v)
  (hld : v.ldidOk port ldid = true) (hdec : v.hdmDecode ldid hpa = some (a, bi)) (hopen : v.boot.openSeq = 0)
  (hgate : Prof.gate e.profile = true) (hserved : u.access ldid (a / 64 * 64) = .served e)
include hport hwake hld hdec hopen hgate hserved

/-- A read of a gate extent reaches its gate from an HDM-DB range and from any other. -/
theorem exec_cxlMemRead_of_gate (tag : Nat) (mv : MetaVal) (upset : Nat) (hu : u = if bi then v else v.settleLeaving) :
    exec (.cxlMemRead port ldid hpa tag mv upset) s = .next (u.gateRead ldid (a / 64 * 64) tag) := by
  cases bi with
  | false =>
    have hexec := exec_cxlMemRead_host hport hwake hld hopen tag mv upset hdec
    rwa [State.hostRead_of_gate hu.symm tag upset hserved hgate] at hexec
  | true =>
    obtain rfl : u = v := hu
    exact (exec_cxlMemRead_hdmDb hport hwake hld hopen tag mv upset hdec hserved).trans (congrArg Host.Outcome.next (if_pos hgate))

theorem exec_cxlMemWrite_of_unarmed {w : State} (tag : Nat) (data : Bytes) (enables : BitVec 64) (hsettle : v.settleLeaving = u)
    (hbefore : v.access ldid (a / 64 * 64) = .served e) (hbuf : u.bufAt ldid (a / 64 * 64) = none) (hw : u.countUnarmed ldid = w) :
    exec (.cxlMemWrite port ldid hpa tag data enables false) s =
      .next (w.send (.memDone ldid tag (w.loadAt ldid (a / 64 * 64)))) := by
  have hdrop := fun d : Bytes => State.hostWrite_of_unarmed hsettle tag d enables false hserved hgate hbuf hw
  subst hwake
  cases bi with
  | false =>
    rw [exec_cxlMemWrite_host hport hld State.poisonSeen_false hopen tag data enables hdec, hdrop]
  | true =>
    rw [exec_cxlMemWrite_hdmDb hport hld State.poisonSeen_false hopen tag data enables hdec hbefore, if_pos hgate, hdrop]

end

end Sys2Proof.Machine

open Sys2Proof.Machine

/-- Settles O10: each clause is the lemma of its event. -/
theorem gateLinesComplete : Obligations.GateLinesComplete := by
  unfold Obligations.GateLinesComplete
  refine ⟨?write, ?read, ?expire, ?nop, ?reserved⟩
  case write =>
    intro ld dpa data enables e b s u hseen hup hserved hgate hbuf hline
    exact exec_gateParamWrite_of_armed hseen hup hserved hgate data enables hbuf hline
  case read =>
    intro ld dpa tag e s u hsettle hup hserved hgate
    exact exec_gateResultRead_of_served tag hsettle hup hserved hgate
  case expire =>
    intro t rid r s u hfind hdue hu
    exact exec_gateHoldExpire_of_due hfind hdue hu
  case nop =>
    intro g b p s v hgo hshape hparams
    exact exec_gateNop_of_accepted hgo hshape hparams
  case reserved =>
    intro g opcode b s v hgo
    exact exec_gateOpcodeReserved_of_accepted hgo

/-- Settles O41: the write to the go line is dropped at acceptance, and every go line leaves what a drop leaves. -/
theorem busySlotsDropGoLines : Obligations.BusySlotsDropGoLines := by
  intro g opcode b i e s u hi hseen hup hserved hgate hbuf hfull hclean hstate
  have hbusy : (u.slot b).state.busy = true ∨ (u.slot b).state = .cancelled := by
    rw [SlotState.busy_iff]
    tauto
  exact exec_goLine_of_dropped hi fun op =>
    State.takeGo_of_busy op (hclean ▸ hseen) hup hserved hgate hbuf hfull hclean hbusy

/-- Settles O42: the request reaches the gate, whose position is not armed, or the drop of Table 2.4. -/
theorem unarmedPositionsPoison : Obligations.UnarmedPositionsPoison := by
  unfold Obligations.UnarmedPositionsPoison
  refine ⟨?read, ?write, ?unservedRead, ?unservedWrite⟩
  case read =>
    intro port ldid hpa tag upset a mv bi e s v u hport hwake hld hdec hopen hu hserved hgate hbuf
    have hexec := exec_cxlMemRead_of_gate hport hwake hld hdec hopen hgate hserved tag mv upset hu
    rwa [State.gateRead_of_unarmed tag hbuf] at hexec
  case write =>
    intro port ldid hpa tag a data enables bi e s v u w hport hwake hld hdec hopen hsettle hw hbefore hserved hgate hbuf
    exact exec_cxlMemWrite_of_unarmed hport hwake hld hdec hopen hgate hserved tag data enables hsettle hbefore hbuf hw
  case unservedRead =>
    intro port ldid hpa tag upset a mv bi s v u hport hwake hld hdec hopen hsettle hnone
    rw [exec_cxlMemRead_of_not_served hport hwake hld hdec hopen hnone]
    exact ⟨fun h => congrArg _ (State.hostRead_of_leaving hsettle tag upset h),
      fun h => congrArg _ (State.hostRead_of_nowhere hsettle tag upset h)⟩
  case unservedWrite =>
    intro port ldid hpa tag a data enables bi s v u w hport hwake hld hdec hopen hsettle hnone
    rw [exec_cxlMemWrite_of_not_served hport hwake hld hdec hopen hnone]
    exact ⟨fun h hw => congrArg _ (State.hostWrite_of_leaving hsettle tag _ enables false h hw),
      fun h hw => congrArg _ (State.hostWrite_of_nowhere hsettle tag _ enables false h hw)⟩

/-- Settles O43: the read reaches its slot's RESULT line, and each clause is what `slotRead` does in that state. -/
theorem resultReadsByState : Obligations.ResultReadsByState := by
  intro ld dpa tag line b e x s u hsettle hup hserved hgate hbuf hx hline hresult
  have hread : exec (.gateResultRead ld dpa tag) s = .next (u.slotRead ld b line tag) := by
    rw [exec_gateResultRead_of_served tag hsettle hup hserved hgate, State.gateRead_of_armed tag hbuf, hline]
  subst hx
  rw [hread]
  refine ⟨?idle, ?good, ?bad, ?ended, ?held, ?full, ?answers⟩
  case idle =>
    intro hstate
    rw [State.slotRead_of_idle hresult ld tag hstate]
  case good =>
    intro hstate hgood
    rw [State.slotRead_of_ended hresult ld tag (.inl hstate), State.sendResult_of_good ld tag hstate hgood]
    exact ⟨rfl, Slot.resultLine_of_beyond⟩
  case bad =>
    intro hstate hbad
    rw [State.slotRead_of_ended hresult ld tag (.inl hstate), State.sendResult_of_bad ld tag hbad]
  case ended =>
    intro hstate
    have hready : (u.slot b).state ≠ .ready := by
      obtain h | h := hstate <;> rw [h] <;> decide
    rw [State.slotRead_of_ended hresult ld tag (.inr hstate), State.sendResult_of_not_ready ld _ tag hready]
  case held =>
    intro hbusy hroom
    subst hsettle
    exact ⟨_, congrArg _ ((State.slotRead_of_busy hresult ld tag hbusy).trans (if_neg (Nat.not_le.mpr hroom))), rfl, List.length_append⟩
  case full =>
    intro hbusy hfull
    exact congrArg _ ((State.slotRead_of_busy hresult ld tag hbusy).trans (if_pos hfull))
  case answers =>
    intro v cls d
    exact ⟨State.sendLine_sent .., State.sendPoison_sent_devLoad ..⟩

/-- Settles O58: counting a poisoned write and settling the extents leave the gates, and the write itself is `slotWrite_lineWritten`. -/
theorem paramWriteFrame : Obligations.ParamWriteFrame := by
  intro ld dpa data enables poison e s u t hseen hup hserved hgate hline hexec
  have hkept := State.poisonSeen_keeps s ld poison
  have hstore : u.store = s.store := by rw [← hseen, State.settleLeaving_store, hkept.store]
  have hsweep : u.sweep = s.sweep := by rw [← hseen, State.settleLeaving_sweep, hkept.sweep]
  have hgates : u.gate = s.gate := by rw [← hseen, State.settleLeaving_gate, hkept.gate]
  have hslots : u.gate.slots = s.gate.slots := congrArg GateSt.slots hgates
  have hseqs : u.gate.seqs = s.gate.seqs := congrArg GateSt.seqs hgates
  have hparam (b line : Nat) : u.param b line = s.param b line := by rw [State.param, hgates]; rfl
  rw [← State.bufAt_congr hgates]
  cases hbuf : u.bufAt ld dpa with
  | none =>
    rw [exec_gateParamWrite_of_unarmed hseen hup hserved hgate data enables hbuf] at hexec
    obtain rfl := Host.Outcome.next.inj hexec
    exact ⟨hstore, hsweep, rfl, hslots, hseqs, fun b line _ _ => hparam b line⟩
  | some b =>
    rw [exec_gateParamWrite_of_armed hseen hup hserved hgate data enables hbuf hline] at hexec
    obtain rfl := Host.Outcome.next.inj hexec
    have hwritten := u.slotWrite_lineWritten (b := b) (Nat.mod_lt (dpa / 64) (by decide)) ld data enables poison
    refine ⟨hwritten.store.trans hstore, hwritten.sweep.trans hsweep, hwritten.ext, hwritten.slots.trans hslots,
      hwritten.seqs.trans hseqs, fun c line hlt hne => ?_⟩
    have hother : ¬ (c = b ∧ line = dpa / 64 % 1024) := fun h => hne ⟨congrArg some h.1.symm, h.2⟩
    exact (hwritten.others c line hlt hother).trans (hparam c line)

end

section
/-! PROOFS. The operations of the gates (O11): what a go line that passes its checks does, and the turn of an operation on a sequence. -/
namespace Sys2Proof.Machine

theorem GoPasses.opcode_eq {s u : State} {g : GoWrite} {opcode cls handle b : Nat} {hasObj : Bool} {check : GoCheck} {o : GateOp}
    (h : GoPasses s g opcode cls handle hasObj check b u o) : o.opcode = opcode := by
  obtain ⟨_, _, _, -, -, -, -, -, -, rfl, -⟩ := h
  rfl

/-! ### The turn of an operation on a sequence (R173): `w` is the state with the operation begun. -/

section
variable {u w : State} {b : Nat} {o : GateOp} {q : KvSeq} (h : u.turnCome b o q w)
include h

theorem State.queueSeq_append (hop : o.opcode = 0x0100) :
    u.queueSeq b o = ((if apNoAppend o.params = true then w else w.cutPrefix (bufLd b) o.obj (apPos o.params)).startPieces b
      { o with begun := true }).startSeqOps (bufLd b) o.obj 128 := by
  rw [State.queueSeq_turn h]
  obtain ⟨-, hslot, -, rfl, hseq⟩ := h
  simp only [State.startOp, hslot, hseq, hop]

theorem State.queueSeq_attach (hop : o.opcode = 0x0101) :
    u.queueSeq b o = (w.attachTurn b { o with begun := true } q).startSeqOps (bufLd b) o.obj 128 := by
  rw [State.queueSeq_turn h]
  obtain ⟨-, hslot, -, rfl, hseq⟩ := h
  simp only [State.startOp, hslot, hseq, hop]

theorem State.queueSeq_prefill (hop : o.opcode = 0x0102) {v : State}
    (hv : ((w.cutPrefix (bufLd b) o.obj (apPos o.params)).modSeq (bufLd b) o.obj fun q =>
      { q with len := min q.len (apPos o.params) }).holdOp b { o with begun := true } = v) :
    u.queueSeq b o = (hubWork b (v.copyAll o.wclass (v.prefillCopies q o.params))).startSeqOps (bufLd b) o.obj 128 := by
  rw [State.queueSeq_turn h]
  obtain ⟨-, hslot, -, rfl, hseq⟩ := h
  subst hv
  simp only [State.startOp, hslot, hseq, hop]

theorem State.queueSeq_publish (hop : o.opcode = 0x0103) :
    u.queueSeq b o = (w.publishTurn b { o with begun := true } q).startSeqOps (bufLd b) o.obj 128 := by
  rw [State.queueSeq_turn h]
  obtain ⟨-, hslot, -, rfl, hseq⟩ := h
  simp only [State.startOp, hslot, hseq, hop]

theorem State.queueSeq_truncate (hop : o.opcode = 0x0104) :
    u.queueSeq b o = (((w.cutPrefix (bufLd b) o.obj (min q.len (leAt o.params 0 4))).modSeq (bufLd b) o.obj fun x =>
      { x with len := min q.len (leAt o.params 0 4) }).finish0 b .ready 0 o.aux [] false).startSeqOps (bufLd b) o.obj 128 := by
  rw [State.queueSeq_turn h]
  obtain ⟨-, hslot, -, rfl, hseq⟩ := h
  simp only [State.startOp, hslot, hseq, hop]

end

/-! ### PREFIX_ATTACH at its turn (R189) -/

section
variable {s : State} (b : Nat) (o : GateOp) {q : KvSeq} (hlen : q.len = 0)
include hlen

theorem State.attachTurn_of_miss (hnone : s.lookup q.ld (o.params.take 32) (leAt o.params 32 8) = none) :
    s.attachTurn b o q = ((s.modGateLd q.ld fun l => { l with misses := bump 32 l.misses 1 }).modSlot b
      fun x => { x with miss := true }).finish0 b .ready 0 0 [] false := by
  simp only [State.attachTurn, hlen, hnone, ne_eq, not_true_eq_false, if_false]

theorem State.attachTurn_of_hit {n : Bin} {v : State} (hsome : s.lookup q.ld (o.params.take 32) (leAt o.params 32 8) = some n)
    (hv : s.modGateLd q.ld (fun l => { l with hits := bump 32 l.hits 1 }) = v) (hgeom : n.geom = v.geomOf q) (hfits : n.plen ≤ q.maxpos)
    (hactive : ((v.binView q.ld n).any fun e => e.state == .active) = true) :
    s.attachTurn b o q = ((v.attachBin q.ld n.id).modSeq q.ld q.id fun q =>
      { q with len := n.plen, plen := n.plen, bin := if n.plen = 0 then none else some n.id, binGone := false }).finish0 b
        .ready 0 n.plen [] false := by
  subst hv
  simp only [State.attachTurn, hlen, hsome, ne_eq, not_true_eq_false, if_false, State.attachOp, hgeom, if_neg (Nat.not_lt.mpr hfits), hactive,
    if_true]

end

/-! ### PREFIX_PUBLISH at its turn (R201, R203) -/

section
variable {s : State} (b : Nat) (o : GateOp) {q : KvSeq} (hlen : leAt o.params 40 4 ≤ q.len)
include hlen

theorem State.publishTurn_of_present {x : Bin} (hsome : s.lookup q.ld (o.params.take 32) (leAt o.params 32 8) = some x) :
    s.publishTurn b o q = (s.modSlot b fun x => { x with exists_ := true }).finish0 b .ready 0 x.id [] false := by
  simp only [State.publishTurn, if_neg (Nat.not_lt.mpr hlen), hsome]

theorem State.publishTurn_of_room {e : Extent} {base : Nat} {n : Bin} {v y : State}
    (hnone : s.lookup q.ld (o.params.take 32) (leAt o.params 32 8) = none) (hexts : (s.publishExts q).isEmpty = false)
    (hroom : s.makeRoom (s.party q.ld) (s.publishExts q) (binBytes q.layers (leAt o.params 40 4) (s.psz q)) (s.evictable (s.party q.ld)) =
      some (e, base, v))
    (hn : n = {
      id := v.freshBin
      key := o.params.take 32
      sig := leAt o.params 32 8
      plen := leAt o.params 40 4
      geom := v.geomOf q
      base := base
      eid := e.eid
      owner := e.ld
      pub := q.ld
      bytes := binBytes q.layers (leAt o.params 40 4) (s.psz q)
      last := v.timeOf q.ld })
    (hy : (((v.modGate fun gt => { gt with bins := gt.bins ++ [n] }).modOp b fun o => { o with bin := some n.id }).holdOp b
      { o with bin := some n.id }) = y) :
    s.publishTurn b o q = hubWork b (y.copyAll o.wclass (y.publishCopies q n)) := by
  subst hy hn
  simp only [State.publishTurn, if_neg (Nat.not_lt.mpr hlen), hnone, hexts, Bool.false_eq_true, if_false, hroom]

end

/-! ### The writes of a prefill and of a publish have landed (R190, R201) -/

section
variable {t ld buf : Nat} {o : GateOp} {s : State} (hup : s.up = true) (hbuf : buf < 128) (hslot : (s.slot (128 * ld + buf)).op = some o)
  (hbegun : o.begun = true) (hrunning : (s.slot (128 * ld + buf)).state = .running) (hlanded : (s.at_ t).landed o.hub = true)
  (hinputs : (s.at_ t).inputsOk o = true)
include hup hbuf hslot hbegun hrunning hlanded hinputs

theorem exec_prefillWritesDone_of_landed {q : KvSeq} {u : State} (hop : o.opcode = 0x0102) (hpieces : o.pieces = [])
    (hseq : s.seqOf ld o.obj = some q)
    (hu : (((s.at_ t).modSeq ld o.obj fun x => { x with len := prefillLen x o.params }).modOp (128 * ld + buf) fun x =>
      { x with aux := prefillLen q o.params }) = u) :
    exec (.prefillWritesDone t ld buf) s = .next (if u.pieceCount ld o = 0
      then u.finish (128 * ld + buf) .ready 0 (prefillLen q o.params) [] false
      else u.dispatchAll (128 * ld + buf) { o with aux := prefillLen q o.params }) := by
  have hseq' : (s.at_ t).seqOf ld o.obj = some q := hseq
  have hdone : (s.at_ t).prefillDone (128 * ld + buf) ld o.obj o.params = u := by rw [State.prefillDone, hseq']; exact hu
  show execPrefillWritesDone t ld buf s = _
  simp only [execPrefillWritesDone, State.at__slot, hslot, hseq', hdone]
  rw [if_pos ⟨hup, hbuf, hop, hbegun, hrunning, hpieces, hlanded, hinputs⟩]
  exact (apply_ite Host.Outcome.next ..).symm

theorem exec_publishCommit_of_landed {id : Nat} (hop : o.opcode = 0x0103) (hbin : o.bin = some id) :
    exec (.publishCommit t ld buf) s = .next ((((s.at_ t).modBin id fun n =>
      { n with committed := true, last := (s.at_ t).timeOf ld }).journal 1).finish (128 * ld + buf) .ready 0 id [] false) := by
  show execPublishCommit t ld buf s = _
  simp only [execPublishCommit, State.at__slot, hslot, hbin]
  exact if_pos ⟨hup, hbuf, hop, hbegun, hrunning, hlanded, hinputs⟩

end

end Sys2Proof.Machine

open Sys2Proof.Machine

/-- Settles O11: a go line that passes its checks begins its operation (`runGo_passes`), and one whose turn has come takes effect as the
lemma of its opcode says. -/
theorem gateOpsComplete : Obligations.GateOpsComplete := by
  unfold Obligations.GateOpsComplete
  refine ⟨?append, ?prefill, ?attach, ?publish, ?truncate, ?search, ?distance, ?intersect, ?union, ?difference, ?tenant, ?prefillDone,
    ?commit⟩
  case append =>
    intro g b o s u hpasses
    have hgo : exec (.appendAttend g) s = .next ((u.appendRecord g.ld o).queueSeq b o) := congrArg _ (State.runGo_passes hpasses)
    refine ⟨hgo, fun q w hturn => ?_⟩
    rw [hgo, State.queueSeq_append hturn hpasses.opcode_eq]
  case prefill =>
    intro g b o s u hpasses
    have hgo : exec (.chunkPrefill g) s = .next (u.queueSeq b o) := congrArg _ (State.runGo_passes hpasses)
    refine ⟨hgo, fun q v w hturn hv => ?_⟩
    rw [hgo, State.queueSeq_prefill hturn hpasses.opcode_eq hv]
  case attach =>
    intro g b o s u hpasses
    have hgo : exec (.prefixAttach g) s = .next (u.queueSeq b o) := congrArg _ (State.runGo_passes hpasses)
    refine ⟨hgo, fun q w hturn hlen hnone => ?_, fun q n v w hturn hlen hsome hv hgeom hfits hactive => ?_⟩ <;>
      rw [hgo, State.queueSeq_attach hturn hpasses.opcode_eq]
    · rw [State.attachTurn_of_miss b { o with begun := true } hlen hnone]
    · rw [State.attachTurn_of_hit b { o with begun := true } hlen hsome hv hgeom hfits hactive]
  case publish =>
    intro g b o s u hpasses
    have hgo : exec (.prefixPublish g) s = .next (u.queueSeq b o) := congrArg _ (State.runGo_passes hpasses)
    refine ⟨hgo, fun q x w hturn hlen hsome => ?_, fun q e base n v w y hturn hlen hnone hexts hroom hn hy => ?_⟩ <;>
      rw [hgo, State.queueSeq_publish hturn hpasses.opcode_eq]
    · rw [State.publishTurn_of_present b { o with begun := true } hlen hsome]
    · rw [State.publishTurn_of_room b { o with begun := true } hlen hnone hexts hroom hn hy]
  case truncate =>
    intro g b o s u hpasses
    have hgo : exec (.seqTruncate g) s = .next (u.queueSeq b o) := congrArg _ (State.runGo_passes hpasses)
    refine ⟨hgo, fun q w hturn => ?_⟩
    rw [hgo, State.queueSeq_truncate hturn hpasses.opcode_eq]
  case search | distance | intersect | union | difference | tenant =>
    intro g b o s u hpasses
    exact congrArg _ (State.runGo_passes hpasses)
  case prefillDone =>
    intro t ld buf o q s u hup hbuf hslot hop hbegun hrunning hpieces hlanded hinputs hseq hu
    exact exec_prefillWritesDone_of_landed hup hbuf hslot hbegun hrunning hlanded hinputs hop hpieces hseq hu
  case commit =>
    intro t ld buf id o s hup hbuf hslot hop hbin hbegun hrunning hlanded hinputs
    exact exec_publishCommit_of_landed hup hbuf hslot hbegun hrunning hlanded hinputs hop hbin

end

section
/-! PROOFS. The commands of gates, sequences and indexes (O12), those of the granary (O13), and the checks of results (O16). -/
namespace Sys2Proof.Machine

/-! ### Slots (R166, R206, C060h to C062h) -/

section
variable {h : MbHdr} {s : State}

theorem exec_armGateSlots_of_free {dpa count hold : Nat} {e : Extent}
    (ht : s.takes h { opcode := 0xC060, ld := true, fm := .no, len := [24] }) (he : s.extAt h.src dpa = some e) (hactive : e.state = .active)
    (hgate : Prof.gate e.profile = true) (halign : dpa % 65536 = 0) (hpos : 0 < count) (hcount : count ≤ 128)
    (hinside : dpa + 65536 * count ≤ e.base + e.len) (hmin : 10 ≤ hold) (hmax : hold ≤ 16000)
    (hfree : ∀ p ∈ slotPositions dpa count, s.bufAt h.src p = none)
    (hroom : ((ldBufs h.src).filter fun b => (s.slot b).state != .unarmed).length + (slotPositions dpa count).length ≤ 128) :
    exec (.armGateSlots h dpa count hold) s =
      .next (((slotPositions dpa count).foldl (fun s p => s.armOne h.src p e.eid hold) s).replied h 0xC060 [] []) := by
  have hhold : (if hold = 0 then 4000 else hold) = hold := if_neg (by omega)
  have hfresh : (slotPositions dpa count).filter (fun p => (s.bufAt h.src p).isNone) = slotPositions dpa count :=
    List.filter_eq_self.mpr fun p hp => by rw [hfree p hp]; rfl
  refine congrArg _ (State.mbRun_takes ht (r := { s := (slotPositions dpa count).foldl (fun s p => s.armOne h.src p e.eid hold) s }) ?_)
  simp only [he, hhold, hfresh]
  rw [if_neg, if_neg (Nat.not_lt.mpr hroom)]
  rintro (hstate | hprofile | hbad | hbad | hbad | hbad | hbad | hbad | htaken)
  · exact hstate hactive
  · exact hprofile hgate
  any_goals omega
  obtain ⟨p, hp, hcancelled⟩ := List.any_eq_true.mp htaken
  simp [hfree p hp] at hcancelled

theorem exec_disarmGateSlots_of_armed {dpa count : Nat} {force : Bool} {bs : List Nat}
    (ht : s.takes h { opcode := 0xC061, ld := true, fm := .no, len := [25] }) (halign : dpa % 65536 = 0) (hpos : 0 < count)
    (hcount : count ≤ 128) (hbufs : (slotPositions dpa count).map (s.bufAt h.src) = bs.map some)
    (hidle : force = true ∨ ∀ b ∈ bs, (s.slot b).state.busy = false) :
    exec (.disarmGateSlots h dpa count force) s =
      .next ((bs.foldl (fun s b => (if (s.slot b).state.busy then s.cancelGate b else s).unarm b) s).replied h 0xC061 [] []) := by
  have hall : (bs.map some).filterMap id = bs := by rw [List.filterMap_map]; exact List.filterMap_some
  have hok : ¬ (dpa % 65536 ≠ 0 ∨ count = 0 ∨ 128 < count ∨ (bs.map some).any Option.isNone = true) := by
    have hnone : (bs.map some).any Option.isNone = false := by simp
    simp only [hnone, Bool.false_eq_true, or_false]
    omega
  have hgo : ¬ (¬ force = true ∧ bs.any (fun b => (s.slot b).state.busy) = true) := by
    rintro ⟨hkept, hbusy⟩
    obtain ⟨b, hb, hrun⟩ := List.any_eq_true.mp hbusy
    exact Bool.false_ne_true ((hidle.resolve_left hkept b hb).symm.trans hrun)
  refine congrArg _ (State.mbRun_takes ht (r := { s := bs.foldl (fun s b =>
    (if (s.slot b).state.busy then s.cancelGate b else s).unarm b) s }) ?_)
  simp only [hbufs, hall, if_neg hok, if_neg hgo]

theorem exec_getSlotStatus_of_armed {dpa b : Nat} (ht : s.takes h { opcode := 0xC062, ld := true, fm := .ld, len := [16] })
    (hbuf : s.bufAt (whoOf h) dpa = some b) (halign : dpa % 65536 = 0) :
    exec (.getSlotStatus h dpa) s = .next (s.replied h 0xC062 [] ((s.slot b).status ++ leBytes 4 (s.slot b).hold)) := by
  show execGetSlotStatus h dpa s = _
  rw [execGetSlotStatus, State.mbRun_takes ht (by simp only [hbuf, if_pos halign]; rfl)]

/-! ### Sequences (R183, R191, C063h to C065h) -/

theorem exec_openSequence_of_fits {sbase layers hkv g d maxpos id psz : Nat} {e : Extent}
    (ht : s.takes h { opcode := 0xC063, ld := true, fm := .no, len := [28], store := true }) (he : s.extAt h.src sbase = some e)
    (hactive : e.state = .active) (hlossy : Prof.lossy e.profile = true)
    (hsrc : Prof.src e.profile = 0 ∨ Prof.src e.profile = 1 ∨ Prof.src e.profile = 3 ∨ Prof.src e.profile = 4) (halign : sbase % 65536 = 0)
    (hlayers : 1 ≤ layers ∧ layers ≤ 1024) (hhkv : 1 ≤ hkv ∧ hkv ≤ 64) (hg : 1 ≤ g ∧ g ≤ 16) (hd : d = 64 ∨ d = 128 ∨ d = 256)
    (hmaxpos : maxpos % 2048 = 0 ∧ 2048 ≤ maxpos ∧ maxpos ≤ 1048576) (hpsz : 2 * hkv * d * (srcBits (Prof.src e.profile) / 8) = psz)
    (hwhole : psz % 512 = 0) (hinside : sbase + layers * maxpos * psz ≤ e.base + e.len)
    (hid : lowestFree ((s.gate.seqs.filter fun q => q.ld = h.src).map KvSeq.id) 16384 = some id) :
    exec (.openSequence h sbase layers hkv g d maxpos) s =
      .next (((s.modGate fun x => { x with seqs := x.seqs ++ [{
        ld := h.src, id := id, eid := e.eid, sbase := sbase, layers := layers, hkv := hkv, g := g, d := d, maxpos := maxpos }] }).openStream
          h.src (kvStream h.src id) (Prof.wclass e.profile)).replied h 0xC063 [⟨0, 2, id⟩] []) := by
  have hok : ¬ (e.state ≠ .active ∨ ¬ Prof.lossy e.profile = true ∨
      ¬ (Prof.src e.profile = 0 ∨ Prof.src e.profile = 1 ∨ Prof.src e.profile = 3 ∨ Prof.src e.profile = 4) ∨ sbase % 65536 ≠ 0 ∨
      layers = 0 ∨ 1024 < layers ∨ hkv = 0 ∨ 64 < hkv ∨ g = 0 ∨ 16 < g ∨ ¬ (d = 64 ∨ d = 128 ∨ d = 256) ∨
      maxpos % 2048 ≠ 0 ∨ maxpos < 2048 ∨ 1048576 < maxpos ∨ psz % 512 ≠ 0 ∨ e.base + e.len < sbase + layers * maxpos * psz) := by
    simp only [hactive, hlossy, ne_eq, not_true_eq_false, false_or]
    omega
  show execOpenSequence h sbase layers hkv g d maxpos s = _
  rw [execOpenSequence, State.mbRun_takes ht (by simp only [he, hpsz, if_neg hok, hid]; rfl)]

theorem exec_closeSequence_of_idle {seq : Nat} {q : KvSeq}
    (ht : s.takes h { opcode := 0xC064, ld := true, fm := .no, len := [10], store := true }) (hq : s.seqOf h.src seq = some q)
    (hidle : s.seqOps h.src seq = []) (hbin : q.bin = none) :
    exec (.closeSequence h seq) s =
      .next (((s.modGate fun x => { x with seqs := x.seqs.filter fun y => ¬ (y.ld = h.src ∧ y.id = seq) }).freeStream
        (kvStream h.src seq)).replied h 0xC064 [] []) := by
  show execCloseSequence h seq s = _
  rw [execCloseSequence, State.mbRun_takes ht (by simp only [hq, hidle, hbin, ne_eq, not_true_eq_false, if_false]; rfl)]

theorem exec_getSequenceStatus_of_open {seq : Nat} {q : KvSeq}
    (ht : s.takes h { opcode := 0xC065, ld := true, fm := .no, len := [10], store := true }) (hq : s.seqOf h.src seq = some q) :
    exec (.getSequenceStatus h seq) s = .next (s.replied h 0xC065 [⟨0, 8, q.sbase⟩, ⟨8, 2, q.layers⟩, ⟨10, 1, q.hkv⟩, ⟨11, 1, q.g⟩,
      ⟨12, 2, q.d⟩, ⟨16, 4, q.maxpos⟩, ⟨20, 4, q.len⟩, ⟨24, 4, q.plen⟩, ⟨28, 4, q.bin.getD 0xFFFFFFFF⟩] []) := by
  show execGetSequenceStatus h seq s = _
  rw [execGetSequenceStatus, State.mbRun_takes ht (by simp only [hq]; rfl)]

/-! ### Indexes (R192, C066h and C067h) -/

theorem exec_defineIndex_of_legal {x : VecIndex} (ht : s.takes h { opcode := 0xC066, ld := true, fm := .no, len := [37] })
    (hld : x.ld = h.src) (hfmt : 1 ≤ x.vfmt ∧ x.vfmt ≤ 5) (hdim : 32 ≤ x.dim ∧ x.dim ≤ 4096) (hlines : x.vecBytes % 64 = 0)
    (hnv : 1 ≤ x.nv ∧ x.nv ≤ 2 ^ 32 - 2) (hdeg : x.deg = 16 ∨ x.deg = 32 ∨ x.deg = 48 ∨ x.deg = 64) (hentry : x.entry < x.nv)
    (hmetric : x.metric ≤ 1) (hvectors : s.rangesCode h.src x.vbase (x.nv * x.vecBytes) s.ext.exts.length = 0)
    (hedges : s.rangesCode h.src x.abase (x.nv * x.deg * 4) s.ext.exts.length = 0)
    (hfree : lowestFree ((s.gate.indexes.filter fun x => x.ld = h.src).map VecIndex.id) 64 = some x.id) (hid : x.id < 64) :
    exec (.defineIndex h x.vbase x.abase x.nv x.entry x.dim x.vfmt x.deg x.metric) s =
      .next ((s.modGate fun g => { g with indexes := g.indexes ++ [x] }).replied h 0xC066 [⟨0, 1, x.id⟩] []) := by
  have hok : ¬ (x.vfmt = 0 ∨ 5 < x.vfmt ∨ x.dim < 32 ∨ 4096 < x.dim ∨ x.vecBytes % 64 ≠ 0 ∨ x.nv = 0 ∨ 2 ^ 32 - 2 < x.nv ∨
      ¬ (x.deg = 16 ∨ x.deg = 32 ∨ x.deg = 48 ∨ x.deg = 64) ∨ x.nv ≤ x.entry ∨ 1 < x.metric ∨
      s.rangesCode h.src x.vbase (x.nv * x.vecBytes) s.ext.exts.length ≠ 0 ∨
      s.rangesCode h.src x.abase (x.nv * x.deg * 4) s.ext.exts.length ≠ 0) := by omega
  obtain ⟨ld, id, vbase, abase, nv, entry, dim, vfmt, deg, metric⟩ := x
  obtain rfl : ld = h.src := hld
  show execDefineIndex h vbase abase nv entry dim vfmt deg metric s = _
  rw [execDefineIndex, State.mbRun_takes ht (by simp only [hfree, Option.getD_some, if_neg hok, if_neg hid.ne]; rfl)]

theorem exec_deleteIndex_of_idle {index : Nat} {x : VecIndex} (ht : s.takes h { opcode := 0xC067, ld := true, fm := .no, len := [9] })
    (hx : s.indexOf h.src index = some x) (hidle : ∀ b ∈ ldBufs h.src, (s.slot b).state.busy = false) :
    exec (.deleteIndex h index) s =
      .next ((s.modGate fun g => { g with indexes := g.indexes.filter fun x => ¬ (x.ld = h.src ∧ x.id = index) }).replied
        h 0xC067 [] []) := by
  refine congrArg _ (State.mbRun_takes ht (r := { s := s.modGate fun g =>
    { g with indexes := g.indexes.filter fun x => ¬ (x.ld = h.src ∧ x.id = index) } }) ?_)
  simp only [hx]
  rw [if_neg]
  intro hnamed
  obtain ⟨b, hb, hbusy⟩ := List.any_eq_true.mp hnamed
  rw [hidle b hb] at hbusy
  exact Bool.false_ne_true hbusy

/-! ### The granary (R199 to R206, C070h to C075h) -/

theorem exec_addGranaryExtent_of_new {base : Nat} {e : Extent} (ht : s.takes h { opcode := 0xC070, ld := true, fm := .no, len := [16] })
    (he : s.extAt h.src base = some e) (hbase : e.base = base) (howned : e.isAlias = false) (hactive : e.state = .active)
    (hlossy : Prof.lossy e.profile = true) (hnew : s.gate.granary.contains e.eid = false) (hroom : s.gate.granary.length < 8) :
    exec (.addGranaryExtent h base) s =
      .next (((s.modGate fun g => { g with granary := g.granary ++ [e.eid] }).journal 1).replied h 0xC070 [] []) := by
  have hok : ¬ (e.base ≠ base ∨ e.isAlias = true ∨ e.state ≠ .active ∨ ¬ Prof.lossy e.profile = true ∨
      s.gate.granary.contains e.eid = true) := by
    rw [howned, hnew]
    simp [hbase, hactive, hlossy]
  refine congrArg _ (State.mbRun_takes ht (r := { s := (s.modGate fun g => { g with granary := g.granary ++ [e.eid] }).journal 1 }) ?_)
  simp only [he, if_neg hok]
  exact if_neg (Nat.not_le.mpr ((List.length_filter_le ..).trans_lt hroom))

theorem exec_removeGranaryExtent_of_detached {base : Nat} {e : Extent}
    (ht : s.takes h { opcode := 0xC071, ld := true, fm := .no, bg := true, len := [16] }) (he : s.granaryAt h.src base = some e)
    (hdetached : ∀ b ∈ s.gate.bins, b.eid = e.eid → b.attach = 0) :
    exec (.removeGranaryExtent h base) s = .next (s.begun h 0xC071 (.removeGranaryExtent h base)) := by
  have hnone : ¬ (s.gate.bins.any fun b => b.eid == e.eid && decide (0 < b.attach)) = true := by
    simpa [Nat.pos_iff_ne_zero] using hdetached
  show execRemoveGranaryExtent h base s = _
  rw [execRemoveGranaryExtent, State.mbBg_takes ht (by simp only [he, if_neg hnone]) rfl]

theorem exec_deleteBin_of_found {key : Bytes} {sig : Nat} {b : Bin} (ht : s.takes h { opcode := 0xC072, ld := true, fm := .no, len := [48] })
    (hb : s.lookup h.src (fit 32 key) sig = some b) :
    exec (.deleteBin h key sig) s = .next ((if b.attach = 0 then s.freeBin b.id
      else (s.modBin b.id fun x => { x with hidden := true }).journal 1).replied h 0xC072 [] []) := by
  refine congrArg _ (State.mbRun_takes ht (r := { s := if b.attach = 0 then s.freeBin b.id
    else (s.modBin b.id fun x => { x with hidden := true }).journal 1 }) ?_)
  simp only [hb]
  split <;> rfl

theorem exec_setBinAttributes_of_legal {key : Bytes} {sig attr : Nat} {b : Bin}
    (ht : s.takes h { opcode := 0xC073, ld := true, fm := .no, len := [49] }) (hb : s.lookup h.src (fit 32 key) sig = some b)
    (hattr : attr < 8) (hnear : attr / 2 ≠ 3) :
    exec (.setBinAttributes h key sig attr) s =
      .next ((((s.modBin b.id fun x => { x with pin := bitOf attr 0, near := attr / 2 }).fixNear b.id).journal 1).replied
        h 0xC073 [] []) := by
  have hmod : attr / 2 % 4 = attr / 2 := by omega
  have hok : ¬ (8 ≤ attr ∨ attr / 2 = 3) := by omega
  show execSetBinAttributes h key sig attr s = _
  rw [execSetBinAttributes, State.mbRun_takes ht (by simp only [hb, hmod, if_neg hok]; rfl)]

theorem exec_listBins_of_first {o : OutReq} (ht : s.takes h { opcode := 0xC074, ld := true, fm := .no, len := [16] }) (ho : o.first = 0) :
    exec (.listBins h o) s = .next (s.repliedRecs h 0xC074 80 o ((s.visibleBins h.src).map Bin.fields)) :=
  congrArg _ (State.mbSnap_recs ht ho (by decide) rfl)

/-- Bytes that bins use in all granary extents. -/
def State.granaryUsedAll (s : State) : Nat := ((s.gate.granary.filterMap s.extById).map s.granaryUsed).foldl (· + ·) 0

theorem exec_getGranaryStatus_of_fm (ht : s.takes h { opcode := 0xC075, ld := true, fm := .module }) (hfm : 16 ≤ h.src) :
    exec (.getGranaryStatus h) s = .next (s.replied h 0xC075
      [⟨0, 4, (s.gate.bins.filter fun b => b.committed && !b.hidden).length⟩, ⟨12, 8, s.granaryUsedAll⟩,
       ⟨20, 8, ((s.gate.granary.filterMap s.extById).map Extent.len).foldl (· + ·) 0 - s.granaryUsedAll⟩] []) := by
  show execGetGranaryStatus h s = _
  rw [execGetGranaryStatus, State.mbRun_takes ht (if_neg (Nat.not_lt.mpr hfm))]
  rfl

end

/-! ### Observed units and the checks of results (R175, R289, R299) -/

section
variable {t : Nat} {s : State} (hup : s.up = true)
include hup

theorem exec_suspectTimeout_of_due {utype unit : Nat} (hsuspect : ((s.at_ t).unitRec utype unit).state = .suspect)
    (hdue : max ((s.at_ t).unitRec utype unit).since (((s.at_ t).unitRec utype unit).obs.headD 0) + day ≤ (s.at_ t).now) :
    exec (.suspectTimeout t utype unit) s = .next ((s.at_ t).unitTo utype unit .clear) :=
  if_pos ⟨hup, hsuspect, hdue⟩

variable {ld buf : Nat} {o : GateOp} (hbuf : buf < 128) (hslot : (s.slot (128 * ld + buf)).op = some o)
include hbuf hslot

section
variable (failed : List Nat) (hchecking : (s.slot (128 * ld + buf)).state = .checking) (hended : ∀ p ∈ o.pieces, p.stage = .ended)
include hchecking hended

theorem exec_resultCheckComplete_of_error (herror : o.errorOf.1 ≠ 0) :
    exec (.resultCheckComplete t ld buf failed) s =
      .next ((s.at_ t).finish (128 * ld + buf) .failed o.errorOf.1 o.errorOf.2 [] false) := by
  have hall : (o.pieces.all fun p => p.stage == .ended) = true := by simpa using hended
  show execResultCheckComplete t ld buf failed s = _
  simp only [execResultCheckComplete, State.at__slot, hslot]
  rw [if_pos ⟨hup, hbuf, hchecking, hall⟩, if_pos herror]

theorem exec_resultCheckComplete_of_no_error (herror : o.errorOf.1 = 0) {bad : PieceRec → Bool} {u v : State}
    (hbad : bad = fun p => (s.at_ t).checked o && (failed.contains p.idx || !(s.at_ t).figuresOk ld o p))
    (hu : u = (o.pieces.filter bad).foldl (fun s p => s.checkFail (128 * ld + buf) o p) (s.at_ t))
    (hv : v = { u with freeCtr := u.freeCtr + o.pieces.length }) :
    exec (.resultCheckComplete t ld buf failed) s = .next ((o.pieces.foldl (fun w p =>
      if bad p || (s.at_ t).replayed o || p.sampled || (s.at_ t).suspectDraw p
      then w.runAgain (128 * ld + buf) o p 1
      else w.modPiece (128 * ld + buf) p.idx fun x => { x with stage := .resolved }) v).tryRelease (128 * ld + buf)) := by
  have hall : (o.pieces.all fun p => p.stage == .ended) = true := by simpa using hended
  subst hbad hu hv
  show execResultCheckComplete t ld buf failed s = _
  simp only [execResultCheckComplete, State.at__slot, hslot]
  rw [if_pos ⟨hup, hbuf, hchecking, hall⟩, if_neg (not_not_intro herror)]

end

section
variable {piece : Nat} {p : PieceRec} (r : ReplayRes) (hpiece : (o.pieces.find? fun p => p.idx = piece) = some p)
include hpiece

theorem exec_replayComplete_of_second (hstage : p.stage = .replaying) (hstones : p.stones.length = 2) :
    exec (.replayComplete t ld buf piece r) s = .next ((s.at_ t).replayOutcome (128 * ld + buf) o p r) := by
  have hok : ¬ (¬ (s.at_ t).up = true ∨ 128 ≤ buf) := not_or.mpr ⟨not_not_intro hup, Nat.not_le.mpr hbuf⟩
  show execReplayComplete t ld buf piece r s = _
  simp only [execReplayComplete, State.at__slot, hslot, hpiece, if_neg hok]
  exact if_pos ⟨hstage, hstones⟩

theorem exec_replayComplete_of_third (hstage : p.stage = .third) (hstones : p.stones.length = 3) :
    exec (.replayComplete t ld buf piece r) s = .next ((s.at_ t).thirdOutcome (128 * ld + buf) p r) := by
  have hok : ¬ (¬ (s.at_ t).up = true ∨ 128 ≤ buf) := not_or.mpr ⟨not_not_intro hup, Nat.not_le.mpr hbuf⟩
  have hsecond : ¬ (p.stage = .replaying ∧ p.stones.length = 2) := by simp [hstage]
  show execReplayComplete t ld buf piece r s = _
  simp only [execReplayComplete, State.at__slot, hslot, hpiece, if_neg hok, if_neg hsecond]
  exact if_pos ⟨hstage, hstones⟩

end

end

end Sys2Proof.Machine

open Sys2Proof.Machine

/-- Settles O12: each clause is the lemma of its command. -/
theorem gateCommandsComplete : Obligations.GateCommandsComplete := by
  unfold Obligations.GateCommandsComplete
  refine ⟨?arm, ?disarm, ?slotStatus, ?openSeq, ?closeSeq, ?seqStatus, ?define, ?delete⟩
  case arm =>
    intro h dpa count hold e s ht he hactive hgate halign hpos hcount hinside hmin hmax hfree hroom
    exact exec_armGateSlots_of_free ht he hactive hgate halign hpos hcount hinside hmin hmax hfree hroom
  case disarm =>
    intro h dpa count force bs s ht halign hpos hcount hbufs hidle
    exact exec_disarmGateSlots_of_armed ht halign hpos hcount hbufs hidle
  case slotStatus =>
    intro h dpa b s ht hbuf halign
    exact exec_getSlotStatus_of_armed ht hbuf halign
  case openSeq =>
    intro h sbase layers hkv g d maxpos id e s ht he hactive hlossy hsrc halign hlayers hlayers' hhkv hhkv' hg hg' hd hmaxpos hmaxpos'
      hmaxpos'' hwhole hinside hid
    exact exec_openSequence_of_fits ht he hactive hlossy hsrc halign ⟨hlayers, hlayers'⟩ ⟨hhkv, hhkv'⟩ ⟨hg, hg'⟩ hd
      ⟨hmaxpos, hmaxpos', hmaxpos''⟩ rfl hwhole hinside hid
  case closeSeq =>
    intro h seq q s ht hq hidle hbin
    exact exec_closeSequence_of_idle ht hq hidle hbin
  case seqStatus =>
    intro h seq q s ht hq
    exact exec_getSequenceStatus_of_open ht hq
  case define =>
    intro h vbase abase nv entry dim vfmt deg metric id x s hx ht hfmt hfmt' hdim hdim' hlines hnv hnv' hdeg hentry hmetric hvectors hedges
      hfree hid
    subst hx
    exact exec_defineIndex_of_legal ht rfl ⟨hfmt, hfmt'⟩ ⟨hdim, hdim'⟩ hlines ⟨hnv, hnv'⟩ hdeg hentry hmetric hvectors hedges hfree hid
  case delete =>
    intro h index x s ht hx hidle
    exact exec_deleteIndex_of_idle ht hx hidle

/-- Settles O13: each clause is the lemma of its command. -/
theorem granaryCommandsComplete : Obligations.GranaryCommandsComplete := by
  unfold Obligations.GranaryCommandsComplete
  refine ⟨?add, ?remove, ?deleteBin, ?setBin, ?list, ?status⟩
  case add =>
    intro h base e s ht he hbase howned hactive hlossy hnew hroom
    exact exec_addGranaryExtent_of_new ht he hbase howned hactive hlossy hnew hroom
  case remove =>
    intro h base e s ht he hdetached
    exact exec_removeGranaryExtent_of_detached ht he hdetached
  case deleteBin =>
    intro h key sig b s ht hb
    exact exec_deleteBin_of_found ht hb
  case setBin =>
    intro h key sig attr b s ht hb hattr hnear
    exact exec_setBinAttributes_of_legal ht hb hattr hnear
  case list =>
    intro h o s ht ho
    exact exec_listBins_of_first ht ho
  case status =>
    intro h s ht hfm
    exact exec_getGranaryStatus_of_fm ht hfm

/-- Settles O16: each clause is the lemma of its event. -/
theorem checksComplete : Obligations.ChecksComplete := by
  unfold Obligations.ChecksComplete
  refine ⟨?suspect, ?check, ?replay⟩
  case suspect =>
    intro t utype unit s hup hsuspect hdue
    exact exec_suspectTimeout_of_due hup hsuspect hdue
  case check =>
    intro t ld buf failed o s hup hbuf hslot hchecking hended
    exact ⟨exec_resultCheckComplete_of_error hup hbuf hslot failed hchecking hended, fun herror _ _ _ hbad hu hv =>
      exec_resultCheckComplete_of_no_error hup hbuf hslot failed hchecking hended herror hbad hu hv⟩
  case replay =>
    intro t ld buf piece r o p s hup hbuf hslot hpiece
    exact ⟨exec_replayComplete_of_second hup hbuf hslot r hpiece, exec_replayComplete_of_third hup hbuf hslot r hpiece⟩

end

section
/-! PROOFS. The 64 bytes of a go line (O54): runs of fields that lie one behind the other, and Table 7.3. -/
namespace Sys2Proof.Machine

/-! ### Bytes of fields that lie one behind the other -/

/-- Each field begins where the one before it ends, the first at byte `n`. -/
def Consecutive : Nat → List Fld → Prop
  | _, [] => True
  | n, f :: fs => f.off = n ∧ Consecutive (n + f.size) fs

/-- The bytes of fields, one behind the other. -/
def fieldBytes (fs : List Fld) : Bytes := fs.flatMap fun f => leBytes f.size f.val

@[simp] theorem fieldBytes_nil : fieldBytes [] = [] := rfl

@[simp] theorem fieldBytes_cons (f : Fld) (fs : List Fld) : fieldBytes (f :: fs) = leBytes f.size f.val ++ fieldBytes fs := rfl

theorem length_fieldBytes (fs : List Fld) : (fieldBytes fs).length = (fs.map Fld.size).sum := by
  simp [fieldBytes, List.length_flatMap]

/-- Overwriting the bytes behind a run that zeros follow. -/
theorem patch_append_zeros (xs new : Bytes) (m : Nat) :
    patch (xs ++ zeros m) xs.length new = xs ++ new ++ zeros (m - new.length) := by
  simp [patch, zeros, List.drop_append]

theorem foldl_patch_append_zeros {xs : Bytes} {fs : List Fld} (m : Nat) (h : Consecutive xs.length fs) :
    fs.foldl (fun bs f => patch bs f.off (leBytes f.size f.val)) (xs ++ zeros m) =
      xs ++ fieldBytes fs ++ zeros (m - (fieldBytes fs).length) := by
  induction fs generalizing xs m with
  | nil => simp
  | cons f fs ih =>
    obtain ⟨hoff, hrest⟩ := h
    have hnext : Consecutive (xs ++ leBytes f.size f.val).length fs := by rwa [List.length_append, length_leBytes]
    rw [List.foldl_cons, hoff, patch_append_zeros, ih _ hnext, fieldBytes_cons, List.length_append, Nat.sub_sub, List.append_assoc xs]

/-- Fields that lie one behind the other and fill a run of bytes are that run. -/
theorem layout_of_consecutive {n : Nat} {fs : List Fld} (h : Consecutive 0 fs) (hlen : (fieldBytes fs).length = n) :
    layout n fs = fieldBytes fs := by
  have hfold := foldl_patch_append_zeros (xs := []) n h
  rw [hlen, Nat.sub_self] at hfold
  exact hfold.trans (List.append_nil _)

theorem leAt_append (xs ys zs : Bytes) : leAt (xs ++ (ys ++ zs)) xs.length ys.length = leNat ys := by
  rw [leAt, List.drop_left, List.take_left]

/-- A field that fits its bytes is read back from its place. -/
theorem leAt_fieldBytes {xs : Bytes} {fs : List Fld} (h : Consecutive xs.length fs) {f : Fld} (hf : f ∈ fs) (hfits : f.val < 2 ^ (8 * f.size)) :
    leAt (xs ++ fieldBytes fs) f.off f.size = f.val := by
  induction fs generalizing xs with
  | nil => cases hf
  | cons g fs ih =>
    obtain ⟨hoff, hrest⟩ := h
    obtain rfl | hf := List.mem_cons.mp hf
    · have hread := leAt_append xs (leBytes f.size f.val) (fieldBytes fs)
      rwa [length_leBytes, leNat_leBytes hfits, ← hoff] at hread
    · have hnext : Consecutive (xs ++ leBytes g.size g.val).length fs := by rwa [List.length_append, length_leBytes]
      rw [fieldBytes_cons, ← List.append_assoc]
      exact ih hnext hf

/-- Fields that hold what is read at their places, up to the end of a run of bytes, are that run from the first of them on. -/
theorem fieldBytes_of_read {n : Nat} {fs : List Fld} {bs : Bytes} (h : Consecutive n fs) (hread : ∀ f ∈ fs, f.val = leAt bs f.off f.size)
    (hlen : n + (fieldBytes fs).length = bs.length) : fieldBytes fs = bs.drop n := by
  induction fs generalizing n with
  | nil => exact (List.drop_eq_nil_of_le hlen.ge).symm
  | cons f fs ih =>
    obtain ⟨hoff, hrest⟩ := h
    obtain ⟨hval, hvals⟩ := List.forall_mem_cons.mp hread
    rw [fieldBytes_cons, List.length_append, length_leBytes, ← Nat.add_assoc] at hlen
    have hsize : ((bs.drop n).take f.size).length = f.size := by rw [List.length_take, List.length_drop]; omega
    have hhead : leBytes f.size f.val = (bs.drop n).take f.size := by
      have hbytes := leBytes_leNat ((bs.drop n).take f.size)
      rw [hsize] at hbytes
      rw [hval, hoff]
      exact hbytes
    rw [fieldBytes_cons, hhead, ih hrest hvals hlen, ← List.drop_drop, List.take_append_drop]

theorem leAt_lt (bs : Bytes) (off size : Nat) : leAt bs off size < 2 ^ (8 * size) :=
  (leNat_lt _).trans_le (Nat.pow_le_pow_right (by decide) (Nat.mul_le_mul_left 8 (List.length_take_le ..)))

theorem b2n_bitOf (v i : Nat) : b2n (bitOf v i) = v / 2 ^ i % 2 := by
  rw [bitOf, Nat.testBit_eq_decide_div_mod_eq, b2n]
  split <;> simp_all

/-! ### Table 7.3 -/

/-- The fields of a go line, byte after byte. -/
def goFields (opcode : Nat) (g : GoLine) : List Fld :=
  [⟨0, 2, opcode⟩, ⟨2, 1, b2n g.nowheel + 2 * b2n g.early + 4 * (g.resv % 64)⟩, ⟨3, 1, g.turnlo⟩,
   ⟨4, 2, g.layer % 1024 + 1024 * (g.wheel % 16) + 16384 * (g.resv / 64 % 4)⟩, ⟨6, 2, g.seq⟩, ⟨8, 2, g.plines⟩,
   ⟨10, 2, g.handle⟩, ⟨12, 4, g.resv / 256 % 2 ^ 32⟩, ⟨16, 8, g.obj⟩, ⟨24, 40, g.resv / 2 ^ 40⟩]

theorem consecutive_goFields (opcode : Nat) (g : GoLine) : Consecutive 0 (goFields opcode g) := by
  simp [Consecutive, goFields]

theorem length_fieldBytes_goFields (opcode : Nat) (g : GoLine) : (fieldBytes (goFields opcode g)).length = 64 := length_fieldBytes _

theorem goBytes_eq (opcode : Nat) (g : GoLine) : goBytes opcode g = fieldBytes (goFields opcode g) :=
  layout_of_consecutive (consecutive_goFields opcode g) (length_fieldBytes_goFields opcode g)

/-- The fields read from 64 bytes hold those bytes. -/
theorem goBytes_goLineOf {bs : Bytes} (hlen : bs.length = 64) : goBytes (goLineOf bs).1 (goLineOf bs).2 = bs := by
  rw [goBytes_eq]
  refine fieldBytes_of_read (n := 0) (consecutive_goFields ..) ?_ (by rw [length_fieldBytes_goFields, hlen])
  have hflags := leAt_lt bs 2 1
  have hword := leAt_lt bs 4 2
  have hmid := leAt_lt bs 12 4
  simp only [goFields, goLineOf, List.forall_mem_cons, b2n_bitOf, List.not_mem_nil, false_implies, implies_true, true_and, and_true]
  refine ⟨?flags, ?word, ?mid, ?top⟩ <;> omega

/-- A go line whose fields fit is read back from its bytes. -/
theorem goLineOf_goBytes {opcode : Nat} {g : GoLine} (hopcode : opcode < 2 ^ 16) (hturnlo : g.turnlo < 2 ^ 8) (hlayer : g.layer < 1024)
    (hwheel : g.wheel < 16) (hseq : g.seq < 2 ^ 16) (hplines : g.plines < 2 ^ 16) (hhandle : g.handle < 2 ^ 16) (hobj : g.obj < 2 ^ 64)
    (hresv : g.resv < 2 ^ 360) : goLineOf (goBytes opcode g) = (opcode, g) := by
  have hflags : b2n g.nowheel ≤ 1 ∧ b2n g.early ≤ 1 := ⟨b2n_le_one _, b2n_le_one _⟩
  have hread : ∀ f ∈ goFields opcode g, f.val < 2 ^ (8 * f.size) → leAt (goBytes opcode g) f.off f.size = f.val := fun f hf hfits =>
    goBytes_eq opcode g ▸ leAt_fieldBytes (xs := []) (consecutive_goFields opcode g) hf hfits
  simp only [goFields, List.forall_mem_cons] at hread
  obtain ⟨rOpcode, rFlags, rTurnlo, rWord, rSeq, rPlines, rHandle, rMid, rObj, rTop, -⟩ := hread
  rw [goLineOf, rOpcode (by omega), rFlags (by omega), rTurnlo (by omega), rWord (by omega), rSeq (by omega), rPlines (by omega),
    rHandle (by omega), rMid (by omega), rObj (by omega), rTop (by omega)]
  congr
  case e_snd.e_nowheel | e_snd.e_early => exact bitOf_eq_of_div_mod (by omega)
  case e_snd.e_layer | e_snd.e_wheel | e_snd.e_resv => omega

end Sys2Proof.Machine

open Sys2Proof.Machine

/-- Settles O54: `goBytes_goLineOf` one way, `goLineOf_goBytes` the other. -/
theorem goLinesReadBack : Obligations.GoLinesReadBack :=
  ⟨fun _ => goBytes_goLineOf, fun _ _ => goLineOf_goBytes⟩

end

section
/-! PROOFS. The weirs: their events and the commands C080h to C085h (O17). -/
namespace Sys2Proof.Machine

/-! ### Events (R210, R222, R225) -/

section
variable {s : State} {t : Nat} (hup : s.up = true)
include hup

theorem exec_streamCacheFill_of_good (entry : Nat) : exec (.streamCacheFill t entry false) s = .next (s.at_ t).streamMiss :=
  (if_neg (not_not_intro hup)).trans (if_neg Bool.false_ne_true)

theorem exec_streamCacheFill_of_corrupt (entry : Nat) :
    exec (.streamCacheFill t entry true) s = .next ((s.at_ t).streamMiss.streamLost entry) :=
  (if_neg (not_not_intro hup)).trans (if_pos rfl)

theorem exec_guaranteeRecompute_of_up {resource : Nat} (hres : resource < 8) :
    exec (.guaranteeRecompute t resource) s = .next (((s.at_ t).recap resource).noteVitals (s.at_ t)) :=
  if_neg (not_or.mpr ⟨not_not_intro hup, Nat.not_le.mpr hres⟩)

theorem exec_capacityRiseTimeout_of_due {resource c since : Nat} {u : State} (hres : resource < 8)
    (hrise : s.weir.rise.get resource = some (c, since)) (hdue : since + 10 * ms ≤ (s.at_ t).now)
    (hu : u = (s.at_ t).modWeir (fun w => { w with
      cscale := w.cscale.set resource (some (min c ((s.at_ t).capacity resource)))
      rise := w.rise.set resource none })) :
    exec (.capacityRiseTimeout t resource) s =
      .next (((u.recompute resource ((s.at_ t).short resource)).noteCap resource).noteVitals (s.at_ t)) := by
  subst hu
  show execCapacityRiseTimeout t resource s = _
  simp only [execCapacityRiseTimeout, State.at__weir, hrise]
  exact if_pos ⟨hup, hres, hdue⟩

/-- In mode 1 a window falls back to 1,000 ms while its wheel is CLOSED. -/
theorem exec_captureWindowEnd_of_due (hdue : s.weir.mode = 0 ∧ s.weir.windowStart + s.weir.span * ms ≤ (s.at_ t).now ∨
      s.weir.mode ≠ 0 ∧ (s.wheel s.weir.wheel).state = .closed ∧ s.weir.windowStart + 1000 * ms ≤ (s.at_ t).now) :
    exec (.captureWindowEnd t) s = .next (s.at_ t).latchWindow := by
  have hspan : (s.weir.mode = 0 ∨ (s.wheel s.weir.wheel).state = .closed) ∧
      s.weir.windowStart + (if s.weir.mode = 0 then s.weir.span else 1000) * ms ≤ (s.at_ t).now := by
    obtain ⟨hmode, hend⟩ | ⟨hmode, hclosed, hend⟩ := hdue
    · exact ⟨.inl hmode, by rwa [if_pos hmode]⟩
    · exact ⟨.inr hclosed, by rwa [if_neg hmode]⟩
  exact if_pos ⟨hup, hspan⟩

end

/-! ### Commands (R214, R221, R225, R363) -/

section
variable {h : MbHdr} {s : State}

theorem exec_setClass_of_fits {cls share cache queue : Nat} (ht : s.takes h { opcode := 0xC080, ld := false, fm := .module, len := [12] })
    (hcls : cls < 8) (hshare : s.shareSum cls share WClass.share ≤ 256) (hcache : s.shareSum cls cache WClass.cache ≤ 256)
    (hqueue : s.shareSum cls queue WClass.queue ≤ 256) (hlast : cls = 7 → share ≠ 0) :
    exec (.setClass h cls share cache queue) s = .next ((s.modWeir fun w => { w with
      classes := w.classes.set cls { share := share, cache := cache, queue := queue } }).replied h 0xC080 [] []) := by
  have hok : ¬ (8 ≤ cls ∨ 256 < s.shareSum cls share WClass.share ∨ 256 < s.shareSum cls cache WClass.cache ∨
      256 < s.shareSum cls queue WClass.queue ∨ (cls = 7 ∧ share = 0)) := by omega
  show execSetClass h cls share cache queue s = _
  rw [execSetClass, State.mbRun_takes ht (if_neg hok)]

/-- A reservation that does not rise is taken even in a shortfall (R221). -/
theorem exec_reserveGuarantee_of_room {resource cls rate latbound : Nat} {old : Guar}
    (ht : s.takes h { opcode := 0xC081, ld := false, fm := .ld, len := [16] }) (hres : resource < 8) (hcls : cls < 7) (hrate : rate ≠ 0)
    (hlat : latbound ≠ 0) (hlatMax : latbound ≤ 4095) (hport : 4 ≤ resource → ldPort h.target = resource - 4)
    (hold : old = s.guar h.target resource)
    (hroom : (if old.valid then old.resv else 0) < rate → s.short resource = false ∧
      s.resvTotal resource - (if old.valid then old.resv else 0) + rate ≤ roomOf (s.capacity resource)) :
    exec (.reserveGuarantee h resource cls rate latbound) s = .next ((((s.setGuar h.target resource
      { resv := rate, eff := old.eff, cls := cls, lat := latbound, valid := true, tokens := (old.fill s.now).tokens, filled := s.now }).recompute
        resource (s.short resource)).noteVitals s).replied h 0xC081 [] []) := by
  have hform : ¬ (8 ≤ resource ∨ 7 ≤ cls ∨ rate = 0 ∨ latbound = 0 ∨ 4095 < latbound ∨ (4 ≤ resource ∧ ldPort h.target ≠ resource - 4)) := by
    omega
  have hfits : ¬ ((if old.valid then old.resv else 0) < rate ∧ (s.short resource = true ∨
      roomOf (s.capacity resource) < s.resvTotal resource - (if old.valid then old.resv else 0) + rate)) := by
    rintro ⟨hrises, hshort | hover⟩
    · exact ne_true_of_eq_false (hroom hrises).1 hshort
    · exact Nat.not_lt.mpr (hroom hrises).2 hover
  subst hold
  show execReserveGuarantee h resource cls rate latbound s = _
  rw [execReserveGuarantee, State.mbRun_takes ht ((if_neg hform).trans (if_neg hfits))]

theorem exec_releaseGuarantee_of_valid {resource : Nat} (ht : s.takes h { opcode := 0xC082, ld := false, fm := .ld, len := [10] })
    (hres : resource < 8) (hvalid : (s.guar h.target resource).valid = true) :
    exec (.releaseGuarantee h resource) s =
      .next ((((s.setGuar h.target resource {}).recompute resource (s.short resource)).noteVitals s).replied h 0xC082 [] []) := by
  have hok : ¬ (8 ≤ resource ∨ ¬ (s.guar h.target resource).valid = true) := not_or.mpr ⟨Nat.not_le.mpr hres, not_not_intro hvalid⟩
  show execReleaseGuarantee h resource s = _
  rw [execReleaseGuarantee, State.mbRun_takes ht (if_neg hok)]

section
variable (ht : s.takes h { opcode := 0xC083, ld := true, fm := .module })
include ht

/-- An LD learns its own guarantees and the capacities. -/
theorem exec_getWeirStatus_of_ld (hsrc : h.src < 16) :
    exec (.getWeirStatus h) s = .next (s.replied h 0xC083 [] (((List.range 8).flatMap fun r => leBytes 8 (s.guar h.src r).word) ++
      (List.range 8).flatMap fun r => leBytes 2 (s.capacity r / capScale))) := by
  show execGetWeirStatus h s = _
  rw [execGetWeirStatus, State.mbRun_takes ht (if_pos hsrc)]

/-- The FM learns the shares, the shortfalls and every guarantee. -/
theorem exec_getWeirStatus_of_fm (hsrc : 16 ≤ h.src) :
    exec (.getWeirStatus h) s = .next (s.replied h 0xC083 [] (((List.range 8).flatMap fun c => leBytes 8 (s.clsWord c)) ++
      ((List.range 8).flatMap fun r => leBytes 8 (s.shortWord r)) ++
      (List.range 16).flatMap fun ld => ((List.range 8).filter fun r => (s.guar ld r).valid).flatMap fun r =>
        layout 16 [⟨0, 8, (s.guar ld r).word⟩, ⟨8, 1, ld⟩, ⟨9, 1, r⟩])) := by
  show execGetWeirStatus h s = _
  rw [execGetWeirStatus, State.mbRun_takes ht (if_neg (Nat.not_lt.mpr hsrc))]

end

theorem exec_setCaptureWindow_of_valid {mode wheel span : Nat}
    (ht : s.takes h { opcode := 0xC084, ld := false, fm := .module, len := [16] }) (hmode : mode ≤ 1) (hspan : span ≠ 0)
    (hspanMax : span ≤ 10000) (hwheel : mode = 1 → wheel < 256 ∧ (s.wheel wheel).state ≠ .closed) :
    exec (.setCaptureWindow h mode wheel span) s = .next ((s.modWeir fun w => { w with
      mode := mode, wheel := wheel % 256, span := span, windowStart := s.now }).replied h 0xC084 [] []) := by
  have hnamed : ¬ (mode = 1 ∧ (256 ≤ wheel ∨ (s.wheel wheel).state = .closed)) := by
    rintro ⟨hone, hbig | hclosed⟩
    · exact Nat.not_le.mpr (hwheel hone).1 hbig
    · exact (hwheel hone).2 hclosed
  have hok : ¬ (1 < mode ∨ span = 0 ∨ 10000 < span ∨ (mode = 1 ∧ (256 ≤ wheel ∨ (s.wheel wheel).state = .closed))) :=
    not_or.mpr ⟨Nat.not_lt.mpr hmode, not_or.mpr ⟨hspan, not_or.mpr ⟨Nat.not_lt.mpr hspanMax, hnamed⟩⟩⟩
  show execSetCaptureWindow h mode wheel span s = _
  rw [execSetCaptureWindow, State.mbRun_takes ht (if_neg hok)]

theorem exec_getMaxLatency_of_valid {cls resource : Nat} {l : LatMax}
    (ht : s.takes h { opcode := 0xC085, ld := false, fm := .module, len := [10] }) (hcls : cls < 8) (hres : resource < 8)
    (hl : l = s.weir.latLast.get (8 * cls + resource)) :
    exec (.getMaxLatency h cls resource) s = .next (s.replied h 0xC085 [⟨0, 8, s.latWord (8 * cls + resource)⟩, ⟨8, 1, l.ld⟩, ⟨16, 8, l.time⟩,
      ⟨24, 6, l.turn⟩, ⟨30, 2, l.layer + l.wheel * 2 ^ 10 + b2n l.nopos * 2 ^ 14⟩] []) := by
  have hok : ¬ (8 ≤ cls ∨ 8 ≤ resource) := by omega
  subst hl
  show execGetMaxLatency h cls resource s = _
  rw [execGetMaxLatency, State.mbRun_takes ht (if_neg hok)]

end

end Sys2Proof.Machine

open Sys2Proof.Machine

/-- Settles O17: each clause is the lemma of its event or command. -/
theorem weirsComplete : Obligations.WeirsComplete := by
  unfold Obligations.WeirsComplete
  refine ⟨?fill, ?recompute, ?rise, ?window, ?setClass, ?reserve, ?release, ?status, ?setWindow, ?latency⟩
  case fill =>
    intro t entry s hup
    exact ⟨exec_streamCacheFill_of_good hup entry, exec_streamCacheFill_of_corrupt hup entry⟩
  case recompute =>
    intro t resource s hup hres
    exact exec_guaranteeRecompute_of_up hup hres
  case rise =>
    intro t resource c since s hup hres hrise hdue u hu
    exact exec_capacityRiseTimeout_of_due hup hres hrise hdue hu
  case window =>
    intro t s hup hdue
    exact exec_captureWindowEnd_of_due hup hdue
  case setClass =>
    intro h cls share cache queue s ht hcls hshare hcache hqueue hlast
    exact exec_setClass_of_fits ht hcls hshare hcache hqueue hlast
  case reserve =>
    intro h resource cls rate latbound s ht hres hcls hrate hlat hlatMax hport old hold hroom
    exact exec_reserveGuarantee_of_room ht hres hcls hrate hlat hlatMax hport hold hroom
  case release =>
    intro h resource s ht hres hvalid
    exact exec_releaseGuarantee_of_valid ht hres hvalid
  case status =>
    intro h s ht
    exact ⟨exec_getWeirStatus_of_ld ht, exec_getWeirStatus_of_fm ht⟩
  case setWindow =>
    intro h mode wheel span s ht hmode hspan hspanMax hwheel
    exact exec_setCaptureWindow_of_valid ht hmode hspan hspanMax hwheel
  case latency =>
    intro h cls resource l s ht hcls hres hl
    exact exec_getMaxLatency_of_valid ht hcls hres hl

end

section
/-! PROOFS. The near tier (O21): refresh, self-refresh, frequency changes and retraining, and the commands C091h and C0E2h. -/
namespace Sys2Proof.Machine

/-! ### Refresh and self-refresh (R232 to R234): `u` is the state at the instant that the event carries, `x` the stack. -/

section
variable {t stack : Nat} {x : Stack} {s u : State} (hu : u = s.at_ t) (hup : u.up = true) (hstack : stack < 12)

section
variable {channel rank key due : Nat} {queued : Bool} (hx : x = u.stackAt stack) (hchannel : channel < 8) (hrank : rank < 2)
  (hkey : key = 2 * channel + rank) (hperiod : due = x.refreshAt.get key + x.interval) (hactive : x.state = .active) (hdue : due ≤ u.now)
include hu hup hstack hx hchannel hrank hkey hperiod hactive hdue

/-- A refresh that is due is postponed once while requests are queued, waits one more period at most, and is then issued. -/
theorem execRefreshDue_of_due : execRefreshDue t stack channel rank queued s =
    if queued = true ∧ ¬ x.refreshLate.get key = true then
      .next (u.modStack stack fun y => { y with refreshLate := y.refreshLate.set key true })
    else if queued = true ∧ u.now < due + x.interval then .next u
    else .next ((u.modNear fun n => { n with
        nref := bump 64 n.nref (x.targeted.filter fun b => onRank channel rank b.1).length }).modStack stack fun y => { y with
      refreshAt := y.refreshAt.set key (if y.refreshLate.get key then due else u.now)
      refreshLate := y.refreshLate.set key false
      targeted := y.targeted.filter fun b => !onRank channel rank b.1 }) := by
  subst hu hperiod hkey hx
  have htaken : ¬ (¬ (s.at_ t).up = true ∨ 12 ≤ stack ∨ 8 ≤ channel ∨ 2 ≤ rank ∨ ((s.at_ t).stackAt stack).state ≠ .active ∨
      (s.at_ t).now < ((s.at_ t).stackAt stack).refreshAt.get (2 * channel + rank) + ((s.at_ t).stackAt stack).interval) := by
    simp only [not_or, not_not, not_le, not_lt]
    exact ⟨hup, hstack, hchannel, hrank, hactive, hdue⟩
  exact if_neg htaken

theorem exec_refreshDue_of_queued (hqueued : queued = true) (hlate : x.refreshLate.get key = false) :
    exec (.refreshDue t stack channel rank queued) s =
      .next (u.modStack stack fun y => { y with refreshLate := y.refreshLate.set key true }) :=
  (execRefreshDue_of_due hu hup hstack hx hchannel hrank hkey hperiod hactive hdue).trans
    (if_pos ⟨hqueued, ne_true_of_eq_false hlate⟩)

theorem exec_refreshDue_of_issued {v : State} (hissue : queued = false ∨ x.refreshLate.get key = true ∧ due + x.interval ≤ u.now)
    (hv : v = u.modNear fun n => { n with nref := bump 64 n.nref (x.targeted.filter fun b => onRank channel rank b.1).length }) :
    exec (.refreshDue t stack channel rank queued) s = .next (v.modStack stack fun y => { y with
      refreshAt := y.refreshAt.set key (if y.refreshLate.get key then due else v.now)
      refreshLate := y.refreshLate.set key false
      targeted := y.targeted.filter fun b => !onRank channel rank b.1 }) := by
  have hnotPostponed : ¬ (queued = true ∧ ¬ x.refreshLate.get key = true) := by
    rintro ⟨hqueued, hnotLate⟩
    exact hissue.elim (ne_false_of_eq_true hqueued) fun hlast => hnotLate hlast.1
  have hnotWaiting : ¬ (queued = true ∧ u.now < due + x.interval) := by
    rintro ⟨hqueued, hearly⟩
    exact hissue.elim (ne_false_of_eq_true hqueued) fun hlast => Nat.not_lt.mpr hlast.2 hearly
  subst hv
  exact (execRefreshDue_of_due hu hup hstack hx hchannel hrank hkey hperiod hactive hdue).trans
    ((if_neg hnotPostponed).trans (if_neg hnotWaiting))

end

include hu hup hstack

theorem exec_refreshWindowHot_of_up (temp : Int) : exec (.refreshWindowHot t stack temp) s =
    .next (((u.setTemp .stack stack temp).modStack stack fun y => { y with hot := decide (85 ≤ temp) }).noteVitals u) := by
  subst hu
  exact if_pos ⟨hup, hstack⟩

theorem exec_selfRefreshIdle_of_idle (hx : x = u.stackAt stack) (hon : u.near.sridle ≠ 0) (hidle : u.stackIdle x = true)
    (hlong : x.lastUse + u.near.sridle * us ≤ u.now) : exec (.selfRefreshIdle t stack) s =
    .next (u.modStack stack fun y => { y with state := .selfref, srentry := bump 32 y.srentry 1 }) := by
  subst hu hx
  exact if_pos ⟨hup, hstack, hon, hidle, hlong⟩

end

/-! ### Commands (R233, R234) -/

section
variable {h : MbHdr} {s : State}

theorem exec_setSelfRefreshIdle_of_valid {idle : Nat} (ht : s.takes h { opcode := 0xC0E2, ld := false, fm := .module, len := [12] })
    (hone : idle ≠ 1) (hmax : idle ≤ 1000) :
    exec (.setSelfRefreshIdle h idle) s = .next ((s.modNear fun n => { n with sridle := idle }).replied h 0xC0E2 [] []) := by
  have hok : ¬ (idle = 1 ∨ 1000 < idle) := not_or.mpr ⟨hone, Nat.not_lt.mpr hmax⟩
  show execSetSelfRefreshIdle h idle s = _
  rw [execSetSelfRefreshIdle, State.mbRun_takes ht (if_neg hok)]

theorem exec_setNeighbourRefresh_of_valid {e : Nat} (ht : s.takes h { opcode := 0xC091, ld := false, fm := .module, len := [9] })
    (hmin : 6 ≤ e) (hmax : e ≤ 14) :
    exec (.setNeighbourRefresh h e) s = .next ((s.modNear fun n => { n with nre := e }).replied h 0xC091 [] []) := by
  have hok : ¬ (e < 6 ∨ 14 < e) := not_or.mpr ⟨Nat.not_lt.mpr hmin, Nat.not_lt.mpr hmax⟩
  show execSetNeighbourRefresh h e s = _
  rw [execSetNeighbourRefresh, State.mbRun_takes ht (if_neg hok)]

end

/-! ### Frequency changes (R236) -/

section
variable {t stack dst : Nat} {x : Stack} {s u : State} (hu : u = s.at_ t) (hup : u.up = true) (hstack : stack < 12)
  (hx : x = u.stackAt stack) (hchanging : x.state = .changing) (hdone : x.changeAt ≤ u.now) (hdst : dst = x.goal.getD x.point)
include hu hup hstack hx hchanging hdone

/-- The spot check is made when the stack's change has taken its time. -/
theorem spotCheck_due : ¬ (¬ (s.at_ t).up = true ∨ 12 ≤ stack ∨ ((s.at_ t).stackAt stack).state ≠ .changing ∨
    (s.at_ t).now < ((s.at_ t).stackAt stack).changeAt) := by
  subst hu hx
  simp only [not_or, not_not, not_le, not_lt]
  exact ⟨hup, hstack, hchanging, hdone⟩

include hdst

theorem exec_freqChangeStackDone_of_passed {v : State}
    (hv : v = (u.modNear fun n => { n with nref := bump 64 n.nref x.targeted.length }).modStack stack fun y => { y with
      state := .active, point := dst, goal := none, checkAtExit := false, targeted := [], lastUse := u.now }) :
    exec (.freqChangeStackDone t stack true) s =
      .next (v.pumpNear.caps.retryReads fun r => r.why == .tierMove && (u.sack r.sack).stack == stack) := by
  have hcheck := spotCheck_due hu hup hstack hx hchanging hdone
  subst hv hdst hx hu
  exact (if_neg hcheck).trans (if_pos rfl)

/-- A failure at the previous point, where the stack went back to after a first one, loses it. -/
theorem exec_freqChangeStackDone_of_failed_again (hretry : x.retryPoint.isSome = true) (hback : dst = x.prev) :
    exec (.freqChangeStackDone t stack false) s = .next ((u.stackFails stack).caps.noteVitals u) := by
  have hcheck := spotCheck_due hu hup hstack hx hchanging hdone
  subst hdst hx hu
  exact (if_neg hcheck).trans ((if_neg Bool.false_ne_true).trans (if_pos ⟨hretry, hback⟩))

theorem exec_freqChangeStackDone_of_failed_first (hretry : x.retryPoint = none) :
    exec (.freqChangeStackDone t stack false) s = .next (u.modStack stack fun y =>
      { y.queueTrain dst with checkAtExit := false, retryPoint := some dst, goal := some y.prev, changeAt := u.now + 1700 }).caps := by
  have hcheck := spotCheck_due hu hup hstack hx hchanging hdone
  have hfirst : ¬ (x.retryPoint.isSome = true ∧ dst = x.prev) := fun hagain =>
    Bool.false_ne_true ((congrArg Option.isSome hretry).symm.trans hagain.1)
  subst hdst hx hu
  exact (if_neg hcheck).trans ((if_neg Bool.false_ne_true).trans (if_neg hfirst))

end

/-! ### Retraining (R240) -/

/-- The end of the retraining of set `p`: its new values, temperature and time are taken and the next stale set is chosen. -/
def State.endTraining (v : State) (stack p : Nat) : State :=
  v.modStack stack fun y =>
    let z := { y with
      stale := y.stale &&& ~~~ BitVec.ofNat 4 (2 ^ p)
      trainTemp := y.trainTemp.set p (v.health.sensors.get (sensorKey .stack stack)).temp
      trainAt := y.trainAt.set p v.now
      sets := y.sets.set p v.freeCtr
      slotsDone := { dflt := 0 }
      trainFails := 0 }
    { z with retrainPoint := z.nextTrain }

/-- Of all that `endTraining` writes, only the STALE bits choose the next set. -/
theorem State.endTraining_eq (v : State) (stack p : Nat) : v.endTraining stack p = v.modStack stack fun y => { y with
    stale := y.stale &&& ~~~ BitVec.ofNat 4 (2 ^ p)
    trainTemp := y.trainTemp.set p (v.health.sensors.get (sensorKey .stack stack)).temp
    trainAt := y.trainAt.set p v.now
    sets := y.sets.set p v.freeCtr
    slotsDone := { dflt := 0 }
    trainFails := 0
    retrainPoint := Stack.nextTrain { y with stale := y.stale &&& ~~~ BitVec.ofNat 4 (2 ^ p) } } := by
  simp only [State.endTraining, Stack.nextTrain]

section
variable {t stack : Nat} {x : Stack} {s u v : State} (hu : u = s.at_ t) (hup : u.up = true) (hstack : stack < 12)
  (hx : x = u.stackAt stack)
include hu hup hstack hx

section
variable {point : Nat} {temp : Int} (hpoint : point < 4) (hlive : x.state ≠ .failed)
  (hv : v = (u.setTemp .stack stack temp).noteVitals u)
include hpoint hlive hv

/-- The point in use is retrained for a move of 8 °C or after 10 s, any other for a move of 15 °C or as a stale one. -/
theorem execRetrainDue_of_live : execRetrainDue t stack point temp s =
    if (if point = x.point then
        decide (8 ≤ (temp - x.trainTemp.get point).natAbs) || decide (x.trainAt.get point + 10 * sec ≤ u.now)
      else decide (15 ≤ (temp - x.trainTemp.get point).natAbs) || x.stale.getLsbD point) = true
    then .next (v.modStack stack fun y => y.queueTrain point) else .next v := by
  subst hv hx hu
  have hread : ¬ (¬ (s.at_ t).up = true ∨ 12 ≤ stack ∨ 4 ≤ point ∨ ((s.at_ t).stackAt stack).state = .failed) := by
    simp only [not_or, not_not, not_le]
    exact ⟨hup, hstack, hpoint, hlive⟩
  exact if_neg hread

theorem exec_retrainDue_of_due
    (hdue : point = x.point ∧ (8 ≤ (temp - x.trainTemp.get point).natAbs ∨ x.trainAt.get point + 10 * sec ≤ u.now) ∨
      point ≠ x.point ∧ (15 ≤ (temp - x.trainTemp.get point).natAbs ∨ x.stale.getLsbD point = true)) :
    exec (.retrainDue t stack point temp) s = .next (v.modStack stack fun y => y.queueTrain point) := by
  refine (execRetrainDue_of_live hu hup hstack hx hpoint hlive hv).trans (if_pos ?_)
  obtain ⟨hcur, hcause⟩ | ⟨hother, hcause⟩ := hdue
  · rwa [if_pos hcur, Bool.or_eq_true, decide_eq_true_eq, decide_eq_true_eq]
  · rwa [if_neg hother, Bool.or_eq_true, decide_eq_true_eq]

theorem exec_retrainDue_of_recent (hcur : point = x.point) (hmove : (temp - x.trainTemp.get point).natAbs < 8)
    (hrecent : u.now < x.trainAt.get point + 10 * sec) :
    exec (.retrainDue t stack point temp) s = .next v := by
  refine (execRetrainDue_of_live hu hup hstack hx hpoint hlive hv).trans (if_neg ?_)
  rw [if_pos hcur, Bool.or_eq_true, decide_eq_true_eq, decide_eq_true_eq]
  exact not_or.mpr ⟨Nat.not_le.mpr hmove, Nat.not_le.mpr hrecent⟩

end

section
variable {channel p : Nat} {done : Tbl Nat} (hchannel : channel < 8) (hp : x.retrainPoint = some p)
  (hfree : u.slotHeld x channel = false) (hdone : done = x.slotsDone.set channel (x.slotsDone.get channel + 1))
  (hv : v = (u.beginSlot stack channel).modStack stack fun y => { y with
    slotsDone := done, lastSlot := y.lastSlot.set channel u.now })
include hchannel hp hfree hdone hv

/-- A good slot is counted on its channel; with 48 on every channel the new values replace the old ones. -/
theorem execRetrainSlot_of_good : execRetrainSlot t stack channel true s =
    if ((List.range 8).all fun c => decide (48 ≤ done.get c)) = true then
      .next ({ v.endTraining stack p with freeCtr := (v.endTraining stack p).freeCtr + 1 }.changeAlone stack)
    else .next v := by
  subst hv hdone hx hu
  have htaken : ¬ (¬ (s.at_ t).up = true ∨ 12 ≤ stack ∨ 8 ≤ channel ∨
      (s.at_ t).slotHeld ((s.at_ t).stackAt stack) channel = true) := by
    simp only [not_or, not_not, not_le]
    exact ⟨hup, hstack, hchannel, ne_true_of_eq_false hfree⟩
  unfold execRetrainSlot
  extract_lets u x
  rw [show x.retrainPoint = some p from hp]
  exact (if_neg htaken).trans (if_neg (not_not_intro rfl))

theorem exec_retrainSlot_of_more (hmore : ∃ c < 8, done.get c < 48) : exec (.retrainSlot t stack channel true) s = .next v := by
  have hsome : ¬ ((List.range 8).all fun c => decide (48 ≤ done.get c)) = true := by
    obtain ⟨c, hc, hfew⟩ := hmore
    simp only [List.all_eq_true, List.mem_range, decide_eq_true_eq]
    exact fun hall => Nat.not_le.mpr hfew (hall c hc)
  exact (execRetrainSlot_of_good hu hup hstack hx hchannel hp hfree hdone hv).trans (if_neg hsome)

theorem exec_retrainSlot_of_last {w : State} (hall : ∀ c < 8, 48 ≤ done.get c) (hw : v.endTraining stack p = w) :
    exec (.retrainSlot t stack channel true) s = .next ({ w with freeCtr := w.freeCtr + 1 }.changeAlone stack) := by
  have hevery : ((List.range 8).all fun c => decide (48 ≤ done.get c)) = true := by
    simpa only [List.all_eq_true, List.mem_range, decide_eq_true_eq] using hall
  subst hw
  exact (execRetrainSlot_of_good hu hup hstack hx hchannel hp hfree hdone hv).trans (if_pos hevery)

end

end

end Sys2Proof.Machine

open Sys2Proof.Machine

/-- Settles O21: each clause is the lemma of its event or command. -/
theorem nearComplete : Obligations.NearComplete := by
  unfold Obligations.NearComplete
  refine ⟨?refresh, ?window, ?selfRefresh, ?setIdle, ?setNeighbour, ?change, ?due, ?slot⟩
  case refresh =>
    intro t stack channel rank key due queued x s u hu hup hstack hchannel hrank hx hkey hperiod hactive hdue
    refine ⟨?postponed, ?issued⟩
    case postponed => exact exec_refreshDue_of_queued hu hup hstack hx hchannel hrank hkey hperiod hactive hdue
    case issued =>
      intro hissue v hv
      exact exec_refreshDue_of_issued hu hup hstack hx hchannel hrank hkey hperiod hactive hdue hissue hv
  case window =>
    intro t stack temp s u hu hup hstack
    exact exec_refreshWindowHot_of_up hu hup hstack temp
  case selfRefresh =>
    intro t stack x s u hu hup hstack hx hon hidle hlong
    exact exec_selfRefreshIdle_of_idle hu hup hstack hx hon hidle hlong
  case setIdle =>
    intro h idle s ht hone hmax
    exact exec_setSelfRefreshIdle_of_valid ht hone hmax
  case setNeighbour =>
    intro h e s ht hmin hmax
    exact exec_setNeighbourRefresh_of_valid ht hmin hmax
  case change =>
    intro t stack dst x s u v hu hup hstack hx hchanging hdone hdst
    exact ⟨exec_freqChangeStackDone_of_passed hu hup hstack hx hchanging hdone hdst,
      exec_freqChangeStackDone_of_failed_again hu hup hstack hx hchanging hdone hdst,
      exec_freqChangeStackDone_of_failed_first hu hup hstack hx hchanging hdone hdst⟩
  case due =>
    intro t stack point temp x s u v hu hup hstack hpoint hx hlive hv
    exact ⟨exec_retrainDue_of_due hu hup hstack hx hpoint hlive hv, exec_retrainDue_of_recent hu hup hstack hx hpoint hlive hv⟩
  case slot =>
    intro t stack channel p x s u hu hup hstack hchannel hx hp hfree done v hdone hv
    refine ⟨?more, ?last⟩
    case more => exact exec_retrainSlot_of_more hu hup hstack hx hchannel hp hfree hdone hv
    case last =>
      intro hall w hw
      exact exec_retrainSlot_of_last hu hup hstack hx hchannel hp hfree hdone hv hall ((v.endTraining_eq stack p).trans hw)

end

section
/-! PROOFS. The deep tier (O22): flash places and page reads, wear, failures, the journal, the hold-up bank, the endurance budget and
global persistent flush. -/
namespace Sys2Proof.Machine

/-! ### Events and their records leave the time as it is -/

@[simp] theorem State.signal_now (s : State) (m v : Nat) : (s.signal m v).now = s.now := by
  unfold State.signal
  split <;> rfl

@[simp] theorem State.post_now (s : State) (m log : Nat) (e : Event) : (s.post m log e).now = s.now := by
  unfold State.post
  dsimp only
  split
  · split
    · exact State.signal_now ..
    · rfl
  · rfl

theorem State.moduleEvents_now (kind : Nat) (ms : List Nat) (s : State) :
    (ms.foldl (fun s m => s.moduleEvent m kind) s).now = s.now := by
  induction ms generalizing s with
  | nil => rfl
  | cons m ms ih => rw [List.foldl_cons, ih, State.moduleEvent, State.post_now]

@[simp] theorem State.noteVitals_now (s s0 : State) : (s.noteVitals s0).now = s.now := by
  unfold State.noteVitals
  split
  · rfl
  · exact State.moduleEvents_now ..

@[simp] theorem State.setBank_now (s : State) (b : Bank) : (s.setBank b).now = s.now := by
  unfold State.setBank
  split
  · rfl
  · exact State.post_now ..

@[simp] theorem State.startTest_now (s : State) : s.startTest.now = s.now := State.setBank_now ..

/-! ### Timed events: `u` is the state at the instant that the event carries. -/

section
variable {t : Nat} {s u : State} (hu : u = s.at_ t) (hup : u.up = true)
include hu hup

/-! #### Garbage collection and wear (R250) -/

section
variable {group b : Nat} (hgroup : group < 16)
include hgroup

theorem exec_garbageCollect_of_low (hlow : 100 * u.freeSets group < 2 * 4096)
    (hleast : u.leastSet group (u.setValid group) (u.usedSets group) = some b) :
    exec (.garbageCollect t group) s = .next ((u.moveSet group b).noteVitals u) := by
  subst hu
  show execGarbageCollect t group s = _
  simp only [execGarbageCollect, hleast]
  exact if_pos ⟨hup, hgroup, hlow⟩

theorem exec_wearLevelMove_of_uneven
    (hleast : u.leastSet group (u.setPe group) ((u.usedSets group).filter fun b => u.setValid group b != 0) = some b)
    (huneven : u.setPe group b + 300 <
      ((u.deep.blocks.cells.filter fun c => c.1 / 16384 % 16 == group).map fun c => c.2.pe).foldl max 0) :
    exec (.wearLevelMove t group) s = .next ((u.moveSet group b).noteVitals u) := by
  subst hu
  show execWearLevelMove t group s = _
  simp only [execWearLevelMove, hleast, if_pos huneven]
  exact if_pos ⟨hup, hgroup⟩

end

/-! #### Page reads and programs (R247, R249) -/

section
variable {slot : Nat} {l : SlotLoc} {v : State} (hl : l = u.deep.slots.get slot) (hvalid : l.valid = true)
  (hv : v = (u.mapPage slot).modDeep fun d => { d with blocks := d.blocks.upd l.key fun b => { b with reads := b.reads + 1 } })
  (hlive : v.deep.dieFailed.get l.die = false)
include hl hvalid hv hlive

/-- A page of a valid slot on a die that has not failed is counted by how it was read. -/
theorem execDeepPageRead_of_live (outcome : PageOutcome) : execDeepPageRead t slot outcome s = .next (match outcome with
    | .clean => v.pageRead slot false
    | .retried => (v.modDeep fun d => { d with retry := bump 32 d.retry 1 }).pageRead slot true
    | .rebuilt => (v.modDeep fun d => { d with retry := bump 32 d.retry 1, parity := bump 16 d.parity 1 }).pageRead slot true
    | .lost => (v.modDeep fun d => { d with retry := bump 32 d.retry 1, uncorr := bump 16 d.uncorr 1 }).slotLost slot) := by
  subst hv hl hu
  have hread : ¬ (¬ (s.at_ t).up = true ∨ ¬ ((s.at_ t).deep.slots.get slot).valid = true) :=
    not_or.mpr ⟨not_not_intro hup, not_not_intro hvalid⟩
  cases outcome <;> simp only [execDeepPageRead, if_neg hread, hlive, Bool.false_eq_true, if_false]

end

theorem exec_slotProgramDone_of_programming {slot group : Nat} {l : SlotLoc} {v : State} (hgroup : group < 16)
    (hslot : slot ∈ u.deep.programming) (hplace : u.takePlace group 2 = some (l, v)) :
    exec (.slotProgramDone t slot group) s =
      .next ((v.placeSlot slot l).modDeep fun d => { d with programming := d.programming.filter (· ≠ slot) }) := by
  subst hu
  show execSlotProgramDone t slot group s = _
  simp only [execSlotProgramDone, hplace]
  exact if_pos ⟨hup, hgroup, List.contains_iff_mem.mpr hslot⟩

/-! #### Refresh and patrol (R253) -/

section
variable {die block : Nat}

theorem exec_readRefresh_of_due {margin : Bool} {b : FlashBlk} (hb : b = u.deep.blocks.get (blkKey die block)) (hused : b.free = false)
    (hdue : margin = true ∨ 200000 ≤ b.reads ∨ b.since + 180 * dayNs ≤ u.powered) :
    exec (.readRefresh t die block margin) s = .next (u.relocate (u.inBlock die block)) := by
  subst hb hu
  exact if_pos ⟨hup, ne_true_of_eq_false hused, hdue⟩

theorem exec_patrolRead_of_due {n : Nat} (hdie : die < 256) (hblock : block < 16384)
    (hdue : u.anyGap = true ∨ (u.deep.blocks.get (blkKey die block)).patrolled + 15 * dayNs ≤ u.now)
    (hn : n = (u.inBlock die block).length) :
    exec (.patrolRead t die block) s = .next (u.modDeep fun d => { d with
      blocks := d.blocks.upd (blkKey die block) fun b => { b with reads := b.reads + n, patrolled := u.now } }) := by
  subst hn hu
  exact if_pos ⟨hup, hdie, hblock, hdue⟩

/-! #### Failures (R254 to R256) -/

section
variable {fails : List (Nat × Nat)} {v : State} (hdie : die < 256) (hblock : block < 16384)
  (hlive : u.deep.dieFailed.get die = false) (hsound : (u.deep.blocks.get (blkKey die block)).retired = false)
  (hfails : fails = (die, u.now) :: u.deep.dieFails.filter fun f => u.now < f.2 + dayNs)
  (hv : v = u.modDeep fun d => { d with
    dieFails := fails
    blocks := d.blocks.upd (blkKey die block) fun b => { b with retired := true, free := false } })
include hdie hblock hlive hsound hfails hv

/-- The slots of a block that fails are moved; whether its die fails too turns on the die's failed blocks of the last 24 hours. -/
theorem execFlashBlockFailure_of_sound : execFlashBlockFailure t die block s = .next (State.noteVitals
    (if 8 ≤ (fails.filter fun f => f.1 == die).length then ((v.inBlock die block).foldl State.moveSlot v).dieFails die
      else ((v.inBlock die block).foldl State.moveSlot v).noteSpare) u) := by
  subst hv hfails hu
  have htaken : ¬ (¬ (s.at_ t).up = true ∨ 256 ≤ die ∨ 16384 ≤ block ∨ (s.at_ t).deep.dieFailed.get die = true ∨
      ((s.at_ t).deep.blocks.get (blkKey die block)).retired = true) := by
    simp only [not_or, not_not, not_le]
    exact ⟨hup, hdie, hblock, ne_true_of_eq_false hlive, ne_true_of_eq_false hsound⟩
  exact if_neg htaken

theorem exec_flashBlockFailure_of_few (hfew : (fails.filter fun f => f.1 == die).length < 8) :
    exec (.flashBlockFailure t die block) s = .next (((v.inBlock die block).foldl State.moveSlot v).noteSpare.noteVitals u) := by
  refine (execFlashBlockFailure_of_sound hu hup hdie hblock hlive hsound hfails hv).trans ?_
  rw [if_neg (Nat.not_le.mpr hfew)]

theorem exec_flashBlockFailure_of_eighth (hmany : 8 ≤ (fails.filter fun f => f.1 == die).length) :
    exec (.flashBlockFailure t die block) s = .next ((((v.inBlock die block).foldl State.moveSlot v).dieFails die).noteVitals u) := by
  refine (execFlashBlockFailure_of_sound hu hup hdie hblock hlive hsound hfails hv).trans ?_
  rw [if_pos hmany]

end

theorem exec_flashDieFailure_of_up : exec (.flashDieFailure t die) s = .next ((u.dieFails die).noteVitals u) := by
  subst hu
  exact if_pos hup

theorem exec_dieRebuildComplete_of_rebuild {r : Rebuild} (hr : u.deep.rebuilds.find? (fun r => r.die = die) = some r) :
    exec (.dieRebuildComplete t die) s = .next ((((r.slots.foldl State.moveSlot u).modDeep fun d =>
      { d with rebuilds := d.rebuilds.filter fun x => x.die ≠ die }).journal 1).caps) := by
  subst hu
  show execDieRebuildComplete t die s = _
  simp only [execDieRebuildComplete, hr, if_pos hup]

end

/-! #### The journal and the hold-up bank (R257, R258, R260, R261) -/

theorem exec_journalPageProgrammed_of_up :
    exec (.journalPageProgrammed t) s = .next (u.modDeep fun d => { d with journalOpen := 0 }) := by
  subst hu
  exact if_pos hup

theorem exec_checkpointImageDone_of_up : exec (.checkpointImageDone t) s =
    .next ((u.modDeep fun d => { d with checkpoint := d.checkpoint + 1, journalSince := 0 }).journal 1) := by
  subst hu
  exact if_pos hup

theorem exec_holdupBankFailed_of_up : exec (.holdupBankFailed t) s = .next ((u.setBank .failed).modeChanged.noteVitals u) := by
  subst hu
  exact if_pos hup

theorem exec_holdupTestDue_of_due (hdue : u.deep.bank = .charging ∨
      u.deep.bank = .healthy ∧ u.deep.lastTest + u.deep.period * hourNs ≤ u.now ∨
      u.deep.bank = .weak ∧ u.deep.lastTest + 600 * sec ≤ u.now) :
    exec (.holdupTestDue t) s = .next (u.startTest.noteVitals u) := by
  subst hu
  show execHoldupTestDue t s = _
  obtain hbank | ⟨hbank, hlate⟩ | ⟨hbank, hlate⟩ := hdue <;> simp only [execHoldupTestDue, hbank]
  · exact if_pos ⟨hup, trivial⟩
  · exact if_pos ⟨hup, decide_eq_true hlate⟩
  · exact if_pos ⟨hup, decide_eq_true hlate⟩

section
variable {energy : Nat} {v : State} (htesting : u.deep.bank = .testing) (hdue : u.deep.testAt + 2500 * ms ≤ u.now)
  (hv : v = u.modDeep fun d => { d with energy := min energy 255, lastTest := u.now })
include htesting hdue hv

/-- A test that ends takes the bank to HEALTHY or WEAK: HEALTHY from 40 J on, or from 36 J where it was HEALTHY before. -/
theorem execHoldupTestComplete_of_testing : execHoldupTestComplete t energy s = .next
    ((v.setBank (if 40 ≤ energy ∨ 36 ≤ energy ∧ u.deep.before = .healthy then .healthy else .weak)).modeChanged.noteVitals u) := by
  subst hv hu
  exact if_pos ⟨hup, htesting, hdue⟩

theorem exec_holdupTestComplete_of_good (hgood : 40 ≤ energy ∨ 36 ≤ energy ∧ u.deep.before = .healthy) :
    exec (.holdupTestComplete t energy) s = .next ((v.setBank .healthy).modeChanged.noteVitals u) := by
  refine (execHoldupTestComplete_of_testing hu hup htesting hdue hv).trans ?_
  rw [if_pos hgood]

theorem exec_holdupTestComplete_of_poor (hpoor : energy < 36 ∨ energy < 40 ∧ u.deep.before ≠ .healthy) :
    exec (.holdupTestComplete t energy) s = .next ((v.setBank .weak).modeChanged.noteVitals u) := by
  have hnotGood : ¬ (40 ≤ energy ∨ 36 ≤ energy ∧ u.deep.before = .healthy) := by
    rintro (henough | ⟨henough, hbefore⟩)
    · omega
    · exact hpoor.elim (Nat.not_lt.mpr henough) fun hlow => hlow.2 hbefore
  refine (execHoldupTestComplete_of_testing hu hup htesting hdue hv).trans ?_
  rw [if_neg hnotGood]

end

/-! #### The endurance credit (R251, R252) -/

theorem exec_burstCreditRefill_of_throttled (hthrottled : u.refill.throttled = true) :
    exec (.burstCreditRefill t) s = .next u.refill := by
  subst hu
  exact (if_pos hup).trans (congrArg _ (if_pos hthrottled))

/-- While programming is not held to the rate of the budget, no write-back waits for credit. -/
theorem exec_burstCreditRefill_of_not_throttled (hfree : u.refill.throttled = false) :
    exec (.burstCreditRefill t) s = .next (u.refill.modStore fun st => { st with xfers := st.xfers.map fun x =>
      if x.kind = .writeback ∨ x.kind = .victimWriteback then { x with endur := false } else x }) := by
  subst hu
  exact (if_pos hup).trans (congrArg _ (if_neg (ne_true_of_eq_false hfree)))

/-! #### Global persistent flush (R265) -/

section
variable {port : Nat} (hport : port < 4)
include hport

theorem exec_gpfPhase1_of_up : exec (.gpfPhase1 t port) s = .next (u.send (.cxlIo (4 * port) 10 [⟨0, 1, 1⟩] [])) := by
  subst hu
  exact if_pos ⟨hup, hport⟩

/-- The second phase empties the journal buffer, and in write-back saves the mirror records too, before it answers. -/
theorem execGpfPhase2_of_up : execGpfPhase2 t port s = .next
    ((if u.wt = true then u.modDeep fun d => { d with journalOpen := 0 } else u.flush).send (.cxlIo (4 * port) 10 [⟨0, 1, 2⟩] [])) := by
  subst hu
  exact if_pos ⟨hup, hport⟩

theorem exec_gpfPhase2_of_writeThrough (hwt : u.wt = true) : exec (.gpfPhase2 t port) s =
    .next ((u.modDeep fun d => { d with journalOpen := 0 }).send (.cxlIo (4 * port) 10 [⟨0, 1, 2⟩] [])) := by
  refine (execGpfPhase2_of_up hu hup hport).trans ?_
  rw [if_pos hwt]

theorem exec_gpfPhase2_of_writeBack (hwb : u.wt = false) :
    exec (.gpfPhase2 t port) s = .next (u.flush.send (.cxlIo (4 * port) 10 [⟨0, 1, 2⟩] [])) := by
  refine (execGpfPhase2_of_up hu hup hport).trans ?_
  rw [if_neg (ne_true_of_eq_false hwb)]

end

end

/-! ### Commands (C0E4h to C0E6h) -/

section
variable {h : MbHdr} {s : State}

theorem exec_testHoldupBank_of_idle (ht : s.takes h { opcode := 0xC0E5, ld := false, fm := .module, bg := true })
    (htesting : s.deep.bank ≠ .testing) (hcharging : s.deep.bank ≠ .charging) :
    exec (.testHoldupBank h) s = .next ((s.startTest.noteVitals s).begun h 0xC0E5 (.testHoldupBank h)) := by
  have hnow : (s.startTest.noteVitals s).now = s.now := by rw [State.noteVitals_now, State.startTest_now]
  show execTestHoldupBank h s = _
  rw [execTestHoldupBank, State.mbBg_takes ht (if_neg (not_or.mpr ⟨htesting, hcharging⟩)) hnow]

theorem exec_setHoldupTestPeriod_of_valid {period : Nat} (ht : s.takes h { opcode := 0xC0E6, ld := false, fm := .module, len := [9] })
    (hmin : period ≠ 0) (hmax : period ≤ 168) :
    exec (.setHoldupTestPeriod h period) s = .next ((s.modDeep fun d => { d with period := period }).replied h 0xC0E6 [] []) := by
  show execSetHoldupTestPeriod h period s = _
  rw [execSetHoldupTestPeriod, State.mbRun_takes ht (if_neg (not_or.mpr ⟨hmin, Nat.not_lt.mpr hmax⟩))]

theorem exec_setEnduranceBudget_of_valid {b : Nat} (ht : s.takes h { opcode := 0xC0E4, ld := false, fm := .module, len := [9] })
    (hmin : 2 ≤ b) (hmax : b ≤ 30) :
    exec (.setEnduranceBudget h b) s =
      .next (((((s.refill.modDeep fun d => { d with budget := b }).journal 1).recap 2).noteVitals s).replied h 0xC0E4 [] []) := by
  show execSetEnduranceBudget h b s = _
  rw [execSetEnduranceBudget, State.mbRun_takes ht (if_neg (not_or.mpr ⟨Nat.not_lt.mpr hmin, Nat.not_lt.mpr hmax⟩))]

end

end Sys2Proof.Machine

open Sys2Proof.Machine

/-- Settles O22: each clause is the lemma of its event or command. -/
theorem deepComplete : Obligations.DeepComplete := by
  unfold Obligations.DeepComplete
  refine ⟨?collect, ?level, ?pageRead, ?program, ?refresh, ?patrol, ?block, ?die, ?rebuild, ?journal, ?testDue, ?testDone, ?testBank,
    ?period, ?credit, ?budget, ?gpf⟩
  case collect =>
    intro t group b s u hu hup hgroup hlow hleast
    exact exec_garbageCollect_of_low hu hup hgroup hlow hleast
  case level =>
    intro t group b s u hu hup hgroup hleast huneven
    exact exec_wearLevelMove_of_uneven hu hup hgroup hleast huneven
  case pageRead =>
    intro t slot l s u v hu hup hl hvalid hv hlive
    have hread := execDeepPageRead_of_live hu hup hl hvalid hv hlive
    exact ⟨hread .clean, hread .retried, hread .rebuilt, hread .lost⟩
  case program =>
    intro t slot group l s u v hu hup hgroup hslot hplace
    exact exec_slotProgramDone_of_programming hu hup hgroup hslot hplace
  case refresh =>
    intro t die block margin b s u hu hup hb hused hdue
    exact exec_readRefresh_of_due hu hup hb hused hdue
  case patrol =>
    intro t die block n s u hu hup hdie hblock hdue hn
    exact exec_patrolRead_of_due hu hup hdie hblock hdue hn
  case block =>
    intro t die block fails s u v hu hup hdie hblock hlive hsound hfails hv
    exact ⟨exec_flashBlockFailure_of_few hu hup hdie hblock hlive hsound hfails hv,
      exec_flashBlockFailure_of_eighth hu hup hdie hblock hlive hsound hfails hv⟩
  case die =>
    intro t die s u hu hup
    exact exec_flashDieFailure_of_up hu hup
  case rebuild =>
    intro t die r s u hu hup hr
    exact exec_dieRebuildComplete_of_rebuild hu hup hr
  case journal =>
    intro t s u hu hup
    exact ⟨exec_journalPageProgrammed_of_up hu hup, exec_checkpointImageDone_of_up hu hup, exec_holdupBankFailed_of_up hu hup⟩
  case testDue =>
    intro t s u hu hup hdue
    exact exec_holdupTestDue_of_due hu hup hdue
  case testDone =>
    intro t energy s u v hu hup htesting hdue hv
    exact ⟨exec_holdupTestComplete_of_good hu hup htesting hdue hv, exec_holdupTestComplete_of_poor hu hup htesting hdue hv⟩
  case testBank =>
    intro h s ht htesting hcharging
    exact exec_testHoldupBank_of_idle ht htesting hcharging
  case period =>
    intro h period s ht hmin hmax
    exact exec_setHoldupTestPeriod_of_valid ht hmin hmax
  case credit =>
    intro t s u hu hup
    exact ⟨exec_burstCreditRefill_of_throttled hu hup, exec_burstCreditRefill_of_not_throttled hu hup⟩
  case budget =>
    intro h b s ht hmin hmax
    exact exec_setEnduranceBudget_of_valid ht hmin hmax
  case gpf =>
    intro t port s u hu hup hport
    exact ⟨exec_gpfPhase1_of_up hu hup hport, exec_gpfPhase2_of_writeThrough hu hup hport, exec_gpfPhase2_of_writeBack hu hup hport⟩

end

section
/-! PROOFS. Clocks, supplies and resets (O36): crystals and the brake, the supply and reset inputs, PLLs and clock gating. -/
namespace Sys2Proof.Machine

/-! Every event is timed: `u` is the state at the instant that it carries. -/

section
variable {t : Nat} {s u : State} (hu : u = s.at_ t)
include hu

/-! ### Power-up and the oscillators (Table 17.4, R392 to R397) -/

theorem exec_vaux33PowerOn_of_off {v : State} (hoff : u.phase = .off)
    (hv : v = u.powerUpReset.modClock fun c => { c with
      vaux := true, fault := true, thermtrip := false, xa := .stopped, xb := .stopped, source := 0, lostCore := false,
      inBrake := false, fastDead := false, lostSource := none, lossAt := [], stopped := [] }) :
    exec (.vaux33PowerOn t) s = .next { v with phase := .osc } := by
  subst hv hu
  exact if_neg (not_not_intro hoff)

theorem exec_fastOscQualified_of_osc {v : State} {xdly : Nat} (hosc : u.phase = .osc)
    (hv : v = u.modClock fun c => { c with xdly := xdly % 8, xa := .starting, xaStart := u.now }) :
    exec (.fastOscQualified t xdly) s = .next { v with phase := .qualifying } := by
  subst hv hu
  exact if_pos hosc

theorem exec_fastOscFail_of_powered (hon : u.phase ≠ .off) (halive : u.phase ≠ .hubFailed) :
    exec (.fastOscFail t) s = .next (u.brake.modClock fun c => { c with fastDead := true }) := by
  subst hu
  exact if_neg (not_or.mpr ⟨hon, halive⟩)

section
variable {crystal : Nat} (hcrystal : crystal < 2)
include hcrystal

section
variable {v w : State} (hstarting : u.crystal crystal = .starting) (hosc : u.clock.fastDead = false)
  (hdue : u.crystalStart crystal + u.xDelay + 100 * us ≤ u.now)
  (hv : v = if crystal = 0 then (u.setCrystal crystal .qualified).startXb else u.setCrystal crystal .qualified)
include hstarting hosc hdue hv

/-- A crystal that qualifies drives the clocks, and ends the brake, where none did before. -/
theorem execCrystalQualified_of_due : execCrystalQualified t crystal s =
    if u.phase = .qualifying ∨ u.phase = .braked then
      .next (if u.clock.lostCore then v.modClock fun c => { c with source := crystal }
        else (v.modClock fun c => { c with source := crystal }).releaseBrake)
    else .next v := by
  subst hv hu
  have htaken : ¬ (2 ≤ crystal ∨ (s.at_ t).crystal crystal ≠ .starting ∨ (s.at_ t).clock.fastDead = true ∨
      (s.at_ t).now < (s.at_ t).crystalStart crystal + (s.at_ t).xDelay + 100 * us) := by
    simp only [not_or, not_not, not_le, not_lt]
    exact ⟨hcrystal, hstarting, ne_true_of_eq_false hosc, hdue⟩
  exact if_neg htaken

theorem exec_crystalQualified_of_clocked (hqualifying : u.phase ≠ .qualifying) (hbraked : u.phase ≠ .braked) :
    exec (.crystalQualified t crystal) s = .next v :=
  (execCrystalQualified_of_due hu hcrystal hstarting hosc hdue hv).trans (if_neg (not_or.mpr ⟨hqualifying, hbraked⟩))

theorem exec_crystalQualified_of_waiting (hw : w = v.modClock fun c => { c with source := crystal })
    (hwaiting : u.phase = .qualifying ∨ u.phase = .braked) :
    exec (.crystalQualified t crystal) s = .next (if u.clock.lostCore then w else w.releaseBrake) := by
  subst hw
  exact (execCrystalQualified_of_due hu hcrystal hstarting hosc hdue hv).trans (if_pos hwaiting)

end

theorem exec_crystalQualTimeout_of_due {v : State} (hstarting : u.crystal crystal = .starting)
    (hdue : u.crystalStart crystal + 5 * u.xDelay ≤ u.now) (hv : v = (u.setCrystal crystal .failed).fallback crystal) :
    exec (.crystalQualTimeout t crystal) s = .next ((if crystal = 0 then v.startXb else v).noteVitals u) := by
  subst hv hu
  have htaken : ¬ (2 ≤ crystal ∨ (s.at_ t).crystal crystal ≠ .starting ∨
      (s.at_ t).now < (s.at_ t).crystalStart crystal + 5 * (s.at_ t).xDelay) := by
    simp only [not_or, not_not, not_le, not_lt]
    exact ⟨hcrystal, hstarting, hdue⟩
  exact if_neg htaken

section
variable {v : State} (hqualified : u.crystal crystal = .qualified) (hv : v = u.setCrystal crystal .failed)
include hqualified hv

/-- A crystal that trips while it drives the PLLs is replaced by the other one, or the module brakes. -/
theorem execCrystalTrip_of_qualified : execCrystalTrip t crystal s =
    if u.clock.source ≠ crystal ∨ ¬ u.sourceLive = true then .next ((v.fallback crystal).noteVitals u)
    else if u.crystal (1 - crystal) = .qualified then
      .next (((v.modClock fun c => { c with source := 1 - crystal }).fallback crystal).noteVitals u)
    else .next (v.brake.modClock fun c => { c with lostSource := some crystal }) := by
  subst hv hu
  have htaken : ¬ (2 ≤ crystal ∨ (s.at_ t).crystal crystal ≠ .qualified) :=
    not_or.mpr ⟨Nat.not_le.mpr hcrystal, not_not_intro hqualified⟩
  exact if_neg htaken

theorem exec_crystalTrip_of_unused (hunused : u.clock.source ≠ crystal ∨ u.sourceLive = false) :
    exec (.crystalTrip t crystal) s = .next ((v.fallback crystal).noteVitals u) :=
  (execCrystalTrip_of_qualified hu hcrystal hqualified hv).trans (if_pos (hunused.imp_right ne_true_of_eq_false))

section
variable (hsource : u.clock.source = crystal) (hlive : u.sourceLive = true)
include hsource hlive

theorem execCrystalTrip_of_used : execCrystalTrip t crystal s =
    if u.crystal (1 - crystal) = .qualified then
      .next (((v.modClock fun c => { c with source := 1 - crystal }).fallback crystal).noteVitals u)
    else .next (v.brake.modClock fun c => { c with lostSource := some crystal }) :=
  (execCrystalTrip_of_qualified hu hcrystal hqualified hv).trans
    (if_neg (not_or.mpr ⟨not_not_intro hsource, not_not_intro hlive⟩))

theorem exec_crystalTrip_of_other (hother : u.crystal (1 - crystal) = .qualified) :
    exec (.crystalTrip t crystal) s =
      .next (((v.modClock fun c => { c with source := 1 - crystal }).fallback crystal).noteVitals u) :=
  (execCrystalTrip_of_used hu hcrystal hqualified hv hsource hlive).trans (if_pos hother)

theorem exec_crystalTrip_of_last (hnone : u.crystal (1 - crystal) ≠ .qualified) :
    exec (.crystalTrip t crystal) s = .next (v.brake.modClock fun c => { c with lostSource := some crystal }) :=
  (execCrystalTrip_of_used hu hcrystal hqualified hv hsource hlive).trans (if_neg hnone)

end

end

end

/-! ### PWRGD, PERST_N, the supplies and the thermal trip (R348, R403, R404, R417, R421, R422) -/

theorem exec_pwrgdAssert_of_low (hlow : u.clock.pwrgd = false) :
    exec (.pwrgdAssert t) s = .next (u.modClock fun c => { c with pwrgd := true }).tryMain := by
  subst hu
  exact if_neg (ne_true_of_eq_false hlow)

theorem exec_pwrgdDeassert : exec (.pwrgdDeassert t) s = .next (u.modClock fun c => { c with pwrgd := false }).loseInput := by
  subst hu
  rfl

theorem exec_vin48Overvoltage : exec (.vin48Overvoltage t) s = .next (u.modClock fun c => { c with vin48 := false }).loseInput := by
  subst hu
  rfl

theorem exec_vin48InputReconnect : exec (.vin48InputReconnect t) s = .next (u.modClock fun c => { c with vin48 := true }) := by
  subst hu
  rfl

theorem exec_powerLoss : exec (.powerLoss t) s = .next u.loseInput := by
  subst hu
  rfl

theorem exec_perstAssert_of_powered {held : Nat} {v w : State} (hheld : 100 * us ≤ held)
    (hv : v = u.modClock fun c => { c with perst := true }) (hbraked : v.phase ≠ .braked) (htripped : v.phase ≠ .tripped)
    (hpowered : v.powered48 = true)
    (hw : w = (v.flushCold.modDeep fun d => { d with loss := false }).modClock fun c =>
      { c with fault := false, rstCause := 1, perstCount := bump 16 c.perstCount 1 }) :
    exec (.perstAssert t held) s = .next { w with phase := .inReset } := by
  subst hw hv hu
  exact (if_neg (Nat.not_lt.mpr hheld)).trans ((if_neg hbraked).trans ((if_neg htripped).trans (if_pos hpowered)))

section
variable {v : State} (hv : v = u.modClock fun c => { c with perst := false })
include hv

theorem exec_perstDeassert_of_reset (hreset : v.phase = .inReset) (hpwrgd : v.clock.pwrgd = true) (hvin : v.clock.vin48 = true) :
    exec (.perstDeassert t) s = .next (v.mainSequence (v.clock.rstCause == 3)) := by
  subst hv hu
  exact (if_pos hreset).trans (if_pos ⟨hpwrgd, hvin⟩)

theorem exec_perstDeassert_of_no_reset (hreset : v.phase ≠ .inReset) : exec (.perstDeassert t) s = .next v.tryMain := by
  subst hv hu
  exact if_neg hreset

end

theorem exec_vaux33Loss_of_alive {v : State} (halive : u.phase ≠ .hubFailed)
    (hv : v = (if u.railsOn then u.loseMain else u).modClock fun c => { c with
      vaux := false, fault := false, thermtrip := false, rails := false, xa := .stopped, xb := .stopped, lostCore := false,
      inBrake := false, fastDead := false }) :
    exec (.vaux33Loss t) s = .next { v with phase := .off } := by
  subst hv hu
  exact if_neg halive

theorem exec_thermalTrip_of_hot {unit : Nat} {part : Part17} {temp : Int} {v : State} (hunit : unit < partUnits part)
    (hhot : tripAt part ≤ temp) (hpowered : u.powered48 = true)
    (hv : v = ((u.setTemp part unit temp).flushCold.modDeep fun d => { d with loss := false, bank := .charging }).modClock fun c =>
      { c with thermtrip := true, rails := false, rstCause := 3, trips := bump 16 c.trips 1 }) :
    exec (.thermalTrip t part unit temp) s = .next { v with phase := .tripped } := by
  subst hv hu
  have htaken : ¬ (partUnits part ≤ unit ∨ temp < tripAt part ∨ ¬ (s.at_ t).powered48 = true) := by
    simp only [not_or, not_not, not_le, not_lt]
    exact ⟨hunit, hhot, hpowered⟩
  exact if_neg htaken

/-! ### PLLs (R401) -/

section
variable {domain unit : Nat} {v : State} (hrun : u.phase = .booting ∨ u.phase = .running ∨ u.phase = .recovery)
  (hv : v = u.modClock fun c => { c with lockLoss := bump 16 c.lockLoss 1 })
include hrun hv

/-- A lost lock is counted, and then handled by its domain: the core brakes, an engine loses its lanes, a die runs its pieces again
and fails at the third loss in a second. -/
theorem execPllLockLoss_of_domain (hdomain : domain < 6) (hdie : domain = 3 ∨ domain = 4 → unit < 4) (hengine : domain = 5 → unit < 6) :
    execPllLockLoss t domain unit s =
      if domain < 3 then .next (v.brake.modClock fun c => { c with lostCore := true })
      else if domain = 5 then .next ((v.lanesDown unit).noteVitals u)
      else
        let recent := (unit, v.now) :: v.clock.lossAt.filter fun x => v.now < x.2 + sec
        let w := (v.modClock fun c => { c with
          lossAt := recent, stopped := (domain, unit) :: c.stopped.filter (· ≠ (domain, unit)) }).rerunDie unit
        .next (if 3 ≤ (recent.filter fun x => x.1 = unit).length then (w.dieDown unit).noteVitals u else w) := by
  subst hv hu
  have htaken : ¬ (¬ ((s.at_ t).phase = .booting ∨ (s.at_ t).phase = .running ∨ (s.at_ t).phase = .recovery) ∨ 6 ≤ domain ∨
      ((domain = 3 ∨ domain = 4) ∧ 4 ≤ unit) ∨ (domain = 5 ∧ 6 ≤ unit)) := by
    rintro (hstill | hbad)
    · exact hstill hrun
    · omega
  exact if_neg htaken

theorem exec_pllLockLoss_core (hcore : domain < 3) :
    exec (.pllLockLoss t domain unit) s = .next (v.brake.modClock fun c => { c with lostCore := true }) :=
  (execPllLockLoss_of_domain hu hrun hv (by omega) (by omega) (by omega)).trans (if_pos hcore)

theorem exec_pllLockLoss_engine (hengine : domain = 5) (hunit : unit < 6) :
    exec (.pllLockLoss t domain unit) s = .next ((v.lanesDown unit).noteVitals u) :=
  (execPllLockLoss_of_domain hu hrun hv (by omega) (by omega) (by omega)).trans ((if_neg (by omega)).trans (if_pos hengine))

theorem exec_pllLockLoss_die {recent : List (Nat × Nat)} {w : State} (hdie : domain = 3 ∨ domain = 4) (hunit : unit < 4)
    (hrecent : recent = (unit, v.now) :: v.clock.lossAt.filter fun x => v.now < x.2 + sec)
    (hw : w = (v.modClock fun c => { c with
      lossAt := recent, stopped := (domain, unit) :: c.stopped.filter (· ≠ (domain, unit)) }).rerunDie unit) :
    exec (.pllLockLoss t domain unit) s =
      .next (if 3 ≤ (recent.filter fun x => x.1 = unit).length then (w.dieDown unit).noteVitals u else w) := by
  subst hw hrecent
  exact (execPllLockLoss_of_domain hu hrun hv (by omega) (by omega) (by omega)).trans
    ((if_neg (by omega)).trans (if_neg (by omega)))

end

section
variable {domain : Nat} {v : State} (unit : Nat)

theorem exec_pllRelock_core (hcore : domain < 3) (hbraked : u.phase = .braked) (hlost : u.clock.lostCore = true)
    (hv : v = u.modClock fun c => { c with lostCore := false }) : exec (.pllRelock t domain unit) s =
      .next (if v.crystal v.clock.source = .qualified ∧ ¬ v.clock.fastDead then v.releaseBrake else v) := by
  subst hv hu
  exact (if_pos hcore).trans (if_pos ⟨hbraked, hlost⟩)

theorem exec_pllRelock_die (hdie : 3 ≤ domain)
    (hv : v = u.modClock fun c => { c with stopped := c.stopped.filter (· ≠ (domain, unit)) }) :
    exec (.pllRelock t domain unit) s = .next (v.placeWaiting.retryReads fun r => r.why == .tierMove) := by
  subst hv hu
  exact if_neg (Nat.not_lt.mpr hdie)

end

/-! ### Clock gating (R402) -/

section
variable {kind unit : Nat}

section
variable (hup : u.up = true) (hmay : u.mayGate kind unit = true) (hgated : (kind, unit) ∉ u.clock.gated)
include hup hmay hgated

/-- A block that may be gated and is not yet is gated when idle, and asked for its idle report otherwise. -/
theorem execClockGateRequest_of_ungated : execClockGateRequest t kind unit s =
    if u.blockIdle kind unit then .next (u.modClock fun c => { c with
      asked := u.clock.asked.filter fun x => ¬ (x.1 = kind ∧ x.2.1 = unit), gated := c.gated ++ [(kind, unit)] })
    else .next (u.modClock fun c => { c with
      asked := (u.clock.asked.filter fun x => ¬ (x.1 = kind ∧ x.2.1 = unit)) ++ [(kind, unit, u.now)] }) := by
  subst hu
  have htaken : ¬ (¬ (s.at_ t).up = true ∨ ¬ (s.at_ t).mayGate kind unit = true ∨
      (s.at_ t).clock.gated.contains (kind, unit) = true) := by
    simp only [not_or, not_not, List.contains_iff_mem]
    exact ⟨hup, hmay, hgated⟩
  exact if_neg htaken

theorem exec_clockGateRequest_of_idle (hidle : u.blockIdle kind unit = true) :
    exec (.clockGateRequest t kind unit) s = .next (u.modClock fun c => { c with
      asked := u.clock.asked.filter fun x => ¬ (x.1 = kind ∧ x.2.1 = unit), gated := c.gated ++ [(kind, unit)] }) :=
  (execClockGateRequest_of_ungated hu hup hmay hgated).trans (if_pos hidle)

theorem exec_clockGateRequest_of_busy (hbusy : u.blockIdle kind unit = false) :
    exec (.clockGateRequest t kind unit) s = .next (u.modClock fun c => { c with
      asked := (u.clock.asked.filter fun x => ¬ (x.1 = kind ∧ x.2.1 = unit)) ++ [(kind, unit, u.now)] }) :=
  (execClockGateRequest_of_ungated hu hup hmay hgated).trans (if_neg (ne_true_of_eq_false hbusy))

end

theorem exec_gateHandshakeTimeout_of_due {since : Nat} (hasked : (kind, unit, since) ∈ u.clock.asked) (hdue : since + 2276 ≤ u.now) :
    exec (.gateHandshakeTimeout t kind unit) s = .next (u.modClock fun c => { c with
      asked := c.asked.filter fun x => ¬ (x.1 = kind ∧ x.2.1 = unit), gateMiss := bump 32 c.gateMiss 1 }) := by
  have hany : (u.clock.asked.any fun x => x.1 == kind && x.2.1 == unit && decide (x.2.2 + 2276 ≤ u.now)) = true :=
    List.any_eq_true.mpr ⟨_, hasked, by simp only [beq_self_eq_true, Bool.true_and, decide_eq_true hdue]⟩
  subst hu
  exact if_pos hany

theorem exec_clockGateWake :
    exec (.clockGateWake t kind unit) s = .next (u.modClock fun c => { c with gated := c.gated.filter (· ≠ (kind, unit)) }) := by
  subst hu
  rfl

end

end

end Sys2Proof.Machine

open Sys2Proof.Machine

/-- Settles O36: each clause is the lemma of its event. -/
theorem clocksComplete : Obligations.ClocksComplete := by
  unfold Obligations.ClocksComplete
  refine ⟨?powerOn, ?osc, ?qualified, ?timeout, ?trip, ?oscFail, ?input, ?reset, ?release, ?auxLoss, ?heat, ?lockLoss, ?relock, ?gate,
    ?handshake, ?wake⟩
  case powerOn =>
    intro t s u v hu hoff hv
    exact exec_vaux33PowerOn_of_off hu hoff hv
  case osc =>
    intro t xdly s u v hu hosc hv
    exact exec_fastOscQualified_of_osc hu hosc hv
  case qualified =>
    intro t crystal s u v w hu hcrystal hstarting hosc hdue hv hw
    exact ⟨exec_crystalQualified_of_clocked hu hcrystal hstarting hosc hdue hv,
      exec_crystalQualified_of_waiting hu hcrystal hstarting hosc hdue hv hw⟩
  case timeout =>
    intro t crystal s u v hu hcrystal hstarting hdue hv
    exact exec_crystalQualTimeout_of_due hu hcrystal hstarting hdue hv
  case trip =>
    intro t crystal s u v hu hcrystal hqualified hv
    exact ⟨exec_crystalTrip_of_unused hu hcrystal hqualified hv, exec_crystalTrip_of_other hu hcrystal hqualified hv,
      exec_crystalTrip_of_last hu hcrystal hqualified hv⟩
  case oscFail =>
    intro t s u hu hon halive
    exact exec_fastOscFail_of_powered hu hon halive
  case input =>
    intro t s u hu
    exact ⟨exec_pwrgdAssert_of_low hu, exec_pwrgdDeassert hu, exec_vin48Overvoltage hu, exec_vin48InputReconnect hu, exec_powerLoss hu⟩
  case reset =>
    intro t held s u v hu hheld hv hbraked htripped hpowered w hw
    exact exec_perstAssert_of_powered hu hheld hv hbraked htripped hpowered hw
  case release =>
    intro t s u hu
    exact ⟨exec_perstDeassert_of_reset rfl hu, exec_perstDeassert_of_no_reset rfl hu⟩
  case auxLoss =>
    intro t s u v hu halive hv
    exact exec_vaux33Loss_of_alive hu halive hv
  case heat =>
    intro t unit part temp s u v hu hunit hhot hpowered hv
    exact exec_thermalTrip_of_hot hu hunit hhot hpowered hv
  case lockLoss =>
    intro t domain unit s u v hu hrun hv
    refine ⟨?core, ?engine, ?die⟩
    case core => exact exec_pllLockLoss_core hu hrun hv
    case engine => exact exec_pllLockLoss_engine hu hrun hv
    case die =>
      intro hdie hunit recent w hrecent hw
      exact exec_pllLockLoss_die hu hrun hv hdie hunit hrecent hw
  case relock =>
    intro t domain unit s u v hu
    exact ⟨exec_pllRelock_core hu unit, exec_pllRelock_die hu unit⟩
  case gate =>
    intro t kind unit s u hu hup hmay hgated
    exact ⟨exec_clockGateRequest_of_idle hu hup hmay hgated, exec_clockGateRequest_of_busy hu hup hmay hgated⟩
  case handshake =>
    intro t kind unit since s u hu hasked hdue
    exact exec_gateHandshakeTimeout_of_due hu hasked hdue
  case wake =>
    intro t kind unit s
    exact exec_clockGateWake rfl

end

section
/-! PROOFS. Steps (O1, O2, O5), and the state before the first power-up (O4, O6). -/
namespace Sys2Proof.Machine

theorem step_cons {c : Instr} {rest : List Instr} {s : State} (h : s.pending = c :: rest) :
    step s = exec c { s with pending := rest } := by
  rw [step, h]

theorem step_nil {s : State} (h : s.pending = []) : step s = .next s := by
  rw [step, h]

/-! ### Every command answers a next state -/

/-- The outcome is a next state. -/
def Answers (r : Res) : Prop := ∃ t : State, r = .next t
theorem Answers.next {t : State} : Answers (.next t) := ⟨t, rfl⟩
theorem Answers.ite {c : Prop} [Decidable c] {a b : Res} (ha : Answers a) (hb : Answers b) : Answers (if c then a else b) := by
  split
  · exact ha
  · exact hb
/-- The events named first ask what their tables hold; every other command is carried out under guards alone. -/
theorem exec_answers (i : Instr) (s : State) : Answers (exec i s) := by
  cases i
  case cxlMemRead | cxlMemWrite | sackEntryRebuild | mergeIdleFlush | encoderWriteDone | governorStep | governorRetreat | thermalStep |
    remirror | extentDiscard | promotionComplete | writebackComplete | demandReadTimeout | channelHalt | bolterBuildComplete |
    pieceStart | pieceEnd | stoneReadRequest | hopperLineDeliver | stoneTake | checkpointWatchdog | accumulatorLimit |
    codeFetchTrap | preemptCheckpoint | dressingUnloadDrained | gateParamWrite | gateResultRead | gateHoldExpire |
    prefillWritesDone | publishCommit | resultCheckComplete | replayComplete | forwardExtendTimer | capacityRiseTimeout |
    retrainSlot | garbageCollect | wearLevelMove | deepPageRead | slotProgramDone | dieRebuildComplete | nearScrub | sramScrub |
    digestStart | digestComplete | ledgerCommit | ledgerCoalesceEnd | appendLedgerNote | portTrainingAdvance | portTrainingTimeout
    | portExitToActive | provisionalTimeout | pwrPendingResend | forwardTimeout | birsp | bisnpTimeout | badLdId | dmaCompletion |
    dmaCompletionTimeout | backgroundCommandComplete | debugNonceExpire | sliceGapTimeout | sliceDeferralExpire |
    stoneStepChangeComplete =>
    dsimp only [exec, execCxlMemRead, execCxlMemWrite, execSackEntryRebuild, execMergeIdleFlush, execEncoderWriteDone, execGovernorStep,
      execGovernorRetreat, execThermalStep, execRemirror, execExtentDiscard, execPromotionComplete, execWritebackComplete,
      execDemandReadTimeout, execChannelHalt, execBolterBuildComplete, execPieceStart, execPieceEnd, execStoneReadRequest,
      execHopperLineDeliver, execStoneTake, execCheckpointWatchdog, execAccumulatorLimit, execCodeFetchTrap,
      execPreemptCheckpoint, execDressingUnloadDrained, execGateParamWrite, execGateResultRead, execGateHoldExpire,
      execPrefillWritesDone, execPublishCommit, execResultCheckComplete, execReplayComplete, execForwardExtendTimer,
      execCapacityRiseTimeout, execRetrainSlot, execGarbageCollect, execWearLevelMove, execDeepPageRead, execSlotProgramDone,
      execDieRebuildComplete, execNearScrub, execSramScrub, execDigestStart, execDigestComplete, execLedgerCommit,
      execLedgerCoalesceEnd, execAppendLedgerNote, execPortTrainingAdvance, execPortTrainingTimeout, execPortExitToActive,
      execProvisionalTimeout, execPwrPendingResend, execForwardTimeout, execBirsp, execBisnpTimeout, execBadLdId,
      execDmaCompletion, execDmaCompletionTimeout, execBackgroundCommandComplete, execDebugNonceExpire, execSliceGapTimeout,
      execSliceDeferralExpire, execStoneStepChangeComplete]
    repeat' split
    all_goals exact Answers.next
  all_goals repeat' refine Answers.ite ?_ ?_
  all_goals exact Answers.next
end Sys2Proof.Machine

open Sys2Proof.Machine

/-- Settles O1: the two branches of a step. -/
theorem stepRunsFront : Obligations.StepRunsFront := ⟨fun _ _ _ => step_cons, fun _ => step_nil⟩

/-- Settles O2: the step is the front command's, and every command is a safe step. -/
theorem stepsAreSafe : Obligations.StepsAreSafe := by
  intro c rest s t hqueue hstep
  exact exec_safe ((step_cons hqueue).symm.trans hstep)

/-- Settles O5: an idle step answers the state itself, any other what its command answers. -/
theorem everyStepAnswers : Obligations.EveryStepAnswers := by
  intro s
  cases hqueue : s.pending with
  | nil => exact ⟨s, step_nil hqueue⟩
  | cons c rest =>
    obtain ⟨t, hexec⟩ := exec_answers c { s with pending := rest }
    exact ⟨t, (step_cons hqueue).trans hexec⟩

/-- Settles O4: the tables of the state before power-up list nothing, so every place reads as its default. -/
theorem resetState : Obligations.ResetState := by
  unfold Obligations.ResetState
  refine ⟨by decide, rfl, rfl, rfl, ?lds, rfl, ?wheels, ?sacks, ?slots, ?ports, ?guarantees, ?shares, rfl, rfl, rfl⟩
  case lds => decide
  case wheels => exact fun _ => rfl
  case sacks => exact fun _ => rfl
  case slots => exact fun _ => rfl
  case ports => exact fun _ => rfl
  case guarantees => exact fun _ _ => rfl
  case shares => exact fun _ => rfl

/-- Settles O6: each item of R431's list is read off the state before power-up. -/
theorem factoryState : Obligations.FactoryState := by
  unfold Obligations.FactoryState
  refine ⟨rfl, rfl, rfl, rfl, ?lds, rfl, rfl, rfl, rfl, ?ledger, rfl, rfl, rfl⟩
  case lds => decide
  case ledger => decide

end

section
/-! PROOFS. The SECDED code (O39): it is linear, its 72 columns are distinct and of odd weight, and Table 11.2 decodes them. -/
namespace Sys2Proof.Machine

/-! ### Linearity (R266) -/

/-- Bit `j` of a column sum is the parity of the set bits of `v` whose column has bit `j`. -/
theorem testBit_columnsXor (cs : List Nat) (v j : Nat) : (columnsXor cs v).testBit j =
    decide (((List.range cs.length).filter fun i => v.testBit i && (cs.getD i 0).testBit j).length % 2 = 1) := by
  rw [← List.countP_eq_length_filter]
  induction cs generalizing v with
  | nil => simp [columnsXor]
  | cons c cs ih =>
    have hhead : (if v % 2 = 1 then c else 0).testBit j = (v.testBit 0 && c.testBit j) := by
      by_cases hv : v % 2 = 1 <;> simp [hv]
    have hcount : (List.range (c :: cs).length).countP (fun i => v.testBit i && ((c :: cs).getD i 0).testBit j) =
        (List.range cs.length).countP (fun i => (v / 2).testBit i && (cs.getD i 0).testBit j) +
          if v.testBit 0 && c.testBit j then 1 else 0 := by
      rw [List.length_cons, List.range_succ_eq_map, List.countP_cons, List.countP_map]
      simp [Function.comp_def, Nat.testBit_add_one]
    rw [columnsXor, Nat.xor_eq, Nat.testBit_xor, hhead, ih, hcount]
    generalize (v.testBit 0 && c.testBit j) = b, List.countP _ (List.range cs.length) = n
    rcases Nat.mod_two_eq_zero_or_one n with hn | hn <;> cases b <;> simp [Nat.add_mod, hn]

theorem columnsXor_xor (cs : List Nat) (v w : Nat) : columnsXor cs (v ^^^ w) = columnsXor cs v ^^^ columnsXor cs w := by
  induction cs generalizing v w with
  | nil => simp [columnsXor]
  | cons c cs ih =>
    have hhead : (if (v ^^^ w) % 2 = 1 then c else 0) = (if v % 2 = 1 then c else 0) ^^^ (if w % 2 = 1 then c else 0) := by
      rcases Nat.mod_two_eq_zero_or_one v with hv | hv <;> rcases Nat.mod_two_eq_zero_or_one w with hw | hw <;>
        simp [Nat.add_mod, hv, hw]
    simp only [columnsXor, Nat.xor_eq, Nat.xor_div_two, ih, hhead]
    ac_rfl

theorem syndromeOf_xor (p q : Nat) : syndromeOf (p ^^^ q) = syndromeOf p ^^^ syndromeOf q := by
  have hcheck : (256 : Nat) = 2 ^ 8 := rfl
  simp only [syndromeOf, checkByte, Nat.xor_eq, Nat.xor_div_two_pow, hcheck, Nat.xor_mod_two_pow, columnsXor_xor]
  ac_rfl

theorem two_pow_add_eq_xor {i j : Nat} (h : i < j) : 2 ^ i + 2 ^ j = 2 ^ i ^^^ 2 ^ j := by
  have hor : 2 ^ j * 1 + 2 ^ i = 2 ^ j * 1 ||| 2 ^ i := Nat.two_pow_add_eq_or_of_lt (Nat.pow_lt_pow_right (by decide) h) 1
  rw [Nat.add_comm, ← Nat.mul_one (2 ^ j), hor, Nat.mul_one]
  apply Nat.eq_of_testBit_eq
  intro k
  by_cases hi : i = k
  · simp [hi, (hi ▸ h).ne']
  · simp [Nat.testBit_two_pow, hi]

/-! ### Weights and outcomes (Table 11.2) -/

theorem popc_xor_parity (w a b : Nat) : popc w (a ^^^ b) % 2 = (popc w a + popc w b) % 2 := by
  induction w generalizing a b with
  | zero => rfl
  | succ w ih =>
    have hbit : (a ^^^ b) % 2 = (a + b) % 2 := Nat.xor_mod_two_eq
    have htail := ih (a / 2) (b / 2)
    rw [← Nat.xor_div_two] at htail
    simp only [popc]
    omega

/-- A syndrome that is neither a check bit's nor a data bit's column. -/
theorem eccOutcome_of_no_column {syn : Nat} (hne : syn ≠ 0) (hweight : popc 8 syn ≠ 1) (hcol : syn ∉ hColumns) :
    eccOutcome syn = .uncorrectable := by
  have hfind : hColumns.findIdx? (· == syn) = none := by
    rw [List.findIdx?_eq_none_iff]
    exact fun c hc => beq_eq_false_iff_ne.mpr fun he => hcol (he ▸ hc)
  rw [eccOutcome, if_neg hne, if_neg hweight, hfind]

theorem popc_of_mem_hColumns : ∀ c ∈ hColumns, popc 8 c % 2 = 1 := by decide

theorem eccOutcome_of_even {syn : Nat} (hne : syn ≠ 0) (heven : popc 8 syn % 2 = 0) : eccOutcome syn = .uncorrectable :=
  eccOutcome_of_no_column hne (fun h => by omega) fun hc => by have := popc_of_mem_hColumns syn hc; omega

/-! ### The 72 bits of a codeword -/

/-- The column of a codeword bit (R266). -/
def codeColumn (i : Nat) : Nat := if i < 64 then hColumns.getD i 0 else 2 ^ (i - 64)

theorem syndromeOf_two_pow : ∀ i < 72, syndromeOf (2 ^ i) = codeColumn i := by decide +kernel

theorem eccOutcome_codeColumn : ∀ i < 72, eccOutcome (codeColumn i) = .corrected i := by decide +kernel

theorem popc_codeColumn : ∀ i < 72, popc 8 (codeColumn i) % 2 = 1 := by decide +kernel

theorem eccData_of_single (v : Nat) {i : Nat} (hi : i < 72) : eccData v (2 ^ i) = some v := by
  rw [eccData, syndromeOf_two_pow i hi, eccOutcome_codeColumn i hi]
  simp only [Nat.xor_eq]
  by_cases hdata : i < 64
  · rw [if_pos hdata, Nat.mod_eq_of_lt (Nat.pow_lt_pow_right (by decide) hdata), Nat.xor_assoc, Nat.xor_self, Nat.xor_zero]
  · rw [if_neg hdata, Nat.mod_eq_zero_of_dvd (Nat.pow_dvd_pow 2 (Nat.not_lt.mp hdata)), Nat.xor_zero, Nat.xor_zero]

/-- The syndrome of two errors is the sum of two distinct columns of odd weight: not zero, and of even weight. -/
theorem eccOutcome_of_double {i j : Nat} (hij : i < j) (hj : j < 72) : eccOutcome (syndromeOf (2 ^ i + 2 ^ j)) = .uncorrectable := by
  have hi : i < 72 := hij.trans hj
  rw [two_pow_add_eq_xor hij, syndromeOf_xor, syndromeOf_two_pow i hi, syndromeOf_two_pow j hj]
  apply eccOutcome_of_even
  · intro hzero
    have hsame : codeColumn i = codeColumn j := Nat.xor_eq_zero_iff.mp hzero
    have hbit := eccOutcome_codeColumn i hi
    rw [hsame, eccOutcome_codeColumn j hj] at hbit
    exact hij.ne' (Ecc.corrected.inj hbit)
  · have hodd := popc_codeColumn i hi
    have hodd' := popc_codeColumn j hj
    rw [popc_xor_parity]
    omega

end Sys2Proof.Machine

open Sys2Proof.Machine

/-- Settles O39: `testBit_columnsXor` is R266, and the errors are decoded through the columns of the codeword's bits. -/
theorem codewordsCorrectSingles : Obligations.CodewordsCorrectSingles := by
  unfold Obligations.CodewordsCorrectSingles
  refine ⟨rfl, by decide +kernel, ?check, rfl, ?checkBits, ?dataBits, ?even, ?odd, ?single, ?double⟩
  case check =>
    intro v j _
    rw [checkByte, testBit_columnsXor, decide_eq_true_iff]
    rfl
  case checkBits =>
    intro j hj
    have h := eccOutcome_codeColumn (64 + j) (by omega)
    rwa [codeColumn, if_neg (by omega), Nat.add_sub_cancel_left] at h
  case dataBits =>
    intro i hi
    have h := eccOutcome_codeColumn i (by omega)
    rwa [codeColumn, if_pos hi] at h
  case even =>
    intro syn _ hne heven
    exact eccOutcome_of_even hne heven
  case odd =>
    intro syn _ hweight hcol
    refine eccOutcome_of_no_column ?_ (by omega) hcol
    rintro rfl
    exact absurd hweight (by decide)
  case single =>
    intro v i hi
    exact eccData_of_single v hi
  case double =>
    intro v i j hij hj
    rw [eccData, eccOutcome_of_double hij hj]

end

section
/-! PROOFS. The lanes that a port uses (O47). -/
namespace Sys2Proof.Machine

/-- The members of a rising list are searched from the lowest. -/
theorem find?_eq_some_of_first {l : List Nat} {q : Nat → Bool} {p : Nat} (hrise : l.Pairwise (· < ·)) (hp : p ∈ l) (hq : q p = true)
    (hfirst : ∀ x ∈ l, x < p → q x = false) : l.find? q = some p := by
  obtain ⟨pre, post, rfl⟩ := List.append_of_mem hp
  have hbelow : ∀ x ∈ pre, x < p := fun x hx => (List.pairwise_append.mp hrise).2.2 x hx p List.mem_cons_self
  refine List.find?_eq_some_iff_append.mpr ⟨hq, pre, post, rfl, fun x hx => ?_⟩
  rw [hfirst x (List.mem_append_left _ hx) (hbelow x hx)]
  rfl

/-! ### The preference list (R315): x8, the two groups of x4, then the groups of x2 and of x1 from the lowest lane. -/

theorem pickGroup_eq (ok : Nat → Bool) : pickGroup ok =
    (([[0, 1, 2, 3, 4, 5, 6, 7], [0, 1, 2, 3], [4, 5, 6, 7]].find? fun g : List Nat => g.all ok).or
      ((([0, 2, 4, 6].find? fun p => ok p && ok (p + 1)).map fun p => [p, p + 1]).or
        (((List.range 8).find? ok).map fun n => [n]))).getD [] := by
  have hgroups : pickGroup ok = (([[0, 1, 2, 3, 4, 5, 6, 7], [0, 1, 2, 3], [4, 5, 6, 7]] ++
      ([0, 2, 4, 6].map (fun p => [p, p + 1]) ++ (List.range 8).map fun n => [n])).find? fun g : List Nat => g.all ok).getD [] := rfl
  rw [hgroups, List.find?_append, List.find?_append, List.find?_map, List.find?_map]
  simp [Function.comp_def]

section
variable {ok : Nat → Bool}

theorem pickGroup_of_eight (h : (List.range 8).all ok = true) : pickGroup ok = [0, 1, 2, 3, 4, 5, 6, 7] := by
  have hall : [0, 1, 2, 3, 4, 5, 6, 7].all ok = true := h
  rw [pickGroup_eq, List.find?_cons_of_pos (p := fun g : List Nat => g.all ok) hall]
  rfl

section
variable (h8 : (List.range 8).all ok = false)
include h8

theorem pickGroup_of_low_four (h : [0, 1, 2, 3].all ok = true) : pickGroup ok = [0, 1, 2, 3] := by
  have hall : ¬ [0, 1, 2, 3, 4, 5, 6, 7].all ok = true := ne_true_of_eq_false h8
  rw [pickGroup_eq, List.find?_cons_of_neg (p := fun g : List Nat => g.all ok) hall, List.find?_cons_of_pos (p := fun g : List Nat => g.all ok) h]
  rfl

variable (hlow : [0, 1, 2, 3].all ok = false)
include hlow

theorem pickGroup_of_high_four (h : [4, 5, 6, 7].all ok = true) : pickGroup ok = [4, 5, 6, 7] := by
  have hall : ¬ [0, 1, 2, 3, 4, 5, 6, 7].all ok = true := ne_true_of_eq_false h8
  rw [pickGroup_eq, List.find?_cons_of_neg (p := fun g : List Nat => g.all ok) hall, List.find?_cons_of_neg (p := fun g : List Nat => g.all ok) (ne_true_of_eq_false hlow), List.find?_cons_of_pos (p := fun g : List Nat => g.all ok) h]
  rfl

variable (hhigh : [4, 5, 6, 7].all ok = false)
include hhigh

/-- Where no group of four lanes is healthy, the groups of two and of one remain. -/
theorem pickGroup_of_no_four : pickGroup ok =
    ((([0, 2, 4, 6].find? fun p => ok p && ok (p + 1)).map fun p => [p, p + 1]).or (((List.range 8).find? ok).map fun n => [n])).getD [] := by
  have hall : ¬ [0, 1, 2, 3, 4, 5, 6, 7].all ok = true := ne_true_of_eq_false h8
  rw [pickGroup_eq, List.find?_cons_of_neg (p := fun g : List Nat => g.all ok) hall, List.find?_cons_of_neg (p := fun g : List Nat => g.all ok) (ne_true_of_eq_false hlow),
    List.find?_cons_of_neg (p := fun g : List Nat => g.all ok) (ne_true_of_eq_false hhigh)]
  rfl

theorem pickGroup_of_pair {p : Nat} (hp : p ∈ [0, 2, 4, 6]) (hok : (ok p && ok (p + 1)) = true)
    (hfirst : ∀ q ∈ [0, 2, 4, 6], q < p → (ok q && ok (q + 1)) = false) : pickGroup ok = [p, p + 1] := by
  rw [pickGroup_of_no_four h8 hlow hhigh,
    find?_eq_some_of_first (q := fun p => ok p && ok (p + 1)) (by decide) hp hok hfirst]
  rfl

section
variable (hpairs : ∀ q ∈ [0, 2, 4, 6], (ok q && ok (q + 1)) = false)
include hpairs

theorem pickGroup_of_no_pair : pickGroup ok = (((List.range 8).find? ok).map fun n => [n]).getD [] := by
  have hnone : ([0, 2, 4, 6].find? fun p => ok p && ok (p + 1)) = none :=
    List.find?_eq_none.mpr fun q hq => ne_true_of_eq_false (hpairs q hq)
  rw [pickGroup_of_no_four h8 hlow hhigh, hnone]
  rfl

theorem pickGroup_of_single {n : Nat} (hn : n < 8) (hok : ok n = true) (hfirst : ∀ m, m < n → ok m = false) : pickGroup ok = [n] := by
  rw [pickGroup_of_no_pair h8 hlow hhigh hpairs,
    find?_eq_some_of_first (by decide) (List.mem_range.mpr hn) hok fun m _ => hfirst m]
  rfl

theorem pickGroup_of_none (hfailed : ∀ n, n < 8 → ok n = false) : pickGroup ok = [] := by
  have hnone : (List.range 8).find? ok = none :=
    List.find?_eq_none.mpr fun n hn => ne_true_of_eq_false (hfailed n (List.mem_range.mp hn))
  rw [pickGroup_of_no_pair h8 hlow hhigh hpairs, hnone]
  rfl

end

end

end

theorem all_four {ok : Nat → Bool} (a b c d : Nat) : [a, b, c, d].all ok = (ok a && ok b && ok c && ok d) := by
  simp [Bool.and_assoc]

end Sys2Proof.Machine

open Sys2Proof.Machine

/-- Settles O47: the group is the first of the preference list, width by width. -/
theorem widestHealthyGroup : Obligations.WidestHealthyGroup := by
  unfold Obligations.WidestHealthyGroup
  intro s port ok hok
  have hgroup : s.healthyGroup port = pickGroup ok := congrArg pickGroup (funext fun n => (hok n).symm)
  simp only [hgroup, ← all_four]
  refine ⟨fun h => pickGroup_of_eight ?eight, fun h8 => ⟨pickGroup_of_low_four h8, pickGroup_of_high_four h8, fun hlow hhigh =>
    ⟨fun p hp hpair hfirst => pickGroup_of_pair h8 hlow hhigh hp hpair hfirst, fun hpairs =>
      ⟨fun n hn hn' hfirst => pickGroup_of_single h8 hlow hhigh hpairs hn hn' hfirst, pickGroup_of_none h8 hlow hhigh hpairs⟩⟩⟩⟩
  case eight => simpa [List.range_succ, and_assoc] using h

end

section
/-! PROOFS. The checks of a mailbox in their order (O49). -/
namespace Sys2Proof.Machine

section
variable {s : State} {h : MbHdr} {c : Cmd}

/-- The code of the first check that fails answers the command. -/
theorem State.mbRun_of_check {code : Rc} (body : MbBody) (hrings : s.rings h.src = true) (hcheck : s.mbCheck h c = some code) :
    s.mbRun h c body = s.answer h c code [] [] := by
  rw [State.mbRun, if_neg (not_not_intro hrings), hcheck]

theorem State.mbCheck_of_not_permitted (hp : s.permits h c = false) : s.mbCheck h c = some .unsupported := by
  rw [State.mbCheck, if_pos (ne_true_of_eq_false hp)]

section
variable (hp : s.permits h c = true)
include hp

theorem State.mbCheck_of_second_job (hbg : c.bg = true) (hjob : (s.job h.src).isSome = true) : s.mbCheck h c = some .busy := by
  rw [State.mbCheck, if_neg (not_not_intro hp), if_pos (.inr ⟨hbg, hjob⟩)]

variable (hopen : s.boot.openSeq = 0) (hfree : c.bg = false ∨ s.job h.src = none)
include hopen hfree

/-- A mailbox that is free for the command. -/
theorem State.mbCheck_of_free :
    s.mbCheck h c = if ¬ s.targetOk h c then some .invalidInput else if c.store ∧ s.near.rebuilding ≠ [] then some .retryRequired else none := by
  have hbusy : ¬ ((h.src < 16 ∧ s.boot.openSeq ≠ 0) ∨ (c.bg = true ∧ (s.job h.src).isSome = true)) := by
    rcases hfree with hbg | hjob
    · simp [hopen, hbg]
    · simp [hopen, hjob]
  rw [State.mbCheck, if_neg (not_not_intro hp), if_neg hbusy]

theorem State.mbCheck_of_bad_target (ht : s.targetOk h c = false) : s.mbCheck h c = some .invalidInput := by
  rw [State.mbCheck_of_free hp hopen hfree, if_pos (ne_true_of_eq_false ht)]

theorem State.mbCheck_of_rebuilding (ht : s.targetOk h c = true) (hstore : c.store = true) (hrebuild : s.near.rebuilding ≠ []) :
    s.mbCheck h c = some .retryRequired := by
  rw [State.mbCheck_of_free hp hopen hfree, if_neg (not_not_intro ht), if_pos ⟨hstore, hrebuild⟩]

end

end

end Sys2Proof.Machine

open Sys2Proof.Machine

/-- Settles O49: the answer is the first failing check's. -/
theorem mailboxChecksInOrder : Obligations.MailboxChecksInOrder := by
  unfold Obligations.MailboxChecksInOrder
  intro h c body s hrings
  refine ⟨fun hp => s.mbRun_of_check body hrings (State.mbCheck_of_not_permitted hp), fun hp hopen => ⟨?busy, ?target, ?rebuild⟩⟩
  case busy => exact fun hbg hjob => s.mbRun_of_check body hrings (State.mbCheck_of_second_job hp hbg hjob)
  case target => exact fun hfree ht => s.mbRun_of_check body hrings (State.mbCheck_of_bad_target hp hopen hfree ht)
  case rebuild =>
    exact fun hfree ht hstore hrebuild => s.mbRun_of_check body hrings (State.mbCheck_of_rebuilding hp hopen hfree ht hstore hrebuild)

end

section
/-! PROOFS. The newest image of a stored block (O59). -/
namespace Sys2Proof.Machine

theorem State.memWf_iff (s : State) : s.memWf = true ↔ s.store.sacks.wf = true ∧ s.store.t1.wf = true ∧ s.store.t2.wf = true := by
  simp [State.memWf, and_assoc]

/-- A block's newest image lies in T1, and the image written there is in T1. -/
theorem State.setCur_of_inT1 {s : State} {blk : Nat} (h : (s.sack (blk / 128)).inT1 (blk % 128) = true) (v : StoredBlk) :
    s.setCur blk v = { s with store := { s.store with t1 := s.store.t1.set blk v } } := if_pos h

theorem State.setCur_of_not_inT1 {s : State} {blk : Nat} (h : (s.sack (blk / 128)).inT1 (blk % 128) = false) (v : StoredBlk) :
    s.setCur blk v = { s with store := { s.store with t2 := s.store.t2.set blk v } } := if_neg (ne_true_of_eq_false h)

theorem State.curBlk_eq (s : State) (blk : Nat) :
    s.curBlk blk = if (s.sack (blk / 128)).inT1 (blk % 128) then s.store.t1.get blk else s.store.t2.get blk := rfl

section
variable (s : State) (blk : Nat) (v : StoredBlk)

theorem State.setCur_eq_store : ∃ store : StoreSt, s.setCur blk v = { s with store := store } := by
  cases h : (s.sack (blk / 128)).inT1 (blk % 128) with
  | true => exact ⟨_, State.setCur_of_inT1 h v⟩
  | false => exact ⟨_, State.setCur_of_not_inT1 h v⟩

@[simp] theorem State.setCur_sack (k : Nat) : (s.setCur blk v).sack k = s.sack k := by
  cases h : (s.sack (blk / 128)).inT1 (blk % 128) with
  | true => rw [State.setCur_of_inT1 h]; rfl
  | false => rw [State.setCur_of_not_inT1 h]; rfl

theorem State.setCur_curBlk_other {j : Nat} (hj : j ≠ blk) : (s.setCur blk v).curBlk j = s.curBlk j := by
  rw [State.curBlk_eq, State.setCur_sack, State.curBlk_eq]
  cases h : (s.sack (blk / 128)).inT1 (blk % 128) with
  | true => rw [State.setCur_of_inT1 h]; simp only [Tbl.get_set_other _ hj]
  | false => rw [State.setCur_of_not_inT1 h]; simp only [Tbl.get_set_other _ hj]

variable {s} (hwf : s.memWf = true)
include hwf

theorem State.setCur_curBlk_same : (s.setCur blk v).curBlk blk = v := by
  obtain ⟨-, ht1, ht2⟩ := s.memWf_iff.mp hwf
  rw [State.curBlk_eq, State.setCur_sack]
  cases h : (s.sack (blk / 128)).inT1 (blk % 128) with
  | true => rw [State.setCur_of_inT1 h]; exact Tbl.get_set_same ht1 blk v
  | false => rw [State.setCur_of_not_inT1 h]; exact Tbl.get_set_same ht2 blk v

theorem State.memWf_setCur : (s.setCur blk v).memWf = true := by
  obtain ⟨hsacks, ht1, ht2⟩ := s.memWf_iff.mp hwf
  cases h : (s.sack (blk / 128)).inT1 (blk % 128) with
  | true => rw [State.setCur_of_inT1 h]; exact (State.memWf_iff _).mpr ⟨hsacks, Tbl.wf_set ht1 blk v, ht2⟩
  | false => rw [State.setCur_of_not_inT1 h]; exact (State.memWf_iff _).mpr ⟨hsacks, ht1, Tbl.wf_set ht2 blk v⟩

end

end Sys2Proof.Machine

open Sys2Proof.Machine

/-- Settles O59: the image is written to the table that holds the block's newest copy, and no map entry tells otherwise after. -/
theorem blockImagesReadBack : Obligations.BlockImagesReadBack := by
  unfold Obligations.BlockImagesReadBack
  intro s blk v hwf
  exact ⟨State.setCur_curBlk_same blk v hwf, fun j => s.setCur_curBlk_other blk v, s.setCur_sack blk v, State.memWf_setCur blk v hwf,
    s.setCur_eq_store blk v⟩

end

section
/-! PROOFS. Bad peer packets (O44). -/
namespace Sys2Proof.Machine

/-- Table 13.5: the types and their LINES values. -/
theorem linesOk_iff (ptype lines : Nat) : linesOk ptype lines = true ↔
    (ptype = 1 ∧ 1 ≤ lines ∧ lines ≤ 16) ∨ ((ptype = 2 ∨ ptype = 5) ∧ lines = 0) ∨ ((ptype = 3 ∨ ptype = 4) ∧ lines = 1) := by
  match ptype with
  | 0 => simp [linesOk]
  | 1 => simp [linesOk]
  | 2 => simp [linesOk]
  | 3 => simp [linesOk]
  | 4 => simp [linesOk]
  | 5 => simp [linesOk]
  | n + 6 => simp [linesOk]

theorem peerBad_eq_false_iff (p : PeerHdr) : peerBad p = false ↔ p.resv = 0 ∧ p.window < 64 ∧ linesOk p.ptype p.lines = true := by
  simp only [peerBad, Bool.or_eq_false_iff, bne_eq_false_iff_eq, Bool.not_eq_false', decide_eq_false_iff_not, Nat.not_le, and_assoc]
  exact and_congr_right fun _ => and_comm

theorem exec_peerBadMessage_of_bad {p : PeerHdr} {s : State} (hport : p.port = 4 ∨ p.port = 5) (hcarries : s.carries p.port = true)
    (hbad : peerBad p = true) :
    exec (.peerBadMessage p) s = .next (s.modPorts fun q => { q with badmsg := bump 16 q.badmsg 1 }) := by
  show execPeerBadMessage p s = _
  rw [execPeerBadMessage, if_pos ⟨hport, hcarries, hbad⟩]
  rfl

theorem exec_psettleKindZero_of_heard {p : PeerHdr} {s u : State} (m : Settle) (hheard : s.heard p 3 u) :
    exec (.psettleKindZero p m) s = .next (u.modPorts fun q => { q with badmsg := bump 16 q.badmsg 1 }) := by
  show execPsettleKindZero p m s = _
  rw [execPsettleKindZero, State.onPeer_heard hheard]
  rfl

end Sys2Proof.Machine

open Sys2Proof.Machine

/-- Settles O44: the form of a header is Table 13.5's, and a bad one meets the counter alone. -/
theorem badPeerPacketsCounted : Obligations.BadPeerPacketsCounted := by
  unfold Obligations.BadPeerPacketsCounted
  refine ⟨fun p => ?form, fun p s hport hcarries hbad => exec_peerBadMessage_of_bad hport hcarries hbad,
    fun p m s u hheard => exec_psettleKindZero_of_heard m hheard⟩
  case form => rw [peerBad_eq_false_iff, linesOk_iff]

end

section
/-! PROOFS. Stored schedules (O55): the records of Table 3.4, and the image of Table 3.6. -/
namespace Sys2Proof.Machine

/-! ### Records (Table 3.4) -/

/-- An entry that obeys Table 3.4 on a wheel of `n` layers, in an LD of `dpaSize` granules. -/
structure SEntry.Legal (n dpaSize : Nat) (e : SEntry) : Prop where
  layer : e.layer < n
  lead : e.lead ≤ 16
  action : e.action ≤ 3
  die : e.die < 4
  anydie : e.anydie = true → e.die = 0
  pos : 1 ≤ e.count
  count : e.count ≤ 65536
  room : e.sack + e.count ≤ dpaSize * 4096

section
variable {n dpaSize : Nat} {e : SEntry} (hn : n ≤ 1024) (hdpa : dpaSize ≤ 2 ^ 18) (h : e.Legal n dpaSize)
include hn hdpa h

theorem entryNat_lt : entryNat e < 2 ^ (8 * 16) := by
  obtain ⟨hlayer, hlead, haction, hdie, -, hpos, hcount, hroom⟩ := h
  have hany := b2n_le_one e.anydie
  unfold entryNat
  omega

/-- A legal entry is read back from its record. -/
theorem entryOf_entryNat : entryOf (entryNat e) n dpaSize = some e.fresh := by
  obtain ⟨hlayer, hlead, haction, hdie, hanydie, hpos, hcount, hroom⟩ := h
  have hany := b2n_le_one e.anydie
  have rLayer : bitsOf (entryNat e) 9 0 = e.layer := by rw [bitsOf_eq_div_mod, entryNat]; omega
  have rLead : bitsOf (entryNat e) 14 10 = e.lead := by rw [bitsOf_eq_div_mod, entryNat]; omega
  have rAction : bitsOf (entryNat e) 18 16 = e.action := by rw [bitsOf_eq_div_mod, entryNat]; omega
  have rDie : bitsOf (entryNat e) 20 19 = e.die := by rw [bitsOf_eq_div_mod, entryNat]; omega
  have rAnydie : bitOf (entryNat e) 21 = e.anydie := bitOf_eq_of_div_mod (by rw [entryNat]; omega)
  have rSack : bitsOf (entryNat e) 93 64 = e.sack := by rw [bitsOf_eq_div_mod, entryNat]; omega
  have rCount : bitsOf (entryNat e) 111 96 + 1 = e.count := by rw [bitsOf_eq_div_mod, entryNat]; omega
  have zero15 : bitsOf (entryNat e) 15 15 = 0 := by rw [bitsOf_eq_div_mod, entryNat]; omega
  have zero22 : bitsOf (entryNat e) 63 22 = 0 := by rw [bitsOf_eq_div_mod, entryNat]; omega
  have zero94 : bitsOf (entryNat e) 95 94 = 0 := by rw [bitsOf_eq_div_mod, entryNat]; omega
  have zero112 : bitsOf (entryNat e) 127 112 = 0 := by rw [bitsOf_eq_div_mod, entryNat]; omega
  rw [entryOf, rLayer, rLead, rAction, rDie, rAnydie, rSack, rCount]
  exact if_pos ⟨zero15, zero22, zero94, zero112, hlayer, hlead, haction, hanydie, hroom⟩

end

/-- The records of a schedule, one behind the other. -/
def recordBytes (es : List SEntry) : Bytes := es.flatMap fun e => leBytes 16 (entryNat e)

theorem length_recordBytes (es : List SEntry) : (recordBytes es).length = 16 * es.length := by
  simp [recordBytes, List.length_flatMap, Nat.mul_comm]

theorem entriesOf_recordBytes {n dpaSize : Nat} (hn : n ≤ 1024) (hdpa : dpaSize ≤ 2 ^ 18) {es : List SEntry}
    (hes : ∀ e ∈ es, e.Legal n dpaSize) : entriesOf n dpaSize es.length (recordBytes es) = some (es.map SEntry.fresh) := by
  induction es with
  | nil => rfl
  | cons e es ih =>
    obtain ⟨he, hrest⟩ := List.forall_mem_cons.mp hes
    have hlen : (leBytes 16 (entryNat e)).length = 16 := length_leBytes ..
    have htake : (recordBytes (e :: es)).take 16 = leBytes 16 (entryNat e) := List.take_left' hlen
    have hdrop : (recordBytes (e :: es)).drop 16 = recordBytes es := List.drop_left' hlen
    rw [List.length_cons, entriesOf, htake, hdrop, leNat_leBytes (entryNat_lt hn hdpa he), entryOf_entryNat hn hdpa he, ih hrest]
    rfl

theorem layersRise_fresh (es : List SEntry) : layersRise (es.map SEntry.fresh) = layersRise es := by
  induction es with
  | nil => rfl
  | cons a es ih =>
    cases es with
    | nil => rfl
    | cons b es =>
      simp only [List.map_cons, layersRise] at ih ⊢
      rw [ih]
      rfl

/-! ### The image (Table 3.6) -/

theorem crcBits_lt (k : Nat) {c : Nat} (hc : c < 2 ^ 32) : crcBits k c < 2 ^ 32 := by
  induction k generalizing c with
  | zero => exact hc
  | succ k ih =>
    have hhalf : c / 2 < 2 ^ 32 := by omega
    rw [crcBits]
    split
    · exact ih (Nat.xor_lt_two_pow hhalf (by decide))
    · exact ih hhalf

theorem crc32_lt (bs : Bytes) : crc32 bs < 2 ^ 32 := by
  refine Nat.xor_lt_two_pow ?_ (by decide)
  induction bs using List.reverseRecOn with
  | nil => decide
  | append_singleton bs b ih =>
    rw [List.foldl_concat]
    exact crcBits_lt 8 (Nat.xor_lt_two_pow ih (b.isLt.trans (by decide)))

/-- The fields of a schedule image, its reserved bytes and its records among them. -/
def imageFields (sig n dlead : Nat) (es : List SEntry) : List Fld :=
  [⟨0, 4, 1⟩, ⟨4, 4, es.length⟩, ⟨8, 8, sig⟩, ⟨16, 2, n⟩, ⟨18, 2, dlead⟩, ⟨20, 4, crc32 (recordBytes es)⟩, ⟨24, 40, 0⟩,
    ⟨64, (recordBytes es).length, leNat (recordBytes es)⟩]

section
variable (sig n dlead : Nat) (es : List SEntry)

theorem consecutive_imageFields : Consecutive 0 (imageFields sig n dlead es) := by
  simp [Consecutive, imageFields]

theorem scheduleImage_eq : scheduleImage sig n dlead es = fieldBytes (imageFields sig n dlead es) := by
  have hhead := foldl_patch_append_zeros (xs := []) (fs := (imageFields sig n dlead es).take 6) 64 (by simp [Consecutive, imageFields])
  have hlayout : layout 64 ((imageFields sig n dlead es).take 6) = fieldBytes ((imageFields sig n dlead es).take 6) ++ zeros 40 := hhead
  have hbody : leBytes (recordBytes es).length (leNat (recordBytes es)) = recordBytes es := leBytes_leNat _
  calc scheduleImage sig n dlead es
    _ = layout 64 ((imageFields sig n dlead es).take 6) ++ recordBytes es := rfl
    _ = fieldBytes (imageFields sig n dlead es) := by
      rw [hlayout, ← leBytes_zero_right]
      simp [imageFields, hbody]

theorem length_scheduleImage : (scheduleImage sig n dlead es).length = 64 + 16 * es.length := by
  rw [scheduleImage_eq, length_fieldBytes]
  simp [imageFields, length_recordBytes]
  omega

theorem drop_scheduleImage : (scheduleImage sig n dlead es).drop 64 = recordBytes es := by
  have hlen := length_scheduleImage sig n dlead es
  have hbody : scheduleImage sig n dlead es = layout 64 ((imageFields sig n dlead es).take 6) ++ recordBytes es := rfl
  rw [hbody, List.length_append, length_recordBytes] at hlen
  rw [hbody]
  exact List.drop_left' (by omega)

/-- A field that fits its bytes is read back from the image. -/
theorem leAt_scheduleImage : ∀ f ∈ imageFields sig n dlead es, f.val < 2 ^ (8 * f.size) →
    leAt (scheduleImage sig n dlead es) f.off f.size = f.val := fun _ hf hfits =>
  scheduleImage_eq sig n dlead es ▸ leAt_fieldBytes (xs := []) (consecutive_imageFields sig n dlead es) hf hfits

end

/-- A schedule in layer order whose entries are legal is read back from its image. -/
theorem parseSchedule_scheduleImage {sig n dpaSize : Nat} (dlead : Nat) {es : List SEntry} (hsig : sig < 2 ^ 64) (hn : n ≤ 1024)
    (hmany : es.length ≤ 65536) (hrise : layersRise es = true) (hdpa : dpaSize ≤ 2 ^ 18) (hes : ∀ e ∈ es, e.Legal n dpaSize) :
    parseSchedule (scheduleImage sig n dlead es) sig n dpaSize = some (es.map SEntry.fresh) := by
  have hread := leAt_scheduleImage sig n dlead es
  simp only [imageFields, List.forall_mem_cons] at hread
  obtain ⟨rVersion, rCount, rSig, rLayers, -, rCrc, rZero, -⟩ := hread
  have hcrc := crc32_lt (recordBytes es)
  have hform : leAt (scheduleImage sig n dlead es) 0 4 = 1 ∧ leAt (scheduleImage sig n dlead es) 8 8 = sig ∧
      leAt (scheduleImage sig n dlead es) 16 2 = n ∧ leAt (scheduleImage sig n dlead es) 24 40 = 0 ∧
      (scheduleImage sig n dlead es).length = 64 + 16 * es.length ∧
      leAt (scheduleImage sig n dlead es) 20 4 = crc32 (recordBytes es) :=
    ⟨rVersion (by decide), rSig (by omega), rLayers (by omega), rZero (Nat.two_pow_pos _), length_scheduleImage .., rCrc (by omega)⟩
  rw [parseSchedule, drop_scheduleImage, rCount (by omega)]
  rw [if_pos hform, entriesOf_recordBytes hn hdpa hes]
  exact if_pos ((layersRise_fresh es).trans hrise)

/-- Each entry of a mapped list stands beside the entry it comes from. -/
theorem fst_eq_of_mem_zip_map {α β : Type} {f : α → β} {xs : List α} {p : β × α} (h : p ∈ (xs.map f).zip xs) : p.1 = f p.2 := by
  rw [List.zip_map_left, List.mem_map] at h
  obtain ⟨q, hq, rfl⟩ := h
  rw [List.zip_eq_zipWith, List.zipWith_self, List.mem_map] at hq
  obtain ⟨x, -, rfl⟩ := hq
  rfl

end Sys2Proof.Machine

open Sys2Proof.Machine

/-- Settles O55: the image gives back the entries as stored (`parseSchedule_scheduleImage`). -/
theorem schedulesReadBack : Obligations.SchedulesReadBack := by
  unfold Obligations.SchedulesReadBack
  intro sig n dlead dpaSize es hsig hn _ hmany hrise hdpa hes
  have hlegal : ∀ e ∈ es, e.Legal n dpaSize := fun e he => by
    obtain ⟨hlayer, hlead, haction, hdie, hanydie, hpos, hcount, hroom⟩ := hes e he
    exact ⟨hlayer, hlead, haction, hdie, hanydie, hpos, hcount, hroom⟩
  refine ⟨es.map SEntry.fresh, parseSchedule_scheduleImage dlead hsig hn hmany hrise hdpa hlegal, List.length_map .., fun p hp => ?_⟩
  rw [fst_eq_of_mem_zip_map hp]
  exact ⟨rfl, rfl, rfl, rfl, rfl, rfl, rfl⟩

end

section
/-! PROOFS. The commands that only report (O56). -/
namespace Sys2Proof.Machine

/-- Nothing but the mailboxes and what is sent differs. -/
def Reports (s t : State) : Prop := ∃ (mbox : MboxSt) (sent : List Out), t = { s with mbox := mbox, sent := sent }

theorem Reports.refl (s : State) : Reports s s := ⟨s.mbox, s.sent, rfl⟩

theorem Reports.trans {s t u : State} (h : Reports s t) (k : Reports t u) : Reports s u := by
  obtain ⟨_, _, rfl⟩ := h
  obtain ⟨mbox, sent, rfl⟩ := k
  exact ⟨mbox, sent, rfl⟩

theorem Reports.answer (s : State) (h : MbHdr) (c : Cmd) (code : Rc) (fields : List Fld) (blob : Bytes) :
    Reports s (s.answer h c code fields blob) := by
  rw [State.answer, State.countFail]
  split
  · exact ⟨_, _, rfl⟩
  · exact ⟨_, _, rfl⟩

/-- The rules of a command leave all but the mailboxes and what is sent. -/
def ReportsOk (s : State) (x : Except Rc MbOk) : Prop := ∀ r, x = .ok r → Reports s r.s

section
variable {s : State}

theorem ReportsOk.same {fields : List Fld} {blob : Bytes} : ReportsOk s (.ok { s := s, fields := fields, blob := blob }) := by
  rintro _ ⟨⟩
  exact Reports.refl s

theorem ReportsOk.mbox {m : MboxSt} {fields : List Fld} {blob : Bytes} :
    ReportsOk s (.ok { s := { s with mbox := m }, fields := fields, blob := blob }) := by
  rintro _ ⟨⟩
  exact ⟨m, s.sent, rfl⟩

theorem ReportsOk.error {code : Rc} : ReportsOk s (.error code) := by
  rintro _ ⟨⟩

theorem ReportsOk.ite {c : Prop} [Decidable c] {x y : Except Rc MbOk} (hx : ReportsOk s x) (hy : ReportsOk s y) :
    ReportsOk s (if c then x else y) := by
  split
  · exact hx
  · exact hy

/-- The outcome is a next state in which nothing but the mailboxes and what is sent differs. -/
def OnlyReports (s : State) (r : Res) : Prop := ∃ t, r = .next t ∧ Reports s t

section
variable {h : MbHdr} {c : Cmd}

theorem State.mbRun_reports {body : MbBody} (hb : ReportsOk s (body s)) : Reports s (s.mbRun h c body) := by
  obtain ⟨-, hrun⟩ | ⟨code, hrun, -⟩ | ⟨r, -, hok, hrun⟩ := s.mbRun_cases h c body
  · rw [hrun]; exact Reports.refl s
  · rw [hrun]; exact Reports.answer ..
  · rw [hrun, ← State.answer_success]; exact (hb r hok).trans (Reports.answer ..)

theorem OnlyReports.mbRun {body : MbBody} (hb : ReportsOk s (body s)) : OnlyReports s (.next (s.mbRun h c body)) :=
  ⟨_, rfl, State.mbRun_reports hb⟩

/-- An output request keeps a snapshot in its mailbox (R361). -/
theorem OnlyReports.mbSnap {o : OutReq} {recLen : Nat} {take : State → Except Rc (Bytes × List (List Fld))} :
    OnlyReports s (.next (s.mbSnap h c o recLen take)) := by
  refine OnlyReports.mbRun ?_
  dsimp only
  generalize (if o.first = 0 then take s else _ : Except Rc (Bytes × List (List Fld))) = fresh
  cases fresh with
  | error code => exact .error
  | ok out => exact .ite .mbox .mbox

end

/-! ### Commands whose answer depends on what they find -/

theorem execGetDressingInfo_reports (h : MbHdr) (handle : Nat) : OnlyReports s (execGetDressingInfo h handle s) := by
  refine OnlyReports.mbRun ?_
  dsimp only
  cases s.dressing handle with
  | some d => exact .ite .error .same
  | none => exact .ite .error (.ite .same .same)

theorem execGetSlotStatus_reports (h : MbHdr) (dpa : Nat) : OnlyReports s (execGetSlotStatus h dpa s) := by
  refine OnlyReports.mbRun ?_
  cases s.bufAt (whoOf h) dpa with
  | some b => exact .ite .same .error
  | none => exact .error

theorem execGetSequenceStatus_reports (h : MbHdr) (seq : Nat) : OnlyReports s (execGetSequenceStatus h seq s) := by
  refine OnlyReports.mbRun ?_
  cases s.seqOf h.src seq with
  | some q => exact .same
  | none => exact .error

theorem execGetDigest_reports (h : MbHdr) (range : Nat) : OnlyReports s (execGetDigest h range s) := by
  refine OnlyReports.mbRun ?_
  cases s.rangeOf (whoOf h) range with
  | some r => exact .same
  | none => exact .error

end

/-- The meaning of each command that reports is an answer under at most its own checks. -/
theorem exec_reports {i : Instr} (s : State) (hi : onlyAnswers i = true) : OnlyReports s (exec i s) := by
  cases i
  case getDressingInfo h handle => exact execGetDressingInfo_reports h handle
  case getSlotStatus h dpa => exact execGetSlotStatus_reports h dpa
  case getSequenceStatus h seq => exact execGetSequenceStatus_reports h seq
  case getDigest h range => exact execGetDigest_reports h range
  case exportSchedule | listBins | getCorrectableErrorTable | getUncorrectableErrorLog | getRetirementList | getResultErrorLog |
      getPartitionMap | getExtentDescriptors | getTestSchedule => exact OnlyReports.mbSnap
  case getStoneStatus | getUnitHealth | getTestContent | getModuleStatus | getUnitMap | getStagedRequestStatus | identifyMemoryDevice |
      getSupportedLogs | getEventInterruptPolicy | getFwInfo | getTimestamp | getHealthInfo | getDcdInfo | getLdInfo | getDebugState |
      getThermalStatus => exact OnlyReports.mbRun .same
  case getWheelStatus | getTableSetStatus | exportCodebook | getMaxLatency | getLedger | getPeerWindow | getRegionProfile | getLog |
      getEventRecords | getPoisonList | getDcConfiguration | getHostDcRegionConfig | getLdAllocations =>
    exact OnlyReports.mbRun (.ite .error .same)
  case getGranaryStatus | getWeirStatus => exact OnlyReports.mbRun (.ite .same .same)
  case clearEventRecords => exact OnlyReports.mbRun (.ite .error (.ite .error .mbox))
  case setEventInterruptPolicy => exact OnlyReports.mbRun (.ite .error .mbox)
  all_goals exact absurd hi Bool.false_ne_true

end Sys2Proof.Machine

open Sys2Proof.Machine

/-- Settles O56: the outcome of a command that reports is a state in which only the mailboxes and what is sent may differ. -/
theorem reportingFrame : Obligations.ReportingFrame := by
  unfold Obligations.ReportingFrame
  intro i s t hi hexec
  obtain ⟨u, hu, hreports⟩ := exec_reports s hi
  obtain rfl := Host.Outcome.next.inj (hu.symm.trans hexec)
  exact hreports

end

section
/-! PROOFS. Retirement (O25): its start leaves the time as it is, so that its job begins at the command's own. -/
namespace Sys2Proof.Machine

/-- Steps that each leave the time as it is. -/
theorem State.foldl_now {α : Type} {f : State → α → State} (hf : ∀ s a, (f s a).now = s.now) (as : List α) (s : State) :
    (as.foldl f s).now = s.now := by
  induction as generalizing s with
  | nil => rfl
  | cons a as ih => rw [List.foldl_cons, ih, hf]

/-! ### Giving up the copies on retired frames takes no time (R280, R281) -/

@[simp] theorem State.startPromo_now (s : State) (x : Xfer) (specW : Option Nat) (at_ : Nat × Nat × Bool) :
    (s.startPromo x specW at_).now = s.now := by
  unfold State.startPromo
  dsimp only
  split
  · rfl
  · rfl

@[simp] theorem State.tookTurn_now (s : State) (c r ld : Nat) : (s.tookTurn c r ld).now = s.now := rfl

theorem State.issueOne_now (s : State) (x : Xfer) : (s.issueOne x).now = s.now := by
  unfold State.issueOne
  split
  · rfl
  · split
    · rfl
    · split
      · split
        · rfl
        · split
          · rw [State.tookTurn_now, State.startPromo_now]
          · rfl
      · split
        · rfl
        · rfl

theorem State.issueAll_now (n : Nat) (s : State) (xs : List Xfer) : (s.issueAll xs n).now = s.now := by
  induction n generalizing s xs with
  | zero => rfl
  | succ n ih =>
    unfold State.issueAll
    split
    · rfl
    · rw [ih, State.issueOne_now]

@[simp] theorem State.endXfer_now (s : State) (sack : Nat) : (s.endXfer sack).now = s.now := State.issueAll_now ..

theorem State.undoSpec_now (s : State) (sack : Nat) : (s.undoSpec sack).now = s.now := by
  unfold State.undoSpec
  dsimp only
  split
  · exact State.endXfer_now ..
  · rfl

theorem State.addXfer_now (s : State) (x : Xfer) : (s.addXfer x).now = s.now := by
  unfold State.addXfer
  split
  · rfl
  · rfl

theorem State.evictSack_now (s : State) (sack : Nat) : (s.evictSack sack).now = s.now := by
  unfold State.evictSack
  dsimp only
  split
  · exact State.undoSpec_now ..
  · rfl
  · exact State.addXfer_now ..
  · rfl

@[simp] theorem State.clearRetired_now (s : State) (stack : Nat) : (s.clearRetired stack).now = s.now :=
  State.foldl_now State.evictSack_now ..

@[simp] theorem State.retireFrames_now (s : State) (stack : Nat) (fs : List Nat) : (s.retireFrames stack fs).now = s.now := by
  refine State.foldl_now (fun s f => ?_) fs s
  dsimp only
  split
  · rfl
  · generalize (if f < s.framesPerStack then some f else s.freeRun stack 1) = taken
    cases taken with
    | none => rfl
    | some g => rfl

theorem State.startRetire_now (s : State) (kind loc : Nat) : (s.startRetire kind loc).now = s.now := by
  match kind with
  | 0 => simp [State.startRetire]
  | 1 => exact State.clearRetired_now ..
  | _ + 2 => rfl

/-! ### The command (C096h) -/

theorem State.retireCmd_of_check {h : MbHdr} {kind loc : Nat} {s : State} (cmd : Instr)
    (ht : s.takes h { opcode := 0xC096, ld := false, fm := .module, len := [24], bg := true }) (hcheck : s.retireCheck kind loc = none) :
    s.retireCmd h kind loc cmd = (s.startRetire kind loc).begun h 0xC096 cmd := by
  rw [State.retireCmd, State.mbBg_takes (c := { opcode := 0xC096, ld := false, fm := .module, len := [24] }) ht
    (v := s.startRetire kind loc) (by rw [hcheck]) (s.startRetire_now kind loc)]

end Sys2Proof.Machine

open Sys2Proof.Machine

/-- Settles O25: the four kinds are one command under its checks. -/
theorem retiresComplete : Obligations.RetiresComplete := by
  unfold Obligations.RetiresComplete
  intro h loc s ht
  refine ⟨fun hcheck => ?row, fun hcheck => ?bank, fun hcheck => ?stack, fun hcheck => ?sack⟩
  all_goals exact congrArg Host.Outcome.next (State.retireCmd_of_check _ ht hcheck)

end

section
/-! PROOFS. Scrubbing, flip-masks and the error tables (O23). -/
namespace Sys2Proof.Machine

/-! ### Scrubbing (R269, R270, R272): `u` is the state at the instant that the event carries. -/

section
variable {t : Nat} {s u : State} (hu : u = s.at_ t) (hup : u.up = true)
include hu hup

theorem exec_nearScrub_of_near {blk word : Nat} (upset : Nat) {k : Sack} {e : Extent} {v : State} (hk : k = u.sack (blk / 128))
    (hmay : u.integ.behind = true ∨ u.anyGap = true) (hext : u.extOfSack (blk / 128) = some e) (hnear : k.near = true)
    (hidle : u.stackBusy k.stack = false) (hword : word < Prof.unit e.profile / 8)
    (hv : u.useLines k.stack (128 * k.frame + (blk % 128 * Prof.unit e.profile + 8 * word) / 64) 1 = v) :
    exec (.nearScrub t blk word upset false) s =
      .next (v.free.2.checkWords e blk (v.free.1 % 256) true [(word, Nat.xor (v.free.2.errOf blk word) upset)]) := by
  have hruns : ¬ (¬ u.up = true ∨ ¬ (u.integ.behind = true ∨ u.anyGap = true)) := not_or.mpr ⟨not_not_intro hup, not_not_intro hmay⟩
  have hread : k.near = true ∧ u.stackBusy k.stack = false ∧ word < Prof.unit e.profile / 8 := ⟨hnear, hidle, hword⟩
  subst hu hk hv
  show execNearScrub t blk word upset false s = _
  simp only [execNearScrub, if_neg hruns, if_neg Bool.false_ne_true, hext, if_pos hread]

theorem exec_nearScrubBehind_of_late (hlate : u.integ.passStart + (u.integ.nearPer + 1) * hourNs ≤ u.now) :
    exec (.nearScrubBehind t) s = .next (u.modInteg fun i => { i with behind := true }) := by
  subst hu
  exact if_pos ⟨hup, hlate⟩

section
variable {unit : Nat} (loc : Nat) {upset : Nat} (hunit : unit ≠ 0) (hunit' : unit ≤ 3)
include hunit hunit'

/-- A word of the SRAM of stones, dies or the hub meets the decoder. -/
theorem execSramScrub_of_unit : execSramScrub t unit loc upset s = .next (match eccOutcome (syndromeOf upset) with
    | .good => u
    | .corrected b => u.correct unit loc b true
    | .uncorrectable => u.free.2.sramLost unit loc (u.free.1 % 256)) := by
  have hruns : ¬ (¬ u.up = true ∨ unit = 0 ∨ 3 < unit) := by simp [hup, hunit, hunit']
  subst hu
  simp only [execSramScrub, if_neg hruns]
  cases eccOutcome (syndromeOf upset) <;> rfl

theorem exec_sramScrub_of_good (hsyn : eccOutcome (syndromeOf upset) = .good) : exec (.sramScrub t unit loc upset) s = .next u := by
  refine (execSramScrub_of_unit hu hup loc hunit hunit').trans ?_
  rw [hsyn]

theorem exec_sramScrub_of_corrected {b : Nat} (hsyn : eccOutcome (syndromeOf upset) = .corrected b) :
    exec (.sramScrub t unit loc upset) s = .next (u.correct unit loc b true) := by
  refine (execSramScrub_of_unit hu hup loc hunit hunit').trans ?_
  rw [hsyn]

theorem exec_sramScrub_of_uncorrectable (hsyn : eccOutcome (syndromeOf upset) = .uncorrectable) :
    exec (.sramScrub t unit loc upset) s = .next (u.free.2.sramLost unit loc (u.free.1 % 256)) := by
  refine (execSramScrub_of_unit hu hup loc hunit hunit').trans ?_
  rw [hsyn]

end

theorem exec_flipMaskExpire_of_due {ld : Nat} (harmed : (u.integ.lds.get ld).flip.state = .armed)
    (hdue : (u.integ.lds.get ld).flip.at_ + 10 * sec ≤ u.now) :
    exec (.flipMaskExpire t ld) s = .next (u.modIntegLd ld fun l => { l with flip := { l.flip with state := .expired } }) := by
  subst hu
  exact if_pos ⟨hup, harmed, hdue⟩

end

/-! ### Commands (R277 to R279, C090h, C092h to C095h, C097h, C098h) -/

section
variable {h : MbHdr} {s : State}

theorem exec_setScrubPeriod_of_valid {near sram : Nat} (ht : s.takes h { opcode := 0xC090, ld := false, fm := .module, len := [16] })
    (hnear : near ≠ 0) (hnear' : near ≤ 168) (hsram : sram ≠ 0) (hsram' : sram ≤ 60) :
    exec (.setScrubPeriod h near sram) s =
      .next ((s.modInteg fun i => { i with nearPer := near, sramPer := sram }).replied h 0xC090 [] []) := by
  have hvalid : ¬ (near = 0 ∨ 168 < near ∨ sram = 0 ∨ 60 < sram) := by omega
  show execSetScrubPeriod h near sram s = _
  rw [execSetScrubPeriod, State.mbRun_takes ht (if_neg hvalid)]

theorem exec_armFlipMaskNear_of_idle {dpa word mask : Nat} {e : Extent} (ht : s.takes h { opcode := 0xC092, ld := true, fm := .no, len := [41] })
    (hext : s.extAt h.src dpa = some e) (hactive : e.state = .active) (howner : e.isAlias = false) (hgate : Prof.gate e.profile = false)
    (hdpa : dpa % 512 = 0) (hword : word < Prof.unit e.profile / 8) (hmask : mask ≠ 0) (hmask' : mask < 2 ^ 72) (hbits : popc 72 mask ≤ 4)
    (hidle : (s.integ.lds.get h.src).flip.state ≠ .armed) :
    exec (.armFlipMaskNear h dpa word mask) s = .next ((s.modIntegLd h.src fun l => { l with flip :=
      { state := .armed, blk := s.blkOf e dpa, word := word, mask := mask, at_ := s.now } }).replied h 0xC092 [] []) := by
  have hvalid : ¬ (e.state ≠ .active ∨ e.isAlias = true ∨ Prof.gate e.profile = true ∨ dpa % 512 ≠ 0 ∨ Prof.unit e.profile / 8 ≤ word ∨
      mask = 0 ∨ 2 ^ 72 ≤ mask ∨ 4 < popc 72 mask) := by
    simp only [not_or, Nat.not_le, Nat.not_lt]
    exact ⟨not_not_intro hactive, ne_true_of_eq_false howner, ne_true_of_eq_false hgate, not_not_intro hdpa, hword, hmask, hmask', hbits⟩
  show execArmFlipMaskNear h dpa word mask s = _
  rw [execArmFlipMaskNear, State.mbRun_takes ht (by
    dsimp only
    rw [hext]
    exact (if_neg hvalid).trans (if_neg hidle))]

theorem exec_armFlipMaskStone_of_offline {stone bank word mask : Nat}
    (ht : s.takes h { opcode := 0xC092, ld := false, fm := .module, len := [41], bg := true }) (hstone : stone < 192)
    (hoffline : (s.stoneAt stone).state = .offline) (hbank : bank < 16) (hword : word < 32768) (hmask : mask < 2 ^ 72) :
    exec (.armFlipMaskStone h stone bank word mask) s = .next (s.begun h 0xC092 (.armFlipMaskStone h stone bank word mask)) := by
  have hvalid : ¬ (192 ≤ stone ∨ (s.stoneAt stone).state ≠ .offline ∨ 16 ≤ bank ∨ 32768 ≤ word ∨ 2 ^ 72 ≤ mask) := by
    simp only [not_or, Nat.not_le]
    exact ⟨hstone, not_not_intro hoffline, hbank, hword, hmask⟩
  show execArmFlipMaskStone h stone bank word mask s = _
  rw [execArmFlipMaskStone, State.mbBg_takes (c := { opcode := 0xC092, ld := false, fm := .module, len := [41] }) ht (if_neg hvalid) rfl]

theorem exec_disarmFlipMask_of_armed (ht : s.takes h { opcode := 0xC093, ld := true, fm := .no })
    (harmed : (s.integ.lds.get h.src).flip.state = .armed) :
    exec (.disarmFlipMask h) s =
      .next ((s.modIntegLd h.src fun l => { l with flip := { l.flip with state := .cancelled } }).replied h 0xC093 [] []) := by
  show execDisarmFlipMask h s = _
  rw [execDisarmFlipMask, State.mbRun_takes ht (if_neg (not_not_intro harmed))]

theorem exec_clearCorrectableErrorTable_of_takes (ht : s.takes h { opcode := 0xC098, ld := false, fm := .module }) :
    exec (.clearCorrectableErrorTable h) s = .next ((s.modInteg fun i => { i with ce := [] }).replied h 0xC098 [] []) := by
  show execClearCorrectableErrorTable h s = _
  rw [execClearCorrectableErrorTable, State.mbRun_takes ht rfl]

section
variable {o : OutReq} (hfirst : o.first = 0)
include hfirst

theorem exec_getCorrectableErrorTable_of_first (ht : s.takes h { opcode := 0xC094, ld := false, fm := .module, len := [16] }) :
    exec (.getCorrectableErrorTable h o) s = .next (s.repliedRecs h 0xC094 32 o (s.integ.ce.map CeEnt.fields)) := by
  show execGetCorrectableErrorTable h o s = _
  rw [execGetCorrectableErrorTable, State.mbSnap_recs ht hfirst (by decide) rfl]

theorem exec_getUncorrectableErrorLog_of_first (ht : s.takes h { opcode := 0xC095, ld := true, fm := .module, len := [16] }) :
    exec (.getUncorrectableErrorLog h o) s = .next (s.repliedRecs h 0xC095 32 o (if h.src < 16 then
      (s.integ.ue.filter fun r => r.ld == h.src).map fun r => ({ r with loc := 0 } : UeRec).fields else s.integ.ue.map UeRec.fields)) := by
  show execGetUncorrectableErrorLog h o s = _
  rw [execGetUncorrectableErrorLog, State.mbSnap_recs ht hfirst (by decide) rfl]

theorem exec_getRetirementList_of_first (ht : s.takes h { opcode := 0xC097, ld := false, fm := .module, len := [16] }) :
    exec (.getRetirementList h o) s =
      .next (s.repliedRecs h 0xC097 16 o (s.integ.retires.map fun r => [⟨0, 1, r.kind⟩, ⟨8, 8, r.loc⟩])) := by
  show execGetRetirementList h o s = _
  rw [execGetRetirementList, State.mbSnap_recs ht hfirst (by decide) rfl]

end

end

end Sys2Proof.Machine

open Sys2Proof.Machine

/-- Settles O23: each clause is the lemma of its event or command. -/
theorem integrityComplete : Obligations.IntegrityComplete := by
  unfold Obligations.IntegrityComplete
  refine ⟨?scrub, ?behind, ?sram, ?period, ?armNear, ?armStone, ?expire, ?disarm, ?ceTable, ?ueLog, ?retired, ?clear⟩
  case scrub =>
    intro t blk word upset k e s u v hu hup hk hmay hext hnear hidle hword hv
    exact exec_nearScrub_of_near hu hup upset hk hmay hext hnear hidle hword hv
  case behind =>
    intro t s u hu hup hlate
    exact exec_nearScrubBehind_of_late hu hup hlate
  case sram =>
    intro t unit loc upset s u hu hup hunit hunit'
    exact ⟨exec_sramScrub_of_good hu hup loc hunit hunit', fun b => exec_sramScrub_of_corrected hu hup loc hunit hunit',
      exec_sramScrub_of_uncorrectable hu hup loc hunit hunit'⟩
  case period =>
    intro h near sram s ht hnear hnear' hsram hsram'
    exact exec_setScrubPeriod_of_valid ht hnear hnear' hsram hsram'
  case armNear =>
    intro h dpa word mask e s ht hext hactive howner hgate hdpa hword hmask hmask' hbits hidle
    exact exec_armFlipMaskNear_of_idle ht hext hactive howner hgate hdpa hword hmask hmask' hbits hidle
  case armStone =>
    intro h stone bank word mask s ht hstone hoffline hbank hword hmask
    exact exec_armFlipMaskStone_of_offline ht hstone hoffline hbank hword hmask
  case expire =>
    intro t ld s u hu hup harmed hdue
    exact exec_flipMaskExpire_of_due hu hup harmed hdue
  case disarm =>
    intro h s ht harmed
    exact exec_disarmFlipMask_of_armed ht harmed
  case ceTable =>
    intro h o s ht hfirst
    exact exec_getCorrectableErrorTable_of_first hfirst ht
  case ueLog =>
    intro h o s ht hfirst
    exact exec_getUncorrectableErrorLog_of_first hfirst ht
  case retired =>
    intro h o s ht hfirst
    exact exec_getRetirementList_of_first hfirst ht
  case clear =>
    intro h s ht
    exact exec_clearCorrectableErrorTable_of_takes ht

end

section
/-! PROOFS. The ledger, unit health, test content and the jobs of mailboxes (O24). -/
namespace Sys2Proof.Machine

/-! ### Events (R301, R302, R359 to R361): `u` is the state at the instant that the event carries. -/

section
variable {t : Nat} {s u : State} (hu : u = s.at_ t)
include hu

section
variable {w : LedgerWait} {rest : List LedgerWait} (hwaits : u.result.waits = w :: rest) (hon : u.phase ≠ .off)
  (hhub : u.phase ≠ .hubFailed) (hkind : w.record.kind ≠ 16)
include hwaits hon hhub hkind

/-- A record that does not open debug: what it accompanies is released, and the job that waited for it ends. -/
theorem execLedgerCommit_of_waits : execLedgerCommit t s = .next (match w.job with
    | some (src, code, vses) => ((((u.modResult fun x => { x with waits := rest }).commitRecord w.record).postAll w.posts).sendAll w.outs).endJob
        src code vses
    | none => (((u.modResult fun x => { x with waits := rest }).commitRecord w.record).postAll w.posts).sendAll w.outs) := by
  have hruns : ¬ (u.phase = .off ∨ u.phase = .hubFailed) := not_or.mpr ⟨hon, hhub⟩
  have hopens : ∀ p : Prop, ¬ (w.record.kind = 16 ∧ p) := fun _ h => hkind h.1
  subst hu
  simp only [execLedgerCommit, hwaits, if_neg hruns, if_neg (hopens _)]
  cases w.job <;> rfl

theorem exec_ledgerCommit_of_no_job (hjob : w.job = none) : exec (.ledgerCommit t) s =
    .next ((((u.modResult fun x => { x with waits := rest }).commitRecord w.record).postAll w.posts).sendAll w.outs) := by
  refine (execLedgerCommit_of_waits hu hwaits hon hhub hkind).trans ?_
  rw [hjob]

theorem exec_ledgerCommit_of_job {src vses : Nat} {code : Rc} (hjob : w.job = some (src, code, vses)) : exec (.ledgerCommit t) s =
    .next (((((u.modResult fun x => { x with waits := rest }).commitRecord w.record).postAll w.posts).sendAll w.outs).endJob src code vses) := by
  refine (execLedgerCommit_of_waits hu hwaits hon hhub hkind).trans ?_
  rw [hjob]

end

section
variable {kind utype unit : Nat} {c : Coalesce} {v : State}
  (hfind : u.result.coal.find? (fun c => c.kind = kind ∧ c.utype = utype ∧ c.unit = unit) = some c) (hdue : c.start + sec ≤ u.now)
  (hv : v = u.modResult fun x => { x with coal := x.coal.filter (· ≠ c), coalesced := bump 32 x.coalesced c.lost })
include hfind hdue hv

theorem execLedgerCoalesceEnd_of_due : execLedgerCoalesceEnd t kind utype unit s =
    if c.lost = 0 then .next v else .next (v.ledger (LedgerRec.of 17 utype unit 31 (kind + unit * 2 ^ 16 + c.lost * 2 ^ 32))) := by
  subst hu hv
  simp only [execLedgerCoalesceEnd, hfind, if_pos hdue]

theorem exec_ledgerCoalesceEnd_of_none_lost (hlost : c.lost = 0) : exec (.ledgerCoalesceEnd t kind utype unit) s = .next v :=
  (execLedgerCoalesceEnd_of_due hu hfind hdue hv).trans (if_pos hlost)

theorem exec_ledgerCoalesceEnd_of_lost (hlost : c.lost ≠ 0) : exec (.ledgerCoalesceEnd t kind utype unit) s =
    .next (v.ledger (LedgerRec.of 17 utype unit 31 (kind + unit * 2 ^ 16 + c.lost * 2 ^ 32))) :=
  (execLedgerCoalesceEnd_of_due hu hfind hdue hv).trans (if_neg hlost)

end

theorem exec_backgroundCommandComplete_of_ready {src : Nat} {j : Job} (hjob : u.job src = some j) (hup : u.up = true)
    (hready : u.millerReady = true) : exec (.backgroundCommandComplete t src) s = .next (u.completeJob src j) := by
  subst hu
  show execBackgroundCommandComplete t src s = _
  simp only [execBackgroundCommandComplete, hjob, if_pos (And.intro hup hready)]

theorem exec_partImageTimeout (src opcode : Nat) : exec (.partImageTimeout t src opcode) s = .next { u with mbox := { u.mbox with
    images := u.mbox.images.filter fun i => ¬ (i.src = src ∧ i.opcode = opcode ∧ i.last + 10 * sec ≤ u.now) } } := by
  subst hu
  rfl

theorem exec_snapshotTimeout (src opcode : Nat) : exec (.snapshotTimeout t src opcode) s = .next { u with mbox := { u.mbox with
    snaps := u.mbox.snaps.filter fun i => ¬ (i.src = src ∧ i.opcode = opcode ∧ i.last + 10 * sec ≤ u.now) } } := by
  subst hu
  rfl

end

/-! ### Commands (R290, R299 to R305, C0A0h to C0A7h) -/

section
variable {h : MbHdr} {s : State}

/-- Records are read from a SEQNO on that the ledger still reaches. -/
theorem exec_getLedger_of_kept {seqno maxrec : Nat} {rs : List LedgerRec}
    (ht : s.takes h { opcode := 0xC0A0, ld := false, fm := .module, len := [20] })
    (hkept : ∀ r, s.result.ledger.head? = some r → r.seqno ≤ seqno)
    (hrs : rs = (s.result.ledger.filter fun r => seqno ≤ r.seqno).take (if maxrec = 0 then 1023 else min maxrec 1023)) :
    exec (.getLedger h seqno maxrec) s = .next (s.replied h 0xC0A0
      [⟨0, 4, rs.length⟩, ⟨8, 8, (match rs.getLast? with | some r => r.seqno + 1 | none => seqno)⟩] (rs.flatMap fun r => layout 64 r.fields)) := by
  have hreach : ¬ (s.result.ledger.head?.any fun r => decide (seqno < r.seqno)) = true := by
    simpa [Option.any_eq_true] using fun r hr => hkept r hr
  subst hrs
  exact congrArg Host.Outcome.next (State.mbRun_takes (r := { s := s, fields := _, blob := _ }) ht (if_neg hreach))

theorem exec_getResultErrorLog_of_first {o : OutReq} (ht : s.takes h { opcode := 0xC0A1, ld := true, fm := .module, len := [16] })
    (hfirst : o.first = 0) :
    exec (.getResultErrorLog h o) s = .next (s.repliedRecs h 0xC0A1 64 o (if h.src < 16 then
      (s.result.errLog.filter fun r => r.ld == h.src).map fun r =>
        ({ r with unit := 0, temp := 0, volt := 0, detail := 0 } : LedgerRec).fields else s.result.errLog.map LedgerRec.fields)) := by
  show execGetResultErrorLog h o s = _
  rw [execGetResultErrorLog, State.mbSnap_recs ht hfirst (by decide) rfl]

/-- The answer waits with the record for its commit. -/
theorem exec_appendLedgerNote_of_takes (note : Bytes) (ht : s.takes h { opcode := 0xC0A7, ld := false, fm := .module, len := [24] }) :
    exec (.appendLedgerNote h note) s = .next (s.ledger (LedgerRec.of 18 0 0 31 (leNat (fit 16 note))) []
      [.mailbox h.src 0xC0A7 .success [⟨0, 8, s.result.nextSeq⟩] []]) := by
  obtain ⟨hrings, hcheck⟩ := ht
  show execAppendLedgerNote h note s = _
  simp only [execAppendLedgerNote, if_neg (not_not_intro hrings), hcheck]

theorem exec_setCheckPolicy_of_valid {s0 s1 s2 earlyen : Nat}
    (ht : s.takes h { opcode := 0xC0A2, ld := false, fm := .module, len := [12] }) (h0 : s0 ≤ 15) (h1 : s1 ≤ 15) (h2 : s2 ≤ 15)
    (hearly : earlyen ≤ 1) :
    exec (.setCheckPolicy h s0 s1 s2 earlyen) s = .next ((s.modResult fun r =>
      { r with sample0 := s0, sample1 := s1, sample2 := s2, earlyEn := earlyen == 1 }).replied h 0xC0A2 [] []) := by
  have hvalid : ¬ (15 < s0 ∨ 15 < s1 ∨ 15 < s2 ∨ 1 < earlyen) := by omega
  show execSetCheckPolicy h s0 s1 s2 earlyen s = _
  rw [execSetCheckPolicy, State.mbRun_takes ht (if_neg hvalid)]

theorem exec_getUnitHealth_of_takes {one : Nat → Nat → Bytes} {at_ : Option Nat → Nat}
    (ht : s.takes h { opcode := 0xC0A3, ld := false, fm := .module })
    (hat : ∀ o, at_ o = (match o with | some x => s.stampOf fmSrc x | none => 0))
    (hone : ∀ utype unit, one utype unit = layout 24 [⟨0, 1, (s.unitRec utype unit).state.code⟩,
      ⟨8, 8, at_ (s.unitRec utype unit).obs.getLast?⟩, ⟨16, 8, at_ (s.unitRec utype unit).obs.head?⟩]) :
    exec (.getUnitHealth h) s =
      .next (s.replied h 0xC0A3 [] ((allStones.flatMap fun k => one 1 k) ++ (List.range 4).flatMap fun d => one 2 d)) := by
  obtain rfl := funext hat
  obtain rfl := funext₂ hone
  exact congrArg Host.Outcome.next (State.mbRun_takes (r := { s := s, fields := _, blob := _ }) ht rfl)

theorem exec_clearUnitRecord_of_failed {utype unit : Nat} (ht : s.takes h { opcode := 0xC0A6, ld := false, fm := .module, len := [12] })
    (hunit : utype = 1 ∧ unit < 192 ∨ utype = 2 ∧ unit < 4) (hfailed : (s.unitRec utype unit).state = .failed) :
    exec (.clearUnitRecord h utype unit) s =
      .next ((s.setUnit utype unit fun r => { r with obs := [], fails := [] }).replied h 0xC0A6 [] []) := by
  have hvalid : ¬ ((utype ≠ 1 ∧ utype ≠ 2) ∨ (utype = 1 ∧ 192 ≤ unit) ∨ (utype = 2 ∧ 4 ≤ unit) ∨
      (s.unitRec utype unit).state ≠ .failed) := by
    simp only [hfailed, ne_eq, not_true_eq_false, or_false]
    omega
  show execClearUnitRecord h utype unit s = _
  rw [execClearUnitRecord, State.mbRun_takes ht (if_neg hvalid)]

theorem exec_installTestContent_of_whole {p : Part} {img : Bytes} {v : State}
    (ht : s.takes h { opcode := 0xC0A4, ld := false, fm := .module, bg := p.final, len := [], lenFrom := some 32 })
    (hlen : h.len = 32 + p.data.length) (hpart : s.takePart h.src 0xC0A4 p = .whole v img) (himg : img.length = p.total) :
    exec (.installTestContent h p) s = .next (v.begun h 0xC0A4 (.installTestContent h { p with data := img })) := by
  show execInstallTestContent h p s = _
  rw [execInstallTestContent, State.mbPartsBg_takes (c := { opcode := 0xC0A4, ld := false, fm := .module }) ht hlen hpart himg rfl
    (State.takePart_whole_now hpart).1]

theorem exec_getTestContent_of_takes (ht : s.takes h { opcode := 0xC0A5, ld := false, fm := .module }) :
    exec (.getTestContent h) s = .next (s.replied h 0xC0A5 []
      (if s.result.pkg.isEmpty then zeros 64 else s.result.pkg.take (64 + 16 * leAt s.result.pkg 16 2))) := by
  show execGetTestContent h s = _
  rw [execGetTestContent, State.mbRun_takes ht rfl]

theorem exec_abortBackgroundOperation_of_abortable {j : Job} (ht : s.takes h (stdCmd 0x0005 true .module)) (hjob : s.job h.src = some j)
    (habort : s.abortable j = true) :
    exec (.abortBackgroundOperation h) s = .next ((s.stopJob h.src).replied h 0x0005 [] []) := by
  show execAbortBackgroundOperation h s = _
  rw [execAbortBackgroundOperation, State.mbRun_takes ht (by
    simp only [hjob]
    exact if_pos habort)]
  rfl

end

end Sys2Proof.Machine

open Sys2Proof.Machine

/-- Settles O24: each clause is the lemma of its event or command. -/
theorem resultsComplete : Obligations.ResultsComplete := by
  unfold Obligations.ResultsComplete
  refine ⟨?commit, ?coalesce, ?ledger, ?errors, ?note, ?policy, ?health, ?clear, ?install, ?content, ?job, ?abort, ?timeouts⟩
  case commit =>
    intro t w rest s u v hu hwaits hon hhub hkind hv
    subst hv
    exact ⟨exec_ledgerCommit_of_no_job hu hwaits hon hhub hkind,
      fun src code vses => exec_ledgerCommit_of_job hu hwaits hon hhub hkind⟩
  case coalesce =>
    intro t kind utype unit c s u v hu hfind hdue hv
    exact ⟨exec_ledgerCoalesceEnd_of_none_lost hu hfind hdue hv, exec_ledgerCoalesceEnd_of_lost hu hfind hdue hv⟩
  case ledger =>
    intro h seqno maxrec rs s ht hkept hrs
    exact exec_getLedger_of_kept ht hkept hrs
  case errors =>
    intro h o s ht hfirst
    exact exec_getResultErrorLog_of_first ht hfirst
  case note =>
    intro h note s ht
    exact exec_appendLedgerNote_of_takes note ht
  case policy =>
    intro h s0 s1 s2 earlyen s ht h0 h1 h2 hearly
    exact exec_setCheckPolicy_of_valid ht h0 h1 h2 hearly
  case health =>
    intro h one at_ s ht hat hone
    exact exec_getUnitHealth_of_takes ht hat hone
  case clear =>
    intro h utype unit s ht hunit hfailed
    exact exec_clearUnitRecord_of_failed ht hunit hfailed
  case install =>
    intro h p img s v ht hlen hpart himg
    exact exec_installTestContent_of_whole ht hlen hpart himg
  case content =>
    intro h s ht
    exact exec_getTestContent_of_takes ht
  case job =>
    intro t src j s u hu hjob hup hready
    exact exec_backgroundCommandComplete_of_ready hu hjob hup hready
  case abort =>
    intro h j s ht hjob habort
    exact exec_abortBackgroundOperation_of_abortable ht hjob habort
  case timeouts =>
    intro t src opcode s u hu
    exact ⟨exec_partImageTimeout hu src opcode, exec_snapshotTimeout hu src opcode⟩

end

section
/-! PROOFS. Weight digests (O26). -/
namespace Sys2Proof.Machine

/-! ### Events (R295, R297): `u` is the state at the instant that the event carries. -/

section
variable {t ld range : Nat} {r : Range} {s u : State} (hu : u = s.at_ t) (hrange : u.rangeOf ld range = some r) (hup : u.up = true)
include hu hrange hup

theorem exec_digestStart_of_due (hidle : r.running = false) (hmay : u.digestMay r = true) :
    exec (.digestStart t ld range) s = .next ((u.modRange ld range fun r => { r with running := true, due := false }).passRange r) := by
  subst hu
  show execDigestStart t ld range s = _
  simp only [execDigestStart, hrange, if_pos (And.intro hup (And.intro hidle hmay))]

theorem exec_digestComplete_of_served (turn : Nat) {disagree : List Nat} {ds : Bytes} {v : State} (hrunning : r.running = true)
    (hv : v = disagree.foldl (fun s k => s.observe 1 k 16) u) (hserved : v.sackDigests ld r.base (r.len / 65536) = (ds, none)) :
    exec (.digestComplete t ld range disagree turn) s = .next (v.digestDone r (Config.sha256 ds) turn) := by
  have hruns : ¬ (¬ u.up = true ∨ r.running = false) := by simp [hup, hrunning]
  subst hu hv
  show execDigestComplete t ld range disagree turn s = _
  simp only [execDigestComplete, hrange, if_neg hruns, hserved]

end

/-! ### Commands (C0B0h to C0B5h) -/

section
variable {h : MbHdr} {s : State}

theorem exec_defineDigestRange_of_room {base len period wheel layer id p : Nat} (key : Nat) {e : Extent}
    (ht : s.takes h { opcode := 0xC0B0, ld := true, fm := .no, len := [38] }) (hext : s.extAt h.src base = some e)
    (hactive : e.state = .active) (hgate : Prof.gate e.profile = false) (hbase : base % 65536 = 0) (hlen : len % 65536 = 0)
    (hsome : len ≠ 0) (hmost : len ≤ MiB * MiB) (hwithin : base + len ≤ e.base + e.len) (hp : p = if period = 0 then 24 else period)
    (hp' : p ≤ 720) (hwheel : wheel < 16 ∨ wheel = 0xFF) (hlayer : layer ≤ 1023)
    (hld : (s.result.ranges.filter fun r => r.ld == h.src).length < 64) (hall : s.result.ranges.length < 256)
    (hid : id = (lowestFree ((s.result.ranges.filter fun r => r.ld == h.src).map Range.id) 64).getD 0) :
    exec (.defineDigestRange h base len key period wheel layer) s = .next ((s.modResult fun x => { x with ranges := x.ranges ++
      [{ id := id, ld := h.src, base := base, len := len, firstBlk := s.blkOf e base, key := key, period := p,
         wheel := (if wheel = 0xFF then none else some (16 * h.src + wheel)), layer := layer, lastDone := s.now }] }).replied h 0xC0B0
      [⟨0, 1, id⟩] []) := by
  have hvalid : ¬ (e.state ≠ .active ∨ Prof.gate e.profile = true ∨ base % 65536 ≠ 0 ∨ len % 65536 ≠ 0 ∨ len = 0 ∨ MiB * MiB < len ∨
      e.base + e.len < base + len ∨ 720 < p ∨ (16 ≤ wheel ∧ wheel ≠ 0xFF) ∨ 1023 < layer) := by
    simp only [not_or, Nat.not_lt]
    exact ⟨not_not_intro hactive, ne_true_of_eq_false hgate, not_not_intro hbase, not_not_intro hlen, hsome, hmost, hwithin, hp',
      by omega, hlayer⟩
  have hroom : ¬ (64 ≤ (s.result.ranges.filter fun r => r.ld == h.src).length ∨ 256 ≤ s.result.ranges.length) :=
    not_or.mpr ⟨Nat.not_le.mpr hld, Nat.not_le.mpr hall⟩
  subst hid hp
  show execDefineDigestRange h base len key period wheel layer s = _
  rw [execDefineDigestRange, State.mbRun_takes ht (by
    simp only [hext]
    exact (if_neg hvalid).trans (if_neg hroom))]

section
variable {range : Nat} {r : Range}

theorem exec_deleteDigestRange_of_no_job (ht : s.takes h { opcode := 0xC0B1, ld := true, fm := .no, len := [9] })
    (hrange : s.rangeOf h.src range = some r) (hjob : s.job h.src = none) :
    exec (.deleteDigestRange h range) s = .next ((s.modResult fun x =>
      { x with ranges := x.ranges.filter fun r => ¬ (r.ld = h.src ∧ r.id = range) }).replied h 0xC0B1 [] []) := by
  show execDeleteDigestRange h range s = _
  rw [execDeleteDigestRange, State.mbRun_takes ht (by
    simp only [hrange, hjob]
    rfl)]
  rfl

theorem exec_getDigest_of_range (ht : s.takes h { opcode := 0xC0B2, ld := true, fm := .ld, len := [9] })
    (hrange : s.rangeOf (whoOf h) range = some r) :
    exec (.getDigest h range) s = .next (s.replied h 0xC0B2
      ((if h.src < 16 then [⟨0, 32, (r.reference.getD 0).toNat⟩, ⟨32, 32, r.latest.toNat⟩] else []) ++
        [⟨64, 1, r.outcome⟩, ⟨65, 1, b2n r.changed⟩, ⟨72, 8, if r.done then s.stampOf h.src r.time else 0⟩]) []) := by
  show execGetDigest h range s = _
  rw [execGetDigest, State.mbRun_takes ht (by
    simp only [hrange]
    rfl)]

theorem exec_setDigestReference_of_range (reference : BitVec 256) (ht : s.takes h { opcode := 0xC0B3, ld := true, fm := .no, len := [48] })
    (hrange : s.rangeOf h.src range = some r) :
    exec (.setDigestReference h range reference) s =
      .next ((s.modRange h.src range fun r => { r with reference := some reference, changed := false }).replied h 0xC0B3 [] []) := by
  show execSetDigestReference h range reference s = _
  rw [execSetDigestReference, State.mbRun_takes ht (by
    simp only [hrange]
    rfl)]

theorem exec_runDigest_of_idle (ht : s.takes h { opcode := 0xC0B4, ld := true, fm := .no, len := [9], bg := true })
    (hrange : s.rangeOf h.src range = some r) (hidle : r.running = false) :
    exec (.runDigest h range) s =
      .next ((s.modRange h.src range fun r => { r with due := true, dueAt := s.now }).begun h 0xC0B4 (.runDigest h range)) := by
  show execRunDigest h range s = _
  rw [execRunDigest, State.mbBg_takes (c := { opcode := 0xC0B4, ld := true, fm := .no, len := [9] })
    (v := s.modRange h.src range fun r => { r with due := true, dueAt := s.now }) ht (by
    simp only [hrange]
    exact if_neg (ne_true_of_eq_false hidle)) rfl]

section
variable {port window : Nat} (ht : s.takes h { opcode := 0xC0B5, ld := true, fm := .no, len := [12] })
  (hrange : s.rangeOf h.src range = some r)
include ht hrange

theorem exec_setDigestPeer_unbind : exec (.setDigestPeer h range port window false) s =
    .next ((s.modRange h.src range fun r => { r with peer := none }).replied h 0xC0B5 [] []) := by
  show execSetDigestPeer h range port window false s = _
  rw [execSetDigestPeer, State.mbRun_takes ht (by
    simp only [hrange]
    exact if_pos Bool.false_ne_true)]

theorem exec_setDigestPeer_bind (hport : port = 4 ∨ port = 5) (hwindow : window < 64) (hdir : (s.window port window).act.dir = 0)
    (hld : (s.window port window).act.ld = h.src) : exec (.setDigestPeer h range port window true) s =
      .next ((s.modRange h.src range fun r => { r with peer := some (port, window) }).replied h 0xC0B5 [] []) := by
  have hvalid : ¬ ((port ≠ 4 ∧ port ≠ 5) ∨ 63 < window ∨ (s.window port window).act.dir ≠ 0 ∨ (s.window port window).act.ld ≠ h.src) := by
    omega
  show execSetDigestPeer h range port window true s = _
  rw [execSetDigestPeer, State.mbRun_takes ht (by
    simp only [hrange]
    exact (if_neg (not_not_intro True.intro)).trans (if_neg hvalid))]

end

end

end

end Sys2Proof.Machine

open Sys2Proof.Machine

/-- Settles O26: each clause is the lemma of its event or command. -/
theorem digestsComplete : Obligations.DigestsComplete := by
  unfold Obligations.DigestsComplete
  refine ⟨?start, ?complete, ?define, ?delete, ?get, ?reference, ?run, ?peer⟩
  case start =>
    intro t ld range r s u hu hrange hup hidle hmay
    exact exec_digestStart_of_due hu hrange hup hidle hmay
  case complete =>
    intro t ld range turn disagree r ds s u v hu hrange hup hrunning hv hserved
    exact exec_digestComplete_of_served hu hrange hup turn hrunning hv hserved
  case define =>
    intro h base len key period wheel layer id p e s ht hext hactive hgate hbase hlen hsome hmost hwithin hp hp' hwheel hlayer hld hall hid
    exact exec_defineDigestRange_of_room key ht hext hactive hgate hbase hlen hsome hmost hwithin hp hp' hwheel hlayer hld hall hid
  case delete =>
    intro h range r s ht hrange hjob
    exact exec_deleteDigestRange_of_no_job ht hrange hjob
  case get =>
    intro h range r s ht hrange
    exact exec_getDigest_of_range ht hrange
  case reference =>
    intro h range reference r s ht hrange
    exact exec_setDigestReference_of_range reference ht hrange
  case run =>
    intro h range r s ht hrange hidle
    exact exec_runDigest_of_idle ht hrange hidle
  case peer =>
    intro h range port window r s ht hrange
    exact ⟨exec_setDigestPeer_unbind ht hrange,
      fun hport hwindow hdir hld _ => exec_setDigestPeer_bind ht hrange hport hwindow hdir hld⟩

end

section
/-! PROOFS. The peer protocol (O28): the messages of a peer port, and the timers of packets, forwards and provisional lines. -/
namespace Sys2Proof.Machine

/-! ### Messages (R292, R294, R298, R325, R326) -/

section
variable {p : PeerHdr} {s u : State}

theorem exec_pwr_of_served (data : Bytes) {w : WinDesc} (hheard : s.heard p 1 u) (hin : u.inbound p = (0, w)) {v : State}
    (hv : v = (List.range p.lines).foldl (fun s i => s.hostWrite w.ld (p.dest + 64 * i) 0 (fit 64 ((data.drop (64 * i)).take 64))
      (BitVec.allOnes 64) false true) u) :
    exec (.pwr p data) s = .next ((if p.early then v.provisional p w.ld (u.blocksAt w.ld p.dest p.lines) else v).answerPeer p 0) := by
  subst hv
  show execPwr p data s = _
  rw [execPwr, State.onPeer_heard hheard]
  simp only [hin]
  rfl

theorem exec_pwr_of_refused (data : Bytes) (hheard : s.heard p 1 u) (hin : (u.inbound p).1 ≠ 0) :
    exec (.pwr p data) s = .next (u.answerPeer p (u.inbound p).1) := by
  show execPwr p data s = _
  rw [execPwr, State.onPeer_heard hheard]
  exact congrArg Host.Outcome.next (if_pos hin)

section
variable {k : Packet} (hheard : s.heard p 2 u)
  (hfind : u.port.packets.find? (fun k => k.port = p.port ∧ k.tag = p.tag ∧ k.out = true) = some k)
include hheard hfind

theorem exec_pack_of_ok (hstatus : p.status = 0) : exec (.pack p) s = .next ((u.packetOk k).pump p.port) := by
  show execPack p s = _
  rw [execPack, State.onPeer_heard hheard]
  simp only [hfind, hstatus]

theorem exec_pack_of_pending (hstatus : p.status = 2) :
    exec (.pack p) s = .next (u.modPacket p.port p.tag fun x => { x with again := true, hold := false }) := by
  show execPack p s = _
  rw [execPack, State.onPeer_heard hheard]
  simp only [hfind, hstatus]

theorem exec_pack_of_failed (hstatus : p.status = 1 ∨ p.status = 4 ∨ p.status = 5) (hdata : k.digest = false) :
    exec (.pack p) s = .next ((u.failForward k.fwdid p.status).pump p.port) := by
  show execPack p s = _
  rw [execPack, State.onPeer_heard hheard]
  rcases hstatus with hstatus | hstatus | hstatus <;> simp only [hfind, hstatus, hdata, Bool.false_eq_true, if_false]

theorem exec_pack_of_full (hstatus : p.status = 6) (hdata : k.digest = false) :
    exec (.pack p) s = .next ((u.provFull k.fwdid).pump p.port) := by
  show execPack p s = _
  rw [execPack, State.onPeer_heard hheard]
  simp only [hfind, hstatus, hdata, Bool.false_eq_true, if_false]

end

section
variable (m : Settle) (hheard : s.heard p 3 u)
include hheard

theorem exec_psettleExtend_of_heard :
    exec (.psettleExtend p m) s = .next (u.modResult fun r => { r with provs := r.provs.map fun x =>
      if x.node = m.node ∧ x.fwdid = m.fwdid then { x with since := u.now } else x }) := by
  show execPsettleExtend p m s = _
  rw [execPsettleExtend, State.onPeer_heard hheard]

variable {m} {e : Prov} (hprov : u.provOf m.node m.fwdid = some e)
include hprov

theorem exec_psettleConfirm_of_entry : exec (.psettleConfirm p m) s =
    .next ((u.dependants m.node m.fwdid).foldl State.tryRelease (u.dropProv m.node m.fwdid)) := by
  show execPsettleConfirm p m s = _
  rw [execPsettleConfirm, State.onPeer_heard hheard]
  simp only [hprov]

theorem exec_psettleRetract_of_entry (hcause : 1 ≤ m.cause) (hcause' : m.cause ≤ 3) :
    exec (.psettleRetract p m) s = .next (u.retract e m.cause m) := by
  show execPsettleRetract p m s = _
  rw [execPsettleRetract, State.onPeer_heard hheard]
  simp only [hprov, if_pos (And.intro hcause hcause')]

end

section
variable {key : Nat} (turn : Nat) {digest : BitVec 256} {changed : Bool} {w : WinDesc} {x : Range} {v : State} (hheard : s.heard p 4 u)
  (hin : u.inbound p = (0, w)) (hv : v = u.answerPeer p 0)
  (hfind : v.result.ranges.find? (fun x => x.ld = w.ld ∧ x.key = key ∧ x.done = true) = some x)
include hheard hin hv hfind

/-- The digest of a window that accepts it is compared with the range of its key. -/
theorem execPdigest_of_range : execPdigest p key digest turn changed s = .next (if changed ∨ x.changed ∨ x.latest = digest then v
    else (v.modRiLd x.ld fun l => { l with dmismatch := bump 16 l.dmismatch 1 }).ledger
      (LedgerRec.of 9 0 0 x.ld (key % 2 ^ 64 + p.srcNode * 2 ^ 64))
      [⟨x.ld, 2, Event.of 16 x.ld 1 [⟨64, 1, x.id⟩, ⟨72, 8, key⟩, ⟨80, 2, p.srcNode⟩]⟩,
       ⟨fmSrc, 2, Event.of 16 x.ld 1 [⟨64, 1, x.id⟩, ⟨72, 8, key⟩, ⟨80, 2, p.srcNode⟩]⟩]) := by
  subst hv
  rw [execPdigest, State.onPeer_heard hheard]
  simp only [hin, hfind, ne_eq, not_true_eq_false, if_false]

theorem exec_pdigest_of_same (hsame : changed = true ∨ x.changed = true ∨ x.latest = digest) :
    exec (.pdigest p key digest turn changed) s = .next v :=
  (execPdigest_of_range turn hheard hin hv hfind).trans (congrArg Host.Outcome.next (if_pos hsame))

theorem exec_pdigest_of_mismatch (hkept : changed = false) (hkept' : x.changed = false) (hdiffers : x.latest ≠ digest) {ev : Event}
    (hev : ev = Event.of 16 x.ld 1 [⟨64, 1, x.id⟩, ⟨72, 8, key⟩, ⟨80, 2, p.srcNode⟩]) :
    exec (.pdigest p key digest turn changed) s = .next ((v.modRiLd x.ld fun l => { l with dmismatch := bump 16 l.dmismatch 1 }).ledger
      (LedgerRec.of 9 0 0 x.ld (key % 2 ^ 64 + p.srcNode * 2 ^ 64)) [⟨x.ld, 2, ev⟩, ⟨fmSrc, 2, ev⟩]) := by
  have hmismatch : ¬ (changed = true ∨ x.changed = true ∨ x.latest = digest) :=
    not_or.mpr ⟨ne_true_of_eq_false hkept, not_or.mpr ⟨ne_true_of_eq_false hkept', hdiffers⟩⟩
  subst hev
  exact (execPdigest_of_range turn hheard hin hv hfind).trans (congrArg Host.Outcome.next (if_neg hmismatch))

end

theorem exec_pnode_of_heard (node : Nat) (hheard : s.heard p 5 u) :
    exec (.pnode p node) s = .next (u.modPort p.port fun q => { q with partnerNode := node }) := by
  show execPnode p node s = _
  rw [execPnode, State.onPeer_heard hheard]

end

/-! ### Timers (R292, R294, R324, R326): `u` is the state at the instant that the event carries. -/

section
variable {t : Nat} {s u : State} (hu : u = s.at_ t)
include hu

theorem exec_provisionalTimeout_of_due {node fwdid : Nat} {e : Prov} (hprov : u.provOf node fwdid = some e) (hup : u.up = true)
    (hdue : e.since + ms ≤ u.now) :
    exec (.provisionalTimeout t node fwdid) s = .next (u.retract e 4
      { cause := 4, node := node, ld := e.srcLd, wheel := 0, nowheel := true, layer := 0, turn := 0, seq := 0, gbuf := 0, opcode := 0,
        fwdid := fwdid, dest := e.dest, lines := e.lines }) := by
  subst hu
  show execProvisionalTimeout t node fwdid s = _
  simp only [execProvisionalTimeout, hprov, if_pos (And.intro hup hdue)]

theorem exec_forwardExtendTimer_of_due {fwdid : Nat} {f : Fwd} (hfwd : u.fwd fwdid = some f) (hearly : f.early = true)
    (hopen : f.settled = false) (hdue : f.extended + 500 * us ≤ u.now) :
    exec (.forwardExtendTimer t fwdid) s =
      .next ((u.modFwd fwdid fun x => { x with extended := x.extended + 500 * us }).putSettle f 3 0) := by
  subst hu
  show execForwardExtendTimer t fwdid s = _
  simp only [execForwardExtendTimer, hfwd, if_pos (And.intro hearly (And.intro hopen hdue))]

theorem exec_pwrPendingResend_of_due {port tag : Nat} {k : Packet}
    (hfind : u.port.packets.find? (fun k => k.port = port ∧ k.tag = tag ∧ k.again = true) = some k) (hcarries : u.carries port = true)
    (hdue : k.sentAt + us ≤ u.now) : exec (.pwrPendingResend t port tag) s = .next (u.resend k) := by
  subst hu
  show execPwrPendingResend t port tag s = _
  simp only [execPwrPendingResend, hfind, if_pos (And.intro hcarries hdue)]

section
variable {fwdid : Nat} {k : Packet} (hfind : u.port.packets.find? (fun k => k.fwdid = fwdid ∧ k.first + ms ≤ u.now) = some k)
  (hdata : k.digest = false)
include hfind hdata

theorem exec_forwardTimeout_of_held (hhold : k.hold = true) :
    exec (.forwardTimeout t fwdid) s = .next ((u.failForward fwdid 3).pump k.port) := by
  subst hu
  show execForwardTimeout t fwdid s = _
  simp only [execForwardTimeout, hfind, hdata, hhold, Bool.false_eq_true, if_false, if_true]

section
variable (hhold : k.hold = false)
include hhold

theorem exec_forwardTimeout_of_pending (hagain : k.again = true) :
    exec (.forwardTimeout t fwdid) s = .next ((u.failForward fwdid 2).pump k.port) := by
  subst hu
  show execForwardTimeout t fwdid s = _
  simp only [execForwardTimeout, hfind, hdata, hhold, hagain, Bool.false_eq_true, if_false, if_true]

theorem exec_forwardTimeout_of_unanswered (hagain : k.again = false) :
    exec (.forwardTimeout t fwdid) s = .next ((u.free.2.failForward fwdid (u.free.1 % 256)).pump k.port) := by
  subst hu
  show execForwardTimeout t fwdid s = _
  simp only [execForwardTimeout, hfind, hdata, hhold, hagain, Bool.false_eq_true, if_false]

end

end

theorem exec_peerGraceEnd_of_over {port window : Nat} {w : Window} (hw : w = u.window port window) (hprev : w.prev.isSome = true)
    (hover : w.graceEnd ≤ u.now) :
    exec (.peerGraceEnd t port window) s = .next (u.setWindow port window { w with prev := none }) := by
  subst hu hw
  exact if_pos ⟨hprev, hover⟩

end

end Sys2Proof.Machine

open Sys2Proof.Machine

/-- Settles O28: each clause is the lemma of its message or timer; bad messages are those of O44. -/
theorem peerMessagesComplete : Obligations.PeerMessagesComplete := by
  unfold Obligations.PeerMessagesComplete
  refine ⟨?served, ?refused, ?pack, ?settle, ?kindZero, ?provisional, ?extend, ?digest, ?node, ?bad, ?resend, ?forward, ?grace⟩
  case served =>
    intro p data ld w s u v hheard hin hld hv
    subst hld
    exact exec_pwr_of_served data hheard hin hv
  case refused =>
    intro p data s u hheard hin
    exact exec_pwr_of_refused data hheard hin
  case pack =>
    intro p k s u hheard hfind
    exact ⟨exec_pack_of_ok hheard hfind, exec_pack_of_pending hheard hfind, exec_pack_of_failed hheard hfind,
      exec_pack_of_full hheard hfind⟩
  case settle =>
    intro p m e s u hheard hprov
    exact ⟨exec_psettleConfirm_of_entry hheard hprov, exec_psettleRetract_of_entry hheard hprov, exec_psettleExtend_of_heard m hheard⟩
  case kindZero =>
    intro p m s u hheard
    exact exec_psettleKindZero_of_heard m hheard
  case provisional =>
    intro t node fwdid e s u hu hprov hup hdue
    exact exec_provisionalTimeout_of_due hu hprov hup hdue
  case extend =>
    intro t fwdid f s u hu hfwd hearly hopen hdue
    exact exec_forwardExtendTimer_of_due hu hfwd hearly hopen hdue
  case digest =>
    intro p key turn digest changed w x s u v hheard hin hv hfind
    exact ⟨exec_pdigest_of_same turn hheard hin hv hfind,
      fun hkept hkept' hdiffers _ hev => exec_pdigest_of_mismatch turn hheard hin hv hfind hkept hkept' hdiffers hev⟩
  case node =>
    intro p node s u hheard
    exact exec_pnode_of_heard node hheard
  case bad =>
    intro p s hport hcarries hbad
    exact exec_peerBadMessage_of_bad hport hcarries hbad
  case resend =>
    intro t port tag k s u hu hfind hcarries hdue
    exact exec_pwrPendingResend_of_due hu hfind hcarries hdue
  case forward =>
    intro t fwdid k s u hu hfind hdata
    exact ⟨exec_forwardTimeout_of_held hu hfind hdata, exec_forwardTimeout_of_pending hu hfind hdata,
      exec_forwardTimeout_of_unanswered hu hfind hdata⟩
  case grace =>
    intro t port window w s u hu hw hprev hover
    exact exec_peerGraceEnd_of_over hu hw hprev hover

end

section
/-! PROOFS. Peer windows and bindings (O29): the commands C0F0h to C0F5h. -/
namespace Sys2Proof.Machine

section
variable {h : MbHdr} {s : State}

theorem exec_setNodeIdentifier_of_valid {node : Nat} {v : State}
    (ht : s.takes h { opcode := 0xC0F0, ld := false, fm := .module, len := [10] }) (hnode : node ≠ 0) (hnode' : node ≤ 65535)
    (hv : v = s.modPorts fun q => { q with node := node }) :
    exec (.setNodeIdentifier h node) s = .next (([4, 5].foldl (fun s port =>
      if s.carries port then s.sendPeer port 5 (peerHdr 5 false false 0 0 0 node 0 0 0 0 0) [] else s) v).replied h 0xC0F0 [] []) := by
  have hvalid : ¬ (node = 0 ∨ 65535 < node) := by omega
  subst hv
  show execSetNodeIdentifier h node s = _
  rw [execSetNodeIdentifier, State.mbRun_takes ht (if_neg hvalid)]

section
variable {port window : Nat} (hport : port = 4 ∨ port = 5) (hwindow : window < 64)
include hport hwindow

theorem exec_setPeerWindow_of_valid {w : PeerWin} {old : Window}
    (ht : s.takes h { opcode := 0xC0F1, ld := false, fm := .module, len := [32] }) (hunit : w.len % 65536 = 0) (hlen : w.len ≠ 0)
    (hlen' : w.len ≤ 64 * MiB * MiB) (hdir : w.dir ≤ 1) (hld : w.ld ≤ 15) (hold : old = s.window port window)
    (hkeeps : old.act.enable = true → w.dir = old.act.dir) :
    exec (.setPeerWindow h port window w) s = .next ((s.setWindow port window { old with shadow :=
      { dir := w.dir, ld := w.ld, node := w.node, enable := w.enable, base := w.base, len := w.len } }).replied h 0xC0F1 [] []) := by
  subst hold
  have hvalid : ¬ ((port ≠ 4 ∧ port ≠ 5) ∨ 63 < window ∨ w.len % 65536 ≠ 0 ∨ w.len = 0 ∨ 64 * MiB * MiB < w.len ∨ 1 < w.dir ∨ 15 < w.ld ∨
      ((s.window port window).act.enable = true ∧ w.dir ≠ (s.window port window).act.dir)) := by
    simp only [not_or, Nat.not_lt]
    exact ⟨by omega, by omega, not_not_intro hunit, hlen, hlen', hdir, hld, fun hbad => hbad.2 (hkeeps hbad.1)⟩
  show execSetPeerWindow h port window w s = _
  rw [execSetPeerWindow, State.mbRun_takes ht (if_neg hvalid)]

/-- The shadow becomes active; an outbound window then sends what waited for it. -/
theorem exec_commitPeerWindow_of_valid {w w' : Window} {v x y : State}
    (ht : s.takes h { opcode := 0xC0F2, ld := false, fm := .module, len := [10] }) (hw : w = s.window port window)
    (hw' : w' = { act := w.shadow, shadow := w.shadow, gen := (w.gen + 1) % 256,
                  prev := (if w.act.dir = 1 ∧ w.act.enable = true ∧ w.shadow.dir = 1 then some w.act else none),
                  graceEnd := s.now + (s.portAt port).grace * us })
    (hv : v = s.setWindow port window w')
    (hx : x = if w.shadow.ld != w.act.ld || w.shadow.dir != 0 then (v.unbind fun x => x.port == port && x.window == window).modResult fun r =>
      { r with ranges := r.ranges.map fun x => if x.peer = some (port, window) then { x with peer := none } else x } else v)
    (hy : y = (x.port.packets.filter fun k => k.port == port && k.window == window && k.hold).foldl State.resend x) :
    exec (.commitPeerWindow h port window) s = .next ((y.pump port).replied h 0xC0F2 [] []) := by
  have hvalid : ¬ ((port ≠ 4 ∧ port ≠ 5) ∨ 63 < window) := by omega
  subst hw hw' hv hx hy
  show execCommitPeerWindow h port window s = _
  rw [execCommitPeerWindow, State.mbRun_takes ht (if_neg hvalid)]

theorem exec_getPeerWindow_of_own {w : Window} (ht : s.takes h { opcode := 0xC0F3, ld := true, fm := .module, len := [10] })
    (hw : w = s.window port window) (hown : h.src < 16 → w.act.ld = h.src ∧ (w.act.len ≠ 0 ∨ w.act.enable = true)) :
    exec (.getPeerWindow h port window) s = .next (s.replied h 0xC0F3 (w.act.fields 0 port window w.gen ++
      w.shadow.fields 32 port window w.gen ++ [⟨64, 4, if w.prev.isSome then (w.graceEnd - s.now) / us else 0⟩]) []) := by
  subst hw
  have hvalid : ¬ ((port ≠ 4 ∧ port ≠ 5) ∨ 63 < window ∨ (h.src < 16 ∧ ((s.window port window).act.ld ≠ h.src ∨
      ((s.window port window).act.len = 0 ∧ (s.window port window).act.enable = false)))) := by
    simp only [not_or, Nat.not_lt]
    refine ⟨by omega, by omega, ?own⟩
    rintro ⟨hsrc, hother | ⟨hempty, hoff⟩⟩
    · exact hother (hown hsrc).1
    · exact (hown hsrc).2.elim (· hempty) (ne_true_of_eq_false hoff)
  show execGetPeerWindow h port window s = _
  rw [execGetPeerWindow, State.mbRun_takes ht (if_neg hvalid)]

theorem exec_bindSlotForward_of_outbound {dpa offset b : Nat} {w : WinDesc}
    (ht : s.takes h { opcode := 0xC0F4, ld := true, fm := .no, len := [32] }) (hdpa : dpa % 65536 = 0) (hbuf : s.bufAt h.src dpa = some b)
    (hw : w = (s.window port window).act) (hdir : w.dir = 0) (hld : w.ld = h.src) (hoffset : offset % 64 = 0)
    (hroom : offset + 64 * 512 ≤ w.len) :
    exec (.bindSlotForward h dpa port window offset) s = .next (((s.unbind fun x => x.buf == b).modPorts fun q =>
      { q with binds := q.binds ++ [{ buf := b, port := port, window := window, offset := offset }] }).replied h 0xC0F4 [] []) := by
  subst hw
  have hvalid : ¬ ((port ≠ 4 ∧ port ≠ 5) ∨ 63 < window ∨ (s.window port window).act.dir ≠ 0 ∨ (s.window port window).act.ld ≠ h.src ∨
      offset % 64 ≠ 0 ∨ (s.window port window).act.len < offset + 64 * 512) := by omega
  show execBindSlotForward h dpa port window offset s = _
  rw [execBindSlotForward, State.mbRun_takes ht (by
    simp only [if_pos hdpa, hbuf]
    exact if_neg hvalid)]

end

theorem exec_unbindSlotForward_of_settled {dpa b : Nat} (ht : s.takes h { opcode := 0xC0F5, ld := true, fm := .no, len := [16] })
    (hdpa : dpa % 65536 = 0) (hbuf : s.bufAt h.src dpa = some b)
    (hsettled : ∀ f ∈ s.port.fwds, f.buf = b → f.early = true → f.settled = true) :
    exec (.unbindSlotForward h dpa) s = .next ((s.unbind fun x => x.buf == b).replied h 0xC0F5 [] []) := by
  have hidle : ¬ (s.port.fwds.any fun f => f.buf == b && f.early && !f.settled) = true := by
    simpa using hsettled
  show execUnbindSlotForward h dpa s = _
  rw [execUnbindSlotForward, State.mbRun_takes ht (by
    simp only [if_pos hdpa, hbuf]
    exact if_neg hidle)]

end

end Sys2Proof.Machine

open Sys2Proof.Machine

/-- Settles O29: each clause is the lemma of its command. -/
theorem peerCommandsComplete : Obligations.PeerCommandsComplete := by
  unfold Obligations.PeerCommandsComplete
  refine ⟨?node, ?set, ?commit, ?get, ?bind, ?unbind⟩
  case node =>
    intro h node s v ht hnode hnode' hv
    exact exec_setNodeIdentifier_of_valid ht hnode hnode' hv
  case set =>
    intro h port window w old s ht hport hwindow hunit hlen hlen' hdir hld hold hkeeps
    exact exec_setPeerWindow_of_valid hport hwindow ht hunit hlen hlen' hdir hld hold hkeeps
  case commit =>
    intro h port window w w' s v x y ht hport hwindow hw hw' hv hx hy
    exact exec_commitPeerWindow_of_valid hport hwindow ht hw hw' hv hx hy
  case get =>
    intro h port window w s ht hport hwindow hw hown
    exact exec_getPeerWindow_of_own hport hwindow ht hw hown
  case bind =>
    intro h dpa port window offset b w s ht hdpa hbuf hport hwindow hw hdir _ hld hoffset hroom
    exact exec_bindSlotForward_of_outbound hport hwindow ht hdpa hbuf hw hdir hld hoffset hroom
  case unbind =>
    intro h dpa b s ht hdpa hbuf hsettled
    exact exec_unbindSlotForward_of_settled ht hdpa hbuf hsettled

end

section
/-! PROOFS. The six ports (O27): training (R312 to R314), lanes and lasers (R316, R319), power states (R318) and their commands. -/
namespace Sys2Proof.Machine

/-! ### A port's retrain and its weir take no time (R222, R317), so that the background command begins at the time of the command -/

@[simp] theorem State.retrain_now (s : State) (port : Nat) (fromDetect : Bool) : (s.retrain port fromDetect).now = s.now := by
  unfold State.retrain
  dsimp only
  split
  · exact State.modPorts_now ..
  · rw [State.modPort, State.modPorts_now, State.modPorts_now]

@[simp] theorem State.setGuar_now (s : State) (ld r : Nat) (g : Guar) : (s.setGuar ld r g).now = s.now := rfl

theorem State.recompute_now (s : State) (r : Nat) (was : Bool) : (s.recompute r was).now = s.now := by
  unfold State.recompute
  dsimp only
  split
  · rw [State.post_now, State.foldl_now fun _ _ => State.post_now .., State.modWeir_now, State.foldl_now fun _ _ => State.setGuar_now ..]
  · rw [State.modWeir_now, State.foldl_now fun _ _ => State.setGuar_now ..]

@[simp] theorem State.recap_now (s : State) (r : Nat) : (s.recap r).now = s.now := by
  unfold State.recap
  dsimp only
  split
  · exact State.recompute_now ..
  · rfl

/-! ### Training (Table 13.3) -/

/-- A port enters a training state now. -/
def State.trainTo (s : State) (port : Nat) (st : Training) : State := s.modPort port fun p => { p with state := st, since := s.now }

/-- Lanes of a port fail in training. -/
def State.lanesOut (s : State) (port : Nat) (lanes : List Nat) : State :=
  lanes.foldl (fun s n => s.modLane port n fun l => { l with failed := true }) s

/-- A lit port whose engine works passes the guard of PORT_TRAINING_ADVANCE and of PORT_EXIT_TO_ACTIVE. -/
theorem port_unguarded {u : State} {port : Nat} (hlit : u.lit = true) (hport : port < 6) (hengine : port ∉ u.health.engines) :
    ¬ (¬ u.lit = true ∨ 6 ≤ port ∨ u.health.engines.contains port = true) := by
  simp only [not_or, Nat.not_le, List.contains_iff_mem]
  exact ⟨not_not_intro hlit, hport, hengine⟩

section
variable {t port : Nat} {s u : State} (hu : u = s.at_ t)
include hu

section
variable {partner node : Nat} {light flit256 : Bool} {failed skew : List Nat} {p : Port}
  (hlit : u.lit = true) (hport : port < 6) (hengine : port ∉ u.health.engines) (hp : p = u.portAt port)
include hlit hport hengine hp

theorem exec_portTrainingAdvance_of_dark (hstate : p.state = .dark) (hpeer : 4 ≤ port) (hen : p.enabled = true) (hnode : u.port.node ≠ 0) :
    exec (.portTrainingAdvance t port light failed skew partner node flit256) s =
      .next ((u.modPort port fun p => { p with power := .active }).trainTo port .detect) := by
  have hgo := port_unguarded hlit hport hengine
  subst hp hu
  show execPortTrainingAdvance t port light failed skew partner node flit256 s = _
  simp only [execPortTrainingAdvance, if_neg hgo, hstate, if_pos (And.intro hpeer (And.intro hen hnode))]
  rfl

theorem exec_portTrainingAdvance_of_detect (hstate : p.state = .detect) (hlight : light = true) :
    exec (.portTrainingAdvance t port light failed skew partner node flit256) s = .next (u.trainTo port .light) := by
  have hgo := port_unguarded hlit hport hengine
  subst hp hu
  show execPortTrainingAdvance t port light failed skew partner node flit256 s = _
  simp only [execPortTrainingAdvance, if_neg hgo, hstate, if_pos hlight]
  rfl

theorem exec_portTrainingAdvance_of_light (hstate : p.state = .light) :
    exec (.portTrainingAdvance t port light failed skew partner node flit256) s = .next (u.trainTo port .equalise) := by
  have hgo := port_unguarded hlit hport hengine
  subst hp hu
  show execPortTrainingAdvance t port light failed skew partner node flit256 s = _
  simp only [execPortTrainingAdvance, if_neg hgo, hstate]
  rfl

theorem exec_portTrainingAdvance_of_equalise (hstate : p.state = .equalise) {v : State}
    (hv : v = (List.range 8).foldl (fun s n => s.free.2.modLane port n fun l => { l with margin := s.free.1 % 256 })
      (u.lanesOut port (failed.filter (· < 8)))) :
    exec (.portTrainingAdvance t port light failed skew partner node flit256) s =
      .next (if v.healthyGroup port = [] then v.attemptOver port else v.trainTo port .lock) := by
  have hgo := port_unguarded hlit hport hengine
  subst hp hu hv
  show execPortTrainingAdvance t port light failed skew partner node flit256 s = _
  simp only [execPortTrainingAdvance, if_neg hgo, hstate]
  exact (apply_ite Host.Outcome.next ..).symm

theorem exec_portTrainingAdvance_of_lock (hstate : p.state = .lock) {first : Nat} {v : State}
    (hfirst : first = ((List.range 8).filterMap fun n => if (u.laneAt port n).failed then none else skew[n]?).foldl min (skew.foldl max 0))
    (hv : v = (u.lanesOut port (failed.filter (· < 8))).lanesOut port ((List.range 8).filter fun n => decide (first + 128 < skew.getD n first))) :
    exec (.portTrainingAdvance t port light failed skew partner node flit256) s =
      .next (if v.healthyGroup port = [] then v.attemptOver port else v.trainTo port .config) := by
  have hgo := port_unguarded hlit hport hengine
  subst hp hu hv hfirst
  show execPortTrainingAdvance t port light failed skew partner node flit256 s = _
  simp only [execPortTrainingAdvance, if_neg hgo, hstate]
  exact (apply_ite Host.Outcome.next ..).symm

theorem exec_portTrainingAdvance_of_config (hstate : p.state = .config) (hmatch : p.mismatch = false) :
    exec (.portTrainingAdvance t port light failed skew partner node flit256) s = .next (u.configure port partner node flit256) := by
  have hgo := port_unguarded hlit hport hengine
  subst hp hu
  show execPortTrainingAdvance t port light failed skew partner node flit256 s = _
  simp only [execPortTrainingAdvance, if_neg hgo, hstate, if_neg (ne_true_of_eq_false hmatch)]

theorem exec_portTrainingAdvance_of_reconfig (hstate : p.state = .reconfig) :
    exec (.portTrainingAdvance t port light failed skew partner node flit256) s = .next ((u.trainTo port .active).pump port) := by
  have hgo := port_unguarded hlit hport hengine
  subst hp hu
  show execPortTrainingAdvance t port light failed skew partner node flit256 s = _
  simp only [execPortTrainingAdvance, if_neg hgo, hstate]
  rfl

end

theorem exec_portTrainingTimeout_of_due {n : Nat} (hlimit : (u.portAt port).limit = some n) (hdue : (u.portAt port).since + n ≤ u.now) :
    exec (.portTrainingTimeout t port) s = .next (u.attemptOver port) := by
  subst hu
  show execPortTrainingTimeout t port s = _
  simp only [execPortTrainingTimeout, hlimit, if_pos hdue]

theorem exec_configMismatchRetry_of_due {partner node : Nat} {flit256 : Bool} {p : Port} (hp : p = u.portAt port) (hstate : p.state = .config)
    (hmis : p.mismatch = true) (hdue : p.since + 100 * ms ≤ u.now) :
    exec (.configMismatchRetry t port partner node flit256) s = .next (u.configure port partner node flit256) := by
  subst hp hu
  exact if_pos ⟨hstate, hmis, hdue⟩

/-! ### Lanes and lasers (R316, R319) -/

theorem exec_laneFailure_of_lit {lane : Nat} (hlit : u.lit = true) (hport : port < 6) (hlane : lane < 8) :
    exec (.laneFailure t port lane) s = .next (u.failLane port lane) := by
  subst hu
  exact if_pos ⟨hlit, hport, hlane⟩

section
variable {lane wavelength bias : Nat} {v : State} (hport : port < 6) (hlane : lane < 8) (hwave : wavelength < 4)
  (hv : v = u.modLane port lane fun l => { l with bias := l.bias.set wavelength bias })
include hport hlane hwave hv

theorem exec_laserAgeing_of_known (hknown : bias < 130 ∨ wavelength ∈ (u.laneAt port lane).aged) :
    exec (.laserAgeing t port lane wavelength bias) s = .next v := by
  have hplace : ¬ (6 ≤ port ∨ 8 ≤ lane ∨ 4 ≤ wavelength) := by omega
  subst hv hu
  exact (if_neg hplace).trans (if_pos (hknown.imp_right List.contains_iff_mem.2))

theorem exec_laserAgeing_of_new (hbias : 130 ≤ bias) (hnew : wavelength ∉ (u.laneAt port lane).aged) :
    exec (.laserAgeing t port lane wavelength bias) s = .next ((v.modLane port lane fun l => { l with aged := wavelength :: l.aged }).post fmSrc 0
      (Event.of 11 31 1 [⟨64, 1, port⟩, ⟨65, 1, lane⟩, ⟨66, 1, wavelength⟩, ⟨67, 1, min bias 255⟩])) := by
  have hplace : ¬ (6 ≤ port ∨ 8 ≤ lane ∨ 4 ≤ wavelength) := by omega
  have hfirst : ¬ (bias < 130 ∨ (u.laneAt port lane).aged.contains wavelength = true) :=
    not_or.2 ⟨Nat.not_lt.2 hbias, mt List.contains_iff_mem.1 hnew⟩
  subst hv hu
  exact (if_neg hplace).trans (if_neg hfirst)

end

theorem exec_laserFailure_of_worn {lane bias : Nat} {lowPower : Bool} (hport : port < 6) (hlane : lane < 8)
    (hworn : 150 ≤ bias ∨ lowPower = true) :
    exec (.laserFailure t port lane bias lowPower) s = .next ((u.modLane port lane fun l => { l with
      laser := true
      bias := if l.bias.foldl max 0 < bias then l.bias.set (l.bias.idxOf (l.bias.foldl max 0)) bias else l.bias }).failLane port lane) := by
  have hsound : ¬ (6 ≤ port ∨ 8 ≤ lane ∨ (bias < 150 ∧ lowPower = false)) := by
    simp only [not_or, Nat.not_le]
    refine ⟨hport, hlane, fun hwell => ?_⟩
    exact hworn.elim (Nat.not_le.2 hwell.1) (ne_true_of_eq_false hwell.2)
  subst hu
  exact if_neg hsound

/-! ### Power states (R318) -/

section
variable {p : Port} (hport : port < 4) (hp : p = u.portAt port) (hstate : p.state = .active) (hpower : p.power = .active ∨ p.power = .partial_)
include hport hp hstate hpower

theorem exec_portL0p_of_narrower {width : Nat} (hwidth : width = 1 ∨ width = 2 ∨ width = 4) (hless : width < p.group.length) :
    exec (.portL0p t port width) s =
      .next ((u.modPort port fun p => { p with power := .partial_ }).setGroup port (p.group.take width)) := by
  subst hp hu
  exact if_pos ⟨hport, hstate, hpower, hwidth, hless⟩

theorem exec_portL1Entry_of_active : exec (.portL1Entry t port) s = .next (u.modPort port fun p => { p with power := .standby }) := by
  subst hp hu
  exact if_pos ⟨hport, hstate, hpower⟩

end

theorem exec_portL2Entry_of_active (hport : port < 4) (hstate : (u.portAt port).state = .active) :
    exec (.portL2Entry t port) s = .next ((u.modPort port fun p =>
      { p with state := .dark, power := .dark, since := u.now, partner := 0, partnerNode := 0 }).setGroup port []) := by
  subst hu
  exact if_pos ⟨hport, hstate⟩

theorem exec_peerStandbyTimeout_of_idle {p : Port} (hport : port = 4 ∨ port = 5) (hp : p = u.portAt port) (hstate : p.state = .active)
    (hpower : p.power = .active) (hset : 0 < p.standby) (hidle : p.lastUse + p.standby * us ≤ u.now) :
    exec (.peerStandbyTimeout t port) s = .next (u.modPort port fun p => { p with power := .standby }) := by
  subst hp hu
  exact if_pos ⟨hport, hstate, hpower, hset, hidle⟩

section
variable {p : Port} (hlit : u.lit = true) (hport : port < 6) (hengine : u.health.engines.contains port = false) (hp : p = u.portAt port)
include hlit hport hengine hp

theorem exec_portExitToActive_of_lowered (hpower : p.power = .partial_ ∨ p.power = .standby) :
    exec (.portExitToActive t port) s =
      .next (((u.modPort port fun p => { p with power := .active, lastUse := u.now }).setGroup port (u.healthyGroup port)).pump port) := by
  have hgo : ¬ (¬ u.lit = true ∨ 6 ≤ port ∨ u.health.engines.contains port = true) :=
    port_unguarded hlit hport fun hdown => ne_true_of_eq_false hengine (List.contains_iff_mem.2 hdown)
  subst hp hu
  show execPortExitToActive t port s = _
  rcases hpower with hpower | hpower
  · simp only [execPortExitToActive, if_neg hgo, hpower]
  · simp only [execPortExitToActive, if_neg hgo, hpower]

theorem exec_portExitToActive_of_dark (hpower : p.power = .dark) (hpeer : 4 ≤ port → p.enabled = true ∧ u.port.node ≠ 0) :
    exec (.portExitToActive t port) s = .next (u.modPort port fun p => { p with state := .detect, power := .active, since := u.now }) := by
  have hgo : ¬ (¬ u.lit = true ∨ 6 ≤ port ∨ u.health.engines.contains port = true) :=
    port_unguarded hlit hport fun hdown => ne_true_of_eq_false hengine (List.contains_iff_mem.2 hdown)
  have hready : ¬ (4 ≤ port ∧ (p.enabled = false ∨ u.port.node = 0)) := by
    rintro ⟨hhigh, hoff | hnone⟩
    · exact ne_true_of_eq_false hoff (hpeer hhigh).1
    · exact (hpeer hhigh).2 hnone
  subst hp hu
  show execPortExitToActive t port s = _
  simp only [execPortExitToActive, if_neg hgo, hpower, if_neg hready]

end

end

/-! ### Commands and the Retrain Link control (R317, R333, C0F6h to C0F8h) -/

theorem exec_retrainLink_of_lit {ld : Nat} {s : State} (hlit : s.lit = true) (hld : ld < 16) (hon : s.ldOn ld = true) :
    exec (.retrainLink ld) s = .next ((s.retrain (ldPort ld) false).recap (4 + ldPort ld)) := if_pos ⟨hlit, hld, hon⟩

section
variable {h : MbHdr} {port : Nat} {s : State}

theorem exec_retrainPort_of_port (ht : s.takes h { opcode := 0xC0F7, ld := false, fm := .module, len := [9], bg := true }) (hport : port < 6) :
    exec (.retrainPort h port) s = .next ((if port < 4 then (s.retrain port false).recap (4 + port) else s.retrain port false).begun h 0xC0F7
      (.retrainPort h port)) := by
  have hnow : (if port < 4 then (s.retrain port false).recap (4 + port) else s.retrain port false).now = s.now := by
    split
    · rw [State.recap_now, State.retrain_now]
    · exact State.retrain_now ..
  show execRetrainPort h port s = _
  rw [execRetrainPort, State.mbBg_takes (c := { opcode := 0xC0F7, ld := false, fm := .module, len := [9] }) ht
    (if_neg (Nat.not_le.2 hport)) hnow]

section
variable {enable standby grace : Nat} {v : State}
  (ht : s.takes h { opcode := 0xC0F6, ld := false, fm := .module, len := [20] }) (hport : port = 4 ∨ port = 5)
  (hstandby : standby ≤ 1000) (hgrace : 10 ≤ grace) (hgrace' : grace ≤ 10000)
  (hv : v = s.modPort port fun p => { p with enabled := enable == 1, standby := standby, grace := grace })
include ht hport hstandby hgrace hgrace' hv

theorem exec_setPeerPort_of_disable (henable : enable = 0) :
    exec (.setPeerPort h port enable standby grace) s = .next ((v.modPort port fun p => { p with
      state := .dark, power := .dark, since := v.now, group := [], partner := 0, partnerNode := 0, mismatch := false }).replied h 0xC0F6 [] []) := by
  have hvalid : ¬ ((port ≠ 4 ∧ port ≠ 5) ∨ 1 < enable ∨ 1000 < standby ∨ grace < 10 ∨ 10000 < grace) := by omega
  subst hv
  show execSetPeerPort h port enable standby grace s = _
  rw [execSetPeerPort, State.mbRun_takes ht ((if_neg hvalid).trans (if_pos henable))]

theorem exec_setPeerPort_of_wake (henable : enable = 1) (hdark : (v.portAt port).state = .dark) (hlit : v.lit = true) (hnode : v.port.node ≠ 0) :
    exec (.setPeerPort h port enable standby grace) s =
      .next ((v.modPort port fun p => { p with state := .detect, power := .active, since := v.now }).replied h 0xC0F6 [] []) := by
  have hvalid : ¬ ((port ≠ 4 ∧ port ≠ 5) ∨ 1 < enable ∨ 1000 < standby ∨ grace < 10 ∨ 10000 < grace) := by omega
  have hon : ¬ enable = 0 := by omega
  subst hv
  show execSetPeerPort h port enable standby grace s = _
  rw [execSetPeerPort, State.mbRun_takes ht ((if_neg hvalid).trans ((if_neg hon).trans (if_pos ⟨hdark, hlit, hnode⟩)))]

theorem exec_setPeerPort_of_lit (henable : enable = 1) (hlight : (v.portAt port).state ≠ .dark) :
    exec (.setPeerPort h port enable standby grace) s = .next (v.replied h 0xC0F6 [] []) := by
  have hvalid : ¬ ((port ≠ 4 ∧ port ≠ 5) ∨ 1 < enable ∨ 1000 < standby ∨ grace < 10 ∨ 10000 < grace) := by omega
  have hon : ¬ enable = 0 := by omega
  subst hv
  show execSetPeerPort h port enable standby grace s = _
  rw [execSetPeerPort, State.mbRun_takes ht ((if_neg hvalid).trans ((if_neg hon).trans (if_neg fun hwake => hlight hwake.1)))]

end

theorem exec_getPortTelemetry_of_port (ht : s.takes h { opcode := 0xC0F8, ld := false, fm := .module, len := [9] }) (hport : port < 6) :
    exec (.getPortTelemetry h port) s = .next ((s.telemetry port 32 0).2.replied h 0xC0F8 [] (s.telemetry port 32 0).1) := by
  show execGetPortTelemetry h port s = _
  rw [execGetPortTelemetry, State.mbRun_takes ht (if_neg (Nat.not_le.2 hport))]

end

end Sys2Proof.Machine

open Sys2Proof.Machine

/-- Settles O27: each clause is the lemma of its event or command. -/
theorem portsComplete : Obligations.PortsComplete := by
  unfold Obligations.PortsComplete
  refine ⟨?training, ?timeout, ?mismatch, ?lane, ?ageing, ?laser, ?low, ?l2, ?standby, ?exit, ?link, ?retrain, ?peer, ?telemetry⟩
  case training =>
    intro t port partner node light flit256 failed skew p dst fail s u hu hlit hport hengine hp hdst hfail
    obtain rfl : dst = fun v st => v.trainTo port st := funext₂ hdst
    obtain rfl : fail = fun v ns => v.lanesOut port ns := funext₂ hfail
    refine ⟨fun hdark hpeer hen hnode => ?dark, fun hdetect hlight => ?detect, fun hl => ?light, fun heq v hv => ?equalise,
      fun hlock first v hfirst hv => ?lock, fun hconfig hmatch => ?config, fun hreconfig => ?reconfig⟩
    case dark => exact exec_portTrainingAdvance_of_dark hu hlit hport hengine hp hdark hpeer hen hnode
    case detect => exact exec_portTrainingAdvance_of_detect hu hlit hport hengine hp hdetect hlight
    case light => exact exec_portTrainingAdvance_of_light hu hlit hport hengine hp hl
    case equalise => exact exec_portTrainingAdvance_of_equalise hu hlit hport hengine hp heq hv
    case lock => exact exec_portTrainingAdvance_of_lock hu hlit hport hengine hp hlock hfirst hv
    case config => exact exec_portTrainingAdvance_of_config hu hlit hport hengine hp hconfig hmatch
    case reconfig => exact exec_portTrainingAdvance_of_reconfig hu hlit hport hengine hp hreconfig
  case timeout =>
    intro t port n s u hu hlimit hdue
    exact exec_portTrainingTimeout_of_due hu hlimit hdue
  case mismatch =>
    intro t port partner node flit256 p s u hu hp hstate hmis hdue
    exact exec_configMismatchRetry_of_due hu hp hstate hmis hdue
  case lane =>
    intro t port lane s u hu hlit hport hlane
    exact exec_laneFailure_of_lit hu hlit hport hlane
  case ageing =>
    intro t port lane wavelength bias s u v hu hport hlane hwave hv
    exact ⟨exec_laserAgeing_of_known hu hport hlane hwave hv, exec_laserAgeing_of_new hu hport hlane hwave hv⟩
  case laser =>
    intro t port lane bias lowPower s u hu hport hlane hworn
    exact exec_laserFailure_of_worn hu hport hlane hworn
  case low =>
    intro t port width p s u hu hport hp hstate hpower
    exact ⟨exec_portL0p_of_narrower hu hport hp hstate hpower, exec_portL1Entry_of_active hu hport hp hstate hpower⟩
  case l2 =>
    intro t port s u hu hport hstate
    exact exec_portL2Entry_of_active hu hport hstate
  case standby =>
    intro t port p s u hu hport hp hstate hpower hset hidle
    exact exec_peerStandbyTimeout_of_idle hu hport hp hstate hpower hset hidle
  case exit =>
    intro t port p s u hu hlit hport hengine hp
    exact ⟨exec_portExitToActive_of_lowered hu hlit hport hengine hp, exec_portExitToActive_of_dark hu hlit hport hengine hp⟩
  case link =>
    intro ld s hlit hld hon
    exact exec_retrainLink_of_lit hlit hld hon
  case retrain =>
    intro h port s ht hport
    exact exec_retrainPort_of_port ht hport
  case peer =>
    intro h port enable standby grace s v ht hport _ hstandby hgrace hgrace' hv
    exact ⟨exec_setPeerPort_of_disable ht hport hstandby hgrace hgrace' hv, exec_setPeerPort_of_wake ht hport hstandby hgrace hgrace' hv,
      exec_setPeerPort_of_lit ht hport hstandby hgrace hgrace' hv⟩
  case telemetry =>
    intro h port s ht hport
    exact exec_getPortTelemetry_of_port ht hport

end

section
/-! PROOFS. The CXL endpoint (O31): decoders, resets (R348, R349), reported errors (R329, R346), device reads (R350, R351), IDE (R352), CDAT
(R353) and SPDM (R383 to R385). -/
namespace Sys2Proof.Machine

/-! ### HDM decoders (R337) -/

section
variable {ld k : Nat} {d : HdmSetup} {v : Hdm} {s u : State} (hio : s.ioOk ld = true) (hld : ld < 16) (hk : k < 8)
  (hv : v = { base := d.base, size := d.hpaSize, ways := d.ways, gran := d.gran, target := d.target, skip := d.skip, bi := d.bi })
  (hu : u = s.modCxe fun c => { c with hdm := c.hdm.set (8 * ld + k) v })
include hio hld hk hv hu

/-- The decoder is put in place, committed where every check holds, else with its error bit. -/
theorem exec_hdmDecoderCommit_of_io :
    exec (.hdmDecoderCommit ld k d) s = .next (if waysOk d.ways && granOk d.gran && d.hpaSize % (granule * d.ways) == 0
        && ((List.range k).all fun i => (s.hdmAt ld i).committed) && decide (u.dbase ld k + v.dpaSize ≤ (s.ext.parts.get ld).dpaSize * granule)
        && (!d.bi || (s.cxe.lds.get ld).biEnable)
      then s.modCxe fun c => { c with hdm := c.hdm.set (8 * ld + k) { v with committed := true } }
      else s.modCxe fun c => { c with hdm := c.hdm.set (8 * ld + k) { v with error := true } }) := by
  have hplace : ¬ (¬ s.ioOk ld = true ∨ 16 ≤ ld ∨ 8 ≤ k) := by
    simp only [not_or, Nat.not_le]
    exact ⟨not_not_intro hio, hld, hk⟩
  subst hu hv
  exact if_neg hplace

theorem exec_hdmDecoderCommit_of_valid (hways : waysOk d.ways = true) (hgran : granOk d.gran = true) (hsize : d.hpaSize % (granule * d.ways) = 0)
    (horder : ∀ i < k, (s.hdmAt ld i).committed = true) (hroom : u.dbase ld k + v.dpaSize ≤ (s.ext.parts.get ld).dpaSize * granule)
    (hbi : d.bi = true → (s.cxe.lds.get ld).biEnable = true) :
    exec (.hdmDecoderCommit ld k d) s = .next (s.modCxe fun c => { c with hdm := c.hdm.set (8 * ld + k) { v with committed := true } }) := by
  rw [exec_hdmDecoderCommit_of_io hio hld hk hv hu, if_pos]
  simp only [Bool.and_eq_true, beq_iff_eq, List.all_eq_true, List.mem_range, decide_eq_true_eq]
  refine ⟨⟨⟨⟨⟨hways, hgran⟩, hsize⟩, horder⟩, hroom⟩, ?bi⟩
  cases hd : d.bi with
  | false => rfl
  | true => exact hbi hd

theorem exec_hdmDecoderCommit_of_invalid (hbad : waysOk d.ways = false ∨ granOk d.gran = false ∨ d.hpaSize % (granule * d.ways) ≠ 0) :
    exec (.hdmDecoderCommit ld k d) s = .next (s.modCxe fun c => { c with hdm := c.hdm.set (8 * ld + k) { v with error := true } }) := by
  rw [exec_hdmDecoderCommit_of_io hio hld hk hv hu, if_neg]
  simp only [Bool.and_eq_true, beq_iff_eq]
  rintro ⟨⟨⟨⟨⟨hways, hgran⟩, hsize⟩, -⟩, -⟩, -⟩
  rcases hbad with h | h | h
  · exact ne_true_of_eq_false h hways
  · exact ne_true_of_eq_false h hgran
  · exact h hsize

end

/-! ### Resets (R348, R349, R351) -/

section
variable {t : Nat} {s u : State} (hu : u = s.at_ t)
include hu

section
variable {port : Nat} (hlit : u.lit = true) (hport : port < 4)
include hlit hport

theorem exec_hotReset_of_lit : exec (.hotReset t port) s = .next (u.portReset port 1) := by
  subst hu
  exact if_pos ⟨hlit, hport⟩

theorem exec_linkDown_of_lit : exec (.linkDown t port) s = .next (u.portReset port 2) := by
  subst hu
  exact if_pos ⟨hlit, hport⟩

end

theorem exec_ldIdHotReset_of_io {vector : BitVec 16} (hio : u.ioOk fmSrc = true) :
    exec (.ldIdHotReset t vector) s =
      .next ((allLds.filter fun ld => vector.getLsbD ld && u.ldOn ld).foldl (fun s ld => s.ldReset ld 3) u) := by
  subst hu
  exact if_pos hio

theorem exec_cxlReset_of_io {ld : Nat} {memClear : Bool} (hio : u.ioOk ld = true) (hld : ld < 16) :
    exec (.cxlReset t ld memClear) s = .next (u.ldReset ld (if memClear then 5 else 4)) := by
  subst hu
  exact if_pos ⟨hio, hld⟩

section
variable {ld : Nat} (hon : u.ldOn ld = true) (hlit : u.lit = true)
include hon hlit

/-- The FM-owned LD only ends its mailbox command (R348). -/
theorem exec_flr_of_fm (hld : ld = fmSrc) : exec (.flr t ld) s = .next (u.stopJob fmSrc) := by
  have hgo : ¬ (¬ u.ldOn ld = true ∨ ¬ u.lit = true) := not_or.2 ⟨not_not_intro hon, not_not_intro hlit⟩
  subst hu
  exact (if_neg hgo).trans (if_pos hld)

theorem exec_flr_of_host (hld : ld < 16) :
    exec (.flr t ld) s = .next ((u.ldReset ld 6).modCxeLd ld fun l => { l with flrUntil := u.now + min l.timeout (90 * ms) }) := by
  have hgo : ¬ (¬ u.ldOn ld = true ∨ ¬ u.lit = true) := not_or.2 ⟨not_not_intro hon, not_not_intro hlit⟩
  have hhost : ld ≠ fmSrc := Nat.ne_of_lt hld
  subst hu
  exact (if_neg hgo).trans ((if_neg hhost).trans (if_neg (Nat.not_le.2 hld)))

end

/-! ### Device reads (R351) -/

section
variable {ld tag : Nat} {data : Bytes} (hup : u.up = true) (hon : u.ldOn ld = true)
include hup hon

section
variable {d : Dma} {v : State} (hd : u.cxe.dmas.find? (fun d => d.ld = ld ∧ d.tag = tag) = some d)
  (hv : v = u.modCxe fun c => { c with dmas := c.dmas.filter fun x => ¬ (x.ld = ld ∧ x.tag = tag) })
include hd hv

theorem exec_dmaCompletion_of_live (hlive : d.drop = false) : exec (.dmaCompletion t ld tag data) s = .next v := by
  have hgo : ¬ (¬ u.up = true ∨ ¬ u.ldOn ld = true) := not_or.2 ⟨not_not_intro hup, not_not_intro hon⟩
  subst hv hu
  show execDmaCompletion t ld tag data s = _
  simp only [execDmaCompletion, if_neg hgo, hd, if_pos (ne_true_of_eq_false hlive)]

theorem exec_dmaCompletion_of_late (hdrop : d.drop = true) (hflr : (v.cxe.lds.get ld).flrUntil ≠ 0) (hpast : (v.cxe.lds.get ld).flrUntil < v.now) :
    exec (.dmaCompletion t ld tag data) s = .next (v.modCxeLd ld fun l => { l with dmaLate := bump 16 l.dmaLate 1 }) := by
  have hgo : ¬ (¬ u.up = true ∨ ¬ u.ldOn ld = true) := not_or.2 ⟨not_not_intro hup, not_not_intro hon⟩
  subst hv hu
  show execDmaCompletion t ld tag data s = _
  simp only [execDmaCompletion, if_neg hgo, hd, if_neg (not_not_intro hdrop), if_pos (And.intro hflr hpast)]

end

theorem exec_dmaCompletion_of_unexpected (hnone : u.cxe.dmas.find? (fun d => d.ld = ld ∧ d.tag = tag) = none) :
    exec (.dmaCompletion t ld tag data) s = .next (u.aerUnc ld 16 []) := by
  have hgo : ¬ (¬ u.up = true ∨ ¬ u.ldOn ld = true) := not_or.2 ⟨not_not_intro hup, not_not_intro hon⟩
  subst hu
  show execDmaCompletion t ld tag data s = _
  simp only [execDmaCompletion, if_neg hgo, hnone]

end

theorem exec_dmaCompletionTimeout_of_due {ld tag : Nat} {d : Dma}
    (hd : u.cxe.dmas.find? (fun d => d.ld = ld ∧ d.tag = tag ∧ d.drop = false) = some d)
    (hdue : d.start + (u.cxe.lds.get ld).timeout ≤ u.now) :
    exec (.dmaCompletionTimeout t ld tag) s = .next (((((u.modCxe fun c =>
      { c with dmas := c.dmas.filter fun x => ¬ (x.ld = ld ∧ x.tag = tag) }).modCxeLd ld fun l =>
        { l with dmaTimeout := bump 16 l.dmaTimeout 1 }).aerUnc ld 14 []).endJob ld .internalError 0)) := by
  subst hu
  show execDmaCompletionTimeout t ld tag s = _
  simp only [execDmaCompletionTimeout, hd, if_pos hdue]

theorem exec_ideIntegrityFail_of_secure {port : Nat} {v : State} (hup : u.up = true) (hport : port < 4) (hide : (u.cxe.ports.get port).ide = 2)
    (hv : v = (u.onPort port fun s ld => s.rasUnc ld 16 []).modCxe fun c =>
      { c with ports := c.ports.upd port fun p => { p with ideFail := bump 16 p.ideFail 1 } }) :
    exec (.ideIntegrityFail t port) s =
      .next ((v.portReset port 2).modCxe fun c => { c with ports := c.ports.upd port fun p => { p with ide := 3 } }) := by
  have hgo : ¬ (¬ u.up = true ∨ 4 ≤ port ∨ (u.cxe.ports.get port).ide ≠ 2) := by
    simp only [not_or, Nat.not_le]
    exact ⟨not_not_intro hup, hport, not_not_intro hide⟩
  subst hv hu
  exact if_neg hgo

end

/-! ### Link and request errors (R310, R329, R346) -/

section
variable {port : Nat} {s : State} (hlit : s.lit = true) (hport : port < 4)
include hlit hport

theorem exec_cxlRsvdEncoding_of_lit {flit : Bytes} :
    exec (.cxlRsvdEncoding port flit) s = .next (s.onPort port fun s ld => s.rasUnc ld 9 flit) := if_pos ⟨hlit, hport⟩

theorem exec_flitCrcFailure_of_host {e : FlitErr} {header : Bytes} {a b c d : State}
    (ha : a = (s.takeWords port e.words).onPort port fun s ld => s.aerCor ld 0)
    (hb : b = if e.uncorrectable then a.onPort port (fun s ld => s.rasCor ld 6 header) else a)
    (hc : c = if e.rollover then b.onPort port (fun s ld => s.aerCor ld 8) else b)
    (hd : d = if e.crcThreshold then c.onPort port (fun s ld => s.rasCor ld 2 header) else c) :
    exec (.flitCrcFailure port e header) s =
      .next (if e.retryThreshold then d.onPort port (fun s ld => s.rasCor ld 3 header) else d) := by
  have hgo : ¬ (¬ s.lit = true ∨ 6 ≤ port) := not_or.2 ⟨not_not_intro hlit, by omega⟩
  subst ha hb hc hd
  exact (if_neg hgo).trans (if_neg (Nat.not_le.2 hport))

end

/-! ### Requests of CXL.io that reach their function -/

section
variable {ld : Nat} {s : State} (hio : s.ioOk ld = true)
include hio

theorem exec_cxlIoPoisonedWrite_of_io {header : Bytes} : exec (.cxlIoPoisonedWrite ld header) s = .next (s.aerUnc ld 12 header) :=
  if_pos hio

theorem exec_busMasterDisable_of_io {v : State}
    (hv : v = s.modCxe fun c => { c with
      bme := c.bme.set ld false
      dmas := c.dmas.map fun d => if d.ld = ld then { d with drop := true } else d }) :
    exec (.busMasterDisable ld) s =
      .next (if s.cxe.dmas.any fun d => d.ld == ld && !d.drop then v.endJob ld .busMasterDisabled 0 else v) := by
  subst hv
  exact if_neg (not_not_intro hio)

theorem exec_busMasterEnable_of_io :
    exec (.busMasterEnable ld) s = .next (((List.range 6).filter fun v => bitOf (s.cxe.msix.get ld) v).foldl (fun s v => s.send (.msix ld v))
      (s.modCxe fun c => { c with bme := c.bme.set ld true, msix := c.msix.set ld 0 })) := if_neg (not_not_intro hio)

theorem exec_ideKeyProgram_of_session {session : Nat} {activate : Bool} {ks : List (BitVec 256)} {u : State} (hide : s.ideLd (ldPort ld) = some ld)
    (hsession : ∃ x ∈ s.cxe.sessions, x.ld = ld ∧ x.id = session) (hks : ks = (List.range 4).map (Config.ideKey s.freeCtr))
    (hu : u = { s with freeCtr := s.freeCtr + 1 }) :
    exec (.ideKeyProgram ld session activate) s = .next ((u.modCxe fun c =>
      { c with ports := c.ports.upd (ldPort ld) fun p => p.takeKeys ks activate }).send (.cxlIo ld 9 [⟨0, 1, b2n activate⟩] [])) := by
  have hgo : ¬ (¬ s.ioOk ld = true ∨ s.ideLd (ldPort ld) ≠ some ld ∨ ¬ s.cxe.sessions.any (fun x => x.ld == ld && x.id == session) = true) := by
    simp only [not_or, not_not, List.any_eq_true, Bool.and_eq_true, beq_iff_eq]
    exact ⟨hio, hide, hsession⟩
  subst hks hu
  exact if_neg hgo

section
variable (hld : ld < 16)
include hld

/-- A request of CXL.io for a host's LD passes the guard of CDAT and of SPDM. -/
theorem hostIo_unguarded : ¬ (¬ s.ioOk ld = true ∨ 16 ≤ ld) := not_or.2 ⟨not_not_intro hio, Nat.not_le.2 hld⟩

theorem exec_cdatTableAccess_of_host {regs : List (Nat × (Nat × Nat) × Word)}
    (hregs : regs = (s.ext.parts.get ld).regions.zipIdx.filterMap fun p => (s.regionProfile ld p.2).map fun w => (p.2, p.1, w)) :
    exec (.cdatTableAccess ld) s = .next (s.send (.cxlIo ld 5
      [⟨0, 4, s.cxe.cdatSeq.get ld⟩, ⟨4, 2, 340⟩, ⟨6, 2, 380⟩, ⟨8, 2, 50 * (s.portAt (ldPort ld)).group.length⟩]
      (regs.flatMap fun r => layout 16 [⟨0, 1, r.1⟩, ⟨1, 1, b2n (Prof.durable r.2.2) + 2 * b2n (Prof.shared r.2.2)⟩, ⟨8, 4, r.2.1.1⟩,
        ⟨12, 4, r.2.1.2⟩]))) := by
  subst hregs
  exact if_neg (hostIo_unguarded hio hld)

theorem exec_spdmGetMeasurements_of_count {index : Nat} {signed : Bool} (hindex : index = 0) :
    exec (.spdmGetMeasurements ld index signed) s = .next (s.send (.cxlIo ld 6 [⟨0, 1, 0⟩, ⟨1, 1, 8⟩] [])) := by
  have hknown : ¬ 8 < index := by omega
  exact (if_neg (hostIo_unguarded hio hld)).trans ((if_neg hknown).trans (if_pos hindex))

theorem exec_spdmGetMeasurements_of_block {index : Nat} {signed : Bool} (hindex : 1 ≤ index) (hindex' : index ≤ 8) :
    exec (.spdmGetMeasurements ld index signed) s = .next (s.send (.cxlIo ld 6 [⟨0, 1, index⟩, ⟨1, 1, b2n signed⟩]
      (s.measurement ld index ++ if signed then Config.identitySign (s.measurement ld index) else []))) := by
  have hsome : ¬ index = 0 := by omega
  exact (if_neg (hostIo_unguarded hio hld)).trans ((if_neg (Nat.not_lt.2 hindex')).trans (if_neg hsome))

theorem exec_spdmKeyExchange_of_room {id : Nat} (hroom : (s.cxe.sessions.filter fun x => x.ld = ld).length < 2)
    (hid : id = (lowestFree ((s.cxe.sessions.filter fun x => x.ld = ld).map Session.id) 2).getD 0) :
    exec (.spdmKeyExchange ld) s = .next ((({ s with freeCtr := s.freeCtr + 1 } : State).modCxe fun c => { c with sessions := c.sessions ++
      [{ ld := ld, id := id, key := Config.sessionKey s.freeCtr }] }).send (.cxlIo ld 7 [⟨0, 2, id⟩] [])) := by
  subst hid
  exact (if_neg (hostIo_unguarded hio hld)).trans (if_neg (Nat.not_le.2 hroom))

end

end

/-! ### Sessions that end and power management: neither asks for D0 (Table 14.2) -/

theorem exec_spdmEndSession (ld session : Nat) (s : State) :
    exec (.spdmEndSession ld session) s =
      .next (s.modCxe fun c => { c with sessions := c.sessions.filter fun x => ¬ (x.ld = ld ∧ x.id = session) }) := rfl

theorem exec_d3hotEntry_of_served {ld : Nat} {toD3 : Bool} {s : State} (hphase : s.phase = .running ∨ s.phase = .booting)
    (hon : s.ldOn ld = true) : exec (.d3hotEntry ld toD3) s = .next (s.modCxeLd ld fun l => { l with d3 := toD3 }) :=
  if_pos ⟨hphase, hon⟩

end Sys2Proof.Machine

open Sys2Proof.Machine

/-- Settles O31: each clause is the lemma of its event or request. -/
theorem endpointComplete : Obligations.EndpointComplete := by
  unfold Obligations.EndpointComplete
  refine ⟨?hdm, ?port, ?ldid, ?cxl, ?flr, ?rsvd, ?poison, ?crc, ?disable, ?enable, ?dma, ?unexpected, ?dmaTimeout, ?ideFail, ?ideKey, ?cdat,
    ?measure, ?exchange, ?endSession, ?d3⟩
  case hdm =>
    intro ld k d v s u hio hld hk hv hu
    exact ⟨exec_hdmDecoderCommit_of_valid hio hld hk hv hu, exec_hdmDecoderCommit_of_invalid hio hld hk hv hu⟩
  case port =>
    intro t port s u hu hlit hport
    exact ⟨exec_hotReset_of_lit hu hlit hport, exec_linkDown_of_lit hu hlit hport⟩
  case ldid =>
    intro t vector s u hu hio
    exact exec_ldIdHotReset_of_io hu hio
  case cxl =>
    intro t ld memClear s u hu hio hld
    exact exec_cxlReset_of_io hu hio hld
  case flr =>
    intro t ld s u hu hon hlit
    exact ⟨exec_flr_of_fm hu hon hlit, exec_flr_of_host hu hon hlit⟩
  case rsvd =>
    intro port flit s hlit hport
    exact exec_cxlRsvdEncoding_of_lit hlit hport
  case poison =>
    intro ld header s hio
    exact exec_cxlIoPoisonedWrite_of_io hio
  case crc =>
    intro port e header s a b c d hlit hport ha hb hc hd
    exact exec_flitCrcFailure_of_host hlit hport ha hb hc hd
  case disable =>
    intro ld s v hio hv
    exact exec_busMasterDisable_of_io hio hv
  case enable =>
    intro ld s hio
    exact exec_busMasterEnable_of_io hio
  case dma =>
    intro t ld tag data d s u v hu hup hon hd hv
    exact ⟨exec_dmaCompletion_of_live hu hup hon hd hv, exec_dmaCompletion_of_late hu hup hon hd hv⟩
  case unexpected =>
    intro t ld tag data s u hu hup hon hnone
    exact exec_dmaCompletion_of_unexpected hu hup hon hnone
  case dmaTimeout =>
    intro t ld tag d s u hu hd hdue
    exact exec_dmaCompletionTimeout_of_due hu hd hdue
  case ideFail =>
    intro t port s u v hu hup hport hide hv
    exact exec_ideIntegrityFail_of_secure hu hup hport hide hv
  case ideKey =>
    intro ld session activate s hio hide hsession ks u hks hu
    exact exec_ideKeyProgram_of_session hio hide hsession hks hu
  case cdat =>
    intro ld regs s hio hld hregs
    exact exec_cdatTableAccess_of_host hio hld hregs
  case measure =>
    intro ld index signed s hio hld
    exact ⟨exec_spdmGetMeasurements_of_count hio hld, exec_spdmGetMeasurements_of_block hio hld⟩
  case exchange =>
    intro ld id s hio hld hroom hid
    exact exec_spdmKeyExchange_of_room hio hld hroom hid
  case endSession =>
    intro ld session s
    exact exec_spdmEndSession ld session s
  case d3 =>
    intro ld toD3 s hphase hon
    exact exec_d3hotEntry_of_served hphase hon

end

section
/-! PROOFS. Health (O33): test slices (R405 to R411), calibration (R412), path monitors and tentering (R413, R414). -/
namespace Sys2Proof.Machine

/-! ### Marking a unit takes no time, so that a requested slice begins at the time of its command -/

@[simp] theorem State.modStone_now (s : State) (k : Nat) (f : Stone → Stone) : (s.modStone k f).now = s.now := rfl

@[simp] theorem State.modSlice_now (s : State) (slice unit : Nat) (f : SliceRec → SliceRec) : (s.modSlice slice unit f).now = s.now := rfl

@[simp] theorem State.beginClear_now (s : State) (k : Nat) : (s.beginClear k).now = s.now := rfl

@[simp] theorem State.moveQueue_now (s : State) (k : Nat) : (s.moveQueue k).now = s.now := State.placePieces_now ..

@[simp] theorem State.clearUnit_now (s : State) (utype unit : Nat) : (s.clearUnit utype unit).now = s.now := by
  unfold State.clearUnit
  split
  · rfl
  · rfl

theorem State.markSlice_now (s : State) (slice unit : Nat) (at_ : Bool) : (s.markSlice slice unit at_).now = s.now := by
  unfold State.markSlice
  extract_lets begun go marked stone
  have hstone : stone.now = s.now := (State.modStone_now ..).trans (State.modSlice_now ..)
  split
  · split
    · exact (State.clearUnit_now ..).trans (State.modSlice_now ..)
    · exact State.modSlice_now ..
  · split
    · exact (State.drainStone_now ..).trans hstone
    · exact (State.beginClear_now ..).trans ((State.modStone_now ..).trans hstone)
    · exact (State.beginClear_now ..).trans hstone
    · exact (State.moveQueue_now ..).trans hstone
    · exact hstone

/-! ### Slices (R406, R410, R411) -/

section
variable {t slice unit : Nat} {s u : State} (hu : u = s.at_ t)
include hu

theorem exec_sliceDue_of_due {every : Nat} {r : SliceRec} {v : State} (hr : r = u.sliceRec slice unit)
    (hevery : every = u.health.intervals.getD slice 0) (hup : u.up = true) (hhas : sliceHas slice unit = true) (hen : every ≠ 0)
    (hmarked : r.marked = false) (hwell : u.unitFailedNow (sliceUtype slice) unit = false)
    (hdue : r.due.isSome = true ∨ r.lastDone + every * (60 * sec) ≤ u.powered)
    (hv : v = u.modSlice slice unit fun r => { r with due := some (r.due.getD u.now) }) :
    exec (.sliceDue t slice unit) s = .next (v.markDue slice unit (v.unitGap (sliceUtype slice) unit)) := by
  have hgo : ¬ (¬ u.up = true ∨ ¬ sliceHas slice unit = true ∨ every = 0 ∨ r.marked = true ∨
      u.unitFailedNow (sliceUtype slice) unit = true) := by
    simp only [not_or]
    exact ⟨not_not_intro hup, not_not_intro hhas, hen, ne_true_of_eq_false hmarked, ne_true_of_eq_false hwell⟩
  have hnow : ¬ (r.due.isNone = true ∧ u.powered < r.lastDone + every * (60 * sec)) := by
    rintro ⟨hnone, hearly⟩
    rcases hdue with hsome | hpast
    · rw [Option.isNone_iff_eq_none.1 hnone] at hsome
      exact absurd hsome (by decide)
    · exact Nat.not_le.2 hearly hpast
  subst hv hr hevery hu
  exact (if_neg hgo).trans (if_neg hnow)

theorem exec_sliceGapTimeout_of_due {d : Nat} {r : SliceRec} (hr : r = u.sliceRec slice unit) (hd : r.due = some d) (hup : u.up = true)
    (hhas : sliceHas slice unit = true) (hmarked : r.marked = false) (hdue : d + 600 * sec ≤ u.now) :
    exec (.sliceGapTimeout t slice unit) s = .next (u.markDue slice unit true) := by
  subst hr hu
  show execSliceGapTimeout t slice unit s = _
  simp only [execSliceGapTimeout, hd,
    if_pos (And.intro hup (And.intro hhas (And.intro (ne_true_of_eq_false hmarked) hdue)))]

theorem exec_sliceDeferralExpire_of_due {d : Nat} {r : SliceRec} (hr : r = u.sliceRec slice unit) (hd : r.due = some d) (hup : u.up = true)
    (hslice : slice < 3) (hmarked : r.marked = true) (hdrain : (u.stoneAt unit).state = .draining)
    (hruns : (u.stoneAt unit).running.isSome = true) (hdue : d + u.health.deferral * (60 * sec) ≤ u.now) :
    exec (.sliceDeferralExpire t slice unit) s = .next (u.modStone unit fun st => { st with preempt := true }) := by
  subst hr hu
  show execSliceDeferralExpire t slice unit s = _
  simp only [execSliceDeferralExpire, hd,
    if_pos (And.intro hup (And.intro hslice (And.intro hmarked (And.intro hdrain (And.intro hruns hdue)))))]

theorem exec_sliceComplete_of_running {o : SliceOutcome} {failed : Bool} {v w x : State} (hhas : sliceHas slice unit = true) (hup : u.up = true)
    (hruns : (u.sliceRec slice unit).running = true) (hmargin : o = .margin → slice ≠ 2 ∧ slice ≠ 4)
    (hfailed : failed = u.unitFailedNow (sliceUtype slice) unit)
    (hv : v = u.modSlice slice unit fun r => { r with
      lastDone := u.powered, due := none, marked := false, running := false, requested := false })
    (hw : w = (v.noteSlice slice unit o).judge slice unit (u.unitRec (sliceUtype slice) unit).state failed o) (hphase : w.phase ≠ .booting)
    (hx : x = ((if sliceUtype slice = 1 then w.afterSlice slice unit else w.clearUnit (sliceUtype slice) unit).endSliceJobs
      slice unit failed o).pumpStone.caps) :
    exec (.sliceComplete t slice unit o) s = .next (if x.hubLost then x.hubFails else x.noteVitals u) := by
  have hgo : ¬ (¬ sliceHas slice unit = true ∨ ¬ (u.phase = .booting ∨ (u.up = true ∧ (u.sliceRec slice unit).running = true)) ∨
      (o = .margin ∧ (slice = 2 ∨ slice = 4))) := by
    rintro (hno | hno | ⟨ho, hslice | hslice⟩)
    · exact hno hhas
    · exact hno (.inr ⟨hup, hruns⟩)
    · exact (hmargin ho).1 hslice
    · exact (hmargin ho).2 hslice
  subst hx hw hv hfailed hu
  exact (if_neg hgo).trans (if_neg hphase)

end

/-! ### Commands about slices (C0A8h to C0ABh) -/

section
variable {h : MbHdr} {s : State}

section
variable {utype unit slice : Nat} (ht : s.takes h { opcode := 0xC0A8, ld := false, fm := .module, len := [13], bg := true })
  (hhas : sliceHas slice unit = true) (hutype : sliceUtype slice = utype) (hidle : s.unitBusy utype unit = false)
include ht hhas hutype hidle

/-- A FAILED stone or checker runs every slice of its UTYPE (R411). -/
theorem exec_requestTestSlice_of_failed (hfailed : s.unitFailedNow utype unit = true) (hhub : utype ≠ 6) :
    exec (.requestTestSlice h utype unit slice) s =
      .next (((utypeSlices utype).foldl (fun s sl => s.markSlice sl unit true) s).begun h 0xC0A8 (.requestTestSlice h utype unit slice)) := by
  have hvalid : ¬ (¬ sliceHas slice unit = true ∨ sliceUtype slice ≠ utype) := not_or.2 ⟨not_not_intro hhas, not_not_intro hutype⟩
  show execRequestTestSlice h utype unit slice s = _
  rw [execRequestTestSlice, State.mbBg_takes (c := { opcode := 0xC0A8, ld := false, fm := .module, len := [13] }) ht
    ((if_neg hvalid).trans ((if_neg (ne_true_of_eq_false hidle)).trans (if_pos ⟨hfailed, hhub⟩)))
    (State.foldl_now (fun s sl => s.markSlice_now sl unit true) ..)]

theorem exec_requestTestSlice_of_well (hwell : s.unitFailedNow utype unit = false ∨ utype = 6) :
    exec (.requestTestSlice h utype unit slice) s =
      .next ((s.markSlice slice unit true).begun h 0xC0A8 (.requestTestSlice h utype unit slice)) := by
  have hvalid : ¬ (¬ sliceHas slice unit = true ∨ sliceUtype slice ≠ utype) := not_or.2 ⟨not_not_intro hhas, not_not_intro hutype⟩
  have hone : ¬ (s.unitFailedNow utype unit = true ∧ utype ≠ 6) := by
    rintro ⟨hfailed, hother⟩
    exact hwell.elim (fun hwell => ne_true_of_eq_false hwell hfailed) hother
  show execRequestTestSlice h utype unit slice s = _
  rw [execRequestTestSlice, State.mbBg_takes (c := { opcode := 0xC0A8, ld := false, fm := .module, len := [13] }) ht
    ((if_neg hvalid).trans ((if_neg (ne_true_of_eq_false hidle)).trans (if_neg hone))) (s.markSlice_now slice unit true)]

end

theorem exec_getTestSchedule_of_first {o : OutReq} (ht : s.takes h { opcode := 0xC0A9, ld := false, fm := .module, len := [16] })
    (hfirst : o.first = 0) :
    exec (.getTestSchedule h o) s = .next (s.repliedRecs h 0xC0A9 16 o (allSlices.map fun x => s.sliceFields x.1 x.2)) := by
  show execGetTestSchedule h o s = _
  rw [execGetTestSchedule, State.mbSnap_recs ht hfirst (by decide) rfl]

theorem exec_setTestInterval_of_valid {slice interval : Nat} (ht : s.takes h { opcode := 0xC0AA, ld := false, fm := .module, len := [16] })
    (hslice : slice < 7) (hrange : interval ≠ 0 → 10 ≤ interval ∧ interval ≤ 10080) :
    exec (.setTestInterval h slice interval) s =
      .next ((s.modHealth fun x => { x with intervals := x.intervals.set slice interval }).replied h 0xC0AA [] []) := by
  have hvalid : ¬ (7 ≤ slice ∨ (interval ≠ 0 ∧ (interval < 10 ∨ 10080 < interval))) := by omega
  show execSetTestInterval h slice interval s = _
  rw [execSetTestInterval, State.mbRun_takes ht (if_neg hvalid)]

theorem exec_setDeferralLimit_of_valid {limit : Nat} (ht : s.takes h { opcode := 0xC0AB, ld := false, fm := .module, len := [12] })
    (hsome : limit ≠ 0) (hmax : limit ≤ 120) :
    exec (.setDeferralLimit h limit) s = .next ((s.modHealth fun x => { x with deferral := limit }).replied h 0xC0AB [] []) := by
  have hvalid : ¬ (limit = 0 ∨ 120 < limit) := by omega
  show execSetDeferralLimit h limit s = _
  rw [execSetDeferralLimit, State.mbRun_takes ht (if_neg hvalid)]

/-! ### Calibration (C0ACh, R412) -/

theorem exec_requestCalibration_of_stack {unit : Nat} (ht : s.takes h { opcode := 0xC0AC, ld := false, fm := .module, len := [10], bg := true })
    (hunit : unit ≤ 11) (hok : s.stackOk unit = true) (hidle : (s.stackAt unit).retrainPoint = none) :
    exec (.requestCalibration h 0 unit) s =
      .next ((s.modStack unit fun x => x.queueTrain x.point).begun h 0xC0AC (.requestCalibration h 0 unit)) := by
  have hvalid : ¬ ((0 : Nat) ≠ 0 ∨ 11 < unit ∨ ¬ s.stackOk unit = true) := by
    simp only [not_or, Nat.not_lt]
    exact ⟨not_not_intro rfl, hunit, not_not_intro hok⟩
  have hfree : ¬ (s.stackAt unit).retrainPoint.isSome = true := by
    rw [hidle]
    decide
  show execRequestCalibration h 0 unit s = _
  rw [execRequestCalibration, State.mbBg_takes (c := { opcode := 0xC0AC, ld := false, fm := .module, len := [10] })
    (v := s.modStack unit fun x => x.queueTrain x.point) ht ((if_neg hvalid).trans (if_neg hfree)) rfl]

/-! ### Ageing telemetry and the plan (C0ADh, C0AEh) -/

theorem exec_getAgeingTelemetry_of_first {o : OutReq} (ht : s.takes h { opcode := 0xC0AD, ld := false, fm := .module, len := [16] })
    (hfirst : o.first = 0) :
    exec (.getAgeingTelemetry h o) s =
      .next ((s.repliedRecs h 0xC0AD 16 o (s.ageRecs fun i => Config.freeValue (s.freeCtr + i))).skipFree 464) := by
  show execGetAgeingTelemetry h o s = _
  rw [execGetAgeingTelemetry, State.mbSnap_recs ht hfirst (by decide) rfl]

theorem exec_getTenteringPlan_of_takes (ht : s.takes h { opcode := 0xC0AE, ld := false, fm := .module }) :
    exec (.getTenteringPlan h) s = .next ((s.freeFields 56 48).2.replied h 0xC0AE ([⟨0, 1, s.health.ceil⟩,
      ⟨1, 1, b2n s.health.hubcap + 2 * b2n s.health.blower⟩, ⟨2, 2, s.health.hubVolt⟩] ++
      ((List.range 4).flatMap fun d => (List.range 5).map fun c => (⟨4 + 10 * d + 2 * c, 2, s.health.volts.get (8 * d + c)⟩ : Fld)) ++
      [⟨44, 1, s.deep.budget⟩, ⟨48, 8, s.stampOf fmSrc s.health.planAt⟩] ++ (s.freeFields 56 48).1) []) := by
  show execGetTenteringPlan h s = _
  rw [execGetTenteringPlan, State.mbRun_takes ht rfl]

end

section
variable {t : Nat} {s u : State} (hu : u = s.at_ t)
include hu

theorem exec_pathMonitorSample_of_due {readings hub : List Nat} (hup : u.up = true)
    (hdue : u.health.sampleAt = 0 ∨ u.health.sampleAt + 600 * sec ≤ u.now) :
    exec (.pathMonitorSample t readings hub) s =
      .next (u.modHealth fun h => { h with slack := readings.take 192, hubSlack := hub.take 16, sampleAt := u.now }) := by
  subst hu
  exact if_pos ⟨hup, hdue⟩

theorem exec_tenteringRun_of_due {waf30 : Nat} {margins : List Nat} {v : State} (hup : u.up = true)
    (hdue : u.health.planAt = 0 ∨ u.health.planAt + 86400 * sec ≤ u.now)
    (hv : v = ((((List.range 4).foldl State.planDie u).planHub.planFlash waf30).planLasers margins).modHealth fun h =>
      { h with plans := bump 16 h.plans 1, planAt := u.now }) :
    exec (.tenteringRun t waf30 margins) s = .next (v.applySteps.noteVitals u) := by
  subst hv hu
  exact if_pos ⟨hup, hdue⟩

end

end Sys2Proof.Machine

open Sys2Proof.Machine

/-- Settles O33: each clause is the lemma of its event or command. -/
theorem healthComplete : Obligations.HealthComplete := by
  unfold Obligations.HealthComplete
  refine ⟨?due, ?gap, ?deferral, ?complete, ?request, ?schedule, ?interval, ?limit, ?calibration, ?sample, ?tenter, ?ageing, ?plan⟩
  case due =>
    intro t slice unit every r s u v hu hr hevery hup hhas hen hmarked hwell hdue hv
    exact exec_sliceDue_of_due hu hr hevery hup hhas hen hmarked hwell hdue hv
  case gap =>
    intro t slice unit d r s u hu hr hd hup hhas hmarked hdue
    exact exec_sliceGapTimeout_of_due hu hr hd hup hhas hmarked hdue
  case deferral =>
    intro t slice unit d r s u hu hr hd hup hslice hmarked hdrain hruns hdue
    exact exec_sliceDeferralExpire_of_due hu hr hd hup hslice hmarked hdrain hruns hdue
  case complete =>
    intro t slice unit o failed s u v w x hu hhas hup _ hruns hmargin hfailed hv hw hphase hx
    exact exec_sliceComplete_of_running hu hhas hup hruns hmargin hfailed hv hw hphase hx
  case request =>
    intro h utype unit slice s ht hhas hutype hidle
    exact ⟨exec_requestTestSlice_of_failed ht hhas hutype hidle, exec_requestTestSlice_of_well ht hhas hutype hidle⟩
  case schedule =>
    intro h o s ht hfirst
    exact exec_getTestSchedule_of_first ht hfirst
  case interval =>
    intro h slice interval s ht hslice hrange
    exact exec_setTestInterval_of_valid ht hslice hrange
  case limit =>
    intro h limit s ht hsome hmax
    exact exec_setDeferralLimit_of_valid ht hsome hmax
  case calibration =>
    intro h unit s ht hunit hok hidle
    exact exec_requestCalibration_of_stack ht hunit hok hidle
  case sample =>
    intro t readings hub s u hu hup hdue
    exact exec_pathMonitorSample_of_due hu hup hdue
  case tenter =>
    intro t waf30 margins s u v hu hup hdue hv
    exact exec_tenteringRun_of_due hu hup hdue hv
  case ageing =>
    intro h o s ht hfirst
    exact exec_getAgeingTelemetry_of_first ht hfirst
  case plan =>
    intro h s ht
    exact exec_getTenteringPlan_of_takes ht

end

section
/-! PROOFS. The standard commands of every mailbox (O34): identification, logs, events, firmware, time and health (R354, R364 to R366, R375,
Table 15.5). -/
namespace Sys2Proof.Machine

/-- A standard command that is taken and passes its own rules. -/
theorem State.stdRun_takes {s : State} {h : MbHdr} {opcode : Nat} {ld : Bool} {fm : FmTarget} {body : MbBody} {r : MbOk}
    (ht : s.takes h (stdCmd opcode ld fm)) (hb : body s = .ok r) :
    s.mbRun h (stdCmd opcode ld fm) body = r.s.replied h opcode r.fields r.blob := State.mbRun_takes ht hb

/-- The whole image of a command that fails one of its own rules. -/
theorem State.mbParts_fails {s v : State} {h : MbHdr} {c : Cmd} {p : Part} {img : Bytes} {check : Bytes → MbBody} {code : Rc}
    (ht : s.takes h { c with len := [], lenFrom := some 32 }) (hlen : h.len = c.partHead + p.data.length)
    (hp : s.takePart h.src c.opcode p = .whole v img) (hl : img.length = p.total) (hc : check img v = .error code) :
    s.mbParts h c p check = v.answer h c code [] [] := by
  obtain ⟨hring, hcheck⟩ := ht
  simp [State.mbParts, hring, hcheck, hlen, hp, hl, hc]

section
variable {h : MbHdr} {s : State}

theorem exec_unsupportedCommand_of_unlisted {opcode : Nat} {c : Cmd} (hring : s.rings h.src = true) (hno : opcode ∉ commandsOf h.src)
    (hc : c = { opcode := opcode, ld := false, fm := .no, vendor := decide (0xC000 ≤ opcode ∧ opcode ≤ 0xC0FF) }) :
    exec (.unsupportedCommand h opcode) s = .next (s.answer h c .unsupported [] []) := by
  subst hc
  exact congrArg Host.Outcome.next (if_pos ⟨hring, mt List.contains_iff_mem.1 hno⟩)

/-! ### Identity and logs (R364) -/

theorem exec_identifyMemoryDevice_of_takes (ht : s.takes h (stdCmd 0x4000 true .no)) :
    exec (.identifyMemoryDevice h) s = .next (s.replied h 0x4000 [⟨0, 4, s.fwver⟩, ⟨16, 8, (s.ext.parts.get h.src).dpaSize⟩, ⟨24, 8, 0⟩,
      ⟨32, 8, 0⟩, ⟨40, 8, 0⟩, ⟨48, 2, 128⟩, ⟨50, 2, 128⟩, ⟨52, 2, 128⟩, ⟨54, 2, 32⟩, ⟨56, 4, 0⟩, ⟨60, 3, 256⟩, ⟨63, 2, 64⟩, ⟨67, 2, 256⟩] []) := by
  show execIdentifyMemoryDevice h s = _
  rw [execIdentifyMemoryDevice, State.stdRun_takes ht rfl]

theorem exec_getSupportedLogs_of_takes (ht : s.takes h (stdCmd 0x0400 true .module)) :
    exec (.getSupportedLogs h) s =
      .next (s.replied h 0x0400 [⟨0, 2, 1⟩, ⟨8, 16, celUuid⟩, ⟨24, 4, (effectsLog h.src).length⟩] []) := by
  show execGetSupportedLogs h s = _
  rw [execGetSupportedLogs, State.stdRun_takes ht rfl]

theorem exec_getLog_of_cel {offset length : Nat} (ht : s.takes h (stdCmd 0x0401 true .module))
    (hend : offset + length ≤ (effectsLog h.src).length) :
    exec (.getLog h true offset length) s = .next (s.replied h 0x0401 [] (((effectsLog h.src).drop offset).take length)) := by
  have hvalid : ¬ (¬ true = true ∨ (effectsLog h.src).length < offset + length) := not_or.2 ⟨not_not_intro rfl, Nat.not_lt.2 hend⟩
  show execGetLog h true offset length s = _
  rw [execGetLog, State.stdRun_takes ht (if_neg hvalid)]

/-! ### Events (R366) -/

section
variable {log : Nat} {l : EvLog} (hlog : log ≤ 4) (hl : l = s.mbox.logs.get (h.src * 8 + log))
include hlog hl

theorem exec_getEventRecords_of_log (ht : s.takes h (stdCmd 0x0100 true .module)) :
    exec (.getEventRecords h log) s = .next (s.replied h 0x0100 [⟨0, 1, b2n l.ovf⟩, ⟨2, 2, min l.ovCount 65535⟩, ⟨4, 8, l.ovFirst⟩,
      ⟨12, 8, l.ovLast⟩, ⟨20, 2, l.recs.length⟩] (l.recs.flatMap fun e => e.bytes log)) := by
  subst hl
  show execGetEventRecords h log s = _
  rw [execGetEventRecords, State.stdRun_takes ht (if_neg (Nat.not_lt.2 hlog))]

theorem exec_clearEventRecords_of_held {all : Bool} {handles : List Nat} {logs : Tbl EvLog} (ht : s.takes h (stdCmd 0x0101 true .module))
    (hlen : h.len = 6 + 2 * handles.length) (hheld : all = false → ∀ x ∈ handles, ∃ e ∈ l.recs, e.handle = x)
    (hlogs : logs = s.mbox.logs.set (h.src * 8 + log) (l.keep fun e => !all && !handles.contains e.handle)) :
    exec (.clearEventRecords h log all handles) s =
      .next (({ s with mbox := { s.mbox with logs := logs } } : State).replied h 0x0101 [] []) := by
  have hvalid : ¬ (4 < log ∨ h.len ≠ 6 + 2 * handles.length) := by omega
  have hknown : ¬ (¬ all = true ∧ handles.any (fun x => !(l.recs.any fun e => e.handle == x)) = true) := by
    rintro ⟨hsome, hbad⟩
    obtain ⟨x, hx, hmiss⟩ := List.any_eq_true.1 hbad
    obtain ⟨e, he, hex⟩ := hheld (Bool.eq_false_of_not_eq_true hsome) x hx
    have hhit : (l.recs.any fun e => e.handle == x) = true := List.any_eq_true.2 ⟨e, he, beq_iff_eq.2 hex⟩
    rw [hhit] at hmiss
    exact Bool.false_ne_true hmiss
  subst hlogs hl
  show execClearEventRecords h log all handles s = _
  rw [execClearEventRecords, State.stdRun_takes ht ((if_neg hvalid).trans (if_neg hknown))]

end

theorem exec_getEventInterruptPolicy_of_takes (ht : s.takes h (stdCmd 0x0102 true .module)) :
    exec (.getEventInterruptPolicy h) s =
      .next (s.replied h 0x0102 ((List.range 5).map fun l => ⟨l, 1, s.mbox.policy.get (h.src * 8 + l) + 16 * (l + 1)⟩) []) := by
  show execGetEventInterruptPolicy h s = _
  rw [execGetEventInterruptPolicy, State.stdRun_takes ht rfl]

theorem exec_setEventInterruptPolicy_of_valid {modes : List Nat} {pol : Tbl Nat} (ht : s.takes h (stdCmd 0x0103 true .module))
    (hlen : modes.length = h.len) (hmodes : ∀ m ∈ modes, m ≤ 1)
    (hpol : pol = modes.zipIdx.foldl (fun (t : Tbl Nat) p => t.set (h.src * 8 + p.2) p.1) s.mbox.policy) :
    exec (.setEventInterruptPolicy h modes) s =
      .next (({ s with mbox := { s.mbox with policy := pol } } : State).replied h 0x0103 [] []) := by
  have hvalid : ¬ (modes.length ≠ h.len ∨ modes.any (fun m => decide (1 < m)) = true) := by
    refine not_or.2 ⟨not_not_intro hlen, fun hbad => ?mode⟩
    obtain ⟨m, hm, hhigh⟩ := List.any_eq_true.1 hbad
    exact Nat.not_lt.2 (hmodes m hm) (of_decide_eq_true hhigh)
  subst hpol
  show execSetEventInterruptPolicy h modes s = _
  rw [execSetEventInterruptPolicy, State.stdRun_takes ht (if_neg hvalid)]

/-! ### Firmware (R375, R376) -/

theorem exec_getFwInfo_of_takes (ht : s.takes h (stdCmd 0x0200 true .module)) :
    exec (.getFwInfo h) s = .next (s.replied h 0x0200 [⟨0, 1, 2⟩, ⟨1, 1, (s.boot.running + 1) + 8 * (s.boot.trialSet.getD s.boot.active + 1)⟩,
      ⟨2, 1, 0⟩, ⟨16, 16, s.boot.slotA.fwver⟩, ⟨32, 16, s.boot.slotB.fwver⟩] []) := by
  show execGetFwInfo h s = _
  rw [execGetFwInfo, State.stdRun_takes ht rfl]

/-- The whole image fills the slot that is not running where it passes R374, else Invalid Input. -/
theorem exec_transferFw_of_whole {slot : Nat} {p : Part} {img : Bytes} {c : Cmd} {v : State} (hc : c = stdCmd 0x0201 false .module)
    (ht : s.takes h { c with len := [], lenFrom := some 32 }) (hlen : h.len = 128 + p.data.length)
    (hpart : s.takePart h.src 0x0201 p = .whole v img) (himg : img.length = p.total) (hslot : slot = 1 ∨ slot = 2)
    (hidle : v.boot.recovery = false → slot ≠ v.boot.running + 1) :
    exec (.transferFw h slot p) s = .next (if v.imageOk img then (v.modBoot fun b =>
      if slot = 1 then { b with slotA := slotOfImage img } else { b with slotB := slotOfImage img }).replied h 0x0201 [] []
      else v.answer h c .invalidInput [] []) := by
  have hslot' : ¬ (slot ≠ 1 ∧ slot ≠ 2) := by omega
  have hidle' : ¬ (¬ v.boot.recovery = true ∧ slot = v.boot.running + 1) := fun hbad =>
    hidle (Bool.eq_false_of_not_eq_true hbad.1) hbad.2
  subst hc
  show execTransferFw h slot p s = _
  by_cases hok : v.imageOk img = true
  · have hvalid : ¬ ((slot ≠ 1 ∧ slot ≠ 2) ∨ (¬ v.boot.recovery = true ∧ slot = v.boot.running + 1) ∨ ¬ v.imageOk img = true) :=
      not_or.2 ⟨hslot', not_or.2 ⟨hidle', not_not_intro hok⟩⟩
    rw [execTransferFw, State.mbParts_takes ht hlen hpart himg (if_neg hvalid), if_pos hok]
    rfl
  · rw [execTransferFw, State.mbParts_fails ht hlen hpart himg (if_pos (.inr (.inr hok))), if_neg hok]

theorem exec_activateFw_of_offline {slot : Nat} (ht : s.takes h (stdCmd 0x0202 false .module)) (hslot : slot = 1 ∨ slot = 2) :
    exec (.activateFw h false slot) s = .next ((s.modBoot fun b => { b with trialSet := some (slot - 1) }).replied h 0x0202 [] []) := by
  have hslot' : ¬ (slot ≠ 1 ∧ slot ≠ 2) := by omega
  have hvalid : ¬ (false = true ∨ (slot ≠ 1 ∧ slot ≠ 2)) := not_or.2 ⟨Bool.false_ne_true, hslot'⟩
  show execActivateFw h false slot s = _
  rw [execActivateFw, State.stdRun_takes ht (if_neg hvalid)]

/-! ### Time and health (R354, R365) -/

theorem exec_getTimestamp_of_takes (ht : s.takes h (stdCmd 0x0300 true .module)) :
    exec (.getTimestamp h) s = .next (s.replied h 0x0300 [⟨0, 8, s.timeOf h.src⟩] []) := by
  show execGetTimestamp h s = _
  rw [execGetTimestamp, State.stdRun_takes ht rfl]

theorem exec_setTimestamp_of_takes {value : Nat} (ht : s.takes h (stdCmd 0x0301 true .module)) :
    exec (.setTimestamp h value) s = .next ((s.modCxe fun c =>
      { c with tsOff := c.tsOff.set h.src ((value : Int) - ((s.now - c.tsZero : Nat) : Int)) }).replied h 0x0301 [] []) := by
  show execSetTimestamp h value s = _
  rw [execSetTimestamp, State.stdRun_takes ht rfl]

theorem exec_getHealthInfo_of_takes (ht : s.takes h (stdCmd 0x4200 true .module)) :
    exec (.getHealthInfo h) s = .next (s.replied h 0x4200 (s.healthFields h.src 0) []) := by
  show execGetHealthInfo h s = _
  rw [execGetHealthInfo, State.stdRun_takes ht rfl]

end

end Sys2Proof.Machine

open Sys2Proof.Machine

/-- Settles O34: each clause is the lemma of its command. -/
theorem standardComplete : Obligations.StandardComplete := by
  unfold Obligations.StandardComplete
  refine ⟨?unsupported, ?identify, ?logs, ?log, ?events, ?clear, ?policy, ?setPolicy, ?fw, ?transfer, ?activate, ?time, ?setTime, ?health⟩
  case unsupported =>
    intro h opcode c s hring hno hc
    exact exec_unsupportedCommand_of_unlisted hring hno hc
  case identify =>
    intro h s ht
    exact exec_identifyMemoryDevice_of_takes ht
  case logs =>
    intro h s ht
    exact exec_getSupportedLogs_of_takes ht
  case log =>
    intro h offset length s ht hend
    exact exec_getLog_of_cel ht hend
  case events =>
    intro h log l s ht hlog hl
    exact exec_getEventRecords_of_log hlog hl ht
  case clear =>
    intro h log all handles l s ht hlog hlen hl hheld logs hlogs
    exact exec_clearEventRecords_of_held hlog hl ht hlen hheld hlogs
  case policy =>
    intro h s ht
    exact exec_getEventInterruptPolicy_of_takes ht
  case setPolicy =>
    intro h modes s ht hlen hmodes pol hpol
    exact exec_setEventInterruptPolicy_of_valid ht hlen hmodes hpol
  case fw =>
    intro h s ht
    exact exec_getFwInfo_of_takes ht
  case transfer =>
    intro h slot p img c s v hc ht hlen hpart himg hslot hidle
    exact exec_transferFw_of_whole hc ht hlen hpart himg hslot hidle
  case activate =>
    intro h slot s ht hslot
    exact exec_activateFw_of_offline ht hslot
  case time =>
    intro h s ht
    exact exec_getTimestamp_of_takes ht
  case setTime =>
    intro h value s ht
    exact exec_setTimestamp_of_takes ht
  case health =>
    intro h s ht
    exact exec_getHealthInfo_of_takes ht

end

section
/-! PROOFS. Poison, Dynamic Capacity and the FM API (O35): R339, R355, R364, Table 15.5. -/
namespace Sys2Proof.Machine

section
variable {h : MbHdr} {s : State}

/-! ### Poison (R364) -/

theorem exec_getPoisonList_of_dpa {dpa lines : Nat} {hit : List (Nat × Nat)} (ht : s.takes h (stdCmd 0x4300 true .no))
    (hdpa : s.badDpa h.src dpa = false)
    (hhit : hit = ((s.poisoned h.src).filter fun x => dpa < x.1 + 512 ∧ x.1 < dpa + 64 * lines).foldr insertDpa []) :
    exec (.getPoisonList h dpa lines) s = .next (s.replied h 0x4300 [⟨0, 1, b2n (decide (256 < hit.length))⟩, ⟨10, 2, (hit.take 256).length⟩]
      ((hit.take 256).flatMap fun x => layout 16 [⟨0, 8, x.1 + s.poisonSource x.2⟩, ⟨8, 4, 8⟩])) := by
  subst hhit
  show execGetPoisonList h dpa lines s = _
  rw [execGetPoisonList, State.stdRun_takes ht (if_neg (ne_true_of_eq_false hdpa))]

/-- A block injected already is injected again; a new one where fewer than 64 of the LD's are uncleared. -/
theorem exec_injectPoison_of_room {dpa : Nat} {e : Extent} (ht : s.takes h (stdCmd 0x4301 true .no)) (he : s.poisonExt h.src dpa = some e)
    (hroom : s.blkOf e dpa ∈ s.mbox.injected ∨ (s.mbox.injected.filter fun b => (s.extFor h.src (b / 128)).isSome).length < 64) :
    exec (.injectPoison h dpa) s = .next ((s.injectBlock e (s.blkOf e dpa)).replied h 0x4301 [] []) := by
  have hfull : ¬ (¬ s.mbox.injected.contains (s.blkOf e dpa) = true ∧
      64 ≤ (s.mbox.injected.filter fun b => (s.extFor h.src (b / 128)).isSome).length) := by
    rintro ⟨hnew, hmany⟩
    exact hroom.elim (fun hold => hnew (List.contains_iff_mem.2 hold)) (Nat.not_lt.2 hmany)
  show execInjectPoison h dpa s = _
  rw [execInjectPoison, State.stdRun_takes ht (by
    simp only [he]
    exact if_neg hfull)]

theorem exec_clearPoison_of_ext {dpa : Nat} {data : Bytes} {e : Extent} (ht : s.takes h (stdCmd 0x4302 true .no))
    (he : s.poisonExt h.src dpa = some e) :
    exec (.clearPoison h dpa data) s = .next ((s.innerWrite h.src e (s.blkOf e dpa)
      (patch (zeros 512) (64 * lineOf dpa) (fit 64 data)) none (Prof.wclass e.profile)).replied h 0x4302 [] []) := by
  show execClearPoison h dpa data s = _
  rw [execClearPoison, State.stdRun_takes ht (by
    simp only [he]
    rfl)]

/-! ### Dynamic Capacity (R339) -/

theorem exec_getDcConfiguration_of_region {first count n : Nat} (ht : s.takes h (stdCmd 0x4800 true .no)) (hfirst : first < 8)
    (hn : n = min count (8 - first)) :
    exec (.getDcConfiguration h first count) s = .next (s.replied h 0x4800 [⟨0, 1, 8⟩, ⟨1, 1, n⟩]
      ((List.range n).flatMap fun i => s.regionConfig h.src (first + i))) := by
  subst hn
  show execGetDcConfiguration h first count s = _
  rw [execGetDcConfiguration, State.stdRun_takes ht (if_neg (Nat.not_le.2 hfirst))]

theorem exec_getDcExtentList_of_start {count start : Nat} {es out : List Extent} (ht : s.takes h (stdCmd 0x4801 true .no))
    (hes : es = s.dcExtents h.src) (hstart : start ≤ es.length) (hout : out = (es.drop start).take count) :
    exec (.getDcExtentList h count start) s = .next (s.free.2.replied h 0x4801 [⟨0, 4, out.length⟩, ⟨4, 4, es.length⟩, ⟨8, 4, s.free.1⟩]
      (out.flatMap extentRec)) := by
  subst hout hes
  show execGetDcExtentList h count start s = _
  rw [execGetDcExtentList, State.stdRun_takes ht (if_neg (Nat.not_lt.2 hstart))]
  rfl

theorem exec_getDcdInfo_of_takes (ht : s.takes h (stdCmd 0x5600 false .module)) :
    exec (.getDcdInfo h) s = .next (s.replied h 0x5600 [⟨0, 1, 16⟩, ⟨1, 1, 8⟩, ⟨4, 2, 12⟩,
      ⟨12, 8, sumOf (allLds.flatMap fun ld => (s.ext.parts.get ld).regions.map fun r => r.2 * granule)⟩, ⟨20, 8, granule⟩] []) := by
  show execGetDcdInfo h s = _
  rw [execGetDcdInfo, State.stdRun_takes ht rfl]

section
variable {host : Nat} (hhost : host < 16) (hon : s.ldOn host = true)
include hhost hon

theorem exec_getHostDcRegionConfig_of_region {first count n : Nat} (ht : s.takes h (stdCmd 0x5601 false .module)) (hfirst : first < 8)
    (hn : n = min count (8 - first)) :
    exec (.getHostDcRegionConfig h host first count) s = .next (s.replied h 0x5601 [⟨0, 2, host⟩, ⟨2, 1, 8⟩, ⟨3, 1, n⟩]
      ((List.range n).flatMap fun i => s.regionConfig host (first + i))) := by
  have hvalid : ¬ (16 ≤ host ∨ ¬ s.ldOn host = true ∨ 8 ≤ first) :=
    not_or.2 ⟨Nat.not_le.2 hhost, not_or.2 ⟨not_not_intro hon, Nat.not_le.2 hfirst⟩⟩
  subst hn
  show execGetHostDcRegionConfig h host first count s = _
  rw [execGetHostDcRegionConfig, State.stdRun_takes ht (if_neg hvalid)]

theorem exec_getDcRegionExtentLists_of_start {count start : Nat} {es out : List Extent} (ht : s.takes h (stdCmd 0x5603 false .module))
    (hes : es = s.dcExtents host) (hstart : start ≤ es.length) (hout : out = (es.drop start).take count) :
    exec (.getDcRegionExtentLists h host count start) s = .next (s.free.2.replied h 0x5603 [⟨0, 2, host⟩, ⟨4, 4, start⟩, ⟨8, 4, out.length⟩,
      ⟨12, 4, es.length⟩, ⟨16, 4, s.free.1⟩] (out.flatMap extentRec)) := by
  subst hout hes
  have hvalid : ¬ (16 ≤ host ∨ ¬ s.ldOn host = true ∨ (s.dcExtents host).length < start) :=
    not_or.2 ⟨Nat.not_le.2 hhost, not_or.2 ⟨not_not_intro hon, Nat.not_lt.2 hstart⟩⟩
  show execGetDcRegionExtentLists h host count start s = _
  rw [execGetDcRegionExtentLists, State.stdRun_takes ht (if_neg hvalid)]
  rfl

end

/-! ### Logical devices and QoS (R355) -/

theorem exec_getLdInfo_of_takes (ht : s.takes h (stdCmd 0x5400 false .module)) :
    exec (.getLdInfo h) s =
      .next (s.replied h 0x5400 [⟨0, 8, sumOf (allLds.map fun ld => (s.ext.parts.get ld).dpaSize) * granule⟩, ⟨8, 2, 16⟩] []) := by
  show execGetLdInfo h s = _
  rw [execGetLdInfo, State.stdRun_takes ht rfl]

theorem exec_getLdAllocations_of_ld {start limit n : Nat} (ht : s.takes h (stdCmd 0x5401 false .module)) (hstart : start < 16)
    (hn : n = min limit (16 - start)) :
    exec (.getLdAllocations h start limit) s = .next (s.replied h 0x5401 [⟨0, 1, 16⟩, ⟨1, 1, 0⟩, ⟨2, 1, start⟩, ⟨3, 1, n⟩]
      ((List.range n).flatMap fun i => layout 16 [⟨0, 8, (s.ext.parts.get (start + i)).dpaSize⟩])) := by
  subst hn
  show execGetLdAllocations h start limit s = _
  rw [execGetLdAllocations, State.stdRun_takes ht (if_neg (Nat.not_le.2 hstart))]

theorem exec_fmQosControl_read (ht : s.takes h (stdCmd 0x5408 false .module)) :
    exec (.fmQosControl h none) s = .next (s.replied h 0x5408 [] (s.cxe.qos.map fun x => BitVec.ofNat 8 x)) :=
  congrArg Host.Outcome.next (State.stdRun_takes (r := { s := s, blob := s.cxe.qos.map fun x => BitVec.ofNat 8 x }) ht rfl)

theorem exec_fmQosControl_set {l : List Nat} (ht : s.takes h (stdCmd 0x5409 false .module)) (hmax : l.length ≤ 16) (hlen : h.len = 2 + l.length)
    (hbyte : ∀ x ∈ l, x ≤ 255) :
    exec (.fmQosControl h (some l)) s = .next ((s.modCxe fun c => { c with qos := l }).replied h 0x5409 [] []) := by
  have hvalid : ¬ (16 < l.length ∨ h.len ≠ 2 + l.length ∨ l.any (fun x => decide (255 < x)) = true) := by
    refine not_or.2 ⟨Nat.not_lt.2 hmax, not_or.2 ⟨not_not_intro hlen, fun hbad => ?byte⟩⟩
    obtain ⟨x, hx, hhigh⟩ := List.any_eq_true.1 hbad
    exact Nat.not_lt.2 (hbyte x hx) (of_decide_eq_true hhigh)
  exact congrArg Host.Outcome.next (State.stdRun_takes (r := { s := s.modCxe fun c => { c with qos := l } }) ht (if_neg hvalid))

end

end Sys2Proof.Machine

open Sys2Proof.Machine

/-- Settles O35: each clause is the lemma of its command. -/
theorem mediaCommandsComplete : Obligations.MediaCommandsComplete := by
  unfold Obligations.MediaCommandsComplete
  refine ⟨?list, ?inject, ?clear, ?config, ?extents, ?dcd, ?hostConfig, ?hostExtents, ?ldInfo, ?ldAlloc, ?qos⟩
  case list =>
    intro h dpa lines hit s ht hdpa hhit
    exact exec_getPoisonList_of_dpa ht hdpa hhit
  case inject =>
    intro h dpa e s ht he hroom
    exact exec_injectPoison_of_room ht he hroom
  case clear =>
    intro h dpa data e s ht he
    exact exec_clearPoison_of_ext ht he
  case config =>
    intro h first count n s ht hfirst hn
    exact exec_getDcConfiguration_of_region ht hfirst hn
  case extents =>
    intro h count start es out s ht hes hstart hout
    exact exec_getDcExtentList_of_start ht hes hstart hout
  case dcd =>
    intro h s ht
    exact exec_getDcdInfo_of_takes ht
  case hostConfig =>
    intro h host first count n s ht hhost hon hfirst hn
    exact exec_getHostDcRegionConfig_of_region hhost hon ht hfirst hn
  case hostExtents =>
    intro h host count start es out s ht hhost hon hes hstart hout
    exact exec_getDcRegionExtentLists_of_start hhost hon ht hes hstart hout
  case ldInfo =>
    intro h s ht
    exact exec_getLdInfo_of_takes ht
  case ldAlloc =>
    intro h start limit n s ht hstart hn
    exact exec_getLdAllocations_of_ld ht hstart hn
  case qos =>
    intro h s
    exact ⟨exec_fmQosControl_read, fun l ht hmax hlen hbyte => exec_fmQosControl_set ht hmax hlen hbyte⟩

end
